-- ==== Sys2Proof/Word.lean ====
section
/-! DEFINITION. The word types and the plainest conversions between bit vectors and numbers. -/
namespace Sys2Proof

/-- A byte. -/
abbrev Byte := BitVec 8
/-- A 32-bit word: a register, a port word, a lagoon word (R3). -/
abbrev W32 := BitVec 32
/-- A 64-bit word: a core register, an angle stamp (R7). -/
abbrev W64 := BitVec 64
/-- A 48-bit word: an accumulator, a velocity (R21, R60). -/
abbrev W48 := BitVec 48

/-- The low `n` bits of a number. -/
def low (n x : Nat) : Nat := x % 2 ^ n

/-- Bits [hi:lo] of a number. -/
def bits (x hi lo : Nat) : Nat := x / 2 ^ lo % 2 ^ (hi + 1 - lo)

/-- A truth value as a number. -/
def b2n (b : Bool) : Nat := if b then 1 else 0

/-- A number of `n` bits read as two's complement. -/
def toSigned (n x : Nat) : Int := if x % 2 ^ n < 2 ^ (n - 1) then (x % 2 ^ n : Nat) else (x % 2 ^ n : Nat) - (2 ^ n : Nat)

/-- An integer as a number of `n` bits (modulo `2 ^ n`). -/
def ofSigned (n : Nat) (x : Int) : Nat := (x % (2 ^ n : Nat)).toNat

end Sys2Proof
end

