-- ==== Sys2Proof/Syntax.lean ====
section
/-! DEFINITION. The commands of the block: one constructor per row of the opcode table (spec/opcode_table.json), with the
operands the model gives it: the unit that acts, the value written, the levels and bits that arrive from outside. -/
namespace Sys2Proof

/-- The commands and happenings of the A96, one constructor per row of the opcode table. An index operand ranges over
exactly the units the manual names. -/
inductive Instr where
  /-- REGISTER_WRITE (R4): A write to a register that has no behaviour of its own sets or ignores its fields by the
    access code and its block's write-acceptance rules. -/
  | registerWrite (addr : BitVec 40) (value : BitVec 32)
  /-- TRACKER_ADVANCE (R27): Every ACLK each enabled tracker advances its angle estimate by its velocity. -/
  | trackerAdvance
  /-- MEASUREMENT_LATCH (R22): The MPER period of a count or network-time source expires and the source latches a
    measurement for its tracker. -/
  | measurementLatch (dom : Fin 8)
  /-- MEASUREMENT_ARRIVAL (R27): A measurement reaches the angle unit; its residual against the latch-instant estimate
    is rejected or applied to angle and velocity. -/
  | measurementArrival (dom : Fin 8)
  /-- MARK_TIMEOUT (R28): An expected registration mark has not arrived half a mark spacing after its predicted angle
    and counts as missing. -/
  | markTimeout (dom : Fin 8)
  /-- AD7_SAMPLE (R48): A network-time sample slews AD7 or steps it forward, never backward, while synchronised. -/
  | ad7Sample
  /-- SETANG (R30): A write of SETANG loads AU_ADn_SET into the stamp, with the AD7 restriction. -/
  | setang (dom : Fin 8)
  /-- SETVEL (R30): A write of SETVEL loads AU_ADn_VNOM into the velocity; on AD7 it is refused. -/
  | setvel (dom : Fin 8)
  /-- AU_CLRCNT (R58): A write of CLRCNT clears AU_ADn_CNT. -/
  | auClrcnt (dom : Fin 8)
  /-- DOMAIN_ENABLE (R22): Setting an AU_CTRL.EN bit checks the source configuration and enables the domain, loading
    angle and velocity. -/
  | domainEnable (dom : Fin 8)
  /-- DOMAIN_DISABLE (R29): Clearing an AU_CTRL.EN bit disables the domain and clears LOCK; its lists issue nothing. -/
  | domainDisable (dom : Fin 8)
  /-- PREDICTION_REQUEST (R135): The run-ahead controller issues a queued prediction request, one per ACLK in task
    order. -/
  | predictionRequest
  /-- PREDICTION_ANSWER (R136): Twelve ACLK after a request the angle unit or harbour predictor answers and the
    controller writes the prediction words to the step's frames. -/
  | predictionAnswer (task : Fin 48)
  /-- ENTRY_ISSUE (R37): A list's head entry is reached 4 ACLK ahead and is issued on its action path. -/
  | entryIssue (list : Fin 64)
  /-- REINSERTION_COMPLETE (R45): A periodic entry's reinsertion with its cadence-advanced stamp completes, issuing it
    late if already reached. -/
  | reinsertionComplete (index : Fin 32768)
  /-- FIRE (R36): A FIRE action with TV = 0 takes effect and raises a firing request for the isle's cell group. -/
  | fire
  /-- STROBE (R167): A STROBE action takes effect: its strobe group's ports latch and the named domains latch measured
    angles. -/
  | strobe
  /-- EDGE (R183): An EDGE action takes effect and places a PWM edge at its eighth plus the registered displacement. -/
  | edge
  /-- GATE (R402): A GATE action replaces a port's gate vector. -/
  | gate
  /-- DMA (R36): A DMA action takes effect and queues a trigger on a general engine or stream port. -/
  | dma
  /-- WAKE (R36): A WAKE action takes effect and delivers its wake to the scheduler's arrival queue. -/
  | wake
  /-- POST (R36): A POST action takes effect and sends its payload on VC3 to an NI queue. -/
  | post
  /-- INSERT (R42): A write of ET_INSp_CTL.GO starts an insertion of the port's entry words into a list. -/
  | insert (port : Fin 8) (list : Fin 64)
  /-- INSERT_COMPLETE (R43): An insertion completes within 64 ACLK with OK, OK_LATE or a refusal. -/
  | insertComplete (port : Fin 8)
  /-- DELETE (R44): A write of ET_DEL.GO starts the removal of an entry. -/
  | delete (index : Fin 32768)
  /-- DELETE_COMPLETE (R44): A deletion completes within 64 ACLK with OK or NOT_FOUND. -/
  | deleteComplete
  /-- ET_CLR_DROP (R59): A write of ET_CLR.DROP clears ET_STAT.DROP. -/
  | etClrDrop
  /-- ET_CLR_LATE (R59): A write of ET_CLR.LATE clears ET_LATE and every list LATE count. -/
  | etClrLate
  /-- LANDFALL (R52): A domain is reached by a landfall stamp and every unit acting at its landfalls acts in that
    ACLK. -/
  | landfall (dom : Fin 8)
  /-- MODE_CHANGE_ARM (R54): A write of AU_MCs_CTL.ARM arms a change-set slot and moves its target to a valid
    landfall. -/
  | modeChangeArm (slot : Fin 8) (dom : Fin 8)
  /-- MODE_CHANGE_ABORT (R56): A write of ABORT before the check abandons the change set with CAUSE 3. -/
  | modeChangeAbort (slot : Fin 8)
  /-- MODE_CHANGE_CHECK (R55): The check ACLK of a target arrives and commits the set, postpones it or abandons it. -/
  | modeChangeCheck (slot : Fin 8)
  /-- MODE_CHANGE_ACK (R55): A unit's staging acknowledgment reaches the angle unit and increments GOT. -/
  | modeChangeAck (slot : Fin 8)
  /-- MODE_CHANGE_TIMEOUT (R56): AU_MCs_TMO expires without the change applied and the set is abandoned with CAUSE 2. -/
  | modeChangeTimeout (slot : Fin 8)
  /-- COPYBACK_DONE (R125): The 256-ACLK copy of the new active set into staging ends and SYNC clears. -/
  | copybackDone (isle : Fin 96)
  /-- NOP (R90): A cell issues NOP; only post-step, sequencing and token act. -/
  | nop (isle : Fin 96) (cell : Fin 16)
  /-- MOV (R90): A cell issues MOV, storing bus A through narrowing. -/
  | mov (isle : Fin 96) (cell : Fin 16)
  /-- MOVC (R90): A cell issues MOVC, storing bus C. -/
  | movc (isle : Fin 96) (cell : Fin 16)
  /-- ADD (R90): A cell issues ADD of A and B. -/
  | add (isle : Fin 96) (cell : Fin 16)
  /-- ADDC (R90): A cell issues ADDC of A and C. -/
  | addc (isle : Fin 96) (cell : Fin 16)
  /-- SUB (R90): A cell issues SUB of B from A. -/
  | sub (isle : Fin 96) (cell : Fin 16)
  /-- SUBC (R90): A cell issues SUBC of C from A. -/
  | subc (isle : Fin 96) (cell : Fin 16)
  /-- NEG (R90): A cell issues NEG of A. -/
  | neg (isle : Fin 96) (cell : Fin 16)
  /-- ABS (R90): A cell issues ABS of A. -/
  | abs (isle : Fin 96) (cell : Fin 16)
  /-- MIN (R90): A cell issues MIN of A and B. -/
  | min (isle : Fin 96) (cell : Fin 16)
  /-- MAX (R90): A cell issues MAX of A and B. -/
  | max (isle : Fin 96) (cell : Fin 16)
  /-- AND (R90): A cell issues AND of A and B. -/
  | and (isle : Fin 96) (cell : Fin 16)
  /-- OR (R90): A cell issues OR of A and B. -/
  | or (isle : Fin 96) (cell : Fin 16)
  /-- XOR (R90): A cell issues XOR of A and B. -/
  | xor (isle : Fin 96) (cell : Fin 16)
  /-- ANDC (R90): A cell issues ANDC of A and C. -/
  | andc (isle : Fin 96) (cell : Fin 16)
  /-- ORC (R90): A cell issues ORC of A and C. -/
  | orc (isle : Fin 96) (cell : Fin 16)
  /-- XORC (R90): A cell issues XORC of A and C. -/
  | xorc (isle : Fin 96) (cell : Fin 16)
  /-- NOT (R90): A cell issues NOT of A. -/
  | not (isle : Fin 96) (cell : Fin 16)
  /-- SHL (R90): A cell issues SHL of A by the C count. -/
  | shl (isle : Fin 96) (cell : Fin 16)
  /-- SHR (R90): A cell issues logical SHR of A. -/
  | shr (isle : Fin 96) (cell : Fin 16)
  /-- SHRA (R90): A cell issues arithmetic SHRA of A. -/
  | shra (isle : Fin 96) (cell : Fin 16)
  /-- ROL (R90): A cell issues ROL of A. -/
  | rol (isle : Fin 96) (cell : Fin 16)
  /-- EXP (R69): A cell issues EXP, counting redundant sign bits. -/
  | exp (isle : Fin 96) (cell : Fin 16)
  /-- NORM (R70): A cell issues NORM, shifting its operand left by its EXP count. -/
  | norm (isle : Fin 96) (cell : Fin 16)
  /-- CLIP (R90): A cell issues CLIP, limiting A to plus or minus |C|. -/
  | clip (isle : Fin 96) (cell : Fin 16)
  /-- SWAPH (R90): A cell issues SWAPH, exchanging the halves of A. -/
  | swaph (isle : Fin 96) (cell : Fin 16)
  /-- PACK (R90): A cell issues PACK of the low halves of B and A. -/
  | pack (isle : Fin 96) (cell : Fin 16)
  /-- CONJ (R90): A cell issues CONJ, negating the imaginary half. -/
  | conj (isle : Fin 96) (cell : Fin 16)
  /-- SELX (R90): A cell issues SELX, selecting a switch input by an index slice. -/
  | selx (isle : Fin 96) (cell : Fin 16)
  /-- CSEL (R90): A cell issues CSEL, choosing A or B by COND. -/
  | csel (isle : Fin 96) (cell : Fin 16)
  /-- MPY (R91): A cell issues MPY, loading the accumulators or storing the narrowed product. -/
  | mpy (isle : Fin 96) (cell : Fin 16)
  /-- MAC (R91): A cell issues MAC, adding products to the accumulators. -/
  | mac (isle : Fin 96) (cell : Fin 16)
  /-- MSU (R91): A cell issues MSU, subtracting products from the accumulators. -/
  | msu (isle : Fin 96) (cell : Fin 16)
  /-- MPYJ (R91): A cell issues MPYJ, a loading multiply by conj(C). -/
  | mpyj (isle : Fin 96) (cell : Fin 16)
  /-- MACJ (R91): A cell issues MACJ, accumulating products by conj(C). -/
  | macj (isle : Fin 96) (cell : Fin 16)
  /-- MSUJ (R91): A cell issues MSUJ, subtracting products by conj(C). -/
  | msuj (isle : Fin 96) (cell : Fin 16)
  /-- MPYR (R91): A cell issues MPYR, a loading multiply with bus A real. -/
  | mpyr (isle : Fin 96) (cell : Fin 16)
  /-- MACR (R91): A cell issues MACR, accumulating with bus A real. -/
  | macr (isle : Fin 96) (cell : Fin 16)
  /-- MSUR (R91): A cell issues MSUR, subtracting with bus A real. -/
  | msur (isle : Fin 96) (cell : Fin 16)
  /-- ACCLD (R91): A cell issues ACCLD, loading an accumulator from A and B. -/
  | accld (isle : Fin 96) (cell : Fin 16)
  /-- ACCPRE (R91): A cell issues ACCPRE, presetting accumulators from C. -/
  | accpre (isle : Fin 96) (cell : Fin 16)
  /-- ACCST (R91): A cell issues ACCST, storing narrowed accumulators to DST and the cell output. -/
  | accst (isle : Fin 96) (cell : Fin 16)
  /-- MALFORMED_ISSUE (R99): A cell issues a malformed or uncorrectable context word, writes nothing, continues and
    raises an F1 event. -/
  | malformedIssue (isle : Fin 96) (cell : Fin 16)
  /-- TOKEN_EMIT (R95): A context's token is emitted through its descriptor once every result is visible. -/
  | tokenEmit (isle : Fin 96) (cell : Fin 16)
  /-- TOKEN_APPLY (R117): Tokens reaching a matching-store entry set PRES or NEXTP or count as stale. -/
  | tokenApply (isle : Fin 96) (entry : Fin 64)
  /-- HARBOUR_DELIVERY (R165): A fresh outbound harbour-link word is delivered once to its PWM pair, FIFO or GIO bank. -/
  | harbourDelivery (chan : Fin 96)
  /-- IS_FIRE (R110): A write of IS_FIRE.GO requests a firing of a group for the next ACLK. -/
  | isFire (isle : Fin 96) (group : Fin 16)
  /-- FIRING_REQUEST (R113): The isle sequencer handles a firing request in its ACLK: starts, defers, pends or counts
    an overrun. -/
  | firingRequest (isle : Fin 96) (group : Fin 16)
  /-- PREEMPT_COMPLETE (R122): The last cell of the victim reaches its quiet point; state is saved and the victim
    becomes saved. -/
  | preemptComplete (isle : Fin 96)
  /-- PREEMPT_TIMEOUT (R123): IS_PMTO expires before the pre-emption completes and the request is withdrawn. -/
  | preemptTimeout (isle : Fin 96)
  /-- VICTIM_RESUME (R124): A saved group resumes after its pre-emptor becomes inactive, restoring APL, FLG and
    indices. -/
  | victimResume (isle : Fin 96)
  /-- IS_CLR (R129): A write of IS_CLR.CNT clears IS_CNT0 to IS_CNT2. -/
  | isClr (isle : Fin 96)
  /-- IS_STRIG (R128): A write of IS_STRIG.GO queues a trigger on the isle's stream DMA port. -/
  | isStrig (isle : Fin 96) (trig : Fin 64)
  /-- STREAM_TRANSFER_START (R128): A stream port free of transfers starts the next queued trigger's descriptor. -/
  | streamTransferStart (isle : Fin 96)
  /-- STREAM_TRANSFER_DONE (R300): A stream transfer completes or ends in error. -/
  | streamTransferDone (isle : Fin 96)
  /-- STEP_OPEN (R135): A FIRE action with TV = 1 opens the next step of its task and queues a prediction request. -/
  | stepOpen
  /-- HEAD_FIRE (R135): The controller fires HGRP in every binding 4 ACLK after a step's prediction request. -/
  | headFire (task : Fin 48)
  /-- CARRY_LOAD (R138): The front step's carry registers are loaded from its frames into the shadow registers. -/
  | carryLoad (task : Fin 48)
  /-- CHECK (R143): The policy result of a step reaches the controller 3 ACLK after the latch; the step passes or
    fails. -/
  | check (task : Fin 48)
  /-- TAIL_FIRE (R145): The controller fires TGRP in every binding at L + TFIRE. -/
  | tailFire (task : Fin 48)
  /-- COMMIT (R145): At the commit ACLK shadow state becomes architectural, held tokens are delivered and the next
    step becomes front. -/
  | commit (task : Fin 48)
  /-- SQUASH (R148): A squash decided 2 ACLK earlier takes effect: activations end, shadows revert and EPOCH toggles. -/
  | squash (task : Fin 48)
  /-- RERUN (R149): A squashed step is run again from its measured angle or a fresh prediction. -/
  | rerun (task : Fin 48)
  /-- REPLAY (R150): After the squashed step commits, the next squashed step is re-opened as a replay. -/
  | replay (task : Fin 48)
  /-- SQREQ (R142): An SQREQ run-ahead token reaches the controller and squashes its step. -/
  | sqreq (task : Fin 48)
  /-- HALT_TOKEN (R154): A HALT run-ahead token reaches the controller and halts the task. -/
  | haltToken (task : Fin 48)
  /-- NOTE (R142): A NOTE run-ahead token increments the task's NOTE counter. -/
  | note (task : Fin 48)
  /-- CTL_SQUASH (R147): A write of AHD_LTt_CTL.SQUASH squashes the front step. -/
  | ctlSquash (task : Fin 48)
  /-- CTL_HALT (R154): A write of AHD_LTt_CTL.HALT halts the task. -/
  | ctlHalt (task : Fin 48)
  /-- AHD_CLRCNT (R159): A write of AHD_LTt_CTL.CLRCNT clears CNT0 to CNT2 and LAT. -/
  | ahdClrcnt (task : Fin 48)
  /-- TASK_ENABLE (R132): A write of 1 to AHD_LTt_CFG.EN checks the task and starts it RUNNING or refuses with CFGERR. -/
  | taskEnable (task : Fin 48) (value : BitVec 32)
  /-- TASK_DISABLE (R154): A write of 0 to AHD_LTt_CFG.EN disables the task. -/
  | taskDisable (task : Fin 48)
  /-- AHD_DISABLE (R154): Clearing AHD_CTRL.EN halts every task. -/
  | ahdDisable
  /-- POL_WRITE (R144): A write of AHD_LTt_POL takes in the staged TOL and the pair applies from the next check. -/
  | polWrite (task : Fin 48) (value : BitVec 32)
  /-- SNAPSHOT_ARM (R155): A write of AHD_SNs_CTL.ARM arms a snapshot slot or refuses with CFGERR. -/
  | snapshotArm (slot : Fin 8) (value : BitVec 32)
  /-- SNAPSHOT_STOP (R155): A write of STOP ends a standing snapshot slot after its current record. -/
  | snapshotStop (slot : Fin 8)
  /-- SNAPSHOT_DRAIN_DONE (R157): A snapshot record's drain ends, writing its header and final SEQ. -/
  | snapshotDrainDone (slot : Fin 8)
  /-- SD_FREE_WORD (R170): Every DEC-th bit latch a sigma-delta input produces its free-running word, ready 3 ACLK
    later. -/
  | sdFreeWord (input : Fin 48)
  /-- SD_STROBE_WORD (R170): A sigma-delta strobe word becomes ready after the strobe's bit latch. -/
  | sdStrobeWord (input : Fin 48)
  /-- SD_TRIP (R172): A comparator excursion completes its count and the input trips, holding the pairs of its trip
    group safe. -/
  | sdTrip (input : Fin 48)
  /-- LVDS_FRAME (R174): An LVDS lane completes a frame, updating its word and lock or discarding it as a frame error. -/
  | lvdsFrame (lane : Fin 16) (len : Nat) (bits : BitVec 32)
  /-- ENC_TRANSITION (R176): An accepted quadrature transition changes the encoder count or is an illegal transition. -/
  | encTransition (enc : Fin 8) (a : Bool) (b : Bool)
  /-- Z_EDGE (R177): An accepted Z edge copies the count to ZCNT and sets ZSEEN. -/
  | zEdge (enc : Fin 8) (rising : Bool)
  /-- ENC_CNT_WRITE (R177): A write of HP_ENCe_CNT sets the live count in the ACLK it arrives. -/
  | encCntWrite (enc : Fin 8) (value : BitVec 32)
  /-- SSI_PERIODIC_START (R178): The PER period expires and an SSI interface starts a frame, or sets BUSY. -/
  | ssiPeriodicStart (ssi : Fin 8)
  /-- SSI_FRAME_DONE (R179): An SSI frame's last bit is sampled; the frame is checked and stored or flagged in error. -/
  | ssiFrameDone (ssi : Fin 8) (startHigh : Bool) (bits : BitVec 40)
  /-- PREDICTOR_SAMPLE (R180): The PPER period expires and a predictor takes a measurement, updating its slope. -/
  | predictorSample (pred : Fin 48)
  /-- PWM_EDGE_ACT (R182): A placed PWM edge reaches its time and turns one side off, scheduling the other side after
    dead time. -/
  | pwmEdgeAct (pair : Fin 48)
  /-- PWM_DEADTIME_END (R182): Dead time after an edge elapses and the pending side turns on. -/
  | pwmDeadtimeEnd (pair : Fin 48)
  /-- PWM_CMD_WRITE (R183): A write of PW_PAIRp_CMD registers a command. -/
  | pwmCmdWrite (pair : Fin 48) (value : BitVec 32)
  /-- TRIP_CLEAR (R185): A write of 1 to PW_PAIRp_STAT.TRIP clears the trip unless one occurs in the same ACLK. -/
  | tripClear (pair : Fin 48)
  /-- PW_SAFE_WRITE (R161): A write of PW_CTRL.SAFE drives every pair to or releases it from its safe state. -/
  | pwSafeWrite (safe : Bool)
  /-- PW_CLR_CNT (R198): A write of PW_PAIRp_CLR.CNT clears the pair's counters. -/
  | pwClrCnt (pair : Fin 48)
  /-- MARK_ACCEPT (R187): A GIO mark edge followed by MINW ACLK of level is accepted and sent to its domain. -/
  | markAccept (gio : Fin 64)
  /-- GIO_PULSE_END (R188): A strobe pulse of PW ACLK ends. -/
  | gioPulseEnd (gio : Fin 64)
  /-- FIFO_DATA_READ (R189): A read of FQ_Qf_DATA returns and removes the oldest readable item, or sets UNDR. -/
  | fifoDataRead (fifo : Fin 8)
  /-- FQ_FLUSH (R193): A write of FQ_Qf_CTL.FLUSH discards every item. -/
  | fqFlush (fifo : Fin 8)
  /-- FQ_CLRLOST (R199): A write of CLRLOST clears FQ_Qf_LOST. -/
  | fqClrlost (fifo : Fin 8)
  /-- IMAGE_HEADER_IN (R202): A full image's 128-byte header has been read and its identity and header checks run. -/
  | imageHeaderIn
  /-- IMAGE_STREAM_END (R213): A full image has streamed into staging; tag and static checks run and application
    begins. -/
  | imageStreamEnd (sourceOk : Bool)
  /-- IMAGE_RELEASE (R216): Once all sections are applied the device is released in one ACLK. -/
  | imageRelease
  /-- ICP_GO (R221): A write of CF_ICP_CTL.GO starts the ICP reading a partial image. -/
  | icpGo (value : BitVec 32)
  /-- ICP_HEADER_IN (R221): The partial image's header is in and identity, kind, size, key and floor are checked. -/
  | icpHeaderIn
  /-- ICP_COPY_END (R221): The image copy into the staging buffer ends, or ends TRUNCATED. -/
  | icpCopyEnd (sourceOk : Bool)
  /-- ICP_TAG_CHECK (R221): 160 ACLK after the last byte the tag is compared. -/
  | icpTagCheck
  /-- ICP_CHECKS_DONE (R221): The static checks end; the slot is armed and staging starts. -/
  | icpChecksDone
  /-- ICP_UNIT_STAGED (R221): The causeway finishes writing a unit's staging copy and moves to the next unit. -/
  | icpUnitStaged
  /-- ICP_SET_CHECK_DONE (R221): A staged isle's 256-ACLK staging-set check ends and acknowledges, or fails the ICP. -/
  | icpSetCheckDone (isle : Fin 96)
  /-- ICP_ABORT (R223): A write of CF_ICP_CTL.ABORT aborts the partial image before its check. -/
  | icpAbort
  /-- RB_GO (R230): A write of CF_RB_CTL.GO starts a readback of the item list. -/
  | rbGo (value : BitVec 32)
  /-- READBACK_DONE (R231): The readback record has been drained to its buffer. -/
  | readbackDone
  /-- APERTURE_WRITE (R229): A write through the configuration aperture changes a staging word or is ignored. -/
  | apertureWrite (offset : BitVec 21) (value : BitVec 32)
  /-- CORE_ADD (R258): A core executes ADD. -/
  | coreAdd (core : Fin 4) (rd : Fin 32) (ra : Fin 32) (rb : Fin 32)
  /-- CORE_SUB (R258): A core executes SUB. -/
  | coreSub (core : Fin 4) (rd : Fin 32) (ra : Fin 32) (rb : Fin 32)
  /-- ADD32 (R258): A core executes ADD32 with sign extension. -/
  | add32 (core : Fin 4) (rd : Fin 32) (ra : Fin 32) (rb : Fin 32)
  /-- SUB32 (R258): A core executes SUB32 with sign extension. -/
  | sub32 (core : Fin 4) (rd : Fin 32) (ra : Fin 32) (rb : Fin 32)
  /-- CORE_AND (R258): A core executes AND. -/
  | coreAnd (core : Fin 4) (rd : Fin 32) (ra : Fin 32) (rb : Fin 32)
  /-- CORE_OR (R258): A core executes OR. -/
  | coreOr (core : Fin 4) (rd : Fin 32) (ra : Fin 32) (rb : Fin 32)
  /-- CORE_XOR (R258): A core executes XOR. -/
  | coreXor (core : Fin 4) (rd : Fin 32) (ra : Fin 32) (rb : Fin 32)
  /-- CORE_SHL (R258): A core executes SHL. -/
  | coreShl (core : Fin 4) (rd : Fin 32) (ra : Fin 32) (rb : Fin 32)
  /-- CORE_SHR (R258): A core executes SHR. -/
  | coreShr (core : Fin 4) (rd : Fin 32) (ra : Fin 32) (rb : Fin 32)
  /-- CORE_SHRA (R258): A core executes SHRA. -/
  | coreShra (core : Fin 4) (rd : Fin 32) (ra : Fin 32) (rb : Fin 32)
  /-- CLTS (R258): A core executes CLTS, a signed compare. -/
  | clts (core : Fin 4) (rd : Fin 32) (ra : Fin 32) (rb : Fin 32)
  /-- CLTU (R258): A core executes CLTU, an unsigned compare. -/
  | cltu (core : Fin 4) (rd : Fin 32) (ra : Fin 32) (rb : Fin 32)
  /-- MUL (R258): A core executes MUL, the low 64 bits of the product. -/
  | mul (core : Fin 4) (rd : Fin 32) (ra : Fin 32) (rb : Fin 32)
  /-- MHIS (R258): A core executes MHIS, the signed high product. -/
  | mhis (core : Fin 4) (rd : Fin 32) (ra : Fin 32) (rb : Fin 32)
  /-- MHIU (R258): A core executes MHIU, the unsigned high product. -/
  | mhiu (core : Fin 4) (rd : Fin 32) (ra : Fin 32) (rb : Fin 32)
  /-- QUOS (R258): A core executes QUOS, raising DIVZ on zero. -/
  | quos (core : Fin 4) (rd : Fin 32) (ra : Fin 32) (rb : Fin 32)
  /-- QUOU (R258): A core executes QUOU. -/
  | quou (core : Fin 4) (rd : Fin 32) (ra : Fin 32) (rb : Fin 32)
  /-- RMDS (R258): A core executes RMDS. -/
  | rmds (core : Fin 4) (rd : Fin 32) (ra : Fin 32) (rb : Fin 32)
  /-- RMDU (R258): A core executes RMDU. -/
  | rmdu (core : Fin 4) (rd : Fin 32) (ra : Fin 32) (rb : Fin 32)
  /-- ADDI (R258): A core executes ADDI. -/
  | addi (core : Fin 4) (rd : Fin 32) (ra : Fin 32) (imm : BitVec 14)
  /-- ANDI (R258): A core executes ANDI. -/
  | andi (core : Fin 4) (rd : Fin 32) (ra : Fin 32) (imm : BitVec 14)
  /-- ORI (R258): A core executes ORI. -/
  | ori (core : Fin 4) (rd : Fin 32) (ra : Fin 32) (imm : BitVec 14)
  /-- XORI (R258): A core executes XORI. -/
  | xori (core : Fin 4) (rd : Fin 32) (ra : Fin 32) (imm : BitVec 14)
  /-- CLTSI (R258): A core executes CLTSI. -/
  | cltsi (core : Fin 4) (rd : Fin 32) (ra : Fin 32) (imm : BitVec 14)
  /-- CLTUI (R258): A core executes CLTUI. -/
  | cltui (core : Fin 4) (rd : Fin 32) (ra : Fin 32) (imm : BitVec 14)
  /-- SHLI (R258): A core executes SHLI. -/
  | shli (core : Fin 4) (rd : Fin 32) (ra : Fin 32) (imm : BitVec 14)
  /-- SHRI (R258): A core executes SHRI. -/
  | shri (core : Fin 4) (rd : Fin 32) (ra : Fin 32) (imm : BitVec 14)
  /-- SHRAI (R258): A core executes SHRAI. -/
  | shrai (core : Fin 4) (rd : Fin 32) (ra : Fin 32) (imm : BitVec 14)
  /-- L64 (R258): A core executes L64. -/
  | l64 (core : Fin 4) (rd : Fin 32) (ra : Fin 32) (imm : BitVec 14)
  /-- L32S (R258): A core executes L32S. -/
  | l32s (core : Fin 4) (rd : Fin 32) (ra : Fin 32) (imm : BitVec 14)
  /-- L32U (R258): A core executes L32U. -/
  | l32u (core : Fin 4) (rd : Fin 32) (ra : Fin 32) (imm : BitVec 14)
  /-- L16S (R258): A core executes L16S. -/
  | l16s (core : Fin 4) (rd : Fin 32) (ra : Fin 32) (imm : BitVec 14)
  /-- L16U (R258): A core executes L16U. -/
  | l16u (core : Fin 4) (rd : Fin 32) (ra : Fin 32) (imm : BitVec 14)
  /-- L8S (R258): A core executes L8S. -/
  | l8s (core : Fin 4) (rd : Fin 32) (ra : Fin 32) (imm : BitVec 14)
  /-- L8U (R258): A core executes L8U. -/
  | l8u (core : Fin 4) (rd : Fin 32) (ra : Fin 32) (imm : BitVec 14)
  /-- S64 (R258): A core executes S64. -/
  | s64 (core : Fin 4) (rd : Fin 32) (ra : Fin 32) (imm : BitVec 14)
  /-- S32 (R258): A core executes S32. -/
  | s32 (core : Fin 4) (rd : Fin 32) (ra : Fin 32) (imm : BitVec 14)
  /-- S16 (R258): A core executes S16. -/
  | s16 (core : Fin 4) (rd : Fin 32) (ra : Fin 32) (imm : BitVec 14)
  /-- S8 (R258): A core executes S8. -/
  | s8 (core : Fin 4) (rd : Fin 32) (ra : Fin 32) (imm : BitVec 14)
  /-- LDMASK (R244): A core executes LDMASK, loading masked registers with recorded progress. -/
  | ldmask (core : Fin 4) (rm : Fin 32) (ra : Fin 32) (imm : BitVec 14)
  /-- STMASK (R244): A core executes STMASK, storing masked registers with recorded progress. -/
  | stmask (core : Fin 4) (rm : Fin 32) (ra : Fin 32) (imm : BitVec 14)
  /-- PHYLD (R258): A core executes PHYLD, a physical uncached load. -/
  | phyld (core : Fin 4) (rd : Fin 32) (ra : Fin 32) (imm : BitVec 14)
  /-- PHYST (R258): A core executes PHYST, a physical uncached store. -/
  | physt (core : Fin 4) (rd : Fin 32) (ra : Fin 32) (imm : BitVec 14)
  /-- BREQ (R258): A core executes BREQ. -/
  | breq (core : Fin 4) (ra : Fin 32) (rb : Fin 32) (off : BitVec 14)
  /-- BRNE (R258): A core executes BRNE. -/
  | brne (core : Fin 4) (ra : Fin 32) (rb : Fin 32) (off : BitVec 14)
  /-- BRLT (R258): A core executes BRLT. -/
  | brlt (core : Fin 4) (ra : Fin 32) (rb : Fin 32) (off : BitVec 14)
  /-- BRGE (R258): A core executes BRGE. -/
  | brge (core : Fin 4) (ra : Fin 32) (rb : Fin 32) (off : BitVec 14)
  /-- BRLO (R258): A core executes BRLO. -/
  | brlo (core : Fin 4) (ra : Fin 32) (rb : Fin 32) (off : BitVec 14)
  /-- BRHS (R258): A core executes BRHS. -/
  | brhs (core : Fin 4) (ra : Fin 32) (rb : Fin 32) (off : BitVec 14)
  /-- JMP (R258): A core executes JMP. -/
  | jmp (core : Fin 4) (off : BitVec 24)
  /-- CALLF (R237): A core executes CALLF, opening a window frame or trapping WOVF. -/
  | callf (core : Fin 4) (off : BitVec 24)
  /-- CALLFR (R237): A core executes CALLFR to a register target. -/
  | callfr (core : Fin 4) (rd : Fin 32) (ra : Fin 32) (imm : BitVec 14)
  /-- JMPR (R258): A core executes JMPR. -/
  | jmpr (core : Fin 4) (rd : Fin 32) (ra : Fin 32) (imm : BitVec 14)
  /-- RETF (R237): A core executes RETF, closing a frame or trapping WUNF. -/
  | retf (core : Fin 4) (off : BitVec 24)
  /-- SWAP (R258): A core executes an atomic SWAP at the target. -/
  | swap (core : Fin 4) (rd : Fin 32) (ra : Fin 32) (imm : BitVec 14)
  /-- XADD (R258): A core executes an atomic XADD at the target. -/
  | xadd (core : Fin 4) (rd : Fin 32) (ra : Fin 32) (imm : BitVec 14)
  /-- MOVHI (R258): A core executes MOVHI. -/
  | movhi (core : Fin 4) (rd : Fin 32) (imm : BitVec 19)
  /-- MOVUP (R258): A core executes MOVUP. -/
  | movup (core : Fin 4) (rd : Fin 32) (imm : BitVec 19)
  /-- TRAP (R242): A core executes TRAP, raising TRAPI with INFO. -/
  | trap (core : Fin 4) (imm : BitVec 15)
  /-- BKPT (R242): A core executes BKPT, raising BKPT with INFO. -/
  | bkpt (core : Fin 4) (imm : BitVec 15)
  /-- RETT (R239): A core executes RETT, restoring STATUS and continuing at EPC. -/
  | rett (core : Fin 4)
  /-- RETD (R240): A core executes RETD, leaving double-fault mode. -/
  | retd (core : Fin 4)
  /-- SPILLF (R238): A core executes SPILLF, storing the oldest live window. -/
  | spillf (core : Fin 4)
  /-- FILLF (R238): A core executes FILLF, loading the window below the oldest. -/
  | fillf (core : Fin 4)
  /-- MFC (R259): A core executes MFC, reading a control register. -/
  | mfc (core : Fin 4) (rx : Fin 32) (imm : BitVec 15)
  /-- MTC (R259): A core executes MTC, writing a control register. -/
  | mtc (core : Fin 4) (rx : Fin 32) (imm : BitVec 15)
  /-- FENCE (R258): A core executes FENCE. -/
  | fence (core : Fin 4)
  /-- SYNC (R254): A core executes SYNC, waiting for earlier TLB invalidations. -/
  | sync (core : Fin 4)
  /-- TLBI (R254): A core executes TLBI of a given kind across all TLBs. -/
  | tlbi (core : Fin 4) (rx : Fin 32) (imm : BitVec 15)
  /-- CACHE (R258): A core executes CACHE of a given kind. -/
  | cache (core : Fin 4) (rx : Fin 32) (imm : BitVec 15)
  /-- WAIT (R258): A core executes WAIT and idles until an enabled interrupt is pending. -/
  | wait (core : Fin 4)
  /-- YIELD (R269): A core executes YIELD, handing the core to the scheduler with or without an armed wait. -/
  | yield (core : Fin 4)
  /-- IRQ (R242): An enabled pending interrupt is taken at an instruction boundary. -/
  | irq (core : Fin 4)
  /-- CORE_RUN (R241): A write of CP_CTL.RUN starts or restarts a core at CP_RVEC. -/
  | coreRun (core : Fin 4)
  /-- CORE_HALT (R260): A write of CP_CTL.HALT halts the core at the next boundary outside trap mode. -/
  | coreHalt (core : Fin 4)
  /-- CP_IRAISE (R260): A write of CP_IRAISE sets CP_IPEND bits. -/
  | cpIraise (core : Fin 4) (mask : BitVec 8)
  /-- CP_CLR (R260): A write of CP_CLR.CNT clears CP_CNT0 and CP_CNT1. -/
  | cpClr (core : Fin 4)
  /-- MM_INV (R254): A write of MM_INV.GO starts an invalidation of the given kind. -/
  | mmInv (value : BitVec 32)
  /-- MM_INV_DONE (R254): An MM_INV invalidation completes and INVBUSY clears. -/
  | mmInvDone
  /-- IOFQ_POP (R261): A write of MM_IOFQ_POP removes the oldest IO fault entry. -/
  | iofqPop
  /-- IORES (R256): A write of MM_IORES.GO releases a faulted requester to retry or abandon. -/
  | iores (value : BitVec 32)
  /-- MM_CLR (R261): A write of MM_CLR.CNT clears MM_CNT0 and MM_CNT1. -/
  | mmClr
  /-- SWITCH (R266): A switch request reaches its core and acts at the next allowed boundary. -/
  | switch (core : Fin 4)
  /-- BANK_FILL_DONE (R267): A thread's bank image has been filled into a slot. -/
  | bankFillDone (core : Fin 4)
  /-- BANK_EMPTY_DONE (R267): A slot's bank image has been written to memory and RES cleared. -/
  | bankEmptyDone (core : Fin 4)
  /-- SCHEDULER_TOKEN (R270): The token store applies a queued token by its MODE. -/
  | schedulerToken
  /-- TIMED_WAKE (R271): A queued timed WAKE wakes its thread by timeout or is stale. -/
  | timedWake
  /-- UNCONDITIONAL_WAKE (R271): A queued unconditional wake wakes its thread or sets WPEND. -/
  | unconditionalWake
  /-- START (R274): TS_CMD START makes a FREE or SUSPENDED thread READY. -/
  | start (thread : Fin 512)
  /-- SUSPEND (R274): TS_CMD SUSPEND removes a thread from its list, queue or core. -/
  | suspend (thread : Fin 512)
  /-- SETPRI (R274): TS_CMD SETPRI sets a thread's priority and re-places it. -/
  | setpri (thread : Fin 512)
  /-- SETAFF (R274): TS_CMD SETAFF sets a thread's affinity. -/
  | setaff (thread : Fin 512)
  /-- KILL (R274): TS_CMD KILL frees a thread. -/
  | kill (thread : Fin 512)
  /-- WAKE_COMMAND (R274): TS_CMD WAKE delivers an unconditional wake. -/
  | wakeCommand (thread : Fin 512)
  /-- TS_POST (R270): A write of TS_POST.GO posts a token into the arrival queue. -/
  | tsPost (token : Fin 4096)
  /-- TS_CLR (R276): A write of TS_CLR.CNT clears TS_CNT0 to TS_CNT2. -/
  | tsClr
  /-- ROUTE_COMMIT (R282): A write of a route entry's HI word checks the route and starts its commit. -/
  | routeCommit (ni : Fin 40) (dest : Fin 40) (value : BitVec 32)
  /-- ROUTE_COMMIT_DONE (R283): All requests to the destination are answered and the new route commits. -/
  | routeCommitDone (ni : Fin 40)
  /-- ROUTE_COMMIT_TIMEOUT (R283): The 1,600-ACLK commit wait expires and the old route stays, setting RTTO. -/
  | routeCommitTimeout (ni : Fin 40)
  /-- QCFG_APPLY (R292): A write of PN_RTRr_CTL.APPLY holds changed queues for a new VC division. -/
  | qcfgApply (router : Fin 24)
  /-- QCFG_APPLY_DONE (R292): The held queues empty and the new division applies. -/
  | qcfgApplyDone (router : Fin 24)
  /-- QCFG_TIMEOUT (R292): The 1,600-ACLK hold expires and traffic resumes under the old division. -/
  | qcfgTimeout (router : Fin 24)
  /-- PN_CLR (R301): A write of PN_CLR.CNT clears PN_OFFCNT and every NI counter. -/
  | pnClr
  /-- PACKET_REQUEST_ARRIVAL (R289): A request packet reaches its target NI and is executed in source order or
    answered with an error. -/
  | packetRequestArrival (ni : Fin 40)
  /-- PACKET_RESPONSE_ARRIVAL (R290): A response reaches its requester, completing its access or giving a bus error. -/
  | packetResponseArrival (ni : Fin 40)
  /-- DMA_TRIG (R294): A write of DM_ENGe_TRIG.GO queues a trigger on a general engine. -/
  | dmaTrig (engine : Fin 4) (trig : Fin 64)
  /-- DMA_CHAIN_START (R294): An idle engine starts the chain of its next queued trigger. -/
  | dmaChainStart (engine : Fin 4)
  /-- DMA_DESC_COMPLETE (R296): Every write of a descriptor is answered OK; the token is sent and the chain continues. -/
  | dmaDescComplete (engine : Fin 4)
  /-- DMA_ABORT (R299): A write of DM_ENGe_CTL.ABORT stops issuing and ends the descriptor ABORTED. -/
  | dmaAbort (engine : Fin 4)
  /-- DM_CLRCNT (R302): A write of DM_ENGe_CTL.CLRCNT clears the engine's counters. -/
  | dmClrcnt (engine : Fin 4)
  /-- BG_SCRUB_READ (R310): A background scrub interval expires and one code word is read and corrected. -/
  | bgScrubRead (walk : Fin 101)
  /-- CFG_SCRUB_READ (R312): A configuration scrub interval expires and one configuration word is read, corrected or
    checked by CRC. -/
  | cfgScrubRead
  /-- FRAME_REPAIR_DONE (R314): A frame rewritten from the reference copy is read back; the isle is ungated or the
    repair fails. -/
  | frameRepairDone (verified : Bool)
  /-- MERGE_FLUSH (R308): A merge-buffer entry's idle timer expires and it is flushed as a whole word. -/
  | mergeFlush (buffer : Fin 112) (word : BitVec 40)
  /-- BUCKET_LEAK (R317): A leak period expires and a leaky bucket's count drops by 1. -/
  | bucketLeak (region : Fin 213)
  /-- FLIP_MASK_ARM (R316): A write of MI_FLIPk_CTL.ARM arms a one-shot flip mask. -/
  | flipMaskArm (cls : Fin 4) (sel : BitVec 7)
  /-- MI_CLR (R320): A write of MI_CLR.CNT clears the MI counters and buckets. -/
  | miClr
  /-- CHANNEL_ENABLE (R323): Setting DC_CHc_CFG.EN starts training of a DRAM channel. -/
  | channelEnable (ch : Fin 2) (value : BitVec 32)
  /-- TRAINING_DONE (R323): A channel's training completes and READY sets. -/
  | trainingDone (ch : Fin 2)
  /-- DRAM_SERVE (R327): The controller makes a scheduling decision and serves a queued request. -/
  | dramServe (ch : Fin 2)
  /-- PAGE_CLOSE (R328): A bank's page idle timer expires and its row closes. -/
  | pageClose (ch : Fin 2) (rank : Fin 4) (bank : Fin 16)
  /-- REFRESH (R332): A rank's tREFI interval expires and a refresh is issued or postponed. -/
  | refresh (ch : Fin 2) (rank : Fin 4)
  /-- TEMP_POLL (R333): The poll period expires and the temperature status of every rank is read. -/
  | tempPoll (ch : Fin 2) (hot : Bool)
  /-- POWER_DOWN_ENTRY (R334): A rank's PDT timer expires and it enters power-down. -/
  | powerDownEntry (ch : Fin 2) (rank : Fin 4)
  /-- RETRAIN_PAUSE (R336): The retraining period expires and the channel pauses to retrain one rank. -/
  | retrainPause (ch : Fin 2)
  /-- TRAIN (R344): A write of DC_CHc_CTL.TRAIN starts a retraining pause now. -/
  | train (ch : Fin 2)
  /-- PARITY_ALERT (R337): A component's parity alert causes a replay, or a command error if repeated. -/
  | parityAlert (ch : Fin 2) (rank : Fin 4) (again : Bool)
  /-- RETIRE (R340): A write of DC_CHc_CTL.RETIRE retires a rank. -/
  | retire (ch : Fin 2) (rank : Fin 4)
  /-- MIGRATION_STEP (R341): The gap between steps elapses and the next 32 KiB block is copied to the spare. -/
  | migrationStep (ch : Fin 2)
  /-- RH_THR_CLEAR (R331): A write of 1 to a DC_RH_THR bit ends that source's throttle. -/
  | rhThrClear (ni : Fin 40)
  /-- DC_CLR (R344): A write of DC_CLR.CNT clears the channel counters and buckets. -/
  | dcClr
  /-- PCIE_REQUEST (R347): A host request through BAR0 or BAR2 reaches its device address or is refused. -/
  | pcieRequest (bar2 : Bool) (write : Bool) (offset : BitVec 28) (value : BitVec 32)
  /-- COMMAND_DOORBELL (R358): A write of HL_CMDDB, passed after earlier host writes are answered, raises the
    doorbell. -/
  | commandDoorbell (tail : BitVec 8)
  /-- RESPONSE_DOORBELL (R355): A write of HL_RSPDB frees consumed response-ring entries. -/
  | responseDoorbell (head : BitVec 8)
  /-- COMMAND_FETCH (R353): Firmware fetches the next command entry once the response ring has room. -/
  | commandFetch
  /-- EVENT_POST (R357): A held event is written to the ring once it has room, in ESEQ order. -/
  | eventPost
  /-- MSIX_INTERVAL_END (R359): A vector's moderation interval ends and its pending message is sent. -/
  | msixIntervalEnd (vec : Fin 16)
  /-- MSIX_UNMASK (R359): The host unmasks a vector and its pending message is sent. -/
  | msixUnmask (vec : Fin 16)
  /-- MSIRAISE (R359): A write of HL_MSIRAISE sends a vector's message at once. -/
  | msiraise (mask : BitVec 16)
  /-- HOST_READ_TIMEOUT (R360): A device read of host memory times out and ends its descriptor with DECERR. -/
  | hostReadTimeout (requester : BitVec 8)
  /-- LINK_DOWN (R363): The host link goes down; RINGEN clears and the mailbox discard procedure runs. -/
  | linkDown
  /-- HOST_LINK_RESET (R346): PERST_N, hot reset or FLR resets the host-link domain only. -/
  | hostLinkReset
  /-- CONFIG_READY (R346): The endpoint becomes configuration-ready and CFGRDY sets. -/
  | configReady
  /-- RINGEN_SET (R363): Setting HL_CTRL.RINGEN resets the ring tail and releases held events. -/
  | ringenSet
  /-- CONSOLE_FRAME (R365): A whole console frame is received and taken as a command or discarded. -/
  | consoleFrame (body : List (BitVec 8))
  /-- CONSOLE_GAP_TIMEOUT (R365): More than 100 ms passes between bytes of a console frame and it is discarded. -/
  | consoleGapTimeout
  /-- HL_CLR (R366): A write of HL_CLR.CNT clears HL_CNT0 and HL_CNT1. -/
  | hlClr
  /-- NOP_COMMAND (R374): Command 0x0100 NOP returns the firmware version and build. -/
  | nopCommand
  /-- DEVINFO (R374): Command DEVINFO returns device identity and state. -/
  | devinfo
  /-- RESET (R375): Command RESET schedules a firmware restart or device reset 10 ms after its response. -/
  | reset
  /-- RESET_ACTION (R375): 10 ms after a RESET response the restart or device reset acts. -/
  | resetAction
  /-- CONSOLE (R375): Command CONSOLE changes the console bit rate and CONEVT after its response. -/
  | console
  /-- IMG_LOAD (R377): Command IMG_LOAD starts a run-time full image load. -/
  | imgLoad
  /-- IMG_PARTIAL (R377): Command IMG_PARTIAL writes the ICP registers and starts the ICP. -/
  | imgPartial
  /-- IMG_ABORT (R377): Command IMG_ABORT aborts the ICP image or reports it committed. -/
  | imgAbort
  /-- FLASH_WRITE (R378): Command FLASH_WRITE verifies an image and programs it into flash. -/
  | flashWrite
  /-- BOOT_SET (R378): Command BOOT_SET commits the BOOT record's valid fields. -/
  | bootSet
  /-- FLOOR_SET (R378): Command FLOOR_SET raises the rollback floor. -/
  | floorSet
  /-- KEY_PROG (R378): Command KEY_PROG programs an EMPTY key slot. -/
  | keyProg
  /-- KEY_REVOKE (R378): Command KEY_REVOKE permanently revokes an ACTIVE key slot. -/
  | keyRevoke
  /-- READBACK (R376): Command READBACK programs and starts a readback. -/
  | readback
  /-- SET_READ (R379): Command SET_READ reads a settings record. -/
  | setRead
  /-- SET_WRITE (R379): Command SET_WRITE commits a settings record. -/
  | setWrite
  /-- SET_DELETE (R379): Command SET_DELETE deletes a host settings record. -/
  | setDelete
  /-- SET_LIST (R379): Command SET_LIST lists the settings records. -/
  | setList
  /-- AD_READ (R380): Command AD_READ returns an angle-domain payload. -/
  | adRead
  /-- AD_CFG (R381): Command AD_CFG writes a domain's configuration, re-enabling it if asked. -/
  | adCfg
  /-- AD_SET (R380): Command AD_SET loads a domain's stamp or velocity. -/
  | adSet
  /-- EV_INSERT (R381): Command EV_INSERT inserts an event-table entry. -/
  | evInsert
  /-- EV_DELETE (R381): Command EV_DELETE removes an event-table entry. -/
  | evDelete
  /-- EV_LIST (R381): Command EV_LIST configures an event list. -/
  | evList
  /-- CAD_SET (R381): Command CAD_SET loads a cadence. -/
  | cadSet
  /-- LOOP_READ (R382): Command LOOP_READ returns a task's state. -/
  | loopRead
  /-- LOOP_POLICY (R383): Command LOOP_POLICY writes TOL then POL. -/
  | loopPolicy
  /-- LOOP_HALT (R383): Command LOOP_HALT halts the tasks of a mask. -/
  | loopHalt
  /-- LOOP_START (R383): Command LOOP_START checks and restarts a disabled or halted task. -/
  | loopStart
  /-- LOOP_SQUASH (R383): Command LOOP_SQUASH squashes a running task's front step. -/
  | loopSquash
  /-- LOOP_CLR (R382): Command LOOP_CLR clears the counters of the tasks of a mask. -/
  | loopClr
  /-- SNAP_ARM (R384): Command SNAP_ARM arms an idle snapshot slot. -/
  | snapArm
  /-- SNAP_STOP (R384): Command SNAP_STOP stops a snapshot slot. -/
  | snapStop
  /-- SNAP_READ (R384): Command SNAP_READ returns a slot's status. -/
  | snapRead
  /-- PORT_READ (R385): Command PORT_READ returns a harbour port's payload words. -/
  | portRead
  /-- PORT_WRITE (R386): Command PORT_WRITE writes harbour registers as an all-or-nothing set. -/
  | portWrite
  /-- PWM_SAFE (R386): Command PWM_SAFE writes PW_CTRL.SAFE without a claim. -/
  | pwmSafe
  /-- PWM_TRIPCLR (R386): Command PWM_TRIPCLR clears the trips of a pair mask. -/
  | pwmTripclr
  /-- FIFO_READ (R386): Command FIFO_READ moves available FIFO items to a host buffer. -/
  | fifoRead
  /-- CLAIM (R387): Command CLAIM enters or releases claims all-or-nothing. -/
  | claim
  /-- CLAIM_QUERY (R387): Command CLAIM_QUERY reports a resource's holder. -/
  | claimQuery
  /-- CLAIM_LIST (R387): Command CLAIM_LIST writes every claim to a buffer. -/
  | claimList
  /-- MEM_READ (R389): Command MEM_READ copies device memory to a host buffer. -/
  | memRead
  /-- MEM_WRITE (R389): Command MEM_WRITE copies a host buffer to device memory. -/
  | memWrite
  /-- MEM_STATUS (R388): Command MEM_STATUS returns the memory error state. -/
  | memStatus
  /-- SPARE_ADD (R389): Command SPARE_ADD records a spare-row repair for the next boot. -/
  | spareAdd
  /-- RANK_RETIRE (R389): Command RANK_RETIRE retires a DRAM rank. -/
  | rankRetire
  /-- FLIP_ARM (R389): Command FLIP_ARM arms a flip mask. -/
  | flipArm
  /-- TRACE_CFG (R389): Command TRACE_CFG configures the scheduler trace ring. -/
  | traceCfg
  /-- PWR_SET (R391): Command PWR_SET starts or switches off a power domain. -/
  | pwrSet
  /-- PWR_READ (R390): Command PWR_READ returns the domains that are up. -/
  | pwrRead
  /-- CLK_ROW (R391): Command CLK_ROW sets an isle row's clock divider. -/
  | clkRow
  /-- EN_CFG (R393): Command EN_CFG configures an Ethernet port. -/
  | enCfg
  /-- EN_GCL (R393): Command EN_GCL replaces a port's gate control entries. -/
  | enGcl
  /-- TIME_READ (R392): Command TIME_READ returns network-time state. -/
  | timeRead
  /-- EVT_MASK (R394): Command EVT_MASK sets the enabled event classes. -/
  | evtMask
  /-- EVT_TEST (R394): Command EVT_TEST posts a TEST event. -/
  | evtTest
  /-- FAULT_WINDOW_END (R396): The 100 ms aggregation window of an F0 source ends and one counted FAULT is posted. -/
  | faultWindowEnd (source : BitVec 8) (unit : BitVec 16)
  /-- RX_FRAME (R401): A received Ethernet frame is filtered, timestamped and written to an owned descriptor or
    dropped. -/
  | rxFrame (port : Fin 6) (frame : List (BitVec 8)) (fcsOk : Bool)
  /-- TX_FRAME_START (R402): A frame starts on the highest open queue with an owned descriptor. -/
  | txFrameStart (port : Fin 6)
  /-- TX_FRAME_DONE (R400): A transmitted frame ends and its descriptor is returned. -/
  | txFrameDone (port : Fin 6)
  /-- RTAIL_WRITE (R400): A write of EN_Pp_RTAIL hands descriptors to the port. -/
  | rtailWrite (port : Fin 6) (value : BitVec 32)
  /-- PORT_ENABLE (R402): Enabling an Ethernet port loads its gate vector from INIT. -/
  | portEnable (port : Fin 6)
  /-- EN_CLR (R408): A write of EN_Pp_CLR.CNT clears the port counters. -/
  | enClr (port : Fin 6)
  /-- NT_ADVANCE (R403): Every ACLK the network-time counter advances by 5 quarter-ns plus ADJ. -/
  | ntAdvance
  /-- NT_STEP (R403): A write of EN_TS_CTL.STEP steps the network-time counter. -/
  | ntStep
  /-- SYNC_SET (R405): Setting EN_TS_CTL.SYNC reports synchronisation and AD7 leaves UNSYNC. -/
  | syncSet
  /-- SYNC_CLEAR (R47): Clearing EN_TS_CTL.SYNC withdraws synchronisation and AD7 returns to UNSYNC. -/
  | syncClear
  /-- SYNC_TIMEOUT (R405): Three Sync intervals pass with no Sync and firmware clears SYNC. -/
  | syncTimeout
  /-- ETH_LINK_DOWN (R405): An Ethernet port loses its link, clearing SYNC if it is the slave port. -/
  | ethLinkDown (port : Fin 6)
  /-- UART_DATA_WRITE (R409): A write of SP_Uu_DATA queues a byte or sets OVR. -/
  | uartDataWrite (uart : Fin 2) (byte : BitVec 8)
  /-- UART_DATA_READ (R409): A read of SP_Uu_DATA takes the oldest received byte. -/
  | uartDataRead (uart : Fin 2)
  /-- UART_RX_BYTE (R406): A UART receives a byte into its FIFO. -/
  | uartRxByte (uart : Fin 2) (byte : BitVec 8) (framingOk : Bool) (parityOk : Bool)
  /-- SPI_DATA_WRITE (R409): A write of SP_Ss_DATA sends a word. -/
  | spiDataWrite (spi : Fin 2) (word : BitVec 32)
  /-- SPI_DATA_READ (R409): A read of SP_Ss_DATA takes a received word. -/
  | spiDataRead (spi : Fin 2)
  /-- I2C_GO (R407): A write of SP_I2C_CMD.GO starts an I2C command. -/
  | i2cGo (value : BitVec 32)
  /-- I2C_DONE (R407): An I2C command ends with its status. -/
  | i2cDone (acked : Bool) (arbLost : Bool) (bytes : List (BitVec 8))
  /-- I2C_STRETCH_TIMEOUT (R406): A clock stretch of more than 25 ms sets TMO. -/
  | i2cStretchTimeout
  /-- XSPI_GO (R407): A write of SP_XS_LEN.GO starts an xSPI command. -/
  | xspiGo (value : BitVec 32)
  /-- XSPI_DONE (R407): An xSPI command ends. -/
  | xspiDone (bytes : List (BitVec 8))
  /-- POWER_GOOD (R412): Power-good is reached and the boot sequencer starts. -/
  | powerGood
  /-- PLL_LOCK (R423): ACLK and CCLK lock; the always-on domain switches and the Sound is zeroed. -/
  | pllLock
  /-- FIRMWARE_VERIFY_DONE (R423): Verification of the boot firmware ends, starting core 0 or leaving every core
    stopped. -/
  | firmwareVerifyDone (verified : Bool)
  /-- RESET_N_ASSERT (R413): RESET_N held low for at least 1 µs resets the device. -/
  | resetNAssert
  /-- BROWN_OUT (R413): PWR_OK low or a rail out of range for more than 1 µs resets the device. -/
  | brownOut
  /-- SWRST (R413): A write of PC_CTL with SWRST and KEY 0x5A resets the device. -/
  | swrst (key : BitVec 8)
  /-- WATCHDOG_ENABLE (R416): Setting PC_WDT_CTL.EN starts the watchdog. -/
  | watchdogEnable (value : BitVec 32)
  /-- WATCHDOG_KICK (R416): A write of PC_WDT_KICK restarts the watchdog period. -/
  | watchdogKick
  /-- WATCHDOG_STAGE1 (R416): The first watchdog expiry sets STAGE1, raises F2 and restarts the cores. -/
  | watchdogStage1
  /-- WATCHDOG_STAGE2 (R416): The second watchdog expiry resets the device with CAUSE 3. -/
  | watchdogStage2
  /-- DOMAIN_START_REQUEST (R417): A PC_DOMREQ request with ON = 1 queues a domain start. -/
  | domainStartRequest (domain : Fin 128)
  /-- DOMAIN_OFF_REQUEST (R418): A PC_DOMREQ request with ON = 0 closes the domain's NI and switches it off. -/
  | domainOffRequest (domain : Fin 128)
  /-- DOMAIN_UP (R419): A domain's start step ends, it comes up and the queue starts the next domain. -/
  | domainUp
  /-- DOMAIN_OFF (R418): A closed domain is gated, isolated and loses power. -/
  | domainOff (domain : Fin 104)
  /-- CRYSTAL_FAIL (R421): No crystal edge for 1 µs switches the PLL references to the RC oscillator and raises F2. -/
  | crystalFail
  /-- ROW_CLOCK_APPLY (R422): A PC_ROWr change takes effect at the next ACLK that is a multiple of 8. -/
  | rowClockApply (row : Fin 8)
  /-- SETTINGS_COMMIT (R428): A write of SS_CMD.GO starts a commit into the inactive bank. -/
  | settingsCommit (value : BitVec 32)
  /-- SETTINGS_COMMIT_DONE (R428): The commit's read-back and commit copies end, making the bank active or reporting
    NVERR. -/
  | settingsCommitDone (verified : Bool)
  /-- F1_REPAIR_DONE (R434): An empty or word repair completes 16 ACLK after detection and the isle is ungated. -/
  | f1RepairDone
  /-- HARBOUR_PARITY_ERROR (R435): A parity error in a harbour unit's configuration raises F1 and starts its rewrite. -/
  | harbourParityError (cls : Fin 7) (index : Fin 64)
  /-- HARBOUR_REPAIR_DONE (R435): The rewrite from the harbour reference ends; its parity check passes or the fault
    becomes F3. -/
  | harbourRepairDone (verified : Bool)
  /-- F2_DISCARD_TIMEOUT (R440): An F2 recovery whose DISCARD is not posted within 2 s becomes an F3 fault. -/
  | f2DiscardTimeout
  /-- SD_BIT_LATCH (R170): At the bit latch of each modulator clock period a sigma-delta input latches SD_DAT and
    updates its filter sums, its overload state and its comparator result. -/
  | sdBitLatch (input : Fin 48) (level : Bool)
  /-- GIO_INPUT_EDGE (R186): The level on a GIO input cell's pin changes and is captured into IN0 or IN1 and into the
    GIO input bank port word. -/
  | gioInputEdge (gio : Fin 64) (level : Bool)
  /-- RESET_N_RELEASE (R412): RESET_N is released after a reset, and the boot timeline starts from that release when
    it comes after power-good. -/
  | resetNRelease
  /-- LINK_UP (R363): The PCIe link completes training and HL_STAT.LINKUP sets, so the host dialogue can resume. -/
  | linkUp (rate : BitVec 2) (width : BitVec 3)
  /-- ETH_LINK_UP (R398): An Ethernet port's link comes up, with auto-negotiation complete, and EN_Pp_STAT.LINK and
    SPEED are set. -/
  | ethLinkUp (port : Fin 6) (speed : BitVec 2)
  /-- RETRAIN_PAUSE_END (R336): A retraining pause of at most 2 µs ends: the new or previous settings apply, TRNF
    increments on non-convergence, TRAIN clears and the queued requests are served. -/
  | retrainPauseEnd (ch : Fin 2) (converged : Bool)
  /-- MIGRATION_STEP_END (R341): The copy of a 32 KiB block to the spare rank ends, requests to the block go to the
    spare, and the waiting requests proceed. -/
  | migrationStepEnd (ch : Fin 2) (spareOk : Bool)
  /-- UART_TX_BYTE (R406): A UART finishes shifting out a byte from its transmit FIFO, and TXLVL drops. -/
  | uartTxByte (uart : Fin 2)
  /-- SPI_WORD_DONE (R409): An SPI controller completes the transfer of one word, stores the received word and clears
    BUSY when its FIFO empties. -/
  | spiWordDone (spi : Fin 2) (word : BitVec 32)
  deriving DecidableEq, Repr

/-- The fields of a 128-bit context word (Table 04-1). -/
structure Ctx where
  op : BitVec 8
  mode : BitVec 4
  sa : BitVec 6
  sb : BitVec 6
  sc : BitVec 6
  dst : BitVec 6
  shf : BitVec 6
  sat : BitVec 1
  acc : BitVec 2
  psel : BitVec 2
  circ : BitVec 1
  pstep : BitVec 4
  imm : BitVec 16
  next : BitVec 4
  seq : BitVec 3
  cond : BitVec 4
  lvl : BitVec 2
  qp : BitVec 1
  role : BitVec 2
  sout : BitVec 4
  sch : BitVec 4
  tok : BitVec 4
  loff : BitVec 12
  rsv : BitVec 20
  deriving DecidableEq, Repr

end Sys2Proof
end

