-- ==== Sys2Proof/Decode.lean ====
section
/-! DEFINITION. Reading and writing context words (R81, R82), and the decoder of the opcode table, none of whose rows gives bits. -/
namespace Sys2Proof

/-- The fields of a context word (Table 04-1). -/
def Ctx.decode (w : BitVec 128) : Ctx where
  op := w.extractLsb' 120 8
  mode := w.extractLsb' 116 4
  sa := w.extractLsb' 110 6
  sb := w.extractLsb' 104 6
  sc := w.extractLsb' 98 6
  dst := w.extractLsb' 92 6
  shf := w.extractLsb' 86 6
  sat := w.extractLsb' 85 1
  acc := w.extractLsb' 83 2
  psel := w.extractLsb' 81 2
  circ := w.extractLsb' 80 1
  pstep := w.extractLsb' 76 4
  imm := w.extractLsb' 60 16
  next := w.extractLsb' 56 4
  seq := w.extractLsb' 53 3
  cond := w.extractLsb' 49 4
  lvl := w.extractLsb' 47 2
  qp := w.extractLsb' 46 1
  role := w.extractLsb' 44 2
  sout := w.extractLsb' 40 4
  sch := w.extractLsb' 36 4
  tok := w.extractLsb' 32 4
  loff := w.extractLsb' 20 12
  rsv := w.extractLsb' 0 20

/-- The context word with the given fields (Table 04-1), bit 127 first. -/
def Ctx.encode (c : Ctx) : BitVec 128 :=
  (c.op ++ c.mode ++ c.sa ++ c.sb ++ c.sc ++ c.dst ++ c.shf ++ c.sat ++ c.acc ++ c.psel ++ c.circ ++ c.pstep ++ c.imm ++
    c.next ++ c.seq ++ c.cond ++ c.lvl ++ c.qp ++ c.role ++ c.sout ++ c.sch ++ c.tok ++ c.loff ++ c.rsv).cast (by rfl)

/-- The context word held in four 32-bit words, word 0 at the lowest address (R81). -/
def Ctx.ofWords (w0 w1 w2 w3 : BitVec 32) : BitVec 128 := (w3 ++ w2 ++ w1 ++ w0).cast (by rfl)

/-- The command a table word spells. No row of the opcode table gives bits (the rows are happenings of the block, not
encoded instructions), so no word spells one. -/
def decodeTableWord (_nbits _w : Nat) : Option Instr := none

end Sys2Proof
end

