-- ==== Sys2Proof/Config.lean ====
section
/-! DEFINITION. What one implementation fixes and the values the manual leaves open: constants without a body, so that no
proof can see a value of theirs. Each names the log entry that says what it stands for. -/
namespace Sys2Proof

/-- DESIGN CHOICE (log entry 10): cosine and sine of an angle in units of 1/(6 * 2^48) revolution, at the precision of the angle unit (R23 gives the formula of
the phase error and no precision). -/
opaque Config.cosine : Int → Int
opaque Config.sine : Int → Int
/-- DESIGN CHOICE (log entry 10): the angle, in fine units, that the phase error (p + q * sqrt 3) / sqrt r stands for, rounded as the angle unit does; p and q carry
the scale of `Config.cosine`. -/
opaque Config.phaseAngle : Int → Int → Nat → BitVec 48
/-- DESIGN CHOICE (log entry 11): the velocity with which AD7 slews towards network time (R48), from the offset. The manual
gives only the limit 2^-10, which the model applies to it. -/
opaque Config.ad7Slew : Int → Nat
/-- DESIGN CHOICE (log entry 12): the index a new event-table entry takes, from the number of insertions so far (R42 names none). The
model falls back to the lowest free index where it names one in use. -/
opaque Config.entryIndex : Nat → Nat
/-- DESIGN CHOICE (log entry 13): firmware version and build (NOP, R374). -/
opaque Config.fwVersion : BitVec 32
opaque Config.fwBuild : BitVec 32
/-- DESIGN CHOICE (log entry 14): the device unique number of the fuse map (DEVINFO, R374). -/
opaque Config.uniqueNumber : BitVec 64
/-- The free value number `n` (log entry 4): what a result is where the manual states none. -/
opaque Config.freeValue : Nat → Nat
/-- DESIGN CHOICE (log entry 15): how a tie of the rounding to the nearest ACLK falls (R31). -/
opaque Config.roundTie : Int → Int → Bool

/-- DESIGN CHOICE (log entry 19): the Sound bank that holds an address. The manual numbers sixteen banks and gives no mapping. -/
opaque Config.soundBank : Nat → Nat
/-- DESIGN CHOICE (log entry 78): the insertion port that firmware holds and EV_INSERT uses (R380 names none). -/
opaque Config.fwPort : Fin 8
/-- DESIGN CHOICE (log entry 84): NI `n` has a VC3 queue of this number (Table 11-5 speaks of queues that do not exist and none says which do). -/
opaque Config.vc3Exists : Nat → Nat → Bool
/-- DESIGN CHOICE (log entry 228): the latency of an access that NI `n` makes in an ACLK for a core, the host, firmware or Ethernet, which the model performs at
once (R293 counts it). -/
opaque Config.accessLatency : Nat → Nat → Nat
/-- DESIGN CHOICE (log entry 91): whether the fill pattern of a DMA descriptor is placed by the address or from the destination's first byte (R295 gives
only the pattern). They agree where the destination is a multiple of 4. -/
opaque Config.fillByAddress : Bool

/-- DESIGN CHOICE (log entry 230): the select code that a multiplexer takes from an uncorrectable word of its plane, by physical copy, isle and byte. -/
opaque Config.damagedCode : Bool → Nat → Nat → BitVec 8
/-- DESIGN CHOICE (log entry 233): the byte that an xSPI command with this opcode leaves where the flash held the first byte and the command sends the second,
and the bytes that the opcode erases, 0 for none: the opcodes are those of the flash (R406, JESD251). -/
opaque Config.flashTakes : Nat → BitVec 8 → BitVec 8 → BitVec 8
opaque Config.flashErases : Nat → Nat

/-- The set of the shared TLB, taken modulo 256, that holds a block or page with a given virtual number and ASID: the manual does not state it (log entry 93). -/
opaque Config.l2Set (big : Bool) (vpn asid : Nat) : Nat

/-- The set of the IOTLB, taken modulo 64 (log entry 93). -/
opaque Config.ioSet (big : Bool) (vpn asid : Nat) : Nat

end Sys2Proof
end

