-- ==== Sys2Proof/Machine/Sparse.lean ====
section
/-! DEFINITION. Sparse tables: a list of (key, value) pairs in one canonical form (keys strictly rising, no entry equal to
what an unlisted key reads as). Every memory, the register file and every indexed table of a unit is one of these. -/
namespace Sys2Proof.Machine

/-- A sparse table, keys rising. -/
abbrev Tbl (α : Type) := List (Nat × α)

/-- The value at key `k`, or `dflt` where the table lists none. -/
def tget {α : Type} (dflt : α) : Tbl α → Nat → α
  | [], _ => dflt
  | (a, v) :: t, k => if k = a then v else tget dflt t k

/-- The table with `v` listed at key `k`, in key order. -/
def tput {α : Type} : Tbl α → Nat → α → Tbl α
  | [], k, v => [(k, v)]
  | (a, w) :: t, k, v =>
    if k < a then (k, v) :: (a, w) :: t else if k = a then (k, v) :: t else (a, w) :: tput t k v

/-- The table with nothing listed at key `k`. -/
def tdel {α : Type} : Tbl α → Nat → Tbl α
  | [], _ => []
  | (a, w) :: t, k => if k = a then tdel t k else (a, w) :: tdel t k

/-- Write `v` at `k`: writing what an unlisted key reads as removes the entry, so that equal tables are equal data. -/
def tset {α : Type} [DecidableEq α] (dflt : α) (t : Tbl α) (k : Nat) (v : α) : Tbl α :=
  if v = dflt then tdel t k else tput t k v

/-- Change the value at `k` by a function. -/
def tmod {α : Type} [DecidableEq α] (dflt : α) (t : Tbl α) (k : Nat) (f : α → α) : Tbl α :=
  tset dflt t k (f (tget dflt t k))

/-- Keys strictly rising, all above `lo`. -/
def tsorted {α : Type} : Option Nat → Tbl α → Bool
  | _, [] => true
  | none, (a, _) :: t => tsorted (some a) t
  | some l, (a, _) :: t => decide (l < a) && tsorted (some a) t

/-- The canonical form: keys strictly rising and no entry equal to the default. -/
def twf {α : Type} [DecidableEq α] (dflt : α) (t : Tbl α) : Bool :=
  tsorted none t && t.all (fun e => decide (e.2 ≠ dflt))

end Sys2Proof.Machine
end

