-- ==== Sys2Proof/Machine/Regs.lean ====
section
/-! DEFINITION. The register map: the address of every register (Table 01-5 and the register tables of the chapters),
the bit range of every field, and the access code and reset value of every field as one row per register (R4, R18).
One address per register; an indexed register is a function of its index or indices. -/
namespace Sys2Proof.Machine

/-- A field of a register: the register's address and the field's bit range. -/
structure Fld where
  addr : Nat
  hi : Nat
  lo : Nat
  deriving DecidableEq, Repr

/-- One register of a block: where it lies (`base`, and up to two `(count, stride)` dimensions), the bits of each
access code of R4 and the reset value. -/
structure RegRow where
  base : Nat
  dims : List (Nat × Nat)
  rw : Nat
  w1c : Nat
  w1s : Nat
  ro : Nat
  reset : Nat
  deriving DecidableEq, Repr


/-! ### Registers of R58 (02_angle_domains.md). -/

abbrev AU_CTRL : Nat := 0x40010000
abbrev AU_CTRL_EN : Fld := ⟨AU_CTRL, 7, 0⟩
abbrev AU_STAT : Nat := 0x40010004
abbrev AU_STAT_LOCK : Fld := ⟨AU_STAT, 7, 0⟩
abbrev AU_STAT_LOST : Fld := ⟨AU_STAT, 15, 8⟩
abbrev AU_STAT_CFGERR : Fld := ⟨AU_STAT, 23, 16⟩
abbrev AU_LEAD : Nat := 0x40010008
abbrev AU_LEAD_LEAD : Fld := ⟨AU_LEAD, 15, 0⟩
abbrev AU_ADn_CFG (n : Nat) : Nat := 0x40010100 + 0x80 * n
abbrev AU_ADn_CFG_SRC (n : Nat) : Fld := ⟨AU_ADn_CFG n, 3, 0⟩
abbrev AU_ADn_CFG_INST (n : Nat) : Fld := ⟨AU_ADn_CFG n, 9, 4⟩
abbrev AU_ADn_CFG_DIR (n : Nat) : Fld := ⟨AU_ADn_CFG n, 12, 12⟩
abbrev AU_ADn_CFG_ZSYNC (n : Nat) : Fld := ⟨AU_ADn_CFG n, 13, 13⟩
abbrev AU_ADn_CFG_LFK (n : Nat) : Fld := ⟨AU_ADn_CFG n, 19, 16⟩
abbrev AU_ADn_CFG_LOSS (n : Nat) : Fld := ⟨AU_ADn_CFG n, 31, 24⟩
abbrev AU_ADn_CPR (n : Nat) : Nat := 0x40010104 + 0x80 * n
abbrev AU_ADn_CPR_CPR (n : Nat) : Fld := ⟨AU_ADn_CPR n, 31, 0⟩
abbrev AU_ADn_TRK (n : Nat) : Nat := 0x40010108 + 0x80 * n
abbrev AU_ADn_TRK_MPER (n : Nat) : Fld := ⟨AU_ADn_TRK n, 15, 0⟩
abbrev AU_ADn_TRK_KP (n : Nat) : Fld := ⟨AU_ADn_TRK n, 20, 16⟩
abbrev AU_ADn_TRK_KI (n : Nat) : Fld := ⟨AU_ADn_TRK n, 28, 24⟩
abbrev AU_ADn_WIN (n : Nat) : Nat := 0x4001010C + 0x80 * n
abbrev AU_ADn_WIN_WIN (n : Nat) : Fld := ⟨AU_ADn_WIN n, 31, 0⟩
abbrev AU_ADn_ZOFF (n : Nat) : Nat := 0x40010110 + 0x80 * n
abbrev AU_ADn_ZOFF_ZOFF (n : Nat) : Fld := ⟨AU_ADn_ZOFF n, 31, 0⟩
abbrev AU_ADn_CTL (n : Nat) : Nat := 0x40010114 + 0x80 * n
abbrev AU_ADn_CTL_CLRCNT (n : Nat) : Fld := ⟨AU_ADn_CTL n, 0, 0⟩
abbrev AU_ADn_CTL_SETANG (n : Nat) : Fld := ⟨AU_ADn_CTL n, 1, 1⟩
abbrev AU_ADn_CTL_SETVEL (n : Nat) : Fld := ⟨AU_ADn_CTL n, 2, 2⟩
abbrev AU_ADn_STAT (n : Nat) : Nat := 0x40010118 + 0x80 * n
abbrev AU_ADn_STAT_LOCK (n : Nat) : Fld := ⟨AU_ADn_STAT n, 0, 0⟩
abbrev AU_ADn_STAT_LOST (n : Nat) : Fld := ⟨AU_ADn_STAT n, 1, 1⟩
abbrev AU_ADn_STAT_UNSYNC (n : Nat) : Fld := ⟨AU_ADn_STAT n, 2, 2⟩
abbrev AU_ADn_CNT (n : Nat) : Nat := 0x4001011C + 0x80 * n
abbrev AU_ADn_CNT_REJ (n : Nat) : Fld := ⟨AU_ADn_CNT n, 15, 0⟩
abbrev AU_ADn_CNT_MISS (n : Nat) : Fld := ⟨AU_ADn_CNT n, 31, 16⟩
abbrev AU_ADn_ANG_LO (n : Nat) : Nat := 0x40010120 + 0x80 * n
abbrev AU_ADn_ANG_LO_FRAC (n : Nat) : Fld := ⟨AU_ADn_ANG_LO n, 31, 0⟩
abbrev AU_ADn_ANG_HI (n : Nat) : Nat := 0x40010124 + 0x80 * n
abbrev AU_ADn_ANG_HI_REV (n : Nat) : Fld := ⟨AU_ADn_ANG_HI n, 31, 0⟩
abbrev AU_ADn_VEL_LO (n : Nat) : Nat := 0x40010128 + 0x80 * n
abbrev AU_ADn_VEL_LO_VEL (n : Nat) : Fld := ⟨AU_ADn_VEL_LO n, 31, 0⟩
abbrev AU_ADn_VEL_HI (n : Nat) : Nat := 0x4001012C + 0x80 * n
abbrev AU_ADn_VEL_HI_VEL (n : Nat) : Fld := ⟨AU_ADn_VEL_HI n, 15, 0⟩
abbrev AU_ADn_SET_LO (n : Nat) : Nat := 0x40010130 + 0x80 * n
abbrev AU_ADn_SET_LO_FRAC (n : Nat) : Fld := ⟨AU_ADn_SET_LO n, 31, 0⟩
abbrev AU_ADn_SET_HI (n : Nat) : Nat := 0x40010134 + 0x80 * n
abbrev AU_ADn_SET_HI_REV (n : Nat) : Fld := ⟨AU_ADn_SET_HI n, 31, 0⟩
abbrev AU_ADn_VNOM_LO (n : Nat) : Nat := 0x40010138 + 0x80 * n
abbrev AU_ADn_VNOM_LO_VEL (n : Nat) : Fld := ⟨AU_ADn_VNOM_LO n, 31, 0⟩
abbrev AU_ADn_VNOM_HI (n : Nat) : Nat := 0x4001013C + 0x80 * n
abbrev AU_ADn_VNOM_HI_VEL (n : Nat) : Fld := ⟨AU_ADn_VNOM_HI n, 15, 0⟩
abbrev AU_ADn_MEAS_LO (n : Nat) : Nat := 0x40010140 + 0x80 * n
abbrev AU_ADn_MEAS_LO_FRAC (n : Nat) : Fld := ⟨AU_ADn_MEAS_LO n, 31, 0⟩
abbrev AU_ADn_MEAS_HI (n : Nat) : Nat := 0x40010144 + 0x80 * n
abbrev AU_ADn_MEAS_HI_REV (n : Nat) : Fld := ⟨AU_ADn_MEAS_HI n, 31, 0⟩
abbrev AU_MCs_CTL (n : Nat) : Nat := 0x40010600 + 0x20 * n
abbrev AU_MCs_CTL_DOM (n : Nat) : Fld := ⟨AU_MCs_CTL n, 2, 0⟩
abbrev AU_MCs_CTL_ARM (n : Nat) : Fld := ⟨AU_MCs_CTL n, 8, 8⟩
abbrev AU_MCs_CTL_ABORT (n : Nat) : Fld := ⟨AU_MCs_CTL n, 9, 9⟩
abbrev AU_MCs_LF_LO (n : Nat) : Nat := 0x40010604 + 0x20 * n
abbrev AU_MCs_LF_LO_FRAC (n : Nat) : Fld := ⟨AU_MCs_LF_LO n, 31, 0⟩
abbrev AU_MCs_LF_HI (n : Nat) : Nat := 0x40010608 + 0x20 * n
abbrev AU_MCs_LF_HI_REV (n : Nat) : Fld := ⟨AU_MCs_LF_HI n, 31, 0⟩
abbrev AU_MCs_ACK (n : Nat) : Nat := 0x4001060C + 0x20 * n
abbrev AU_MCs_ACK_NEED (n : Nat) : Fld := ⟨AU_MCs_ACK n, 15, 0⟩
abbrev AU_MCs_ACK_GOT (n : Nat) : Fld := ⟨AU_MCs_ACK n, 31, 16⟩
abbrev AU_MCs_STAT (n : Nat) : Nat := 0x40010610 + 0x20 * n
abbrev AU_MCs_STAT_STATE (n : Nat) : Fld := ⟨AU_MCs_STAT n, 2, 0⟩
abbrev AU_MCs_STAT_PPN (n : Nat) : Fld := ⟨AU_MCs_STAT n, 7, 4⟩
abbrev AU_MCs_STAT_CAUSE (n : Nat) : Fld := ⟨AU_MCs_STAT n, 10, 8⟩
abbrev AU_MCs_TMO (n : Nat) : Nat := 0x40010614 + 0x20 * n
abbrev AU_MCs_TMO_TMO (n : Nat) : Fld := ⟨AU_MCs_TMO n, 31, 0⟩

/-! ### Registers of R59 (02_angle_domains.md). -/

abbrev ET_CTRL : Nat := 0x40018000
abbrev ET_CTRL_EN : Fld := ⟨ET_CTRL, 0, 0⟩
abbrev ET_STAT : Nat := 0x40018004
abbrev ET_STAT_FREE : Fld := ⟨ET_STAT, 15, 0⟩
abbrev ET_STAT_DROP : Fld := ⟨ET_STAT, 31, 16⟩
abbrev ET_LATE : Nat := 0x40018008
abbrev ET_LATE_LATE : Fld := ⟨ET_LATE, 31, 0⟩
abbrev ET_CLR : Nat := 0x4001800C
abbrev ET_CLR_DROP : Fld := ⟨ET_CLR, 0, 0⟩
abbrev ET_CLR_LATE : Fld := ⟨ET_CLR, 1, 1⟩
abbrev ET_INSp_W0 (n : Nat) : Nat := 0x40018100 + 0x20 * n
abbrev ET_INSp_W0_W (n : Nat) : Fld := ⟨ET_INSp_W0 n, 31, 0⟩
abbrev ET_INSp_W1 (n : Nat) : Nat := 0x40018104 + 0x20 * n
abbrev ET_INSp_W1_W (n : Nat) : Fld := ⟨ET_INSp_W1 n, 31, 0⟩
abbrev ET_INSp_W2 (n : Nat) : Nat := 0x40018108 + 0x20 * n
abbrev ET_INSp_W2_W (n : Nat) : Fld := ⟨ET_INSp_W2 n, 31, 0⟩
abbrev ET_INSp_W3 (n : Nat) : Nat := 0x4001810C + 0x20 * n
abbrev ET_INSp_W3_W (n : Nat) : Fld := ⟨ET_INSp_W3 n, 31, 0⟩
abbrev ET_INSp_CTL (n : Nat) : Nat := 0x40018110 + 0x20 * n
abbrev ET_INSp_CTL_LIST (n : Nat) : Fld := ⟨ET_INSp_CTL n, 5, 0⟩
abbrev ET_INSp_CTL_GO (n : Nat) : Fld := ⟨ET_INSp_CTL n, 31, 31⟩
abbrev ET_INSp_STAT (n : Nat) : Nat := 0x40018114 + 0x20 * n
abbrev ET_INSp_STAT_BUSY (n : Nat) : Fld := ⟨ET_INSp_STAT n, 0, 0⟩
abbrev ET_INSp_STAT_RES (n : Nat) : Fld := ⟨ET_INSp_STAT n, 3, 1⟩
abbrev ET_INSp_STAT_OVR (n : Nat) : Fld := ⟨ET_INSp_STAT n, 4, 4⟩
abbrev ET_INSp_STAT_IDX (n : Nat) : Fld := ⟨ET_INSp_STAT n, 30, 16⟩
abbrev ET_DEL : Nat := 0x40018200
abbrev ET_DEL_IDX : Fld := ⟨ET_DEL, 14, 0⟩
abbrev ET_DEL_GO : Fld := ⟨ET_DEL, 31, 31⟩
abbrev ET_DEL_STAT : Nat := 0x40018204
abbrev ET_DEL_STAT_BUSY : Fld := ⟨ET_DEL_STAT, 0, 0⟩
abbrev ET_DEL_STAT_RES : Fld := ⟨ET_DEL_STAT, 3, 1⟩
abbrev ET_DEL_STAT_OVR : Fld := ⟨ET_DEL_STAT, 4, 4⟩
abbrev ET_LCFGl (n : Nat) : Nat := 0x40018400 + 0x8 * n
abbrev ET_LCFGl_EN (n : Nat) : Fld := ⟨ET_LCFGl n, 0, 0⟩
abbrev ET_LCFGl_DOM (n : Nat) : Fld := ⟨ET_LCFGl n, 3, 1⟩
abbrev ET_LCFGl_DIR (n : Nat) : Fld := ⟨ET_LCFGl n, 4, 4⟩
abbrev ET_LSTATl (n : Nat) : Nat := 0x40018404 + 0x8 * n
abbrev ET_LSTATl_COUNT (n : Nat) : Fld := ⟨ET_LSTATl n, 15, 0⟩
abbrev ET_LSTATl_LATE (n : Nat) : Fld := ⟨ET_LSTATl n, 31, 16⟩
abbrev ET_CADc_Q (n : Nat) : Nat := 0x40019000 + 0x10 * n
abbrev ET_CADc_Q_Q (n : Nat) : Fld := ⟨ET_CADc_Q n, 31, 0⟩
abbrev ET_CADc_N (n : Nat) : Nat := 0x40019004 + 0x10 * n
abbrev ET_CADc_N_N (n : Nat) : Fld := ⟨ET_CADc_N n, 15, 0⟩
abbrev ET_CADc_D (n : Nat) : Nat := 0x40019008 + 0x10 * n
abbrev ET_CADc_D_D (n : Nat) : Fld := ⟨ET_CADc_D n, 15, 0⟩
abbrev ET_CADc_ACC (n : Nat) : Nat := 0x4001900C + 0x10 * n
abbrev ET_CADc_ACC_ACC (n : Nat) : Fld := ⟨ET_CADc_ACC n, 15, 0⟩

/-! ### Registers of R129 (05_isles_and_straits.md). -/

abbrev IS_CFG (n : Nat) : Nat := 0x40008000 + 0x100 * n
abbrev IS_CFG_DOM (n : Nat) : Fld := ⟨IS_CFG n, 2, 0⟩
abbrev IS_STAT (n : Nat) : Nat := 0x40008004 + 0x100 * n
abbrev IS_STAT_ACTIVE (n : Nat) : Fld := ⟨IS_STAT n, 15, 0⟩
abbrev IS_STAT_APL (n : Nat) : Fld := ⟨IS_STAT n, 19, 16⟩
abbrev IS_STAT_GATED (n : Nat) : Fld := ⟨IS_STAT n, 20, 20⟩
abbrev IS_STAT_STAGED (n : Nat) : Fld := ⟨IS_STAT n, 21, 21⟩
abbrev IS_STAT_SYNC (n : Nat) : Fld := ⟨IS_STAT n, 22, 22⟩
abbrev IS_STAT_CFGERR (n : Nat) : Fld := ⟨IS_STAT n, 24, 24⟩
abbrev IS_STAT_BANK (n : Nat) : Fld := ⟨IS_STAT n, 25, 25⟩
abbrev IS_STAT_DUPSEL (n : Nat) : Fld := ⟨IS_STAT n, 26, 26⟩
abbrev IS_STAT_MALF (n : Nat) : Fld := ⟨IS_STAT n, 27, 27⟩
abbrev IS_STAT_TDROP (n : Nat) : Fld := ⟨IS_STAT n, 28, 28⟩
abbrev IS_STAT_SPECTOK (n : Nat) : Fld := ⟨IS_STAT n, 29, 29⟩
abbrev IS_FIRE (n : Nat) : Nat := 0x40008008 + 0x100 * n
abbrev IS_FIRE_GROUP (n : Nat) : Fld := ⟨IS_FIRE n, 3, 0⟩
abbrev IS_FIRE_GO (n : Nat) : Fld := ⟨IS_FIRE n, 31, 31⟩
abbrev IS_PMTO (n : Nat) : Nat := 0x4000800C + 0x100 * n
abbrev IS_PMTO_PMTO (n : Nat) : Fld := ⟨IS_PMTO n, 15, 0⟩
abbrev IS_SLOT0 (n : Nat) : Nat := 0x40008010 + 0x100 * n
abbrev IS_SLOT0_VICTIM (n : Nat) : Fld := ⟨IS_SLOT0 n, 3, 0⟩
abbrev IS_SLOT0_PREEMPTOR (n : Nat) : Fld := ⟨IS_SLOT0 n, 7, 4⟩
abbrev IS_SLOT0_VALID (n : Nat) : Fld := ⟨IS_SLOT0 n, 8, 8⟩
abbrev IS_SLOT0_APL (n : Nat) : Fld := ⟨IS_SLOT0 n, 15, 12⟩
abbrev IS_SLOT1 (n : Nat) : Nat := 0x40008014 + 0x100 * n
abbrev IS_SLOT1_VICTIM (n : Nat) : Fld := ⟨IS_SLOT1 n, 3, 0⟩
abbrev IS_SLOT1_PREEMPTOR (n : Nat) : Fld := ⟨IS_SLOT1 n, 7, 4⟩
abbrev IS_SLOT1_VALID (n : Nat) : Fld := ⟨IS_SLOT1 n, 8, 8⟩
abbrev IS_SLOT1_APL (n : Nat) : Fld := ⟨IS_SLOT1 n, 15, 12⟩
abbrev IS_SVSEL (n : Nat) : Nat := 0x40008018 + 0x100 * n
abbrev IS_SVSEL_SLOT (n : Nat) : Fld := ⟨IS_SVSEL n, 0, 0⟩
abbrev IS_SVSEL_CELL (n : Nat) : Fld := ⟨IS_SVSEL n, 7, 4⟩
abbrev IS_SVDATA (n : Nat) : Nat := 0x4000801C + 0x100 * n
abbrev IS_SVDATA_INDEX (n : Nat) : Fld := ⟨IS_SVDATA n, 3, 0⟩
abbrev IS_SVDATA_FLG (n : Nat) : Fld := ⟨IS_SVDATA n, 12, 4⟩
abbrev IS_SVDATA_YLD (n : Nat) : Fld := ⟨IS_SVDATA n, 13, 13⟩
abbrev IS_SVDATA_WAIT (n : Nat) : Fld := ⟨IS_SVDATA n, 14, 14⟩
abbrev IS_GRPg (n : Nat) (m : Nat) : Nat := 0x40008020 + 0x100 * n + 0x4 * m
abbrev IS_GRPg_MASK (n : Nat) (m : Nat) : Fld := ⟨IS_GRPg n m, 15, 0⟩
abbrev IS_GRPg_ENTRY (n : Nat) (m : Nat) : Fld := ⟨IS_GRPg n m, 19, 16⟩
abbrev IS_GRPg_PLANE (n : Nat) (m : Nat) : Fld := ⟨IS_GRPg n m, 23, 20⟩
abbrev IS_GRPg_PKEEP (n : Nat) (m : Nat) : Fld := ⟨IS_GRPg n m, 24, 24⟩
abbrev IS_GRPg_PRI (n : Nat) (m : Nat) : Fld := ⟨IS_GRPg n m, 26, 25⟩
abbrev IS_GRPg_EN (n : Nat) (m : Nat) : Fld := ⟨IS_GRPg n m, 31, 31⟩
abbrev IS_GSEL (n : Nat) : Nat := 0x40008060 + 0x100 * n
abbrev IS_GSEL_GROUP (n : Nat) : Fld := ⟨IS_GSEL n, 3, 0⟩
abbrev IS_GSTAT (n : Nat) : Nat := 0x40008064 + 0x100 * n
abbrev IS_GSTAT_TAG (n : Nat) : Fld := ⟨IS_GSTAT n, 7, 0⟩
abbrev IS_GSTAT_ACTCNT (n : Nat) : Fld := ⟨IS_GSTAT n, 15, 8⟩
abbrev IS_GSTAT_ACTIVE (n : Nat) : Fld := ⟨IS_GSTAT n, 16, 16⟩
abbrev IS_GSTAT_PEND (n : Nat) : Fld := ⟨IS_GSTAT n, 17, 17⟩
abbrev IS_GSTAT_SAVED (n : Nat) : Fld := ⟨IS_GSTAT n, 18, 18⟩
abbrev IS_GSTAT_RCRED (n : Nat) : Fld := ⟨IS_GSTAT n, 19, 19⟩
abbrev IS_MSEL (n : Nat) : Nat := 0x40008068 + 0x100 * n
abbrev IS_MSEL_ENTRY (n : Nat) : Fld := ⟨IS_MSEL n, 5, 0⟩
abbrev IS_MCFG (n : Nat) : Nat := 0x4000806C + 0x100 * n
abbrev IS_MCFG_ARG (n : Nat) : Fld := ⟨IS_MCFG n, 5, 0⟩
abbrev IS_MCFG_ACTION (n : Nat) : Fld := ⟨IS_MCFG n, 7, 6⟩
abbrev IS_MCFG_NEED (n : Nat) : Fld := ⟨IS_MCFG n, 15, 8⟩
abbrev IS_MCFG_CUR (n : Nat) : Fld := ⟨IS_MCFG n, 23, 16⟩
abbrev IS_MSTATE (n : Nat) : Nat := 0x40008070 + 0x100 * n
abbrev IS_MSTATE_PRES (n : Nat) : Fld := ⟨IS_MSTATE n, 7, 0⟩
abbrev IS_MSTATE_NEXTP (n : Nat) : Fld := ⟨IS_MSTATE n, 15, 8⟩
abbrev IS_TDk (n : Nat) (m : Nat) : Nat := 0x40008070 + 0x100 * n + 0x4 * m
abbrev IS_TDk_TD (n : Nat) (m : Nat) : Fld := ⟨IS_TDk n m, 31, 0⟩
abbrev IS_SDBASE (n : Nat) : Nat := 0x400080B0 + 0x100 * n
abbrev IS_SDBASE_BASE (n : Nat) : Fld := ⟨IS_SDBASE n, 14, 0⟩
abbrev IS_STRIG (n : Nat) : Nat := 0x400080B4 + 0x100 * n
abbrev IS_STRIG_TRIG (n : Nat) : Fld := ⟨IS_STRIG n, 5, 0⟩
abbrev IS_STRIG_GO (n : Nat) : Fld := ⟨IS_STRIG n, 31, 31⟩
abbrev IS_SSTAT (n : Nat) : Nat := 0x400080B8 + 0x100 * n
abbrev IS_SSTAT_BUSY (n : Nat) : Fld := ⟨IS_SSTAT n, 0, 0⟩
abbrev IS_SSTAT_TRIG (n : Nat) : Fld := ⟨IS_SSTAT n, 6, 1⟩
abbrev IS_SSTAT_QLEN (n : Nat) : Fld := ⟨IS_SSTAT n, 9, 7⟩
abbrev IS_SSTAT_ERR (n : Nat) : Fld := ⟨IS_SSTAT n, 10, 10⟩
abbrev IS_SSTAT_QOVR (n : Nat) : Fld := ⟨IS_SSTAT n, 11, 11⟩
abbrev IS_CNT0 (n : Nat) : Nat := 0x400080C0 + 0x100 * n
abbrev IS_CNT0_DEFER (n : Nat) : Fld := ⟨IS_CNT0 n, 15, 0⟩
abbrev IS_CNT0_FOVR (n : Nat) : Fld := ⟨IS_CNT0 n, 31, 16⟩
abbrev IS_CNT1 (n : Nat) : Nat := 0x400080C4 + 0x100 * n
abbrev IS_CNT1_STALE (n : Nat) : Fld := ⟨IS_CNT1 n, 15, 0⟩
abbrev IS_CNT1_PREEMPT (n : Nat) : Fld := ⟨IS_CNT1 n, 31, 16⟩
abbrev IS_CNT2 (n : Nat) : Nat := 0x400080C8 + 0x100 * n
abbrev IS_CNT2_TDROP (n : Nat) : Fld := ⟨IS_CNT2 n, 15, 0⟩
abbrev IS_CNT2_BANKC (n : Nat) : Fld := ⟨IS_CNT2 n, 31, 16⟩
abbrev IS_CLR (n : Nat) : Nat := 0x400080CC + 0x100 * n
abbrev IS_CLR_CNT (n : Nat) : Fld := ⟨IS_CLR n, 0, 0⟩

/-! ### Registers of R159 (06_run_ahead.md). -/

abbrev AHD_CTRL : Nat := 0x40020000
abbrev AHD_CTRL_EN : Fld := ⟨AHD_CTRL, 0, 0⟩
abbrev AHD_ATTN0 : Nat := 0x40020004
abbrev AHD_ATTN0_TASK : Fld := ⟨AHD_ATTN0, 31, 0⟩
abbrev AHD_ATTN1 : Nat := 0x40020008
abbrev AHD_ATTN1_TASK : Fld := ⟨AHD_ATTN1, 15, 0⟩
abbrev AHD_QLEN : Nat := 0x4002000C
abbrev AHD_QLEN_QLEN : Fld := ⟨AHD_QLEN, 5, 0⟩
abbrev AHD_LTt_CFG (n : Nat) : Nat := 0x40020100 + 0x40 * n
abbrev AHD_LTt_CFG_EN (n : Nat) : Fld := ⟨AHD_LTt_CFG n, 0, 0⟩
abbrev AHD_LTt_CFG_SDOM (n : Nat) : Fld := ⟨AHD_LTt_CFG n, 3, 1⟩
abbrev AHD_LTt_CFG_PDOM (n : Nat) : Fld := ⟨AHD_LTt_CFG n, 6, 4⟩
abbrev AHD_LTt_CFG_PSRC (n : Nat) : Fld := ⟨AHD_LTt_CFG n, 7, 7⟩
abbrev AHD_LTt_CFG_PPORT (n : Nat) : Fld := ⟨AHD_LTt_CFG n, 13, 8⟩
abbrev AHD_LTt_CFG_DEPTH (n : Nat) : Fld := ⟨AHD_LTt_CFG n, 18, 16⟩
abbrev AHD_LTt_CFG_CAD (n : Nat) : Fld := ⟨AHD_LTt_CFG n, 27, 20⟩
abbrev AHD_LTt_POL (n : Nat) : Nat := 0x40020104 + 0x40 * n
abbrev AHD_LTt_POL_POL (n : Nat) : Fld := ⟨AHD_LTt_POL n, 1, 0⟩
abbrev AHD_LTt_POL_RES (n : Nat) : Fld := ⟨AHD_LTt_POL n, 13, 8⟩
abbrev AHD_LTt_TOL (n : Nat) : Nat := 0x40020108 + 0x40 * n
abbrev AHD_LTt_TOL_TOL (n : Nat) : Fld := ⟨AHD_LTt_TOL n, 31, 0⟩
abbrev AHD_LTt_TIM (n : Nat) : Nat := 0x4002010C + 0x40 * n
abbrev AHD_LTt_TIM_TFIRE (n : Nat) : Fld := ⟨AHD_LTt_TIM n, 4, 0⟩
abbrev AHD_LTt_TIM_CMT (n : Nat) : Fld := ⟨AHD_LTt_TIM n, 12, 8⟩
abbrev AHD_LTt_TIM_OUT (n : Nat) : Fld := ⟨AHD_LTt_TIM n, 19, 16⟩
abbrev AHD_LTt_TIM_HLEN (n : Nat) : Fld := ⟨AHD_LTt_TIM n, 31, 24⟩
abbrev AHD_LTt_S0_LO (n : Nat) : Nat := 0x40020110 + 0x40 * n
abbrev AHD_LTt_S0_LO_FRAC (n : Nat) : Fld := ⟨AHD_LTt_S0_LO n, 31, 0⟩
abbrev AHD_LTt_S0_HI (n : Nat) : Nat := 0x40020114 + 0x40 * n
abbrev AHD_LTt_S0_HI_REV (n : Nat) : Fld := ⟨AHD_LTt_S0_HI n, 31, 0⟩
abbrev AHD_LTt_ACC0 (n : Nat) : Nat := 0x40020118 + 0x40 * n
abbrev AHD_LTt_ACC0_ACC (n : Nat) : Fld := ⟨AHD_LTt_ACC0 n, 15, 0⟩
abbrev AHD_LTt_STEP (n : Nat) : Nat := 0x4002011C + 0x40 * n
abbrev AHD_LTt_STEP_STEP (n : Nat) : Fld := ⟨AHD_LTt_STEP n, 31, 0⟩
abbrev AHD_LTt_STAT (n : Nat) : Nat := 0x40020120 + 0x40 * n
abbrev AHD_LTt_STAT_STATE (n : Nat) : Fld := ⟨AHD_LTt_STAT n, 2, 0⟩
abbrev AHD_LTt_STAT_INFL (n : Nat) : Fld := ⟨AHD_LTt_STAT n, 5, 3⟩
abbrev AHD_LTt_STAT_EPOCH (n : Nat) : Fld := ⟨AHD_LTt_STAT n, 6, 6⟩
abbrev AHD_LTt_STAT_PASS (n : Nat) : Fld := ⟨AHD_LTt_STAT n, 7, 7⟩
abbrev AHD_LTt_STAT_CFGERR (n : Nat) : Fld := ⟨AHD_LTt_STAT n, 16, 16⟩
abbrev AHD_LTt_STAT_STEPERR (n : Nat) : Fld := ⟨AHD_LTt_STAT n, 17, 17⟩
abbrev AHD_LTt_STAT_WOUT (n : Nat) : Fld := ⟨AHD_LTt_STAT n, 18, 18⟩
abbrev AHD_LTt_STAT_CEARLY (n : Nat) : Fld := ⟨AHD_LTt_STAT n, 19, 19⟩
abbrev AHD_LTt_STAT_TOKOVR (n : Nat) : Fld := ⟨AHD_LTt_STAT n, 20, 20⟩
abbrev AHD_LTt_DIFF (n : Nat) : Nat := 0x40020124 + 0x40 * n
abbrev AHD_LTt_DIFF_DIFF (n : Nat) : Fld := ⟨AHD_LTt_DIFF n, 31, 0⟩
abbrev AHD_LTt_CNT0 (n : Nat) : Nat := 0x40020128 + 0x40 * n
abbrev AHD_LTt_CNT0_COMMIT (n : Nat) : Fld := ⟨AHD_LTt_CNT0 n, 15, 0⟩
abbrev AHD_LTt_CNT0_SQUASH (n : Nat) : Fld := ⟨AHD_LTt_CNT0 n, 31, 16⟩
abbrev AHD_LTt_CNT1 (n : Nat) : Nat := 0x4002012C + 0x40 * n
abbrev AHD_LTt_CNT1_SKIP (n : Nat) : Fld := ⟨AHD_LTt_CNT1 n, 15, 0⟩
abbrev AHD_LTt_CNT1_NOTRDY (n : Nat) : Fld := ⟨AHD_LTt_CNT1 n, 31, 16⟩
abbrev AHD_LTt_CNT2 (n : Nat) : Nat := 0x40020130 + 0x40 * n
abbrev AHD_LTt_CNT2_LATESQ (n : Nat) : Fld := ⟨AHD_LTt_CNT2 n, 7, 0⟩
abbrev AHD_LTt_CNT2_DROP (n : Nat) : Fld := ⟨AHD_LTt_CNT2 n, 15, 8⟩
abbrev AHD_LTt_CNT2_NOTE (n : Nat) : Fld := ⟨AHD_LTt_CNT2 n, 31, 16⟩
abbrev AHD_LTt_LAT (n : Nat) : Nat := 0x40020134 + 0x40 * n
abbrev AHD_LTt_LAT_LASTC (n : Nat) : Fld := ⟨AHD_LTt_LAT n, 7, 0⟩
abbrev AHD_LTt_LAT_MAXC (n : Nat) : Fld := ⟨AHD_LTt_LAT n, 15, 8⟩
abbrev AHD_LTt_LAT_LASTR (n : Nat) : Fld := ⟨AHD_LTt_LAT n, 23, 16⟩
abbrev AHD_LTt_LAT_MAXR (n : Nat) : Fld := ⟨AHD_LTt_LAT n, 31, 24⟩
abbrev AHD_LTt_CTL (n : Nat) : Nat := 0x40020138 + 0x40 * n
abbrev AHD_LTt_CTL_CLRCNT (n : Nat) : Fld := ⟨AHD_LTt_CTL n, 0, 0⟩
abbrev AHD_LTt_CTL_SQUASH (n : Nat) : Fld := ⟨AHD_LTt_CTL n, 1, 1⟩
abbrev AHD_LTt_CTL_HALT (n : Nat) : Fld := ⟨AHD_LTt_CTL n, 2, 2⟩
abbrev AHD_TBb_ID (n : Nat) : Nat := 0x40021000 + 0x20 * n
abbrev AHD_TBb_ID_ISLE (n : Nat) : Fld := ⟨AHD_TBb_ID n, 6, 0⟩
abbrev AHD_TBb_ID_TASK (n : Nat) : Fld := ⟨AHD_TBb_ID n, 13, 8⟩
abbrev AHD_TBb_ID_EN (n : Nat) : Fld := ⟨AHD_TBb_ID n, 31, 31⟩
abbrev AHD_TBb_GRP (n : Nat) : Nat := 0x40021004 + 0x20 * n
abbrev AHD_TBb_GRP_CELLS (n : Nat) : Fld := ⟨AHD_TBb_GRP n, 15, 0⟩
abbrev AHD_TBb_GRP_HGRP (n : Nat) : Fld := ⟨AHD_TBb_GRP n, 19, 16⟩
abbrev AHD_TBb_GRP_TGRP (n : Nat) : Fld := ⟨AHD_TBb_GRP n, 23, 20⟩
abbrev AHD_TBb_ENT_LO (n : Nat) : Nat := 0x40021008 + 0x20 * n
abbrev AHD_TBb_ENT_LO_ENT (n : Nat) : Fld := ⟨AHD_TBb_ENT_LO n, 31, 0⟩
abbrev AHD_TBb_ENT_HI (n : Nat) : Nat := 0x4002100C + 0x20 * n
abbrev AHD_TBb_ENT_HI_ENT (n : Nat) : Fld := ⟨AHD_TBb_ENT_HI n, 31, 0⟩
abbrev AHD_TBb_WIN (n : Nat) : Nat := 0x40021010 + 0x20 * n
abbrev AHD_TBb_WIN_WBASE (n : Nat) : Fld := ⟨AHD_TBb_WIN n, 14, 0⟩
abbrev AHD_TBb_WIN_FSZ (n : Nat) : Fld := ⟨AHD_TBb_WIN n, 17, 16⟩
abbrev AHD_TBb_SHD (n : Nat) : Nat := 0x40021014 + 0x20 * n
abbrev AHD_TBb_SHD_SBASE (n : Nat) : Fld := ⟨AHD_TBb_SHD n, 14, 0⟩
abbrev AHD_TBb_SHD_CARRY (n : Nat) : Fld := ⟨AHD_TBb_SHD n, 23, 16⟩
abbrev AHD_TBb_STAT (n : Nat) : Nat := 0x40021018 + 0x20 * n
abbrev AHD_TBb_STAT_HELD (n : Nat) : Fld := ⟨AHD_TBb_STAT n, 2, 0⟩
abbrev AHD_SNs_CTL (n : Nat) : Nat := 0x40022000 + 0x40 * n
abbrev AHD_SNs_CTL_DOM (n : Nat) : Fld := ⟨AHD_SNs_CTL n, 2, 0⟩
abbrev AHD_SNs_CTL_STAND (n : Nat) : Fld := ⟨AHD_SNs_CTL n, 3, 3⟩
abbrev AHD_SNs_CTL_KS (n : Nat) : Fld := ⟨AHD_SNs_CTL n, 11, 8⟩
abbrev AHD_SNs_CTL_ARM (n : Nat) : Fld := ⟨AHD_SNs_CTL n, 16, 16⟩
abbrev AHD_SNs_CTL_STOP (n : Nat) : Fld := ⟨AHD_SNs_CTL n, 17, 17⟩
abbrev AHD_SNs_CTL_CFGERR (n : Nat) : Fld := ⟨AHD_SNs_CTL n, 18, 18⟩
abbrev AHD_SNs_LIST (n : Nat) : Nat := 0x40022004 + 0x40 * n
abbrev AHD_SNs_LIST_ADDR (n : Nat) : Fld := ⟨AHD_SNs_LIST n, 22, 4⟩
abbrev AHD_SNs_NITEM (n : Nat) : Nat := 0x40022008 + 0x40 * n
abbrev AHD_SNs_NITEM_N (n : Nat) : Fld := ⟨AHD_SNs_NITEM n, 8, 0⟩
abbrev AHD_SNs_DST (n : Nat) : Nat := 0x4002200C + 0x40 * n
abbrev AHD_SNs_DST_ADDR (n : Nat) : Fld := ⟨AHD_SNs_DST n, 22, 5⟩
abbrev AHD_SNs_SIZE (n : Nat) : Nat := 0x40022010 + 0x40 * n
abbrev AHD_SNs_SIZE_SIZE (n : Nat) : Fld := ⟨AHD_SNs_SIZE n, 22, 5⟩
abbrev AHD_SNs_LF_LO (n : Nat) : Nat := 0x40022014 + 0x40 * n
abbrev AHD_SNs_LF_LO_FRAC (n : Nat) : Fld := ⟨AHD_SNs_LF_LO n, 31, 0⟩
abbrev AHD_SNs_LF_HI (n : Nat) : Nat := 0x40022018 + 0x40 * n
abbrev AHD_SNs_LF_HI_REV (n : Nat) : Fld := ⟨AHD_SNs_LF_HI n, 31, 0⟩
abbrev AHD_SNs_STAT (n : Nat) : Nat := 0x4002201C + 0x40 * n
abbrev AHD_SNs_STAT_STATE (n : Nat) : Fld := ⟨AHD_SNs_STAT n, 1, 0⟩
abbrev AHD_SNs_STAT_LAST (n : Nat) : Fld := ⟨AHD_SNs_STAT n, 6, 4⟩
abbrev AHD_SNs_STAT_SKIP (n : Nat) : Fld := ⟨AHD_SNs_STAT n, 31, 16⟩
abbrev AHD_SNs_SEQ (n : Nat) : Nat := 0x40022020 + 0x40 * n
abbrev AHD_SNs_SEQ_SEQ (n : Nat) : Fld := ⟨AHD_SNs_SEQ n, 31, 0⟩

/-! ### Registers of R197 (07_harbour_ports.md). -/

abbrev HP_STAT : Nat := 0x40030000
abbrev HP_STAT_CFGERR : Fld := ⟨HP_STAT, 0, 0⟩
abbrev HP_STAT_CONFLICT : Fld := ⟨HP_STAT, 1, 1⟩
abbrev HP_MCLKm (n : Nat) : Nat := 0x40030010 + 0x4 * n
abbrev HP_MCLKm_MDIV (n : Nat) : Fld := ⟨HP_MCLKm n, 7, 0⟩
abbrev HP_MCLKm_BDLY (n : Nat) : Fld := ⟨HP_MCLKm n, 11, 8⟩
abbrev HP_MCLKm_SLIP (n : Nat) : Fld := ⟨HP_MCLKm n, 14, 12⟩
abbrev HP_MCLKm_ALIGN (n : Nat) : Fld := ⟨HP_MCLKm n, 15, 15⟩
abbrev HP_MCLKm_STG (n : Nat) : Fld := ⟨HP_MCLKm n, 21, 16⟩
abbrev HP_MCLKm_EN (n : Nat) : Fld := ⟨HP_MCLKm n, 31, 31⟩
abbrev HP_SDi_CFG (n : Nat) : Nat := 0x40030100 + 0x20 * n
abbrev HP_SDi_CFG_EN (n : Nat) : Fld := ⟨HP_SDi_CFG n, 0, 0⟩
abbrev HP_SDi_CFG_ORD (n : Nat) : Fld := ⟨HP_SDi_CFG n, 2, 1⟩
abbrev HP_SDi_CFG_MCLK (n : Nat) : Fld := ⟨HP_SDi_CFG n, 5, 3⟩
abbrev HP_SDi_CFG_DEC (n : Nat) : Fld := ⟨HP_SDi_CFG n, 14, 6⟩
abbrev HP_SDi_CFG_OSH (n : Nat) : Fld := ⟨HP_SDi_CFG n, 19, 16⟩
abbrev HP_SDi_CFG_SAT16 (n : Nat) : Fld := ⟨HP_SDi_CFG n, 20, 20⟩
abbrev HP_SDi_CFG_STG (n : Nat) : Fld := ⟨HP_SDi_CFG n, 29, 24⟩
abbrev HP_SDi_CMP (n : Nat) : Nat := 0x40030104 + 0x20 * n
abbrev HP_SDi_CMP_CEN (n : Nat) : Fld := ⟨HP_SDi_CMP n, 0, 0⟩
abbrev HP_SDi_CMP_CORD (n : Nat) : Fld := ⟨HP_SDi_CMP n, 2, 1⟩
abbrev HP_SDi_CMP_CDEC (n : Nat) : Fld := ⟨HP_SDi_CMP n, 8, 3⟩
abbrev HP_SDi_CMP_CCNT (n : Nat) : Fld := ⟨HP_SDi_CMP n, 12, 9⟩
abbrev HP_SDi_CMP_TGRP (n : Nat) : Fld := ⟨HP_SDi_CMP n, 15, 13⟩
abbrev HP_SDi_CTHR (n : Nat) : Nat := 0x40030108 + 0x20 * n
abbrev HP_SDi_CTHR_CLO (n : Nat) : Fld := ⟨HP_SDi_CTHR n, 15, 0⟩
abbrev HP_SDi_CTHR_CHI (n : Nat) : Fld := ⟨HP_SDi_CTHR n, 31, 16⟩
abbrev HP_SDi_OVL (n : Nat) : Nat := 0x4003010C + 0x20 * n
abbrev HP_SDi_OVL_OVLN (n : Nat) : Fld := ⟨HP_SDi_OVL n, 7, 0⟩
abbrev HP_SDi_WORD (n : Nat) : Nat := 0x40030110 + 0x20 * n
abbrev HP_SDi_WORD_WORD (n : Nat) : Fld := ⟨HP_SDi_WORD n, 31, 0⟩
abbrev HP_SDi_FWORD (n : Nat) : Nat := 0x40030114 + 0x20 * n
abbrev HP_SDi_FWORD_WORD (n : Nat) : Fld := ⟨HP_SDi_FWORD n, 31, 0⟩
abbrev HP_SDi_STAT (n : Nat) : Nat := 0x40030118 + 0x20 * n
abbrev HP_SDi_STAT_OVLD (n : Nat) : Fld := ⟨HP_SDi_STAT n, 0, 0⟩
abbrev HP_SDi_STAT_TRIP (n : Nat) : Fld := ⟨HP_SDi_STAT n, 1, 1⟩
abbrev HP_SDi_STAT_MISAL (n : Nat) : Fld := ⟨HP_SDi_STAT n, 2, 2⟩
abbrev HP_SDi_CNT (n : Nat) : Nat := 0x4003011C + 0x20 * n
abbrev HP_SDi_CNT_OVLC (n : Nat) : Fld := ⟨HP_SDi_CNT n, 15, 0⟩
abbrev HP_SDi_CNT_TRIPC (n : Nat) : Fld := ⟨HP_SDi_CNT n, 31, 16⟩
abbrev HP_LVGg (n : Nat) : Nat := 0x40030700 + 0x4 * n
abbrev HP_LVGg_EN (n : Nat) : Fld := ⟨HP_LVGg n, 0, 0⟩
abbrev HP_LVGg_FDLY (n : Nat) : Fld := ⟨HP_LVGg n, 5, 1⟩
abbrev HP_LVGg_CDLY (n : Nat) : Fld := ⟨HP_LVGg n, 10, 6⟩
abbrev HP_LVj_CFG (n : Nat) : Nat := 0x40030800 + 0x20 * n
abbrev HP_LVj_CFG_EN (n : Nat) : Fld := ⟨HP_LVj_CFG n, 0, 0⟩
abbrev HP_LVj_CFG_FLEN (n : Nat) : Fld := ⟨HP_LVj_CFG n, 6, 1⟩
abbrev HP_LVj_CFG_FMT (n : Nat) : Fld := ⟨HP_LVj_CFG n, 7, 7⟩
abbrev HP_LVj_CFG_DLY (n : Nat) : Fld := ⟨HP_LVj_CFG n, 12, 8⟩
abbrev HP_LVj_CFG_STG (n : Nat) : Fld := ⟨HP_LVj_CFG n, 21, 16⟩
abbrev HP_LVj_WORD (n : Nat) : Nat := 0x40030804 + 0x20 * n
abbrev HP_LVj_WORD_WORD (n : Nat) : Fld := ⟨HP_LVj_WORD n, 31, 0⟩
abbrev HP_LVj_LWORD (n : Nat) : Nat := 0x40030808 + 0x20 * n
abbrev HP_LVj_LWORD_WORD (n : Nat) : Fld := ⟨HP_LVj_LWORD n, 31, 0⟩
abbrev HP_LVj_STAT (n : Nat) : Nat := 0x4003080C + 0x20 * n
abbrev HP_LVj_STAT_LOCK (n : Nat) : Fld := ⟨HP_LVj_STAT n, 0, 0⟩
abbrev HP_LVj_STAT_FERR (n : Nat) : Fld := ⟨HP_LVj_STAT n, 1, 1⟩
abbrev HP_LVj_STAT_FERRC (n : Nat) : Fld := ⟨HP_LVj_STAT n, 31, 16⟩
abbrev HP_ENCe_CFG (n : Nat) : Nat := 0x40030A00 + 0x20 * n
abbrev HP_ENCe_CFG_EN (n : Nat) : Fld := ⟨HP_ENCe_CFG n, 0, 0⟩
abbrev HP_ENCe_CFG_FILT (n : Nat) : Fld := ⟨HP_ENCe_CFG n, 4, 1⟩
abbrev HP_ENCe_CFG_DIRINV (n : Nat) : Fld := ⟨HP_ENCe_CFG n, 5, 5⟩
abbrev HP_ENCe_CFG_ZPOL (n : Nat) : Fld := ⟨HP_ENCe_CFG n, 6, 6⟩
abbrev HP_ENCe_CFG_STG (n : Nat) : Fld := ⟨HP_ENCe_CFG n, 13, 8⟩
abbrev HP_ENCe_CNT (n : Nat) : Nat := 0x40030A04 + 0x20 * n
abbrev HP_ENCe_CNT_CNT (n : Nat) : Fld := ⟨HP_ENCe_CNT n, 31, 0⟩
abbrev HP_ENCe_SCNT (n : Nat) : Nat := 0x40030A08 + 0x20 * n
abbrev HP_ENCe_SCNT_CNT (n : Nat) : Fld := ⟨HP_ENCe_SCNT n, 31, 0⟩
abbrev HP_ENCe_ZCNT (n : Nat) : Nat := 0x40030A0C + 0x20 * n
abbrev HP_ENCe_ZCNT_CNT (n : Nat) : Fld := ⟨HP_ENCe_ZCNT n, 31, 0⟩
abbrev HP_ENCe_STAT (n : Nat) : Nat := 0x40030A10 + 0x20 * n
abbrev HP_ENCe_STAT_LOSS (n : Nat) : Fld := ⟨HP_ENCe_STAT n, 0, 0⟩
abbrev HP_ENCe_STAT_ZSEEN (n : Nat) : Fld := ⟨HP_ENCe_STAT n, 1, 1⟩
abbrev HP_ENCe_STAT_ILLC (n : Nat) : Fld := ⟨HP_ENCe_STAT n, 31, 16⟩
abbrev HP_SSIs_CFG (n : Nat) : Nat := 0x40030B00 + 0x20 * n
abbrev HP_SSIs_CFG_EN (n : Nat) : Fld := ⟨HP_SSIs_CFG n, 0, 0⟩
abbrev HP_SSIs_CFG_TRIGM (n : Nat) : Fld := ⟨HP_SSIs_CFG n, 1, 1⟩
abbrev HP_SSIs_CFG_LEAD (n : Nat) : Fld := ⟨HP_SSIs_CFG n, 4, 2⟩
abbrev HP_SSIs_CFG_DBITS (n : Nat) : Fld := ⟨HP_SSIs_CFG n, 10, 5⟩
abbrev HP_SSIs_CFG_STB (n : Nat) : Fld := ⟨HP_SSIs_CFG n, 13, 11⟩
abbrev HP_SSIs_CFG_CHK (n : Nat) : Fld := ⟨HP_SSIs_CFG n, 15, 14⟩
abbrev HP_SSIs_CFG_GRAY (n : Nat) : Fld := ⟨HP_SSIs_CFG n, 16, 16⟩
abbrev HP_SSIs_CFG_STG (n : Nat) : Fld := ⟨HP_SSIs_CFG n, 23, 18⟩
abbrev HP_SSIs_CLK (n : Nat) : Nat := 0x40030B04 + 0x20 * n
abbrev HP_SSIs_CLK_CDIV (n : Nat) : Fld := ⟨HP_SSIs_CLK n, 11, 0⟩
abbrev HP_SSIs_CLK_SDLY (n : Nat) : Fld := ⟨HP_SSIs_CLK n, 23, 16⟩
abbrev HP_SSIs_TM (n : Nat) : Nat := 0x40030B08 + 0x20 * n
abbrev HP_SSIs_TM_TM (n : Nat) : Fld := ⟨HP_SSIs_TM n, 15, 0⟩
abbrev HP_SSIs_PER (n : Nat) : Nat := 0x40030B0C + 0x20 * n
abbrev HP_SSIs_PER_PER (n : Nat) : Fld := ⟨HP_SSIs_PER n, 23, 0⟩
abbrev HP_SSIs_POLY (n : Nat) : Nat := 0x40030B10 + 0x20 * n
abbrev HP_SSIs_POLY_POLY (n : Nat) : Fld := ⟨HP_SSIs_POLY n, 7, 0⟩
abbrev HP_SSIs_POLY_PLEN (n : Nat) : Fld := ⟨HP_SSIs_POLY n, 11, 8⟩
abbrev HP_SSIs_DATA_LO (n : Nat) : Nat := 0x40030B14 + 0x20 * n
abbrev HP_SSIs_DATA_LO_DATA (n : Nat) : Fld := ⟨HP_SSIs_DATA_LO n, 31, 0⟩
abbrev HP_SSIs_DATA_HI (n : Nat) : Nat := 0x40030B18 + 0x20 * n
abbrev HP_SSIs_DATA_HI_DATA (n : Nat) : Fld := ⟨HP_SSIs_DATA_HI n, 7, 0⟩
abbrev HP_SSIs_DATA_HI_STATUS (n : Nat) : Fld := ⟨HP_SSIs_DATA_HI n, 14, 8⟩
abbrev HP_SSIs_STAT (n : Nat) : Nat := 0x40030B1C + 0x20 * n
abbrev HP_SSIs_STAT_ERR (n : Nat) : Fld := ⟨HP_SSIs_STAT n, 0, 0⟩
abbrev HP_SSIs_STAT_WIRE (n : Nat) : Fld := ⟨HP_SSIs_STAT n, 1, 1⟩
abbrev HP_SSIs_STAT_BUSY (n : Nat) : Fld := ⟨HP_SSIs_STAT n, 2, 2⟩
abbrev HP_SSIs_STAT_ERRC (n : Nat) : Fld := ⟨HP_SSIs_STAT n, 31, 16⟩
abbrev HP_PRDp_CFG (n : Nat) : Nat := 0x40030C00 + 0x10 * n
abbrev HP_PRDp_CFG_EN (n : Nat) : Fld := ⟨HP_PRDp_CFG n, 0, 0⟩
abbrev HP_PRDp_CFG_CLASS (n : Nat) : Fld := ⟨HP_PRDp_CFG n, 2, 1⟩
abbrev HP_PRDp_CFG_INDEX (n : Nat) : Fld := ⟨HP_PRDp_CFG n, 8, 3⟩
abbrev HP_PRDp_CFG_KSL (n : Nat) : Fld := ⟨HP_PRDp_CFG n, 11, 9⟩
abbrev HP_PRDp_CFG_PPER (n : Nat) : Fld := ⟨HP_PRDp_CFG n, 31, 16⟩
abbrev HP_PRDp_LAST (n : Nat) : Nat := 0x40030C04 + 0x10 * n
abbrev HP_PRDp_LAST_X (n : Nat) : Fld := ⟨HP_PRDp_LAST n, 31, 0⟩
abbrev HP_PRDp_SLOPE_LO (n : Nat) : Nat := 0x40030C08 + 0x10 * n
abbrev HP_PRDp_SLOPE_LO_SLOPE (n : Nat) : Fld := ⟨HP_PRDp_SLOPE_LO n, 31, 0⟩
abbrev HP_PRDp_SLOPE_HI (n : Nat) : Nat := 0x40030C0C + 0x10 * n
abbrev HP_PRDp_SLOPE_HI_SLOPE (n : Nat) : Fld := ⟨HP_PRDp_SLOPE_HI n, 15, 0⟩
abbrev HP_GIOg_CFG (n : Nat) : Nat := 0x40031000 + 0x10 * n
abbrev HP_GIOg_CFG_DIR (n : Nat) : Fld := ⟨HP_GIOg_CFG n, 1, 0⟩
abbrev HP_GIOg_CFG_DDR (n : Nat) : Fld := ⟨HP_GIOg_CFG n, 2, 2⟩
abbrev HP_GIOg_CFG_DLY (n : Nat) : Fld := ⟨HP_GIOg_CFG n, 7, 3⟩
abbrev HP_GIOg_CFG_OSRC (n : Nat) : Fld := ⟨HP_GIOg_CFG n, 9, 8⟩
abbrev HP_GIOg_CFG_SAFEV (n : Nat) : Fld := ⟨HP_GIOg_CFG n, 11, 10⟩
abbrev HP_GIOg_CFG_INV (n : Nat) : Fld := ⟨HP_GIOg_CFG n, 12, 12⟩
abbrev HP_GIOg_CFG_STG (n : Nat) : Fld := ⟨HP_GIOg_CFG n, 18, 13⟩
abbrev HP_GIOg_CFG_PW (n : Nat) : Fld := ⟨HP_GIOg_CFG n, 24, 19⟩
abbrev HP_GIOg_MARK (n : Nat) : Nat := 0x40031004 + 0x10 * n
abbrev HP_GIOg_MARK_MEN (n : Nat) : Fld := ⟨HP_GIOg_MARK n, 0, 0⟩
abbrev HP_GIOg_MARK_EDGE (n : Nat) : Fld := ⟨HP_GIOg_MARK n, 1, 1⟩
abbrev HP_GIOg_MARK_MINW (n : Nat) : Fld := ⟨HP_GIOg_MARK n, 7, 4⟩
abbrev HP_GIOg_VAL (n : Nat) : Nat := 0x40031008 + 0x10 * n
abbrev HP_GIOg_VAL_IN0 (n : Nat) : Fld := ⟨HP_GIOg_VAL n, 0, 0⟩
abbrev HP_GIOg_VAL_IN1 (n : Nat) : Fld := ⟨HP_GIOg_VAL n, 1, 1⟩
abbrev HP_GIOg_VAL_OUT0 (n : Nat) : Fld := ⟨HP_GIOg_VAL n, 4, 4⟩
abbrev HP_GIOg_VAL_OUT1 (n : Nat) : Fld := ⟨HP_GIOg_VAL n, 5, 5⟩
abbrev HP_IBc (n : Nat) : Nat := 0x40031400 + 0x4 * n
abbrev HP_IBc_SRC (n : Nat) : Fld := ⟨HP_IBc n, 3, 0⟩
abbrev HP_IBc_INDEX (n : Nat) : Fld := ⟨HP_IBc n, 9, 4⟩
abbrev HP_IBc_SEL (n : Nat) : Fld := ⟨HP_IBc n, 12, 12⟩
abbrev HP_OBc (n : Nat) : Nat := 0x40031600 + 0x4 * n
abbrev HP_OBc_TGT (n : Nat) : Fld := ⟨HP_OBc n, 1, 0⟩
abbrev HP_OBc_INDEX (n : Nat) : Fld := ⟨HP_OBc n, 9, 4⟩

/-! ### Registers of R198 (07_harbour_ports.md). -/

abbrev PW_CTRL : Nat := 0x40040000
abbrev PW_CTRL_SAFE : Fld := ⟨PW_CTRL, 0, 0⟩
abbrev PW_STAT : Nat := 0x40040004
abbrev PW_STAT_NOIMG : Fld := ⟨PW_STAT, 0, 0⟩
abbrev PW_STAT_TRIPG : Fld := ⟨PW_STAT, 15, 8⟩
abbrev PW_PAIRp_CFG (n : Nat) : Nat := 0x40040100 + 0x20 * n
abbrev PW_PAIRp_CFG_EN (n : Nat) : Fld := ⟨PW_PAIRp_CFG n, 0, 0⟩
abbrev PW_PAIRp_CFG_SAFE (n : Nat) : Fld := ⟨PW_PAIRp_CFG n, 2, 1⟩
abbrev PW_PAIRp_CFG_HPOL (n : Nat) : Fld := ⟨PW_PAIRp_CFG n, 3, 3⟩
abbrev PW_PAIRp_CFG_LPOL (n : Nat) : Fld := ⟨PW_PAIRp_CFG n, 4, 4⟩
abbrev PW_PAIRp_CFG_TRIPM (n : Nat) : Fld := ⟨PW_PAIRp_CFG n, 15, 8⟩
abbrev PW_PAIRp_DT (n : Nat) : Nat := 0x40040104 + 0x20 * n
abbrev PW_PAIRp_DT_DT (n : Nat) : Fld := ⟨PW_PAIRp_DT n, 15, 0⟩
abbrev PW_PAIRp_CMD (n : Nat) : Nat := 0x40040108 + 0x20 * n
abbrev PW_PAIRp_CMD_CMD (n : Nat) : Fld := ⟨PW_PAIRp_CMD n, 31, 0⟩
abbrev PW_PAIRp_STAT (n : Nat) : Nat := 0x4004010C + 0x20 * n
abbrev PW_PAIRp_STAT_HS (n : Nat) : Fld := ⟨PW_PAIRp_STAT n, 0, 0⟩
abbrev PW_PAIRp_STAT_LS (n : Nat) : Fld := ⟨PW_PAIRp_STAT n, 1, 1⟩
abbrev PW_PAIRp_STAT_TRIP (n : Nat) : Fld := ⟨PW_PAIRp_STAT n, 2, 2⟩
abbrev PW_PAIRp_STAT_INSAFE (n : Nat) : Fld := ⟨PW_PAIRp_STAT n, 3, 3⟩
abbrev PW_PAIRp_STAT_PEND (n : Nat) : Fld := ⟨PW_PAIRp_STAT n, 6, 4⟩
abbrev PW_PAIRp_CNT (n : Nat) : Nat := 0x40040110 + 0x20 * n
abbrev PW_PAIRp_CNT_DROP (n : Nat) : Fld := ⟨PW_PAIRp_CNT n, 15, 0⟩
abbrev PW_PAIRp_CNT_TRIPC (n : Nat) : Fld := ⟨PW_PAIRp_CNT n, 31, 16⟩
abbrev PW_PAIRp_CLR (n : Nat) : Nat := 0x40040114 + 0x20 * n
abbrev PW_PAIRp_CLR_CNT (n : Nat) : Fld := ⟨PW_PAIRp_CLR n, 0, 0⟩

/-! ### Registers of R199 (07_harbour_ports.md). -/

abbrev FQ_Qf_CFG (n : Nat) : Nat := 0x40038000 + 0x40 * n
abbrev FQ_Qf_CFG_EN (n : Nat) : Fld := ⟨FQ_Qf_CFG n, 0, 0⟩
abbrev FQ_Qf_CFG_WSRC (n : Nat) : Fld := ⟨FQ_Qf_CFG n, 2, 1⟩
abbrev FQ_Qf_CFG_LANE (n : Nat) : Fld := ⟨FQ_Qf_CFG n, 6, 3⟩
abbrev FQ_Qf_CFG_FRAME (n : Nat) : Fld := ⟨FQ_Qf_CFG n, 7, 7⟩
abbrev FQ_Qf_CFG_STG (n : Nat) : Fld := ⟨FQ_Qf_CFG n, 13, 8⟩
abbrev FQ_Qf_CFG_FCPOL (n : Nat) : Fld := ⟨FQ_Qf_CFG n, 14, 14⟩
abbrev FQ_Qf_WM (n : Nat) : Nat := 0x40038004 + 0x40 * n
abbrev FQ_Qf_WM_LOWM (n : Nat) : Fld := ⟨FQ_Qf_WM n, 12, 0⟩
abbrev FQ_Qf_WM_HIWM (n : Nat) : Fld := ⟨FQ_Qf_WM n, 28, 16⟩
abbrev FQ_Qf_DATA (n : Nat) : Nat := 0x40038008 + 0x40 * n
abbrev FQ_Qf_DATA_DATA (n : Nat) : Fld := ⟨FQ_Qf_DATA n, 31, 0⟩
abbrev FQ_Qf_STAT (n : Nat) : Nat := 0x4003800C + 0x40 * n
abbrev FQ_Qf_STAT_FILL (n : Nat) : Fld := ⟨FQ_Qf_STAT n, 12, 0⟩
abbrev FQ_Qf_STAT_AVAIL (n : Nat) : Fld := ⟨FQ_Qf_STAT n, 28, 16⟩
abbrev FQ_Qf_STAT_FC (n : Nat) : Fld := ⟨FQ_Qf_STAT n, 29, 29⟩
abbrev FQ_Qf_STAT_UNDR (n : Nat) : Fld := ⟨FQ_Qf_STAT n, 30, 30⟩
abbrev FQ_Qf_STAT_OVF (n : Nat) : Fld := ⟨FQ_Qf_STAT n, 31, 31⟩
abbrev FQ_Qf_LOST (n : Nat) : Nat := 0x40038010 + 0x40 * n
abbrev FQ_Qf_LOST_LOST (n : Nat) : Fld := ⟨FQ_Qf_LOST n, 31, 0⟩
abbrev FQ_Qf_CTL (n : Nat) : Nat := 0x40038014 + 0x40 * n
abbrev FQ_Qf_CTL_FLUSH (n : Nat) : Fld := ⟨FQ_Qf_CTL n, 0, 0⟩
abbrev FQ_Qf_CTL_CLRLOST (n : Nat) : Fld := ⟨FQ_Qf_CTL n, 1, 1⟩

/-! ### Registers of R234 (08_configuration.md). -/

abbrev CF_STAT : Nat := 0x400A0000
abbrev CF_STAT_STATE : Fld := ⟨CF_STAT, 1, 0⟩
abbrev CF_STAT_GOLDEN : Fld := ⟨CF_STAT, 2, 2⟩
abbrev CF_STAT_TRIAL : Fld := ⟨CF_STAT, 3, 3⟩
abbrev CF_STAT_BUSY : Fld := ⟨CF_STAT, 8, 8⟩
abbrev CF_STAT_CFGERR : Fld := ⟨CF_STAT, 16, 16⟩
abbrev CF_DEVID : Nat := 0x400A0004
abbrev CF_DEVID_ID : Fld := ⟨CF_DEVID, 31, 0⟩
abbrev CF_IMGSEQ : Nat := 0x400A0008
abbrev CF_IMGSEQ_SEQ : Fld := ⟨CF_IMGSEQ, 31, 0⟩
abbrev CF_IMGLEN : Nat := 0x400A000C
abbrev CF_IMGLEN_LEN : Fld := ⟨CF_IMGLEN, 24, 0⟩
abbrev CF_BOOT : Nat := 0x400A0010
abbrev CF_BOOT_TRIALST : Fld := ⟨CF_BOOT, 7, 0⟩
abbrev CF_BOOT_PRIMST : Fld := ⟨CF_BOOT, 15, 8⟩
abbrev CF_BOOT_GOLDST : Fld := ⟨CF_BOOT, 23, 16⟩
abbrev CF_KEYST : Nat := 0x400A0014
abbrev CF_KEYST_SLOT : Fld := ⟨CF_KEYST, 7, 0⟩
abbrev CF_FLOOR : Nat := 0x400A0018
abbrev CF_FLOOR_FLOOR : Fld := ⟨CF_FLOOR, 31, 0⟩
abbrev CF_BPTR0 : Nat := 0x400A0020
abbrev CF_BPTR0_PTR : Fld := ⟨CF_BPTR0, 27, 12⟩
abbrev CF_BPTR1 : Nat := 0x400A0024
abbrev CF_BPTR1_PTR : Fld := ⟨CF_BPTR1, 27, 12⟩
abbrev CF_BSEL : Nat := 0x400A0028
abbrev CF_BSEL_SEL : Fld := ⟨CF_BSEL, 0, 0⟩
abbrev CF_BSEL_TRIAL : Fld := ⟨CF_BSEL, 1, 1⟩
abbrev CF_DSTAGE_LO : Nat := 0x400A0030
abbrev CF_DSTAGE_LO_ADDR : Fld := ⟨CF_DSTAGE_LO, 31, 12⟩
abbrev CF_DSTAGE_HI : Nat := 0x400A0034
abbrev CF_DSTAGE_HI_ADDR : Fld := ⟨CF_DSTAGE_HI, 7, 0⟩
abbrev CF_ICP_SRC_LO : Nat := 0x400A0100
abbrev CF_ICP_SRC_LO_ADDR : Fld := ⟨CF_ICP_SRC_LO, 31, 0⟩
abbrev CF_ICP_SRC_HI : Nat := 0x400A0104
abbrev CF_ICP_SRC_HI_ADDR : Fld := ⟨CF_ICP_SRC_HI, 7, 0⟩
abbrev CF_ICP_LEN : Nat := 0x400A0108
abbrev CF_ICP_LEN_LEN : Fld := ⟨CF_ICP_LEN, 24, 0⟩
abbrev CF_ICP_STG : Nat := 0x400A010C
abbrev CF_ICP_STG_ADDR : Fld := ⟨CF_ICP_STG, 22, 4⟩
abbrev CF_ICP_STGSZ : Nat := 0x400A0110
abbrev CF_ICP_STGSZ_SIZE : Fld := ⟨CF_ICP_STGSZ, 22, 4⟩
abbrev CF_ICP_LF_LO : Nat := 0x400A0114
abbrev CF_ICP_LF_LO_FRAC : Fld := ⟨CF_ICP_LF_LO, 31, 0⟩
abbrev CF_ICP_LF_HI : Nat := 0x400A0118
abbrev CF_ICP_LF_HI_REV : Fld := ⟨CF_ICP_LF_HI, 31, 0⟩
abbrev CF_ICP_CTL : Nat := 0x400A011C
abbrev CF_ICP_CTL_GO : Fld := ⟨CF_ICP_CTL, 0, 0⟩
abbrev CF_ICP_CTL_ABORT : Fld := ⟨CF_ICP_CTL, 1, 1⟩
abbrev CF_ICP_CTL_DOM : Fld := ⟨CF_ICP_CTL, 6, 4⟩
abbrev CF_ICP_CTL_SLOT : Fld := ⟨CF_ICP_CTL, 10, 8⟩
abbrev CF_ICP_STAT : Nat := 0x400A0120
abbrev CF_ICP_STAT_STATE : Fld := ⟨CF_ICP_STAT, 3, 0⟩
abbrev CF_ICP_STAT_CODE : Fld := ⟨CF_ICP_STAT, 15, 8⟩
abbrev CF_ICP_STAT_ISLE : Fld := ⟨CF_ICP_STAT, 22, 16⟩
abbrev CF_ICP_STAT_PLANE : Fld := ⟨CF_ICP_STAT, 23, 23⟩
abbrev CF_ICP_STAT_CELL : Fld := ⟨CF_ICP_STAT, 27, 24⟩
abbrev CF_ICP_STAT_INDEX : Fld := ⟨CF_ICP_STAT, 31, 28⟩
abbrev CF_ICP_DONE : Nat := 0x400A0124
abbrev CF_ICP_DONE_BYTES : Fld := ⟨CF_ICP_DONE, 24, 0⟩
abbrev CF_ICP_NEED : Nat := 0x400A0128
abbrev CF_ICP_NEED_NEED : Fld := ⟨CF_ICP_NEED, 7, 0⟩
abbrev CF_RB_CTL : Nat := 0x400A0200
abbrev CF_RB_CTL_GO : Fld := ⟨CF_RB_CTL, 0, 0⟩
abbrev CF_RB_CTL_FREEZE : Fld := ⟨CF_RB_CTL, 1, 1⟩
abbrev CF_RB_CTL_DOM : Fld := ⟨CF_RB_CTL, 6, 4⟩
abbrev CF_RB_LIST : Nat := 0x400A0204
abbrev CF_RB_LIST_ADDR : Fld := ⟨CF_RB_LIST, 22, 4⟩
abbrev CF_RB_N : Nat := 0x400A0208
abbrev CF_RB_N_N : Fld := ⟨CF_RB_N, 8, 0⟩
abbrev CF_RB_DST : Nat := 0x400A020C
abbrev CF_RB_DST_ADDR : Fld := ⟨CF_RB_DST, 22, 5⟩
abbrev CF_RB_SIZE : Nat := 0x400A0210
abbrev CF_RB_SIZE_SIZE : Fld := ⟨CF_RB_SIZE, 22, 5⟩
abbrev CF_RB_STAT : Nat := 0x400A0214
abbrev CF_RB_STAT_STATE : Fld := ⟨CF_RB_STAT, 1, 0⟩
abbrev CF_RB_STAT_LAST : Fld := ⟨CF_RB_STAT, 6, 4⟩
abbrev CF_RB_LF_LO : Nat := 0x400A0218
abbrev CF_RB_LF_LO_FRAC : Fld := ⟨CF_RB_LF_LO, 31, 0⟩
abbrev CF_RB_LF_HI : Nat := 0x400A021C
abbrev CF_RB_LF_HI_REV : Fld := ⟨CF_RB_LF_HI, 31, 0⟩

/-! ### Registers of R260 (09_control_cores.md). -/

abbrev CP_CFG (n : Nat) : Nat := 0x40001000 + 0x400 * n
abbrev CP_CFG_BANKWIN (n : Nat) : Fld := ⟨CP_CFG n, 0, 0⟩
abbrev CP_CFG_ICEN (n : Nat) : Fld := ⟨CP_CFG n, 1, 1⟩
abbrev CP_CFG_DCEN (n : Nat) : Fld := ⟨CP_CFG n, 2, 2⟩
abbrev CP_CTL (n : Nat) : Nat := 0x40001004 + 0x400 * n
abbrev CP_CTL_RUN (n : Nat) : Fld := ⟨CP_CTL n, 0, 0⟩
abbrev CP_CTL_HALT (n : Nat) : Fld := ⟨CP_CTL n, 1, 1⟩
abbrev CP_STAT (n : Nat) : Nat := 0x40001008 + 0x400 * n
abbrev CP_STAT_RUN (n : Nat) : Fld := ⟨CP_STAT n, 0, 0⟩
abbrev CP_STAT_STOPPED (n : Nat) : Fld := ⟨CP_STAT n, 1, 1⟩
abbrev CP_STAT_TW (n : Nat) : Fld := ⟨CP_STAT n, 2, 2⟩
abbrev CP_STAT_DF (n : Nat) : Fld := ⟨CP_STAT n, 3, 3⟩
abbrev CP_STAT_SLOT (n : Nat) : Fld := ⟨CP_STAT n, 5, 4⟩
abbrev CP_STAT_RESV (n : Nat) : Fld := ⟨CP_STAT n, 11, 8⟩
abbrev CP_RVEC_LO (n : Nat) : Nat := 0x4000100C + 0x400 * n
abbrev CP_RVEC_LO_ADDR (n : Nat) : Fld := ⟨CP_RVEC_LO n, 31, 2⟩
abbrev CP_RVEC_HI (n : Nat) : Nat := 0x40001010 + 0x400 * n
abbrev CP_RVEC_HI_ADDR (n : Nat) : Fld := ⟨CP_RVEC_HI n, 7, 0⟩
abbrev CP_IPEND (n : Nat) : Nat := 0x40001014 + 0x400 * n
abbrev CP_IPEND_PEND (n : Nat) : Fld := ⟨CP_IPEND n, 7, 0⟩
abbrev CP_IMASK (n : Nat) : Nat := 0x40001018 + 0x400 * n
abbrev CP_IMASK_MASK (n : Nat) : Fld := ⟨CP_IMASK n, 7, 0⟩
abbrev CP_IRAISE (n : Nat) : Nat := 0x4000101C + 0x400 * n
abbrev CP_IRAISE_RAISE (n : Nat) : Fld := ⟨CP_IRAISE n, 7, 0⟩
abbrev CP_STOPCAUSE (n : Nat) : Nat := 0x40001020 + 0x400 * n
abbrev CP_STOPCAUSE_CODE (n : Nat) : Fld := ⟨CP_STOPCAUSE n, 4, 0⟩
abbrev CP_STOPCAUSE_ACC (n : Nat) : Fld := ⟨CP_STOPCAUSE n, 6, 5⟩
abbrev CP_STOPPC_LO (n : Nat) : Nat := 0x40001024 + 0x400 * n
abbrev CP_STOPPC_LO_PC (n : Nat) : Fld := ⟨CP_STOPPC_LO n, 31, 0⟩
abbrev CP_STOPPC_HI (n : Nat) : Nat := 0x40001028 + 0x400 * n
abbrev CP_STOPPC_HI_PC (n : Nat) : Fld := ⟨CP_STOPPC_HI n, 7, 0⟩
abbrev CP_CNT0 (n : Nat) : Nat := 0x40001030 + 0x400 * n
abbrev CP_CNT0_TRAPS (n : Nat) : Fld := ⟨CP_CNT0 n, 15, 0⟩
abbrev CP_CNT0_DFAULTS (n : Nat) : Fld := ⟨CP_CNT0 n, 31, 16⟩
abbrev CP_CNT1 (n : Nat) : Nat := 0x40001034 + 0x400 * n
abbrev CP_CNT1_SWITCH (n : Nat) : Fld := ⟨CP_CNT1 n, 31, 0⟩
abbrev CP_CLR (n : Nat) : Nat := 0x40001038 + 0x400 * n
abbrev CP_CLR_CNT (n : Nat) : Fld := ⟨CP_CLR n, 0, 0⟩

/-! ### Registers of R261 (09_control_cores.md). -/

abbrev MM_CTRL : Nat := 0x40060000
abbrev MM_CTRL_L2EN : Fld := ⟨MM_CTRL, 0, 0⟩
abbrev MM_STAT : Nat := 0x40060004
abbrev MM_STAT_INVBUSY : Fld := ⟨MM_STAT, 0, 0⟩
abbrev MM_STAT_FQNE : Fld := ⟨MM_STAT, 1, 1⟩
abbrev MM_STAT_FQWAIT : Fld := ⟨MM_STAT, 2, 2⟩
abbrev MM_STAT_FQLEN : Fld := ⟨MM_STAT, 7, 4⟩
abbrev MM_INV : Nat := 0x40060008
abbrev MM_INV_GO : Fld := ⟨MM_INV, 0, 0⟩
abbrev MM_INV_KIND : Fld := ⟨MM_INV, 2, 1⟩
abbrev MM_INV_ASID : Fld := ⟨MM_INV, 15, 8⟩
abbrev MM_INV_IOAS : Fld := ⟨MM_INV, 19, 16⟩
abbrev MM_INVVA_LO : Nat := 0x4006000C
abbrev MM_INVVA_LO_VA : Fld := ⟨MM_INVVA_LO, 31, 12⟩
abbrev MM_INVVA_HI : Nat := 0x40060010
abbrev MM_INVVA_HI_VA : Fld := ⟨MM_INVVA_HI, 7, 0⟩
abbrev MM_IOTTBi_LO (n : Nat) : Nat := 0x40060020 + 0x8 * n
abbrev MM_IOTTBi_LO_EN (n : Nat) : Fld := ⟨MM_IOTTBi_LO n, 0, 0⟩
abbrev MM_IOTTBi_LO_BASE (n : Nat) : Fld := ⟨MM_IOTTBi_LO n, 31, 13⟩
abbrev MM_IOTTBi_HI (n : Nat) : Nat := 0x40060024 + 0x8 * n
abbrev MM_IOTTBi_HI_BASE (n : Nat) : Fld := ⟨MM_IOTTBi_HI n, 7, 0⟩
abbrev MM_IOFQ_SRC : Nat := 0x40060100
abbrev MM_IOFQ_SRC_REQ : Fld := ⟨MM_IOFQ_SRC, 7, 0⟩
abbrev MM_IOFQ_SRC_IOAS : Fld := ⟨MM_IOFQ_SRC, 11, 8⟩
abbrev MM_IOFQ_SRC_ACC : Fld := ⟨MM_IOFQ_SRC, 13, 12⟩
abbrev MM_IOFQ_SRC_LVL : Fld := ⟨MM_IOFQ_SRC, 15, 14⟩
abbrev MM_IOFQ_SRC_KIND : Fld := ⟨MM_IOFQ_SRC, 17, 16⟩
abbrev MM_IOFQ_SRC_VALID : Fld := ⟨MM_IOFQ_SRC, 31, 31⟩
abbrev MM_IOFQ_VA_LO : Nat := 0x40060104
abbrev MM_IOFQ_VA_LO_VA : Fld := ⟨MM_IOFQ_VA_LO, 31, 0⟩
abbrev MM_IOFQ_VA_HI : Nat := 0x40060108
abbrev MM_IOFQ_VA_HI_VA : Fld := ⟨MM_IOFQ_VA_HI, 7, 0⟩
abbrev MM_IOFQ_POP : Nat := 0x4006010C
abbrev MM_IOFQ_POP_POP : Fld := ⟨MM_IOFQ_POP, 0, 0⟩
abbrev MM_IORES : Nat := 0x40060110
abbrev MM_IORES_REQ : Fld := ⟨MM_IORES, 7, 0⟩
abbrev MM_IORES_ABANDON : Fld := ⟨MM_IORES, 8, 8⟩
abbrev MM_IORES_GO : Fld := ⟨MM_IORES, 31, 31⟩
abbrev MM_CNT0 : Nat := 0x40060120
abbrev MM_CNT0_WALKS : Fld := ⟨MM_CNT0, 31, 0⟩
abbrev MM_CNT1 : Nat := 0x40060124
abbrev MM_CNT1_CFAULT : Fld := ⟨MM_CNT1, 15, 0⟩
abbrev MM_CNT1_IOFAULT : Fld := ⟨MM_CNT1, 31, 16⟩
abbrev MM_CLR : Nat := 0x40060128
abbrev MM_CLR_CNT : Fld := ⟨MM_CLR, 0, 0⟩

/-! ### Registers of R276 (10_thread_scheduler.md). -/

abbrev TS_CTRL : Nat := 0x40050000
abbrev TS_CTRL_EN : Fld := ⟨TS_CTRL, 0, 0⟩
abbrev TS_CTRL_TREN : Fld := ⟨TS_CTRL, 1, 1⟩
abbrev TS_STAT : Nat := 0x40050004
abbrev TS_STAT_NREADY : Fld := ⟨TS_STAT, 9, 0⟩
abbrev TS_STAT_TRLOST : Fld := ⟨TS_STAT, 16, 16⟩
abbrev TS_STAT_TDROP : Fld := ⟨TS_STAT, 17, 17⟩
abbrev TS_STAT_CFGERR : Fld := ⟨TS_STAT, 18, 18⟩
abbrev TS_CFG : Nat := 0x40050008
abbrev TS_CFG_INSPORT : Fld := ⟨TS_CFG, 2, 0⟩
abbrev TS_CFG_DLIST : Fld := ⟨TS_CFG, 13, 8⟩
abbrev TS_TRBASE_LO : Nat := 0x40050010
abbrev TS_TRBASE_LO_ADDR : Fld := ⟨TS_TRBASE_LO, 31, 4⟩
abbrev TS_TRBASE_HI : Nat := 0x40050014
abbrev TS_TRBASE_HI_ADDR : Fld := ⟨TS_TRBASE_HI, 7, 0⟩
abbrev TS_TRSIZE : Nat := 0x40050018
abbrev TS_TRSIZE_LOG2 : Fld := ⟨TS_TRSIZE, 4, 0⟩
abbrev TS_TRWP : Nat := 0x4005001C
abbrev TS_TRWP_WP : Fld := ⟨TS_TRWP, 31, 0⟩
abbrev TS_TRRP : Nat := 0x40050020
abbrev TS_TRRP_RP : Fld := ⟨TS_TRRP, 31, 0⟩
abbrev TS_TRLOST : Nat := 0x40050024
abbrev TS_TRLOST_LOST : Fld := ⟨TS_TRLOST, 31, 0⟩
abbrev TS_CMD : Nat := 0x40050040
abbrev TS_CMD_THREAD : Fld := ⟨TS_CMD, 8, 0⟩
abbrev TS_CMD_OP : Fld := ⟨TS_CMD, 15, 12⟩
abbrev TS_CMD_GO : Fld := ⟨TS_CMD, 31, 31⟩
abbrev TS_CMDSTAT : Nat := 0x40050044
abbrev TS_CMDSTAT_BUSY : Fld := ⟨TS_CMDSTAT, 0, 0⟩
abbrev TS_CMDSTAT_RES : Fld := ⟨TS_CMDSTAT, 2, 1⟩
abbrev TS_CMDARG : Nat := 0x40050048
abbrev TS_CMDARG_ARG : Fld := ⟨TS_CMDARG, 31, 0⟩
abbrev TS_DSEL : Nat := 0x40050050
abbrev TS_DSEL_THREAD : Fld := ⟨TS_DSEL, 8, 0⟩
abbrev TS_DSEL_WORD : Fld := ⟨TS_DSEL, 18, 16⟩
abbrev TS_DDATA : Nat := 0x40050054
abbrev TS_DDATA_DATA : Fld := ⟨TS_DDATA, 31, 0⟩
abbrev TS_TOKSEL : Nat := 0x40050060
abbrev TS_TOKSEL_TOKEN : Fld := ⟨TS_TOKSEL, 11, 0⟩
abbrev TS_TOKCFG : Nat := 0x40050064
abbrev TS_TOKCFG_MODE : Fld := ⟨TS_TOKCFG, 1, 0⟩
abbrev TS_TOKCFG_COUNT : Fld := ⟨TS_TOKCFG, 31, 16⟩
abbrev TS_TOKSTAT : Nat := 0x40050068
abbrev TS_TOKSTAT_HEAD : Fld := ⟨TS_TOKSTAT, 8, 0⟩
abbrev TS_TOKSTAT_NWAIT : Fld := ⟨TS_TOKSTAT, 25, 16⟩
abbrev TS_POST : Nat := 0x40050080
abbrev TS_POST_TOKEN : Fld := ⟨TS_POST, 11, 0⟩
abbrev TS_POST_GO : Fld := ⟨TS_POST, 31, 31⟩
abbrev TS_CNT0 : Nat := 0x400500C0
abbrev TS_CNT0_SWITCH : Fld := ⟨TS_CNT0, 31, 0⟩
abbrev TS_CNT1 : Nat := 0x400500C4
abbrev TS_CNT1_FILL : Fld := ⟨TS_CNT1, 15, 0⟩
abbrev TS_CNT1_EVICT : Fld := ⟨TS_CNT1, 31, 16⟩
abbrev TS_CNT2 : Nat := 0x400500C8
abbrev TS_CNT2_TDROP : Fld := ⟨TS_CNT2, 15, 0⟩
abbrev TS_CNT2_STALEW : Fld := ⟨TS_CNT2, 31, 16⟩
abbrev TS_CLR : Nat := 0x400500CC
abbrev TS_CLR_CNT : Fld := ⟨TS_CLR, 0, 0⟩
abbrev TS_COREc_WAIT (n : Nat) : Nat := 0x40050100 + 0x20 * n
abbrev TS_COREc_WAIT_TOKEN (n : Nat) : Fld := ⟨TS_COREc_WAIT n, 11, 0⟩
abbrev TS_COREc_WAIT_TV (n : Nat) : Fld := ⟨TS_COREc_WAIT n, 12, 12⟩
abbrev TS_COREc_WAIT_TT (n : Nat) : Fld := ⟨TS_COREc_WAIT n, 13, 13⟩
abbrev TS_COREc_TMO (n : Nat) : Nat := 0x40050104 + 0x20 * n
abbrev TS_COREc_TMO_TMO (n : Nat) : Fld := ⟨TS_COREc_TMO n, 26, 0⟩
abbrev TS_COREc_SELF (n : Nat) : Nat := 0x40050108 + 0x20 * n
abbrev TS_COREc_SELF_THREAD (n : Nat) : Fld := ⟨TS_COREc_SELF n, 8, 0⟩
abbrev TS_COREc_SELF_PRI (n : Nat) : Fld := ⟨TS_COREc_SELF n, 20, 16⟩
abbrev TS_COREc_SELF_NONE (n : Nat) : Fld := ⟨TS_COREc_SELF n, 31, 31⟩
abbrev TS_COREc_WAKE (n : Nat) : Nat := 0x4005010C + 0x20 * n
abbrev TS_COREc_WAKE_CAUSE (n : Nat) : Fld := ⟨TS_COREc_WAKE n, 2, 0⟩
abbrev TS_COREc_WVAL (n : Nat) : Nat := 0x40050110 + 0x20 * n
abbrev TS_COREc_WVAL_WVAL (n : Nat) : Fld := ⟨TS_COREc_WVAL n, 31, 0⟩

/-! ### Registers of R301 (11_packet_network_dma.md). -/

abbrev PN_CTRL : Nat := 0x40070000
abbrev PN_CTRL_STATEN : Fld := ⟨PN_CTRL, 0, 0⟩
abbrev PN_STAT : Nat := 0x40070004
abbrev PN_STAT_OFFL : Fld := ⟨PN_STAT, 0, 0⟩
abbrev PN_STAT_CFGERR : Fld := ⟨PN_STAT, 1, 1⟩
abbrev PN_OFFCNT : Nat := 0x40070008
abbrev PN_OFFCNT_CNT : Fld := ⟨PN_OFFCNT, 31, 0⟩
abbrev PN_CLR : Nat := 0x4007000C
abbrev PN_CLR_CNT : Fld := ⟨PN_CLR, 0, 0⟩
abbrev PN_RTRr_WGT (n : Nat) : Nat := 0x40070100 + 0x10 * n
abbrev PN_RTRr_WGT_W0 (n : Nat) : Fld := ⟨PN_RTRr_WGT n, 3, 0⟩
abbrev PN_RTRr_WGT_W2 (n : Nat) : Fld := ⟨PN_RTRr_WGT n, 7, 4⟩
abbrev PN_RTRr_QCFG (n : Nat) : Nat := 0x40070104 + 0x10 * n
abbrev PN_RTRr_QCFG_D (n : Nat) : Fld := ⟨PN_RTRr_QCFG n, 15, 0⟩
abbrev PN_RTRr_CTL (n : Nat) : Nat := 0x40070108 + 0x10 * n
abbrev PN_RTRr_CTL_APPLY (n : Nat) : Fld := ⟨PN_RTRr_CTL n, 0, 0⟩
abbrev PN_RTRr_CST (n : Nat) : Nat := 0x4007010C + 0x10 * n
abbrev PN_RTRr_CST_RES (n : Nat) : Fld := ⟨PN_RTRr_CST n, 1, 0⟩
abbrev PN_NIi_STAT (n : Nat) : Nat := 0x40071000 + 0x40 * n
abbrev PN_NIi_STAT_OPEN (n : Nat) : Fld := ⟨PN_NIi_STAT n, 0, 0⟩
abbrev PN_NIi_STAT_RTERR (n : Nat) : Fld := ⟨PN_NIi_STAT n, 1, 1⟩
abbrev PN_NIi_STAT_RTBUSY (n : Nat) : Fld := ⟨PN_NIi_STAT n, 2, 2⟩
abbrev PN_NIi_STAT_RTTO (n : Nat) : Fld := ⟨PN_NIi_STAT n, 3, 3⟩
abbrev PN_NIi_STAT_OUTST (n : Nat) : Fld := ⟨PN_NIi_STAT n, 14, 8⟩
abbrev PN_NIi_RDB_LO (n : Nat) : Nat := 0x40071008 + 0x40 * n
abbrev PN_NIi_RDB_LO_BYTES (n : Nat) : Fld := ⟨PN_NIi_RDB_LO n, 31, 0⟩
abbrev PN_NIi_RDB_HI (n : Nat) : Nat := 0x4007100C + 0x40 * n
abbrev PN_NIi_RDB_HI_BYTES (n : Nat) : Fld := ⟨PN_NIi_RDB_HI n, 31, 0⟩
abbrev PN_NIi_WRB_LO (n : Nat) : Nat := 0x40071010 + 0x40 * n
abbrev PN_NIi_WRB_LO_BYTES (n : Nat) : Fld := ⟨PN_NIi_WRB_LO n, 31, 0⟩
abbrev PN_NIi_WRB_HI (n : Nat) : Nat := 0x40071014 + 0x40 * n
abbrev PN_NIi_WRB_HI_BYTES (n : Nat) : Fld := ⟨PN_NIi_WRB_HI n, 31, 0⟩
abbrev PN_NIi_HISTk (n : Nat) (m : Nat) : Nat := 0x40071018 + 0x40 * n + 0x4 * m
abbrev PN_NIi_HISTk_CNT (n : Nat) (m : Nat) : Fld := ⟨PN_NIi_HISTk n m, 31, 0⟩
abbrev PN_NIi_MAXLAT (n : Nat) : Nat := 0x40071038 + 0x40 * n
abbrev PN_NIi_MAXLAT_LAT (n : Nat) : Fld := ⟨PN_NIi_MAXLAT n, 15, 0⟩
abbrev PN_RTi_d_LO (n : Nat) (m : Nat) : Nat := 0x40074000 + 0x200 * n + 0x8 * m
abbrev PN_RTi_d_LO_CODES (n : Nat) (m : Nat) : Fld := ⟨PN_RTi_d_LO n m, 29, 0⟩
abbrev PN_RTi_d_HI (n : Nat) (m : Nat) : Nat := 0x40074004 + 0x200 * n + 0x8 * m
abbrev PN_RTi_d_HI_LEN (n : Nat) (m : Nat) : Fld := ⟨PN_RTi_d_HI n m, 3, 0⟩
abbrev PN_RTi_d_HI_CODES (n : Nat) (m : Nat) : Fld := ⟨PN_RTi_d_HI n m, 21, 16⟩
abbrev PN_RTi_d_HI_VALID (n : Nat) (m : Nat) : Fld := ⟨PN_RTi_d_HI n m, 31, 31⟩

/-! ### Registers of R302 (11_packet_network_dma.md). -/

abbrev DM_ENGe_CFG (n : Nat) : Nat := 0x40068100 + 0x40 * n
abbrev DM_ENGe_CFG_EN (n : Nat) : Fld := ⟨DM_ENGe_CFG n, 0, 0⟩
abbrev DM_ENGe_TTB_LO (n : Nat) : Nat := 0x40068104 + 0x40 * n
abbrev DM_ENGe_TTB_LO_ADDR (n : Nat) : Fld := ⟨DM_ENGe_TTB_LO n, 31, 9⟩
abbrev DM_ENGe_TTB_HI (n : Nat) : Nat := 0x40068108 + 0x40 * n
abbrev DM_ENGe_TTB_HI_ADDR (n : Nat) : Fld := ⟨DM_ENGe_TTB_HI n, 7, 0⟩
abbrev DM_ENGe_TRIG (n : Nat) : Nat := 0x4006810C + 0x40 * n
abbrev DM_ENGe_TRIG_TRIG (n : Nat) : Fld := ⟨DM_ENGe_TRIG n, 5, 0⟩
abbrev DM_ENGe_TRIG_GO (n : Nat) : Fld := ⟨DM_ENGe_TRIG n, 31, 31⟩
abbrev DM_ENGe_CTL (n : Nat) : Nat := 0x40068110 + 0x40 * n
abbrev DM_ENGe_CTL_ABORT (n : Nat) : Fld := ⟨DM_ENGe_CTL n, 0, 0⟩
abbrev DM_ENGe_CTL_CLRCNT (n : Nat) : Fld := ⟨DM_ENGe_CTL n, 1, 1⟩
abbrev DM_ENGe_STAT (n : Nat) : Nat := 0x40068114 + 0x40 * n
abbrev DM_ENGe_STAT_BUSY (n : Nat) : Fld := ⟨DM_ENGe_STAT n, 0, 0⟩
abbrev DM_ENGe_STAT_FWAIT (n : Nat) : Fld := ⟨DM_ENGe_STAT n, 1, 1⟩
abbrev DM_ENGe_STAT_QLEN (n : Nat) : Fld := ⟨DM_ENGe_STAT n, 5, 2⟩
abbrev DM_ENGe_STAT_TRIG (n : Nat) : Fld := ⟨DM_ENGe_STAT n, 11, 6⟩
abbrev DM_ENGe_STAT_ERR (n : Nat) : Fld := ⟨DM_ENGe_STAT n, 12, 12⟩
abbrev DM_ENGe_STAT_QOVR (n : Nat) : Fld := ⟨DM_ENGe_STAT n, 13, 13⟩
abbrev DM_ENGe_STAT_CODE (n : Nat) : Fld := ⟨DM_ENGe_STAT n, 19, 16⟩
abbrev DM_ENGe_DESC_LO (n : Nat) : Nat := 0x40068118 + 0x40 * n
abbrev DM_ENGe_DESC_LO_ADDR (n : Nat) : Fld := ⟨DM_ENGe_DESC_LO n, 31, 5⟩
abbrev DM_ENGe_DESC_HI (n : Nat) : Nat := 0x4006811C + 0x40 * n
abbrev DM_ENGe_DESC_HI_ADDR (n : Nat) : Fld := ⟨DM_ENGe_DESC_HI n, 7, 0⟩
abbrev DM_ENGe_PROG (n : Nat) : Nat := 0x40068120 + 0x40 * n
abbrev DM_ENGe_PROG_BYTES (n : Nat) : Fld := ⟨DM_ENGe_PROG n, 23, 0⟩
abbrev DM_ENGe_CNT0 (n : Nat) : Nat := 0x40068124 + 0x40 * n
abbrev DM_ENGe_CNT0_DONE (n : Nat) : Fld := ⟨DM_ENGe_CNT0 n, 31, 0⟩
abbrev DM_ENGe_CNT1 (n : Nat) : Nat := 0x40068128 + 0x40 * n
abbrev DM_ENGe_CNT1_ERRC (n : Nat) : Fld := ⟨DM_ENGe_CNT1 n, 15, 0⟩
abbrev DM_ENGe_CNT1_DROPC (n : Nat) : Fld := ⟨DM_ENGe_CNT1 n, 31, 16⟩

/-! ### Registers of R320 (12_memory_integrity.md). -/

abbrev MI_CTRL : Nat := 0x40080000
abbrev MI_CTRL_BGEN : Fld := ⟨MI_CTRL, 0, 0⟩
abbrev MI_CTRL_CFGEN : Fld := ⟨MI_CTRL, 1, 1⟩
abbrev MI_STAT : Nat := 0x40080004
abbrev MI_STAT_CE : Fld := ⟨MI_STAT, 0, 0⟩
abbrev MI_STAT_UE : Fld := ⟨MI_STAT, 1, 1⟩
abbrev MI_STAT_CFGREP : Fld := ⟨MI_STAT, 2, 2⟩
abbrev MI_STAT_REPFAIL : Fld := ⟨MI_STAT, 3, 3⟩
abbrev MI_STAT_TMRFIX : Fld := ⟨MI_STAT, 4, 4⟩
abbrev MI_SND_INT : Nat := 0x40080008
abbrev MI_SND_INT_INT : Fld := ⟨MI_SND_INT, 19, 0⟩
abbrev MI_LAG_INT : Nat := 0x4008000C
abbrev MI_LAG_INT_INT : Fld := ⟨MI_LAG_INT, 19, 0⟩
abbrev MI_CSR_INT : Nat := 0x40080010
abbrev MI_CSR_INT_INT : Fld := ⟨MI_CSR_INT, 19, 0⟩
abbrev MI_CFG_INT : Nat := 0x40080014
abbrev MI_CFG_INT_INT : Fld := ⟨MI_CFG_INT, 15, 0⟩
abbrev MI_MBCFG : Nat := 0x40080018
abbrev MI_MBCFG_IDLE : Fld := ⟨MI_MBCFG, 7, 0⟩
abbrev MI_PASS0 : Nat := 0x40080020
abbrev MI_PASS0_SND : Fld := ⟨MI_PASS0, 15, 0⟩
abbrev MI_PASS0_LAG : Fld := ⟨MI_PASS0, 31, 16⟩
abbrev MI_PASS1 : Nat := 0x40080024
abbrev MI_PASS1_CSR : Fld := ⟨MI_PASS1, 15, 0⟩
abbrev MI_PASS1_CFG : Fld := ⟨MI_PASS1, 31, 16⟩
abbrev MI_TMRCNT : Nat := 0x40080028
abbrev MI_TMRCNT_CNT : Fld := ⟨MI_TMRCNT, 15, 0⟩
abbrev MI_LBk (n : Nat) : Nat := 0x40080030 + 0x4 * n
abbrev MI_LBk_LEAKP (n : Nat) : Fld := ⟨MI_LBk n, 15, 0⟩
abbrev MI_LBk_THRESH (n : Nat) : Fld := ⟨MI_LBk n, 23, 16⟩
abbrev MI_BSEL : Nat := 0x40080040
abbrev MI_BSEL_REGION : Fld := ⟨MI_BSEL, 7, 0⟩
abbrev MI_BSTAT : Nat := 0x40080044
abbrev MI_BSTAT_COUNT : Fld := ⟨MI_BSTAT, 7, 0⟩
abbrev MI_BSTAT_OVFC : Fld := ⟨MI_BSTAT, 31, 16⟩
abbrev MI_UELOG_LO : Nat := 0x40080048
abbrev MI_UELOG_LO_ADDR : Fld := ⟨MI_UELOG_LO, 31, 0⟩
abbrev MI_UELOG_HI : Nat := 0x4008004C
abbrev MI_UELOG_HI_ADDR : Fld := ⟨MI_UELOG_HI, 7, 0⟩
abbrev MI_UELOG_HI_REGION : Fld := ⟨MI_UELOG_HI, 15, 8⟩
abbrev MI_UELOG_HI_SRC : Fld := ⟨MI_UELOG_HI, 17, 16⟩
abbrev MI_UELOG_HI_VALID : Fld := ⟨MI_UELOG_HI, 31, 31⟩
abbrev MI_UECNT : Nat := 0x40080050
abbrev MI_UECNT_CNT : Fld := ⟨MI_UECNT, 15, 0⟩
abbrev MI_CELOG_LO : Nat := 0x40080054
abbrev MI_CELOG_LO_ADDR : Fld := ⟨MI_CELOG_LO, 31, 0⟩
abbrev MI_CELOG_HI : Nat := 0x40080058
abbrev MI_CELOG_HI_ADDR : Fld := ⟨MI_CELOG_HI, 7, 0⟩
abbrev MI_CELOG_HI_REGION : Fld := ⟨MI_CELOG_HI, 15, 8⟩
abbrev MI_CELOG_HI_BIT : Fld := ⟨MI_CELOG_HI, 22, 16⟩
abbrev MI_CLR : Nat := 0x4008005C
abbrev MI_CLR_CNT : Fld := ⟨MI_CLR, 0, 0⟩
abbrev MI_SPSEL : Nat := 0x40080060
abbrev MI_SPSEL_CLASS : Fld := ⟨MI_SPSEL, 0, 0⟩
abbrev MI_SPSEL_BANK : Fld := ⟨MI_SPSEL, 7, 4⟩
abbrev MI_SPSEL_ISLE : Fld := ⟨MI_SPSEL, 14, 8⟩
abbrev MI_SPSTAT : Nat := 0x40080064
abbrev MI_SPSTAT_FUSE : Fld := ⟨MI_SPSTAT, 4, 0⟩
abbrev MI_SPSTAT_SET : Fld := ⟨MI_SPSTAT, 12, 8⟩
abbrev MI_SPSTAT_TOTAL : Fld := ⟨MI_SPSTAT, 20, 16⟩
abbrev MI_SPSTAT_OVER : Fld := ⟨MI_SPSTAT, 31, 24⟩
abbrev MI_FLIPk_LO (n : Nat) : Nat := 0x40080080 + 0x10 * n
abbrev MI_FLIPk_LO_DATA (n : Nat) : Fld := ⟨MI_FLIPk_LO n, 31, 0⟩
abbrev MI_FLIPk_HI (n : Nat) : Nat := 0x40080084 + 0x10 * n
abbrev MI_FLIPk_HI_DATA (n : Nat) : Fld := ⟨MI_FLIPk_HI n, 31, 0⟩
abbrev MI_FLIPk_CHK (n : Nat) : Nat := 0x40080088 + 0x10 * n
abbrev MI_FLIPk_CHK_CHK (n : Nat) : Fld := ⟨MI_FLIPk_CHK n, 7, 0⟩
abbrev MI_FLIPk_CTL (n : Nat) : Nat := 0x4008008C + 0x10 * n
abbrev MI_FLIPk_CTL_SEL (n : Nat) : Fld := ⟨MI_FLIPk_CTL n, 6, 0⟩
abbrev MI_FLIPk_CTL_ARM (n : Nat) : Fld := ⟨MI_FLIPk_CTL n, 31, 31⟩

/-! ### Registers of R344 (13_dram_controller.md). -/

abbrev DC_STAT : Nat := 0x40090000
abbrev DC_STAT_RH : Fld := ⟨DC_STAT, 0, 0⟩
abbrev DC_STAT_CE : Fld := ⟨DC_STAT, 1, 1⟩
abbrev DC_STAT_UE : Fld := ⟨DC_STAT, 2, 2⟩
abbrev DC_STAT_CFGERR : Fld := ⟨DC_STAT, 3, 3⟩
abbrev DC_MAP : Nat := 0x40090004
abbrev DC_MAP_GRAIN : Fld := ⟨DC_MAP, 3, 0⟩
abbrev DC_MAP_ILV : Fld := ⟨DC_MAP, 4, 4⟩
abbrev DC_MAP_BXOR : Fld := ⟨DC_MAP, 5, 5⟩
abbrev DC_RH_CFG : Nat := 0x40090008
abbrev DC_RH_CFG_RHTH : Fld := ⟨DC_RH_CFG, 15, 0⟩
abbrev DC_RH_CFG_RHWIN : Fld := ⟨DC_RH_CFG, 31, 16⟩
abbrev DC_RH_DLY : Nat := 0x4009000C
abbrev DC_RH_DLY_RHDLY : Fld := ⟨DC_RH_DLY, 15, 0⟩
abbrev DC_RH_THR_LO : Nat := 0x40090010
abbrev DC_RH_THR_LO_NI : Fld := ⟨DC_RH_THR_LO, 31, 0⟩
abbrev DC_RH_THR_HI : Nat := 0x40090014
abbrev DC_RH_THR_HI_NI : Fld := ⟨DC_RH_THR_HI, 7, 0⟩
abbrev DC_TEMP : Nat := 0x40090018
abbrev DC_TEMP_PER : Fld := ⟨DC_TEMP, 15, 0⟩
abbrev DC_TRN : Nat := 0x4009001C
abbrev DC_TRN_PER : Fld := ⟨DC_TRN, 15, 0⟩
abbrev DC_MIG : Nat := 0x40090020
abbrev DC_MIG_MGAP : Fld := ⟨DC_MIG, 15, 0⟩
abbrev DC_LB : Nat := 0x40090024
abbrev DC_LB_LEAKP : Fld := ⟨DC_LB, 15, 0⟩
abbrev DC_LB_THRESH : Fld := ⟨DC_LB, 23, 16⟩
abbrev DC_UELOG_LO : Nat := 0x40090028
abbrev DC_UELOG_LO_ADDR : Fld := ⟨DC_UELOG_LO, 31, 0⟩
abbrev DC_UELOG_HI : Nat := 0x4009002C
abbrev DC_UELOG_HI_ADDR : Fld := ⟨DC_UELOG_HI, 5, 0⟩
abbrev DC_UELOG_HI_CH : Fld := ⟨DC_UELOG_HI, 8, 8⟩
abbrev DC_UELOG_HI_RANK : Fld := ⟨DC_UELOG_HI, 10, 9⟩
abbrev DC_UELOG_HI_CMD : Fld := ⟨DC_UELOG_HI, 11, 11⟩
abbrev DC_UELOG_HI_VALID : Fld := ⟨DC_UELOG_HI, 31, 31⟩
abbrev DC_CLR : Nat := 0x40090030
abbrev DC_CLR_CNT : Fld := ⟨DC_CLR, 0, 0⟩
abbrev DC_CHc_CFG (n : Nat) : Nat := 0x40090100 + 0x100 * n
abbrev DC_CHc_CFG_EN (n : Nat) : Fld := ⟨DC_CHc_CFG n, 0, 0⟩
abbrev DC_CHc_CFG_WIDTH (n : Nat) : Fld := ⟨DC_CHc_CFG n, 2, 1⟩
abbrev DC_CHc_CFG_DENS (n : Nat) : Fld := ⟨DC_CHc_CFG n, 4, 3⟩
abbrev DC_CHc_CFG_NRANK (n : Nat) : Fld := ⟨DC_CHc_CFG n, 6, 5⟩
abbrev DC_CHc_CFG_SPARE (n : Nat) : Fld := ⟨DC_CHc_CFG n, 9, 7⟩
abbrev DC_CHc_CFG_SPEED (n : Nat) : Fld := ⟨DC_CHc_CFG n, 12, 10⟩
abbrev DC_CHc_SIZE (n : Nat) : Nat := 0x40090104 + 0x100 * n
abbrev DC_CHc_SIZE_GIB (n : Nat) : Fld := ⟨DC_CHc_SIZE n, 7, 0⟩
abbrev DC_CHc_T0 (n : Nat) : Nat := 0x40090108 + 0x100 * n
abbrev DC_CHc_T0_TCL (n : Nat) : Fld := ⟨DC_CHc_T0 n, 5, 0⟩
abbrev DC_CHc_T0_TCWL (n : Nat) : Fld := ⟨DC_CHc_T0 n, 13, 8⟩
abbrev DC_CHc_T0_TRCD (n : Nat) : Fld := ⟨DC_CHc_T0 n, 21, 16⟩
abbrev DC_CHc_T0_TRP (n : Nat) : Fld := ⟨DC_CHc_T0 n, 29, 24⟩
abbrev DC_CHc_T1 (n : Nat) : Nat := 0x4009010C + 0x100 * n
abbrev DC_CHc_T1_TRAS (n : Nat) : Fld := ⟨DC_CHc_T1 n, 6, 0⟩
abbrev DC_CHc_T1_TRC (n : Nat) : Fld := ⟨DC_CHc_T1 n, 15, 8⟩
abbrev DC_CHc_T1_TFAW (n : Nat) : Fld := ⟨DC_CHc_T1 n, 23, 16⟩
abbrev DC_CHc_T1_TWR (n : Nat) : Fld := ⟨DC_CHc_T1 n, 31, 24⟩
abbrev DC_CHc_T2 (n : Nat) : Nat := 0x40090110 + 0x100 * n
abbrev DC_CHc_T2_TRRDS (n : Nat) : Fld := ⟨DC_CHc_T2 n, 4, 0⟩
abbrev DC_CHc_T2_TRRDL (n : Nat) : Fld := ⟨DC_CHc_T2 n, 12, 8⟩
abbrev DC_CHc_T2_TCCDL (n : Nat) : Fld := ⟨DC_CHc_T2 n, 20, 16⟩
abbrev DC_CHc_T2_TWTRS (n : Nat) : Fld := ⟨DC_CHc_T2 n, 27, 24⟩
abbrev DC_CHc_T2_TWTRL (n : Nat) : Fld := ⟨DC_CHc_T2 n, 31, 28⟩
abbrev DC_CHc_T3 (n : Nat) : Nat := 0x40090114 + 0x100 * n
abbrev DC_CHc_T3_TRTP (n : Nat) : Fld := ⟨DC_CHc_T3 n, 4, 0⟩
abbrev DC_CHc_T3_TRFC (n : Nat) : Fld := ⟨DC_CHc_T3 n, 19, 8⟩
abbrev DC_CHc_T3_TXP (n : Nat) : Fld := ⟨DC_CHc_T3 n, 28, 24⟩
abbrev DC_CHc_REF (n : Nat) : Nat := 0x40090118 + 0x100 * n
abbrev DC_CHc_REF_TREFI (n : Nat) : Fld := ⟨DC_CHc_REF n, 15, 0⟩
abbrev DC_CHc_REF_POST (n : Nat) : Fld := ⟨DC_CHc_REF n, 19, 16⟩
abbrev DC_CHc_PG (n : Nat) : Nat := 0x4009011C + 0x100 * n
abbrev DC_CHc_PG_IDLE (n : Nat) : Fld := ⟨DC_CHc_PG n, 9, 0⟩
abbrev DC_CHc_PG_PDT (n : Nat) : Fld := ⟨DC_CHc_PG n, 31, 16⟩
abbrev DC_CHc_SCHED (n : Nat) : Nat := 0x40090120 + 0x100 * n
abbrev DC_CHc_SCHED_STARVE (n : Nat) : Fld := ⟨DC_CHc_SCHED n, 15, 0⟩
abbrev DC_CHc_STAT (n : Nat) : Nat := 0x40090124 + 0x100 * n
abbrev DC_CHc_STAT_READY (n : Nat) : Fld := ⟨DC_CHc_STAT n, 0, 0⟩
abbrev DC_CHc_STAT_HOT (n : Nat) : Fld := ⟨DC_CHc_STAT n, 1, 1⟩
abbrev DC_CHc_STAT_TRAIN (n : Nat) : Fld := ⟨DC_CHc_STAT n, 2, 2⟩
abbrev DC_CHc_STAT_MIGR (n : Nat) : Fld := ⟨DC_CHc_STAT n, 3, 3⟩
abbrev DC_CHc_STAT_PD (n : Nat) : Fld := ⟨DC_CHc_STAT n, 7, 4⟩
abbrev DC_CHc_STAT_RETIRED (n : Nat) : Fld := ⟨DC_CHc_STAT n, 11, 8⟩
abbrev DC_CHc_STAT_SPUSED (n : Nat) : Fld := ⟨DC_CHc_STAT n, 12, 12⟩
abbrev DC_CHc_MIGP (n : Nat) : Nat := 0x40090128 + 0x100 * n
abbrev DC_CHc_MIGP_BLOCKS (n : Nat) : Fld := ⟨DC_CHc_MIGP n, 19, 0⟩
abbrev DC_CHc_CNT0 (n : Nat) : Nat := 0x4009012C + 0x100 * n
abbrev DC_CHc_CNT0_CE (n : Nat) : Fld := ⟨DC_CHc_CNT0 n, 15, 0⟩
abbrev DC_CHc_CNT0_UE (n : Nat) : Fld := ⟨DC_CHc_CNT0 n, 31, 16⟩
abbrev DC_CHc_CNT1 (n : Nat) : Nat := 0x40090130 + 0x100 * n
abbrev DC_CHc_CNT1_CAPAR (n : Nat) : Fld := ⟨DC_CHc_CNT1 n, 15, 0⟩
abbrev DC_CHc_CNT1_RHCNT (n : Nat) : Fld := ⟨DC_CHc_CNT1 n, 31, 16⟩
abbrev DC_CHc_CNT2 (n : Nat) : Nat := 0x40090134 + 0x100 * n
abbrev DC_CHc_CNT2_TRN (n : Nat) : Fld := ⟨DC_CHc_CNT2 n, 15, 0⟩
abbrev DC_CHc_CNT2_TRNF (n : Nat) : Fld := ⟨DC_CHc_CNT2 n, 31, 16⟩
abbrev DC_CHc_LBSTAT (n : Nat) : Nat := 0x40090138 + 0x100 * n
abbrev DC_CHc_LBSTAT_COUNT (n : Nat) : Fld := ⟨DC_CHc_LBSTAT n, 7, 0⟩
abbrev DC_CHc_LBSTAT_OVFC (n : Nat) : Fld := ⟨DC_CHc_LBSTAT n, 31, 16⟩
abbrev DC_CHc_CTL (n : Nat) : Nat := 0x4009013C + 0x100 * n
abbrev DC_CHc_CTL_RETIRE (n : Nat) : Fld := ⟨DC_CHc_CTL n, 0, 0⟩
abbrev DC_CHc_CTL_RANK (n : Nat) : Fld := ⟨DC_CHc_CTL n, 2, 1⟩
abbrev DC_CHc_CTL_TRAIN (n : Nat) : Fld := ⟨DC_CHc_CTL n, 3, 3⟩

/-! ### Registers of R366 (14_host_link.md). -/

abbrev HL_CTRL : Nat := 0x400B0000
abbrev HL_CTRL_RINGEN : Fld := ⟨HL_CTRL, 0, 0⟩
abbrev HL_CTRL_CONEVT : Fld := ⟨HL_CTRL, 1, 1⟩
abbrev HL_STAT : Nat := 0x400B0004
abbrev HL_STAT_LINKUP : Fld := ⟨HL_STAT, 0, 0⟩
abbrev HL_STAT_RATE : Fld := ⟨HL_STAT, 2, 1⟩
abbrev HL_STAT_WIDTH : Fld := ⟨HL_STAT, 5, 3⟩
abbrev HL_STAT_CFGRDY : Fld := ⟨HL_STAT, 8, 8⟩
abbrev HL_STAT_DROPW : Fld := ⟨HL_STAT, 16, 16⟩
abbrev HL_STAT_CA : Fld := ⟨HL_STAT, 17, 17⟩
abbrev HL_STAT_EVLOST : Fld := ⟨HL_STAT, 18, 18⟩
abbrev HL_STAT_CFGERR : Fld := ⟨HL_STAT, 19, 19⟩
abbrev HL_ID : Nat := 0x400B0008
abbrev HL_ID_VID : Fld := ⟨HL_ID, 15, 0⟩
abbrev HL_ID_DID : Fld := ⟨HL_ID, 31, 16⟩
abbrev HL_SUBID : Nat := 0x400B000C
abbrev HL_SUBID_SVID : Fld := ⟨HL_SUBID, 15, 0⟩
abbrev HL_SUBID_SSID : Fld := ⟨HL_SUBID, 31, 16⟩
abbrev HL_WIN_BASE_LO : Nat := 0x400B0010
abbrev HL_WIN_BASE_LO_ADDR : Fld := ⟨HL_WIN_BASE_LO, 31, 28⟩
abbrev HL_WIN_BASE_HI : Nat := 0x400B0014
abbrev HL_WIN_BASE_HI_ADDR : Fld := ⟨HL_WIN_BASE_HI, 7, 0⟩
abbrev HL_RSP_BASE_LO : Nat := 0x400B0020
abbrev HL_RSP_BASE_LO_ADDR : Fld := ⟨HL_RSP_BASE_LO, 31, 12⟩
abbrev HL_RSP_BASE_HI : Nat := 0x400B0024
abbrev HL_RSP_BASE_HI_ADDR : Fld := ⟨HL_RSP_BASE_HI, 31, 0⟩
abbrev HL_RSP_TAIL : Nat := 0x400B0028
abbrev HL_RSP_TAIL_TAIL : Fld := ⟨HL_RSP_TAIL, 7, 0⟩
abbrev HL_RSP_TAIL_PHASE : Fld := ⟨HL_RSP_TAIL, 8, 8⟩
abbrev HL_RSPDB : Nat := 0x400B002C
abbrev HL_RSPDB_HEAD : Fld := ⟨HL_RSPDB, 7, 0⟩
abbrev HL_CMDDB : Nat := 0x400B0030
abbrev HL_CMDDB_TAIL : Fld := ⟨HL_CMDDB, 7, 0⟩
abbrev HL_CMD_HEAD : Nat := 0x400B0034
abbrev HL_CMD_HEAD_HEAD : Fld := ⟨HL_CMD_HEAD, 7, 0⟩
abbrev HL_IMOD : Nat := 0x400B0040
abbrev HL_IMOD_USEC : Fld := ⟨HL_IMOD, 15, 0⟩
abbrev HL_MSIV : Nat := 0x400B0044
abbrev HL_MSIV_RSP : Fld := ⟨HL_MSIV, 3, 0⟩
abbrev HL_MSIV_EVT : Fld := ⟨HL_MSIV, 7, 4⟩
abbrev HL_MSIV_DISC : Fld := ⟨HL_MSIV, 11, 8⟩
abbrev HL_MSIRAISE : Nat := 0x400B0048
abbrev HL_MSIRAISE_VEC : Fld := ⟨HL_MSIRAISE, 15, 0⟩
abbrev HL_CPLTO : Nat := 0x400B004C
abbrev HL_CPLTO_MS : Fld := ⟨HL_CPLTO, 15, 0⟩
abbrev HL_ESEQ : Nat := 0x400B0050
abbrev HL_ESEQ_SEQ : Fld := ⟨HL_ESEQ, 31, 0⟩
abbrev HL_EVQ : Nat := 0x400B0054
abbrev HL_EVQ_LEN : Fld := ⟨HL_EVQ, 6, 0⟩
abbrev HL_CNT0 : Nat := 0x400B0060
abbrev HL_CNT0_CA : Fld := ⟨HL_CNT0, 15, 0⟩
abbrev HL_CNT0_DROPW : Fld := ⟨HL_CNT0, 31, 16⟩
abbrev HL_CNT1 : Nat := 0x400B0064
abbrev HL_CNT1_CORR : Fld := ⟨HL_CNT1, 15, 0⟩
abbrev HL_CNT1_CPLTO : Fld := ⟨HL_CNT1, 31, 16⟩
abbrev HL_CLR : Nat := 0x400B0068
abbrev HL_CLR_CNT : Fld := ⟨HL_CLR, 0, 0⟩

/-! ### Registers of R408 (16_network_ports.md). -/

abbrev EN_TS_CFG : Nat := 0x400C0000
abbrev EN_TS_CFG_PORT : Fld := ⟨EN_TS_CFG, 2, 0⟩
abbrev EN_TS_CTL : Nat := 0x400C0004
abbrev EN_TS_CTL_SYNC : Fld := ⟨EN_TS_CTL, 0, 0⟩
abbrev EN_TS_CTL_STEP : Fld := ⟨EN_TS_CTL, 1, 1⟩
abbrev EN_TS_THR : Nat := 0x400C0008
abbrev EN_TS_THR_THR : Fld := ⟨EN_TS_THR, 15, 0⟩
abbrev EN_NT_Q : Nat := 0x400C000C
abbrev EN_NT_Q_Q : Fld := ⟨EN_NT_Q, 31, 0⟩
abbrev EN_NT_S_LO : Nat := 0x400C0010
abbrev EN_NT_S_LO_S : Fld := ⟨EN_NT_S_LO, 31, 0⟩
abbrev EN_NT_S_HI : Nat := 0x400C0014
abbrev EN_NT_S_HI_S : Fld := ⟨EN_NT_S_HI, 15, 0⟩
abbrev EN_NT_ADJ : Nat := 0x400C0018
abbrev EN_NT_ADJ_ADJ : Fld := ⟨EN_NT_ADJ, 31, 0⟩
abbrev EN_NT_STEPS : Nat := 0x400C001C
abbrev EN_NT_STEPS_S : Fld := ⟨EN_NT_STEPS, 31, 0⟩
abbrev EN_NT_STEPQ : Nat := 0x400C0020
abbrev EN_NT_STEPQ_Q : Fld := ⟨EN_NT_STEPQ, 31, 0⟩
abbrev EN_Pp_CFG (n : Nat) : Nat := 0x400C0100 + 0x80 * n
abbrev EN_Pp_CFG_EN (n : Nat) : Fld := ⟨EN_Pp_CFG n, 0, 0⟩
abbrev EN_Pp_CFG_MODE (n : Nat) : Fld := ⟨EN_Pp_CFG n, 2, 1⟩
abbrev EN_Pp_CFG_AN (n : Nat) : Fld := ⟨EN_Pp_CFG n, 3, 3⟩
abbrev EN_Pp_CFG_PROMISC (n : Nat) : Fld := ⟨EN_Pp_CFG n, 4, 4⟩
abbrev EN_Pp_CFG_PTPEN (n : Nat) : Fld := ⟨EN_Pp_CFG n, 5, 5⟩
abbrev EN_Pp_CFG_TOKNUM (n : Nat) : Fld := ⟨EN_Pp_CFG n, 27, 16⟩
abbrev EN_Pp_CFG_TOKEN (n : Nat) : Fld := ⟨EN_Pp_CFG n, 28, 28⟩
abbrev EN_Pp_MAC_LO (n : Nat) : Nat := 0x400C0104 + 0x80 * n
abbrev EN_Pp_MAC_LO_MAC (n : Nat) : Fld := ⟨EN_Pp_MAC_LO n, 31, 0⟩
abbrev EN_Pp_MAC_HI (n : Nat) : Nat := 0x400C0108 + 0x80 * n
abbrev EN_Pp_MAC_HI_MAC (n : Nat) : Fld := ⟨EN_Pp_MAC_HI n, 15, 0⟩
abbrev EN_Pp_STAT (n : Nat) : Nat := 0x400C010C + 0x80 * n
abbrev EN_Pp_STAT_LINK (n : Nat) : Fld := ⟨EN_Pp_STAT n, 0, 0⟩
abbrev EN_Pp_STAT_SPEED (n : Nat) : Fld := ⟨EN_Pp_STAT n, 2, 1⟩
abbrev EN_Pp_STAT_CFGERR (n : Nat) : Fld := ⟨EN_Pp_STAT n, 3, 3⟩
abbrev EN_Pp_GATE (n : Nat) : Nat := 0x400C0110 + 0x80 * n
abbrev EN_Pp_GATE_STATE (n : Nat) : Fld := ⟨EN_Pp_GATE n, 7, 0⟩
abbrev EN_Pp_GATE_INIT (n : Nat) : Fld := ⟨EN_Pp_GATE n, 15, 8⟩
abbrev EN_Pp_TSLAT (n : Nat) : Nat := 0x400C0114 + 0x80 * n
abbrev EN_Pp_TSLAT_TXLAT (n : Nat) : Fld := ⟨EN_Pp_TSLAT n, 15, 0⟩
abbrev EN_Pp_TSLAT_RXLAT (n : Nat) : Fld := ⟨EN_Pp_TSLAT n, 31, 16⟩
abbrev EN_Pp_RSEL (n : Nat) : Nat := 0x400C0118 + 0x80 * n
abbrev EN_Pp_RSEL_RING (n : Nat) : Fld := ⟨EN_Pp_RSEL n, 3, 0⟩
abbrev EN_Pp_RBASE_LO (n : Nat) : Nat := 0x400C011C + 0x80 * n
abbrev EN_Pp_RBASE_LO_ADDR (n : Nat) : Fld := ⟨EN_Pp_RBASE_LO n, 31, 5⟩
abbrev EN_Pp_RBASE_HI (n : Nat) : Nat := 0x400C0120 + 0x80 * n
abbrev EN_Pp_RBASE_HI_ADDR (n : Nat) : Fld := ⟨EN_Pp_RBASE_HI n, 7, 0⟩
abbrev EN_Pp_RSIZE (n : Nat) : Nat := 0x400C0124 + 0x80 * n
abbrev EN_Pp_RSIZE_LOG2 (n : Nat) : Fld := ⟨EN_Pp_RSIZE n, 3, 0⟩
abbrev EN_Pp_RTAIL (n : Nat) : Nat := 0x400C0128 + 0x80 * n
abbrev EN_Pp_RTAIL_TAIL (n : Nat) : Fld := ⟨EN_Pp_RTAIL n, 11, 0⟩
abbrev EN_Pp_RHEAD (n : Nat) : Nat := 0x400C012C + 0x80 * n
abbrev EN_Pp_RHEAD_HEAD (n : Nat) : Fld := ⟨EN_Pp_RHEAD n, 11, 0⟩
abbrev EN_Pp_CNT0 (n : Nat) : Nat := 0x400C0130 + 0x80 * n
abbrev EN_Pp_CNT0_TXF (n : Nat) : Fld := ⟨EN_Pp_CNT0 n, 31, 0⟩
abbrev EN_Pp_CNT1 (n : Nat) : Nat := 0x400C0134 + 0x80 * n
abbrev EN_Pp_CNT1_RXF (n : Nat) : Fld := ⟨EN_Pp_CNT1 n, 31, 0⟩
abbrev EN_Pp_CNT2 (n : Nat) : Nat := 0x400C0138 + 0x80 * n
abbrev EN_Pp_CNT2_RXERR (n : Nat) : Fld := ⟨EN_Pp_CNT2 n, 15, 0⟩
abbrev EN_Pp_CNT2_RXDROP (n : Nat) : Fld := ⟨EN_Pp_CNT2 n, 31, 16⟩
abbrev EN_Pp_CLR (n : Nat) : Nat := 0x400C013C + 0x80 * n
abbrev EN_Pp_CLR_CNT (n : Nat) : Fld := ⟨EN_Pp_CLR n, 0, 0⟩

/-! ### Registers of R409 (16_network_ports.md). -/

abbrev SP_Uu_CFG (n : Nat) : Nat := 0x400D0000 + 0x40 * n
abbrev SP_Uu_CFG_DIV (n : Nat) : Fld := ⟨SP_Uu_CFG n, 20, 0⟩
abbrev SP_Uu_CFG_PAR (n : Nat) : Fld := ⟨SP_Uu_CFG n, 22, 21⟩
abbrev SP_Uu_CFG_STOP2 (n : Nat) : Fld := ⟨SP_Uu_CFG n, 23, 23⟩
abbrev SP_Uu_CFG_EN (n : Nat) : Fld := ⟨SP_Uu_CFG n, 24, 24⟩
abbrev SP_Uu_DATA (n : Nat) : Nat := 0x400D0004 + 0x40 * n
abbrev SP_Uu_DATA_DATA (n : Nat) : Fld := ⟨SP_Uu_DATA n, 7, 0⟩
abbrev SP_Uu_STAT (n : Nat) : Nat := 0x400D0008 + 0x40 * n
abbrev SP_Uu_STAT_TXLVL (n : Nat) : Fld := ⟨SP_Uu_STAT n, 4, 0⟩
abbrev SP_Uu_STAT_RXLVL (n : Nat) : Fld := ⟨SP_Uu_STAT n, 12, 8⟩
abbrev SP_Uu_STAT_OVR (n : Nat) : Fld := ⟨SP_Uu_STAT n, 16, 16⟩
abbrev SP_Uu_STAT_FERR (n : Nat) : Fld := ⟨SP_Uu_STAT n, 17, 17⟩
abbrev SP_Uu_STAT_PERR (n : Nat) : Fld := ⟨SP_Uu_STAT n, 18, 18⟩
abbrev SP_Ss_CFG (n : Nat) : Nat := 0x400D0100 + 0x40 * n
abbrev SP_Ss_CFG_DIV (n : Nat) : Fld := ⟨SP_Ss_CFG n, 11, 0⟩
abbrev SP_Ss_CFG_MODE (n : Nat) : Fld := ⟨SP_Ss_CFG n, 13, 12⟩
abbrev SP_Ss_CFG_WLEN (n : Nat) : Fld := ⟨SP_Ss_CFG n, 18, 14⟩
abbrev SP_Ss_CFG_LSBF (n : Nat) : Fld := ⟨SP_Ss_CFG n, 19, 19⟩
abbrev SP_Ss_CFG_CS (n : Nat) : Fld := ⟨SP_Ss_CFG n, 21, 20⟩
abbrev SP_Ss_CFG_CSHOLD (n : Nat) : Fld := ⟨SP_Ss_CFG n, 22, 22⟩
abbrev SP_Ss_CFG_EN (n : Nat) : Fld := ⟨SP_Ss_CFG n, 31, 31⟩
abbrev SP_Ss_DATA (n : Nat) : Nat := 0x400D0104 + 0x40 * n
abbrev SP_Ss_DATA_DATA (n : Nat) : Fld := ⟨SP_Ss_DATA n, 31, 0⟩
abbrev SP_Ss_STAT (n : Nat) : Nat := 0x400D0108 + 0x40 * n
abbrev SP_Ss_STAT_TXLVL (n : Nat) : Fld := ⟨SP_Ss_STAT n, 4, 0⟩
abbrev SP_Ss_STAT_RXLVL (n : Nat) : Fld := ⟨SP_Ss_STAT n, 12, 8⟩
abbrev SP_Ss_STAT_BUSY (n : Nat) : Fld := ⟨SP_Ss_STAT n, 16, 16⟩
abbrev SP_Ss_STAT_OVR (n : Nat) : Fld := ⟨SP_Ss_STAT n, 17, 17⟩
abbrev SP_I2C_CFG : Nat := 0x400D0200
abbrev SP_I2C_CFG_EN : Fld := ⟨SP_I2C_CFG, 0, 0⟩
abbrev SP_I2C_CFG_FAST : Fld := ⟨SP_I2C_CFG, 1, 1⟩
abbrev SP_I2C_CMD : Nat := 0x400D0204
abbrev SP_I2C_CMD_ADDR : Fld := ⟨SP_I2C_CMD, 6, 0⟩
abbrev SP_I2C_CMD_READ : Fld := ⟨SP_I2C_CMD, 7, 7⟩
abbrev SP_I2C_CMD_LEN : Fld := ⟨SP_I2C_CMD, 11, 8⟩
abbrev SP_I2C_CMD_NOSTOP : Fld := ⟨SP_I2C_CMD, 16, 16⟩
abbrev SP_I2C_CMD_GO : Fld := ⟨SP_I2C_CMD, 31, 31⟩
abbrev SP_I2C_DATA : Nat := 0x400D0208
abbrev SP_I2C_DATA_DATA : Fld := ⟨SP_I2C_DATA, 7, 0⟩
abbrev SP_I2C_STAT : Nat := 0x400D020C
abbrev SP_I2C_STAT_BUSY : Fld := ⟨SP_I2C_STAT, 0, 0⟩
abbrev SP_I2C_STAT_NACK : Fld := ⟨SP_I2C_STAT, 1, 1⟩
abbrev SP_I2C_STAT_ARBL : Fld := ⟨SP_I2C_STAT, 2, 2⟩
abbrev SP_I2C_STAT_TMO : Fld := ⟨SP_I2C_STAT, 3, 3⟩
abbrev SP_XS_CFG : Nat := 0x400D0300
abbrev SP_XS_CFG_MODE : Fld := ⟨SP_XS_CFG, 0, 0⟩
abbrev SP_XS_CFG_DUMMY : Fld := ⟨SP_XS_CFG, 8, 4⟩
abbrev SP_XS_CMD : Nat := 0x400D0304
abbrev SP_XS_CMD_OPCODE : Fld := ⟨SP_XS_CMD, 15, 0⟩
abbrev SP_XS_CMD_ADDR : Fld := ⟨SP_XS_CMD, 16, 16⟩
abbrev SP_XS_CMD_WR : Fld := ⟨SP_XS_CMD, 17, 17⟩
abbrev SP_XS_ADDR : Nat := 0x400D0308
abbrev SP_XS_ADDR_ADDR : Fld := ⟨SP_XS_ADDR, 27, 0⟩
abbrev SP_XS_BUF : Nat := 0x400D030C
abbrev SP_XS_BUF_ADDR : Fld := ⟨SP_XS_BUF, 22, 2⟩
abbrev SP_XS_LEN : Nat := 0x400D0310
abbrev SP_XS_LEN_LEN : Fld := ⟨SP_XS_LEN, 8, 0⟩
abbrev SP_XS_LEN_GO : Fld := ⟨SP_XS_LEN, 31, 31⟩
abbrev SP_XS_STAT : Nat := 0x400D0314
abbrev SP_XS_STAT_BUSY : Fld := ⟨SP_XS_STAT, 0, 0⟩
abbrev SP_XS_STAT_ERR : Fld := ⟨SP_XS_STAT, 1, 1⟩

/-! ### Registers of R431 (17_power_clocks_boot.md). -/

abbrev PC_STAT : Nat := 0x400E0000
abbrev PC_STAT_ALOCK : Fld := ⟨PC_STAT, 0, 0⟩
abbrev PC_STAT_CLOCK : Fld := ⟨PC_STAT, 1, 1⟩
abbrev PC_STAT_SLOCK : Fld := ⟨PC_STAT, 2, 2⟩
abbrev PC_STAT_XFAIL : Fld := ⟨PC_STAT, 3, 3⟩
abbrev PC_STAT_FWOK : Fld := ⟨PC_STAT, 4, 4⟩
abbrev PC_RSTCAUSE : Nat := 0x400E0004
abbrev PC_RSTCAUSE_CAUSE : Fld := ⟨PC_RSTCAUSE, 2, 0⟩
abbrev PC_CTL : Nat := 0x400E0008
abbrev PC_CTL_SWRST : Fld := ⟨PC_CTL, 0, 0⟩
abbrev PC_CTL_KEY : Fld := ⟨PC_CTL, 15, 8⟩
abbrev PC_DOMUP0 : Nat := 0x400E0010
abbrev PC_DOMUP0_UP : Fld := ⟨PC_DOMUP0, 31, 0⟩
abbrev PC_DOMUP1 : Nat := 0x400E0014
abbrev PC_DOMUP1_UP : Fld := ⟨PC_DOMUP1, 31, 0⟩
abbrev PC_DOMUP2 : Nat := 0x400E0018
abbrev PC_DOMUP2_UP : Fld := ⟨PC_DOMUP2, 31, 0⟩
abbrev PC_DOMUP3 : Nat := 0x400E001C
abbrev PC_DOMUP3_UP : Fld := ⟨PC_DOMUP3, 31, 0⟩
abbrev PC_DOMREQ : Nat := 0x400E0020
abbrev PC_DOMREQ_DOMAIN : Fld := ⟨PC_DOMREQ, 6, 0⟩
abbrev PC_DOMREQ_ON : Fld := ⟨PC_DOMREQ, 8, 8⟩
abbrev PC_DOMREQ_GO : Fld := ⟨PC_DOMREQ, 31, 31⟩
abbrev PC_QSTAT : Nat := 0x400E0024
abbrev PC_QSTAT_CUR : Fld := ⟨PC_QSTAT, 6, 0⟩
abbrev PC_QSTAT_ACT : Fld := ⟨PC_QSTAT, 7, 7⟩
abbrev PC_QSTAT_QLEN : Fld := ⟨PC_QSTAT, 14, 8⟩
abbrev PC_QSTAT_REFUSED : Fld := ⟨PC_QSTAT, 16, 16⟩
abbrev PC_STEP : Nat := 0x400E0028
abbrev PC_STEP_ISTEP : Fld := ⟨PC_STEP, 9, 0⟩
abbrev PC_STEP_OSTEP : Fld := ⟨PC_STEP, 25, 16⟩
abbrev PC_ROWr (n : Nat) : Nat := 0x400E0040 + 0x4 * n
abbrev PC_ROWr_DIV (n : Nat) : Fld := ⟨PC_ROWr n, 1, 0⟩
abbrev PC_ROWr_SRC (n : Nat) : Fld := ⟨PC_ROWr n, 2, 2⟩
abbrev PC_ROWr_PEND (n : Nat) : Fld := ⟨PC_ROWr n, 8, 8⟩
abbrev PC_WDT_CTL : Nat := 0x400E0060
abbrev PC_WDT_CTL_EN : Fld := ⟨PC_WDT_CTL, 0, 0⟩
abbrev PC_WDT_CTL_PERIOD : Fld := ⟨PC_WDT_CTL, 23, 8⟩
abbrev PC_WDT_KICK : Nat := 0x400E0064
abbrev PC_WDT_KICK_KICK : Fld := ⟨PC_WDT_KICK, 31, 0⟩
abbrev PC_WDT_STAT : Nat := 0x400E0068
abbrev PC_WDT_STAT_STAGE1 : Fld := ⟨PC_WDT_STAT, 0, 0⟩

/-! ### Registers of R432 (17_power_clocks_boot.md). -/

abbrev SS_STAT : Nat := 0x400F0000
abbrev SS_STAT_BUSY : Fld := ⟨SS_STAT, 0, 0⟩
abbrev SS_STAT_CUR : Fld := ⟨SS_STAT, 1, 1⟩
abbrev SS_STAT_EMPTY : Fld := ⟨SS_STAT, 2, 2⟩
abbrev SS_STAT_OLDREC : Fld := ⟨SS_STAT, 3, 3⟩
abbrev SS_STAT_CRCERR : Fld := ⟨SS_STAT, 4, 4⟩
abbrev SS_STAT_GOBUSY : Fld := ⟨SS_STAT, 5, 5⟩
abbrev SS_SEQ : Nat := 0x400F0004
abbrev SS_SEQ_SEQ : Fld := ⟨SS_SEQ, 31, 0⟩
abbrev SS_CMD : Nat := 0x400F0008
abbrev SS_CMD_ID : Fld := ⟨SS_CMD, 15, 0⟩
abbrev SS_CMD_DEL : Fld := ⟨SS_CMD, 16, 16⟩
abbrev SS_CMD_GO : Fld := ⟨SS_CMD, 31, 31⟩
abbrev SS_BUF : Nat := 0x400F000C
abbrev SS_BUF_ADDR : Fld := ⟨SS_BUF, 22, 3⟩
abbrev SS_LEN : Nat := 0x400F0010
abbrev SS_LEN_LEN : Fld := ⟨SS_LEN, 12, 0⟩
abbrev SS_RES : Nat := 0x400F0014
abbrev SS_RES_RES : Fld := ⟨SS_RES, 2, 0⟩
abbrev SS_RSEQ : Nat := 0x400F0018
abbrev SS_RSEQ_RSEQ : Fld := ⟨SS_RSEQ, 31, 0⟩
abbrev SS_FREE : Nat := 0x400F001C
abbrev SS_FREE_BYTES : Fld := ⟨SS_FREE, 16, 0⟩
abbrev SS_NREC : Nat := 0x400F0020
abbrev SS_NREC_N : Fld := ⟨SS_NREC, 8, 0⟩
abbrev SS_CNT : Nat := 0x400F0024
abbrev SS_CNT_COMMITS : Fld := ⟨SS_CNT, 31, 0⟩

/-- Register rows of block 0, part 0 (R18). -/
def regRows0_0 : List RegRow :=
  [⟨0x40008000, [(96, 0x100)], 0x7, 0x0, 0x0, 0x0, 0x0⟩,
   ⟨0x40008004, [(96, 0x100)], 0x0, 0x3F000000, 0x0, 0x7FFFFF, 0x0⟩,
   ⟨0x40008008, [(96, 0x100)], 0xF, 0x0, 0x0, 0x0, 0x0⟩,
   ⟨0x4000800C, [(96, 0x100)], 0xFFFF, 0x0, 0x0, 0x0, 0x0⟩,
   ⟨0x40008010, [(96, 0x100)], 0x0, 0x0, 0x0, 0xF1FF, 0x0⟩,
   ⟨0x40008014, [(96, 0x100)], 0x0, 0x0, 0x0, 0xF1FF, 0x0⟩,
   ⟨0x40008018, [(96, 0x100)], 0xF1, 0x0, 0x0, 0x0, 0x0⟩,
   ⟨0x4000801C, [(96, 0x100)], 0x0, 0x0, 0x0, 0x7FFF, 0x0⟩,
   ⟨0x40008020, [(96, 0x100), (16, 0x4)], 0x87FFFFFF, 0x0, 0x0, 0x0, 0x0⟩,
   ⟨0x40008060, [(96, 0x100)], 0xF, 0x0, 0x0, 0x0, 0x0⟩,
   ⟨0x40008064, [(96, 0x100)], 0xFF00, 0x0, 0x0, 0xF00FF, 0x0⟩,
   ⟨0x40008068, [(96, 0x100)], 0x3F, 0x0, 0x0, 0x0, 0x0⟩,
   ⟨0x4000806C, [(96, 0x100)], 0xFFFFFF, 0x0, 0x0, 0x0, 0xC0⟩,
   ⟨0x40008070, [(96, 0x100)], 0xFFFF, 0x0, 0x0, 0x0, 0x0⟩,
   ⟨0x40008070, [(96, 0x100), (16, 0x4)], 0xFFFFFFFF, 0x0, 0x0, 0x0, 0x0⟩,
   ⟨0x400080B0, [(96, 0x100)], 0x7FFF, 0x0, 0x0, 0x0, 0x0⟩,
   ⟨0x400080B4, [(96, 0x100)], 0x3F, 0x0, 0x0, 0x0, 0x0⟩,
   ⟨0x400080B8, [(96, 0x100)], 0x0, 0xC00, 0x0, 0x3FF, 0x0⟩,
   ⟨0x400080C0, [(96, 0x100)], 0x0, 0x0, 0x0, 0xFFFFFFFF, 0x0⟩,
   ⟨0x400080C4, [(96, 0x100)], 0x0, 0x0, 0x0, 0xFFFFFFFF, 0x0⟩,
   ⟨0x400080C8, [(96, 0x100)], 0x0, 0x0, 0x0, 0xFFFFFFFF, 0x0⟩,
   ⟨0x400080CC, [(96, 0x100)], 0x0, 0x0, 0x0, 0x0, 0x0⟩,
   ⟨0x40001000, [(4, 0x400)], 0x7, 0x0, 0x0, 0x0, 0x6⟩,
   ⟨0x40001004, [(4, 0x400)], 0x0, 0x0, 0x0, 0x0, 0x0⟩]

/-- Register rows of block 0, part 1 (R18). -/
def regRows0_1 : List RegRow :=
  [⟨0x40001008, [(4, 0x400)], 0x0, 0x0, 0x0, 0xF3F, 0x0⟩,
   ⟨0x4000100C, [(4, 0x400)], 0xFFFFFFFC, 0x0, 0x0, 0x0, 0x50000000⟩,
   ⟨0x40001010, [(4, 0x400)], 0xFF, 0x0, 0x0, 0x0, 0x0⟩,
   ⟨0x40001014, [(4, 0x400)], 0x0, 0xFF, 0x0, 0x0, 0x0⟩,
   ⟨0x40001018, [(4, 0x400)], 0xFF, 0x0, 0x0, 0x0, 0x0⟩,
   ⟨0x4000101C, [(4, 0x400)], 0x0, 0x0, 0x0, 0x0, 0x0⟩,
   ⟨0x40001020, [(4, 0x400)], 0x0, 0x0, 0x0, 0x7F, 0x0⟩,
   ⟨0x40001024, [(4, 0x400)], 0x0, 0x0, 0x0, 0xFFFFFFFF, 0x0⟩,
   ⟨0x40001028, [(4, 0x400)], 0x0, 0x0, 0x0, 0xFF, 0x0⟩,
   ⟨0x40001030, [(4, 0x400)], 0x0, 0x0, 0x0, 0xFFFFFFFF, 0x0⟩,
   ⟨0x40001034, [(4, 0x400)], 0x0, 0x0, 0x0, 0xFFFFFFFF, 0x0⟩,
   ⟨0x40001038, [(4, 0x400)], 0x0, 0x0, 0x0, 0x0, 0x0⟩]

/-- The register rows of block 0 (R18). -/
def regRows0 : List RegRow := regRows0_0 ++ regRows0_1

/-- Register rows of block 1, part 0 (R18). -/
def regRows1_0 : List RegRow :=
  [⟨0x40010000, [], 0xFF, 0x0, 0x0, 0x0, 0x80⟩,
   ⟨0x40010004, [], 0x0, 0xFFFF00, 0x0, 0xFF, 0x0⟩,
   ⟨0x40010008, [], 0xFFFF, 0x0, 0x0, 0x0, 0x100⟩,
   ⟨0x40010100, [(8, 0x80)], 0xFF0F33FF, 0x0, 0x0, 0x0, 0x0⟩,
   ⟨0x40010104, [(8, 0x80)], 0xFFFFFFFF, 0x0, 0x0, 0x0, 0x0⟩,
   ⟨0x40010108, [(8, 0x80)], 0x1F1FFFFF, 0x0, 0x0, 0x0, 0xC040040⟩,
   ⟨0x4001010C, [(8, 0x80)], 0xFFFFFFFF, 0x0, 0x0, 0x0, 0x0⟩,
   ⟨0x40010110, [(8, 0x80)], 0xFFFFFFFF, 0x0, 0x0, 0x0, 0x0⟩,
   ⟨0x40010114, [(8, 0x80)], 0x0, 0x0, 0x0, 0x0, 0x0⟩,
   ⟨0x40010118, [(8, 0x80)], 0x0, 0x0, 0x0, 0x7, 0x0⟩,
   ⟨0x4001011C, [(8, 0x80)], 0x0, 0x0, 0x0, 0xFFFFFFFF, 0x0⟩,
   ⟨0x40010120, [(8, 0x80)], 0x0, 0x0, 0x0, 0xFFFFFFFF, 0x0⟩,
   ⟨0x40010124, [(8, 0x80)], 0x0, 0x0, 0x0, 0xFFFFFFFF, 0x0⟩,
   ⟨0x40010128, [(8, 0x80)], 0x0, 0x0, 0x0, 0xFFFFFFFF, 0x0⟩,
   ⟨0x4001012C, [(8, 0x80)], 0x0, 0x0, 0x0, 0xFFFF, 0x0⟩,
   ⟨0x40010130, [(8, 0x80)], 0xFFFFFFFF, 0x0, 0x0, 0x0, 0x0⟩,
   ⟨0x40010134, [(8, 0x80)], 0xFFFFFFFF, 0x0, 0x0, 0x0, 0x0⟩,
   ⟨0x40010138, [(8, 0x80)], 0xFFFFFFFF, 0x0, 0x0, 0x0, 0x0⟩,
   ⟨0x4001013C, [(8, 0x80)], 0xFFFF, 0x0, 0x0, 0x0, 0x0⟩,
   ⟨0x40010140, [(8, 0x80)], 0x0, 0x0, 0x0, 0xFFFFFFFF, 0x0⟩,
   ⟨0x40010144, [(8, 0x80)], 0x0, 0x0, 0x0, 0xFFFFFFFF, 0x0⟩,
   ⟨0x40010600, [(8, 0x20)], 0x7, 0x0, 0x100, 0x0, 0x0⟩,
   ⟨0x40010604, [(8, 0x20)], 0xFFFFFFFF, 0x0, 0x0, 0x0, 0x0⟩,
   ⟨0x40010608, [(8, 0x20)], 0xFFFFFFFF, 0x0, 0x0, 0x0, 0x0⟩]

/-- Register rows of block 1, part 1 (R18). -/
def regRows1_1 : List RegRow :=
  [⟨0x4001060C, [(8, 0x20)], 0xFFFF, 0x0, 0x0, 0xFFFF0000, 0x0⟩,
   ⟨0x40010610, [(8, 0x20)], 0x0, 0x0, 0x0, 0x7F7, 0x0⟩,
   ⟨0x40010614, [(8, 0x20)], 0xFFFFFFFF, 0x0, 0x0, 0x0, 0x0⟩,
   ⟨0x40018000, [], 0x1, 0x0, 0x0, 0x0, 0x1⟩,
   ⟨0x40018004, [], 0x0, 0x0, 0x0, 0xFFFFFFFF, 0x8000⟩,
   ⟨0x40018008, [], 0x0, 0x0, 0x0, 0xFFFFFFFF, 0x0⟩,
   ⟨0x4001800C, [], 0x0, 0x0, 0x0, 0x0, 0x0⟩,
   ⟨0x40018100, [(8, 0x20)], 0xFFFFFFFF, 0x0, 0x0, 0x0, 0x0⟩,
   ⟨0x40018104, [(8, 0x20)], 0xFFFFFFFF, 0x0, 0x0, 0x0, 0x0⟩,
   ⟨0x40018108, [(8, 0x20)], 0xFFFFFFFF, 0x0, 0x0, 0x0, 0x0⟩,
   ⟨0x4001810C, [(8, 0x20)], 0xFFFFFFFF, 0x0, 0x0, 0x0, 0x0⟩,
   ⟨0x40018110, [(8, 0x20)], 0x3F, 0x0, 0x0, 0x0, 0x0⟩,
   ⟨0x40018114, [(8, 0x20)], 0x0, 0x10, 0x0, 0x7FFF000F, 0x0⟩,
   ⟨0x40018200, [], 0x7FFF, 0x0, 0x0, 0x0, 0x0⟩,
   ⟨0x40018204, [], 0x0, 0x10, 0x0, 0xF, 0x0⟩,
   ⟨0x40018400, [(64, 0x8)], 0x1F, 0x0, 0x0, 0x0, 0x0⟩,
   ⟨0x40018404, [(64, 0x8)], 0x0, 0x0, 0x0, 0xFFFFFFFF, 0x0⟩,
   ⟨0x40019000, [(256, 0x10)], 0xFFFFFFFF, 0x0, 0x0, 0x0, 0x0⟩,
   ⟨0x40019004, [(256, 0x10)], 0xFFFF, 0x0, 0x0, 0x0, 0x0⟩,
   ⟨0x40019008, [(256, 0x10)], 0xFFFF, 0x0, 0x0, 0x0, 0x0⟩,
   ⟨0x4001900C, [(256, 0x10)], 0xFFFF, 0x0, 0x0, 0x0, 0x0⟩]

/-- The register rows of block 1 (R18). -/
def regRows1 : List RegRow := regRows1_0 ++ regRows1_1

/-- Register rows of block 2, part 0 (R18). -/
def regRows2_0 : List RegRow :=
  [⟨0x40020000, [], 0x1, 0x0, 0x0, 0x0, 0x1⟩,
   ⟨0x40020004, [], 0x0, 0xFFFFFFFF, 0x0, 0x0, 0x0⟩,
   ⟨0x40020008, [], 0x0, 0xFFFF, 0x0, 0x0, 0x0⟩,
   ⟨0x4002000C, [], 0x0, 0x0, 0x0, 0x3F, 0x0⟩,
   ⟨0x40020100, [(48, 0x40)], 0xFF73FFF, 0x0, 0x0, 0x0, 0x0⟩,
   ⟨0x40020104, [(48, 0x40)], 0x3F03, 0x0, 0x0, 0x0, 0x0⟩,
   ⟨0x40020108, [(48, 0x40)], 0xFFFFFFFF, 0x0, 0x0, 0x0, 0x0⟩,
   ⟨0x4002010C, [(48, 0x40)], 0xFF0F1F1F, 0x0, 0x0, 0x0, 0x0⟩,
   ⟨0x40020110, [(48, 0x40)], 0xFFFFFFFF, 0x0, 0x0, 0x0, 0x0⟩,
   ⟨0x40020114, [(48, 0x40)], 0xFFFFFFFF, 0x0, 0x0, 0x0, 0x0⟩,
   ⟨0x40020118, [(48, 0x40)], 0xFFFF, 0x0, 0x0, 0x0, 0x0⟩,
   ⟨0x4002011C, [(48, 0x40)], 0x0, 0x0, 0x0, 0xFFFFFFFF, 0x0⟩,
   ⟨0x40020120, [(48, 0x40)], 0x0, 0x1F0000, 0x0, 0xFF, 0x0⟩,
   ⟨0x40020124, [(48, 0x40)], 0x0, 0x0, 0x0, 0xFFFFFFFF, 0x0⟩,
   ⟨0x40020128, [(48, 0x40)], 0x0, 0x0, 0x0, 0xFFFFFFFF, 0x0⟩,
   ⟨0x4002012C, [(48, 0x40)], 0x0, 0x0, 0x0, 0xFFFFFFFF, 0x0⟩,
   ⟨0x40020130, [(48, 0x40)], 0x0, 0x0, 0x0, 0xFFFFFFFF, 0x0⟩,
   ⟨0x40020134, [(48, 0x40)], 0x0, 0x0, 0x0, 0xFFFFFFFF, 0x0⟩,
   ⟨0x40020138, [(48, 0x40)], 0x0, 0x0, 0x0, 0x0, 0x0⟩,
   ⟨0x40021000, [(128, 0x20)], 0x80003F7F, 0x0, 0x0, 0x0, 0x0⟩,
   ⟨0x40021004, [(128, 0x20)], 0xFFFFFF, 0x0, 0x0, 0x0, 0x0⟩,
   ⟨0x40021008, [(128, 0x20)], 0xFFFFFFFF, 0x0, 0x0, 0x0, 0x0⟩,
   ⟨0x4002100C, [(128, 0x20)], 0xFFFFFFFF, 0x0, 0x0, 0x0, 0x0⟩,
   ⟨0x40021010, [(128, 0x20)], 0x37FFF, 0x0, 0x0, 0x0, 0x0⟩]

/-- Register rows of block 2, part 1 (R18). -/
def regRows2_1 : List RegRow :=
  [⟨0x40021014, [(128, 0x20)], 0xFF7FFF, 0x0, 0x0, 0x0, 0x0⟩,
   ⟨0x40021018, [(128, 0x20)], 0x0, 0x0, 0x0, 0x7, 0x0⟩,
   ⟨0x40022000, [(8, 0x40)], 0xF0F, 0x40000, 0x10000, 0x0, 0x0⟩,
   ⟨0x40022004, [(8, 0x40)], 0x7FFFF0, 0x0, 0x0, 0x0, 0x0⟩,
   ⟨0x40022008, [(8, 0x40)], 0x1FF, 0x0, 0x0, 0x0, 0x0⟩,
   ⟨0x4002200C, [(8, 0x40)], 0x7FFFE0, 0x0, 0x0, 0x0, 0x0⟩,
   ⟨0x40022010, [(8, 0x40)], 0x7FFFE0, 0x0, 0x0, 0x0, 0x0⟩,
   ⟨0x40022014, [(8, 0x40)], 0xFFFFFFFF, 0x0, 0x0, 0x0, 0x0⟩,
   ⟨0x40022018, [(8, 0x40)], 0xFFFFFFFF, 0x0, 0x0, 0x0, 0x0⟩,
   ⟨0x4002201C, [(8, 0x40)], 0x0, 0x0, 0x0, 0xFFFF0073, 0x0⟩,
   ⟨0x40022020, [(8, 0x40)], 0x0, 0x0, 0x0, 0xFFFFFFFF, 0x0⟩]

/-- The register rows of block 2 (R18). -/
def regRows2 : List RegRow := regRows2_0 ++ regRows2_1

/-- Register rows of block 3, part 0 (R18). -/
def regRows3_0 : List RegRow :=
  [⟨0x40030000, [], 0x0, 0x3, 0x0, 0x0, 0x0⟩,
   ⟨0x40030010, [(6, 0x4)], 0x803FFFFF, 0x0, 0x0, 0x0, 0x1228⟩,
   ⟨0x40030100, [(48, 0x20)], 0x3F1F7FFF, 0x0, 0x0, 0x0, 0x100806⟩,
   ⟨0x40030104, [(48, 0x20)], 0xFFFF, 0x0, 0x0, 0x0, 0x44⟩,
   ⟨0x40030108, [(48, 0x20)], 0xFFFFFFFF, 0x0, 0x0, 0x0, 0x7FFF8000⟩,
   ⟨0x4003010C, [(48, 0x20)], 0xFF, 0x0, 0x0, 0x0, 0x0⟩,
   ⟨0x40030110, [(48, 0x20)], 0x0, 0x0, 0x0, 0xFFFFFFFF, 0x0⟩,
   ⟨0x40030114, [(48, 0x20)], 0x0, 0x0, 0x0, 0xFFFFFFFF, 0x0⟩,
   ⟨0x40030118, [(48, 0x20)], 0x0, 0x6, 0x0, 0x1, 0x0⟩,
   ⟨0x4003011C, [(48, 0x20)], 0x0, 0x0, 0x0, 0xFFFFFFFF, 0x0⟩,
   ⟨0x40030700, [(4, 0x4)], 0x7FF, 0x0, 0x0, 0x0, 0x0⟩,
   ⟨0x40030800, [(16, 0x20)], 0x3F1FFF, 0x0, 0x0, 0x0, 0x20⟩,
   ⟨0x40030804, [(16, 0x20)], 0x0, 0x0, 0x0, 0xFFFFFFFF, 0x0⟩,
   ⟨0x40030808, [(16, 0x20)], 0x0, 0x0, 0x0, 0xFFFFFFFF, 0x0⟩,
   ⟨0x4003080C, [(16, 0x20)], 0x0, 0x2, 0x0, 0xFFFF0001, 0x0⟩,
   ⟨0x40030A00, [(8, 0x20)], 0x3F7F, 0x0, 0x0, 0x0, 0x0⟩,
   ⟨0x40030A04, [(8, 0x20)], 0xFFFFFFFF, 0x0, 0x0, 0x0, 0x0⟩,
   ⟨0x40030A08, [(8, 0x20)], 0x0, 0x0, 0x0, 0xFFFFFFFF, 0x0⟩,
   ⟨0x40030A0C, [(8, 0x20)], 0x0, 0x0, 0x0, 0xFFFFFFFF, 0x0⟩,
   ⟨0x40030A10, [(8, 0x20)], 0x0, 0x3, 0x0, 0xFFFF0000, 0x0⟩,
   ⟨0x40030B00, [(8, 0x20)], 0xFDFFFF, 0x0, 0x0, 0x0, 0x320⟩,
   ⟨0x40030B04, [(8, 0x20)], 0xFF0FFF, 0x0, 0x0, 0x0, 0x50⟩,
   ⟨0x40030B08, [(8, 0x20)], 0xFFFF, 0x0, 0x0, 0x0, 0x3E80⟩,
   ⟨0x40030B0C, [(8, 0x20)], 0xFFFFFF, 0x0, 0x0, 0x0, 0x0⟩]

/-- Register rows of block 3, part 1 (R18). -/
def regRows3_1 : List RegRow :=
  [⟨0x40030B10, [(8, 0x20)], 0xFFF, 0x0, 0x0, 0x0, 0x0⟩,
   ⟨0x40030B14, [(8, 0x20)], 0x0, 0x0, 0x0, 0xFFFFFFFF, 0x0⟩,
   ⟨0x40030B18, [(8, 0x20)], 0x0, 0x0, 0x0, 0x7FFF, 0x0⟩,
   ⟨0x40030B1C, [(8, 0x20)], 0x0, 0x7, 0x0, 0xFFFF0000, 0x0⟩,
   ⟨0x40030C00, [(48, 0x10)], 0xFFFF0FFF, 0x0, 0x0, 0x0, 0x0⟩,
   ⟨0x40030C04, [(48, 0x10)], 0x0, 0x0, 0x0, 0xFFFFFFFF, 0x0⟩,
   ⟨0x40030C08, [(48, 0x10)], 0x0, 0x0, 0x0, 0xFFFFFFFF, 0x0⟩,
   ⟨0x40030C0C, [(48, 0x10)], 0x0, 0x0, 0x0, 0xFFFF, 0x0⟩,
   ⟨0x40031000, [(64, 0x10)], 0x1FFFFFF, 0x0, 0x0, 0x0, 0x80800⟩,
   ⟨0x40031004, [(64, 0x10)], 0xF3, 0x0, 0x0, 0x0, 0x0⟩,
   ⟨0x40031008, [(64, 0x10)], 0x30, 0x0, 0x0, 0x3, 0x0⟩,
   ⟨0x40031400, [(96, 0x4)], 0x13FF, 0x0, 0x0, 0x0, 0x0⟩,
   ⟨0x40031600, [(96, 0x4)], 0x3F3, 0x0, 0x0, 0x0, 0x0⟩,
   ⟨0x40038000, [(8, 0x40)], 0x7FFF, 0x0, 0x0, 0x0, 0x0⟩,
   ⟨0x40038004, [(8, 0x40)], 0x1FFF1FFF, 0x0, 0x0, 0x0, 0xC000400⟩,
   ⟨0x40038008, [(8, 0x40)], 0x0, 0x0, 0x0, 0xFFFFFFFF, 0x0⟩,
   ⟨0x4003800C, [(8, 0x40)], 0x0, 0xC0000000, 0x0, 0x3FFF1FFF, 0x0⟩,
   ⟨0x40038010, [(8, 0x40)], 0x0, 0x0, 0x0, 0xFFFFFFFF, 0x0⟩,
   ⟨0x40038014, [(8, 0x40)], 0x0, 0x0, 0x0, 0x0, 0x0⟩]

/-- The register rows of block 3 (R18). -/
def regRows3 : List RegRow := regRows3_0 ++ regRows3_1

/-- Register rows of block 4, part 0 (R18). -/
def regRows4_0 : List RegRow :=
  [⟨0x40040000, [], 0x1, 0x0, 0x0, 0x0, 0x0⟩,
   ⟨0x40040004, [], 0x0, 0xFF00, 0x0, 0x1, 0x1⟩,
   ⟨0x40040100, [(48, 0x20)], 0xFF1F, 0x0, 0x0, 0x0, 0x6⟩,
   ⟨0x40040104, [(48, 0x20)], 0xFFFF, 0x0, 0x0, 0x0, 0x0⟩,
   ⟨0x40040108, [(48, 0x20)], 0xFFFFFFFF, 0x0, 0x0, 0x0, 0x0⟩,
   ⟨0x4004010C, [(48, 0x20)], 0x0, 0x4, 0x0, 0x7B, 0x8⟩,
   ⟨0x40040110, [(48, 0x20)], 0x0, 0x0, 0x0, 0xFFFFFFFF, 0x0⟩,
   ⟨0x40040114, [(48, 0x20)], 0x0, 0x0, 0x0, 0x0, 0x0⟩]

/-- The register rows of block 4 (R18). -/
def regRows4 : List RegRow := regRows4_0

/-- Register rows of block 5, part 0 (R18). -/
def regRows5_0 : List RegRow :=
  [⟨0x40050000, [], 0x3, 0x0, 0x0, 0x0, 0x0⟩,
   ⟨0x40050004, [], 0x0, 0x70000, 0x0, 0x3FF, 0x0⟩,
   ⟨0x40050008, [], 0x3F07, 0x0, 0x0, 0x0, 0x0⟩,
   ⟨0x40050010, [], 0xFFFFFFF0, 0x0, 0x0, 0x0, 0x0⟩,
   ⟨0x40050014, [], 0xFF, 0x0, 0x0, 0x0, 0x0⟩,
   ⟨0x40050018, [], 0x1F, 0x0, 0x0, 0x0, 0x8⟩,
   ⟨0x4005001C, [], 0x0, 0x0, 0x0, 0xFFFFFFFF, 0x0⟩,
   ⟨0x40050020, [], 0xFFFFFFFF, 0x0, 0x0, 0x0, 0x0⟩,
   ⟨0x40050024, [], 0x0, 0x0, 0x0, 0xFFFFFFFF, 0x0⟩,
   ⟨0x40050040, [], 0xF1FF, 0x0, 0x0, 0x0, 0x0⟩,
   ⟨0x40050044, [], 0x0, 0x0, 0x0, 0x7, 0x0⟩,
   ⟨0x40050048, [], 0xFFFFFFFF, 0x0, 0x0, 0x0, 0x0⟩,
   ⟨0x40050050, [], 0x701FF, 0x0, 0x0, 0x0, 0x0⟩,
   ⟨0x40050054, [], 0xFFFFFFFF, 0x0, 0x0, 0x0, 0x0⟩,
   ⟨0x40050060, [], 0xFFF, 0x0, 0x0, 0x0, 0x0⟩,
   ⟨0x40050064, [], 0xFFFF0003, 0x0, 0x0, 0x0, 0x0⟩,
   ⟨0x40050068, [], 0x0, 0x0, 0x0, 0x3FF01FF, 0x0⟩,
   ⟨0x40050080, [], 0xFFF, 0x0, 0x0, 0x0, 0x0⟩,
   ⟨0x400500C0, [], 0x0, 0x0, 0x0, 0xFFFFFFFF, 0x0⟩,
   ⟨0x400500C4, [], 0x0, 0x0, 0x0, 0xFFFFFFFF, 0x0⟩,
   ⟨0x400500C8, [], 0x0, 0x0, 0x0, 0xFFFFFFFF, 0x0⟩,
   ⟨0x400500CC, [], 0x0, 0x0, 0x0, 0x0, 0x0⟩,
   ⟨0x40050100, [(4, 0x20)], 0x3FFF, 0x0, 0x0, 0x0, 0x0⟩,
   ⟨0x40050104, [(4, 0x20)], 0x7FFFFFF, 0x0, 0x0, 0x0, 0x0⟩]

/-- Register rows of block 5, part 1 (R18). -/
def regRows5_1 : List RegRow :=
  [⟨0x40050108, [(4, 0x20)], 0x0, 0x0, 0x0, 0x801F01FF, 0x80000000⟩,
   ⟨0x4005010C, [(4, 0x20)], 0x0, 0x0, 0x0, 0x7, 0x0⟩,
   ⟨0x40050110, [(4, 0x20)], 0x0, 0x0, 0x0, 0xFFFFFFFF, 0x0⟩]

/-- The register rows of block 5 (R18). -/
def regRows5 : List RegRow := regRows5_0 ++ regRows5_1

/-- Register rows of block 6, part 0 (R18). -/
def regRows6_0 : List RegRow :=
  [⟨0x40060000, [], 0x1, 0x0, 0x0, 0x0, 0x1⟩,
   ⟨0x40060004, [], 0x0, 0x4, 0x0, 0xF3, 0x0⟩,
   ⟨0x40060008, [], 0xFFF06, 0x0, 0x0, 0x0, 0x0⟩,
   ⟨0x4006000C, [], 0xFFFFF000, 0x0, 0x0, 0x0, 0x0⟩,
   ⟨0x40060010, [], 0xFF, 0x0, 0x0, 0x0, 0x0⟩,
   ⟨0x40060028, [(15, 0x8)], 0xFFFFE001, 0x0, 0x0, 0x0, 0x0⟩,
   ⟨0x4006002C, [(15, 0x8)], 0xFF, 0x0, 0x0, 0x0, 0x0⟩,
   ⟨0x40060100, [], 0x0, 0x0, 0x0, 0x8003FFFF, 0x0⟩,
   ⟨0x40060104, [], 0x0, 0x0, 0x0, 0xFFFFFFFF, 0x0⟩,
   ⟨0x40060108, [], 0x0, 0x0, 0x0, 0xFF, 0x0⟩,
   ⟨0x4006010C, [], 0x0, 0x0, 0x0, 0x0, 0x0⟩,
   ⟨0x40060110, [], 0x1FF, 0x0, 0x0, 0x0, 0x0⟩,
   ⟨0x40060120, [], 0x0, 0x0, 0x0, 0xFFFFFFFF, 0x0⟩,
   ⟨0x40060124, [], 0x0, 0x0, 0x0, 0xFFFFFFFF, 0x0⟩,
   ⟨0x40060128, [], 0x0, 0x0, 0x0, 0x0, 0x0⟩,
   ⟨0x40068100, [(4, 0x40)], 0x1, 0x0, 0x0, 0x0, 0x0⟩,
   ⟨0x40068104, [(4, 0x40)], 0xFFFFFE00, 0x0, 0x0, 0x0, 0x0⟩,
   ⟨0x40068108, [(4, 0x40)], 0xFF, 0x0, 0x0, 0x0, 0x0⟩,
   ⟨0x4006810C, [(4, 0x40)], 0x3F, 0x0, 0x0, 0x0, 0x0⟩,
   ⟨0x40068110, [(4, 0x40)], 0x0, 0x0, 0x0, 0x0, 0x0⟩,
   ⟨0x40068114, [(4, 0x40)], 0x0, 0x3000, 0x0, 0xF0FFF, 0x0⟩,
   ⟨0x40068118, [(4, 0x40)], 0x0, 0x0, 0x0, 0xFFFFFFE0, 0x0⟩,
   ⟨0x4006811C, [(4, 0x40)], 0x0, 0x0, 0x0, 0xFF, 0x0⟩,
   ⟨0x40068120, [(4, 0x40)], 0x0, 0x0, 0x0, 0xFFFFFF, 0x0⟩]

/-- Register rows of block 6, part 1 (R18). -/
def regRows6_1 : List RegRow :=
  [⟨0x40068124, [(4, 0x40)], 0x0, 0x0, 0x0, 0xFFFFFFFF, 0x0⟩,
   ⟨0x40068128, [(4, 0x40)], 0x0, 0x0, 0x0, 0xFFFFFFFF, 0x0⟩]

/-- The register rows of block 6 (R18). -/
def regRows6 : List RegRow := regRows6_0 ++ regRows6_1

/-- Register rows of block 7, part 0 (R18). -/
def regRows7_0 : List RegRow :=
  [⟨0x40070000, [], 0x1, 0x0, 0x0, 0x0, 0x1⟩,
   ⟨0x40070004, [], 0x0, 0x3, 0x0, 0x0, 0x0⟩,
   ⟨0x40070008, [], 0x0, 0x0, 0x0, 0xFFFFFFFF, 0x0⟩,
   ⟨0x4007000C, [], 0x0, 0x0, 0x0, 0x0, 0x0⟩,
   ⟨0x40070100, [(24, 0x10)], 0xFF, 0x0, 0x0, 0x0, 0x44⟩,
   ⟨0x40070104, [(24, 0x10)], 0xFFFF, 0x0, 0x0, 0x0, 0x8888⟩,
   ⟨0x40070108, [(24, 0x10)], 0x0, 0x0, 0x0, 0x0, 0x0⟩,
   ⟨0x4007010C, [(24, 0x10)], 0x0, 0x0, 0x0, 0x3, 0x0⟩,
   ⟨0x40071000, [(40, 0x40)], 0x0, 0xA, 0x0, 0x7F05, 0x1⟩,
   ⟨0x40071008, [(40, 0x40)], 0x0, 0x0, 0x0, 0xFFFFFFFF, 0x0⟩,
   ⟨0x4007100C, [(40, 0x40)], 0x0, 0x0, 0x0, 0xFFFFFFFF, 0x0⟩,
   ⟨0x40071010, [(40, 0x40)], 0x0, 0x0, 0x0, 0xFFFFFFFF, 0x0⟩,
   ⟨0x40071014, [(40, 0x40)], 0x0, 0x0, 0x0, 0xFFFFFFFF, 0x0⟩,
   ⟨0x40071018, [(40, 0x40), (8, 0x4)], 0x0, 0x0, 0x0, 0xFFFFFFFF, 0x0⟩,
   ⟨0x40071038, [(40, 0x40)], 0x0, 0x0, 0x0, 0xFFFF, 0x0⟩,
   ⟨0x40074000, [(40, 0x200), (64, 0x8)], 0x3FFFFFFF, 0x0, 0x0, 0x0, 0x0⟩,
   ⟨0x40074004, [(40, 0x200), (64, 0x8)], 0x803F000F, 0x0, 0x0, 0x0, 0x80000000⟩]

/-- The register rows of block 7 (R18). -/
def regRows7 : List RegRow := regRows7_0

/-- Register rows of block 8, part 0 (R18). -/
def regRows8_0 : List RegRow :=
  [⟨0x40080000, [], 0x3, 0x0, 0x0, 0x0, 0x3⟩,
   ⟨0x40080004, [], 0x0, 0x1F, 0x0, 0x0, 0x0⟩,
   ⟨0x40080008, [], 0xFFFFF, 0x0, 0x0, 0x0, 0x2FB⟩,
   ⟨0x4008000C, [], 0xFFFFF, 0x0, 0x0, 0x0, 0x5F5E⟩,
   ⟨0x40080010, [], 0xFFFFF, 0x0, 0x0, 0x0, 0x2FAF⟩,
   ⟨0x40080014, [], 0xFFFF, 0x0, 0x0, 0x0, 0x131⟩,
   ⟨0x40080018, [], 0xFF, 0x0, 0x0, 0x0, 0x40⟩,
   ⟨0x40080020, [], 0x0, 0x0, 0x0, 0xFFFFFFFF, 0x0⟩,
   ⟨0x40080024, [], 0x0, 0x0, 0x0, 0xFFFFFFFF, 0x0⟩,
   ⟨0x40080028, [], 0x0, 0x0, 0x0, 0xFFFF, 0x0⟩,
   ⟨0x40080030, [(4, 0x4)], 0xFFFFFF, 0x0, 0x0, 0x0, 0x1003E8⟩,
   ⟨0x40080040, [], 0xFF, 0x0, 0x0, 0x0, 0x0⟩,
   ⟨0x40080044, [], 0x0, 0x0, 0x0, 0xFFFF00FF, 0x0⟩,
   ⟨0x40080048, [], 0x0, 0x0, 0x0, 0xFFFFFFFF, 0x0⟩,
   ⟨0x4008004C, [], 0x0, 0x80000000, 0x0, 0x3FFFF, 0x0⟩,
   ⟨0x40080050, [], 0x0, 0x0, 0x0, 0xFFFF, 0x0⟩,
   ⟨0x40080054, [], 0x0, 0x0, 0x0, 0xFFFFFFFF, 0x0⟩,
   ⟨0x40080058, [], 0x0, 0x0, 0x0, 0x7FFFFF, 0x0⟩,
   ⟨0x4008005C, [], 0x0, 0x0, 0x0, 0x0, 0x0⟩,
   ⟨0x40080060, [], 0x7FF1, 0x0, 0x0, 0x0, 0x0⟩,
   ⟨0x40080064, [], 0x0, 0x0, 0x0, 0xFF1F1F1F, 0x0⟩,
   ⟨0x40080080, [(4, 0x10)], 0xFFFFFFFF, 0x0, 0x0, 0x0, 0x0⟩,
   ⟨0x40080084, [(4, 0x10)], 0xFFFFFFFF, 0x0, 0x0, 0x0, 0x0⟩,
   ⟨0x40080088, [(4, 0x10)], 0xFF, 0x0, 0x0, 0x0, 0x0⟩]

/-- Register rows of block 8, part 1 (R18). -/
def regRows8_1 : List RegRow :=
  [⟨0x4008008C, [(4, 0x10)], 0x7F, 0x0, 0x80000000, 0x0, 0x0⟩]

/-- The register rows of block 8 (R18). -/
def regRows8 : List RegRow := regRows8_0 ++ regRows8_1

/-- Register rows of block 9, part 0 (R18). -/
def regRows9_0 : List RegRow :=
  [⟨0x40090000, [], 0x0, 0xF, 0x0, 0x0, 0x0⟩,
   ⟨0x40090004, [], 0x3F, 0x0, 0x0, 0x0, 0x34⟩,
   ⟨0x40090008, [], 0xFFFFFFFF, 0x0, 0x0, 0x0, 0x20001000⟩,
   ⟨0x4009000C, [], 0xFFFF, 0x0, 0x0, 0x0, 0x640⟩,
   ⟨0x40090010, [], 0x0, 0xFFFFFFFF, 0x0, 0x0, 0x0⟩,
   ⟨0x40090014, [], 0x0, 0xFF, 0x0, 0x0, 0x0⟩,
   ⟨0x40090018, [], 0xFFFF, 0x0, 0x0, 0x0, 0x20⟩,
   ⟨0x4009001C, [], 0xFFFF, 0x0, 0x0, 0x0, 0x64⟩,
   ⟨0x40090020, [], 0xFFFF, 0x0, 0x0, 0x0, 0x64⟩,
   ⟨0x40090024, [], 0xFFFFFF, 0x0, 0x0, 0x0, 0x1003E8⟩,
   ⟨0x40090028, [], 0x0, 0x0, 0x0, 0xFFFFFFFF, 0x0⟩,
   ⟨0x4009002C, [], 0x0, 0x80000000, 0x0, 0xF3F, 0x0⟩,
   ⟨0x40090030, [], 0x0, 0x0, 0x0, 0x0, 0x0⟩,
   ⟨0x40090100, [(2, 0x100)], 0x1FFF, 0x0, 0x0, 0x0, 0x1B8A⟩,
   ⟨0x40090104, [(2, 0x100)], 0x0, 0x0, 0x0, 0xFF, 0x0⟩,
   ⟨0x40090108, [(2, 0x100)], 0x3F3F3F3F, 0x0, 0x0, 0x0, 0x16161016⟩,
   ⟨0x4009010C, [(2, 0x100)], 0xFFFFFF7F, 0x0, 0x0, 0x0, 0x18224A34⟩,
   ⟨0x40090110, [(2, 0x100)], 0xFF1F1F1F, 0x0, 0x0, 0x0, 0xC4080B09⟩,
   ⟨0x40090114, [(2, 0x100)], 0x1F0FFF1F, 0x0, 0x0, 0x0, 0xA02300C⟩,
   ⟨0x40090118, [(2, 0x100)], 0xFFFFF, 0x0, 0x0, 0x0, 0x830C0⟩,
   ⟨0x4009011C, [(2, 0x100)], 0xFFFF03FF, 0x0, 0x0, 0x0, 0x1000040⟩,
   ⟨0x40090120, [(2, 0x100)], 0xFFFF, 0x0, 0x0, 0x0, 0x1000⟩,
   ⟨0x40090124, [(2, 0x100)], 0x0, 0x0, 0x0, 0x1FFF, 0x0⟩,
   ⟨0x40090128, [(2, 0x100)], 0x0, 0x0, 0x0, 0xFFFFF, 0x0⟩]

/-- Register rows of block 9, part 1 (R18). -/
def regRows9_1 : List RegRow :=
  [⟨0x4009012C, [(2, 0x100)], 0x0, 0x0, 0x0, 0xFFFFFFFF, 0x0⟩,
   ⟨0x40090130, [(2, 0x100)], 0x0, 0x0, 0x0, 0xFFFFFFFF, 0x0⟩,
   ⟨0x40090134, [(2, 0x100)], 0x0, 0x0, 0x0, 0xFFFFFFFF, 0x0⟩,
   ⟨0x40090138, [(2, 0x100)], 0x0, 0x0, 0x0, 0xFFFF00FF, 0x0⟩,
   ⟨0x4009013C, [(2, 0x100)], 0x6, 0x0, 0x0, 0x0, 0x0⟩]

/-- The register rows of block 9 (R18). -/
def regRows9 : List RegRow := regRows9_0 ++ regRows9_1

/-- Register rows of block A, part 0 (R18). -/
def regRowsA_0 : List RegRow :=
  [⟨0x400A0000, [], 0x0, 0x10100, 0x0, 0xF, 0x0⟩,
   ⟨0x400A0004, [], 0x0, 0x0, 0x0, 0xFFFFFFFF, 0x59419601⟩,
   ⟨0x400A0008, [], 0x0, 0x0, 0x0, 0xFFFFFFFF, 0x0⟩,
   ⟨0x400A000C, [], 0x0, 0x0, 0x0, 0x1FFFFFF, 0x0⟩,
   ⟨0x400A0010, [], 0x0, 0x0, 0x0, 0xFFFFFF, 0xFFFFFF⟩,
   ⟨0x400A0014, [], 0x0, 0x0, 0x0, 0xFF, 0x0⟩,
   ⟨0x400A0018, [], 0x0, 0x0, 0x0, 0xFFFFFFFF, 0x0⟩,
   ⟨0x400A0020, [], 0x0, 0x0, 0x0, 0xFFFF000, 0x0⟩,
   ⟨0x400A0024, [], 0x0, 0x0, 0x0, 0xFFFF000, 0x0⟩,
   ⟨0x400A0028, [], 0x0, 0x0, 0x0, 0x3, 0x0⟩,
   ⟨0x400A0030, [], 0xFFFFF000, 0x0, 0x0, 0x0, 0x0⟩,
   ⟨0x400A0034, [], 0xFF, 0x0, 0x0, 0x0, 0x10⟩,
   ⟨0x400A0100, [], 0xFFFFFFFF, 0x0, 0x0, 0x0, 0x0⟩,
   ⟨0x400A0104, [], 0xFF, 0x0, 0x0, 0x0, 0x0⟩,
   ⟨0x400A0108, [], 0x1FFFFFF, 0x0, 0x0, 0x0, 0x0⟩,
   ⟨0x400A010C, [], 0x7FFFF0, 0x0, 0x0, 0x0, 0x0⟩,
   ⟨0x400A0110, [], 0x7FFFF0, 0x0, 0x0, 0x0, 0x0⟩,
   ⟨0x400A0114, [], 0xFFFFFFFF, 0x0, 0x0, 0x0, 0x0⟩,
   ⟨0x400A0118, [], 0xFFFFFFFF, 0x0, 0x0, 0x0, 0x0⟩,
   ⟨0x400A011C, [], 0x770, 0x0, 0x0, 0x0, 0x0⟩,
   ⟨0x400A0120, [], 0x0, 0x0, 0x0, 0xFFFFFF0F, 0x0⟩,
   ⟨0x400A0124, [], 0x0, 0x0, 0x0, 0x1FFFFFF, 0x0⟩,
   ⟨0x400A0128, [], 0x0, 0x0, 0x0, 0xFF, 0x0⟩,
   ⟨0x400A0200, [], 0x72, 0x0, 0x0, 0x0, 0x0⟩]

/-- Register rows of block A, part 1 (R18). -/
def regRowsA_1 : List RegRow :=
  [⟨0x400A0204, [], 0x7FFFF0, 0x0, 0x0, 0x0, 0x0⟩,
   ⟨0x400A0208, [], 0x1FF, 0x0, 0x0, 0x0, 0x0⟩,
   ⟨0x400A020C, [], 0x7FFFE0, 0x0, 0x0, 0x0, 0x0⟩,
   ⟨0x400A0210, [], 0x7FFFE0, 0x0, 0x0, 0x0, 0x0⟩,
   ⟨0x400A0214, [], 0x0, 0x0, 0x0, 0x73, 0x0⟩,
   ⟨0x400A0218, [], 0x0, 0x0, 0x0, 0xFFFFFFFF, 0x0⟩,
   ⟨0x400A021C, [], 0x0, 0x0, 0x0, 0xFFFFFFFF, 0x0⟩]

/-- The register rows of block A (R18). -/
def regRowsA : List RegRow := regRowsA_0 ++ regRowsA_1

/-- Register rows of block B, part 0 (R18). -/
def regRowsB_0 : List RegRow :=
  [⟨0x400B0000, [], 0x3, 0x0, 0x0, 0x0, 0x2⟩,
   ⟨0x400B0004, [], 0x0, 0xF0000, 0x0, 0x13F, 0x0⟩,
   ⟨0x400B0008, [], 0x0, 0x0, 0x0, 0xFFFFFFFF, 0xA961FC3⟩,
   ⟨0x400B000C, [], 0xFFFFFFFF, 0x0, 0x0, 0x0, 0x1FC3⟩,
   ⟨0x400B0010, [], 0xF0000000, 0x0, 0x0, 0x0, 0x0⟩,
   ⟨0x400B0014, [], 0xFF, 0x0, 0x0, 0x0, 0x0⟩,
   ⟨0x400B0020, [], 0xFFFFF000, 0x0, 0x0, 0x0, 0x0⟩,
   ⟨0x400B0024, [], 0xFFFFFFFF, 0x0, 0x0, 0x0, 0x0⟩,
   ⟨0x400B0028, [], 0x0, 0x0, 0x0, 0x1FF, 0x100⟩,
   ⟨0x400B002C, [], 0xFF, 0x0, 0x0, 0x0, 0x0⟩,
   ⟨0x400B0030, [], 0xFF, 0x0, 0x0, 0x0, 0x0⟩,
   ⟨0x400B0034, [], 0x0, 0x0, 0x0, 0xFF, 0x0⟩,
   ⟨0x400B0040, [], 0xFFFF, 0x0, 0x0, 0x0, 0x0⟩,
   ⟨0x400B0044, [], 0xFFF, 0x0, 0x0, 0x0, 0x210⟩,
   ⟨0x400B0048, [], 0x0, 0x0, 0x0, 0x0, 0x0⟩,
   ⟨0x400B004C, [], 0xFFFF, 0x0, 0x0, 0x0, 0x32⟩,
   ⟨0x400B0050, [], 0x0, 0x0, 0x0, 0xFFFFFFFF, 0x0⟩,
   ⟨0x400B0054, [], 0x0, 0x0, 0x0, 0x7F, 0x0⟩,
   ⟨0x400B0060, [], 0x0, 0x0, 0x0, 0xFFFFFFFF, 0x0⟩,
   ⟨0x400B0064, [], 0x0, 0x0, 0x0, 0xFFFFFFFF, 0x0⟩,
   ⟨0x400B0068, [], 0x0, 0x0, 0x0, 0x0, 0x0⟩]

/-- The register rows of block B (R18). -/
def regRowsB : List RegRow := regRowsB_0

/-- Register rows of block C, part 0 (R18). -/
def regRowsC_0 : List RegRow :=
  [⟨0x400C0000, [], 0x7, 0x0, 0x0, 0x0, 0x0⟩,
   ⟨0x400C0004, [], 0x1, 0x0, 0x0, 0x0, 0x0⟩,
   ⟨0x400C0008, [], 0xFFFF, 0x0, 0x0, 0x0, 0x64⟩,
   ⟨0x400C000C, [], 0x0, 0x0, 0x0, 0xFFFFFFFF, 0x0⟩,
   ⟨0x400C0010, [], 0x0, 0x0, 0x0, 0xFFFFFFFF, 0x0⟩,
   ⟨0x400C0014, [], 0x0, 0x0, 0x0, 0xFFFF, 0x0⟩,
   ⟨0x400C0018, [], 0xFFFFFFFF, 0x0, 0x0, 0x0, 0x0⟩,
   ⟨0x400C001C, [], 0xFFFFFFFF, 0x0, 0x0, 0x0, 0x0⟩,
   ⟨0x400C0020, [], 0xFFFFFFFF, 0x0, 0x0, 0x0, 0x0⟩,
   ⟨0x400C0100, [(6, 0x80)], 0x1FFF003F, 0x0, 0x0, 0x0, 0x8⟩,
   ⟨0x400C0104, [(6, 0x80)], 0xFFFFFFFF, 0x0, 0x0, 0x0, 0x0⟩,
   ⟨0x400C0108, [(6, 0x80)], 0xFFFF, 0x0, 0x0, 0x0, 0x0⟩,
   ⟨0x400C010C, [(6, 0x80)], 0x0, 0x8, 0x0, 0x7, 0x0⟩,
   ⟨0x400C0110, [(6, 0x80)], 0xFF00, 0x0, 0x0, 0xFF, 0xFFFF⟩,
   ⟨0x400C0114, [(6, 0x80)], 0xFFFFFFFF, 0x0, 0x0, 0x0, 0x0⟩,
   ⟨0x400C0118, [(6, 0x80)], 0xF, 0x0, 0x0, 0x0, 0x0⟩,
   ⟨0x400C011C, [(6, 0x80)], 0xFFFFFFE0, 0x0, 0x0, 0x0, 0x0⟩,
   ⟨0x400C0120, [(6, 0x80)], 0xFF, 0x0, 0x0, 0x0, 0x0⟩,
   ⟨0x400C0124, [(6, 0x80)], 0xF, 0x0, 0x0, 0x0, 0x4⟩,
   ⟨0x400C0128, [(6, 0x80)], 0xFFF, 0x0, 0x0, 0x0, 0x0⟩,
   ⟨0x400C012C, [(6, 0x80)], 0x0, 0x0, 0x0, 0xFFF, 0x0⟩,
   ⟨0x400C0130, [(6, 0x80)], 0x0, 0x0, 0x0, 0xFFFFFFFF, 0x0⟩,
   ⟨0x400C0134, [(6, 0x80)], 0x0, 0x0, 0x0, 0xFFFFFFFF, 0x0⟩,
   ⟨0x400C0138, [(6, 0x80)], 0x0, 0x0, 0x0, 0xFFFFFFFF, 0x0⟩]

/-- Register rows of block C, part 1 (R18). -/
def regRowsC_1 : List RegRow :=
  [⟨0x400C013C, [(6, 0x80)], 0x0, 0x0, 0x0, 0x0, 0x0⟩]

/-- The register rows of block C (R18). -/
def regRowsC : List RegRow := regRowsC_0 ++ regRowsC_1

/-- Register rows of block D, part 0 (R18). -/
def regRowsD_0 : List RegRow :=
  [⟨0x400D0000, [(2, 0x40)], 0x1FFFFFF, 0x0, 0x0, 0x0, 0x1B207⟩,
   ⟨0x400D0004, [(2, 0x40)], 0xFF, 0x0, 0x0, 0x0, 0x0⟩,
   ⟨0x400D0008, [(2, 0x40)], 0x0, 0x70000, 0x0, 0x1F1F, 0x0⟩,
   ⟨0x400D0100, [(2, 0x40)], 0x807FFFFF, 0x0, 0x0, 0x0, 0x1C063⟩,
   ⟨0x400D0104, [(2, 0x40)], 0xFFFFFFFF, 0x0, 0x0, 0x0, 0x0⟩,
   ⟨0x400D0108, [(2, 0x40)], 0x0, 0x20000, 0x0, 0x11F1F, 0x0⟩,
   ⟨0x400D0200, [], 0x3, 0x0, 0x0, 0x0, 0x0⟩,
   ⟨0x400D0204, [], 0x10FFF, 0x0, 0x0, 0x0, 0x0⟩,
   ⟨0x400D0208, [], 0xFF, 0x0, 0x0, 0x0, 0x0⟩,
   ⟨0x400D020C, [], 0x0, 0xE, 0x0, 0x1, 0x0⟩,
   ⟨0x400D0300, [], 0x1F1, 0x0, 0x0, 0x0, 0x140⟩,
   ⟨0x400D0304, [], 0x3FFFF, 0x0, 0x0, 0x0, 0x0⟩,
   ⟨0x400D0308, [], 0xFFFFFFF, 0x0, 0x0, 0x0, 0x0⟩,
   ⟨0x400D030C, [], 0x7FFFFC, 0x0, 0x0, 0x0, 0x0⟩,
   ⟨0x400D0310, [], 0x1FF, 0x0, 0x0, 0x0, 0x0⟩,
   ⟨0x400D0314, [], 0x0, 0x2, 0x0, 0x1, 0x0⟩]

/-- The register rows of block D (R18). -/
def regRowsD : List RegRow := regRowsD_0

/-- Register rows of block E, part 0 (R18). -/
def regRowsE_0 : List RegRow :=
  [⟨0x400E0000, [], 0x0, 0x8, 0x0, 0x17, 0x0⟩,
   ⟨0x400E0004, [], 0x0, 0x0, 0x0, 0x7, 0x0⟩,
   ⟨0x400E0008, [], 0x0, 0x0, 0x0, 0x0, 0x0⟩,
   ⟨0x400E0010, [], 0x0, 0x0, 0x0, 0xFFFFFFFF, 0x0⟩,
   ⟨0x400E0014, [], 0x0, 0x0, 0x0, 0xFFFFFFFF, 0x0⟩,
   ⟨0x400E0018, [], 0x0, 0x0, 0x0, 0xFFFFFFFF, 0x0⟩,
   ⟨0x400E001C, [], 0x0, 0x0, 0x0, 0xFFFFFFFF, 0x0⟩,
   ⟨0x400E0020, [], 0x17F, 0x0, 0x0, 0x0, 0x0⟩,
   ⟨0x400E0024, [], 0x0, 0x10000, 0x0, 0x7FFF, 0x0⟩,
   ⟨0x400E0028, [], 0x3FF03FF, 0x0, 0x0, 0x0, 0x1F400FA⟩,
   ⟨0x400E0040, [(8, 0x4)], 0x7, 0x0, 0x0, 0x100, 0x0⟩,
   ⟨0x400E0060, [], 0xFFFF00, 0x0, 0x1, 0x0, 0x3E800⟩,
   ⟨0x400E0064, [], 0x0, 0x0, 0x0, 0x0, 0x0⟩,
   ⟨0x400E0068, [], 0x0, 0x1, 0x0, 0x0, 0x0⟩]

/-- The register rows of block E (R18). -/
def regRowsE : List RegRow := regRowsE_0

/-- Register rows of block F, part 0 (R18). -/
def regRowsF_0 : List RegRow :=
  [⟨0x400F0000, [], 0x0, 0x38, 0x0, 0x7, 0x0⟩,
   ⟨0x400F0004, [], 0x0, 0x0, 0x0, 0xFFFFFFFF, 0x0⟩,
   ⟨0x400F0008, [], 0x1FFFF, 0x0, 0x0, 0x0, 0x0⟩,
   ⟨0x400F000C, [], 0x7FFFF8, 0x0, 0x0, 0x0, 0x0⟩,
   ⟨0x400F0010, [], 0x1FFF, 0x0, 0x0, 0x0, 0x0⟩,
   ⟨0x400F0014, [], 0x0, 0x0, 0x0, 0x7, 0x0⟩,
   ⟨0x400F0018, [], 0x0, 0x0, 0x0, 0xFFFFFFFF, 0x0⟩,
   ⟨0x400F001C, [], 0x0, 0x0, 0x0, 0x1FFFF, 0x1EFC0⟩,
   ⟨0x400F0020, [], 0x0, 0x0, 0x0, 0x1FF, 0x0⟩,
   ⟨0x400F0024, [], 0x0, 0x0, 0x0, 0xFFFFFFFF, 0x0⟩]

/-- The register rows of block F (R18). -/
def regRowsF : List RegRow := regRowsF_0

/-- The rows of the CSR block with number `b` (Table 01-5). -/
def regRowsOf : Nat → List RegRow
  | 0x0 => regRows0
  | 0x1 => regRows1
  | 0x2 => regRows2
  | 0x3 => regRows3
  | 0x4 => regRows4
  | 0x5 => regRows5
  | 0x6 => regRows6
  | 0x7 => regRows7
  | 0x8 => regRows8
  | 0x9 => regRows9
  | 0xA => regRowsA
  | 0xB => regRowsB
  | 0xC => regRowsC
  | 0xD => regRowsD
  | 0xE => regRowsE
  | 0xF => regRowsF
  | _ => []

/-- Whether the row's register, at some index, lies at address `a`. -/
def RegRow.hits (r : RegRow) (a : Nat) : Bool :=
  decide (r.base ≤ a) &&
  match r.dims with
  | [] => decide (a = r.base)
  | [(c, s)] => decide ((a - r.base) % s = 0) && decide ((a - r.base) / s < c)
  | [(c1, s1), (c2, s2)] =>
    decide ((a - r.base) / s1 < c1) && decide ((a - r.base) % s1 % s2 = 0) && decide ((a - r.base) % s1 / s2 < c2)
  | _ => false

/-- The row of the register at address `a` of the CSR range, if a register lies there (R18). -/
def regRow? (a : Nat) : Option RegRow :=
  if 0x40000000 ≤ a ∧ a < 0x40100000 then (regRowsOf ((a - 0x40000000) / 0x10000)).find? (fun r => r.hits a) else none

/-- The router an NI attaches to and the codes that eject at it (Table 11-1): router, first port, second port. -/
def niPlace (d : Nat) : Nat × Nat × Nat :=
  if d < 24 then (d, 4, 4)
  else if d < 28 then ([18, 19, 22, 23].getD (d - 24) 0, 5, 5)
  else if d < 32 then ([18, 19, 22, 23].getD (d - 28) 0, 6, 6)
  else if d < 36 then ([8, 9, 14, 15].getD (d - 32) 0, 5, 6)
  else if d = 36 then (6, 5, 6)
  else if d = 37 then (11, 5, 6)
  else if d = 38 then (20, 5, 5)
  else (2, 5, 5)

/-- The default route from NI `i` to NI `d` (R281): x hops, then y hops, then the ejection; even sources eject at L1 and
odd ones at L2 where the target has both ports. Codes of Table 11-3. -/
def defaultRoute (i d : Nat) : List Nat :=
  let a := niPlace i
  let b := niPlace d
  let xa := a.1 % 6
  let ya := a.1 / 6
  let xb := b.1 % 6
  let yb := b.1 / 6
  List.replicate (xb - xa) 1 ++ List.replicate (xa - xb) 3 ++ List.replicate (yb - ya) 0 ++ List.replicate (ya - yb) 2 ++
    [if i % 2 = 0 then b.2.1 else b.2.2]

/-- Route codes packed three bits each, the first code lowest (R280). -/
def packRoute : List Nat → Nat
  | [] => 0
  | c :: cs => c + 8 * packRoute cs

/-- The reset value of the register at address `a`, with the values that differ by index: AD7 (R47, Table 02-6), core 0
(Table 09-10), UART 0 (Table 16-5) and the default routes (R281). -/
def regReset (a : Nat) : BitVec 32 :=
  if a = AU_ADn_CFG 7 then 6
  else if a = AU_ADn_VNOM_LO 7 then 351844
  else if a = AU_ADn_ZOFF 7 then 1000
  else if a = AU_ADn_STAT 7 then 4
  else if a = CP_STAT 0 then 1
  else if a = SP_Uu_CFG 0 then BitVec.ofNat 32 (111111 + 0x1000000)
  else if 0x40074000 ≤ a ∧ a < 0x40079000 then
    let i := (a - 0x40074000) / 0x200
    let d := (a - 0x40074000) % 0x200 / 8
    if d < 40 then
      if a % 8 = 0 then BitVec.ofNat 32 (packRoute (defaultRoute i d))
      else if a % 8 = 4 then BitVec.ofNat 32 (0x80000000 + (defaultRoute i d).length)
      else 0
    else 0
  else
    match regRow? a with
    | some r => BitVec.ofNat 32 r.reset
    | none => 0

end Sys2Proof.Machine
end

