-- ==== Sys2Proof/Machine/State.lean ====
section
/-! DEFINITION. The state of the A96 block: every register, buffer, counter, mode and pin the manual gives it, as plain data.
Registers that software sees live in one register file (`Dev.regs`, defaults from Regs.lean); what a register only
selects, and the state the manual implies without a register, are fields of the units below. -/
namespace Sys2Proof.Machine

/-- Why the block stops with a fault. No command of this model raises one: every happening the manual describes has an
effect on the state. The constructor is kept so that the type is not empty; nobody raises it (safe). -/
inductive Fault where
  /-- Never raised (safe). -/
  | noFault
  deriving DecidableEq, Repr

/-- Why a command is refused. -/
inductive Refusal where
  /-- The command has no meaning in this model yet; raised by Dispatch alone (safe: nothing runs). -/
  | notModelled (mnemonic : String)
  deriving DecidableEq, Repr

/-! ### Angle unit and event table (02_angle_domains.md) -/

/-- A measurement on its way from its source to the angle unit (R25, R26). -/
structure Meas where
  /-- ACLK of the latch. -/
  at_ : Nat
  /-- False where the harbour marks it invalid (R28); a network-time sample taken while UNSYNC = 1 (R29). -/
  valid : Bool
  /-- The measured angle with its extending bits (R23); for resolver and mains the phase error instead. -/
  value : BitVec 80
  /-- True where `value` holds a phase error (low 48 bits, signed) and not an angle. -/
  isErr : Bool
  /-- The estimate at the latch where the interface keeps its own copy (R26). -/
  latch : Option (BitVec 80)
  deriving DecidableEq, Repr

/-- One tracker (R21). -/
structure Tracker where
  /-- The 80-bit angle estimate: stamp and 16 extending bits (R21). -/
  theta : BitVec 80
  /-- The signed velocity in fine units per ACLK (R21). -/
  omega : BitVec 48
  /-- The estimates of the ACLKs before this one, newest first, at most 4,096 (R25). -/
  hist : List (BitVec 80)
  /-- The estimate at the end of the previous ACLK: landfalls between it and `theta` are being reached (R30, R466). -/
  prev : BitVec 80
  /-- The estimate 4 ACLK ahead as of the previous ACLK (R37, R43). -/
  prev4 : BitVec 80
  /-- The velocity at the end of the previous ACLK: what places an EDGE of this ACLK (R39). -/
  prevOmega : BitVec 48
  /-- What the measurements that arrived in this ACLK add to angle and velocity in the next one (R27). -/
  corrP : Int
  corrI : Int
  /-- The LANDFALL of this ACLK has acted (R466). -/
  lfDone : Bool
  /-- The estimate before a jump that came after the LANDFALL of this ACLK had acted: from it the landfalls of the next ACLK are passed (log entry 199). -/
  lfFrom : Option (BitVec 80)
  /-- The count modulo CPR of an incremental source and its revolution count (R23). -/
  count : Nat
  revs : BitVec 32
  /-- The first Z pulse after the enable has been seen (R24). -/
  zSeen : Bool
  /-- The ACLK in which it set the count, and the count before: a transition of that ACLK comes before the pulse (R24, R177). -/
  zPre : Option (Nat × Nat)
  /-- The last MT field of an SSI source and the wraps counted so far (R23). -/
  lastMt : Option Nat
  mtWraps : BitVec 32
  /-- The index of the next mark within a revolution (R23). -/
  markIdx : Nat
  /-- The predicted stamp of the mark awaited, once one has been seen (R28). -/
  markDue : Option (BitVec 80)
  /-- Consecutive accepted measurements, and consecutive missing or rejected ones (R29). -/
  accN : Nat
  lossN : Nat
  /-- The last accepted measurement since the enable and its ACLK (R32). -/
  lastMeas : Option (BitVec 80 × Nat)
  /-- Measurements latched and not yet arrived, oldest first (R25). -/
  inFlight : List Meas
  /-- ACLK of the last periodic latch (R22). -/
  lastLatch : Nat
  /-- The captured halves of ANG and MEAS reads (Table 02-6): ANG_HI, VEL_LO, VEL_HI, MEAS_HI. -/
  capAngHi : BitVec 32
  capVel : BitVec 48
  capMeasHi : BitVec 32
  /-- The measured angle a STROBE latched last (R32). -/
  meas : BitVec 64
  deriving DecidableEq, Repr

/-- A tracker after reset: everything zero. -/
def Tracker.reset : Tracker :=
  { theta := 0, omega := 0, hist := [], prev := 0, prev4 := 0, prevOmega := 0, corrP := 0, corrI := 0, lfDone := false, lfFrom := none, count := 0, revs := 0, zSeen := false, zPre := none,
    lastMt := none, mtWraps := 0, markIdx := 0, markDue := none, accN := 0, lossN := 0, lastMeas := none, inFlight := [],
    lastLatch := 0, capAngHi := 0, capVel := 0, capMeasHi := 0, meas := 0 }

/-- The tracker of AD7 after reset: enabled at its nominal velocity (R47). -/
def Tracker.reset7 : Tracker := { Tracker.reset with omega := 351844#48, prevOmega := 351844#48 }

/-- One event-table entry in use (Table 02-2). -/
structure EtEntry where
  w0 : BitVec 32
  w1 : BitVec 32
  w2 : BitVec 32
  w3 : BitVec 32
  deriving DecidableEq, Repr

/-- An action issued and on its issue path (R37). -/
structure Action where
  /-- The action code of Table 02-3. -/
  act : Nat
  arg0 : BitVec 32
  arg1 : BitVec 32
  /-- The list it came from, that list's domain and direction. -/
  list : Nat
  /-- The entry's 40-bit stamp. -/
  stamp : BitVec 40
  late : Bool
  /-- ACLK in which it takes effect. -/
  tf : Nat
  deriving DecidableEq, Repr

/-- The angle unit and the event table. -/
structure Angle where
  /-- AD0 to AD7: an unlisted tracker is at its reset state. -/
  ad : Tbl Tracker
  /-- Event-table entries by index; an unlisted index is free (R35). -/
  entries : Tbl (Option EtEntry)
  /-- Each list's entry indices in issue order (R40). -/
  lists : Tbl (List Nat)
  /-- Entries issued and being reinserted (R45). -/
  reins : List Nat
  /-- Lists that have issued in this ACLK, at most 16 (R38). -/
  issued : List Nat
  /-- Insertions completed so far: what the index choice of log entry 12 is applied to. -/
  insCount : Nat
  /-- Issued actions not yet in effect, oldest first (R37). -/
  acts : List Action
  /-- ACLK in which each mode-change slot was armed (R56). -/
  mcArmed : Tbl Nat
  deriving DecidableEq, Repr

/-- The angle unit after reset (Table 02-6, Table 02-7, R47). -/
def Angle.reset : Angle :=
  { ad := [],
    entries := [], lists := [], reins := [], issued := [], insCount := 0, acts := [], mcArmed := [] }

/-! ### Events and faults (15_ouvtan_commands.md, 18_faults_and_consistency.md) -/

/-- An event generated and not yet on the ring (R357). -/
structure Evt where
  code : Nat
  eseq : BitVec 32
  payload : List (BitVec 32)
  deriving DecidableEq, Repr

/-- The 100 ms window of one pair of F0 source and unit (R396). -/
structure F0Win where
  source : BitVec 8
  unit : BitVec 16
  start : Nat
  count : Nat
  frac : BitVec 32
  deriving DecidableEq, Repr

/-- A repair queued or running, oldest first: the head runs (R434 to R436). -/
structure Repair where
  /-- The isle, or 0x10000 + class * 256 + index of a harbour unit. -/
  unit : Nat
  /-- 0 empty, 1 word, 2 frame, 3 harbour rewrite, 4 by the copy-back (R438). -/
  kind : Nat
  /-- The fault source of Table 18-3. -/
  source : Nat
  /-- The word's address (word repair) or the frame's index (frame repair). -/
  what : Nat
  /-- ACLK of the detection. -/
  at_ : Nat
  deriving DecidableEq, Repr

/-- The firmware's event queue and the fault bookkeeping. -/
structure Events where
  /-- Events held for the ring, oldest first, at most 64 (R357). -/
  queue : List Evt
  /-- Events dropped since the last EVLOST event (R357). -/
  dropped : Nat
  /-- The enabled event classes (R394: 0x1FF after reset). -/
  mask : BitVec 9
  /-- Open F0 windows (R396). -/
  f0 : List F0Win
  /-- Repairs in order of detection (R436). -/
  repairs : List Repair
  /-- ACLKs of the F2 faults not older than 10 s (R440), newest first. -/
  f2 : List Nat
  /-- The F2 fault whose DISCARD event is still to be posted (R440). -/
  f2Open : Option Nat
  /-- An F3 fault has struck: until a device reset (R441). -/
  f3 : Bool
  /-- ACLKs of each task's F1 faults of the last second (R437), by task. -/
  f1Log : Tbl (List Nat)
  deriving DecidableEq, Repr

/-- No event, no fault. -/
def Events.reset : Events :=
  { queue := [], dropped := 0, mask := 0x1FF#9, f0 := [], repairs := [], f2 := [], f2Open := none, f3 := false, f1Log := [] }

/-! ### Cells and isles (03_cell_datapath.md, 05_isles_and_straits.md) -/

/-- One copy of a cell's registers (Table 03-1). Registers are keyed by their code in Table 04-2: w0–w7 0x00–0x07, FLG 0x0B,
p0–p3 0x0C–0x0F, b0–b3 0x10–0x13, l0–l3 0x14–0x17, lc0–lc2 0x18–0x1A; an unlisted one is 0. -/
structure CRegs where
  g : Tbl (BitVec 32)
  acc0 : BitVec 48
  acc1 : BitVec 48
  deriving DecidableEq, Repr

/-- A copy with every register 0. -/
def CRegs.zero : CRegs := { g := [], acc0 := 0, acc1 := 0 }

/-- What a result does when it becomes visible (Table 03-4). -/
inductive CEff where
  /-- A register by its code takes a value. -/
  | reg (code : Nat) (v : BitVec 32)
  /-- An accumulator takes a value. -/
  | acc (i : Nat) (v : BitVec 48)
  /-- Flags: the bits of `mask` take the bits of `v`. -/
  | flags (mask v : BitVec 16)
  /-- Sticky flags set (R62). -/
  | sticky (mask : BitVec 16)
  /-- A lagoon word is written (word address), by the direct access or the pointer access. -/
  | lagoon (addr : Nat) (direct : Bool) (v : BitVec 32)
  /-- The cell output takes a word, offered to the straits by SOUT on channel SCH; `harbour` tells whether harbour-link outbound
  registers load it (R87, R89, R140). -/
  | output (v : BitVec 32) (sout sch : Nat) (harbour : Bool)
  deriving DecidableEq, Repr

/-- A result on its way (R71): it lands at ACLK `due`, in both copies or in the shadow copy only. -/
structure CRes where
  due : Nat
  both : Bool
  eff : CEff
  deriving DecidableEq, Repr

/-- The run-ahead mark of an activation (R465): the task, the step, head or tail, and the step's commit ACLK. -/
structure RaMark where
  task : Nat
  step : Nat
  head : Bool
  commitAt : Option Nat
  deriving DecidableEq, Repr

/-- A token a context will emit (R95). -/
structure CTok where
  due : Nat
  desc : Nat
  tag : BitVec 8
  /-- Emitted by a context acting as head or tail (R119, R465). -/
  spec : Bool
  ra : Option RaMark
  deriving DecidableEq, Repr

/-- What a cell is doing. -/
inductive CMode where
  /-- No activation, or yielded in the current one (R111). -/
  | idle
  /-- Issues context `idx` next. -/
  | run (idx : Nat)
  /-- Issued wait-token context `at_`; its NEXT is `next` (R115). -/
  | waitToken (at_ next : Nat) (qp : Bool)
  /-- Issued landfall-sync context `at_` (R116); `reached` when the landfall came while the group was saved (R124). -/
  | waitLandfall (at_ next : Nat) (qp reached : Bool)
  /-- Stopped at a quiet point with the selected index (R77, R122). -/
  | quiet (sel : Nat)
  deriving DecidableEq, Repr

/-- One cell. -/
structure Cell where
  /-- The architectural and the shadow copy (R60). -/
  arch : CRegs
  shad : CRegs
  /-- The cell output (R87). -/
  out : BitVec 32
  mode : CMode
  /-- The group whose activation the cell runs. -/
  group : Nat
  /-- The first ACLK in which the next context may issue: one context per ACLK (R74). -/
  nextAt : Nat
  /-- The resume index of each group (R109). -/
  resume : Tbl Nat
  /-- Results not yet visible, in issue order (R71). -/
  pend : List CRes
  /-- Tokens not yet emitted, in issue order (R95). -/
  toks : List CTok
  /-- The decode cache (R76): the indices of the context words it holds, at most four, least recently used first. -/
  dcache : List Nat
  /-- The pass of each repeat level's block: 0 none, 1 the first, 2 a later one (R75, R76). -/
  pass : Tbl Nat
  deriving DecidableEq, Repr

/-- A cell after reset: idle, every register 0 (R60; log entry 18). -/
def Cell.reset : Cell :=
  { arch := CRegs.zero, shad := CRegs.zero, out := 0, mode := .idle, group := 0, nextAt := 0, resume := [], pend := [], toks := [],
    dcache := [], pass := [] }

/-- One cell group (R109 to R113); MASK, ENTRY, PLANE, PKEEP, PRI and EN are in IS_GRPg, ACTIVE in IS_STAT. -/
structure Group where
  pend : Bool
  /-- The pending firing has been counted in DEFER (R113). -/
  defd : Bool
  saved : Bool
  /-- A release credit is held (R115). -/
  rcred : Bool
  tag : BitVec 8
  actcnt : BitVec 8
  /-- The first ACLK in which the group is inactive after its last activation (R111). -/
  endAt : Nat
  /-- The run-ahead mark of the activation, and of the pending firing. -/
  ra : Option RaMark
  pendRa : Option RaMark
  /-- The pre-emption for the pending firing has been withdrawn (R123). -/
  noPre : Bool
  deriving DecidableEq, Repr

/-- A group after reset. -/
def Group.reset : Group :=
  { pend := false, defd := false, saved := false, rcred := false, tag := 0, actcnt := 0, endAt := 0, ra := none, pendRa := none, noPre := false }

/-- A firing request for a group (R110). -/
structure FireReq where
  group : Nat
  at_ : Nat
  ra : Option RaMark
  deriving DecidableEq, Repr

/-- A matching-store entry (R117): IS_MCFG and IS_MSTATE of the entry. -/
structure MEntry where
  arg : BitVec 6
  action : BitVec 2
  need : BitVec 8
  cur : BitVec 8
  pres : BitVec 8
  nextp : BitVec 8
  /-- One past the ACLK of its last completion: an entry completes at most once per ACLK. -/
  doneAt : Nat
  deriving DecidableEq, Repr

/-- An entry after reset: ACTION 0b11 (Table 05-7). -/
def MEntry.reset : MEntry := { arg := 0, action := 3, need := 0, cur := 0, pres := 0, nextp := 0, doneAt := 0 }

/-- A matching-store token on the lanes or at its entry (R117, R121). -/
structure LaneTok where
  /-- The emitting isle and the isle addressed. -/
  src : Nat
  isle : Nat
  entry : Nat
  slot : Nat
  tag : BitVec 8
  spec : Bool
  /-- The isle it has crossed into (R121). -/
  cur : Nat
  /-- ACLK in which it is applied. -/
  due : Nat
  deriving DecidableEq, Repr

/-- What a save slot keeps of one cell (R78, R122). -/
structure SavedCell where
  cell : Nat
  index : Nat
  flg : BitVec 16
  yld : Bool
  /-- 0 stopped at a quiet point, 1 wait-token, 2 landfall-sync. -/
  wait : Nat
  next : Nat
  /-- The landfall of a landfall-sync cell came while it was saved (R124). -/
  reached : Bool
  deriving DecidableEq, Repr

/-- A save slot's contents beside IS_SLOT0 or IS_SLOT1 (R122). -/
structure SaveSlot where
  cells : List SavedCell
  /-- FLG has been taken as it stands once every result has landed (R78). -/
  settled : Bool
  /-- The victim's run-ahead mark and tag. -/
  ra : Option RaMark
  deriving DecidableEq, Repr

/-- A pre-emption requested and not complete (R122, R123). -/
structure Preempt where
  victim : Nat
  group : Nat
  /-- ACLK of the request. -/
  at_ : Nat
  /-- ACLK of the last quiet-point context issued for it, if any. -/
  lastQp : Option Nat
  deriving DecidableEq, Repr

/-- A descriptor in progress at a general engine or a stream port (R295, R296, R300). -/
structure Xfer where
  trig : Nat
  /-- The descriptor's address (byte address in the lagoon's window for a stream port) and its words. -/
  desc : Nat
  w0 : BitVec 32
  w1 : BitVec 32
  src : Nat
  dst : Nat
  len : Nat
  next : Nat
  /-- Bytes written. -/
  prog : Nat
  /-- Where the data of the outstanding read goes, translated (R296). -/
  dpa : Nat
  /-- 0 ready to issue, 1 a read is outstanding, 2 a write is outstanding, 3 stopped on an IO fault. -/
  phase : Nat
  /-- The error the descriptor ends with once nothing is outstanding (Table 11-9). -/
  err : Option Nat
  deriving DecidableEq, Repr

/-- A lagoon access of a cell in this ACLK (R102): the pointer or the direct access, a read or a write, and of a performed write the word before
it, until a network-port write stands over it (R103). -/
structure Port where
  /-- Its place among the accesses noted in this ACLK. -/
  seq : Nat
  cell : Nat
  direct : Bool
  addr : Nat
  write : Bool
  old : Option (BitVec 32)
  deriving DecidableEq, Repr

/-- A word on a cell output that SOUT offers to an outbound channel (8 * side + channel) in the ACLK in which it reaches the output (R89). -/
structure Offer where
  chan : Nat
  cell : Nat
  word : BitVec 32
  deriving DecidableEq, Repr

/-- One isle. -/
structure Isle where
  cells : Tbl Cell
  groups : Tbl Group
  store : Tbl MEntry
  /-- Firing requests in the order of their arrival (R110). -/
  reqs : List FireReq
  /-- Which of the two copies is active (R125). -/
  copy : Bool
  /-- Context words by copy * 256 + cell * 16 + index (R81, R125). -/
  ctx : Tbl (BitVec 128)
  /-- Plane bytes by copy * 4096 + plane * 256 + byte (R104, R125). -/
  planes : Tbl (BitVec 8)
  /-- Route entries of the staged partial image written so far: plane * 256 + byte (R106). -/
  routed : List Nat
  /-- Outbound channel registers by 8 * side + channel (R107). -/
  strait : Tbl (BitVec 32)
  /-- Outbound channels marked fresh in this ACLK (R107). -/
  fresh : List Nat
  /-- The same words and marks as they stood at the end of the last ACLK: what the receiving side reads in this one (R107). -/
  straitV : Tbl (BitVec 32)
  freshV : List Nat
  /-- Outbound harbour-link channels the harbour has taken in this ACLK (R165). -/
  taken : List Nat
  /-- Words the harbour has put on the inbound harbour-link channels, and those new in this ACLK; and both as the isle reads them in this
  ACLK (R108, R164). -/
  hin : Tbl (BitVec 32)
  hinFresh : List Nat
  hinV : Tbl (BitVec 32)
  hinFreshV : List Nat
  /-- Save slots by number (R122); VICTIM, PREEMPTOR, VALID and APL are in IS_SLOT0 and IS_SLOT1. -/
  save : Tbl (Option SaveSlot)
  /-- Pre-emptions requested and not complete, oldest first (R113, R122). -/
  pre : List Preempt
  /-- Groups to start at an ACLK because a pre-emption for them completed (R122): group and ACLK. -/
  preStart : List (Nat × Nat)
  /-- Words offered to outbound channels in this ACLK (R89). -/
  offers : List Offer
  /-- Lagoon accesses of the cells in this ACLK (R102). -/
  ports : List Port
  /-- A bank conflict of this ACLK has been reported (R102). -/
  conflicted : Bool
  /-- Lagoon words written in this ACLK with their old values: the cells' reads of this ACLK return them (Table 03-4, R103). -/
  old : Tbl (BitVec 32)
  /-- Stream-trigger tokens that reach the port in the next ACLK (R121), triggers queued, at most four (R128), and the transfer in progress. -/
  trigs : List Nat
  sq : List Nat
  xfer : Option Xfer
  /-- ACLK in which the copy-back of R125 ends, while it runs. -/
  copyEnd : Option Nat
  /-- Why the isle's clock is gated: loading (R127), a repair (R434); the register GATED shows either. -/
  gateLoad : Bool
  gateFault : Bool
  /-- Undo buffer of the snapshot drains: slot, word address and old value, at most 64 (R158). -/
  undo : List (Nat × Nat × BitVec 32)
  deriving DecidableEq, Repr

/-- An isle after reset: contexts, planes and registers 0 (log entry 18). -/
def Isle.reset : Isle :=
  { cells := [], groups := [], store := [], reqs := [], copy := false, ctx := [], planes := [], routed := [], strait := [],
    fresh := [], straitV := [], freshV := [], taken := [], hin := [], hinFresh := [], hinV := [], hinFreshV := [], save := [], pre := [], preStart := [], offers := [], ports := [],
    conflicted := false, old := [], trigs := [], sq := [], xfer := none, copyEnd := none, gateLoad := false, gateFault := false, undo := [] }

/-! ### Run-ahead controller and snapshots (06_run_ahead.md) -/

/-- An open step of a loop task (R134). -/
structure LStep where
  k : Nat
  stamp : BitVec 64
  /-- Opened without a head because it lay beyond the depth (R135). -/
  noHead : Bool
  /-- The ACLK in which its prediction request is to be issued, while it is queued (R135, R149, R150). -/
  reqDue : Option Nat
  /-- The ACLK of the request issued last, and whether its answer has been written (R136). -/
  reqAt : Option Nat
  answered : Bool
  /-- The prediction: none while there is none or it is invalid (R31). -/
  pred : Option (BitVec 64)
  predInvalid : Bool
  /-- ACLK for which the head is to fire, and whether it has fired (R135). -/
  headAt : Option Nat
  headFired : Bool
  /-- Bindings whose head activation has ended, and the first ACLK in which all have (R138). -/
  headEnds : Nat
  headEnd : Option Nat
  /-- The carry words read so far: isle, cell, register and word (R138). -/
  carried : List (Nat × Nat × Nat × BitVec 32)
  /-- The ACLK from which the carry registers hold the step's values (R138). -/
  carryAt : Option Nat
  /-- The latch ACLK L, what was measured and the PDOM velocity at L (R143, R149). -/
  latch : Option Nat
  meas : BitVec 64
  vel : BitVec 48
  /-- The policy pair of the check under way since the latch: POL, RES and TOL (R144). -/
  pair : Nat × Nat × Nat
  /-- The check has decided; the step runs its tail (R144, R145). -/
  checked : Bool
  passed : Bool
  tailAt : Option Nat
  tailFired : Bool
  /-- Bindings whose tail activation started in its ACLK (R151). -/
  tailStarts : Nat
  commitAt : Option Nat
  /-- The decision ACLK D of the squash it re-runs from, and whether the re-run has begun (R149). -/
  rerun : Option Nat
  rerunGo : Bool
  /-- Waiting to be replayed (R150), and the ACLK R of its request once that has been issued or would be. -/
  replay : Bool
  deriving DecidableEq, Repr

/-- A squash decided and not yet in effect (R148). -/
structure PendSquash where
  d : Nat
  /-- The squashed step; with `rerun` false every open step is squashed without a re-run (R152 to R154). -/
  k : Nat
  rerun : Bool
  /-- The squashed later steps become replays (R150, R152). -/
  replay : Bool
  /-- The cause came during the step's re-run, which it skips (R149). -/
  again : Bool
  deriving DecidableEq, Repr

/-- A loop task beside its AHD_LTt registers. -/
structure Task where
  /-- The open steps, oldest first; the first is the front step where it is open (R134). -/
  steps : List LStep
  /-- The lowest step not yet open, its stamp and the controller's accumulator for it (R133, R135). -/
  openK : Nat
  openS : BitVec 64
  openAcc : Nat
  /-- The oldest step whose latch has not been taken (R151). -/
  latchK : Nat
  latchS : BitVec 64
  latchAcc : Nat
  /-- FIRE actions queued behind replays (R150). -/
  fires : Nat
  /-- Squashes decided and not yet in effect, oldest first: one per ACLK of decision (R148). -/
  squash : List PendSquash
  /-- The policy pair in force: POL, RES and TOL (R144). -/
  pol : Nat
  res : Nat
  tol : Nat
  /-- ACLK in which the previous step committed or was skipped, or of the enable (R138). -/
  lastC : Nat
  deriving DecidableEq, Repr

/-- A disabled task. -/
def Task.reset : Task :=
  { steps := [], openK := 0, openS := 0, openAcc := 0, latchK := 0, latchS := 0, latchAcc := 0, fires := 0, squash := [],
    pol := 0, res := 0, tol := 0, lastC := 0 }

/-- A held token of a binding (R141): a scheduler token or a stream trigger. -/
structure HeldTok where
  isle : Nat
  kind : Nat
  num : Nat
  tag : BitVec 8
  deriving DecidableEq, Repr

/-- A run-ahead token on its way to the controller (R121, R142). -/
structure RaTok where
  task : Nat
  code : Nat
  /-- The step of the emitting activation, where the controller fired it. -/
  step : Option Nat
  due : Nat
  deriving DecidableEq, Repr

/-- A lagoon range of a record: where its words stand in the payload. -/
structure LagRange where
  isle : Nat
  base : Nat
  count : Nat
  pos : Nat
  deriving DecidableEq, Repr

/-- A snapshot record being drained (R157, R158). -/
structure SnapRec where
  stamp : BitVec 64
  status : Nat
  /-- The latched payload, zeros where lagoon ranges stand, and the list's isles. -/
  payload : List (BitVec 32)
  isles : List Nat
  start : Nat
  /-- The sequence number n of the record, its lagoon ranges still being copied, and whether an undo buffer has run over. -/
  seq : Nat
  ranges : List LagRange
  overrun : Bool
  deriving DecidableEq, Repr

/-- A snapshot slot beside its AHD_SNs registers. -/
structure Snap where
  record : Option SnapRec
  /-- STOP has been written (R155). -/
  stop : Bool
  /-- SNAPDONE for every record (EVT of SNAP_ARM, R384). -/
  evt : Bool
  deriving DecidableEq, Repr

/-- A slot after reset. -/
def Snap.reset : Snap := { record := none, stop := false, evt := false }

/-- The run-ahead controller. -/
structure Ahd where
  tasks : Tbl Task
  held : Tbl (List HeldTok)
  toks : List RaTok
  /-- One past the ACLK of the last prediction request: one per ACLK (R135). -/
  lastReq : Nat
  snaps : Tbl Snap
  deriving DecidableEq, Repr

/-- The run-ahead controller after reset. -/
def Ahd.reset : Ahd := { tasks := [], held := [], toks := [], lastReq := 0, snaps := [] }

/-- A token on its way to the scheduler's arrival queue (R270): number and value; a wake carries its thread. -/
structure SchedTok where
  /-- False: a token of the token store. True: a timed wake of a thread (R271). -/
  wake : Bool
  num : Nat
  value : BitVec 32
  /-- Its place among the items of one ACLK (R270): 0 token, 1 DMA completion token, 2 TS_POST, 3 WAKE; and the ACLK of its arrival. -/
  cls : Nat
  at_ : Nat
  deriving DecidableEq, Repr

/-! ### Memory integrity (12_memory_integrity.md) -/

/-- An entry of a merge buffer (R307). The merged bytes themselves are in `Dev.mem`, where every read finds them (R308). -/
structure MergeEnt where
  /-- The code word's address. -/
  addr : Nat
  /-- Bytes of the word written since the entry was taken, bit i for byte i. -/
  written : Nat
  /-- ACLK of the last write that reached it. -/
  at_ : Nat
  deriving DecidableEq, Repr

/-- A leaky bucket (R317). -/
structure Bucket where
  count : Nat
  ovfc : Nat
  /-- ACLK of its last leak. -/
  leak : Nat
  deriving DecidableEq, Repr

/-- A flip mask's use (R316): its ACLK, the number of the bank or instance written, and the code word. -/
structure FlipUse where
  at_ : Nat
  rank : Nat
  word : Nat
  deriving DecidableEq, Repr

/-- A row repair (R315). -/
structure RowRepair where
  /-- 0 Sound, 1 lagoon. -/
  cls : Nat
  isle : Nat
  bank : Nat
  row : Nat
  deriving DecidableEq, Repr

/-- The three copies of a control word (R306). -/
structure Tmr where
  a : BitVec 32
  b : BitVec 32
  c : BitVec 32
  deriving DecidableEq, Repr

/-- The state of the memory-integrity block beside its registers. -/
structure Integ where
  /-- Flipped bits of code words, by the word's address: data bits [63:0], check bits [71:64]. No entry: no error (R303). -/
  ecc : Tbl (BitVec 72)
  /-- Merge buffers: 0–15 Sound banks, 16 + n the lagoon of isle n (R307); least recently used first. -/
  merge : Tbl (List MergeEnt)
  buckets : Tbl Bucket
  /-- Position and ACLK of the last read of each background walk: 0 Sound, 1 + n lagoon n, 97 + c core c (R310). -/
  walkPos : Tbl Nat
  walkAt : Tbl Nat
  /-- The last use of each class's flip mask (R316). -/
  flipUsed : Tbl (Option FlipUse)
  /-- Position and ACLK of the configuration scrubber (R312). -/
  cfgPos : Nat
  cfgAt : Nat
  /-- Isles with a damaged frame that the copy-back rewrites (R438). -/
  cbRep : List Nat
  /-- The stored CRC-32 of frames (R303), as its difference from that of the frame the causeway wrote, by frame number; no entry: it matches. -/
  crc : Tbl (BitVec 32)
  /-- The frame that the configuration scrubber walks and nothing has written meanwhile (R313). -/
  walkFrame : Option Nat
  /-- Control words, by register address, whose three stored copies differ (R306). -/
  tmr : Tbl (Option Tmr)
  /-- Repairs in force since boot: of the fuse map and of the settings store (R315), and those skipped by class, isle and bank. -/
  fuse : List RowRepair
  applied : List RowRepair
  excess : List RowRepair
  deriving DecidableEq, Repr

/-- No error, nothing merged, no repair. -/
def Integ.reset : Integ :=
  { ecc := [], merge := [], buckets := [], flipUsed := [], walkPos := [], walkAt := [], cfgPos := 0, cfgAt := 0, cbRep := [], crc := [], walkFrame := none, tmr := [],
    fuse := [], applied := [], excess := [] }

/-! ### Harbour ports (07_harbour_ports.md) -/

/-- A running modulator clock (R168): the ACLK of its last bit latch, of the rising edge of the period in progress and of the next rising edge; 0 where
there is none. -/
structure Mclk where
  last : Nat
  rise : Nat
  next : Nat
  deriving DecidableEq, Repr

/-- A stopped clock. -/
def Mclk.reset : Mclk := { last := 0, rise := 0, next := 0 }

/-- A sigma-delta word on its way (R170): when it is ready, its bit latch, its value, whether it is invalid (R171, R435) and whether the input was
overloaded. -/
structure SdWord where
  due : Nat
  at_ : Nat
  value : BitVec 32
  bad : Bool
  ovl : Bool
  deriving DecidableEq, Repr

/-- A sigma-delta input beside its registers. -/
structure SdIn where
  /-- Bits latched since the enable, newest first, at most 768 (R170). -/
  bits : List Bool
  /-- Bit latches since the last free-running word. -/
  cnt : Nat
  /-- The filter's result at the last bit latch and at the one before. -/
  cur : SdWord
  prev : SdWord
  /-- Free-running words not yet ready, oldest first; whether the word in HP_SDi_FWORD is invalid, and its bit latch. -/
  free : List SdWord
  freeBad : Bool
  freeAt : Nat
  /-- Strobes whose word is not yet ready: t_f, and the word once it is settled (R170). -/
  strobes : List (Nat × Option SdWord)
  /-- Comparator result and consecutive results outside the limits (R172). -/
  cmp : BitVec 16
  outN : Nat
  /-- Tripped, and not inside the limits at a bit latch since (R172). -/
  spent : Bool
  /-- Trips on their way: the ACLK in which the input trips. -/
  trips : List Nat
  /-- The live comparator state the trip bank shows (Table 07-2). -/
  live : Bool
  deriving DecidableEq, Repr

/-- No word. -/
def SdWord.none : SdWord := { due := 0, at_ := 0, value := 0, bad := true, ovl := false }

/-- An input with cleared histories. -/
def SdIn.reset : SdIn :=
  { bits := [], cnt := 0, cur := SdWord.none, prev := SdWord.none, free := [], freeBad := true, freeAt := 0, strobes := [], cmp := 0,
    outN := 0, spent := false, trips := [], live := false }

/-- An LVDS lane beside its registers: consecutive good frames, and the last two valid frames with the latch ACLK of their last bit. -/
structure Lane where
  good : Nat
  cur : Option (Nat × BitVec 32)
  prev : Option (Nat × BitVec 32)
  deriving DecidableEq, Repr

/-- A lane without frames. -/
def Lane.reset : Lane := { good := 0, cur := none, prev := none }

/-- An encoder interface beside its registers. -/
structure EncIf where
  /-- Accepted levels of A and B (R176). -/
  a : Bool
  b : Bool
  /-- Consumers whose next measurement is invalid (R176): domain n as n, predictor p as 8 + p. -/
  bad : List Nat
  /-- The transitions of the ACLK `stepAt`, as a sum: what is counted on top of a write of CNT (R177). -/
  stepAt : Nat
  stepBy : Int
  /-- ACLK of the last accepted Z edge (R177). -/
  zAt : Option Nat
  /-- ACLK from which a change of A, of B and of Z can be accepted: FILT + 1 samples after the last accepted one (R176). -/
  aFrom : Nat
  bFrom : Nat
  zFrom : Nat
  deriving DecidableEq, Repr

/-- An interface after reset. -/
def EncIf.reset : EncIf := { a := false, b := false, bad := [], stepAt := 0, stepBy := 0, zAt := none, aFrom := 0, bFrom := 0, zFrom := 0 }

/-- An SSI interface beside its registers. -/
structure SsiIf where
  /-- The ACLK in which the frame in progress started (R178). -/
  start : Option Nat
  /-- The frame in progress was started by a STROBE. -/
  strobed : Bool
  /-- The ACLK of the last frame's last rising edge, once a frame has ended (R179). -/
  lastRise : Option Nat
  /-- ACLK of the last periodic start or of the enable. -/
  lastPer : Nat
  /-- The estimates copied at the start, by domain (R26). -/
  latch : Tbl (BitVec 80)
  /-- A frame has been valid since the enable. -/
  seen : Bool
  deriving DecidableEq, Repr

/-- An interface after reset. -/
def SsiIf.reset : SsiIf := { start := none, strobed := false, lastRise := none, lastPer := 0, latch := [], seen := false }

/-- A sample predictor (R180): `have` is have_last, `ready` have_slope, `x` x_last, `at_` t_last. -/
structure Pred where
  got : Bool
  ready : Bool
  x : BitVec 32
  slope : BitVec 48
  at_ : Nat
  /-- ACLK of the last periodic measurement or of the enable. -/
  lastPer : Nat
  deriving DecidableEq, Repr

/-- A cleared predictor. -/
def Pred.reset : Pred := { got := false, ready := false, x := 0, slope := 0, at_ := 0, lastPer := 0 }

/-- A placed PWM edge: its time in eighths of an ACLK and whether it turns the high side on (R183). -/
structure PwmEdge where
  at_ : Nat
  on : Bool
  deriving DecidableEq, Repr

/-- How a pair's sides stand (R182): the state before the edges that acted lately. -/
structure PwmCore where
  hs : Bool
  ls : Bool
  hiZ : Bool
  turnOn : Option (Nat × Bool)
  safe : Bool
  deriving DecidableEq, Repr

/-- A PWM pair beside its registers. -/
structure PwmPair where
  /-- The sides as they are now: HS and LS of the register show the start of the ACLK (R198). -/
  hs : Bool
  ls : Bool
  /-- Both sides high-impedance (R161, R162). -/
  hiZ : Bool
  /-- A turn-on that waits for its dead time: its time in eighths, and whether it is the high side's (R182). -/
  turnOn : Option (Nat × Bool)
  /-- Placed edges that have not acted, in order of time (R184), and those that acted in this ACLK or the one before: an edge placed now may come before
  them. -/
  edges : List PwmEdge
  acted : List PwmEdge
  /-- How the sides stood before the first of these, unless the pair has entered its safe state since, and the latest time in eighths up to which edges
  and dead times have taken their course. -/
  base : Option PwmCore
  upto : Nat
  /-- In the safe state, whether or not its cause has gone (R182). -/
  safe : Bool
  /-- Held by a staged partial image (R228); by a repair (R435). -/
  held : Bool
  repair : Bool
  /-- ACLK of the last trip (R185). -/
  tripAt : Option Nat
  /-- ACLK of the last registered command and the command before that ACLK (R183). -/
  cmdAt : Nat
  cmdPrev : BitVec 32
  deriving DecidableEq, Repr

/-- A pair after reset: in its safe state, high-impedance (R161). -/
def PwmPair.reset : PwmPair :=
  { hs := false, ls := false, hiZ := true, turnOn := none, edges := [], acted := [], base := none, upto := 0, safe := true, held := false, repair := false,
    tripAt := none, cmdAt := 0, cmdPrev := 0 }

/-- A GIO cell beside its registers. -/
structure GioCell where
  /-- The last ACLK of the strobe pulse, one past it (R188). -/
  pulseEnd : Option Nat
  /-- The capture ACLK of a mark edge not yet accepted (R187). -/
  mark : Option Nat
  /-- The level on the pin of an input, and the ACLK of its last change. -/
  pin : Bool
  pinAt : Option Nat
  held : Bool
  repair : Bool
  deriving DecidableEq, Repr

/-- A cell after reset. -/
def GioCell.reset : GioCell := { pulseEnd := none, mark := none, pin := false, pinAt := none, held := false, repair := false }

/-- A FIFO as it stood before the first write of an ACLK, and the writes since: a read of that ACLK comes first (R189). -/
structure FifoPrev where
  at_ : Nat
  items : List (BitVec 32 × Bool)
  packet : Option (List (BitVec 32) × Bool)
  fc : Bool
  stat : BitVec 32
  lost : BitVec 32
  writes : List (BitVec 32)
  deriving DecidableEq, Repr

/-- A harbour FIFO beside its registers. -/
structure HFifo where
  /-- Readable items, oldest first; the mark tells a length word (R192). -/
  items : List (BitVec 32 × Bool)
  /-- The open packet: its items and whether it is truncated (R191, R192). -/
  packet : Option (List (BitVec 32) × Bool)
  /-- The flow control that FILL and the watermarks give (R190). -/
  fc : Bool
  prev : Option FifoPrev
  held : Bool
  repair : Bool
  deriving DecidableEq, Repr

/-- An empty FIFO. -/
def HFifo.reset : HFifo := { items := [], packet := none, fc := false, prev := none, held := false, repair := false }

/-- What the harbour has under way and shows in a later ACLK (Table 07-3). -/
inductive HEv where
  /-- The latest frame word of a lane. -/
  | laneWord (lane : Nat) (v : BitVec 32)
  /-- The strobe word of a lane for the STROBE of ACLK `tf`. -/
  | laneStrobe (lane tf : Nat)
  /-- The strobe count of an encoder interface. -/
  | encStrobe (enc tf : Nat) (v : BitVec 32)
  /-- The data of an SSI frame. -/
  | ssiData (ssi tf : Nat) (data : BitVec 40) (status : BitVec 7) (strobed : Bool)
  /-- The comparator state of an input. -/
  | cmpLive (input : Nat) (out : Bool)
  /-- The pairs of a trip group enter their safe state (R172). -/
  | trip (group : Nat)
  deriving DecidableEq, Repr

/-- The harbour beside its registers. -/
structure Harb where
  mclk : Tbl Mclk
  sd : Tbl SdIn
  lane : Tbl Lane
  enc : Tbl EncIf
  ssi : Tbl SsiIf
  pwm : Tbl PwmPair
  gio : Tbl GioCell
  /-- GIO output bank words (R186). -/
  bank : Tbl (BitVec 32)
  fifo : Tbl HFifo
  /-- What becomes ready in a later ACLK, with that ACLK, oldest first. -/
  due : List (Nat × HEv)
  /-- Configuration registers written since reset: the harbour reference holds them (R435). -/
  refd : List Nat
  /-- A full image is being loaded (R161), and the registers of the GIO cells, the PWM pairs and the FIFOs that define the safe states, as the image before
  it has left them, by address. -/
  loading : Bool
  safeCfg : Tbl (BitVec 32)
  deriving DecidableEq, Repr

/-- The harbour after reset. -/
def Harb.reset : Harb :=
  { mclk := [], sd := [], lane := [], enc := [], ssi := [], pwm := [], gio := [], bank := [], fifo := [], due := [], refd := [], loading := false, safeCfg := [] }

/-! ### Control cores and MMU (09_control_cores.md) -/

/-- STATUS beside SLOT (Table 09-8). -/
structure CStat where
  priv : Bool
  tw : Bool
  df : Bool
  ie : Bool
  wcur : BitVec 3
  wres : BitVec 3
  mip : Bool
  deriving DecidableEq, Repr

/-- STATUS as a core starts at CP_RVEC (R241): PRIV alone is 1. -/
def CStat.start : CStat := { priv := true, tw := false, df := false, ie := false, wcur := 0, wres := 0, mip := false }

/-- The progress of a multiple transfer (R245). -/
structure MProg where
  mask : BitVec 32
  done : BitVec 32
  base : BitVec 64
  deriving DecidableEq, Repr

/-- No progress. -/
def MProg.zero : MProg := { mask := 0, done := 0, base := 0 }

/-- A thread's bank (Table 09-3). `pc` and `st` are those of a slot that is not active; the active slot's are the core's own. -/
structure Bank where
  pc : BitVec 64
  st : CStat
  wsp : BitVec 64
  ttb : BitVec 64
  mp : MProg
  /-- g1 to g7. -/
  g : Tbl (BitVec 64)
  /-- The 128 physical window registers. -/
  w : Tbl (BitVec 64)
  deriving DecidableEq, Repr

/-- A bank of zeros. -/
def Bank.zero : Bank := { pc := 0, st := { CStat.start with priv := false }, wsp := 0, ttb := 0, mp := MProg.zero, g := [], w := [] }

/-- A bank slot (R247): its bank, the thread it holds, and the ACLK in which a fill or an empty transfer ends. -/
structure BankSlot where
  bank : Bank
  thread : Option Nat
  /-- 0 settled, 1 being filled, 2 being emptied. -/
  move : Nat
  /-- For a fill, the thread's image address; the thread that moves. -/
  mover : Nat
  deriving DecidableEq, Repr

/-- An empty slot. -/
def BankSlot.reset : BankSlot := { bank := Bank.zero, thread := none, move := 0, mover := 0 }

/-- A line of a data cache (R249). -/
structure DLine where
  data : BitVec 512
  dirty : Bool
  deriving DecidableEq, Repr

/-- A translation held in a TLB (R253): the page or block number of its virtual address, and where it leads. -/
structure TlbEnt where
  asid : Nat
  glob : Bool
  big : Bool
  vpn : Nat
  pa : Nat
  mattr : Nat
  deriving DecidableEq, Repr

/-- A control core beside its CP registers. -/
structure CoreSt where
  pc : BitVec 64
  st : CStat
  /-- The active slot and the four slots. -/
  slot : Nat
  slots : Tbl BankSlot
  /-- Trap window (numbers 8 to 31) and double-fault bank (1 to 31) (R236). -/
  trapw : Tbl (BitVec 64)
  dfbank : Tbl (BitVec 64)
  epc : BitVec 40
  est : CStat
  cause : BitVec 32
  fva : BitVec 40
  tvec : BitVec 40
  dfepc : BitVec 40
  dfst : CStat
  dfcause : BitVec 32
  dffva : BitVec 40
  /-- Progress copies of trap mode and double-fault mode (R245). -/
  tm : MProg
  dm : MProg
  banksel : BitVec 16
  /-- A YIELD of trap mode waits for RETT (R243); idle in WAIT; idle because no thread is to run; a halt waits for the end of trap mode
  (R260). -/
  yieldReq : Bool
  waiting : Bool
  idle : Bool
  haltReq : Bool
  /-- ACLK of the core's reset: CYCLE counts from it (Table 09-8). -/
  born : Nat
  /-- Data-cache lines and instruction-cache lines by line address / 64, and TLB entries, oldest first. -/
  dc : Tbl DLine
  ic : Tbl (BitVec 512)
  tlb : List TlbEnt
  deriving DecidableEq, Repr

/-- A core after reset (R260): core 0 starts at CP_RVEC. -/
def CoreSt.reset : CoreSt :=
  { pc := 0x50000000, st := CStat.start, slot := 0, slots := [], trapw := [], dfbank := [], epc := 0, est := { CStat.start with priv := false },
    cause := 0, fva := 0, tvec := 0, dfepc := 0, dfst := { CStat.start with priv := false }, dfcause := 0, dffva := 0, tm := MProg.zero,
    dm := MProg.zero, banksel := 0, yieldReq := false, waiting := false, idle := false, haltReq := false, born := 0, dc := [], ic := [], tlb := [] }

/-- An IO translation fault (R256). -/
structure IoFault where
  req : Nat
  ioas : Nat
  /-- 1 read, 2 write. -/
  acc : Nat
  lvl : Nat
  kind : Nat
  va : Nat
  deriving DecidableEq, Repr

/-- The MMU beside its registers. -/
structure Mmu where
  /-- The shared second-level TLB and the IOTLB, oldest first (R253, R255). -/
  l2 : List TlbEnt
  io : List TlbEnt
  /-- Queued IO faults and those that wait for a queue entry, oldest first (R256). -/
  faults : List IoFault
  waiting : List IoFault
  /-- Requesters stopped on a fault and not yet released. -/
  stopped : List Nat
  deriving DecidableEq, Repr

/-- The MMU after reset. -/
def Mmu.reset : Mmu := { l2 := [], io := [], faults := [], waiting := [], stopped := [] }

/-! ### Thread scheduler (10_thread_scheduler.md) -/

/-- A thread's descriptor (Table 10-1) and what the scheduler keeps with it. -/
structure Thread where
  /-- 0 FREE, 1 READY, 2 RUNNING, 3 WAITING, 4 DELAYED, 5 SUSPENDED. -/
  state : Nat
  pri : BitVec 5
  aff : BitVec 4
  last : BitVec 2
  wpend : Bool
  /-- The core whose slot holds the image, and the slot (RES, SLOT). -/
  home : Option (Nat × Nat)
  bank : BitVec 40
  wtok : BitVec 12
  wtv : Bool
  wtt : Bool
  wtag : BitVec 16
  wval : BitVec 32
  swin : BitVec 32
  /-- The cause of the last wake, shown when the thread runs (TS_COREc_WAKE). -/
  wcause : Nat
  /-- The thread has not run since it was FREE: it starts with WRES = 1 (R237). -/
  fresh : Bool
  /-- One past the ACLK in which the thread last left a core (R267); 0 before. -/
  ran : Nat
  deriving DecidableEq, Repr

/-- A free thread. -/
def Thread.reset : Thread :=
  { state := 0, pri := 0, aff := 0, last := 0, wpend := false, home := none, bank := 0, wtok := 0, wtv := false, wtt := false, wtag := 0,
    wval := 0, swin := 0, wcause := 0, fresh := true, ran := 0 }

/-- A token-store entry (R270): mode, count and waiters in order of arrival. -/
structure TokEnt where
  mode : BitVec 2
  count : BitVec 16
  wait : List Nat
  deriving DecidableEq, Repr

/-- A disabled entry. -/
def TokEnt.reset : TokEnt := { mode := 0, count := 0, wait := [] }

/-- A requested switch (R266): the incoming thread and the ACLK in which the request reaches the core. -/
structure SwReq where
  thread : Nat
  due : Nat
  deriving DecidableEq, Repr

/-- The scheduler beside its registers. -/
structure Sched where
  threads : Tbl Thread
  toks : Tbl TokEnt
  /-- Ready lists by priority, oldest first (R263). -/
  ready : Tbl (List Nat)
  /-- One past the ACLK in which the store last applied an item (R270). -/
  applied : Nat
  /-- Threads to become READY in the next ACLK (R273). -/
  woken : List Nat
  /-- Running thread, pending switch and the thread that ran last, by core. -/
  running : Tbl (Option Nat)
  switch : Tbl (Option SwReq)
  lastOn : Tbl Nat
  /-- ACLK in which the bank transfer of a core ends (R247). -/
  moveEnd : Tbl Nat
  /-- Commands for a running thread that wait for its core's boundary (R274): operation, thread and argument. -/
  cmds : List (Nat × Nat × BitVec 32)
  /-- Trace records dropped and not yet told by a GAP record (R275). -/
  gap : Nat
  deriving DecidableEq, Repr

/-- The scheduler after reset. -/
def Sched.reset : Sched :=
  { threads := [], toks := [], ready := [], applied := 0, woken := [], running := [], switch := [], lastOn := [], moveEnd := [], cmds := [], gap := 0 }

/-! ### Packet network and DMA (11_packet_network_dma.md) -/

/-- A stay of a packet in an input queue (R285): of router `loc` below 24 at a port of Table 11-3, or at the NI 24 less than `loc`; the ACLK in which its
head enters, and, once it is granted, that of the grant. -/
structure Leg where
  loc : Nat
  port : Nat
  enter : Nat
  left : Option Nat
  deriving DecidableEq, Repr

/-- A packet on its way (R284): a request, the response to one, or a message on VC3. -/
structure Packet where
  /-- The requester's NI and the target's. -/
  src : Nat
  dst : Nat
  /-- The requester: engine 0 to 3 or 0x80 + isle (Table 02-3); of a POST, its event list. -/
  req : Nat
  write : Bool
  /-- The address, in host memory where `host` says so; of a POST, the queue. -/
  addr : Nat
  host : Bool
  len : Nat
  /-- Bytes written by a request or read by a response. -/
  data : List (BitVec 8)
  /-- Response status (Table 11-5). -/
  status : Nat
  /-- ACLK of issue. -/
  at_ : Nat
  /-- Held at its NI by a route commit (R283), or until a response frees a place (R288). -/
  held : Bool
  /-- The virtual channel (Table 11-4), the route codes left (R280), and where its flits are, newest first; empty at its NI. -/
  vc : Nat
  codes : List Nat
  legs : List Leg
  deriving DecidableEq, Repr

/-- A route commit that waits (R283). -/
structure RouteCommit where
  dest : Nat
  lo : BitVec 32
  hi : BitVec 32
  at_ : Nat
  deriving DecidableEq, Repr

/-- The arbiter of a router's output (R286): whether it is the turn of VC2 rather than VC0, the packets granted in that turn, and by VC the input port that
comes first. -/
structure Arb where
  two : Bool
  n : Nat
  next : Tbl Nat
  deriving DecidableEq, Repr

/-- An arbiter that has granted nothing. -/
def Arb.reset : Arb := { two := false, n := 0, next := [] }

/-- The network and the DMA engines beside their registers. -/
structure Net where
  /-- Requests, responses and messages under way, in the order of their issue. -/
  reqs : List Packet
  resps : List Packet
  msgs : List Packet
  /-- Arbiters by router * 7 + output port (R286). -/
  arb : Tbl Arb
  /-- Within a command: an access met a held NI, and the command does not happen yet (log entry 228). -/
  stall : Bool
  /-- Committed routes by NI * 64 + entry: LO and HI (R280, R281); an unlisted one is the default route. -/
  routes : Tbl (Option (BitVec 32 × BitVec 32))
  commit : Tbl (Option RouteCommit)
  /-- VC divisions in force (R285), and of a router that holds the ACLK in which it began and the division to apply (R292). -/
  qcfg : Tbl (BitVec 16)
  hold : Tbl (Option (Nat × BitVec 16))
  /-- VC3 queues by NI * 256 + queue: POST payloads, oldest first. -/
  vc3 : Tbl (List (BitVec 32))
  /-- Closed targets: isles, the Ethernet block (96 + x as the power domains number them) (R291). -/
  closed : List Nat
  /-- Captured high words of the byte counters by NI (R301): reads, writes. -/
  capRd : Tbl (BitVec 32)
  capWr : Tbl (BitVec 32)
  /-- Engines: queued triggers and the descriptor in progress. -/
  queue : Tbl (List Nat)
  eng : Tbl (Option Xfer)
  deriving DecidableEq, Repr

/-- The network after reset. -/
def Net.reset : Net :=
  { reqs := [], resps := [], msgs := [], arb := [], stall := false, routes := [], commit := [], qcfg := [], hold := [], vc3 := [], closed := [], capRd := [], capWr := [],
    queue := [], eng := [] }
/-! ### DRAM controller (13_dram_controller.md) -/

/-- A request queued at a channel (R327): the packet, and the ACLK of its arrival. -/
structure DReq where
  pkt : Packet
  at_ : Nat
  deriving DecidableEq, Repr

/-- A bank of a rank: its open row, the ACLK of its last access, and its activation tracker, row and count, oldest entry first (R328, R330). -/
structure DBank where
  row : Option Nat
  used : Nat
  track : List (Nat × Nat)
  deriving DecidableEq, Repr

/-- A closed bank, nothing tracked. -/
def DBank.reset : DBank := { row := none, used := 0, track := [] }

/-- A rank, by chip select: postponed refreshes, the ACLK of its last refresh interval and of its last request, and whether the interval that runs is the
halved one of a hot channel (R333). -/
structure DRank where
  post : Nat
  refAt : Nat
  used : Nat
  half : Bool
  deriving DecidableEq, Repr

/-- A rank after reset. -/
def DRank.reset : DRank := { post := 0, refAt := 0, used := 0, half := false }

/-- A migration to the spare (R341): the rank index, blocks in all, the ACLK in which the last step ended, and whether a step runs. -/
structure Migr where
  idx : Nat
  total : Nat
  at_ : Nat
  step : Bool
  deriving DecidableEq, Repr

/-- A throttled source (R331): the first ACLK of its next activation, and of the last one. -/
structure Thr where
  ni : Nat
  last : Nat
  deriving DecidableEq, Repr

/-- A DRAM channel beside its registers. -/
structure DChan where
  queue : List DReq
  banks : Tbl DBank
  ranks : Tbl DRank
  /-- Refresh commands in the present window of R330, and the sources throttled in it. -/
  refs : Nat
  thr : List Thr
  bucket : Bucket
  /-- Training at the channel's start (R323). -/
  training : Bool
  /-- The chip select retrained next, and the ACLK of the last pause (R336). -/
  turn : Nat
  trnAt : Nat
  /-- A pause asked for by DC_CHc_CTL.TRAIN that has not begun (R336). -/
  trnReq : Bool
  /-- Consecutive cool polls, and the ACLK of the last poll (R333). -/
  cool : Nat
  pollAt : Nat
  /-- Chip selects whose replay of a parity alert is under way (R337). -/
  replay : List Nat
  mig : Option Migr
  /-- The rank index the spare serves, and the indices out of service (R340, R342). -/
  spareFor : Option Nat
  dead : List Nat
  deriving DecidableEq, Repr

/-- A channel after reset. -/
def DChan.reset : DChan :=
  { queue := [], banks := [], ranks := [], refs := 0, thr := [], bucket := { count := 0, ovfc := 0, leak := 0 }, training := false, turn := 0,
    trnAt := 0, trnReq := false, cool := 0, pollAt := 0, replay := [], mig := none, spareFor := none, dead := [] }

/-! ### Images and configuration (08_configuration.md) -/

/-- A claim in the registry (R209, R210): class, first index or address, count or bytes, holder (1 full image, 2 partial image, 3 command, 4
firmware, 5 staged partial image) and the claiming TAG. -/
structure Claim where
  cls : Nat
  first : Nat
  len : Nat
  holder : Nat
  tag : BitVec 32
  deriving DecidableEq, Repr

/-- A unit's staged change (R53, R220, R221): isle n as n, harbour unit as 0x10000 + class * 256 + index, the event table as 0x20000. -/
structure Staged where
  unit : Nat
  slot : Nat
  /-- A loaded isle (R220). -/
  loaded : Bool
  /-- Staged configuration writes of a harbour unit, and seeds of the event table, four words each. -/
  csr : List (Nat × BitVec 32)
  seeds : List (List (BitVec 32))
  deriving DecidableEq, Repr

/-- A full image's load (R213). -/
structure CfgLoad where
  /-- 0 none, 1 the header is awaited, 2 streaming, 3 applying, 4 applied and awaiting release. -/
  phase : Nat
  /-- Source address, bytes available there, whether it is host memory, and the staging address. -/
  src : Nat
  len : Nat
  host : Bool
  /-- The source itself where a console frame brought it (R365). -/
  data : List (BitVec 8)
  stg : Nat
  /-- The CF_BOOT field it reports to: 0 trial, 1 primary, 2 golden; 3 a run-time load. -/
  field : Nat
  /-- What the boot walk tries next, field and flash offset (R218). -/
  walk : List (Nat × Nat)
  /-- The isles of ISLEMASK, once the header is in. -/
  mask : List Nat
  /-- The isles of ISLEMASK that step 6 has still to write (R214). -/
  todo : List Nat
  /-- ACLK in which the sections are applied (R424). -/
  at_ : Nat
  deriving DecidableEq, Repr

/-- No load. -/
def CfgLoad.reset : CfgLoad := { phase := 0, src := 0, len := 0, host := false, data := [], stg := 0, field := 3, walk := [], mask := [], todo := [], at_ := 0 }

/-- The ICP beside its registers (R221): its phase (0 none, 1 the header is awaited, 2 copying, 3 the tag, 4 the checks, 5 waiting to start a unit, 6
writing a unit, 7 all units written), the ACLK from which the present one runs, the units still to stage, and the staging-set checks under way, isle and ACLK of their end. -/
structure Icp where
  phase : Nat
  at_ : Nat
  todo : List Nat
  checks : List (Nat × Nat)
  deriving DecidableEq, Repr

/-- An idle ICP. -/
def Icp.reset : Icp := { phase := 0, at_ := 0, todo := [], checks := [] }

/-- A readback beside its registers (R231): the record's payload with its status, once latched. -/
structure Rback where
  rec_ : Option (Nat × List (BitVec 32))
  stamp : BitVec 64
  /-- ACLK of the latch. -/
  at_ : Nat
  deriving DecidableEq, Repr

/-- An S command's operation under way (R371): its TAG, its opcode, and whether it came over the console. -/
structure FwOp where
  tag : BitVec 32
  op : Nat
  console : Bool
  deriving DecidableEq, Repr

/-- The configuration block and firmware's registry. -/
structure Cfg where
  claims : List Claim
  /-- Claims the staged partial image frees at its landfall (R210): class, first, count or bytes. -/
  releases : List (Nat × Nat × Nat)
  staged : List Staged
  /-- Acknowledgments on their way to the angle unit, slot and ACLK of arrival (R221). -/
  acks : List (Nat × Nat)
  load : CfgLoad
  icp : Icp
  rb : Rback
  /-- The isles of the running full image's ISLEMASK (R391), and the flash offset it was loaded from, if it was (R378). -/
  used : List Nat
  home : Option Nat
  /-- S commands whose operation runs (R371). -/
  ops : List FwOp
  deriving DecidableEq, Repr

/-- The configuration block after reset: firmware holds the first MiB of the Sound (R210), serial controllers 0, 4 and 5 (R406) and its insertion
port (R380). -/
def Cfg.reset : Cfg :=
  { claims := [{ cls := 0x13, first := 0, len := 0x100000, holder := 4, tag := 0 }, { cls := 0x15, first := 0, len := 1, holder := 4, tag := 0 },
      { cls := 0x15, first := 4, len := 2, holder := 4, tag := 0 }, { cls := 0x0E, first := Config.fwPort.val, len := 1, holder := 4, tag := 0 }], releases := [], staged := [], acks := [],
    load := CfgLoad.reset, icp := Icp.reset, rb := { rec_ := none, stamp := 0, at_ := 0 }, used := [], home := none, ops := [] }

/-! ### Power, reset and boot (17_power_clocks_boot.md) -/

/-- A commit of the settings store in progress (R428): the record, its new sequence number and the SEQ of the bank being written. -/
structure SsCommit where
  id : Nat
  rseq : BitVec 32
  seq : BitVec 32
  bank : Nat
  deriving DecidableEq, Repr

/-- Power, clocks, watchdog and the settings controller beside their registers. -/
structure Power where
  /-- Power is good and the PLLs have locked since the reset (R412, R423). -/
  good : Bool
  locked : Bool
  /-- The verification of the boot firmware has failed: no core runs (R423). -/
  failed : Bool
  /-- RESET_N is held low (R414). -/
  held : Bool
  /-- The start queue, the domain in its start step with the ACLK in which the step ends, and the domains asked to go off when it does (R417, R418). -/
  queue : List Nat
  cur : Option (Nat × Nat)
  offNext : Bool
  /-- Domains switching off, and those of them to be queued once they are off. -/
  going : List Nat
  again : List Nat
  /-- ACLK from which the watchdog counts, and whether its first expiry has come since the last kick (R416). -/
  wdtAt : Nat
  wdtHit : Bool
  /-- log2 of the divider in force for each isle row, by row (R422). -/
  rows : Tbl Nat
  /-- ACLK of the last write of each PC_ROWr (R422). -/
  rowAt : Tbl Nat
  /-- The commit of the settings store in progress (R428). -/
  commit : Option SsCommit
  /-- Retired ranks that firmware records once the settings controller is free (R340): channel and chip select. -/
  late : List (Nat × Nat)
  /-- Resets asked for by command, oldest first: KIND and the ACLK in which each acts (R375). -/
  asked : List (Nat × Nat)
  /-- The boot walk has ended (R218), and its BOOT event has been posted (R219). -/
  booted : Bool
  told : Bool
  deriving DecidableEq, Repr

/-- Power after reset: nothing up, nothing queued. -/
def Power.reset : Power :=
  { good := false, locked := false, failed := false, held := false, queue := [], cur := none, offNext := false, going := [], again := [],
    wdtAt := 0, wdtHit := false, rows := [], rowAt := [], commit := none, late := [], asked := [], booted := false, told := false }

/-! ### Host link and mailbox (14_host_link.md) -/

/-- A command fetched by firmware and not yet answered (R351, R353, R365). -/
structure Cmd where
  /-- It came over the console; its ring index otherwise. -/
  console : Bool
  idx : Nat
  op : Nat
  tag : BitVec 32
  plen : Nat
  nbuf : Nat
  /-- The 12 payload words. -/
  pay : List (BitVec 32)
  /-- The buffer data of a console frame. -/
  data : List (BitVec 8)
  deriving DecidableEq, Repr

/-- A console frame's entry as the device has sent it: the response's 16 words and its buffer data (R364). -/
structure ConFrame where
  words : List (BitVec 32)
  data : List (BitVec 8)
  deriving DecidableEq, Repr

/-- The mailbox and the host link beside their registers. -/
structure Mail where
  /-- Commands in progress, oldest first. -/
  cmds : List Cmd
  /-- The MSI-X table by 4 * vector + word (Table 14-2); an unlisted vector control word is 1, masked. -/
  msix : Tbl (BitVec 32)
  /-- The pending-bit array (R359). -/
  pba : BitVec 16
  /-- The ACLK of each vector's last message, one past it, and the vectors whose message waits for the end of the interval (R359). -/
  sent : Tbl Nat
  waits : List Nat
  /-- Responses sent on the console, oldest first: an output. -/
  out : List ConFrame
  /-- A console frame is being received; the ACLK of its last byte (R365). -/
  part : Option Nat
  /-- The console's bit rate in force (R364, R375). -/
  baud : Nat
  deriving DecidableEq, Repr

/-- The mailbox after reset. -/
def Mail.reset : Mail :=
  { cmds := [], msix := [], pba := 0, sent := [], waits := [], out := [], part := none, baud := 115200 }


/-! ### Ethernet and serial ports (16_network_ports.md) -/

/-- One descriptor ring of a port (R400): the registers that EN_Pp_RSEL selects. -/
structure EnRing where
  baseLo : BitVec 32
  baseHi : BitVec 32
  log2 : Nat
  tail : Nat
  head : Nat
  deriving DecidableEq, Repr

/-- A ring after reset (Table 16-4). -/
def EnRing.reset : EnRing := { baseLo := 0, baseHi := 0, log2 := 4, tail := 0, head := 0 }

/-- A frame being sent (R402, R404): its queue, its bytes on the line without FCS, its timestamp in quarter-ns and seconds, and whether its buffer met
a bus error. -/
structure TxFrame where
  queue : Nat
  bytes : List (BitVec 8)
  q : Nat
  s : Nat
  err : Bool
  deriving DecidableEq, Repr

/-- The Ethernet block beside its registers. -/
structure Eth where
  /-- Network time (R403): seconds, quarter-ns and sub-count fraction. -/
  sec : BitVec 48
  qns : Nat
  sub : BitVec 32
  /-- Quarter-ns that the steps of this ACLK add in the next one (R403). -/
  step : Int
  /-- EN_NT_S as a read of EN_NT_Q captured it (R408). -/
  cap : BitVec 48
  /-- Rings by port * 16 + ring (0-7 transmit queues, 8 receive). -/
  rings : Tbl EnRing
  /-- The frame each port is sending. -/
  tx : Tbl (Option TxFrame)
  /-- Event-table entries that the last EN_GCL of a port inserted (R393). -/
  gcl : Tbl (List Nat)
  deriving DecidableEq, Repr

/-- The Ethernet block after reset. -/
def Eth.reset : Eth := { sec := 0, qns := 0, sub := 0, step := 0, cap := 0, rings := [], tx := [], gcl := [] }

/-- An xSPI command that runs (R407): opcode, whether it sends the address, flash offset, direction, buffer in the Sound, bytes, and those read from the buffer. -/
structure XsCmd where
  op : Nat
  sends : Bool
  addr : Nat
  wr : Bool
  buf : Nat
  len : Nat
  data : List (BitVec 8)
  deriving DecidableEq, Repr

/-- The serial controllers beside their registers (R406): FIFOs, oldest first, by controller; the I²C command and the xSPI command that run. -/
structure Serial where
  utx : Tbl (List (BitVec 8))
  urx : Tbl (List (BitVec 8))
  stx : Tbl (List (BitVec 32))
  srx : Tbl (List (BitVec 32))
  i2c : List (BitVec 8)
  i2cRun : BitVec 32
  xs : Option XsCmd
  deriving DecidableEq, Repr

/-- The serial controllers after reset: every FIFO empty. -/
def Serial.reset : Serial := { utx := [], urx := [], stx := [], srx := [], i2c := [], i2cRun := 0, xs := none }


/-! ### The whole block -/

/-- Everything of the block but the embedded non-volatile memory and the command queue. -/
structure Dev where
  /-- The ACLK count since reset: the time of every command (log entry 1). -/
  now : Nat
  /-- The register file by address; an unlisted register reads its reset value (Regs.lean). -/
  regs : Tbl (BitVec 32)
  /-- W1C bits that hardware has set in this ACLK, by register: a write of this ACLK does not clear them (R5). -/
  flags : Tbl (BitVec 32)
  /-- Byte memory by physical address (R15); an unlisted byte reads 0 (log entry 2). -/
  mem : List Host.Cell
  /-- Host memory by 64-bit address, as the device's posted writes have left it (R354); an unlisted byte reads 0 (log entry 2). -/
  hmem : List Host.Cell
  /-- The angle unit and the event table. -/
  ang : Angle
  /-- Events and faults. -/
  ev : Events
  /-- Events posted on the console channel, oldest first (R357): an output. -/
  conEvents : List Evt
  /-- The number of free values the steps have taken: the model's own field (log entry 4), not the manual's. -/
  free : Nat
  /-- The 96 isles; an unlisted one is at its reset state. -/
  isles : Tbl Isle
  /-- Tokens for matching entries, in the order of their emission (R121). -/
  lane : List LaneTok
  /-- The run-ahead controller and the snapshot slots. -/
  ahd : Ahd
  /-- Tokens and wakes sent to the scheduler and not yet queued, oldest first (R121, R270). -/
  schedIn : List SchedTok
  /-- Items that wait at the input of the full arrival queue, in order of arrival (R270). -/
  schedWait : List SchedTok
  /-- Codes, scrubbers, merge buffers and spares. -/
  integ : Integ
  /-- The 48 sample predictors (R180); an unlisted one is cleared. -/
  preds : Tbl Pred
  /-- The harbour ports beside the predictors. -/
  hb : Harb
  /-- The data the last read command returned (log entry 21): an output. -/
  rdData : BitVec 32
  /-- The four control cores. -/
  cores : Tbl CoreSt
  /-- The MMU. -/
  mmu : Mmu
  /-- The thread scheduler. -/
  sched : Sched
  /-- The packet network and the DMA engines. -/
  net : Net
  /-- The two DRAM channels beside their registers. -/
  dram : Tbl DChan
  /-- Images, the ICP, staged changes and claims. -/
  cfg : Cfg
  /-- Power domains, clocks, the watchdog and the settings controller. -/
  power : Power
  /-- The mailbox and the host link. -/
  mail : Mail
  /-- The Ethernet block beside its registers. -/
  eth : Eth
  /-- The serial controllers beside their registers. -/
  ser : Serial
  deriving DecidableEq, Repr

/-- The block after reset. -/
def Dev.reset : Dev :=
  { now := 0, regs := [], flags := [], mem := [], hmem := [], ang := Angle.reset, ev := Events.reset, conEvents := [], free := 0, isles := [], lane := [], ahd := Ahd.reset, schedIn := [], schedWait := [], integ := Integ.reset, preds := [], hb := Harb.reset, rdData := 0, cores := [], mmu := Mmu.reset, sched := Sched.reset, net := Net.reset, dram := [], cfg := Cfg.reset, power := Power.reset, mail := Mail.reset, eth := Eth.reset, ser := Serial.reset }

/-- One key slot of the embedded non-volatile memory (R211): 0 EMPTY, 1 ACTIVE, 2 REVOKED, stored three times (R306). -/
structure KeySlot where
  state : BitVec 2
  copy1 : BitVec 2
  copy2 : BitVec 2
  key : List (BitVec 8)
  deriving DecidableEq, Repr

/-- The embedded non-volatile memory and the settings store: it outlives every reset (R414, R427). -/
structure Nv where
  /-- The four key slots (R211). -/
  keys : Tbl KeySlot
  /-- The image floor (R212). -/
  floor : BitVec 32
  deriving DecidableEq, Repr

/-- An empty key slot. -/
def KeySlot.empty : KeySlot := { state := 0, copy1 := 0, copy2 := 0, key := [] }

/-- The non-volatile memory as delivered: no key, floor 0 (log entry 16). -/
def Nv.reset : Nv := { keys := [], floor := 0 }

/-- The state of the model: the commands that wait, first in first out, the non-volatile memory and the rest. -/
structure State where
  pending : List Instr
  nv : Nv
  dev : Dev
  deriving DecidableEq, Repr

/-- The machine right after reset, nothing pending. -/
def State.reset : State := { pending := [], nv := Nv.reset, dev := Dev.reset }

end Sys2Proof.Machine
end

