-- ==== Sys2Proof/Machine/Ops.lean ====
section
/-! DEFINITION. The named operations every unit uses: fields of the register file (R4), bytes and words of memory (R3, R15), time. -/
namespace Sys2Proof.Machine

/-! ### Fields of words -/

/-- Bits [hi:lo] of a word as a number. -/
def wbits {n : Nat} (w : BitVec n) (hi lo : Nat) : Nat := bits w.toNat hi lo

/-- Bit `i` of a word. -/
def wbit {n : Nat} (w : BitVec n) (i : Nat) : Bool := w.toNat / 2 ^ i % 2 = 1

/-- A 32-bit word from a number, modulo 2^32. -/
def w32 (x : Nat) : BitVec 32 := BitVec.ofNat 32 x

/-- The word `w` with bits [hi:lo] replaced by the low bits of `v`. -/
def wput (w : BitVec 32) (hi lo v : Nat) : BitVec 32 :=
  w32 (w.toNat - bits w.toNat hi lo * 2 ^ lo + v % 2 ^ (hi + 1 - lo) * 2 ^ lo)

/-! ### The register file -/

/-- The register at address `a`. -/
def Dev.reg (d : Dev) (a : Nat) : BitVec 32 := tget (regReset a) d.regs a

/-- The block with the register at `a` holding `v`. -/
def Dev.setReg (d : Dev) (a : Nat) (v : BitVec 32) : Dev := { d with regs := tset (regReset a) d.regs a v }

/-- A field of a register as a number. -/
def Dev.rd (d : Dev) (f : Fld) : Nat := wbits (d.reg f.addr) f.hi f.lo

/-- A field is not zero. -/
def Dev.on (d : Dev) (f : Fld) : Bool := d.rd f ≠ 0

/-- The block with a field holding the low bits of `v`. -/
def Dev.wr (d : Dev) (f : Fld) (v : Nat) : Dev := d.setReg f.addr (wput (d.reg f.addr) f.hi f.lo v)

/-- The block with a field set to all ones of width 1, or cleared. -/
def Dev.wrb (d : Dev) (f : Fld) (b : Bool) : Dev := d.wr f (b2n b)

/-- The block with W1C bits of the register at `a` noted as set by hardware in this ACLK (R5). -/
def Dev.noteSet (d : Dev) (a m : Nat) : Dev := { d with flags := tset 0#32 d.flags a (tget 0#32 d.flags a ||| BitVec.ofNat 32 m) }

/-- Hardware sets a W1C bit: it stays over a clear of the same ACLK (R5). -/
def Dev.setFlag (d : Dev) (f : Fld) : Dev := (d.wr f 1).noteSet f.addr (2 ^ f.lo)

/-- Bit `i` of a field. -/
def Dev.rdBit (d : Dev) (f : Fld) (i : Nat) : Bool := d.rd f / 2 ^ i % 2 = 1

/-- The block with bit `i` of a field set or cleared. -/
def Dev.wrBit (d : Dev) (f : Fld) (i : Nat) (b : Bool) : Dev :=
  d.wr f (if d.rdBit f i = b then d.rd f else if b then d.rd f + 2 ^ i else d.rd f - 2 ^ i)

/-- Hardware sets bit `i` of a W1C field: it stays over a clear of the same ACLK (R5). -/
def Dev.setFlagBit (d : Dev) (f : Fld) (i : Nat) : Dev := (d.wrBit f i true).noteSet f.addr (2 ^ (f.lo + i))

/-- A write clears bit `i` of a W1C field, unless hardware has set it in this ACLK (R5). -/
def Dev.clearFlagBit (d : Dev) (f : Fld) (i : Nat) : Dev :=
  if (tget 0#32 d.flags f.addr).getLsbD (f.lo + i) then d else d.wrBit f i false

/-- The largest value of a field. -/
def Fld.top (f : Fld) : Nat := 2 ^ (f.hi + 1 - f.lo) - 1

/-- The block with a saturating counter field advanced by one. -/
def Dev.inc (d : Dev) (f : Fld) : Dev := if d.rd f < f.top then d.wr f (d.rd f + 1) else d

/-- The block with a saturating counter field advanced by `n`. -/
def Dev.incBy (d : Dev) (f : Fld) (n : Nat) : Dev := d.wr f (min f.top (d.rd f + n))

/-- Two registers read as one 64-bit value, low word first. -/
def Dev.rd64 (d : Dev) (lo hi : Nat) : BitVec 64 := BitVec.ofNat 64 ((d.reg lo).toNat + (d.reg hi).toNat * 2 ^ 32)

/-- Two registers written with a 64-bit value, low word first. -/
def Dev.wr64 (d : Dev) (lo hi : Nat) (v : BitVec 64) : Dev :=
  (d.setReg lo (w32 v.toNat)).setReg hi (w32 (v.toNat / 2 ^ 32))

/-- What a write of `v` to a register of row `r` that holds `old` leaves (R4, Table 00-2): RW fields take the value, W1C bits written 1 clear,
W1S bits written 1 set, RO fields stay, WO and reserved fields hold 0 (R6). -/
def accessWrite (r : RegRow) (old v : BitVec 32) : BitVec 32 :=
  w32 (Nat.lor (Nat.land v.toNat r.rw)
    (Nat.lor (Nat.land (old.toNat - Nat.land old.toNat v.toNat) r.w1c)
      (Nat.lor (Nat.land (Nat.lor old.toNat v.toNat) r.w1s) (Nat.land old.toNat r.ro))))

/-- A write that only the access codes govern (R4): W1C bits that hardware has set in this ACLK stay (R5); an offset that holds no register is left alone
(R18). -/
def Dev.plainWrite (a : Nat) (v : BitVec 32) (d : Dev) : Dev :=
  match regRow? a with
  | some r => d.setReg a (accessWrite r (d.reg a) (v &&& ~~~(tget 0#32 d.flags a &&& BitVec.ofNat 32 r.w1c)))
  | none => d

/-! ### Memory -/

/-- The canonical form of a memory: addresses strictly rising, no byte listed that reads 0. -/
def Memory.wf (m : List Host.Cell) : Bool := twf 0#8 m

/-- One byte of memory; an unlisted byte reads 0. -/
def Dev.byte (d : Dev) (a : Nat) : BitVec 8 := tget 0#8 d.mem a

/-- The block with one byte of memory written. -/
def Dev.setByte (d : Dev) (a : Nat) (v : BitVec 8) : Dev := { d with mem := tset 0#8 d.mem a v }

/-- `n` bytes of memory from `a` as a number, little-endian (R3). -/
def Dev.load (d : Dev) (a : Nat) : Nat → Nat
  | 0 => 0
  | n + 1 => (d.byte a).toNat + 256 * d.load (a + 1) n

/-- The block with the low `n` bytes of a number stored from `a`, little-endian (R3). -/
def Dev.store (d : Dev) (a : Nat) : Nat → Nat → Dev
  | 0, _ => d
  | n + 1, v => (d.setByte a (BitVec.ofNat 8 v)).store (a + 1) n (v / 256)

/-- A 32-bit word of memory. -/
def Dev.load32 (d : Dev) (a : Nat) : BitVec 32 := w32 (d.load a 4)

/-- The block with a 32-bit word stored. -/
def Dev.store32 (d : Dev) (a : Nat) (v : BitVec 32) : Dev := d.store a 4 v.toNat

/-- `n` bytes of memory from `a`, lowest address first. -/
def Dev.loadBytes (d : Dev) (a : Nat) : Nat → List (BitVec 8)
  | 0 => []
  | n + 1 => d.byte a :: d.loadBytes (a + 1) n

/-- The block with bytes stored from `a`. -/
def Dev.storeBytes (d : Dev) (a : Nat) : List (BitVec 8) → Dev
  | [] => d
  | b :: bs => (d.setByte a b).storeBytes (a + 1) bs

/-- The block with words stored from `a`, low address first. -/
def Dev.storeWords (d : Dev) (a : Nat) : List (BitVec 32) → Dev
  | [] => d
  | w :: ws => (d.store32 a w).storeWords (a + 4) ws

/-- `n` bytes of host memory from `a`. -/
def Dev.hostBytes (d : Dev) (a : Nat) : Nat → List (BitVec 8)
  | 0 => []
  | n + 1 => tget 0#8 d.hmem a :: d.hostBytes (a + 1) n

/-- The block with bytes written to host memory from `a`. -/
def Dev.hostStore (d : Dev) (a : Nat) : List (BitVec 8) → Dev
  | [] => d
  | b :: bs => Dev.hostStore { d with hmem := tset 0#8 d.hmem a b } (a + 1) bs

/-- The bytes of a word, low byte first (R3). -/
def wordBytes (w : BitVec 32) : List (BitVec 8) :=
  [BitVec.ofNat 8 w.toNat, BitVec.ofNat 8 (w.toNat / 2 ^ 8), BitVec.ofNat 8 (w.toNat / 2 ^ 16), BitVec.ofNat 8 (w.toNat / 2 ^ 24)]

/-- The bytes of a list of words. -/
def wordsBytes (ws : List (BitVec 32)) : List (BitVec 8) := ws.flatMap wordBytes

/-- Bytes as a number, low byte first. -/
def bytesNat : List (BitVec 8) → Nat
  | [] => 0
  | b :: bs => b.toNat + 256 * bytesNat bs

/-- Bytes as 32-bit words; `n` words, bytes beyond the list reading 0. -/
def bytesWords : List (BitVec 8) → Nat → List (BitVec 32)
  | _, 0 => []
  | bs, n + 1 => w32 (bytesNat (bs.take 4)) :: bytesWords (bs.drop 4) n

/-! ### Lists -/

/-- Replace the first element that satisfies `p` by its image. -/
def replaceFirst {α : Type} (p : α → Bool) (f : α → α) : List α → List α
  | [] => []
  | x :: xs => if p x then f x :: xs else x :: replaceFirst p f xs

/-- Take out the first element that satisfies `p`. -/
def takeFirst {α : Type} (p : α → Bool) : List α → Option (α × List α)
  | [] => none
  | x :: xs =>
    if p x then some (x, xs) else (takeFirst p xs).map (fun r => (r.1, x :: r.2))

/-- Apply an operation for every index below `n`, in rising order. -/
def forUpTo {σ : Type} (n : Nat) (f : Nat → σ → σ) (s : σ) : σ := (List.range n).foldl (fun s i => f i s) s

/-- Apply an operation for every element, in order. -/
def forList {α σ : Type} (xs : List α) (f : α → σ → σ) (s : σ) : σ := xs.foldl (fun s x => f x s) s

/-! ### Commands and outcomes -/

/-- The next state in which only the block changes. -/
def onDev (f : Dev → Dev) (s : State) : Host.Outcome State Fault Refusal := .next { s with dev := f s.dev }

/-! ### Triple-stored words (R306) -/

/-- The bitwise majority of three words. -/
def majority {n : Nat} (x y z : BitVec n) : BitVec n := (x &&& y) ||| (x &&& z) ||| (y &&& z)

/-- A minority copy has been rewritten from the vote. -/
def Dev.tmrFixed (d : Dev) : Dev := (d.setFlag MI_STAT_TMRFIX).inc MI_TMRCNT_CNT

/-- A read of the control word at address `a`: it holds the vote, and the copies agree again. -/
def Dev.vote (a : Nat) (d : Dev) : Dev :=
  match tget none d.integ.tmr a with
  | none => d
  | some t => (({ d with integ := { d.integ with tmr := tset none d.integ.tmr a none } } : Dev).setReg a (majority t.a t.b t.c)).tmrFixed

/-- The causeway's control words (R11, R306): the words it works from (log entry 87). -/
def causewayWords : List Nat :=
  [CF_ICP_SRC_LO, CF_ICP_SRC_HI, CF_ICP_LEN, CF_ICP_STG, CF_ICP_STGSZ, CF_ICP_LF_LO, CF_ICP_LF_HI, CF_ICP_CTL, CF_RB_CTL, CF_RB_LIST, CF_RB_N, CF_RB_DST, CF_RB_SIZE]

/-- Reads of several control words. -/
def Dev.votes (as : List Nat) (d : Dev) : Dev := if d.integ.tmr = [] then d else forList as Dev.vote d

/-- The state of a key slot (R211): every read votes. -/
def KeySlot.voted (k : KeySlot) : BitVec 2 := majority k.state k.copy1 k.copy2

/-- The copies of every key slot agree. -/
def Nv.agree (nv : Nv) : Bool := nv.keys.all (fun e => e.2.copy1 = e.2.state && e.2.copy2 = e.2.state)

/-- The non-volatile memory with every copy rewritten from the vote. -/
def Nv.mended (nv : Nv) : Nv :=
  if nv.agree then nv
  else { nv with keys := nv.keys.map (fun e => (e.1, { e.2 with state := e.2.voted, copy1 := e.2.voted, copy2 := e.2.voted })) }

/-- The block beside key slots whose copies are compared (R306; log entry 87). -/
def Dev.keysRead (nv : Nv) (d : Dev) : Dev := if nv.agree then d else d.tmrFixed

/-- The next state in which the block changes by what the non-volatile memory holds. -/
def onDevNv (f : Nv → Dev → Dev) (s : State) : Host.Outcome State Fault Refusal :=
  .next { s with nv := s.nv.mended, dev := f s.nv.mended (s.dev.keysRead s.nv) }

/-- The next state in which the block and the non-volatile memory change. -/
def onBoth (f : Nv → Dev → Nv × Dev) (s : State) : Host.Outcome State Fault Refusal :=
  .next { s with nv := (f s.nv.mended (s.dev.keysRead s.nv)).1, dev := (f s.nv.mended (s.dev.keysRead s.nv)).2 }

end Sys2Proof.Machine
end

