-- ==== Sys2Proof/Machine/Events.lean ====
section
/-! DEFINITION. Generating events (R357, R395) and aggregating F0 faults (R396). -/
namespace Sys2Proof.Machine

/-- The tracker of domain `n`, its reset state where the table lists none (R47 for AD7). -/
def Dev.ad (d : Dev) (n : Nat) : Tracker := tget (if n = 7 then Tracker.reset7 else Tracker.reset) d.ang.ad n

/-- The block with the tracker of domain `n` replaced. -/
def Dev.setAd (d : Dev) (n : Nat) (t : Tracker) : Dev :=
  { d with ang := { d.ang with ad := tset (if n = 7 then Tracker.reset7 else Tracker.reset) d.ang.ad n t } }

/-- The angle stamp of a domain: the upper 64 bits of the estimate (R21). -/
def Dev.stamp (d : Dev) (n : Nat) : BitVec 64 := BitVec.ofNat 64 ((d.ad n).theta.toNat / 2 ^ 16)

/-- The AD7 fraction now: word 3 of every entry (Table 14-4). -/
def Dev.ad7Frac (d : Dev) : BitVec 32 := BitVec.ofNat 32 (d.stamp 7).toNat

/-- Raise bit `i` of CP_IPEND in every core (R260). -/
def Dev.raiseIrq (i : Nat) (d : Dev) : Dev := forUpTo 4 (fun c d => d.setFlagBit (CP_IPEND_PEND c) i) d

/-- Raise an interrupt source in every core but one, where one is named. -/
def Dev.raiseIrqBut (but : Option Nat) (i : Nat) (d : Dev) : Dev := forUpTo 4 (fun c d => if but = some c then d else d.setFlagBit (CP_IPEND_PEND c) i) d

/-- The class of an event code (Table 15-15); `none` for the codes without a class. -/
def evClass (code : Nat) : Option Nat :=
  if code < 0x10 then none else if code < 0x12 then some 0 else if code = 0x12 then some 1 else if code < 0x30 then some 2
  else if code = 0x30 then some 3 else if code = 0x40 then some 4 else if code < 0x60 then some 5
  else if code = 0x60 then some 6 else if code = 0x70 then some 7 else some 8

/-- The sequence number after `n`: 0 is skipped (R357). -/
def nextEseq (n : BitVec 32) : BitVec 32 := if n + 1 = 0 then 1 else n + 1

/-- Generate an event whatever its class: number it and queue it, or drop and count it when 64 are held (R357). The console
copy is `conEvents`'s. -/
def Dev.genEvent (code : Nat) (pay : List (BitVec 32)) (d : Dev) : Dev :=
  let n := nextEseq (d.reg HL_ESEQ)
  let d := d.setReg HL_ESEQ n
  let e : Evt := { code := code, eseq := n, payload := pay }
  let d := if d.on HL_CTRL_CONEVT then { d with conEvents := d.conEvents ++ [e] } else d
  if d.ev.queue.length < 64 then
    ({ d with ev := { d.ev with queue := d.ev.queue ++ [e] } }).wr HL_EVQ_LEN (d.ev.queue.length + 1)
  else ({ d with ev := { d.ev with dropped := d.ev.dropped + 1 } }).setFlag HL_STAT_EVLOST

/-- Post an event: nothing happens where its class is masked (R395). -/
def Dev.post (code : Nat) (pay : List (BitVec 32)) (d : Dev) : Dev :=
  match evClass code with
  | none => d.genEvent code pay
  | some c => if wbit d.ev.mask c then d.genEvent code pay else d

/-- The FAULT event (Table 15-15). -/
def Dev.postFault (cls src unit count : Nat) (frac : BitVec 32) (d : Dev) : Dev :=
  d.post 0x60 [w32 cls, w32 src, w32 unit, w32 count, frac]

/-- An F0 fault (R396): the first of its source and unit posts at once and opens the 100 ms window; later ones count. -/
def Dev.f0 (src unit : Nat) (d : Dev) : Dev :=
  let hit := fun (w : F0Win) => w.source.toNat = src && w.unit.toNat = unit
  if d.ev.f0.any hit then
    let up := fun (w : F0Win) => { w with count := w.count + 1, frac := if w.count = 0 then d.ad7Frac else w.frac }
    { d with ev := { d.ev with f0 := replaceFirst hit up d.ev.f0 } }
  else
    let w : F0Win := { source := BitVec.ofNat 8 src, unit := BitVec.ofNat 16 unit, start := d.now, count := 0, frac := 0 }
    ({ d with ev := { d.ev with f0 := d.ev.f0 ++ [w] } }).postFault 0 src unit 1 d.ad7Frac

/-- 100 ms in ACLK. -/
def aclkPer100ms : Nat := 80000000

/-- The end of a 100 ms window: the counted faults post as one FAULT (R396). -/
def Dev.f0WindowEnd (src : BitVec 8) (unit : BitVec 16) (d : Dev) : Dev :=
  match takeFirst (fun w => w.source = src && w.unit = unit && decide (w.start + aclkPer100ms ≤ d.now)) d.ev.f0 with
  | none => d
  | some (w, rest) =>
    let d := { d with ev := { d.ev with f0 := rest } }
    if w.count = 0 then d else d.postFault 0 src.toNat unit.toNat w.count w.frac

/-- FAULT_WINDOW_END (R396). -/
def execFaultWindowEnd (src : BitVec 8) (unit : BitVec 16) (s : State) : Host.Outcome State Fault Refusal :=
  onDev (Dev.f0WindowEnd src unit) s

end Sys2Proof.Machine
end

