-- ==== Sys2Proof/Machine/Ecc.lean ====
section
/-! DEFINITION. Codes and their errors (R303, R304, R316 to R319): what a read of a code word meets, what is counted and logged. -/
namespace Sys2Proof.Machine

/-- The code word that holds an address: lagoon words have 4 bytes, the others 8 (Table 12-1). -/
def codeWord (a : Nat) : Nat := if 0x10000000 ≤ a ∧ a < 0x10C00000 then a / 4 * 4 else a / 8 * 8

/-- The region of an address (Table 12-3), for the memories that have one. -/
def regionOf (a : Nat) : Option Nat :=
  if a < 0x800000 then some (Config.soundBank (a / 8) % 16)
  else if 0x10000000 ≤ a ∧ a < 0x10C00000 then some (16 + (a - 0x10000000) / 0x20000)
  else if 0x20000000 ≤ a ∧ a < 0x20200000 then some (112 + (a - 0x20000000) / 0x80000)
  else if 0x30000000 ≤ a ∧ a < 0x30180000 then some (116 + (a - 0x30000000) % 0x60000 / 0x1000)
  else if 0x41000000 ≤ a ∧ a < 0x41080000 then some 212
  else none

/-- The class of a region's leak and threshold (R316, R317): 0 Sound, 1 lagoons, 2 core SRAM, 3 configuration memory. -/
def regionClass (r : Nat) : Nat := if r < 16 then 0 else if r < 112 then 1 else if r < 116 then 2 else 3

/-- The number of set bits of a mask. -/
def popcount {n : Nat} (m : BitVec n) : Nat := ((List.range n).filter (fun i => m.getLsbD i)).length

/-- The error of a code word: 0 none, 1 correctable, 2 uncorrectable (R303; more than two flipped bits: log entry 20). -/
def Dev.wordErr (d : Dev) (a : Nat) : Nat := min 2 (popcount (tget 0#72 d.integ.ecc (codeWord a)))

/-- The block with a code word's error mask replaced. -/
def Dev.setErr (a : Nat) (m : BitVec 72) (d : Dev) : Dev :=
  { d with integ := { d.integ with ecc := tset 0#72 d.integ.ecc (codeWord a) m } }

/-- The bucket of a region. -/
def Dev.bucket (d : Dev) (r : Nat) : Bucket := tget { count := 0, ovfc := 0, leak := 0 } d.integ.buckets r

/-- The block with a region's bucket replaced. -/
def Dev.setBucket (r : Nat) (b : Bucket) (d : Dev) : Dev :=
  { d with integ := { d.integ with buckets := tset { count := 0, ovfc := 0, leak := 0 } d.integ.buckets r b } }

/-- The leak period of region `r` has passed, in an ACLK before this one: an error of the leak's own ACLK is added first (R317). -/
def Dev.bucketLeak (r : Nat) (d : Dev) : Dev :=
  let d := d.votes [MI_LBk (regionClass r)]
  let b := d.bucket r
  let per := 800000 * max 1 (d.rd (MI_LBk_LEAKP (regionClass r)))
  if d.now ≤ b.leak + per then d else d.setBucket r { b with count := b.count - 1, leak := b.leak + per }

/-- Add one correctable error to a region's bucket (R317): at THRESH, a THRESH of 0 acting as 1, it overflows. -/
def Dev.bucketAdd (r a src : Nat) (d : Dev) : Dev :=
  let d := d.bucketLeak r
  let b := d.bucket r
  if max 1 (d.rd (MI_LBk_THRESH (regionClass r))) ≤ b.count + 1 then
    let d := ((d.setBucket r { b with count := 0, ovfc := min 65535 (b.ovfc + 1) }).setFlag MI_STAT_CE).raiseIrq 3
    d.post 0x50 [0, w32 r, w32 a, w32 (a / 2 ^ 32), w32 src]
  else d.setBucket r { b with count := b.count + 1 }

/-- The lowest set bit of a mask. -/
def lowBit {n : Nat} (m : BitVec n) : Nat := ((List.range n).find? (fun i => m.getLsbD i)).getD 0

/-- Log and count a correctable error (R317, R318). -/
def Dev.logCe (key a src : Nat) (d : Dev) : Dev :=
  match regionOf a with
  | none => d
  | some r =>
    let low := lowBit (tget 0#72 d.integ.ecc (codeWord key))
    let bit := if regionClass r = 1 ∧ 64 ≤ low then low - 32 else low
    let d := (d.wr MI_CELOG_LO_ADDR a).wr MI_CELOG_HI_ADDR (a / 2 ^ 32)
    ((d.wr MI_CELOG_HI_REGION r).wr MI_CELOG_HI_BIT bit).bucketAdd r a src

/-- Log an uncorrectable error (R318): the first since VALID was cleared, later ones are counted. Firmware posts MEMERR. -/
def Dev.logUe (a src : Nat) (d : Dev) : Dev :=
  match regionOf a with
  | none => d
  | some r =>
    let d := (d.setFlag MI_STAT_UE).raiseIrq 3
    let d :=
      if d.on MI_UELOG_HI_VALID then d.inc MI_UECNT_CNT
      else ((((d.wr MI_UELOG_LO_ADDR a).wr MI_UELOG_HI_ADDR (a / 2 ^ 32)).wr MI_UELOG_HI_REGION r).wr MI_UELOG_HI_SRC src).setFlag
        MI_UELOG_HI_VALID
    d.post 0x50 [1, w32 r, w32 a, w32 (a / 2 ^ 32), w32 src]

/-- The number of the bank or instance that a write reaches, within its class (R316). -/
def flipRank (a r : Nat) : Nat := if 0x10000000 ≤ a ∧ a < 0x10C00000 then a / 4 % 8 else r

/-- The flip mask of class `k`: data bits [63:0] and check bits [71:64]; lagoons use data bits [31:0] and check bits [6:0]. -/
def Dev.flipMask (d : Dev) (k : Nat) : BitVec 72 :=
  let hi := if k = 1 then 0 else (d.reg (MI_FLIPk_HI k)).toNat
  let chk := if k = 1 then d.rd (MI_FLIPk_CHK_CHK k) % 128 else d.rd (MI_FLIPk_CHK_CHK k)
  BitVec.ofNat 72 ((d.reg (MI_FLIPk_LO k)).toNat + hi * 2 ^ 32 + chk * 2 ^ 64)

/-- Store the word at `a` with the mask of class `k`, which is used. -/
def Dev.flipAt (k a r : Nat) (d : Dev) : Dev :=
  let d := d.setErr a (d.flipMask k)
  { d with integ := { d.integ with flipUsed := tset none d.integ.flipUsed k (some { at_ := d.now, rank := flipRank a r, word := codeWord a }) } }

/-- A whole-code-word write of the memory at `a` (R316): new check bits, but for a flip mask of its class. An armed mask is used up; a mask used in this
ACLK acts on the write to the lowest-numbered bank or instance. -/
def Dev.codeWrite (a : Nat) (d : Dev) : Dev :=
  match regionOf a with
  | none => d
  | some r =>
    let k := regionClass r
    let sel := d.rd (MI_FLIPk_CTL_SEL k)
    let hit := k = 0 ∨ k = 3 ∨ (k = 1 ∧ r = 16 + sel) ∨ (k = 2 ∧ r = 112 + sel)
    let d := d.setErr a 0
    if d.on (MI_FLIPk_CTL_ARM k) ∧ hit then (d.flipAt k a r).wr (MI_FLIPk_CTL_ARM k) 0
    else match tget none d.integ.flipUsed k with
      | some u => if u.at_ = d.now ∧ hit ∧ flipRank a r < u.rank then (d.setErr u.word 0).flipAt k a r else d
      | none => d

/-- A read meets the code word kept under `key` and logged as address `a` (R304, R319): true where it is uncorrectable. A correctable
word is corrected, counted and written back in the same command, before any other write can reach it; the write-back takes a flip mask (R316). -/
def Dev.eccReadAs (key a src : Nat) (d : Dev) : Bool × Dev :=
  match d.wordErr key with
  | 0 => (false, d)
  | 1 => (false, (d.logCe key a src).codeWrite key)
  | _ => (true, d.logUe a src)

/-- A read meets the code word at `a`. -/
def Dev.eccRead (a src : Nat) (d : Dev) : Bool × Dev := d.eccReadAs a a src

/-- The number of the frame that holds a code word of contexts or planes (R303): 256 bytes each, both copies counted. -/
def frameOf (a : Nat) : Option Nat := if 0x30000000 ≤ a ∧ a < 0x30180000 then some ((a - 0x30000000) / 256) else none

/-- The causeway has written a word of a frame: it computes the CRC, and the scrubber's comparison of this pass is skipped (R303, R313). -/
def Dev.frameWritten (a : Nat) (d : Dev) : Dev :=
  match frameOf a with
  | none => d
  | some f =>
    { d with integ := { d.integ with crc := tset 0#32 d.integ.crc f 0, walkFrame := if d.integ.walkFrame = some f then none else d.integ.walkFrame } }

/-- A whole-code-word write reaches the word at `a` (R309, R316), of a frame by the causeway. -/
def Dev.eccWrite (a : Nat) (d : Dev) : Dev := (d.frameWritten a).codeWrite a

end Sys2Proof.Machine
end

