-- ==== Sys2Proof/Machine/Angle.lean ====
section
/-! DEFINITION. The trackers (R21 to R33), network time on AD7 (R47, R48) and landfall arithmetic (R50, R54). -/
namespace Sys2Proof.Machine

/-- A fresh free value: `Config.freeValue` at the counter, which advances (log entry 4). -/
def Dev.fresh (d : Dev) : Nat × Dev := (Config.freeValue d.free, { d with free := d.free + 1 })

/-! ### Reading a tracker -/

/-- Domain `n` is enabled. -/
def Dev.adOn (d : Dev) (n : Nat) : Bool := d.rdBit AU_CTRL_EN n

/-- Domain `n`'s landfall direction is reverse (R50). -/
def Dev.adRev (d : Dev) (n : Nat) : Bool := d.on (AU_ADn_CFG_DIR n)

/-- The estimate `k` ACLK ahead at the present velocity: θ + k ω (R37, R55). -/
def Tracker.ahead (t : Tracker) (k : Nat) : BitVec 80 := t.theta + BitVec.ofInt 80 (t.omega.toInt * k)

/-- The estimate as it stood in ACLK `a` (R25): none when it is older than the history. -/
def Dev.thetaAt (d : Dev) (n a : Nat) : Option (BitVec 80) :=
  if d.now ≤ a then some (d.ad n).theta else (d.ad n).hist[d.now - a - 1]?

/-- A stamp as an estimate: the extending bits 0 (R30). -/
def stampTheta (s : BitVec 64) : BitVec 80 := BitVec.ofNat 80 (s.toNat * 2 ^ 16)

/-- `a` is at or past `b` in the direction `rev` (R30, R33). -/
def atOrPast (rev : Bool) (a b : BitVec 80) : Bool := if rev then (b - a).toInt ≥ 0 else (a - b).toInt ≥ 0

/-- The 40-bit difference of R34: how far `b` lies beyond `a` in the direction `rev`. -/
def diff40 (rev : Bool) (a b : BitVec 40) : Int := if rev then (a - b).toInt else (b - a).toInt

/-- The low 40 bits of the stamp of an estimate (R34). -/
def theta40 (t : BitVec 80) : BitVec 40 := BitVec.ofNat 40 (t.toNat / 2 ^ 16)

/-! ### Enabling, disabling, loading (R22, R29, R30) -/

/-- The source configuration of domain `n` passes the checks of R22 (Table 02-1). -/
def Dev.adCfgOk (d : Dev) (n : Nat) : Bool :=
  let src := d.rd (AU_ADn_CFG_SRC n)
  let inst := d.rd (AU_ADn_CFG_INST n)
  let cpr := d.rd (AU_ADn_CPR_CPR n)
  match src with
  | 0 => true
  | 1 => inst < 8 && 1 ≤ cpr && cpr ≤ 2 ^ 28
  | 2 => inst < 8 && cpr = cpr % 32 + cpr / 256 % 32 * 256
  | 3 => inst ≤ 46
  | 4 => inst ≤ 45
  | 5 => inst < 64 && 1 ≤ cpr && cpr ≤ 65536
  | 6 => n = 7
  | _ => false

/-- A jump of the estimate: landfalls it passes after the LANDFALL of this ACLK has acted are passed in the next one (R466, log entry 199). -/
def Tracker.jump (t : Tracker) (th : BitVec 80) : Tracker :=
  { t with theta := th, lfFrom := if t.lfDone && t.lfFrom.isNone then some t.theta else t.lfFrom }

/-- Load the stamp of `n` from AU_ADn_SET, extending bits 0 (R30). What a measurement of this ACLK adds in the next one (R27) is added to the loaded values
(log entry 200). -/
def Dev.loadAngle (n : Nat) (d : Dev) : Dev :=
  d.setAd n ((d.ad n).jump (stampTheta (d.rd64 (AU_ADn_SET_LO n) (AU_ADn_SET_HI n))))

/-- The velocity AU_ADn_VNOM holds (Table 02-6). -/
def Dev.vnom (d : Dev) (n : Nat) : BitVec 48 := BitVec.ofNat 48 (d.rd64 (AU_ADn_VNOM_LO n) (AU_ADn_VNOM_HI n)).toNat

/-- Load the velocity of `n` from AU_ADn_VNOM (R30). -/
def Dev.loadVel (n : Nat) (d : Dev) : Dev := d.setAd n { d.ad n with omega := d.vnom n }

/-- SETANG (R30): on AD7 only to a stamp ahead of the estimate (R33), else CFGERR bit 7. -/
def Dev.setAng (n : Nat) (d : Dev) : Dev :=
  if n = 7 ∧ ¬ 0 < (d.rd64 (AU_ADn_SET_LO n) (AU_ADn_SET_HI n) - d.stamp 7).toInt then d.setFlagBit AU_STAT_CFGERR 7
  else d.loadAngle n

/-- SETVEL (R30): refused on AD7. -/
def Dev.setVel (n : Nat) (d : Dev) : Dev := if n = 7 then d.setFlagBit AU_STAT_CFGERR 7 else d.loadVel n

/-- The start of a domain's tracker at its enable: stamp and velocity loaded, counts of R29 begun afresh, an incremental
source's count taken from its interface and its revolutions from AU_ADn_SET (log entry 17). -/
def Dev.startDomain (n : Nat) (d : Dev) : Dev :=
  let cpr := d.rd (AU_ADn_CPR_CPR n)
  let live := (d.reg (HP_ENCe_CNT (d.rd (AU_ADn_CFG_INST n)))).toNat
  let th := stampTheta (d.rd64 (AU_ADn_SET_LO n) (AU_ADn_SET_HI n))
  let old := d.ad n
  (d.setAd n { Tracker.reset with
      theta := th, omega := d.vnom n, prev := th, prev4 := th, prevOmega := d.vnom n,
      count := if d.rd (AU_ADn_CFG_SRC n) = 1 then live % cpr else 0, revs := d.reg (AU_ADn_SET_HI n),
      lastLatch := d.now, meas := old.meas, capAngHi := old.capAngHi, capVel := old.capVel, capMeasHi := old.capMeasHi })

/-- Setting an enable bit (R22): a refused enable leaves the bit 0 and sets CFGERR. An enabled domain is left as it is. -/
def Dev.enableDomain (n : Nat) (d : Dev) : Dev :=
  if d.adOn n then d
  else if d.adCfgOk n then (d.wrBit AU_CTRL_EN n true).startDomain n
  else d.setFlagBit AU_STAT_CFGERR n

/-- Clearing an enable bit (R29): LOCK clears, LOST keeps its value. AD7 is never disabled (Table 02-6). -/
def Dev.disableDomain (n : Nat) (d : Dev) : Dev :=
  if n = 7 then d
  else
    let t := d.ad n
    ((d.wrBit AU_CTRL_EN n false).wrBit AU_STAT_LOCK n false).setAd n
      { t with accN := 0, lossN := 0, inFlight := [], corrP := 0, corrI := 0 }

/-! ### Measurements (R23 to R29) -/

/-- The domain-loss rule of R29 after a missing or rejected measurement. AD7 never becomes lost. -/
def Dev.adLoss (n : Nat) (d : Dev) : Dev :=
  let t := d.ad n
  let d := d.setAd n { t with accN := 0, lossN := t.lossN + 1 }
  if n ≠ 7 ∧ d.rd (AU_ADn_CFG_LOSS n) ≠ 0 ∧ t.lossN + 1 = d.rd (AU_ADn_CFG_LOSS n) then
    let d := ((d.wrBit AU_STAT_LOCK n false).setFlagBit AU_STAT_LOST n).raiseIrq 4
    d.post 0x10 [w32 n, w32 (d.stamp n).toNat, w32 ((d.stamp n).toNat / 2 ^ 32), d.reg (AU_ADn_CNT n)]
  else d

/-- A missing measurement (R28). -/
def Dev.adMissing (n : Nat) (d : Dev) : Dev := (d.inc (AU_ADn_CNT_MISS n)).adLoss n

/-- A rejected measurement (R27). -/
def Dev.adReject (n : Nat) (d : Dev) : Dev := (d.inc (AU_ADn_CNT_REJ n)).adLoss n

/-- The lock rule of R29 after an accepted measurement: 16 consecutive ones lock the domain. -/
def Dev.adAccepted (n : Nat) (d : Dev) : Dev :=
  let t := d.ad n
  let d := d.setAd n { t with accN := t.accN + 1, lossN := 0 }
  if t.accN + 1 = 16 ∧ ¬ d.rdBit AU_STAT_LOCK n then
    let d := d.wrBit AU_STAT_LOCK n true
    d.post 0x11 [w32 n, w32 (d.stamp n).toNat, w32 ((d.stamp n).toNat / 2 ^ 32)]
  else d

/-- The arithmetic shift of R27, rounding toward minus infinity. -/
def asr (e : Int) (k : Nat) : Int := e / (2 ^ k : Nat)

/-- An accepted measurement with residual `e` (R27): the update follows in the next ACLK. -/
def Dev.adUpdate (n : Nat) (e : Int) (value : BitVec 80) (at_ : Nat) (d : Dev) : Dev :=
  let t := d.ad n
  (d.setAd n { t with corrP := t.corrP + asr e (d.rd (AU_ADn_TRK_KP n)), corrI := t.corrI + asr e (d.rd (AU_ADn_TRK_KI n)),
                      lastMeas := some (value, at_) }).adAccepted n

/-- A measurement reaches the angle unit (R25 to R28). -/
def Dev.measArrive (n : Nat) (m : Meas) (d : Dev) : Dev :=
  if ¬ m.valid then d.adMissing n
  else
    match (match m.latch with | some l => some l | none => d.thetaAt n m.at_) with
    | none => d.adMissing n
    | some th =>
      let value := if m.isErr then th + BitVec.ofInt 80 (BitVec.ofNat 48 m.value.toNat).toInt else m.value
      let e := (value - th).toInt
      let win := d.rd (AU_ADn_WIN_WIN n)
      if win ≠ 0 ∧ (win * 2 ^ 16 : Nat) < e.natAbs then d.adReject n else d.adUpdate n e value m.at_

/-- The oldest measurement in flight of domain `n` reaches the angle unit; AD7's samples are AD7_SAMPLE's. -/
def Dev.measurementArrival (n : Nat) (d : Dev) : Dev :=
  match (d.ad n).inFlight with
  | [] => d
  | m :: ms =>
    if n = 7 ∨ d.now < m.at_ then d
    else (d.setAd n { d.ad n with inFlight := ms }).measArrive n m

/-- The index of the mark after the next one: marks pass in rising order while the domain moves forward. -/
def Tracker.nextMark (t : Tracker) (m : Nat) : Nat := (if t.omega.toInt < 0 then t.markIdx + m - 1 else t.markIdx + 1) % m

/-- An expected mark has not arrived half a mark spacing after its predicted angle (R28): it counts as missing and the next mark
is awaited. -/
def Dev.markTimeout (n : Nat) (d : Dev) : Dev :=
  let t := d.ad n
  let m := d.rd (AU_ADn_CPR_CPR n)
  match t.markDue with
  | none => d
  | some due =>
    if d.adOn n ∧ d.rd (AU_ADn_CFG_SRC n) = 5 ∧
        atOrPast (decide (t.omega.toInt < 0)) t.theta
          (due + BitVec.ofInt 80 ((if t.omega.toInt < 0 then -1 else 1) * (2 ^ 47 / m : Nat))) then
      (d.setAd n { t with markIdx := t.nextMark m,
                          markDue := some (due + BitVec.ofInt 80 ((if t.omega.toInt < 0 then -1 else 1) * (2 ^ 48 / m : Nat))) }).adMissing n
    else d

/-! ### Network time on AD7 (R47, R48) -/

/-- The nominal velocity of AD7: 2^48 / 8 × 10^8, rounded (R47). -/
def ad7Nominal : Nat := 351844

/-- The action of R48 on an offset to network time, in 2^-48 s. -/
def Dev.ad7Act (off : Int) (d : Dev) : Dev :=
  let t := d.ad 7
  let s := min (Config.ad7Slew off) (ad7Nominal / 2 ^ 10)
  if (d.rd (AU_ADn_ZOFF_ZOFF 7) * 2 ^ 48 : Nat) < off * 1000000 then
    d.setAd 7 (t.jump (t.theta + BitVec.ofInt 80 off))
  else if off < 0 then d.setAd 7 { t with omega := BitVec.ofNat 48 (ad7Nominal - s) }
  else if 0 < off then d.setAd 7 { t with omega := BitVec.ofNat 48 (ad7Nominal + s) }
  else d.setAd 7 { t with omega := BitVec.ofNat 48 ad7Nominal }

/-- A network-time sample (R48); while UNSYNC, and where it was taken while UNSYNC, it changes and counts nothing (R29, R47). -/
def Dev.ad7Sample (d : Dev) : Dev :=
  match (d.ad 7).inFlight with
  | [] => d
  | m :: ms =>
    let d := d.setAd 7 { d.ad 7 with inFlight := ms }
    if d.on (AU_ADn_STAT_UNSYNC 7) || !m.valid then d
    else
      match d.thetaAt 7 m.at_ with
      | none => d.adMissing 7
      | some th =>
        let d := d.ad7Act (m.value - th).toInt
        (d.setAd 7 { d.ad 7 with lastMeas := some (m.value, m.at_) }).adAccepted 7

/-! ### The next ACLK -/

/-- A velocity from an exact sum; outside 48 bits the manual states no result (log entry 4). -/
def Dev.vel48 (d : Dev) (x : Int) : BitVec 48 × Dev :=
  if -(2 ^ 47 : Int) ≤ x ∧ x < 2 ^ 47 then (BitVec.ofInt 48 x, d) else (BitVec.ofNat 48 d.fresh.1, d.fresh.2)

/-- One tracker begins the next ACLK (R21, R27): history kept, the estimate advanced by the velocity and by what arrived. -/
def Dev.advanceTracker (n : Nat) (d : Dev) : Dev :=
  if d.adOn n then
    let t := d.ad n
    let v := d.vel48 (t.omega.toInt + t.corrI)
    v.2.setAd n { t with hist := (t.theta :: t.hist).take 4096, prev := t.lfFrom.getD t.theta, lfFrom := none, prev4 := t.ahead 4, prevOmega := t.omega,
                         lfDone := false, corrP := 0, corrI := 0, omega := v.1,
                         theta := t.theta + BitVec.ofInt 80 (t.omega.toInt + t.corrP) }
  else d

/-- Every enabled tracker advances (R21). -/
def Dev.advanceTrackers (d : Dev) : Dev := forUpTo 8 Dev.advanceTracker d

/-! ### Prediction (R31) -/

/-- An integer quotient rounded to the nearest; the manual leaves a tie open (log entry 15). -/
def roundDiv (a b : Int) : Int :=
  let q := a / b
  let r2 := 2 * (a % b)
  if r2 < b.natAbs then q
  else if (b.natAbs : Int) < r2 then q + (if b < 0 then -1 else 1)
  else if Config.roundTie a b then q + (if b < 0 then -1 else 1) else q

/-- The prediction of domain `b` for stamp `s` on domain `a`, from the estimates now (R31); none when it is invalid. -/
def Dev.predict (d : Dev) (a : Nat) (s : BitVec 64) (b : Nat) : Option (BitVec 64) :=
  let w := (d.ad a).omega.toInt
  if w = 0 then none
  else
    let t := roundDiv (stampTheta s - (d.ad a).theta).toInt w
    if t < 0 ∨ (2 ^ 26 : Int) < t then none
    else if a = b then some s
    else
      let th := (d.ad b).theta + BitVec.ofInt 80 ((d.ad b).omega.toInt * t)
      some (BitVec.ofNat 64 (th.toNat / 2 ^ 16))

/-- The measured angle of domain `n` in this ACLK (R32). -/
def Dev.measuredAngle (d : Dev) (n : Nat) : BitVec 64 :=
  let t := d.ad n
  match d.rd (AU_ADn_CFG_SRC n), t.lastMeas with
  | 0, _ => d.stamp n
  | _, none => d.stamp n
  | 1, some _ =>
    BitVec.ofNat 64 (t.revs.toNat * 2 ^ 32 + t.count * 2 ^ 48 / d.rd (AU_ADn_CPR_CPR n) / 2 ^ 16)
  | _, some (m, tm) =>
    BitVec.ofNat 64 ((m + BitVec.ofInt 80 (t.omega.toInt * ((d.now - tm : Nat) : Int))).toNat / 2 ^ 16)

/-- A STROBE latches the measured angle of domain `n` into AU_ADn_MEAS (R32). -/
def Dev.latchMeasured (n : Nat) (d : Dev) : Dev :=
  d.setAd n { d.ad n with meas := d.measuredAngle n }

/-! ### Landfalls (R50, R54, R466) -/

/-- The landfall period of domain `n` in 2^-48 revolution: LFK above 12 acts as 12 (R50). -/
def Dev.lfPeriod (d : Dev) (n : Nat) : Nat := 2 ^ (48 - min 12 (d.rd (AU_ADn_CFG_LFK n)))

/-- The last landfall at or before an estimate in the domain's direction (R50). -/
def lfFloor (rev : Bool) (per : Nat) (t : BitVec 80) : BitVec 80 :=
  if rev then BitVec.ofNat 80 ((t.toNat + per - 1) / per * per) else BitVec.ofNat 80 (t.toNat / per * per)

/-- The first landfall after an estimate in the domain's direction. -/
def lfNext (rev : Bool) (per : Nat) (t : BitVec 80) : BitVec 80 :=
  if rev then lfFloor rev per t - BitVec.ofNat 80 per else lfFloor rev per t + BitVec.ofNat 80 per

/-- The estimate is a landfall of the period. -/
def isLandfall (per : Nat) (t : BitVec 80) : Bool := t.toNat % per = 0

/-- The last landfall with period `per` that domain `n` passes in this ACLK (R466): none when it passes none, or moves against
its landfall direction. -/
def Dev.passedPer (d : Dev) (n per : Nat) : Option (BitVec 80) :=
  let t := d.ad n
  let rev := d.adRev n
  let l := lfFloor rev per t.theta
  if d.adOn n && !t.lfDone && !atOrPast rev t.prev l && atOrPast rev t.theta l then some l else none

/-- The landfall by which domain `n` is reached in this ACLK (R466). -/
def Dev.passedLandfall (d : Dev) (n : Nat) : Option (BitVec 80) := d.passedPer n (d.lfPeriod n)

/-- The stamp of a landfall. -/
def lfStamp (t : BitVec 80) : BitVec 64 := BitVec.ofNat 64 (t.toNat / 2 ^ 16)

/-- AU_LEAD, at least 16 (R55). -/
def Dev.lead (d : Dev) : Nat := max 16 (d.rd AU_LEAD_LEAD)

/-- The target of mode-change slot `s`. -/
def Dev.mcTarget (d : Dev) (s : Nat) : BitVec 80 := stampTheta (d.rd64 (AU_MCs_LF_LO s) (AU_MCs_LF_HI s))

/-- Domain `n` reaches a stamp at the check lead (R55). -/
def Dev.checkReached (d : Dev) (n : Nat) (l : BitVec 80) : Bool := atOrPast (d.adRev n) ((d.ad n).ahead d.lead) l

/-- A postponed target moved to a landfall whose check ACLK lies ahead (R55, R466). -/
def Dev.mcAlign (d : Dev) (n : Nat) (l : BitVec 80) : BitVec 80 :=
  let per := d.lfPeriod n
  let rev := d.adRev n
  let l := if isLandfall per l then l else lfNext rev per l
  if d.checkReached n l then lfNext rev per ((d.ad n).ahead d.lead) else l

/-- The check ACLK of target `l` on domain `n` has already passed (R54): the domain had reached it at the check lead one ACLK ago as well. A
domain that stands still, being disabled, has passed what it has reached (log entry 198). -/
def Dev.checkPassed (d : Dev) (n : Nat) (l : BitVec 80) : Bool :=
  d.checkReached n l && (!d.adOn n || match (d.ad n).hist with
    | th :: _ => atOrPast (d.adRev n) (th + BitVec.ofInt 80 ((d.ad n).prevOmega.toInt * d.lead)) l
    | [] => false)

/-- The target that an armed slot takes (R54): the next landfall where it is none, and one whose check lies ahead where its check has passed. -/
def Dev.mcArmTarget (d : Dev) (n : Nat) (l : BitVec 80) : BitVec 80 :=
  let per := d.lfPeriod n
  let rev := d.adRev n
  let l := if isLandfall per l then l else lfNext rev per l
  if d.checkPassed n l then lfNext rev per ((d.ad n).ahead d.lead) else l

/-- A write of ARM to slot `s` with DOM `n` (R54): DOM takes its value (R4); ARM is ignored unless the slot is IDLE, APPLIED or ABANDONED (Table 02-6), and reads 1
until the set is applied or abandoned (log entry 201). -/
def Dev.mcArm (s n : Nat) (d : Dev) : Dev :=
  let d := d.wr (AU_MCs_CTL_DOM s) n
  if d.rd (AU_MCs_STAT_STATE s) = 1 ∨ d.rd (AU_MCs_STAT_STATE s) = 2 then d
  else
    let d := d.wr (AU_MCs_CTL_ARM s) 1
    let l := d.mcArmTarget n (d.mcTarget s)
    let d := d.wr64 (AU_MCs_LF_LO s) (AU_MCs_LF_HI s) (lfStamp l)
    let d := ((d.wr (AU_MCs_ACK_GOT s) 0).setReg (AU_MCs_STAT s) 0).wr (AU_MCs_STAT_STATE s) 1
    { d with ang := { d.ang with mcArmed := tset 0 d.ang.mcArmed s d.now } }

/-- A slot is armed on domain `n` (R51). -/
def Dev.mcArmedOn (d : Dev) (n : Nat) : Bool :=
  (List.range 8).any (fun s => (d.rd (AU_MCs_STAT_STATE s) = 1 || d.rd (AU_MCs_STAT_STATE s) = 2) && d.rd (AU_MCs_CTL_DOM s) = n)

/-! ### The commands -/

/-- MEASUREMENT_ARRIVAL (R27). -/
def execMeasurementArrival (n : Fin 8) (s : State) : Host.Outcome State Fault Refusal := onDev (Dev.measurementArrival n.val) s
/-- MARK_TIMEOUT (R28). -/
def execMarkTimeout (n : Fin 8) (s : State) : Host.Outcome State Fault Refusal := onDev (Dev.markTimeout n.val) s
/-- AD7_SAMPLE (R48). -/
def execAd7Sample (s : State) : Host.Outcome State Fault Refusal := onDev Dev.ad7Sample s
/-- SETANG (R30). -/
def execSetang (n : Fin 8) (s : State) : Host.Outcome State Fault Refusal := onDev (Dev.setAng n.val) s
/-- SETVEL (R30). -/
def execSetvel (n : Fin 8) (s : State) : Host.Outcome State Fault Refusal := onDev (Dev.setVel n.val) s
/-- AU_CLRCNT (R58): AU_ADn_CNT clears. -/
def execAuClrcnt (n : Fin 8) (s : State) : Host.Outcome State Fault Refusal := onDev (fun d => d.setReg (AU_ADn_CNT n.val) 0) s
/-- DOMAIN_ENABLE (R22). -/
def execDomainEnable (n : Fin 8) (s : State) : Host.Outcome State Fault Refusal := onDev (Dev.enableDomain n.val) s
/-- DOMAIN_DISABLE (R29). -/
def execDomainDisable (n : Fin 8) (s : State) : Host.Outcome State Fault Refusal := onDev (Dev.disableDomain n.val) s
/-- MODE_CHANGE_ARM (R54). -/
def execModeChangeArm (sl n : Fin 8) (s : State) : Host.Outcome State Fault Refusal := onDev (Dev.mcArm sl.val n.val) s

end Sys2Proof.Machine
end

