-- ==== Sys2Proof/Machine/EventTable.lean ====
section
/-! DEFINITION. The event table: insertion, deletion, issue and periodic reinsertion (R34 to R46, R59). -/
namespace Sys2Proof.Machine

/-! ### Entries and lists -/

/-- Entry `i`, where it is in use. -/
def Dev.entry (d : Dev) (i : Nat) : Option EtEntry := tget none d.ang.entries i

/-- The block with entry `i` replaced; `none` frees it. -/
def Dev.setEntry (d : Dev) (i : Nat) (e : Option EtEntry) : Dev :=
  { d with ang := { d.ang with entries := tset none d.ang.entries i e } }

/-- The indices of list `l` in issue order. -/
def Dev.list (d : Dev) (l : Nat) : List Nat := tget [] d.ang.lists l

/-- The block with list `l` replaced. -/
def Dev.setList (d : Dev) (l : Nat) (xs : List Nat) : Dev := { d with ang := { d.ang with lists := tset [] d.ang.lists l xs } }

/-- The 40-bit stamp REV8:FRAC of an entry (R34). -/
def EtEntry.stamp (e : EtEntry) : BitVec 40 := BitVec.ofNat 40 (wbits e.w1 7 0 * 2 ^ 32 + e.w0.toNat)

/-- The action code, the periodic bit, the cadence and the list of an entry (Table 02-2). -/
def EtEntry.act (e : EtEntry) : Nat := wbits e.w1 11 8
def EtEntry.per (e : EtEntry) : Bool := wbit e.w1 12
def EtEntry.cad (e : EtEntry) : Nat := wbits e.w1 23 16
def EtEntry.list (e : EtEntry) : Nat := wbits e.w1 29 24

/-- The four words of entry `i` as the window shows them (R35): a free entry reads with VALID = 0, all words 0 (log entry 12). -/
def Dev.entryWords (d : Dev) (i : Nat) : List (BitVec 32) :=
  match d.entry i with
  | some e => [e.w0, e.w1, e.w2, e.w3]
  | none => [0, 0, 0, 0]

/-- Place index `i` with stamp `s` in stamp order, after entries with an equal stamp (R40). -/
def Dev.placeIn (d : Dev) (rev : Bool) (s : BitVec 40) (i : Nat) : List Nat → List Nat
  | [] => [i]
  | x :: xs =>
    match d.entry x with
    | some e => if 0 < diff40 rev s e.stamp then i :: x :: xs else x :: d.placeIn rev s i xs
    | none => x :: d.placeIn rev s i xs

/-- List `l`'s direction is reverse. -/
def Dev.listRev (d : Dev) (l : Nat) : Bool := d.on (ET_LCFGl_DIR l)

/-- An estimate has reached a 40-bit stamp in a list's direction (R34, R37). -/
def reached40 (rev : Bool) (t : BitVec 80) (s : BitVec 40) : Bool := diff40 rev (theta40 t) s ≤ 0

/-! ### Insertion (R36, R42, R43) -/

/-- The arguments of an entry are in range and its reserved bits clear (R36, Table 02-3). -/
def etArgsOk (w1 a0 a1 : BitVec 32) : Bool :=
  let x := a0.toNat
  let y := a1.toNat
  let task := y % 64 < 48 && y < 128
  wbits w1 15 14 = 0 && wbits w1 31 30 = 0 &&
  match wbits w1 11 8 with
  | 1 => x % 128 < 96 && bits x 7 7 = 0 && x < 2 ^ 12 && task
  | 2 => bits x 15 6 = 0 && x < 2 ^ 24 && task
  | 3 => x % 64 < 48 && bits x 7 6 = 0 && x < 2 ^ 10 && y = 0
  | 4 => x % 8 < 6 && bits x 7 3 = 0 && x < 2 ^ 16 && y = 0
  | 5 => (x % 256 < 4 || (128 ≤ x % 256 && x % 256 < 224)) && bits x 15 8 < 64 && x < 2 ^ 16 && y = 0
  | 6 => x < 512
  | 7 => x % 64 < 40 && bits x 7 6 = 0 && x < 2 ^ 16
  | _ => true

/-- The result code of an insertion (R42): the first refusal in the order BADLIST, BADACT, BADARG, BADCAD, FULL; 0 where
none applies. -/
def Dev.insertCheck (d : Dev) (w1 a0 a1 : BitVec 32) (l : Nat) : Nat :=
  let act := wbits w1 11 8
  let c := wbits w1 23 16
  if ¬ d.on (ET_LCFGl_EN l) then 3
  else if act = 0 ∨ 7 < act then 4
  else if ¬ etArgsOk w1 a0 a1 then 5
  else if wbit w1 12 ∧ (d.rd (ET_CADc_D_D c) = 0 ∨ d.rd (ET_CADc_D_D c) ≤ d.rd (ET_CADc_N_N c)) then 6
  else if d.rd ET_STAT_FREE = 0 then 2
  else 0

/-- The lowest free index from `i` on, of `n` tried. -/
def Dev.freeFrom (d : Dev) (i : Nat) : Nat → Nat
  | 0 => i
  | n + 1 => if d.entry i = none then i else d.freeFrom (i + 1) n

/-- The index a new entry takes (log entry 12). -/
def Dev.newIndex (d : Dev) : Nat :=
  let i := Config.entryIndex d.ang.insCount % 32768
  if d.entry i = none then i else d.freeFrom 0 32768

/-- Put an entry into list `l` under index `i` and count it (R35, R59). -/
def Dev.putEntry (l i : Nat) (e : EtEntry) (d : Dev) : Dev :=
  let d := d.setList l (d.placeIn (d.listRev l) e.stamp i (d.list l))
  d.setEntry i (some e)

/-- An insertion with result code and index (R42, R43): 0 OK, 1 OK_LATE, else a refusal, for which the manual names no index: 0 (log entry 202). -/
def Dev.insert (w0 w1 a0 a1 : BitVec 32) (l : Nat) (d : Dev) : Nat × Nat × Dev :=
  let c := d.insertCheck w1 a0 a1 l
  if c ≠ 0 then (c, 0, d)
  else
    let i := d.newIndex
    let s := BitVec.ofNat 40 (wbits w1 7 0 * 2 ^ 32 + w0.toNat)
    let late := reached40 (d.listRev l) (d.ad (d.rd (ET_LCFGl_DOM l))).prev4 s
    let e : EtEntry := { w0 := w0, w1 := wput (wput w1 13 13 1) 29 24 l, w2 := a0, w3 := a1 }
    let d := d.putEntry l i e
    let d := (d.wr ET_STAT_FREE (d.rd ET_STAT_FREE - 1)).wr (ET_LSTATl_COUNT l) (d.rd (ET_LSTATl_COUNT l) + 1)
    (b2n late, i, { d with ang := { d.ang with insCount := d.ang.insCount + 1 } })

/-- A write of ET_INSp_CTL.GO (R42): ignored with OVR while the port is busy. -/
def Dev.insertGo (p l : Nat) (d : Dev) : Dev :=
  if d.on (ET_INSp_STAT_BUSY p) then d.setFlag (ET_INSp_STAT_OVR p)
  else (d.wr (ET_INSp_CTL_LIST p) l).wr (ET_INSp_STAT_BUSY p) 1

/-- The insertion of port `p` completes (R42, R43). DESIGN CHOICE: IDX reads 0 after a refused one (log entry 202). -/
def Dev.insertComplete (p : Nat) (d : Dev) : Dev :=
  if d.on (ET_INSp_STAT_BUSY p) then
    let r := d.insert (d.reg (ET_INSp_W0 p)) (d.reg (ET_INSp_W1 p)) (d.reg (ET_INSp_W2 p)) (d.reg (ET_INSp_W3 p))
      (d.rd (ET_INSp_CTL_LIST p))
    ((r.2.2.wr (ET_INSp_STAT_BUSY p) 0).wr (ET_INSp_STAT_RES p) r.1).wr (ET_INSp_STAT_IDX p) r.2.1
  else d

/-! ### Deletion (R44) -/

/-- Take entry `i` out of the table. -/
def Dev.dropEntry (i : Nat) (d : Dev) : Dev :=
  match d.entry i with
  | none => d
  | some e =>
    let d := (d.setEntry i none).setList e.list ((d.list e.list).filter (fun x => x ≠ i))
    let gcl := d.eth.gcl.filterMap (fun (g : Nat × List Nat) =>
      let l := g.2.filter (fun x => x ≠ i)
      if l = [] then none else some (g.1, l))
    let d : Dev := { d with eth := { d.eth with gcl := gcl } }
    (d.wr ET_STAT_FREE (d.rd ET_STAT_FREE + 1)).wr (ET_LSTATl_COUNT e.list) (d.rd (ET_LSTATl_COUNT e.list) - 1)

/-- A write of ET_DEL.GO (R44). -/
def Dev.deleteGo (i : Nat) (d : Dev) : Dev :=
  if d.on ET_DEL_STAT_BUSY then d.setFlag ET_DEL_STAT_OVR else (d.wr ET_DEL_IDX i).wr ET_DEL_STAT_BUSY 1

/-! ### Issue (R37, R38) -/

/-- Entry `e` of list `l` is due: reached at 4 ACLK ahead with the domain not moving against the list (R37). One that a backward jump moves away from waits
again (R30). -/
def Dev.due (d : Dev) (l : Nat) (e : EtEntry) : Bool :=
  let t := d.ad (d.rd (ET_LCFGl_DOM l))
  let rev := d.listRev l
  !(if rev then decide (0 < t.omega.toInt) else decide (t.omega.toInt < 0)) && reached40 rev (t.ahead 4) e.stamp

/-- List `l` has an entry to issue in this ACLK (R37, R59). -/
def Dev.canIssue (d : Dev) (l : Nat) : Bool :=
  !d.hb.loading && d.on ET_CTRL_EN && d.on (ET_LCFGl_EN l) && d.adOn (d.rd (ET_LCFGl_DOM l)) && !d.ang.issued.contains l &&
  match (d.list l).head? with
  | none => false
  | some i => match d.entry i with
    | none => false
    | some e => d.due l e

/-- At most 16 entries per ACLK, the lower list number first (R38). -/
def Dev.issueSlot (d : Dev) (l : Nat) : Bool :=
  d.ang.issued.length + ((List.range l).filter d.canIssue).length < 16

/-- The stamp and accumulator after one cadence step (R45): accumulator and increment. -/
def cadStep (q n dd acc : Nat) : Nat × Nat := if dd ≤ acc + n then (acc + n - dd, q + 1) else (acc + n, q)

/-- Entry `e` with its stamp advanced by `inc` in the list's direction (R45). -/
def EtEntry.advance (e : EtEntry) (rev : Bool) (inc : Nat) : EtEntry :=
  let s := if rev then e.stamp - BitVec.ofNat 40 inc else e.stamp + BitVec.ofNat 40 inc
  { e with w0 := w32 s.toNat, w1 := wput e.w1 7 0 (s.toNat / 2 ^ 32) }

/-- MDIV of modulator clock `m`: a value outside 32 to 160 acts as the nearest limit (R168). -/
def Dev.mdiv (d : Dev) (m : Nat) : Nat := max 32 (min 160 (d.rd (HP_MCLKm_MDIV m)))

/-- The next rising edge of a clock for a STROBE that issues in ACLK `now` with effect in ACLK `tf` (R169): the period in progress grows or shrinks so that a
bit latch, `bdly` after a rising edge, falls into `tf`, or comes SLIP nearer to it by the shorter way. -/
def alignNext (now next tf bdly slip per : Nat) : Nat :=
  let r : Int := ((tf : Int) - (next + bdly : Nat)) % per
  let δ : Int := if 2 * r ≤ per then r else r - per
  max (now + 1) (next + max (-(slip : Int)) (min slip δ)).toNat

/-- A STROBE of group `g` issues with effect in ACLK `tf`: the aligning clocks of the group adjust the period in progress (R169). -/
def Dev.alignClocks (g tf : Nat) (d : Dev) : Dev :=
  let one := fun (m : Nat) (d : Dev) =>
    let c := tget Mclk.reset d.hb.mclk m
    if c.next ≠ 0 ∧ d.on (HP_MCLKm_ALIGN m) ∧ d.rd (HP_MCLKm_STG m) = g then
      { d with hb := { d.hb with mclk := tset Mclk.reset d.hb.mclk m { c with next := alignNext d.now c.next tf (d.rd (HP_MCLKm_BDLY m)) (d.rd (HP_MCLKm_SLIP m)) (d.mdiv m) } } }
    else d
  forUpTo 6 one d

/-- Entry `i` is read through its code words (R303): true where one is uncorrectable. -/
def Dev.readEntry (i : Nat) (d : Dev) : Bool × Dev :=
  if d.integ.ecc = [] then (false, d)
  else
    let r := d.eccRead (0x41000000 + 16 * i) 0
    let q := r.2.eccRead (0x41000008 + 16 * i) 0
    (r.1 || q.1, q.2)

/-- An entry with an uncorrectable word is removed (R313): its action is not issued, and ET_STAT.DROP counts it. -/
def Dev.damagedEntry (i : Nat) (d : Dev) : Dev :=
  (((d.dropEntry i).inc ET_STAT_DROP).setErr (0x41000000 + 16 * i) 0).setErr (0x41000008 + 16 * i) 0

/-- The head entry of list `l` issues (R37, R38): its action takes effect 4 ACLK later; a one-shot entry is freed and a
periodic one begins its reinsertion with its cadence advanced (R45). -/
def Dev.entryIssue (l : Nat) (d : Dev) : Dev :=
  if ¬ d.canIssue l ∨ ¬ d.issueSlot l then d
  else
    match (d.list l).head? with
    | none => d
    | some i =>
      match d.entry i with
      | none => d
      | some e =>
        let r := d.readEntry i
        if r.1 then r.2.damagedEntry i else
        let d := r.2
        let rev := d.listRev l
        let t := d.ad (d.rd (ET_LCFGl_DOM l))
        let late := reached40 rev t.prev4 e.stamp || reached40 rev t.theta e.stamp
        let a : Action := { act := e.act, arg0 := e.w2, arg1 := e.w3, list := l, stamp := e.stamp, late := late, tf := d.now + 4 }
        let d := { d with ang := { d.ang with acts := d.ang.acts ++ [a], issued := d.ang.issued ++ [l] } }
        let d := if late then ((d.inc (ET_LSTATl_LATE l)).inc ET_LATE_LATE).f0 0x02 l else d
        let d := if a.act = 2 then d.alignClocks (a.arg0.toNat % 64) a.tf else d
        if e.per then
          let c := e.cad
          let st := cadStep (d.rd (ET_CADc_Q_Q c)) (d.rd (ET_CADc_N_N c)) (d.rd (ET_CADc_D_D c)) (d.rd (ET_CADc_ACC_ACC c))
          let d := d.wr (ET_CADc_ACC_ACC c) st.1
          let d := (d.setEntry i (some (e.advance rev st.2))).setList l ((d.list l).drop 1)
          { d with ang := { d.ang with reins := d.ang.reins ++ [i] } }
        else d.dropEntry i

/-- The deletion in progress ends with a result (R44). -/
def Dev.deleteEnd (res : Nat) (d : Dev) : Dev := (d.wr ET_DEL_STAT_BUSY 0).wr ET_DEL_STAT_RES res

/-- A periodic reinsertion completes (R45, R46); a deletion that has waited for it removes the entry, which issues no further (R44). -/
def Dev.reinsertionComplete (i : Nat) (d : Dev) : Dev :=
  if d.ang.reins.contains i then
    let d := { d with ang := { d.ang with reins := d.ang.reins.filter (fun x => x ≠ i) } }
    match d.entry i with
    | none => d
    | some e =>
      let d := d.putEntry e.list i e
      if d.on ET_DEL_STAT_BUSY ∧ d.rd ET_DEL_IDX = i then (d.dropEntry i).deleteEnd 0 else d
  else d

/-- The deletion in progress completes (R44): it lets an issue of this ACLK go first, and a reinsertion in progress completes it. -/
def Dev.deleteComplete (d : Dev) : Dev :=
  let i := d.rd ET_DEL_IDX
  if ¬ d.on ET_DEL_STAT_BUSY ∨ d.ang.reins.contains i then d
  else
    match d.entry i with
    | none => d.deleteEnd 1
    | some e =>
      if (d.list e.list).head? = some i ∧ d.canIssue e.list ∧ d.issueSlot e.list then d
      else (d.dropEntry i).deleteEnd 0

/-! ### Actions (R36, R41) -/

/-- A landfall passed in this ACLK has not acted yet: an action of this ACLK sees the new configuration, on any domain (R52). -/
def Dev.landfallWaits (d : Dev) : Bool := (List.range 8).any (fun n => (d.passedLandfall n).isSome)

/-- Take the oldest issued action that `p` accepts and that has taken effect by now, once every landfall of this ACLK has acted (R52). -/
def Dev.takeAction (d : Dev) (p : Action → Bool) : Option (Action × Dev) :=
  match takeFirst (fun a => p a && decide (a.tf ≤ d.now) && !d.landfallWaits) d.ang.acts with
  | none => none
  | some (a, rest) => some (a, { d with ang := { d.ang with acts := rest } })

/-- An action whose target is gated or powered down is dropped, counted and reported (R41). -/
def Dev.actionDrop (l : Nat) (d : Dev) : Dev := (d.inc ET_STAT_DROP).f0 0x01 l

/-- The eighth of an EDGE action (R39). -/
def Dev.edgeEighth (d : Dev) (a : Action) : Nat :=
  if a.late then 8
  else
    let n := d.rd (ET_LCFGl_DOM a.list)
    let rev := d.listRev a.list
    let t := d.ad n
    let w := if rev then - t.prevOmega.toInt else t.prevOmega.toInt
    match d.thetaAt n (a.tf - 1) with
    | none => 8
    | some th =>
      let s56 : BitVec 56 := BitVec.ofNat 56 (a.stamp.toNat * 2 ^ 16) - BitVec.ofNat 56 th.toNat
      let df := if rev then - s56.toInt else s56.toInt
      if df ≤ 0 ∨ w ≤ 0 then 1 else min 8 ((8 * df + w - 1) / w).toNat

/-! ### The commands -/

/-- ENTRY_ISSUE (R37). -/
def execEntryIssue (l : Fin 64) (s : State) : Host.Outcome State Fault Refusal := onDev (Dev.entryIssue l.val) s
/-- REINSERTION_COMPLETE (R45). -/
def execReinsertionComplete (i : Fin 32768) (s : State) : Host.Outcome State Fault Refusal := onDev (Dev.reinsertionComplete i.val) s
/-- INSERT (R42). -/
def execInsert (p : Fin 8) (l : Fin 64) (s : State) : Host.Outcome State Fault Refusal := onDev (Dev.insertGo p.val l.val) s
/-- INSERT_COMPLETE (R43). -/
def execInsertComplete (p : Fin 8) (s : State) : Host.Outcome State Fault Refusal := onDev (Dev.insertComplete p.val) s
/-- DELETE (R44). -/
def execDelete (i : Fin 32768) (s : State) : Host.Outcome State Fault Refusal := onDev (Dev.deleteGo i.val) s
/-- DELETE_COMPLETE (R44). -/
def execDeleteComplete (s : State) : Host.Outcome State Fault Refusal := onDev Dev.deleteComplete s
/-- ET_CLR_DROP (R59). -/
def execEtClrDrop (s : State) : Host.Outcome State Fault Refusal := onDev (fun d => d.wr ET_STAT_DROP 0) s
/-- Clear ET_LATE and every list's LATE count (Table 02-7). -/
def Dev.etClrLate (d : Dev) : Dev := forUpTo 64 (fun l d => d.wr (ET_LSTATl_LATE l) 0) (d.setReg ET_LATE 0)
/-- ET_CLR_LATE (R59). -/
def execEtClrLate (s : State) : Host.Outcome State Fault Refusal := onDev Dev.etClrLate s

end Sys2Proof.Machine
end

