-- ==== Sys2Proof/Machine/IsleBase.lean ====
section
/-! DEFINITION. Isles, cells, groups, tasks and bindings: reading and replacing them, activations (R110 to R114), and what an F1 fault does
to an isle and its tasks (R153, R154, R434, R437). -/
namespace Sys2Proof.Machine

/-! ### Accessors -/

/-- Power domain `x` is up (R390, Table 17-8). -/
def Dev.domUp (d : Dev) (x : Nat) : Bool := wbit (d.reg (PC_DOMUP0 + 4 * (x / 32))) (x % 32)

/-- Isle `n`. -/
def Dev.isle (d : Dev) (n : Nat) : Isle := tget Isle.reset d.isles n

/-- The block with isle `n` replaced. -/
def Dev.setIsle (n : Nat) (i : Isle) (d : Dev) : Dev := { d with isles := tset Isle.reset d.isles n i }

/-- The isle is powered and not clock-gated (R100, R121). -/
def Dev.isleLive (d : Dev) (n : Nat) : Bool := d.domUp n && !(d.isle n).gateLoad && !(d.isle n).gateFault

/-- ACLK between two advances of isle `n`: the divider of its row (R422). -/
def Dev.step (d : Dev) (n : Nat) : Nat := 2 ^ tget 0 d.power.rows (n / 12)

/-- Isle `n` advances in this ACLK (R422). -/
def Dev.advances (d : Dev) (n : Nat) : Bool := d.now % d.step n = 0

/-- Show the isle's gating in IS_STAT.GATED. -/
def Dev.showGate (n : Nat) (d : Dev) : Dev := d.wrb (IS_STAT_GATED n) ((d.isle n).gateLoad || (d.isle n).gateFault)

/-- Cell `c` of an isle. -/
def Isle.cell (i : Isle) (c : Nat) : Cell := tget Cell.reset i.cells c

/-- The isle with a cell replaced. -/
def Isle.setCell (i : Isle) (c : Nat) (x : Cell) : Isle := { i with cells := tset Cell.reset i.cells c x }

/-- The block with a cell changed. -/
def Dev.modCell (n c : Nat) (f : Cell → Cell) (d : Dev) : Dev := d.setIsle n ((d.isle n).setCell c (f ((d.isle n).cell c)))

/-- Group `g` of an isle. -/
def Isle.grp (i : Isle) (g : Nat) : Group := tget Group.reset i.groups g

/-- The block with a group changed. -/
def Dev.modGrp (n g : Nat) (f : Group → Group) (d : Dev) : Dev :=
  d.setIsle n { d.isle n with groups := tset Group.reset (d.isle n).groups g (f ((d.isle n).grp g)) }

/-- The value of a lagoon word before the first write of this ACLK is what the cells' reads of this ACLK return. -/
def Isle.noteOld (i : Isle) (a : Nat) (old : BitVec 32) : Isle :=
  if i.old.any (fun q => q.1 = a) then i else { i with old := tput i.old a old }

/-- The matching-store entry `e` of an isle. -/
def Isle.ment (i : Isle) (e : Nat) : MEntry := tget MEntry.reset i.store e

/-- The block with a matching-store entry replaced. -/
def Dev.setMent (n e : Nat) (m : MEntry) (d : Dev) : Dev :=
  d.setIsle n { d.isle n with store := tset MEntry.reset (d.isle n).store e m }

/-- The register of a copy by its code (Table 04-2). -/
def CRegs.get (r : CRegs) (code : Nat) : BitVec 32 := tget 0#32 r.g code

/-- The width of a register by its code (R86). -/
def cregWidth (code : Nat) : Nat :=
  if code < 8 then 32 else if code < 0x0C then 16 else if code < 0x14 then 15 else 16

/-- The copy with a register written: its low bits are kept (R86). -/
def CRegs.put (r : CRegs) (code : Nat) (v : BitVec 32) : CRegs :=
  { r with g := tset 0#32 r.g code (w32 (low (cregWidth code) v.toNat)) }

/-- FLG of a copy. -/
def CRegs.flg (r : CRegs) : BitVec 16 := BitVec.ofNat 16 (r.get 0x0B).toNat

/-- The copy with FLG written: bits [15:9] read as 0 (R61). -/
def CRegs.putFlg (r : CRegs) (f : BitVec 16) : CRegs := r.put 0x0B (w32 (f.toNat % 512))

/-- Loop task `t`. -/
def Dev.task (d : Dev) (t : Nat) : Task := tget Task.reset d.ahd.tasks t

/-- A step is open (R134): a squashed one that waits to be replayed is not, until its prediction is requested again (R150). -/
def LStep.isOpen (s : LStep) : Bool := !(s.replay && s.reqDue.isNone && s.reqAt.isNone && s.rerun.isNone)

/-- The block with a task replaced; INFL follows the open steps. -/
def Dev.setTask (t : Nat) (x : Task) (d : Dev) : Dev :=
  ({ d with ahd := { d.ahd with tasks := tset Task.reset d.ahd.tasks t x } }).wr (AHD_LTt_STAT_INFL t) (x.steps.filter LStep.isOpen).length

/-- The block with step `k` of a task changed. -/
def Dev.modStep (t k : Nat) (f : LStep → LStep) (d : Dev) : Dev :=
  d.setTask t { d.task t with steps := replaceFirst (fun s => s.k = k) f (d.task t).steps }

/-- Step `k` of a task where it is open. -/
def Dev.step? (d : Dev) (t k : Nat) : Option LStep := (d.task t).steps.find? (fun s => s.k = k)

/-- The front step's number: AHD_LTt_STEP (Table 06-9). -/
def Dev.front (d : Dev) (t : Nat) : Nat := d.rd (AHD_LTt_STEP_STEP t)

/-- A task's state: 0 DISABLED, 1 RUNNING, 2 SUSPENDED, 3 HALTED. -/
def Dev.taskState (d : Dev) (t : Nat) : Nat := d.rd (AHD_LTt_STAT_STATE t)

/-- The enabled bindings, in rising order (R131): an AHD_TBb_ID register that the file does not list reads 0, not enabled. -/
def Dev.enabledBindings (d : Dev) : List Nat :=
  d.regs.filterMap (fun e =>
    if AHD_TBb_ID 0 ≤ e.1 ∧ e.1 < AHD_TBb_ID 128 ∧ (e.1 - AHD_TBb_ID 0) % 0x20 = 0 ∧ wbit e.2 31 then some ((e.1 - AHD_TBb_ID 0) / 0x20) else none)

/-- The enabled bindings of a task, in rising order (R131). -/
def Dev.bindings (d : Dev) (t : Nat) : List Nat := d.enabledBindings.filter (fun b => d.rd (AHD_TBb_ID_TASK b) = t)

/-- The tasks with an enabled binding in isle `n`, each once. -/
def Dev.tasksOf (d : Dev) (n : Nat) : List Nat :=
  ((d.enabledBindings.filter (fun b => d.rd (AHD_TBb_ID_ISLE b) = n)).map (fun b => d.rd (AHD_TBb_ID_TASK b))).eraseDups

/-- The enabled binding of task `t` in isle `n`. -/
def Dev.bindingIn (d : Dev) (t n : Nat) : Option Nat := (d.bindings t).find? (fun b => d.rd (AHD_TBb_ID_ISLE b) = n)

/-- Set the attention bit of a task (AHD_ATTN0, AHD_ATTN1), which raises CP_IPEND bit 4 (R260). -/
def Dev.attn (t : Nat) (d : Dev) : Dev :=
  (if t < 32 then d.setFlagBit AHD_ATTN0_TASK t else d.setFlagBit AHD_ATTN1_TASK (t - 32)).raiseIrq 4

/-- The tag T_k of step `k` (R134). -/
def Dev.tagOf (d : Dev) (t k : Nat) : BitVec 8 := BitVec.ofNat 8 (k + 128 * d.rd (AHD_LTt_STAT_EPOCH t))

/-- The members of a mask of 16. -/
def maskCells (m : Nat) : List Nat := (List.range 16).filter (fun c => m / 2 ^ c % 2 = 1)

/-! ### Firing and activations (R110 to R114) -/

/-- Group `g` is active in this ACLK (R111: inactive from the ACLK after its last yield). -/
def Dev.grpActive (d : Dev) (n g : Nat) : Bool := d.rdBit (IS_STAT_ACTIVE n) g || decide (d.now < ((d.isle n).grp g).endAt)

/-- Queue a firing request for group `g` of isle `n` (R110). -/
def Dev.fireReq (n g at_ : Nat) (ra : Option RaMark) (d : Dev) : Dev :=
  d.setIsle n { d.isle n with reqs := (d.isle n).reqs ++ [{ group := g, at_ := at_, ra := ra }] }

/-- The pre-emptions of isle `n` that satisfy `f` are withdrawn: the victim's cells that have stopped at their quiet points issue their selected
indices in the next ACLK (R123). -/
def Dev.withdrawPre (n : Nat) (f : Preempt → Bool) (d : Dev) : Dev :=
  let i := d.isle n
  let gone := i.pre.filter f
  if gone = [] then d
  else
    let go := fun (x : Cell) => match x.mode with
      | .quiet k => if gone.any (fun p => p.victim = x.group) then { x with mode := .run k, nextAt := d.now + d.step n } else x
      | _ => x
    forUpTo 16 (fun c d => d.modCell n c go) (d.setIsle n { i with pre := i.pre.filter (fun p => !f p) })

/-- An activation of group `g` ends in this ACLK (R111): the group is inactive from the next, and a pre-emption of it is not needed any more. The end
of a step's head activation is noted for its step (R138). -/
def Dev.endActivation (n g : Nat) (d : Dev) : Dev :=
  let ra := ((d.isle n).grp g).ra
  let d := d.withdrawPre n (fun p => p.victim = g)
  let d := (d.wrBit (IS_STAT_ACTIVE n) g false).modGrp n g (fun x => { x with endAt := d.now + d.step n, ra := none })
  match ra with
  | some m =>
    if m.head then
      let nb := (d.bindings m.task).length
      d.modStep m.task m.step (fun s =>
        { s with headEnds := s.headEnds + 1, headEnd := if s.headEnds + 1 = nb then some (d.now + d.step n) else s.headEnd })
    else d
  | none => d

/-- Some member cell of group `g` still takes part in its activation. -/
def Dev.grpBusy (d : Dev) (n g : Nat) : Bool :=
  (maskCells (d.rd (IS_GRPg_MASK n g))).any (fun c => ((d.isle n).cell c).group = g && ((d.isle n).cell c).mode ≠ .idle)

/-- An activation of group `g` starts in this ACLK (R110, R112, R114): the tag, the plane, every member cell at its resume index. -/
def Dev.startGroup (n g : Nat) (ra : Option RaMark) (d : Dev) : Dev :=
  let d := d.modGrp n g (fun x => { x with tag := x.actcnt, actcnt := x.actcnt + 1, pend := false, defd := false, ra := ra,
                                           pendRa := none, noPre := false })
  let d := d.wrBit (IS_STAT_ACTIVE n) g true
  let d := if d.on (IS_GRPg_PKEEP n g) then d else d.wr (IS_STAT_APL n) (d.rd (IS_GRPg_PLANE n g))
  let d := match ra with
    | some m => if m.head then d else
        d.modStep m.task m.step (fun s => if s.tailAt = some d.now then { s with tailStarts := s.tailStarts + 1 } else s)
    | none => d
  let go := fun (c : Nat) (d : Dev) =>
    d.modCell n c (fun x => { x with mode := .run (tget 0 x.resume g), group := g, nextAt := d.now })
  let d := forList (maskCells (d.rd (IS_GRPg_MASK n g))) go d
  if d.rd (IS_GRPg_MASK n g) = 0 then d.endActivation n g else d

/-! ### Suspending and halting tasks (R153, R154) -/

/-- A squash is decided (R148): causes of one ACLK are one squash, of the oldest step. -/
def Task.addSquash (x : Task) (p : PendSquash) : Task :=
  match x.squash.getLast? with
  | some q =>
    if q.d = p.d then
      { x with squash := x.squash.dropLast ++
          [{ d := p.d, k := min q.k p.k, rerun := q.rerun && p.rerun, replay := q.replay && p.replay, again := if p.k < q.k then p.again else q.again }] }
    else { x with squash := x.squash ++ [p] }
  | none => { x with squash := [p] }

/-- A squash of step `k` or of an older one is decided and not yet in effect. -/
def Task.squashes (x : Task) (k : Nat) : Bool := x.squash.any (fun p => decide (p.k ≤ k))

/-- Decide a squash of step `k` (R147) in this ACLK; it takes effect two ACLK later (R148). A cause during the step's re-run skips it (R149). -/
def Dev.decideSquash (t k : Nat) (d : Dev) : Dev :=
  let again := match d.step? t k with
    | some s => s.rerun.isSome
    | none => false
  d.setTask t ((d.task t).addSquash { d := d.now, k := k, rerun := true, replay := true, again := again })

/-- A squash cause for step `k` reaches the controller (R147): ignored and counted in or after its commit ACLK. -/
def Dev.squashCause (t k : Nat) (d : Dev) : Dev :=
  if d.taskState t = 0 then d
  else match d.step? t k with
    | none => if k < d.front t then d.inc (AHD_LTt_CNT2_LATESQ t) else d
    | some s =>
      match s.commitAt with
      | some c => if c ≤ d.now then d.inc (AHD_LTt_CNT2_LATESQ t) else d.decideSquash t k
      | none => d.decideSquash t k

/-- Prediction requests queued over all tasks: AHD_QLEN. -/
def Dev.showQlen (d : Dev) : Dev :=
  d.wr AHD_QLEN_QLEN ((d.ahd.tasks.map (fun e => (e.2.steps.filter (fun s => s.reqDue.isSome)).length)).foldl (· + ·) 0)

/-- A skipped step's count and report (R151). -/
def Dev.countSkip (t : Nat) (d : Dev) : Dev :=
  ((d.inc (AHD_LTt_CNT1_SKIP t)).wr (AHD_LTt_STEP_STEP t) (d.front t + 1)).f0 0x06 t

/-- The front step moves past steps that were skipped while an older one was open (R151): to the oldest step that is open or not latched yet. -/
def Dev.passSkipped (t : Nat) (d : Dev) : Dev :=
  let x := d.task t
  let n := (x.steps.map (fun s => s.k)).foldl min x.latchK
  if d.front t < n then d.wr (AHD_LTt_STEP_STEP t) n else d

/-- Every open step of a task is squashed without a re-run (R153, R154) and is no longer open; the squash takes effect two ACLK later (R148). With no
step open there is nothing to squash. With `skip`, for a task that goes on later, a step whose latch has been taken is skipped: no STROBE will latch it
again. -/
def Dev.squashAll (skip : Bool) (t : Nat) (d : Dev) : Dev :=
  let x := d.task t
  let latched := (x.steps.filter (fun s => s.latch.isSome)).length
  let f := d.front t
  let x := { x with steps := [], openK := x.latchK, openS := x.latchS, openAcc := x.latchAcc, fires := 0 }
  let x := if (d.task t).steps = [] then x else x.addSquash { d := d.now, k := f, rerun := false, replay := false, again := false }
  let d := (d.setTask t x).showQlen
  if skip then (forUpTo latched (fun _ d => d.countSkip t) d).passSkipped t else d

/-- A task is suspended by an F1 event in isle `n` (R153): LOOP_SUSPEND. -/
def Dev.suspendTask (n t : Nat) (d : Dev) : Dev :=
  if d.taskState t = 1 then
    (((d.squashAll true t).wr (AHD_LTt_STAT_STATE t) 2).attn t).post 0x21 [w32 t, w32 n]
  else d

/-- A task halts (R154): LOOP_HALT with its cause. A disabled or halted task stays as it is. -/
def Dev.haltTask (cause t : Nat) (d : Dev) : Dev :=
  if d.taskState t = 1 ∨ d.taskState t = 2 then
    let d := ((d.squashAll false t).wr (AHD_LTt_STAT_STATE t) 3).attn t
    d.post 0x20 [w32 t, w32 cause, d.reg (AHD_LTt_STEP t), d.reg (AHD_LTt_STAT t), d.reg (AHD_LTt_DIFF t)]
  else d

/-- A suspended task returns to RUNNING when no repair of its isles or units is left (R434, R435): LOOP_RESUME. -/
def Dev.resumeTask (n t : Nat) (d : Dev) : Dev :=
  if d.taskState t = 2 then (d.wr (AHD_LTt_STAT_STATE t) 1).post 0x22 [w32 t, w32 n] else d

/-! ### F1 faults (R434, R437) -/

/-- One second in ACLK. -/
def aclkPerSec : Nat := 800000000

/-- One more F1 fault of a task: the sixteenth within 1 s halts it (R437). -/
def Dev.f1Count (t : Nat) (d : Dev) : Dev :=
  let l := (d.now :: tget [] d.ev.f1Log t).filter (fun a => d.now < a + aclkPerSec)
  let d := { d with ev := { d.ev with f1Log := tset [] d.ev.f1Log t (if 16 ≤ l.length then [] else l) } }
  if 16 ≤ l.length then d.haltTask 1 t else d

/-- Queue a repair unless one for the unit is queued (R436). -/
def Dev.queueRepair (r : Repair) (d : Dev) : Dev :=
  if d.ev.repairs.any (fun q => q.unit = r.unit) then d else { d with ev := { d.ev with repairs := d.ev.repairs ++ [r] } }

/-- The staged change of a unit belongs to a change set whose check has committed (R438). -/
def Dev.setCommitted (d : Dev) (n : Nat) : Bool := d.cfg.staged.any (fun u => u.unit = n && decide (d.rd (AU_MCs_STAT_STATE u.slot) = 2))

/-- An F1 fault of isle `n` (R434): FAULT event, gating, suspension of its tasks, and the repair its source asks for (Table 18-3):
`kind` 0 empty, 1 word, 2 frame;
a damaged frame of an isle whose change set has committed waits for the copy-back (R438). -/
def Dev.f1Isle (n src kind what : Nat) (d : Dev) : Dev :=
  let d := d.postFault 1 src n 1 d.ad7Frac
  let d := (d.setIsle n { d.isle n with gateFault := true }).showGate n
  let ts := d.tasksOf n
  let d := forList ts (Dev.suspendTask n) d
  let d := forList ts Dev.f1Count d
  let kind := if kind = 2 ∧ src = 0x23 ∧ d.setCommitted n then 4 else kind
  d.queueRepair { unit := n, kind := kind, source := src, what := what, at_ := d.now }

/-- Set a status flag of a task and its attention bit (Table 06-9). -/
def Dev.taskFlag (t : Nat) (f : Fld) (d : Dev) : Dev := (d.setFlag f).attn t

end Sys2Proof.Machine
end

