-- ==== Sys2Proof/Machine/Crypto.lean ====
section
/-! DEFINITION. CRC-32 of IEEE 802.3 (R157, R202, R303), SHA-256 (FIPS 180-4) and HMAC-SHA-256 (FIPS 198-1) as R204 uses them. -/
namespace Sys2Proof.Machine

/-! ### CRC-32 -/

/-- One bit of the reflected CRC. -/
def crcBit (c : BitVec 32) : BitVec 32 := if c.getLsbD 0 then (c >>> 1) ^^^ 0xEDB88320#32 else c >>> 1

/-- One byte of the CRC. -/
def crcByte (c : BitVec 32) (b : BitVec 8) : BitVec 32 :=
  (List.range 8).foldl (fun c _ => crcBit c) (c ^^^ BitVec.zeroExtend 32 b)

/-- The CRC-32 of bytes, IEEE 802.3 polynomial. -/
def crc32 (bs : List (BitVec 8)) : BitVec 32 := ~~~ (bs.foldl crcByte (BitVec.allOnes 32))

/-! ### SHA-256 -/

/-- The first 64 primes (FIPS 180-4, 4.2.2 takes the round constants from them). -/
def shaPrimes : List Nat := (List.range 312).filter fun p => 1 < p && (List.range p).all fun q => q < 2 || q * q > p || p % q != 0

/-- The largest `r` below `acc + 2 ^ n` with `r ^ k ≤ x`, one bit at a time from the top. -/
def rootBits (k x : Nat) : Nat → Nat → Nat
  | 0, acc => acc
  | n + 1, acc => rootBits k x n (if (acc + 2 ^ n) ^ k ≤ x then acc + 2 ^ n else acc)

/-- The first 32 bits of the fractional part of the `k`-th root of `p`; the root is below 32. -/
def rootFrac (k p : Nat) : BitVec 32 := BitVec.ofNat 32 (rootBits k (p * 2 ^ (32 * k)) 37 0)

/-- The round constants: cube roots of the first 64 primes. -/
def shaK : List (BitVec 32) := shaPrimes.map (rootFrac 3)

/-- The initial hash value: square roots of the first 8 primes. -/
def shaH0 : List (BitVec 32) := (shaPrimes.take 8).map (rootFrac 2)

/-- Rotate right. -/
def ror32 (x : BitVec 32) (n : Nat) : BitVec 32 := x.rotateRight n

/-- The message schedule, extended by one word; newest first. -/
def shaExtend (w : List (BitVec 32)) : List (BitVec 32) :=
  let a := w.getD 14 0
  let b := w.getD 1 0
  let s0 := ror32 a 7 ^^^ ror32 a 18 ^^^ (a >>> 3)
  let s1 := ror32 b 17 ^^^ ror32 b 19 ^^^ (b >>> 10)
  (w.getD 15 0 + s0 + w.getD 6 0 + s1) :: w

/-- One round on the working variables a to h. -/
def shaRound (v : List (BitVec 32)) (k w : BitVec 32) : List (BitVec 32) :=
  match v with
  | [a, b, c, d, e, f, g, h] =>
    let s1 := ror32 e 6 ^^^ ror32 e 11 ^^^ ror32 e 25
    let t1 := h + s1 + ((e &&& f) ^^^ (~~~ e &&& g)) + k + w
    let s0 := ror32 a 2 ^^^ ror32 a 13 ^^^ ror32 a 22
    let t2 := s0 + ((a &&& b) ^^^ (a &&& c) ^^^ (b &&& c))
    [t1 + t2, a, b, c, d + t1, e, f, g]
  | _ => v

/-- Bytes as a big-endian number. -/
def beNat (bs : List (BitVec 8)) : Nat := bs.foldl (fun n b => n * 256 + b.toNat) 0

/-- A word's bytes, high byte first. -/
def beBytes (n : Nat) (w : Nat) : List (BitVec 8) := (List.range n).reverse.map (fun i => BitVec.ofNat 8 (w / 2 ^ (8 * i)))

/-- One block of 64 bytes. -/
def shaBlock (h : List (BitVec 32)) (blk : List (BitVec 8)) : List (BitVec 32) :=
  let w0 := (List.range 16).map (fun i => BitVec.ofNat 32 (beNat ((blk.drop (4 * i)).take 4)))
  let w := ((List.range 48).foldl (fun w _ => shaExtend w) w0.reverse).reverse
  let v := (shaK.zip w).foldl (fun v kw => shaRound v kw.1 kw.2) h
  (h.zip v).map (fun p => p.1 + p.2)

/-- All blocks, at most `n` of them. -/
def shaBlocks : Nat → List (BitVec 32) → List (BitVec 8) → List (BitVec 32)
  | 0, h, _ => h
  | n + 1, h, bs => shaBlocks n (shaBlock h (bs.take 64)) (bs.drop 64)

/-- The padding of a message of `n` bytes. -/
def shaPad (n : Nat) : List (BitVec 8) := 0x80#8 :: List.replicate ((119 - n % 64) % 64) 0#8 ++ beBytes 8 (8 * n)

/-- SHA-256: 32 digest bytes in output order. -/
def sha256 (bs : List (BitVec 8)) : List (BitVec 8) :=
  let m := bs ++ shaPad bs.length
  (shaBlocks (m.length / 64) shaH0 m).flatMap (fun w => beBytes 4 w.toNat)

/-- HMAC-SHA-256 with a key of at most 64 bytes. -/
def hmac256 (key bs : List (BitVec 8)) : List (BitVec 8) :=
  let k := key ++ List.replicate (64 - key.length) 0#8
  sha256 (k.map (fun b => b ^^^ 0x5C#8) ++ sha256 (k.map (fun b => b ^^^ 0x36#8) ++ bs))

end Sys2Proof.Machine
end

