-- ==== Sys2Proof/Machine/Settings.lean ====
section
/-! DEFINITION. The settings store (R426 to R430): its two banks, reading a record, and writing a commit. The bytes of the store are in `Dev.mem` at its
read window, which a device reset keeps (R414). -/
namespace Sys2Proof.Machine

/-- A record as it was read: its ID, its sequence number and its bytes. -/
structure SsRec where
  id : Nat
  seq : BitVec 32
  bytes : List (BitVec 8)
  deriving DecidableEq, Repr

/-! ### Banks (R426, R427) -/

/-- The address of a bank. -/
def ssBase (b : Nat) : Nat := 0x42000000 + b * 0x20000

/-- Record bytes of a bank (Table 17-6). -/
def ssRoom : Nat := 126912

/-- Commit copy `k` of a bank where it is valid (R427). -/
def Dev.ssCopy (d : Dev) (b k : Nat) : Option (BitVec 32) :=
  if d.load32 (ssBase b + 8 * k + 4) = ~~~ (d.load32 (ssBase b + 8 * k)) then some (d.load32 (ssBase b + 8 * k)) else none

/-- The SEQ of a bank where its commit word is valid: two valid and equal copies. -/
def Dev.ssSeq (d : Dev) (b : Nat) : Option (BitVec 32) :=
  match d.ssCopy b 0, d.ssCopy b 1, d.ssCopy b 2 with
  | some x, some y, z => if x = y ∨ z = some x then some x else if z = some y then some y else none
  | some x, none, some z => if x = z then some x else none
  | none, some y, some z => if y = z then some y else none
  | _, _, _ => none

/-- The active bank (R427): of two valid banks the one whose SEQ does not precede the other's; none where the store is empty. -/
def Dev.ssActive (d : Dev) : Option Nat :=
  match d.ssSeq 0, d.ssSeq 1 with
  | some x, some y => if 2 ^ 31 ≤ (x - y).toNat then some 1 else some 0
  | some _, none => some 0
  | none, some _ => some 1
  | none, none => none

/-- The four words of directory entry `e` of a bank. -/
def Dev.ssDir (d : Dev) (b e : Nat) : List (BitVec 32) := (List.range 4).map (fun k => d.load32 (ssBase b + 0x40 + 16 * e + 4 * k))

/-- The directory entries in use. -/
def Dev.ssEntries (d : Dev) (b : Nat) : List (List (BitVec 32)) :=
  ((List.range 256).map (d.ssDir b)).filter (fun w => wbits (w.getD 0 0) 15 0 ≠ 0)

/-- The record of a directory entry where its CRC holds. -/
def Dev.ssEntry (d : Dev) (b : Nat) (w : List (BitVec 32)) : Option SsRec :=
  let bs := d.loadBytes (ssBase b + (w.getD 1 0).toNat) (wbits (w.getD 0 0) 31 16)
  if crc32 bs = w.getD 3 0 then some { id := wbits (w.getD 0 0) 15 0, seq := w.getD 2 0, bytes := bs } else none

/-! ### Reading (R430) -/

/-- The record of an entry of the active bank `b`: its own copy, or with the mark true the other bank's where that bank is valid and its copy passes. -/
def Dev.ssRead (d : Dev) (b : Nat) (w : List (BitVec 32)) : Option (SsRec × Bool) :=
  match d.ssEntry b w with
  | some r => some (r, false)
  | none =>
    if (d.ssSeq (1 - b)).isNone then none
    else match (d.ssEntries (1 - b)).find? (fun v => wbits (v.getD 0 0) 15 0 = wbits (w.getD 0 0) 15 0) with
      | some v => (d.ssEntry (1 - b) v).map (fun r => (r, true))
      | none => none

/-- A reader asks for a record: 0 and the record, 1 no such record, 2 it failed; OLDREC and CRCERR show (R430). -/
def Dev.ssFind (id : Nat) (d : Dev) : (Nat × SsRec) × Dev :=
  let no : SsRec := { id := id, seq := 0, bytes := [] }
  match d.ssActive with
  | none => ((1, no), d)
  | some b =>
    match (d.ssEntries b).find? (fun w => wbits (w.getD 0 0) 15 0 = id) with
    | none => ((1, no), d)
    | some w =>
      match d.ssRead b w with
      | some (r, old) => ((0, r), if old then d.setFlag SS_STAT_OLDREC else d)
      | none => ((2, no), d.setFlag SS_STAT_CRCERR)

/-- The records of the active bank that can be read. -/
def Dev.ssRecords (d : Dev) : List SsRec :=
  match d.ssActive with
  | none => []
  | some b => (d.ssEntries b).filterMap (fun w => (d.ssRead b w).map (fun r => r.1))

/-- The bytes a record takes: each starts on an 8-byte boundary. -/
def ssPad (n : Nat) : Nat := (n + 7) / 8 * 8

/-- The bytes that records take in all. -/
def ssUsed (rs : List SsRec) : Nat := rs.foldl (fun n r => n + ssPad r.bytes.length) 0

/-- What the SS registers show of the active bank (Table 17-8). -/
def Dev.ssShow (d : Dev) : Dev :=
  let d := (d.wrb SS_STAT_EMPTY d.ssActive.isNone).wr SS_STAT_CUR (d.ssActive.getD 0)
  let d := d.setReg SS_SEQ ((d.ssActive.bind d.ssSeq).getD 0)
  let es := (d.ssActive.map d.ssEntries).getD []
  let used := es.foldl (fun n w => n + ssPad (wbits (w.getD 0 0) 31 16)) 0
  (d.wr SS_FREE_BYTES (ssRoom - used)).wr SS_NREC_N es.length

/-! ### A commit (R428) -/

/-- The records of the new state: the changed one carries its sequence number plus 1, or 1 when it is new. -/
def ssNext (id : Nat) (bs : Option (List (BitVec 8))) (rs : List SsRec) : List SsRec :=
  let was := rs.find? (fun r => r.id = id)
  let out := rs.filter (fun r => r.id ≠ id)
  match bs with
  | none => out
  | some b => out ++ [{ id := id, seq := (was.map (fun r => r.seq + 1)).getD 1, bytes := b }]

/-- Why the arguments of a commit are refused (Table 17-8): 4 BADARG, 3 NOTFOUND, 1 NOSPACE; 0 otherwise. -/
def Dev.ssCheck (d : Dev) (id : Nat) (bs : Option (List (BitVec 8))) : Nat :=
  let rs := ssNext id bs d.ssRecords
  if id = 0 ∨ 0x8000 ≤ id ∨ bs.any (fun b => b.length = 0 || decide (4096 < b.length)) then 4
  else if bs.isNone ∧ ¬ d.ssRecords.any (fun r => r.id = id) then 3
  else if ssRoom < ssUsed rs ∨ 256 < rs.length then 1 else 0

/-- Write a list of records into bank `b`: directory and data, from directory entry `e` and data offset `o`. -/
def Dev.ssPut (b : Nat) : List SsRec → Nat → Nat → Dev → Dev
  | [], e, _, d => d.storeWords (ssBase b + 0x40 + 16 * e) (List.replicate (4 * (256 - e)) 0)
  | r :: rs, e, o, d =>
    let d := d.storeWords (ssBase b + 0x40 + 16 * e) [w32 (r.id + r.bytes.length * 2 ^ 16), w32 o, r.seq, crc32 r.bytes]
    (d.storeBytes (ssBase b + o) r.bytes).ssPut b rs (e + 1) (o + ssPad r.bytes.length)

/-- The bank a commit writes and the SEQ it gives (R428); an empty store counts as bank 0 with SEQ 0 (log entry 88). -/
def Dev.ssTarget (d : Dev) : Nat × BitVec 32 :=
  match d.ssActive with
  | some b => (1 - b, (d.ssSeq b).getD 0 + 1)
  | none => (1, 1)

/-- Steps 1 and 2 of a commit: the inactive bank takes the new state, its commit copies 0. -/
def Dev.ssStage (id : Nat) (bs : Option (List (BitVec 8))) (d : Dev) : Dev :=
  let b := d.ssTarget.1
  let rs := ssNext id bs d.ssRecords
  (d.storeWords (ssBase b) (List.replicate 6 0)).ssPut b rs 0 0x1040

/-- Step 4: the commit copies are written and the bank becomes the active one. -/
def Dev.ssSeal (b : Nat) (seq : BitVec 32) (d : Dev) : Dev :=
  let d := d.storeWords (ssBase b) [seq, ~~~ seq, seq, ~~~ seq, seq, ~~~ seq]
  d.ssShow.inc SS_CNT_COMMITS

/-- The sequence number a record has in the new state. -/
def Dev.ssRseq (d : Dev) (id : Nat) : BitVec 32 := ((d.ssRecords.find? (fun r => r.id = id)).map (fun r => r.seq + 1)).getD 1

/-- Firmware makes a whole commit within one of its commands (log entry 89): the result of SS_RES, and the record's sequence number. -/
def Dev.ssCommit (id : Nat) (bs : Option (List (BitVec 8))) (d : Dev) : (Nat × BitVec 32) × Dev :=
  let res := d.ssCheck id bs
  if res ≠ 0 then ((res, 0), d.wr SS_RES_RES res)
  else
    let t := d.ssTarget
    let q := d.ssRseq id
    let d := ((d.ssStage id bs).ssSeal t.1 t.2).wr SS_RES_RES 0
    ((0, q), if bs.isSome then d.setReg SS_RSEQ q else d)

/-! ### The firmware records whose layout the manual leaves open (log entry 77) -/

/-- REPAIRS: one word for each repair. -/
def RowRepair.word (r : RowRepair) : BitVec 32 := w32 (r.row + r.bank * 2 ^ 12 + r.isle * 2 ^ 16 + r.cls * 2 ^ 24)

/-- A repair from its word. -/
def rowRepairOf (w : BitVec 32) : RowRepair := { cls := wbits w 24 24, isle := wbits w 22 16, bank := wbits w 15 12, row := wbits w 9 0 }

/-- The words of a record, none where it is absent or failed. -/
def Dev.ssWords (id : Nat) (d : Dev) : List (BitVec 32) × Dev :=
  let r := d.ssFind id
  (bytesWords r.1.2.bytes (r.1.2.bytes.length / 4), r.2)

/-- The repairs recorded (R315). -/
def Dev.ssRepairs (d : Dev) : List RowRepair × Dev :=
  let r := d.ssWords 3
  (r.1.map rowRepairOf, r.2)

/-- The retired ranks recorded (R340): channel and chip select. -/
def Dev.ssRanks (d : Dev) : List (Nat × Nat) × Dev :=
  let r := d.ssWords 4
  (r.1.map (fun w => (wbits w 0 0, wbits w 3 2)), r.2)

/-- Record one more retired rank; while the settings controller is busy it waits. -/
def Dev.ssRetire (c cs : Nat) (d : Dev) : Dev :=
  if d.on SS_STAT_BUSY then { d with power := { d.power with late := d.power.late ++ [(c, cs)] } }
  else
    let r := d.ssWords 4
    (r.2.ssCommit 4 (some (wordsBytes (r.1 ++ [w32 (c + 4 * cs)])))).2

/-- The settings controller is free: the ranks that waited are recorded. -/
def Dev.ssLate (d : Dev) : Dev :=
  let l := d.power.late
  forList l (fun (q : Nat × Nat) d => d.ssRetire q.1 q.2) { d with power := { d.power with late := [] } }

/-! ### The BOOT record (R218, R306) -/

/-- The BOOT record's four words: PTR0, PTR1, SEL, TRIAL. An absent record reads as zeros (log entry 90). -/
def bootVote (ws : List (BitVec 32)) : List (BitVec 32) :=
  (List.range 4).map (fun k =>
    majority (ws.getD k 0) (ws.getD (k + 4) 0) (ws.getD (k + 8) 0))

/-- Read the BOOT record by majority; a minority copy is rewritten from the vote (R306). -/
def Dev.bootRecord (d : Dev) : List (BitVec 32) × Dev :=
  let r := d.ssWords 1
  let ws := padZero r.1
  let v := bootVote ws
  if ws = v ++ v ++ v then (v, r.2)
  else
    let d := r.2.tmrFixed
    (v, (d.ssCommit 1 (some (wordsBytes (v ++ v ++ v)))).2)
where
  padZero (ws : List (BitVec 32)) : List (BitVec 32) := (ws ++ List.replicate 12 0).take 12

/-- Commit the BOOT record (R378): every field three times. -/
def Dev.bootCommit (v : List (BitVec 32)) (d : Dev) : Nat × Dev :=
  let r := d.ssCommit 1 (some (wordsBytes (v ++ v ++ v)))
  (r.1.1, r.2)

end Sys2Proof.Machine
end

