-- ==== Sys2Proof/Machine/DramBase.lean ====
section
/-! DEFINITION. DRAM addresses (R324 to R326), and the errors of a burst with the retirement of a rank (R338 to R342). -/
namespace Sys2Proof.Machine

/-- Channel `c`. -/
def Dev.chan (d : Dev) (c : Nat) : DChan := tget DChan.reset d.dram c

/-- The block with channel `c` replaced. -/
def Dev.setChan (c : Nat) (x : DChan) (d : Dev) : Dev := { d with dram := tset DChan.reset d.dram c x }

/-! ### Addresses -/

/-- Mapped ranks of a channel (R321). -/
def Dev.dramRanks (d : Dev) (c : Nat) : Nat := match d.rd (DC_CHc_CFG_NRANK c) with | 0 => 1 | 1 => 2 | _ => 4

/-- log2 of the bytes of a rank: (64 / width) × density (R321). -/
def Dev.rankBits (d : Dev) (c : Nat) : Nat := 33 + min 2 (d.rd (DC_CHc_CFG_DENS c)) - min 2 (d.rd (DC_CHc_CFG_WIDTH c))

/-- The mapped capacity of a channel, 0 where it is disabled (R324). -/
def Dev.dramSize (d : Dev) (c : Nat) : Nat := if d.on (DC_CHc_CFG_EN c) then d.dramRanks c * 2 ^ d.rankBits c else 0

/-- The channel and the local address of a DRAM address; none beyond the populated size (R324). -/
def Dev.dramMap (d : Dev) (a : Nat) : Option (Nat × Nat) :=
  let g := min 8 (d.rd DC_MAP_GRAIN) + 8
  let o := a - 0x1000000000
  let z0 := d.dramSize 0
  let z1 := d.dramSize 1
  let m := min z0 z1
  let r : Nat × Nat :=
    if d.on DC_MAP_ILV then
      if o < 2 * m then (o / 2 ^ g % 2, o / 2 ^ (g + 1) * 2 ^ g + o % 2 ^ g)
      else (if z1 < z0 then 0 else 1, o - m)
    else if o < z0 then (0, o) else (1, o - z0)
  if r.2 < d.dramSize r.1 then some r else none

/-- Address bits below the row: the bursts of all banks (Table 13-3). -/
def Dev.rowShift (d : Dev) (c : Nat) : Nat := if 2 ≤ d.rd (DC_CHc_CFG_WIDTH c) then 16 else 17

/-- The rank index of a local address (R325). -/
def Dev.rankIdx (d : Dev) (c l : Nat) : Nat := l / 2 ^ d.rankBits c

/-- The row of a local address. -/
def Dev.rowOf (d : Dev) (c l : Nat) : Nat := l % 2 ^ d.rankBits c / 2 ^ d.rowShift c

/-- The bank a component receives, bank group * 4 + bank, hashed where BXOR says so (R325, R326). -/
def Dev.bankOf (d : Dev) (c l : Nat) : Nat :=
  let row := d.rowOf c l
  let wide := 2 ≤ d.rd (DC_CHc_CFG_WIDTH c)
  let bg := if wide then bits l 6 6 else bits l 6 6 + 2 * bits l 14 14
  let ba := if wide then bits l 15 14 else bits l 16 15
  if d.on DC_MAP_BXOR then
    (Nat.xor bg (if wide then bits row 2 2 else bits row 3 2)) * 4 + Nat.xor ba (bits row 1 0)
  else bg * 4 + ba

/-- The chip select of a mapped rank index: the k-th one in ascending order without the spare (R325). -/
def Dev.chipSel (d : Dev) (c k : Nat) : Nat :=
  let sp := d.rd (DC_CHc_CFG_SPARE c)
  ((List.range 5).filter (fun i => i ≠ sp)).getD k 0

/-- The rank index of a chip select in use; none for the spare or an absent one. -/
def Dev.idxOf (d : Dev) (c cs : Nat) : Option Nat := (List.range (d.dramRanks c)).find? (fun k => d.chipSel c k = cs)

/-- A migration is past the block of a local address: requests go to the spare (R341). -/
def Dev.moved (d : Dev) (c l : Nat) : Bool :=
  match (d.chan c).mig with
  | some m => d.rankIdx c l = m.idx && decide (l % 2 ^ d.rankBits c / 32768 < d.rd (DC_CHc_MIGP_BLOCKS c))
  | none => true

/-- The chip select that serves a local address: the spare where it has taken over (R340, R341). -/
def Dev.servedBy (d : Dev) (c l : Nat) : Nat :=
  let k := d.rankIdx c l
  if (d.chan c).spareFor = some k ∧ d.moved c l then d.rd (DC_CHc_CFG_SPARE c) else d.chipSel c k

/-- The status of an access to a DRAM address before its data are looked at (R323, R324, R340): 0 OK, 1 DECERR, 2 UNCORR, 3 OFFLINE. -/
def Dev.dramStatus (d : Dev) (a : Nat) : Nat :=
  match d.dramMap a with
  | none => 1
  | some (c, l) =>
    if d.net.closed.contains (100 + c) || !d.domUp (100 + c) then 3
    else if ¬ d.on (DC_CHc_STAT_READY c) then 1
    else if (d.chan c).dead.contains (d.rankIdx c l) then 2
    else 0

/-! ### Retirement (R340, R342) -/

/-- Blocks of 32 KiB in a rank. -/
def Dev.rankBlocks (d : Dev) (c : Nat) : Nat := 2 ^ d.rankBits c / 32768

/-- End a migration: MIGRATED, result 0 done or 1 ended by an error of the spare (R341, R342). -/
def Dev.endMigration (c res : Nat) (d : Dev) : Dev :=
  let x := d.chan c
  let x := match x.mig with
    | some m => if res = 1 then { x with mig := none, spareFor := none, dead := x.dead ++ [m.idx] } else { x with mig := none }
    | none => x
  ((d.setChan c x).wr (DC_CHc_STAT_MIGR c) 0).post 0x52 [w32 c, d.reg (DC_CHc_MIGP c), w32 res]

/-- Retire chip select `cs` of channel `c` (R340): cause 0 data, 1 command, 2 a write of RETIRE. A rank retired already stays so; the
retirement of the spare that serves an index ends its migration, or its service (R342). -/
def Dev.retireRank (c cs cause : Nat) (d : Dev) : Dev :=
  if d.rdBit (DC_CHc_STAT_RETIRED c) cs then d
  else
    let sp := d.rd (DC_CHc_CFG_SPARE c)
    let d := d.wrBit (DC_CHc_STAT_RETIRED c) cs true
    let d := d.ssRetire c cs
    let x := d.chan c
    let r : Bool × Dev :=
      match d.idxOf c cs with
      | none =>
        if cs = sp ∧ x.spareFor.isSome then
          if x.mig.isSome then (false, d.endMigration c 1)
          else (false, d.setChan c { x with dead := x.dead ++ x.spareFor.toList, spareFor := none })
        else (false, d)
      | some k =>
        if sp < 4 ∧ ¬ d.on (DC_CHc_STAT_SPUSED c) ∧ ¬ d.rdBit (DC_CHc_STAT_RETIRED c) sp then
          let m : Migr := { idx := k, total := d.rankBlocks c, at_ := d.now, step := false }
          let d := d.setChan c { x with spareFor := some k, mig := some m }
          (true, ((d.wr (DC_CHc_STAT_SPUSED c) 1).wr (DC_CHc_STAT_MIGR c) 1).setReg (DC_CHc_MIGP c) 0)
        else (false, d.setChan c { x with dead := x.dead ++ [k] })
    (r.2.f0 0x0C (c * 4 + cs)).post 0x51 [w32 c, w32 cs, w32 (b2n r.1), w32 cause]

/-! ### Errors (R338, R339) -/

/-- Count a corrected error of a channel (R338): DC_LB as the buckets of R317. -/
def Dev.dramCe (c l : Nat) (d : Dev) : Dev :=
  let d := d.inc (DC_CHc_CNT0_CE c)
  let x := d.chan c
  if max 1 (d.rd DC_LB_THRESH) ≤ x.bucket.count + 1 then
    let d := d.setChan c { x with bucket := { x.bucket with count := 0, ovfc := min 65535 (x.bucket.ovfc + 1) } }
    ((d.setFlag DC_STAT_CE).raiseIrq 3).post 0x50 [0, w32 (0x100 + c), w32 l, w32 (l / 2 ^ 32), 0]
  else d.setChan c { x with bucket := { x.bucket with count := x.bucket.count + 1 } }

/-- Log an uncorrectable error of a channel (R339): `cmd` for a command error. -/
def Dev.dramUe (c cs l : Nat) (cmd : Bool) (d : Dev) : Dev :=
  let d := ((d.inc (DC_CHc_CNT0_UE c)).setFlag DC_STAT_UE).raiseIrq 3
  let d :=
    if d.on DC_UELOG_HI_VALID then d
    else (((((d.wr DC_UELOG_LO_ADDR l).wr DC_UELOG_HI_ADDR (l / 2 ^ 32)).wr DC_UELOG_HI_CH c).wr DC_UELOG_HI_RANK cs).wrb DC_UELOG_HI_CMD cmd).setFlag
      DC_UELOG_HI_VALID
  d.post 0x50 [1, w32 (0x100 + c), w32 l, w32 (l / 2 ^ 32), 0]

/-- A read meets the beat at DRAM address `a` (R338, R339): true where it is uncorrectable, which retires the rank. -/
def Dev.dramBeat (a : Nat) (d : Dev) : Bool × Dev :=
  match d.dramMap a with
  | none => (true, d)
  | some (c, l) =>
    match d.wordErr a with
    | 0 => (false, d)
    | 1 => (false, (d.dramCe c l).setErr a 0)
    | _ => let cs := d.servedBy c l
           (true, (d.dramUe c cs l false).retireRank c cs 0)

end Sys2Proof.Machine
end

