-- ==== Sys2Proof/Machine/Mem.lean ====
section
/-! DEFINITION. Access to the memories by every requester but the cells: the target and its status (R15, R17, R290), codes (R303, R319), and the merge
buffers (R307 to R309). Accesses by addresses that are no memory are in BusRead.lean and BusWrite.lean. -/
namespace Sys2Proof.Machine

/-! ### Targets -/

/-- What lies at a physical address (Table 01-4): 0 the Sound, 1 a lagoon, 2 core SRAM, 3 the configuration aperture, 4 CSRs, 5 the event table, 6 the
settings store's window, 7 the embedded NV's window, 8 flash, 9 DRAM, 10 nothing. -/
def areaOf (a : Nat) : Nat :=
  if a < 0x800000 then 0
  else if 0x10000000 ≤ a ∧ a < 0x10C00000 then 1
  else if 0x20000000 ≤ a ∧ a < 0x20200000 then 2
  else if 0x30000000 ≤ a ∧ a < 0x30200000 then 3
  else if 0x40000000 ≤ a ∧ a < 0x40100000 then 4
  else if 0x41000000 ≤ a ∧ a < 0x41080000 then 5
  else if 0x42000000 ≤ a ∧ a < 0x42040000 then 6
  else if 0x50000000 ≤ a ∧ a < 0x50100000 then 7
  else if 0x60000000 ≤ a ∧ a < 0x70000000 then 8
  else if 0x1000000000 ≤ a ∧ a < 0x3000000000 then 9
  else 10

/-- The NI a request to an address goes to (Table 11-2). -/
def Dev.niOf (d : Dev) (a : Nat) : Nat :=
  match areaOf a with
  | 0 => 32 + a / 256 % 4
  | 1 => let n := (a - 0x10000000) / 0x20000
         n % 12 / 2 + n / 12 / 2 * 6
  | 2 => 24 + (a - 0x20000000) / 0x80000
  | 9 => match d.dramMap a with
         | some (1, _) => 37
         | _ => 36
  | _ => 39

/-- The power domain of a memory address, where it has one: lagoons, core SRAM (R291). -/
def memDomain (a : Nat) : Option Nat :=
  match areaOf a with
  | 1 => some ((a - 0x10000000) / 0x20000)
  | 2 => some (96 + (a - 0x20000000) / 0x80000)
  | _ => none

/-- A target domain is closed or powered down (R291). -/
def Dev.offline (d : Dev) (x : Nat) : Bool := d.net.closed.contains x || !d.domUp x

/-- An OFFLINE response is produced (R291). -/
def Dev.countOffline (d : Dev) : Dev := (d.inc PN_OFFCNT_CNT).setFlag PN_STAT_OFFL

/-- The status of a read of a memory or a read window before its words are looked at: 0 OK, 1 DECERR, 2 UNCORR, 3 OFFLINE (Table 11-5). -/
def Dev.memStatus (d : Dev) (a : Nat) : Nat :=
  match memDomain a with
  | some x => if d.offline x then 3 else 0
  | none =>
    match areaOf a with
    | 0 => 0
    | 6 => 0
    | 7 => 0
    | 8 => 0
    | 9 => d.dramStatus a
    | _ => 1

/-! ### Merge buffers (R307 to R309) -/

/-- The merge buffer of an address: 0–15 the Sound's banks, 16 + n the lagoon of isle n. -/
def mergeBuf (a : Nat) : Option Nat := (regionOf a).bind (fun r => if r < 112 then some r else none)

/-- The entries of a merge buffer, least recently used first. -/
def Dev.merged (d : Dev) (b : Nat) : List MergeEnt := tget [] d.integ.merge b

/-- The block with a merge buffer replaced. -/
def Dev.setMerged (b : Nat) (l : List MergeEnt) (d : Dev) : Dev :=
  { d with integ := { d.integ with merge := tset [] d.integ.merge b l } }

/-- The word at `w` has an entry. -/
def Dev.hasEntry (d : Dev) (w : Nat) : Bool :=
  match mergeBuf w with
  | some b => (d.merged b).any (fun e => e.addr = w)
  | none => false

/-- Flush the entry of word `w`: one write of the whole word with new check bits (R308). The bytes are in memory already. -/
def Dev.flushEntry (b w : Nat) (d : Dev) : Dev :=
  if (d.merged b).any (fun e => e.addr = w) then
    (d.setMerged b ((d.merged b).filter (fun e => e.addr ≠ w))).eccWrite w
  else d

/-- A write of some bytes of the word at `w` takes or finds its entry (R307, R309): false where the old word is uncorrectable. `mask` has a bit for
each byte written, `full` the mask of a whole word. -/
def Dev.mergeWrite (b w mask full : Nat) (d : Dev) : Bool × Dev :=
  match (d.merged b).find? (fun e => e.addr = w) with
  | some e =>
    let m := Nat.lor e.written mask
    let rest := (d.merged b).filter (fun x => x.addr ≠ w)
    let d := d.setMerged b (rest ++ [{ e with written := m, at_ := d.now }])
    (true, if m = full then d.flushEntry b w else d)
  | none =>
    let d := match d.merged b with
      | e :: _ => if 8 ≤ (d.merged b).length then d.flushEntry b e.addr else d
      | [] => d
    let r := d.eccRead w 2
    if r.1 then (false, r.2)
    else
      let d := r.2
      (true, d.setMerged b (d.merged b ++ [{ addr := w, written := mask, at_ := d.now }]))

/-! ### Reading -/

/-- The code words that `n` bytes from `a` touch, lowest first. -/
def codeWords (a n : Nat) : List Nat := ((List.range n).map (fun i => codeWord (a + i))).eraseDups

/-- A requester's read meets the word at `w` (R304, R308, R319, R338): true where it is uncorrectable; the F0 fault 0x0D names its region. -/
def Dev.readWord (w : Nat) (d : Dev) : Bool × Dev :=
  if areaOf w = 9 then d.dramBeat w
  else if d.hasEntry w then (false, d)
  else
    let r := d.eccRead w 0
    (r.1, if r.1 then match regionOf w with | some g => r.2.f0 0x0D g | none => r.2 else r.2)

/-- Read every word of a list; true where one is uncorrectable. -/
def Dev.readWords (ws : List Nat) (d : Dev) : Bool × Dev :=
  ws.foldl (fun r w => let q := r.2.readWord w; (r.1 || q.1, q.2)) (false, d)

/-- Read `n` bytes of memory at `a`, as it stands (R289): the status of Table 11-5 and the bytes, none where the status is not OK. -/
def Dev.memReadNow (a n : Nat) (d : Dev) : (Nat × List (BitVec 8)) × Dev :=
  match d.memStatus a with
  | 0 =>
    let r := d.readWords (codeWords a n)
    if r.1 then ((2, []), r.2) else ((0, d.loadBytes a n), r.2)
  | 3 => ((3, []), d.countOffline)
  | s => ((s, []), d)

/-! ### Writing -/

/-- A network-port write of a lagoon word (R103): the cells' reads of this ACLK return the word before it, and it stands over their writes. -/
def Dev.netWrite (w : Nat) (d : Dev) : Dev :=
  if areaOf w = 1 then
    let n := (w - 0x10000000) / 0x20000
    let a := (w - 0x10000000) % 0x20000 / 4
    let i := (d.isle n).noteOld a (d.load32 w)
    d.setIsle n { i with ports := i.ports.map (fun p => if p.write && p.addr = a then { p with old := none } else p) }
  else d

/-- Write part or all of the code word at `w`: `bs` from address `a` within it (R307, R309). The status is OK or UNCORR. -/
def Dev.writeWord (w a : Nat) (bs : List (BitVec 8)) (d : Dev) : Nat × Dev :=
  let size := if areaOf w = 1 then 4 else 8
  let mask := (2 ^ bs.length - 1) * 2 ^ (a - w)
  let d := d.netWrite w
  match mergeBuf w with
  | some b =>
    if bs.length = size ∧ ¬ d.hasEntry w then (0, (d.storeBytes a bs).eccWrite w)
    else
      let r := d.mergeWrite b w mask (2 ^ size - 1)
      if r.1 then (0, r.2.storeBytes a bs) else (2, r.2)
  | none =>
    if bs.length = size then (0, (d.storeBytes a bs).eccWrite w)
    else
      let r := d.eccRead w 0
      if r.1 then (2, r.2) else (0, (r.2.storeBytes a bs).eccWrite w)

/-- Write bytes word by word; the status is the first that is not OK. -/
def Dev.writeWords (a : Nat) (bs : List (BitVec 8)) : List Nat → Dev → Nat × Dev
  | [], d => (0, d)
  | w :: ws, d =>
    let lo := max a w
    let hi := min (a + bs.length) (w + if areaOf w = 1 then 4 else 8)
    let r := d.writeWord w lo ((bs.drop (lo - a)).take (hi - lo))
    let q := r.2.writeWords a bs ws
    (if r.1 = 0 then q.1 else r.1, q.2)

/-- Write bytes to DRAM, all within one burst (R329): less than the whole burst reads and checks it first. -/
def Dev.dramWrite (a : Nat) (bs : List (BitVec 8)) (d : Dev) : Nat × Dev :=
  let b := a / 64 * 64
  let r := if bs.length = 64 then (false, d) else d.readWords (codeWords b 64)
  if r.1 then (2, r.2)
  else (0, forList (codeWords a bs.length) (fun w d => d.setErr w 0) (r.2.storeBytes a bs))

/-- Write bytes to memory at `a` as it stands (R289): the status of Table 11-5; the read windows answer DECERR. -/
def Dev.memWriteNow (a : Nat) (bs : List (BitVec 8)) (d : Dev) : Nat × Dev :=
  match if areaOf a = 6 ∨ areaOf a = 7 ∨ areaOf a = 8 then 1 else d.memStatus a with
  | 0 => if areaOf a = 9 then d.dramWrite a bs else d.writeWords a bs (codeWords a bs.length)
  | 3 => (3, d.countOffline)
  | s => (s, d)

end Sys2Proof.Machine
end

