-- ==== Sys2Proof/Machine/Net.lean ====
section
/-! DEFINITION. The packet network's configuration (R277 to R293, R301): routes and their commit, queue divisions, counters; messages on VC3; and the trigger
queues of the DMA engines (R294, R302). -/
namespace Sys2Proof.Machine

/-! ### Routes (R280 to R283) -/

/-- The codes that the two words of a route entry hold (Table 11-10). -/
def routeCodes (lo hi : BitVec 32) : List Nat :=
  (List.range (wbits hi 3 0)).map (fun j => if j < 10 then wbits lo (3 * j + 2) (3 * j) else if j < 12 then wbits hi (3 * j - 12) (3 * j - 14) else 7)

/-- Follow route codes from router `r` to NI `d` (R282): every code but the last is a hop that stays in the mesh, no W follows another direction,
the last ejects at the NI. -/
def routeFollow (d : Nat) : Nat → Bool → List Nat → Bool
  | _, _, [] => false
  | r, _, [c] => decide (4 ≤ c) && decide (c ≤ 6) && decide ((niPlace d).1 = r) && (c = (niPlace d).2.1 || c = (niPlace d).2.2)
  | r, other, c :: cs =>
    match c with
    | 0 => decide (r / 6 < 3) && routeFollow d (r + 6) true cs
    | 1 => decide (r % 6 < 5) && routeFollow d (r + 1) true cs
    | 2 => decide (0 < r / 6) && routeFollow d (r - 6) true cs
    | 3 => !other && decide (0 < r % 6) && routeFollow d (r - 1) false cs
    | _ => false

/-- A route from NI `i` to NI `d` is one the NI accepts (R282). -/
def routeOk (i d : Nat) (lo hi : BitVec 32) : Bool :=
  decide (1 ≤ wbits hi 3 0) && decide (wbits hi 3 0 ≤ 12) && routeFollow d (niPlace i).1 false (routeCodes lo hi)

/-- Requests of NI `i` that wait in the DRAM channels' queues (R327). -/
def Dev.dramWaiting (d : Dev) (i : Nat) : List Packet :=
  (d.dram.flatMap (fun e => e.2.queue.map (fun q => q.pkt))).filter (fun p => p.src = i)

/-- Requests of NI `i` to NI `t` that are not answered yet (R283); packets held at the NI have not been sent. -/
def Dev.outstanding (d : Dev) (i t : Nat) : Nat :=
  (d.net.reqs.filter (fun p => p.src = i && p.dst = t && !p.held)).length + (d.net.resps.filter (fun p => p.src = i && p.dst = t)).length +
    ((d.dramWaiting i).filter (fun p => p.dst = t)).length

/-- The requests of NI `i` that are not answered yet (R288). -/
def Dev.outstandingOf (d : Dev) (i : Nat) : Nat :=
  (d.net.reqs.filter (fun p => p.src = i && !p.held)).length + (d.net.resps.filter (fun p => p.src = i)).length + (d.dramWaiting i).length

/-- Show how many requests NI `i` has outstanding. -/
def Dev.showOutst (i : Nat) (d : Dev) : Dev := d.wr (PN_NIi_STAT_OUTST i) (d.outstandingOf i)

/-- The route commit that waits at NI `i`. -/
def Dev.routeWait (d : Dev) (i : Nat) : Option RouteCommit := tget none d.net.commit i

/-- The block with the commit at NI `i` replaced. -/
def Dev.setRouteWait (i : Nat) (c : Option RouteCommit) (d : Dev) : Dev :=
  ({ d with net := { d.net with commit := tset none d.net.commit i c } }).wrb (PN_NIi_STAT_RTBUSY i) c.isSome

/-- A write of the HI word of entry `t` of NI `i` (R282, R283): refused with RTERR, or its commit waits. One commit waits at a time. -/
def Dev.routeCommit (i t : Nat) (hi : BitVec 32) (d : Dev) : Dev :=
  let hi := w32 (Nat.land hi.toNat 0x803F000F)
  let lo := d.reg (PN_RTi_d_LO i t)
  if ¬ routeOk i t lo hi then d.setFlag (PN_NIi_STAT_RTERR i)
  else if (d.routeWait i).isSome then d.setFlag PN_STAT_CFGERR
  else d.setRouteWait i (some { dest := t, lo := lo, hi := hi, at_ := d.now })

/-- Release the oldest of some requests that NI `i` may send: those of no waiting commit, `k` at most (R283, R288). -/
def releaseReqs (ok : Packet → Bool) : Nat → List Packet → List Packet
  | _, [] => []
  | 0, l => l
  | k + 1, p :: t => if p.held && ok p then { p with held := false } :: releaseReqs ok k t else p :: releaseReqs ok (k + 1) t

/-- Release what NI `i` held and may send now (R283, R288): requests while fewer than 64 are outstanding, responses and messages. -/
def Dev.releaseHeld (i : Nat) (d : Dev) : Dev :=
  let free := fun (t : Nat) => !(d.routeWait i).any (fun c => c.dest = t)
  let room := 64 - d.outstandingOf i
  let n := { d.net with
    reqs := releaseReqs (fun p => p.src = i && free p.dst) room d.net.reqs,
    resps := d.net.resps.map (fun (p : Packet) => if p.dst = i ∧ free p.src then { p with held := false } else p),
    msgs := d.net.msgs.map (fun (p : Packet) => if p.src = i ∧ free p.dst then { p with held := false } else p) }
  ({ d with net := n } : Dev).showOutst i

/-- Every request of the waiting commit is answered: the entry takes the route (R283). -/
def Dev.routeDone (i : Nat) (d : Dev) : Dev :=
  match d.routeWait i with
  | none => d
  | some c =>
    if d.outstanding i c.dest ≠ 0 then d
    else
      let d : Dev := { d with net := { d.net with routes := tset none d.net.routes (i * 64 + c.dest) (some (c.lo, c.hi)) } }
      (((d.setReg (PN_RTi_d_LO i c.dest) c.lo).setReg (PN_RTi_d_HI i c.dest) c.hi).setRouteWait i none).releaseHeld i

/-- The wait of 1,600 ACLK expires (R283): an answer of this ACLK lets the commit proceed (R57). -/
def Dev.routeTimeout (i : Nat) (d : Dev) : Dev :=
  match d.routeWait i with
  | none => d
  | some c =>
    if d.now < c.at_ + 1600 ∨ d.outstanding i c.dest = 0 then d
    else ((d.setFlag (PN_NIi_STAT_RTTO i)).setRouteWait i none).releaseHeld i

/-! ### Queue divisions (R285, R292) -/

/-- The division in force at router `r`. -/
def Dev.division (d : Dev) (r : Nat) : BitVec 16 := tget 0x8888#16 d.net.qcfg r

/-- A division is allowed (R292): every VC has 5 flits and together they are at most 32. -/
def divisionOk (v : Nat) : Bool :=
  let f := fun (k : Nat) => v / 16 ^ k % 16
  (List.range 4).all (fun k => decide (5 ≤ f k)) && decide (f 0 + f 1 + f 2 + f 3 ≤ 32)

/-- The block with the hold of router `r` replaced. -/
def Dev.setHold (r : Nat) (h : Option (Nat × BitVec 16)) (d : Dev) : Dev := { d with net := { d.net with hold := tset none d.net.hold r h } }

/-- A write of PN_RTRr_CTL.APPLY (R292): BADCFG, or the queues whose division changes are held. -/
def Dev.qcfgApply (r : Nat) (d : Dev) : Dev :=
  let v := d.rd (⟨PN_RTRr_QCFG r, 15, 0⟩)
  if (tget none d.net.hold r).isSome then d
  else if ¬ divisionOk v then d.wr (PN_RTRr_CST_RES r) 3
  else (d.setHold r (some (d.now, BitVec.ofNat 16 v))).wr (PN_RTRr_CST_RES r) 1

/-- The flits that VC `vc` may hold under a division. -/
def vcFlits (v : BitVec 16) (vc : Nat) : Nat := v.toNat / 16 ^ vc % 16

/-- Every packet under way. -/
def Dev.inNet (d : Dev) : List Packet := d.net.reqs ++ d.net.resps ++ d.net.msgs

/-- The input queues of router `r` that hold new heads back (R292): those of the VCs whose division changes. -/
def Dev.heldQueue (d : Dev) (r vc : Nat) : Bool := (tget none d.net.hold r).any (fun h => vcFlits h.2 vc ≠ vcFlits (d.division r) vc)

/-- The queues that router `r` holds are empty (R292). -/
def Dev.heldEmpty (d : Dev) (r : Nat) : Bool := !d.inNet.any (fun p => d.heldQueue r p.vc && p.legs.any (fun l => l.loc = r))

/-- The held queues are empty: the new division applies (R292). -/
def Dev.qcfgDone (r : Nat) (d : Dev) : Dev :=
  match tget none d.net.hold r with
  | none => d
  | some (_, v) =>
    if ¬ d.heldEmpty r then d else
    ((({ d with net := { d.net with qcfg := tset 0x8888#16 d.net.qcfg r v } } : Dev)).setHold r none).wr (PN_RTRr_CST_RES r) 0

/-- The hold of 1,600 ACLK expires: the old division stays, unless the queues are empty in this ACLK (R57, R292). -/
def Dev.qcfgTimeout (r : Nat) (d : Dev) : Dev :=
  match tget none d.net.hold r with
  | none => d
  | some (t, _) => if d.now < t + 1600 ∨ d.heldEmpty r then d else (d.setHold r none).wr (PN_RTRr_CST_RES r) 2

/-! ### Counters (R293) -/

/-- The bin of a latency (Table 11-6). -/
def latencyBin (l : Nat) : Nat := ((List.range 7).find? (fun k => l < 32 * 2 ^ k)).getD 7

/-- Add to a 64-bit byte counter of two registers, saturating. -/
def Dev.addBytes (lo hi n : Nat) (d : Dev) : Dev := d.wr64 lo hi (BitVec.ofNat 64 (min (2 ^ 64 - 1) ((d.rd64 lo hi).toNat + n)))

/-- Count a request of NI `i` as its response head arrives (R293). -/
def Dev.countLatency (i l : Nat) (d : Dev) : Dev :=
  if d.on PN_CTRL_STATEN then
    (d.inc (⟨PN_NIi_HISTk i (latencyBin l), 31, 0⟩)).wr (PN_NIi_MAXLAT_LAT i) (max (d.rd (PN_NIi_MAXLAT_LAT i)) (min 65535 l))
  else d

/-- Count the data bytes of a read response to NI `i`, or of a write request it sends (R293). -/
def Dev.countBytes (i n : Nat) (write : Bool) (d : Dev) : Dev :=
  if d.on PN_CTRL_STATEN then
    if write then d.addBytes (PN_NIi_WRB_LO i) (PN_NIi_WRB_HI i) n else d.addBytes (PN_NIi_RDB_LO i) (PN_NIi_RDB_HI i) n
  else d

/-- PN_CLR (R301): PN_OFFCNT and every NI counter clear. -/
def Dev.pnClr (d : Dev) : Dev :=
  forUpTo 40 (fun i d =>
    let d := forUpTo 8 (fun k d => d.setReg (PN_NIi_HISTk i k) 0) d
    (((((d.setReg (PN_NIi_RDB_LO i) 0).setReg (PN_NIi_RDB_HI i) 0).setReg (PN_NIi_WRB_LO i) 0).setReg (PN_NIi_WRB_HI i) 0).setReg (PN_NIi_MAXLAT i) 0))
    (d.setReg PN_OFFCNT 0)

/-- A write of a PN register (R301). -/
def Dev.pnWrite (a : Nat) (v : BitVec 32) (d : Dev) : Dev :=
  if a = PN_CLR then if wbit v 0 then d.pnClr else d
  else if PN_RTi_d_LO 0 0 ≤ a ∧ a < PN_RTi_d_LO 40 0 then
    let i := (a - PN_RTi_d_LO 0 0) / 0x200
    let t := (a - PN_RTi_d_LO 0 0) % 0x200 / 8
    if 40 ≤ t then d
    else if a % 8 = 0 then d.setReg a (w32 (v.toNat % 2 ^ 30))
    else if a % 8 = 4 then d.routeCommit i t v
    else d
  else if PN_RTRr_WGT 0 ≤ a ∧ a < PN_RTRr_WGT 24 ∧ (a - PN_RTRr_WGT 0) % 0x10 = 8 then
    if wbit v 0 then d.qcfgApply ((a - PN_RTRr_WGT 0) / 0x10) else d
  else d.plainWrite a v

/-- A read of a PN register (R301): a _LO counter word captures its _HI word. -/
def Dev.pnRead (a : Nat) (d : Dev) : BitVec 32 × Dev :=
  if PN_NIi_STAT 0 ≤ a ∧ a < PN_NIi_STAT 40 then
    let i := (a - PN_NIi_STAT 0) / 0x40
    match (a - PN_NIi_STAT 0) % 0x40 with
    | 0x08 => (d.reg a, { d with net := { d.net with capRd := tset 0#32 d.net.capRd i (d.reg (PN_NIi_RDB_HI i)) } })
    | 0x0C => (tget 0#32 d.net.capRd i, d)
    | 0x10 => (d.reg a, { d with net := { d.net with capWr := tset 0#32 d.net.capWr i (d.reg (PN_NIi_WRB_HI i)) } })
    | 0x14 => (tget 0#32 d.net.capWr i, d)
    | _ => (if (regRow? a).isSome then d.reg a else 0, d)
  else (if (regRow? a).isSome then d.reg a else 0, d)

/-! ### Messages (R284, R291) -/

/-- The NI serves a domain that is closed or down (R291). -/
def Dev.niClosed (d : Dev) (n : Nat) : Bool :=
  if 24 ≤ n ∧ n < 28 then d.offline (96 + (n - 24))
  else if n = 36 ∨ n = 37 then d.offline (100 + (n - 36))
  else if n = 38 then d.offline 103
  else false

/-- The NI that closes with a domain (R291): those of cores, DRAM channels and the host link. The shoal NIs and the harbour NI close per target. -/
def niOfDomain (x : Nat) : Option Nat :=
  if 96 ≤ x ∧ x < 100 then some (x - 72) else if x = 100 ∨ x = 101 then some (x - 64) else if x = 103 then some 38 else none

/-- Show whether the NI of domain `x` is open (R291, R301). -/
def Dev.showOpen (x : Nat) (open_ : Bool) (d : Dev) : Dev :=
  match niOfDomain x with
  | some n => d.wrb (PN_NIi_STAT_OPEN n) open_
  | none => d

/-- A payload reaches queue `q` of NI `n` on VC3. -/
def Dev.vc3Put (n q : Nat) (v : BitVec 32) (d : Dev) : Dev :=
  { d with net := { d.net with vc3 := tset [] d.net.vc3 (n * 256 + q) (tget [] d.net.vc3 (n * 256 + q) ++ [v]) } }

/-! ### DMA triggers (R294) -/

/-- The queued triggers of engine `e`. -/
def Dev.dmaQueue (d : Dev) (e : Nat) : List Nat := tget [] d.net.queue e

/-- The block with the queue of engine `e` replaced. -/
def Dev.setDmaQueue (e : Nat) (l : List Nat) (d : Dev) : Dev :=
  ({ d with net := { d.net with queue := tset [] d.net.queue e l } }).wr (DM_ENGe_STAT_QLEN e) l.length

/-- A trigger reaches engine `e` (R294): queued, or dropped where the engine is disabled or eight are queued. -/
def Dev.dmaTrigger (e t : Nat) (d : Dev) : Dev :=
  if d.on (DM_ENGe_CFG_EN e) ∧ (d.dmaQueue e).length < 8 then d.setDmaQueue e (d.dmaQueue e ++ [t])
  else ((d.inc (DM_ENGe_CNT1_DROPC e)).setFlag (DM_ENGe_STAT_QOVR e)).f0 0x08 e

/-- Clear an engine's counters (R302). -/
def Dev.dmaClr (e : Nat) (d : Dev) : Dev := (d.setReg (DM_ENGe_CNT0 e) 0).setReg (DM_ENGe_CNT1 e) 0

/-! ### The commands -/

/-- ROUTE_COMMIT (R282). -/
def execRouteCommit (i t : Fin 40) (v : BitVec 32) (s : State) : Host.Outcome State Fault Refusal := onDev (Dev.routeCommit i.val t.val v) s
/-- ROUTE_COMMIT_DONE (R283). -/
def execRouteCommitDone (i : Fin 40) (s : State) : Host.Outcome State Fault Refusal := onDev (Dev.routeDone i.val) s
/-- ROUTE_COMMIT_TIMEOUT (R283). -/
def execRouteCommitTimeout (i : Fin 40) (s : State) : Host.Outcome State Fault Refusal := onDev (Dev.routeTimeout i.val) s
/-- QCFG_APPLY (R292). -/
def execQcfgApply (r : Fin 24) (s : State) : Host.Outcome State Fault Refusal := onDev (Dev.qcfgApply r.val) s
/-- QCFG_APPLY_DONE (R292). -/
def execQcfgApplyDone (r : Fin 24) (s : State) : Host.Outcome State Fault Refusal := onDev (Dev.qcfgDone r.val) s
/-- QCFG_TIMEOUT (R292). -/
def execQcfgTimeout (r : Fin 24) (s : State) : Host.Outcome State Fault Refusal := onDev (Dev.qcfgTimeout r.val) s
/-- PN_CLR (R301). -/
def execPnClr (s : State) : Host.Outcome State Fault Refusal := onDev Dev.pnClr s
/-- DMA_TRIG (R294): a write of DM_ENGe_TRIG with GO. -/
def execDmaTrig (e : Fin 4) (t : Fin 64) (s : State) : Host.Outcome State Fault Refusal :=
  onDev (fun d => (d.wr (DM_ENGe_TRIG_TRIG e.val) t.val).dmaTrigger e.val t.val) s
/-- DM_CLRCNT (R302). -/
def execDmClrcnt (e : Fin 4) (s : State) : Host.Outcome State Fault Refusal := onDev (Dev.dmaClr e.val) s

end Sys2Proof.Machine
end

