-- ==== Sys2Proof/Machine/Dram.lean ====
section
/-! DEFINITION. The DRAM controller (R321 to R344): scheduling, pages, row disturbance, refresh, temperature, retraining, replay, migration. -/
namespace Sys2Proof.Machine

/-! ### Time and ranks -/

/-- DCLK cycles in `a` ACLK: SPEED 0 to 6 is 800 to 1,600 MHz in steps of a sixth of ACLK (Table 13-4). -/
def Dev.dclk (d : Dev) (c a : Nat) : Nat := a * (6 + min 6 (d.rd (DC_CHc_CFG_SPEED c))) / 6

/-- `n` DCLK have passed since ACLK `t`. -/
def Dev.dclkPast (d : Dev) (c t n : Nat) : Bool := decide (n ≤ d.dclk c (d.now - t))

/-- The channel is trained and its domain is up. -/
def Dev.dramReady (d : Dev) (c : Nat) : Bool := d.on (DC_CHc_STAT_READY c) && d.domUp (100 + c)

/-- The chip selects a channel uses: mapped ranks and the spare. -/
def Dev.chipSels (d : Dev) (c : Nat) : List Nat :=
  (List.range 4).filter (fun s => (d.idxOf c s).isSome || s = d.rd (DC_CHc_CFG_SPARE c))

/-- Bank `b` of chip select `s`. -/
def DChan.bank (x : DChan) (s b : Nat) : DBank := tget DBank.reset x.banks (s * 16 + b)

/-- The channel with a bank replaced. -/
def DChan.setBank (x : DChan) (s b : Nat) (k : DBank) : DChan := { x with banks := tset DBank.reset x.banks (s * 16 + b) k }

/-- Chip select `s`. -/
def DChan.rank (x : DChan) (s : Nat) : DRank := tget DRank.reset x.ranks s

/-- The channel with a rank replaced. -/
def DChan.setRank (x : DChan) (s : Nat) (r : DRank) : DChan := { x with ranks := tset DRank.reset x.ranks s r }

/-- The local address of a queued request. -/
def Dev.reqLocal (d : Dev) (q : DReq) : Nat := ((d.dramMap q.pkt.addr).map (fun r => r.2)).getD 0

/-- A request is queued for chip select `s`. -/
def Dev.rankBusy (d : Dev) (c s : Nat) : Bool := (d.chan c).queue.any (fun q => d.servedBy c (d.reqLocal q) = s)

/-- A queued request hits row `row` of a bank. -/
def Dev.rowWanted (d : Dev) (c s b row : Nat) : Bool :=
  (d.chan c).queue.any (fun q => let l := d.reqLocal q; d.servedBy c l = s && d.bankOf c l = b && d.rowOf c l = row)

/-! ### Configuration (R323, R344) -/

/-- Ranks retired in an earlier run stay so (R340): the spare serves the first from the start, the others are out of service. -/
def Dev.bootRetired (c : Nat) (d : Dev) : Dev :=
  forList ((List.range 4).filter (fun s => d.rdBit (DC_CHc_STAT_RETIRED c) s)) (fun s d =>
    let x := d.chan c
    let sp := d.rd (DC_CHc_CFG_SPARE c)
    match d.idxOf c s with
    | none => d
    | some k =>
      if sp < 4 ∧ x.spareFor.isNone ∧ ¬ d.rdBit (DC_CHc_STAT_RETIRED c) sp then (d.setChan c { x with spareFor := some k }).wr (DC_CHc_STAT_SPUSED c) 1
      else d.setChan c { x with dead := x.dead ++ [k] }) d

/-- A write of DC_CHc_CFG (R323, R344): refused while the channel is enabled; enabling it starts its training. -/
def Dev.chanCfg (c : Nat) (v : BitVec 32) (d : Dev) : Dev :=
  if d.on (DC_CHc_CFG_EN c) then d.setFlag DC_STAT_CFGERR
  else
    let d := d.plainWrite (DC_CHc_CFG c) v
    if d.on (DC_CHc_CFG_EN c) then
      let d := (d.wr (DC_CHc_SIZE_GIB c) (d.dramSize c / 2 ^ 30)).bootRetired c
      d.setChan c { d.chan c with training := true }
    else d

/-- A channel's training completes (R323). -/
def Dev.trainingDone (c : Nat) (d : Dev) : Dev :=
  if (d.chan c).training ∧ d.domUp (100 + c) then (d.setChan c { d.chan c with training := false }).wr (DC_CHc_STAT_READY c) 1 else d

/-! ### Refresh (R330, R332) -/

/-- `n` refresh commands of chip select `s`: its rows close; a new window of R330 clears the counts and ends the throttles. -/
def Dev.refreshes (c s n : Nat) (d : Dev) : Dev :=
  if n = 0 then d
  else
    let x := d.chan c
    let x := (List.range 16).foldl (fun (x : DChan) b => x.setBank s b { x.bank s b with row := none }) x
    let x := x.setRank s { x.rank s with post := 0 }
    let win := max 1 (d.rd DC_RH_CFG_RHWIN)
    let d := d.wrBit (DC_CHc_STAT_PD c) s false
    if x.refs + n < win then d.setChan c { x with refs := x.refs + n }
    else
      let thr := x.thr
      let x := { x with refs := (x.refs + n) % win, thr := [],
                        banks := x.banks.foldl (fun t e => tset DBank.reset t e.1 { e.2 with track := [] }) [] }
      let other := (d.chan (1 - c)).thr
      forList (thr.filter (fun t => ¬ other.any (fun o => o.ni = t.ni))) (fun t d =>
        d.wrBit (if t.ni < 32 then DC_RH_THR_LO_NI else DC_RH_THR_HI_NI) (t.ni % 32) false) (d.setChan c x)

/-- The refresh interval in force for a rank (R332): a hot channel halves it from the next refresh (R333). -/
def Dev.trefi (d : Dev) (c s : Nat) : Nat :=
  max 1 (if ((d.chan c).rank s).half then d.rd (DC_CHc_REF_TREFI c) / 2 else d.rd (DC_CHc_REF_TREFI c))

/-- A rank's tREFI has expired (R332): postponed while requests are queued for it, else issued with those postponed. -/
def Dev.refresh (c s : Nat) (d : Dev) : Dev :=
  let r := (d.chan c).rank s
  if ¬ d.dramReady c ∨ ¬ (d.chipSels c).contains s ∨ ¬ d.dclkPast c r.refAt (d.trefi c s) then d
  else
    let r := { r with refAt := d.now, half := d.on (DC_CHc_STAT_HOT c) }
    let d := d.setChan c ((d.chan c).setRank s r)
    if d.rankBusy c s ∧ r.post < min 8 (d.rd (DC_CHc_REF_POST c)) then d.setChan c ((d.chan c).setRank s { r with post := r.post + 1 })
    else d.refreshes c s (r.post + 1)

/-- A refresh of some rank is due and not issued. -/
def Dev.refreshDue (d : Dev) (c : Nat) : Bool := (d.chipSels c).any (fun s => d.dclkPast c ((d.chan c).rank s).refAt (d.trefi c s))

/-! ### Scheduling (R327, R331) -/

/-- The throttle of a source, where it has one. -/
def DChan.throttle (x : DChan) (ni : Nat) : Option Thr := x.thr.find? (fun t => t.ni = ni)

/-- The ACLK from which a request's wait counts: its arrival, or the end of its source's spacing. -/
def Dev.waitFrom (d : Dev) (c : Nat) (q : DReq) : Nat :=
  match (d.chan c).throttle q.pkt.src with
  | some t => max q.at_ (t.last + (d.rd DC_RH_DLY_RHDLY * 6 + 5 + min 6 (d.rd (DC_CHc_CFG_SPEED c))) / (6 + min 6 (d.rd (DC_CHc_CFG_SPEED c))))
  | none => q.at_

/-- The step of a migration copies the block of a local address. -/
def Dev.copying (d : Dev) (c l : Nat) : Bool :=
  match (d.chan c).mig with
  | some m => m.step && d.rankIdx c l = m.idx && l % 2 ^ d.rankBits c / 32768 = d.rd (DC_CHc_MIGP_BLOCKS c)
  | none => false

/-- The oldest request of each source, oldest first. -/
def firstOfEach : List DReq → List Nat → List DReq
  | [], _ => []
  | q :: t, seen => if seen.contains q.pkt.src then firstOfEach t seen else q :: firstOfEach t (q.pkt.src :: seen)

/-- The candidates: no throttled source inside its spacing, no request to a block being copied. -/
def Dev.candidates (d : Dev) (c : Nat) : List DReq :=
  (firstOfEach (d.chan c).queue []).filter (fun q => decide (d.waitFrom c q ≤ d.now) && !d.copying c (d.reqLocal q))

/-- The request hits an open row. -/
def Dev.rowHit (d : Dev) (c : Nat) (q : DReq) : Bool :=
  let l := d.reqLocal q
  ((d.chan c).bank (d.servedBy c l) (d.bankOf c l)).row = some (d.rowOf c l)

/-- The scheduling decision (R327). -/
def Dev.pickReq (d : Dev) (c : Nat) : Option DReq :=
  let l := d.candidates c
  let starved := fun q => d.dclkPast c (d.waitFrom c q) (d.rd (DC_CHc_SCHED_STARVE c))
  match l.find? starved with
  | some q => some q
  | none => match l.find? (d.rowHit c) with
    | some q => some q
    | none => l.head?

/-- Count an activation of a row in a tracker of 16 entries (R330): the new count, and the tracker. -/
def countAct (row : Nat) (t : List (Nat × Nat)) : Nat × List (Nat × Nat) :=
  match t.find? (fun e => e.1 = row) with
  | some e => (e.2 + 1, t.map (fun x => if x.1 = row then (row, e.2 + 1) else x))
  | none =>
    if t.length < 16 then (1, t ++ [(row, 1)])
    else
      let low := t.foldl (fun m e => min m e.2) (t.headD (0, 0)).2
      (low + 1, replaceFirst (fun e => e.2 = low) (fun _ => (row, low + 1)) t)

/-- An activation for source `ni` (R330, R331): a count that reaches RHTH throttles the source. -/
def Dev.activate (c s b row ni : Nat) (d : Dev) : Dev :=
  let x := d.chan c
  let k := countAct row (x.bank s b).track
  let x := { x with thr := x.thr.map (fun (t : Thr) => if t.ni = ni then { t with last := d.now } else t) }
  if max 1 (d.rd DC_RH_CFG_RHTH) ≤ k.1 then
    let x := x.setBank s b { x.bank s b with row := some row, track := k.2.map (fun (e : Nat × Nat) => if e.1 = row then (row, 0) else e) }
    let x := if x.thr.any (fun (t : Thr) => t.ni = ni) then x else { x with thr := x.thr ++ [{ ni := ni, last := d.now }] }
    let d := ((d.setChan c x).setFlagBit (if ni < 32 then DC_RH_THR_LO_NI else DC_RH_THR_HI_NI) (ni % 32)).inc (DC_CHc_CNT1_RHCNT c)
    (d.setFlag DC_STAT_RH).f0 0x0B c
  else d.setChan c (x.setBank s b { x.bank s b with row := some row, track := k.2 })

/-- Send the response to a request on VC1 (R284, R289, R290), held where the target's NI commits its route to the requester's (R283). -/
def Dev.respond (p : Packet) (status : Nat) (data : List (BitVec 8)) (d : Dev) : Dev :=
  let held := (d.routeWait p.dst).any (fun c => c.dest = p.src)
  { d with net := { d.net with resps := d.net.resps ++ [{ p with status := status, data := data, held := held, vc := 1, codes := [], legs := [] }] } }

/-- Perform a request on memory and answer it. -/
def Dev.performMem (p : Packet) (d : Dev) : Dev :=
  if p.write then
    let r := d.memWriteNow p.addr p.data
    r.2.respond p r.1 []
  else
    let r := d.memReadNow p.addr p.len
    r.2.respond p r.1.1 r.1.2

/-- An access of source `ni` to local address `l` of channel `c` (R328, R330 to R332, R334): postponed refreshes come first, the row is opened, the rank
wakes, and the row closes after it where R328 says so. -/
def Dev.rowAccess (c l ni : Nat) (d : Dev) : Dev :=
  let s := d.servedBy c l
  let b := d.bankOf c l
  let row := d.rowOf c l
  let post := ((d.chan c).rank s).post
  let d := if min 8 (d.rd (DC_CHc_REF_POST c)) ≤ post then d.refreshes c s post else d
  let d := if ((d.chan c).bank s b).row = some row then d else d.activate c s b row ni
  let x := d.chan c
  let x := (x.setBank s b { x.bank s b with used := d.now }).setRank s { x.rank s with used := d.now }
  let d := (d.setChan c x).wrBit (DC_CHc_STAT_PD c) s false
  let x := d.chan c
  let d := if d.rd (DC_CHc_PG_IDLE c) = 0 ∧ ¬ d.rowWanted c s b row then d.setChan c (x.setBank s b { x.bank s b with row := none }) else d
  if d.rankBusy c s then d else d.refreshes c s ((d.chan c).rank s).post

/-- Serve a request (R327). -/
def Dev.serveReq (c : Nat) (q : DReq) (d : Dev) : Dev :=
  let d := d.setChan c { d.chan c with queue := (d.chan c).queue.filter (fun r => r ≠ q) }
  (d.rowAccess c (d.reqLocal q) q.pkt.src).performMem q.pkt

/-- DRAM_SERVE (R327): no request is served before READY or in a retraining pause. -/
def Dev.dramServe (c : Nat) (d : Dev) : Dev :=
  if ¬ d.dramReady c ∨ d.on (DC_CHc_STAT_TRAIN c) then d
  else match d.pickReq c with
    | some q => d.serveReq c q
    | none => d

/-! ### Pages and power-down (R328, R334) -/

/-- The idle timer of a bank's row has expired: an access in the DCLK of its expiry keeps the row open (R57, R328). -/
def Dev.pageClose (c s b : Nat) (d : Dev) : Dev :=
  let k := (d.chan c).bank s b
  match k.row with
  | none => d
  | some row =>
    if d.dclkPast c k.used (d.rd (DC_CHc_PG_IDLE c) + 1) ∧ ¬ d.rowWanted c s b row then d.setChan c ((d.chan c).setBank s b { k with row := none }) else d

/-- The power-down timer of a rank has expired: a request in the DCLK of its expiry keeps the rank awake (R57, R334). -/
def Dev.powerDown (c s : Nat) (d : Dev) : Dev :=
  let pdt := d.rd (DC_CHc_PG_PDT c)
  if d.dramReady c ∧ pdt ≠ 0 ∧ (d.chipSels c).contains s ∧ ¬ d.rankBusy c s ∧ d.dclkPast c ((d.chan c).rank s).used (pdt + 1) then
    d.wrBit (DC_CHc_STAT_PD c) s true
  else d

/-! ### Temperature (R333) -/

/-- A temperature poll: hot where a component is, or a read fails; two cool polls end it. -/
def Dev.tempPoll (c : Nat) (hot : Bool) (d : Dev) : Dev :=
  let x := d.chan c
  if ¬ d.dramReady c ∨ d.now < x.pollAt + 800000 * max 1 (d.rd DC_TEMP_PER) then d
  else
    let cool := if hot then 0 else min 2 (x.cool + 1)
    let d := d.setChan c { x with pollAt := d.now, cool := cool }
    if hot then d.wr (DC_CHc_STAT_HOT c) 1 else if 2 ≤ cool then d.wr (DC_CHc_STAT_HOT c) 0 else d

/-! ### Retraining (R336) -/

/-- The next periodic pause of a channel: channel 1 half a period after channel 0. -/
def Dev.pauseDue (d : Dev) (c : Nat) : Nat :=
  let per := 800000 * d.rd DC_TRN_PER
  let t := (d.chan c).trnAt
  if t = 0 ∧ c = 1 then per + per / 2 else t + per

/-- A pause begins where one is due or asked for (R336): after any due refresh, and never beside a migration step. -/
def Dev.retrainPause (c : Nat) (d : Dev) : Dev :=
  let x := d.chan c
  let due := d.rd DC_TRN_PER ≠ 0 ∧ d.pauseDue c ≤ d.now
  if ¬ d.dramReady c ∨ d.on (DC_CHc_STAT_TRAIN c) ∨ x.mig.any (fun m => m.step) ∨ d.refreshDue c ∨ ¬ (due ∨ x.trnReq) then d
  else
    let d := d.setChan c { x with trnAt := if due then d.pauseDue c else x.trnAt, trnReq := false }
    (d.wr (DC_CHc_STAT_TRAIN c) 1).inc (DC_CHc_CNT2_TRN c)

/-- DC_CHc_CTL.TRAIN (R344): a pause now, or as soon as R336 lets one begin. -/
def Dev.trainNow (c : Nat) (d : Dev) : Dev := (d.setChan c { d.chan c with trnReq := true }).retrainPause c

/-- A pause ends (R336): the next one retrains the next rank. -/
def Dev.retrainEnd (c : Nat) (converged : Bool) (d : Dev) : Dev :=
  if ¬ d.on (DC_CHc_STAT_TRAIN c) then d
  else
    let d := d.wr (DC_CHc_STAT_TRAIN c) 0
    let d := if converged then d else d.inc (DC_CHc_CNT2_TRNF c)
    let x := d.chan c
    let nxt := ((List.range 4).map (fun i => (x.turn + 1 + i) % 4)).find? (fun s => (d.chipSels c).contains s)
    d.setChan c { x with turn := nxt.getD 0 }

/-! ### Parity alerts (R337) -/

/-- A parity alert: a replay, or a command error where one comes during the replay. The address logged is a free value. -/
def Dev.parityAlert (c s : Nat) (again : Bool) (d : Dev) : Dev :=
  let d := d.inc (DC_CHc_CNT1_CAPAR c)
  let x := d.chan c
  if again ∧ x.replay.contains s then
    let f := (d.setChan c { x with replay := x.replay.filter (fun r => r ≠ s) }).fresh
    (f.2.dramUe c s (f.1 % 2 ^ 38) true).retireRank c s 1
  else if x.replay.contains s then d
  else d.setChan c { x with replay := x.replay ++ [s] }

/-! ### Migration (R341, R342) -/

/-- A step of the migration begins once the gap has passed; it waits for a retraining pause. -/
def Dev.migStep (c : Nat) (d : Dev) : Dev :=
  match (d.chan c).mig with
  | none => d
  | some m =>
    if m.step ∨ d.now < m.at_ + 800 * d.rd DC_MIG_MGAP ∨ d.on (DC_CHc_STAT_TRAIN c) ∨ ¬ d.dramReady c then d
    else d.setChan c { d.chan c with mig := some { m with step := true } }

/-- The words of the block copied that hold an error. -/
def Dev.blockErrors (d : Dev) (c : Nat) : List Nat :=
  (d.integ.ecc.filter (fun e => areaOf e.1 = 9 && match d.dramMap e.1 with
    | some (k, l) => k = c && d.copying c l
    | none => false)).map (fun e => e.1)

/-- A step ends (R341): an uncorrectable word goes to the spare with two check bits inverted; an error of the spare ends the migration. -/
def Dev.migEnd (c : Nat) (spareOk : Bool) (d : Dev) : Dev :=
  match (d.chan c).mig with
  | none => d
  | some m =>
    if ¬ m.step then d
    else if ¬ spareOk then d.endMigration c 1
    else
      let d := forList (d.blockErrors c) (fun w d =>
        let l := ((d.dramMap w).map (fun r => r.2)).getD 0
        if d.wordErr w = 1 then (d.dramCe c l).setErr w 0
        else (d.dramUe c (d.chipSel c m.idx) l false).setErr w (BitVec.ofNat 72 (3 * 2 ^ 64))) d
      let n := d.rd (DC_CHc_MIGP_BLOCKS c) + 1
      let d := (d.wr (DC_CHc_MIGP_BLOCKS c) n).setChan c { d.chan c with mig := some { m with step := false, at_ := d.now } }
      if n = m.total then d.endMigration c 0 else d

/-! ### The DC registers (R344) -/

/-- Writing 1 to a bit of DC_RH_THR ends that throttle (R331). -/
def Dev.thrClear (ni : Nat) (d : Dev) : Dev :=
  let d := d.clearFlagBit (if ni < 32 then DC_RH_THR_LO_NI else DC_RH_THR_HI_NI) (ni % 32)
  forUpTo 2 (fun c d => d.setChan c { d.chan c with thr := (d.chan c).thr.filter (fun t => t.ni ≠ ni) }) d

/-- DC_CLR. -/
def Dev.dcClr (d : Dev) : Dev :=
  forUpTo 2 (fun c d =>
    (((d.setReg (DC_CHc_CNT0 c) 0).setReg (DC_CHc_CNT1 c) 0).setReg (DC_CHc_CNT2 c) 0).setChan c
      { d.chan c with bucket := { count := 0, ovfc := 0, leak := (d.chan c).bucket.leak } }) d

/-- The leak period of a channel's bucket has passed, in an ACLK before this one (R317, R338). -/
def Dev.dramLeak (c : Nat) (d : Dev) : Dev :=
  let x := d.chan c
  let per := 800000 * max 1 (d.rd DC_LB_LEAKP)
  if d.now ≤ x.bucket.leak + per then d
  else d.setChan c { x with bucket := { x.bucket with count := x.bucket.count - 1, leak := x.bucket.leak + per } }

/-- A read of a DC register. -/
def Dev.dcRead (d : Dev) (a : Nat) : BitVec 32 :=
  let lb := fun c => let b := (d.chan c).bucket; w32 (b.count % 256 + b.ovfc * 2 ^ 16)
  if a = DC_CHc_LBSTAT 0 then lb 0 else if a = DC_CHc_LBSTAT 1 then lb 1 else if (regRow? a).isSome then d.reg a else 0

/-- A write of a channel's register at offset `o` of its block. -/
def Dev.chanWrite (c o : Nat) (v : BitVec 32) (d : Dev) : Dev :=
  let a := DC_CHc_CFG c + o
  if o = 0 then d.chanCfg c v
  else if (8 ≤ o ∧ o ≤ 0x1C) ∧ d.on (DC_CHc_CFG_EN c) then d.setFlag DC_STAT_CFGERR
  else if o = 0x3C then
    let d := d.plainWrite a v
    let d := if wbit v 0 then d.retireRank c (wbits v 2 1) 2 else d
    if wbit v 3 then d.trainNow c else d
  else d.plainWrite a v

/-- A write of a DC register. -/
def Dev.dcWrite (a : Nat) (v : BitVec 32) (d : Dev) : Dev :=
  if a = DC_MAP then if d.on (DC_CHc_CFG_EN 0) ∨ d.on (DC_CHc_CFG_EN 1) then d.setFlag DC_STAT_CFGERR else d.plainWrite a v
  else if a = DC_RH_THR_LO then forUpTo 32 (fun i d => if wbit v i then d.thrClear i else d) d
  else if a = DC_RH_THR_HI then forUpTo 8 (fun i d => if wbit v i then d.thrClear (32 + i) else d) d
  else if a = DC_CLR then if wbit v 0 then d.dcClr else d
  else if DC_CHc_CFG 0 ≤ a ∧ a < DC_CHc_CFG 2 then d.chanWrite ((a - DC_CHc_CFG 0) / 0x100) ((a - DC_CHc_CFG 0) % 0x100) v
  else d.plainWrite a v

/-! ### The commands -/

/-- CHANNEL_ENABLE (R323): a write of DC_CHc_CFG. -/
def execChannelEnable (c : Fin 2) (v : BitVec 32) (s : State) : Host.Outcome State Fault Refusal := onDev (Dev.chanCfg c.val v) s
/-- TRAINING_DONE (R323). -/
def execTrainingDone (c : Fin 2) (s : State) : Host.Outcome State Fault Refusal := onDev (Dev.trainingDone c.val) s
/-- DRAM_SERVE (R327). -/
def execDramServe (c : Fin 2) (s : State) : Host.Outcome State Fault Refusal := onDev (Dev.dramServe c.val) s
/-- PAGE_CLOSE (R328). -/
def execPageClose (c : Fin 2) (r : Fin 4) (b : Fin 16) (s : State) : Host.Outcome State Fault Refusal := onDev (Dev.pageClose c.val r.val b.val) s
/-- REFRESH (R332). -/
def execRefresh (c : Fin 2) (r : Fin 4) (s : State) : Host.Outcome State Fault Refusal := onDev (Dev.refresh c.val r.val) s
/-- TEMP_POLL (R333). -/
def execTempPoll (c : Fin 2) (h : Bool) (s : State) : Host.Outcome State Fault Refusal := onDev (Dev.tempPoll c.val h) s
/-- POWER_DOWN_ENTRY (R334). -/
def execPowerDownEntry (c : Fin 2) (r : Fin 4) (s : State) : Host.Outcome State Fault Refusal := onDev (Dev.powerDown c.val r.val) s
/-- RETRAIN_PAUSE (R336). -/
def execRetrainPause (c : Fin 2) (s : State) : Host.Outcome State Fault Refusal := onDev (Dev.retrainPause c.val) s
/-- TRAIN (R344). -/
def execTrain (c : Fin 2) (s : State) : Host.Outcome State Fault Refusal := onDev (Dev.trainNow c.val) s
/-- RETRAIN_PAUSE_END (R336). -/
def execRetrainPauseEnd (c : Fin 2) (k : Bool) (s : State) : Host.Outcome State Fault Refusal := onDev (Dev.retrainEnd c.val k) s
/-- PARITY_ALERT (R337). -/
def execParityAlert (c : Fin 2) (r : Fin 4) (again : Bool) (s : State) : Host.Outcome State Fault Refusal :=
  onDev (Dev.parityAlert c.val r.val again) s
/-- RETIRE (R340). -/
def execRetire (c : Fin 2) (r : Fin 4) (s : State) : Host.Outcome State Fault Refusal :=
  onDev (fun d => (d.wr (DC_CHc_CTL_RANK c.val) r.val).retireRank c.val r.val 2) s
/-- MIGRATION_STEP (R341). -/
def execMigrationStep (c : Fin 2) (s : State) : Host.Outcome State Fault Refusal := onDev (Dev.migStep c.val) s
/-- MIGRATION_STEP_END (R341). -/
def execMigrationStepEnd (c : Fin 2) (k : Bool) (s : State) : Host.Outcome State Fault Refusal := onDev (Dev.migEnd c.val k) s
/-- RH_THR_CLEAR (R331). -/
def execRhThrClear (n : Fin 40) (s : State) : Host.Outcome State Fault Refusal := onDev (Dev.thrClear n.val) s
/-- DC_CLR (R344). -/
def execDcClr (s : State) : Host.Outcome State Fault Refusal := onDev Dev.dcClr s

end Sys2Proof.Machine
end

