-- ==== Sys2Proof/Machine/Access.lean ====
section
/-! DEFINITION. Accesses to the memories that are performed within one command: by cores, the host, firmware, Ethernet and the hard units (R20, R283, R284,
R293). The packets of the DMA engines and stream ports travel the network instead (Router.lean, Packets.lean). -/
namespace Sys2Proof.Machine

/-! ### What a channel received before (R20) -/

/-- The requests in a channel's queue up to the last one that touches the `n` bytes at `a`: the target received them before this access. -/
def aheadOf (a n : Nat) (q : List DReq) : List DReq :=
  let hits := fun (r : DReq) => decide (r.pkt.addr < a + n) && decide (a < r.pkt.addr + r.pkt.len)
  (q.reverse.dropWhile (fun r => !hits r)).reverse

/-- Serve what DRAM received before an access to `n` bytes at `a` (R20, R289). -/
def Dev.serveAhead (a n : Nat) (d : Dev) : Dev :=
  if areaOf a = 9 then
    match d.dramMap a with
    | some (c, _) => if d.dramReady c then forList (aheadOf a n (d.chan c).queue) (fun q d => d.serveReq c q) d else d
    | none => d
  else d

/-- Read `n` bytes of memory at `a` (R289): the status of Table 11-5 and the bytes, none where the status is not OK. -/
def Dev.memRead (a n : Nat) (d : Dev) : (Nat × List (BitVec 8)) × Dev := (d.serveAhead a n).memReadNow a n

/-- Write bytes to memory at `a` (R289): the status of Table 11-5; the read windows answer DECERR. -/
def Dev.memWrite (a : Nat) (bs : List (BitVec 8)) (d : Dev) : Nat × Dev := (d.serveAhead a bs.length).memWriteNow a bs

/-- A unit at NI `i` accesses `n` bytes at `a`: where they lie in DRAM, the controller serves what comes before it, and opens its row (R20, R328). -/
def Dev.dramTurn (i a n : Nat) (d : Dev) : Dev :=
  if areaOf a = 9 then
    match d.dramMap a with
    | some (c, l) => let d := d.serveAhead a n; if d.memStatus a = 0 then d.rowAccess c l i else d
    | none => d
  else d

/-! ### Packet by packet (R284) -/

/-- The lengths of at most `f` packets from `a`: none crosses a 64-byte boundary (R284). -/
def packetsOf : Nat → Nat → Nat → List Nat
  | 0, _, _ => []
  | f + 1, a, n => if n = 0 then [] else min n (64 - a % 64) :: packetsOf f (a + min n (64 - a % 64)) (n - min n (64 - a % 64))

/-- The lengths of the packets that `n` bytes from `a` take. -/
def packetLens (a n : Nat) : List Nat := packetsOf (n / 64 + 2) a n

/-- Read `n` bytes from `a` packet by packet with `f`: the first status that is not OK, and the bytes where there is none. -/
def Dev.readBy (f : Nat → Nat → Dev → (Nat × List (BitVec 8)) × Dev) (a n : Nat) (d : Dev) : (Nat × List (BitVec 8)) × Dev :=
  (packetLens a n).foldl
    (fun r k => if r.1.1 ≠ 0 then r else
      let q := f (a + r.1.2.length) k r.2
      ((q.1.1, r.1.2 ++ q.1.2), q.2)) ((0, []), d)

/-- Write bytes from `a` packet by packet with `f`; later packets are written where an earlier one failed. -/
def Dev.writeBy (f : Nat → List (BitVec 8) → Dev → Nat × Dev) (a : Nat) (bs : List (BitVec 8)) (d : Dev) : Nat × Dev :=
  let r := (packetLens a bs.length).foldl
    (fun (r : Nat × Nat × Dev) k =>
      let q := f (a + r.2.1) ((bs.drop r.2.1).take k) r.2.2
      (if r.1 = 0 then q.1 else r.1, r.2.1 + k, q.2)) (0, 0, d)
  (r.1, r.2.2)

/-- Read or write memory packet by packet, for a hard unit; its DRAM accesses come from the harbour NI (log entry 228). -/
def Dev.memReadAll (a n : Nat) (d : Dev) : (Nat × List (BitVec 8)) × Dev := d.readBy (fun a n d => (d.dramTurn 39 a n).memRead a n) a n
def Dev.memWriteAll (a : Nat) (bs : List (BitVec 8)) (d : Dev) : Nat × Dev := d.writeBy (fun a bs d => (d.dramTurn 39 a bs.length).memWrite a bs) a bs

/-! ### The NI of an access (R283, R293; log entry 228) -/

/-- A read of the flash window waits until the xSPI command that runs ends (R407). -/
def Dev.flashHeld (d : Dev) (a : Nat) : Bool := areaOf a = 8 && d.on SP_XS_STAT_BUSY

/-- A route commit of NI `i` holds new packets to the target of address `a` (R283), or an xSPI command holds the flash (R407): the command that makes the
access does not happen yet. -/
def Dev.niHold (i a : Nat) (d : Dev) : Dev :=
  if (d.routeWait i).any (fun c => c.dest = d.niOf a) || d.flashHeld a then { d with net := { d.net with stall := true } } else d

/-- An access of NI `i` begins. -/
def Dev.niEnter (i a n : Nat) (d : Dev) : Dev := (d.niHold i a).dramTurn i a n

/-- Count an access of NI `i` (R293): the bytes of a write, those of a read answered OK, and its latency. -/
def Dev.niCount (i n : Nat) (write ok : Bool) (d : Dev) : Dev :=
  (if write || ok then d.countBytes i n write else d).countLatency i (Config.accessLatency i d.now)

/-- Read memory for a unit at NI `i`. -/
def Dev.niMemRead (i a n : Nat) (d : Dev) : (Nat × List (BitVec 8)) × Dev :=
  let r := (d.niEnter i a n).memRead a n
  (r.1, r.2.niCount i n false (r.1.1 = 0))

/-- Write memory for a unit at NI `i`. -/
def Dev.niMemWrite (i a : Nat) (bs : List (BitVec 8)) (d : Dev) : Nat × Dev :=
  let r := (d.niEnter i a bs.length).memWrite a bs
  (r.1, r.2.niCount i bs.length true (r.1 = 0))

/-- Run a command unless one of its accesses is held at its NI (R283). -/
def Dev.unlessHeld (f : Dev → Dev) (d : Dev) : Dev :=
  let e := f d
  if e.net.stall then d else e

end Sys2Proof.Machine
end

