-- ==== Sys2Proof/Machine/Claims.lean ====
section
/-! DEFINITION. The claim registry (R209, R210, R370, R444). -/
namespace Sys2Proof.Machine

/-- How many units a claim class has (Table 08-5); a memory range goes up to the end of the address space. -/
def claimUnits (cls : Nat) : Nat :=
  match cls with
  | 0x01 => 48
  | 0x02 => 64
  | 0x03 => 48
  | 0x04 => 6
  | 0x05 => 16
  | 0x06 => 8
  | 0x07 => 8
  | 0x08 => 48
  | 0x09 => 8
  | 0x0A => 96
  | 0x0B => 48
  | 0x0C => 64
  | 0x0D => 256
  | 0x0E => 8
  | 0x0F => 8
  | 0x10 => 8
  | 0x11 => 4
  | 0x12 => 1
  | 0x13 => 2 ^ 40
  | 0x14 => 6
  | 0x15 => 6
  | 0x16 => 8
  | _ => 0

/-- A claim holds some of a range of resources. -/
def Claim.meets (c : Claim) (cls first len : Nat) : Bool :=
  c.cls = cls && decide (first < c.first + c.len) && decide (c.first < first + len)

/-- What is left of an interval without another: at most two. -/
def cutRange (a b lo hi : Nat) : List (Nat × Nat) :=
  (if lo ≤ a ∨ b ≤ a then [] else [(a, min b lo)]) ++ (if b ≤ hi ∨ b ≤ a then [] else [(max a hi, b)])


/-- Claims in the registry that `p` admits hold all of a range. -/
def coveredBy (cs : List Claim) (cls first len : Nat) : Bool :=
  (cs.filter (fun c => c.cls = cls)).foldl (fun (l : List (Nat × Nat)) c =>
    l.flatMap (fun r => cutRange r.1 r.2 c.first (c.first + c.len))) [(first, first + len)] = []

/-- Claims of images and commands in the registry hold all of a range (R210, R370): firmware's own claims and reservations do not count. -/
def Dev.claimed (d : Dev) (cls first len : Nat) : Bool :=
  coveredBy (d.cfg.claims.filter (fun c => decide (1 ≤ c.holder) && decide (c.holder ≤ 3))) cls first len

/-- Claims without a range of resources: what lies outside the range stays held. -/
def freeClaims (cls first len : Nat) (cs : List Claim) : List Claim :=
  cs.flatMap (fun c => if c.meets cls first len && decide (1 ≤ c.holder) && decide (c.holder ≤ 3) then
      (cutRange c.first (c.first + c.len) first (first + len)).map (fun r => { c with first := r.1, len := r.2 - r.1 })
    else [c])

/-- Claims of images and commands without what a partial image's releases free: firmware's claims and reservations stay (R210). -/
def releasedFrom (rels : List (Nat × Nat × Nat)) (cs : List Claim) : List Claim :=
  rels.foldl (fun cs (r : Nat × Nat × Nat) => freeClaims r.1 r.2.1 r.2.2 cs) cs

/-- The block with its registry replaced. -/
def Dev.setClaims (cs : List Claim) (d : Dev) : Dev := { d with cfg := { d.cfg with claims := cs } }


/-- The staged partial image applies (R210): its releases act and its reserved claims enter the registry. -/
def Dev.claimsApply (d : Dev) : Dev :=
  let cs := releasedFrom d.cfg.releases d.cfg.claims
  ({ d with cfg := { d.cfg with releases := [] } }).setClaims (cs.map (fun (c : Claim) => if c.holder = 5 then { c with holder := 2 } else c))

/-- The staged partial image is abandoned: its reservations lapse (R210). -/
def Dev.claimsLapse (d : Dev) : Dev :=
  ({ d with cfg := { d.cfg with releases := [] } }).setClaims (d.cfg.claims.filter (fun c => c.holder ≠ 5))

end Sys2Proof.Machine
end

