-- ==== Sys2Proof/WellFormed.lean ====
section
/-! DEFINITION. Which commands are well formed: what the operand types do not already say. -/
namespace Sys2Proof

/-- A command whose operands the bus, the pin or the frame it stands for can carry. Register and aperture writes are of aligned
32-bit words (R3, R18); a request through BAR0 lies in its 16 MiB (R347); a doorbell index and a frame have their limits (R398, R364). -/
def Instr.wf : Instr → Bool
  | .registerWrite a _ => a.toNat % 4 = 0
  | .apertureWrite o _ => o.toNat % 4 = 0
  | .pcieRequest bar2 _ o _ => o.toNat % 4 = 0 && (bar2 || o.toNat < 2 ^ 24)
  | .lvdsFrame _ len _ => len ≤ 32
  | .mergeFlush _ a => a.toNat % 8 = 0 || a.toNat % 4 = 0
  | .consoleFrame body => body.length ≤ 64 + 4096 + 4
  | .rxFrame _ f _ => f.length ≤ 65535
  | _ => true

/-- The codes of SA and SB that name a source (Table 04-2). -/
def saOk (c : Nat) : Bool := c < 0x1E || (0x20 ≤ c && c < 0x28)
/-- The codes of SC that name a source (Table 04-3). -/
def scOk (c : Nat) : Bool := c < 0x0B || (0x10 ≤ c && c < 0x17)
/-- The codes of DST that name a destination (Table 04-4). -/
def dstOk (c : Nat) : Bool := c < 0x09 || (0x0C ≤ c && c < 0x1B) || c = 0x1C || c = 0x1D || c = 0x3E || c = 0x3F

/-- The opcode reads bus A, bus B, bus C (Tables 04-5 and 04-6). -/
def opUsesA (op : Nat) : Bool :=
  op = 1 || (3 ≤ op && op ≤ 0x1D) || (0x20 ≤ op && op ≤ 0x29)
def opUsesB (op : Nat) : Bool :=
  [0x03, 0x05, 0x09, 0x0A, 0x0B, 0x0C, 0x0D, 0x1A, 0x1D, 0x29].contains op
def opUsesC (op : Nat) : Bool :=
  [0x02, 0x04, 0x06, 0x0E, 0x0F, 0x10, 0x12, 0x13, 0x14, 0x15, 0x18, 0x1C].contains op || (0x20 ≤ op && op ≤ 0x28) || op = 0x2A

/-- The modes an opcode permits, as a mask over s32, u32, dual s16, complex c16, s16 scalar (Tables 04-5 and 04-6); 0 for a
reserved opcode. -/
def opModes (op : Nat) : Nat :=
  match op with
  | 0x00 | 0x01 | 0x02 | 0x03 | 0x04 | 0x05 | 0x06 | 0x1D => 31
  | 0x07 | 0x08 => 29
  | 0x09 | 0x0A => 23
  | 0x0B | 0x0C | 0x0D | 0x0E | 0x0F | 0x10 | 0x11 | 0x19 | 0x1A => 15
  | 0x12 | 0x13 => 7
  | 0x14 => 5
  | 0x15 | 0x1C => 3
  | 0x16 => 13
  | 0x17 => 1
  | 0x18 => 21
  | 0x1B => 8
  | 0x20 | 0x21 | 0x22 => 31
  | 0x23 | 0x24 | 0x25 | 0x26 | 0x27 | 0x28 => 8
  | 0x29 => 1
  | 0x2A => 13
  | 0x2B => 31
  | _ => 0

/-- The ACC field is permitted for the opcode and mode (Tables 03-3 and 04-6); opcodes that do not use it ignore it (R83). -/
def accOk (op mode acc : Nat) : Bool :=
  match op with
  | 0x20 => acc = 0 || (if mode = 2 then true else if mode = 3 then acc = 3 else acc ≠ 3)
  | 0x21 | 0x22 => acc ≠ 0 && (if mode = 2 then true else if mode = 3 then acc = 3 else acc ≠ 3)
  | 0x23 | 0x26 => acc = 0 || acc = 3
  | 0x24 | 0x25 | 0x27 | 0x28 => acc = 3
  | 0x29 => acc = 1 || acc = 2
  | 0x2A => if mode = 0 then acc = 1 || acc = 2 else acc = 3
  | 0x2B => if mode = 2 ∨ mode = 3 then acc = 3 else acc = 1 || acc = 2
  | _ => true

/-- The context stores a result: it takes DST, the cell output and flags (R87, R91). -/
def Ctx.stores (c : Ctx) : Bool :=
  let op := c.op.toNat
  (1 ≤ op && op ≤ 0x1D) || op = 0x2B || ((op = 0x20 || op = 0x23 || op = 0x26) && c.acc.toNat = 0)

/-- The context produces a cell output (R87). -/
def Ctx.outputs (c : Ctx) : Bool := c.stores && c.dst.toNat ≠ 0x3F

/-- A repeat context (R75). -/
def Ctx.repeats (c : Ctx) : Bool := c.seq.toNat = 2 || c.seq.toNat = 3

/-- A word is malformed (R97), but for the rule of R96, which needs the isle's descriptors. -/
def Ctx.malformed (c : Ctx) : Bool :=
  let op := c.op.toNat
  let mode := c.mode.toNat
  let pair := fun (x : Nat) => x = 0x0A && !(mode = 2 || mode = 3)
  mode ≥ 5 || opModes op / 2 ^ mode % 2 = 0 ||
  (opUsesA op && (!saOk c.sa.toNat || pair c.sa.toNat)) ||
  (opUsesB op && (!saOk c.sb.toNat || pair c.sb.toNat)) ||
  (opUsesC op && (!scOk c.sc.toNat || pair c.sc.toNat)) ||
  (c.stores && !dstOk c.dst.toNat) ||
  !accOk op mode c.acc.toNat ||
  c.seq.toNat = 7 || (c.repeats && c.lvl.toNat = 3) ||
  (c.stores && c.pstep.toNat ≠ 0 && c.dst.toNat = 0x0C + c.psel.toNat) ||
  (c.stores && c.repeats && c.dst.toNat = 0x18 + c.lvl.toNat) ||
  (c.sout.toNat ≠ 0 && (!c.outputs || 7 < c.sch.toNat)) ||
  (c.qp.toNat = 1 && c.role.toNat ≠ 0) ||
  c.rsv.toNat ≠ 0

/-- A well-formed word. -/
def Ctx.wf (c : Ctx) : Bool := !c.malformed

end Sys2Proof
end

