-- ==== Sys2Proof/Machine/Flags.lean ====
section
/-! DEFINITION. Narrowing (R65), the flags of a result (R61, Table 04-7) and conditions (Table 04-8). -/
namespace Sys2Proof.Machine

/-- Flag bits of FLG (Table 03-2). -/
abbrev flgZ : Nat := 0
abbrev flgN : Nat := 1
abbrev flgC : Nat := 2
abbrev flgV : Nat := 3
abbrev flgSV : Nat := 4
abbrev flgAV0 : Nat := 5
abbrev flgAV1 : Nat := 6
abbrev flgZH : Nat := 7
abbrev flgNH : Nat := 8

/-- What narrowing gives: the value within its limits, V (other than low bits changed) and whether it saturated. -/
structure Narrowed where
  x : Int
  v : Bool
  sat : Bool
  deriving DecidableEq, Repr

/-- The exact value shifted by SHF: exact to the left, floor to the right (R65). -/
def shfInt (shf v : Int) : Int := if 0 ≤ shf then v * (2 ^ shf.toNat : Nat) else v / (2 ^ (-shf).toNat : Nat)

/-- The number `x` brought into `n` bits, signed or not. -/
def wrapTo (n : Nat) (sg : Bool) (x : Int) : Int :=
  if sg then toSigned n (ofSigned n x) else (ofSigned n x : Nat)

/-- Narrowing of R65 to `n` bits, signed or unsigned. -/
def narrow (n : Nat) (sg : Bool) (shf : Int) (sat : Bool) (v : Int) : Narrowed :=
  let y := shfInt shf v
  let lo : Int := if sg then -(2 ^ (n - 1) : Nat) else 0
  let hi : Int := if sg then (2 ^ (n - 1) : Nat) - 1 else (2 ^ n : Nat) - 1
  if sat && decide (y < lo) then { x := lo, v := true, sat := true }
  else if sat && decide (hi < y) then { x := hi, v := true, sat := true }
  else { x := wrapTo n sg y, v := decide (y < lo ∨ hi < y), sat := false }

/-- A word from two 16-bit halves. -/
def halves (lo hi : Int) : BitVec 32 := w32 (ofSigned 16 lo + ofSigned 16 hi * 2 ^ 16)

/-- A 16-bit mask with one bit set when `b`. -/
def fbit (i : Nat) (b : Bool) : Nat := if b then 2 ^ i else 0

/-- The flags a stored word sets (R61, Table 04-7): mask and value of Z, N, V and, in dual s16 and complex c16 modes, ZH and NH;
C where the opcode writes it. -/
def resultFlags (mode : Nat) (w : BitVec 32) (v : Bool) (c : Option Bool) : BitVec 16 × BitVec 16 :=
  let two := mode = 2 || mode = 3
  let z := if two then decide (w.toNat % 65536 = 0) else decide (w = 0)
  let n := if two then wbit w 15 else wbit w 31
  let mask := 2 ^ flgZ + 2 ^ flgN + 2 ^ flgV + (if c.isSome then 2 ^ flgC else 0) + (if two then 2 ^ flgZH + 2 ^ flgNH else 0)
  let val := fbit flgZ z + fbit flgN n + fbit flgV v + fbit flgC (c.getD false) +
    (if two then fbit flgZH (decide (w.toNat / 65536 = 0)) + fbit flgNH (wbit w 31) else 0)
  (BitVec.ofNat 16 mask, BitVec.ofNat 16 val)

/-- The flags EXP and NORM set: Z and N only, N 0 for EXP (Table 04-7). -/
def zeroNegFlags (mode : Nat) (w : BitVec 32) (exp : Bool) : BitVec 16 × BitVec 16 :=
  let two := mode = 2 || mode = 3
  let z := if two then decide (w.toNat % 65536 = 0) else decide (w = 0)
  (BitVec.ofNat 16 3, BitVec.ofNat 16 (fbit flgZ z + fbit flgN (!exp && wbit w 31)))

/-- The bits of `mask` replaced by those of `v`. -/
def maskInto (mask v old : BitVec 16) : BitVec 16 := (old &&& ~~~mask) ||| (v &&& mask)

/-- A condition is true of FLG (Table 04-8). -/
def condTrue (cond : Nat) (f : BitVec 16) : Bool :=
  let z := wbit f flgZ
  let n := wbit f flgN
  let c := wbit f flgC
  let v := wbit f flgV
  match cond with
  | 0x0 => true
  | 0x1 => z
  | 0x2 => !z
  | 0x3 => n
  | 0x4 => !n
  | 0x5 => c
  | 0x6 => !c
  | 0x7 => v
  | 0x8 => !v
  | 0x9 => n != v
  | 0xA => n == v
  | 0xB => z || n != v
  | 0xC => !z && n == v
  | 0xD => c && !z
  | 0xE => wbit f flgSV
  | _ => wbit f flgAV0 || wbit f flgAV1

end Sys2Proof.Machine
end

