-- ==== Sys2Proof/Machine/Operands.lean ====
section
/-! DEFINITION. What the cell computes from its operands: the ALU of Table 04-5, the multiplier of Tables 03-3 and 04-6, EXP and
NORM (R69, R70), and the narrowing of an accumulator read (R68). -/
namespace Sys2Proof.Machine

/-- The operands of one context: the words on the three buses, the accumulator a bus A operand names where EXP and NORM see it
whole, FLG as visible and the switch inputs. -/
structure Bus where
  a : BitVec 32
  b : BitVec 32
  c : BitVec 32
  /-- acc0 and acc1 as visible (R68), and the code of SA. -/
  acc0 : BitVec 48
  acc1 : BitVec 48
  sa : Nat
  flg : BitVec 16
  x : List (BitVec 32)
  deriving DecidableEq, Repr

/-- An operation's exact result: one value, or the values of the two halves, and the C flag where it is written. -/
inductive Exact where
  | one (v : Int) (c : Option Bool)
  | two (lo hi : Int) (c : Option Bool)
  deriving DecidableEq, Repr

/-- An accumulator read as a signed value, or as an unsigned one in u32 mode (R68). -/
def accInt (mode : Nat) (a : BitVec 48) : Int := if mode = 1 then (a.toNat : Int) else a.toInt

/-- A single accumulator narrowed to the word a bus or ACCST takes (R68). -/
def accWord (mode : Nat) (shf : Int) (sat : Bool) (a : BitVec 48) : BitVec 32 × Narrowed :=
  let r := if mode = 4 then narrow 16 true shf sat (accInt mode a) else narrow 32 (mode ≠ 1) shf sat (accInt mode a)
  (w32 (ofSigned 32 r.x), r)

/-- The complex pair narrowed: acc0 into [15:0], acc1 into [31:16] (R68). -/
def pairWord (shf : Int) (sat : Bool) (a0 a1 : BitVec 48) : BitVec 32 × Narrowed :=
  let l := narrow 16 true shf sat a0.toInt
  let h := narrow 16 true shf sat a1.toInt
  (halves l.x h.x, { x := 0, v := l.v || h.v, sat := l.sat || h.sat })

/-- An `n`-bit lane read as the mode gives. -/
def laneInt (n : Nat) (sg : Bool) (x : Nat) : Int := if sg then toSigned n x else (x : Int)

/-- One lane of an ALU opcode (Table 04-5): `a` and `y` are `n`-bit numbers, `y` the bus the opcode names. -/
def aluLane (op n : Nat) (sg : Bool) (a y : Nat) : Int × Option Bool :=
  let s := laneInt n sg
  let k := y % n
  match op with
  | 0x01 => (s a, none)
  | 0x02 => (s y, none)
  | 0x03 | 0x04 => (s a + s y, some (decide (2 ^ n ≤ a + y)))
  | 0x05 | 0x06 => (s a - s y, some (decide (y ≤ a)))
  | 0x07 => (- s a, some (decide (a = 0)))
  | 0x08 => ((s a).natAbs, some (decide (s a < 0)))
  | 0x09 => if s y < s a then (s y, some true) else (s a, some false)
  | 0x0A => if s a < s y then (s y, some true) else (s a, some false)
  | 0x0B | 0x0E => (s (Nat.land a y), none)
  | 0x0C | 0x0F => (s (Nat.lor a y), none)
  | 0x0D | 0x10 => (s (Nat.xor a y), none)
  | 0x11 => (s (2 ^ n - 1 - a), none)
  | 0x12 => (s (a * 2 ^ k % 2 ^ n), some (k ≠ 0 && a / 2 ^ (n - k) % 2 = 1))
  | 0x13 => (s (a / 2 ^ k), some (k ≠ 0 && a / 2 ^ (k - 1) % 2 = 1))
  | 0x14 => (toSigned n a / (2 ^ k : Nat), some (k ≠ 0 && a / 2 ^ (k - 1) % 2 = 1))
  | 0x15 =>
    let r := a * 2 ^ k % 2 ^ n + a / 2 ^ (n - k) % 2 ^ k
    (s r, some (k ≠ 0 && r % 2 = 1))
  | 0x18 =>
    let lim : Int := (s y).natAbs
    if lim < s a then (lim, some true) else if s a < -lim then (-lim, some true) else (s a, some false)
  | _ => (s a, none)

/-- The low and high halves of a word. -/
def loHalf (w : BitVec 32) : Nat := w.toNat % 65536
def hiHalf (w : BitVec 32) : Nat := w.toNat / 65536

/-- An ALU opcode on whole words: lanes by the mode (Table 04-5). -/
def aluWord (op mode : Nat) (a y : BitVec 32) : Exact :=
  match mode with
  | 0 => let r := aluLane op 32 true a.toNat y.toNat; .one r.1 r.2
  | 1 => let r := aluLane op 32 false a.toNat y.toNat; .one r.1 r.2
  | 4 => let r := aluLane op 16 true (loHalf a) (loHalf y); .one r.1 r.2
  | _ =>
    let l := aluLane op 16 true (loHalf a) (loHalf y)
    let h := aluLane op 16 true (hiHalf a) (hiHalf y)
    .two l.1 h.1 l.2

/-- The exact result of an ALU opcode 0x01–0x15 or 0x18–0x1D (Table 04-5). -/
def aluExact (op mode cond : Nat) (u : Bus) : Exact :=
  match op with
  | 0x02 => aluWord 0x02 mode u.a u.c
  | 0x04 => aluWord 0x04 mode u.a u.c
  | 0x06 => aluWord 0x06 mode u.a u.c
  | 0x0E => aluWord 0x0E mode u.a u.c
  | 0x0F => aluWord 0x0F mode u.a u.c
  | 0x10 => aluWord 0x10 mode u.a u.c
  | 0x12 => aluWord 0x12 mode u.a u.c
  | 0x13 => aluWord 0x13 mode u.a u.c
  | 0x14 => aluWord 0x14 mode u.a u.c
  | 0x15 => aluWord 0x15 mode u.a u.c
  | 0x18 => aluWord 0x18 mode u.a u.c
  | 0x19 => aluWord 0x01 mode (w32 (hiHalf u.a + loHalf u.a * 65536)) u.b
  | 0x1A => aluWord 0x01 mode (w32 (loHalf u.a + loHalf u.b * 65536)) u.b
  | 0x1B => .two (toSigned 16 (loHalf u.a)) (- toSigned 16 (hiHalf u.a)) none
  | 0x1C => aluWord 0x01 mode (u.x.getD (u.a.toNat / 2 ^ (u.c.toNat % 32) % 8) 0) u.b
  | 0x1D => aluWord 0x01 mode (if condTrue cond u.flg then u.a else u.b) u.b
  | _ => aluWord op mode u.a u.b

/-- A stored result: the word, V and whether a narrowing saturated (R65). -/
def narrowExact (mode : Nat) (shf : Int) (sat : Bool) (e : Exact) : BitVec 32 × Bool × Bool × Option Bool :=
  match e with
  | .one v c =>
    let r := if mode = 4 then narrow 16 true shf sat v else narrow 32 (mode ≠ 1) shf sat v
    (w32 (ofSigned 32 r.x), r.v, r.sat, c)
  | .two lo hi c =>
    let l := narrow 16 true shf sat lo
    let h := narrow 16 true shf sat hi
    (halves l.x h.x, l.v || h.v, l.sat || h.sat, c)

/-- Redundant sign bits of an `n`-bit number (R69). -/
def expCount (n x : Nat) : Nat :=
  let sgn := x / 2 ^ (n - 1) % 2
  (((List.range (n - 1)).reverse).takeWhile (fun i => x / 2 ^ i % 2 = sgn)).length

/-- EXP (R69): a single accumulator over 48 bits, the pair one accumulator at a time, else the word or its halves. -/
def expWord (mode : Nat) (u : Bus) : BitVec 32 :=
  if u.sa = 0x08 then w32 (expCount 48 u.acc0.toNat)
  else if u.sa = 0x09 then w32 (expCount 48 u.acc1.toNat)
  else if u.sa = 0x0A then w32 (expCount 48 u.acc0.toNat + expCount 48 u.acc1.toNat * 65536)
  else if mode = 0 then w32 (expCount 32 u.a.toNat)
  else w32 (expCount 16 (loHalf u.a) + expCount 16 (hiHalf u.a) * 65536)

/-- NORM (R70): shifted left by its EXP count; of an accumulator, bits [47:16] of the shifted value. -/
def normWord (u : Bus) : BitVec 32 :=
  if u.sa = 0x08 then w32 (u.acc0.toNat * 2 ^ expCount 48 u.acc0.toNat % 2 ^ 48 / 2 ^ 16)
  else if u.sa = 0x09 then w32 (u.acc1.toNat * 2 ^ expCount 48 u.acc1.toNat % 2 ^ 48 / 2 ^ 16)
  else w32 (u.a.toNat * 2 ^ expCount 32 u.a.toNat)

/-- Products by mode and ACC (Table 03-3, Table 04-6): `kind` 0 plain, 1 conjugating, 2 bus A real. The pair of values for acc0 and
acc1, or of the halves, or the single sum in the first place. -/
def products (mode kind : Nat) (single : Bool) (a c : BitVec 32) : Int × Int :=
  let ar := toSigned 16 (loHalf a)
  let ai := toSigned 16 (hiHalf a)
  let cr := toSigned 16 (loHalf c)
  let ci := toSigned 16 (hiHalf c)
  match mode with
  | 0 => (a.toInt * c.toInt, 0)
  | 1 => ((a.toNat * c.toNat : Nat), 0)
  | 4 => (ar * cr, 0)
  | 2 => if single then (ar * cr + ai * ci, 0) else (ar * cr, ai * ci)
  | _ =>
    match kind with
    | 0 => (ar * cr - ai * ci, ar * ci + ai * cr)
    | 1 => (ar * cr + ai * ci, ai * cr - ar * ci)
    | _ => (ar * cr, ar * ci)

/-- What a multiplication adds to an accumulator: P[63:16] in s32 and u32 modes, else the sum (Table 03-3). -/
def accTerm (mode : Nat) (p : Int) : Int := if mode ≤ 1 then p / 65536 else p

/-- An accumulator after loading (0), adding (1) or subtracting (2) a term, modulo 2^48, and whether it wrapped (R67): in u32 mode where the sum leaves
0 to 2^48 - 1, in the other modes where it leaves the signed 48-bit range (DESIGN CHOICE, log entry 210). -/
def accStep (mode how : Nat) (old : BitVec 48) (t : Int) : BitVec 48 × Bool :=
  let base := accInt mode old
  let r := if how = 0 then t else if how = 1 then base + t else base - t
  let wrapped := if mode = 1 then decide (r < 0 ∨ (2 ^ 48 : Int) ≤ r) else decide (r < -(2 ^ 47 : Int) ∨ (2 ^ 47 : Int) ≤ r)
  (BitVec.ofInt 48 r, how ≠ 0 && wrapped)

/-- The kind of a multiplier opcode: plain, conjugating or bus A real (Table 04-6). -/
def mulKind (op : Nat) : Nat := if op ≤ 0x22 then 0 else if op ≤ 0x25 then 1 else 2

/-- Loading, accumulating or subtracting (Table 04-6). -/
def mulHow (op : Nat) : Nat := match op with
  | 0x20 | 0x23 | 0x26 => 0
  | 0x21 | 0x24 | 0x27 => 1
  | _ => 2

/-- The circular or linear post-step of a pointer (R64). -/
def postStep (circ : Bool) (p b l : Nat) (step : Int) : Nat :=
  if circ then
    let off : Int := ((p + 32768 - b % 32768) % 32768 : Nat) + step
    let off := if 0 ≤ step ∧ (l : Int) ≤ off then off - l else if step < 0 ∧ off < 0 then off + l else off
    (((b : Int) + off) % 32768).toNat
  else (((p : Int) + step) % 32768).toNat

end Sys2Proof.Machine
end

