-- ==== Sys2Proof/Machine/Cell.lean ====
section
/-! DEFINITION. One context issue of a cell: operands, lagoon accesses, results on their way, sequencing and tokens (R60 to R95, R102, R111,
R115, R116, R122, R137, R140, R465). -/
namespace Sys2Proof.Machine

/-! ### Context words -/

/-- The context word at index `idx` of cell `c` in the active (or staging) copy of an isle (R125). -/
def Isle.ctxWord (i : Isle) (staging : Bool) (c idx : Nat) : BitVec 128 :=
  tget 0#128 i.ctx ((if i.copy != staging then 256 else 0) + c * 16 + idx)

/-- The code-word key of a half of a context word: by physical copy, as the aperture lays it out (Table 08-7). -/
def ctxKey (phys : Bool) (n c idx half : Nat) : Nat :=
  0x30000000 + (if phys then 0x60000 else 0) + n * 0x1000 + c * 0x100 + idx * 16 + half * 8

/-- Read the active context word through the SECDED check (R305): true where it is uncorrectable. -/
def Dev.readCtx (n c idx : Nat) (d : Dev) : Bool × Dev :=
  let ph := (d.isle n).copy
  let r := d.eccReadAs (ctxKey ph n c idx 0) (ctxKey false n c idx 0) 3
  let r2 := r.2.eccReadAs (ctxKey ph n c idx 1) (ctxKey false n c idx 1) 3
  (r.1 || r2.1, r2.2)

/-! ### The lagoon as the cells see it -/

/-- The address of a lagoon word. -/
def lagoonAddr (n a : Nat) : Nat := 0x10000000 + n * 0x20000 + a % 32768 * 4

/-- Accesses in the order of R102: by cell, the pointer access before the direct access. -/
def portOrder (ps : List Port) : List Port :=
  (List.range 16).flatMap (fun c => ps.filter (fun p => p.cell = c && !p.direct) ++ ps.filter (fun p => p.cell = c && p.direct))

/-- Two reads of the same word count as one access (R102). -/
def sameRead (p q : Port) : Bool := !p.write && !q.write && p.addr = q.addr

/-- The accesses that take the two cell ports of bank `b` (R101, R102). -/
def portsTaken (ps : List Port) (b : Nat) : List Port :=
  ((portOrder ps).filter (fun p => p.addr % 8 = b)).foldl (fun t p => if t.any (sameRead p) || decide (2 ≤ t.length) then t else t ++ [p]) []

/-- The access `p` among the accesses `ps` is performed (R102). -/
def portDone (ps : List Port) (p : Port) : Bool :=
  (portsTaken ps (p.addr % 8)).any (fun q => sameRead p q || (p.write && q.write && p.seq = q.seq))

/-- An access is not performed (R102): BANK sets, BANKC counts it, and the isle reports one F1 event for the ACLK. -/
def Dev.bankConflict (n : Nat) (d : Dev) : Dev :=
  let d := (d.setFlag (IS_STAT_BANK n)).inc (IS_CNT2_BANKC n)
  if (d.isle n).conflicted then d else (d.setIsle n { d.isle n with conflicted := true }).f1Isle n 0x20 0 0

/-- Writes of this ACLK that a read ahead of them in the order of R102 deprives of their port are not performed: the word is as before. -/
def Dev.evictWrites (n : Nat) (d : Dev) : Dev :=
  let ps := (d.isle n).ports
  forList (ps.filter (fun p => p.write && p.old.isSome && !portDone ps p)) (fun p d =>
    let d := match p.old with
      | some o => d.store32 (lagoonAddr n p.addr) o
      | none => d
    (d.setIsle n { d.isle n with ports := (d.isle n).ports.map (fun q => if q.seq = p.seq then { q with old := none } else q) }).bankConflict n) d

/-- Note an access of this ACLK and tell whether it is performed (R102); `ahead` are the reads of cells that have yet to issue in it. -/
def Dev.takePort (n : Nat) (p : Port) (ahead : List Port) (d : Dev) : Bool × Dev :=
  let i := d.isle n
  let p := { p with seq := i.ports.length }
  let ok := portDone (i.ports ++ p :: ahead) p
  let d := d.setIsle n { i with ports := i.ports ++ [p] }
  if ok then (true, if p.write then d else d.evictWrites n)
  else (false, if i.ports.any (sameRead p) then d else d.bankConflict n)

/-- A cell reads a lagoon word (R63, R73, R102): the value as it stood before the writes of this ACLK; 0 where the access is not
performed; an uncorrectable word raises the F1 fault of R434, squashes the step of a head or tail context (R147), and its value is free. -/
def Dev.cellRead (n c : Nat) (direct : Bool) (a : Nat) (ahead : List Port) (step : Option RaMark) (d : Dev) : BitVec 32 × Dev :=
  let p := d.takePort n { seq := 0, cell := c, direct := direct, addr := a, write := false, old := none } ahead
  if ¬ p.1 then (0, p.2)
  else
    let e := p.2.eccRead (lagoonAddr n a) 0
    if e.1 then
      let e2 := match step with
        | some m => e.2.squashCause m.task m.step
        | none => e.2
      let f := (e2.f1Isle n 0x24 1 (lagoonAddr n a)).fresh
      (w32 f.1, f.2)
    else
      match (e.2.isle n).old.find? (fun q => q.1 = a) with
      | some q => (q.2, e.2)
      | none => (e.2.load32 (lagoonAddr n a), e.2)

/-- A word of lagoon ranges whose drains run is about to be written: for each of their slots its old value enters the isle's 64-entry undo buffer, or
the slot's record overflows (R158). -/
def Dev.noteUndo (n a : Nat) (old : BitVec 32) (d : Dev) : Dev :=
  let hit := fun (r : SnapRec) => r.ranges.any (fun q => q.isle = n && decide ((a + 32768 - q.base) % 32768 < q.count))
  forList ((d.ahd.snaps.filter (fun e => e.2.record.any hit)).map (fun e => e.1)) (fun s d =>
    let i := d.isle n
    if i.undo.any (fun q => q.1 = s && q.2.1 = a) then d
    else if i.undo.length < 64 then d.setIsle n { i with undo := i.undo ++ [(s, a, old)] }
    else { d with ahd := { d.ahd with snaps := d.ahd.snaps.map (fun e =>
      if e.1 = s then (e.1, { e.2 with record := e.2.record.map (fun r => { r with overrun := true }) }) else e) } }) d

/-- A cell's write reaches its lagoon word (R102, R103). -/
def Dev.cellWrite (n c : Nat) (direct : Bool) (a : Nat) (v : BitVec 32) (d : Dev) : Dev :=
  let old := d.load32 (lagoonAddr n a)
  let p := d.takePort n { seq := 0, cell := c, direct := direct, addr := a, write := true, old := some old } []
  if ¬ p.1 then p.2
  else
    let d := p.2.noteUndo n a old
    ((d.setIsle n ((d.isle n).noteOld a old)).store32 (lagoonAddr n a) v).eccWrite (lagoonAddr n a)

/-- Where an access of a context in an activation marked `m` goes (R137): the frame of its step inside the step window. The flag
tells whether the word lies in the window. -/
def Dev.windowed (d : Dev) (n : Nat) (m : RaMark) (a : Nat) : Nat × Bool :=
  match d.bindingIn m.task n with
  | none => (a, false)
  | some b =>
    let fs := 256 * 2 ^ d.rd (AHD_TBb_WIN_FSZ b)
    let o := (a + 32768 - d.rd (AHD_TBb_WIN_WBASE b)) % 32768
    if o < fs then ((d.rd (AHD_TBb_SHD_SBASE b) + m.step % 8 * fs + o) % 32768, true) else (a, false)

/-! ### Operands -/

/-- The word a switch input's or an outbound channel's select code gives (Table 05-2): a cell output, or the word on an inbound
channel; 0 where nothing drives it, and from a neighbour that is powered down (R107). -/
def Dev.selectWord (d : Dev) (n code : Nat) : BitVec 32 :=
  if 0x10 ≤ code ∧ code < 0x20 then ((d.isle n).cell (code - 0x10)).out
  else if 0x20 ≤ code ∧ code < 0x40 then
    let ch := code % 8
    let nb := fun (ok : Bool) (m side : Nat) => if ok && d.domUp m then tget 0#32 (d.isle m).straitV (side * 8 + ch) else 0
    match code / 8 with
    | 4 => nb (n / 12 < 7) (n + 12) 2
    | 5 => nb (n % 12 < 11) (n + 1) 3
    | 6 => if n < 12 then tget 0#32 (d.isle n).hinV ch else nb true (n - 12) 0
    | _ => nb (0 < n % 12) (n - 1) 1
  else 0

/-- The code word of a byte of the active plane of isle `n` is uncorrectable (R303). -/
def Dev.planeBad (d : Dev) (n byte : Nat) : Bool :=
  d.integ.ecc ≠ [] && d.wordErr (0x300C0000 + (if (d.isle n).copy then 0x60000 else 0) + n * 0x1000 + d.rd (IS_STAT_APL n) % 16 * 0x100 + byte) = 2

/-- A byte of the active plane of isle `n` (R303): of an uncorrectable word, a value the manual does not give (log entry 230). -/
def Dev.planeByte (d : Dev) (n byte : Nat) : Nat :=
  let k := d.rd (IS_STAT_APL n) * 256 + byte
  if d.planeBad n byte then (Config.damagedCode (d.isle n).copy n k).toNat
  else (tget 0#8 (d.isle n).planes ((if (d.isle n).copy then 4096 else 0) + k)).toNat

/-- Switch input X_i of cell `c` (R84, R104). -/
def Dev.switchIn (d : Dev) (n c i : Nat) : BitVec 32 := d.selectWord n (d.planeByte n (8 * c + i))

/-- Signed fields of a context word. -/
def ctxShf (c : Ctx) : Int := c.shf.toInt
def ctxStep (c : Ctx) : Int := c.pstep.toInt
def ctxSat (c : Ctx) : Bool := c.sat = 1#1

/-- The bus word of a source code that is no lagoon access and no immediate: registers, narrowed accumulators, switch inputs
(Tables 04-2 and 04-3), and whether its narrowing saturated. -/
def srcWord (w : Ctx) (r : CRegs) (x : List (BitVec 32)) (code : Nat) : BitVec 32 × Bool :=
  if code = 0x08 then let q := accWord w.mode.toNat (ctxShf w) (ctxSat w) r.acc0; (q.1, q.2.sat)
  else if code = 0x09 then let q := accWord w.mode.toNat (ctxShf w) (ctxSat w) r.acc1; (q.1, q.2.sat)
  else if code = 0x0A then let q := pairWord (ctxShf w) (ctxSat w) r.acc0 r.acc1; (q.1, q.2.sat)
  else if code = 0x1B then (0, false)
  else if 0x20 ≤ code ∧ code < 0x28 then (x.getD (code - 0x20) 0, false)
  else (r.get code, false)

/-- The bus C word of a code other than a lagoon access (Table 04-3). -/
def srcC (w : Ctx) (r : CRegs) (code : Nat) : BitVec 32 × Bool :=
  match code with
  | 0x10 => (w.imm.signExtend 32, false)
  | 0x11 => (w.imm.zeroExtend 32, false)
  | 0x12 => (w32 (w.imm.toNat * 65536), false)
  | 0x13 => (w32 (w.imm.toNat * 65537), false)
  | 0x16 => (0, false)
  | _ => if code < 0x0B then srcWord w r [] code else (0, false)

/-- Which lagoon accesses the context's buses read: pointer and direct. -/
def ctxReadsPtr (w : Ctx) : Bool :=
  (opUsesA w.op.toNat && w.sa.toNat = 0x1C) || (opUsesB w.op.toNat && w.sb.toNat = 0x1C) || (opUsesC w.op.toNat && w.sc.toNat = 0x14)
def ctxReadsDir (w : Ctx) : Bool :=
  (opUsesA w.op.toNat && w.sa.toNat = 0x1D) || (opUsesB w.op.toNat && w.sb.toNat = 0x1D) || (opUsesC w.op.toNat && w.sc.toNat = 0x15)

/-! ### Results -/

/-- The chained value of an accumulator (R71): the last write on its way to the copy, else the visible value. -/
def chained (x : Cell) (shadow : Bool) (i : Nat) : BitVec 48 :=
  let hit := fun (r : CRes) => match r.eff with
    | .acc j _ => j = i && (shadow || r.both)
    | _ => false
  match (x.pend.filter hit).getLast? with
  | some { eff := .acc _ v, .. } => v
  | _ => if shadow then (if i = 0 then x.shad.acc0 else x.shad.acc1) else (if i = 0 then x.arch.acc0 else x.arch.acc1)

/-- What a context computes: a result word with its flags, accumulator writes, sticky flags, and the delay to visibility. -/
structure Computed where
  word : Option (BitVec 32)
  flags : Option (BitVec 16 × BitVec 16)
  accs : List (Nat × BitVec 48)
  sticky : Nat
  delay : Nat
  deriving DecidableEq, Repr

/-- Accumulator writes of a multiplier opcode with ACC named (Table 03-3, Table 04-6). -/
def mulAccs (op mode acc : Nat) (u : Bus) (ch0 ch1 : BitVec 48) : List (Nat × BitVec 48) × Nat :=
  let p := products mode (mulKind op) (acc ≠ 3) u.a u.c
  let how := mulHow op
  if acc = 3 then
    let r0 := accStep mode how ch0 (accTerm mode p.1)
    let r1 := accStep mode how ch1 (accTerm mode p.2)
    ([(0, r0.1), (1, r1.1)], fbit flgAV0 r0.2 + fbit flgAV1 r1.2)
  else if acc = 1 then let r := accStep mode how ch0 (accTerm mode p.1); ([(0, r.1)], fbit flgAV0 r.2)
  else let r := accStep mode how ch1 (accTerm mode p.1); ([(1, r.1)], fbit flgAV1 r.2)

/-- What context `w` computes from its buses (Tables 04-5 and 04-6). `lag` tells whether an operand comes from the lagoon (Table 03-4). -/
def compute (w : Ctx) (u : Bus) (ch0 ch1 : BitVec 48) (lag : Bool) : Computed :=
  let op := w.op.toNat
  let mode := w.mode.toNat
  let acc := w.acc.toNat
  let dl := if lag then 2 else 1
  if op = 0 then { word := none, flags := none, accs := [], sticky := 0, delay := 1 }
  else if op = 0x16 then
    let r := expWord mode u
    { word := some r, flags := some (zeroNegFlags mode r true), accs := [], sticky := 0, delay := dl }
  else if op = 0x17 then
    let r := normWord u
    { word := some r, flags := some (zeroNegFlags mode r false), accs := [], sticky := 0, delay := dl }
  else if op ≤ 0x1D then
    let r := narrowExact mode (ctxShf w) (ctxSat w) (aluExact op mode w.cond.toNat u)
    { word := some r.1, flags := some (resultFlags mode r.1 r.2.1 r.2.2.2), accs := [], sticky := fbit flgSV r.2.2.1, delay := dl }
  else if op ≤ 0x28 then
    if acc = 0 then
      let p := products mode (mulKind op) false u.a u.c
      let e := if mode = 2 ∨ mode = 3 then Exact.two p.1 p.2 none else Exact.one p.1 none
      let r := narrowExact mode (ctxShf w) (ctxSat w) e
      { word := some r.1, flags := some (resultFlags mode r.1 r.2.1 none), accs := [], sticky := fbit flgSV r.2.2.1, delay := 2 }
    else
      let r := mulAccs op mode acc u ch0 ch1
      { word := none, flags := none, accs := r.1, sticky := r.2, delay := 2 }
  else if op = 0x29 then
    let v : BitVec 48 := BitVec.ofNat 48 (loHalf u.a * 2 ^ 32 + u.b.toNat)
    { word := none, flags := none, accs := [(acc - 1, v)], sticky := 0, delay := 2 }
  else if op = 0x2A then
    let accs := if acc = 3 then [(0, BitVec.ofInt 48 (toSigned 16 (loHalf u.c))), (1, BitVec.ofInt 48 (toSigned 16 (hiHalf u.c)))]
      else [(acc - 1, BitVec.ofInt 48 u.c.toInt)]
    { word := none, flags := none, accs := accs, sticky := 0, delay := 2 }
  else
    let r := if acc = 3 then pairWord (ctxShf w) (ctxSat w) u.acc0 u.acc1
      else accWord mode (ctxShf w) (ctxSat w) (if acc = 1 then u.acc0 else u.acc1)
    { word := some r.1, flags := some (resultFlags mode r.1 r.2.v none), accs := [], sticky := fbit flgSV r.2.sat, delay := 1 }

/-- The effects of a computed result (R86 to R89): the destination, the cell output, flags, accumulators. -/
def resultEffs (w : Ctx) (r : Computed) (harbour : Bool) (ptr dir : Option Nat) : List CEff :=
  let accs := r.accs.map (fun a => CEff.acc a.1 a.2)
  let st := if r.sticky = 0 then [] else [CEff.sticky (BitVec.ofNat 16 r.sticky)]
  match r.word with
  | none => accs ++ st
  | some v =>
    let dst := w.dst.toNat
    let stored := if dst = 0x08 then [CEff.flags 0x1FF#16 (BitVec.ofNat 16 (v.toNat % 512))]
      else if dst < 0x1B then [CEff.reg dst v]
      else if dst = 0x1C then (match ptr with | some a => [CEff.lagoon a false v] | none => [])
      else if dst = 0x1D then (match dir with | some a => [CEff.lagoon a true v] | none => [])
      else []
    let fl := if dst = 0x08 then [] else (match r.flags with | some f => [CEff.flags f.1 f.2] | none => [])
    let out := if dst = 0x3F then [] else [CEff.output v w.sout.toNat w.sch.toNat harbour]
    stored ++ fl ++ accs ++ st ++ out

/-! ### Sequencing -/

/-- The next mode of a cell after context `idx` (R74, R75, R94, R115, R116), the loop counter it writes, whether a release credit
is consumed, and whether the context is a yield. -/
def sequence (w : Ctx) (idx : Nat) (r : CRegs) (rcred : Bool) : CMode × Option (Nat × BitVec 32) × Bool × Bool :=
  let nx := w.next.toNat
  let lc := 0x18 + w.lvl.toNat
  match w.seq.toNat with
  | 0 => (.run nx, none, false, false)
  | 1 => (.run (if condTrue w.cond.toNat r.flg then nx else (idx + 1) % 16), none, false, false)
  | 2 => (.run nx, some (lc, w.imm.zeroExtend 32), false, false)
  | 3 =>
    if 2 ≤ (r.get lc).toNat then (.run nx, some (lc, r.get lc - 1), false, false)
    else (.run ((idx + 1) % 16), some (lc, 0), false, false)
  | 4 => if rcred then (.run nx, none, true, false) else (.waitToken idx nx (w.qp = 1#1), none, false, false)
  | 5 => (.idle, none, false, true)
  | _ => (.waitLandfall idx nx (w.qp = 1#1) false, none, false, false)

/-- A context of a run-ahead fired activation acts by its ROLE, any other as a plain context (R465): 0 plain, 1 head, 2 tail, 3 commit. -/
def actRole (w : Ctx) (ra : Option RaMark) : Nat := if ra.isSome then w.role.toNat else 0

/-- A commit context issues before its step's commit ACLK (R140). -/
def commitEarly (now : Nat) (ra : Option RaMark) : Bool :=
  match ra with
  | some m => match m.commitAt with
    | some c => now < c
    | none => true
  | none => false

/-! ### One issue -/

/-- A decode cache after the issue of context `idx`: the entry served, or in the first pass of a repeat block filled, is the most recently used; the
least recently used of four goes (R76). -/
def cacheIssue (first : Bool) (idx : Nat) (l : List Nat) : List Nat :=
  if l.contains idx then l.filter (fun k => k ≠ idx) ++ [idx]
  else if first then (if l.length < 4 then l else l.drop 1) ++ [idx]
  else l

/-- The passes of a cell's repeat blocks after context `w` (R75, R76): a repeat-begin context starts the first pass of its level, a repeat-end
context a later one, or it leaves the block. -/
def passIssue (w : Ctx) (r : CRegs) (p : Tbl Nat) : Tbl Nat :=
  match w.seq.toNat with
  | 2 => tset 0 p w.lvl.toNat 1
  | 3 => tset 0 p w.lvl.toNat (if 2 ≤ (r.get (0x18 + w.lvl.toNat)).toNat then 2 else 0)
  | _ => p

/-- The decode cache and the passes of a cell once context `w` at `idx` has issued (R76). -/
def Cell.cached (x : Cell) (w : Ctx) (idx : Nat) (r : CRegs) : Cell :=
  { x with dcache := cacheIssue (x.pass.any (fun e => e.2 = 1)) idx x.dcache, pass := passIssue w r x.pass }

/-- A malformed or early commit context (R99, R140): nothing is written, the cell continues at the next index. -/
def Dev.issueNothing (n c idx : Nat) (d : Dev) : Dev :=
  d.modCell n c (fun x => { x with mode := .run ((idx + 1) % 16), nextAt := d.now + d.step n })

/-- After a context issued by cell `c` of group `g`: the yield of the last member ends the activation (R111); a quiet point stops the
cell for a pre-emption of its group (R77, R122). -/
def Dev.afterIssue (n c g : Nat) (qp yld : Bool) (d : Dev) : Dev :=
  let d :=
    if qp && (d.isle n).pre.any (fun p => p.victim = g) then
      let at_ := some d.now
      let ps := (d.isle n).pre.map (fun p => if p.victim = g then { p with lastQp := at_ } else p)
      (d.setIsle n { d.isle n with pre := ps }).modCell n c (fun x => match x.mode with
        | .run i => { x with mode := .quiet i }
        | _ => x)
    else d
  if yld && !d.grpBusy n g then d.endActivation n g else d

/-- A write of a speculative context outside its step window: WOUT and an F1 event (R137). -/
def Dev.windowOut (n t : Nat) (d : Dev) : Dev := (d.taskFlag t (AHD_LTt_STAT_WOUT t)).f1Isle n 0x25 0 0

/-- A context acting by `role` works on the shadow copy (R137, R465). -/
def roleShadow (role : Nat) : Bool := role = 1 || role = 2

/-- Where an access of context `w` at word address `a` goes (R63, R137), and whether it lies in the step window. -/
def Dev.placed (d : Dev) (n : Nat) (w : Ctx) (ra : Option RaMark) (a : Nat) : Nat × Bool :=
  match ra with
  | some m =>
    if actRole w ra = 0 then (a, true)
    else if roleShadow (actRole w ra) then d.windowed n m a else ((d.windowed n m a).1, true)
  | none => (a, true)

/-- The word address of the pointer access and of the direct access of context `w` (R63). -/
def ptrAddr (w : Ctx) (r : CRegs) : Nat := (r.get (0x0C + w.psel.toNat)).toNat
def dirAddr (w : Ctx) (r : CRegs) : Nat := ((r.get (0x10 + w.psel.toNat)).toNat + w.loff.toNat) % 32768

/-- The index at which cell `c` of isle `n` issues now: none where it is idle, waiting, stopped, gated, or has issued in this ACLK (R74, R100). -/
def Dev.issueAt (d : Dev) (n c : Nat) : Option Nat :=
  if d.isleLive n && d.advances n && decide (((d.isle n).cell c).nextAt ≤ d.now) then
    match ((d.isle n).cell c).mode with
    | .run idx => some idx
    | _ => none
  else none

/-- The cell's active context word can't be executed: uncorrectable or malformed (R97, R305). A word that breaks only R96 is executed: the isle enforces
R96's second condition as R119 says (DESIGN CHOICE, log entry 206). -/
def Dev.ctxBad (d : Dev) (n c idx : Nat) : Bool :=
  d.wordErr (ctxKey (d.isle n).copy n c idx 0) = 2 || d.wordErr (ctxKey (d.isle n).copy n c idx 1) = 2 ||
  (Ctx.decode ((d.isle n).ctxWord false c idx)).malformed

/-- The lagoon reads of the context at `idx` of cell `c` (R63, R102). -/
def Dev.readsOf (d : Dev) (n c idx : Nat) : List Port :=
  let x := (d.isle n).cell c
  let w := Ctx.decode ((d.isle n).ctxWord false c idx)
  let ra := ((d.isle n).grp x.group).ra
  let r := if roleShadow (actRole w ra) then x.shad else x.arch
  if d.ctxBad n c idx || (ra.isSome && w.role.toNat = 3 && commitEarly d.now ra) then []
  else
    (if ctxReadsPtr w then [{ seq := 0, cell := c, direct := false, addr := (d.placed n w ra (ptrAddr w r)).1, write := false, old := none : Port }] else []) ++
    (if ctxReadsDir w then [{ seq := 0, cell := c, direct := true, addr := (d.placed n w ra (dirAddr w r)).1, write := false, old := none : Port }] else [])

/-- The reads of the cells before `c` that have yet to issue in this ACLK (R102). -/
def Dev.readsAhead (d : Dev) (n c : Nat) : List Port :=
  (List.range c).flatMap (fun k => match d.issueAt n k with
    | some idx => d.readsOf n k idx
    | none => [])

/-- Cell `c` of isle `n` issues its current context `w` at index `idx` (R71, R83 to R95). -/
def Dev.issueWord (n c idx : Nat) (w : Ctx) (d : Dev) : Dev :=
  let x := (d.isle n).cell c
  let g := x.group
  let ra := ((d.isle n).grp g).ra
  let shadow := roleShadow (actRole w ra)
  let r := if shadow then x.shad else x.arch
  -- where the two accesses go (R63, R137)
  let pa := ptrAddr w r
  let ptr := d.placed n w ra pa
  let dir := d.placed n w ra (dirAddr w r)
  -- lagoon reads, pointer access first
  let spec := if shadow then ra else none
  let ahead := if ctxReadsPtr w || ctxReadsDir w then d.readsAhead n c else []
  let rp := if ctxReadsPtr w then d.cellRead n c false ptr.1 ahead spec else (0#32, d)
  let rd := if ctxReadsDir w then rp.2.cellRead n c true dir.1 ahead spec else (0#32, rp.2)
  let d := rd.2
  let xs := (List.range 8).map (fun i => d.switchIn n c i)
  let fromAB := fun (code : Nat) => if code = 0x1C then (rp.1, false) else if code = 0x1D then (rd.1, false) else srcWord w r xs code
  let a := if opUsesA w.op.toNat then fromAB w.sa.toNat else (0, false)
  let b := if opUsesB w.op.toNat then fromAB w.sb.toNat else (0, false)
  let cc := if opUsesC w.op.toNat then
      (if w.sc.toNat = 0x14 then (rp.1, false) else if w.sc.toNat = 0x15 then (rd.1, false) else srcC w r w.sc.toNat) else (0, false)
  let u : Bus := { a := a.1, b := b.1, c := cc.1, acc0 := r.acc0, acc1 := r.acc1, sa := w.sa.toNat, flg := r.flg, x := xs }
  let res := compute w u (chained x shadow 0) (chained x shadow 1) (ctxReadsPtr w || ctxReadsDir w)
  let srcSat := !(w.op.toNat = 0x16 || w.op.toNat = 0x17) && (a.2 || b.2 || cc.2)
  let res := { res with sticky := Nat.lor res.sticky (fbit flgSV srcSat) }
  -- a speculative write outside the window is discarded (R137)
  let wout := shadow && ((res.word.isSome && w.dst.toNat = 0x1C && !ptr.2) || (res.word.isSome && w.dst.toNat = 0x1D && !dir.2))
  let pt := if shadow && !ptr.2 then none else some ptr.1
  let dr := if shadow && !dir.2 then none else some dir.1
  let effs := resultEffs w res (!shadow) pt dr
  let mk := fun (e : CEff) => { due := d.now + res.delay * d.step n, both := !shadow, eff := e : CRes }
  -- post-step and loop counter (R64, R75)
  let sq := sequence w idx r ((d.isle n).grp g).rcred
  let post := if w.pstep.toNat = 0 then [] else
    [CEff.reg (0x0C + w.psel.toNat)
      (w32 (postStep (w.circ = 1#1) pa (r.get (0x10 + w.psel.toNat)).toNat (r.get (0x14 + w.psel.toNat)).toNat (ctxStep w)))]
  let lcw := match sq.2.1 with
    | some (code, v) => [CEff.reg code v]
    | none => []
  let next1 := (post ++ lcw).map (fun e => { due := d.now + d.step n, both := !shadow, eff := e : CRes })
  -- the token once every result is visible (R95); a lagoon write counts one ACLK later
  let lagW := res.word.isSome && (w.dst.toNat = 0x1C || w.dst.toNat = 0x1D)
  let tdue := d.now + (res.delay + (if lagW then 1 else 0)) * d.step n
  let tk : List CTok := if w.tok.toNat = 0 then [] else
    [{ due := tdue, desc := w.tok.toNat, tag := ((d.isle n).grp g).tag, spec := shadow, ra := ra }]
  let yld := sq.2.2.2
  let d := d.modCell n c (fun x => { x with
    mode := sq.1, nextAt := d.now + d.step n, pend := x.pend ++ effs.map mk ++ next1, toks := x.toks ++ tk,
    resume := if yld then tset 0 x.resume g w.next.toNat else x.resume }.cached w idx r)
  let d := if sq.2.2.1 then d.modGrp n g (fun y => { y with rcred := false }) else d
  let d := d.afterIssue n c g (w.qp = 1#1) yld
  if wout then (match ra with | some m => d.windowOut n m.task | none => d) else d

/-- A cell issues its current context where that is well formed and has opcode `op` (R74, R90, R91): an early commit context acts
as a malformed one and sets CEARLY (R140). -/
def Dev.issueOp (op n c : Nat) (d : Dev) : Dev :=
  match d.issueAt n c with
  | none => d
  | some idx =>
    let w := Ctx.decode ((d.isle n).ctxWord false c idx)
    if d.ctxBad n c idx ∨ w.op.toNat ≠ op then d
    else
      let d := (d.readCtx n c idx).2
      let ra := ((d.isle n).grp ((d.isle n).cell c).group).ra
      match ra with
      | some m =>
        if w.role.toNat = 3 ∧ commitEarly d.now ra then
          ((d.issueNothing n c idx).taskFlag m.task (AHD_LTt_STAT_CEARLY m.task)).f1Isle n 0x25 0 0
        else d.issueWord n c idx w
      | none => d.issueWord n c idx w

/-- A cell issues a malformed or uncorrectable word (R99, R305): nothing is written, MALF sets, and the isle's frame is repaired. -/
def Dev.malformedIssue (n c : Nat) (d : Dev) : Dev :=
  match d.issueAt n c with
  | none => d
  | some idx =>
    if d.ctxBad n c idx then
      let r := d.readCtx n c idx
      let d := (r.2.issueNothing n c idx).setFlag (IS_STAT_MALF n)
      d.f1Isle n (if r.1 then 0x23 else 0x22) 2 c
    else d

/-! ### Landing (R71, R72) -/

/-- Apply a register effect to a copy. -/
def CRegs.land (r : CRegs) : CEff → CRegs
  | .reg code v => r.put code v
  | .acc i v => if i = 0 then { r with acc0 := v } else { r with acc1 := v }
  | .flags m v => r.putFlg (maskInto m v r.flg)
  | .sticky m => r.putFlg (r.flg ||| m)
  | _ => r

/-- The outbound channels that SOUT and SCH offer a word of cell `c` to (R89); a head or tail context offers none to a harbour link (R140). -/
def offersOf (n c : Nat) (v : BitVec 32) (sout sch : Nat) (harbour : Bool) : List Offer :=
  ((List.range 4).filter (fun s => sout / 2 ^ (3 - s) % 2 = 1 && (harbour || !(s = 2 && decide (n < 12))))).map
    (fun s => { chan := 8 * s + sch, cell := c, word := v })

/-- One result lands: registers in both copies or the shadow copy, the lagoon, the cell output with the straits its SOUT offers it to. -/
def Dev.landRes (n c : Nat) (q : CRes) (d : Dev) : Dev :=
  match q.eff with
  | .lagoon a dir v => d.cellWrite n c dir a v
  | .output v sout sch harbour =>
    let d := d.modCell n c (fun x => { x with out := v })
    d.setIsle n { d.isle n with offers := (d.isle n).offers ++ offersOf n c v sout sch harbour }
  | e => d.modCell n c (fun x => { x with arch := if q.both then x.arch.land e else x.arch, shad := x.shad.land e })

/-- The results of cell `c` that are visible from this ACLK land, in issue order, sticky flags last (R62, R72). -/
def Dev.landCell (n c : Nat) (d : Dev) : Dev :=
  let x := (d.isle n).cell c
  let now := x.pend.filter (fun q => q.due ≤ d.now)
  let st := fun (q : CRes) => match q.eff with | .sticky _ => true | _ => false
  let d := d.modCell n c (fun x => { x with pend := x.pend.filter (fun q => d.now < q.due) })
  forList (now.filter (fun q => !st q) ++ now.filter st) (Dev.landRes n c) d

/-- The inbound word of a pass-through and whether it was fresh in the ACLK before (R107). -/
def Dev.passWord (d : Dev) (n code : Nat) : BitVec 32 × Bool :=
  let ch := code % 8
  let fr := fun (ok : Bool) (m side : Nat) => ok && d.domUp m && (d.isle m).freshV.contains (side * 8 + ch)
  (d.selectWord n code,
    match code / 8 with
    | 4 => fr (n / 12 < 7) (n + 12) 2
    | 5 => fr (n % 12 < 11) (n + 1) 3
    | 6 => if n < 12 then (d.isle n).hinFreshV.contains ch else fr true (n - 12) 0
    | _ => fr (0 < n % 12) (n - 1) 1)

/-- What outbound channel `k` of isle `n` loads in this ACLK through the plane in force, and whether it is marked fresh (R89, R107): the channel a
pass-through selects, or a word its selected cell offers; none where it holds. -/
def Dev.straitLoad (d : Dev) (n k : Nat) : Option (BitVec 32 × Bool) :=
  let code := d.planeByte n (128 + k)
  if 0x20 ≤ code ∧ code < 0x40 then some (d.passWord n code)
  else (((d.isle n).offers.filter (fun o => o.chan = k && code = 0x10 + o.cell)).getLast?).map (fun o => (o.word, true))

/-- The outbound registers of isle `n` load (R89, R107): by the plane in force as the ACLK ends (R114, R125). A gated isle loads none (R100). -/
def Dev.loadStraits (n : Nat) (d : Dev) : Dev :=
  if d.isleLive n && d.advances n then
    let ls := (List.range 32).filterMap (fun k => (d.straitLoad n k).map (fun w => (k, w)))
    let i := d.isle n
    d.setIsle n { i with strait := ls.foldl (fun t e => tset 0#32 t e.1 e.2.1) i.strait, offers := [],
                         fresh := (ls.filter (fun e => e.2.2)).map (fun e => e.1) }
  else d

/-- Every isle's outbound registers load as the ACLK ends. An isle not listed is as reset leaves it: every select code is 0, nothing loads. -/
def Dev.straitsSettle (d : Dev) : Dev := forList (d.isles.map (fun e => e.1)) Dev.loadStraits d

/-- What isle `n` shows to its neighbours and what its per-ACLK marks are as it advances (R422). -/
def Dev.showStraits (n : Nat) (d : Dev) : Dev :=
  let i := d.isle n
  d.setIsle n { i with straitV := i.strait, freshV := i.fresh, hinV := i.hin, hinFreshV := i.hinFresh, fresh := [], offers := [], taken := [],
                       hinFresh := [], ports := [], conflicted := false, old := [] }

/-- Isle `n` begins the ACLK: results land (R71). A powered-down or gated isle does nothing (R100). -/
def Dev.tickIsle (n : Nat) (d : Dev) : Dev :=
  if d.isleLive n && d.advances n then forUpTo 16 (Dev.landCell n) d else d

/-- Every isle begins the next ACLK. An isle not listed is as reset leaves it: nothing lands there. -/
def Dev.tickIsles (d : Dev) : Dev :=
  let ns := d.isles.map (fun e => e.1)
  forList ns Dev.tickIsle (forList (ns.filter d.advances) Dev.showStraits d)

end Sys2Proof.Machine
end

