-- ==== Sys2Proof/Machine/Isle.lean ====
section
/-! DEFINITION. Tokens and the matching store (R117 to R121), the isle sequencer (R113), pre-emption (R122 to R124), landfall-sync (R116), the swap of
copies (R125) and the cells' commands. -/
namespace Sys2Proof.Machine

/-! ### Stream triggers (R128) -/

/-- A trigger reaches the stream DMA port of isle `n` (R128): dropped when four are queued. -/
def Dev.streamTrig (n t : Nat) (d : Dev) : Dev :=
  let i := d.isle n
  if i.sq.length < 4 then (d.setIsle n { i with sq := i.sq ++ [t] }).wr (IS_SSTAT_QLEN n) (i.sq.length + 1)
  else (d.setFlag (IS_SSTAT_QOVR n)).f0 0x05 n

/-! ### Tokens -/

/-- A token is dropped in isle `n` (R121). -/
def Dev.tokDrop (n : Nat) (d : Dev) : Dev := ((d.inc (IS_CNT2_TDROP n)).setFlag (IS_STAT_TDROP n)).f0 0x03 n

/-- The next isle on the way from `n` to `m`: along the row first, then along the column (R121). -/
def laneHop (n m : Nat) : Nat :=
  if n % 12 < m % 12 then n + 1 else if m % 12 < n % 12 then n - 1 else if n < m then n + 12 else n - 12

/-- Follow the lane from `n` to `m` for at most `k` hops: the last live isle before a dead one, where it meets one (R121). -/
def Dev.laneStop (d : Dev) (n m : Nat) : Nat → Option Nat
  | 0 => none
  | k + 1 => if n = m then none else if d.isleLive (laneHop n m) then d.laneStop (laneHop n m) m k else some n

/-- Hops between two isles (R121). -/
def laneHops (n m : Nat) : Nat :=
  (max (n % 12) (m % 12) - min (n % 12) (m % 12)) + (max (n / 12) (m / 12) - min (n / 12) (m / 12))

/-- Place an item among those of one ACLK: behind the ones of its class and of the classes before it (R270). -/
def placeArrival (k : SchedTok) : List SchedTok → List SchedTok
  | [] => [k]
  | x :: xs => if k.cls < x.cls then k :: x :: xs else x :: placeArrival k xs

/-- The arrival queue takes what this ACLK offers (R270): the items that entered it in this ACLK, those that wait at its input and the new ones, by
class and, in a class, in order of arrival. It holds 64 items; the rest wait (VC3 packets for a credit), so none is lost. -/
def Dev.enterArrivals (new : List SchedTok) (d : Dev) : Dev :=
  let old := d.schedIn.filter (fun k => k.at_ ≠ d.now)
  let here := d.schedIn.filter (fun k => k.at_ = d.now)
  let line := (here ++ d.schedWait ++ new).foldl (fun l k => placeArrival k l) []
  { d with schedIn := old ++ (line.take (64 - old.length)).map (fun k => { k with at_ := d.now }), schedWait := line.drop (64 - old.length) }

/-- An item reaches the scheduler (R270): class 0 token, 1 DMA completion token, 2 TS_POST, 3 WAKE with its value. -/
def Dev.arrive (cls num : Nat) (value : BitVec 32) (d : Dev) : Dev :=
  d.enterArrivals [{ wake := cls = 3, num := num, value := value, cls := cls, at_ := d.now }]

/-- A scheduler token is sent, or a stream trigger that reaches the isle's port in the next ACLK (R121): kind 1 or 3 of Table 05-4. -/
def Dev.deliverTok (n kind num : Nat) (d : Dev) : Dev :=
  if kind = 1 then d.arrive 0 num 0 else d.setIsle n { d.isle n with trigs := (d.isle n).trigs ++ [num] }

/-- Stream-trigger tokens of the ACLK before reach the port of isle `n` (R121). -/
def Dev.takeTrigs (n : Nat) (d : Dev) : Dev :=
  if d.isleLive n && d.advances n then forList (d.isle n).trigs (Dev.streamTrig n) (d.setIsle n { d.isle n with trigs := [] }) else d

/-- A token on the lanes crosses into the next isle of its way; where that isle, or the one it has come to, is dead, it is dropped at the last live
one (R121). -/
def Dev.laneStep (k : LaneTok) (d : Dev) : Dev :=
  if k.cur = k.isle then { d with lane := d.lane ++ [k] }
  else if d.isleLive k.cur && d.isleLive (laneHop k.cur k.isle) then { d with lane := d.lane ++ [{ k with cur := laneHop k.cur k.isle }] }
  else d.tokDrop (if d.isleLive k.cur then k.cur else (d.laneStop k.src k.isle 18).getD k.src)

/-- The tokens on the lanes and the stream triggers move on as the ACLK begins (R121). -/
def Dev.tickLanes (d : Dev) : Dev :=
  forList (d.isles.map (fun e => e.1)) Dev.takeTrigs (forList d.lane Dev.laneStep { d with lane := [] })

/-- Hold a token of binding `b` until commit (R141): a fifth one is discarded, sets TOKOVR and raises an F1 event. -/
def Dev.holdTok (n b t : Nat) (h : HeldTok) (d : Dev) : Dev :=
  let l := tget [] d.ahd.held b
  if l.length < 4 then
    ({ d with ahd := { d.ahd with held := tset [] d.ahd.held b (l ++ [h]) } }).wr (AHD_TBb_STAT_HELD b) (l.length + 1)
  else (d.taskFlag t (AHD_LTt_STAT_TOKOVR t)).f1Isle n 0x25 0 0

/-- Isle `n` emits a token through its descriptor (R95, R119 to R121, R141, R142). A scheduler descriptor that names a token above 4,095 and a run-ahead
descriptor that names a task above 47 emit nothing (DESIGN CHOICE, log entry 207). -/
def Dev.emitTok (n : Nat) (k : CTok) (d : Dev) : Dev :=
  let td := d.reg (IS_TDk n k.desc)
  if ¬ wbit td 31 then d
  else
    match wbits td 1 0 with
    | 0 =>
      let m := wbits td 8 2
      if 96 ≤ m then d.tokDrop n
      else { d with lane := d.lane ++ [{ src := n, isle := m, entry := wbits td 14 9, slot := wbits td 17 15, tag := k.tag, spec := k.spec, cur := n,
                                         due := d.now + 1 + laneHops n m }] }
    | 2 =>
      let code := wbits td 10 8
      if 1 ≤ code ∧ code ≤ 3 ∧ wbits td 7 2 < 48 then
        { d with ahd := { d.ahd with toks := d.ahd.toks ++
          [{ task := wbits td 7 2, code := code, step := k.ra.map (fun m => m.step), due := d.now + 2 }] } }
      else d
    | kind =>
      let num := if kind = 1 then wbits td 14 2 else wbits td 7 2
      if kind = 1 ∧ 4096 ≤ num then d
      else
        match k.spec, k.ra with
        | true, some m =>
          match d.bindingIn m.task n with
          | some b => d.holdTok n b m.task { isle := n, kind := kind, num := num, tag := k.tag }
          | none => d
        | _, _ => d.deliverTok n kind num

/-- The oldest token of a cell whose results are all visible is emitted (R95). -/
def Dev.tokenEmit (n c : Nat) (d : Dev) : Dev :=
  match takeFirst (fun k => decide (k.due ≤ d.now)) ((d.isle n).cell c).toks with
  | none => d
  | some (k, rest) =>
    if d.isleLive n && d.advances n then (d.modCell n c (fun x => { x with toks := rest })).emitTok n k else d

/-! ### The matching store -/

/-- A release of group `g` completes (R115): every waiting cell issues its NEXT in the next ACLK, else a credit is left. -/
def Dev.release (n g : Nat) (d : Dev) : Dev :=
  let waits := (List.range 16).filter (fun c =>
    ((d.isle n).cell c).group = g && (match ((d.isle n).cell c).mode with | .waitToken _ _ _ => true | _ => false))
  if waits = [] then d.modGrp n g (fun x => { x with rcred := true })
  else
    forList waits (fun c d => d.modCell n c (fun x => match x.mode with
      | .waitToken _ nx _ => { x with mode := .run nx, nextAt := d.now + d.step n }
      | _ => x)) d

/-- The completion of an entry acts (Table 05-3). -/
def Dev.matchAct (n : Nat) (m : MEntry) (d : Dev) : Dev :=
  match m.action.toNat with
  | 0 => d.fireReq n (m.arg.toNat % 16) (d.now + 1) none
  | 1 => d.release n (m.arg.toNat % 16)
  | 2 => d.streamTrig n m.arg.toNat
  | _ => d

/-- One token is applied to an entry (R117, R119). -/
def Dev.applyTok (n e : Nat) (k : LaneTok) (d : Dev) : Dev :=
  let m := (d.isle n).ment e
  if m.action.toNat = 2 ∧ k.spec then (d.inc (IS_CNT1_STALE n)).setFlag (IS_STAT_SPECTOK n)
  else if m.need.getLsbD k.slot && k.tag = m.cur && !m.pres.getLsbD k.slot then
    d.setMent n e { m with pres := m.pres ||| BitVec.ofNat 8 (2 ^ k.slot) }
  else if m.need.getLsbD k.slot && k.tag = m.cur + 1 && !m.nextp.getLsbD k.slot then
    d.setMent n e { m with nextp := m.nextp ||| BitVec.ofNat 8 (2 ^ k.slot) }
  else d.inc (IS_CNT1_STALE n)

/-- The tokens that have reached an entry by now are applied, then the entry completes where PRES covers NEED, at most once per
ACLK (R117, R118). Tokens for a dead isle are dropped (R121). -/
def Dev.tokenApply (n e : Nat) (d : Dev) : Dev :=
  let mine := fun (k : LaneTok) => k.isle = n && k.cur = n && k.entry = e && decide (k.due ≤ d.now) && (d.advances n || !d.isleLive n)
  let ks := d.lane.filter mine
  let d := { d with lane := d.lane.filter (fun k => !mine k) }
  if ¬ d.isleLive n then
    forList ks (fun k d => d.tokDrop ((d.laneStop k.src n 18).getD k.src)) d
  else
    let d := forList ks (Dev.applyTok n e) d
    let m := (d.isle n).ment e
    if m.pres = m.need ∧ m.need ≠ 0 ∧ m.action.toNat ≠ 3 ∧ m.doneAt ≤ d.now ∧ d.advances n then
      (d.matchAct n m).setMent n e { m with pres := m.nextp, nextp := 0, cur := m.cur + 1, doneAt := d.now + d.step n }
    else d

/-! ### The sequencer (R113) -/

/-- Group `g` conflicts with group `h` (R113). -/
def Dev.conflictsWith (d : Dev) (n g h : Nat) : Bool :=
  h ≠ g && (d.grpActive n h || ((d.isle n).grp h).saved) &&
  (Nat.land (d.rd (IS_GRPg_MASK n g)) (d.rd (IS_GRPg_MASK n h)) ≠ 0 ||
   (!d.on (IS_GRPg_PKEEP n g) && d.rd (IS_GRPg_PLANE n g) ≠ d.rd (IS_STAT_APL n)))

/-- A save slot of the isle is free (R124). -/
def Dev.freeSlot (d : Dev) (n : Nat) : Option Nat :=
  if ¬ d.on (IS_SLOT0_VALID n) then some 0 else if ¬ d.on (IS_SLOT1_VALID n) then some 1 else none

/-- The conflicting active group with the lowest priority, the lowest number among equals. -/
def Dev.victimOf (d : Dev) (n g : Nat) : Option Nat :=
  let vs := (List.range 16).filter (fun h => d.conflictsWith n g h && d.rdBit (IS_STAT_ACTIVE n) h)
  vs.find? (fun v => vs.all (fun u => d.rd (IS_GRPg_PRI n v) ≤ d.rd (IS_GRPg_PRI n u)))

/-- Request a pre-emption for a deferred group where R113 asks for one: not while the group's own is requested or completed, nor once it has been
withdrawn (R123). -/
def Dev.maybePreempt (n g : Nat) (d : Dev) : Dev :=
  match d.victimOf n g with
  | none => d
  | some v =>
    if d.rd (IS_GRPg_PRI n v) < d.rd (IS_GRPg_PRI n g) ∧ (d.freeSlot n).isSome ∧
        ¬ (d.isle n).pre.any (fun p => p.group = g) ∧ ¬ ((d.isle n).grp g).noPre then
      d.setIsle n { d.isle n with pre := (d.isle n).pre ++ [{ victim := v, group := g, at_ := d.now, lastQp := none }] }
    else d

/-- Save the flags of the victim's cells as they stand when the pre-emptor starts (R78). -/
def Dev.saveFlags (n g : Nat) (d : Dev) : Dev :=
  let i := d.isle n
  let up := fun (s : Nat) (d : Dev) =>
    if d.rd (if s = 0 then IS_SLOT0_PREEMPTOR n else IS_SLOT1_PREEMPTOR n) = g ∧ d.on (if s = 0 then IS_SLOT0_VALID n else IS_SLOT1_VALID n) then
      match tget none i.save s with
      | some sl =>
        let sl := { sl with settled := true, cells := sl.cells.map (fun q => { q with flg := (i.cell q.cell).arch.flg }) }
        d.setIsle n { d.isle n with save := tset none (d.isle n).save s (some sl) }
      | none => d
    else d
  forUpTo 2 up d

/-- A firing request of this ACLK for group `g` of isle `n`, and the requests without it (R110); those for a dead isle are taken to be dropped. -/
def Dev.takeReq (d : Dev) (n g : Nat) : Option (FireReq × List FireReq) :=
  takeFirst (fun q => q.group = g && decide (q.at_ ≤ d.now) && (d.advances n || !d.isleLive n)) (d.isle n).reqs

/-- The retry of the pending firing of group `g` (R110, R113). -/
def Dev.retryFiring (n g : Nat) (d : Dev) : Dev :=
  let i := d.isle n
  let x := i.grp g
  if ¬ x.pend ∨ ¬ d.isleLive n ∨ ¬ d.advances n ∨ ¬ d.on (IS_GRPg_EN n g) then d
  else
    match i.preStart.find? (fun p => p.1 = g) with
    | some p =>
      if p.2 ≤ d.now then
        ((d.setIsle n { i with preStart := i.preStart.filter (fun p => p.1 ≠ g) }).saveFlags n g).startGroup n g x.pendRa
      else d
    | none =>
      if d.grpActive n g || x.saved then d
      else if (List.range 16).any (d.conflictsWith n g) then
        let d := if x.defd then d else (d.inc (IS_CNT0_DEFER n)).modGrp n g (fun y => { y with defd := true })
        d.maybePreempt n g
      else (d.withdrawPre n (fun p => p.group = g)).startGroup n g x.pendRa

/-- The isle sequencer treats a request for group `g`, or the retry of its pending firing (R113): a new request before the retry of the same ACLK, so
that it is an overrun (DESIGN CHOICE, log entry 208). -/
def Dev.serveGroup (n g : Nat) (d : Dev) : Dev :=
  match d.takeReq n g with
  | some (q, rest) =>
    let i := d.isle n
    let d := d.setIsle n { i with reqs := rest }
    if ¬ d.isleLive n ∨ ¬ d.on (IS_GRPg_EN n g) then d
    else if (i.grp g).pend then ((d.inc (IS_CNT0_FOVR n)).f0 0x04 n).retryFiring n g
    else if d.grpActive n g || (i.grp g).saved then d.modGrp n g (fun x => { x with pend := true, pendRa := q.ra })
    else if (List.range 16).any (d.conflictsWith n g) then
      ((d.inc (IS_CNT0_DEFER n)).modGrp n g (fun x => { x with pend := true, defd := true, pendRa := q.ra })).maybePreempt n g
    else d.startGroup n g q.ra
  | none => d.retryFiring n g

/-- Group `h` comes before group `g` in the sequencer's order (R113): the higher PRI, the lower number among equals. -/
def Dev.servedBefore (d : Dev) (n h g : Nat) : Bool :=
  decide (d.rd (IS_GRPg_PRI n g) < d.rd (IS_GRPg_PRI n h)) || (d.rd (IS_GRPg_PRI n g) = d.rd (IS_GRPg_PRI n h) && decide (h < g))

/-- The groups with a request of this ACLK or a pending firing that the sequencer treats before group `g`, in its order (R113). -/
def Dev.ahead (d : Dev) (n g : Nat) : List Nat :=
  let hs := (List.range 16).filter (fun h => d.servedBefore n h g && ((d.takeReq n h).isSome || ((d.isle n).grp h).pend))
  [3, 2, 1, 0].flatMap (fun p => hs.filter (fun h => d.rd (IS_GRPg_PRI n h) = p))

/-- The isle sequencer treats the requests of this ACLK up to and with those for group `g` (R113). DESIGN CHOICE: a new request goes before the retry of
its group (log entry 208). -/
def Dev.firingRequest (n g : Nat) (d : Dev) : Dev := (forList (d.ahead n g) (Dev.serveGroup n) d).serveGroup n g

/-! ### Pre-emption (R122 to R124) -/

/-- A cell of the victim is at its quiet point (R122). -/
def atQuiet (x : Cell) (v : Nat) : Bool :=
  if x.group ≠ v then true else match x.mode with
    | .idle => true
    | .quiet _ => true
    | .waitToken _ _ qp => qp
    | .waitLandfall _ _ qp _ => qp
    | .run _ => false

/-- What is saved of a cell of the victim `v` (R78, R122); of a cell that had yielded, its resume index for `v`. -/
def saveCell (c v : Nat) (x : Cell) : SavedCell :=
  match x.mode with
  | .quiet i => { cell := c, index := i, flg := x.arch.flg, yld := false, wait := 0, next := 0, reached := false }
  | .waitToken a nx _ => { cell := c, index := a, flg := x.arch.flg, yld := false, wait := 1, next := nx, reached := false }
  | .waitLandfall a nx _ r => { cell := c, index := a, flg := x.arch.flg, yld := false, wait := 2, next := nx, reached := r }
  | .run i => { cell := c, index := i, flg := x.arch.flg, yld := false, wait := 0, next := 0, reached := false }
  | .idle => { cell := c, index := tget 0 x.resume v, flg := x.arch.flg, yld := true, wait := 0, next := 0, reached := false }

/-- The pre-emption of isle `n` is complete: every cell of the victim is at its quiet point. -/
def Dev.preReady (d : Dev) (n : Nat) (p : Preempt) : Bool :=
  (maskCells (d.rd (IS_GRPg_MASK n p.victim))).all (fun c => atQuiet ((d.isle n).cell c) p.victim)

/-- A pre-emption completes (R122): the victim is saved and the pre-emptor starts 2 ACLK after the last quiet-point context. A cell that has yielded since
the request counts as at its quiet point; another request for the same victim is dropped with the completion and made again from what then
conflicts (DESIGN CHOICE, log entry 209). -/
def Dev.preemptComplete (n : Nat) (d : Dev) : Dev :=
  match takeFirst (d.preReady n) (d.isle n).pre, d.freeSlot n with
  | some (p, rest), some s =>
    if d.isleLive n && d.advances n then
      let i := d.isle n
      let cs := maskCells (d.rd (IS_GRPg_MASK n p.victim))
      let sl : SaveSlot := { cells := cs.map (fun c => saveCell c p.victim (i.cell c)), settled := false, ra := (i.grp p.victim).ra }
      let at_ := (match p.lastQp with | some q => q | none => d.now) + 2 * d.step n
      let i := { i with save := tset none i.save s (some sl), pre := rest.filter (fun q => q.victim ≠ p.victim), preStart := i.preStart ++ [(p.group, at_)] }
      let d := d.setIsle n i
      let d := forList cs (fun c d => d.modCell n c (fun x => if x.group = p.victim then { x with mode := .idle, dcache := [] } else x)) d
      let d := (d.wrBit (IS_STAT_ACTIVE n) p.victim false).modGrp n p.victim (fun x => { x with saved := true, ra := none })
      let a := if s = 0 then IS_SLOT0 n else IS_SLOT1 n
      let d := d.setReg a (w32 (p.victim + p.group * 16 + 256 + d.rd (IS_STAT_APL n) * 4096))
      d.inc (IS_CNT1_PREEMPT n)
    else d
  | _, _ => d

/-- IS_PMTO expires (R123): a request that it has run out for is withdrawn, unless the pre-emption completes in this ACLK (R57). -/
def Dev.preemptTimeout (n : Nat) (d : Dev) : Dev :=
  let ranOut := fun (p : Preempt) => d.rd (IS_PMTO_PMTO n) ≠ 0 && decide (p.at_ + d.rd (IS_PMTO_PMTO n) ≤ d.now) && !d.preReady n p
  forList ((d.isle n).pre.filter ranOut) (fun p d => d.modGrp n p.group (fun x => { x with noPre := true })) (d.withdrawPre n ranOut)

/-- One cell of the victim resumes (R124); `credit` releases the cells that wait in wait-token. The shadow copy is not affected (Table 03-8). -/
def resumeCell (now step v : Nat) (credit : Bool) (q : SavedCell) (x : Cell) : Cell :=
  let x := { x with arch := x.arch.putFlg q.flg, group := v }
  if q.yld then { x with mode := .idle }
  else match q.wait with
    | 0 => { x with mode := .run q.index, nextAt := now }
    | 1 => if credit then { x with mode := .run q.next, nextAt := now + step } else { x with mode := .waitToken q.index q.next true }
    | _ => if q.reached then { x with mode := .run q.next, nextAt := now + step } else { x with mode := .waitLandfall q.index q.next true false }

/-- The registers of save slot `s` of isle `n`. -/
def slotReg (n s : Nat) : Nat := if s = 0 then IS_SLOT0 n else IS_SLOT1 n

/-- The victim of save slot `s` resumes where its pre-emptor has been inactive since an earlier ACLK (R124). -/
def Dev.resumeSlot (n s : Nat) (d : Dev) : Dev :=
  let w := d.reg (slotReg n s)
  let v := wbits w 3 0
  let g := wbits w 7 4
  let x := (d.isle n).grp g
  match tget none (d.isle n).save s with
  | some sl =>
    if wbit w 8 && d.isleLive n && d.advances n && !d.rdBit (IS_STAT_ACTIVE n) g && !x.saved && decide (x.endAt + d.step n ≤ d.now) &&
        !((d.isle n).preStart.any (fun p => p.1 = g)) then
      let sl := if sl.settled then sl else { sl with cells := sl.cells.map (fun q => { q with flg := ((d.isle n).cell q.cell).arch.flg }) }
      let credit := ((d.isle n).grp v).rcred && sl.cells.any (fun q => !q.yld && q.wait = 1)
      let d := (d.wr (IS_STAT_APL n) (wbits w 15 12)).wrBit (IS_STAT_ACTIVE n) v true
      let d := forList sl.cells (fun q d => d.modCell n q.cell (resumeCell d.now (d.step n) v credit q)) d
      let d := d.modGrp n v (fun y => { y with saved := false, ra := sl.ra, rcred := y.rcred && !credit })
      (d.setIsle n { d.isle n with save := tset none (d.isle n).save s none }).setReg (slotReg n s) (w32 (w.toNat - 256))
    else d
  | none => d

/-- A saved group resumes (R124): the slot taken last first. -/
def Dev.victimResume (n : Nat) (d : Dev) : Dev := (d.resumeSlot n 1).resumeSlot n 0

/-! ### Landfall-sync and the swap of copies (R116, R125) -/

/-- The cells of isle `n` that wait in landfall-sync since an earlier ACLK issue their NEXT in this one; saved ones note it (R116, R124). -/
def Dev.landfallCells (n : Nat) (d : Dev) : Dev :=
  let d := forUpTo 16 (fun c d => d.modCell n c (fun x => match x.mode with
    | .waitLandfall _ nx _ _ => if x.nextAt ≤ d.now then { x with mode := .run nx, nextAt := d.now } else x
    | _ => x)) d
  let mark := fun (sl : SaveSlot) => { sl with cells := sl.cells.map (fun q => if q.wait = 2 then { q with reached := true } else q) }
  d.setIsle n { d.isle n with save := (d.isle n).save.map (fun e => (e.1, e.2.map mark)) }

/-- Every isle bound to domain `dom` releases its landfall-sync cells (R116). -/
def Dev.landfallSync (dom : Nat) (d : Dev) : Dev :=
  forList (d.isles.map (fun e => e.1)) (fun n d => if d.rd (IS_CFG_DOM n) = dom && d.isleLive n then d.landfallCells n else d) d

/-- The active and staging copies of isle `n` exchange roles, the decode caches are invalidated and the copy-back starts (R76, R125, R126). -/
def Dev.swapIsle (n : Nat) (d : Dev) : Dev :=
  let i := d.isle n
  let cells := i.cells.map (fun e => (e.1, { e.2 with dcache := [] }))
  ((d.setIsle n { i with copy := !i.copy, cells := cells, copyEnd := some (d.now + 256 * d.step n), routed := [] }).wr (IS_STAT_STAGED n) 0).wr (IS_STAT_SYNC n) 1

/-- The staging copy takes the active copy's contexts and planes (R125), with valid codes (R313). -/
def Isle.copyBack (i : Isle) : Isle :=
  let a := if i.copy then 1 else 0
  let b := if i.copy then 0 else 1
  { i with ctx := (i.ctx.filter (fun e => e.1 / 256 = a)).foldl (fun t e => tput t (b * 256 + e.1 % 256) e.2) (i.ctx.filter (fun e => e.1 / 256 = a)),
           planes := (i.planes.filter (fun e => e.1 / 4096 = a)).foldl (fun t e => tput t (b * 4096 + e.1 % 4096) e.2) (i.planes.filter (fun e => e.1 / 4096 = a)),
           copyEnd := none }

/-- Clear the error masks of one copy of an isle's contexts and planes. -/
def Dev.clearCfgErr (n : Nat) (phys : Bool) (d : Dev) : Dev :=
  let lo := 0x30000000 + (if phys then 0x60000 else 0) + n * 0x1000
  let inside := fun (a : Nat) => (lo ≤ a && decide (a < lo + 0x1000)) || (lo + 0xC0000 ≤ a && decide (a < lo + 0xC0000 + 0x1000))
  { d with integ := { d.integ with ecc := d.integ.ecc.filter (fun e => !inside e.1) } }

/-! ### The commands -/

/-- Each cell opcode's command issues the cell's current context where it holds that opcode (R74, Tables 04-5 and 04-6). -/
def execNop (n : Fin 96) (c : Fin 16) (s : State) : Host.Outcome State Fault Refusal := onDev (Dev.issueOp 0x00 n.val c.val) s
/-- MOV (R90). -/
def execMov (n : Fin 96) (c : Fin 16) (s : State) : Host.Outcome State Fault Refusal := onDev (Dev.issueOp 0x01 n.val c.val) s
/-- MOVC (R90). -/
def execMovc (n : Fin 96) (c : Fin 16) (s : State) : Host.Outcome State Fault Refusal := onDev (Dev.issueOp 0x02 n.val c.val) s
/-- ADD (R90). -/
def execAdd (n : Fin 96) (c : Fin 16) (s : State) : Host.Outcome State Fault Refusal := onDev (Dev.issueOp 0x03 n.val c.val) s
/-- ADDC (R90). -/
def execAddc (n : Fin 96) (c : Fin 16) (s : State) : Host.Outcome State Fault Refusal := onDev (Dev.issueOp 0x04 n.val c.val) s
/-- SUB (R90). -/
def execSub (n : Fin 96) (c : Fin 16) (s : State) : Host.Outcome State Fault Refusal := onDev (Dev.issueOp 0x05 n.val c.val) s
/-- SUBC (R90). -/
def execSubc (n : Fin 96) (c : Fin 16) (s : State) : Host.Outcome State Fault Refusal := onDev (Dev.issueOp 0x06 n.val c.val) s
/-- NEG (R90). -/
def execNeg (n : Fin 96) (c : Fin 16) (s : State) : Host.Outcome State Fault Refusal := onDev (Dev.issueOp 0x07 n.val c.val) s
/-- ABS (R90). -/
def execAbs (n : Fin 96) (c : Fin 16) (s : State) : Host.Outcome State Fault Refusal := onDev (Dev.issueOp 0x08 n.val c.val) s
/-- MIN (R90). -/
def execMin (n : Fin 96) (c : Fin 16) (s : State) : Host.Outcome State Fault Refusal := onDev (Dev.issueOp 0x09 n.val c.val) s
/-- MAX (R90). -/
def execMax (n : Fin 96) (c : Fin 16) (s : State) : Host.Outcome State Fault Refusal := onDev (Dev.issueOp 0x0A n.val c.val) s
/-- AND (R90). -/
def execAnd (n : Fin 96) (c : Fin 16) (s : State) : Host.Outcome State Fault Refusal := onDev (Dev.issueOp 0x0B n.val c.val) s
/-- OR (R90). -/
def execOr (n : Fin 96) (c : Fin 16) (s : State) : Host.Outcome State Fault Refusal := onDev (Dev.issueOp 0x0C n.val c.val) s
/-- XOR (R90). -/
def execXor (n : Fin 96) (c : Fin 16) (s : State) : Host.Outcome State Fault Refusal := onDev (Dev.issueOp 0x0D n.val c.val) s
/-- ANDC (R90). -/
def execAndc (n : Fin 96) (c : Fin 16) (s : State) : Host.Outcome State Fault Refusal := onDev (Dev.issueOp 0x0E n.val c.val) s
/-- ORC (R90). -/
def execOrc (n : Fin 96) (c : Fin 16) (s : State) : Host.Outcome State Fault Refusal := onDev (Dev.issueOp 0x0F n.val c.val) s
/-- XORC (R90). -/
def execXorc (n : Fin 96) (c : Fin 16) (s : State) : Host.Outcome State Fault Refusal := onDev (Dev.issueOp 0x10 n.val c.val) s
/-- NOT (R90). -/
def execNot (n : Fin 96) (c : Fin 16) (s : State) : Host.Outcome State Fault Refusal := onDev (Dev.issueOp 0x11 n.val c.val) s
/-- SHL (R90). -/
def execShl (n : Fin 96) (c : Fin 16) (s : State) : Host.Outcome State Fault Refusal := onDev (Dev.issueOp 0x12 n.val c.val) s
/-- SHR (R90). -/
def execShr (n : Fin 96) (c : Fin 16) (s : State) : Host.Outcome State Fault Refusal := onDev (Dev.issueOp 0x13 n.val c.val) s
/-- SHRA (R90). -/
def execShra (n : Fin 96) (c : Fin 16) (s : State) : Host.Outcome State Fault Refusal := onDev (Dev.issueOp 0x14 n.val c.val) s
/-- ROL (R90). -/
def execRol (n : Fin 96) (c : Fin 16) (s : State) : Host.Outcome State Fault Refusal := onDev (Dev.issueOp 0x15 n.val c.val) s
/-- EXP (R90). -/
def execExp (n : Fin 96) (c : Fin 16) (s : State) : Host.Outcome State Fault Refusal := onDev (Dev.issueOp 0x16 n.val c.val) s
/-- NORM (R90). -/
def execNorm (n : Fin 96) (c : Fin 16) (s : State) : Host.Outcome State Fault Refusal := onDev (Dev.issueOp 0x17 n.val c.val) s
/-- CLIP (R90). -/
def execClip (n : Fin 96) (c : Fin 16) (s : State) : Host.Outcome State Fault Refusal := onDev (Dev.issueOp 0x18 n.val c.val) s
/-- SWAPH (R90). -/
def execSwaph (n : Fin 96) (c : Fin 16) (s : State) : Host.Outcome State Fault Refusal := onDev (Dev.issueOp 0x19 n.val c.val) s
/-- PACK (R90). -/
def execPack (n : Fin 96) (c : Fin 16) (s : State) : Host.Outcome State Fault Refusal := onDev (Dev.issueOp 0x1A n.val c.val) s
/-- CONJ (R90). -/
def execConj (n : Fin 96) (c : Fin 16) (s : State) : Host.Outcome State Fault Refusal := onDev (Dev.issueOp 0x1B n.val c.val) s
/-- SELX (R90). -/
def execSelx (n : Fin 96) (c : Fin 16) (s : State) : Host.Outcome State Fault Refusal := onDev (Dev.issueOp 0x1C n.val c.val) s
/-- CSEL (R90). -/
def execCsel (n : Fin 96) (c : Fin 16) (s : State) : Host.Outcome State Fault Refusal := onDev (Dev.issueOp 0x1D n.val c.val) s
/-- MPY (R91). -/
def execMpy (n : Fin 96) (c : Fin 16) (s : State) : Host.Outcome State Fault Refusal := onDev (Dev.issueOp 0x20 n.val c.val) s
/-- MAC (R91). -/
def execMac (n : Fin 96) (c : Fin 16) (s : State) : Host.Outcome State Fault Refusal := onDev (Dev.issueOp 0x21 n.val c.val) s
/-- MSU (R91). -/
def execMsu (n : Fin 96) (c : Fin 16) (s : State) : Host.Outcome State Fault Refusal := onDev (Dev.issueOp 0x22 n.val c.val) s
/-- MPYJ (R91). -/
def execMpyj (n : Fin 96) (c : Fin 16) (s : State) : Host.Outcome State Fault Refusal := onDev (Dev.issueOp 0x23 n.val c.val) s
/-- MACJ (R91). -/
def execMacj (n : Fin 96) (c : Fin 16) (s : State) : Host.Outcome State Fault Refusal := onDev (Dev.issueOp 0x24 n.val c.val) s
/-- MSUJ (R91). -/
def execMsuj (n : Fin 96) (c : Fin 16) (s : State) : Host.Outcome State Fault Refusal := onDev (Dev.issueOp 0x25 n.val c.val) s
/-- MPYR (R91). -/
def execMpyr (n : Fin 96) (c : Fin 16) (s : State) : Host.Outcome State Fault Refusal := onDev (Dev.issueOp 0x26 n.val c.val) s
/-- MACR (R91). -/
def execMacr (n : Fin 96) (c : Fin 16) (s : State) : Host.Outcome State Fault Refusal := onDev (Dev.issueOp 0x27 n.val c.val) s
/-- MSUR (R91). -/
def execMsur (n : Fin 96) (c : Fin 16) (s : State) : Host.Outcome State Fault Refusal := onDev (Dev.issueOp 0x28 n.val c.val) s
/-- ACCLD (R91). -/
def execAccld (n : Fin 96) (c : Fin 16) (s : State) : Host.Outcome State Fault Refusal := onDev (Dev.issueOp 0x29 n.val c.val) s
/-- ACCPRE (R91). -/
def execAccpre (n : Fin 96) (c : Fin 16) (s : State) : Host.Outcome State Fault Refusal := onDev (Dev.issueOp 0x2A n.val c.val) s
/-- ACCST (R91). -/
def execAccst (n : Fin 96) (c : Fin 16) (s : State) : Host.Outcome State Fault Refusal := onDev (Dev.issueOp 0x2B n.val c.val) s
/-- MALFORMED_ISSUE (R99). -/
def execMalformedIssue (n : Fin 96) (c : Fin 16) (s : State) : Host.Outcome State Fault Refusal := onDev (Dev.malformedIssue n.val c.val) s
/-- TOKEN_EMIT (R95). -/
def execTokenEmit (n : Fin 96) (c : Fin 16) (s : State) : Host.Outcome State Fault Refusal := onDev (Dev.tokenEmit n.val c.val) s
/-- TOKEN_APPLY (R117). -/
def execTokenApply (n : Fin 96) (e : Fin 64) (s : State) : Host.Outcome State Fault Refusal := onDev (Dev.tokenApply n.val e.val) s
/-- IS_FIRE (R110): a write of GO requests a firing for the next ACLK. -/
def execIsFire (n : Fin 96) (g : Fin 16) (s : State) : Host.Outcome State Fault Refusal :=
  onDev (fun d => (d.wr (IS_FIRE_GROUP n.val) g.val).fireReq n.val g.val (d.now + 1) none) s
/-- FIRING_REQUEST (R113). -/
def execFiringRequest (n : Fin 96) (g : Fin 16) (s : State) : Host.Outcome State Fault Refusal := onDev (Dev.firingRequest n.val g.val) s
/-- PREEMPT_COMPLETE (R122). -/
def execPreemptComplete (n : Fin 96) (s : State) : Host.Outcome State Fault Refusal := onDev (Dev.preemptComplete n.val) s
/-- PREEMPT_TIMEOUT (R123). -/
def execPreemptTimeout (n : Fin 96) (s : State) : Host.Outcome State Fault Refusal := onDev (Dev.preemptTimeout n.val) s
/-- VICTIM_RESUME (R124). -/
def execVictimResume (n : Fin 96) (s : State) : Host.Outcome State Fault Refusal := onDev (Dev.victimResume n.val) s
/-- IS_CLR (R129). -/
def execIsClr (n : Fin 96) (s : State) : Host.Outcome State Fault Refusal :=
  onDev (fun d => ((d.setReg (IS_CNT0 n.val) 0).setReg (IS_CNT1 n.val) 0).setReg (IS_CNT2 n.val) 0) s
/-- IS_STRIG (R128). -/
def execIsStrig (n : Fin 96) (t : Fin 64) (s : State) : Host.Outcome State Fault Refusal :=
  onDev (fun d => (d.wr (IS_STRIG_TRIG n.val) t.val).streamTrig n.val t.val) s

end Sys2Proof.Machine
end

