-- ==== Sys2Proof/Machine/RunAhead.lean ====
section
/-! DEFINITION. The run-ahead controller (R130 to R154): opening steps, predictions, heads, checks, tails, commit, squash, re-runs, replays. -/
namespace Sys2Proof.Machine

/-! ### Steps -/

/-- The increment of cadence CAD of task `t` from accumulator `acc` (R133, R45): accumulator and increment. -/
def Dev.taskInc (d : Dev) (t acc : Nat) : Nat × Nat :=
  let c := d.rd (AHD_LTt_CFG_CAD t)
  cadStep (d.rd (ET_CADc_Q_Q c)) (d.rd (ET_CADc_N_N c)) (d.rd (ET_CADc_D_D c)) acc

/-- A step just opened. -/
def LStep.fresh (k : Nat) (s : BitVec 64) : LStep :=
  { k := k, stamp := s, noHead := false, reqDue := none, reqAt := none, answered := false, pred := none, predInvalid := false,
    headAt := none, headFired := false, headEnds := 0, headEnd := none, carried := [], carryAt := none, latch := none, meas := 0, vel := 0,
    pair := (0, 0, 0),
    checked := false, passed := false, tailAt := none, tailFired := false, tailStarts := 0, commitAt := none, rerun := none,
    rerunGo := false, replay := false }

/-- Move a task's open position one step on (R133). -/
def Dev.advanceOpen (t : Nat) (d : Dev) : Dev :=
  let x := d.task t
  let i := d.taskInc t x.openAcc
  d.setTask t { x with openK := x.openK + 1, openS := x.openS + BitVec.ofNat 64 i.2, openAcc := i.1 }

/-- Move a task's latch position one step on (R133, R151). -/
def Dev.advanceLatch (t : Nat) (d : Dev) : Dev :=
  let x := d.task t
  let i := d.taskInc t x.latchAcc
  d.setTask t { x with latchK := x.latchK + 1, latchS := x.latchS + BitVec.ofNat 64 i.2, latchAcc := i.1 }

/-- Open the next step of a RUNNING task (R135): beyond the depth without a head; with POL ALWAYS its head fires at `head`, else its
prediction request is due `at_`. -/
def Dev.openStep (t at_ head : Nat) (d : Dev) : Dev :=
  let x := d.task t
  let far := d.front t + d.rd (AHD_LTt_CFG_DEPTH t) < x.openK
  let s0 := LStep.fresh x.openK x.openS
  let s := if far then { s0 with noHead := true }
    else if x.pol = 2 then { s0 with headAt := some head }
    else { s0 with reqDue := some at_ }
  (d.setTask t { x with steps := x.steps ++ [s] }).advanceOpen t

/-- A step has answered that its prediction is invalid (R136). -/
def LStep.noPred (s : LStep) : Bool := s.predInvalid && s.answered

/-- Replays of a task remain (R150): one of them has neither ended its head nor been answered that its prediction is invalid. -/
def Dev.replaying (d : Dev) (t : Nat) : Bool :=
  (d.task t).steps.any (fun s => s.replay && !(s.noPred || match s.headEnd with | some e => decide (e ≤ d.now) | none => false))

/-- A FIRE action with TV = 1 that issued in ACLK `at_` and takes effect in `tf` (R135, R150): dropped and counted unless the task is RUNNING; queued
while replays remain. -/
def Dev.taskFire (t at_ tf : Nat) (d : Dev) : Dev :=
  if d.taskState t ≠ 1 then d.inc (AHD_LTt_CNT2_DROP t)
  else if d.replaying t then d.setTask t { d.task t with fires := (d.task t).fires + 1 }
  else d.openStep t at_ tf

/-- The predicted sample of harbour predictor `p` for a stamp `t` ACLK ahead (R180): none where the predictor is disabled or has
no slope (R181). -/
def Dev.harbourPredict (d : Dev) (p a : Nat) (s : BitVec 64) : Option (BitVec 64) :=
  let q := tget Pred.reset d.preds p
  let w := (d.ad a).omega.toInt
  if w = 0 ∨ ¬ d.on (HP_PRDp_CFG_EN p) ∨ ¬ q.ready then none
  else
    let t := roundDiv (stampTheta s - (d.ad a).theta).toInt w
    if t < 0 ∨ (2 ^ 26 : Int) < t then none
    else some (BitVec.ofNat 64 (BitVec.ofInt 32 (q.x.toInt + asr (q.slope.toInt * (t + ((d.now - q.at_ : Nat) : Int))) 16)).toNat)

/-- The prediction for a step of task `t` at this ACLK (R31, R135). -/
def Dev.predictStep (d : Dev) (t : Nat) (s : BitVec 64) : Option (BitVec 64) :=
  if d.on (AHD_LTt_CFG_PSRC t) then d.harbourPredict (d.rd (AHD_LTt_CFG_PPORT t)) (d.rd (AHD_LTt_CFG_SDOM t)) s
  else d.predict (d.rd (AHD_LTt_CFG_SDOM t)) s (d.rd (AHD_LTt_CFG_PDOM t))

/-- The controller issues the due prediction request of the lowest task, one per ACLK (R135): the head follows 4 ACLK later unless the
prediction is invalid (R136). -/
def Dev.predictionRequest (d : Dev) : Dev :=
  let due := fun (s : LStep) => match s.reqDue with | some a => decide (a ≤ d.now) | none => false
  match (List.range 48).find? (fun t => (d.task t).steps.any due) with
  | none => d
  | some t =>
    if d.now < d.ahd.lastReq then d
    else
      match (d.task t).steps.find? due with
      | none => d
      | some s =>
        let p := d.predictStep t s.stamp
        let d := d.modStep t s.k (fun s => { s with reqDue := none, reqAt := some d.now, answered := false, pred := p, predInvalid := p.isNone,
                                                    headAt := if p.isSome then some (d.now + 4) else none })
        ({ d with ahd := { d.ahd with lastReq := d.now + 1 } }).showQlen

/-- The frame of step `k` in binding `b`: its first word (R137). -/
def Dev.frameAt (d : Dev) (b k : Nat) : Nat := d.rd (AHD_TBb_SHD_SBASE b) + k % 8 * (256 * 2 ^ d.rd (AHD_TBb_WIN_FSZ b))

/-- Write the four prediction words of a step in every binding (Table 06-1). -/
def Dev.writePred (t k : Nat) (v : BitVec 64) (vel : BitVec 48) (d : Dev) : Dev :=
  let velW : BitVec 64 := vel.signExtend 64
  let one := fun (b : Nat) (d : Dev) =>
    let n := d.rd (AHD_TBb_ID_ISLE b)
    let f := d.frameAt b k
    let put := fun (o : Nat) (w : BitVec 32) (d : Dev) => (d.store32 (lagoonAddr n (f + o)) w).eccWrite (lagoonAddr n (f + o))
    put 0x83 (w32 (velW.toNat / 2 ^ 32)) (put 0x82 (w32 velW.toNat) (put 0x81 (w32 (v.toNat / 2 ^ 32)) (put 0x80 (w32 v.toNat) d)))
  forList (d.bindings t) one d

/-- The velocity word of a prediction: of PDOM, or the slope of the harbour predictor (Table 06-1). -/
def Dev.predVel (d : Dev) (t : Nat) : BitVec 48 :=
  if d.on (AHD_LTt_CFG_PSRC t) then (tget Pred.reset d.preds (d.rd (AHD_LTt_CFG_PPORT t))).slope
  else (d.ad (d.rd (AHD_LTt_CFG_PDOM t))).omega

/-- The answer to a request arrives 12 ACLK after it (R136): the prediction words are written where the prediction is valid. -/
def Dev.predictionAnswer (t : Nat) (d : Dev) : Dev :=
  let due := fun (s : LStep) => match s.reqAt with | some a => decide (a + 12 ≤ d.now) && !s.answered | none => false
  match (d.task t).steps.find? due with
  | none => d
  | some s =>
    let d := d.modStep t s.k (fun s => { s with answered := true })
    match s.pred with
    | some v => d.writePred t s.k v (d.predVel t)
    | none => d

/-! ### Heads, carry and check -/

/-- Fire a task group for step `k` in every binding (R134): ACTCNT takes T_k, and the request is for this ACLK. -/
def Dev.fireTask (t k : Nat) (head : Bool) (commitAt : Option Nat) (d : Dev) : Dev :=
  let one := fun (b : Nat) (d : Dev) =>
    let n := d.rd (AHD_TBb_ID_ISLE b)
    let g := d.rd (if head then AHD_TBb_GRP_HGRP b else AHD_TBb_GRP_TGRP b)
    (d.modGrp n g (fun x => { x with actcnt := d.tagOf t k })).fireReq n g d.now (some { task := t, step := k, head := head, commitAt := commitAt })
  forList (d.bindings t) one d

/-- The head of a step of task `t` fires in its ACLK (R135, R149). -/
def Dev.headFire (t : Nat) (d : Dev) : Dev :=
  let due := fun (s : LStep) => match s.headAt with | some a => decide (a ≤ d.now) && !s.headFired | none => false
  match (d.task t).steps.find? due with
  | none => d
  | some s => (d.modStep t s.k (fun s => { s with headFired := true, headEnds := 0, headEnd := none })).fireTask t s.k true none

/-- The carry words of a binding: word offset in the frame, cell and register (R138). -/
def Dev.carryWords (d : Dev) (b : Nat) : List (Nat × Nat × Nat) :=
  let regs := (List.range 8).filter (fun i => d.rd (AHD_TBb_SHD_CARRY b) / 2 ^ i % 2 = 1)
  regs.flatMap (fun i => (maskCells (d.rd (AHD_TBb_GRP_CELLS b))).map (fun c => (16 * i + c, c, i)))

/-- m of R138: the largest number of carry words of any binding in one lagoon bank. -/
def Dev.carryM (d : Dev) (t k : Nat) : Nat :=
  let one := fun (b : Nat) =>
    let ws := (d.carryWords b).map (fun q => (d.frameAt b k + q.1) % 8)
    (List.range 8).foldl (fun m j => max m (ws.filter (· = j)).length) 0
  (d.bindings t).foldl (fun m b => max m (one b)) 0

/-- The ACLK from which the carry registers of a front step hold its values (R138): s + m + 1 with s = max(C, E) + 1. -/
def Dev.carryHold (d : Dev) (t : Nat) (s : LStep) : Option Nat :=
  match s.headEnd with
  | none => none
  | some e => some (max (d.task t).lastC e + 1 + d.carryM t s.k + 1)

/-- A word of a carry image as the network port reads it (R103, R138): where it is uncorrectable the manual states no value. -/
def Dev.carryRead (n a : Nat) (d : Dev) : BitVec 32 × Dev :=
  let r := d.eccRead (lagoonAddr n a) 0
  if r.1 then
    let f := (r.2.f0 0x0D (16 + n)).fresh
    (w32 f.1, f.2)
  else (r.2.load32 (lagoonAddr n a), r.2)

/-- The carry words of binding `b` that are read in the ACLK `j` of the load (R138): of each lagoon bank the word number `j`, by offset in the frame
(DESIGN CHOICE, log entry 216). -/
def Dev.carryAt (d : Dev) (b k j : Nat) : List (Nat × Nat × Nat) :=
  let bank := fun (q : Nat × Nat × Nat) => (d.frameAt b k + q.1) % 8
  let ws := d.carryWords b
  ws.filter (fun q => (ws.filter (fun p => bank p = bank q && decide (p.1 < q.1))).length = j)

/-- The carry load of task `t` reads its words of this ACLK (R138): in ACLK s to s + m − 1, after the cells' writes (R103). -/
def Dev.carryStep (t : Nat) (d : Dev) : Dev :=
  match (d.task t).steps.head? with
  | none => d
  | some s =>
    match s.headEnd with
    | none => d
    | some e =>
      let s0 := max (d.task t).lastC e + 1
      if s.k ≠ d.front t ∨ s.carryAt.isSome ∨ d.now < s0 then d
      else
        let one := fun (b : Nat) (r : List (Nat × Nat × Nat × BitVec 32) × Dev) =>
          let n := d.rd (AHD_TBb_ID_ISLE b)
          (d.carryAt b s.k (d.now - s0)).foldl (fun r q =>
            let w := r.2.carryRead n ((d.frameAt b s.k + q.1) % 32768)
            (r.1 ++ [(n, q.2.1, q.2.2, w.1)], w.2)) r
        let r := forList (d.bindings t) one ([], d)
        if r.1 = [] then d else r.2.modStep t s.k (fun x => { x with carried := x.carried ++ r.1 })

/-- The carry loads under way read their words of this ACLK (R138). -/
def Dev.carrySettle (d : Dev) : Dev := forList (d.ahd.tasks.map (fun e => e.1)) Dev.carryStep d

/-- The front step's carry words enter the shadow copies (R138). -/
def Dev.carryLoad (t : Nat) (d : Dev) : Dev :=
  match (d.task t).steps.head? with
  | none => d
  | some s =>
    match d.carryHold t s with
    | none => d
    | some h =>
      if s.k ≠ d.front t ∨ s.carryAt.isSome ∨ d.now < h then d
      else
        (forList s.carried (fun q d => d.modCell q.1 q.2.1 (fun x => { x with shad := x.shad.put q.2.2.1 q.2.2.2 })) d).modStep t s.k
          (fun s => { s with carryAt := some h })

/-- d = measured − predicted, clipped to 32 bits (R143). -/
def Dev.checkDiff (d : Dev) (t : Nat) (s : LStep) : Int :=
  match s.pred with
  | none => 0
  | some p =>
    let x := if d.on (AHD_LTt_CFG_PSRC t) then (BitVec.ofNat 32 s.meas.toNat - BitVec.ofNat 32 p.toNat).toInt else (s.meas - p).toInt
    max (-(2 ^ 31 : Int)) (min (2 ^ 31 - 1) x)

/-- The policy passes (Table 06-4), by the pair in force at the latch (R144). -/
def Dev.policyPass (d : Dev) (t : Nat) (s : LStep) : Bool :=
  match s.pair.1 with
  | 0 =>
    match s.pred with
    | none => false
    | some p =>
      let cut := 2 ^ (32 - min 32 s.pair.2.1)
      if d.on (AHD_LTt_CFG_PSRC t) then s.meas.toNat % 2 ^ 32 / cut = p.toNat % 2 ^ 32 / cut else s.meas.toNat / cut = p.toNat / cut
  | 1 => s.pred.isSome && decide ((d.checkDiff t s).natAbs ≤ s.pair.2.2)
  | _ => true

/-- The step is ready at its check (R139): heads ended everywhere and the carry registers holding by L + TFIRE. -/
def Dev.stepReady (d : Dev) (t : Nat) (s : LStep) (l : Nat) : Bool :=
  s.headFired && !s.predInvalid &&
  match d.carryHold t s with
  | some h => decide (h ≤ l + d.rd (AHD_LTt_TIM_TFIRE t))
  | none => false

/-- The policy result of the front step reaches the controller 3 ACLK after its latch (R143, R144): tail and commit are set, or a squash. -/
def Dev.checkStep (t : Nat) (d : Dev) : Dev :=
  match (d.task t).steps.head? with
  | none => d
  | some s =>
    match s.latch with
    | none => d
    | some l =>
      if s.checked ∨ s.rerun.isSome ∨ d.now < l + 3 ∨ d.taskState t ≠ 1 then d
      else
        let ready := d.stepReady t s l
        let pass := ready && d.policyPass t s
        let d := d.setReg (AHD_LTt_DIFF t) (BitVec.ofInt 32 (d.checkDiff t s))
        let d := d.wrb (AHD_LTt_STAT_PASS t) pass
        let d := if ready then d else d.inc (AHD_LTt_CNT1_NOTRDY t)
        let tf := l + d.rd (AHD_LTt_TIM_TFIRE t)
        let d := d.modStep t s.k (fun s => { s with checked := true, passed := pass, tailAt := if pass then some tf else none,
                                                    commitAt := if pass then some (tf + d.rd (AHD_LTt_TIM_CMT t)) else none })
        if pass then d else d.decideSquash t s.k

/-! ### Tail, commit, skip -/

/-- The tail of the front step fires in its ACLK (R145, R149). -/
def Dev.tailFire (t : Nat) (d : Dev) : Dev :=
  match (d.task t).steps.head? with
  | none => d
  | some s =>
    match s.tailAt with
    | none => d
    | some a =>
      if s.tailFired ∨ d.now < a ∨ (d.task t).squashes s.k then d
      else (d.modStep t s.k (fun s => { s with tailFired := true })).fireTask t s.k false s.commitAt

/-- Shadow copies of a task's cells take the architectural values (R148, R151), or the reverse at a commit (R145). -/
def Dev.shadowCopy (t : Nat) (commit : Bool) (d : Dev) : Dev :=
  let one := fun (b : Nat) (d : Dev) =>
    let n := d.rd (AHD_TBb_ID_ISLE b)
    forList (maskCells (d.rd (AHD_TBb_GRP_CELLS b)))
      (fun c d => d.modCell n c (fun x => if commit then { x with arch := x.shad } else { x with shad := x.arch })) d
  forList (d.bindings t) one d

/-- The held tokens of a task's bindings are delivered or discarded (R141). -/
def Dev.heldTokens (t : Nat) (deliver : Bool) (d : Dev) : Dev :=
  let one := fun (b : Nat) (d : Dev) =>
    let l := tget [] d.ahd.held b
    let d := ({ d with ahd := { d.ahd with held := tset [] d.ahd.held b [] } }).wr (AHD_TBb_STAT_HELD b) 0
    if deliver then forList l (fun h d => d.deliverTok h.isle h.kind h.num) d else d
  forList (d.bindings t) one d

/-- The front step is skipped (R151): nothing commits, the shadow copies return, held tokens go, the next step becomes front. -/
def Dev.skipFront (t : Nat) (d : Dev) : Dev :=
  let x := d.task t
  let f := d.front t
  let d := ((d.shadowCopy t false).heldTokens t false).countSkip t
  let d := if x.openK ≤ f then d.advanceOpen t else d
  let x := d.task t
  ((d.setTask t { x with steps := x.steps.filter (fun s => s.k ≠ f), lastC := d.now }).passSkipped t).showQlen

/-- The step `k` of a STROBE that finds an older step open after its latch is skipped (R151): the front step stays front, and when it ends the next step
that has not been skipped follows it. -/
def Dev.skipLater (t k : Nat) (d : Dev) : Dev :=
  let d := (((d.shadowCopy t false).heldTokens t false).inc (AHD_LTt_CNT1_SKIP t)).f0 0x06 t
  let d := if (d.task t).openK ≤ k then d.advanceOpen t else d
  let x := d.task t
  (d.setTask t { x with steps := x.steps.filter (fun s => s.k ≠ k) }).showQlen

/-- Queue the first replay's prediction request (R150) once the squashed step before it has left: in the ACLK after its commit. -/
def Dev.startReplay (t at_ : Nat) (d : Dev) : Dev :=
  match (d.task t).steps.head? with
  | none => d
  | some s => if ¬ s.replay ∨ s.reqDue.isSome ∨ s.reqAt.isSome ∨ s.rerun.isSome then d else (d.modStep t s.k (fun s => { s with reqDue := some at_ })).showQlen

/-- A latch-to-commit time and its maximum, in a byte each (Table 06-9). -/
def Dev.recordLat (t : Nat) (v : Nat) (rr : Bool) (d : Dev) : Dev :=
  let last := if rr then AHD_LTt_LAT_LASTR t else AHD_LTt_LAT_LASTC t
  let mx := if rr then AHD_LTt_LAT_MAXR t else AHD_LTt_LAT_MAXC t
  let v := min 255 v
  (d.wr last v).wr mx (max v (d.rd mx))

/-- The commit ACLK of the front step (R145): shadow becomes architectural in every binding, held tokens are delivered, the next step becomes
front; a step whose tail did not start in its ACLK is skipped (R151). -/
def Dev.commitStep (t : Nat) (d : Dev) : Dev :=
  match (d.task t).steps.head? with
  | none => d
  | some s =>
    match s.commitAt with
    | none => d
    | some c =>
      if d.now < c ∨ (d.task t).squashes s.k ∨ d.taskState t ≠ 1 then d
      else if ¬ s.tailFired ∨ s.tailStarts < (d.bindings t).length then (d.skipFront t).startReplay t (d.now + 1)
      else
        let d := (d.shadowCopy t true).heldTokens t true
        let d := (d.wr (AHD_LTt_STEP_STEP t) (d.front t + 1)).inc (AHD_LTt_CNT0_COMMIT t)
        let d := match s.latch with
          | some l => d.recordLat t (c - l) s.rerun.isSome
          | none => d
        let x := d.task t
        ((d.setTask t { x with steps := x.steps.drop 1, lastC := d.now }).passSkipped t).startReplay t (d.now + 1)

/-! ### Squash, re-run, replay -/

/-- A saved activation of group `g` ends (R148): its save slot is free, nothing of it resumes. -/
def Dev.freeSaved (n g : Nat) (d : Dev) : Dev :=
  let one := fun (s : Nat) (d : Dev) =>
    if d.on (if s = 0 then IS_SLOT0_VALID n else IS_SLOT1_VALID n) ∧ d.rd (if s = 0 then IS_SLOT0_VICTIM n else IS_SLOT1_VICTIM n) = g then
      (d.setIsle n { d.isle n with save := tset none (d.isle n).save s none }).wr (if s = 0 then IS_SLOT0_VALID n else IS_SLOT1_VALID n) 0
    else d
  (forUpTo 2 one d).modGrp n g (fun x => { x with saved := false })

/-- End the activations of a group by a squash (R148): no context issues from this ACLK on, its pending firings and pre-emptions are cleared, a
saved activation of it ends too. -/
def Dev.endBySquash (n g : Nat) (d : Dev) : Dev :=
  let was := d.rdBit (IS_STAT_ACTIVE n) g
  let d := d.withdrawPre n (fun p => p.group = g || p.victim = g)
  let d := if ((d.isle n).grp g).saved then d.freeSaved n g else d
  let i := d.isle n
  let pre := i.preStart.find? (fun p => p.1 = g)
  let d := d.setIsle n { i with reqs := i.reqs.filter (fun q => q.group ≠ g), preStart := i.preStart.filter (fun p => p.1 ≠ g) }
  let d := (d.wrBit (IS_STAT_ACTIVE n) g false).modGrp n g (fun x =>
    { x with pend := false, defd := false, ra := none, pendRa := none, noPre := false,
             endAt := match pre with | some p => p.2 - d.step n | none => if was then d.now else x.endAt })
  forList (maskCells (d.rd (IS_GRPg_MASK n g)))
    (fun c d => d.modCell n c (fun x => if x.group = g then { x with mode := .idle } else x)) d

/-- The task entries of a binding (AHD_TBb_ENT). -/
def Dev.taskEntries (d : Dev) (b : Nat) : List Nat :=
  (List.range 64).filter (fun e => wbit (d.rd64 (AHD_TBb_ENT_LO b) (AHD_TBb_ENT_HI b)) e)

/-- Set the task entries of a task's bindings to tag `cur`, PRES and NEXTP clear (R132, R148). -/
def Dev.resetEntries (t : Nat) (cur : BitVec 8) (d : Dev) : Dev :=
  let one := fun (b : Nat) (d : Dev) =>
    let n := d.rd (AHD_TBb_ID_ISLE b)
    forList (d.taskEntries b) (fun e d => d.setMent n e { (d.isle n).ment e with cur := cur, pres := 0, nextp := 0 }) d
  forList (d.bindings t) one d

/-- The isles' side of a squash taking effect (R148): activations end, shadows revert, held tokens go, EPOCH toggles, entries take T_k. -/
def Dev.squashIsles (t k : Nat) (d : Dev) : Dev :=
  let ends := fun (b : Nat) (d : Dev) =>
    let n := d.rd (AHD_TBb_ID_ISLE b)
    (d.endBySquash n (d.rd (AHD_TBb_GRP_HGRP b))).endBySquash n (d.rd (AHD_TBb_GRP_TGRP b))
  let d := ((forList (d.bindings t) ends d).shadowCopy t false).heldTokens t false
  let d := d.wr (AHD_LTt_STAT_EPOCH t) (1 - d.rd (AHD_LTt_STAT_EPOCH t))
  (d.resetEntries t (d.tagOf t k)).inc (AHD_LTt_CNT0_SQUASH t)

/-- A squashed step as its re-run or replay begins: everything it had is gone but its number, stamp and latch (R148, R149, R150). -/
def LStep.again (s : LStep) (rerun : Option Nat) : LStep :=
  { LStep.fresh s.k s.stamp with latch := s.latch, meas := s.meas, vel := s.vel, rerun := rerun, replay := rerun.isNone }

/-- The oldest pending squash takes effect two ACLK after its decision (R148): the step runs again, the later open ones become replays; a step
squashed in its re-run is skipped (R149). -/
def Dev.squashStep (t : Nat) (d : Dev) : Dev :=
  match (d.task t).squash with
  | [] => d
  | p :: ps =>
    if d.now < p.d + 2 then d
    else
      let d := d.squashIsles t p.k
      let x := d.task t
      let f := fun (s : LStep) =>
        if s.k < p.k then s else if s.k = p.k ∧ p.rerun then s.again (some p.d) else s.again none
      let d := d.setTask t { x with squash := ps, steps := x.steps.map f }
      if p.rerun ∧ p.again ∧ d.front t = p.k then (d.skipFront t).startReplay t (d.now + 1)
      else if ¬ p.rerun ∧ p.replay then d.startReplay t (d.now + 1)
      else d.showQlen

/-- A squashed step runs again (R149): after its latch from its measured value, with head and tail at fixed ACLKs; before its latch from a
fresh prediction request in ACLK D + 3. -/
def Dev.rerunStep (t : Nat) (d : Dev) : Dev :=
  match (d.task t).steps.find? (fun s => s.rerun.isSome && !s.rerunGo && (s.latch.isNone || s.k = d.front t)) with
  | none => d
  | some s =>
    match s.rerun with
    | none => d
    | some dd =>
      if d.taskState t ≠ 1 then d
      else
        match s.latch with
        | some _ =>
          if d.now < dd + 4 then d
          else
            let tl := dd + 5 + d.rd (AHD_LTt_TIM_HLEN t) + 1
            let d := d.writePred t s.k s.meas s.vel
            d.modStep t s.k (fun s => { s with rerunGo := true, headAt := some (dd + 5), tailAt := some tl, checked := true,
                                               commitAt := some (tl + d.rd (AHD_LTt_TIM_CMT t)) })
        | none =>
          if d.now < dd + 3 then d
          else (d.modStep t s.k (fun s => { s with rerun := none, rerunGo := false, reqDue := some (dd + 3) })).showQlen

/-- The next replay of a task (R150): the first one's request waits until the squashed step before it has left; a later one's follows the end of the
previous replay's head, or the answer that its prediction is invalid; one
whose latch passed before its head fired runs as a re-run; FIRE actions queued behind the replays open their steps. -/
def Dev.replayStep (t : Nat) (d : Dev) : Dev :=
  if d.taskState t ≠ 1 then d
  else
    let late := fun (s : LStep) => s.replay && s.latch.isSome && !s.headFired && s.rerun.isNone && !s.noPred
    match (d.task t).steps.find? late with
    | some s =>
      if s.k = d.front t then
        let r := match s.reqAt, s.reqDue with | some a, _ => a | none, some a => a | none, none => d.now
        let l := s.latch.getD 0
        d.modStep t s.k (fun s => { s with rerun := some (max (r - 3) (l + 3)), reqDue := none, headAt := none })
      else d
    | none =>
      let rs := (d.task t).steps.filter (fun s => s.replay)
      match rs.find? (fun s => s.reqDue.isNone && s.reqAt.isNone) with
      | some s =>
        let prev := (rs.filter (fun q => q.k < s.k)).getLast?
        match prev with
        | some q =>
          match q.headEnd with
          | some e => if e ≤ d.now then (d.modStep t s.k (fun s => { s with reqDue := some (e + 1) })).showQlen else d
          | none => if q.noPred then (d.modStep t s.k (fun s => { s with reqDue := some (q.reqAt.getD 0 + 13) })).showQlen else d
        | none =>
          if (d.task t).steps.head?.map (fun q => q.k) = some s.k then (d.modStep t s.k (fun s => { s with reqDue := some d.now })).showQlen
          else d
      | none =>
        if 0 < (d.task t).fires ∧ ¬ d.replaying t then
          (d.setTask t { d.task t with fires := (d.task t).fires - 1 }).openStep t d.now d.now
        else d

/-! ### Tokens, enables, halts -/

/-- A run-ahead token of code `code` for task `t` that has reached the controller (R142). -/
def Dev.takeRaTok (t code : Nat) (d : Dev) : Option (RaTok × Dev) :=
  match takeFirst (fun k => k.task = t && k.code = code && decide (k.due ≤ d.now)) d.ahd.toks with
  | none => none
  | some (k, rest) => some (k, { d with ahd := { d.ahd with toks := rest } })

/-- SQREQ (R142, R147): the step of the emitting activation is squashed; a token of no step squashes nothing. -/
def Dev.sqreq (t : Nat) (d : Dev) : Dev :=
  match d.takeRaTok t 1 with
  | none => d
  | some (k, d) => match k.step with
    | some st => d.squashCause t st
    | none => d

/-- HALT token (R142, R154). -/
def Dev.haltTok (t : Nat) (d : Dev) : Dev :=
  match d.takeRaTok t 2 with
  | none => d
  | some (_, d) => d.haltTask 0 t

/-- NOTE token (R142). -/
def Dev.noteTok (t : Nat) (d : Dev) : Dev :=
  match d.takeRaTok t 3 with
  | none => d
  | some (_, d) => d.inc (AHD_LTt_CNT2_NOTE t)

/-- The checks of R132 on a task's registers and bindings. -/
def Dev.taskOk (d : Dev) (t : Nat) : Bool :=
  let bs := d.bindings t
  let cad := d.rd (AHD_LTt_CFG_CAD t)
  let tm := d.rd (AHD_LTt_TIM_TFIRE t) + d.rd (AHD_LTt_TIM_CMT t) + d.rd (AHD_LTt_TIM_OUT t)
  let dep := d.rd (AHD_LTt_CFG_DEPTH t)
  let clash := fun (b b2 : Nat) => b ≠ b2 && d.rd (AHD_TBb_ID_ISLE b) = d.rd (AHD_TBb_ID_ISLE b2) &&
    Nat.land (d.rd (AHD_TBb_GRP_CELLS b)) (d.rd (AHD_TBb_GRP_CELLS b2)) ≠ 0
  let live := d.enabledBindings.filter (fun b => d.rd (AHD_TBb_ID_TASK b) = t || d.on (AHD_LTt_CFG_EN (d.rd (AHD_TBb_ID_TASK b))))
  let okB := fun (b : Nat) =>
    let n := d.rd (AHD_TBb_ID_ISLE b)
    let h := d.rd (AHD_TBb_GRP_HGRP b)
    let g := d.rd (AHD_TBb_GRP_TGRP b)
    let cells := d.rd (AHD_TBb_GRP_CELLS b)
    let fs := 256 * 2 ^ d.rd (AHD_TBb_WIN_FSZ b)
    let sb := d.rd (AHD_TBb_SHD_SBASE b)
    let wb := d.rd (AHD_TBb_WIN_WBASE b)
    h ≠ g && Nat.land (d.rd (IS_GRPg_MASK n h)) cells = d.rd (IS_GRPg_MASK n h) &&
    Nat.land (d.rd (IS_GRPg_MASK n g)) cells = d.rd (IS_GRPg_MASK n g) &&
    decide (sb + 8 * fs ≤ 32768) && !(List.range 8).any (fun i =>
      decide ((sb + i * fs + 32768 - wb) % 32768 < fs) || decide ((wb + 32768 - (sb + i * fs)) % 32768 < fs)) &&
    !live.any (clash b)
  1 ≤ bs.length && bs.length ≤ 8 && bs.all okB && 1 ≤ dep && dep ≤ 4 && 5 ≤ d.rd (AHD_LTt_TIM_TFIRE t) && 2 ≤ d.rd (AHD_LTt_TIM_OUT t) &&
  d.rd (AHD_LTt_TIM_HLEN t) ≤ 160 && tm ≤ 32 && !((d.task t).pol = 2 && d.on (AHD_LTt_CFG_PSRC t)) &&
  d.rd (ET_CADc_N_N cad) < d.rd (ET_CADc_D_D cad)

/-- Enable a task (R132): refused with CFGERR where a check fails. With AHD_CTRL.EN = 0 it halts at once (Table 06-9). -/
def Dev.enableTask (t : Nat) (d : Dev) : Dev :=
  if d.on (AHD_LTt_CFG_EN t) then d
  else if ¬ d.taskOk t then d.taskFlag t (AHD_LTt_STAT_CFGERR t)
  else
    let s0 := d.rd64 (AHD_LTt_S0_LO t) (AHD_LTt_S0_HI t)
    let a0 := d.rd (AHD_LTt_ACC0_ACC t)
    let x := d.task t
    let d := d.setTask t { Task.reset with openS := s0, openAcc := a0, latchS := s0, latchAcc := a0, pol := x.pol, res := x.res, tol := x.tol,
                                           lastC := d.now }
    let d := (((d.wr (AHD_LTt_CFG_EN t) 1).wr (AHD_LTt_STAT_STATE t) 1).wr (AHD_LTt_STAT_EPOCH t) 0).wr (AHD_LTt_STEP_STEP t) 0
    let d := d.resetEntries t 0
    if d.on AHD_CTRL_EN then d else d.haltTask 3 t

/-- Disable a task (R154): its open steps are dropped. -/
def Dev.disableTask (t : Nat) (d : Dev) : Dev :=
  if d.on (AHD_LTt_CFG_EN t) then
    let x := d.task t
    ((d.setTask t { Task.reset with pol := x.pol, res := x.res, tol := x.tol }).wr (AHD_LTt_CFG_EN t) 0).wr (AHD_LTt_STAT_STATE t) 0 |>.showQlen
  else d

/-- AHD_CTRL.EN clears: every task halts (R154). -/
def Dev.ahdDisable (cause : Nat) (d : Dev) : Dev := forUpTo 48 (fun t d => d.haltTask cause t) (d.wr AHD_CTRL_EN 0)

/-- A write of AHD_LTt_POL (R144, Table 06-4): 0b11 is ignored with CFGERR; else the pair with TOL applies from the next check. -/
def Dev.polWrite (t : Nat) (v : BitVec 32) (d : Dev) : Dev :=
  if wbits v 1 0 = 3 then d.taskFlag t (AHD_LTt_STAT_CFGERR t)
  else
    let d := (d.wr (AHD_LTt_POL_POL t) (wbits v 1 0)).wr (AHD_LTt_POL_RES t) (wbits v 13 8)
    d.setTask t { d.task t with pol := wbits v 1 0, res := wbits v 13 8, tol := d.rd (AHD_LTt_TOL_TOL t) }

/-- The landfall applied a change to an isle of the task's bindings (R152): open steps whose latch precedes it are skipped, later ones are
squashed without a re-run and replayed. -/
def Dev.landfallTask (t : Nat) (d : Dev) : Dev :=
  if d.taskState t ≠ 1 ∨ (d.task t).steps = [] then d
  else
    let l := ((d.task t).steps.filter (fun s => s.latch.isSome)).length
    let d := forUpTo l (fun _ d => d.skipFront t) d
    let x := d.task t
    if x.steps = [] then d
    else
      let k := d.front t
      let d := d.squashIsles t k
      let x := d.task t
      (d.setTask t { x with steps := x.steps.map (fun s => s.again none), squash := [] }).startReplay t (d.now + 1)

/-! ### The commands -/

/-- PREDICTION_REQUEST (R135). -/
def execPredictionRequest (s : State) : Host.Outcome State Fault Refusal := onDev Dev.predictionRequest s
/-- PREDICTION_ANSWER (R136). -/
def execPredictionAnswer (t : Fin 48) (s : State) : Host.Outcome State Fault Refusal := onDev (Dev.predictionAnswer t.val) s
/-- HEAD_FIRE (R135). -/
def execHeadFire (t : Fin 48) (s : State) : Host.Outcome State Fault Refusal := onDev (Dev.headFire t.val) s
/-- CARRY_LOAD (R138). -/
def execCarryLoad (t : Fin 48) (s : State) : Host.Outcome State Fault Refusal := onDev (Dev.carryLoad t.val) s
/-- CHECK (R143). -/
def execCheck (t : Fin 48) (s : State) : Host.Outcome State Fault Refusal := onDev (Dev.checkStep t.val) s
/-- TAIL_FIRE (R145). -/
def execTailFire (t : Fin 48) (s : State) : Host.Outcome State Fault Refusal := onDev (Dev.tailFire t.val) s
/-- COMMIT (R145). -/
def execCommit (t : Fin 48) (s : State) : Host.Outcome State Fault Refusal := onDev (Dev.commitStep t.val) s
/-- SQUASH (R148). -/
def execSquash (t : Fin 48) (s : State) : Host.Outcome State Fault Refusal := onDev (Dev.squashStep t.val) s
/-- RERUN (R149). -/
def execRerun (t : Fin 48) (s : State) : Host.Outcome State Fault Refusal := onDev (Dev.rerunStep t.val) s
/-- REPLAY (R150). -/
def execReplay (t : Fin 48) (s : State) : Host.Outcome State Fault Refusal := onDev (Dev.replayStep t.val) s
/-- SQREQ (R142). -/
def execSqreq (t : Fin 48) (s : State) : Host.Outcome State Fault Refusal := onDev (Dev.sqreq t.val) s
/-- HALT_TOKEN (R154). -/
def execHaltToken (t : Fin 48) (s : State) : Host.Outcome State Fault Refusal := onDev (Dev.haltTok t.val) s
/-- NOTE (R142). -/
def execNote (t : Fin 48) (s : State) : Host.Outcome State Fault Refusal := onDev (Dev.noteTok t.val) s
/-- CTL_SQUASH (R147): acts on the front step. -/
def execCtlSquash (t : Fin 48) (s : State) : Host.Outcome State Fault Refusal := onDev (fun d => d.squashCause t.val (d.front t.val)) s
/-- CTL_HALT (R154). -/
def execCtlHalt (t : Fin 48) (s : State) : Host.Outcome State Fault Refusal := onDev (Dev.haltTask 1 t.val) s
/-- Clear a task's counters (Table 06-9). -/
def Dev.clrTaskCnt (t : Nat) (d : Dev) : Dev :=
  (((d.setReg (AHD_LTt_CNT0 t) 0).setReg (AHD_LTt_CNT1 t) 0).setReg (AHD_LTt_CNT2 t) 0).setReg (AHD_LTt_LAT t) 0
/-- AHD_CLRCNT (R159). -/
def execAhdClrcnt (t : Fin 48) (s : State) : Host.Outcome State Fault Refusal := onDev (Dev.clrTaskCnt t.val) s
/-- The CFG fields other than EN that a write of AHD_LTt_CFG carries (Table 06-9). -/
def Dev.cfgFields (t : Nat) (v : BitVec 32) (d : Dev) : Dev :=
  d.setReg (AHD_LTt_CFG t) (w32 (Nat.land v.toNat 0x0FF73FFE + d.rd (AHD_LTt_CFG_EN t)))
/-- A write of AHD_LTt_CFG (R132, R154, R159): while the task is enabled a change of another field is refused with CFGERR. -/
def Dev.taskCfgWrite (t : Nat) (v : BitVec 32) (d : Dev) : Dev :=
  if d.on (AHD_LTt_CFG_EN t) then
    let d := if Nat.land v.toNat 0x0FF73FFE = Nat.land (d.reg (AHD_LTt_CFG t)).toNat 0x0FF73FFE then d else d.taskFlag t (AHD_LTt_STAT_CFGERR t)
    if wbit v 0 then d else d.disableTask t
  else
    let d := d.cfgFields t v
    if wbit v 0 then d.enableTask t else d
/-- TASK_ENABLE (R132): a write of AHD_LTt_CFG with EN = 1. -/
def execTaskEnable (t : Fin 48) (v : BitVec 32) (s : State) : Host.Outcome State Fault Refusal :=
  onDev (Dev.taskCfgWrite t.val (wput v 0 0 1)) s
/-- TASK_DISABLE (R154). -/
def execTaskDisable (t : Fin 48) (s : State) : Host.Outcome State Fault Refusal := onDev (Dev.disableTask t.val) s
/-- AHD_DISABLE (R154). -/
def execAhdDisable (s : State) : Host.Outcome State Fault Refusal := onDev (Dev.ahdDisable 3) s
/-- POL_WRITE (R144). -/
def execPolWrite (t : Fin 48) (v : BitVec 32) (s : State) : Host.Outcome State Fault Refusal := onDev (Dev.polWrite t.val v) s

end Sys2Proof.Machine
end

