-- ==== Sys2Proof/Machine/Pwm.lean ====
section
/-! DEFINITION. PWM pairs, GIO cells and harbour FIFOs (R160 to R162, R165, R182 to R193). -/
namespace Sys2Proof.Machine

/-! ### Harbour units -/

/-- The number of a harbour unit in faults and repairs: 0x10000 + class × 256 + index, classes by Table 06-7 (Table 18-3). -/
def hbUnit (cls idx : Nat) : Nat := 0x10000 + cls * 256 + idx

/-- A repair of a harbour unit is queued or runs (R435): its words are invalid, its outputs safe. -/
def Dev.hbRepairing (d : Dev) (cls idx : Nat) : Bool := d.ev.repairs.any (fun r => r.unit = hbUnit cls idx)

/-! ### PWM pairs -/

/-- Pair `p`. -/
def Dev.pair (d : Dev) (p : Nat) : PwmPair := tget PwmPair.reset d.hb.pwm p

/-- The block with a pair replaced; INSAFE follows. -/
def Dev.setPair (p : Nat) (x : PwmPair) (d : Dev) : Dev :=
  ({ d with hb := { d.hb with pwm := tset PwmPair.reset d.hb.pwm p x } }).wrb (PW_PAIRp_STAT_INSAFE p) x.safe

/-- The pair's dead time in eighths of an ACLK (R182). -/
def Dev.deadTime (d : Dev) (p : Nat) : Nat := d.rd (PW_PAIRp_DT_DT p)

/-- A register that defines safe states: during a full image's load as the image before has left it (R161). -/
def Dev.safeReg (d : Dev) (a : Nat) : BitVec 32 := if d.hb.loading then tget (regReset a) d.hb.safeCfg a else d.reg a

/-- A cause holds the pair in its safe state (R161, R182, R185, R228, R435). -/
def Dev.safeCause (d : Dev) (p : Nat) : Bool :=
  d.on PW_STAT_NOIMG || d.hb.loading || !d.on (PW_PAIRp_CFG_EN p) || d.on PW_CTRL_SAFE || d.on (PW_PAIRp_STAT_TRIP p) ||
  (d.pair p).held || (d.pair p).repair

/-- Drive pair `p` to its safe state from time `t` in eighths (R162): a side that becomes inactive does so at once, a side that becomes active
after the dead time. Before any image both sides are high-impedance (R161). -/
def Dev.driveSafe (p t : Nat) (d : Dev) : Dev :=
  let x := d.pair p
  let k := if d.on PW_STAT_NOIMG then 3 else d.rd (PW_PAIRp_CFG_SAFE p)
  let wantH := k = 1
  let wantL := k = 2
  let wait := if (wantH && !x.hs) || (wantL && !x.ls) then
      (match x.safe, x.turnOn with
       | true, some (u, h) => if h = wantH then some (u, h) else some (t + d.deadTime p, wantH)
       | _, _ => some (t + d.deadTime p, decide wantH))
    else none
  d.setPair p { x with safe := true, hs := x.hs && wantH, ls := x.ls && wantL, hiZ := k = 3, turnOn := wait, base := none }

/-- A pair enters its safe state where a cause holds it and it is not in it yet (R162). -/
def Dev.enterSafe (p : Nat) (d : Dev) : Dev :=
  if d.safeCause p ∧ ¬ (d.pair p).safe then d.driveSafe p (8 * d.now) else d

/-- Register a command word at pair `p` (R183). -/
def Dev.registerCmd (p : Nat) (v : BitVec 32) (d : Dev) : Dev :=
  let x := d.pair p
  let d := d.setPair p (if x.cmdAt = d.now then x else { x with cmdAt := d.now, cmdPrev := d.reg (PW_PAIRp_CMD p) })
  d.setReg (PW_PAIRp_CMD p) v

/-- The command that pair `p` held in the ACLK before this one (R183). -/
def Dev.cmdBefore (d : Dev) (p : Nat) : BitVec 32 :=
  if (d.pair p).cmdAt = d.now then (d.pair p).cmdPrev else d.reg (PW_PAIRp_CMD p)

/-- Insert an edge in order of time; one in the same eighth is replaced (R40, R184). -/
def placeEdge (e : PwmEdge) (l : List PwmEdge) : List PwmEdge :=
  l.filter (fun x => x.at_ < e.at_) ++ e :: l.filter (fun x => e.at_ < x.at_)

/-- The turn-on of a side, where its dead time has ended at time `t`. -/
def PwmPair.turn (x : PwmPair) (t : Nat) : PwmPair :=
  match x.turnOn with
  | some (u, h) => if u ≤ t then { x with hs := x.hs || h, ls := x.ls || !h, turnOn := none } else x
  | none => x

/-- An edge acts (R182, R184) with dead time `dt`; `leave` when it is the first edge of a pair no cause holds safe any more. -/
def PwmPair.act (x : PwmPair) (e : PwmEdge) (dt : Nat) : PwmPair :=
  let x := match x.turnOn with
    | some (u, _) => if u < e.at_ then x.turn e.at_ else x
    | none => x
  if x.safe then { x with safe := false, hiZ := false, hs := false, ls := false, turnOn := some (e.at_ + dt, e.on) }
  else
    let same := match x.turnOn with
      | some (_, h) => h == e.on
      | none => if e.on then x.hs else x.ls
    if same then x else { x with hs := false, ls := false, turnOn := some (e.at_ + dt, e.on) }

/-- How the sides of a pair stand, and the pair with its sides as they stood. -/
def PwmPair.core (x : PwmPair) : PwmCore := { hs := x.hs, ls := x.ls, hiZ := x.hiZ, turnOn := x.turnOn, safe := x.safe }
def PwmPair.withCore (x : PwmPair) (c : PwmCore) : PwmPair := { x with hs := c.hs, ls := c.ls, hiZ := c.hiZ, turnOn := c.turnOn, safe := c.safe }

/-- The edge `e` acts on a pair and is noted among those that acted lately; `cause` tells whether a cause holds the pair safe, which discards it
(R185). -/
def PwmPair.note (x : PwmPair) (e : PwmEdge) (dt : Nat) (cause : Bool) : PwmPair :=
  let y := if cause then x else x.act e dt
  { y with acted := x.acted ++ [e], base := if x.acted = [] then some x.core else x.base, upto := max x.upto e.at_ }

/-- Edges that acted before time `t` are past: no edge will be placed before them any more (R184). -/
def PwmPair.forget (x : PwmPair) (t dt : Nat) (cause : Bool) : PwmPair :=
  let old := x.acted.filter (fun e => e.at_ < t)
  let b := x.base.map (fun c => if cause then c else (old.foldl (fun y e => PwmPair.act y e dt) (x.withCore c)).core)
  { x with acted := x.acted.filter (fun e => t ≤ e.at_), base := b }

/-- The earliest placed edge of pair `p` reaches its time (R182). An edge is discarded while a cause holds the pair safe (R185). -/
def Dev.edgeAct (p : Nat) (d : Dev) : Dev :=
  let x := d.pair p
  match x.edges with
  | [] => d
  | e :: es =>
    if 8 * (d.now + 1) ≤ e.at_ then d
    else
      let y := PwmPair.forget { x with edges := es } (8 * (d.now - 1)) (d.deadTime p) (d.safeCause p)
      d.setPair p (y.note e (d.deadTime p) (d.safeCause p))

/-- A pair on which edges have acted that come at or after time `t` goes back to its state before them; they wait to act again, and those up to the time
already reached do so at once, in order of time (R184). -/
def PwmPair.replace (x : PwmPair) (e : PwmEdge) (dt : Nat) (cause : Bool) : PwmPair :=
  match x.base with
  | some c =>
    if x.acted.any (fun q => e.at_ ≤ q.at_) then
      let all := placeEdge e (x.acted.filter (fun q => q.at_ < e.at_) ++ x.acted.filter (fun q => e.at_ ≤ q.at_))
      let y := all.foldl (fun y q => y.note q dt cause) { x.withCore c with acted := [], base := none }
      { y with edges := x.edges.filter (fun q => q.at_ ≠ e.at_) }.turn x.upto
    else { x with edges := placeEdge e x.edges }
  | none => { x with edges := placeEdge e x.edges }

/-- Place an edge at time `t` in ACLK `tf` (R183, R184): a fifth edge not yet acted is dropped, counted and reported. Edges act in order of time and the later of
two in one eighth replaces the earlier (R40), also where the earlier has acted since the start of ACLK tf − 1. -/
def Dev.placeEdgeAt (p tf t : Nat) (on : Bool) (d : Dev) : Dev :=
  let x := d.pair p
  let count := fun (l : List PwmEdge) => (l.filter (fun e => 8 * (tf - 1) ≤ e.at_ && e.at_ ≠ t)).length
  if 4 ≤ count x.edges + count x.acted then (d.inc (PW_PAIRp_CNT_DROP p)).f0 0x07 p
  else d.setPair p (x.replace { at_ := t, on := on } (d.deadTime p) (d.safeCause p))

/-- The dead time of a pending turn-on ends (R182); an edge of the same eighth or before acts first (R184). -/
def Dev.deadTimeEnd (p : Nat) (d : Dev) : Dev :=
  let x := d.pair p
  match x.turnOn with
  | none => d
  | some (u, _) =>
    if 8 * (d.now + 1) ≤ u ∨ x.edges.any (fun e => e.at_ ≤ u) then d
    else d.setPair p { x.turn u with upto := max x.upto u }

/-- A trip reaches the pairs of its group (R172, R185). -/
def Dev.tripGroup (g : Nat) (d : Dev) : Dev :=
  let one := fun (p : Nat) (d : Dev) =>
    if d.rdBit (PW_PAIRp_CFG_TRIPM p) g then
      let d := (d.setFlag (PW_PAIRp_STAT_TRIP p)).inc (PW_PAIRp_CNT_TRIPC p)
      (d.setPair p { d.pair p with tripAt := some d.now }).enterSafe p
    else d
  forUpTo 48 one d

/-- A write of 1 to PW_PAIRp_STAT.TRIP (R185): a trip of the same ACLK stays (R5). -/
def Dev.tripClear (p : Nat) (d : Dev) : Dev :=
  if (d.pair p).tripAt = some d.now then d else d.wr (PW_PAIRp_STAT_TRIP p) 0

/-- A write of PW_CTRL.SAFE (R161, R162); after an F3 fault a write of 0 is ignored (R441). -/
def Dev.safeWrite (b : Bool) (d : Dev) : Dev :=
  if d.ev.f3 ∧ b = false then d else forUpTo 48 Dev.enterSafe (d.wrb PW_CTRL_SAFE b)

/-- HS, LS and PEND as they stand at the start of an ACLK (R198). -/
def Dev.showPair (p : Nat) (x : PwmPair) (d : Dev) : Dev :=
  ((d.wrb (PW_PAIRp_STAT_HS p) x.hs).wrb (PW_PAIRp_STAT_LS p) x.ls).wr (PW_PAIRp_STAT_PEND p) (min 4 x.edges.length)

/-- The level on a pin of pair `p`, the high side's or the low side's (R182): none while it is high-impedance. During a full image's load the polarity is that
of the image before (R161). -/
def Dev.pwmPin (d : Dev) (p : Nat) (high : Bool) : Option Bool :=
  let x := d.pair p
  if x.hiZ then none
  else
    let f := if high then PW_PAIRp_CFG_HPOL p else PW_PAIRp_CFG_LPOL p
    some ((if high then x.hs else x.ls) != wbit (d.safeReg f.addr) f.lo)

/-- Every pair's status at the start of an ACLK. -/
def Dev.showPairs (d : Dev) : Dev := forList d.hb.pwm (fun e d => d.showPair e.1 e.2) d

/-! ### General I/O cells -/

/-- Cell `g`. -/
def Dev.gio (d : Dev) (g : Nat) : GioCell := tget GioCell.reset d.hb.gio g

/-- The block with a cell replaced. -/
def Dev.setGio (g : Nat) (x : GioCell) (d : Dev) : Dev := { d with hb := { d.hb with gio := tset GioCell.reset d.hb.gio g x } }

/-- A cell's strobe pulse starts, or starts again (R188): PW of 0 acts as 1 (R195). -/
def Dev.pulse (g tf : Nat) (d : Dev) : Dev :=
  d.setGio g { d.gio g with pulseEnd := some (tf + max 1 (d.rd (HP_GIOg_CFG_PW g))) }

/-- The pulse of a cell ends (R188). -/
def Dev.pulseEnd (g : Nat) (d : Dev) : Dev :=
  match (d.gio g).pulseEnd with
  | some e => if e ≤ d.now then d.setGio g { d.gio g with pulseEnd := none } else d
  | none => d

/-- A cell holds its safe state (R161, R228, R435, R441). -/
def Dev.gioSafe (d : Dev) (g : Nat) : Bool := (d.gio g).held || (d.gio g).repair || d.hb.loading || d.ev.f3

/-- DIR and OSRC of a cell as they act: a value beyond the last acts as it (R195). -/
def Dev.gioDir (d : Dev) (g : Nat) : Nat := min 2 (d.rd (HP_GIOg_CFG_DIR g))
def Dev.gioSrc (d : Dev) (g : Nat) : Nat := min 2 (d.rd (HP_GIOg_CFG_OSRC g))

/-- What drives output half `h` of cell `g` before INV: register, bank word or strobe pulse (R186, R188). -/
def Dev.gioOut (d : Dev) (g h : Nat) : Bool :=
  match d.gioSrc g with
  | 1 => wbit (tget 0#32 d.hb.bank (g / 32)) (g % 32)
  | 2 => (d.gio g).pulseEnd.isSome
  | _ => if h = 0 ∨ ¬ d.on (HP_GIOg_CFG_DDR g) then d.on (HP_GIOg_VAL_OUT0 g) else d.on (HP_GIOg_VAL_OUT1 g)

/-- The level on the pin of cell `g` in half `h` (R186, Table 07-6): none while it is high-impedance. -/
def Dev.gioPin (d : Dev) (g h : Nat) : Option Bool :=
  if d.gioSafe g ∨ d.on PW_STAT_NOIMG then
    (if d.on PW_STAT_NOIMG then none
     else match wbits (d.safeReg (HP_GIOg_CFG g)) (HP_GIOg_CFG_SAFEV g).hi (HP_GIOg_CFG_SAFEV g).lo with
      | 0 => some false
      | 1 => some true
      | _ => none)
  else
    let v := d.gioOut g h != d.on (HP_GIOg_CFG_INV g)
    match d.gioDir g with
    | 1 => some v
    | 2 => if v then none else some false
    | _ => none

/-! ### Harbour FIFOs -/

/-- FIFO `f`. -/
def Dev.hfifo (d : Dev) (f : Nat) : HFifo := tget HFifo.reset d.hb.fifo f

/-- Stored items and slots: the open packet has a slot for its length word (R192). -/
def HFifo.fill (x : HFifo) : Nat :=
  x.items.length + match x.packet with
    | some (l, _) => l.length + 1
    | none => 0

/-- WSRC of a FIFO as it acts: a value beyond the last acts as it (R195). -/
def Dev.fifoSrc (d : Dev) (f : Nat) : Nat := min 2 (d.rd (FQ_Qf_CFG_WSRC f))

/-- The flow control of a FIFO after a change: asserted from HIWM on, deasserted from LOWM down (R190). -/
def HFifo.flow (x : HFifo) (hi lo : Nat) : Bool := if hi ≤ x.fill then true else if x.fill ≤ lo then false else x.fc

/-- The block with a FIFO replaced: FILL, AVAIL and the flow control follow (R190); FC_OUT is asserted in
the safe state and leaves it at once (R160, R161, R228, R441). -/
def Dev.setHfifo (f : Nat) (x : HFifo) (d : Dev) : Dev :=
  let x := { x with fc := x.flow (d.rd (FQ_Qf_WM_HIWM f)) (d.rd (FQ_Qf_WM_LOWM f)) }
  let d := { d with hb := { d.hb with fifo := tset HFifo.reset d.hb.fifo f x } }
  let d := (d.wr (FQ_Qf_STAT_FILL f) x.fill).wr (FQ_Qf_STAT_AVAIL f) x.items.length
  d.wrb (FQ_Qf_STAT_FC f) (x.fc || d.ev.f3 || d.hb.loading || x.held || x.repair)

/-- The level on FC_OUT[f] (R160, R190): high when asserted for FCPOL = 0, else low. -/
def Dev.fcPin (d : Dev) (f : Nat) : Bool := d.on (FQ_Qf_STAT_FC f) != wbit (d.safeReg (FQ_Qf_CFG f)) (FQ_Qf_CFG_FCPOL f).lo

/-- Drop the oldest closed packet of the readable items (R191): what is left and how many data items went. -/
def dropPacket : List (BitVec 32 × Bool) → List (BitVec 32 × Bool) × Nat
  | [] => ([], 0)
  | (_, isLen) :: t =>
    let go := t.takeWhile (fun e => !e.2)
    (t.drop go.length, go.length + if isLen then 0 else 1)

/-- Make room for one item in a full FIFO (R191): the new state, or none where the open packet fills it; and the data items discarded. -/
def HFifo.room (x : HFifo) (frame : Bool) : Option HFifo × Nat :=
  if x.fill < 4096 then (some x, 0)
  else
    match x.items with
    | [] => (none, 0)
    | (_, isLen) :: t =>
      if frame then
        let r := dropPacket x.items
        (some { x with items := r.1 }, r.2)
      else (some { x with items := t }, if isLen then 0 else 1)

/-- Count discarded items (R191). -/
def Dev.fifoLost (f n : Nat) (d : Dev) : Dev := if n = 0 then d else (d.incBy (FQ_Qf_LOST_LOST f) n).setFlag (FQ_Qf_STAT_OVF f)

/-- Open a packet in FIFO `f` (R192): its length slot is reserved. -/
def Dev.fifoOpen (f : Nat) (d : Dev) : Dev :=
  match (d.hfifo f).room true with
  | (none, _) => d
  | (some x, n) => (d.fifoLost f n).setHfifo f { x with packet := some ([], false) }

/-- Store an item in FIFO `f` (R191, R192). -/
def Dev.fifoPut (f : Nat) (v : BitVec 32) (d : Dev) : Dev :=
  if d.on (FQ_Qf_CFG_FRAME f) then
    let d := if (d.hfifo f).packet.isNone then d.fifoOpen f else d
    match (d.hfifo f).room true with
    | (none, _) =>
      let x := d.hfifo f
      (d.fifoLost f 1).setHfifo f { x with packet := x.packet.map (fun q => (q.1, true)) }
    | (some x, n) => (d.fifoLost f n).setHfifo f { x with packet := x.packet.map (fun q => (q.1 ++ [v], q.2)) }
  else
    match (d.hfifo f).room false with
    | (none, _) => d.fifoLost f 1
    | (some x, n) => (d.fifoLost f n).setHfifo f { x with items := x.items ++ [(v, false)] }

/-- What FIFO `f` was before the writes of this ACLK, with `v` among them (R189). -/
def Dev.fifoPrev (d : Dev) (f : Nat) (v : BitVec 32) : FifoPrev :=
  let x := d.hfifo f
  let new : FifoPrev := { at_ := d.now, items := x.items, packet := x.packet, fc := x.fc, stat := d.reg (FQ_Qf_STAT f), lost := d.reg (FQ_Qf_LOST f), writes := [v] }
  match x.prev with
  | some q => if q.at_ = d.now then { q with writes := q.writes ++ [v] } else new
  | none => new

/-- Write an item to FIFO `f` (R189, R191, R192). -/
def Dev.fifoWrite (f : Nat) (v : BitVec 32) (d : Dev) : Dev :=
  if ¬ d.on (FQ_Qf_CFG_EN f) then d
  else (d.setHfifo f { d.hfifo f with prev := some (d.fifoPrev f v) }).fifoPut f v

/-- A STROBE closes the open packet of FIFO `f` and opens the next (R192). -/
def Dev.fifoClose (f : Nat) (d : Dev) : Dev :=
  if d.on (FQ_Qf_CFG_EN f) ∧ d.on (FQ_Qf_CFG_FRAME f) then
    let x := d.hfifo f
    let d := match x.packet with
      | none => d
      | some (l, tr) =>
        let w := w32 (l.length + b2n tr * 2 ^ 29 + 2 ^ 31)
        d.setHfifo f { x with packet := none, prev := none, items := x.items ++ (w, true) :: l.map (fun v => (v, false)) }
    d.fifoOpen f
  else d

/-- The oldest readable item leaves FIFO `f`; with none the read returns 0 and sets UNDR (R193). -/
def Dev.fifoPop (f : Nat) (d : Dev) : BitVec 32 × Dev :=
  let x := d.hfifo f
  match x.items with
  | [] => (0, d.setFlag (FQ_Qf_STAT_UNDR f))
  | (v, _) :: t => (v, d.setHfifo f { x with items := t })

/-- The items a read of this ACLK finds in FIFO `f`: those stored before the writes of the ACLK (R189). -/
def Dev.fifoReadable (f : Nat) (d : Dev) : List (BitVec 32 × Bool) :=
  match (d.hfifo f).prev with
  | some q => if q.at_ = d.now then q.items else (d.hfifo f).items
  | none => (d.hfifo f).items

/-- A read of FQ_Qf_DATA (R189, R193): the word and the block after it. It comes before the writes of its ACLK. -/
def Dev.fifoRead (f : Nat) (d : Dev) : BitVec 32 × Dev :=
  let x := d.hfifo f
  match x.prev with
  | some q =>
    if q.at_ = d.now then
      let y := { x with items := q.items, packet := q.packet, fc := q.fc, prev := none }
      let d : Dev := { d with hb := { d.hb with fifo := tset HFifo.reset d.hb.fifo f y } }
      let r := ((d.setReg (FQ_Qf_STAT f) q.stat).setReg (FQ_Qf_LOST f) q.lost).fifoPop f
      (r.1, forList q.writes (Dev.fifoWrite f) r.2)
    else d.fifoPop f
  | none => d.fifoPop f

/-- FLUSH (R193). -/
def Dev.fifoFlush (f : Nat) (d : Dev) : Dev := d.setHfifo f { d.hfifo f with items := [], packet := none, prev := none }

/-- A read command's data is shown in `rdData` (log entry 21). -/
def Dev.show (r : BitVec 32 × Dev) : Dev := { r.2 with rdData := r.1 }

/-! ### Deliveries from the links (R165) -/

/-- The target an HP_OBc value names (R165): an INDEX beyond the targets acts as the last (R195); none for TGT = 0. -/
def obTarget (v : BitVec 32) : Option (Nat × Nat) :=
  match wbits v 1 0 with
  | 1 => some (1, min 47 (wbits v 9 4))
  | 2 => some (2, min 7 (wbits v 9 4))
  | 3 => some (3, min 1 (wbits v 9 4))
  | _ => none

/-- A word of outbound link channel `c` reaches its target. -/
def Dev.obDeliver (c : Nat) (v : BitVec 32) (d : Dev) : Dev :=
  match obTarget (d.reg (HP_OBc c)) with
  | some (1, i) => d.registerCmd i v
  | some (2, i) => if d.fifoSrc i = 2 then d.fifoWrite i v else d
  | some (_, i) => { d with hb := { d.hb with bank := tset 0#32 d.hb.bank i v } }
  | none => d

/-- A word marked fresh in the last ACLK is delivered once (R165); while the harbour is loaded it is dropped (R161). -/
def Dev.harbourDelivery (c : Nat) (d : Dev) : Dev :=
  let n := c / 8
  let ch := c % 8
  let i := d.isle n
  if i.freshV.contains (16 + ch) ∧ ¬ i.taken.contains ch ∧ ¬ d.hb.loading then
    (d.setIsle n { i with taken := i.taken ++ [ch] }).obDeliver c (tget 0#32 i.straitV (16 + ch))
  else d

/-! ### The commands -/

/-- HARBOUR_DELIVERY (R165). -/
def execHarbourDelivery (c : Fin 96) (s : State) : Host.Outcome State Fault Refusal := onDev (Dev.harbourDelivery c.val) s
/-- PWM_EDGE_ACT (R182). -/
def execPwmEdgeAct (p : Fin 48) (s : State) : Host.Outcome State Fault Refusal := onDev (Dev.edgeAct p.val) s
/-- PWM_DEADTIME_END (R182). -/
def execPwmDeadtimeEnd (p : Fin 48) (s : State) : Host.Outcome State Fault Refusal := onDev (Dev.deadTimeEnd p.val) s
/-- PWM_CMD_WRITE (R183). -/
def execPwmCmdWrite (p : Fin 48) (v : BitVec 32) (s : State) : Host.Outcome State Fault Refusal := onDev (Dev.registerCmd p.val v) s
/-- TRIP_CLEAR (R185). -/
def execTripClear (p : Fin 48) (s : State) : Host.Outcome State Fault Refusal := onDev (Dev.tripClear p.val) s
/-- PW_SAFE_WRITE (R161). -/
def execPwSafeWrite (b : Bool) (s : State) : Host.Outcome State Fault Refusal := onDev (Dev.safeWrite b) s
/-- PW_CLR_CNT (R198). -/
def execPwClrCnt (p : Fin 48) (s : State) : Host.Outcome State Fault Refusal := onDev (fun d => d.setReg (PW_PAIRp_CNT p.val) 0) s
/-- GIO_PULSE_END (R188). -/
def execGioPulseEnd (g : Fin 64) (s : State) : Host.Outcome State Fault Refusal := onDev (Dev.pulseEnd g.val) s
/-- FIFO_DATA_READ (R189, R193). -/
def execFifoDataRead (f : Fin 8) (s : State) : Host.Outcome State Fault Refusal := onDev (fun d => Dev.show (d.fifoRead f.val)) s
/-- FQ_FLUSH (R193). -/
def execFqFlush (f : Fin 8) (s : State) : Host.Outcome State Fault Refusal := onDev (Dev.fifoFlush f.val) s
/-- FQ_CLRLOST (R199). -/
def execFqClrlost (f : Fin 8) (s : State) : Host.Outcome State Fault Refusal := onDev (fun d => d.setReg (FQ_Qf_LOST f.val) 0) s

end Sys2Proof.Machine
end

