-- ==== Sys2Proof/Machine/Harbour.lean ====
section
/-! DEFINITION. Harbour inputs: port words on the links (R163, R164), sigma-delta inputs (R168 to R172), LVDS lanes (R173 to R175), encoders (R176,
R177), SSI interfaces (R178, R179), marks (R187) and sample predictors (R180). -/
namespace Sys2Proof.Machine

/-! ### Port words (R163, R164) -/

/-- A word whose bits are given by a predicate on their index. -/
def bitsWord (f : Nat → Bool) : BitVec 32 := w32 ((List.range 32).foldl (fun s i => if f i then s + 2 ^ i else s) 0)

/-- The sigma-delta input `i`. -/
def Dev.sdIn (d : Dev) (i : Nat) : SdIn := tget SdIn.reset d.hb.sd i

/-- The block with an input replaced. -/
def Dev.setSdIn (i : Nat) (x : SdIn) (d : Dev) : Dev := { d with hb := { d.hb with sd := tset SdIn.reset d.hb.sd i x } }

/-- The port word of a source (Table 07-2). -/
def Dev.portValue (d : Dev) (src i : Nat) (sel : Bool) : BitVec 32 :=
  match src with
  | 1 => if i < 48 then d.reg (if sel then HP_SDi_FWORD i else HP_SDi_WORD i) else 0
  | 2 => if i < 16 then d.reg (if sel then HP_LVj_LWORD i else HP_LVj_WORD i) else 0
  | 3 => if i < 8 then d.reg (if sel then HP_ENCe_CNT i else HP_ENCe_SCNT i) else 0
  | 4 => if i < 8 then d.reg (HP_SSIs_DATA_LO i) else 0
  | 5 => if i < 2 then bitsWord (fun b => d.on (if sel then HP_GIOg_VAL_IN1 (32 * i + b) else HP_GIOg_VAL_IN0 (32 * i + b))) else 0
  | 6 =>
    if i < 2 then
      bitsWord (fun b => decide (32 * i + b < 48) && (if sel then (d.sdIn (32 * i + b)).live else d.on (HP_SDi_STAT_TRIP (32 * i + b))))
    else 0
  | _ => 0

/-- Put a word on inbound link channel `c` (R164). -/
def Dev.putLink (c : Nat) (v : BitVec 32) (d : Dev) : Dev :=
  let i := d.isle (c / 8)
  let h := tset 0#32 i.hin (c % 8) v
  d.setIsle (c / 8) { i with hin := h, hinFresh := if i.hinFresh.contains (c % 8) then i.hinFresh else i.hinFresh ++ [c % 8] }

/-- The last index of an inbound source: an INDEX beyond it acts as it (R195, Table 07-2). -/
def srcTop (src : Nat) : Nat :=
  match src with
  | 1 => 47
  | 2 => 15
  | 3 => 7
  | 4 => 7
  | _ => 1

/-- The port word that inbound channel `c` carries (R163). -/
def Dev.ibWord (d : Dev) (c : Nat) : BitVec 32 :=
  let src := d.rd (HP_IBc_SRC c)
  d.portValue src (min (srcTop src) (d.rd (HP_IBc_INDEX c))) (d.on (HP_IBc_SEL c))

/-- Inbound channel `c` carries the word that its source holds; nothing new has become ready, so it is not fresh (R107, R163, R164). -/
def Dev.holdLink (c : Nat) (d : Dev) : Dev :=
  let i := d.isle (c / 8)
  d.setIsle (c / 8) { i with hin := tset 0#32 i.hin (c % 8) (d.ibWord c) }

/-- A port word is ready in this ACLK: every channel bound to it carries it (R163, R164). -/
def Dev.portReady (src i : Nat) (sel : Bool) (d : Dev) : Dev :=
  let v := d.portValue src i sel
  let one := fun (c : Nat) (d : Dev) =>
    if d.rd (HP_IBc_SRC c) = src ∧ min (srcTop src) (d.rd (HP_IBc_INDEX c)) = i ∧ (src = 4 ∨ d.on (HP_IBc_SEL c) = sel) then d.putLink c v else d
  forUpTo 96 one d

/-- Queue what becomes ready in a later ACLK (Table 07-3). -/
def Dev.later (at_ : Nat) (e : HEv) (d : Dev) : Dev := { d with hb := { d.hb with due := d.hb.due ++ [(at_, e)] } }

/-! ### Predictors (R180) -/

/-- Predictor `p`. -/
def Dev.pred (d : Dev) (p : Nat) : Pred := tget Pred.reset d.preds p

/-- The block with a predictor replaced; its registers follow. -/
def Dev.setPred (p : Nat) (x : Pred) (d : Dev) : Dev :=
  let d := { d with preds := tset Pred.reset d.preds p x }
  ((d.setReg (HP_PRDp_LAST p) x.x).setReg (HP_PRDp_SLOPE_LO p) (w32 x.slope.toNat)).wr (HP_PRDp_SLOPE_HI_SLOPE p) (x.slope.toNat / 2 ^ 32)

/-- A measurement `x` at ACLK `t` (R180). Two measurements in one ACLK leave the raw slope open: a free value (log entry 4). -/
def Dev.predTake (p : Nat) (x : BitVec 32) (t : Nat) (d : Dev) : Dev :=
  let q := d.pred p
  if ¬ q.got then d.setPred p { q with got := true, x := x, at_ := t }
  else
    let dx := (x - q.x).toInt
    let dt : Int := (t : Int) - q.at_
    let r : Int × Dev := if dt = 0 then (((BitVec.ofNat 48 d.fresh.1).toInt), d.fresh.2) else ((dx * 2 ^ 16) / dt, d)
    let s := if q.ready then BitVec.ofInt 48 (q.slope.toInt + asr (r.1 - q.slope.toInt) (d.rd (HP_PRDp_CFG_KSL p))) else BitVec.ofInt 48 r.1
    r.2.setPred p { q with ready := true, slope := s, x := x, at_ := t }

/-- The port of predictor `p`: an INDEX beyond its class acts as the last (R195). -/
def Dev.predIndex (d : Dev) (p : Nat) : Nat :=
  min (srcTop (d.rd (HP_PRDp_CFG_CLASS p) + 1)) (d.rd (HP_PRDp_CFG_INDEX p))

/-- The enabled predictors of a port. -/
def Dev.predsOf (d : Dev) (cls i : Nat) : List Nat :=
  (List.range 48).filter (fun p => d.on (HP_PRDp_CFG_EN p) && d.rd (HP_PRDp_CFG_CLASS p) = cls && d.predIndex p = i)

/-- The source of a port's predictors becomes invalid: they clear their state (R180). -/
def Dev.predsClear (cls i : Nat) (d : Dev) : Dev :=
  forList (d.predsOf cls i) (fun p d => d.setPred p { Pred.reset with lastPer := (d.pred p).lastPer }) d

/-- A strobe word of a port reaches its predictors and the steps latched by that STROBE (R143, R180, R181). -/
def Dev.strobeWord (cls i : Nat) (v : BitVec 32) (valid : Bool) (tf : Nat) (d : Dev) : Dev :=
  let ps := d.predsOf cls i
  let take := fun (p : Nat) (d : Dev) =>
    let e := tget EncIf.reset d.hb.enc i
    if cls = 2 ∧ e.bad.contains (8 + p) then
      { d with hb := { d.hb with enc := tset EncIf.reset d.hb.enc i { e with bad := e.bad.filter (fun x => x ≠ 8 + p) } } }
    else if valid then d.predTake p v tf else d
  let d := forList ps take d
  let step := fun (t : Nat) (d : Dev) =>
    if d.on (AHD_LTt_CFG_PSRC t) ∧ ps.contains (d.rd (AHD_LTt_CFG_PPORT t)) then
      match (d.task t).steps.find? (fun s => s.latch = some tf) with
      | some s => d.modStep t s.k (fun s => { s with meas := v.zeroExtend 64 })
      | none => d
    else d
  forList (d.ahd.tasks.map (fun e => e.1)) step d

/-- The word a periodic measurement takes (R180), and whether it is valid. -/
def Dev.liveWord (d : Dev) (cls i p : Nat) : BitVec 32 × Bool :=
  match cls with
  | 0 => (d.reg (HP_SDi_FWORD i), decide (i < 48) && d.on (HP_SDi_CFG_EN i) && !(d.sdIn i).freeBad && !d.hbRepairing 0 i)
  | 1 => (d.reg (HP_LVj_LWORD i), decide (i < 16) && d.on (HP_LVj_STAT_LOCK i) && !d.hbRepairing 1 i)
  | 2 => (d.reg (HP_ENCe_CNT i), decide (i < 8) && d.on (HP_ENCe_CFG_EN i) && !(tget EncIf.reset d.hb.enc i).bad.contains (8 + p) && !d.hbRepairing 2 i)
  | _ => (d.reg (HP_SSIs_DATA_LO i), decide (i < 8) && d.on (HP_SSIs_CFG_EN i) && (tget SsiIf.reset d.hb.ssi i).seen && !d.hbRepairing 3 i)

/-- The PPER period of predictor `p` expires (R180). -/
def Dev.predictorSample (p : Nat) (d : Dev) : Dev :=
  let q := d.pred p
  let per := d.rd (HP_PRDp_CFG_PPER p)
  if ¬ d.on (HP_PRDp_CFG_EN p) ∨ per = 0 ∨ d.now < q.lastPer + per then d
  else
    let cls := d.rd (HP_PRDp_CFG_CLASS p)
    let i := d.predIndex p
    let w := d.liveWord cls i p
    let d := { d with preds := tset Pred.reset d.preds p { q with lastPer := q.lastPer + per } }
    let e := tget EncIf.reset d.hb.enc i
    let d := if cls = 2 then
      { d with hb := { d.hb with enc := tset EncIf.reset d.hb.enc i { e with bad := e.bad.filter (fun x => x ≠ 8 + p) } } } else d
    if w.2 then d.predTake p w.1 d.now else d

/-! ### Sigma-delta inputs (R168 to R172) -/

/-- A running sum of `n` elements at every position of a list, newest first; beyond the list 0. -/
def boxSum (n : Nat) : List Int → List Int
  | [] => []
  | x :: xs => ((x :: xs).take n).foldl (· + ·) 0 :: boxSum n xs

/-- The sinc^`ord` filter of decimation `dec` over a bit history, newest first (R170): the sum at the newest bit. -/
def sincSum (ord dec : Nat) (bs : List Bool) : Int :=
  let xs : List Int := (bs.take (ord * (dec - 1) + 1)).map (fun b => if b then 1 else -1)
  ((List.range ord).foldl (fun l _ => boxSum dec l) xs).headD 0

/-- Saturation to an interval. -/
def clampInt (lo hi x : Int) : Int := max lo (min hi x)

/-- The filter's word at a bit latch (R170): shift with truncation, saturation, sign extension. -/
def Dev.sdResult (d : Dev) (i : Nat) (bs : List Bool) : BitVec 32 :=
  let dec := max 4 (min 256 (d.rd (HP_SDi_CFG_DEC i)))
  let v := asr (sincSum (d.rd (HP_SDi_CFG_ORD i)) dec bs) (d.rd (HP_SDi_CFG_OSH i))
  BitVec.ofInt 32 (if d.on (HP_SDi_CFG_SAT16 i) then clampInt (-32767) 32767 v else v)

/-- Input `i` is overloaded after these bits (R171). -/
def Dev.sdOverload (d : Dev) (i : Nat) (bs : List Bool) : Bool :=
  let n := d.rd (HP_SDi_OVL_OVLN i)
  n ≠ 0 && n ≤ bs.length && ((bs.take n).all id || (bs.take n).all (fun b => !b))

/-- The comparator path at a bit latch in ACLK `t` (R172). -/
def Dev.comparator (i t : Nat) (d : Dev) : Dev :=
  if ¬ d.on (HP_SDi_CMP_CEN i) then d
  else
    let x := d.sdIn i
    let cdec := max 4 (min 32 (d.rd (HP_SDi_CMP_CDEC i)))
    let c := clampInt (-32768) 32767 (sincSum (max 1 (d.rd (HP_SDi_CMP_CORD i))) cdec x.bits)
    let lo := (BitVec.ofNat 16 (d.rd (HP_SDi_CTHR_CLO i))).toInt
    let hi := (BitVec.ofNat 16 (d.rd (HP_SDi_CTHR_CHI i))).toInt
    let out := decide (c < lo) || decide (hi < c)
    let n := if out then x.outN + 1 else 0
    let fire := out && !x.spent && d.rd (HP_SDi_CMP_CCNT i) + 1 = n
    (d.setSdIn i { x with cmp := BitVec.ofInt 16 c, outN := n, spent := if fire then true else if out then x.spent else false,
                          trips := if fire then x.trips ++ [t + 3] else x.trips }).later (t + 3) (.cmpLive i out)

/-- The modulator clock of input `i` (R168): a number above 5 acts as 5 (R195). -/
def Dev.sdClock (d : Dev) (i : Nat) : Nat := min 5 (d.rd (HP_SDi_CFG_MCLK i))

/-- A bit latch of input `i` (R168, R170, R171): once for each bit latch of its clock. -/
def Dev.sdBitLatch (i : Nat) (level : Bool) (d : Dev) : Dev :=
  let m := d.sdClock i
  let c := tget Mclk.reset d.hb.mclk m
  let x := d.sdIn i
  if ¬ d.on (HP_SDi_CFG_EN i) ∨ c.last ≤ x.cur.at_ then d
  else
    let bs := (level :: x.bits).take 768
    let w : SdWord := { due := c.last + 3, at_ := c.last, value := d.sdResult i bs, bad := d.sdOverload i bs || d.hbRepairing 0 i,
                        ovl := d.sdOverload i bs }
    let k := x.cnt + 1
    let full := max 4 (min 256 (d.rd (HP_SDi_CFG_DEC i))) ≤ k
    let settle := fun (s : Nat × Option SdWord) => if s.2.isNone && decide (s.1 < w.at_) then (s.1, some x.cur) else s
    let x := { x with bits := bs, cnt := if full then 0 else k, prev := x.cur, cur := w,
                      free := if full then x.free ++ [w] else x.free, strobes := x.strobes.map settle }
    let d := if d.sdOverload i bs then d.predsClear 0 i else d
    (d.setSdIn i x).comparator i c.last

/-- A word computed in overload sets OVLD and is counted (R171). -/
def Dev.sdOvlCount (i : Nat) (ovl : Bool) (d : Dev) : Dev :=
  if ovl then (d.wr (HP_SDi_STAT_OVLD i) 1).inc (HP_SDi_CNT_OVLC i) else d.wr (HP_SDi_STAT_OVLD i) 0

/-- The domains, enabled, whose source is `src` and whose first instance is `inst`. -/
def Dev.domainsOf (d : Dev) (src inst : Nat) : List Nat :=
  (List.range 7).filter (fun n => d.adOn n && d.rd (AU_ADn_CFG_SRC n) = src && d.rd (AU_ADn_CFG_INST n) = inst)

/-- A measurement sets out for the angle unit (R25). -/
def Dev.sendMeas (n : Nat) (m : Meas) (d : Dev) : Dev := d.setAd n { d.ad n with inFlight := (d.ad n).inFlight ++ [m] }

/-- The phase error of a resolver or mains source (R23): (v_β cos θ - v_α sin θ) / |v| of the Clarke components. A resolver's are its cosine and sine inputs. Of
the line voltages they are (2 v_ab - v_bc - v_ca, sqrt 3 (v_bc - v_ca)) but for a common factor; their vector stands 60 degrees behind the angle whose fraction 0 is the
positive-going zero crossing of phase a: 90 degrees of the sine less the 30 degrees by which line voltages lead (log entry 10). -/
def phaseError (src : Nat) (v : List Int) (th : BitVec 80) : BitVec 48 :=
  let f : Int := 6 * (th.toNat % 2 ^ 48 : Nat)
  let a := v.getD 0 0
  let b := v.getD 1 0
  let c := v.getD 2 0
  if src = 3 then Config.phaseAngle (a * Config.cosine f - b * Config.sine f) 0 (a * a + b * b).toNat
  else
    let x := 2 * a - b - c
    let y := b - c
    let g := f - 2 ^ 48
    Config.phaseAngle (-(x * Config.sine g)) (y * Config.cosine g) (x * x + 3 * (y * y)).toNat

/-- A resolver or mains measurement from the free-running words of `k` inputs from `i` on (R23, R28): taken with the last one's word. -/
def Dev.phaseMeas (src i k n : Nat) (d : Dev) : Dev :=
  let is := (List.range k).map (fun j => i + j)
  let at_ := (d.sdIn (i + k - 1)).freeAt
  let th := (d.thetaAt n at_).getD (d.ad n).theta
  let v := phaseError src (is.map (fun j => (d.reg (HP_SDi_FWORD j)).toInt)) th
  d.sendMeas n { at_ := at_, valid := is.all (fun j => !(d.sdIn j).freeBad), value := v.zeroExtend 80, isErr := true, latch := none }

/-- The free-running word of input `i` is ready (R170). -/
def Dev.sdFreeWord (i : Nat) (d : Dev) : Dev :=
  let x := d.sdIn i
  match x.free with
  | [] => d
  | w :: ws =>
    if d.now < w.due then d
    else
      let d := d.setSdIn i { x with free := ws, freeBad := w.bad, freeAt := w.at_ }
      let d := (((d.setReg (HP_SDi_FWORD i) w.value).sdOvlCount i w.ovl).portReady 1 i true)
      let d := forList (if 1 ≤ i then d.domainsOf 3 (i - 1) else []) (fun n d => d.phaseMeas 3 (i - 1) 2 n) d
      forList (if 2 ≤ i then d.domainsOf 4 (i - 2) else []) (fun n d => d.phaseMeas 4 (i - 2) 3 n) d

/-- The oldest strobe word of input `i` is ready (R170): the word of the latest bit latch at or before t_f, 3 ACLK after that latch and not before
t_f + 1. -/
def Dev.sdStrobeWord (i : Nat) (d : Dev) : Dev :=
  let x := d.sdIn i
  match x.strobes with
  | [] => d
  | (tf, w) :: ws =>
    let w := match w with
      | some w => w
      | none => x.cur
    if d.now < max w.due (tf + 1) then d
    else
      let d := (d.setSdIn i { x with strobes := ws }).setReg (HP_SDi_WORD i) w.value
      ((d.sdOvlCount i w.ovl).portReady 1 i false).strobeWord 0 i w.value (!w.bad) tf

/-- The AD7 stamp in two words, low first. -/
def Dev.ad7Words (d : Dev) : List (BitVec 32) := [w32 (d.stamp 7).toNat, w32 ((d.stamp 7).toNat / 2 ^ 32)]

/-- An input trips (R172): flags, counts, the trip group, PORT_TRIP; its pairs are held from the next ACLK. -/
def Dev.sdTrip (i : Nat) (d : Dev) : Dev :=
  let x := d.sdIn i
  match x.trips with
  | [] => d
  | t :: ts =>
    if d.now < t then d
    else
      let g := d.rd (HP_SDi_CMP_TGRP i)
      let d := ((d.setSdIn i { x with trips := ts }).setFlag (HP_SDi_STAT_TRIP i)).inc (HP_SDi_CNT_TRIPC i)
      let d := ((d.setFlagBit PW_STAT_TRIPG g).portReady 6 (i / 32) false).later (d.now + 1) (.trip g)
      let held := fun (p : Nat) => d.rdBit (PW_PAIRp_CFG_TRIPM p) g
      let hi := fun (b : Nat) => decide (b < 16) && held (32 + b)
      d.post 0x40 ([w32 i, w32 g] ++ d.ad7Words ++ [bitsWord held, bitsWord hi])

/-! ### LVDS lanes (R173 to R175) -/

/-- A frame ends on a lane (R173 to R175): `len` bits between the frame-clock edges. -/
def Dev.lvdsFrame (j len : Nat) (bs : BitVec 32) (d : Dev) : Dev :=
  if ¬ d.on (HP_LVj_CFG_EN j) ∨ ¬ d.on (HP_LVGg_EN (j / 4)) then d
  else
    let x := tget Lane.reset d.hb.lane j
    let flen := max 8 (min 32 (d.rd (HP_LVj_CFG_FLEN j)))
    let put := fun (y : Lane) (d : Dev) => ({ d with hb := { d.hb with lane := tset Lane.reset d.hb.lane j y } } : Dev)
    if len ≠ flen then
      let lost := d.on (HP_LVj_STAT_LOCK j)
      let d := (((put { x with good := 0 } d).setFlag (HP_LVj_STAT_FERR j)).inc (HP_LVj_STAT_FERRC j)).wr (HP_LVj_STAT_LOCK j) 0
      if lost then d.predsClear 1 j else d
    else
      let raw := bs.toNat % 2 ^ flen
      let raw := if d.on (HP_LVj_CFG_FMT j) then (raw + 2 ^ (flen - 1)) % 2 ^ flen else raw
      let v := BitVec.ofInt 32 (if raw < 2 ^ (flen - 1) then (raw : Int) else (raw : Int) - 2 ^ flen)
      let lock := d.on (HP_LVj_STAT_LOCK j) || decide (16 ≤ x.good + 1)
      let d := d.wrb (HP_LVj_STAT_LOCK j) lock
      if lock ∧ ¬ d.hbRepairing 1 j then
        let d := (put { good := x.good + 1, prev := x.cur, cur := some (d.now, v) } d).later (d.now + 3) (.laneWord j v)
        let one := fun (f : Nat) (d : Dev) => if d.fifoSrc f = 1 ∧ d.rd (FQ_Qf_CFG_LANE f) = j then d.fifoWrite f v else d
        forUpTo 8 one d
      else put { x with good := x.good + 1 } d

/-- The strobe word of a lane (R175): the last valid frame whose latch ACLK is at or before t_f, 3 ACLK after that latch and not before t_f + 1. -/
def Dev.laneStrobe (j tf : Nat) (d : Dev) : Dev :=
  let x := tget Lane.reset d.hb.lane j
  let pick := match x.cur with
    | some (a, v) => if a ≤ tf then some (a, v) else x.prev
    | none => none
  match pick with
  | none => d
  | some (a, v) =>
    if d.now < a + 3 then d.later (a + 3) (.laneStrobe j tf)
    else ((d.setReg (HP_LVj_WORD j) v).portReady 2 j false).strobeWord 1 j v true tf

/-! ### Incremental encoders (R176, R177) -/

/-- Encoder interface `e`. -/
def Dev.encIf (d : Dev) (e : Nat) : EncIf := tget EncIf.reset d.hb.enc e

/-- The block with an interface replaced. -/
def Dev.setEncIf (e : Nat) (x : EncIf) (d : Dev) : Dev := { d with hb := { d.hb with enc := tset EncIf.reset d.hb.enc e x } }

/-- The place of a pair of levels in the quadrature cycle of a rising count: A rises while B is low (R176). -/
def quadIdx (a b : Bool) : Nat :=
  match a, b with
  | false, false => 0
  | true, false => 1
  | true, true => 2
  | false, true => 3

/-- The tracker's count takes one step and its revolutions follow (R23). -/
def Tracker.count1 (t : Tracker) (cpr : Nat) (up : Bool) : Tracker :=
  if up then (if t.count + 1 = cpr then { t with count := 0, revs := t.revs + 1 } else { t with count := t.count + 1 })
  else if t.count = 0 then { t with count := cpr - 1, revs := t.revs - 1 } else { t with count := t.count - 1 }

/-- The count at which the Z position has fraction AU_ADn_ZOFF (R24). -/
def Dev.zCount (d : Dev) (n : Nat) : Nat :=
  let cpr := d.rd (AU_ADn_CPR_CPR n)
  (roundDiv (d.rd (AU_ADn_ZOFF_ZOFF n) * cpr : Nat) (2 ^ 32)).toNat % cpr

/-- The first Z pulse after the enable sets the count of a domain with ZSYNC (R24). DEDUCED: what a mismatch adds to REJ (log entry 203). -/
def Dev.zSync (n : Nat) (d : Dev) : Dev :=
  let t := d.ad n
  if ¬ d.on (AU_ADn_CFG_ZSYNC n) ∨ t.zSeen then d
  else d.setAd n { t with zSeen := true, zPre := some (d.now, t.count), count := d.zCount n }

/-- A transition moves the count of a tracker that follows the interface (R23): one of the ACLK in which a Z pulse has set the count comes before the pulse and
moves the revolutions alone (R24, R177). -/
def Tracker.step1 (t : Tracker) (now cpr : Nat) (up : Bool) : Tracker :=
  match t.zPre with
  | some (a, c) =>
    if a = now then
      let u := Tracker.count1 { t with count := c } cpr up
      { t with revs := u.revs, zPre := some (a, u.count) }
    else t.count1 cpr up
  | none => t.count1 cpr up

/-- An accepted transition of A and B (R176). A Z edge of the same ACLK takes the count after it (R177). A level that could not have been seen in FILT + 1
samples since the last accepted change of its pin is none (log entry 217). -/
def Dev.encTransition (e : Nat) (a b : Bool) (d : Dev) : Dev :=
  let x := d.encIf e
  let wait := d.now + d.rd (HP_ENCe_CFG_FILT e) + 1
  let a := if x.aFrom ≤ d.now then a else x.a
  let b := if x.bFrom ≤ d.now then b else x.b
  let dd := (quadIdx a b + 4 - quadIdx x.a x.b) % 4
  let x := { x with a := a, b := b, aFrom := if a = x.a then x.aFrom else wait, bFrom := if b = x.b then x.bFrom else wait }
  if ¬ d.on (HP_ENCe_CFG_EN e) ∨ dd = 0 then d.setEncIf e x
  else if dd = 2 then
    let cons := d.domainsOf 1 e ++ (d.predsOf 2 e).map (fun p => 8 + p)
    ((d.setEncIf e { x with bad := cons }).setFlag (HP_ENCe_STAT_LOSS e)).inc (HP_ENCe_STAT_ILLC e)
  else
    let up := decide (dd = 1) != d.on (HP_ENCe_CFG_DIRINV e)
    let by_ : Int := if up then 1 else -1
    let c := if up then d.reg (HP_ENCe_CNT e) + 1 else d.reg (HP_ENCe_CNT e) - 1
    let d := d.setEncIf e { x with stepAt := d.now, stepBy := (if x.stepAt = d.now then x.stepBy else 0) + by_ }
    let d := d.setReg (HP_ENCe_CNT e) c
    let d := if x.zAt = some d.now then d.setReg (HP_ENCe_ZCNT e) c else d
    let d := forList (d.domainsOf 1 e) (fun n d => d.setAd n ((d.ad n).step1 d.now (d.rd (AU_ADn_CPR_CPR n)) up)) d
    d.portReady 3 e true

/-- Later Z pulses check the count (R24), with the transitions of their ACLK counted (R177): a mismatch of more than one count is added to REJ, by its number
of counts (log entry 203). -/
def Dev.zCheck (n : Nat) (d : Dev) : Dev :=
  let t := d.ad n
  let cpr := d.rd (AU_ADn_CPR_CPR n)
  let z := d.zCount n
  let m := min ((t.count + cpr - z) % cpr) ((z + cpr - t.count) % cpr)
  if d.on (AU_ADn_CFG_ZSYNC n) ∧ t.zSeen ∧ t.zPre.map Prod.fst ≠ some d.now ∧ 1 < m then d.incBy (AU_ADn_CNT_REJ n) m else d

/-- The Z pulses of this ACLK are checked as it ends. -/
def Dev.zSettle (d : Dev) : Dev :=
  forUpTo 8 (fun e d => if (d.encIf e).zAt = some d.now then forList (d.domainsOf 1 e) Dev.zCheck d else d) d

/-- An accepted Z edge (R177), FILT + 1 samples or more after the last one (R176). -/
def Dev.zEdge (e : Nat) (rising : Bool) (d : Dev) : Dev :=
  if d.now < (d.encIf e).zFrom then d
  else
  let d := d.setEncIf e { d.encIf e with zFrom := d.now + d.rd (HP_ENCe_CFG_FILT e) + 1 }
  if d.on (HP_ENCe_CFG_EN e) ∧ rising ≠ d.on (HP_ENCe_CFG_ZPOL e) then
    let d := (d.setReg (HP_ENCe_ZCNT e) (d.reg (HP_ENCe_CNT e))).setFlag (HP_ENCe_STAT_ZSEEN e)
    let d := d.setEncIf e { d.encIf e with zAt := some d.now }
    forList (d.domainsOf 1 e) Dev.zSync d
  else d

/-- The tracker's count moves by `by_`; its revolutions follow the wraps (R23). -/
def Tracker.countBy (t : Tracker) (cpr : Nat) (by_ : Int) : Tracker :=
  { t with count := ((t.count + by_) % cpr).toNat, revs := t.revs + BitVec.ofInt 32 ((t.count + by_) / cpr) }

/-- A write of the live count (R177): transitions of the same ACLK are counted on top.
The count of a tracker that follows the interface moves with it (R22, R23). -/
def Dev.encCntWrite (e : Nat) (v : BitVec 32) (d : Dev) : Dev :=
  let x := d.encIf e
  let c := if x.stepAt = d.now ∧ d.on (HP_ENCe_CFG_EN e) then v + BitVec.ofInt 32 x.stepBy else v
  let δ := (c - d.reg (HP_ENCe_CNT e)).toInt
  let d := forList (d.domainsOf 1 e) (fun n d => d.setAd n ((d.ad n).countBy (d.rd (AU_ADn_CPR_CPR n)) δ)) d
  (d.setReg (HP_ENCe_CNT e) c).portReady 3 e true

/-- The MPER period of a count source expires (R22, R23, R28): the count is latched. -/
def Dev.encLatch (n : Nat) (d : Dev) : Dev :=
  let t := d.ad n
  let e := d.rd (AU_ADn_CFG_INST n)
  let x := d.encIf e
  if ¬ d.adOn n ∨ d.rd (AU_ADn_CFG_SRC n) ≠ 1 ∨ d.now < t.lastLatch + max 1 (d.rd (AU_ADn_TRK_MPER n)) then d
  else
    let ok := d.on (HP_ENCe_CFG_EN e) && !x.bad.contains n && !d.hbRepairing 2 e
    let d := d.setEncIf e { x with bad := x.bad.filter (fun c => c ≠ n) }
    let d := d.setAd n { t with lastLatch := d.now }
    let v := BitVec.ofNat 80 (t.revs.toNat * 2 ^ 48 + t.count * 2 ^ 48 / d.rd (AU_ADn_CPR_CPR n))
    d.sendMeas n { at_ := d.now, valid := ok, value := v, isErr := false, latch := none }

/-! ### SSI interfaces (R178, R179) -/

/-- Interface `s`. -/
def Dev.ssiIf (d : Dev) (s : Nat) : SsiIf := tget SsiIf.reset d.hb.ssi s

/-- The block with an interface replaced. -/
def Dev.setSsiIf (s : Nat) (x : SsiIf) (d : Dev) : Dev := { d with hb := { d.hb with ssi := tset SsiIf.reset d.hb.ssi s x } }

/-- DBITS as it acts (R195). -/
def ssiData (cfg : BitVec 32) : Nat := max 1 (min 40 (wbits cfg 10 5))

/-- Check bits (R178): 1 for parity, PLEN for CRC. -/
def ssiCheck (cfg poly : BitVec 32) : Nat :=
  match wbits cfg 15 14 with
  | 0 => 0
  | 3 => max 1 (min 8 (wbits poly 11 8))
  | _ => 1

/-- NBITS of a configuration (R178). -/
def ssiNbits (cfg poly : BitVec 32) : Nat := wbits cfg 4 2 + ssiData cfg + wbits cfg 13 11 + ssiCheck cfg poly

/-- A frame starts where none runs and the pause has passed, else BUSY (R178, R179, R26). -/
def Dev.ssiStart (s : Nat) (strobed : Bool) (d : Dev) : Dev :=
  let x := d.ssiIf s
  let wait := match x.lastRise with
    | some r => decide (d.now < r + d.rd (HP_SSIs_TM_TM s))
    | none => false
  if x.start.isSome || wait then d.setFlag (HP_SSIs_STAT_BUSY s)
  else
    let ls := (d.domainsOf 2 s).foldl (fun l n => tset 0#80 l n (d.ad n).theta) []
    d.setSsiIf s { x with start := some d.now, strobed := strobed, latch := ls }

/-- The PER period expires (R178): a period of 0 starts no frame. -/
def Dev.ssiPeriodic (s : Nat) (d : Dev) : Dev :=
  let x := d.ssiIf s
  let per := d.rd (HP_SSIs_PER_PER s)
  if ¬ d.on (HP_SSIs_CFG_EN s) ∨ d.on (HP_SSIs_CFG_TRIGM s) ∨ per = 0 ∨ d.now < x.lastPer + per then d
  else (d.setSsiIf s { x with lastPer := x.lastPer + per }).ssiStart s false

/-- Gray code to binary over `n` bits (R178). -/
def grayBin (g n : Nat) : Nat :=
  (List.range n).foldl (fun b k => b * 2 + (b % 2 + g / 2 ^ (n - 1 - k)) % 2) 0

/-- The CRC of `n` bits, most significant first, initial value 0 (R179). -/
def crcBits (v n poly plen : Nat) : Nat :=
  (List.range n).foldl (fun c k =>
    let top := (c / 2 ^ (plen - 1) + v / 2 ^ (n - 1 - k)) % 2
    let c := c * 2 % 2 ^ plen
    if top = 1 then Nat.xor c (poly % 2 ^ plen) else c) 0

/-- The check of a frame passes (R179). -/
def ssiOk (chk data n poly plen got : Nat) : Bool :=
  let ones := ((List.range n).filter (fun i => data / 2 ^ i % 2 = 1)).length
  match chk with
  | 0 => true
  | 1 => (ones + got) % 2 = 0
  | 2 => (ones + got) % 2 = 1
  | _ => crcBits data n poly plen = got

/-- A frame's position extends its domain's revolution count (R23): wraps of the field are counted by the shorter way.
DESIGN CHOICE: a domain of which the latch holds no estimate has its residual formed against 0 (log entry 204). -/
def Dev.ssiMeas (n s : Nat) (valid : Bool) (start : Nat) (data : Nat) (d : Dev) : Dev :=
  let t := d.ad n
  let cpr := d.reg (AU_ADn_CPR n)
  let st := if wbits cpr 4 0 = 0 then 32 else wbits cpr 4 0
  let mt := wbits cpr 12 8
  let th := tget 0#80 (d.ssiIf s).latch n
  let whole := 2 ^ (st + mt)
  let w := match t.lastMt with
    | none => t.mtWraps
    | some p =>
      if data < p ∧ whole ≤ 2 * (p - data) then t.mtWraps + 1
      else if p < data ∧ whole < 2 * (data - p) then t.mtWraps - 1 else t.mtWraps
  let d := if valid then d.setAd n { t with lastMt := some data, mtWraps := w } else d
  let rev := w.toNat * 2 ^ mt + data / 2 ^ st
  let v := BitVec.ofNat 80 (rev * 2 ^ 48 + data % 2 ^ st * 2 ^ (48 - st))
  d.sendMeas n { at_ := start, valid := valid, value := v, isErr := false, latch := some th }

/-- The last bit of a frame has been sampled (R178, R179). `startHigh` tells the data line's level at the start, `bs` the sampled bits, the
first one most significant of NBITS. -/
def Dev.ssiFrameDone (s : Nat) (startHigh : Bool) (bs : BitVec 40) (d : Dev) : Dev :=
  let x := d.ssiIf s
  let cfg := d.reg (HP_SSIs_CFG s)
  let poly := d.reg (HP_SSIs_POLY s)
  let nb := ssiNbits cfg poly
  let cdiv := max 80 (d.rd (HP_SSIs_CLK_CDIV s))
  let sdly := d.rd (HP_SSIs_CLK_SDLY s)
  match x.start with
  | none => d
  | some st =>
    if d.now < st + cdiv / 2 + (nb - 1) * cdiv + sdly then d
    else
      let nd := ssiData cfg
      let nc := ssiCheck cfg poly
      let ns := wbits cfg 13 11
      let all := bs.toNat
      let got := all % 2 ^ nc
      let status := all / 2 ^ nc % 2 ^ ns
      let raw := all / 2 ^ (nc + ns) % 2 ^ nd
      let data := if wbit cfg 16 then grayBin raw nd else raw
      let doms := d.domainsOf 2 s
      let sizeOk := doms.all (fun n =>
        let cpr := d.reg (AU_ADn_CPR n)
        (if wbits cpr 4 0 = 0 then 32 else wbits cpr 4 0) + wbits cpr 12 8 = nd)
      let ok := startHigh && ssiOk (wbits cfg 15 14) raw nd (wbits poly 7 0) nc got && sizeOk
      let d := d.setSsiIf s { x with start := none, lastRise := some (d.now - sdly), seen := x.seen || ok }
      let d := if startHigh then d else d.setFlag (HP_SSIs_STAT_WIRE s)
      let d := if ok then d else (d.setFlag (HP_SSIs_STAT_ERR s)).inc (HP_SSIs_STAT_ERRC s)
      let valid := ok && !d.hbRepairing 3 s
      let d := forList doms (fun n d => d.ssiMeas n s valid st data) d
      let d := if ok then d else d.predsClear 3 s
      if ok then d.later (d.now + 3) (.ssiData s st (BitVec.ofNat 40 data) (BitVec.ofNat 7 status) x.strobed) else d

/-! ### GIO inputs and marks (R186, R187) -/

/-- The rising ACLK edge captures the pin of an input cell into IN0 (R186): the start of a mark's level (R187). -/
def Dev.captureRise (g : Nat) (d : Dev) : Dev :=
  let x := d.gio g
  let v := x.pin != d.on (HP_GIOg_CFG_INV g)
  let was := d.on (HP_GIOg_VAL_IN0 g)
  if d.gioDir g ≠ 0 ∨ v = was then d
  else
    let mk := if v = !d.on (HP_GIOg_MARK_EDGE g) then (if d.on (HP_GIOg_MARK_MEN g) then some d.now else x.mark) else none
    ((d.setGio g { x with mark := mk }).wrb (HP_GIOg_VAL_IN0 g) v).portReady 5 (g / 32) false

/-- The falling ACLK edge captures it into IN1 with DDR = 1 (R186). -/
def Dev.captureFall (g : Nat) (d : Dev) : Dev :=
  let v := (d.gio g).pin != d.on (HP_GIOg_CFG_INV g)
  if d.gioDir g ≠ 0 ∨ ¬ d.on (HP_GIOg_CFG_DDR g) ∨ v = d.on (HP_GIOg_VAL_IN1 g) then d
  else (d.wrb (HP_GIOg_VAL_IN1 g) v).portReady 5 (g / 32) true

/-- The level on the pin of a cell changes (R186): before the rising edge of the ACLK, and where it changes again in one ACLK, before the falling edge
(log entry 218). -/
def Dev.gioInput (g : Nat) (level : Bool) (d : Dev) : Dev :=
  let again := (d.gio g).pinAt = some d.now
  let d := d.setGio g { d.gio g with pin := level, pinAt := some d.now }
  if again then d.captureFall g else (d.captureRise g).captureFall g

/-- The cells that have had a pin change or a configuration write since reset: the others' captures are as reset leaves them. -/
def Dev.gioCells (d : Dev) : List Nat :=
  d.hb.gio.map (fun e => e.1) ++ d.regs.filterMap (fun e =>
    if HP_GIOg_CFG 0 ≤ e.1 ∧ e.1 < HP_GIOg_CFG 64 ∧ (e.1 - HP_GIOg_CFG 0) % 0x10 = 0 then some ((e.1 - HP_GIOg_CFG 0) / 0x10) else none)

/-- Every ACLK edge captures the input cells (R186). -/
def Dev.captureAll (d : Dev) : Dev := forList d.gioCells (fun g d => (d.captureRise g).captureFall g) d

/-- A mark of a domain (R23): mark i of M, in the revolution that lies nearest to the estimate of its latch ACLK.
DESIGN CHOICE: what is expected before the first mark and after a rejected one (log entry 205). -/
def Dev.markMeas (n at_ : Nat) (d : Dev) : Dev :=
  let t := d.ad n
  let m := d.rd (AU_ADn_CPR_CPR n)
  let th := (d.thetaAt n at_).getD t.theta
  let f : BitVec 48 := BitVec.ofNat 48 (t.markIdx * 2 ^ 48 / m + d.rd (AU_ADn_ZOFF_ZOFF n) * 2 ^ 16)
  let v := th + BitVec.ofInt 80 (f - BitVec.ofNat 48 th.toNat).toInt
  let sp : Int := if t.omega.toInt < 0 then -(2 ^ 48 / m : Nat) else (2 ^ 48 / m : Nat)
  (d.setAd n { t with markIdx := t.nextMark m, markDue := some (v + BitVec.ofInt 80 sp) }).sendMeas n
    { at_ := at_, valid := !d.hbRepairing 5 (d.rd (AU_ADn_CFG_INST n)), value := v, isErr := false, latch := none }

/-- A mark is accepted after MINW ACLK of the new level (R187). -/
def Dev.markAccept (g : Nat) (d : Dev) : Dev :=
  match (d.gio g).mark with
  | none => d
  | some a =>
    if d.now < a + d.rd (HP_GIOg_MARK_MINW g) then d
    else forList (d.domainsOf 5 g) (fun n d => d.markMeas n a) (d.setGio g { d.gio g with mark := none })

/-! ### What becomes ready in an ACLK -/

/-- One queued happening takes place. -/
def Dev.hbEvent (e : HEv) (d : Dev) : Dev :=
  match e with
  | .laneWord j v => (d.setReg (HP_LVj_LWORD j) v).portReady 2 j true
  | .laneStrobe j tf => d.laneStrobe j tf
  | .encStrobe i tf v => ((d.setReg (HP_ENCe_SCNT i) v).portReady 3 i false).strobeWord 2 i v (!d.hbRepairing 2 i) tf
  | .ssiData s tf v st strobed =>
    let d := ((d.setReg (HP_SSIs_DATA_LO s) (w32 v.toNat)).wr (HP_SSIs_DATA_HI_DATA s) (v.toNat / 2 ^ 32)).wr (HP_SSIs_DATA_HI_STATUS s) st.toNat
    let d := d.portReady 4 s false
    if strobed then d.strobeWord 3 s (w32 v.toNat) (!d.hbRepairing 3 s) tf else d
  | .cmpLive i o => (d.setSdIn i { d.sdIn i with live := o }).portReady 6 (i / 32) true
  | .trip g => d.tripGroup g

/-- A modulator clock as ACLK `now` begins (R168): a period begins with its rising edge, and the bit latch comes BDLY after it. -/
def Mclk.tick (c : Mclk) (now bdly per : Nat) : Mclk :=
  if c.next = 0 then c
  else
    let c := if c.next ≤ now then { c with rise := c.next, next := c.next + per } else c
    if c.rise ≠ 0 ∧ now = c.rise + bdly then { c with last := now } else c

/-- The modulator clocks as an ACLK begins (R168). -/
def Dev.tickClocks (d : Dev) : Dev :=
  { d with hb := { d.hb with mclk := d.hb.mclk.map (fun e => (e.1, e.2.tick d.now (d.rd (HP_MCLKm_BDLY e.1)) (d.mdiv e.1))) } }

/-- The level on SD_MCLK[m] (R160, R168): low where the clock is stopped and during a full image's load; high for the first half of each period
(DESIGN CHOICE, log entry 219). -/
def Dev.sdMclkPin (d : Dev) (m : Nat) : Bool :=
  let c := tget Mclk.reset d.hb.mclk m
  !d.hb.loading && c.rise ≠ 0 && decide (d.now < c.rise + d.mdiv m / 2)

/-- The level on SSI_CLK[s] (R160, R178): high but for the first half of each clock period of a frame. -/
def Dev.ssiClkPin (d : Dev) (s : Nat) : Bool :=
  match (d.ssiIf s).start with
  | some st =>
    let cdiv := max 80 (d.rd (HP_SSIs_CLK_CDIV s))
    let k := (d.now - st) / cdiv
    d.hb.loading || decide (ssiNbits (d.reg (HP_SSIs_CFG s)) (d.reg (HP_SSIs_POLY s)) ≤ k) || decide (cdiv / 2 ≤ (d.now - st) % cdiv)
  | none => true

/-- The harbour at the start of an ACLK: what is ready by now, the clocks, the pairs' status (Table 07-3, R168, R198). -/
def Dev.tickHarbour (d : Dev) : Dev :=
  let go := d.hb.due.filter (fun e => e.1 ≤ d.now)
  let d := { d with hb := { d.hb with due := d.hb.due.filter (fun e => d.now < e.1) } }
  (forList go (fun e d => d.hbEvent e.2) d).captureAll.tickClocks.showPairs

/-! ### A STROBE at the ports (R167) -/

/-- The members of strobe group `g` act in ACLK `tf`. -/
def Dev.strobePorts (g tf : Nat) (d : Dev) : Dev :=
  let sd := fun (i : Nat) (d : Dev) =>
    if d.on (HP_SDi_CFG_EN i) ∧ d.rd (HP_SDi_CFG_STG i) = g then
      let m := d.sdClock i
      let x := d.sdIn i
      let d := d.setSdIn i { x with strobes := x.strobes ++ [(tf, if x.cur.at_ ≤ tf then none else some x.prev)] }
      if d.on (HP_MCLKm_ALIGN m) ∧ d.rd (HP_MCLKm_STG m) = g ∧ (tget Mclk.reset d.hb.mclk m).last ≠ tf then d.setFlag (HP_SDi_STAT_MISAL i) else d
    else d
  let lane := fun (j : Nat) (d : Dev) =>
    if d.on (HP_LVj_CFG_EN j) ∧ d.rd (HP_LVj_CFG_STG j) = g then d.later (tf + 1) (.laneStrobe j tf) else d
  let enc := fun (e : Nat) (d : Dev) =>
    if d.on (HP_ENCe_CFG_EN e) ∧ d.rd (HP_ENCe_CFG_STG e) = g then d.later (tf + 1) (.encStrobe e tf (d.reg (HP_ENCe_CNT e))) else d
  let ssi := fun (s : Nat) (d : Dev) =>
    if d.on (HP_SSIs_CFG_EN s) ∧ d.on (HP_SSIs_CFG_TRIGM s) ∧ d.rd (HP_SSIs_CFG_STG s) = g then d.ssiStart s true else d
  let gio := fun (k : Nat) (d : Dev) =>
    if d.gioSrc k = 2 ∧ d.rd (HP_GIOg_CFG_STG k) = g ∧ ¬ (d.gio k).held then d.pulse k tf else d
  let fifo := fun (f : Nat) (d : Dev) => if d.rd (FQ_Qf_CFG_STG f) = g ∧ ¬ (d.hfifo f).held then d.fifoClose f else d
  forUpTo 8 fifo (forUpTo 64 gio (forUpTo 8 ssi (forUpTo 8 enc (forUpTo 16 lane (forUpTo 48 sd d)))))

/-! ### The commands -/

/-- SD_BIT_LATCH (R170). -/
def execSdBitLatch (i : Fin 48) (l : Bool) (s : State) : Host.Outcome State Fault Refusal := onDev (Dev.sdBitLatch i.val l) s
/-- SD_FREE_WORD (R170). -/
def execSdFreeWord (i : Fin 48) (s : State) : Host.Outcome State Fault Refusal := onDev (Dev.sdFreeWord i.val) s
/-- SD_STROBE_WORD (R170). -/
def execSdStrobeWord (i : Fin 48) (s : State) : Host.Outcome State Fault Refusal := onDev (Dev.sdStrobeWord i.val) s
/-- SD_TRIP (R172). -/
def execSdTrip (i : Fin 48) (s : State) : Host.Outcome State Fault Refusal := onDev (Dev.sdTrip i.val) s
/-- LVDS_FRAME (R174). -/
def execLvdsFrame (j : Fin 16) (n : Nat) (bs : BitVec 32) (s : State) : Host.Outcome State Fault Refusal := onDev (Dev.lvdsFrame j.val n bs) s
/-- ENC_TRANSITION (R176). -/
def execEncTransition (e : Fin 8) (a b : Bool) (s : State) : Host.Outcome State Fault Refusal := onDev (Dev.encTransition e.val a b) s
/-- Z_EDGE (R177). -/
def execZEdge (e : Fin 8) (r : Bool) (s : State) : Host.Outcome State Fault Refusal := onDev (Dev.zEdge e.val r) s
/-- ENC_CNT_WRITE (R177). -/
def execEncCntWrite (e : Fin 8) (v : BitVec 32) (s : State) : Host.Outcome State Fault Refusal := onDev (Dev.encCntWrite e.val v) s
/-- SSI_PERIODIC_START (R178). -/
def execSsiPeriodicStart (i : Fin 8) (s : State) : Host.Outcome State Fault Refusal := onDev (Dev.ssiPeriodic i.val) s
/-- SSI_FRAME_DONE (R179). -/
def execSsiFrameDone (i : Fin 8) (h : Bool) (bs : BitVec 40) (s : State) : Host.Outcome State Fault Refusal := onDev (Dev.ssiFrameDone i.val h bs) s
/-- PREDICTOR_SAMPLE (R180). -/
def execPredictorSample (p : Fin 48) (s : State) : Host.Outcome State Fault Refusal := onDev (Dev.predictorSample p.val) s
/-- MARK_ACCEPT (R187). -/
def execMarkAccept (g : Fin 64) (s : State) : Host.Outcome State Fault Refusal := onDev (Dev.markAccept g.val) s
/-- GIO_INPUT_EDGE (R186). -/
def execGioInputEdge (g : Fin 64) (l : Bool) (s : State) : Host.Outcome State Fault Refusal := onDev (Dev.gioInput g.val l) s

end Sys2Proof.Machine
end

