-- ==== Sys2Proof/Machine/HarbourCfg.lean ====
section
/-! DEFINITION. Harbour configuration (R166, R194, R195), the harbour reference (R435) and writes to the HP, PW and FQ registers. -/
namespace Sys2Proof.Machine

/-! ### Units (Table 07-9)

Unit classes: 0 to 6 by Table 06-7 (sigma-delta input, LVDS lane, encoder, SSI, PWM pair, GIO cell, FIFO), then 7 modulator clock, 8 LVDS group,
9 predictor, 10 inbound binding, 11 outbound binding. -/

/-- The unit whose configuration register lies at address `a`. -/
def hbUnitOf (a : Nat) : Option (Nat × Nat) :=
  let sec := fun (cls base n stride used : Nat) =>
    if base ≤ a ∧ a < base + n * stride ∧ (a - base) % stride < used ∧ a % 4 = 0 then some (cls, (a - base) / stride) else none
  [sec 7 0x40030010 6 4 4, sec 0 0x40030100 48 0x20 0x10, sec 8 0x40030700 4 4 4, sec 1 0x40030800 16 0x20 4, sec 2 0x40030A00 8 0x20 4,
   sec 3 0x40030B00 8 0x20 0x14, sec 9 0x40030C00 48 0x10 4, sec 5 0x40031000 64 0x10 8, sec 10 0x40031400 96 4 4, sec 11 0x40031600 96 4 4,
   sec 6 0x40038000 8 0x40 8, sec 4 0x40040100 48 0x20 8].findSome? id

/-- The configuration registers of a unit. -/
def hbConfig (cls i : Nat) : List Nat :=
  match cls with
  | 0 => [HP_SDi_CFG i, HP_SDi_CMP i, HP_SDi_CTHR i, HP_SDi_OVL i]
  | 1 => [HP_LVj_CFG i]
  | 2 => [HP_ENCe_CFG i]
  | 3 => [HP_SSIs_CFG i, HP_SSIs_CLK i, HP_SSIs_TM i, HP_SSIs_PER i, HP_SSIs_POLY i]
  | 4 => [PW_PAIRp_CFG i, PW_PAIRp_DT i]
  | 5 => [HP_GIOg_CFG i, HP_GIOg_MARK i]
  | 6 => [FQ_Qf_CFG i, FQ_Qf_WM i]
  | 7 => [HP_MCLKm i]
  | 8 => [HP_LVGg i]
  | 9 => [HP_PRDp_CFG i]
  | 10 => [HP_IBc i]
  | _ => [HP_OBc i]

/-- The enable field of a unit: bindings and GIO cells have none. -/
def hbEnable (cls i : Nat) : Option Fld :=
  match cls with
  | 0 => some (HP_SDi_CFG_EN i)
  | 1 => some (HP_LVj_CFG_EN i)
  | 2 => some (HP_ENCe_CFG_EN i)
  | 3 => some (HP_SSIs_CFG_EN i)
  | 4 => some (PW_PAIRp_CFG_EN i)
  | 6 => some (FQ_Qf_CFG_EN i)
  | 7 => some (HP_MCLKm_EN i)
  | 8 => some (HP_LVGg_EN i)
  | 9 => some (HP_PRDp_CFG_EN i)
  | _ => none

/-- A unit is enabled; one without an enable counts as disabled. -/
def Dev.hbOn (d : Dev) (cls i : Nat) : Bool :=
  match hbEnable cls i with
  | some f => d.on f
  | none => false

/-- The address of a configuration register's copy in the harbour reference (R435, log entry 22). -/
def refAddr (a : Nat) : Nat := 0x30000 + if a < 0x40040000 then a - 0x40030000 else 0xC000 + (a - 0x40040000)

/-- The value of `v` with every bit outside the register's RW fields clear. -/
def rwPart (a : Nat) (v : BitVec 32) : BitVec 32 :=
  match regRow? a with
  | some r => w32 (Nat.land v.toNat r.rw)
  | none => v

/-- A configuration register takes a value, its reserved fields staying 0 (R197 to R199), and the causeway writes it to the harbour reference (R435). -/
def Dev.setConfig (a : Nat) (v : BitVec 32) (d : Dev) : Dev :=
  let v := rwPart a v
  let r := (d.setReg a v).store32 (refAddr a) v
  let d := r.eccWrite (refAddr a)
  { d with hb := { d.hb with refd := if d.hb.refd.contains a then d.hb.refd else d.hb.refd ++ [a] } }

/-! ### What a change of a unit's configuration does -/

/-- The inputs of a modulator clock start with their histories cleared (R170). -/
def Dev.sdClear (i : Nat) (d : Dev) : Dev :=
  let l := (tget Mclk.reset d.hb.mclk (d.sdClock i)).last
  d.setSdIn i { SdIn.reset with cur := { SdWord.none with at_ := l }, live := (d.sdIn i).live }

/-- A lane stops or starts: its lock and frame count clear (R174). -/
def Dev.laneClear (j : Nat) (d : Dev) : Dev :=
  (({ d with hb := { d.hb with lane := tset Lane.reset d.hb.lane j Lane.reset } } : Dev).wr (HP_LVj_STAT_LOCK j) 0).predsClear 1 j

/-- The effects of a unit's new configuration (R168, R170, R176, R178, R180, R182): `was` tells whether it was enabled before. A pair that a cause holds
safe takes its new safe state; one that waits for its next edge stays as it is. -/
def Dev.unitChanged (cls i : Nat) (was : Bool) (d : Dev) : Dev :=
  let now := d.hbOn cls i
  match cls with
  | 0 => if now && !was then d.sdClear i else if was && !now then d.predsClear 0 i else d
  | 1 => if now = was then d else d.laneClear i
  | 2 => if was && !now then d.predsClear 2 i else d
  | 3 =>
    if now && !was then d.setSsiIf i { SsiIf.reset with lastPer := d.now, lastRise := (d.ssiIf i).lastRise }
    else if was && !now then (d.setSsiIf i { d.ssiIf i with start := none, seen := false }).predsClear 3 i else d
  | 4 => if d.hb.loading then d else if d.safeCause i then d.driveSafe i (8 * d.now) else d
  | 6 => d.setHfifo i (d.hfifo i)
  | 7 =>
    if now && !was then
      let d := { d with hb := { d.hb with mclk := tset Mclk.reset d.hb.mclk i { last := 0, rise := 0, next := d.now + 1 } } }
      forUpTo 48 (fun k d => if d.sdClock k = i then d.sdClear k else d) d
    else if was && !now then
      forUpTo 48 (fun k d => if d.sdClock k = i then d.predsClear 0 k else d) { d with hb := { d.hb with mclk := tset Mclk.reset d.hb.mclk i Mclk.reset } }
    else d
  | 8 => if now = was then d else forUpTo 4 (fun k d => d.laneClear (4 * i + k)) d
  | 9 => if now && !was then d.setPred i { Pred.reset with lastPer := d.now } else d
  | 10 => d.holdLink i
  | _ => d

/-! ### Direct writes of configuration registers (R166, R194, R195) -/

/-- An inbound source's port is enabled; sources without an enable place no condition (R194). -/
def Dev.ibOn (d : Dev) (v : BitVec 32) : Bool :=
  let i := wbits v 9 4
  match wbits v 3 0 with
  | 1 => d.on (HP_SDi_CFG_EN (min 47 i))
  | 2 => d.on (HP_LVj_CFG_EN (min 15 i))
  | 3 => d.on (HP_ENCe_CFG_EN (min 7 i))
  | 4 => d.on (HP_SSIs_CFG_EN (min 7 i))
  | _ => false

/-- An outbound target is enabled; a GIO bank has no enable (R194). -/
def Dev.obOn (d : Dev) (v : BitVec 32) : Bool :=
  match obTarget v with
  | some (1, i) => d.on (PW_PAIRp_CFG_EN i)
  | some (2, i) => d.on (FQ_Qf_CFG_EN i)
  | _ => false

/-- A target is bound by another outbound channel than `c` and those of `but` (R166), or a staged change binds it. -/
def Dev.obHeld (d : Dev) (c : Nat) (but : List Nat) (v : BitVec 32) : Bool :=
  obTarget v ≠ none && ((List.range 96).any (fun k => k ≠ c && !but.contains k && obTarget (d.reg (HP_OBc k)) = obTarget v) ||
    d.cfg.staged.any (fun s => s.csr.any (fun e => match hbUnitOf e.1 with
      | some (11, k) => k ≠ c && obTarget e.2 = obTarget v
      | _ => false)))

/-- A target is bound by another outbound channel than `c` (R166). -/
def Dev.obTaken (d : Dev) (c : Nat) (v : BitVec 32) : Bool := d.obHeld c [] v

/-- A value that the unit refuses whatever its state (R178, R190, R195). -/
def Dev.hbBadValue (d : Dev) (cls i a : Nat) (v : BitVec 32) : Bool :=
  match cls with
  | 0 => a = HP_SDi_CFG i && wbits v 2 1 = 0
  | 3 =>
    let cfg := if a = HP_SSIs_CFG i then v else d.reg (HP_SSIs_CFG i)
    let poly := if a = HP_SSIs_POLY i then v else d.reg (HP_SSIs_POLY i)
    40 < ssiNbits cfg poly
  | 6 => a = FQ_Qf_WM i && (decide (wbits v 28 16 ≤ wbits v 12 0) || decide (4096 < wbits v 28 16))
  | _ => false

/-- A direct write changes no field but the unit's enable field (R194). -/
def Dev.onlyEnable (d : Dev) (cls i a : Nat) (v : BitVec 32) : Bool :=
  match hbEnable cls i with
  | some f => if f.addr = a then wput v f.hi f.lo 0 = wput (d.reg a) f.hi f.lo 0 else v = d.reg a
  | none => false

/-- A configuration register of a unit takes `v`, with what follows from it. -/
def Dev.configApply (cls i a : Nat) (v : BitVec 32) (d : Dev) : Dev :=
  let was := d.hbOn cls i
  (d.setConfig a v).unitChanged cls i was

/-- A direct write of a configuration register (R166, R194). -/
def Dev.configWrite (cls i a : Nat) (v : BitVec 32) (d : Dev) : Dev :=
  let v := rwPart a v
  let refuse := d.setFlag HP_STAT_CFGERR
  if cls = 10 then (if d.ibOn (d.reg a) || d.ibOn v then refuse else d.configApply cls i a v)
  else if cls = 11 then
    if d.obTaken i v then d.setFlag HP_STAT_CONFLICT
    else if d.obOn (d.reg a) || d.obOn v then refuse else d.configApply cls i a v
  else if d.hbBadValue cls i a v then refuse
  else if d.hbOn cls i && !d.onlyEnable cls i a v then refuse
  else d.configApply cls i a v

/-- The channels bound to the latched TRIP bits carry them (Table 07-2). -/
def Dev.showTrips (d : Dev) : Dev :=
  forUpTo 96 (fun c d => if d.rd (HP_IBc_SRC c) = 6 ∧ ¬ d.on (HP_IBc_SEL c) then d.holdLink c else d) d

/-- A direct write to an HP, PW or FQ register (R18, R194, R197 to R199). -/
def Dev.harbourWrite (a : Nat) (v : BitVec 32) (d : Dev) : Dev :=
  match hbUnitOf a with
  | some (cls, i) => d.configWrite cls i a v
  | none =>
    if a = PW_CTRL then d.safeWrite (wbit v 0)
    else if HP_ENCe_CNT 0 ≤ a ∧ a < HP_ENCe_CNT 8 ∧ (a - HP_ENCe_CNT 0) % 0x20 = 0 then d.encCntWrite ((a - HP_ENCe_CNT 0) / 0x20) v
    else if PW_PAIRp_CFG 0 ≤ a ∧ a < PW_PAIRp_CFG 48 then
      let p := (a - PW_PAIRp_CFG 0) / 0x20
      match (a - PW_PAIRp_CFG 0) % 0x20 with
      | 0x08 => d.registerCmd p v
      | 0x0C => if wbit v 2 then d.tripClear p else d
      | 0x14 => if wbit v 0 then d.setReg (PW_PAIRp_CNT p) 0 else d
      | _ => d
    else if FQ_Qf_CFG 0 ≤ a ∧ a < FQ_Qf_CFG 8 ∧ (a - FQ_Qf_CFG 0) % 0x40 = 0x14 then
      let f := (a - FQ_Qf_CFG 0) / 0x40
      let d := if wbit v 0 then d.fifoFlush f else d
      if wbit v 1 then d.setReg (FQ_Qf_LOST f) 0 else d
    else if HP_SDi_STAT 0 ≤ a ∧ a < HP_SDi_STAT 48 ∧ (a - HP_SDi_STAT 0) % 0x20 = 0 then (d.plainWrite a v).showTrips
    else d.plainWrite a v

/-- A read of an HP, PW or FQ register: FQ_Qf_DATA removes the item it returns (R189). -/
def Dev.harbourRead (a : Nat) (d : Dev) : BitVec 32 × Dev :=
  if FQ_Qf_CFG 0 ≤ a ∧ a < FQ_Qf_CFG 8 ∧ (a - FQ_Qf_CFG 0) % 0x40 = 8 then d.fifoRead ((a - FQ_Qf_CFG 0) / 0x40)
  else (if (regRow? a).isSome then d.reg a else 0, d)

/-! ### Parity (R435) -/

/-- The tasks whose strobe group or harbour predictor uses a unit (R435): by the predictor's port, or by an entry that strobes the unit's group for the
task. -/
def Dev.tasksOfPort (d : Dev) (cls i : Nat) : List Nat :=
  let stg : Option Nat := match cls with
    | 0 => some (d.rd (HP_SDi_CFG_STG i))
    | 1 => some (d.rd (HP_LVj_CFG_STG i))
    | 2 => some (d.rd (HP_ENCe_CFG_STG i))
    | 3 => some (d.rd (HP_SSIs_CFG_STG i))
    | _ => none
  let strobes := fun (t : Nat) => match stg with
    | none => false
    | some g => d.ang.entries.any (fun e => match e.2 with
      | some x => x.act = 2 && x.w2.toNat % 64 = g && wbit x.w3 6 && x.w3.toNat % 64 = t
      | none => false)
  let preds := fun (t : Nat) => d.on (AHD_LTt_CFG_PSRC t) && (d.predsOf cls i).contains (d.rd (AHD_LTt_CFG_PPORT t))
  (List.range 48).filter (fun t => strobes t || preds t)

/-- Set or clear the repair mark of an output unit and act on it (R435). -/
def Dev.repairMark (cls i : Nat) (b : Bool) (d : Dev) : Dev :=
  match cls with
  | 4 => (d.setPair i { d.pair i with repair := b }).enterSafe i
  | 5 => d.setGio i { d.gio i with repair := b }
  | 6 => d.setHfifo i { d.hfifo i with repair := b }
  | _ => d

/-- Units of a harbour class (Table 06-7). -/
def hbCount (cls : Nat) : Nat := [48, 16, 8, 8, 48, 64, 8].getD cls 0

/-- A parity error in a unit's configuration (R435): an F1 fault of the unit. -/
def Dev.parityError (cls i : Nat) (d : Dev) : Dev :=
  if i < hbCount cls then
    let d := d.postFault 1 0x26 (cls * 256 + i) 1 d.ad7Frac
    let ts := if cls < 4 then d.tasksOfPort cls i else []
    let d := forList ts (fun t d => (d.suspendTask (hbUnit cls i) t).f1Count t) d
    let d := if cls < 4 then d.predsClear cls i else d
    (d.queueRepair { unit := hbUnit cls i, kind := 3, source := 0x26, what := 0, at_ := d.now }).repairMark cls i true
  else d

/-- HARBOUR_PARITY_ERROR (R435). -/
def execHarbourParityError (c : Fin 7) (i : Fin 64) (s : State) : Host.Outcome State Fault Refusal := onDev (Dev.parityError c.val i.val) s

end Sys2Proof.Machine
end

