-- ==== Sys2Proof/Machine/IsleReg.lean ====
section
/-! DEFINITION. Reads and writes of the IS registers (R129, Table 05-7). -/
namespace Sys2Proof.Machine

/-- Some group of the isle is active or saved: its configuration registers refuse direct writes (R129). -/
def Dev.isleBusy (d : Dev) (n : Nat) : Bool := (List.range 16).any (fun g => d.grpActive n g || ((d.isle n).grp g).saved)

/-- IS_SVDATA: what the selected slot keeps of the selected cell (R122). -/
def Dev.svData (d : Dev) (n : Nat) : BitVec 32 :=
  match tget none (d.isle n).save (d.rd (IS_SVSEL_SLOT n)) with
  | some sl =>
    match sl.cells.find? (fun q => q.cell = d.rd (IS_SVSEL_CELL n)) with
    | some q => w32 (q.index + q.flg.toNat % 512 * 16 + b2n q.yld * 2 ^ 13 + b2n (q.wait ≠ 0) * 2 ^ 14)
    | none => 0
  | none => 0

/-- IS_GSTAT of the selected group. -/
def Dev.gStat (d : Dev) (n : Nat) : BitVec 32 :=
  let g := d.rd (IS_GSEL_GROUP n)
  let x := (d.isle n).grp g
  w32 (x.tag.toNat + x.actcnt.toNat * 2 ^ 8 + b2n (d.grpActive n g) * 2 ^ 16 + b2n x.pend * 2 ^ 17 + b2n x.saved * 2 ^ 18 + b2n x.rcred * 2 ^ 19)

/-- A read of the IS register at offset `o` of isle `n`. -/
def Dev.isRead (d : Dev) (n o : Nat) : BitVec 32 :=
  let m := (d.isle n).ment (d.rd (IS_MSEL_ENTRY n))
  match o with
  | 0x04 => wput (d.reg (IS_STAT n)) 15 0 (((List.range 16).filter (d.grpActive n)).foldl (fun m g => m + 2 ^ g) 0)
  | 0x1C => d.svData n
  | 0x64 => d.gStat n
  | 0x6C => w32 (m.arg.toNat + m.action.toNat * 2 ^ 6 + m.need.toNat * 2 ^ 8 + m.cur.toNat * 2 ^ 16)
  | 0x70 => w32 (m.pres.toNat + m.nextp.toNat * 2 ^ 8)
  | _ => if (regRow? (IS_CFG n + o)).isSome then d.reg (IS_CFG n + o) else 0

/-- A configuration register of isle `n` takes a value (Table 05-7); a write of IS_GRPg sets the resume index of every member (R109). -/
def Dev.isPut (n o : Nat) (v : BitVec 32) (d : Dev) : Dev :=
  let e := d.rd (IS_MSEL_ENTRY n)
  let m := (d.isle n).ment e
  if 0x20 ≤ o ∧ o < 0x60 then
    let g := (o - 0x20) / 4
    let d := d.plainWrite (IS_CFG n + o) v
    forList (maskCells (wbits v 15 0)) (fun c d => d.modCell n c (fun x => { x with resume := tset 0 x.resume g (wbits v 19 16) })) d
  else match o with
    | 0x64 => d.modGrp n (d.rd (IS_GSEL_GROUP n)) (fun x => { x with actcnt := BitVec.ofNat 8 (wbits v 15 8) })
    | 0x6C => d.setMent n e { m with arg := BitVec.ofNat 6 v.toNat, action := BitVec.ofNat 2 (wbits v 7 6), need := BitVec.ofNat 8 (wbits v 15 8),
                                     cur := BitVec.ofNat 8 (wbits v 23 16) }
    | 0x70 => d.setMent n e { m with pres := BitVec.ofNat 8 v.toNat, nextp := BitVec.ofNat 8 (wbits v 15 8) }
    | _ => d.plainWrite (IS_CFG n + o) v

/-- The offsets that R129 guards. -/
def isGuarded (o : Nat) : Bool :=
  o = 0 || (decide (0x20 ≤ o) && decide (o < 0x60)) || o = 0x64 || (decide (0x6C ≤ o) && decide (o < 0xB0))

/-- A direct write of an IS register (R129). -/
def Dev.isWrite (n o : Nat) (v : BitVec 32) (d : Dev) : Dev :=
  if isGuarded o then if d.isleBusy n then d.setFlag (IS_STAT_CFGERR n) else d.isPut n o v
  else match o with
    | 0x08 =>
      let d := d.plainWrite (IS_FIRE n) v
      if wbit v 31 then d.fireReq n (wbits v 3 0) (d.now + 1) none else d
    | 0xB4 =>
      let d := d.plainWrite (IS_STRIG n) v
      if wbit v 31 then d.streamTrig n (wbits v 5 0) else d
    | 0xCC => if wbit v 0 then ((d.setReg (IS_CNT0 n) 0).setReg (IS_CNT1 n) 0).setReg (IS_CNT2 n) 0 else d
    | _ => d.plainWrite (IS_CFG n + o) v

end Sys2Proof.Machine
end

