-- ==== Sys2Proof/Machine/Snap.lean ====
section
/-! DEFINITION. Coherent snapshots (R155 to R158, Tables 06-7, 06-8, 07-5) and the readback of configuration and state (R230, R231). -/
namespace Sys2Proof.Machine

/-! ### Payloads -/

/-- A pair of 16-bit registers in one word. -/
def CRegs.pairWord (r : CRegs) (c : Nat) : BitVec 32 := w32 ((r.get c).toNat % 65536 + (r.get (c + 1)).toNat % 65536 * 65536)

/-- The 20 words of a copy of a cell's registers (Table 06-8). -/
def CRegs.words (r : CRegs) : List (BitVec 32) :=
  (List.range 8).map r.get ++
  [w32 r.acc0.toNat, w32 r.acc1.toNat, w32 (r.acc0.toNat / 2 ^ 32 + r.acc1.toNat / 2 ^ 32 * 65536),
   r.pairWord 0x0C, r.pairWord 0x0E, r.pairWord 0x10, r.pairWord 0x12, r.pairWord 0x14, r.pairWord 0x16, r.pairWord 0x18,
   w32 ((r.get 0x1A).toNat % 65536 + r.flg.toNat * 65536), 0]

/-- `n` words, those beyond the list 0. -/
def padWords (n : Nat) (ws : List (BitVec 32)) : List (BitVec 32) := (ws ++ List.replicate n 0).take n

/-- The 16 words of a harbour port (Table 07-5). -/
def Dev.portWords (d : Dev) (cls i : Nat) : List (BitVec 32) :=
  padWords 16 (match cls with
    | 0 => [d.reg (HP_SDi_WORD i), d.reg (HP_SDi_FWORD i), w32 (ofSigned 32 (d.sdIn i).cmp.toInt), d.reg (HP_SDi_STAT i), d.reg (HP_SDi_CNT i)]
    | 1 => [HP_LVj_WORD i, HP_LVj_LWORD i, HP_LVj_STAT i].map d.reg
    | 2 => [HP_ENCe_CNT i, HP_ENCe_SCNT i, HP_ENCe_ZCNT i, HP_ENCe_STAT i].map d.reg
    | 3 => [HP_SSIs_DATA_LO i, HP_SSIs_DATA_HI i, HP_SSIs_STAT i].map d.reg
    | 4 => [PW_PAIRp_CMD i, PW_PAIRp_STAT i, PW_PAIRp_CNT i].map d.reg
    | 5 => [HP_GIOg_VAL i, HP_GIOg_CFG i].map d.reg
    | _ => [FQ_Qf_STAT i, FQ_Qf_LOST i].map d.reg)

/-- The 8 words of an angle domain (Table 06-7). -/
def Dev.domainWords (d : Dev) (n : Nat) : List (BitVec 32) :=
  let t := d.ad n
  let s := d.stamp n
  [w32 s.toNat, w32 (s.toNat / 2 ^ 32), w32 t.omega.toNat, w32 (ofSigned 32 (t.omega.toInt / (2 ^ 32 : Nat))), w32 t.meas.toNat,
   w32 (t.meas.toNat / 2 ^ 32), d.reg (AU_ADn_STAT n), d.reg (AU_ADn_CNT n)]

/-- The 8 words of a loop task (Table 06-7). -/
def Dev.taskWords (d : Dev) (t : Nat) : List (BitVec 32) :=
  [AHD_LTt_STEP t, AHD_LTt_STAT t, AHD_LTt_DIFF t, AHD_LTt_CNT0 t, AHD_LTt_CNT1 t, AHD_LTt_CNT2 t, AHD_LTt_LAT t].map d.reg ++ [0]

/-- What one item of a list gives: its status (0, 2 TARGET_OFF, 3 BADITEM), its words, the isle it names and its lagoon range. -/
structure ItemRes where
  status : Nat
  words : List (BitVec 32)
  isle : Option Nat
  range : Option LagRange
  deriving DecidableEq, Repr

/-- An item refused with BADITEM. -/
def ItemRes.bad : ItemRes := { status := 3, words := [], isle := none, range := none }

/-- An item of plain words. -/
def ItemRes.ok (ws : List (BitVec 32)) : ItemRes := { status := 0, words := ws, isle := none, range := none }

/-- The words of isle `n`, zeros where it is powered down or clock-gated (R158). -/
def Dev.isleItem (d : Dev) (n : Nat) (ws : List (BitVec 32)) : ItemRes :=
  if d.isleLive n then { status := 0, words := ws, isle := some n, range := none }
  else { status := 2, words := List.replicate ws.length 0, isle := some n, range := none }

/-- A snapshot item (Table 06-7), its payload starting at word `pos`. -/
def Dev.snapItem (d : Dev) (pos : Nat) (w : List (BitVec 32)) : ItemRes :=
  let w0 := w.getD 0 0
  let w1 := w.getD 1 0
  let w2 := w.getD 2 0
  let n := wbits w0 10 4
  if w.getD 3 0 ≠ 0 then .bad
  else match wbits w0 3 0 with
    | 1 =>
      if 96 ≤ n ∨ wbits w0 15 11 ≠ 0 ∨ w1 ≠ 0 ∨ w2 ≠ 0 then .bad
      else d.isleItem n ((maskCells (wbits w0 31 16)).flatMap (fun c => ((d.isle n).cell c).arch.words))
    | 2 =>
      let k := w2.toNat
      if 96 ≤ n ∨ wbits w0 31 11 ≠ 0 ∨ wbits w1 31 15 ≠ 0 ∨ k = 0 ∨ 32768 < k then .bad
      else
        let r := d.isleItem n (List.replicate k 0)
        if r.status = 0 then { r with range := some { isle := n, base := w1.toNat, count := k, pos := pos } } else r
    | 3 =>
      if hbCount (wbits w0 15 12) ≤ n ∨ wbit w0 11 ∨ wbits w0 31 16 ≠ 0 ∨ w1 ≠ 0 ∨ w2 ≠ 0 then .bad
      else .ok (d.portWords (wbits w0 15 12) n)
    | 4 => if wbits w0 31 7 ≠ 0 ∨ w1 ≠ 0 ∨ w2 ≠ 0 then .bad else .ok (d.domainWords (wbits w0 6 4))
    | 5 => if 48 ≤ wbits w0 9 4 ∨ wbits w0 31 10 ≠ 0 ∨ w1 ≠ 0 ∨ w2 ≠ 0 then .bad else .ok (d.taskWords (wbits w0 9 4))
    | _ => .bad

/-- The physical copy that is active (false) or staging (true). -/
def Isle.physCopy (i : Isle) (staging : Bool) : Nat := if i.copy != staging then 1 else 0

/-- The 64 words of a cell's contexts of one copy, low word first (Table 08-8). -/
def Isle.ctxWords (i : Isle) (staging : Bool) (c : Nat) : List (BitVec 32) :=
  (List.range 16).flatMap (fun x =>
    let w := (i.ctxWord staging c x).toNat
    [w32 w, w32 (w / 2 ^ 32), w32 (w / 2 ^ 64), w32 (w / 2 ^ 96)])

/-- The 64 words of a plane of one copy. -/
def Isle.planeWords (i : Isle) (staging : Bool) (p : Nat) : List (BitVec 32) :=
  let b := fun (k : Nat) => (tget 0#8 i.planes (i.physCopy staging * 4096 + p * 256 + k)).toNat
  (List.range 64).map (fun k => w32 (b (4 * k) + b (4 * k + 1) * 2 ^ 8 + b (4 * k + 2) * 2 ^ 16 + b (4 * k + 3) * 2 ^ 24))

/-- A readback item (Table 08-8). -/
def Dev.rbItem (d : Dev) (w : List (BitVec 32)) : ItemRes :=
  let w0 := w.getD 0 0
  let n := wbits w0 10 4
  let m := maskCells (wbits w0 31 16)
  let i := d.isle n
  if 96 ≤ n ∧ wbits w0 3 0 ≠ 4 ∨ w.getD 1 0 ≠ 0 ∨ w.getD 2 0 ≠ 0 ∨ w.getD 3 0 ≠ 0 then .bad
  else match wbits w0 3 0 with
    | 1 => d.isleItem n (m.flatMap (fun c => (i.cell c).arch.words ++ (i.cell c).shad.words))
    | 2 => d.isleItem n (m.flatMap (i.ctxWords (wbit w0 11)))
    | 3 => d.isleItem n (m.flatMap (i.planeWords (wbit w0 11)))
    | 4 => if hbCount (wbits w0 15 12) ≤ n then .bad else .ok (d.portWords (wbits w0 15 12) n)
    | 5 => d.isleItem n ((List.range 64).map (fun k => d.isRead n (4 * k)))
    | _ => .bad

/-- The items of a list in the Sound, 16 bytes each, where they can be read. -/
def Dev.itemList (a n : Nat) (d : Dev) : Option (List (List (BitVec 32))) × Dev :=
  let r := d.memReadAll a (16 * n)
  if r.1.1 = 0 then (some ((List.range n).map (fun i => bytesWords (r.1.2.drop (16 * i)) 4)), r.2) else (none, r.2)

/-- What the items of a list give together: the status of the first that has one, the payload, the isles and the lagoon ranges. -/
def gatherItems (f : Nat → List (BitVec 32) → ItemRes) (ls : List (List (BitVec 32))) : Nat × List (BitVec 32) × List Nat × List LagRange :=
  ls.foldl (fun (a : Nat × List (BitVec 32) × List Nat × List LagRange) w =>
    let r := f a.2.1.length w
    (if a.1 = 0 then r.status else a.1, a.2.1 ++ r.words, a.2.2.1 ++ r.isle.toList, a.2.2.2 ++ r.range.toList)) (0, [], [], [])

/-! ### Records -/

/-- Write a record (R157): word 0 after all others, nothing beyond SIZE. -/
def Dev.writeRecord (dst size seq status : Nat) (stamp : BitVec 64) (tag : Nat) (payload : List (BitVec 32)) (d : Dev) : Dev :=
  let ws := [w32 seq, w32 status, w32 stamp.toNat, w32 (stamp.toNat / 2 ^ 32), w32 tag, w32 (4 * payload.length),
             crc32 (wordsBytes payload), 0] ++ payload
  (d.memWriteAll dst ((wordsBytes ws).take size)).2

/-- The block with snapshot slot `s` replaced. -/
def Dev.setSnap (s : Nat) (x : Snap) (d : Dev) : Dev := { d with ahd := { d.ahd with snaps := tset Snap.reset d.ahd.snaps s x } }

/-- Snapshot slot `s`. -/
def Dev.snap (d : Dev) (s : Nat) : Snap := tget Snap.reset d.ahd.snaps s

/-- A word of a lagoon range as the drain of slot `s` takes it (R158): from the undo buffer, else from the lagoon; where the lagoon word is
uncorrectable the manual states no value. -/
def Dev.rangeWord (s n a : Nat) (d : Dev) : BitVec 32 × Dev :=
  match (d.isle n).undo.find? (fun q => q.1 = s && q.2.1 = a) with
  | some q => (q.2.2, d)
  | none =>
    let r := d.readWord (lagoonAddr n a)
    if r.1 then (w32 r.2.fresh.1, r.2.fresh.2) else (r.2.load32 (lagoonAddr n a), r.2)

/-- The words of a lagoon range, zeros where the isle has gone off since (R158). -/
def Dev.rangeWords (s : Nat) (r : LagRange) (d : Dev) : List (BitVec 32) × Dev :=
  if ¬ d.isleLive r.isle then (List.replicate r.count 0, d)
  else (List.range r.count).foldl (fun (x : List (BitVec 32) × Dev) k =>
    let w := x.2.rangeWord s r.isle ((r.base + k) % 32768)
    (x.1 ++ [w.1], w.2)) ([], d)

/-- A payload with the words of its lagoon ranges put in. -/
def Dev.fillRanges (s : Nat) (rs : List LagRange) (payload : List (BitVec 32)) (d : Dev) : List (BitVec 32) × Dev :=
  rs.foldl (fun (x : List (BitVec 32) × Dev) r =>
    let w := x.2.rangeWords s r
    (x.1.take r.pos ++ w.1 ++ x.1.drop (r.pos + r.count), w.2)) (payload, d)

/-! ### Snapshot slots -/

/-- The landfall period of slot `s` (R155): KS above the domain's LFK acts as LFK. -/
def Dev.snapPer (d : Dev) (s : Nat) : Nat :=
  2 ^ (48 - min (min 12 (d.rd (AU_ADn_CFG_LFK (d.rd (AHD_SNs_CTL_DOM s))))) (d.rd (AHD_SNs_CTL_KS s)))

/-- A slot is IDLE again: its ARM bit clears (DESIGN CHOICE, log entry 215). -/
def Dev.snapIdle (s : Nat) (d : Dev) : Dev := (d.wr (AHD_SNs_STAT_STATE s) 0).wr (AHD_SNs_CTL_ARM s) 0

/-- Arm slot `s` with a value of AHD_SNs_CTL (R155): ignored while it is not IDLE (R159). -/
def Dev.snapArm (s : Nat) (v : BitVec 32) (d : Dev) : Dev :=
  if d.rd (AHD_SNs_STAT_STATE s) ≠ 0 then d
  else
    let d := ((d.wr (AHD_SNs_CTL_DOM s) (wbits v 2 0)).wr (AHD_SNs_CTL_STAND s) (wbits v 3 3)).wr (AHD_SNs_CTL_KS s) (wbits v 11 8)
    let d := if wbit v 18 then d.clearFlagBit (AHD_SNs_CTL_CFGERR s) 0 else d
    let n := d.rd (AHD_SNs_NITEM_N s)
    let list := (d.reg (AHD_SNs_LIST s)).toNat
    let dst := (d.reg (AHD_SNs_DST s)).toNat
    let size := (d.reg (AHD_SNs_SIZE s)).toNat
    if n = 0 ∨ 256 < n ∨ 0x800000 ≤ list ∨ 0x800000 ≤ dst ∨ 0x800000 ≤ dst + 2 * size then d.setFlag (AHD_SNs_CTL_CFGERR s)
    else
      let dom := d.rd (AHD_SNs_CTL_DOM s)
      let per := d.snapPer s
      let rev := d.adRev dom
      let l := stampTheta (d.rd64 (AHD_SNs_LF_LO s) (AHD_SNs_LF_HI s))
      let l := if isLandfall per l then l else lfNext rev per l
      let l := if atOrPast rev (d.ad dom).theta l ∨ d.on (AHD_SNs_CTL_STAND s) then lfNext rev per (d.ad dom).theta else l
      let d := d.wr64 (AHD_SNs_LF_LO s) (AHD_SNs_LF_HI s) (lfStamp l)
      ((d.wr (AHD_SNs_CTL_ARM s) 1).wr (AHD_SNs_STAT_STATE s) 1).setSnap s { d.snap s with stop := false }

/-- STOP of slot `s` (R155): an armed slot is IDLE at once, a draining one after its record. -/
def Dev.snapStop (s : Nat) (d : Dev) : Dev :=
  match d.rd (AHD_SNs_STAT_STATE s) with
  | 1 => d.snapIdle s
  | 2 => d.setSnap s { d.snap s with stop := true }
  | _ => d

/-- SNAPDONE (R384, R395): slot, SEQ, STATUS, stamp and buffer address, for every record where EVT is set and for every status but OK. -/
def Dev.snapDone (s n status : Nat) (stamp : BitVec 64) (d : Dev) : Dev :=
  if (d.snap s).evt || status ≠ 0 then
    d.post 0x30 [w32 s, w32 (n + 1), w32 status, w32 stamp.toNat, w32 (stamp.toNat / 2 ^ 32),
      w32 ((d.reg (AHD_SNs_DST s)).toNat + n % 2 * (d.reg (AHD_SNs_SIZE s)).toNat)]
  else d

/-- The record of slot `s` latched now: status, payload, isles and ranges. -/
def Dev.snapLatch (s : Nat) (d : Dev) : (Nat × List (BitVec 32) × List Nat × List LagRange) × Dev :=
  let r := d.itemList (d.reg (AHD_SNs_LIST s)).toNat (d.rd (AHD_SNs_NITEM_N s))
  match r.1 with
  | some ls => (gatherItems r.2.snapItem ls, r.2)
  | none => ((3, [], [], []), r.2)

/-- The target that slot `s` shows after a landfall: the next one of a standing slot. -/
def Dev.snapNext (s : Nat) (l : BitVec 80) (d : Dev) : Dev :=
  if d.on (AHD_SNs_CTL_STAND s) then
    d.wr64 (AHD_SNs_LF_LO s) (AHD_SNs_LF_HI s) (lfStamp (lfNext (d.adRev (d.rd (AHD_SNs_CTL_DOM s))) (d.snapPer s) l))
  else d

/-- A record begins (R157): word 0 is written with 0 before its other words. -/
def Dev.clearSeq (dst size : Nat) (d : Dev) : Dev := (d.memWriteAll dst ((wordBytes 0).take size)).2

/-- The buffer of record `n` of slot `s` (R157). -/
def Dev.snapBuf (d : Dev) (s n : Nat) : Nat := (d.reg (AHD_SNs_DST s)).toNat + n % 2 * (d.reg (AHD_SNs_SIZE s)).toNat

/-- A landfall `l` of slot `s` (R158): it latches its list and its drain starts, or it is BUSY. -/
def Dev.snapTake (s : Nat) (l : BitVec 80) (d : Dev) : Dev :=
  let st := lfStamp l
  let n := (d.reg (AHD_SNs_SEQ s)).toNat
  let r := d.snapLatch s
  let d := r.2
  let d := (d.setReg (AHD_SNs_SEQ s) (w32 (n + 1))).snapNext s l
  let lower := d.ahd.snaps.any (fun e => decide (e.1 < s) && (match e.2.record with
    | some q => q.isles.any (fun i => r.1.2.2.1.contains i)
    | none => false))
  if d.rd (AHD_SNs_STAT_STATE s) = 2 ∨ lower then
    let d := ((d.inc (AHD_SNs_STAT_SKIP s)).wr (AHD_SNs_STAT_LAST s) 4).snapDone s n 4 st
    if d.rd (AHD_SNs_STAT_STATE s) = 1 ∧ ¬ d.on (AHD_SNs_CTL_STAND s) then d.snapIdle s else d
  else
    let q : SnapRec := { stamp := st, status := r.1.1, payload := r.1.2.1, isles := r.1.2.2.1, start := d.now, seq := n, ranges := r.1.2.2.2,
                         overrun := false }
    ((d.wr (AHD_SNs_STAT_STATE s) 2).setSnap s { d.snap s with record := some q }).clearSeq (d.snapBuf s n) (d.reg (AHD_SNs_SIZE s)).toNat

/-- The landfall of slot `s` that domain `n` passes in this ACLK, the last of several (R466), where the slot awaits it. -/
def Dev.snapDue (d : Dev) (s n : Nat) : Option (BitVec 80) :=
  let st := d.rd (AHD_SNs_STAT_STATE s)
  if st = 0 ∨ d.rd (AHD_SNs_CTL_DOM s) ≠ n then none
  else
    match d.passedPer n (d.snapPer s) with
    | none => none
    | some l =>
      if d.on (AHD_SNs_CTL_STAND s) then some l
      else
        let t := stampTheta (d.rd64 (AHD_SNs_LF_LO s) (AHD_SNs_LF_HI s))
        if st = 1 ∧ atOrPast (d.adRev n) (d.ad n).theta t then some l else none

/-- Every slot on domain `n` that the landfalls of this ACLK concern, lowest first. -/
def Dev.snapLandfalls (n : Nat) (d : Dev) : Dev :=
  forUpTo 8 (fun s d => match d.snapDue s n with
    | some l => d.snapTake s l
    | none => d) d

/-- The old values that isles keep for slot `s` are dropped (R158). -/
def Dev.dropUndo (s : Nat) (isles : List Nat) (d : Dev) : Dev :=
  forList isles (fun i d => d.setIsle i { d.isle i with undo := (d.isle i).undo.filter (fun q => q.1 ≠ s) }) d

/-- The values at the end of the landfall ACLK (R156): what a record latched in this ACLK holds once the ACLK is over. -/
def Dev.snapSettle (d : Dev) : Dev :=
  forUpTo 8 (fun s d => match (d.snap s).record with
    | some q =>
      if q.start = d.now then
        let r := d.snapLatch s
        let d := r.2
        let d := d.dropUndo s r.1.2.2.1
        d.setSnap s { d.snap s with record := some { q with status := r.1.1, payload := r.1.2.1, ranges := r.1.2.2.2, overrun := false } }
      else d
    | none => d) d

/-- The drain of slot `s` ends (R157): the record is written, and the slot is armed again or IDLE. -/
def Dev.snapDrained (s : Nat) (d : Dev) : Dev :=
  let x := d.snap s
  match x.record with
  | none => d
  | some q =>
    let off := q.ranges.any (fun r => !d.isleLive r.isle)
    let p := d.fillRanges s q.ranges q.payload
    let size := (d.reg (AHD_SNs_SIZE s)).toNat
    let st := if q.status ≠ 0 then q.status else if off then 2 else if q.overrun then 1 else 0
    let st := if size < 32 + 4 * p.1.length then 5 else st
    let d := p.2.writeRecord (d.snapBuf s q.seq) size (q.seq + 1) st q.stamp
      (d.rd (AHD_SNs_CTL_DOM s) + s * 16) p.1
    let d := (d.setSnap s { x with record := none, stop := false }).dropUndo s q.isles
    let d := d.wr (AHD_SNs_STAT_LAST s) st
    let d := if d.on (AHD_SNs_CTL_STAND s) && !x.stop then d.wr (AHD_SNs_STAT_STATE s) 1 else d.snapIdle s
    d.snapDone s q.seq st q.stamp

/-- A write to a register of snapshot slot `s` (R159): only STOP acts while STATE is not IDLE. -/
def Dev.snapWrite (s a : Nat) (v : BitVec 32) (d : Dev) : Dev :=
  if a = AHD_SNs_CTL s then
    if d.rd (AHD_SNs_STAT_STATE s) ≠ 0 then if wbit v 17 then d.snapStop s else d
    else if wbit v 16 then d.snapArm s v
    else d.plainWrite a v
  else if d.rd (AHD_SNs_STAT_STATE s) ≠ 0 then d else d.plainWrite a v

/-! ### Readback -/

/-- The items of the readback list latched now. -/
def Dev.rbLatch (d : Dev) : (Nat × List (BitVec 32)) × Dev :=
  let n := d.rd CF_RB_N_N
  let r := if n = 0 ∨ 256 < n then (none, d) else d.itemList (d.reg CF_RB_LIST).toNat n
  match r.1 with
  | some ls => let g := gatherItems (fun _ w => r.2.rbItem w) ls; ((g.1, g.2.1), r.2)
  | none => ((3, []), r.2)

/-- A write of CF_RB_CTL with GO (R230, R231): refused with BUSY while a readback runs. -/
def Dev.rbGo (v : BitVec 32) (d : Dev) : Dev :=
  if d.rd CF_RB_STAT_STATE ≠ 0 then d.setFlag CF_STAT_BUSY
  else
    let d := d.plainWrite CF_RB_CTL v
    let d : Dev := { d with cfg := { d.cfg with rb := { rec_ := none, stamp := 0, at_ := d.now } } }
    if d.on CF_RB_CTL_FREEZE then d.wr CF_RB_STAT_STATE 1 else (d.wr CF_RB_STAT_STATE 2).clearSeq (d.reg CF_RB_DST).toNat (d.reg CF_RB_SIZE).toNat

/-- The landfall `l` of domain `n` latches an armed readback (R231). -/
def Dev.rbLandfall (n : Nat) (l : BitVec 80) (d : Dev) : Dev :=
  if d.rd CF_RB_STAT_STATE = 1 ∧ d.rd CF_RB_CTL_DOM = n then
    let r := d.rbLatch
    let d := r.2
    let d : Dev := { d with cfg := { d.cfg with rb := { rec_ := some r.1, stamp := lfStamp l, at_ := d.now } } }
    ((d.wr CF_RB_STAT_STATE 2).wr64 CF_RB_LF_LO CF_RB_LF_HI (lfStamp l)).clearSeq (d.reg CF_RB_DST).toNat (d.reg CF_RB_SIZE).toNat
  else d

/-- The values at the end of the landfall ACLK, for a readback latched in it. -/
def Dev.rbSettle (d : Dev) : Dev :=
  let x := d.cfg.rb
  if x.rec_.isSome ∧ x.at_ = d.now then
    let r := d.rbLatch
    { r.2 with cfg := { r.2.cfg with rb := { x with rec_ := some r.1 } } }
  else d

/-- The readback record is written (R231): SEQ 1, the stamp of the landfall, 0 for an incoherent one. -/
def Dev.rbDone (d : Dev) : Dev :=
  if d.rd CF_RB_STAT_STATE ≠ 2 then d
  else
    let x := d.cfg.rb
    let r := match x.rec_ with
      | some q => (q, d)
      | none => d.rbLatch
    let size := (d.reg CF_RB_SIZE).toNat
    let st := if size < 32 + 4 * r.1.2.length then 5 else r.1.1
    let d := r.2.writeRecord (d.reg CF_RB_DST).toNat size 1 st x.stamp (d.rd CF_RB_CTL_DOM) r.1.2
    let d : Dev := { d with cfg := { d.cfg with rb := { rec_ := none, stamp := 0, at_ := 0 } } }
    (d.wr CF_RB_STAT_LAST st).wr CF_RB_STAT_STATE 0

/-- What latched in the ACLK that ends. -/
def Dev.snapsSettle (d : Dev) : Dev := d.snapSettle.rbSettle

/-- SNAPSHOT_ARM (R155): a write of AHD_SNs_CTL with ARM. -/
def execSnapshotArm (n : Fin 8) (v : BitVec 32) (s : State) : Host.Outcome State Fault Refusal := onDev (Dev.snapArm n.val v) s
/-- SNAPSHOT_STOP (R155). -/
def execSnapshotStop (n : Fin 8) (s : State) : Host.Outcome State Fault Refusal := onDev (Dev.snapStop n.val) s
/-- SNAPSHOT_DRAIN_DONE (R157). -/
def execSnapshotDrainDone (n : Fin 8) (s : State) : Host.Outcome State Fault Refusal := onDev (Dev.snapDrained n.val) s
/-- RB_GO (R230). -/
def execRbGo (v : BitVec 32) (s : State) : Host.Outcome State Fault Refusal := onDev (Dev.rbGo v) s

end Sys2Proof.Machine
end

