-- ==== Sys2Proof/Machine/Modes.lean ====
section
/-! DEFINITION. Change sets (R53 to R57), what a landfall does (R52, R466), the reference copy (R215), and how a partial image ends (R221 to R223). -/
namespace Sys2Proof.Machine

/-! ### The end of an S command (R371) -/

/-- CMDDONE for the operation of opcode `op` under way, if one is: status, failing part and result words. -/
def Dev.cmdDone (op status part : Nat) (res : List (BitVec 32)) (d : Dev) : Dev :=
  match takeFirst (fun (x : FwOp) => x.op = op) d.cfg.ops with
  | none => d
  | some (x, rest) =>
    ({ d with cfg := { d.cfg with ops := rest } }).genEvent 2 ([x.tag, w32 op, w32 (status + part * 256), w32 (4 * res.length)] ++ res)

/-! ### The reference copy (R215) -/

/-- The entries of an isle's active contexts and planes as bytes of the reference copy. -/
def Isle.refBytes (n : Nat) (i : Isle) : List (Nat × BitVec 8) :=
  let p := i.physCopy false
  (i.ctx.filter (fun e => e.1 / 256 = p)).flatMap (fun e =>
    (List.range 16).map (fun k => (0x40000 + n * 0x1000 + e.1 % 256 * 16 + k, BitVec.ofNat 8 (e.2.toNat / 2 ^ (8 * k))))) ++
  (i.planes.filter (fun e => e.1 / 4096 = p)).map (fun e => (0xA0000 + n * 0x1000 + e.1 % 4096, e.2))

/-- Rewrite the reference copy from the active contexts and planes (R215): whole words with valid check bits. -/
def Dev.writeReference (d : Dev) : Dev :=
  let out := fun (a : Nat) => a < 0x40000 || decide (0x100000 ≤ a)
  let d : Dev := { d with mem := d.mem.filter (fun e => out e.1),
                          integ := { d.integ with ecc := d.integ.ecc.filter (fun e => out e.1),
                                                  merge := d.integ.merge.filterMap (fun e =>
                                                    let l := e.2.filter (fun m => out m.addr)
                                                    if l = [] then none else some (e.1, l)) } }
  let d : Dev := forList (d.isles.flatMap (fun e => e.2.refBytes e.1)) (fun b d => d.setByte b.1 b.2) d
  d.eccWrite 0x40000

/-! ### Discarding and applying staged changes -/

/-- A reconfigured output holds its safe state (R228), or leaves it: a pair at its next edge, a cell or a FIFO's pin at once. -/
def Dev.holdOutput (cls i : Nat) (b : Bool) (d : Dev) : Dev :=
  match cls with
  | 4 => let d := d.setPair i { d.pair i with held := b }
         if b then d.enterSafe i else d
  | 5 => d.setGio i { d.gio i with held := b }
  | 6 => d.setHfifo i { d.hfifo i with held := b }
  | _ => d

/-- The harbour unit that a staged unit's number names: class and index. -/
def stagedPort (u : Nat) : Option (Nat × Nat) :=
  if 0x10000 ≤ u ∧ u < 0x20000 then some ((u - 0x10000) / 256, u % 256) else none

/-- A unit discards its staged change (R55): an isle's staging copy returns to the active one; a loaded isle stays gated (R222). -/
def Dev.discardUnit (u : Staged) (d : Dev) : Dev :=
  if u.unit < 96 then
    let i := d.isle u.unit
    let d := d.clearCfgErr u.unit (!i.copy)
    (d.setIsle u.unit { i.copyBack with copyEnd := i.copyEnd, routed := [] }).wr (IS_STAT_STAGED u.unit) 0
  else match stagedPort u.unit with
    | some (cls, i) => d.holdOutput cls i false
    | none => d

/-- A unit applies its staged change at the landfall (R52, R125, R220): all registers of a port's unit at once, and its output is released (R228). -/
def Dev.applyUnit (u : Staged) (d : Dev) : Dev :=
  if u.unit < 96 then
    let d := d.swapIsle u.unit
    if u.loaded then ((d.setIsle u.unit { d.isle u.unit with gateLoad := false }).wr (IS_STAT_APL u.unit) 0).showGate u.unit else d
  else match stagedPort u.unit with
    | some (cls, i) =>
      let was := d.hbOn cls i
      ((forList u.csr (fun (e : Nat × BitVec 32) d => d.setConfig e.1 e.2) d).holdOutput cls i false).unitChanged cls i was
    | none => forList u.seeds (fun (w : List (BitVec 32)) d => (d.insert (w.getD 0 0) (w.getD 1 0) (w.getD 2 0) (w.getD 3 0) (wbits (w.getD 1 0) 29 24)).2.2) d

/-- The staged units of slot `s`. -/
def Dev.stagedOn (d : Dev) (s : Nat) : List Staged := d.cfg.staged.filter (fun u => u.slot = s)

/-- The units of slot `s` hold no staged change any more. -/
def Dev.dropStaged (s : Nat) (d : Dev) : Dev :=
  { d with cfg := { d.cfg with staged := d.cfg.staged.filter (fun u => u.slot ≠ s), acks := d.cfg.acks.filter (fun a => a.1 ≠ s) } }

/-- The ICP works on slot `s`. -/
def Dev.icpOn (d : Dev) (s : Nat) : Bool := decide (5 ≤ d.cfg.icp.phase) && d.rd CF_ICP_CTL_SLOT = s

/-- The result words of IMG_PARTIAL (Table 15-4). -/
def Dev.icpResult (d : Dev) (s : Nat) : List (BitVec 32) := [d.reg CF_ICP_STAT, d.reg (AU_MCs_LF_LO s), d.reg (AU_MCs_LF_HI s)]

/-- The ICP ends as FAILED with a code of Table 08-9; its claims lapse. -/
def Dev.icpFail (code part : Nat) (d : Dev) : Dev :=
  let d := ((d.wr CF_ICP_STAT_STATE 6).wr CF_ICP_STAT_CODE code).claimsLapse
  let d : Dev := { d with cfg := { d.cfg with icp := Icp.reset } }
  d.cmdDone 0x201 code part [d.reg CF_ICP_STAT, 0, 0]


/-- A change set is abandoned (R55, R56, R223): staged copies are discarded, the state and cause show, the event is posted; `code` is what the ICP
reports where it drives the slot. -/
def Dev.mcAbandon (s cause code : Nat) (d : Dev) : Dev :=
  let d := forList (d.stagedOn s) Dev.discardUnit d
  let d := (((d.dropStaged s).wr (AU_MCs_STAT_STATE s) 4).wr (AU_MCs_STAT_CAUSE s) cause).wr (AU_MCs_CTL_ARM s) 0
  let d := d.post 0x12 [w32 s, d.reg (AU_MCs_STAT s), d.reg (AU_MCs_LF_LO s), d.reg (AU_MCs_LF_HI s)]
  if d.icpOn s then d.icpFail code 0xFF else d

/-- A committed change set applies in every unit that staged it (R52, R55), and the tasks of its isles meet the landfall (R152). -/
def Dev.mcApply (s : Nat) (d : Dev) : Dev :=
  let us := d.stagedOn s
  let isles := us.filterMap (fun u => if u.unit < 96 then some u.unit else none)
  let tasks := (isles.flatMap d.tasksOf).eraseDups
  let d := forList us Dev.applyUnit d
  let d := forList tasks Dev.landfallTask d
  let d := ((d.dropStaged s).wr (AU_MCs_STAT_STATE s) 3).wr (AU_MCs_CTL_ARM s) 0
  if d.icpOn s then
    let d := ((d.wr CF_ICP_STAT_STATE 5).wr CF_ICP_STAT_CODE 0).claimsApply.writeReference
    let d : Dev := { d with cfg := { d.cfg with icp := Icp.reset } }
    d.cmdDone 0x201 0 0xFF (d.icpResult s)
  else d

/-! ### The check (R55) -/

/-- Acknowledgments of slot `s` that have arrived by this ACLK and are still to be counted (R57). -/
def Dev.acksDue (d : Dev) (s : Nat) : Nat := (d.cfg.acks.filter (fun a => a.1 = s && decide (a.2 ≤ d.now))).length

/-- A frame repair of an isle of slot `s` is in progress (R438). -/
def Dev.setRepairing (d : Dev) (s : Nat) : Bool :=
  (d.stagedOn s).any (fun u => d.ev.repairs.any (fun r => r.unit = u.unit && r.kind = 2))

/-- The check of slot `s` passes in this ACLK. -/
def Dev.mcPasses (d : Dev) (s : Nat) : Bool :=
  decide (d.rd (AU_MCs_ACK_NEED s) ≤ d.rd (AU_MCs_ACK_GOT s) + d.acksDue s) && !d.setRepairing s

/-- The domain of slot `s` has reached its target. -/
def Dev.mcReached (d : Dev) (s : Nat) : Bool :=
  let n := d.rd (AU_MCs_CTL_DOM s)
  atOrPast (d.adRev n) (d.ad n).theta (d.mcTarget s)

/-- The check of an armed slot (R55): commit, postpone by a period, or abandon. -/
def Dev.mcCheck (s : Nat) (d : Dev) : Dev :=
  if d.mcPasses s then d.wr (AU_MCs_STAT_STATE s) 2
  else if 8 ≤ d.rd (AU_MCs_STAT_PPN s) then d.mcAbandon s 1 0x0E
  else
    let n := d.rd (AU_MCs_CTL_DOM s)
    let l := lfNext (d.adRev n) (d.lfPeriod n) (d.mcTarget s)
    let l := if d.checkReached n l then d.mcAlign n l else l
    (d.wr64 (AU_MCs_LF_LO s) (AU_MCs_LF_HI s) (lfStamp l)).wr (AU_MCs_STAT_PPN s) (d.rd (AU_MCs_STAT_PPN s) + 1)

/-- A committed slot whose landfall has been passed in this ACLK applies at once (R466). -/
def Dev.mcSettle (s : Nat) (d : Dev) : Dev :=
  if d.rd (AU_MCs_STAT_STATE s) = 2 ∧ (d.ad (d.rd (AU_MCs_CTL_DOM s))).lfDone ∧ d.mcReached s then d.mcApply s else d

/-- The check ACLK of slot `s` (R55). -/
def Dev.modeChangeCheck (s : Nat) (d : Dev) : Dev :=
  if d.rd (AU_MCs_STAT_STATE s) = 1 ∧ d.checkReached (d.rd (AU_MCs_CTL_DOM s)) (d.mcTarget s) then (d.mcCheck s).mcSettle s else d

/-- An acknowledgment reaches the angle unit (R55): GOT increments; one that completes the set in its check ACLK lets it commit (R57). -/
def Dev.modeChangeAck (s : Nat) (d : Dev) : Dev :=
  let st := d.rd (AU_MCs_STAT_STATE s)
  if st = 1 ∨ st = 2 then
    let d : Dev := match takeFirst (fun (a : Nat × Nat) => a.1 = s && decide (a.2 ≤ d.now)) d.cfg.acks with
      | some (_, rest) => { d with cfg := { d.cfg with acks := rest } }
      | none => d
    let d := d.inc (AU_MCs_ACK_GOT s)
    if st = 1 ∧ d.checkReached (d.rd (AU_MCs_CTL_DOM s)) (d.mcTarget s) ∧ d.mcPasses s then (d.mcCheck s).mcSettle s else d
  else d

/-- ABORT of slot `s` (R56): before the check, or in the ACLK of one that fails; else it is ignored. -/
def Dev.modeChangeAbort (s code : Nat) (d : Dev) : Dev :=
  if d.rd (AU_MCs_STAT_STATE s) = 1 ∧ ¬ (d.checkReached (d.rd (AU_MCs_CTL_DOM s)) (d.mcTarget s) ∧ d.mcPasses s) then d.mcAbandon s 3 code
  else d

/-- AU_MCs_TMO expires (R56): the landfall of this ACLK wins (R57). -/
def Dev.modeChangeTimeout (s : Nat) (d : Dev) : Dev :=
  let st := d.rd (AU_MCs_STAT_STATE s)
  let tmo := (d.reg (AU_MCs_TMO s)).toNat
  if (st = 1 ∨ st = 2) ∧ tmo ≠ 0 ∧ tget 0 d.ang.mcArmed s + tmo ≤ d.now ∧ ¬ (d.mcReached s ∧ (st = 2 ∨ d.mcPasses s)) then
    d.mcAbandon s 2 0x0E
  else d

/-! ### Landfalls -/

/-- The domain is reached by a landfall (R52, R466): change sets whose target it passes are checked and apply first, then the waiting cells are released and
snapshots and readbacks latch. -/
def Dev.landfall (n : Nat) (d : Dev) : Dev :=
  match d.passedLandfall n with
  | none => d
  | some l =>
    let slot := fun (s : Nat) (d : Dev) =>
      if d.rd (AU_MCs_CTL_DOM s) = n then
        let d := if d.rd (AU_MCs_STAT_STATE s) = 1 && d.mcReached s then d.mcCheck s else d
        if d.rd (AU_MCs_STAT_STATE s) = 2 && d.mcReached s then d.mcApply s else d
      else d
    let d := forUpTo 8 slot d
    let d := ((d.landfallSync n).snapLandfalls n).rbLandfall n l
    d.setAd n { d.ad n with lfDone := true }

/-- Nothing of task `t` is left to repair (R434, R435): no isle of its bindings is gated by a fault, no input unit of its is being rewritten. -/
def Dev.taskFree (d : Dev) (t : Nat) : Bool :=
  !(d.bindings t).any (fun b => (d.isle (d.rd (AHD_TBb_ID_ISLE b))).gateFault) &&
  !d.ev.repairs.any (fun r => r.kind = 3 && decide (r.unit < hbUnit 4 0) && (d.tasksOfPort ((r.unit - hbUnit 0 0) / 256) (r.unit % 256)).contains t)

/-- Isle `n` leaves its fault gating (R434): its tasks return to RUNNING where nothing of theirs is left to repair. -/
def Dev.ungate (n : Nat) (d : Dev) : Dev :=
  let d := (d.setIsle n { d.isle n with gateFault := false }).showGate n
  forList ((d.tasksOf n).filter d.taskFree) (Dev.resumeTask n) d

/-- The copy of the new active set into staging ends (R125); a damaged frame is rewritten with it (R438). -/
def Dev.copyback (n : Nat) (d : Dev) : Dev :=
  match (d.isle n).copyEnd with
  | none => d
  | some e =>
    if d.now < e then d
    else
      let d := d.clearCfgErr n (!(d.isle n).copy)
      let d := (d.setIsle n (d.isle n).copyBack).wr (IS_STAT_SYNC n) 0
      let d := if d.integ.cbRep.contains n then
          ({ d with integ := { d.integ with cbRep := d.integ.cbRep.filter (fun i => i ≠ n) } }).setFlag MI_STAT_CFGREP
        else d
      match takeFirst (fun (r : Repair) => r.unit = n && r.kind = 4) d.ev.repairs with
      | some (_, rest) => ({ d with ev := { d.ev with repairs := rest } }).ungate n
      | none => d

/-! ### The commands -/

/-- LANDFALL (R52). -/
def execLandfall (n : Fin 8) (s : State) : Host.Outcome State Fault Refusal := onDev (Dev.landfall n.val) s
/-- MODE_CHANGE_CHECK (R55). -/
def execModeChangeCheck (n : Fin 8) (s : State) : Host.Outcome State Fault Refusal := onDev (Dev.modeChangeCheck n.val) s
/-- MODE_CHANGE_ACK (R55). -/
def execModeChangeAck (n : Fin 8) (s : State) : Host.Outcome State Fault Refusal := onDev (Dev.modeChangeAck n.val) s
/-- MODE_CHANGE_ABORT (R56). -/
def execModeChangeAbort (n : Fin 8) (s : State) : Host.Outcome State Fault Refusal := onDev (Dev.modeChangeAbort n.val 0x0F) s
/-- MODE_CHANGE_TIMEOUT (R56). -/
def execModeChangeTimeout (n : Fin 8) (s : State) : Host.Outcome State Fault Refusal := onDev (Dev.modeChangeTimeout n.val) s
/-- COPYBACK_DONE (R125). -/
def execCopybackDone (n : Fin 96) (s : State) : Host.Outcome State Fault Refusal := onDev (Dev.copyback n.val) s
/-- READBACK_DONE (R231): the record is written, and a READBACK command ends (R371). -/
def execReadbackDone (s : State) : Host.Outcome State Fault Refusal :=
  onDev (fun d => if d.rd CF_RB_STAT_STATE ≠ 2 then d else let d := d.rbDone; d.cmdDone 0x208 0 0xFF [d.reg CF_RB_STAT]) s

end Sys2Proof.Machine
end

