-- ==== Sys2Proof/Machine/Mail.lean ====
section
/-! DEFINITION. The mailbox (R350 to R363): the response-and-event ring, MSI-X messages, fetching commands, and discarding them. -/
namespace Sys2Proof.Machine

/-- The block with the mailbox replaced. -/
def Dev.setMail (m : Mail) (d : Dev) : Dev := { d with mail := m }

/-! ### MSI-X (R359) -/

/-- A word of the MSI-X table: vector control reads 1, masked, until it is written. -/
def Dev.msixWord (d : Dev) (i : Nat) : BitVec 32 := tget (if i % 4 = 3 then 1#32 else 0#32) d.mail.msix i

/-- The block with a word of the MSI-X table written. -/
def Dev.setMsixWord (i : Nat) (v : BitVec 32) (d : Dev) : Dev :=
  d.setMail { d.mail with msix := tset (if i % 4 = 3 then 1#32 else 0#32) d.mail.msix i v }

/-- A posted write to host memory: lost while the link is down. -/
def Dev.hostWrite (a : Nat) (bs : List (BitVec 8)) (d : Dev) : Dev := if d.on HL_STAT_LINKUP then d.hostStore a bs else d

/-- The message of vector `v` goes out at once, or leaves its pending bit where the vector is masked. -/
def Dev.msiSend (v : Nat) (d : Dev) : Dev :=
  if wbit (d.msixWord (4 * v + 3)) 0 then d.setMail { d.mail with pba := d.mail.pba ||| BitVec.ofNat 16 (2 ^ v) }
  else
    let d := d.hostWrite ((d.msixWord (4 * v)).toNat + (d.msixWord (4 * v + 1)).toNat * 2 ^ 32) (wordBytes (d.msixWord (4 * v + 2)))
    d.setMail { d.mail with sent := tset 0 d.mail.sent v (d.now + 1) }

/-- ACLK of the moderation interval. -/
def Dev.imod (d : Dev) : Nat := d.rd HL_IMOD_USEC * 800

/-- Vector `v` is inside its moderation interval: at most one message per USEC µs. -/
def Dev.moderated (d : Dev) (v : Nat) : Bool :=
  d.imod ≠ 0 && tget 0 d.mail.sent v ≠ 0 && decide (d.now + 1 < tget 0 d.mail.sent v + d.imod)

/-- A message of vector `v` is due: sent, or left to the end of the interval. -/
def Dev.msi (v : Nat) (d : Dev) : Dev :=
  if d.moderated v then (if d.mail.waits.contains v then d else d.setMail { d.mail with waits := d.mail.waits ++ [v] }) else d.msiSend v

/-- The moderation interval of vector `v` ends: the waiting message goes out. -/
def Dev.msiInterval (v : Nat) (d : Dev) : Dev :=
  if d.mail.waits.contains v && !d.moderated v then (d.setMail { d.mail with waits := d.mail.waits.filter (fun w => w ≠ v) }).msiSend v else d

/-- The host unmasks vector `v`: a pending message is sent. -/
def Dev.msiUnmask (v : Nat) (d : Dev) : Dev :=
  let d := d.setMsixWord (4 * v + 3) (w32 ((d.msixWord (4 * v + 3)).toNat / 2 * 2))
  if d.mail.pba.getLsbD v then (d.setMail { d.mail with pba := d.mail.pba &&& ~~~(BitVec.ofNat 16 (2 ^ v)) }).msiSend v else d

/-- A write of HL_MSIRAISE: each named vector's message at once. -/
def Dev.msiRaise (m : Nat) (d : Dev) : Dev := forUpTo 16 (fun v d => if m / 2 ^ v % 2 = 1 then d.msiSend v else d) d

/-! ### The ring in host memory (R354, R355) -/

/-- Entries of the ring that are free: 255 less those not consumed. -/
def Dev.ringRoom (d : Dev) : Nat := 255 - (d.rd HL_RSP_TAIL_TAIL + 256 - d.rd HL_RSPDB_HEAD) % 256

/-- Responses owed to ring commands in progress (R353). -/
def Dev.owed (d : Dev) : Nat := (d.mail.cmds.filter (fun c => !c.console)).length

/-- Write an entry to the ring: bytes 4 to 63, then bytes 0 to 3, then the message of its vector. -/
def Dev.ringWrite (w0 w1 w2 : BitVec 32) (body : List (BitVec 32)) (vec : Nat) (d : Dev) : Dev :=
  let t := d.rd HL_RSP_TAIL_TAIL
  let base := (d.rd64 HL_RSP_BASE_LO HL_RSP_BASE_HI).toNat + 64 * t
  let d := d.hostWrite (base + 4) (wordsBytes ([w1, w2, d.ad7Frac] ++ padWords 12 body))
  let d := d.hostWrite base (wordBytes (wput w0 31 31 (d.rd HL_RSP_TAIL_PHASE)))
  let d := if t = 255 then (d.wr HL_RSP_TAIL_TAIL 0).wr HL_RSP_TAIL_PHASE (1 - d.rd HL_RSP_TAIL_PHASE) else d.wr HL_RSP_TAIL_TAIL (t + 1)
  d.msi vec

/-- Answer a command: status, failing part, result words, and the buffer data of a console response (R356, R364). -/
def Dev.answer (c : Cmd) (status part : Nat) (res : List (BitVec 32)) (data : List (BitVec 8)) (d : Dev) : Dev :=
  let w0 := w32 (c.op % 65536 + status * 2 ^ 16)
  let w2 := w32 (4 * res.length + part * 256)
  if c.console then
    d.setMail { d.mail with out := d.mail.out ++ [{ words := [w0, c.tag, w2, d.ad7Frac] ++ padWords 12 res, data := data }] }
  else d.ringWrite w0 c.tag w2 res (d.rd HL_MSIV_RSP)

/-- The oldest held event is written to the ring where it has room beside the responses owed; once the queue has room again a count of dropped
events is posted before any later event (R357). -/
def Dev.eventPost (d : Dev) : Dev :=
  match d.ev.queue with
  | [] => d
  | e :: rest =>
    if d.on HL_CTRL_RINGEN ∧ d.owed < d.ringRoom then
      let vec := if e.code = 3 then d.rd HL_MSIV_DISC else d.rd HL_MSIV_EVT
      let d := d.ringWrite (w32 (e.code + 2 ^ 24)) e.eseq (w32 (4 * e.payload.length + 0xFF00)) e.payload vec
      let d := ({ d with ev := { d.ev with queue := rest } } : Dev).wr HL_EVQ_LEN rest.length
      if d.ev.dropped = 0 then d
      else ({ d with ev := { d.ev with dropped := 0 } } : Dev).genEvent 4 [w32 d.ev.dropped]
    else d

/-! ### Fetching (R351 to R353, R369) -/

/-- The opcodes that the command tables list (Tables 15-3 to 15-14). -/
def knownOps : List Nat :=
  [0x0100, 0x0101, 0x0102, 0x0103] ++ (List.range 9).map (0x0200 + ·) ++ (List.range 4).map (0x0300 + ·) ++
  (List.range 7).map (0x0400 + ·) ++ (List.range 6).map (0x0500 + ·) ++ (List.range 3).map (0x0600 + ·) ++ (List.range 5).map (0x0700 + ·) ++
  (List.range 3).map (0x0800 + ·) ++ (List.range 7).map (0x0900 + ·) ++ (List.range 3).map (0x0A00 + ·) ++ (List.range 3).map (0x0B00 + ·) ++
  (List.range 2).map (0x0C00 + ·)

/-- A command from the 16 words of an entry. -/
def cmdOf (console : Bool) (idx : Nat) (ws : List (BitVec 32)) (data : List (BitVec 8)) : Cmd :=
  { console := console, idx := idx, op := wbits (ws.getD 0 0) 15 0, tag := ws.getD 1 0, plen := wbits (ws.getD 2 0) 5 0,
    nbuf := wbits (ws.getD 2 0) 9 8, pay := ws.drop 4, data := data }

/-- An entry has a reserved bit set, or a length beyond the payload (R353). -/
def badEntry (ws : List (BitVec 32)) : Bool :=
  wbits (ws.getD 0 0) 31 16 ≠ 0 || Nat.land (ws.getD 2 0).toNat 0xFFFFFCC0 ≠ 0 || ws.getD 3 0 ≠ 0 || decide (48 < wbits (ws.getD 2 0) 5 0)

/-- The TAG is that of a command still in progress on the same channel (R353, R371). -/
def Dev.dupTag (d : Dev) (console : Bool) (tag : BitVec 32) : Bool :=
  d.mail.cmds.any (fun c => c.console = console && c.tag = tag) || d.cfg.ops.any (fun o => o.console = console && o.tag = tag)

/-- Take a command: the first checks of R369, then it is in progress. -/
def Dev.takeCmd (c : Cmd) (bad : Bool) (d : Dev) : Dev :=
  if bad then d.answer c 0x11 0xFF [] []
  else if d.dupTag c.console c.tag then d.answer c 0x12 0xFF [] []
  else if ¬ knownOps.contains c.op then d.answer c 0x10 0xFF [] []
  else d.setMail { d.mail with cmds := d.mail.cmds ++ [c] }

/-- Firmware fetches the next ring entry (R353): not before RINGEN, nor without room for its response, nor before a DISCARD event is
posted (R362). -/
def Dev.fetchCmd (d : Dev) : Dev :=
  let h := d.rd HL_CMD_HEAD_HEAD
  if d.power.failed ∨ d.ev.queue.any (fun (e : Evt) => e.code = 3) ∨ ¬ d.on HL_CTRL_RINGEN ∨ h = d.rd HL_CMDDB_TAIL ∨ d.ringRoom ≤ d.owed then d
  else
    let r := d.memRead (64 * h) 64
    let d := r.2.wr HL_CMD_HEAD_HEAD ((h + 1) % 256)
    let ws := bytesWords r.1.2 16
    let c := cmdOf false h ws []
    if r.1.1 ≠ 0 then d.answer c 0x18 0xFF [] [] else d.takeCmd c (badEntry ws)

/-! ### Discarding (R362, R363, R372) -/

/-- The operations of S commands that can still be undone are undone, with ABORTED (R372). -/
def Dev.undoOps (d : Dev) : Dev :=
  let d := if 1 ≤ d.cfg.load.phase ∧ d.cfg.load.phase ≤ 2 ∧ d.cfg.load.field = 3 then
      ({ d with cfg := { d.cfg with load := CfgLoad.reset } } : Dev).cmdDone 0x200 0x0F 0xFF [d.reg CF_STAT, d.reg CF_IMGSEQ]
    else d
  let d := if ¬ d.cfg.ops.any (fun o => o.op = 0x201) ∨ d.cfg.icp.phase = 0 then d
    else if d.cfg.icp.phase < 5 then d.icpFail 0x0F 0xFF
    else d.modeChangeAbort (d.rd CF_ICP_CTL_SLOT) 0x0F
  if d.cfg.ops.any (fun o => o.op = 0x208) then
    let d : Dev := { d with cfg := { d.cfg with rb := { rec_ := none, stamp := 0, at_ := 0 } } }
    (d.wr CF_RB_STAT_STATE 0).cmdDone 0x208 0x0F 0xFF [d.reg CF_RB_STAT]
  else d

/-- Discard every ring command without a response (R362) and post one DISCARD event: first index, number, first and last TAG, cause. On an F2
event the console's commands go too. -/
def Dev.discard (cause : Nat) (d : Dev) : Dev :=
  let ring := d.mail.cmds.filter (fun c => !c.console)
  let h := d.rd HL_CMD_HEAD_HEAD
  let n := (d.rd HL_CMDDB_TAIL + 256 - h) % 256
  let rest := (List.range n).map (fun k => d.load32 (64 * ((h + k) % 256) + 4))
  let tags := ring.map (fun c => c.tag) ++ rest
  let first := match ring with
    | c :: _ => c.idx
    | [] => h
  let d := d.setMail { d.mail with cmds := if cause = 0 then [] else d.mail.cmds.filter (fun c => c.console) }
  let d := d.wr HL_CMD_HEAD_HEAD (d.rd HL_CMDDB_TAIL)
  d.genEvent 3 [w32 first, w32 tags.length, tags.headD 0, tags.getLastD 0, w32 cause]

/-- The host link goes down (R363). -/
def Dev.linkDown (d : Dev) : Dev :=
  let d := (((d.wr HL_STAT_LINKUP 0).wr HL_STAT_RATE 0).wr HL_STAT_WIDTH 0).wr HL_CTRL_RINGEN 0
  if d.power.failed then d else d.discard 1

/-- RINGEN is set (R363): the ring starts at index 0 with PHASE 1. -/
def Dev.ringen (b : Bool) (d : Dev) : Dev :=
  if b ∧ ¬ d.on HL_CTRL_RINGEN then ((d.wr HL_CTRL_RINGEN 1).wr HL_RSP_TAIL_TAIL 0).wr HL_RSP_TAIL_PHASE 1 else d.wrb HL_CTRL_RINGEN b

/-- A write of an HL register (R366). -/
def Dev.hlWrite (a : Nat) (v : BitVec 32) (d : Dev) : Dev :=
  if a = HL_CTRL then (d.wrb HL_CTRL_CONEVT (wbit v 1)).ringen (wbit v 0)
  else if a = HL_RSP_BASE_LO ∨ a = HL_RSP_BASE_HI then if d.on HL_CTRL_RINGEN then d.setFlag HL_STAT_CFGERR else d.plainWrite a v
  else if a = HL_SUBID then if d.on HL_STAT_CFGRDY then d else d.plainWrite a v
  else if a = HL_CMDDB then (d.plainWrite a v).raiseIrq 0
  else if a = HL_MSIRAISE then d.msiRaise (wbits v 15 0)
  else if a = HL_CLR then if wbit v 0 then (d.setReg HL_CNT0 0).setReg HL_CNT1 0 else d
  else d.plainWrite a v

/-! ### The commands -/

/-- COMMAND_DOORBELL (R358). -/
def execCommandDoorbell (t : BitVec 8) (s : State) : Host.Outcome State Fault Refusal := onDev (Dev.hlWrite HL_CMDDB (w32 t.toNat)) s
/-- RESPONSE_DOORBELL (R355). -/
def execResponseDoorbell (t : BitVec 8) (s : State) : Host.Outcome State Fault Refusal := onDev (Dev.hlWrite HL_RSPDB (w32 t.toNat)) s
/-- COMMAND_FETCH (R353). -/
def execCommandFetch (s : State) : Host.Outcome State Fault Refusal := onDev Dev.fetchCmd s
/-- EVENT_POST (R357). -/
def execEventPost (s : State) : Host.Outcome State Fault Refusal := onDev Dev.eventPost s
/-- MSIX_INTERVAL_END (R359). -/
def execMsixIntervalEnd (v : Fin 16) (s : State) : Host.Outcome State Fault Refusal := onDev (Dev.msiInterval v.val) s
/-- MSIX_UNMASK (R359). -/
def execMsixUnmask (v : Fin 16) (s : State) : Host.Outcome State Fault Refusal := onDev (Dev.msiUnmask v.val) s
/-- MSIRAISE (R359). -/
def execMsiraise (m : BitVec 16) (s : State) : Host.Outcome State Fault Refusal := onDev (Dev.hlWrite HL_MSIRAISE (w32 m.toNat)) s
/-- LINK_DOWN (R363). -/
def execLinkDown (s : State) : Host.Outcome State Fault Refusal := onDev Dev.linkDown s
/-- RINGEN_SET (R363). -/
def execRingenSet (s : State) : Host.Outcome State Fault Refusal := onDev (Dev.ringen true) s
/-- HL_CLR (R366). -/
def execHlClr (s : State) : Host.Outcome State Fault Refusal := onDev (Dev.hlWrite HL_CLR 1) s

end Sys2Proof.Machine
end

