-- ==== Sys2Proof/Machine/Eth.lean ====
section
/-! DEFINITION. The Ethernet block (R398 to R405, R408): descriptor rings, frames, gates, network time and synchronisation. -/
namespace Sys2Proof.Machine

/-- The block with its Ethernet state replaced. -/
def Dev.setEth (e : Eth) (d : Dev) : Dev := { d with eth := e }

/-- The Ethernet domain is up and takes requests (R291, R417). -/
def Dev.ethUp (d : Dev) : Bool := !d.offline 102

/-- Port `p` is enabled in a domain that is up. -/
def Dev.portOn (d : Dev) (p : Nat) : Bool := d.ethUp && d.on (EN_Pp_CFG_EN p)

/-! ### Network time (R403 to R405) -/

/-- Quarter-nanoseconds of a second. -/
def qPerSec : Nat := 4000000000

/-- A network time as one count of quarter-nanoseconds, modulo 2^48 seconds. -/
def ntCount (x : Int) : Nat := (x % ((2 ^ 48 * qPerSec : Nat) : Int)).toNat

/-- The network time as a count of quarter-nanoseconds. -/
def Eth.count (e : Eth) : Nat := e.sec.toNat * qPerSec + e.qns

/-- The next ACLK of network time: 5 quarter-ns and ADJ × 2^-32, with the steps of this ACLK (R403). -/
def Dev.ntAdvance (d : Dev) : Dev :=
  if ¬ d.ethUp then d
  else
    let e := d.eth
    let x : Int := ((e.count * 2 ^ 32 + e.sub.toNat + 5 * 2 ^ 32 : Nat) : Int) + (d.reg EN_NT_ADJ).toInt
    let n := ntCount (x / (2 ^ 32 : Nat) + e.step)
    d.setEth { e with sec := BitVec.ofNat 48 (n / qPerSec), qns := n % qPerSec, sub := BitVec.ofInt 32 (x % (2 ^ 32 : Nat)), step := 0 }

/-- The stamp that a network time is for AD7 (R23): seconds [31:0] and ns × 2^32 / 10^9 rounded to the nearest. -/
def Eth.stamp (e : Eth) : BitVec 64 :=
  BitVec.ofNat 64 (e.sec.toNat % 2 ^ 32 * 2 ^ 32 + (e.qns / 4 * 2 ^ 33 + 1000000000) / 2000000000)

/-- AD7 samples network time (R22): the measurement is on its way. -/
def Dev.ad7Latch (d : Dev) : Dev :=
  if ¬ d.ethUp then d
  else
    let m : Meas := { at_ := d.now, valid := !d.on (AU_ADn_STAT_UNSYNC 7), value := BitVec.ofNat 80 (d.eth.stamp.toNat * 2 ^ 16), isErr := false, latch := none }
    d.setAd 7 { d.ad 7 with inFlight := (d.ad 7).inFlight ++ [m], lastLatch := d.now }

/-- Load network time from the AD7 stamp, as the Ethernet domain comes up (R420). -/
def Dev.ntLoad (d : Dev) : Dev :=
  let s := (d.stamp 7).toNat
  d.setEth { d.eth with sec := BitVec.ofNat 48 (s / 2 ^ 32), qns := s % 2 ^ 32 * qPerSec / 2 ^ 32, sub := 0, step := 0 }

/-- A change of SYNC (R47, R405): AD7 leaves UNSYNC or returns to it, its LOCK clears (R29), and TIME_SYNC is posted; the offset and the grandmaster are the
802.1AS stack's (log entry 4). -/
def Dev.setSync (b : Bool) (d : Dev) : Dev :=
  if d.on EN_TS_CTL_SYNC = b then d
  else
    let d := (d.wrb EN_TS_CTL_SYNC b).wrb (AU_ADn_STAT_UNSYNC 7) (!b)
    let d := if b then d else (d.wrBit AU_STAT_LOCK 7 false).setAd 7 { d.ad 7 with accN := 0 }
    let o := d.fresh
    let g := o.2.fresh
    let h := g.2.fresh
    h.2.post 0x70 [w32 (b2n b), w32 o.1, w32 g.1, w32 h.1]

/-- A write of EN_TS_CTL (R403, R405). -/
def Dev.tsCtl (v : BitVec 32) (d : Dev) : Dev :=
  let d := d.setSync (wbit v 0)
  if wbit v 1 then
    d.setEth { d.eth with step := d.eth.step + (d.reg EN_NT_STEPS).toInt * (qPerSec : Nat) + (d.reg EN_NT_STEPQ).toInt }
  else d

/-! ### Descriptor rings (R400) -/

/-- Ring `r` of port `p`. -/
def Dev.enRing (d : Dev) (p r : Nat) : EnRing := tget EnRing.reset d.eth.rings (p * 16 + r)

/-- The block with a ring replaced. -/
def Dev.setRing (p r : Nat) (x : EnRing) (d : Dev) : Dev := d.setEth { d.eth with rings := tset EnRing.reset d.eth.rings (p * 16 + r) x }

/-- Entries of a ring: LOG2 from 4 to 12. -/
def EnRing.size (x : EnRing) : Nat := 2 ^ max 4 (min 12 x.log2)

/-- The address of the descriptor at a ring's head. -/
def EnRing.desc (x : EnRing) : Nat := (x.baseHi.toNat % 256 * 2 ^ 32 + x.baseLo.toNat) + 32 * (x.head % x.size)

/-- The head descriptor of a ring: none where none is handed over; else the status of reading it and its words. -/
def Dev.headDesc (p r : Nat) (d : Dev) : Option (Nat × List (BitVec 32)) × Dev :=
  let x := d.enRing p r
  if x.head % x.size = x.tail % x.size then (none, d)
  else
    let q := d.niMemRead 39 x.desc 32
    if q.1.1 = 0 ∧ ¬ wbit ((bytesWords q.1.2 8).getD 2 0) 16 then (none, q.2) else (some (q.1.1, bytesWords q.1.2 8), q.2)

/-- A descriptor is finished (R400): words 2 to 6 are written with OWN clear, the head advances, and the token is posted. -/
def Dev.finishDesc (p r : Nat) (ws : List (BitVec 32)) (len : Nat) (ts err : Bool) (w3 : BitVec 32) (q s : Nat) (d : Dev) : Dev :=
  let x := d.enRing p r
  let w2 := w32 (len % 2 ^ 16 + b2n ts * 2 ^ 17 + b2n err * 2 ^ 18)
  let t := if ts && !err then [w32 q, w32 s, w32 (s / 2 ^ 32 % 2 ^ 16)] else (ws.drop 4).take 3
  let d := (d.niMemWrite 39 (x.desc + 8) (wordsBytes ([w2, w3] ++ t))).2
  let d := d.setRing p r { x with head := (x.head % x.size + 1) % x.size }
  if d.on (EN_Pp_CFG_TOKEN p) then d.arrive 1 (d.rd (EN_Pp_CFG_TOKNUM p)) 0 else d

/-- The buffer address of a descriptor (Table 16-2). -/
def descBuf (ws : List (BitVec 32)) : Nat := (ws.getD 0 0).toNat + wbits (ws.getD 1 0) 7 0 * 2 ^ 32

/-! ### Sending (R399, R402, R404) -/

/-- A frame as it goes on the line, without FCS: the tag stands in front of the type field, and a short frame is padded to 60 bytes (IEEE 802.3). -/
def lineFrame (bs : List (BitVec 8)) (w3 : BitVec 32) : List (BitVec 8) :=
  let bs := if wbit w3 15 then
      bs.take 12 ++ [0x81#8, 0#8, BitVec.ofNat 8 (wbits w3 14 12 * 32 + wbits w3 11 8), BitVec.ofNat 8 (wbits w3 7 0)] ++ bs.drop 12 else bs
  bs ++ List.replicate (60 - bs.length) 0

/-- The highest-numbered open queue below `k` whose head descriptor is owned (R402). -/
def Dev.txPick (p : Nat) : Nat → Dev → Option (Nat × Nat × List (BitVec 32)) × Dev
  | 0, d => (none, d)
  | k + 1, d =>
    if d.rdBit (EN_Pp_GATE_STATE p) k then
      let h := d.headDesc p k
      match h.1 with
      | some (st, ws) => (some (k, st, ws), h.2)
      | none => h.2.txPick p k
    else d.txPick p k

/-- Start a frame: a descriptor that meets a bus error is finished with ERR, and the port goes on with the next one (R401), `n` times at most. -/
def Dev.txTry (p : Nat) : Nat → Dev → Dev
  | 0, d => d
  | n + 1, d =>
    let k := d.txPick p 8
    match k.1 with
    | none => k.2
    | some (q, st, ws) =>
      let len := wbits (ws.getD 2 0) 15 0
      let b := if st = 0 then k.2.readBy (Dev.niMemRead 39) (descBuf ws) len else ((st, []), k.2)
      if b.1.1 = 0 then
        let x := ntCount ((b.2.eth.count + b.2.rd (EN_Pp_TSLAT_TXLAT p) : Nat) : Int)
        let f : TxFrame := { queue := q, bytes := lineFrame b.1.2 (ws.getD 3 0), q := x % qPerSec, s := x / qPerSec, err := false }
        b.2.setEth { b.2.eth with tx := tset none b.2.eth.tx p (some f) }
      else (b.2.finishDesc p q ws len (wbit (ws.getD 2 0) 17) true (ws.getD 3 0) 0 0).txTry p n

/-- A GATE action of port `p` is due and has not acted: a frame start of its ACLK comes after it (R402). -/
def Dev.gateComing (d : Dev) (p : Nat) : Bool := d.ang.acts.any (fun a => a.act = 4 && wbits a.arg0 2 0 = p && decide (a.tf ≤ d.now))

/-- A frame starts on port `p` (R402): not while another is being sent or the link is down. -/
def Dev.txStart (p : Nat) (d : Dev) : Dev :=
  if d.gateComing p ∨ ¬ d.portOn p ∨ ¬ d.on (EN_Pp_STAT_LINK p) ∨ (tget none d.eth.tx p).isSome then d else d.txTry p 32768

/-- The frame has been sent (R400): its descriptor is finished, with the timestamp where it asked for one. -/
def Dev.txDone (p : Nat) (d : Dev) : Dev :=
  match tget none d.eth.tx p with
  | none => d
  | some f =>
    let d := (d.setEth { d.eth with tx := tset none d.eth.tx p none }).inc (EN_Pp_CNT0_TXF p)
    let r := d.niMemRead 39 (d.enRing p f.queue).desc 32
    let ws := bytesWords r.1.2 8
    r.2.finishDesc p f.queue ws (wbits (ws.getD 2 0) 15 0) (wbit (ws.getD 2 0) 17) (r.1.1 ≠ 0) (ws.getD 3 0) f.q f.s

/-! ### Receiving (R399, R401, R404) -/

/-- The port's own address, first byte first. -/
def Dev.macOf (d : Dev) (p : Nat) : List (BitVec 8) := wordBytes (d.reg (EN_Pp_MAC_LO p)) ++ (wordBytes (d.reg (EN_Pp_MAC_HI p))).take 2

/-- A frame is addressed to the port (R399): its own address, broadcast or multicast, or any with PROMISC. -/
def Dev.rxAccepts (d : Dev) (p : Nat) (bs : List (BitVec 8)) : Bool :=
  d.on (EN_Pp_CFG_PROMISC p) || (bs.getD 0 0).getLsbD 0 || bs.take 6 = d.macOf p

/-- A received frame, FCS included, in `bs`: from 64 to 1,522 bytes and a good FCS, else it is counted in RXERR; then filtered, and written to the buffer of the
receive ring's head descriptor. -/
def Dev.rxFrame (p : Nat) (bs : List (BitVec 8)) (fcsOk : Bool) (d : Dev) : Dev :=
  if ¬ d.portOn p ∨ ¬ d.on (EN_Pp_STAT_LINK p) then d
  else if ¬ fcsOk ∨ bs.length < 64 ∨ 1522 < bs.length then d.inc (EN_Pp_CNT2_RXERR p)
  else if ¬ d.rxAccepts p bs then d
  else
    let body := bs.take (bs.length - 4)
    let tagged := (body.drop 12).take 2 = [0x81#8, 0#8]
    let tci := (body.getD 14 0).toNat * 256 + (body.getD 15 0).toNat
    let data := if tagged then body.take 12 ++ body.drop 16 else body
    let w3 := if tagged then w32 (tci % 4096 + tci / 8192 * 4096 + 2 ^ 15) else 0
    let h := d.headDesc p 8
    match h.1 with
    | none => h.2.inc (EN_Pp_CNT2_RXDROP p)
    | some (st, ws) =>
      let size := wbits (ws.getD 2 0) 15 0
      if st = 0 ∧ size < data.length then h.2.inc (EN_Pp_CNT2_RXDROP p)
      else
        let w := if st = 0 then h.2.writeBy (Dev.niMemWrite 39) (descBuf ws) data else (st, h.2)
        let x := ntCount ((w.2.eth.count : Int) - (w.2.rd (EN_Pp_TSLAT_RXLAT p) : Nat))
        if w.1 = 0 then ((w.2.inc (EN_Pp_CNT1_RXF p)).finishDesc p 8 ws data.length true false w3 (x % qPerSec) (x / qPerSec))
        else w.2.finishDesc p 8 ws size false true (ws.getD 3 0) 0 0

/-! ### Registers (R408) -/

/-- Setting EN loads the gate vector (R402). -/
def Dev.portCfg (p : Nat) (v : BitVec 32) (d : Dev) : Dev :=
  let was := d.on (EN_Pp_CFG_EN p)
  let bad := was && decide (wbits v 2 1 ≠ d.rd (EN_Pp_CFG_MODE p))
  let old := d.rd (EN_Pp_CFG_MODE p)
  let d := d.plainWrite (EN_Pp_CFG p) v
  let d := if bad then (d.wr (EN_Pp_CFG_MODE p) old).setFlag (EN_Pp_STAT_CFGERR p) else d
  if !was && d.on (EN_Pp_CFG_EN p) then d.wr (EN_Pp_GATE_STATE p) (d.rd (EN_Pp_GATE_INIT p)) else d

/-- The counters of a port clear. -/
def Dev.enClear (p : Nat) (d : Dev) : Dev := ((d.setReg (EN_Pp_CNT0 p) 0).setReg (EN_Pp_CNT1 p) 0).setReg (EN_Pp_CNT2 p) 0

/-- A write of the register at offset `o` of port `p`. -/
def Dev.enPortWrite (p o : Nat) (v : BitVec 32) (d : Dev) : Dev :=
  let r := d.rd (EN_Pp_RSEL_RING p)
  let x := d.enRing p r
  let on := d.on (EN_Pp_CFG_EN p)
  let refuse := d.setFlag (EN_Pp_STAT_CFGERR p)
  match o with
  | 0x00 => d.portCfg p v
  | 0x04 => if on then refuse else d.plainWrite (EN_Pp_MAC_LO p) v
  | 0x08 => if on then refuse else d.plainWrite (EN_Pp_MAC_HI p) v
  | 0x1C => if on then refuse else d.setRing p r { x with baseLo := w32 (v.toNat / 32 * 32) }
  | 0x20 => if on then refuse else d.setRing p r { x with baseHi := w32 (v.toNat % 256) }
  | 0x24 => if on then refuse else d.setRing p r { x with log2 := wbits v 3 0 }
  | 0x28 => d.setRing p r { x with tail := wbits v 11 0 }
  | 0x3C => if wbit v 0 then d.enClear p else d
  | _ => d.plainWrite (EN_Pp_CFG p + o) v

/-- A write of an EN register. -/
def Dev.enWrite (a : Nat) (v : BitVec 32) (d : Dev) : Dev :=
  if a = EN_TS_CTL then d.tsCtl v
  else if 0x400C0100 ≤ a ∧ a < 0x400C0400 then d.enPortWrite ((a - 0x400C0100) / 0x80) ((a - 0x400C0100) % 0x80) v
  else d.plainWrite a v

/-- A read of an EN register: the ring that EN_Pp_RSEL selects, network time, and its capture (R408). -/
def Dev.enRead (a : Nat) (d : Dev) : BitVec 32 × Dev :=
  if a = EN_NT_Q then (w32 d.eth.qns, d.setEth { d.eth with cap := d.eth.sec })
  else if a = EN_NT_S_LO then (w32 d.eth.cap.toNat, d)
  else if a = EN_NT_S_HI then (w32 (d.eth.cap.toNat / 2 ^ 32), d)
  else
    let p := (a - 0x400C0100) / 0x80
    let x := d.enRing p (d.rd (EN_Pp_RSEL_RING p))
    let v := if 0x400C0100 ≤ a ∧ a < 0x400C0400 then
        match (a - 0x400C0100) % 0x80 with
        | 0x1C => x.baseLo
        | 0x20 => x.baseHi
        | 0x24 => w32 x.log2
        | 0x28 => w32 x.tail
        | 0x2C => w32 x.head
        | _ => if (regRow? a).isSome then d.reg a else 0
      else if (regRow? a).isSome then d.reg a else 0
    (v, d)

/-! ### Links -/

/-- A port's link goes down; the loss of the slave port's link clears SYNC (R405). -/
def Dev.ethLinkDown (p : Nat) (d : Dev) : Dev :=
  let d := (d.wr (EN_Pp_STAT_LINK p) 0).wr (EN_Pp_STAT_SPEED p) 0
  if d.rd EN_TS_CFG_PORT = p then d.setSync false else d

/-- A port's link comes up: the domain has power and the SerDes PLL its crystal. -/
def Dev.ethLinkUp (p : Nat) (speed : BitVec 2) (d : Dev) : Dev :=
  if d.ethUp ∧ d.on PC_STAT_SLOCK then (d.wr (EN_Pp_STAT_LINK p) 1).wr (EN_Pp_STAT_SPEED p) speed.toNat else d

/-! ### The commands -/

/-- RX_FRAME (R401). -/
def execRxFrame (p : Fin 6) (bs : List (BitVec 8)) (ok : Bool) (s : State) : Host.Outcome State Fault Refusal := onDev (Dev.unlessHeld (Dev.rxFrame p.val bs ok)) s
/-- TX_FRAME_START (R402). -/
def execTxFrameStart (p : Fin 6) (s : State) : Host.Outcome State Fault Refusal := onDev (Dev.unlessHeld (Dev.txStart p.val)) s
/-- TX_FRAME_DONE (R400). -/
def execTxFrameDone (p : Fin 6) (s : State) : Host.Outcome State Fault Refusal := onDev (Dev.unlessHeld (Dev.txDone p.val)) s
/-- RTAIL_WRITE (R400): a write of EN_Pp_RTAIL. -/
def execRtailWrite (p : Fin 6) (v : BitVec 32) (s : State) : Host.Outcome State Fault Refusal :=
  onDev (fun d => if d.ethUp then d.enPortWrite p.val 0x28 v else d) s
/-- PORT_ENABLE (R402): a write of EN_Pp_CFG that sets EN. -/
def execPortEnable (p : Fin 6) (s : State) : Host.Outcome State Fault Refusal :=
  onDev (fun d => if d.ethUp then d.portCfg p.val (wput (d.reg (EN_Pp_CFG p.val)) 0 0 1) else d) s
/-- EN_CLR (R408). -/
def execEnClr (p : Fin 6) (s : State) : Host.Outcome State Fault Refusal :=
  onDev (fun d => if d.ethUp then d.enPortWrite p.val 0x3C 1 else d) s
/-- NT_ADVANCE (R403). -/
def execNtAdvance (s : State) : Host.Outcome State Fault Refusal := onDev Dev.ntAdvance s
/-- NT_STEP (R403): a write of EN_TS_CTL with STEP that leaves SYNC. -/
def execNtStep (s : State) : Host.Outcome State Fault Refusal :=
  onDev (fun d => if d.ethUp then d.tsCtl (w32 (d.rd EN_TS_CTL_SYNC + 2)) else d) s
/-- SYNC_SET (R405). -/
def execSyncSet (s : State) : Host.Outcome State Fault Refusal := onDev (fun d => if d.ethUp then d.setSync true else d) s
/-- SYNC_CLEAR (R405). -/
def execSyncClear (s : State) : Host.Outcome State Fault Refusal := onDev (fun d => if d.ethUp then d.setSync false else d) s
/-- SYNC_TIMEOUT (R405). -/
def execSyncTimeout (s : State) : Host.Outcome State Fault Refusal := onDev (Dev.setSync false) s
/-- ETH_LINK_DOWN (R405). -/
def execEthLinkDown (p : Fin 6) (s : State) : Host.Outcome State Fault Refusal := onDev (Dev.ethLinkDown p.val) s
/-- ETH_LINK_UP (R398). -/
def execEthLinkUp (p : Fin 6) (v : BitVec 2) (s : State) : Host.Outcome State Fault Refusal := onDev (Dev.ethLinkUp p.val v) s

end Sys2Proof.Machine
end

