-- ==== Sys2Proof/Machine/CoreBase.lean ====
section
/-! DEFINITION. The control cores' state: STATUS, the bank images (Table 09-3) and what CP_STAT shows. -/
namespace Sys2Proof.Machine

/-- Core `c`. -/
def Dev.core (d : Dev) (c : Nat) : CoreSt := tget CoreSt.reset d.cores c

/-- The bank slot `k` of a core. -/
def CoreSt.bslot (x : CoreSt) (k : Nat) : BankSlot := tget BankSlot.reset x.slots k

/-- The core with a bank slot replaced. -/
def CoreSt.setSlot (x : CoreSt) (k : Nat) (b : BankSlot) : CoreSt := { x with slots := tset BankSlot.reset x.slots k b }

/-- The bank of the active slot. -/
def CoreSt.bank (x : CoreSt) : Bank := (x.bslot x.slot).bank

/-- The core with the bank of its active slot replaced. -/
def CoreSt.setBank (x : CoreSt) (b : Bank) : CoreSt := x.setSlot x.slot { x.bslot x.slot with bank := b }

/-- The block with core `c` replaced: CP_STAT shows TW, DF, SLOT and the slots that hold a thread (Table 09-10). -/
def Dev.setCore (c : Nat) (x : CoreSt) (d : Dev) : Dev :=
  let held := (List.range 4).foldl (fun m k => if (x.bslot k).thread.isSome then m + 2 ^ k else m) 0
  let d := { d with cores := tset CoreSt.reset d.cores c x }
  (((d.wrb (CP_STAT_TW c) x.st.tw).wrb (CP_STAT_DF c) x.st.df).wr (CP_STAT_SLOT c) x.slot).wr (CP_STAT_RESV c) held

/-- The block with core `c` changed. -/
def Dev.modCore (c : Nat) (f : CoreSt → CoreSt) (d : Dev) : Dev := d.setCore c (f (d.core c))

/-! ### STATUS and bank images -/

/-- STATUS as a word, SLOT apart (Table 09-8). -/
def CStat.word (s : CStat) : Nat :=
  b2n s.priv + 2 * b2n s.tw + 4 * b2n s.df + 8 * b2n s.ie + 16 * s.wcur.toNat + 128 * s.wres.toNat + 1024 * b2n s.mip

/-- A word as STATUS: bits of no field are discarded. -/
def cstatOf (v : Nat) : CStat :=
  { priv := bits v 0 0 = 1, tw := bits v 1 1 = 1, df := bits v 2 2 = 1, ie := bits v 3 3 = 1, wcur := BitVec.ofNat 3 (bits v 6 4),
    wres := BitVec.ofNat 3 (bits v 9 7), mip := bits v 10 10 = 1 }

/-- STATUS as a bank image holds it: TW, DF and IE are 0 (Table 09-3). -/
def CStat.image (s : CStat) : CStat := { s with tw := false, df := false, ie := false }

/-- The BANKSEL index of doubleword `i` of a bank image (Table 09-3); none for the reserved one. -/
def bankIndex (i : Nat) : Option Nat :=
  if i < 7 then some (0x90 + i) else if i = 7 then none else if i < 16 then some (i - 8) else some (i - 16 + 0x10)

/-- A bank by BANKSEL index (Table 09-3): an index not listed reads 0 (R248). -/
def Bank.get (b : Bank) (i : Nat) : BitVec 64 :=
  if i < 8 then tget 0#64 b.g i
  else if 0x10 ≤ i ∧ i < 0x90 then tget 0#64 b.w (i - 0x10)
  else match i with
    | 0x90 => b.pc
    | 0x91 => BitVec.ofNat 64 b.st.image.word
    | 0x92 => b.wsp
    | 0x93 => b.ttb
    | 0x94 => BitVec.ofNat 64 b.mp.mask.toNat
    | 0x95 => BitVec.ofNat 64 b.mp.done.toNat
    | 0x96 => b.mp.base
    | _ => 0

/-- The fields of WSP and TTB (Table 09-8). -/
def wspField (v : BitVec 64) : BitVec 64 := BitVec.ofNat 64 (v.toNat % 2 ^ 40 / 8 * 8)
def ttbField (v : BitVec 64) : BitVec 64 := BitVec.ofNat 64 (v.toNat % 512 + v.toNat % 2 ^ 40 / 8192 * 8192)

/-- The bank with an index written; g0 and an index not listed are left alone. -/
def Bank.put (b : Bank) (i : Nat) (v : BitVec 64) : Bank :=
  if i = 0 then b
  else if i < 8 then { b with g := tset 0#64 b.g i v }
  else if 0x10 ≤ i ∧ i < 0x90 then { b with w := tset 0#64 b.w (i - 0x10) v }
  else match i with
    | 0x90 => { b with pc := v }
    | 0x91 => { b with st := (cstatOf v.toNat).image }
    | 0x92 => { b with wsp := wspField v }
    | 0x93 => { b with ttb := ttbField v }
    | 0x94 => { b with mp := { b.mp with mask := w32 v.toNat } }
    | 0x95 => { b with mp := { b.mp with done := w32 v.toNat } }
    | 0x96 => { b with mp := { b.mp with base := v } }
    | _ => b

/-- The bytes of a bank image. -/
def Bank.bytes (b : Bank) : List (BitVec 8) :=
  (List.range 144).flatMap (fun i =>
    let v := match bankIndex i with
      | some k => (b.get k).toNat
      | none => 0
    (List.range 8).map (fun j => BitVec.ofNat 8 (v / 2 ^ (8 * j))))

/-- The bank that an image's bytes hold. -/
def bankOfBytes (bs : List (BitVec 8)) : Bank :=
  (List.range 144).foldl (fun b i =>
    match bankIndex i with
    | some k => b.put k (BitVec.ofNat 64 (bytesNat ((bs.drop (8 * i)).take 8)))
    | none => b) Bank.zero

/-- The core with its pc and STATUS put into the bank of its active slot, as when its thread leaves it (R247). -/
def CoreSt.park (x : CoreSt) : CoreSt := x.setBank { x.bank with pc := x.pc, st := x.st.image }

/-- The core continuing with slot `k` (R247): pc and STATUS come from its bank, and IE stays as it is (log entry 60). -/
def CoreSt.enter (x : CoreSt) (k : Nat) : CoreSt :=
  let b := (x.bslot k).bank
  { x with slot := k, pc := b.pc, st := { b.st with ie := x.st.ie, tw := false, df := false }, idle := false, waiting := false }

end Sys2Proof.Machine
end

