-- ==== Sys2Proof/Machine/Sched.lean ====
section
/-! DEFINITION. The hardware thread scheduler (R262 to R276). -/
namespace Sys2Proof.Machine

/-! ### Accessors -/

/-- Thread `t`. -/
def Dev.thr (d : Dev) (t : Nat) : Thread := tget Thread.reset d.sched.threads t

/-- The block with a thread replaced; NREADY counts the READY threads. -/
def Dev.setThr (t : Nat) (x : Thread) (d : Dev) : Dev :=
  let ts := tset Thread.reset d.sched.threads t x
  ({ d with sched := { d.sched with threads := ts } }).wr TS_STAT_NREADY (ts.filter (fun (e : Nat × Thread) => e.2.state = 1)).length

/-- The block with a thread changed. -/
def Dev.modThr (t : Nat) (f : Thread → Thread) (d : Dev) : Dev := d.setThr t (f (d.thr t))

/-- Token-store entry `e`. -/
def Dev.tokEnt (d : Dev) (e : Nat) : TokEnt := tget TokEnt.reset d.sched.toks e

/-- The block with a token-store entry replaced. -/
def Dev.setTok (e : Nat) (x : TokEnt) (d : Dev) : Dev := { d with sched := { d.sched with toks := tset TokEnt.reset d.sched.toks e x } }

/-- The ready list of level `p`, oldest first. -/
def Dev.readyAt (d : Dev) (p : Nat) : List Nat := tget [] d.sched.ready p

/-- The block with a ready list replaced. -/
def Dev.setReady (p : Nat) (l : List Nat) (d : Dev) : Dev := { d with sched := { d.sched with ready := tset [] d.sched.ready p l } }

/-- The thread running on core `c`, and the switch pending to it. -/
def Dev.runOn (d : Dev) (c : Nat) : Option Nat := tget none d.sched.running c
def Dev.pendOn (d : Dev) (c : Nat) : Option SwReq := tget none d.sched.switch c

/-- The block with core `c`'s running thread replaced; TS_COREc_SELF shows it. -/
def Dev.setRun (c : Nat) (t : Option Nat) (d : Dev) : Dev :=
  let d := { d with sched := { d.sched with running := tset none d.sched.running c t, lastOn := tset 0 d.sched.lastOn c (t.getD (tget 0 d.sched.lastOn c)) } }
  match t with
  | some k => ((d.wr (TS_COREc_SELF_THREAD c) k).wr (TS_COREc_SELF_PRI c) (d.thr k).pri.toNat).wr (TS_COREc_SELF_NONE c) 0
  | none => ((d.wr (TS_COREc_SELF_THREAD c) 0).wr (TS_COREc_SELF_PRI c) 0).wr (TS_COREc_SELF_NONE c) 1

/-- The block with core `c`'s pending switch replaced. -/
def Dev.setPend (c : Nat) (q : Option SwReq) (d : Dev) : Dev := { d with sched := { d.sched with switch := tset none d.sched.switch c q } }

/-- Core `c` can run thread `t`: an AFF of 0 acts as 0xF (Table 10-1). -/
def Dev.affOk (d : Dev) (t c : Nat) : Bool := (d.thr t).aff = 0 || wbit (d.thr t).aff c

/-- The core that runs thread `t`, and the core a switch to it is pending for. -/
def Dev.coreOf (d : Dev) (t : Nat) : Option Nat := (List.range 4).find? (fun c => d.runOn c = some t)
def Dev.pendCore (d : Dev) (t : Nat) : Option Nat := (List.range 4).find? (fun c => (d.pendOn c).any (fun q => q.thread = t))

/-- The running priority of a core (R263). -/
def Dev.runPri (d : Dev) (c : Nat) : Int :=
  match d.pendOn c, d.runOn c with
  | some q, _ => (d.thr q.thread).pri.toNat
  | none, some t => (d.thr t).pri.toNat
  | none, none => -1

/-- Scheduler attention: CP_IPEND bit 6 (R276). -/
def Dev.schedFlag (f : Fld) (d : Dev) : Dev := (d.setFlag f).raiseIrq 6

/-! ### The trace ring (R275) -/

/-- log2 of the ring's records. -/
def Dev.trLog (d : Dev) : Nat := max 4 (min 20 (d.rd TS_TRSIZE_LOG2))

/-- Write a record with words 1 and 2 (Table 10-3). -/
def Dev.traceRec (w1 w2 : Nat) (d : Dev) : Dev :=
  let n := (d.reg TS_TRWP).toNat
  let base := d.rd TS_TRBASE_LO_ADDR * 16 + d.rd TS_TRBASE_HI_ADDR * 2 ^ 32
  let bs := wordsBytes [d.ad7Frac, w32 (bits (d.stamp 7).toNat 39 32 + w1), w32 w2, w32 n]
  (d.memWriteAll (base + n % 2 ^ d.trLog * 16) bs).2.setReg TS_TRWP (w32 (n + 1))

/-- The ring has no room. -/
def Dev.trFull (d : Dev) : Bool := (d.reg TS_TRWP - d.reg TS_TRRP).toNat = 2 ^ d.trLog

/-- The GAP record of the dropped records, once the ring has room (R275). -/
def Dev.traceGap (d : Dev) : Dev :=
  if d.on TS_CTRL_TREN ∧ d.sched.gap ≠ 0 ∧ ¬ d.trFull then
    { d.traceRec (9 * 2 ^ 8) d.sched.gap with sched := { d.sched with gap := 0 } } else d

/-- One decision: its record, after a GAP record where records were dropped (R275). -/
def Dev.trace (ev core slot thread w2 : Nat) (d : Dev) : Dev :=
  if ¬ d.on TS_CTRL_TREN then d
  else
    let d := d.traceGap
    if d.trFull then
      ({ (d.inc TS_TRLOST_LOST) with sched := { d.sched with gap := d.sched.gap + 1 } }).schedFlag TS_STAT_TRLOST
    else d.traceRec (ev * 2 ^ 8 + core * 2 ^ 12 + slot * 2 ^ 14 + thread * 2 ^ 16 + (d.thr thread).pri.toNat * 2 ^ 25) w2

/-- A decision about a thread: core and slot are those of its resident image. -/
def Dev.traceThr (ev t w2 : Nat) (d : Dev) : Dev :=
  let h := (d.thr t).home.getD ((d.thr t).last.toNat, 0)
  d.trace ev h.1 h.2 t w2

/-! ### Ready lists and the choice of core (R263 to R265) -/

/-- Enter the ready list of the thread's level, at the head or the tail. -/
def Dev.enqueue (t : Nat) (head : Bool) (d : Dev) : Dev :=
  let p := (d.thr t).pri.toNat
  d.setReady p (if head then t :: d.readyAt p else d.readyAt p ++ [t])

/-- Leave every ready list. -/
def Dev.unready (t : Nat) (d : Dev) : Dev := forUpTo 32 (fun p d => d.setReady p ((d.readyAt p).filter (fun x => x ≠ t))) d

/-- Request a switch of core `c` to thread `t`, 2 ACLK from now (R264, R266); a request it supersedes goes back to the head of its level (log
entry 67). -/
def Dev.requestSwitch (c t : Nat) (d : Dev) : Dev :=
  let d := match d.pendOn c with
    | some q => d.enqueue q.thread true
    | none => d
  let d := match d.runOn c with
    | some r => d.trace 5 c (d.core c).slot t r
    | none => d
  d.setPend c (some { thread := t, due := d.now + 2 })

/-- The core R264 chooses for thread `t`. -/
def Dev.chooseCore (d : Dev) (t : Nat) : Option Nat :=
  let p : Int := (d.thr t).pri.toNat
  let l := (d.thr t).last.toNat
  if d.affOk t l && decide (d.runPri l < p) then some l
  else
    let best := (List.range 4).foldl
      (fun (b : Option Nat) c => if d.affOk t c then
          match b with
          | some x => if d.runPri c < d.runPri x then some c else b
          | none => some c
        else b) none
    best.bind (fun c => if d.runPri c < p then some c else none)

/-- Place a READY thread (R264): on a core, or in its ready list. Nothing is switched while the scheduler is disabled. -/
def Dev.place (t : Nat) (head : Bool) (d : Dev) : Dev :=
  match if d.on TS_CTRL_EN then d.chooseCore t else none with
  | some c => d.requestSwitch c t
  | none => d.enqueue t head

/-- A thread becomes READY and is placed. -/
def Dev.becomeReady (t : Nat) (head : Bool) (d : Dev) : Dev :=
  ((d.modThr t (fun x => { x with state := 1 })).traceThr 1 t 0).place t head

/-- The thread R265 chooses for core `c`: the oldest of the highest level whose AFF includes it. -/
def Dev.pickFor (d : Dev) (c : Nat) : Option Nat :=
  ((List.range 32).reverse.flatMap (fun p => d.readyAt p)).find? (fun t => d.affOk t c)

/-- Core `c` has no running thread: it takes the next one, unless a switch is pending (R265). -/
def Dev.dispatch (c : Nat) (d : Dev) : Dev :=
  if (d.pendOn c).isSome || (d.runOn c).isSome || !d.on TS_CTRL_EN then d
  else
    match d.pickFor c with
    | some t => (d.unready t).requestSwitch c t
    | none => d

/-- The running thread of core `c` stops: its pc and STATUS go to its bank, and it has run until now (R267). -/
def Dev.parkRunning (c : Nat) (d : Dev) : Dev :=
  match d.runOn c with
  | some t => (d.modCore c CoreSt.park).modThr t (fun x => { x with ran := d.now + 1 })
  | none => d

/-- The running thread of core `c` leaves it: the core stops issuing and takes the next thread. -/
def Dev.leaveCore (c : Nat) (d : Dev) : Dev :=
  (((d.parkRunning c).modCore c (fun x => { x with idle := true })).setRun c none).dispatch c

/-! ### Switches, fills and empties (R266 to R268) -/

/-- The slot of core `c` that holds thread `t` settled. -/
def Dev.slotOf (d : Dev) (c t : Nat) : Option Nat :=
  (List.range 4).find? (fun k => ((d.core c).bslot k).thread = some t && ((d.core c).bslot k).move = 0)

/-- The pre-empted thread goes to the head of its level (R263), unless a switch of another core to it is pending or it is the incoming one. -/
def Dev.preempted (r t : Nat) (d : Dev) : Dev :=
  let d := d.modThr r (fun x => { x with state := 1 })
  if (d.pendCore r).isSome ∨ r = t then d else d.enqueue r true

/-- A thread that has not run since it was FREE starts with one live frame (R237; log entry 224). -/
def Dev.startFrames (c t : Nat) (d : Dev) : Dev :=
  if (d.thr t).fresh then d.modCore c (fun x => { x with st := { x.st with wres := 1 } }) else d

/-- The switch pending to core `c` acts at its next boundary (R243, R266): its request has reached the core and the incoming thread is resident. -/
def Dev.switchDue (d : Dev) (c : Nat) : Bool :=
  !(d.core c).st.tw && (d.pendOn c).any (fun q => decide (q.due ≤ d.now) && (d.slotOf c q.thread).isSome)

/-- A pending switch acts (R266): at a boundary outside trap mode, with the incoming thread resident. -/
def Dev.doSwitch (c : Nat) (d : Dev) : Dev :=
  match d.pendOn c with
  | none => d
  | some q =>
    if d.now < q.due ∨ (d.core c).st.tw ∨ ¬ d.on (CP_STAT_RUN c) then d
    else
      match d.slotOf c q.thread with
      | none => d
      | some k =>
        let out := tget 0 d.sched.lastOn c
        let d := match d.runOn c with
          | some r => ((d.setPend c none).parkRunning c).preempted r q.thread
          | none => d.setPend c none
        let d := (d.modCore c (fun x => x.enter k)).startFrames c q.thread
        let d := d.modThr q.thread (fun x =>
          { x with state := 2, last := BitVec.ofNat 2 c, fresh := false,
                   swin := if x.swin = BitVec.allOnes 32 then x.swin else x.swin + 1 })
        let d := d.setRun c (some q.thread)
        let d := (d.setReg (TS_COREc_WAIT c) 0).setReg (TS_COREc_TMO c) 0
        let d := (d.wr (TS_COREc_WAKE_CAUSE c) (d.thr q.thread).wcause).setReg (TS_COREc_WVAL c) (d.thr q.thread).wval
        let d := (d.inc TS_CNT0_SWITCH).inc (CP_CNT1_SWITCH c)
        d.trace 0 c k q.thread out

/-- A bank transfer of core `c` is under way. -/
def Dev.moving (d : Dev) (c : Nat) : Bool := (List.range 4).any (fun k => ((d.core c).bslot k).move ≠ 0)

/-- Begin a bank transfer of slot `k` (R267): 1 fill, 2 empty; 72 CCLK are 96 ACLK. -/
def Dev.startMove (c k move t : Nat) (d : Dev) : Dev :=
  let d := d.modCore c (fun x => x.setSlot k { x.bslot k with move := move, mover := t })
  { d with sched := { d.sched with moveEnd := tset 0 d.sched.moveEnd c (d.now + 96) } }

/-- A slot of core `c` that a fill can take: no thread, no transfer, and not the active one unless the core is idle. -/
def Dev.freeBank (d : Dev) (c : Nat) : Option Nat :=
  let x := d.core c
  (List.range 4).find? (fun k => (x.bslot k).thread = none && (x.bslot k).move = 0 && (k ≠ x.slot || x.idle))

/-- The slot of core `c` to empty (R267): the one whose thread ran least recently, the running and the pending thread excluded; the lowest of
several that never ran (log entry 225). -/
def Dev.evictable (d : Dev) (c : Nat) : Option Nat :=
  let x := d.core c
  let ok := fun k => match (x.bslot k).thread with
    | some t => (x.bslot k).move = 0 && d.runOn c ≠ some t && !(d.pendOn c).any (fun q => q.thread = t)
    | none => false
  let ran := fun k => (d.thr ((x.bslot k).thread.getD 0)).ran
  ((List.range 4).filter ok).foldl (fun (b : Option Nat) k => match b with
    | some j => if ran k < ran j then some k else b
    | none => some k) none

/-- What core `c` fills next (R267): the pending thread where it is not resident, else the prefetch target, the thread R265 would choose; none where
that one is resident here. -/
def Dev.target (d : Dev) (c : Nat) : Option Nat :=
  match (d.pendOn c).filter (fun q => (d.slotOf c q.thread).isNone) with
  | some q => some q.thread
  | none => if ¬ d.on TS_CTRL_EN then none else (d.pickFor c).filter (fun t => (d.slotOf c t).isNone)

/-- Thread `t` is being moved somewhere. -/
def Dev.inMove (d : Dev) (t : Nat) : Bool :=
  (List.range 4).any (fun c => (List.range 4).any (fun k => ((d.core c).bslot k).move ≠ 0 && ((d.core c).bslot k).mover = t))

/-- Begin the transfer core `c`'s prefetch target needs (R267, R268). A thread resident elsewhere is emptied there first where a switch to it is
pending here (log entry 63). -/
def Dev.prefetch (c : Nat) (d : Dev) : Dev :=
  match d.target c with
  | none => d
  | some t =>
    if d.moving c || d.inMove t then d
    else
      match (d.thr t).home with
      | some (c2, k2) =>
        if c2 ≠ c ∧ (d.pendOn c).any (fun q => q.thread = t) ∧ ¬ d.moving c2 ∧ d.runOn c2 ≠ some t then d.startMove c2 k2 2 t else d
      | none =>
        match d.freeBank c with
        | some k => d.startMove c k 1 t
        | none =>
          match d.evictable c with
          | some k => d.startMove c k 2 (((d.core c).bslot k).thread.getD 0)
          | none => d

/-- The slot of core `c` in transfer `move`, once its 96 ACLK have passed. -/
def Dev.moveDone (d : Dev) (c move : Nat) : Option Nat :=
  if d.now < tget 0 d.sched.moveEnd c then none else (List.range 4).find? (fun k => ((d.core c).bslot k).move = move)

/-- A fill ends (R267, R268): the image is in the slot. The image of a thread killed meanwhile is discarded, that of a suspended one emptied. -/
def Dev.fillDone (c : Nat) (d : Dev) : Dev :=
  match d.moveDone c 1 with
  | none => d
  | some k =>
    let t := ((d.core c).bslot k).mover
    let r := d.memReadAll (d.thr t).bank.toNat 1152
    let f := r.2.fresh
    let bs := if r.1.1 = 0 then r.1.2 else (List.range 1152).map (fun i => BitVec.ofNat 8 (f.1 / 2 ^ (8 * i)))
    let d := if r.1.1 = 0 then r.2 else f.2
    let d := (d.inc TS_CNT1_FILL).trace 6 c k t 0
    if (d.thr t).state = 0 then d.modCore c (fun x => x.setSlot k BankSlot.reset)
    else
      let d := d.modCore c (fun x => x.setSlot k { bank := bankOfBytes bs, thread := some t, move := 0, mover := 0 })
      let d := d.modThr t (fun x => { x with home := some (c, k) })
      if (d.thr t).state = 5 then d.startMove c k 2 t else d

/-- An empty transfer ends (R267): the image is in memory and RES cleared. -/
def Dev.emptyDone (c : Nat) (d : Dev) : Dev :=
  match d.moveDone c 2 with
  | none => d
  | some k =>
    let b := (d.core c).bslot k
    let t := b.mover
    let d := if (d.thr t).state = 0 then d else
      (d.memWriteAll (d.thr t).bank.toNat b.bank.bytes).2.modThr t (fun x => { x with home := none })
    ((d.modCore c (fun x => x.setSlot k BankSlot.reset)).inc TS_CNT1_EVICT).trace 7 c k t 0

/-! ### Wakes (R269 to R273) -/

/-- The event-table entry of thread `t`'s timeout (R269). -/
def Dev.wakeEntry (d : Dev) (t : Nat) : Option Nat :=
  let x := d.thr t
  (d.ang.entries.find? (fun e => e.2.any (fun q => q.act = 6 && q.w2.toNat = t && q.w3.toNat = 2 ^ 31 + x.wtag.toNat))).map (fun e => e.1)

/-- Delete thread `t`'s timeout (R272); an entry that issues in this ACLK issues, and is stale when it arrives. -/
def Dev.dropWake (t : Nat) (d : Dev) : Dev :=
  match d.wakeEntry t with
  | none => d
  | some i =>
    match d.entry i with
    | some e => if (d.list e.list).head? = some i ∧ d.canIssue e.list then d else d.dropEntry i
    | none => d

/-- Wake a waiting thread with a cause (1 token, 2 timeout, 3 wake) and value: READY in the next ACLK (R273). -/
def Dev.wakeThr (t cause : Nat) (val : BitVec 32) (d : Dev) : Dev :=
  let x := d.thr t
  let d := if cause = 1 ∧ x.wtt then d.dropWake t else d
  let d := if x.wtv then
      d.setTok x.wtok.toNat { d.tokEnt x.wtok.toNat with wait := (d.tokEnt x.wtok.toNat).wait.filter (fun k => k ≠ t) } else d
  let d := d.modThr t (fun x => { x with wtv := false, wtt := false, wcause := cause, wval := val })
  { d with sched := { d.sched with woken := d.sched.woken ++ [t] } }

/-- The waiter of a counting entry that wakes: the highest PRI, the oldest among equals (R270). -/
def Dev.bestWaiter (d : Dev) (l : List Nat) : Option Nat :=
  l.foldl (fun (b : Option Nat) t => match b with
    | some x => if (d.thr x).pri < (d.thr t).pri then some t else b
    | none => some t) none

/-- Apply a token to entry `e` (R270). MODE 3 acts as disabled (log entry 70). -/
def Dev.applyToken (e : Nat) (d : Dev) : Dev :=
  let x := d.tokEnt e
  if x.mode = 1 then
    match d.bestWaiter x.wait with
    | some t => (d.wakeThr t 1 0).traceThr 3 t (e * 2 ^ 16)
    | none => d.setTok e { x with count := if x.count = BitVec.allOnes 16 then x.count else x.count + 1 }
  else if x.mode = 2 then
    if x.wait = [] then d.setTok e { x with count := 1 }
    else forList x.wait (fun t d => (d.wakeThr t 1 0).traceThr 3 t (e * 2 ^ 16)) d
  else ((d.inc TS_CNT2_TDROP).schedFlag TS_STAT_TDROP).f0 0x09 e

/-- A stale WAKE (R271). -/
def Dev.staleWake (d : Dev) : Dev := d.inc TS_CNT2_STALEW

/-- A thread is WAITING or DELAYED. -/
def Thread.blocked (x : Thread) : Bool := x.state = 3 || x.state = 4

/-- A timed wake with tag `tag` (R271). -/
def Dev.timedWake (t tag : Nat) (d : Dev) : Dev :=
  let x := d.thr t
  if x.blocked && x.wtt && decide (x.wtag.toNat = tag) then (d.wakeThr t 2 0).traceThr 4 t 0 else d.staleWake

/-- An unconditional wake (R271). -/
def Dev.uncondWake (t : Nat) (val : BitVec 32) (d : Dev) : Dev :=
  let x := d.thr t
  if x.blocked && !d.sched.woken.contains t then d.wakeThr t 3 val
  else if x.state = 1 ∨ x.state = 2 ∨ x.blocked then d.setThr t { x with wpend := true, wval := val }
  else d.staleWake

/-- Take the oldest item of the arrival queue where it is one that `p` accepts: at most one per ACLK (R270), and a WAKE not before the ACLK after
its arrival, so that the tokens of its ACLK go first (R272; log entry 61). -/
def Dev.takeArrival (p : SchedTok → Bool) (d : Dev) : Option (SchedTok × Dev) :=
  match d.schedIn with
  | [] => none
  | k :: rest =>
    if p k && decide (d.sched.applied ≤ d.now) && (!k.wake || decide (k.at_ < d.now)) then
      some (k, { d with schedIn := rest, sched := { d.sched with applied := d.now + 1 } })
    else none

/-- SCHEDULER_TOKEN: the oldest item is a token. -/
def Dev.schedToken (d : Dev) : Dev :=
  match d.takeArrival (fun k => !k.wake) with
  | some (k, d) => d.applyToken (k.num % 4096)
  | none => d

/-- TIMED_WAKE: the oldest item is a timed wake. -/
def Dev.schedTimed (d : Dev) : Dev :=
  match d.takeArrival (fun k => k.wake && wbit k.value 31) with
  | some (k, d) => d.timedWake (k.num % 512) (wbits k.value 15 0)
  | none => d

/-- UNCONDITIONAL_WAKE: the oldest item is an unconditional wake. -/
def Dev.schedUncond (d : Dev) : Dev :=
  match d.takeArrival (fun k => k.wake && !wbit k.value 31) with
  | some (k, d) => d.uncondWake (k.num % 512) (w32 (wbits k.value 30 0))
  | none => d

/-! ### YIELD (R269) -/

/-- The AD7 stamp of the first tick at or after `n` µs from now (R49). -/
def Dev.tickStamp (d : Dev) (n : Nat) : Nat :=
  let at_ := (d.stamp 7).toNat * 1000000 + n * 2 ^ 32
  let stampOf := fun m => (m * 2 ^ 32 + 999999) / 1000000
  let m := at_ / 2 ^ 32
  if at_ ≤ stampOf m * 1000000 then stampOf m else stampOf (m + 1)

/-- Insert the timeout of thread `t` through the port TS_CFG names (R269); log entry 69. -/
def Dev.insertWake (t us : Nat) (d : Dev) : Dev :=
  let p := d.rd TS_CFG_INSPORT
  let l := d.rd TS_CFG_DLIST
  let s := d.tickStamp us
  let w0 := w32 s
  let w1 := w32 (bits s 39 32 + 6 * 2 ^ 8)
  let a1 := w32 (2 ^ 31 + (d.thr t).wtag.toNat)
  let d := (((d.setReg (ET_INSp_W0 p) w0).setReg (ET_INSp_W1 p) w1).setReg (ET_INSp_W2 p) (w32 t)).setReg (ET_INSp_W3 p) a1
  let r := (d.wr (ET_INSp_CTL_LIST p) l).insert w0 w1 (w32 t) a1 l
  (r.2.2.wr (ET_INSp_STAT_RES p) r.1).wr (ET_INSp_STAT_IDX p) r.2.1

/-- A wake that does not block (R269): the running thread goes on with its cause and value shown (log entry 66). -/
def Dev.noBlock (c t cause : Nat) (val : BitVec 32) (d : Dev) : Dev :=
  ((d.modThr t (fun x => { x with wcause := cause, wval := val })).wr (TS_COREc_WAKE_CAUSE c) cause).setReg (TS_COREc_WVAL c) val

/-- The YIELD of core `c` reaches the scheduler (R269, R265). -/
def Dev.schedYield (c : Nat) (d : Dev) : Dev :=
  match if d.on TS_CTRL_EN then d.runOn c else none with
  | none => d
  | some t =>
    let tv := d.on (TS_COREc_WAIT_TV c)
    let tt := d.on (TS_COREc_WAIT_TT c)
    let tok := d.rd (TS_COREc_WAIT_TOKEN c)
    if !tv && !tt then
      let d := (d.modThr t (fun x => { x with state := 1 })).enqueue t false
      if (d.pendOn c).isNone && d.pickFor c = some t then (d.unready t).modThr t (fun x => { x with state := 2 }) else d.leaveCore c
    else
      let d := d.modThr t (fun x => { x with wtag := x.wtag + 1 })
      let e := d.tokEnt tok
      if (d.thr t).wpend then (d.modThr t (fun x => { x with wpend := false })).noBlock c t 3 (d.thr t).wval
      else if tv && (e.mode = 1 || e.mode = 2) && decide (e.count ≠ 0) then
        ((d.setTok tok { e with count := if e.mode = 2 then 0 else e.count - 1 }).noBlock c t 1 0).trace 3 c (d.core c).slot t (tok * 2 ^ 16)
      else
        let d := d.modThr t (fun x => { x with state := if tv then 3 else 4, wtok := BitVec.ofNat 12 tok, wtv := tv, wtt := tt })
        let d := if tv then d.setTok tok { e with wait := e.wait ++ [t] } else d
        let d := if tt then d.insertWake t (max 1 (min 120000000 (d.rd (TS_COREc_TMO_TMO c)))) else d
        (d.traceThr 2 t 0).leaveCore c

/-! ### Commands (R274) -/

/-- The result of a command. -/
def Dev.cmdRes (r : Nat) (d : Dev) : Dev := d.wr TS_CMDSTAT_RES r

/-- A thread leaves its ready list, its wait queue, a pending switch, or its core. -/
def Dev.detach (t : Nat) (d : Dev) : Dev :=
  let x := d.thr t
  let d := d.unready t
  let d := if x.wtv then
      d.setTok x.wtok.toNat { d.tokEnt x.wtok.toNat with wait := (d.tokEnt x.wtok.toNat).wait.filter (fun k => k ≠ t) } else d
  let d := { d with sched := { d.sched with woken := d.sched.woken.filter (fun k => k ≠ t) } }
  let d := d.modThr t (fun x => { x with wtv := false, wtt := false })
  let d := match d.pendCore t with
    | some c => (d.setPend c none).dispatch c
    | none => d
  match d.coreOf t with
  | some c => d.leaveCore c
  | none => d

/-- Discard the resident image of a killed thread; a fill in progress ends first (R268). -/
def Dev.discardBank (t : Nat) (d : Dev) : Dev :=
  let d := match (d.thr t).home with
    | some (c, k) => if ((d.core c).bslot k).move = 1 then d else d.modCore c (fun x => x.setSlot k BankSlot.reset)
    | none => d
  d.modThr t (fun x => { x with home := none })

/-- A running thread outside its AFF is pre-empted (R274): its core takes the next thread, and it is placed anew at the head of its level (log entry
68). The PREEMPT record of a core with no candidate names the thread itself. -/
def Dev.preemptAff (c t : Nat) (d : Dev) : Dev :=
  let told := (d.pendOn c).isSome
  let d := (d.modThr t (fun x => { x with state := 1 })).leaveCore c
  let d := if told then d else d.trace 5 c (d.core c).slot (((d.pendOn c).map (fun q => q.thread)).getD t) t
  if (d.pendCore t).isSome then d else d.place t true

/-- The thread that is about to take core `c` from its running thread `t`: the pending one, or a ready one of higher PRI. -/
def Dev.contender (d : Dev) (c t : Nat) : Option Nat :=
  match d.pendOn c with
  | some q => some q.thread
  | none => (d.pickFor c).filter (fun u => (d.thr t).pri < (d.thr u).pri)

/-- A running thread whose PRI has changed is re-placed by R264 (R274; log entry 68): with nobody to take its core it stays; where a thread of higher
or equal PRI takes the core, R264 seeks another; a pending thread of lower PRI gives way again. -/
def Dev.replaceRun (c t : Nat) (d : Dev) : Dev :=
  let d := match d.pendCore t with
    | some c2 => (d.setPend c2 none).dispatch c2
    | none => d
  match d.contender c t with
  | none => d
  | some u =>
    if (d.thr u).pri < (d.thr t).pri then (d.setPend c none).enqueue u true
    else
      let d := if (d.pendOn c).isSome then d else (d.unready u).requestSwitch c u
      match d.chooseCore t with
      | some c2 => d.requestSwitch c2 t
      | none => d

/-- A thread whose placing has changed is placed anew (R274): a ready one by R264, a running one that may stay by `Dev.replaceRun`. -/
def Dev.replaceThr (t : Nat) (d : Dev) : Dev :=
  match d.coreOf t with
  | some c =>
    let d := d.setRun c (some t)
    if ¬ d.affOk t c then d.preemptAff c t else d.replaceRun c t
  | none =>
    if (d.thr t).state = 1 then
      match d.pendCore t with
      | some c => ((d.setPend c none).place t true).dispatch c
      | none => (d.unready t).place t false
    else d

/-- The operations of Table 10-2. -/
def Dev.threadCmd (op t : Nat) (arg : BitVec 32) (d : Dev) : Dev :=
  let x := d.thr t
  let d := d.traceThr 8 t 0
  match op with
  | 1 => if x.state = 0 ∨ x.state = 5 then (d.cmdRes 0).becomeReady t false else d.cmdRes 1
  | 2 => if x.state = 0 then d.cmdRes 1 else ((d.cmdRes 0).detach t).modThr t (fun x => { x with state := 5 })
  | 3 =>
    if x.state = 0 then d.cmdRes 1
    else
      let was := d.readyAt x.pri.toNat
      let d := if was.contains t then d.unready t else d
      let d := (d.cmdRes 0).modThr t (fun x => { x with pri := BitVec.ofNat 5 arg.toNat })
      if was.contains t then d.place t false else d.replaceThr t
  | 4 => if x.state = 0 then d.cmdRes 1 else
      let d := (d.cmdRes 0).modThr t (fun x => { x with aff := BitVec.ofNat 4 arg.toNat })
      match d.coreOf t with
      | some c => if d.affOk t c then d else d.preemptAff c t
      | none => d
  | 5 => (((d.cmdRes 0).detach t).modThr t (fun x => { x with state := 0, wpend := false, fresh := true })).discardBank t
  | 6 => (d.cmdRes 0).uncondWake t (w32 (wbits arg 30 0))
  | _ => d.cmdRes 2

/-- A command (R274): for a thread that runs on a core in trap mode it waits for the core's boundary. -/
def Dev.schedCmd (op t : Nat) (d : Dev) : Dev :=
  let arg := d.reg TS_CMDARG
  match d.coreOf t with
  | some c =>
    if (d.core c).st.tw then
      ({ d with sched := { d.sched with cmds := d.sched.cmds ++ [(op, t, arg)] } }).wr TS_CMDSTAT_BUSY 1
    else d.threadCmd op t arg
  | none => d.threadCmd op t arg

/-- A write of TS_CMD with GO by thread and operation. -/
def Dev.tsCmd (op t : Nat) (d : Dev) : Dev := ((d.wr TS_CMD_THREAD t).wr TS_CMD_OP op).schedCmd op t

/-! ### Registers that select (R262, R276) -/

/-- A descriptor's word (Table 10-1). -/
def Thread.word (x : Thread) : Nat → BitVec 32
  | 0 => w32 (x.state + 8 * x.pri.toNat + 2 ^ 8 * x.aff.toNat + 2 ^ 12 * x.last.toNat + 2 ^ 14 * b2n x.wpend + 2 ^ 15 * b2n x.home.isSome
      + 2 ^ 16 * (x.home.getD (0, 0)).2)
  | 1 => w32 (x.bank.toNat / 128 * 128)
  | 2 => w32 (x.bank.toNat / 2 ^ 32)
  | 3 => w32 (x.wtok.toNat + 2 ^ 12 * b2n x.wtv + 2 ^ 13 * b2n x.wtt + 2 ^ 16 * x.wtag.toNat)
  | 4 => x.wval
  | 5 => x.swin
  | _ => 0

/-- The thread with a descriptor word written; read-only fields stay. -/
def Thread.putWord (x : Thread) (i : Nat) (v : BitVec 32) : Thread :=
  match i with
  | 0 => { x with state := wbits v 2 0, pri := BitVec.ofNat 5 (wbits v 7 3), aff := BitVec.ofNat 4 (wbits v 11 8), wpend := wbit v 14,
                  fresh := x.fresh || wbits v 2 0 = 0 }
  | 1 => { x with bank := BitVec.ofNat 40 (x.bank.toNat / 2 ^ 32 * 2 ^ 32 + v.toNat / 128 * 128) }
  | 2 => { x with bank := BitVec.ofNat 40 (wbits v 7 0 * 2 ^ 32 + x.bank.toNat % 2 ^ 32) }
  | 3 => { x with wtok := BitVec.ofNat 12 (wbits v 11 0), wtv := wbit v 12, wtt := wbit v 13 }
  | _ => x

/-- A write of TS_DDATA (R262): only to a FREE or SUSPENDED thread; a STATE of READY places it, and any other stands as it was written (log entry
226). -/
def Dev.descWrite (v : BitVec 32) (d : Dev) : Dev :=
  let t := d.rd TS_DSEL_THREAD
  let i := d.rd TS_DSEL_WORD
  let x := d.thr t
  if x.state ≠ 0 ∧ x.state ≠ 5 then d.schedFlag TS_STAT_CFGERR
  else
    let y := x.putWord i v
    if i = 0 ∧ y.state = 1 then (d.setThr t { y with state := x.state }).becomeReady t false else d.setThr t y

/-- TS_TOKCFG of the selected entry. -/
def Dev.tokCfg (d : Dev) : BitVec 32 :=
  let x := d.tokEnt (d.rd TS_TOKSEL_TOKEN)
  w32 (x.mode.toNat + 2 ^ 16 * x.count.toNat)

/-- TS_TOKSTAT of the selected entry. -/
def Dev.tokStat (d : Dev) : BitVec 32 :=
  let x := d.tokEnt (d.rd TS_TOKSEL_TOKEN)
  w32 (x.wait.headD 0 + 2 ^ 16 * x.wait.length)

/-- A write of TS_TOKCFG (R276). -/
def Dev.tokCfgWrite (v : BitVec 32) (d : Dev) : Dev :=
  let e := d.rd TS_TOKSEL_TOKEN
  let x := d.tokEnt e
  if wbits v 1 0 = 0 ∧ x.wait ≠ [] then d.schedFlag TS_STAT_CFGERR
  else d.setTok e { x with mode := BitVec.ofNat 2 (wbits v 1 0), count := BitVec.ofNat 16 (wbits v 31 16) }

/-- A write of TS_POST with GO (R270). -/
def Dev.tsPost (t : Nat) (d : Dev) : Dev := (d.wr TS_POST_TOKEN t).arrive 2 t 0

/-- A write of TS_CTRL, TS_CFG, TS_TRBASE or TS_TRSIZE (R276). -/
def Dev.tsWrite (a : Nat) (v : BitVec 32) (d : Dev) : Dev :=
  if (a = TS_CFG ∨ a = TS_TRBASE_LO ∨ a = TS_TRBASE_HI ∨ a = TS_TRSIZE) ∧ (d.on TS_CTRL_TREN ∨ d.on TS_CTRL_EN) then
    d.schedFlag TS_STAT_CFGERR
  else if a = TS_DDATA then d.descWrite v
  else if a = TS_TOKCFG then d.tokCfgWrite v
  else if a = TS_CMD then
    let d := (d.wr TS_CMD_THREAD (wbits v 8 0)).wr TS_CMD_OP (wbits v 15 12)
    if wbit v 31 then d.schedCmd (wbits v 15 12) (wbits v 8 0) else d
  else if a = TS_POST then if wbit v 31 then d.tsPost (wbits v 11 0) else d.wr TS_POST_TOKEN (wbits v 11 0)
  else if a = TS_TRRP then (d.plainWrite a v).traceGap
  else if a = TS_CLR then if wbit v 0 then ((d.setReg TS_CNT0 0).setReg TS_CNT1 0).setReg TS_CNT2 0 else d
  else d.plainWrite a v

/-- A read of a TS register. -/
def Dev.tsRead (d : Dev) (a : Nat) : BitVec 32 :=
  if a = TS_DDATA then (d.thr (d.rd TS_DSEL_THREAD)).word (d.rd TS_DSEL_WORD)
  else if a = TS_TOKCFG then d.tokCfg
  else if a = TS_TOKSTAT then d.tokStat
  else d.reg a

/-! ### One ACLK -/

/-- The commands whose core has left trap mode act (R274). -/
def Dev.runCmds (d : Dev) : Dev :=
  let free := fun (q : Nat × Nat × BitVec 32) => match d.coreOf q.2.1 with
    | some c => !(d.core c).st.tw
    | none => true
  let now_ := d.sched.cmds.filter free
  let rest := d.sched.cmds.filter (fun q => !free q)
  let d := forList now_ (fun q d => d.threadCmd q.1 q.2.1 q.2.2) { d with sched := { d.sched with cmds := rest } }
  d.wrb TS_CMDSTAT_BUSY (rest ≠ [])

/-- Threads that become ready in one ACLK, in descending priority and ascending number (R264). -/
def Dev.readyOrder (d : Dev) (ts : List Nat) : List Nat :=
  (List.range 32).reverse.flatMap (fun p => (List.range 512).filter (fun t => ts.contains t && decide ((d.thr t).pri.toNat = p)))

/-- The scheduler in a new ACLK (R265, R267, R273, R274). -/
def Dev.tickSched (d : Dev) : Dev :=
  let d := if d.schedWait = [] then d else d.enterArrivals []
  let ts := if d.sched.woken = [] then [] else d.readyOrder d.sched.woken
  let d := { d with sched := { d.sched with woken := [] } }
  let d : Dev := forList ts (fun t d => d.becomeReady t false) d
  let d := if d.sched.cmds = [] then d else d.runCmds
  if d.sched.threads = [] then d else forUpTo 4 (fun c d => (d.dispatch c).prefetch c) d

/-! ### The commands -/

/-- SWITCH (R266). -/
def execSwitch (c : Fin 4) (s : State) : Host.Outcome State Fault Refusal := onDev (Dev.doSwitch c.val) s
/-- BANK_FILL_DONE (R267). -/
def execBankFillDone (c : Fin 4) (s : State) : Host.Outcome State Fault Refusal := onDev (Dev.fillDone c.val) s
/-- BANK_EMPTY_DONE (R267). -/
def execBankEmptyDone (c : Fin 4) (s : State) : Host.Outcome State Fault Refusal := onDev (Dev.emptyDone c.val) s
/-- SCHEDULER_TOKEN (R270). -/
def execSchedulerToken (s : State) : Host.Outcome State Fault Refusal := onDev Dev.schedToken s
/-- TIMED_WAKE (R271). -/
def execTimedWake (s : State) : Host.Outcome State Fault Refusal := onDev Dev.schedTimed s
/-- UNCONDITIONAL_WAKE (R271). -/
def execUnconditionalWake (s : State) : Host.Outcome State Fault Refusal := onDev Dev.schedUncond s
/-- START (R274). -/
def execStart (t : Fin 512) (s : State) : Host.Outcome State Fault Refusal := onDev (Dev.tsCmd 1 t.val) s
/-- SUSPEND (R274). -/
def execSuspend (t : Fin 512) (s : State) : Host.Outcome State Fault Refusal := onDev (Dev.tsCmd 2 t.val) s
/-- SETPRI (R274). -/
def execSetpri (t : Fin 512) (s : State) : Host.Outcome State Fault Refusal := onDev (Dev.tsCmd 3 t.val) s
/-- SETAFF (R274). -/
def execSetaff (t : Fin 512) (s : State) : Host.Outcome State Fault Refusal := onDev (Dev.tsCmd 4 t.val) s
/-- KILL (R274). -/
def execKill (t : Fin 512) (s : State) : Host.Outcome State Fault Refusal := onDev (Dev.tsCmd 5 t.val) s
/-- WAKE_COMMAND (R274). -/
def execWakeCommand (t : Fin 512) (s : State) : Host.Outcome State Fault Refusal := onDev (Dev.tsCmd 6 t.val) s
/-- TS_POST (R270). -/
def execTsPost (t : Fin 4096) (s : State) : Host.Outcome State Fault Refusal := onDev (Dev.tsPost t.val) s
/-- TS_CLR (Table 10-6). -/
def execTsClr (s : State) : Host.Outcome State Fault Refusal := onDev (Dev.tsWrite TS_CLR 1) s

end Sys2Proof.Machine
end

