-- ==== Sys2Proof/Machine/Actions.lean ====
section
/-! DEFINITION. The actions of the event table in their ACLK t_f (R36, R41; Table 02-3), and the MPER latches of the trackers (R22). -/
namespace Sys2Proof.Machine

/-! ### FIRE (R36, R110, R135) -/

/-- ARG1 of a FIRE or STROBE names a step of its task. -/
def Action.tv (a : Action) : Bool := wbit a.arg1 6

/-- The task of a FIRE or STROBE. -/
def Action.task (a : Action) : Nat := wbits a.arg1 5 0

/-- A FIRE with TV = 0 takes effect: a firing request for the group, in this ACLK. -/
def Dev.actFire (d : Dev) : Dev :=
  match d.takeAction (fun a => a.act = 1 && !a.tv) with
  | none => d
  | some (a, d) =>
    let n := wbits a.arg0 6 0
    if d.isleLive n then d.fireReq n (wbits a.arg0 11 8) a.tf none else d.actionDrop a.list

/-- A FIRE with TV = 1 goes to the run-ahead controller in the ACLK of its issue (R135). -/
def Dev.actStepOpen (d : Dev) : Dev :=
  match takeFirst (fun (a : Action) => a.act = 1 && a.tv && decide (a.tf ≤ d.now + 4)) d.ang.acts with
  | none => d
  | some (a, rest) =>
    (({ d with ang := { d.ang with acts := rest } } : Dev).taskFire a.task (a.tf - 4) a.tf).showQlen

/-! ### STROBE (R32, R143, R151, R153, R154, R167) -/

/-- The latch of step `k` of task `t` in ACLK `l` (R143): the measured angle of PDOM for PSRC = 0, the PDOM velocity; the samples of PSRC = 1 follow with
the strobe word. The policy pair in force is that of its check (R144). -/
def Dev.stepLatch (t k l : Nat) (d : Dev) : Dev :=
  let p := d.rd (AHD_LTt_CFG_PDOM t)
  let m := if d.on (AHD_LTt_CFG_PSRC t) then 0 else d.measuredAngle p
  let v := (d.ad p).omega
  (d.modStep t k (fun s => { s with latch := some l, meas := m, vel := v, pair := ((d.task t).pol, (d.task t).res, (d.task t).tol) })).advanceLatch t

/-- A STROBE with TV = 1 reaches task `t` in ACLK `l` with its entry's stamp (R133, R151, R153): the latch of the oldest step not latched yet. -/
def Dev.stepStrobe (t l : Nat) (s : BitVec 40) (d : Dev) : Dev :=
  let st := d.taskState t
  if st ≠ 1 ∧ st ≠ 2 then d
  else
    let x := d.task t
    if s ≠ BitVec.ofNat 40 x.latchS.toNat then (d.taskFlag t (AHD_LTt_STAT_STEPERR t)).haltTask 2 t
    else if st = 2 then (d.skipFront t).advanceLatch t
    else if x.steps.any (fun q => q.latch.isSome) then (d.skipLater t x.latchK).advanceLatch t
    else if (d.step? t x.latchK).isNone then (d.skipFront t).advanceLatch t
    else d.stepLatch t x.latchK l

/-- The domains whose measured angle a STROBE latches (R32): those of its mask, and PDOM of its task. -/
def Dev.strobeDomains (d : Dev) (a : Action) : List Nat :=
  (List.range 8).filter (fun n => wbit a.arg0 (16 + n) ||
    (a.tv && !d.on (AHD_LTt_CFG_PSRC a.task) && d.rd (AHD_LTt_CFG_PDOM a.task) = n))

/-- A member of strobe group `g` is being loaded (R161). -/
def Dev.strobeHeld (d : Dev) (g : Nat) : Bool :=
  d.hb.gio.any (fun e => e.2.held && d.gioSrc e.1 = 2 && d.rd (HP_GIOg_CFG_STG e.1) = g) ||
  d.hb.fifo.any (fun e => e.2.held && d.rd (FQ_Qf_CFG_STG e.1) = g)

/-- A STROBE takes effect (R167): measured angles and the step's latch first, then the ports of the group; during a full image's load no port takes it
(R161). -/
def Dev.actStrobe (d : Dev) : Dev :=
  match d.takeAction (fun a => a.act = 2) with
  | none => d
  | some (a, d) =>
    let g := wbits a.arg0 5 0
    let d := forList (d.strobeDomains a) Dev.latchMeasured d
    let d := if a.tv then d.stepStrobe a.task a.tf a.stamp else d
    if d.hb.loading then d.actionDrop a.list
    else
      let d := if d.strobeHeld g then d.actionDrop a.list else d
      d.strobePorts g a.tf

/-! ### EDGE (R39, R183) -/

/-- An EDGE is placed (R183): in t_f, at its eighth of t_f − 1 plus the displacement the pair's command held in t_f − 1. -/
def Dev.actEdge (d : Dev) : Dev :=
  match d.takeAction (fun a => a.act = 3) with
  | none => d
  | some (a, d) =>
    let p := wbits a.arg0 5 0
    if d.hb.loading || (d.pair p).held then d.actionDrop a.list
    else
      let off := wbit a.arg0 8
      let c := d.cmdBefore p
      let dis := if wbit a.arg0 9 then (if off then wbits c 31 16 else wbits c 15 0) else 0
      d.placeEdgeAt p a.tf (8 * (a.tf - 1) + d.edgeEighth a + dis) (!off)

/-! ### GATE, DMA, WAKE, POST (R402, R294, R128, R270, R284, R291) -/

/-- A GATE replaces the gate states of a port (R402): dropped while the Ethernet domain is down. -/
def Dev.actGate (d : Dev) : Dev :=
  match d.takeAction (fun a => a.act = 4) with
  | none => d
  | some (a, d) => if d.ethUp then d.wr (EN_Pp_GATE_STATE (wbits a.arg0 2 0)) (wbits a.arg0 15 8) else d.actionDrop a.list

/-- A DMA action queues a trigger at a general engine (R294) or an isle's stream port (R128). -/
def Dev.actDma (d : Dev) : Dev :=
  match d.takeAction (fun a => a.act = 5) with
  | none => d
  | some (a, d) =>
    let e := wbits a.arg0 7 0
    let t := wbits a.arg0 15 8
    if e < 4 then d.dmaTrigger e t
    else if d.isleLive (e - 128) then d.streamTrig (e - 128) t else d.actionDrop a.list

/-- A WAKE reaches the scheduler's arrival queue (R270). -/
def Dev.actWake (d : Dev) : Dev :=
  match d.takeAction (fun a => a.act = 6) with
  | none => d
  | some (a, d) => d.arrive 3 (wbits a.arg0 8 0) a.arg1

/-- A POST sends its payload on VC3 from the event table's NI to a queue of another (R284); to a closed NI it is answered with OFFLINE and counted as dropped (R41,
R291). -/
def Dev.actPost (d : Dev) : Dev :=
  match d.takeAction (fun a => a.act = 7) with
  | none => d
  | some (a, d) =>
    let n := wbits a.arg0 5 0
    let q := wbits a.arg0 15 8
    if d.niClosed n then d.countOffline.actionDrop a.list
    else
      let p : Packet :=
        { src := 39, dst := n, req := a.list, write := true, addr := q, host := false, len := 4, data := wordBytes a.arg1, status := 0, at_ := d.now,
          held := (d.routeWait 39).any (fun c => c.dest = n), vc := 3, codes := [], legs := [] }
      { d with net := { d.net with msgs := d.net.msgs ++ [p] } }

/-! ### MEASUREMENT_LATCH (R22) -/

/-- The MPER period of domain `n` expires (R22): the count of an incremental source or network time is latched. -/
def Dev.measurementLatch (n : Nat) (d : Dev) : Dev :=
  if n = 7 then (if d.now < (d.ad 7).lastLatch + max 1 (d.rd (AU_ADn_TRK_MPER 7)) then d else d.ad7Latch) else d.encLatch n

/-! ### The commands -/

/-- FIRE (R36). -/
def execFire (s : State) : Host.Outcome State Fault Refusal := onDev Dev.actFire s
/-- STEP_OPEN (R135). -/
def execStepOpen (s : State) : Host.Outcome State Fault Refusal := onDev Dev.actStepOpen s
/-- STROBE (R167). -/
def execStrobe (s : State) : Host.Outcome State Fault Refusal := onDev Dev.actStrobe s
/-- EDGE (R183). -/
def execEdge (s : State) : Host.Outcome State Fault Refusal := onDev Dev.actEdge s
/-- GATE (R402). -/
def execGate (s : State) : Host.Outcome State Fault Refusal := onDev Dev.actGate s
/-- DMA (R36). -/
def execDma (s : State) : Host.Outcome State Fault Refusal := onDev Dev.actDma s
/-- WAKE (R36). -/
def execWake (s : State) : Host.Outcome State Fault Refusal := onDev Dev.actWake s
/-- POST (R36). -/
def execPost (s : State) : Host.Outcome State Fault Refusal := onDev Dev.actPost s
/-- MEASUREMENT_LATCH (R22). -/
def execMeasurementLatch (n : Fin 8) (s : State) : Host.Outcome State Fault Refusal := onDev (Dev.measurementLatch n.val) s

end Sys2Proof.Machine
end

