-- ==== Sys2Proof/Machine/Faults.lean ====
section
/-! DEFINITION. F1 repairs (R314, R434 to R436), F2 recovery (R439, R440) and F3 faults (R441). -/
namespace Sys2Proof.Machine

/-! ### F3 (R441) -/

/-- An F3 fault: hardware drives the outputs safe and halts every task; armed change sets and the ICP end as aborted. It lasts until a device reset. -/
def Dev.f3 (src unit : Nat) (d : Dev) : Dev :=
  let d := if d.power.failed then d else d.postFault 3 src unit 1 d.ad7Frac
  let d : Dev := { d with ev := { d.ev with f3 := true, f2Open := none } }
  let d := (d.safeWrite true).ahdDisable 3
  let d := forUpTo 8 (fun f d => d.setHfifo f (d.hfifo f)) d
  let slot := fun (s : Nat) (d : Dev) =>
    if d.rd (AU_MCs_STAT_STATE s) = 1 ∨ d.rd (AU_MCs_STAT_STATE s) = 2 then d.mcAbandon s 3 0x0F else d
  let d := forUpTo 8 slot d
  if d.cfg.icp.phase ≠ 0 then d.icpFail 0x0F 0xFF else d

/-! ### Cores (R241, R439) -/

/-- The address a core starts at (CP_RVEC). -/
def Dev.rvec (d : Dev) (c : Nat) : BitVec 64 := BitVec.ofNat 64 (d.rd64 (CP_RVEC_LO c) (CP_RVEC_HI c)).toNat

/-- Core `c` starts at CP_RVEC with PRIV alone set (R241): nothing happens while its domain is down, or where the firmware's verification failed (R423). -/
def Dev.coreStart (c : Nat) (d : Dev) : Dev :=
  if ¬ d.domUp (96 + c) ∨ d.power.failed then d
  else
    let pc := d.rvec c
    let d := d.modCore c (fun x =>
      { x with pc := pc, slot := 0, st := CStat.start, yieldReq := false, waiting := false, idle := false, haltReq := false })
    (d.wr (CP_STAT_RUN c) 1).wr (CP_STAT_STOPPED c) 0

/-- The threads resident on a core leave it (R439): SUSPEND for each. -/
def Dev.suspendResident (c : Nat) (d : Dev) : Dev :=
  let here := fun (e : Nat × Thread) => e.2.state ≠ 0 && match e.2.home with
    | some h => h.1 = c
    | none => false
  forList ((d.sched.threads.filter here).map (fun e => e.1)) (fun t d => d.threadCmd 2 t 0) d

/-- Every core restarts at CP_RVEC (R241, R416). -/
def Dev.restartCores (d : Dev) : Dev := forUpTo 4 (fun c d => (d.suspendResident c).coreStart c) d

/-! ### F2 (R439, R440) -/

/-- Ten seconds in ACLK. -/
def aclkPer10s : Nat := 10 * aclkPerSec

/-- An F2 fault: firmware undoes what it can and discards the commands in progress (R362, R372); the third within 10 s is F3. Where the boot firmware
never verified, nothing can post the DISCARD event. -/
def Dev.f2 (src unit : Nat) (d : Dev) : Dev :=
  let d := (d.postFault 2 src unit 1 d.ad7Frac).raiseIrqBut (if src = 0x40 then some unit else none) 7
  let l := d.now :: d.ev.f2.filter (fun a => d.now < a + aclkPer10s)
  let d : Dev := { d with ev := { d.ev with f2 := l } }
  let d := if d.power.failed then (if d.ev.f2Open.isSome then d else { d with ev := { d.ev with f2Open := some d.now } })
    else d.undoOps.discard 0
  if 3 ≤ l.length ∧ ¬ d.ev.f3 then d.f3 0x60 0 else d

/-- Two seconds without the DISCARD event (R440). -/
def Dev.f2Timeout (d : Dev) : Dev :=
  match d.ev.f2Open with
  | none => d
  | some t => if d.now < t + 2 * aclkPerSec then d else ({ d with ev := { d.ev with f2Open := none } } : Dev).f3 0x60 0

/-- A trap stops core `c` (R241): F2 to the other cores; when all four are stopped, all four restart. -/
def Dev.stopCore (c code acc : Nat) (pc : BitVec 64) (d : Dev) : Dev :=
  let d := ((d.wr (CP_STAT_STOPPED c) 1).wr (CP_STAT_RUN c) 0).wr (CP_STOPCAUSE_CODE c) code
  let d := ((d.wr (CP_STOPCAUSE_ACC c) acc).setReg (CP_STOPPC_LO c) (w32 pc.toNat)).wr (CP_STOPPC_HI_PC c) (pc.toNat / 2 ^ 32)
  let d := (d.suspendResident c).f2 0x40 c
  if (List.range 4).all (fun k => d.on (CP_STAT_STOPPED k)) then forUpTo 4 Dev.coreStart d else d

/-! ### Repairs (R434 to R436) -/

/-- The repair that runs: the oldest but those left to a copy-back; and the others. -/
def Dev.runningRepair (d : Dev) : Option (Repair × Dev) :=
  (takeFirst (fun (r : Repair) => r.kind ≠ 4) d.ev.repairs).map (fun p => (p.1, { d with ev := { d.ev with repairs := p.2 } }))

/-- An empty or a word repair completes 16 ACLK after its detection (R434). -/
def Dev.repairDone (d : Dev) : Dev :=
  match d.runningRepair with
  | none => d
  | some (r, d2) =>
    if 2 ≤ r.kind ∨ d.now < r.at_ + 16 then d
    else (if r.kind = 1 then (d2.writeWord r.what r.what (List.replicate 4 0)).2 else d2).ungate r.unit

/-- The code words of frame `k` of an isle, in physical copy `p` (Table 12-1): frames 0–15 are the cells' contexts, 16–31 the planes. -/
def frameWords (p : Bool) (n k : Nat) : List Nat :=
  let base := 0x30000000 + (if k < 16 then 0 else 0xC0000) + (if p then 0x60000 else 0) + n * 0x1000 + k % 16 * 0x100
  (List.range 32).map (fun j => base + 8 * j)

/-- Write the 256 bytes of a frame with valid check bits. -/
def Dev.putFrame (p : Bool) (n k : Nat) (bs : List (BitVec 8)) (d : Dev) : Dev :=
  let i := d.isle n
  let i := if k < 16 then
      { i with ctx := (List.range 16).foldl (fun t j =>
          tset 0#128 t (b2n p * 256 + k * 16 + j) (BitVec.ofNat 128 (bytesNat ((bs.drop (16 * j)).take 16)))) i.ctx }
    else
      { i with planes := (List.range 256).foldl (fun t j => tset 0#8 t (b2n p * 4096 + k % 16 * 256 + j) (bs.getD j 0)) i.planes }
  forList (frameWords p n k) Dev.eccWrite (d.setIsle n i)

/-- Where the reference copy holds frame `k` of isle `n` (R314). -/
def refFrame (n k : Nat) : Nat := (if k < 16 then 0x40000 else 0xA0000) + n * 0x1000 + k % 16 * 0x100

/-- A frame repair ends (R314): rewritten from the reference copy and read back. A staging frame's isle was never gated (R313). -/
def Dev.frameRepairDone (verified : Bool) (d : Dev) : Dev :=
  match d.runningRepair with
  | none => d
  | some (r, d2) =>
    if r.kind ≠ 2 then d
    else
      let n := r.unit
      let staging := decide (32 ≤ r.what)
      let q := d2.readBy (Dev.niMemRead 39) (refFrame n (r.what % 32)) 256
      let p := (d.isle n).copy != staging
      let d := if q.1.1 = 0 then q.2.putFrame p n (r.what % 32) q.1.2 else q.2
      let back := (frameWords p n (r.what % 32)).any (fun w => d.wordErr w = 2)
      if q.1.1 = 0 ∧ verified ∧ ¬ back then
        let d := d.setFlag MI_STAT_CFGREP
        if staging then d else d.ungate n
      else (d.setFlag MI_STAT_REPFAIL).f2 0x43 n

/-- The causeway rewrites a unit's configuration registers from the harbour reference; false where a word cannot be read (R435). -/
def Dev.rewriteUnit (cls i : Nat) (d : Dev) : Bool × Dev :=
  ((hbConfig cls i).filter (fun a => d.hb.refd.contains a)).foldl (fun (r : Bool × Dev) a =>
    let q := r.2.niMemRead 39 (refAddr a) 4
    if q.1.1 = 0 then (r.1, q.2.setReg a (w32 (bytesNat q.1.2))) else (false, q.2)) (true, d)

/-- A harbour repair ends (R435): the check passes, or the fault becomes F3. -/
def Dev.harbourRepairDone (verified : Bool) (d : Dev) : Dev :=
  match d.runningRepair with
  | none => d
  | some (r, d2) =>
    if r.kind ≠ 3 then d
    else
      let cls := (r.unit - hbUnit 0 0) / 256
      let i := r.unit % 256
      let w := d2.rewriteUnit cls i
      if w.1 && verified then
        let d := w.2.repairMark cls i false
        let ts := if cls < 4 then d.tasksOfPort cls i else []
        forList (ts.filter d.taskFree) (Dev.resumeTask r.unit) d
      else w.2.f3 0x61 (cls * 256 + i)

/-! ### The commands -/

/-- F1_REPAIR_DONE (R434). -/
def execF1RepairDone (s : State) : Host.Outcome State Fault Refusal := onDev Dev.repairDone s
/-- FRAME_REPAIR_DONE (R314). -/
def execFrameRepairDone (v : Bool) (s : State) : Host.Outcome State Fault Refusal := onDev (Dev.unlessHeld (Dev.frameRepairDone v)) s
/-- HARBOUR_REPAIR_DONE (R435). -/
def execHarbourRepairDone (v : Bool) (s : State) : Host.Outcome State Fault Refusal := onDev (Dev.unlessHeld (Dev.harbourRepairDone v)) s
/-- F2_DISCARD_TIMEOUT (R440). -/
def execF2DiscardTimeout (s : State) : Host.Outcome State Fault Refusal := onDev Dev.f2Timeout s

end Sys2Proof.Machine
end

