-- ==== Sys2Proof/Machine/Integrity.lean ====
section
/-! DEFINITION. The scrubbers (R310 to R313), idle flushes of merge buffers (R308), leaky buckets (R317) and the MI registers (R320). -/
namespace Sys2Proof.Machine

/-! ### The background scrubber (R310) -/

/-- The memory of a walk: its base address, its code word in bytes and its number of words. -/
def walkMem (w : Nat) : Nat × Nat × Nat :=
  if w = 0 then (0, 8, 0x100000) else if w < 97 then (0x10000000 + (w - 1) * 0x20000, 4, 0x8000) else (0x20000000 + (w - 97) * 0x80000, 8, 0x10000)

/-- The scrubbers' control words (R306). -/
def scrubWords : List Nat := [MI_CTRL, MI_SND_INT, MI_LAG_INT, MI_CSR_INT, MI_CFG_INT, MI_LBk 0, MI_LBk 1, MI_LBk 2, MI_LBk 3]

/-- The interval of a walk in ACLK: below 16 it acts as 16 (R311). -/
def Dev.walkInt (d : Dev) (w : Nat) : Nat := max 16 (if w = 0 then d.rd MI_SND_INT_INT else if w < 97 then d.rd MI_LAG_INT_INT else d.rd MI_CSR_INT_INT)

/-- The domain of a walk's memory is up. -/
def Dev.walkUp (d : Dev) (w : Nat) : Bool := w = 0 || d.domUp (w - 1)

/-- A walk has passed its last word: MI_PASS0 and MI_PASS1 count those of the Sound, lagoon 0 and core 0. -/
def Dev.countPass (w : Nat) (d : Dev) : Dev :=
  match w with
  | 0 => d.inc MI_PASS0_SND
  | 1 => d.inc MI_PASS0_LAG
  | 97 => d.inc MI_PASS1_CSR
  | _ => d

/-- One read of a walk (R310, R311): an entry of the merge buffer is flushed first (R308), an error is corrected or logged. -/
def Dev.bgScrub (w : Nat) (d : Dev) : Dev :=
  let d := d.votes [MI_CTRL, MI_SND_INT, MI_LAG_INT, MI_CSR_INT]
  if ¬ d.on MI_CTRL_BGEN ∨ ¬ d.walkUp w ∨ d.now < tget 0 d.integ.walkAt w + d.walkInt w then d
  else
    let m := walkMem w
    let pos := tget 0 d.integ.walkPos w
    let a := m.1 + m.2.1 * pos
    let d := match mergeBuf a with
      | some b => d.flushEntry b a
      | none => d
    let d := (d.eccRead a 1).2
    let nxt := if pos + 1 = m.2.2 then 0 else pos + 1
    let d : Dev := { d with integ := { d.integ with walkPos := tset 0 d.integ.walkPos w nxt, walkAt := tset 0 d.integ.walkAt w d.now } }
    if nxt = 0 then d.countPass w else d

/-! ### The configuration scrubber (R312, R313) -/

/-- Words of one of the four areas of contexts and planes, and of a whole pass. -/
def cfgArea : Nat := 49152
def cfgWords : Nat := 262144

/-- A frame error in the active copy of isle `n` (R313, R438): left to the copy-back where the change set has committed, else repaired. -/
def Dev.activeError (n f : Nat) (d : Dev) : Dev :=
  if d.setCommitted n then
    { d with integ := { d.integ with cbRep := if d.integ.cbRep.contains n then d.integ.cbRep else d.integ.cbRep ++ [n] } }
  else d.f1Isle n 0x23 2 f

/-- A frame error in the staging copy of isle `n` (R313): the slot of a staged change is abandoned with STAGERR; a running copy-back rewrites the frame;
else it is repaired without gating. -/
def Dev.stagingError (n f : Nat) (d : Dev) : Dev :=
  match d.cfg.staged.find? (fun u => u.unit = n) with
  | some u =>
    if d.rd (AU_MCs_STAT_STATE u.slot) = 1 ∧ d.icpOn u.slot then (d.wr CF_ICP_STAT_ISLE n).modeChangeAbort u.slot 0x0D
    else d.modeChangeAbort u.slot 0x0D
  | none =>
    if (d.isle n).copyEnd.isSome then
      { d with integ := { d.integ with cbRep := if d.integ.cbRep.contains n then d.integ.cbRep else d.integ.cbRep ++ [n] } }
    else d.queueRepair { unit := n, kind := 2, source := 0x23, what := 32 + f, at_ := d.now }

/-- The comparison of a frame's CRC at its last word fails (R312): its words are checked one by one, and the stored CRC differs from that of the frame as the
causeway wrote it. A frame written during the walk is not compared (R313). -/
def Dev.crcFails (d : Dev) (key pos : Nat) : Bool :=
  pos % 32 = 31 && d.integ.walkFrame = frameOf key && (frameOf key).any (fun f => tget 0#32 d.integ.crc f ≠ 0)

/-- The scrubber reads word `pos` of contexts and planes: an uncorrectable word, or at the frame's last word its CRC (R312, R313). -/
def Dev.cfgWord (pos : Nat) (d : Dev) : Dev :=
  let area := pos / cfgArea
  let k := pos % cfgArea
  let n := k / 512
  let f := k % 512 / 32 + if area < 2 then 0 else 16
  let staging := area % 2 = 1
  let key := (frameWords ((d.isle n).copy != staging) n f).getD (k % 32) 0
  let d : Dev := if pos % 32 = 0 then { d with integ := { d.integ with walkFrame := frameOf key } } else d
  let r := d.eccReadAs key (0x30000000 + 8 * pos) 1
  if r.1 || d.crcFails key pos then (if staging then r.2.stagingError n f else r.2.activeError n f) else r.2

/-- The scrubber reads a word of the event table: an entry with an uncorrectable word is removed (R313). -/
def Dev.cfgEntry (k : Nat) (d : Dev) : Dev :=
  let r := d.eccRead (0x41000000 + 8 * k) 1
  if r.1 ∧ (r.2.entry (k / 2)).isSome then r.2.damagedEntry (k / 2) else r.2

/-- One read of the configuration scrubber (R312); before each pass it compares the copies of its control words (R306). -/
def Dev.cfgScrub (d : Dev) : Dev :=
  let d := d.votes (if d.integ.cfgPos = 0 then scrubWords else [MI_CTRL, MI_CFG_INT])
  if ¬ d.on MI_CTRL_CFGEN ∨ d.now < d.integ.cfgAt + max 1 (d.rd MI_CFG_INT_INT) then d
  else
    let pos := d.integ.cfgPos
    let d := if pos < 4 * cfgArea then d.cfgWord pos else d.cfgEntry (pos - 4 * cfgArea)
    let nxt := if pos + 1 = cfgWords then 0 else pos + 1
    let d : Dev := { d with integ := { d.integ with cfgPos := nxt, cfgAt := d.now } }
    if nxt = 0 then d.inc MI_PASS1_CFG else d

/-! ### Merge buffers and buckets -/

/-- No write has reached the entry of word `w` for MI_MBCFG.IDLE ACLK (R308): it is flushed. -/
def Dev.mergeIdle (b w : Nat) (d : Dev) : Dev :=
  match (d.merged b).find? (fun e => e.addr = w) with
  | none => d
  | some e => if d.now < e.at_ + max 1 (d.rd MI_MBCFG_IDLE) then d else d.flushEntry b w

/-- MI_CLR (Table 12-5). -/
def Dev.miClr (d : Dev) : Dev :=
  let d := (((d.setReg MI_UECNT 0).setReg MI_TMRCNT 0).setReg MI_PASS0 0).setReg MI_PASS1 0
  { d with integ := { d.integ with buckets := (List.range 213).foldl (fun t r =>
      tset { count := 0, ovfc := 0, leak := 0 } t r { count := 0, ovfc := 0, leak := (tget { count := 0, ovfc := 0, leak := 0 } t r).leak }) d.integ.buckets } }

/-! ### The MI registers (R320) -/

/-- MI_SPSTAT of the selected bank (R315). -/
def Dev.spStat (d : Dev) : BitVec 32 :=
  let cls := d.rd MI_SPSEL_CLASS
  let mine := fun (q : RowRepair) => q.cls = cls && q.bank = d.rd MI_SPSEL_BANK && (cls = 0 || q.isle = d.rd MI_SPSEL_ISLE)
  let ap := d.integ.applied.filter mine
  let fu := (ap.filter (fun q => d.integ.fuse.contains q)).length
  w32 (fu + (ap.length - fu) * 2 ^ 8 + (if cls = 0 then 16 else 8) * 2 ^ 16 + min 255 (d.integ.excess.filter mine).length * 2 ^ 24)

/-- A read of an MI register. -/
def Dev.miRead (d : Dev) (a : Nat) : BitVec 32 :=
  if a = MI_BSTAT then let b := d.bucket (d.rd MI_BSEL_REGION); w32 (b.count % 256 + b.ovfc * 2 ^ 16)
  else if a = MI_SPSTAT then d.spStat
  else if (regRow? a).isSome then d.reg a else 0

/-- A write of an MI register. -/
def Dev.miWrite (a : Nat) (v : BitVec 32) (d : Dev) : Dev :=
  if a = MI_CLR then if wbit v 0 then d.miClr else d else d.plainWrite a v

/-! ### The commands -/

/-- BG_SCRUB_READ (R310). -/
def execBgScrubRead (w : Fin 101) (s : State) : Host.Outcome State Fault Refusal := onDev (Dev.bgScrub w.val) s
/-- CFG_SCRUB_READ (R312). -/
def execCfgScrubRead (s : State) : Host.Outcome State Fault Refusal := onDev Dev.cfgScrub s
/-- MERGE_FLUSH (R308). -/
def execMergeFlush (b : Fin 112) (w : BitVec 40) (s : State) : Host.Outcome State Fault Refusal := onDev (Dev.mergeIdle b.val w.toNat) s
/-- BUCKET_LEAK (R317). -/
def execBucketLeak (r : Fin 213) (s : State) : Host.Outcome State Fault Refusal := onDev (Dev.bucketLeak r.val) s
/-- FLIP_MASK_ARM (R316): a write of MI_FLIPk_CTL with ARM. -/
def execFlipMaskArm (k : Fin 4) (sel : BitVec 7) (s : State) : Host.Outcome State Fault Refusal :=
  onDev (Dev.plainWrite (MI_FLIPk_CTL k.val) (w32 (sel.toNat + 2 ^ 31))) s
/-- MI_CLR (R320). -/
def execMiClr (s : State) : Host.Outcome State Fault Refusal := onDev Dev.miClr s

end Sys2Proof.Machine
end

