-- ==== Sys2Proof/Machine/Power.lean ====
section
/-! DEFINITION. Device resets (R413, R414), the boot up to the PLLs (R423), the watchdog (R416), the start queue (R417, R418), row clocks (R422) and the
commits of the settings controller (R428, R432). -/
namespace Sys2Proof.Machine

/-- The block with its power state replaced. -/
def Dev.setPower (p : Power) (d : Dev) : Dev := { d with power := p }

/-! ### The start queue (R417) -/

/-- Show the start queue (Table 17-7). -/
def Dev.showQueue (d : Dev) : Dev :=
  let d := (d.wr PC_QSTAT_QLEN d.power.queue.length).wrb PC_QSTAT_ACT d.power.cur.isSome
  d.wr PC_QSTAT_CUR ((d.power.cur.map (fun c => c.1)).getD 0)

/-- The start step of a domain in ACLK. -/
def Dev.startStep (d : Dev) (x : Nat) : Nat := 800 * if x < 96 then max 250 (d.rd PC_STEP_ISTEP) else max 500 (d.rd PC_STEP_OSTEP)

/-- The queue starts its next domain where none is in its start step. -/
def Dev.startNext (d : Dev) : Dev :=
  match d.power.cur, d.power.queue with
  | none, x :: rest =>
    let t := d.now + d.startStep x
    (d.setPower { d.power with queue := rest, cur := some (x, t), offNext := false }).showQueue
  | _, _ => d.showQueue

/-- A start request (R417): ignored for a domain that is up, queued or in its start step; for one switching off it waits until it is off (R418). -/
def Dev.startDomainReq (x : Nat) (d : Dev) : Dev :=
  let p := d.power
  if 104 ≤ x then d.setFlag PC_QSTAT_REFUSED
  else if p.going.contains x then (if p.again.contains x then d else d.setPower { p with again := p.again ++ [x] })
  else if d.domUp x ∨ p.queue.contains x ∨ p.cur.any (fun c => c.1 = x) then d
  else (d.setPower { p with queue := p.queue ++ [x] }).startNext

/-- A domain's NI closes and the domain begins to switch off (R291, R418). -/
def Dev.closeDomain (x : Nat) (d : Dev) : Dev :=
  let d := (d.setPower { d.power with going := d.power.going ++ [x] }).showOpen x false
  { d with net := { d.net with closed := if d.net.closed.contains x then d.net.closed else d.net.closed ++ [x] } }

/-- An off request (R418): a waiting domain leaves the queue, one in its start step goes off when the step ends, one that is up closes. -/
def Dev.offDomainReq (x : Nat) (d : Dev) : Dev :=
  let p := d.power
  if 104 ≤ x then d.setFlag PC_QSTAT_REFUSED
  else if p.going.contains x then d.setPower { p with again := p.again.filter (fun y => y ≠ x) }
  else if p.queue.contains x then (d.setPower { p with queue := p.queue.filter (fun y => y ≠ x) }).showQueue
  else if p.cur.any (fun c => c.1 = x) then d.setPower { p with offNext := true }
  else if d.domUp x then d.closeDomain x
  else d

/-- Show whether a domain is up. -/
def Dev.setUp (x : Nat) (b : Bool) (d : Dev) : Dev := d.wrBit ⟨PC_DOMUP0 + 4 * (x / 32), 31, 0⟩ (x % 32) b

/-! ### Repairs at boot (R315) -/

/-- The spare rows of a bank. -/
def spareRows (cls : Nat) : Nat := if cls = 0 then 16 else 8

/-- Apply one repair: a repaired row is skipped, and one beyond its bank's spares is skipped and counted. -/
def Dev.applyRepair (r : RowRepair) (d : Dev) : Dev :=
  let bank := d.integ.applied.filter (fun q => q.cls = r.cls && q.isle = r.isle && q.bank = r.bank)
  if bank.any (fun q => q.row = r.row) then d
  else if spareRows r.cls ≤ bank.length then { d with integ := { d.integ with excess := d.integ.excess ++ [r] } }
  else { d with integ := { d.integ with applied := d.integ.applied ++ [r] } }

/-! ### Boot and reset (R412 to R414, R423) -/

/-- The boot sequencer starts (R423): the fuse map, the settings store, the recorded repairs and retired ranks; core 0's domain is queued. -/
def Dev.bootStart (d : Dev) : Dev :=
  let d := forList d.integ.fuse Dev.applyRepair { d with integ := { d.integ with applied := [], excess := [] } }
  let r := d.ssShow.ssRepairs
  let d := forList r.1 Dev.applyRepair r.2
  let k := d.ssRanks
  let d := forList k.1 (fun (q : Nat × Nat) d => d.wrBit (DC_CHc_STAT_RETIRED q.1) q.2 true) k.2
  d.startDomainReq 96

/-- The bytes a device reset keeps (R414): the settings store, the embedded NV and the flash device. -/
def keptByte (a : Nat) : Bool := areaOf a = 6 || areaOf a = 7 || areaOf a = 8

/-- A device reset (R413, R414): everything but the non-volatile bytes, host memory, the levels on input pins and what the model only records (outputs
already sent, the count of free values). A failed firmware verification outlasts every cause but RESET_N (R423). -/
def Dev.deviceReset (cause : Nat) (good held : Bool) (d : Dev) : Dev :=
  let gio := (d.hb.gio.filter (fun e => e.2.pin)).map (fun e => (e.1, { GioCell.reset with pin := true }))
  let r : Dev := { Dev.reset with
    mem := d.mem.filter (fun e => keptByte e.1), hmem := d.hmem, free := d.free, conEvents := d.conEvents,
    hb := { Harb.reset with gio := gio }, integ := { Integ.reset with fuse := d.integ.fuse },
    mail := { Mail.reset with out := d.mail.out },
    power := { Power.reset with good := good, held := held, failed := d.power.failed && cause ≠ 1 } }
  let r := r.wr PC_RSTCAUSE_CAUSE cause
  if good && !held then r.bootStart else r

/-- Power-good (R412): the boot starts unless RESET_N is still low. -/
def Dev.powerGood (d : Dev) : Dev :=
  if d.power.good then d
  else
    let d := d.setPower { d.power with good := true }
    if d.power.held then d else d.bootStart

/-- RESET_N has been low for 1 µs (R413): the device stays in reset while it is low. -/
def Dev.resetNAssert (d : Dev) : Dev := d.deviceReset 1 d.power.good true

/-- Brown-out (R413): power fails after power-good. -/
def Dev.brownOut (d : Dev) : Dev := if d.power.good then d.deviceReset 5 false d.power.held else d

/-- RESET_N is released (R412). -/
def Dev.resetNRelease (d : Dev) : Dev :=
  if ¬ d.power.held then d
  else
    let d := d.setPower { d.power with held := false }
    if d.power.good then d.bootStart else d

/-- The PLLs lock (R423): the Sound is zeroed with valid check bits. -/
def Dev.pllLock (d : Dev) : Dev :=
  if ¬ d.power.good ∨ d.power.held ∨ d.power.locked then d
  else
    let d := ((d.setPower { d.power with locked := true }).wr PC_STAT_ALOCK 1).wr PC_STAT_CLOCK 1
    { d with mem := d.mem.filter (fun e => decide (0x800000 ≤ e.1)),
             integ := { d.integ with ecc := d.integ.ecc.filter (fun e => decide (0x800000 ≤ e.1)),
                                     merge := d.integ.merge.filter (fun e => decide (16 ≤ e.1)) } }

/-! ### The watchdog (R416) -/

/-- A write of PC_WDT_CTL: EN sets and stays; the period counts from the enable. -/
def Dev.wdtCtl (v : BitVec 32) (d : Dev) : Dev :=
  let was := d.on PC_WDT_CTL_EN
  let d := d.plainWrite PC_WDT_CTL v
  if !was && d.on PC_WDT_CTL_EN then d.setPower { d.power with wdtAt := d.now, wdtHit := false } else d

/-- The watchdog's period has passed in an earlier ACLK: a kick in the ACLK of the expiry wins (R57). -/
def Dev.wdtExpired (d : Dev) : Bool :=
  d.on PC_WDT_CTL_EN && decide (d.power.wdtAt + 800000 * max 1 (d.rd PC_WDT_CTL_PERIOD) < d.now)

/-- The first expiry without a kick: STAGE1, an F2 fault, and all four cores restart. -/
def Dev.wdtStage1 (d : Dev) : Dev :=
  if d.wdtExpired && !d.power.wdtHit then
    let d := d.setPower { d.power with wdtAt := d.power.wdtAt + 800000 * max 1 (d.rd PC_WDT_CTL_PERIOD), wdtHit := true }
    ((d.setFlag PC_WDT_STAT_STAGE1).f2 0x41 0).restartCores
  else d

/-- The second expiry: a device reset. -/
def Dev.wdtStage2 (d : Dev) : Dev := if d.wdtExpired && d.power.wdtHit then d.deviceReset 3 d.power.good d.power.held else d

/-- A kick restarts the period; an expiry of an earlier ACLK stands (R57). -/
def Dev.wdtKick (d : Dev) : Dev :=
  if d.wdtExpired && d.power.wdtHit then d.wdtStage2
  else
    let d := d.wdtStage1
    d.setPower { d.power with wdtAt := d.now, wdtHit := false }

/-! ### Row clocks (R422) -/

/-- A write of PC_ROWr: it waits for the next ACLK whose count is a multiple of 8. -/
def Dev.rowWrite (r : Nat) (v : BitVec 32) (d : Dev) : Dev :=
  ((d.plainWrite (PC_ROWr r) v).wr (PC_ROWr_PEND r) 1).setPower { d.power with rowAt := tset 0 d.power.rowAt r d.now }

/-- The change takes effect, in an ACLK after its write: the boot ring acts as a further division by 8 (log entry 83). -/
def Dev.rowApply (r : Nat) (d : Dev) : Dev :=
  if d.on (PC_ROWr_PEND r) ∧ d.now % 8 = 0 ∧ tget 0 d.power.rowAt r < d.now then
    let k := d.rd (PC_ROWr_DIV r) + if d.on (PC_ROWr_SRC r) then 3 else 0
    (d.setPower { d.power with rows := tset 0 d.power.rows r k }).wr (PC_ROWr_PEND r) 0
  else d

/-! ### The settings controller (R428, R432) -/

/-- The commit that SS_CMD asks for: the record's ID and its bytes, none to delete it. -/
def Dev.ssAsked (d : Dev) : Nat × Option (List (BitVec 8)) :=
  (d.rd SS_CMD_ID, if d.on SS_CMD_DEL then none else some (d.loadBytes (d.rd SS_BUF_ADDR * 8) (d.rd SS_LEN_LEN)))

/-- GO (R428): a refused commit shows its result; else the new state goes to the inactive bank. A buffer that cannot be read ends it with NVERR. -/
def Dev.ssGo (d : Dev) : Dev :=
  let q := d.ssAsked
  let n := d.rd SS_LEN_LEN
  let a := d.rd SS_BUF_ADDR * 8
  let res := if q.2.isSome ∧ (n = 0 ∨ 4096 < n ∨ 0x800000 < a + n) then 4 else d.ssCheck q.1 q.2
  if res ≠ 0 then d.wr SS_RES_RES res
  else
    let r := if q.2.isSome then d.memReadAll a n else ((0, []), d)
    if r.1.1 ≠ 0 then r.2.wr SS_RES_RES 2
    else
      let t := d.ssTarget
      let c : SsCommit := { id := q.1, rseq := d.ssRseq q.1, seq := t.2, bank := t.1 }
      ((r.2.ssStage q.1 q.2).setPower { d.power with commit := some c }).wr SS_STAT_BUSY 1

/-- A write of an SS register (R432): while a commit runs, those of SS_CMD, SS_BUF and SS_LEN are refused with GOBUSY. -/
def Dev.ssWrite (a : Nat) (v : BitVec 32) (d : Dev) : Dev :=
  if (a = SS_CMD ∨ a = SS_BUF ∨ a = SS_LEN) ∧ d.on SS_STAT_BUSY then d.setFlag SS_STAT_GOBUSY
  else
    let d := d.plainWrite a v
    if a = SS_CMD ∧ wbit v 31 then d.ssGo else d

/-- The commit's read-back and commit copies end (R428): the new bank is active, or NVERR and the old state stands. -/
def Dev.ssDone (verified : Bool) (d : Dev) : Dev :=
  match d.power.commit with
  | none => d
  | some c =>
    let d := (d.setPower { d.power with commit := none }).wr SS_STAT_BUSY 0
    let d := if ¬ verified then d.wr SS_RES_RES 2
      else
        let d := (d.ssSeal c.bank c.seq).wr SS_RES_RES 0
        if d.on SS_CMD_DEL then d else d.setReg SS_RSEQ c.rseq
    d.ssLate

/-! ### The commands -/

/-- POWER_GOOD (R412). -/
def execPowerGood (s : State) : Host.Outcome State Fault Refusal := onDev Dev.powerGood s
/-- PLL_LOCK (R423). -/
def execPllLock (s : State) : Host.Outcome State Fault Refusal := onDev Dev.pllLock s
/-- RESET_N_ASSERT (R413). -/
def execResetNAssert (s : State) : Host.Outcome State Fault Refusal := onDev Dev.resetNAssert s
/-- RESET_N_RELEASE (R412). -/
def execResetNRelease (s : State) : Host.Outcome State Fault Refusal := onDev Dev.resetNRelease s
/-- BROWN_OUT (R413). -/
def execBrownOut (s : State) : Host.Outcome State Fault Refusal := onDev Dev.brownOut s
/-- SWRST (R413): a write of PC_CTL with SWRST; another key does nothing. -/
def execSwrst (key : BitVec 8) (s : State) : Host.Outcome State Fault Refusal :=
  onDev (fun d => if key = 0x5A#8 then d.deviceReset 4 d.power.good d.power.held else d) s
/-- WATCHDOG_ENABLE (R416). -/
def execWatchdogEnable (v : BitVec 32) (s : State) : Host.Outcome State Fault Refusal := onDev (Dev.wdtCtl v) s
/-- WATCHDOG_KICK (R416). -/
def execWatchdogKick (s : State) : Host.Outcome State Fault Refusal := onDev Dev.wdtKick s
/-- WATCHDOG_STAGE1 (R416). -/
def execWatchdogStage1 (s : State) : Host.Outcome State Fault Refusal := onDev Dev.wdtStage1 s
/-- WATCHDOG_STAGE2 (R416). -/
def execWatchdogStage2 (s : State) : Host.Outcome State Fault Refusal := onDev Dev.wdtStage2 s
/-- DOMAIN_START_REQUEST (R417): a write of PC_DOMREQ with GO and ON. -/
def execDomainStartRequest (x : Fin 128) (s : State) : Host.Outcome State Fault Refusal :=
  onDev (fun d => ((d.wr PC_DOMREQ_DOMAIN x.val).wr PC_DOMREQ_ON 1).startDomainReq x.val) s
/-- DOMAIN_OFF_REQUEST (R418): a write of PC_DOMREQ with GO and not ON. -/
def execDomainOffRequest (x : Fin 128) (s : State) : Host.Outcome State Fault Refusal :=
  onDev (fun d => ((d.wr PC_DOMREQ_DOMAIN x.val).wr PC_DOMREQ_ON 0).offDomainReq x.val) s
/-- ROW_CLOCK_APPLY (R422). -/
def execRowClockApply (r : Fin 8) (s : State) : Host.Outcome State Fault Refusal := onDev (Dev.rowApply r.val) s
/-- SETTINGS_COMMIT (R428): a write of SS_CMD. -/
def execSettingsCommit (v : BitVec 32) (s : State) : Host.Outcome State Fault Refusal := onDev (Dev.ssWrite SS_CMD v) s
/-- SETTINGS_COMMIT_DONE (R428). -/
def execSettingsCommitDone (v : Bool) (s : State) : Host.Outcome State Fault Refusal := onDev (Dev.ssDone v) s

end Sys2Proof.Machine
end

