-- ==== Sys2Proof/Machine/Serial.lean ====
section
/-! DEFINITION. The serial controllers (R406, R407, R409): UARTs, SPI, I²C and xSPI. The console's frames are in Console.lean. -/
namespace Sys2Proof.Machine

/-- The block with the serial state replaced. -/
def Dev.setSer (s : Serial) (d : Dev) : Dev := { d with ser := s }

/-! ### UARTs -/

/-- The transmit FIFO of UART `u`, shown in TXLVL. -/
def Dev.setUtx (u : Nat) (l : List (BitVec 8)) (d : Dev) : Dev :=
  (d.setSer { d.ser with utx := tset [] d.ser.utx u l }).wr (SP_Uu_STAT_TXLVL u) l.length

/-- The receive FIFO of UART `u`, shown in RXLVL. -/
def Dev.setUrx (u : Nat) (l : List (BitVec 8)) (d : Dev) : Dev :=
  (d.setSer { d.ser with urx := tset [] d.ser.urx u l }).wr (SP_Uu_STAT_RXLVL u) l.length

/-- A write of DATA queues a byte; to a full FIFO it sets OVR and is discarded (R409). -/
def Dev.uartWrite (u : Nat) (b : BitVec 8) (d : Dev) : Dev :=
  let l := tget [] d.ser.utx u
  if l.length < 16 then d.setUtx u (l ++ [b]) else d.setFlag (SP_Uu_STAT_OVR u)

/-- A read of DATA takes the oldest byte; of an empty FIFO it returns 0. -/
def Dev.uartRead (u : Nat) (d : Dev) : BitVec 32 × Dev :=
  match tget [] d.ser.urx u with
  | [] => (0, d)
  | b :: l => (w32 b.toNat, d.setUrx u l)

/-- A byte is received: a full FIFO loses it; a framing or a parity error shows. Firmware takes the console's bytes at once and notes when the last came
(R365). -/
def Dev.uartRx (u : Nat) (b : BitVec 8) (framingOk parityOk : Bool) (d : Dev) : Dev :=
  if ¬ d.on (SP_Uu_CFG_EN u) then d
  else
    let d := if framingOk then d else d.setFlag (SP_Uu_STAT_FERR u)
    let d := if parityOk ∨ d.rd (SP_Uu_CFG_PAR u) = 0 then d else d.setFlag (SP_Uu_STAT_PERR u)
    if u = 0 ∧ d.on PC_STAT_FWOK then d.setMail { d.mail with part := some d.now }
    else
      let l := tget [] d.ser.urx u
      if l.length < 16 then d.setUrx u (l ++ [b]) else d.setFlag (SP_Uu_STAT_OVR u)

/-- A byte has been shifted out. -/
def Dev.uartTx (u : Nat) (d : Dev) : Dev :=
  match tget [] d.ser.utx u with
  | [] => d
  | _ :: l => if d.on (SP_Uu_CFG_EN u) then d.setUtx u l else d

/-! ### SPI -/

/-- The transmit FIFO of SPI `s`: BUSY shows while words are left. -/
def Dev.setStx (s : Nat) (l : List (BitVec 32)) (d : Dev) : Dev :=
  ((d.setSer { d.ser with stx := tset [] d.ser.stx s l }).wr (SP_Ss_STAT_TXLVL s) l.length).wrb (SP_Ss_STAT_BUSY s) (l ≠ [] && d.on (SP_Ss_CFG_EN s))

/-- The receive FIFO of SPI `s`. -/
def Dev.setSrx (s : Nat) (l : List (BitVec 32)) (d : Dev) : Dev :=
  (d.setSer { d.ser with srx := tset [] d.ser.srx s l }).wr (SP_Ss_STAT_RXLVL s) l.length

/-- A write of DATA queues a word to send. -/
def Dev.spiWrite (s : Nat) (v : BitVec 32) (d : Dev) : Dev :=
  let l := tget [] d.ser.stx s
  if l.length < 16 then d.setStx s (l ++ [v]) else d.setFlag (SP_Ss_STAT_OVR s)

/-- A read of DATA takes a received word. -/
def Dev.spiRead (s : Nat) (d : Dev) : BitVec 32 × Dev :=
  match tget [] d.ser.srx s with
  | [] => (0, d)
  | v :: l => (v, d.setSrx s l)

/-- Bits of an SPI word: 8 to 32. -/
def Dev.spiBits (d : Dev) (s : Nat) : Nat := max 8 (d.rd (SP_Ss_CFG_WLEN s) + 1)

/-- The transfer of one word completes: the received word is stored, or lost with OVR where the FIFO is full. -/
def Dev.spiDone (s : Nat) (v : BitVec 32) (d : Dev) : Dev :=
  match tget [] d.ser.stx s with
  | [] => d
  | _ :: l =>
    if ¬ d.on (SP_Ss_CFG_EN s) then d
    else
      let d := d.setStx s l
      let r := tget [] d.ser.srx s
      if r.length < 16 then d.setSrx s (r ++ [w32 (low (d.spiBits s) v.toNat)]) else d.setFlag (SP_Ss_STAT_OVR s)

/-! ### I²C -/

/-- The byte FIFO, at most 16 bytes. A write to a full one is discarded; the controller has no OVR. -/
def Dev.i2cWrite (b : BitVec 8) (d : Dev) : Dev :=
  if d.ser.i2c.length < 16 then d.setSer { d.ser with i2c := d.ser.i2c ++ [b] } else d

/-- A read of DATA takes the oldest byte. -/
def Dev.i2cRead (d : Dev) : BitVec 32 × Dev :=
  match d.ser.i2c with
  | [] => (0, d)
  | b :: l => (w32 b.toNat, d.setSer { d.ser with i2c := l })

/-- A write of SP_I2C_CMD: a write of GO while BUSY is ignored (R409), and GO of a disabled controller does nothing. -/
def Dev.i2cCmd (v : BitVec 32) (d : Dev) : Dev :=
  if wbit v 31 && d.on SP_I2C_STAT_BUSY then d
  else
    let d := d.plainWrite SP_I2C_CMD v
    if wbit v 31 && d.on SP_I2C_CFG_EN then (d.setSer { d.ser with i2cRun := v }).wr SP_I2C_STAT_BUSY 1 else d

/-- The command ends with its status: a write has taken its bytes from the FIFO, a read has put its bytes there. -/
def Dev.i2cDone (acked arbLost : Bool) (bs : List (BitVec 8)) (d : Dev) : Dev :=
  if ¬ d.on SP_I2C_STAT_BUSY then d
  else
    let d := d.wr SP_I2C_STAT_BUSY 0
    let d := if acked then d else d.setFlag SP_I2C_STAT_NACK
    let d := if arbLost then d.setFlag SP_I2C_STAT_ARBL else d
    let n := wbits d.ser.i2cRun 11 8 + 1
    if ¬ acked ∨ arbLost then d
    else if wbit d.ser.i2cRun 7 then d.setSer { d.ser with i2c := (d.ser.i2c ++ bs.take n).take 16 }
    else d.setSer { d.ser with i2c := d.ser.i2c.drop n }

/-- The target has stretched the clock for more than 25 ms. -/
def Dev.i2cStretch (d : Dev) : Dev := if d.on SP_I2C_STAT_BUSY then (d.wr SP_I2C_STAT_BUSY 0).setFlag SP_I2C_STAT_TMO else d

/-! ### xSPI (R407) -/

/-- A write of SP_XS_LEN (R407): a write of GO while BUSY is ignored (R409); GO starts the command, and one that writes reads its buffer in the Sound. -/
def Dev.xsGo (v : BitVec 32) (d : Dev) : Dev :=
  if wbit v 31 && d.on SP_XS_STAT_BUSY then d
  else
    let d := d.plainWrite SP_XS_LEN v
    if ¬ wbit v 31 then d
    else
      let wr := d.on SP_XS_CMD_WR
      let a := d.rd SP_XS_BUF_ADDR * 4
      let n := min 256 (d.rd SP_XS_LEN_LEN)
      let r := if wr then d.memReadAll a n else ((0, []), d)
      let x : XsCmd := { op := if d.on SP_XS_CFG_MODE then d.rd SP_XS_CMD_OPCODE else d.rd SP_XS_CMD_OPCODE % 256, sends := d.on SP_XS_CMD_ADDR,
                         addr := d.rd SP_XS_ADDR_ADDR, wr := wr, buf := a, len := n, data := r.1.2 }
      let d := (if r.1.1 = 0 then r.2 else r.2.setFlag SP_XS_STAT_ERR).wr SP_XS_STAT_BUSY 1
      d.setSer { d.ser with xs := some x }

/-- What a command that sends bytes or erases leaves in the flash: the meaning of the opcodes is the flash's (log entry 233). -/
def Dev.flashTake (x : XsCmd) (d : Dev) : Dev :=
  if ¬ x.sends then d
  else
    let n := Config.flashErases x.op
    let d := if n = 0 then d else d.storeBytes (0x60000000 + x.addr / n * n) (List.replicate (min n 0x10000000) 0xFF#8)
    let old := d.loadBytes (0x60000000 + x.addr) x.data.length
    d.storeBytes (0x60000000 + x.addr) (List.zipWith (Config.flashTakes x.op) old x.data)

/-- The command ends: one that writes has reached the flash, and one that reads writes its bytes to the Sound. -/
def Dev.xsDone (bs : List (BitVec 8)) (d : Dev) : Dev :=
  match d.ser.xs with
  | none => d
  | some x =>
    let d := (d.setSer { d.ser with xs := none }).wr SP_XS_STAT_BUSY 0
    if x.wr then d.flashTake x
    else
      let r := d.memWriteAll x.buf (bs.take x.len)
      if r.1 = 0 then r.2 else r.2.setFlag SP_XS_STAT_ERR

/-! ### Registers (R409) -/

/-- A read of an SP register. -/
def Dev.spRead (a : Nat) (d : Dev) : BitVec 32 × Dev :=
  if a = SP_Uu_DATA 0 then d.uartRead 0
  else if a = SP_Uu_DATA 1 then d.uartRead 1
  else if a = SP_Ss_DATA 0 then d.spiRead 0
  else if a = SP_Ss_DATA 1 then d.spiRead 1
  else if a = SP_I2C_DATA then d.i2cRead
  else (if (regRow? a).isSome then d.reg a else 0, d)

/-- A write of an SP register. -/
def Dev.spWrite (a : Nat) (v : BitVec 32) (d : Dev) : Dev :=
  if a = SP_Uu_DATA 0 then d.uartWrite 0 (BitVec.ofNat 8 v.toNat)
  else if a = SP_Uu_DATA 1 then d.uartWrite 1 (BitVec.ofNat 8 v.toNat)
  else if a = SP_Ss_DATA 0 then d.spiWrite 0 v
  else if a = SP_Ss_DATA 1 then d.spiWrite 1 v
  else if a = SP_Ss_CFG 0 then let d := d.plainWrite a v; d.setStx 0 (tget [] d.ser.stx 0)
  else if a = SP_Ss_CFG 1 then let d := d.plainWrite a v; d.setStx 1 (tget [] d.ser.stx 1)
  else if a = SP_I2C_CMD then d.i2cCmd v
  else if a = SP_I2C_DATA then d.i2cWrite (BitVec.ofNat 8 v.toNat)
  else if a = SP_XS_LEN then d.xsGo v
  else d.plainWrite a v

/-! ### The commands -/

/-- UART_DATA_WRITE (R409). -/
def execUartDataWrite (u : Fin 2) (b : BitVec 8) (s : State) : Host.Outcome State Fault Refusal := onDev (Dev.uartWrite u.val b) s
/-- UART_DATA_READ (R409): the byte is the data read. -/
def execUartDataRead (u : Fin 2) (s : State) : Host.Outcome State Fault Refusal :=
  onDev (fun d => let r := d.uartRead u.val; { r.2 with rdData := r.1 }) s
/-- UART_RX_BYTE (R406). -/
def execUartRxByte (u : Fin 2) (b : BitVec 8) (f p : Bool) (s : State) : Host.Outcome State Fault Refusal := onDev (Dev.uartRx u.val b f p) s
/-- UART_TX_BYTE (R406). -/
def execUartTxByte (u : Fin 2) (s : State) : Host.Outcome State Fault Refusal := onDev (Dev.uartTx u.val) s
/-- SPI_DATA_WRITE (R409). -/
def execSpiDataWrite (i : Fin 2) (v : BitVec 32) (s : State) : Host.Outcome State Fault Refusal := onDev (Dev.spiWrite i.val v) s
/-- SPI_DATA_READ (R409): the word is the data read. -/
def execSpiDataRead (i : Fin 2) (s : State) : Host.Outcome State Fault Refusal :=
  onDev (fun d => let r := d.spiRead i.val; { r.2 with rdData := r.1 }) s
/-- SPI_WORD_DONE (R409). -/
def execSpiWordDone (i : Fin 2) (v : BitVec 32) (s : State) : Host.Outcome State Fault Refusal := onDev (Dev.spiDone i.val v) s
/-- I2C_GO (R407): a write of SP_I2C_CMD. -/
def execI2cGo (v : BitVec 32) (s : State) : Host.Outcome State Fault Refusal := onDev (Dev.i2cCmd v) s
/-- I2C_DONE (R407). -/
def execI2cDone (a l : Bool) (bs : List (BitVec 8)) (s : State) : Host.Outcome State Fault Refusal := onDev (Dev.i2cDone a l bs) s
/-- I2C_STRETCH_TIMEOUT (R406). -/
def execI2cStretchTimeout (s : State) : Host.Outcome State Fault Refusal := onDev Dev.i2cStretch s
/-- XSPI_GO (R407): a write of SP_XS_LEN. -/
def execXspiGo (v : BitVec 32) (s : State) : Host.Outcome State Fault Refusal := onDev (Dev.xsGo v) s
/-- XSPI_DONE (R407). -/
def execXspiDone (bs : List (BitVec 8)) (s : State) : Host.Outcome State Fault Refusal := onDev (Dev.xsDone bs) s

end Sys2Proof.Machine
end

