-- ==== Sys2Proof/Machine/BusRead.lean ====
section
/-! DEFINITION. Reads over the whole address map (R15, R17, R18, R279): CSR blocks, the event-table window (R35) and the configuration aperture (R229). -/
namespace Sys2Proof.Machine

/-! ### CSR blocks -/

/-- A register that holds only what is stored; an offset that holds no register reads 0 (R18). -/
def Dev.plainRead (d : Dev) (a : Nat) : BitVec 32 := if (regRow? a).isSome then d.reg a else 0

/-- A read of an AU register: ANG_LO captures the angle and velocity, MEAS_LO the revolution count of the measured angle (Table 02-6). -/
def Dev.auRead (a : Nat) (d : Dev) : BitVec 32 × Dev :=
  if AU_ADn_CFG 0 ≤ a ∧ a < AU_ADn_CFG 8 then
    let n := (a - AU_ADn_CFG 0) / 0x80
    let t := d.ad n
    match (a - AU_ADn_CFG 0) % 0x80 with
    | 0x18 => (w32 (b2n (d.rdBit AU_STAT_LOCK n) + 2 * b2n (d.rdBit AU_STAT_LOST n) + 4 * d.rd (AU_ADn_STAT_UNSYNC n)), d)
    | 0x20 =>
      let s := (d.stamp n).toNat
      (w32 s, d.setAd n { t with capAngHi := w32 (s / 2 ^ 32), capVel := t.omega })
    | 0x24 => (t.capAngHi, d)
    | 0x28 => (w32 t.capVel.toNat, d)
    | 0x2C => (w32 (t.capVel.toNat / 2 ^ 32), d)
    | 0x40 => (w32 t.meas.toNat, d.setAd n { t with capMeasHi := w32 (t.meas.toNat / 2 ^ 32) })
    | 0x44 => (t.capMeasHi, d)
    | _ => (d.plainRead a, d)
  else (d.plainRead a, d)

/-- The switched domain whose power a CSR needs: the registers of isles, cores and the Ethernet block (R17, R291). -/
def csrDomain (a : Nat) : Option Nat :=
  if IS_CFG 0 ≤ a ∧ a < IS_CFG 96 then some ((a - IS_CFG 0) / 0x100)
  else if CP_CFG 0 ≤ a ∧ a < CP_CFG 4 then some (96 + (a - CP_CFG 0) / 0x400)
  else if 0x400C0000 ≤ a ∧ a < 0x400D0000 then some 102
  else none

/-- A read of the register at word address `a`. -/
def Dev.csrRead (a : Nat) (d : Dev) : BitVec 32 × Dev :=
  match (a - 0x40000000) / 0x10000 with
  | 0 => if IS_CFG 0 ≤ a ∧ a < IS_CFG 96 then (d.isRead ((a - IS_CFG 0) / 0x100) (a % 0x100), d) else (d.plainRead a, d)
  | 1 => d.auRead a
  | 3 => d.harbourRead a
  | 4 => d.harbourRead a
  | 5 => (if (regRow? a).isSome then d.tsRead a else 0, d)
  | 7 => d.pnRead a
  | 8 => (d.miRead a, d)
  | 9 => (d.dcRead a, d)
  | 12 => d.enRead a
  | 13 => d.spRead a
  | _ => (d.plainRead a, d)

/-! ### The configuration aperture (R229) -/

/-- Where an aperture offset below 0x18_0000 lies: the area of Table 08-7, the isle and the frame. -/
def apArea (o : Nat) : Nat := o / 0x60000
def apIsle (o : Nat) : Nat := o % 0x60000 / 0x1000
def apFrame (o : Nat) : Nat := o % 0x1000 / 0x100 + if apArea o < 2 then 0 else 16

/-- The physical copy an aperture offset names. -/
def Dev.apCopy (d : Dev) (o : Nat) : Bool := (d.isle (apIsle o)).copy != decide (apArea o % 2 = 1)

/-- The code word that holds an aperture offset. -/
def Dev.apWord (d : Dev) (o : Nat) : Nat := (frameWords (d.apCopy o) (apIsle o) (apFrame o)).getD (o % 0x100 / 8) 0

/-- One byte of contexts or planes. -/
def Dev.apByte (d : Dev) (o : Nat) : BitVec 8 :=
  let i := d.isle (apIsle o)
  let p := b2n (d.apCopy o)
  if apArea o < 2 then BitVec.ofNat 8 ((tget 0#128 i.ctx (p * 256 + o % 0x1000 / 16)).toNat / 2 ^ (8 * (o % 16)))
  else tget 0#8 i.planes (p * 4096 + o % 0x1000)

/-- One byte of the event table's window (R35). -/
def Dev.etByte (d : Dev) (o : Nat) : BitVec 8 :=
  BitVec.ofNat 8 (((d.entryWords (o / 16)).getD (o % 16 / 4) 0).toNat / 2 ^ (8 * (o % 4)))

/-- A read of `n` bytes of the event table, meeting its code words. -/
def Dev.etRead (o n : Nat) (d : Dev) : (Nat × List (BitVec 8)) × Dev :=
  let r := d.readWords (codeWords (0x41000000 + o) n)
  if r.1 then ((2, []), r.2) else ((0, (List.range n).map (fun k => d.etByte (o + k))), r.2)

/-- A read of `n` bytes of the configuration aperture. -/
def Dev.apRead (o n : Nat) (d : Dev) : (Nat × List (BitVec 8)) × Dev :=
  if 0x180000 ≤ o then d.etRead (o - 0x180000) n
  else if d.offline (apIsle o) then ((3, []), d.countOffline)
  else
    let ws := ((List.range n).map (fun k => (o + k) / 8 * 8)).eraseDups
    let r := ws.foldl (fun (r : Bool × Dev) w =>
      let q := r.2.eccReadAs (d.apWord w) (0x30000000 + w) 0
      (r.1 || q.1, if q.1 then match regionOf (0x30000000 + w) with | some g => q.2.f0 0x0D g | none => q.2 else q.2)) (false, d)
    if r.1 then ((2, []), r.2) else ((0, (List.range n).map (fun k => d.apByte (o + k))), r.2)

/-! ### Any address -/

/-- A read of `n` bytes of registers: each register touched is read once. -/
def Dev.csrReadBytes (a n : Nat) (d : Dev) : (Nat × List (BitVec 8)) × Dev :=
  match csrDomain a with
  | some x => if d.offline x then ((3, []), d.countOffline) else go d
  | none => go d
where
  /-- The registers from the one that holds `a`, then the bytes asked for. -/
  go (d : Dev) : (Nat × List (BitVec 8)) × Dev :=
    let k := (a % 4 + n + 3) / 4
    let r := (List.range k).foldl (fun (r : List (BitVec 8) × Dev) i =>
      let q := (r.2.votes [a / 4 * 4 + 4 * i]).csrRead (a / 4 * 4 + 4 * i)
      (r.1 ++ wordBytes q.1, q.2)) ([], d)
    ((0, (r.1.drop (a % 4)).take n), r.2)

/-- A read of `n` bytes at `a`, within 64 bytes (R284): the status of Table 11-5 and the bytes. -/
def Dev.busRead (a n : Nat) (d : Dev) : (Nat × List (BitVec 8)) × Dev :=
  match areaOf a with
  | 3 => d.apRead (a - 0x30000000) n
  | 4 => d.csrReadBytes a n
  | 5 => d.etRead (a - 0x41000000) n
  | _ => d.memRead a n

/-- A read by a unit at NI `i` (R283, R293). -/
def Dev.niRead (i a n : Nat) (d : Dev) : (Nat × List (BitVec 8)) × Dev :=
  let r := (d.niEnter i a n).busRead a n
  (r.1, r.2.niCount i n false (r.1.1 = 0))

end Sys2Proof.Machine
end

