-- ==== Sys2Proof/Machine/Mmu.lean ====
section
/-! DEFINITION. Translation (R250 to R255), the IO fault queue (R256) and the MM registers (R261). -/
namespace Sys2Proof.Machine

/-- The block with the MMU replaced. -/
def Dev.setMmu (m : Mmu) (d : Dev) : Dev := { d with mmu := m }

/-! ### The walk (R250 to R252) -/

/-- What a walk can end with. -/
inductive WalkRes where
  /-- It cannot translate: the level of the failing entry and CAUSE.KIND. -/
  | fault (lvl kind : Nat)
  /-- The translation: a 2 MiB block or a 4 KiB page, its base, its type and whether it is global. -/
  | found (big : Bool) (pa mattr : Nat) (glob : Bool)
  deriving DecidableEq, Repr

/-- A translation entry has a reserved bit, TYPE or MATTR (R251, R252). -/
def badFormat (e : Nat) : Bool := bits e 1 0 = 2 || 4 ≤ bits e 4 2 || bits e 11 6 ≠ 0 || bits e 63 40 ≠ 0

/-- The next table or the page of an entry: ADDR. -/
def entAddr (e : Nat) : Nat := bits e 39 12 * 4096

/-- The entry at `a`, read by NI `i`: none where the read meets a bus error. -/
def Dev.walkRead (i a : Nat) (d : Dev) : Option Nat × Dev :=
  let r := d.niRead i a 8
  (if r.1.1 = 0 then some (bytesNat r.1.2) else none, r.2)

/-- Level 3 of a walk. -/
def Dev.walk3 (i base va : Nat) (d : Dev) : WalkRes × Dev :=
  let r := d.walkRead i (base + 8 * bits va 20 12)
  (match r.1 with
    | none => .fault 3 2
    | some e =>
      if bits e 1 0 = 0 then .fault 3 0 else if badFormat e ∨ bits e 1 0 = 1 then .fault 3 1
      else .found false (entAddr e) (bits e 4 2) (bits e 5 5 = 1), r.2)

/-- Level 2 of a walk. -/
def Dev.walk2 (i base va : Nat) (d : Dev) : WalkRes × Dev :=
  let r := d.walkRead i (base + 8 * bits va 29 21)
  match r.1 with
  | none => (.fault 2 2, r.2)
  | some e =>
    if bits e 1 0 = 0 then (.fault 2 0, r.2)
    else if badFormat e then (.fault 2 1, r.2)
    else if bits e 1 0 = 1 then
      (if bits e 20 12 ≠ 0 then .fault 2 1 else .found true (entAddr e) (bits e 4 2) (bits e 5 5 = 1), r.2)
    else r.2.walk3 i (entAddr e) va

/-- A table walk by NI `i` from the level-1 table at `base`, counted in MM_CNT0. -/
def Dev.walk (i base va : Nat) (d : Dev) : WalkRes × Dev :=
  let r := (d.inc MM_CNT0_WALKS).walkRead i (base + 8 * bits va 39 30)
  match r.1 with
  | none => (.fault 1 2, r.2)
  | some e =>
    if bits e 1 0 = 0 then (.fault 1 0, r.2)
    else if badFormat e ∨ bits e 1 0 = 1 then (.fault 1 1, r.2)
    else r.2.walk2 i (entAddr e) va

/-! ### TLBs (R253 to R255) -/

/-- An entry translates `va` for ASID `as`. -/
def TlbEnt.hits (e : TlbEnt) (as va : Nat) : Bool :=
  (e.glob || e.asid = as) && e.vpn = if e.big then bits va 39 21 else bits va 39 12

/-- The physical address an entry gives. -/
def TlbEnt.addr (e : TlbEnt) (va : Nat) : Nat := if e.big then e.pa + bits va 20 0 else e.pa + bits va 11 0

/-- The entry that a walk's result makes. -/
def tlbEnt (as va : Nat) (big : Bool) (pa mattr : Nat) (glob : Bool) : TlbEnt :=
  { asid := as, glob := glob, big := big, vpn := if big then bits va 39 21 else bits va 39 12, pa := pa, mattr := mattr }

/-- The sets of the shared TLB and of the IOTLB (R253, R255). -/
def TlbEnt.l2Set (e : TlbEnt) : Nat := Config.l2Set e.big e.vpn e.asid % 256
def TlbEnt.ioSet (e : TlbEnt) : Nat := Config.ioSet e.big e.vpn e.asid % 64

/-- A TLB takes an entry into its set of `ways` entries: the manual names no replacement, so which entry of the set leaves, if any, is free (log entry 93); a
full set loses one. -/
def Dev.tlbFill (ways : Nat) (set : TlbEnt → Nat) (e : TlbEnt) (l : List TlbEnt) (d : Dev) : List TlbEnt × Dev :=
  let f := d.fresh
  let v := f.1 % (ways + 1)
  let same := l.filter (fun x => set x = set e)
  let same := if ways ≤ same.length ∧ same.length ≤ v then same.drop 1 else same.eraseIdx v
  (l.filter (fun x => set x ≠ set e) ++ same ++ [e], f.2)

/-- The shared TLB (R253): the entry it holds, where MM_CTRL.L2EN lets it be used. -/
def Dev.l2Find (d : Dev) (as va : Nat) : Option TlbEnt := if d.on MM_CTRL_L2EN then d.mmu.l2.find? (fun e => e.hits as va) else none

/-- An IO translation for a unit at NI `i` (R255): IOAS 0 is physical; a disabled space faults with NOTVALID at level 1. -/
def Dev.ioTranslate (i ioas va : Nat) (d : Dev) : Except (Nat × Nat) Nat × Dev :=
  if ioas = 0 then (.ok va, d)
  else if ¬ d.on (MM_IOTTBi_LO_EN ioas) then (.error (1, 0), d)
  else
    match d.mmu.io.find? (fun e => e.hits ioas va) with
    | some e => (.ok (e.addr va), d)
    | none =>
      let base := d.rd (MM_IOTTBi_LO_BASE ioas) * 8192 + d.rd (MM_IOTTBi_HI_BASE ioas) * 2 ^ 32
      let w := d.walk i base va
      match w.1 with
      | .fault lvl kind => (.error (lvl, kind), w.2)
      | .found big pa mattr glob =>
        let e := tlbEnt ioas va big pa mattr glob
        let f := w.2.tlbFill 4 TlbEnt.ioSet e w.2.mmu.io
        (.ok (e.addr va), f.2.setMmu { f.2.mmu with io := f.1 })

/-! ### Invalidation (R254) -/

/-- An entry that an invalidation by VA removes: the page or block that holds the address. -/
def TlbEnt.covers (e : TlbEnt) (va : Nat) : Bool := e.vpn = if e.big then bits va 39 21 else bits va 39 12

/-- The entries of a core TLB or of the shared TLB that an invalidation leaves: kind 0 by VA and ASID, 1 by ASID, 2 all, 3 by VA for every ASID. -/
def keepTlb (kind as va : Nat) (l : List TlbEnt) : List TlbEnt :=
  l.filter (fun e => match kind with
    | 0 => !(e.covers va && (e.glob || e.asid = as))
    | 1 => !e.glob && decide (e.asid ≠ as)
    | 2 => false
    | _ => !e.covers va)

/-- Invalidate in all four core TLBs and in the shared one. -/
def Dev.tlbInv (kind as va : Nat) (d : Dev) : Dev :=
  let d := d.setMmu { d.mmu with l2 := keepTlb kind as va d.mmu.l2 }
  let keep := fun (x : CoreSt) => { x with tlb := keepTlb kind as va x.tlb }
  { d with cores := (List.range 4).foldl (fun t k => tset CoreSt.reset t k (keep (tget CoreSt.reset t k))) d.cores }

/-- MM_INV with GO (R254, R261): KIND 3 acts in the IO space IOAS, or in every one for 0; the invalidation shows until MM_INV_DONE. -/
def Dev.mmInv (v : BitVec 32) (d : Dev) : Dev :=
  let d := d.plainWrite MM_INV v
  if ¬ wbit v 0 then d
  else
    let va := d.rd MM_INVVA_LO_VA * 4096 + d.rd MM_INVVA_HI_VA * 2 ^ 32
    let io := d.rd MM_INV_IOAS
    let d := if d.rd MM_INV_KIND = 3 then d.setMmu { d.mmu with io := if io = 0 then [] else d.mmu.io.filter (fun e => e.asid ≠ io) }
      else d.tlbInv (d.rd MM_INV_KIND) (d.rd MM_INV_ASID) va
    d.wr MM_STAT_INVBUSY 1

/-! ### The IO fault queue (R256) -/

/-- Show the oldest IO fault and the queue's length (Table 09-11). -/
def Dev.showFaults (d : Dev) : Dev :=
  let l := d.mmu.faults
  let d := (d.wrb MM_STAT_FQNE (l ≠ [])).wr MM_STAT_FQLEN l.length
  match l with
  | [] => ((d.setReg MM_IOFQ_SRC 0).setReg MM_IOFQ_VA_LO 0).setReg MM_IOFQ_VA_HI 0
  | f :: _ =>
    ((d.setReg MM_IOFQ_SRC (w32 (f.req + f.ioas * 2 ^ 8 + f.acc * 2 ^ 12 + f.lvl * 2 ^ 14 + f.kind * 2 ^ 16 + 2 ^ 31))).setReg MM_IOFQ_VA_LO
      (w32 f.va)).setReg MM_IOFQ_VA_HI (w32 (f.va / 2 ^ 32 % 256))

/-- A fault enters the queue, or waits in its requester where eight are queued. -/
def Dev.queueFault (f : IoFault) (d : Dev) : Dev :=
  if d.mmu.faults.length < 8 then ((d.setMmu { d.mmu with faults := d.mmu.faults ++ [f] }).showFaults).raiseIrq 5
  else (d.setMmu { d.mmu with waiting := d.mmu.waiting ++ [f] }).setFlag MM_STAT_FQWAIT

/-- An IO translation fault stops its requester. -/
def Dev.ioFault (f : IoFault) (d : Dev) : Dev :=
  let d := d.inc MM_CNT1_IOFAULT
  (d.setMmu { d.mmu with stopped := d.mmu.stopped ++ [f.req] }).queueFault f

/-- POP (R261): the oldest entry leaves, and a fault that waits takes its place. -/
def Dev.iofqPop (d : Dev) : Dev :=
  let d := (d.setMmu { d.mmu with faults := d.mmu.faults.drop 1 }).showFaults
  match d.mmu.waiting with
  | [] => d
  | f :: rest => if d.mmu.faults.length < 8 then (d.setMmu { d.mmu with waiting := rest }).queueFault f else d

/-- A requester no longer waits on a fault. -/
def Dev.unstop (req : Nat) (d : Dev) : Dev := d.setMmu { d.mmu with stopped := d.mmu.stopped.filter (fun r => r ≠ req) }

/-- MM_CLR. -/
def Dev.mmClr (d : Dev) : Dev := (d.setReg MM_CNT0 0).setReg MM_CNT1 0

/-! ### The commands -/

/-- MM_INV (R254): a write of MM_INV. -/
def execMmInv (v : BitVec 32) (s : State) : Host.Outcome State Fault Refusal := onDev (Dev.mmInv v) s
/-- MM_INV_DONE (R254). -/
def execMmInvDone (s : State) : Host.Outcome State Fault Refusal := onDev (fun d => d.wr MM_STAT_INVBUSY 0) s
/-- IOFQ_POP (R261). -/
def execIofqPop (s : State) : Host.Outcome State Fault Refusal := onDev Dev.iofqPop s
/-- MM_CLR (R261). -/
def execMmClr (s : State) : Host.Outcome State Fault Refusal := onDev Dev.mmClr s

end Sys2Proof.Machine
end

