-- ==== Sys2Proof/Machine/Dma.lean ====
section
/-! DEFINITION. The DMA engines and the isles' stream ports (R128, R294 to R300, R302): descriptors, packets, faults, aborts and ends. -/
namespace Sys2Proof.Machine

/-! ### Requesters: engines 0 to 3, and the stream port of isle n as 0x80 + n (Table 02-3) -/

/-- The descriptor in progress of a requester. -/
def Dev.xfer (d : Dev) (q : Nat) : Option Xfer := if q < 4 then tget none d.net.eng q else (d.isle (q - 128)).xfer

/-- The block with a requester's descriptor replaced; an engine's registers show it. -/
def Dev.setXfer (q : Nat) (x : Option Xfer) (d : Dev) : Dev :=
  if q < 4 then
    let d := ({ d with net := { d.net with eng := tset none d.net.eng q x } } : Dev).wrb (DM_ENGe_STAT_BUSY q) x.isSome
    match x with
    | none => d.wr (DM_ENGe_STAT_FWAIT q) 0
    | some x =>
      let d := ((d.wrb (DM_ENGe_STAT_FWAIT q) (x.phase = 3)).wr (DM_ENGe_STAT_TRIG q) x.trig).wr (DM_ENGe_PROG_BYTES q) x.prog
      (d.setReg (DM_ENGe_DESC_LO q) (w32 (x.desc / 32 * 32))).setReg (DM_ENGe_DESC_HI q) (w32 (x.desc / 2 ^ 32 % 256))
  else
    let d := (d.setIsle (q - 128) { d.isle (q - 128) with xfer := x }).wrb (IS_SSTAT_BUSY (q - 128)) x.isSome
    match x with
    | none => d
    | some x => d.wr (IS_SSTAT_TRIG (q - 128)) x.trig

/-- The NI of a requester (Table 11-1). -/
def niOfReq (q : Nat) : Nat := if q < 4 then 28 + q else (q - 128) % 12 / 2 + (q - 128) / 12 / 2 * 6

/-! ### Descriptors (R295, R300) -/

/-- A byte range lies in an isle's lagoon. -/
def inLagoon (n a len : Nat) : Bool := decide (0x10000000 + n * 0x20000 ≤ a) && decide (a + len ≤ 0x10000000 + (n + 1) * 0x20000)

/-- The descriptor that the words at `a` make. -/
def xferOf (trig a : Nat) (ws : List (BitVec 32)) : Xfer :=
  let w := fun (i : Nat) => (ws.getD i 0).toNat
  { trig := trig, desc := a, w0 := ws.getD 0 0, w1 := ws.getD 1 0, src := w 1 + w 2 * 2 ^ 32, dst := w 3 + w 4 * 2 ^ 32, len := w 5 % 2 ^ 24,
    next := w 6 / 32 * 32 + w 7 % 256 * 2 ^ 32, prog := 0, dpa := 0, phase := 0, err := none }

/-- The descriptor fills with the pattern of word 1. -/
def Xfer.fill (x : Xfer) : Bool := wbits x.w0 1 0 = 1
/-- The source and the destination are host memory. -/
def Xfer.shost (x : Xfer) : Bool := wbit x.w0 12
def Xfer.dhost (x : Xfer) : Bool := wbit x.w0 13

/-- A descriptor gives BADDESC (Table 11-9, R300): a reserved KIND or bit, no length, a device address beyond 40 bits, or, for a stream port, neither address
nor NEXT in its lagoon. -/
def badDesc (q : Nat) (x : Xfer) (ws : List (BitVec 32)) : Bool :=
  let w := fun (i : Nat) => (ws.getD i 0).toNat
  let n := q - 128
  let mine := (!x.fill && !x.shost && wbits x.w0 7 4 = 0 && inLagoon n x.src x.len) || (!x.dhost && wbits x.w0 11 8 = 0 && inLagoon n x.dst x.len)
  decide (2 ≤ wbits x.w0 1 0) || wbits x.w0 31 28 ≠ 0 || x.len = 0 || decide (2 ^ 24 ≤ w 5) || w 6 % 32 ≠ 0 || decide (256 ≤ w 7) ||
  (!x.fill && !x.shost && decide (2 ^ 40 ≤ x.src)) || (!x.dhost && decide (2 ^ 40 ≤ x.dst)) ||
  (decide (128 ≤ q) && (!mine || (wbit x.w0 2 && !inLagoon n x.next 32)))

/-! ### Sending -/

/-- A request is given to its NI: held there by a route commit (R283), or where 64 are outstanding (R288). -/
def Dev.send (p : Packet) (d : Dev) : Dev :=
  let p := { p with held := (d.routeWait p.src).any (fun c => c.dest = p.dst) || decide (64 ≤ d.outstandingOf p.src), at_ := d.now }
  let d : Dev := { d with net := { d.net with reqs := d.net.reqs ++ [p] } }
  (if p.write then d.countBytes p.src p.len true else d).showOutst p.src

/-- The request of a requester for `n` bytes at a translated address: on VC2, or VC0 where an engine's descriptor has VCREQ (R295, R300). -/
def Dev.reqPacket (d : Dev) (q a n : Nat) (vc0 host write : Bool) (data : List (BitVec 8)) : Packet :=
  { src := niOfReq q, dst := if host then 38 else d.niOf a, req := q, write := write, addr := a, host := host, len := n, data := data, status := 0,
    at_ := d.now, held := false, vc := if vc0 && decide (q < 4) then 0 else 2, codes := [], legs := [] }

/-! ### The ends of a descriptor (R296, R297) -/

/-- A descriptor ends in error: the chain stops. -/
def Dev.xferError (q code : Nat) (x : Xfer) (d : Dev) : Dev :=
  let d := (d.setXfer q (some { x with phase := 0 })).setXfer q none
  let d := if q < 4 then
      let d := ((d.setFlag (DM_ENGe_STAT_ERR q)).wr (DM_ENGe_STAT_CODE q) code).inc (DM_ENGe_CNT1_ERRC q)
      d.raiseIrq 7
    else (d.setFlag (IS_SSTAT_ERR (q - 128))).f0 0x05 (q - 128)
  let d := d.unstop q
  if wbit x.w0 15 then d.arrive 1 (wbits x.w0 27 16) 0 else d

/-- An error is met with nothing outstanding: an engine's descriptor ends, a stream port's ends with STREAM_TRANSFER_DONE. -/
def Dev.xferFail (q code : Nat) (x : Xfer) (d : Dev) : Dev :=
  if q < 4 then d.xferError q code x else (d.setXfer q (some { x with phase := 0, err := some code })).unstop q

/-- The bytes of the next packet (R284, R296): it crosses no 64-byte boundary of the destination nor, where it reads, of the source. -/
def Xfer.chunk (x : Xfer) : Nat :=
  let n := min (x.len - x.prog) (64 - (x.dst + x.prog) % 64)
  if x.fill then n else min n (64 - (x.src + x.prog) % 64)

/-- The bytes a fill writes from offset `prog`. -/
def Xfer.pattern (x : Xfer) (n : Nat) : List (BitVec 8) :=
  let o := x.prog + if Config.fillByAddress then x.dst else 0
  (List.range n).map (fun k => (wordBytes x.w1).getD ((o + k) % 4) 0)

/-- One address of a packet is translated: a host address is not; beyond 40 bits there is no target. -/
def Dev.xlate (q : Nat) (host : Bool) (ioas a : Nat) (d : Dev) : Except (Nat × Nat) Nat × Dev :=
  if host then (.ok a, d) else if 2 ^ 40 ≤ a then (.error (0, 0), d) else d.ioTranslate (niOfReq q) ioas a

/-- An address that was not translated stops the requester on an IO fault, or ends the descriptor with DECERR where it lies beyond the address space. -/
def Dev.xferFault (q : Nat) (x : Xfer) (ioas acc va : Nat) (f : Nat × Nat) (d : Dev) : Dev :=
  if f.1 = 0 then d.xferFail q 1 x
  else (d.setXfer q (some { x with phase := 3 })).ioFault { req := q, ioas := ioas, acc := acc, lvl := f.1, kind := f.2, va := va }

/-- Issue the next packet of a descriptor, unless all is written: source and destination are translated before the read. The stream port of an isle whose
domain closes issues no more (R291). -/
def Dev.xferIssue (q : Nat) (x : Xfer) (d : Dev) : Dev :=
  if x.len ≤ x.prog ∨ (4 ≤ q ∧ d.net.closed.contains (q - 128)) then d.setXfer q (some { x with phase := 0 })
  else
    let n := x.chunk
    let s := if x.fill then (.ok 0, d) else d.xlate q x.shost (wbits x.w0 7 4) (x.src + x.prog)
    match s.1 with
    | .error f => s.2.xferFault q x (wbits x.w0 7 4) 1 (x.src + x.prog) f
    | .ok sa =>
      let t := s.2.xlate q x.dhost (wbits x.w0 11 8) (x.dst + x.prog)
      match t.1 with
      | .error f => t.2.xferFault q x (wbits x.w0 11 8) 2 (x.dst + x.prog) f
      | .ok ta =>
        let d := t.2
        if x.fill then (d.setXfer q (some { x with dpa := ta, phase := 2 })).send (d.reqPacket q ta n (wbit x.w0 14) x.dhost true (x.pattern n))
        else (d.setXfer q (some { x with dpa := ta, phase := 1 })).send (d.reqPacket q sa n (wbit x.w0 14) x.shost false [])

/-- Read the descriptor at `a` and start it. -/
def Dev.descStart (q trig a : Nat) (d : Dev) : Dev :=
  let r := if a % 32 = 0 then d.niRead (niOfReq q) a 32 else ((1, []), d)
  let ws := bytesWords r.1.2 8
  let x := xferOf trig a ws
  if r.1.1 ≠ 0 then r.2.xferFail q 5 { x with w0 := 0 }
  else if badDesc q x ws then r.2.xferFail q 5 x
  else r.2.xferIssue q x

/-- A descriptor completes (R296): its token goes to the scheduler, and the chain continues or ends. -/
def Dev.xferComplete (q : Nat) (x : Xfer) (d : Dev) : Dev :=
  let d := if q < 4 then d.inc (DM_ENGe_CNT0_DONE q) else d
  let d := if wbit x.w0 3 then d.arrive 1 (wbits x.w0 27 16) 0 else d
  if wbit x.w0 2 then d.descStart q x.trig x.next else d.setXfer q none

/-! ### Responses (R290) -/

/-- A response reaches its requester: the read's data goes on, a write counts, and another status ends the descriptor. -/
def Dev.xferResponse (p : Packet) (d : Dev) : Dev :=
  match d.xfer p.req with
  | none => d
  | some x =>
    let ok := p.status = 0
    let x := if ok && p.write then { x with prog := x.prog + p.len } else x
    match x.err with
    | some e => d.xferFail p.req e x
    | none =>
      if ¬ ok then d.xferFail p.req p.status x
      else if p.write then d.xferIssue p.req { x with phase := 0 }
      else (d.setXfer p.req (some { x with phase := 2 })).send (d.reqPacket p.req x.dpa p.len (wbit x.w0 14) x.dhost true p.data)

/-! ### Starts (R294, R128) -/

/-- An idle engine starts the chain of its next trigger: the descriptor's address lies in the trigger table. -/
def Dev.chainStart (e : Nat) (d : Dev) : Dev :=
  match d.dmaQueue e with
  | [] => d
  | t :: rest =>
    if (d.xfer e).isSome ∨ ¬ d.on (DM_ENGe_CFG_EN e) then d
    else
      let d := d.setDmaQueue e rest
      let ttb := d.rd (DM_ENGe_TTB_LO_ADDR e) * 512 + d.rd (DM_ENGe_TTB_HI_ADDR e) * 2 ^ 32
      let r := d.niRead (28 + e) (ttb + 8 * t) 8
      let a := bytesNat r.1.2
      if r.1.1 ≠ 0 ∨ 2 ^ 40 ≤ a then r.2.xferError e 5 { xferOf t a [] with w0 := 0 } else r.2.descStart e t a

/-- A stream port free of transfers starts the descriptor of its next trigger. -/
def Dev.streamStart (n : Nat) (d : Dev) : Dev :=
  let i := d.isle n
  match i.sq with
  | [] => d
  | t :: rest =>
    if i.xfer.isSome ∨ ¬ d.isleLive n ∨ d.net.closed.contains n then d
    else
      let d := (d.setIsle n { i with sq := rest }).wr (IS_SSTAT_QLEN n) rest.length
      let w := d.rd (IS_SDBASE_BASE n) + 8 * t
      let a := 0x10000000 + n * 0x20000 + 4 * w
      if 0x8000 < w + 8 then d.xferFail (128 + n) 5 { xferOf t a [] with w0 := 0 } else d.descStart (128 + n) t a

/-- A stream transfer completes or ends in error, once nothing is outstanding. -/
def Dev.streamDone (n : Nat) (d : Dev) : Dev :=
  match d.xfer (128 + n) with
  | none => d
  | some x =>
    if x.phase ≠ 0 then d
    else match x.err with
      | some e => d.xferError (128 + n) e x
      | none => if x.len ≤ x.prog then d.xferComplete (128 + n) x else d

/-- Every write of an engine's descriptor has been answered OK. -/
def Dev.descComplete (e : Nat) (d : Dev) : Dev :=
  match d.xfer e with
  | none => d
  | some x => if x.phase = 0 ∧ x.len ≤ x.prog ∧ x.err = none then d.xferComplete e x else d

/-! ### Aborts, faults and timeouts (R298, R299, R256, R360) -/

/-- ABORT while a descriptor runs: it ends once nothing is outstanding. -/
def Dev.abortRun (e : Nat) (d : Dev) : Dev :=
  match d.xfer e with
  | none => d
  | some x => if x.phase = 1 ∨ x.phase = 2 then d.setXfer e (some { x with err := some 7 }) else d.xferError e 7 x

/-- A write of 1 to ABORT: ignored once the chain is complete; a completed descriptor that chains on completes, and the next one is aborted. -/
def Dev.dmaAbort (e : Nat) : Dev → Dev := Dev.unlessHeld fun d =>
  match d.xfer e with
  | none => d
  | some x =>
    if x.phase = 0 ∧ x.len ≤ x.prog ∧ x.err = none then (if wbit x.w0 2 then (d.xferComplete e x).abortRun e else d) else d.abortRun e

/-- A write of MM_IORES (R256): a requester that waits on a fault repeats the walk, or ends its transfer with IOFAULT. -/
def Dev.ioRes (v : BitVec 32) : Dev → Dev := Dev.unlessHeld fun d =>
  let d := d.plainWrite MM_IORES v
  let q := wbits v 7 0
  if ¬ wbit v 31 ∨ ¬ d.mmu.stopped.contains q then d
  else
    let d := d.unstop q
    match d.xfer q with
    | none => d
    | some x => if x.phase ≠ 3 then d else if wbit v 8 then d.xferFail q 6 x else d.xferIssue q { x with phase := 0 }

/-- A read of host memory has not been answered within HL_CPLTO ms: the descriptor ends with DECERR. -/
def Dev.hostReadTimeout (q : Nat) (d : Dev) : Dev :=
  let hit := fun (p : Packet) => p.req = q && p.host && !p.write && !p.held && decide (p.at_ + 800000 * max 1 (d.rd HL_CPLTO_MS) ≤ d.now)
  match takeFirst hit d.net.reqs with
  | none => d
  | some (p, rest) =>
    let d := (({ d with net := { d.net with reqs := rest } } : Dev).showOutst p.src).inc HL_CNT1_CPLTO
    d.xferResponse { p with status := 1 }

/-! ### Registers (R302) -/

/-- A write of a DM register. -/
def Dev.dmWrite (a : Nat) (v : BitVec 32) (d : Dev) : Dev :=
  if a < DM_ENGe_CFG 0 ∨ DM_ENGe_CFG 4 ≤ a then d
  else
    let e := (a - DM_ENGe_CFG 0) / 0x40
    match (a - DM_ENGe_CFG 0) % 0x40 with
    | 0x04 => if d.on (DM_ENGe_STAT_BUSY e) then d else d.plainWrite a v
    | 0x08 => if d.on (DM_ENGe_STAT_BUSY e) then d else d.plainWrite a v
    | 0x0C =>
      let d := d.plainWrite a v
      if wbit v 31 then d.dmaTrigger e (wbits v 5 0) else d
    | 0x10 =>
      let d := if wbit v 0 then d.dmaAbort e else d
      if wbit v 1 then d.dmaClr e else d
    | _ => d.plainWrite a v

/-! ### The commands -/

/-- DMA_CHAIN_START (R294). -/
def execDmaChainStart (e : Fin 4) (s : State) : Host.Outcome State Fault Refusal := onDev (Dev.unlessHeld (Dev.chainStart e.val)) s
/-- DMA_DESC_COMPLETE (R296). -/
def execDmaDescComplete (e : Fin 4) (s : State) : Host.Outcome State Fault Refusal := onDev (Dev.unlessHeld (Dev.descComplete e.val)) s
/-- DMA_ABORT (R299). -/
def execDmaAbort (e : Fin 4) (s : State) : Host.Outcome State Fault Refusal := onDev (Dev.dmaAbort e.val) s
/-- STREAM_TRANSFER_START (R128). -/
def execStreamTransferStart (n : Fin 96) (s : State) : Host.Outcome State Fault Refusal := onDev (Dev.unlessHeld (Dev.streamStart n.val)) s
/-- STREAM_TRANSFER_DONE (R300). -/
def execStreamTransferDone (n : Fin 96) (s : State) : Host.Outcome State Fault Refusal := onDev (Dev.unlessHeld (Dev.streamDone n.val)) s
/-- IORES (R256): a write of MM_IORES. -/
def execIores (v : BitVec 32) (s : State) : Host.Outcome State Fault Refusal := onDev (Dev.ioRes v) s
/-- HOST_READ_TIMEOUT (R360). -/
def execHostReadTimeout (q : BitVec 8) (s : State) : Host.Outcome State Fault Refusal := onDev (Dev.hostReadTimeout q.toNat) s

end Sys2Proof.Machine
end

