-- ==== Sys2Proof/Machine/BusWrite.lean ====
section
/-! DEFINITION. Writes over the whole address map (R4, R15 to R18, R279): CSR blocks with the write-acceptance rules of each block, the configuration
aperture (R229), and what the host reaches through its windows (R347, R348). -/
namespace Sys2Proof.Machine

/-! ### Angle unit (R58) and event table (R59) -/

/-- A write of AU_CTRL: each enable bit that changes enables or disables its domain; bit 7 stays 1. -/
def Dev.auCtrl (v : BitVec 32) (d : Dev) : Dev :=
  forUpTo 7 (fun n d => if wbit v n then d.enableDomain n else if d.adOn n then d.disableDomain n else d) d

/-- A write of an AD register of domain `n` (R30, R51, R58). -/
def Dev.adWrite (n o : Nat) (v : BitVec 32) (d : Dev) : Dev :=
  let a := AU_ADn_CFG n + o
  match o with
  | 0x00 => if d.adOn n then d.setFlagBit AU_STAT_CFGERR n
            else if wbits v 19 16 ≠ d.rd (AU_ADn_CFG_LFK n) ∧ d.mcArmedOn n then d.setFlagBit AU_STAT_CFGERR n
            else d.plainWrite a v
  | 0x04 => if d.adOn n then d.setFlagBit AU_STAT_CFGERR n else d.plainWrite a v
  | 0x14 =>
    let d := if wbit v 0 then d.setReg (AU_ADn_CNT n) 0 else d
    let d := if wbit v 1 then d.setAng n else d
    if wbit v 2 then d.setVel n else d
  | _ => d.plainWrite a v

/-- A write of AU_MCs_CTL (R54, R56): ABORT of what is armed, then ARM. -/
def Dev.mcCtl (s : Nat) (v : BitVec 32) (d : Dev) : Dev :=
  let d := if wbit v 9 then d.modeChangeAbort s 0x0F else d
  if wbit v 8 then d.mcArm s (wbits v 2 0) else d.wr (AU_MCs_CTL_DOM s) (wbits v 2 0)

/-- A write of an insertion port's register (R42): refused with OVR while the port is busy. -/
def Dev.insWrite (p o : Nat) (v : BitVec 32) (d : Dev) : Dev :=
  let a := ET_INSp_W0 p + o
  if o = 0x14 then d.plainWrite a v
  else if d.on (ET_INSp_STAT_BUSY p) then d.setFlag (ET_INSp_STAT_OVR p)
  else if o = 0x10 ∧ wbit v 31 then d.insertGo p (wbits v 5 0)
  else d.plainWrite a v

/-- A write of ET_DEL (R44). -/
def Dev.delWrite (v : BitVec 32) (d : Dev) : Dev :=
  if wbit v 31 ∨ d.on ET_DEL_STAT_BUSY then d.deleteGo (wbits v 14 0) else d.plainWrite ET_DEL v

/-- A write of ET_LCFGl (R59): DOM and DIR are ignored while the list holds entries. -/
def Dev.lcfgWrite (l : Nat) (v : BitVec 32) (d : Dev) : Dev :=
  if d.on (ET_LSTATl_COUNT l) then d.wr (ET_LCFGl_EN l) (wbits v 0 0) else d.plainWrite (ET_LCFGl l) v

/-- A write of an AU or ET register. -/
def Dev.auWrite (a : Nat) (v : BitVec 32) (d : Dev) : Dev :=
  if a = AU_CTRL then d.auCtrl v
  else if AU_ADn_CFG 0 ≤ a ∧ a < AU_ADn_CFG 8 then d.adWrite ((a - AU_ADn_CFG 0) / 0x80) ((a - AU_ADn_CFG 0) % 0x80) v
  else if AU_MCs_CTL 0 ≤ a ∧ a < AU_MCs_CTL 8 ∧ (a - AU_MCs_CTL 0) % 0x20 = 0 then d.mcCtl ((a - AU_MCs_CTL 0) / 0x20) v
  else if a = ET_CLR then
    let d := if wbit v 0 then d.wr ET_STAT_DROP 0 else d
    if wbit v 1 then d.etClrLate else d
  else if ET_INSp_W0 0 ≤ a ∧ a < ET_INSp_W0 8 then d.insWrite ((a - ET_INSp_W0 0) / 0x20) ((a - ET_INSp_W0 0) % 0x20) v
  else if a = ET_DEL then d.delWrite v
  else if ET_LCFGl 0 ≤ a ∧ a < ET_LCFGl 64 ∧ (a - ET_LCFGl 0) % 8 = 0 then d.lcfgWrite ((a - ET_LCFGl 0) / 8) v
  else d.plainWrite a v

/-! ### Run-ahead (R159) -/

/-- A write of a task's register. -/
def Dev.ltWrite (t o : Nat) (v : BitVec 32) (d : Dev) : Dev :=
  let a := AHD_LTt_CFG t + o
  match o with
  | 0x00 => d.taskCfgWrite t v
  | 0x04 => d.polWrite t v
  | 0x38 =>
    let d := if wbit v 0 then d.clrTaskCnt t else d
    let d := if wbit v 1 then d.squashCause t (d.front t) else d
    if wbit v 2 then d.haltTask 1 t else d
  | _ =>
    if (o = 0x0C ∨ o = 0x10 ∨ o = 0x14 ∨ o = 0x18) ∧ d.on (AHD_LTt_CFG_EN t) then d.taskFlag t (AHD_LTt_STAT_CFGERR t)
    else d.plainWrite a v

/-- A write of a binding's register: refused while the task it names is enabled. -/
def Dev.tbWrite (b a : Nat) (v : BitVec 32) (d : Dev) : Dev :=
  let t := d.rd (AHD_TBb_ID_TASK b)
  if t < 48 ∧ d.on (AHD_LTt_CFG_EN t) then d.taskFlag t (AHD_LTt_STAT_CFGERR t) else d.plainWrite a v

/-- A write of an AHD register. -/
def Dev.ahdWrite (a : Nat) (v : BitVec 32) (d : Dev) : Dev :=
  if a = AHD_CTRL then
    if d.on AHD_CTRL_EN ∧ ¬ wbit v 0 then d.ahdDisable 3 else d.plainWrite a v
  else if AHD_LTt_CFG 0 ≤ a ∧ a < AHD_LTt_CFG 48 then d.ltWrite ((a - AHD_LTt_CFG 0) / 0x40) ((a - AHD_LTt_CFG 0) % 0x40) v
  else if AHD_TBb_ID 0 ≤ a ∧ a < AHD_TBb_ID 128 then d.tbWrite ((a - AHD_TBb_ID 0) / 0x20) a v
  else if AHD_SNs_CTL 0 ≤ a ∧ a < AHD_SNs_CTL 8 then d.snapWrite ((a - AHD_SNs_CTL 0) / 0x40) a v
  else d.plainWrite a v

/-! ### Cores and isles (R129, R260) -/

/-- CP_CTL.HALT (R260): at the next boundary outside trap mode. -/
def Dev.coreHalt (c : Nat) (d : Dev) : Dev :=
  if ¬ d.on (CP_STAT_RUN c) then d
  else if (d.core c).st.tw ∨ (d.core c).st.df then d.modCore c (fun x => { x with haltReq := true })
  else d.wr (CP_STAT_RUN c) 0

/-- CP_CTL.RUN (R241): the core starts at CP_RVEC. -/
def Dev.coreRun (c : Nat) (d : Dev) : Dev := d.coreStart c

/-- A write of CP_IRAISE. -/
def Dev.iraise (c m : Nat) (d : Dev) : Dev := d.wr (CP_IPEND_PEND c) (Nat.lor (d.rd (CP_IPEND_PEND c)) m)

/-- CP_CLR. -/
def Dev.cpClr (c : Nat) (d : Dev) : Dev := (d.setReg (CP_CNT0 c) 0).setReg (CP_CNT1 c) 0

/-- A write of a CP register of core `c`. -/
def Dev.cpWrite (c o : Nat) (v : BitVec 32) (d : Dev) : Dev :=
  match o with
  | 0x04 =>
    let d := if wbit v 0 then d.coreRun c else d
    if wbit v 1 then d.coreHalt c else d
  | 0x1C => d.iraise c (wbits v 7 0)
  | 0x38 => if wbit v 0 then d.cpClr c else d
  | _ => d.plainWrite (CP_CFG c + o) v

/-! ### Configuration (R224, R231, R234) -/

/-- A GO of the ICP (R221, R224): refused with BUSY unless the ICP is IDLE, APPLIED or FAILED. -/
def Dev.icpStart (v : BitVec 32) (d : Dev) : Dev :=
  let st := d.rd CF_ICP_STAT_STATE
  if 1 ≤ st ∧ st ≤ 4 then d.setFlag CF_STAT_BUSY
  else
    let d := d.votes causewayWords
    let d := (((d.plainWrite CF_ICP_CTL v).setReg CF_ICP_STAT 0).wr CF_ICP_STAT_STATE 1).setReg CF_ICP_DONE 0
    let d := d.setReg CF_ICP_NEED 0
    { d with cfg := { d.cfg with icp := { Icp.reset with phase := 1, at_ := d.now } } }

/-- ABORT of the ICP (R223): before the slot is armed it ends the image; after, it acts as an ABORT of the slot. -/
def Dev.icpAbort (d : Dev) : Dev :=
  if d.cfg.icp.phase = 0 then d
  else if d.cfg.icp.phase ≤ 4 then d.icpFail 0x0F 0xFF
  else d.modeChangeAbort (d.rd CF_ICP_CTL_SLOT) 0x0F

/-- The ICP works: its STATE is FETCH, CHECK, STAGE or ARMED (R224). -/
def Dev.icpBusy (d : Dev) : Bool := decide (1 ≤ d.rd CF_ICP_STAT_STATE) && decide (d.rd CF_ICP_STAT_STATE ≤ 4)

/-- A write of CF_ICP_CTL (R224): while the ICP works, all but ABORT is ignored; a change of DOM or SLOT then sets CFGERR, and so does a write that
orders nothing. -/
def Dev.icpCtl (v : BitVec 32) (d : Dev) : Dev :=
  let busy := d.icpBusy
  let old := rwPart CF_ICP_CTL (d.reg CF_ICP_CTL)
  let d := if wbit v 1 then d.icpAbort else d
  if wbit v 0 then d.icpStart v
  else if !busy then d.plainWrite CF_ICP_CTL v
  else if wbit v 1 && decide (rwPart CF_ICP_CTL v = old) then d else d.setFlag CF_STAT_CFGERR

/-- A write of a CF register. -/
def Dev.cfWrite (a : Nat) (v : BitVec 32) (d : Dev) : Dev :=
  if a = CF_ICP_CTL then d.icpCtl v
  else if CF_ICP_SRC_LO ≤ a ∧ a ≤ CF_ICP_NEED then if d.icpBusy then d.setFlag CF_STAT_CFGERR else d.plainWrite a v
  else if a = CF_RB_CTL ∧ wbit v 0 then d.rbGo v
  else d.plainWrite a v

/-! ### MMU and power -/

/-- A write of an MM register (R261). -/
def Dev.mmWrite (a : Nat) (v : BitVec 32) (d : Dev) : Dev :=
  if a = MM_INV then d.mmInv v
  else if a = MM_IOFQ_POP then if wbit v 0 then d.iofqPop else d
  else if a = MM_IORES then d.ioRes v
  else if a = MM_CLR then if wbit v 0 then d.mmClr else d
  else d.plainWrite a v

/-- A write of PC_CTL (R413). -/
def Dev.pcCtl (v : BitVec 32) (d : Dev) : Dev :=
  if wbit v 0 ∧ wbits v 15 8 = 0x5A then d.deviceReset 4 d.power.good d.power.held else d

/-- A write of PC_DOMREQ (R417, R418). -/
def Dev.domReq (v : BitVec 32) (d : Dev) : Dev :=
  let d := d.plainWrite PC_DOMREQ v
  if ¬ wbit v 31 then d
  else if wbit v 8 then d.startDomainReq (wbits v 6 0) else d.offDomainReq (wbits v 6 0)

/-- A write of a PC register (R431). -/
def Dev.pcWrite (a : Nat) (v : BitVec 32) (d : Dev) : Dev :=
  if a = PC_CTL then d.pcCtl v
  else if a = PC_DOMREQ then d.domReq v
  else if a = PC_WDT_CTL then d.wdtCtl v
  else if a = PC_WDT_KICK then d.wdtKick
  else if PC_ROWr 0 ≤ a ∧ a < PC_ROWr 8 then d.rowWrite ((a - PC_ROWr 0) / 4) v
  else d.plainWrite a v

/-! ### Any register -/

/-- A 32-bit write of the register at word address `a`; an offset that holds no register is left alone (R18). -/
def Dev.csrWrite (a : Nat) (v : BitVec 32) (d : Dev) : Dev :=
  if (regRow? a).isNone then d
  else match (a - 0x40000000) / 0x10000 with
  | 0 =>
    if IS_CFG 0 ≤ a then d.isWrite ((a - IS_CFG 0) / 0x100) (a % 0x100) v
    else d.cpWrite ((a - CP_CFG 0) / 0x400) ((a - CP_CFG 0) % 0x400) v
  | 1 => d.auWrite a v
  | 2 => d.ahdWrite a v
  | 3 => d.harbourWrite a v
  | 4 => d.harbourWrite a v
  | 5 => d.tsWrite a v
  | 6 => if a < 0x40068000 then d.mmWrite a v else d.dmWrite a v
  | 7 => d.pnWrite a v
  | 8 => d.miWrite a v
  | 9 => d.dcWrite a v
  | 10 => d.cfWrite a v
  | 11 => d.hlWrite a v
  | 12 => d.enWrite a v
  | 13 => d.spWrite a v
  | 14 => d.pcWrite a v
  | _ => d.ssWrite a v

/-- The value a write of some bytes of a register carries: bytes not written keep what RW fields hold and write 0 to other fields. -/
def Dev.laneValue (d : Dev) (w a : Nat) (bs : List (BitVec 8)) : BitVec 32 :=
  let old := wordBytes (rwPart w (d.reg w))
  let b := fun (k : Nat) => if a ≤ w + k ∧ w + k < a + bs.length then bs.getD (w + k - a) 0 else old.getD k 0
  w32 (bytesNat [b 0, b 1, b 2, b 3])

/-- A write of bytes to registers, each register once. -/
def Dev.csrWriteBytes (a : Nat) (bs : List (BitVec 8)) (d : Dev) : Nat × Dev :=
  let go := fun (d : Dev) =>
    (List.range ((a % 4 + bs.length + 3) / 4)).foldl (fun (d : Dev) i =>
      let w := a / 4 * 4 + 4 * i
      let d := d.votes [w]
      d.csrWrite w (d.laneValue w a bs)) d
  match csrDomain a with
  | some x => if d.offline x then (3, d.countOffline) else (0, go d)
  | none => (0, go d)

/-! ### The configuration aperture (R229) -/

/-- One byte of contexts or planes of the copy that offset `o` names. -/
def Dev.setApByte (o : Nat) (v : BitVec 8) (d : Dev) : Dev :=
  let i := d.isle (apIsle o)
  let p := b2n (d.apCopy o)
  if apArea o < 2 then
    let k := p * 256 + o % 0x1000 / 16
    let w := (tget 0#128 i.ctx k).toNat
    let sh := 2 ^ (8 * (o % 16))
    d.setIsle (apIsle o) { i with ctx := tset 0#128 i.ctx k (BitVec.ofNat 128 (w - w / sh % 256 * sh + v.toNat * sh)) }
  else d.setIsle (apIsle o) { i with planes := tset 0#8 i.planes (p * 4096 + o % 0x1000) v }

/-- Write bytes of one code word of a staging area: a part of a word reads the old word first. -/
def Dev.apWriteWord (w o : Nat) (bs : List (BitVec 8)) (d : Dev) : Nat × Dev :=
  let r := if bs.length = 8 then (false, d) else d.eccReadAs (d.apWord w) (0x30000000 + w) 0
  if r.1 then (2, r.2)
  else
    let x : Nat × Dev := bs.foldl (fun (x : Nat × Dev) b => (x.1 + 1, x.2.setApByte x.1 b)) (o, r.2)
    (0, x.2.eccWrite (x.2.apWord w))

/-- A write of bytes to the configuration aperture. -/
def Dev.apWrite (o : Nat) (bs : List (BitVec 8)) (d : Dev) : Nat × Dev :=
  if 0x180000 ≤ o then (0, d)
  else if d.offline (apIsle o) then (3, d.countOffline)
  else if apArea o % 2 = 0 then (0, d)
  else if d.on (IS_STAT_SYNC (apIsle o)) then (0, d.setFlag (IS_STAT_CFGERR (apIsle o)))
  else
    let ws := ((List.range bs.length).map (fun k => (o + k) / 8 * 8)).eraseDups
    ws.foldl (fun (r : Nat × Dev) w =>
      let lo := max o w
      let hi := min (o + bs.length) (w + 8)
      let q := r.2.apWriteWord w lo ((bs.drop (lo - o)).take (hi - lo))
      (if r.1 = 0 then q.1 else r.1, q.2)) (0, d)

/-! ### Any address -/

/-- A write of bytes at `a`, within 64 bytes (R284): the status of Table 11-5. -/
def Dev.busWrite (a : Nat) (bs : List (BitVec 8)) (d : Dev) : Nat × Dev :=
  match areaOf a with
  | 3 => d.apWrite (a - 0x30000000) bs
  | 4 => d.csrWriteBytes a bs
  | 5 => (0, d)
  | _ => d.memWrite a bs

/-- A write by a unit at NI `i` (R283, R293). -/
def Dev.niWrite (i a : Nat) (bs : List (BitVec 8)) (d : Dev) : Nat × Dev :=
  let r := (d.niEnter i a bs.length).busWrite a bs
  (r.1, r.2.niCount i bs.length true (r.1 = 0))

/-! ### The host's windows (R347, R348) -/

/-- The device address a BAR0 offset reaches (Table 14-2). -/
def bar0Addr (o : Nat) : Option Nat :=
  if o < 0x100000 then some (0x40000000 + o)
  else if 0x400000 ≤ o ∧ o < 0x480000 then some (0x41000000 + (o - 0x400000))
  else if 0x800000 ≤ o ∧ o < 0x840000 then some (o - 0x800000)
  else none

/-- A Completer Abort. -/
def Dev.completerAbort (d : Dev) : Dev := (d.setFlag HL_STAT_CA).inc HL_CNT0_CA

/-- A host write is dropped (R17, R347). -/
def Dev.dropWrite (d : Dev) : Dev := ((d.setFlag HL_STAT_DROPW).inc HL_CNT0_DROPW).f0 0x0A 0

/-- A host write of an MSI-X table word (Table 14-2): clearing a mask bit unmasks its vector (R359). -/
def Dev.msixWrite (i : Nat) (v : BitVec 32) (d : Dev) : Dev :=
  if i % 4 = 3 ∧ wbit (d.msixWord i) 0 ∧ ¬ wbit v 0 then (d.setMsixWord i (wput v 0 0 1)).msiUnmask (i / 4) else d.setMsixWord i v

/-- A host read of a device address: the data shows, or a Completer Abort is sent (R17). -/
def Dev.hostRead (a : Nat) (d : Dev) : Dev :=
  let r := d.niRead 38 a 4
  if r.1.1 = 0 then { r.2 with rdData := w32 (bytesNat r.1.2) } else r.2.completerAbort

/-- A host request of one 32-bit word (R347, R348): nothing reaches the device while the link is down or its domain closes (R291). -/
def Dev.pcieRequest (bar2 write : Bool) (o : Nat) (v : BitVec 32) (d : Dev) : Dev :=
  if ¬ d.on HL_STAT_LINKUP ∨ d.net.closed.contains 103 then d
  else
    let o := o / 4 * 4
    let toAddr := fun (a : Nat) (d : Dev) =>
      if write then (let r := d.niWrite 38 a (wordBytes v); if r.1 = 0 then r.2 else r.2.dropWrite) else d.hostRead a
    if bar2 then toAddr ((d.rd HL_WIN_BASE_LO_ADDR) * 2 ^ 28 + d.rd HL_WIN_BASE_HI_ADDR * 2 ^ 32 + o) d
    else match bar0Addr o with
      | some a => toAddr a d
      | none =>
        if 0xC00000 ≤ o ∧ o < 0xC00100 then
          if write then d.msixWrite ((o - 0xC00000) / 4) v else { d with rdData := d.msixWord ((o - 0xC00000) / 4) }
        else if 0xC01000 ≤ o ∧ o < 0xC01008 then
          if write then d else { d with rdData := if o = 0xC01000 then w32 d.mail.pba.toNat else 0 }
        else if write then d.dropWrite else d.completerAbort

/-! ### The commands -/

/-- REGISTER_WRITE (R4): a 32-bit write to a register's address. -/
def execRegisterWrite (a : BitVec 40) (v : BitVec 32) (s : State) : Host.Outcome State Fault Refusal :=
  onDev (fun d => if areaOf a.toNat = 4 ∧ a.toNat % 4 = 0 then (d.busWrite a.toNat (wordBytes v)).2 else d) s
/-- APERTURE_WRITE (R229): a 32-bit write at an offset of the aperture. -/
def execApertureWrite (o : BitVec 21) (v : BitVec 32) (s : State) : Host.Outcome State Fault Refusal :=
  onDev (fun d => (d.apWrite (o.toNat / 4 * 4) (wordBytes v)).2) s
/-- CORE_RUN (R241). -/
def execCoreRun (c : Fin 4) (s : State) : Host.Outcome State Fault Refusal := onDev (Dev.coreRun c.val) s
/-- CORE_HALT (R260). -/
def execCoreHalt (c : Fin 4) (s : State) : Host.Outcome State Fault Refusal := onDev (Dev.coreHalt c.val) s
/-- CP_IRAISE (R260). -/
def execCpIraise (c : Fin 4) (m : BitVec 8) (s : State) : Host.Outcome State Fault Refusal := onDev (Dev.iraise c.val m.toNat) s
/-- CP_CLR (R260). -/
def execCpClr (c : Fin 4) (s : State) : Host.Outcome State Fault Refusal := onDev (Dev.cpClr c.val) s
/-- ICP_GO (R221): a write of CF_ICP_CTL with GO. -/
def execIcpGo (v : BitVec 32) (s : State) : Host.Outcome State Fault Refusal := onDev (Dev.icpStart v) s
/-- ICP_ABORT (R223). -/
def execIcpAbort (s : State) : Host.Outcome State Fault Refusal := onDev Dev.icpAbort s
/-- PCIE_REQUEST (R347). -/
def execPcieRequest (b w : Bool) (o : BitVec 28) (v : BitVec 32) (s : State) : Host.Outcome State Fault Refusal :=
  onDev (Dev.unlessHeld (Dev.pcieRequest b w o.toNat v)) s

end Sys2Proof.Machine
end

