-- ==== Sys2Proof/Machine/Image.lean ====
section
/-! DEFINITION. Etder images (R200 to R206): the header, the section table, the records, and the checks that refuse an image (R202, R203, R208, R210 to
R212). -/
namespace Sys2Proof.Machine

/-! ### The header (R201, R202) -/

/-- The word at byte offset `o` of an image. -/
def iw (b : List (BitVec 8)) (o : Nat) : BitVec 32 := w32 (bytesNat ((b.drop o).take 4))

/-- LENGTH, NSECT, KIND, KEYSLOT and SEQ. -/
def imgLen (b : List (BitVec 8)) : Nat := (iw b 0x10).toNat
def imgSects (b : List (BitVec 8)) : Nat := wbits (iw b 0x1C) 7 0
def imgPartial (b : List (BitVec 8)) : Bool := wbit (iw b 0x14) 0
def imgSlot (b : List (BitVec 8)) : Nat := wbits (iw b 0x14) 9 8
def imgSeq (b : List (BitVec 8)) : Nat := (iw b 0x18).toNat

/-- The isles of ISLEMASK, in rising order. -/
def imgMask (b : List (BitVec 8)) : List Nat := (List.range 96).filter (fun n => wbit (iw b (0x24 + 4 * (n / 32))) (n % 32))

/-- The identity check passes (R202): magic, major version, header CRC, device code, stepping 1. -/
def identityOk (b : List (BitVec 8)) : Bool :=
  iw b 0 = 0x52445445#32 && wbits (iw b 4) 31 16 = 1 && iw b 0x7C = crc32 (b.take 0x7C) && wbits (iw b 8) 31 4 = 0x5941960 && wbit (iw b 0xC) 1

/-- No header fault of R202 but that of a partial image's ISLEMASK. -/
def headerOk (b : List (BitVec 8)) : Bool :=
  let n := imgLen b
  decide (0x200 ≤ n) && decide (n ≤ 0x1000000) && n % 16 = 0 && decide (1 ≤ imgSects b) && decide (imgSects b ≤ 64) &&
  wbits (iw b 0xC) 31 16 = 0 && Nat.land (iw b 0x14).toNat 0xFFFFFCFE = 0 && wbits (iw b 0x1C) 31 8 = 0 &&
  (List.range 19).all (fun k => iw b (0x30 + 4 * k) = 0)

/-! ### The section table (R203) -/

/-- A section: its type, its offset and its size. -/
structure Sect where
  typ : Nat
  off : Nat
  size : Nat
  deriving DecidableEq, Repr

/-- The sections of the table, in its order. -/
def sectsOf (b : List (BitVec 8)) : List Sect :=
  (List.range (imgSects b)).map (fun k =>
    { typ := wbits (iw b (0x80 + 16 * k)) 7 0, off := (iw b (0x84 + 16 * k)).toNat, size := (iw b (0x88 + 16 * k)).toNat })

/-- Sections lie in order from `lo` on and end by `hi`. -/
def sectsInOrder (hi : Nat) : Nat → List Sect → Bool
  | lo, [] => decide (lo ≤ hi)
  | lo, x :: xs => decide (lo ≤ x.off) && x.off % 16 = 0 && x.size % 4 = 0 && sectsInOrder hi (x.off + x.size) xs

/-- The section table keeps the rules of R203. -/
def sectsOk (b : List (BitVec 8)) : Bool :=
  (List.range (imgSects b)).all (fun k => wbits (iw b (0x80 + 16 * k)) 31 8 = 0 && iw b (0x8C + 16 * k) = 0) &&
  sectsInOrder (imgLen b - 32) (0x80 + 16 * imgSects b) (sectsOf b)

/-- The key slot and the floor (R211, R212): KEYSLOT, ROLLBACK, or 0. -/
def slotCheck (nv : Nv) (b : List (BitVec 8)) : Nat :=
  if (tget KeySlot.empty nv.keys (imgSlot b)).voted ≠ 1 then 0x05 else if imgSeq b < nv.floor.toNat then 0x06 else 0

/-- The tag of an image, and the one its key gives (R204). -/
def tagOk (nv : Nv) (b : List (BitVec 8)) : Bool :=
  hmac256 (tget KeySlot.empty nv.keys (imgSlot b)).key (b.take (imgLen b - 32)) = (b.drop (imgLen b - 32)).take 32

/-! ### Records (R205) -/

/-- What a record of a section holds. -/
inductive ImgItem where
  | ctx (isle cell idx : Nat) (w : BitVec 128)
  | route (isle plane byte : Nat) (code : BitVec 8)
  /-- A register's address and its value. -/
  | csr (a : Nat) (v : BitVec 32)
  | seed (ws : List (BitVec 32))
  | cell (isle cell : Nat) (ws : List (BitVec 32))
  | lagoon (isle base : Nat) (ws : List (BitVec 32))
  | claim (ws : List (BitVec 32))
  | meminit (a : Nat) (bs : List (BitVec 8))
  | thread (t : Nat) (ws : List (BitVec 32))
  /-- A record or a section is there, whatever it carries: its unit of the mode change, and whether it loads it (R220). -/
  | bare (u : Nat) (load : Bool)
  deriving DecidableEq, Repr

/-- Cut words into records of `n`; none where some are left over. -/
def chunks (n : Nat) : Nat → List (BitVec 32) → Option (List (List (BitVec 32)))
  | _, [] => some []
  | 0, _ => none
  | f + 1, ws => if ws.length < n then none else (chunks n f (ws.drop n)).map (ws.take n :: ·)

/-- What a record's head gives: the length of its body in words, and the items a body holds (none where it breaks the format). -/
abbrev RecBody := Nat × (List (BitVec 32) → Option (List ImgItem))

/-- Records that begin with `h` head words. -/
def parseRecs (h : Nat) (one : List (BitVec 32) → Option RecBody) :
    Nat → List (BitVec 32) → Option (List ImgItem)
  | _, [] => some []
  | 0, _ => none
  | f + 1, ws =>
    if ws.length < h then none
    else match one (ws.take h) with
      | none => none
      | some (n, mk) =>
        let body := ws.drop h
        if body.length < n then none
        else match mk (body.take n), parseRecs h one f (body.drop n) with
          | some i, some r => some (i ++ r)
          | _, _ => none

/-- Bytes after the first `n` are the zero bytes that pad a record to a word (Table 08-3). -/
def zeroPad (n : Nat) (ws : List (BitVec 32)) : Bool := ((wordsBytes ws).drop n).all (fun b => b = 0)

/-- A record of CONTEXTS. -/
def ctxRec (h : List (BitVec 32)) : Option RecBody :=
  let w := h.getD 0 0
  let isle := wbits w 6 0
  let i := wbits w 19 16
  let n := wbits w 23 20 + 1
  if 96 ≤ isle ∨ 16 < i + n then none
  else some (4 * n, fun ws => some ((List.range n).map (fun k =>
    .ctx isle (wbits w 11 8) (i + k) (Ctx.ofWords (ws.getD (4 * k) 0) (ws.getD (4 * k + 1) 0) (ws.getD (4 * k + 2) 0) (ws.getD (4 * k + 3) 0)))))

/-- A record of ROUTES: route entries of two bytes. -/
def routeRec (h : List (BitVec 32)) : Option RecBody :=
  let w := h.getD 0 0
  let n := wbits w 31 16
  if 96 ≤ wbits w 6 0 then none
  else some ((n + 1) / 2, fun ws => if zeroPad (2 * n) ws then some (.bare (wbits w 6 0) false :: (List.range n).map (fun k =>
    let e := wbits (ws.getD (k / 2) 0) (16 * (k % 2) + 15) (16 * (k % 2))
    .route (wbits w 6 0) (wbits w 11 8) (e % 256) (BitVec.ofNat 8 (e / 256)))) else none)

/-- A record of CELLINIT. -/
def cellRec (h : List (BitVec 32)) : Option RecBody :=
  let w := h.getD 0 0
  let cs := maskCells (wbits w 31 16)
  if 96 ≤ wbits w 6 0 then none
  else some (20 * cs.length, fun ws => some (.bare (wbits w 6 0) true :: (List.range cs.length).map (fun k => .cell (wbits w 6 0) (cs.getD k 0) ((ws.drop (20 * k)).take 20))))

/-- A record of LAGOON. -/
def lagoonRec (h : List (BitVec 32)) : Option RecBody :=
  let n := (h.getD 2 0).toNat
  let isle := wbits (h.getD 0 0) 6 0
  if 96 ≤ isle ∨ n = 0 ∨ 32768 < n then none else some (n, fun ws => some [.lagoon isle (wbits (h.getD 1 0) 14 0) ws])

/-- A record of MEMINIT. -/
def memRec (h : List (BitVec 32)) : Option RecBody :=
  let n := (h.getD 2 0).toNat
  some ((n + 3) / 4, fun ws => if zeroPad n ws then some [.meminit ((h.getD 0 0).toNat + wbits (h.getD 1 0) 7 0 * 2 ^ 32) ((wordsBytes ws).take n)] else none)

/-- A claim entry's class, range and whether it releases; none where Table 08-4 does not admit it. -/
def claimEntry (w : List (BitVec 32)) : Option (Nat × Nat × Nat × Bool) :=
  let w0 := w.getD 0 0
  let cls := wbits w0 7 0
  let n := wbits w0 31 16
  let hi := (w.getD 2 0).toNat
  let mem := cls = 0x13
  let first := if mem then (w.getD 1 0).toNat + hi * 2 ^ 32 else (w.getD 1 0).toNat
  let len := if mem then (w.getD 3 0).toNat else n
  if n = 0 ∨ len = 0 ∨ wbits w0 15 9 ≠ 0 ∨ (mem && decide (256 ≤ hi)) ∨ (!mem && (hi ≠ 0 || w.getD 3 0 ≠ 0)) ∨ claimUnits cls < first + len then none
  else some (cls, first, len, wbit w0 8)

/-- The items of a section; none where it breaks its format (BADSECT). -/
def sectItems (b : List (BitVec 8)) (x : Sect) : Option (List ImgItem) :=
  let ws := bytesWords (b.drop x.off) (x.size / 4)
  let n := ws.length
  match x.typ with
  | 1 => parseRecs 1 ctxRec n ws
  | 2 => parseRecs 1 routeRec n ws
  | 3 => match chunks 2 n ws with
    | none => none
    | some rs =>
      if rs.all (fun r => decide ((r.getD 0 0).toNat < 0x100000) && (r.getD 0 0).toNat % 4 = 0) then
        some (rs.map (fun r => .csr (0x40000000 + (r.getD 0 0).toNat) (r.getD 1 0)))
      else none
  | 4 => (chunks 4 n ws).map (fun rs => .bare 0x20000 false :: rs.map .seed)
  | 5 => parseRecs 1 cellRec n ws
  | 6 => parseRecs 3 lagoonRec n ws
  | 7 => match chunks 4 n ws with
    | none => none
    | some rs => if rs.all (fun r => (claimEntry r).isSome) then some (rs.map .claim) else none
  | 8 => parseRecs 3 memRec n ws
  | 9 => match chunks 9 n ws with
    | none => none
    | some rs =>
      if rs.all (fun r => [0, 1, 5].contains (wbits (r.getD 1 0) 2 0)) then some (rs.map (fun r => .thread (wbits (r.getD 0 0) 8 0) (r.drop 1)))
      else none
  | _ => none

/-- The order in which the loader applies the types of sections (R207). -/
def loadOrder : List Nat := [7, 1, 2, 5, 6, 3, 9, 8, 4]

/-- The sections of a full image in the order they apply, those of a partial image in the order of the table. -/
def imgOrder (b : List (BitVec 8)) : List Sect :=
  if imgPartial b then sectsOf b else loadOrder.flatMap (fun t => (sectsOf b).filter (fun x => x.typ = t))

/-- The items of sections, each section with its own; none where one is malformed. -/
def itemsOf (b : List (BitVec 8)) : List Sect → Option (List (Sect × List ImgItem))
  | [] => some []
  | x :: xs => match sectItems b x, itemsOf b xs with
    | some i, some r => some ((x, i) :: r)
    | _, _ => none

/-- Every item of an image in the order of its sections. -/
def imgItems (b : List (BitVec 8)) : List ImgItem := ((itemsOf b (imgOrder b)).getD []).flatMap (fun r => r.2)

/-! ### Static checks (R97, R106, R208) -/

/-- Why an image is refused: the code of Table 08-9 and where the malformed item is. -/
structure ImgErr where
  code : Nat
  isle : Nat
  plane : Bool
  cell : Nat
  idx : Nat
  deriving DecidableEq, Repr

/-- A refusal that names no item. -/
def imgErr (code : Nat) : ImgErr := { code := code, isle := 0, plane := false, cell := 0, idx := 0 }

/-- A select code has a source at isle `n` (R105, R106). -/
def selectOk (n code : Nat) : Bool :=
  code = 0 || (decide (0x10 ≤ code) && decide (code < 0x28) && (decide (code < 0x20) || decide (n / 12 < 7))) ||
  (decide (0x28 ≤ code) && decide (code < 0x30) && decide (n % 12 < 11)) || (decide (0x30 ≤ code) && decide (code < 0x38)) ||
  (decide (0x38 ≤ code) && decide (code < 0x40) && decide (0 < n % 12))

/-- A plane byte is no malformed select (R106): reserved bytes are 0, and a channel of a side without a neighbour is not driven. -/
def planeOk (n byte code : Nat) : Bool :=
  if 160 ≤ byte then code = 0
  else
    selectOk n code &&
    (decide (byte < 128) || code = 0 ||
      (match (byte - 128) / 8 with
        | 0 => decide (n / 12 < 7)
        | 1 => decide (n % 12 < 11)
        | 2 => true
        | _ => decide (0 < n % 12)))

/-- The isles of the loop tasks that cell `c` of isle `n` belongs to (R96). -/
def Dev.ownIsles (d : Dev) (n c : Nat) : List Nat :=
  let ts := (d.enabledBindings.filter (fun b => d.rd (AHD_TBb_ID_ISLE b) = n && d.rdBit (AHD_TBb_GRP_CELLS b) c)).map (fun b => d.rd (AHD_TBb_ID_TASK b))
  ts.flatMap (fun t => (d.bindings t).map (fun b => d.rd (AHD_TBb_ID_ISLE b)))

/-- A head or tail context breaks R96 by the descriptors and entries that `d` holds: a head reaches no scheduler token and not the run-ahead
controller (R142, Table 06-2). -/
def Dev.breaksR96 (d : Dev) (n c : Nat) (w : Ctx) : Bool :=
  let role := w.role.toNat
  let td := d.reg (IS_TDk n w.tok.toNat)
  let kind := wbits td 1 0
  if w.tok = 0 ∨ role = 0 ∨ role = 3 then false
  else if kind ≠ 0 then role = 1 && kind ≠ 3
  else
    let m := wbits td 8 2
    (role = 1 && !(d.ownIsles n c).contains m) || ((d.isle m).ment (wbits td 14 9)).action = 2

/-- A context word is malformed (R97). -/
def Dev.imgCtxBad (d : Dev) (n c : Nat) (w : BitVec 128) : Bool := (Ctx.decode w).malformed || d.breaksR96 n c (Ctx.decode w)

/-- The descriptors, entries, bindings and cadences an image sets, for the static checks: its CSR entries for IS, AHD bindings and ET. -/
def Dev.scratch (items : List ImgItem) (d : Dev) : Dev :=
  forList items (fun (i : ImgItem) d => match i with
    | .csr a v =>
      if IS_CFG 0 ≤ a ∧ a < IS_CFG 96 then d.isPut ((a - IS_CFG 0) / 0x100) (a % 0x100) v
      else if (AHD_TBb_ID 0 ≤ a ∧ a < AHD_TBb_ID 128) ∨ (ET_CADc_Q 0 ≤ a ∧ a < ET_CADc_Q 256) then d.plainWrite a v
      else d
    | _ => d) d

/-- The first malformed context or route entry (R98, R106); `twice` tells whether a second entry for one multiplexer is one.
Of several malformed items the first in section order is reported (DESIGN CHOICE, log entry 212). -/
def Dev.malformedIn (d : Dev) (twice : Bool) : List (Nat × Nat × Nat) → List ImgItem → Option ImgErr
  | _, [] => none
  | seen, .ctx n c i w :: xs => if d.imgCtxBad n c w then some { code := 8, isle := n, plane := false, cell := c, idx := i } else d.malformedIn twice seen xs
  | seen, .route n p k v :: xs =>
    if !planeOk n k v.toNat || (twice && seen.contains (n, p, k)) then some { code := 8, isle := n, plane := true, cell := p, idx := 0 }
    else d.malformedIn twice ((n, p, k) :: seen) xs
  | seen, _ :: xs => d.malformedIn twice seen xs

/-- A seed would be refused by R36 or R45. -/
def Dev.seedBad (d : Dev) (w : List (BitVec 32)) : Bool :=
  let w1 := w.getD 1 0
  let act := wbits w1 11 8
  let c := wbits w1 23 16
  act = 0 || decide (7 < act) || !etArgsOk w1 (w.getD 2 0) (w.getD 3 0) ||
  (wbit w1 12 && (d.rd (ET_CADc_D_D c) = 0 || decide (d.rd (ET_CADc_D_D c) ≤ d.rd (ET_CADc_N_N c))))

/-- The resource that a register belongs to (Table 08-5): class and index; none where no claim governs it. -/
def csrClaim (a : Nat) : Option (Nat × Nat) :=
  let sec := fun (cls base stride n : Nat) => if base ≤ a ∧ a < base + stride * n then some (cls, (a - base) / stride) else none
  match hbUnitOf a with
  | some (7, i) => some (0x04, i)
  | some (8, i) => some (0x05, 4 * i)
  | some (9, i) => some (0x08, i)
  | some (10, i) => some (0x0A, i / 8)
  | some (11, i) => some (0x0A, i / 8)
  | some (cls, i) => some ([0x03, 0x05, 0x06, 0x07, 0x01, 0x02, 0x09].getD cls 0, i)
  | none =>
    [sec 0x0A (IS_CFG 0) 0x100 96, sec 0x16 (AU_ADn_CFG 0) 0x80 8, sec 0x0F (AU_MCs_CTL 0) 0x20 8, sec 0x0E (ET_INSp_W0 0) 0x20 8,
     sec 0x0C (ET_LCFGl 0) 8 64, sec 0x0D (ET_CADc_Q 0) 0x10 256, sec 0x0B (AHD_LTt_CFG 0) 0x40 48, sec 0x10 (AHD_SNs_CTL 0) 0x40 8,
     sec 0x03 (HP_SDi_CFG 0) 0x20 48, sec 0x05 (HP_LVj_CFG 0) 0x20 16, sec 0x06 (HP_ENCe_CFG 0) 0x20 8, sec 0x07 (HP_SSIs_CFG 0) 0x20 8,
     sec 0x02 (HP_GIOg_CFG 0) 0x10 64, sec 0x09 (FQ_Qf_CFG 0) 0x40 8, sec 0x01 (PW_PAIRp_CFG 0) 0x20 48, sec 0x11 (DM_ENGe_CFG 0) 0x40 4,
     sec 0x14 (EN_Pp_CFG 0) 0x80 6, sec 0x12 CF_ICP_SRC_LO 0x100 1, (sec 0x15 (SP_Uu_CFG 0) 0x40 2),
     (sec 0x15 (SP_Ss_CFG 0) 0x40 2).map (fun r => (r.1, r.2 + 2)), (sec 0x15 SP_I2C_CFG 0x100 1).map (fun r => (r.1, 4)),
     (sec 0x15 SP_XS_CFG 0x100 1).map (fun r => (r.1, 5))].findSome? id

/-- What an item writes: class, first unit, count. -/
def ImgItem.writes : ImgItem → Option (Nat × Nat × Nat)
  | .ctx n _ _ _ => some (0x0A, n, 1)
  | .route n _ _ _ => some (0x0A, n, 1)
  | .cell n _ _ => some (0x0A, n, 1)
  | .lagoon n _ _ => some (0x0A, n, 1)
  | .csr a _ => (csrClaim a).map (fun r => (r.1, r.2, 1))
  | .seed w => some (0x0C, wbits (w.getD 1 0) 29 24, 1)
  | .meminit a bs => if bs = [] then none else some (0x13, a, bs.length)
  | .bare u _ => if u < 96 then some (0x0A, u, 1) else none
  | .claim _ => none
  | .thread _ _ => none

/-! ### Claims of an image or a CLAIM command (R209, R210) -/

/-- Enter a claim entry into a registry under a holder: CONFLICT where it claims what is held, or releases what is not held. A partial image's
releases (`defer`) are only noted, and what they free counts as free. -/
def enterClaim (holder : Nat) (tag : BitVec 32) (defer : Bool) (w : List (BitVec 32)) (r : Nat × List Claim × List (Nat × Nat × Nat)) :
    Nat × List Claim × List (Nat × Nat × Nat) :=
  if r.1 ≠ 0 then r
  else match claimEntry w with
    | none => (7, r.2)
    | some (cls, first, len, rel) =>
      let held := releasedFrom r.2.2 r.2.1
      if rel then
        if coveredBy (held.filter (fun c => decide (1 ≤ c.holder) && decide (c.holder ≤ 3))) cls first len then
          if defer then (0, r.2.1, r.2.2 ++ [(cls, first, len)]) else (0, freeClaims cls first len r.2.1, r.2.2)
        else (9, r.2)
      else
        if held.any (fun c => c.meets cls first len) then (9, r.2)
        else (0, r.2.1 ++ [{ cls := cls, first := first, len := len, holder := holder, tag := tag }], r.2.2)

/-- The claim entries of an image, in order. -/
def imgClaims (items : List ImgItem) : List (List (BitVec 32)) :=
  items.filterMap (fun i => match i with
    | .claim w => some w
    | _ => none)

/-- The registry with an image's claims entered under a holder, and its releases: 0 or the refusal. -/
def claimsWith (base : List Claim) (holder : Nat) (defer : Bool) (items : List ImgItem) : Nat × List Claim × List (Nat × Nat × Nat) :=
  (imgClaims items).foldl (fun r w => enterClaim holder 0 defer w r) (0, base, [])

/-- The outbound bindings that items set, channel and value, in their order. -/
def obItems (items : List ImgItem) : List (Nat × BitVec 32) :=
  items.filterMap (fun i => match i with
    | .csr a v => (match hbUnitOf a with | some (11, c) => some (c, v) | _ => none)
    | _ => none)

/-- The value that outbound channel `c` holds once bindings `obs` have been written over those of `d`. -/
def Dev.obAfter (d : Dev) (obs : List (Nat × BitVec 32)) (c : Nat) : BitVec 32 :=
  match (obs.filter (fun o => o.1 = c)).getLast? with
  | some o => o.2
  | none => d.reg (HP_OBc c)

/-- With an image's bindings written over those of `d`, two outbound channels name one target (R166). -/
def Dev.obConflict (d : Dev) (items : List ImgItem) : Bool :=
  let obs := obItems items
  let tgt := fun (c : Nat) => obTarget (d.obAfter obs c)
  ((obs.map (fun o => o.1)).eraseDups).any (fun c => tgt c ≠ none && (List.range 96).any (fun k => k ≠ c && tgt k = tgt c))

/-- A MEMINIT range meets the staged bytes of a later section (R208): `stg` is where the image stages. -/
def memOverlap (stg : Nat) : List (Sect × List ImgItem) → Bool
  | [] => false
  | (_, is) :: xs =>
    is.any (fun i => match i with
      | .meminit a bs => xs.any (fun r => decide (a < stg + r.1.off + r.1.size) && decide (stg + r.1.off < a + bs.length))
      | _ => false) || memOverlap stg xs

/-! ### The units a partial image stages or loads (R220) -/

/-- The unit of the mode change that an item belongs to. -/
def ImgItem.unit : ImgItem → Option Nat
  | .ctx n _ _ _ => some n
  | .route n _ _ _ => some n
  | .cell n _ _ => some n
  | .lagoon n _ _ => some n
  | .csr a _ =>
    if IS_CFG 0 ≤ a ∧ a < IS_CFG 96 then some ((a - IS_CFG 0) / 0x100)
    else (hbUnitOf a).map (fun r => 0x10000 + r.1 * 256 + r.2)
  | .seed _ => some 0x20000
  | .bare u _ => some u
  | _ => none

/-- The item loads its isle (R220). -/
def ImgItem.loads : ImgItem → Bool
  | .cell _ _ _ => true
  | .lagoon _ _ _ => true
  | .csr a _ => decide (IS_CFG 0 ≤ a) && decide (a < IS_CFG 96)
  | .bare _ l => l
  | _ => false

/-- The units of a partial image, in the order of its sections. -/
def imgUnits (items : List ImgItem) : List Nat := (items.filterMap ImgItem.unit).eraseDups

/-- The isles a partial image loads. -/
def imgLoaded (items : List ImgItem) : List Nat := ((items.filter ImgItem.loads).filterMap ImgItem.unit).eraseDups

/-- A section or an entry that Table 08-3 does not admit in a partial image. -/
def partialBad (secs : List (Sect × List ImgItem)) : Bool :=
  secs.any (fun r => r.1.typ = 9) || (secs.flatMap (fun r => r.2)).any (fun i => match i with
    | .csr _ _ => i.unit.isNone
    | _ => false)

/-! ### All static checks -/

/-- The static checks of a full image staged at `stg` (R208, R210). -/
def Dev.checkFull (stg : Nat) (b : List (BitVec 8)) (d : Dev) : Option ImgErr :=
  match itemsOf b (imgOrder b) with
  | none => some (imgErr 7)
  | some secs =>
    let items := secs.flatMap (fun r => r.2)
    let s := Dev.reset.scratch items
    let c := claimsWith (d.cfg.claims.filter (fun c => c.holder = 4)) 1 false (items.filter (fun i => match i with
      | .claim w => !wbit (w.getD 0 0) 8
      | _ => true))
    match s.malformedIn true [] items with
    | some e => some e
    | none =>
      if items.any (fun i => match i with | .seed w => s.seedBad w | _ => false) then some (imgErr 7)
      else if items.any (fun i => match i.writes with
        | some (cls, f, n) => !coveredBy (c.2.1.filter (fun c => c.holder = 1)) cls f n
        | none => false) then some (imgErr 0x0A)
      else if memOverlap stg secs then some (imgErr 7)
      else if c.1 ≠ 0 ∨ Dev.reset.obConflict items ∨ (imgClaims items).any (fun w => match claimEntry w with
        | some (cls, f, n, true) => !d.claimed cls f n
        | _ => false) then some (imgErr 9)
      else none

/-- The static checks of a partial image staged at `stg` (R202, R205, R208, R210, R220). DESIGN CHOICE: which descriptors the contexts are checked
against (log entry 211). -/
def Dev.checkPartial (stg : Nat) (b : List (BitVec 8)) (d : Dev) : Option ImgErr :=
  match itemsOf b (imgOrder b) with
  | none => some (imgErr 7)
  | some secs =>
    let items := secs.flatMap (fun r => r.2)
    let s := d.scratch items
    let c := claimsWith d.cfg.claims 5 true items
    let isles := (imgUnits items).filter (fun u => decide (u < 96))
    if partialBad secs then some (imgErr 7)
    else if (List.range 96).any (fun n => isles.contains n != (imgMask b).contains n) then some (imgErr 2)
    else match s.malformedIn false [] items with
      | some e => some e
      | none =>
        if items.any (fun i => match i with | .seed w => s.seedBad w | _ => false) then some (imgErr 7)
        else if items.any (fun i => match i.writes with
          | some (cls, f, n) => !coveredBy ((releasedFrom c.2.2 c.2.1).filter (fun c => [1, 2, 5].contains c.holder)) cls f n
          | none => false) then some (imgErr 0x0A)
        else if memOverlap stg secs then some (imgErr 7)
        else if c.1 ≠ 0 ∨ d.obConflict items then some (imgErr 9)
        else match (imgLoaded items).find? (fun n => d.tasksOf n ≠ []) with
          | some n => some { imgErr 9 with isle := n }
          | none => none

/-! ### Writing initial values -/

/-- A copy of a cell's registers from the 20 words of Table 06-8. -/
def CRegs.ofWords (ws : List (BitVec 32)) : CRegs :=
  let w := fun (k : Nat) => ws.getD k 0
  let r := (List.range 8).foldl (fun (r : CRegs) k => r.put k (w k)) CRegs.zero
  let pair := fun (r : CRegs) (code k : Nat) => (r.put code (w32 (wbits (w k) 15 0))).put (code + 1) (w32 (wbits (w k) 31 16))
  let r := pair (pair (pair (pair (pair (pair (pair r 0x0C 11) 0x0E 12) 0x10 13) 0x12 14) 0x14 15) 0x16 16) 0x18 17
  let r := (r.put 0x1A (w32 (wbits (w 18) 15 0))).putFlg (BitVec.ofNat 16 (wbits (w 18) 31 16))
  { r with acc0 := BitVec.ofNat 48 ((w 8).toNat + wbits (w 10) 15 0 * 2 ^ 32), acc1 := BitVec.ofNat 48 ((w 9).toNat + wbits (w 10) 31 16 * 2 ^ 32) }

/-- A cell takes its initial values in both copies (R206). -/
def Dev.initCell (n c : Nat) (ws : List (BitVec 32)) (d : Dev) : Dev :=
  d.modCell n c (fun x => { x with arch := CRegs.ofWords ws, shad := CRegs.ofWords ws })

/-- Lagoon words take their initial values with valid check bits (R206). -/
def Dev.initLagoon (n base : Nat) (ws : List (BitVec 32)) (d : Dev) : Dev :=
  (List.range ws.length).foldl (fun (d : Dev) k =>
    let a := lagoonAddr n (base + k)
    let d := match mergeBuf a with
      | some b => d.setMerged b ((d.merged b).filter (fun e => e.addr ≠ a))
      | none => d
    (d.store32 a (ws.getD k 0)).eccWrite a) d

/-- Every word of isle `n`'s lagoon is 0 with valid check bits (R206, R419). -/
def Dev.clearLagoon (n : Nat) (d : Dev) : Dev :=
  let out := fun (a : Nat) => decide (a < lagoonAddr n 0) || decide (lagoonAddr n 0 + 0x20000 ≤ a)
  { d with mem := d.mem.filter (fun e => out e.1),
           integ := { d.integ with ecc := d.integ.ecc.filter (fun e => out e.1), merge := tset [] d.integ.merge (16 + n) [] } }

/-- A context word of one copy of an isle. -/
def Dev.putCtx (copy : Bool) (n c i : Nat) (w : BitVec 128) (d : Dev) : Dev :=
  let x := d.isle n
  d.setIsle n { x with ctx := tset 0#128 x.ctx (b2n copy * 256 + c * 16 + i) w }

/-- A plane byte of one copy of an isle. -/
def Dev.putPlane (copy : Bool) (n p k : Nat) (v : BitVec 8) (d : Dev) : Dev :=
  let x := d.isle n
  d.setIsle n { x with planes := tset 0#8 x.planes (b2n copy * 4096 + p * 256 + k) v }

end Sys2Proof.Machine
end

