-- ==== Sys2Proof/Machine/ImageLoad.lean ====
section
/-! DEFINITION. Loading a full image (R213 to R219): the header, the stream into staging, the application of its sections and the release. -/
namespace Sys2Proof.Machine

/-- The block with its load replaced. -/
def Dev.setLoad (l : CfgLoad) (d : Dev) : Dev := { d with cfg := { d.cfg with load := l } }

/-- Show the key slots and the floor (Table 08-10). -/
def Dev.showNv (nv : Nv) (d : Dev) : Dev :=
  let k := fun (i : Nat) => (tget KeySlot.empty nv.keys i).voted.toNat * 4 ^ i
  (d.wr CF_KEYST_SLOT (k 0 + k 1 + k 2 + k 3)).setReg CF_FLOOR nv.floor

/-! ### The boot walk (R218, R219) -/

/-- The BOOT event, once, after the boot walk, when the host link is up (R219, R395). -/
def Dev.bootEvent (d : Dev) : Dev :=
  if d.power.booted && !d.power.told && d.on HL_STAT_LINKUP then
    { d.genEvent 1 [d.reg CF_BOOT, d.reg CF_STAT, d.reg CF_IMGSEQ, Config.fwVersion, w32 (d.rd PC_RSTCAUSE_CAUSE)] with
      power := { d.power with told := true } }
  else d

/-- Record a load's status in its field of CF_BOOT. -/
def Dev.bootField (f st : Nat) (d : Dev) : Dev :=
  d.wr (match f with
    | 0 => CF_BOOT_TRIALST
    | 1 => CF_BOOT_PRIMST
    | _ => CF_BOOT_GOLDST) st

/-- The walk tries its next image, or ends with the device unconfigured. -/
def Dev.walkNext (d : Dev) : Dev :=
  match d.cfg.load.walk with
  | [] => ({ d.setLoad CfgLoad.reset with power := { d.power with booted := true } } : Dev).bootEvent
  | (f, o) :: rest =>
    d.setLoad { CfgLoad.reset with phase := 1, src := 0x60000000 + o, len := 0x10000000 - o, field := f, walk := rest, at_ := d.now }

/-- The walk starts: a trial image is tried once, and the record says so before (R218). -/
def Dev.walkStart (d : Dev) : Dev :=
  let r := d.bootRecord
  let v := r.1
  let sel := wbits (v.getD 2 0) 0 0
  let trial := wbit (v.getD 3 0) 0
  let ptr := fun (k : Nat) => (v.getD k 0).toNat % 0x10000000 / 4096 * 4096
  let d := ((r.2.setReg CF_BPTR0 (w32 (ptr 0))).setReg CF_BPTR1 (w32 (ptr 1))).wr CF_BSEL_SEL sel
  let d := if trial then (d.bootCommit [v.getD 0 0, v.getD 1 0, v.getD 2 0, 0]).2 else d
  let order := (if trial then [(0, ptr (1 - sel))] else []) ++ [(1, ptr sel), (2, 0x2000000)]
  (d.setLoad { CfgLoad.reset with walk := order }).walkNext

/-- A load fails with a code of Table 08-9: the walk goes on, or the command ends (R213). -/
def Dev.loadFail (code : Nat) (d : Dev) : Dev :=
  let f := d.cfg.load.field
  if f < 3 then (d.bootField f code).walkNext
  else (d.setLoad CfgLoad.reset).cmdDone 0x200 code 0xFF [d.reg CF_STAT, d.reg CF_IMGSEQ]

/-! ### Reading and checking (R213 steps 1 to 5) -/

/-- Bytes of the load's source from offset `o`; false where they cannot be read. -/
def Dev.loadRead (o n : Nat) (d : Dev) : (Bool × List (BitVec 8)) × Dev :=
  let l := d.cfg.load
  if l.data ≠ [] then ((true, (l.data.drop o).take n), d)
  else if l.host then ((d.on HL_STAT_LINKUP, d.hostBytes (l.src + o) n), d)
  else
    let r := d.memReadAll (l.src + o) n
    ((decide (r.1.1 = 0), r.1.2), r.2)

/-- The staging address of a full image at boot (R214). -/
def Dev.bootStage (d : Dev) (n : Nat) : Nat :=
  if n ≤ 0x700000 then 0x100000 else d.rd CF_DSTAGE_LO_ADDR * 4096 + d.rd CF_DSTAGE_HI_ADDR * 2 ^ 32

/-- What the header and the section table are refused with (R202, R203, R211 to R213); `table` tells whether the section table could be read. -/
def headerCheck (nv : Nv) (wantPartial table : Bool) (b : List (BitVec 8)) : Nat :=
  if !headerOk b then 2 else if imgPartial b != wantPartial then 0x0C else if !table then 3 else if !sectsOk b then 7 else slotCheck nv b

/-- The header is in (R202, R203, R211, R212, R214): once the identity check passes, the isles of ISLEMASK enter the start queue. -/
def Dev.imageHeaderIn (nv : Nv) (d : Dev) : Dev :=
  let l := d.cfg.load
  if l.phase ≠ 1 then d
  else
    let r := d.loadRead 0 128
    if l.len < 128 ∨ ¬ r.1.1 then r.2.loadFail 3
    else if !identityOk r.1.2 then r.2.loadFail 1
    else
      let mask := imgMask r.1.2
      let d := forList mask Dev.startDomainReq r.2
      let q := d.loadRead 128 (16 * min 64 (imgSects r.1.2))
      let b := r.1.2 ++ q.1.2
      let n := imgLen b
      let code := headerCheck nv false (q.1.1 && decide (128 + 16 * imgSects b ≤ l.len)) b
      let stg := if l.field < 3 then d.bootStage n else l.stg
      if code ≠ 0 then q.2.loadFail code
      else if l.field = 3 ∧ ¬ d.claimed 0x13 stg n then q.2.loadFail 0x0A
      else q.2.setLoad { l with phase := 2, stg := stg, mask := mask, len := if l.len < n then 0 else n, at_ := d.now }

/-- Show where a malformed item is (R98, R106). -/
def Dev.showBad (e : ImgErr) (d : Dev) : Dev :=
  (((d.wr CF_ICP_STAT_ISLE e.isle).wrb CF_ICP_STAT_PLANE e.plane).wr CF_ICP_STAT_CELL e.cell).wr CF_ICP_STAT_INDEX e.idx

/-! ### Applying (R206, R207, R217) -/

/-- Registers that a full image resets whole: IS, AU but what AD7 and the shared words keep, ET, AHD, HP, FQ and PW (R206). -/
def imgResets (a : Nat) : Bool :=
  (decide (0x40008000 ≤ a) && decide (a < 0x4000E000)) ||
  (decide (0x40010000 ≤ a) && decide (a < 0x40050000) && a ≠ AU_CTRL && a ≠ AU_STAT && a ≠ PW_STAT &&
    !(decide (AU_ADn_CFG 7 ≤ a) && decide (a < AU_ADn_CFG 8)))

/-- An address lies in one of some ranges, each from its first address to below its second. -/
def inRanges (rs : List (Nat × Nat)) (a : Nat) : Bool := rs.any (fun r => decide (r.1 ≤ a) && decide (a < r.2))

/-- Registers whose RW fields a full image resets by writes (R206): AD7's, the cores', the scheduler's, the MMU's, the DMA engines', the network's, the
integrity block's, the Ethernet ports', the serial controllers' that firmware does not hold, and the clocks'. What the load itself runs over keeps its values
(log entry 130). -/
def imgRewrites (a : Nat) : Bool :=
  inRanges [(AU_ADn_CFG 7, AU_ADn_CFG 8), (CP_CFG 0, CP_CFG 4), (TS_CTRL, TS_TRRP), (TS_COREc_WAIT 0, 0x40060000), (MM_CTRL, MM_INV), (MM_IOTTBi_LO 0, MM_IORES),
    (0x40068000, 0x40070000), (PN_CTRL, PN_RTi_d_LO 0 0), (MI_CTRL, MI_BSEL), (EN_Pp_CFG 0, EN_Pp_CFG 6), (SP_Uu_CFG 1, SP_I2C_CFG), (PC_STEP, PC_WDT_KICK)] a

/-- Registers whose RW fields a full image resets without what a write of them would order: selectors, windows and the operands of commands. -/
def imgClears (a : Nat) : Bool :=
  inRanges [(TS_TRRP, TS_COREc_WAIT 0), (MM_INV, MM_IOTTBi_LO 0), (MM_IORES, MM_IORES + 4), (MI_BSEL, 0x40090000), (CF_ICP_SRC_LO, CF_ICP_STAT),
    (CF_RB_CTL, CF_RB_STAT), (HL_WIN_BASE_LO, HL_RSP_BASE_LO), (HL_IMOD, HL_CPLTO + 4), (PC_DOMREQ, PC_DOMREQ + 4), (SS_CMD, SS_RES)] a

/-- Every unit an image configures returns to its reset state, gated or safe, while the image is written (R206, R217, R225). -/
def Dev.takeDown (d : Dev) : Dev :=
  let d := forUpTo 8 (fun s d => if d.rd (AU_MCs_STAT_STATE s) = 1 ∨ d.rd (AU_MCs_STAT_STATE s) = 2 then d.mcAbandon s 3 0x0E else d) d
  let d := if d.cfg.icp.phase = 0 then d else d.icpFail 0x0E 0xFF
  let d := forUpTo 48 (Dev.haltTask 1) d
  let save := fun (l : List Nat) (t : Tbl (BitVec 32)) => l.foldl (fun t a => tset (regReset a) t a (d.reg a)) t
  let safeCfg := save ((List.range 8).map FQ_Qf_CFG) (save ((List.range 48).map PW_PAIRp_CFG) (save ((List.range 64).map HP_GIOg_CFG) []))
  let d : Dev := { d with hb := { d.hb with loading := true, safeCfg := safeCfg } }
  let d := forUpTo 48 Dev.enterSafe d
  let d := forUpTo 7 (fun n d => if d.adOn n then d.disableDomain n else d) d
  let d := forList ((d.regs.map (fun e => e.1)).filter imgRewrites) (fun (a : Nat) d =>
    if rwPart a (d.reg a) = rwPart a (regReset a) then d else d.csrWrite a (rwPart a (regReset a))) d
  let d := forList ((d.regs.map (fun e => e.1)).filter imgClears) (fun (a : Nat) d =>
    d.setReg a (d.reg a ^^^ rwPart a (d.reg a) ^^^ rwPart a (regReset a))) d
  let keep := fun (a : Nat) => decide (a < 0x30000000) || decide (0x30180000 ≤ a)
  let h := d.hb
  let d : Dev := { d with
    regs := d.regs.filter (fun e => !imgResets e.1),
    ang := { Angle.reset with ad := d.ang.ad.filter (fun e => e.1 = 7), insCount := d.ang.insCount, acts := d.ang.acts },
    ahd := Ahd.reset, preds := [], isles := [], net := { d.net with routes := [], qcfg := [] },
    integ := { d.integ with ecc := d.integ.ecc.filter (fun e => keep e.1), cbRep := [] },
    ev := { d.ev with repairs := [] },
    eth := { d.eth with rings := [], gcl := [] },
    cfg := { d.cfg with staged := [], acks := [], releases := [], claims := d.cfg.claims.filter (fun c => c.holder = 4) },
    hb := { Harb.reset with
      loading := true, safeCfg := safeCfg,
      enc := h.enc.map (fun e => (e.1, { EncIf.reset with a := e.2.a, b := e.2.b })),
      gio := h.gio.map (fun e => (e.1, { GioCell.reset with pin := e.2.pin, pinAt := e.2.pinAt })),
      pwm := h.pwm.map (fun e => (e.1, { PwmPair.reset with hs := e.2.hs, ls := e.2.ls, hiZ := e.2.hiZ, turnOn := e.2.turnOn })) } }
  let d := d.setReg AU_STAT (w32 (Nat.land (d.reg AU_STAT).toNat 0x808080))
  let d := forUpTo 48 (fun p d => d.setPair p (d.pair p)) d
  let d := forUpTo 8 (fun f d => d.setHfifo f (d.hfifo f)) d
  forUpTo 96 (fun n d => if d.domUp n then ((d.setIsle n { Isle.reset with gateLoad := true }).showGate n).clearLagoon n else d) d

/-- A thread's record (R262): a thread that is neither FREE nor SUSPENDED refuses it. -/
def Dev.initThread (t : Nat) (ws : List (BitVec 32)) (d : Dev) : Dev :=
  let x := d.thr t
  if x.state ≠ 0 ∧ x.state ≠ 5 then d.schedFlag TS_STAT_CFGERR
  else d.setThr t ((List.range 8).foldl (fun (x : Thread) i => x.putWord i (ws.getD i 0)) x)

/-- An item of a full image takes effect (R206, R207); contexts and planes go to both copies. -/
def Dev.applyItem (i : ImgItem) (d : Dev) : Dev :=
  match i with
  | .ctx n c k w => (d.putCtx false n c k w).putCtx true n c k w
  | .route n p k v => (d.putPlane false n p k v).putPlane true n p k v
  | .cell n c ws => d.initCell n c ws
  | .lagoon n base ws => d.initLagoon n base ws
  | .csr a v => d.csrWrite a v
  | .thread t ws => d.initThread t ws
  | .meminit a bs => (d.memWriteAll a bs).2
  | .seed w => (d.insert (w.getD 0 0) (w.getD 1 0) (w.getD 2 0) (w.getD 3 0) (wbits (w.getD 1 0) 29 24)).2.2
  | .claim _ => d
  | .bare _ _ => d

/-- The isle whose contexts, planes, cells or lagoon an item sets. -/
def ImgItem.isle : ImgItem → Option Nat
  | .ctx n _ _ _ => some n
  | .route n _ _ _ => some n
  | .cell n _ _ => some n
  | .lagoon n _ _ => some n
  | _ => none

/-- Step 6 begins (R213, R217): the running image ends, and the image's claims replace all that images and commands hold. What the image holds for isles
outside ISLEMASK is written. -/
def Dev.applyBegin (b : List (BitVec 8)) (d : Dev) : Dev :=
  let items := imgItems b
  let mask := imgMask b
  let d := d.takeDown
  let d := d.setClaims (claimsWith d.cfg.claims 1 false (items.filter (fun i => match i with
    | .claim w => !wbit (w.getD 0 0) 8
    | _ => true))).2.1
  let d := (((d.wr CF_STAT_STATE 1).wr CF_STAT_GOLDEN 0).wr CF_STAT_TRIAL 0).setReg CF_IMGSEQ (w32 (imgSeq b))
  let d := d.wr CF_IMGLEN_LEN (imgLen b)
  forList (items.filter (fun i => match i.isle with
    | some n => !mask.contains n
    | none => false)) Dev.applyItem d

/-- Step 6 writes isle `n` (R214): its contexts, planes, cells and lagoon, in the order of R207. -/
def Dev.applyIsle (items : List ImgItem) (n : Nat) (d : Dev) : Dev := forList (items.filter (fun i => i.isle = some n)) Dev.applyItem d

/-- Step 6 ends, once every isle of ISLEMASK is written: the sections of the whole device apply in the order of R207, and the reference copy is written. -/
def Dev.applyRest (items : List ImgItem) (d : Dev) : Dev := (forList (items.filter (fun i => i.isle = none)) Dev.applyItem d).writeReference

/-- Step 6 goes on (R214): each isle of ISLEMASK is written as soon as it is up; after the last the rest applies. The sections take LENGTH / 16 ACLK
(R424). -/
def Dev.tryApply (d : Dev) : Dev :=
  let l := d.cfg.load
  if l.phase ≠ 3 ∨ (l.todo ≠ [] ∧ ¬ l.todo.any d.domUp) then d
  else
    let r := d.memReadAll l.stg l.len
    if r.1.1 ≠ 0 then r.2.loadFail 0x0D
    else
      let items := imgItems r.1.2
      let d := forList (l.todo.filter d.domUp) (Dev.applyIsle items) r.2
      let rest := l.todo.filter (fun n => !d.domUp n)
      if rest = [] then (d.applyRest items).setLoad { l with phase := 4, todo := [], at_ := max d.now l.at_ + l.len / 16 }
      else d.setLoad { l with todo := rest }

/-- The stream ends (R213 steps 3 to 6): an image larger than 7 MiB waits for DRAM (R214). -/
def Dev.imageStreamEnd (nv : Nv) (sourceOk : Bool) (d : Dev) : Dev :=
  let l := d.cfg.load
  if l.phase ≠ 2 then d
  else if !sourceOk ∨ l.len = 0 then d.loadFail 3
  else if l.field < 3 ∧ areaOf l.stg = 9 ∧ d.memStatus l.stg = 3 then d
  else
    let r := d.loadRead 0 l.len
    if !r.1.1 then r.2.loadFail 3
    else
      let w := r.2.memWriteAll l.stg r.1.2
      let q := w.2.memReadAll l.stg l.len
      if w.1 ≠ 0 ∨ q.1.1 ≠ 0 then q.2.loadFail 0x0D
      else if !tagOk nv q.1.2 then q.2.loadFail 4
      else match q.2.checkFull l.stg q.1.2 with
        | some e => (if e.code = 8 then q.2.showBad e else q.2).loadFail e.code
        | none => ((q.2.applyBegin q.1.2).setLoad { l with phase := 3, todo := l.mask, at_ := d.now + l.len / 16 }).tryApply

/-! ### Release (R216) -/

/-- A pair at release: in its safe state where a cause holds it, else both sides inactive (R182, R216). -/
def Dev.releasePair (p : Nat) (d : Dev) : Dev :=
  if d.safeCause p then d.driveSafe p (8 * d.now)
  else d.setPair p { d.pair p with hs := false, ls := false, hiZ := false, turnOn := none, safe := false }

/-- Threads that the image makes READY enter their ready lists, in thread-number order (R262), and are placed as R264 says. -/
def Dev.readyThreads (d : Dev) : Dev :=
  let listed := fun (t : Nat) => d.sched.woken.contains t || (List.range 32).any (fun p => (d.readyAt p).contains t) ||
    (List.range 4).any (fun c => (d.pendOn c).any (fun q => q.thread = t))
  forList (d.readyOrder ((d.sched.threads.filter (fun e => e.2.state = 1 && !listed e.1)).map (fun e => e.1))) (fun t d => d.becomeReady t false) d

/-- The device is released (R216): all in one ACLK. -/
def Dev.imageRelease (d : Dev) : Dev :=
  let l := d.cfg.load
  if l.phase ≠ 4 ∨ d.now < l.at_ then d
  else
    let d := forList l.mask (fun n d => ((d.setIsle n { d.isle n with gateLoad := false }).wr (IS_STAT_APL n) 0).showGate n) d
    let d : Dev := { d with hb := { d.hb with loading := false, safeCfg := [] },
                            cfg := { d.cfg with used := l.mask, home := if !l.host && areaOf l.src = 8 then some (l.src - 0x60000000) else none } }
    let d := (((d.wr CF_STAT_STATE 2).wrb CF_STAT_GOLDEN (l.field = 2)).wrb CF_STAT_TRIAL (l.field = 0)).wr PW_STAT_NOIMG 0
    let d := forUpTo 8 (fun f d => d.setHfifo f (d.hfifo f)) (forUpTo 48 Dev.releasePair d)
    let d := (d.readyThreads).setLoad CfgLoad.reset
    if l.field = 3 then d.cmdDone 0x200 0 0xFF [d.reg CF_STAT, d.reg CF_IMGSEQ]
    else ({ d.bootField l.field 0 with power := { d.power with booted := true } } : Dev).bootEvent

/-! ### The commands -/

/-- IMAGE_HEADER_IN (R213). -/
def execImageHeaderIn (s : State) : Host.Outcome State Fault Refusal := onDevNv Dev.imageHeaderIn s
/-- IMAGE_STREAM_END (R213). -/
def execImageStreamEnd (ok : Bool) (s : State) : Host.Outcome State Fault Refusal := onDevNv (fun nv => Dev.imageStreamEnd nv ok) s
/-- IMAGE_RELEASE (R216). -/
def execImageRelease (s : State) : Host.Outcome State Fault Refusal := onDev Dev.imageRelease s

end Sys2Proof.Machine
end

