-- ==== Sys2Proof/Machine/Icp.lean ====
section
/-! DEFINITION. The internal configuration port (R220 to R224): a partial image from its header to its last acknowledgment. -/
namespace Sys2Proof.Machine

/-- The block with the ICP replaced. -/
def Dev.setIcp (x : Icp) (d : Dev) : Dev := { d with cfg := { d.cfg with icp := x } }

/-- The staging buffer and the source (Table 08-10). -/
def Dev.icpStg (d : Dev) : Nat := d.rd CF_ICP_STG_ADDR * 16
def Dev.icpSrc (d : Dev) : Nat := (d.rd64 CF_ICP_SRC_LO CF_ICP_SRC_HI).toNat

/-- The header is in, 129 ACLK after GO (R221 steps 1 and 2). -/
def Dev.icpHeaderIn (nv : Nv) (d : Dev) : Dev :=
  let x := d.cfg.icp
  if x.phase ≠ 1 ∨ d.now < x.at_ + 129 then d
  else
    let r := d.memReadAll d.icpSrc 128
    if d.rd CF_ICP_LEN_LEN < 128 ∨ r.1.1 ≠ 0 then r.2.icpFail 3 0xFF
    else if !identityOk r.1.2 then r.2.icpFail 1 0xFF
    else
      let q := r.2.memReadAll (d.icpSrc + 128) (16 * min 64 (imgSects r.1.2))
      let b := r.1.2 ++ q.1.2
      let n := imgLen b
      let code := if !headerOk b then 2 else if !imgPartial b then 0x0C else if d.rd CF_ICP_STGSZ_SIZE * 16 < n then 0x0B
        else if q.1.1 ≠ 0 ∨ d.rd CF_ICP_LEN_LEN < 128 + 16 * imgSects b then 3 else headerCheck nv true true b
      if code ≠ 0 then q.2.icpFail code 0xFF
      else if ¬ d.claimed 0x13 d.icpStg n then q.2.icpFail 0x0A 0xFF
      else ((q.2.wr CF_ICP_DONE_BYTES 128).setIcp { x with phase := 2 })

/-- The copy ends (R221 step 3): at most one byte each ACLK. -/
def Dev.icpCopyEnd (sourceOk : Bool) (d : Dev) : Dev :=
  let x := d.cfg.icp
  if x.phase ≠ 2 then d
  else
    let h := d.memReadAll d.icpSrc 128
    let n := imgLen h.1.2
    if !sourceOk ∨ h.1.1 ≠ 0 ∨ d.rd CF_ICP_LEN_LEN < n then h.2.icpFail 3 0xFF
    else if d.now + 1 < x.at_ + n then d
    else
      let r := h.2.memReadAll d.icpSrc n
      if r.1.1 ≠ 0 then r.2.icpFail 3 0xFF
      else
        let w := r.2.memWriteAll d.icpStg r.1.2
        if w.1 ≠ 0 then w.2.icpFail 0x0D 0xFF
        else ((w.2.wr CF_ICP_DONE_BYTES n).wr CF_ICP_STAT_STATE 2).setIcp { x with phase := 3, at_ := d.now + 160 }

/-- The staged image; the status is not 0 where it cannot be read. -/
def Dev.icpImage (d : Dev) : (Nat × List (BitVec 8)) × Dev := d.memReadAll d.icpStg (d.rd CF_ICP_DONE_BYTES)

/-- The tag is compared, 160 ACLK after the last byte (R221 step 4). -/
def Dev.icpTagCheck (nv : Nv) (d : Dev) : Dev :=
  let x := d.cfg.icp
  if x.phase ≠ 3 ∨ d.now < x.at_ then d
  else
    let r := d.icpImage
    if r.1.1 ≠ 0 then r.2.icpFail 0x0D 0xFF
    else if !tagOk nv r.1.2 then r.2.icpFail 4 0xFF
    else r.2.setIcp { x with phase := 4, at_ := d.now + 1 + r.1.2.length / 16 }

/-! ### Staging (R221 step 7, R222) -/

/-- Step 7 fails: the slot is abandoned as an ABORT does, with the failing unit shown (R222). -/
def Dev.icpAbandon (e : ImgErr) (d : Dev) : Dev := (d.showBad e).mcAbandon (d.rd CF_ICP_CTL_SLOT) 3 e.code

/-- The items of a unit. -/
def unitItems (items : List ImgItem) (u : Nat) : List ImgItem := items.filter (fun i => i.unit = some u)

/-- The ACLK that writing an item takes, in sixteenths (R221). -/
def ImgItem.cost : ImgItem → Nat
  | .ctx _ _ _ _ => 16
  | .route _ _ _ _ => 2
  | .csr _ _ => 128
  | .seed _ => 16
  | .cell _ _ _ => 80
  | .lagoon _ _ ws => 4 * ws.length
  | _ => 0

/-- The ACLK that writing a unit takes. -/
def unitCost (items : List ImgItem) : Nat := ((items.map ImgItem.cost).foldl (· + ·) 0 + 15) / 16

/-- The configuration writes of a harbour unit. -/
def unitCsr (items : List ImgItem) : List (Nat × BitVec 32) :=
  items.filterMap (fun i => match i with
    | .csr a v => some (a, v)
    | _ => none)

/-- The seeds among items. -/
def unitSeeds (items : List ImgItem) : List (List (BitVec 32)) :=
  items.filterMap (fun i => match i with
    | .seed w => some w
    | _ => none)

/-- The value a register takes from staged writes, or keeps. -/
def Dev.stagedReg (d : Dev) (its : List ImgItem) (a : Nat) : BitVec 32 :=
  match ((unitCsr its).filter (fun e => e.1 = a)).getLast? with
  | some e => rwPart a e.2
  | none => d.reg a

/-- A unit refuses a staged change (R53, R125, R166, R178, R195): it holds one, its isle copies back or is powered down, or a value is one it never
takes; all that the image `items` stages counts together. -/
def Dev.unitRefuses (d : Dev) (items : List ImgItem) (u : Nat) : Bool :=
  let its := unitItems items u
  d.cfg.staged.any (fun s => s.unit = u) ||
  (if u < 96 then !d.domUp u || d.on (IS_STAT_SYNC u)
   else match stagedPort u with
    | some (3, i) => decide (40 < ssiNbits (d.stagedReg its (HP_SSIs_CFG i)) (d.stagedReg its (HP_SSIs_POLY i)))
    | some (11, i) => (unitCsr its).any (fun e => d.obHeld i ((obItems items).map (fun o => o.1)) e.2)
    | some (cls, i) => (unitCsr its).any (fun e => d.hbBadValue cls i e.1 (rwPart e.1 e.2))
    | none => false)

/-- A staged harbour unit is an output the image reconfigures (R228). -/
def Dev.reconfigures (d : Dev) (cls i : Nat) (its : List ImgItem) : Bool :=
  cls = 4 || cls = 6 || (cls = 5 && (d.gioDir i ≠ 0 || (unitCsr its).any (fun e => e.1 = HP_GIOg_CFG i && wbits e.2 (HP_GIOg_CFG_DIR i).hi (HP_GIOg_CFG_DIR i).lo ≠ 0)))

/-- A loaded isle is gated, its activities end and its cells are cleared (R226, log entry 81); the harbour's words stay on its inbound channels (R108). -/
def Dev.loadIsle (n : Nat) (d : Dev) : Dev :=
  let i := d.isle n
  let d := (d.setIsle n { Isle.reset with copy := i.copy, ctx := i.ctx, planes := i.planes, routed := i.routed, hin := i.hin, hinV := i.hinV,
                                          copyEnd := i.copyEnd, gateLoad := true, gateFault := i.gateFault }).wr (IS_STAT_ACTIVE n) 0
  ((((d.wr (IS_SLOT0_VALID n) 0).wr (IS_SLOT1_VALID n) 0).wr (IS_SSTAT_QLEN n) 0).wr (IS_SSTAT_BUSY n) 0).showGate n

/-- The causeway starts on the next unit, or every unit is written (R221). It waits while an isle's SYNC is 1 (R125). -/
def Dev.icpBegin (items : List ImgItem) (d : Dev) : Dev :=
  let x := d.cfg.icp
  match x.todo with
  | [] => (d.wr CF_ICP_STAT_STATE 4).setIcp { x with phase := 7 }
  | u :: _ =>
    let its := unitItems items u
    if u < 96 ∧ d.on (IS_STAT_SYNC u) then d.setIcp { x with phase := 5 }
    else if d.unitRefuses items u then d.icpAbandon { imgErr 9 with isle := if u < 96 then u else 0 }
    else
      let loaded := its.any ImgItem.loads
      let st : Staged := { unit := u, slot := d.rd CF_ICP_CTL_SLOT, loaded := loaded, csr := if u < 96 then [] else unitCsr its, seeds := unitSeeds its }
      let d : Dev := { d with cfg := { d.cfg with staged := d.cfg.staged ++ [st] } }
      let d := if loaded then d.loadIsle u else d
      let d := match stagedPort u with
        | some (cls, i) => if d.reconfigures cls i its then d.holdOutput cls i true else d
        | none => d
      d.setIcp { x with phase := 6, at_ := d.now }

/-- A route entry of a partial image is written into the staging plane: a second one for its multiplexer keeps the lower code, sets DUPSEL and raises an
F1 event (R106). -/
def Dev.stageRoute (n p k : Nat) (v : BitVec 8) (d : Dev) : Dev :=
  let i := d.isle n
  let key := p * 256 + k
  let ph := !i.copy
  let old := tget 0#8 i.planes (b2n ph * 4096 + key)
  let dup := i.routed.contains key
  let d := (d.putPlane ph n p k (if dup ∧ old < v then old else v)).eccWrite ((frameWords ph n (16 + p)).getD (k / 8) 0)
  if dup then (d.setFlag (IS_STAT_DUPSEL n)).f1Isle n 0x21 0 0
  else d.setIsle n { d.isle n with routed := key :: (d.isle n).routed }

/-- An item of a partial image is written into its isle (R220, R221). -/
def Dev.stageItem (i : ImgItem) (d : Dev) : Dev :=
  match i with
  | .ctx n c k w =>
    let ph := !(d.isle n).copy
    let ws := frameWords ph n c
    ((d.putCtx ph n c k w).eccWrite (ws.getD (2 * k) 0)).eccWrite (ws.getD (2 * k + 1) 0)
  | .route n p k v => d.stageRoute n p k v
  | .cell n c ws => d.initCell n c ws
  | .lagoon n base ws => d.initLagoon n base ws
  | .csr a v =>
    if IS_CFG 0 ≤ a ∧ a < IS_CFG 96 then
      if isGuarded (a % 0x100) then d.isPut ((a - IS_CFG 0) / 0x100) (a % 0x100) v else d.isWrite ((a - IS_CFG 0) / 0x100) (a % 0x100) v
    else d
  | _ => d

/-- An acknowledgment sets out and reaches the angle unit 4 ACLK after the unit's last (R221). -/
def Dev.sendAck (d : Dev) : Dev := { d with cfg := { d.cfg with acks := d.cfg.acks ++ [(d.rd CF_ICP_CTL_SLOT, d.now + 3)] } }

/-- The causeway finishes a unit (R221): an isle's staging set is then checked for 256 ACLK; other units acknowledge. -/
def Dev.icpUnitStaged (d : Dev) : Dev :=
  let x := d.cfg.icp
  if x.phase ≠ 5 ∧ x.phase ≠ 6 then d
  else
    let r := d.icpImage
    let items := imgItems r.1.2
    if r.1.1 ≠ 0 then r.2.icpAbandon { imgErr 0x0D with isle := (x.todo.head?.filter (fun u => decide (u < 96))).getD 0 }
    else if x.phase = 5 then r.2.icpBegin items
    else match x.todo with
      | [] => r.2
      | u :: rest =>
        let its := unitItems items u
        if d.now < x.at_ + unitCost its then r.2
        else if u < 96 then
          let d := (forList its Dev.stageItem r.2).wr (IS_STAT_STAGED u) 1
          (d.setIcp { d.cfg.icp with todo := rest, checks := x.checks ++ [(u, d.now + 256)] }).icpBegin items
        else (r.2.sendAck.setIcp { x with todo := rest }).icpBegin items

/-- The first malformed word of an isle's staging set (R98, R222). -/
def Dev.stagingBad (d : Dev) (n : Nat) : Option ImgErr :=
  let i := d.isle n
  let p := b2n (!i.copy)
  match i.ctx.find? (fun e => e.1 / 256 = p && d.imgCtxBad n (e.1 % 256 / 16) e.2) with
  | some e => some { code := 8, isle := n, plane := false, cell := e.1 % 256 / 16, idx := e.1 % 16 }
  | none =>
    match i.planes.find? (fun e => e.1 / 4096 = p && !planeOk n (e.1 % 256) e.2.toNat) with
    | some e => some { code := 8, isle := n, plane := true, cell := e.1 % 4096 / 256, idx := 0 }
    | none => none

/-- Read the staging set of an isle word by word (R303): true where a word is uncorrectable, or a frame's CRC does not match. -/
def Dev.readStaging (n : Nat) (d : Dev) : Bool × Dev :=
  let p := !(d.isle n).copy
  let ws := (List.range 32).flatMap (frameWords p n)
  if d.integ.ecc = [] ∧ d.integ.crc = [] then (false, d)
  else
    let r := ws.foldl (fun (r : Bool × Dev) w => let q := r.2.eccReadAs w w 0; (r.1 || q.1, q.2)) (false, d)
    (r.1 || ws.any (fun w => (frameOf w).any (fun f => tget 0#32 d.integ.crc f ≠ 0)), r.2)

/-- An isle's staging-set check ends (R221, R222): a word of it that cannot be read gives STAGERR (Table 12-4). -/
def Dev.icpSetCheckDone (n : Nat) (d : Dev) : Dev :=
  match takeFirst (fun (c : Nat × Nat) => c.1 = n && decide (c.2 ≤ d.now)) d.cfg.icp.checks with
  | none => d
  | some (_, rest) =>
    let d := d.setIcp { d.cfg.icp with checks := rest }
    let r := d.readStaging n
    if r.1 then r.2.icpAbandon { imgErr 0x0D with isle := n }
    else match r.2.stagingBad n with
      | some e => r.2.icpAbandon e
      | none => r.2.sendAck

/-- The static checks end (R221 steps 5 and 6): claims are reserved, the slot is armed and the first unit begins. MEMINIT bytes are written (log entry
95). -/
def Dev.icpChecksDone (d : Dev) : Dev :=
  let x := d.cfg.icp
  if x.phase ≠ 4 ∨ d.now < x.at_ then d
  else
    let r := d.icpImage
    if r.1.1 ≠ 0 then r.2.icpFail 0x0D 0xFF
    else
      let items := imgItems r.1.2
      let d := r.2
      let s := d.rd CF_ICP_CTL_SLOT
      match d.checkPartial d.icpStg r.1.2 with
      | some e => (d.showBad e).icpFail e.code 0xFF
      | none =>
        if d.rd (AU_MCs_STAT_STATE s) = 1 ∨ d.rd (AU_MCs_STAT_STATE s) = 2 then d.icpFail 9 0xFF
        else
          let c := claimsWith d.cfg.claims 5 true items
          let us := imgUnits items
          let d : Dev := { d with cfg := { d.cfg with claims := c.2.1, releases := c.2.2 } }
          let d := d.wr64 (AU_MCs_LF_LO s) (AU_MCs_LF_HI s) (d.rd64 CF_ICP_LF_LO CF_ICP_LF_HI)
          let d := (d.wr (AU_MCs_ACK_NEED s) us.length).mcArm s (d.rd CF_ICP_CTL_DOM)
          let d := (d.wr CF_ICP_NEED_NEED us.length).wr CF_ICP_STAT_STATE 3
          let d := forList items (fun (i : ImgItem) d => match i with
            | .meminit a bs => (d.memWriteAll a bs).2
            | _ => d) d
          (d.setIcp { x with phase := 5, at_ := d.now, todo := us, checks := [] }).icpBegin items

/-! ### The commands -/

/-- ICP_HEADER_IN (R221). -/
def execIcpHeaderIn (s : State) : Host.Outcome State Fault Refusal := onDevNv Dev.icpHeaderIn s
/-- ICP_COPY_END (R221). -/
def execIcpCopyEnd (ok : Bool) (s : State) : Host.Outcome State Fault Refusal := onDev (Dev.icpCopyEnd ok) s
/-- ICP_TAG_CHECK (R221). -/
def execIcpTagCheck (s : State) : Host.Outcome State Fault Refusal := onDevNv Dev.icpTagCheck s
/-- ICP_CHECKS_DONE (R221). -/
def execIcpChecksDone (s : State) : Host.Outcome State Fault Refusal := onDev Dev.icpChecksDone s
/-- ICP_UNIT_STAGED (R221). -/
def execIcpUnitStaged (s : State) : Host.Outcome State Fault Refusal := onDev Dev.icpUnitStaged s
/-- ICP_SET_CHECK_DONE (R221). -/
def execIcpSetCheckDone (n : Fin 96) (s : State) : Host.Outcome State Fault Refusal := onDev (Dev.icpSetCheckDone n.val) s

end Sys2Proof.Machine
end

