-- ==== Sys2Proof/Machine/Boot.lean ====
section
/-! DEFINITION. Power domains coming up and going off (R418, R419), the boot firmware (R423, R424), crystal failure (R421), the host link's resets (R346,
R415) and the acting of RESET (R375). -/
namespace Sys2Proof.Machine

/-! ### Domains that come up (R417, R419) -/

/-- The registers from `lo` to below `hi` return to their reset values. -/
def Dev.resetRegs (lo hi : Nat) (d : Dev) : Dev := { d with regs := d.regs.filter (fun e => decide (e.1 < lo) || decide (hi ≤ e.1)) }

/-- An isle is as it comes up: every word 0 with valid check bits, gated until an image loads it (R419). -/
def Dev.isleFresh (n : Nat) (d : Dev) : Dev :=
  let d := ((d.clearCfgErr n false).clearCfgErr n true).clearLagoon n
  let d := (d.resetRegs (IS_CFG n) (IS_CFG (n + 1))).setIsle n { Isle.reset with hin := (d.isle n).hin, hinV := (d.isle n).hinV, gateLoad := true }
  ({ d with integ := { d.integ with walkPos := tset 0 d.integ.walkPos (1 + n) 0, merge := tset [] d.integ.merge (16 + n) [],
                                     crc := d.integ.crc.filter (fun e => e.1 % 1536 / 16 ≠ n) } } : Dev).showGate n

/-- A core is as it comes up: its local SRAM 0, waiting for CP_CTL.RUN (R419). -/
def Dev.coreFresh (c : Nat) (d : Dev) : Dev :=
  let lo := 0x20000000 + c * 0x80000
  let out := fun (a : Nat) => decide (a < lo) || decide (lo + 0x80000 ≤ a)
  let d := d.resetRegs (CP_CFG c) (CP_CFG (c + 1))
  let d : Dev := { d with mem := d.mem.filter (fun e => out e.1),
                          integ := { d.integ with ecc := d.integ.ecc.filter (fun e => out e.1), walkPos := tset 0 d.integ.walkPos (97 + c) 0 } }
  (d.setCore c { CoreSt.reset with born := d.now }).wr (CP_STAT_RUN c) 0

/-- The Ethernet block is as it comes up: ports disabled, network time from AD7 (R419). -/
def Dev.ethFresh (d : Dev) : Dev :=
  let d := d.resetRegs 0x400C0000 0x400D0000
  let d := (d.setEth { d.eth with rings := [], tx := [], step := 0 }).ntLoad
  if d.on PC_STAT_XFAIL then d else d.wr PC_STAT_SLOCK 1

/-- A DDR channel leaves self-refresh and retrains (R335). -/
def Dev.dramFresh (c : Nat) (d : Dev) : Dev :=
  if d.on (DC_CHc_CFG_EN c) then (d.setChan c { d.chan c with training := true }).wr (DC_CHc_STAT_READY c) 0 else d

/-- Firmware starts on core 0 (R423, R424): it queues the other domains and walks the boot pointers. -/
def Dev.firmwareStart (nv : Nv) (d : Dev) : Dev :=
  let d := (d.coreStart 0).showNv nv
  (forList [103, 100, 101, 102, 97, 98, 99] Dev.startDomainReq d).walkStart

/-- What a domain is like when it comes up. -/
def Dev.freshDomain (nv : Nv) (x : Nat) (d : Dev) : Dev :=
  if x < 96 then d.isleFresh x
  else if x < 100 then
    let d := d.coreFresh (x - 96)
    if x = 96 ∧ d.on PC_STAT_FWOK ∧ ¬ d.power.booted ∧ d.cfg.load.phase = 0 then d.firmwareStart nv else d
  else if x < 102 then d.dramFresh (x - 100)
  else if x = 102 then d.ethFresh
  else d

/-- The domain in its start step comes up when the step ends (R417 to R419); one asked off meanwhile then goes off. -/
def Dev.domainUp (nv : Nv) (d : Dev) : Dev :=
  match d.power.cur with
  | none => d
  | some (x, t) =>
    if d.now < t then d
    else
      let off := d.power.offNext
      let d := (d.setPower { d.power with cur := none, offNext := false }).setUp x true
      let d : Dev := { d with net := { d.net with closed := d.net.closed.filter (fun y => y ≠ x) } }
      let d := (d.showOpen x true).freshDomain nv x
      let d := if off then d.closeDomain x else d
      d.startNext.tryApply

/-! ### Domains that go off (R291, R335, R418) -/

/-- A closed domain has nothing outstanding. -/
def Dev.domainIdle (d : Dev) (x : Nat) : Bool :=
  if x < 96 then !(d.net.reqs ++ d.net.resps ++ d.dramWaiting (niOfReq (0x80 + x))).any (fun p => p.req = 0x80 + x)
  else if 100 ≤ x ∧ x < 102 then (d.chan (x - 100)).queue = []
  else true

/-- PERST_N, hot reset or Function Level Reset (R346): the host-link domain alone resets. -/
def Dev.hostLinkReset (d : Dev) : Dev :=
  let d := if d.on HL_STAT_LINKUP then d.linkDown else d
  (d.setMail { d.mail with msix := [], pba := 0, sent := [], waits := [] }).wr HL_STAT_CFGRDY 0

/-- What a domain loses with its power. -/
def Dev.loseDomain (x : Nat) (d : Dev) : Dev :=
  if x < 96 then d.isleFresh x
  else if x < 100 then
    let c := x - 96
    let d := (d.suspendResident c).coreFresh c
    { d with sched := { d.sched with switch := tset none d.sched.switch c none, running := tset none d.sched.running c none } }
  else if x < 102 then
    let k := d.chan (x - 100)
    let d := d.setChan (x - 100) { k with training := false, banks := [], mig := k.mig.map (fun m => { m with step := false }) }
    ((d.wr (DC_CHc_STAT_READY (x - 100)) 0).wr (DC_CHc_STAT_TRAIN (x - 100)) 0).wr (DC_CHc_STAT_PD (x - 100)) 0
  else if x = 102 then (forUpTo 6 Dev.ethLinkDown (d.setSync false)).wr PC_STAT_SLOCK 0
  else d.hostLinkReset

/-- A closed domain loses power; one asked for again meanwhile is queued (R418). -/
def Dev.domainOff (x : Nat) (d : Dev) : Dev :=
  if d.power.going.contains x ∧ d.domUp x ∧ d.domainIdle x then
    let again := d.power.again.contains x
    let d := d.loseDomain x
    let d := (d.setPower { d.power with going := d.power.going.filter (fun y => y ≠ x), again := d.power.again.filter (fun y => y ≠ x) }).setUp x false
    if again then d.startDomainReq x else d
  else d

/-! ### Boot firmware, crystal, resets -/

/-- Verification of the boot firmware ends (R423). -/
def Dev.firmwareVerified (nv : Nv) (ok : Bool) (d : Dev) : Dev :=
  if ¬ d.power.locked ∨ d.on PC_STAT_FWOK ∨ d.power.failed then d
  else if ok then
    let d := d.wr PC_STAT_FWOK 1
    if d.domUp 96 then d.firmwareStart nv else d
  else forUpTo 4 (fun c d => d.wr (CP_STAT_RUN c) 0) (d.setPower { d.power with failed := true })

/-- The crystal fails (R421): XFAIL, an F2 fault, and the Ethernet links go down. -/
def Dev.crystalFail (d : Dev) : Dev :=
  if d.on PC_STAT_XFAIL then d
  else (forUpTo 6 Dev.ethLinkDown ((d.setFlag PC_STAT_XFAIL).wr PC_STAT_SLOCK 0)).f2 0x42 0

/-- A RESET command acts 10 ms after its response (R375). -/
def Dev.resetAction (d : Dev) : Dev :=
  match d.power.asked with
  | [] => d
  | (k, t) :: rest =>
    if d.now < t then d
    else
      let d := d.setPower { d.power with asked := rest }
      if k = 0 then (d.f2 0x44 0).restartCores else d.deviceReset 2 d.power.good d.power.held

/-- The endpoint is configuration-ready (R346). -/
def Dev.configReady (d : Dev) : Dev := if d.domUp 103 then (d.wr HL_STAT_CFGRDY 1).bootEvent else d

/-- The PCIe link is trained (R363). -/
def Dev.linkUp (rate width : Nat) (d : Dev) : Dev :=
  if d.domUp 103 then (((d.wr HL_STAT_LINKUP 1).wr HL_STAT_RATE rate).wr HL_STAT_WIDTH width).bootEvent else d

/-! ### The commands -/

/-- DOMAIN_UP (R417). -/
def execDomainUp (s : State) : Host.Outcome State Fault Refusal := onDevNv Dev.domainUp s
/-- DOMAIN_OFF (R418). -/
def execDomainOff (x : Fin 104) (s : State) : Host.Outcome State Fault Refusal := onDev (Dev.domainOff x.val) s
/-- FIRMWARE_VERIFY_DONE (R423). -/
def execFirmwareVerifyDone (ok : Bool) (s : State) : Host.Outcome State Fault Refusal := onDevNv (fun nv => Dev.firmwareVerified nv ok) s
/-- CRYSTAL_FAIL (R421). -/
def execCrystalFail (s : State) : Host.Outcome State Fault Refusal := onDev Dev.crystalFail s
/-- RESET_ACTION (R375). -/
def execResetAction (s : State) : Host.Outcome State Fault Refusal := onDev Dev.resetAction s
/-- HOST_LINK_RESET (R346). -/
def execHostLinkReset (s : State) : Host.Outcome State Fault Refusal := onDev Dev.hostLinkReset s
/-- CONFIG_READY (R346). -/
def execConfigReady (s : State) : Host.Outcome State Fault Refusal := onDev Dev.configReady s
/-- LINK_UP (R363). -/
def execLinkUp (r : BitVec 2) (w : BitVec 3) (s : State) : Host.Outcome State Fault Refusal := onDev (Dev.linkUp r.toNat w.toNat) s

end Sys2Proof.Machine
end

