-- ==== Sys2Proof/Machine/FwBase.lean ====
section
/-! DEFINITION. What every firmware command shares: arguments and buffers (R352, R365, R368), the order of the checks (R369), the order of commands that name
one resource (R353), answers (R356, R361) and operations that answer STARTED (R371). -/
namespace Sys2Proof.Machine

/-! ### Arguments (R368) -/

/-- Argument word `k`: bytes beyond PLEN read as 0. -/
def Cmd.arg (c : Cmd) (k : Nat) : BitVec 32 := w32 (bytesNat ((((wordsBytes c.pay).take c.plen).drop (16 * c.nbuf + 4 * k)).take 4))

/-- Argument word `k` as a number. -/
def Cmd.num (c : Cmd) (k : Nat) : Nat := (c.arg k).toNat

/-- Bits [hi:lo] of argument word `k`. -/
def Cmd.fld (c : Cmd) (k hi lo : Nat) : Nat := wbits (c.arg k) hi lo

/-- Argument words `k` and `k + 1`, low word first. -/
def Cmd.num64 (c : Cmd) (k : Nat) : Nat := c.num k + c.num (k + 1) * 2 ^ 32

/-- A reserved bit of argument word `k` is set: a bit outside `mask`. -/
def Cmd.rsvd (c : Cmd) (k mask : Nat) : Bool := Nat.land (c.num k) (0xFFFFFFFF - mask) ≠ 0

/-! ### Buffers (R352, R365) -/

/-- Host address, length and DIR of descriptor 0. -/
def Cmd.bufAddr (c : Cmd) : Nat := (c.pay.getD 0 0).toNat + (c.pay.getD 1 0).toNat * 2 ^ 32
def Cmd.bufLen (c : Cmd) : Nat := (c.pay.getD 2 0).toNat
def Cmd.bufDir (c : Cmd) : Nat := (c.pay.getD 3 0).toNat

/-- Descriptor `i` keeps the rules of R352; over the console the address is ignored and the length is at most 4,096 (R365). -/
def Cmd.descOk (c : Cmd) (i : Nat) : Bool :=
  let n := (c.pay.getD (4 * i + 2) 0).toNat
  decide (1 ≤ n) && decide (n ≤ 16777215) && decide ((c.pay.getD (4 * i + 3) 0).toNat ≤ 1) &&
  if c.console then decide (n ≤ 4096) else (c.pay.getD (4 * i) 0).toNat % 4 = 0

/-- Every descriptor of the command is right. -/
def Cmd.bufsOk (c : Cmd) : Bool := decide (16 * c.nbuf ≤ c.plen) && (!c.console || decide (c.nbuf ≤ 1)) && (List.range c.nbuf).all c.descOk

/-- The buffer is missing, of another DIR, or shorter than `n` bytes. -/
def Cmd.noBuf (c : Cmd) (dir n : Nat) : Bool := c.nbuf = 0 || c.bufDir ≠ dir || decide (c.bufLen < n)

/-- `n` bytes of a DIR 0 buffer. -/
def Dev.bufIn (d : Dev) (c : Cmd) (n : Nat) : List (BitVec 8) :=
  if c.console then (c.data ++ List.replicate n 0).take n else d.hostBytes c.bufAddr n

/-! ### Commands in ring order (R353) -/

/-- The claim class of a harbour class (Table 06-7, Table 08-5). -/
def portClaim (cls : Nat) : Nat := [0x03, 0x05, 0x06, 0x07, 0x01, 0x02, 0x09].getD cls 0

/-- The tasks or pairs of a mask in argument words `k` and `k + 1`. -/
def Cmd.mask48 (c : Cmd) (k : Nat) : List Nat := (List.range 48).filter (fun i => c.num64 k / 2 ^ i % 2 = 1)

/-- Two words of a mask. -/
def maskWords (l : List Nat) : List (BitVec 32) :=
  let m := l.foldl (fun n i => n + 2 ^ i) 0
  [w32 m, w32 (m / 2 ^ 32)]

/-- The claim entries of a CLAIM command: the payload's, or the buffer's (R387). -/
def Dev.claimWords (d : Dev) (c : Cmd) : List (List (BitVec 32)) :=
  let n := c.fld 0 8 0
  if c.nbuf = 0 then (List.range (min 2 n)).map (fun i => (List.range 4).map (fun j => c.arg (1 + 4 * i + j)))
  else let b := d.bufIn c (16 * n); (List.range n).map (fun i => bytesWords (b.drop (16 * i)) 4)

/-- The address of pair `i` of a PORT_WRITE (R385). -/
def Cmd.pairAddr (c : Cmd) (i : Nat) : Nat := 0x40000000 + c.fld (1 + 2 * i) 19 0

/-- The resources that a command names: class, first unit, count (Table 08-5). -/
def Dev.cmdNames (d : Dev) (c : Cmd) : List (Nat × Nat × Nat) :=
  match c.op with
  | 0x200 => (0x13, c.num64 3, c.num 2) :: (if c.nbuf = 0 then [(0x13, c.num64 0, c.num 2)] else [])
  | 0x201 => [(0x12, 0, 1), (0x13, c.num64 0, c.num 2), (0x13, c.num 3, c.num 4), (0x16, c.fld 5 2 0, 1), (0x0F, c.fld 5 10 8, 1)]
  | 0x202 => [(0x12, 0, 1)]
  | 0x208 => [(0x13, c.num 0, 16 * c.num 1), (0x13, c.num 2, c.num 3), (0x16, c.fld 4 6 4, 1)]
  | 0x400 => [(0x16, c.fld 0 2 0, 1)]
  | 0x401 => [(0x16, c.fld 0 2 0, 1)]
  | 0x402 => [(0x16, c.fld 0 2 0, 1)]
  | 0x403 => [(0x0C, c.fld 4 5 0, 1), (0x0D, c.fld 1 23 16, 1)]
  | 0x404 => match d.entry (c.fld 0 14 0) with
    | some e => [(0x0C, e.list, 1)]
    | none => []
  | 0x405 => [(0x0C, c.fld 0 5 0, 1), (0x16, c.fld 0 11 9, 1)]
  | 0x406 => [(0x0D, c.fld 0 7 0, 1)]
  | 0x500 => [(0x0B, c.fld 0 5 0, 1)]
  | 0x501 => [(0x0B, c.fld 0 5 0, 1)]
  | 0x502 => (c.mask48 0).map (fun t => (0x0B, t, 1))
  | 0x503 => [(0x0B, c.fld 0 5 0, 1)]
  | 0x504 => [(0x0B, c.fld 0 5 0, 1)]
  | 0x505 => (c.mask48 0).map (fun t => (0x0B, t, 1))
  | 0x600 => [(0x10, c.fld 0 2 0, 1), (0x16, c.fld 0 6 4, 1)]
  | 0x601 => [(0x10, c.fld 0 2 0, 1)]
  | 0x602 => [(0x10, c.fld 0 2 0, 1)]
  | 0x700 => [(portClaim (c.fld 0 15 12), c.fld 0 5 0, 1)]
  | 0x701 => (List.range (min 5 (c.fld 0 2 0))).filterMap (fun i => (csrClaim (c.pairAddr i)).map (fun r => (r.1, r.2, 1)))
  | 0x703 => (c.mask48 0).map (fun p => (0x01, p, 1))
  | 0x704 => [(0x09, c.fld 0 2 0, 1)]
  | 0x800 => (d.claimWords c).filterMap (fun w => (claimEntry w).map (fun r => (r.1, r.2.1, r.2.2.1)))
  | 0x801 => [(c.num 0, if c.num 0 = 0x13 then c.num64 1 else c.num 1, 1)]
  | 0x900 => [(0x13, c.num64 0, c.num 2)]
  | 0x901 => [(0x13, c.num64 0, c.num 2)]
  | 0x906 => [(0x13, c.num64 1, 16 * 2 ^ c.fld 0 12 8)]
  | 0xA00 => [(0x0A, c.fld 0 6 0, 1)]
  | 0xB00 => [(0x14, c.fld 0 2 0, 1)]
  | 0xB01 => [(0x14, c.fld 0 2 0, 1), (0x0C, c.fld 0 13 8, 1), (0x0D, c.fld 0 23 16, c.fld 0 31 24)]
  | _ => []

/-- Two commands name one resource. -/
def Dev.namesMeet (d : Dev) (a b : Cmd) : Bool :=
  (d.cmdNames a).any (fun x => (d.cmdNames b).any (fun y => x.1 = y.1 && decide (x.2.1 < y.2.1 + y.2.2) && decide (y.2.1 < x.2.1 + x.2.2)))

/-- The same command: channel and TAG. -/
def Cmd.same (a b : Cmd) : Bool := a.console = b.console && a.tag = b.tag

/-- No older command of the channel that is still in progress names a resource of this one. -/
def Dev.cmdReady (d : Dev) (c : Cmd) : Bool :=
  !(d.mail.cmds.takeWhile (fun q => !q.same c)).any (fun q => q.console = c.console && d.namesMeet q c)

/-- The oldest command of an opcode that can take effect. -/
def Dev.nextCmd (d : Dev) (op : Nat) : Option Cmd := d.mail.cmds.find? (fun c => c.op = op && d.cmdReady c)

/-! ### Answers -/

/-- What a command ends with: status, failing part, result words, and the bytes for its DIR 1 buffer. -/
structure FwRes where
  status : Nat
  part : Nat
  res : List (BitVec 32)
  out : List (BitVec 8)
  deriving DecidableEq, Repr

/-- OK with result words. -/
def FwRes.ok (ws : List (BitVec 32)) : FwRes := { status := 0, part := 0xFF, res := ws, out := [] }

/-- A failure: no result word. -/
def FwRes.fail (st : Nat) : FwRes := { status := st, part := 0xFF, res := [], out := [] }

/-- A failure of part `i` (R361). -/
def FwRes.failPart (st i : Nat) : FwRes := { status := st, part := i, res := [], out := [] }

/-- The command's answer: the bytes of its buffer first (R356), then the response; nothing where the command is no longer in progress. -/
def Dev.finish (c : Cmd) (r : FwRes) (d : Dev) : Dev :=
  match takeFirst (fun (q : Cmd) => q.same c) d.mail.cmds with
  | none => d
  | some (_, rest) =>
    let d := d.setMail { d.mail with cmds := rest }
    let d := if c.console ∨ r.out = [] then d else d.hostWrite c.bufAddr r.out
    d.answer c r.status r.part r.res (if c.console then r.out else [])

/-- The first failing check gives the status (R369); where none fails the command takes effect. -/
def Dev.checked (cs : List (Bool × Nat)) (f : Dev → Option FwRes × Dev) (d : Dev) : Option FwRes × Dev :=
  match cs.find? (fun q => q.1) with
  | some q => (some (FwRes.fail q.2), d)
  | none => f d

/-- Firmware carries out the oldest command of an opcode: no result yet leaves the command in progress. -/
def Dev.fw (op : Nat) (f : Cmd → Dev → Option FwRes × Dev) (d : Dev) : Dev :=
  match d.nextCmd op with
  | none => d
  | some c =>
    if !c.bufsOk then d.finish c (FwRes.fail 0x13)
    else
      let r := f c d
      match r.1 with
      | none => r.2
      | some x => r.2.finish c x

/-- A command that only reads: its result words. -/
def Dev.told (f : Dev → List (BitVec 32) × Dev) (d : Dev) : Option FwRes × Dev := let r := f d; (some (FwRes.ok r.1), r.2)

/-- A command without a result. -/
def Dev.done (f : Dev → Dev) (d : Dev) : Option FwRes × Dev := (some (FwRes.ok []), f d)

/-- An operation begins (R371): its TAG stays in progress until CMDDONE. -/
def Dev.started (c : Cmd) (f : Dev → Dev) (d : Dev) : Option FwRes × Dev :=
  (some (FwRes.fail 0x1C), f { d with cfg := { d.cfg with ops := d.cfg.ops ++ [{ tag := c.tag, op := c.op, console := c.console }] } })

/-- The status of a settings commit (SS_RES, R432): NOSPACE, NVERR, NOTFOUND, BADARG. -/
def ssStatus (res : Nat) : Nat := [0x00, 0x1A, 0x1B, 0x16].getD res 0x14

/-- The status of an access (Table 11-5, R389): DECERR, UNCORR, OFFLINE. -/
def busStatus (st : Nat) : Nat := [0x00, 0x14, 0x18].getD st 0x19

/-- A stamp's two words. -/
def stampWords (s : BitVec 64) : List (BitVec 32) := [w32 s.toNat, w32 (s.toNat / 2 ^ 32)]

end Sys2Proof.Machine
end

