-- ==== Sys2Proof/Machine/FwDevice.lean ====
section
/-! DEFINITION. The device, image and settings commands of the firmware (R374 to R379). -/
namespace Sys2Proof.Machine

/-! ### Device commands (R374, R375) -/

/-- DEVINFO's ten words. -/
def Dev.devInfo (d : Dev) : List (BitVec 32) :=
  [d.reg CF_DEVID, d.reg CF_STAT, d.reg CF_BOOT, d.reg CF_IMGSEQ, d.reg CF_IMGLEN] ++ stampWords Config.uniqueNumber ++ stampWords (d.stamp 7) ++
    [(d.auRead (AU_ADn_STAT 7)).1]

/-- RESET acts 10 ms after its response (R375). -/
def Dev.askReset (kind : Nat) (d : Dev) : Dev := d.setPower { d.power with asked := d.power.asked ++ [(kind, d.now + 8000000)] }

/-- CONSOLE: the bit rate and CONEVT (R364, R375); UART 0's bit period is DIV / 16 ACLK. -/
def Dev.setConsole (rate : Nat) (conevt : Bool) (d : Dev) : Dev :=
  ((d.setMail { d.mail with baud := rate }).wr (SP_Uu_CFG_DIV 0) (12800000000 / rate)).wrb HL_CTRL_CONEVT conevt

/-- RESET, its checks first. -/
def fwReset (c : Cmd) (d : Dev) : Option FwRes × Dev := d.checked [(c.rsvd 0 1, 0x14)] (Dev.done (Dev.askReset (c.fld 0 0 0)))

/-- CONSOLE. -/
def fwConsole (c : Cmd) (d : Dev) : Option FwRes × Dev :=
  d.checked [(decide (c.num 0 < 9600) || decide (3000000 < c.num 0) || c.rsvd 1 1, 0x14)] (Dev.done (Dev.setConsole (c.num 0) (wbit (c.arg 1) 0)))

/-! ### Loading and aborting images (R376, R377) -/

/-- IMG_LOAD: the source is a range of device addresses, or the buffer. -/
def fwImgLoad (c : Cmd) (d : Dev) : Option FwRes × Dev :=
  let buf := decide (c.nbuf ≠ 0)
  let n := if buf then c.bufLen else c.num 2
  let src := if buf then c.bufAddr else c.num64 0
  d.checked [(buf && c.noBuf 0 1, 0x13), (!d.claimed 0x13 (c.num64 3) n || (!buf && !d.claimed 0x13 src n), 0x0A), (d.ev.f3, 0x15),
    (d.cfg.load.phase ≠ 0 || d.icpBusy, 0x17)]
    (Dev.started c (fun d => d.setLoad { CfgLoad.reset with
      phase := 1, src := src, len := n, host := buf, data := if c.console then c.data else [], stg := c.num64 3, at_ := d.now }))

/-- IMG_PARTIAL: the CF_ICP registers take its arguments and the ICP starts. -/
def fwImgPartial (c : Cmd) (d : Dev) : Option FwRes × Dev :=
  let stg := c.num 3
  let size := c.num 4
  let go := fun (d : Dev) =>
    let d := (((d.plainWrite CF_ICP_SRC_LO (c.arg 0)).plainWrite CF_ICP_SRC_HI (c.arg 1)).plainWrite CF_ICP_LEN (c.arg 2)).plainWrite CF_ICP_STG (c.arg 3)
    let d := ((d.plainWrite CF_ICP_STGSZ (c.arg 4)).plainWrite CF_ICP_LF_LO (c.arg 6)).plainWrite CF_ICP_LF_HI (c.arg 7)
    d.icpStart (w32 (1 + c.fld 5 2 0 * 2 ^ 4 + c.fld 5 10 8 * 2 ^ 8))
  d.checked [(c.rsvd 1 0xFF || c.rsvd 2 0x1FFFFFF || c.rsvd 5 0x707 || stg % 16 ≠ 0 || size % 16 ≠ 0 || decide (0x800000 < stg + size), 0x14),
    (!d.claimed 0x12 0 1 || !d.claimed 0x0F (c.fld 5 10 8) 1 || !d.claimed 0x13 (c.num64 0) (c.num 2) || !d.claimed 0x13 stg size, 0x0A),
    (d.ev.f3, 0x15), (d.icpBusy || d.cfg.load.phase ≠ 0, 0x17)] (Dev.started c go)

/-- IMG_ABORT (R223, R377): 0 where the image ends aborted, 1 where it was already committed. -/
def fwImgAbort (_c : Cmd) (d : Dev) : Option FwRes × Dev :=
  d.checked [(d.ev.f3 || !d.icpBusy, 0x15)]
    (Dev.told (fun d => let d := d.icpAbort; ([if d.rd CF_ICP_STAT_STATE = 6 then 0 else 1], d)))

/-- READBACK: the CF_RB registers take its arguments and the readback starts (R231). -/
def fwReadback (c : Cmd) (d : Dev) : Option FwRes × Dev :=
  let go := fun (d : Dev) =>
    let d := (((d.plainWrite CF_RB_LIST (c.arg 0)).plainWrite CF_RB_N (c.arg 1)).plainWrite CF_RB_DST (c.arg 2)).plainWrite CF_RB_SIZE (c.arg 3)
    d.rbGo (w32 (1 + c.fld 4 0 0 * 2 + c.fld 4 6 4 * 2 ^ 4))
  d.checked [(c.rsvd 4 0x71, 0x14), (d.rd CF_RB_STAT_STATE ≠ 0, 0x17)] (Dev.started c go)

/-! ### The flash, the boot record, the floor and the keys (R378) -/

/-- The header of the golden image, where the flash holds one that is for this device. -/
def Dev.golden (d : Dev) : Option (List (BitVec 8)) :=
  let b := d.loadBytes 0x62000000 128
  if identityOk b then some b else none

/-- Two ranges meet. -/
def rangesMeet (a n b m : Nat) : Bool := decide (a < b + m) && decide (b < a + n)

/-- An image may not be written at a flash offset (R378). -/
def Dev.flashRefuses (d : Dev) (off n : Nat) (gold : Bool) : Bool :=
  off % 4096 ≠ 0 || decide (0x10000000 < off + n) || (gold && off ≠ 0x2000000) || (!gold && rangesMeet off n 0x2000000 0x1000000) ||
  match d.cfg.home with
  | some h => rangesMeet off n h (d.rd CF_IMGLEN_LEN)
  | none => false

/-- The checks of R213 steps 1 to 4 on an image that is to be written: 0 or a code of Table 08-9. -/
def flashCheck (nv : Nv) (b : List (BitVec 8)) : Nat :=
  if b.length < 128 then 3
  else if !identityOk b then 1
  else
    let code := headerCheck nv (imgPartial b) (decide (128 + 16 * imgSects b ≤ b.length)) b
    if code ≠ 0 then code else if b.length < imgLen b then 3 else if !tagOk nv (b.take (imgLen b)) then 4 else 0

/-- An image is programmed; what is left of its last block is erased. -/
def Dev.flashProgram (off : Nat) (b : List (BitVec 8)) (d : Dev) : Dev :=
  d.storeBytes (0x60000000 + off) (b ++ List.replicate ((4096 - b.length % 4096) % 4096) 0xFF#8)

/-- FLASH_WRITE (R378): staged, checked, programmed and read back within one command. -/
def fwFlashWrite (nv : Nv) (c : Cmd) (d : Dev) : Option FwRes × Dev :=
  let b := d.bufIn c c.bufLen
  let go := fun (d : Dev) =>
    let code := flashCheck nv b
    if code ≠ 0 then d.cmdDone 0x203 code 0xFF [0, 0]
    else
      let img := b.take (imgLen b)
      (d.flashProgram (c.num 0) img).cmdDone 0x203 0 0xFF [w32 img.length, crc32 img]
  d.checked [(c.noBuf 0 1, 0x13), (c.rsvd 1 1 || d.flashRefuses (c.num 0) (imgLen b) (wbit (c.arg 1) 0), 0x14), (d.ev.f3, 0x15)] (Dev.started c go)

/-- Show the BOOT record (Table 08-10). -/
def Dev.showBoot (v : List (BitVec 32)) (d : Dev) : Dev :=
  let d := (d.wr CF_BPTR0_PTR ((v.getD 0 0).toNat / 4096)).wr CF_BPTR1_PTR ((v.getD 1 0).toNat / 4096)
  (d.wr CF_BSEL_SEL (wbits (v.getD 2 0) 0 0)).wr CF_BSEL_TRIAL (wbits (v.getD 3 0) 0 0)

/-- BOOT_SET (R378): the valid fields change in one commit. -/
def fwBootSet (c : Cmd) (d : Dev) : Option FwRes × Dev :=
  let ok := fun (k : Nat) => wbit (c.arg 0) k
  let badPtr := fun (k : Nat) => ok k && (c.num (1 + k) % 4096 ≠ 0 || decide (0x10000000 ≤ c.num (1 + k)))
  if d.on SS_STAT_BUSY then (none, d)
  else d.checked [(c.rsvd 0 0xF || c.rsvd 3 3 || badPtr 0 || badPtr 1, 0x14)] (fun d =>
    let r := d.bootRecord
    let old := r.1
    let new := [if ok 0 then c.arg 1 else old.getD 0 0, if ok 1 then c.arg 2 else old.getD 1 0, if ok 2 then w32 (c.fld 3 0 0) else old.getD 2 0,
      if ok 3 then w32 (c.fld 3 1 1) else old.getD 3 0]
    let q := r.2.bootCommit new
    if q.1 = 0 then (some (FwRes.ok new), q.2.showBoot new) else (some (FwRes.fail (ssStatus q.1)), q.2))

/-- Firmware carries out a command that can change the non-volatile memory. -/
def fwNv (op : Nat) (f : Cmd → Nv → Dev → Option FwRes × Nv × Dev) (nv : Nv) (d : Dev) : Nv × Dev :=
  match d.nextCmd op with
  | none => (nv, d)
  | some c =>
    if !c.bufsOk then (nv, d.finish c (FwRes.fail 0x13))
    else
      let r := f c nv d
      match r.1 with
      | none => r.2
      | some x => (r.2.1, r.2.2.finish c x)

/-- FLOOR_SET (R212, R378): never below the present floor, nor above the golden image's SEQ; record 5 keeps a copy. -/
def fwFloorSet (c : Cmd) (nv : Nv) (d : Dev) : Option FwRes × Nv × Dev :=
  if d.on SS_STAT_BUSY then (none, nv, d)
  else if c.num 0 < nv.floor.toNat ∨ (d.golden.map imgSeq).getD 0 < c.num 0 then (some (FwRes.fail 0x14), nv, d)
  else
    let r := d.ssCommit 5 (some (wordBytes (c.arg 0)))
    if r.1.1 ≠ 0 then (some (FwRes.fail (ssStatus r.1.1)), nv, r.2)
    else
      let nv2 : Nv := { nv with floor := c.arg 0 }
      (some (FwRes.ok [c.arg 0]), nv2, r.2.showNv nv2)

/-- KEY_PROG (R378): an EMPTY slot takes the 32 key bytes and is ACTIVE. -/
def fwKeyProg (c : Cmd) (nv : Nv) (d : Dev) : Option FwRes × Nv × Dev :=
  let k := c.fld 0 1 0
  if c.rsvd 0 3 then (some (FwRes.fail 0x14), nv, d)
  else if (tget KeySlot.empty nv.keys k).voted ≠ 0 then (some (FwRes.fail 0x15), nv, d)
  else
    let key := (List.range 8).flatMap (fun i => wordBytes (c.arg (1 + i)))
    let nv2 : Nv := { nv with keys := tset KeySlot.empty nv.keys k { state := 1, copy1 := 1, copy2 := 1, key := key } }
    (some (FwRes.ok []), nv2, d.showNv nv2)

/-- KEY_REVOKE (R211, R378): an ACTIVE slot other than the golden image's is REVOKED, for good. -/
def fwKeyRevoke (c : Cmd) (nv : Nv) (d : Dev) : Option FwRes × Nv × Dev :=
  let k := c.fld 0 1 0
  let s := tget KeySlot.empty nv.keys k
  if c.rsvd 0 3 then (some (FwRes.fail 0x14), nv, d)
  else if s.voted ≠ 1 ∨ d.golden.any (fun b => imgSlot b = k) then (some (FwRes.fail 0x15), nv, d)
  else
    let nv2 : Nv := { nv with keys := tset KeySlot.empty nv.keys k { s with state := 2, copy1 := 2, copy2 := 2 } }
    (some (FwRes.ok []), nv2, d.showNv nv2)

/-! ### Settings (R379) -/

/-- SET_READ. -/
def fwSetRead (c : Cmd) (d : Dev) : Option FwRes × Dev :=
  d.checked [(c.noBuf 1 1, 0x13), (c.rsvd 0 0xFFFF, 0x14)] (fun d =>
    let r := d.ssFind (c.num 0)
    let n := r.1.2.bytes.length
    if r.1.1 = 1 then (some (FwRes.fail 0x16), r.2)
    else if r.1.1 ≠ 0 then (some (FwRes.fail 0x18), r.2)
    else if c.bufLen < n then (some (FwRes.fail 0x13), r.2)
    else (some { FwRes.ok [w32 n, r.1.2.seq] with out := r.1.2.bytes }, r.2))

/-- A record that SET_WRITE may write: the DRAM record and the host's. -/
def hostRecord (id : Nat) : Bool := id = 2 || (decide (0x1000 ≤ id) && decide (id ≤ 0x7FFF))

/-- SET_WRITE: one commit. -/
def fwSetWrite (c : Cmd) (d : Dev) : Option FwRes × Dev :=
  if d.on SS_STAT_BUSY then (none, d)
  else d.checked [(c.noBuf 0 (c.num 1), 0x13), (c.rsvd 0 0xFFFF || !hostRecord (c.num 0) || c.num 1 = 0 || decide (4096 < c.num 1), 0x14)] (fun d =>
    let r := d.ssCommit (c.num 0) (some (d.bufIn c (c.num 1)))
    (some (if r.1.1 = 0 then FwRes.ok [r.1.2] else FwRes.fail (ssStatus r.1.1)), r.2))

/-- SET_DELETE: one commit. -/
def fwSetDelete (c : Cmd) (d : Dev) : Option FwRes × Dev :=
  if d.on SS_STAT_BUSY then (none, d)
  else d.checked [(c.rsvd 0 0xFFFF || c.num 0 = 2 || !hostRecord (c.num 0), 0x14)] (fun d =>
    let r := d.ssCommit (c.num 0) none
    (some (if r.1.1 = 0 then FwRes.ok [] else FwRes.fail (ssStatus r.1.1)), r.2))

/-- SET_LIST: ID and length, then the sequence number, of every record. -/
def fwSetList (c : Cmd) (d : Dev) : Option FwRes × Dev :=
  let es := (d.ssActive.map d.ssEntries).getD []
  d.checked [(c.noBuf 1 (8 * es.length), 0x13)] (fun d =>
    (some { FwRes.ok [w32 es.length, w32 (d.rd SS_FREE_BYTES)] with out := es.flatMap (fun w => wordBytes (w.getD 0 0) ++ wordBytes (w.getD 2 0)) }, d))

/-! ### The commands -/

/-- NOP_COMMAND (R374). -/
def execNopCommand (s : State) : Host.Outcome State Fault Refusal :=
  onDev (Dev.fw 0x100 (fun _ => Dev.told (fun d => ([Config.fwVersion, Config.fwBuild], d)))) s
/-- DEVINFO (R374). -/
def execDevinfo (s : State) : Host.Outcome State Fault Refusal := onDev (Dev.fw 0x101 (fun _ => Dev.told (fun d => (d.devInfo, d)))) s
/-- RESET (R375). -/
def execReset (s : State) : Host.Outcome State Fault Refusal := onDev (Dev.fw 0x102 fwReset) s
/-- CONSOLE (R375). -/
def execConsole (s : State) : Host.Outcome State Fault Refusal := onDev (Dev.fw 0x103 fwConsole) s
/-- IMG_LOAD (R377). -/
def execImgLoad (s : State) : Host.Outcome State Fault Refusal := onDev (Dev.fw 0x200 fwImgLoad) s
/-- IMG_PARTIAL (R377). -/
def execImgPartial (s : State) : Host.Outcome State Fault Refusal := onDev (Dev.fw 0x201 fwImgPartial) s
/-- IMG_ABORT (R377). -/
def execImgAbort (s : State) : Host.Outcome State Fault Refusal := onDev (Dev.fw 0x202 fwImgAbort) s
/-- FLASH_WRITE (R378). -/
def execFlashWrite (s : State) : Host.Outcome State Fault Refusal := onDevNv (fun nv => Dev.fw 0x203 (fwFlashWrite nv)) s
/-- BOOT_SET (R378). -/
def execBootSet (s : State) : Host.Outcome State Fault Refusal := onDev (Dev.fw 0x204 fwBootSet) s
/-- FLOOR_SET (R378). -/
def execFloorSet (s : State) : Host.Outcome State Fault Refusal := onBoth (fwNv 0x205 fwFloorSet) s
/-- KEY_PROG (R378). -/
def execKeyProg (s : State) : Host.Outcome State Fault Refusal := onBoth (fwNv 0x206 fwKeyProg) s
/-- KEY_REVOKE (R378). -/
def execKeyRevoke (s : State) : Host.Outcome State Fault Refusal := onBoth (fwNv 0x207 fwKeyRevoke) s
/-- READBACK (R376). -/
def execReadback (s : State) : Host.Outcome State Fault Refusal := onDev (Dev.fw 0x208 fwReadback) s
/-- SET_READ (R379). -/
def execSetRead (s : State) : Host.Outcome State Fault Refusal := onDev (Dev.fw 0x300 fwSetRead) s
/-- SET_WRITE (R379). -/
def execSetWrite (s : State) : Host.Outcome State Fault Refusal := onDev (Dev.fw 0x301 fwSetWrite) s
/-- SET_DELETE (R379). -/
def execSetDelete (s : State) : Host.Outcome State Fault Refusal := onDev (Dev.fw 0x302 fwSetDelete) s
/-- SET_LIST (R379). -/
def execSetList (s : State) : Host.Outcome State Fault Refusal := onDev (Dev.fw 0x303 fwSetList) s

end Sys2Proof.Machine
end

