-- ==== Sys2Proof/Machine/Console.lean ====
section
/-! DEFINITION. The console (R364, R365): frames received, and the gap that discards one. -/
namespace Sys2Proof.Machine

/-- The buffer data a command frame carries: that of a DIR 0 buffer within the limits of R365. -/
def frameData (ws : List (BitVec 32)) : Option Nat :=
  let n := (ws.getD 6 0).toNat
  let nbuf := wbits (ws.getD 2 0) 9 8
  if nbuf = 0 ∨ (nbuf = 1 ∧ wbit (ws.getD 7 0) 0) then some 0 else if nbuf = 1 ∧ n ≤ 4096 then some n else none

/-- A frame's body: a 64-byte entry, the data of its buffer and a good CRC-32; data of a buffer that breaks the limits may have any length. -/
def frameOk (body : List (BitVec 8)) : Bool :=
  let n := body.length - 4
  decide (68 ≤ body.length) && crc32 (body.take n) = w32 (bytesNat (body.drop n)) &&
  match frameData (bytesWords body 16) with
  | some k => n = 64 + k
  | none => true

/-- A console frame ends (R364, R365): discarded where it is bad, else its command is taken as a ring entry is (R353). -/
def Dev.consoleFrame (body : List (BitVec 8)) (d : Dev) : Dev :=
  let d := d.setMail { d.mail with part := none }
  if ¬ d.on PC_STAT_FWOK ∨ ¬ frameOk body then d
  else
    let ws := bytesWords body 16
    d.takeCmd (cmdOf true 0 ws ((body.drop 64).take (body.length - 68))) (badEntry ws)

/-- More than 100 ms have passed since the last byte of a frame: it is discarded (R365); the ACLK of the expiry still takes a byte (R57). -/
def Dev.consoleGap (d : Dev) : Dev :=
  match d.mail.part with
  | some t => if d.now ≤ t + aclkPer100ms then d else d.setMail { d.mail with part := none }
  | none => d

/-- CONSOLE_FRAME (R364). -/
def execConsoleFrame (body : List (BitVec 8)) (s : State) : Host.Outcome State Fault Refusal := onDev (Dev.consoleFrame body) s
/-- CONSOLE_GAP_TIMEOUT (R365). -/
def execConsoleGapTimeout (s : State) : Host.Outcome State Fault Refusal := onDev Dev.consoleGap s

end Sys2Proof.Machine
end

