-- ==== Sys2Proof/Machine/CoreWord.lean ====
section
/-! DEFINITION. The control cores' instruction words: the formats of Table 09-5 and the encodings that exist (R257, R258, Tables 09-6 and 09-7). -/
namespace Sys2Proof.Machine

/-- Format R: OP 0x00, rd, ra, rb and FN. -/
def fmtR (fn rd ra rb : Nat) : BitVec 32 := w32 (rd * 2 ^ 19 + ra * 2 ^ 14 + rb * 2 ^ 9 + fn)

/-- Formats I, B and M: OP, two registers and a 14-bit IMM or OFF. -/
def fmtI (op x y : Nat) (imm : BitVec 14) : BitVec 32 := w32 (op * 2 ^ 24 + x * 2 ^ 19 + y * 2 ^ 14 + imm.toNat)

/-- Format U: OP, rd and a 19-bit IMM. -/
def fmtU (op rd : Nat) (imm : BitVec 19) : BitVec 32 := w32 (op * 2 ^ 24 + rd * 2 ^ 19 + imm.toNat)

/-- Format J: OP and a 24-bit OFF. -/
def fmtJ (op : Nat) (off : BitVec 24) : BitVec 32 := w32 (op * 2 ^ 24 + off.toNat)

/-- Format S: OP 0xFF, SUB, rx and a 15-bit IMM. -/
def fmtS (sub rx : Nat) (imm : BitVec 15) : BitVec 32 := w32 (0xFF * 2 ^ 24 + sub * 2 ^ 20 + rx * 2 ^ 15 + imm.toNat)

/-- The FN values of OP 0x00 (Table 09-6). -/
def coreFns : List Nat := [0x010, 0x011, 0x012, 0x013, 0x020, 0x021, 0x022, 0x030, 0x031, 0x032, 0x040, 0x041, 0x050, 0x051, 0x052, 0x060, 0x061, 0x062, 0x063]

/-- An OP other than 0x00 and 0xFF that Table 09-6 lists. -/
def coreOp (op : Nat) : Bool :=
  [(0x01, 0x09), (0x10, 0x16), (0x18, 0x1F), (0x20, 0x25), (0x28, 0x2C), (0x30, 0x31), (0x34, 0x35)].any (fun r => decide (r.1 ≤ op) && decide (op ≤ r.2))

/-- The system instructions by SUB (Table 09-7), with the low bits that carry nothing for each: TRAP and BKPT have no rx; RETT, RETD, SPILLF, FILLF, FENCE,
SYNC, WAIT and YIELD have neither rx nor IMM. -/
def sysClear (sub : Nat) (v : BitVec 32) : Option (BitVec 32) :=
  if sub < 2 then some (v &&& 0xFFF07FFF#32)
  else if [2, 3, 4, 5, 8, 9, 0xC, 0xD].contains sub then some (v &&& 0xFFF00000#32)
  else if sub < 0xE then some v else none

/-- The instruction a word encodes, with the fields that carry nothing cleared; none for a reserved OP, FN or SUB, which raises ILLEGAL (R258). -/
def coreWord (v : BitVec 32) : Option (BitVec 32) :=
  match wbits v 31 24 with
  | 0x00 => if coreFns.contains (wbits v 8 0) then some v else none
  | 0xFF => sysClear (wbits v 23 20) v
  | op => if coreOp op then some v else none

end Sys2Proof.Machine
end

