-- ==== Sys2Proof/Machine/CoreOps.lean ====
section
/-! DEFINITION. What every control-core instruction uses: registers and windows (R236), traps (R239 to R243), translation and the data cache (R249 to R253),
fetch, and the progress of multiple transfers (R244, R245). -/
namespace Sys2Proof.Machine

/-! ### Registers (R236) -/

/-- The physical window register of number `i`, 8 to 31, in window `w`. -/
def windowReg (w i : Nat) : Nat :=
  if i < 16 then 16 * (w % 8) + (i - 8) else if i < 24 then 16 * ((w + 7) % 8) + 8 + (i - 16) else 16 * (w % 8) + 8 + (i - 24)

/-- Register number `i` as the core names it now. -/
def CoreSt.rget (x : CoreSt) (i : Nat) : BitVec 64 :=
  if i = 0 then 0
  else if x.st.df then tget 0#64 x.dfbank i
  else if i < 8 then tget 0#64 x.bank.g i
  else if x.st.tw then tget 0#64 x.trapw i
  else tget 0#64 x.bank.w (windowReg x.st.wcur.toNat i)

/-- The core with register number `i` written; a result for g0 is dropped. -/
def CoreSt.rset (x : CoreSt) (i : Nat) (v : BitVec 64) : CoreSt :=
  if i = 0 then x
  else if x.st.df then { x with dfbank := tset 0#64 x.dfbank i v }
  else if i < 8 then x.setBank { x.bank with g := tset 0#64 x.bank.g i v }
  else if x.st.tw then { x with trapw := tset 0#64 x.trapw i v }
  else x.setBank { x.bank with w := tset 0#64 x.bank.w (windowReg x.st.wcur.toNat i) v }

/-- A register of core `c`. -/
def Dev.creg (d : Dev) (c i : Nat) : BitVec 64 := (d.core c).rget i

/-- Write a register of core `c`. -/
def Dev.setCreg (c i : Nat) (v : BitVec 64) (d : Dev) : Dev := d.modCore c (fun x => x.rset i v)

/-- Core `c` continues at `pc`. -/
def Dev.setPc (c : Nat) (pc : BitVec 64) (d : Dev) : Dev := d.modCore c (fun x => { x with pc := pc })

/-! ### Traps (R239 to R242) -/

/-- A trap as it is raised: CODE, ACC, LVL, KIND and INFO of CAUSE, and the faulting address where there is one. -/
structure CTrap where
  code : Nat
  acc : Nat
  lvl : Nat
  kind : Nat
  info : Nat
  fva : Option Nat
  deriving DecidableEq, Repr

/-- A trap of a code alone. -/
def trapOf (code : Nat) : CTrap := { code := code, acc := 0, lvl := 0, kind := 0, info := 0, fva := none }

/-- A trap of an access: 0 fetch, 1 load, 2 store. -/
def trapAt (code acc va : Nat) : CTrap := { code := code, acc := acc, lvl := 0, kind := 0, info := 0, fva := some va }

/-- CAUSE (Table 09-8). -/
def CTrap.word (t : CTrap) : BitVec 32 := w32 (t.code + t.acc * 2 ^ 5 + t.lvl * 2 ^ 7 + t.kind * 2 ^ 9 + t.info * 2 ^ 16)

/-- The double-fault entry of core `c`: offset 0 of its local SRAM (R240). -/
def dfEntry (c : Nat) : BitVec 64 := BitVec.ofNat 64 (0x20000000 + c * 0x80000)

/-- FVA for a trap: the faulting address, or, for a cause that has none, a value the manual does not state. -/
def Dev.trapFva (t : CTrap) (d : Dev) : BitVec 40 × Dev :=
  match t.fva with
  | some a => (BitVec.ofNat 40 a, d)
  | none => let f := d.fresh; (BitVec.ofNat 40 f.1, f.2)

/-- TAKING A TRAP in core `c` with the resume address `epc` (R239 to R241). -/
def Dev.coreTrap (c : Nat) (t : CTrap) (epc : BitVec 64) (d : Dev) : Dev :=
  let x := d.core c
  if x.st.df then d.stopCore c t.code t.acc epc
  else
    let f := d.trapFva t
    if x.st.tw then
      let x := { x with dfepc := BitVec.ofNat 40 epc.toNat, dfst := x.st, dfcause := t.word, dffva := f.1, pc := dfEntry c, waiting := false,
                        st := { x.st with df := true, mip := false } }
      (f.2.setCore c x).inc (CP_CNT0_DFAULTS c)
    else
      let pc := BitVec.ofNat 64 (x.tvec.toNat + 0x40 * t.code)
      let x := { x with epc := BitVec.ofNat 40 epc.toNat, est := x.st, cause := t.word, fva := f.1, pc := pc, waiting := false,
                        st := { x.st with priv := true, tw := true, ie := false, mip := false } }
      (f.2.setCore c x).inc (CP_CNT0_TRAPS c)

/-! ### Translation (R250 to R253) -/

/-- TTB.EN, TTB.ASID and TTB.BASE of the running thread. -/
def CoreSt.ttbOn (x : CoreSt) : Bool := bits x.bank.ttb.toNat 8 8 = 1
def CoreSt.asid (x : CoreSt) : Nat := bits x.bank.ttb.toNat 7 0
def CoreSt.ttBase (x : CoreSt) : Nat := bits x.bank.ttb.toNat 39 13 * 8192

/-- Core `c`'s own TLB takes an entry. -/
def Dev.coreTlbPut (c : Nat) (e : TlbEnt) (d : Dev) : Dev :=
  let f := d.tlbFill 64 (fun _ => 0) e (d.core c).tlb
  f.2.modCore c (fun x => { x with tlb := f.1 })

/-- Translate `va` by the tables of core `c`'s thread: the physical address and MATTR, or the level and kind of the fault. -/
def Dev.coreTranslate (c va : Nat) (d : Dev) : Except (Nat × Nat) (Nat × Nat) × Dev :=
  let x := d.core c
  match x.tlb.find? (fun e => e.hits x.asid va) with
  | some e => (.ok (e.addr va, e.mattr), d)
  | none =>
    match d.l2Find x.asid va with
    | some e => (.ok (e.addr va, e.mattr), d.coreTlbPut c e)
    | none =>
      let w := d.walk (24 + c) x.ttBase va
      match w.1 with
      | .fault lvl kind => (.error (lvl, kind), w.2.inc MM_CNT1_CFAULT)
      | .found big pa mattr glob =>
        let e := tlbEnt x.asid va big pa mattr glob
        let d := w.2
        let d := if d.on MM_CTRL_L2EN then (let f := d.tlbFill 4 TlbEnt.l2Set e d.mmu.l2; f.2.setMmu { f.2.mmu with l2 := f.1 }) else d
        (.ok (e.addr va, mattr), d.coreTlbPut c e)

/-! ### Memory types and the data cache (R249) -/

/-- How core `c` makes a data access: 0 write-back cached, 1 write-through cached, 2 uncached. Its own local SRAM is never cached (R235). -/
def Dev.memKind (d : Dev) (c pa : Nat) (mattr : Option Nat) : Nat :=
  if (0x20000000 + c * 0x80000 ≤ pa ∧ pa < 0x20000000 + (c + 1) * 0x80000) ∨ ¬ d.on (CP_CFG_DCEN c) then 2
  else match mattr with
    | some m => min m 2
    | none => if areaOf pa = 0 ∨ areaOf pa = 9 ∨ areaOf pa = 7 ∨ areaOf pa = 8 then 0 else 2

/-- The address lies in core `c`'s own local SRAM, which it reaches directly (R235, R249), not over the network. -/
def ownSram (c pa : Nat) : Bool := decide (0x20000000 + c * 0x80000 ≤ pa) && decide (pa < 0x20000000 + (c + 1) * 0x80000)

/-- A read or write of core `c`. -/
def Dev.coreRead (c pa n : Nat) (d : Dev) : (Nat × List (BitVec 8)) × Dev := if ownSram c pa then d.busRead pa n else d.niRead (24 + c) pa n
def Dev.coreWrite (c pa : Nat) (bs : List (BitVec 8)) (d : Dev) : Nat × Dev := if ownSram c pa then d.busWrite pa bs else d.niWrite (24 + c) pa bs

/-- The line of core `c` that holds line number `k`. -/
def Dev.dline (d : Dev) (c k : Nat) : Option DLine := ((d.core c).dc.find? (fun e => e.1 = k)).map (fun e => e.2)

/-- The block with a line of core `c` held. -/
def Dev.setDline (c k : Nat) (l : DLine) (d : Dev) : Dev := d.modCore c (fun x => { x with dc := tput x.dc k l })

/-- A line leaves the cache without being written back. -/
def Dev.dropDline (c k : Nat) (d : Dev) : Dev := d.modCore c (fun x => { x with dc := tdel x.dc k })

/-- The low `n` bytes of a number, lowest first. -/
def natBytes (n v : Nat) : List (BitVec 8) := (List.range n).map (fun i => BitVec.ofNat 8 (v / 2 ^ (8 * i)))

/-- Write a dirty line back: true where the write meets a bus error. -/
def Dev.writeBack (c k : Nat) (d : Dev) : Bool × Dev :=
  match d.dline c k with
  | some l =>
    if l.dirty then
      let r := d.niWrite (24 + c) (64 * k) (natBytes 64 l.data.toNat)
      (r.1 ≠ 0, if r.1 = 0 ∧ (r.2.dline c k).isSome then r.2.setDline c k { l with dirty := false } else r.2)
    else (false, d)
  | none => (false, d)

/-- The line that a fill of a cache of 512 lines pushes out: which one, if any, the manual leaves open; a full cache loses one. -/
def victim (keys : List Nat) (v : Nat) : Option Nat :=
  match keys[v % (keys.length + 1)]? with
  | some k => some k
  | none => if 512 ≤ keys.length then keys.head? else none

/-- A fill may push a line out of the data cache: true where its write-back meets a bus error; the line then stays (R17). -/
def Dev.evict (c : Nat) (d : Dev) : Bool × Dev :=
  let f := d.fresh
  match victim ((d.core c).dc.map (fun e => e.1)) f.1 with
  | some k => let r := f.2.writeBack c k; (r.1, if r.1 then r.2 else r.2.dropDline c k)
  | none => (false, f.2)

/-- Line `k` is in the cache, filled where it was not: none where the fill, or the write-back of the line that makes room, meets a bus error. -/
def Dev.lineFor (c k : Nat) (d : Dev) : Option DLine × Dev :=
  match d.dline c k with
  | some l => (some l, d)
  | none =>
    let r := d.niRead (24 + c) (64 * k) 64
    if r.1.1 ≠ 0 then (none, r.2)
    else
      let l : DLine := { data := BitVec.ofNat 512 (bytesNat r.1.2), dirty := false }
      let q := r.2.evict c
      if q.1 then (none, q.2) else (some l, q.2.setDline c k l)

/-- `n` bytes of a line from offset `o`. -/
def DLine.get (l : DLine) (o n : Nat) : Nat := l.data.toNat / 2 ^ (8 * o) % 2 ^ (8 * n)

/-- The line with `n` bytes from offset `o` replaced. -/
def DLine.put (l : DLine) (o n v : Nat) (dirty : Bool) : DLine :=
  { data := BitVec.ofNat 512 (l.data.toNat - l.get o n * 2 ^ (8 * o) + v % 2 ^ (8 * n) * 2 ^ (8 * o)), dirty := dirty }

/-- Read `n` bytes at a physical address: none for a bus error. -/
def Dev.readPa (c pa n kind : Nat) (d : Dev) : Option Nat × Dev :=
  if kind = 2 then
    let r := d.coreRead c pa n
    (if r.1.1 = 0 then some (bytesNat r.1.2) else none, r.2)
  else
    let r := d.lineFor c (pa / 64)
    (r.1.map (fun l => l.get (pa % 64) n), r.2)

/-- Write `n` bytes at a physical address: true for a bus error. -/
def Dev.writePa (c pa n v kind : Nat) (d : Dev) : Bool × Dev :=
  if kind = 0 then
    let r := d.lineFor c (pa / 64)
    match r.1 with
    | some l => (false, r.2.setDline c (pa / 64) (l.put (pa % 64) n v true))
    | none => (true, r.2)
  else
    let r := d.coreWrite c pa (natBytes n v)
    if r.1 ≠ 0 then (true, r.2)
    else (false, if kind = 1 then (match r.2.dline c (pa / 64) with
      | some l => r.2.setDline c (pa / 64) (l.put (pa % 64) n v l.dirty)
      | none => r.2) else r.2)

/-! ### Data accesses (R243) -/

/-- The physical address and kind of a data access, or its trap: ADDR, ALIGN, then a translation fault. In double-fault mode every access is physical. -/
def Dev.dataAddr (c va n acc : Nat) (d : Dev) : Except CTrap (Nat × Nat) × Dev :=
  let x := d.core c
  if 2 ^ 40 ≤ va then (.error (trapAt 0x0A acc (va % 2 ^ 40)), d)
  else if va % n ≠ 0 then (.error (trapAt 0x09 acc va), d)
  else if x.st.df then (.ok (va, 2), d)
  else if ¬ x.ttbOn then (.ok (va, d.memKind c va none), d)
  else
    let t := d.coreTranslate c va
    match t.1 with
    | .ok (pa, m) => (.ok (pa, t.2.memKind c pa (some m)), t.2)
    | .error (lvl, kind) => (.error { trapAt 0x06 acc va with lvl := lvl, kind := kind }, t.2)

/-- Load `n` bytes. -/
def Dev.coreLoad (c va n : Nat) (d : Dev) : Except CTrap Nat × Dev :=
  let a := d.dataAddr c va n 1
  match a.1 with
  | .error t => (.error t, a.2)
  | .ok (pa, kind) =>
    let r := a.2.readPa c pa n kind
    (match r.1 with
      | some v => .ok v
      | none => .error (trapAt 0x08 1 va), r.2)

/-- Store `n` bytes: the trap, if there is one. -/
def Dev.coreStore (c va n v : Nat) (d : Dev) : Option CTrap × Dev :=
  let a := d.dataAddr c va n 2
  match a.1 with
  | .error t => (some t, a.2)
  | .ok (pa, kind) =>
    let r := a.2.writePa c pa n v kind
    (if r.1 then some (trapAt 0x08 2 va) else none, r.2)

/-! ### Fetch and the frame of an instruction -/

/-- A fetch of core `c` uses the instruction cache (R249, R260): ICEN, a cacheable type, and not the core's own local SRAM. -/
def Dev.fetchCached (d : Dev) (c pa : Nat) (mattr : Option Nat) : Bool :=
  d.on (CP_CFG_ICEN c) && !(decide (0x20000000 + c * 0x80000 ≤ pa) && decide (pa < 0x20000000 + (c + 1) * 0x80000)) &&
  match mattr with
  | some m => decide (m ≤ 1)
  | none => [0, 7, 8, 9].contains (areaOf pa)

/-- The instruction word at a physical address: none for a bus error. A line that the instruction cache holds is not read again (R249). -/
def Dev.fetchPa (c pa : Nat) (cached : Bool) (d : Dev) : Option (BitVec 32) × Dev :=
  if cached then
    match (d.core c).ic.find? (fun e => e.1 = pa / 64) with
    | some e => (some (w32 (e.2.toNat / 2 ^ (8 * (pa % 64)))), d)
    | none =>
      let r := d.niRead (24 + c) (pa / 64 * 64) 64
      if r.1.1 ≠ 0 then (none, r.2)
      else
        let v := BitVec.ofNat 512 (bytesNat r.1.2)
        let f := r.2.fresh
        let ic := (r.2.core c).ic
        let ic := match victim (ic.map (fun e => e.1)) f.1 with
          | some k => tdel ic k
          | none => ic
        (some (w32 (v.toNat / 2 ^ (8 * (pa % 64)))), f.2.modCore c (fun x => { x with ic := tput ic (pa / 64) v }))
  else
    let r := d.coreRead c pa 4
    (if r.1.1 = 0 then some (w32 (bytesNat r.1.2)) else none, r.2)

/-- The fetch at `pc` (R239, R243): the instruction word, or the trap. In trap mode and with translation off it is physical. -/
def Dev.coreFetch (c : Nat) (pc : Nat) (d : Dev) : Except CTrap (BitVec 32) × Dev :=
  let x := d.core c
  if 2 ^ 40 ≤ pc then (.error (trapAt 0x0A 0 (pc % 2 ^ 40)), d)
  else if pc % 4 ≠ 0 then (.error (trapAt 0x09 0 pc), d)
  else
    let t := if x.st.tw ∨ x.st.df ∨ ¬ x.ttbOn then (.ok (pc, none), d) else
      let q := d.coreTranslate c pc
      (q.1.map (fun r => (r.1, some r.2)), q.2)
    match t.1 with
    | .error (lvl, kind) => (.error { trapAt 0x05 0 pc with lvl := lvl, kind := kind }, t.2)
    | .ok (pa, m) =>
      let r := t.2.fetchPa c pa (t.2.fetchCached c pa m)
      (match r.1 with
        | some v => .ok v
        | none => .error (trapAt 0x07 0 pc), r.2)

/-- The enabled pending interrupt sources of core `c`. -/
def Dev.irqBits (d : Dev) (c : Nat) : Nat := Nat.land (d.rd (CP_IPEND_PEND c)) (d.rd (CP_IMASK_MASK c))

/-- Core `c` executes instructions: up and open (R291), started, its firmware verified, with a thread, and not idle in WAIT. -/
def Dev.coreLive (d : Dev) (c : Nat) : Bool :=
  !d.offline (96 + c) && d.on (CP_STAT_RUN c) && (decide (c ≠ 0) || d.on PC_STAT_FWOK) && !(d.core c).idle &&
  !((d.core c).waiting && d.irqBits c = 0)

/-- Core `c` executes the instruction of word `w` (R257, R258): the word at its pc is fetched and decoded; where it is `w`, the pc advances and `f` does the
rest, given the instruction's address. A reserved encoding raises ILLEGAL. Where the core's next instruction is another, this one is not executed (log entry
190). None is executed at a boundary where a switch acts (R266), nor while an access is held at the core's NI (R283). -/
def Dev.coreStep (c : Nat) (w : BitVec 32) (f : BitVec 64 → Dev → Dev) (d : Dev) : Dev :=
  if ¬ d.coreLive c ∨ d.switchDue c then d
  else d.unlessHeld (fun d =>
    let e := d.modCore c (fun x => { x with waiting := false })
    let pc := (e.core c).pc
    let r := e.coreFetch c pc.toNat
    match r.1 with
    | .error t => r.2.coreTrap c t pc
    | .ok v =>
      match coreWord v with
      | none => r.2.coreTrap c (trapOf 0x01) pc
      | some u => if u = w then f pc (r.2.setPc c (pc + 4)) else d)

/-- An instruction that is privileged (R246): PRIV in shore mode. -/
def Dev.privStep (c : Nat) (w : BitVec 32) (f : BitVec 64 → Dev → Dev) (d : Dev) : Dev :=
  d.coreStep c w (fun pc d => if (d.core c).st.priv then f pc d else d.coreTrap c (trapOf 0x02) pc)

/-- A register result. -/
def Dev.aluStep (c : Nat) (w : BitVec 32) (rd : Nat) (f : CoreSt → BitVec 64) (d : Dev) : Dev :=
  d.coreStep c w (fun _ d => d.setCreg c rd (f (d.core c)))

/-- A load (opcode `op`) of `n` bytes whose value `g` widens. -/
def Dev.loadStep (op c rd ra n : Nat) (imm : BitVec 14) (g : Nat → BitVec 64) (d : Dev) : Dev :=
  d.coreStep c (fmtI op rd ra imm) (fun pc d =>
    let r := d.coreLoad c (d.creg c ra + imm.signExtend 64).toNat n
    match r.1 with
    | .ok v => r.2.setCreg c rd (g v)
    | .error t => r.2.coreTrap c t pc)

/-- A store of the low `n` bytes of a register. -/
def Dev.storeStep (op c rs ra n : Nat) (imm : BitVec 14) (d : Dev) : Dev :=
  d.coreStep c (fmtI op rs ra imm) (fun pc d =>
    let r := d.coreStore c (d.creg c ra + imm.signExtend 64).toNat n ((d.creg c rs).toNat % 2 ^ (8 * n))
    match r.1 with
    | none => r.2
    | some t => r.2.coreTrap c t pc)

/-- A branch. -/
def Dev.branchStep (op c ra rb : Nat) (off : BitVec 14) (p : BitVec 64 → BitVec 64 → Bool) (d : Dev) : Dev :=
  d.coreStep c (fmtI op ra rb off) (fun pc d => if p (d.creg c ra) (d.creg c rb) then d.setPc c (pc + 4 * off.signExtend 64) else d)

/-! ### Multiple transfers (R244, R245) -/

/-- The progress registers of the present mode. -/
def CoreSt.mp (x : CoreSt) : MProg := if x.st.df then x.dm else if x.st.tw then x.tm else x.bank.mp

/-- The core with the progress registers of the present mode replaced. -/
def CoreSt.setMp (x : CoreSt) (m : MProg) : CoreSt :=
  if x.st.df then { x with dm := m } else if x.st.tw then { x with tm := m } else x.setBank { x.bank with mp := m }

/-- One transfer of a multiple transfer: `load` tells its direction, `get` and `put` reach the register it moves. -/
def Dev.oneTransfer (c : Nat) (load : Bool) (get : CoreSt → Nat → BitVec 64) (put : CoreSt → Nat → BitVec 64 → CoreSt) (i : Nat) (d : Dev) :
    Option CTrap × Dev :=
  let m := (d.core c).mp
  let below := ((List.range i).filter (fun k => m.mask.getLsbD k)).length
  let va := (m.base + BitVec.ofNat 64 (8 * below)).toNat
  let done := fun (x : CoreSt) => x.setMp { x.mp with done := x.mp.done ||| BitVec.ofNat 32 (2 ^ i) }
  if load then
    let r := d.coreLoad c va 8
    match r.1 with
    | .error t => (some t, r.2)
    | .ok v => (none, r.2.modCore c (fun x => done (put x i (BitVec.ofNat 64 v))))
  else
    let r := d.coreStore c va 8 (get (d.core c) i).toNat
    match r.1 with
    | some t => (some t, r.2)
    | none => (none, r.2.modCore c done)

/-- The transfers of a multiple transfer that remain, in ascending register number (R244, R245). -/
def MProg.left (m : MProg) : List Nat := (List.range 32).filter (fun i => m.mask.getLsbD i && !m.done.getLsbD i)

/-- The trap of a multiple transfer whose MBASE is no multiple of 8 (R243, R244): ADDR comes first where a transfer would raise it. -/
def baseTrap (load : Bool) (mask : BitVec 32) (base : Nat) : CTrap :=
  trapAt (if 2 ^ 40 ≤ base ∧ mask ≠ 0 then 0x0A else 0x09) (if load then 1 else 2) (base % 2 ^ 40)

/-- A multiple transfer at `pc` goes on by one transfer (R243 to R245): with STATUS.MIP it resumes, else it starts with the mask and base given. Between two
transfers the core stands at the instruction, so that an interrupt or a switch can act there; `fin` acts when the last transfer has completed. -/
def Dev.multi (c : Nat) (pc : BitVec 64) (load : Bool) (mask : BitVec 32) (base : BitVec 64) (get : CoreSt → Nat → BitVec 64)
    (put : CoreSt → Nat → BitVec 64 → CoreSt) (fin : CoreSt → CoreSt) (d : Dev) : Dev :=
  let resume := (d.core c).st.mip
  if ¬ resume ∧ base.toNat % 8 ≠ 0 then d.coreTrap c (baseTrap load mask base.toNat) pc
  else
    let d := if resume then d
      else d.modCore c (fun x => { x.setMp { mask := mask, done := 0, base := base } with st := { x.st with mip := true } })
    let done := fun (d : Dev) => d.modCore c (fun x => fin { x with st := { x.st with mip := false } })
    match (d.core c).mp.left with
    | [] => done d
    | i :: rest =>
      let r := d.oneTransfer c load get put i
      match r.1 with
      | some t => r.2.coreTrap c t pc
      | none => if rest = [] then done r.2 else r.2.setPc c pc

end Sys2Proof.Machine
end

