-- ==== Sys2Proof/Machine/CoreInstr.lean ====
section
/-! DEFINITION. The control cores' instructions (R237 to R259, Tables 09-6 and 09-7) and the interrupt (R243). A command names the core that executes the
instruction next and the operands that its word carries. -/
namespace Sys2Proof.Machine

/-! ### Arithmetic (Table 09-6) -/

/-- A 32-bit result, sign-extended. -/
def sext32 (v : BitVec 64) : BitVec 64 := (BitVec.ofNat 32 v.toNat).signExtend 64

/-- 1 or 0 as a register value. -/
def bool64 (b : Bool) : BitVec 64 := if b then 1 else 0

/-- Bits [127:64] of a product. -/
def mulHigh (p : Int) : BitVec 64 := BitVec.ofInt 64 (p / 2 ^ 64)

/-- A division (Table 09-6): by 0 it raises DIVZ. -/
def Dev.divStep (fn c rd ra rb : Nat) (f : BitVec 64 → BitVec 64 → Dev → BitVec 64 × Dev) (d : Dev) : Dev :=
  d.coreStep c (fmtR fn rd ra rb) (fun pc d =>
    if d.creg c rb = 0 then d.coreTrap c (trapOf 0x0B) pc
    else let r := f (d.creg c ra) (d.creg c rb) d; r.2.setCreg c rd r.1)

/-- The signed quotient; that of the most negative number by -1 does not fit, and the manual states no result for it. -/
def Dev.quoSigned (a b : BitVec 64) (d : Dev) : BitVec 64 × Dev :=
  if a = BitVec.ofNat 64 (2 ^ 63) ∧ b = BitVec.allOnes 64 then (let f := d.fresh; (BitVec.ofNat 64 f.1, f.2))
  else (BitVec.ofInt 64 (Int.tdiv a.toInt b.toInt), d)

/-- ADD (R258): rd is ra plus rb. -/
def execCoreAdd (c : Fin 4) (rd ra rb : Fin 32) (s : State) : Host.Outcome State Fault Refusal :=
  onDev (Dev.aluStep c.val (fmtR 0x010 rd.val ra.val rb.val) rd.val (fun x => let a := x.rget ra.val; let b := x.rget rb.val; a + b)) s
/-- SUB (R258): rd is ra minus rb. -/
def execCoreSub (c : Fin 4) (rd ra rb : Fin 32) (s : State) : Host.Outcome State Fault Refusal :=
  onDev (Dev.aluStep c.val (fmtR 0x011 rd.val ra.val rb.val) rd.val (fun x => let a := x.rget ra.val; let b := x.rget rb.val; a - b)) s
/-- ADD32 (R258): the low words added, sign-extended. -/
def execAdd32 (c : Fin 4) (rd ra rb : Fin 32) (s : State) : Host.Outcome State Fault Refusal :=
  onDev (Dev.aluStep c.val (fmtR 0x012 rd.val ra.val rb.val) rd.val (fun x => let a := x.rget ra.val; let b := x.rget rb.val; sext32 (a + b))) s
/-- SUB32 (R258): the low words subtracted, sign-extended. -/
def execSub32 (c : Fin 4) (rd ra rb : Fin 32) (s : State) : Host.Outcome State Fault Refusal :=
  onDev (Dev.aluStep c.val (fmtR 0x013 rd.val ra.val rb.val) rd.val (fun x => let a := x.rget ra.val; let b := x.rget rb.val; sext32 (a - b))) s
/-- AND (R258): the bitwise and. -/
def execCoreAnd (c : Fin 4) (rd ra rb : Fin 32) (s : State) : Host.Outcome State Fault Refusal :=
  onDev (Dev.aluStep c.val (fmtR 0x020 rd.val ra.val rb.val) rd.val (fun x => let a := x.rget ra.val; let b := x.rget rb.val; a &&& b)) s
/-- OR (R258): the bitwise or. -/
def execCoreOr (c : Fin 4) (rd ra rb : Fin 32) (s : State) : Host.Outcome State Fault Refusal :=
  onDev (Dev.aluStep c.val (fmtR 0x021 rd.val ra.val rb.val) rd.val (fun x => let a := x.rget ra.val; let b := x.rget rb.val; a ||| b)) s
/-- XOR (R258): the bitwise exclusive or. -/
def execCoreXor (c : Fin 4) (rd ra rb : Fin 32) (s : State) : Host.Outcome State Fault Refusal :=
  onDev (Dev.aluStep c.val (fmtR 0x022 rd.val ra.val rb.val) rd.val (fun x => let a := x.rget ra.val; let b := x.rget rb.val; a ^^^ b)) s
/-- SHL (R258): shifted left by rb[5:0]. -/
def execCoreShl (c : Fin 4) (rd ra rb : Fin 32) (s : State) : Host.Outcome State Fault Refusal :=
  onDev (Dev.aluStep c.val (fmtR 0x030 rd.val ra.val rb.val) rd.val (fun x => let a := x.rget ra.val; let b := x.rget rb.val; a <<< (b.toNat % 64))) s
/-- SHR (R258): shifted right by rb[5:0], zeros entering. -/
def execCoreShr (c : Fin 4) (rd ra rb : Fin 32) (s : State) : Host.Outcome State Fault Refusal :=
  onDev (Dev.aluStep c.val (fmtR 0x031 rd.val ra.val rb.val) rd.val (fun x => let a := x.rget ra.val; let b := x.rget rb.val; a >>> (b.toNat % 64))) s
/-- SHRA (R258): shifted right by rb[5:0], the sign entering. -/
def execCoreShra (c : Fin 4) (rd ra rb : Fin 32) (s : State) : Host.Outcome State Fault Refusal :=
  onDev (Dev.aluStep c.val (fmtR 0x032 rd.val ra.val rb.val) rd.val (fun x => let a := x.rget ra.val; let b := x.rget rb.val; a.sshiftRight (b.toNat % 64))) s
/-- CLTS (R258): 1 where ra is less than rb, signed. -/
def execClts (c : Fin 4) (rd ra rb : Fin 32) (s : State) : Host.Outcome State Fault Refusal :=
  onDev (Dev.aluStep c.val (fmtR 0x040 rd.val ra.val rb.val) rd.val (fun x => let a := x.rget ra.val; let b := x.rget rb.val; bool64 (a.slt b))) s
/-- CLTU (R258): 1 where ra is less than rb, unsigned. -/
def execCltu (c : Fin 4) (rd ra rb : Fin 32) (s : State) : Host.Outcome State Fault Refusal :=
  onDev (Dev.aluStep c.val (fmtR 0x041 rd.val ra.val rb.val) rd.val (fun x => let a := x.rget ra.val; let b := x.rget rb.val; bool64 (a.ult b))) s
/-- MUL (R258): the low 64 bits of the product. -/
def execMul (c : Fin 4) (rd ra rb : Fin 32) (s : State) : Host.Outcome State Fault Refusal :=
  onDev (Dev.aluStep c.val (fmtR 0x050 rd.val ra.val rb.val) rd.val (fun x => let a := x.rget ra.val; let b := x.rget rb.val; a * b)) s
/-- MHIS (R258): the high 64 bits of the signed product. -/
def execMhis (c : Fin 4) (rd ra rb : Fin 32) (s : State) : Host.Outcome State Fault Refusal :=
  onDev (Dev.aluStep c.val (fmtR 0x051 rd.val ra.val rb.val) rd.val (fun x => let a := x.rget ra.val; let b := x.rget rb.val; mulHigh (a.toInt * b.toInt))) s
/-- MHIU (R258): the high 64 bits of the unsigned product. -/
def execMhiu (c : Fin 4) (rd ra rb : Fin 32) (s : State) : Host.Outcome State Fault Refusal :=
  onDev (Dev.aluStep c.val (fmtR 0x052 rd.val ra.val rb.val) rd.val (fun x => let a := x.rget ra.val; let b := x.rget rb.val; mulHigh ((a.toNat : Int) * b.toNat))) s
/-- QUOS (R258): the signed quotient rounded toward zero. -/
def execQuos (c : Fin 4) (rd ra rb : Fin 32) (s : State) : Host.Outcome State Fault Refusal :=
  onDev (Dev.divStep 0x060 c.val rd.val ra.val rb.val (fun a b d => d.quoSigned a b)) s
/-- QUOU (R258): the unsigned quotient. -/
def execQuou (c : Fin 4) (rd ra rb : Fin 32) (s : State) : Host.Outcome State Fault Refusal :=
  onDev (Dev.divStep 0x061 c.val rd.val ra.val rb.val (fun a b d => (a / b, d))) s
/-- RMDS (R258): the signed remainder with the sign of ra. -/
def execRmds (c : Fin 4) (rd ra rb : Fin 32) (s : State) : Host.Outcome State Fault Refusal :=
  onDev (Dev.divStep 0x062 c.val rd.val ra.val rb.val (fun a b d => (BitVec.ofInt 64 (Int.tmod a.toInt b.toInt), d))) s
/-- RMDU (R258): the unsigned remainder. -/
def execRmdu (c : Fin 4) (rd ra rb : Fin 32) (s : State) : Host.Outcome State Fault Refusal :=
  onDev (Dev.divStep 0x063 c.val rd.val ra.val rb.val (fun a b d => (a % b, d))) s
/-- ADDI (R258): rd is ra plus the signed IMM. -/
def execAddi (c : Fin 4) (rd ra : Fin 32) (imm : BitVec 14) (s : State) : Host.Outcome State Fault Refusal :=
  onDev (Dev.aluStep c.val (fmtI 0x01 rd.val ra.val imm) rd.val (fun x => let a := x.rget ra.val; a + imm.signExtend 64)) s
/-- ANDI (R258): and with the zero-extended IMM. -/
def execAndi (c : Fin 4) (rd ra : Fin 32) (imm : BitVec 14) (s : State) : Host.Outcome State Fault Refusal :=
  onDev (Dev.aluStep c.val (fmtI 0x02 rd.val ra.val imm) rd.val (fun x => let a := x.rget ra.val; a &&& imm.setWidth 64)) s
/-- ORI (R258): or with the zero-extended IMM. -/
def execOri (c : Fin 4) (rd ra : Fin 32) (imm : BitVec 14) (s : State) : Host.Outcome State Fault Refusal :=
  onDev (Dev.aluStep c.val (fmtI 0x03 rd.val ra.val imm) rd.val (fun x => let a := x.rget ra.val; a ||| imm.setWidth 64)) s
/-- XORI (R258): exclusive or with the zero-extended IMM. -/
def execXori (c : Fin 4) (rd ra : Fin 32) (imm : BitVec 14) (s : State) : Host.Outcome State Fault Refusal :=
  onDev (Dev.aluStep c.val (fmtI 0x04 rd.val ra.val imm) rd.val (fun x => let a := x.rget ra.val; a ^^^ imm.setWidth 64)) s
/-- CLTSI (R258): 1 where ra is less than IMM, signed. -/
def execCltsi (c : Fin 4) (rd ra : Fin 32) (imm : BitVec 14) (s : State) : Host.Outcome State Fault Refusal :=
  onDev (Dev.aluStep c.val (fmtI 0x05 rd.val ra.val imm) rd.val (fun x => let a := x.rget ra.val; bool64 (a.slt (imm.signExtend 64)))) s
/-- CLTUI (R258): 1 where ra is less than the sign-extended IMM, unsigned. -/
def execCltui (c : Fin 4) (rd ra : Fin 32) (imm : BitVec 14) (s : State) : Host.Outcome State Fault Refusal :=
  onDev (Dev.aluStep c.val (fmtI 0x06 rd.val ra.val imm) rd.val (fun x => let a := x.rget ra.val; bool64 (a.ult (imm.signExtend 64)))) s
/-- SHLI (R258): shifted left by IMM[5:0]. -/
def execShli (c : Fin 4) (rd ra : Fin 32) (imm : BitVec 14) (s : State) : Host.Outcome State Fault Refusal :=
  onDev (Dev.aluStep c.val (fmtI 0x07 rd.val ra.val imm) rd.val (fun x => let a := x.rget ra.val; a <<< (imm.toNat % 64))) s
/-- SHRI (R258): shifted right by IMM[5:0], zeros entering. -/
def execShri (c : Fin 4) (rd ra : Fin 32) (imm : BitVec 14) (s : State) : Host.Outcome State Fault Refusal :=
  onDev (Dev.aluStep c.val (fmtI 0x08 rd.val ra.val imm) rd.val (fun x => let a := x.rget ra.val; a >>> (imm.toNat % 64))) s
/-- SHRAI (R258): shifted right by IMM[5:0], the sign entering. -/
def execShrai (c : Fin 4) (rd ra : Fin 32) (imm : BitVec 14) (s : State) : Host.Outcome State Fault Refusal :=
  onDev (Dev.aluStep c.val (fmtI 0x09 rd.val ra.val imm) rd.val (fun x => let a := x.rget ra.val; a.sshiftRight (imm.toNat % 64))) s
/-! ### Loads and stores -/

/-- L64 (R258): load 8 bytes. -/
def execL64 (c : Fin 4) (rd ra : Fin 32) (imm : BitVec 14) (s : State) : Host.Outcome State Fault Refusal :=
  onDev (Dev.loadStep 0x10 c.val rd.val ra.val 8 imm (fun v => BitVec.ofNat 64 v)) s
/-- L32S (R258): load 4 bytes. -/
def execL32s (c : Fin 4) (rd ra : Fin 32) (imm : BitVec 14) (s : State) : Host.Outcome State Fault Refusal :=
  onDev (Dev.loadStep 0x11 c.val rd.val ra.val 4 imm (fun v => (BitVec.ofNat 32 v).signExtend 64)) s
/-- L32U (R258): load 4 bytes. -/
def execL32u (c : Fin 4) (rd ra : Fin 32) (imm : BitVec 14) (s : State) : Host.Outcome State Fault Refusal :=
  onDev (Dev.loadStep 0x12 c.val rd.val ra.val 4 imm (fun v => BitVec.ofNat 64 v)) s
/-- L16S (R258): load 2 bytes. -/
def execL16s (c : Fin 4) (rd ra : Fin 32) (imm : BitVec 14) (s : State) : Host.Outcome State Fault Refusal :=
  onDev (Dev.loadStep 0x13 c.val rd.val ra.val 2 imm (fun v => (BitVec.ofNat 16 v).signExtend 64)) s
/-- L16U (R258): load 2 bytes. -/
def execL16u (c : Fin 4) (rd ra : Fin 32) (imm : BitVec 14) (s : State) : Host.Outcome State Fault Refusal :=
  onDev (Dev.loadStep 0x14 c.val rd.val ra.val 2 imm (fun v => BitVec.ofNat 64 v)) s
/-- L8S (R258): load 1 byte. -/
def execL8s (c : Fin 4) (rd ra : Fin 32) (imm : BitVec 14) (s : State) : Host.Outcome State Fault Refusal :=
  onDev (Dev.loadStep 0x15 c.val rd.val ra.val 1 imm (fun v => (BitVec.ofNat 8 v).signExtend 64)) s
/-- L8U (R258): load 1 byte. -/
def execL8u (c : Fin 4) (rd ra : Fin 32) (imm : BitVec 14) (s : State) : Host.Outcome State Fault Refusal :=
  onDev (Dev.loadStep 0x16 c.val rd.val ra.val 1 imm (fun v => BitVec.ofNat 64 v)) s
/-- S64 (R258): store the low 8 bytes of rd. -/
def execS64 (c : Fin 4) (rd ra : Fin 32) (imm : BitVec 14) (s : State) : Host.Outcome State Fault Refusal :=
  onDev (Dev.storeStep 0x18 c.val rd.val ra.val 8 imm) s
/-- S32 (R258): store the low 4 bytes of rd. -/
def execS32 (c : Fin 4) (rd ra : Fin 32) (imm : BitVec 14) (s : State) : Host.Outcome State Fault Refusal :=
  onDev (Dev.storeStep 0x19 c.val rd.val ra.val 4 imm) s
/-- S16 (R258): store the low 2 bytes of rd. -/
def execS16 (c : Fin 4) (rd ra : Fin 32) (imm : BitVec 14) (s : State) : Host.Outcome State Fault Refusal :=
  onDev (Dev.storeStep 0x1A c.val rd.val ra.val 2 imm) s
/-- S8 (R258): store the low 1 byte of rd. -/
def execS8 (c : Fin 4) (rd ra : Fin 32) (imm : BitVec 14) (s : State) : Host.Outcome State Fault Refusal :=
  onDev (Dev.storeStep 0x1B c.val rd.val ra.val 1 imm) s
/-- The mask and base of LDMASK and STMASK (R244). -/
def Dev.maskStep (c rm ra : Nat) (imm : BitVec 14) (load : Bool) (d : Dev) : Dev :=
  d.coreStep c (fmtI (if load then 0x1C else 0x1D) rm ra imm) (fun pc d =>
    d.multi c pc load (BitVec.ofNat 32 (d.creg c rm).toNat) (d.creg c ra + imm.signExtend 64) CoreSt.rget CoreSt.rset id)

/-- LDMASK (R244): load the registers of the mask in rm. -/
def execLdmask (c : Fin 4) (rm ra : Fin 32) (imm : BitVec 14) (s : State) : Host.Outcome State Fault Refusal :=
  onDev (Dev.maskStep c.val rm.val ra.val imm true) s
/-- STMASK (R244): store the registers of the mask in rm. -/
def execStmask (c : Fin 4) (rm ra : Fin 32) (imm : BitVec 14) (s : State) : Host.Outcome State Fault Refusal :=
  onDev (Dev.maskStep c.val rm.val ra.val imm false) s
/-- A physical 8-byte access that bypasses the cache (Table 09-6): PRIV, ADDR, ALIGN, then DABORT. -/
def Dev.phyStep (op c rd ra : Nat) (imm : BitVec 14) (acc : Nat) (f : Nat → BitVec 64 → Dev → Dev) (d : Dev) : Dev :=
  d.privStep c (fmtI op rd ra imm) (fun pc d =>
    let va := (d.creg c ra + imm.signExtend 64).toNat
    if 2 ^ 40 ≤ va then d.coreTrap c (trapAt 0x0A acc (va % 2 ^ 40)) pc
    else if va % 8 ≠ 0 then d.coreTrap c (trapAt 0x09 acc va) pc
    else f va pc d)

/-- PHYLD (R246): a physical load. -/
def execPhyld (c : Fin 4) (rd ra : Fin 32) (imm : BitVec 14) (s : State) : Host.Outcome State Fault Refusal :=
  onDev (Dev.phyStep 0x1E c.val rd.val ra.val imm 1 (fun va pc d =>
    let r := d.readPa c.val va 8 2
    match r.1 with
    | some v => r.2.setCreg c.val rd.val (BitVec.ofNat 64 v)
    | none => r.2.coreTrap c.val (trapAt 0x08 1 va) pc)) s
/-- PHYST (R246): a physical store. -/
def execPhyst (c : Fin 4) (rd ra : Fin 32) (imm : BitVec 14) (s : State) : Host.Outcome State Fault Refusal :=
  onDev (Dev.phyStep 0x1F c.val rd.val ra.val imm 2 (fun va pc d =>
    let r := d.writePa c.val va 8 (d.creg c.val rd.val).toNat 2
    if r.1 then r.2.coreTrap c.val (trapAt 0x08 2 va) pc else r.2)) s
/-- An atomic exchange of 8 bytes at the target (Table 09-6): `f` gives the new value from the old one; the data cache is bypassed. -/
def Dev.atomicStep (op c rd ra : Nat) (imm : BitVec 14) (f : BitVec 64 → BitVec 64 → BitVec 64) (d : Dev) : Dev :=
  d.coreStep c (fmtI op rd ra imm) (fun pc d =>
    let va := (d.creg c ra + imm.signExtend 64).toNat
    let a := d.dataAddr c va 8 2
    match a.1 with
    | .error t => a.2.coreTrap c t pc
    | .ok (pa, _) =>
      let r := a.2.readPa c pa 8 2
      match r.1 with
      | none => r.2.coreTrap c (trapAt 0x08 2 va) pc
      | some old =>
        let w := r.2.writePa c pa 8 (f (BitVec.ofNat 64 old) (r.2.creg c rd)).toNat 2
        if w.1 then w.2.coreTrap c (trapAt 0x08 2 va) pc else w.2.setCreg c rd (BitVec.ofNat 64 old))

/-- SWAP (R258): exchange 8 bytes of memory with rd. -/
def execSwap (c : Fin 4) (rd ra : Fin 32) (imm : BitVec 14) (s : State) : Host.Outcome State Fault Refusal :=
  onDev (Dev.atomicStep 0x30 c.val rd.val ra.val imm (fun _ r => r)) s
/-- XADD (R258): add rd to 8 bytes of memory; rd takes the old value. -/
def execXadd (c : Fin 4) (rd ra : Fin 32) (imm : BitVec 14) (s : State) : Host.Outcome State Fault Refusal :=
  onDev (Dev.atomicStep 0x31 c.val rd.val ra.val imm (fun o r => o + r)) s
/-! ### Branches, jumps and windows (R237) -/

/-- BREQ (R258): branch where ra is equal rb. -/
def execBreq (c : Fin 4) (ra rb : Fin 32) (off : BitVec 14) (s : State) : Host.Outcome State Fault Refusal :=
  onDev (Dev.branchStep 0x20 c.val ra.val rb.val off (fun a b => a == b)) s
/-- BRNE (R258): branch where ra is not equal rb. -/
def execBrne (c : Fin 4) (ra rb : Fin 32) (off : BitVec 14) (s : State) : Host.Outcome State Fault Refusal :=
  onDev (Dev.branchStep 0x21 c.val ra.val rb.val off (fun a b => a != b)) s
/-- BRLT (R258): branch where ra is less than, signed rb. -/
def execBrlt (c : Fin 4) (ra rb : Fin 32) (off : BitVec 14) (s : State) : Host.Outcome State Fault Refusal :=
  onDev (Dev.branchStep 0x22 c.val ra.val rb.val off (fun a b => a.slt b)) s
/-- BRGE (R258): branch where ra is not less than, signed rb. -/
def execBrge (c : Fin 4) (ra rb : Fin 32) (off : BitVec 14) (s : State) : Host.Outcome State Fault Refusal :=
  onDev (Dev.branchStep 0x23 c.val ra.val rb.val off (fun a b => !a.slt b)) s
/-- BRLO (R258): branch where ra is lower than, unsigned rb. -/
def execBrlo (c : Fin 4) (ra rb : Fin 32) (off : BitVec 14) (s : State) : Host.Outcome State Fault Refusal :=
  onDev (Dev.branchStep 0x24 c.val ra.val rb.val off (fun a b => a.ult b)) s
/-- BRHS (R258): branch where ra is not lower than, unsigned rb. -/
def execBrhs (c : Fin 4) (ra rb : Fin 32) (off : BitVec 14) (s : State) : Host.Outcome State Fault Refusal :=
  onDev (Dev.branchStep 0x25 c.val ra.val rb.val off (fun a b => !a.ult b)) s
/-- JMP (R258). -/
def execJmp (c : Fin 4) (off : BitVec 24) (s : State) : Host.Outcome State Fault Refusal :=
  onDev (Dev.coreStep c.val (fmtJ 0x28 off) (fun pc d => d.setPc c.val (pc + 4 * off.signExtend 64))) s
/-- Open a frame and continue at `target` (R237): WOVF in trap mode and with seven live frames. -/
def Dev.openFrame (c : Nat) (pc target : BitVec 64) (d : Dev) : Dev :=
  let st := (d.core c).st
  if st.tw ∨ st.wres = 7 then d.coreTrap c (trapOf 0x03) pc
  else
    (d.modCore c (fun x => ({ x with st := { x.st with wcur := x.st.wcur + 1, wres := x.st.wres + 1 } }).rset 15 (pc + 4))).setPc c target

/-- CALLF (R237). -/
def execCallf (c : Fin 4) (off : BitVec 24) (s : State) : Host.Outcome State Fault Refusal :=
  onDev (Dev.coreStep c.val (fmtJ 0x29 off) (fun pc d => d.openFrame c.val pc (pc + 4 * off.signExtend 64))) s
/-- CALLFR (R237): the target is ra + IMM. -/
def execCallfr (c : Fin 4) (rd ra : Fin 32) (imm : BitVec 14) (s : State) : Host.Outcome State Fault Refusal :=
  onDev (Dev.coreStep c.val (fmtI 0x2A rd.val ra.val imm) (fun pc d => d.openFrame c.val pc (d.creg c.val ra.val + imm.signExtend 64))) s
/-- JMPR (R258): the pc takes ra + IMM. -/
def execJmpr (c : Fin 4) (rd ra : Fin 32) (imm : BitVec 14) (s : State) : Host.Outcome State Fault Refusal :=
  onDev (Dev.coreStep c.val (fmtI 0x2B rd.val ra.val imm) (fun _ d => d.setPc c.val (d.creg c.val ra.val + imm.signExtend 64))) s
/-- Close a frame (R237): WUNF in trap mode and with one live frame; an OFF that is not 0 is a reserved encoding. -/
def Dev.closeFrame (c : Nat) (off : BitVec 24) (pc : BitVec 64) (d : Dev) : Dev :=
  let st := (d.core c).st
  if off ≠ 0 then d.coreTrap c (trapOf 0x01) pc
  else if st.tw ∨ st.wres = 1 then d.coreTrap c (trapOf 0x04) pc
  else
    let target := d.creg c 15
    d.modCore c (fun x => { x with pc := target, st := { x.st with wcur := x.st.wcur - 1, wres := x.st.wres - 1 } })

/-- RETF (R237). -/
def execRetf (c : Fin 4) (off : BitVec 24) (s : State) : Host.Outcome State Fault Refusal :=
  onDev (Dev.coreStep c.val (fmtJ 0x2C off) (fun pc d => d.closeFrame c.val off pc)) s
/-- MOVHI (R258): IMM sign-extended, shifted left by 13. -/
def execMovhi (c : Fin 4) (rd : Fin 32) (imm : BitVec 19) (s : State) : Host.Outcome State Fault Refusal :=
  onDev (Dev.aluStep c.val (fmtU 0x34 rd.val imm) rd.val (fun _ => imm.signExtend 64 <<< 13)) s
/-- MOVUP (R258): bits [63:32] take IMM, bits [31:0] are kept. -/
def execMovup (c : Fin 4) (rd : Fin 32) (imm : BitVec 19) (s : State) : Host.Outcome State Fault Refusal :=
  onDev (Dev.aluStep c.val (fmtU 0x35 rd.val imm) rd.val (fun x => BitVec.ofNat 64 ((x.rget rd.val).toNat % 2 ^ 32 + imm.toNat * 2 ^ 32))) s
/-! ### Traps and returns -/

/-- TRAP (R242): TRAPI with INFO = IMM; it resumes at the next instruction. -/
def execTrap (c : Fin 4) (imm : BitVec 15) (s : State) : Host.Outcome State Fault Refusal :=
  onDev (Dev.coreStep c.val (fmtS 0 0 imm) (fun pc d => d.coreTrap c.val { trapOf 0x0C with info := imm.toNat } (pc + 4))) s
/-- BKPT (R242): BKPT with INFO = IMM. -/
def execBkpt (c : Fin 4) (imm : BitVec 15) (s : State) : Host.Outcome State Fault Refusal :=
  onDev (Dev.coreStep c.val (fmtS 1 0 imm) (fun pc d => d.coreTrap c.val { trapOf 0x0D with info := imm.toNat } pc)) s
/-- What waited for the end of trap mode (R243, R260): a halt, then a YIELD. -/
def Dev.leaveTrap (c : Nat) (d : Dev) : Dev :=
  if (d.core c).st.tw then d
  else
    let x := d.core c
    let d := d.modCore c (fun x => { x with haltReq := false, yieldReq := false })
    let d := if x.haltReq then d.wr (CP_STAT_RUN c) 0 else d
    if x.yieldReq then d.schedYield c else d

/-- RETURN FROM A TRAP (R239): ILLEGAL outside trap mode, then PRIV. -/
def Dev.coreRett (c : Nat) (pc : BitVec 64) (d : Dev) : Dev :=
  let x := d.core c
  if ¬ x.st.tw ∨ x.st.df then d.coreTrap c (trapOf 0x01) pc
  else if ¬ x.st.priv then d.coreTrap c (trapOf 0x02) pc
  else (d.modCore c (fun x => { x with st := x.est, pc := x.epc.setWidth 64 })).leaveTrap c

/-- RETURN FROM A DOUBLE FAULT (R240): ILLEGAL outside double-fault mode, then PRIV. -/
def Dev.coreRetd (c : Nat) (pc : BitVec 64) (d : Dev) : Dev :=
  let x := d.core c
  if ¬ x.st.df then d.coreTrap c (trapOf 0x01) pc
  else if ¬ x.st.priv then d.coreTrap c (trapOf 0x02) pc
  else (d.modCore c (fun x => { x with st := x.dfst, pc := x.dfepc.setWidth 64 })).leaveTrap c

/-- RETT (R239). -/
def execRett (c : Fin 4) (s : State) : Host.Outcome State Fault Refusal :=
  onDev (Dev.coreStep c.val (fmtS 0x2 0 0) (fun pc d => d.coreRett c.val pc)) s
/-- RETD (R240). -/
def execRetd (c : Fin 4) (s : State) : Host.Outcome State Fault Refusal :=
  onDev (Dev.coreStep c.val (fmtS 0x3 0 0) (fun pc d => d.coreRetd c.val pc)) s
/-- The physical window registers that a spill or a fill of window `w` moves, by register number 8 to 23. -/
def windowGet (w : Nat) (x : CoreSt) (i : Nat) : BitVec 64 := tget 0#64 x.bank.w (windowReg w i)
def windowPut (w : Nat) (x : CoreSt) (i : Nat) (v : BitVec 64) : CoreSt := x.setBank { x.bank with w := tset 0#64 x.bank.w (windowReg w i) v }

/-- SPILLF and FILLF (R238): ILLEGAL outside trap mode and at the limit of ESTATUS.WRES, then PRIV; WSP and WRES change when the last transfer has
completed. -/
def Dev.windowMove (c : Nat) (fill : Bool) (pc : BitVec 64) (d : Dev) : Dev :=
  let x := d.core c
  let e := x.est
  if ¬ x.st.tw ∨ e.wres = (if fill then 7 else 1) then d.coreTrap c (trapOf 0x01) pc
  else if ¬ x.st.priv then d.coreTrap c (trapOf 0x02) pc
  else
    let w := ((e.wcur - e.wres) + if fill then 0 else 1).toNat
    let wsp := x.bank.wsp
    let fin := fun (x : CoreSt) =>
      let y := x.setBank { x.bank with wsp := wspField (if fill then x.bank.wsp + 128 else x.bank.wsp - 128) }
      { y with est := { y.est with wres := if fill then y.est.wres + 1 else y.est.wres - 1 } }
    d.multi c pc fill 0x00FFFF00#32 (if fill then wsp else wsp - 128) (windowGet w) (windowPut w) fin

/-- SPILLF (R238). -/
def execSpillf (c : Fin 4) (s : State) : Host.Outcome State Fault Refusal :=
  onDev (Dev.coreStep c.val (fmtS 0x4 0 0) (fun pc d => d.windowMove c.val false pc)) s
/-- FILLF (R238). -/
def execFillf (c : Fin 4) (s : State) : Host.Outcome State Fault Refusal :=
  onDev (Dev.coreStep c.val (fmtS 0x5 0 0) (fun pc d => d.windowMove c.val true pc)) s
/-! ### Control registers (R248, R259) -/

/-- STATUS as it reads, with SLOT. -/
def CoreSt.statusWord (x : CoreSt) (s : CStat) : BitVec 64 := BitVec.ofNat 64 (s.word + x.slot % 4 * 2 ^ 11)

/-- The slot that BANKSEL names, and the index. -/
def CoreSt.selSlot (x : CoreSt) : Nat := x.banksel.toNat % 4
def CoreSt.selIndex (x : CoreSt) : Nat := bits x.banksel.toNat 15 8

/-- A read of BANKDAT (R248): the active slot's PC and STATUS are the core's own; a slot without a thread reads 0. -/
def CoreSt.bankRead (x : CoreSt) (pc : BitVec 64) : BitVec 64 :=
  let k := x.selSlot
  if (x.bslot k).thread.isNone then 0
  else
    let b := (x.bslot k).bank
    (if k = x.slot then { b with pc := pc, st := x.st } else b).get x.selIndex

/-- A write of BANKDAT (R248). -/
def CoreSt.bankWrite (x : CoreSt) (v : BitVec 64) : CoreSt :=
  let k := x.selSlot
  if (x.bslot k).thread.isNone then x
  else if k = x.slot ∧ x.selIndex = 0x90 then { x with pc := v }
  else if k = x.slot ∧ x.selIndex = 0x91 then { x with st := { cstatOf v.toNat with tw := x.st.tw, df := x.st.df, ie := x.st.ie } }
  else x.setSlot k { x.bslot k with bank := (x.bslot k).bank.put x.selIndex v }

/-- A control register that exists, read in core `c` at `pc` (Table 09-8); BANKDAT is read apart. -/
def Dev.ctlGet (d : Dev) (c n : Nat) (pc : BitVec 64) : BitVec 64 :=
  let x := d.core c
  match n with
  | 0x00 => x.statusWord x.st
  | 0x01 => x.epc.setWidth 64
  | 0x02 => x.statusWord x.est
  | 0x03 => x.cause.setWidth 64
  | 0x04 => x.fva.setWidth 64
  | 0x05 => x.tvec.setWidth 64
  | 0x06 => x.bank.wsp
  | 0x07 => x.bank.mp.mask.setWidth 64
  | 0x08 => x.bank.mp.done.setWidth 64
  | 0x09 => x.bank.mp.base
  | 0x0A => x.bank.ttb
  | 0x0B => x.banksel.setWidth 64
  | 0x0C => x.bankRead pc
  | 0x0D => x.dfepc.setWidth 64
  | 0x0E => x.statusWord x.dfst
  | 0x0F => x.dfcause.setWidth 64
  | 0x10 => x.dffva.setWidth 64
  | 0x11 => BitVec.ofNat 64 ((d.now - x.born) * 3 / 4)
  | 0x12 => BitVec.ofNat 64 c
  | 0x13 => x.tm.mask.setWidth 64
  | 0x14 => x.tm.done.setWidth 64
  | _ => x.tm.base

/-- The fields of CAUSE. -/
def causeField (v : BitVec 64) : BitVec 32 := w32 (Nat.land v.toNat 0xFFFF07FF)

/-- A control register that exists, written: CYCLE and CORE have no field that a write reaches. -/
def CoreSt.ctlPut (x : CoreSt) (n : Nat) (v : BitVec 64) : CoreSt :=
  let b := x.bank
  match n with
  | 0x00 => { x with st := cstatOf v.toNat }
  | 0x01 => { x with epc := v.setWidth 40 }
  | 0x02 => { x with est := cstatOf v.toNat }
  | 0x03 => { x with cause := causeField v }
  | 0x04 => { x with fva := v.setWidth 40 }
  | 0x05 => { x with tvec := BitVec.ofNat 40 (v.toNat % 2 ^ 40 / 2048 * 2048) }
  | 0x06 => x.setBank { b with wsp := wspField v }
  | 0x07 => x.setBank { b with mp := { b.mp with mask := v.setWidth 32 } }
  | 0x08 => x.setBank { b with mp := { b.mp with done := v.setWidth 32 } }
  | 0x09 => x.setBank { b with mp := { b.mp with base := v } }
  | 0x0A => x.setBank { b with ttb := ttbField v }
  | 0x0B => { x with banksel := BitVec.ofNat 16 (Nat.land v.toNat 0xFF03) }
  | 0x0C => x.bankWrite v
  | 0x0D => { x with dfepc := v.setWidth 40 }
  | 0x0E => { x with dfst := cstatOf v.toNat }
  | 0x0F => { x with dfcause := causeField v }
  | 0x10 => { x with dffva := v.setWidth 40 }
  | 0x13 => { x with tm := { x.tm with mask := v.setWidth 32 } }
  | 0x14 => { x with tm := { x.tm with done := v.setWidth 32 } }
  | 0x15 => { x with tm := { x.tm with base := v } }
  | _ => x

/-- The order of an MFC or MTC (R243, R246, R248): ILLEGAL, PRIV, BANKACC, and the wait for a slot that moves. -/
def Dev.ctlStep (sub c rx : Nat) (imm : BitVec 15) (shore : Bool) (f : BitVec 64 → Dev → Dev) (d : Dev) : Dev :=
  d.coreStep c (fmtS sub rx imm) (fun pc d =>
    let x := d.core c
    let n := imm.toNat
    if 0x15 < n then d.coreTrap c (trapOf 0x01) pc
    else if ¬ x.st.priv ∧ ¬ shore then d.coreTrap c (trapOf 0x02) pc
    else if (n = 0x0B ∨ n = 0x0C) ∧ ¬ d.on (CP_CFG_BANKWIN c) then d.coreTrap c (trapOf 0x0E) pc
    else if n = 0x0C ∧ (x.bslot x.selSlot).move ≠ 0 then d.setPc c pc
    else f pc d)

/-- MFC (R259): rx takes control register IMM. -/
def execMfc (c : Fin 4) (rx : Fin 32) (imm : BitVec 15) (s : State) : Host.Outcome State Fault Refusal :=
  onDev (Dev.ctlStep 6 c.val rx.val imm (imm.toNat = 0x06 || imm.toNat = 0x11 || imm.toNat = 0x12) (fun pc d =>
    d.setCreg c.val rx.val (d.ctlGet c.val imm.toNat pc))) s
/-- MTC (R259): control register IMM takes rx. -/
def execMtc (c : Fin 4) (rx : Fin 32) (imm : BitVec 15) (s : State) : Host.Outcome State Fault Refusal :=
  onDev (Dev.ctlStep 7 c.val rx.val imm (imm.toNat = 0x06) (fun _ d =>
    let v := d.creg c.val rx.val
    d.modCore c.val (fun x => x.ctlPut imm.toNat v))) s
/-! ### Ordering, invalidation and waiting -/

/-- FENCE (R258): every earlier access has completed already. -/
def execFence (c : Fin 4) (s : State) : Host.Outcome State Fault Refusal :=
  onDev (Dev.coreStep c.val (fmtS 0x8 0 0) (fun _ d => d)) s
/-- SYNC (R254): it waits while an invalidation is under way. -/
def execSync (c : Fin 4) (s : State) : Host.Outcome State Fault Refusal :=
  onDev (Dev.coreStep c.val (fmtS 0x9 0 0) (fun pc d => if d.on MM_STAT_INVBUSY then d.setPc c.val pc else d)) s
/-- TLBI (R254). -/
def execTlbi (c : Fin 4) (rx : Fin 32) (imm : BitVec 15) (s : State) : Host.Outcome State Fault Refusal :=
  onDev (Dev.privStep c.val (fmtS 0xA rx.val imm) (fun _ d => d.tlbInv (imm.toNat % 4) (d.core c.val).asid ((d.creg c.val rx.val).toNat % 2 ^ 40))) s
/-- The line that a CACHE of kind 0 to 3 names (R249), or its trap. -/
def Dev.cacheLine (c va : Nat) (d : Dev) : Except CTrap Nat × Dev :=
  let r := d.dataAddr c va 1 1
  (match r.1 with
    | .ok (pa, _) => .ok (pa / 64)
    | .error t => .error t, r.2)

/-- Write back every line of core `c`: true where one meets a bus error. -/
def Dev.writeBackAll (c : Nat) (d : Dev) : Bool × Dev :=
  ((d.core c).dc.map (fun e => e.1)).foldl (fun (r : Bool × Dev) k => let q := r.2.writeBack c k; (r.1 || q.1, q.2)) (false, d)

/-- CACHE (R249): kinds 0 write back, 1 invalidate, 2 both, 3 invalidate the instruction line, 4 write back the data cache, 5 invalidate the instruction
cache; those that invalidate are privileged. -/
def Dev.cacheOp (c kind va : Nat) (pc : BitVec 64) (d : Dev) : Dev :=
  let bad := fun (r : Bool × Dev) (d2 : Dev) => if r.1 then r.2.coreTrap c (trapAt 0x08 2 (va % 2 ^ 40)) pc else d2
  if 5 < kind then d.coreTrap c (trapOf 0x01) pc
  else if ¬ (d.core c).st.priv ∧ kind ≠ 0 ∧ kind ≠ 4 then d.coreTrap c (trapOf 0x02) pc
  else if kind = 4 then (let r := d.writeBackAll c; bad r r.2)
  else if kind = 5 then d.modCore c (fun x => { x with ic := [] })
  else
    let a := d.cacheLine c va
    match a.1 with
    | .error t => a.2.coreTrap c t pc
    | .ok k =>
      match kind with
      | 0 => let r := a.2.writeBack c k; bad r r.2
      | 1 => a.2.dropDline c k
      | 2 => let r := a.2.writeBack c k; bad r (r.2.dropDline c k)
      | _ => a.2.modCore c (fun x => { x with ic := tdel x.ic k })

/-- CACHE (R249). -/
def execCache (c : Fin 4) (rx : Fin 32) (imm : BitVec 15) (s : State) : Host.Outcome State Fault Refusal :=
  onDev (Dev.coreStep c.val (fmtS 0xB rx.val imm) (fun pc d => d.cacheOp c.val imm.toNat (d.creg c.val rx.val).toNat pc)) s
/-- WAIT (R258): idle until an enabled source is pending. -/
def execWait (c : Fin 4) (s : State) : Host.Outcome State Fault Refusal :=
  onDev (Dev.coreStep c.val (fmtS 0xc 0 0) (fun _ d => d.modCore c.val (fun x => { x with waiting := true }))) s
/-- YIELD (R243, R269): in trap mode it waits for RETT. -/
def execYield (c : Fin 4) (s : State) : Host.Outcome State Fault Refusal :=
  onDev (Dev.coreStep c.val (fmtS 0xd 0 0) (fun _ d => if (d.core c.val).st.tw then d.modCore c.val (fun x => { x with yieldReq := true }) else d.schedYield c.val)) s
/-- An interrupt (R242, R243): outside trap mode, with IE and an enabled source pending, unless a switch request stands at the boundary. -/
def Dev.coreIrq (c : Nat) (d : Dev) : Dev :=
  let x := d.core c
  if d.coreLive c && x.st.ie && !x.st.tw && !x.st.df && d.irqBits c ≠ 0 && !d.switchDue c then
    d.coreTrap c { trapOf 0x0F with info := d.irqBits c } x.pc
  else d

/-- IRQ (R243). -/
def execIrq (c : Fin 4) (s : State) : Host.Outcome State Fault Refusal :=
  onDev (Dev.coreIrq c.val) s
end Sys2Proof.Machine
end

