-- ==== Sys2Proof/Machine/FwLoop.lean ====
section
/-! DEFINITION. The angle-domain, event, loop and snapshot commands of the firmware (R380 to R384). -/
namespace Sys2Proof.Machine

/-! ### Angle domains (R380, R381) -/

/-- AD_READ. -/
def fwAdRead (c : Cmd) (d : Dev) : Option FwRes × Dev := d.checked [(c.rsvd 0 7, 0x14)] (Dev.told (fun d => (d.domainWords (c.num 0), d)))

/-- CFG, CPR or VNOM of an AD_CFG differs from what the domain holds. -/
def Dev.adChanges (d : Dev) (c : Cmd) (n : Nat) : Bool :=
  rwPart (AU_ADn_CFG n) (c.arg 1) ≠ d.reg (AU_ADn_CFG n) || c.arg 2 ≠ d.reg (AU_ADn_CPR n) ||
  c.arg 6 ≠ d.reg (AU_ADn_VNOM_LO n) || rwPart (AU_ADn_VNOM_HI n) (c.arg 7) ≠ d.reg (AU_ADn_VNOM_HI n)

/-- LFK of an AD_CFG differs while a slot is armed on the domain (R51). -/
def Dev.adLfkHeld (d : Dev) (c : Cmd) (n : Nat) : Bool := d.mcArmedOn n && wbits (c.arg 1) 19 16 ≠ d.rd (AU_ADn_CFG_LFK n)

/-- TRK, WIN and ZOFF are written. -/
def Dev.adTune (n : Nat) (c : Cmd) (d : Dev) : Dev := ((d.adWrite n 0x08 (c.arg 3)).adWrite n 0x0C (c.arg 4)).adWrite n 0x10 (c.arg 5)

/-- CFG, CPR and VNOM are written. -/
def Dev.adConfig (n : Nat) (c : Cmd) (d : Dev) : Dev :=
  (((d.adWrite n 0x00 (c.arg 1)).adWrite n 0x04 (c.arg 2)).adWrite n 0x38 (c.arg 6)).adWrite n 0x3C (c.arg 7)

/-- AD_CFG (R381): with REEN the domain is disabled, configured and enabled again. -/
def fwAdCfg (c : Cmd) (d : Dev) : Option FwRes × Dev :=
  let n := c.fld 0 2 0
  let reen := wbit (c.arg 0) 8
  let new := ((d.disableDomain n).adTune n c).adConfig n c
  d.checked [(c.rsvd 0 0x107 || c.rsvd 7 0xFFFF || (n = 7 && (reen || d.adChanges c 7)) || d.adLfkHeld c n || (reen && !new.adCfgOk n), 0x14),
    (!d.claimed 0x16 n 1, 0x0A), (d.ev.f3 || (!reen && d.adOn n && d.adChanges c n), 0x15)]
    (Dev.done (fun d => if reen then new.enableDomain n else if d.adOn n then d.adTune n c else (d.adTune n c).adConfig n c))

/-- AD_SET (R30, R381): never on AD7. -/
def fwAdSet (c : Cmd) (d : Dev) : Option FwRes × Dev :=
  let n := c.fld 0 2 0
  d.checked [(c.rsvd 0 0x307 || c.rsvd 4 0xFFFF || n = 7, 0x14), (!d.claimed 0x16 n 1, 0x0A), (d.ev.f3, 0x15)] (Dev.done (fun d =>
    let d := if wbit (c.arg 0) 8 then ((d.setReg (AU_ADn_SET_LO n) (c.arg 1)).setReg (AU_ADn_SET_HI n) (c.arg 2)).setAng n else d
    if wbit (c.arg 0) 9 then ((d.setReg (AU_ADn_VNOM_LO n) (c.arg 3)).setReg (AU_ADn_VNOM_HI n) (c.arg 4)).setVel n else d))

/-! ### The event table (R380, R381) -/

/-- EV_INSERT (R42): through the insertion port that firmware holds. -/
def fwEvInsert (c : Cmd) (d : Dev) : Option FwRes × Dev :=
  let p := Config.fwPort.val
  let l := c.fld 4 5 0
  let code := d.insertCheck (c.arg 1) (c.arg 2) (c.arg 3) l
  if d.on (ET_INSp_STAT_BUSY p) then (none, d)
  else d.checked [(c.rsvd 4 0x3F || decide (3 ≤ code), 0x14), (!d.claimed 0x0C l 1, 0x0A), (code = 2, 0x1A)] (Dev.told (fun d =>
    let d := ((((d.setReg (ET_INSp_W0 p) (c.arg 0)).setReg (ET_INSp_W1 p) (c.arg 1)).setReg (ET_INSp_W2 p) (c.arg 2)).setReg (ET_INSp_W3 p) (c.arg 3)).wr (ET_INSp_CTL_LIST p) l
    let r := d.insert (c.arg 0) (c.arg 1) (c.arg 2) (c.arg 3) l
    ([w32 r.1, w32 r.2.1], (r.2.2.wr (ET_INSp_STAT_RES p) r.1).wr (ET_INSp_STAT_IDX p) r.2.1)))

/-- EV_DELETE (R44): it waits where the deletion would. -/
def fwEvDelete (c : Cmd) (d : Dev) : Option FwRes × Dev :=
  let i := c.fld 0 14 0
  let new := (d.deleteGo i).deleteComplete
  if d.on ET_DEL_STAT_BUSY then (none, d)
  else d.checked [(c.rsvd 0 0x7FFF, 0x14), (match d.entry i with
      | some e => !d.claimed 0x0C e.list 1
      | none => false, 0x0A)] (fun d =>
    if new.on ET_DEL_STAT_BUSY then (none, d)
    else if new.rd ET_DEL_STAT_RES ≠ 0 then (some (FwRes.fail 0x16), new) else (some (FwRes.ok []), new))

/-- EV_LIST (R59): DOM and DIR only while the list is empty. -/
def fwEvList (c : Cmd) (d : Dev) : Option FwRes × Dev :=
  let l := c.fld 0 5 0
  let dom := c.fld 0 11 9
  let dir := c.fld 0 12 12
  d.checked [(c.rsvd 0 0x1F3F, 0x14), (!d.claimed 0x0C l 1, 0x0A),
    (d.on (ET_LSTATl_COUNT l) && (dom ≠ d.rd (ET_LCFGl_DOM l) || dir ≠ d.rd (ET_LCFGl_DIR l)), 0x15)] (Dev.told (fun d =>
      ([w32 (d.rd (ET_LSTATl_COUNT l))], ((d.wr (ET_LCFGl_EN l) (c.fld 0 8 8)).wr (ET_LCFGl_DOM l) dom).wr (ET_LCFGl_DIR l) dir)))

/-- A valid periodic entry names cadence `k`. -/
def Dev.cadNamed (d : Dev) (k : Nat) : Bool := d.ang.entries.any (fun e => match e.2 with
  | some x => x.per && x.cad = k
  | none => false)

/-- Cadence `k` takes its four values. -/
def Dev.cadSet (k q n dd acc : Nat) (d : Dev) : Dev := (((d.wr (ET_CADc_Q_Q k) q).wr (ET_CADc_N_N k) n).wr (ET_CADc_D_D k) dd).wr (ET_CADc_ACC_ACC k) acc

/-- CAD_SET (R45, R381). -/
def fwCadSet (c : Cmd) (d : Dev) : Option FwRes × Dev :=
  let k := c.fld 0 7 0
  d.checked [(c.rsvd 0 0xFF || c.rsvd 2 0xFFFF || c.rsvd 3 0xFFFF || c.rsvd 4 0xFFFF || c.num 3 = 0 || decide (c.num 3 ≤ c.num 2), 0x14),
    (!d.claimed 0x0D k 1, 0x0A), (d.cadNamed k, 0x15)] (Dev.done (Dev.cadSet k (c.num 1) (c.num 2) (c.num 3) (c.num 4)))

/-! ### Loops (R382, R383) -/

/-- The argument names no task. -/
def Cmd.noTask (c : Cmd) : Bool := decide (48 ≤ c.num 0)

/-- Every unit of a list is claimed. -/
def Dev.claimedAll (d : Dev) (cls : Nat) (l : List Nat) : Bool := l.all (fun i => d.claimed cls i 1)

/-- LOOP_READ. -/
def fwLoopRead (c : Cmd) (d : Dev) : Option FwRes × Dev :=
  let t := c.num 0
  d.checked [(c.noTask, 0x14)] (Dev.told (fun d =>
    (d.taskWords t ++ [d.reg (AHD_LTt_POL t), d.reg (AHD_LTt_TOL t), d.reg (AHD_LTt_CFG t), d.reg (AHD_LTt_TIM t)], d)))

/-- LOOP_POLICY (R144, R383): TOL, then POL. -/
def fwLoopPolicy (c : Cmd) (d : Dev) : Option FwRes × Dev :=
  let t := c.num 0
  d.checked [(c.noTask || c.rsvd 1 0x3F03 || c.fld 1 1 0 = 3 || (c.fld 1 1 0 = 2 && d.on (AHD_LTt_CFG_PSRC t)), 0x14), (!d.claimed 0x0B t 1, 0x0A), (d.ev.f3, 0x15)]
    (Dev.told (fun d => ([d.reg (AHD_LTt_DIFF t)], (d.plainWrite (AHD_LTt_TOL t) (c.arg 2)).polWrite t (c.arg 1))))

/-- LOOP_HALT (R154, R383): the tasks that this command halted. -/
def fwLoopHalt (c : Cmd) (d : Dev) : Option FwRes × Dev :=
  let ts := c.mask48 0
  d.checked [(c.rsvd 1 0xFFFF, 0x14), (!d.claimedAll 0x0B ts, 0x0A), (d.ev.f3, 0x15)] (Dev.told (fun d =>
    let live := ts.filter (fun t => d.taskState t = 1 || d.taskState t = 2)
    let d := forList ts (Dev.haltTask 1) d
    (maskWords (live.filter (fun t => d.taskState t = 3)), d)))

/-- The task as LOOP_START leaves it before its enable: disabled, with the new S_0 and ACC0. -/
def Dev.startPrep (t : Nat) (c : Cmd) (d : Dev) : Dev :=
  (((d.disableTask t).setReg (AHD_LTt_S0_LO t) (c.arg 1)).setReg (AHD_LTt_S0_HI t) (c.arg 2)).wr (AHD_LTt_ACC0_ACC t) (c.num 3)

/-- LOOP_START (R132, R383): only a DISABLED or HALTED task; the checks of R132 come before any change. -/
def fwLoopStart (c : Cmd) (d : Dev) : Option FwRes × Dev :=
  let t := c.num 0
  let new := d.startPrep t c
  d.checked [(c.noTask || c.rsvd 3 0xFFFF || !new.taskOk t, 0x14), (!d.claimed 0x0B t 1, 0x0A), (d.ev.f3 || d.taskState t = 1 || d.taskState t = 2, 0x15)]
    (Dev.told (fun _ => let e := new.enableTask t; ([e.reg (AHD_LTt_STAT t)], e)))

/-- LOOP_SQUASH (R147, R383). -/
def fwLoopSquash (c : Cmd) (d : Dev) : Option FwRes × Dev :=
  let t := c.num 0
  d.checked [(c.noTask, 0x14), (!d.claimed 0x0B t 1, 0x0A), (d.ev.f3 || d.taskState t ≠ 1, 0x15)] (Dev.done (fun d => d.squashCause t (d.front t)))

/-- LOOP_CLR. -/
def fwLoopClr (c : Cmd) (d : Dev) : Option FwRes × Dev :=
  let ts := c.mask48 0
  d.checked [(c.rsvd 1 0xFFFF, 0x14), (!d.claimedAll 0x0B ts, 0x0A), (d.ev.f3, 0x15)] (Dev.done (forList ts Dev.clrTaskCnt))

/-! ### Snapshots (R384) -/

/-- A slot's registers take SNAP_ARM's arguments and the slot is armed. -/
def Dev.snapCmd (n : Nat) (c : Cmd) (d : Dev) : Dev :=
  let d := ((d.plainWrite (AHD_SNs_LIST n) (c.arg 1)).plainWrite (AHD_SNs_NITEM n) (c.arg 2)).plainWrite (AHD_SNs_DST n) (c.arg 3)
  let d := ((d.plainWrite (AHD_SNs_SIZE n) (c.arg 4)).setReg (AHD_SNs_LF_LO n) (c.arg 5)).setReg (AHD_SNs_LF_HI n) (c.arg 6)
  let d := d.wr (AHD_SNs_CTL_CFGERR n) 0
  (d.snapArm n (w32 (c.fld 0 6 4 + c.fld 0 7 7 * 2 ^ 3 + c.fld 0 11 8 * 2 ^ 8 + 2 ^ 16))).setSnap n { d.snap n with evt := wbit (c.arg 0) 12, stop := false }

/-- SNAP_ARM (R155, R384): an ARM that the slot would refuse with CFGERR has no effect. -/
def fwSnapArm (c : Cmd) (d : Dev) : Option FwRes × Dev :=
  let n := c.fld 0 2 0
  let dry := (d.wr (AHD_SNs_STAT_STATE n) 0).snapCmd n c
  d.checked [(c.rsvd 0 0x1FF7 || dry.on (AHD_SNs_CTL_CFGERR n), 0x14), (!d.claimed 0x10 n 1, 0x0A), (d.on (AHD_SNs_STAT_STATE n), 0x15)]
    (Dev.told (fun d => let d := d.snapCmd n c; ([d.reg (AHD_SNs_SEQ n)], d)))

/-- SNAP_STOP (R155). -/
def fwSnapStop (c : Cmd) (d : Dev) : Option FwRes × Dev :=
  d.checked [(c.rsvd 0 7, 0x14), (!d.claimed 0x10 (c.num 0) 1, 0x0A)] (Dev.told (fun d => let d := d.snapStop (c.num 0); ([d.reg (AHD_SNs_SEQ (c.num 0))], d)))

/-- SNAP_READ. -/
def fwSnapRead (c : Cmd) (d : Dev) : Option FwRes × Dev :=
  let n := c.num 0
  d.checked [(c.rsvd 0 7, 0x14)] (Dev.told (fun d =>
    ([d.reg (AHD_SNs_STAT n), d.reg (AHD_SNs_SEQ n), d.reg (AHD_SNs_LF_LO n), d.reg (AHD_SNs_LF_HI n)], d)))

/-! ### The commands -/

/-- AD_READ (R380). -/
def execAdRead (s : State) : Host.Outcome State Fault Refusal := onDev (Dev.fw 0x400 fwAdRead) s
/-- AD_CFG (R381). -/
def execAdCfg (s : State) : Host.Outcome State Fault Refusal := onDev (Dev.fw 0x401 fwAdCfg) s
/-- AD_SET (R381). -/
def execAdSet (s : State) : Host.Outcome State Fault Refusal := onDev (Dev.fw 0x402 fwAdSet) s
/-- EV_INSERT (R381). -/
def execEvInsert (s : State) : Host.Outcome State Fault Refusal := onDev (Dev.fw 0x403 fwEvInsert) s
/-- EV_DELETE (R381). -/
def execEvDelete (s : State) : Host.Outcome State Fault Refusal := onDev (Dev.fw 0x404 fwEvDelete) s
/-- EV_LIST (R381). -/
def execEvList (s : State) : Host.Outcome State Fault Refusal := onDev (Dev.fw 0x405 fwEvList) s
/-- CAD_SET (R381). -/
def execCadSet (s : State) : Host.Outcome State Fault Refusal := onDev (Dev.fw 0x406 fwCadSet) s
/-- LOOP_READ (R382). -/
def execLoopRead (s : State) : Host.Outcome State Fault Refusal := onDev (Dev.fw 0x500 fwLoopRead) s
/-- LOOP_POLICY (R383). -/
def execLoopPolicy (s : State) : Host.Outcome State Fault Refusal := onDev (Dev.fw 0x501 fwLoopPolicy) s
/-- LOOP_HALT (R383). -/
def execLoopHalt (s : State) : Host.Outcome State Fault Refusal := onDev (Dev.fw 0x502 fwLoopHalt) s
/-- LOOP_START (R383). -/
def execLoopStart (s : State) : Host.Outcome State Fault Refusal := onDev (Dev.fw 0x503 fwLoopStart) s
/-- LOOP_SQUASH (R383). -/
def execLoopSquash (s : State) : Host.Outcome State Fault Refusal := onDev (Dev.fw 0x504 fwLoopSquash) s
/-- LOOP_CLR (R382). -/
def execLoopClr (s : State) : Host.Outcome State Fault Refusal := onDev (Dev.fw 0x505 fwLoopClr) s
/-- SNAP_ARM (R384). -/
def execSnapArm (s : State) : Host.Outcome State Fault Refusal := onDev (Dev.fw 0x600 fwSnapArm) s
/-- SNAP_STOP (R384). -/
def execSnapStop (s : State) : Host.Outcome State Fault Refusal := onDev (Dev.fw 0x601 fwSnapStop) s
/-- SNAP_READ (R384). -/
def execSnapRead (s : State) : Host.Outcome State Fault Refusal := onDev (Dev.fw 0x602 fwSnapRead) s

end Sys2Proof.Machine
end

