-- ==== Sys2Proof/Machine/FwPort.lean ====
section
/-! DEFINITION. The port, resource, memory, power, network and event commands of the firmware (R385 to R394). -/
namespace Sys2Proof.Machine

/-! ### Ports (R385, R386) -/

/-- PORT_READ. -/
def fwPortRead (c : Cmd) (d : Dev) : Option FwRes × Dev :=
  let cls := c.fld 0 15 12
  let i := c.fld 0 5 0
  d.checked [(c.rsvd 0 0xF03F || decide (hbCount cls ≤ i), 0x14)] (Dev.told (fun d => ((d.portWords cls i).take 12, d)))

/-- Why a direct write of a harbour register is refused (R166, R194, R195): CONFLICT, BADARG, BADSTATE; 0 where it is not. -/
def Dev.pairRefused (d : Dev) (a : Nat) (v : BitVec 32) : Nat :=
  match hbUnitOf a with
  | none => 0
  | some (cls, i) =>
    let v := rwPart a v
    if cls = 10 then (if d.ibOn (d.reg a) || d.ibOn v then 0x15 else 0)
    else if cls = 11 then (if d.obTaken i v then 0x09 else if d.obOn (d.reg a) || d.obOn v then 0x15 else 0)
    else if d.hbBadValue cls i a v then 0x14
    else if d.hbOn cls i && !d.onlyEnable cls i a v then 0x15 else 0

/-- A pair's offset lies outside the HP, PW and FQ blocks, or is no word's. -/
def Cmd.pairBad (c : Cmd) (i : Nat) : Bool :=
  c.rsvd (1 + 2 * i) 0xFFFFF || c.pairAddr i % 4 ≠ 0 || c.pairAddr i < 0x40030000 || decide (0x40050000 ≤ c.pairAddr i)

/-- The register of a pair belongs to no claimed resource. -/
def Dev.pairUnclaimed (d : Dev) (c : Cmd) (i : Nat) : Bool :=
  match csrClaim (c.pairAddr i) with
  | some (cls, k) => !d.claimed cls k 1
  | none => false

/-- Write the pairs of a list in turn; the status and index of the first that is refused. -/
def Dev.writePairs (c : Cmd) : List Nat → Dev → (Nat × Nat) × Dev
  | [], d => ((0, 0xFF), d)
  | i :: is, d =>
    let st := d.pairRefused (c.pairAddr i) (c.arg (2 + 2 * i))
    if st ≠ 0 then ((st, i), d) else (d.harbourWrite (c.pairAddr i) (c.arg (2 + 2 * i))).writePairs c is

/-- PORT_WRITE (R386): every pair or none. -/
def fwPortWrite (c : Cmd) (d : Dev) : Option FwRes × Dev :=
  let n := c.num 0
  let is := List.range (min 5 n)
  if n = 0 ∨ 5 < n then (some (FwRes.fail 0x14), d)
  else match is.find? c.pairBad with
    | some i => (some (FwRes.failPart 0x14 i), d)
    | none =>
      match is.find? (d.pairUnclaimed c) with
      | some i => (some (FwRes.failPart 0x0A i), d)
      | none =>
        if d.ev.f3 then (some (FwRes.fail 0x15), d)
        else
          let r := d.writePairs c is
          if r.1.1 ≠ 0 then (some (FwRes.failPart r.1.1 r.1.2), d) else (some (FwRes.ok []), r.2)

/-- PWM_SAFE (R161, R386): no claim is needed. -/
def fwPwmSafe (c : Cmd) (d : Dev) : Option FwRes × Dev := d.checked [(c.rsvd 0 1, 0x14), (d.ev.f3, 0x15)] (Dev.done (Dev.safeWrite (wbit (c.arg 0) 0)))

/-- PWM_TRIPCLR (R185, R386): the pairs that trip again in the ACLK of the clear. -/
def fwPwmTripclr (c : Cmd) (d : Dev) : Option FwRes × Dev :=
  let ps := c.mask48 0
  d.checked [(c.rsvd 1 0xFFFF, 0x14), (!ps.all (fun p => d.claimed 0x01 p 1), 0x0A), (d.ev.f3, 0x15)] (Dev.told (fun d =>
    let d := forList ps Dev.tripClear d
    (maskWords (ps.filter (fun p => d.on (PW_PAIRp_STAT_TRIP p))), d)))

/-- Read at most `n` items of a FIFO, never an empty one. -/
def Dev.fifoTake (f : Nat) : Nat → Dev → List (BitVec 32) × Dev
  | 0, d => ([], d)
  | n + 1, d =>
    if d.fifoReadable f = [] then ([], d)
    else
      let r := d.fifoRead f
      let q := r.2.fifoTake f n
      (r.1 :: q.1, q.2)

/-- FIFO_READ (R189, R386). -/
def fwFifoRead (c : Cmd) (d : Dev) : Option FwRes × Dev :=
  let f := c.fld 0 2 0
  let n := c.fld 0 31 16
  d.checked [(c.noBuf 1 (4 * n), 0x13), (c.rsvd 0 0xFFFF0007, 0x14), (!d.claimed 0x09 f 1, 0x0A)] (fun d =>
    let r := d.fifoTake f n
    (some { FwRes.ok [w32 r.1.length, r.2.reg (FQ_Qf_STAT f)] with out := wordsBytes r.1 }, r.2))

/-! ### Claims (R370, R387) -/

/-- Enter entries in turn; the status and index of the first that conflicts. -/
def claimRun (tag : BitVec 32) : List (List (BitVec 32)) → Nat → List Claim → (Nat × Nat) × List Claim
  | [], _, cs => ((0, 0xFF), cs)
  | w :: ws, i, cs =>
    let r := enterClaim 3 tag false w (0, cs, [])
    if r.1 ≠ 0 then ((if r.1 = 7 then 0x14 else r.1, i), cs) else claimRun tag ws (i + 1) r.2.1

/-- CLAIM: every entry or none. -/
def fwClaim (c : Cmd) (d : Dev) : Option FwRes × Dev :=
  let n := c.num 0
  let ws := d.claimWords c
  if c.nbuf ≠ 0 ∧ (c.noBuf 0 1 || (decide (n ≤ 256) && c.noBuf 0 (16 * n))) then (some (FwRes.fail 0x13), d)
  else if n = 0 ∨ (if c.nbuf = 0 then 2 else 256) < n then (some (FwRes.fail 0x14), d)
  else match (List.range n).find? (fun i => (claimEntry (ws.getD i [])).isNone) with
    | some i => (some (FwRes.failPart 0x14 i), d)
    | none =>
      let r := claimRun c.tag ws 0 d.cfg.claims
      if r.1.1 ≠ 0 then (some (FwRes.failPart r.1.1 r.1.2), d)
      else if d.ev.f3 then (some (FwRes.fail 0x15), d)
      else (some (FwRes.ok [w32 n]), d.setClaims r.2)

/-- The claim that holds a unit: one of the registry before a reservation. -/
def Dev.holderOf (d : Dev) (cls i : Nat) : Nat × BitVec 32 :=
  let l := d.cfg.claims.filter (fun c => c.meets cls i 1)
  match (l.find? (fun c => c.holder ≠ 5)).orElse (fun _ => l.head?) with
  | some c => (c.holder, if c.holder = 3 then c.tag else 0)
  | none => (0, 0)

/-- CLAIM_QUERY. -/
def fwClaimQuery (c : Cmd) (d : Dev) : Option FwRes × Dev :=
  let cls := c.num 0
  let i := if cls = 0x13 then c.num64 1 else c.num 1
  d.checked [(c.rsvd 2 0xFF || decide (claimUnits cls ≤ i), 0x14)] (Dev.told (fun d => let h := d.holderOf cls i; ([w32 h.1, h.2], d)))

/-- A claim in the layout of Table 08-4, its holder in bits [15:12] of word 0. -/
def Claim.words (c : Claim) : List (BitVec 32) :=
  if c.cls = 0x13 then [w32 (c.cls + c.holder * 2 ^ 12 + 2 ^ 16), w32 c.first, w32 (c.first / 2 ^ 32), w32 c.len]
  else [w32 (c.cls + c.holder * 2 ^ 12 + c.len * 2 ^ 16), w32 c.first, 0, 0]

/-- CLAIM_LIST. -/
def fwClaimList (c : Cmd) (d : Dev) : Option FwRes × Dev :=
  let n := d.cfg.claims.length
  d.checked [(c.noBuf 1 (16 * n), 0x13)] (fun d => (some { FwRes.ok [w32 n] with out := wordsBytes (d.cfg.claims.flatMap Claim.words) }, d))

/-! ### Memory and diagnostics (R388, R389) -/

/-- Read packets of the given lengths from `a` until one fails: its status, and the bytes read. -/
def Dev.busReads (a : Nat) : List Nat → Dev → (Nat × List (BitVec 8)) × Dev
  | [], d => ((0, []), d)
  | k :: ks, d =>
    let r := d.niRead 24 a k
    if r.1.1 ≠ 0 then ((r.1.1, []), r.2)
    else
      let q := r.2.busReads (a + k) ks
      ((q.1.1, r.1.2 ++ q.1.2), q.2)

/-- Write packets of the given lengths from `a` until one fails: its status, and how many bytes were written. -/
def Dev.busWrites (a : Nat) (bs : List (BitVec 8)) : List Nat → Dev → (Nat × Nat) × Dev
  | [], d => ((0, 0), d)
  | k :: ks, d =>
    let r := d.niWrite 24 a (bs.take k)
    if r.1 ≠ 0 then ((r.1, 0), r.2)
    else
      let q := r.2.busWrites (a + k) (bs.drop k) ks
      ((q.1.1, k + q.1.2), q.2)

/-- MEM_READ. -/
def fwMemRead (c : Cmd) (d : Dev) : Option FwRes × Dev :=
  d.checked [(c.noBuf 1 (c.num 2), 0x13)] (fun d =>
    let r := d.busReads (c.num64 0) (packetLens (c.num64 0) (c.num 2))
    if r.2.net.stall then (none, d) else
    (some { FwRes.fail (busStatus r.1.1) with res := [w32 r.1.2.length], out := r.1.2 }, r.2))

/-- MEM_WRITE: bytes written before a failure stay (R389). -/
def fwMemWrite (c : Cmd) (d : Dev) : Option FwRes × Dev :=
  d.checked [(c.noBuf 0 (c.num 2), 0x13)] (fun d =>
    let r := d.busWrites (c.num64 0) (d.bufIn c (c.num 2)) (packetLens (c.num64 0) (c.num 2))
    if r.2.net.stall then (none, d) else
    (some { FwRes.fail (busStatus r.1.1) with res := [w32 r.1.2] }, r.2))

/-- MEM_STATUS's eleven words. -/
def Dev.memStatusWords (d : Dev) : List (BitVec 32) :=
  [MI_STAT, MI_UELOG_LO, MI_UELOG_HI, MI_UECNT, MI_CELOG_LO, MI_CELOG_HI].map d.miRead ++
  [DC_STAT, DC_UELOG_LO, DC_UELOG_HI, DC_CHc_STAT 0, DC_CHc_STAT 1].map d.dcRead

/-- SPARE_ADD (R315, R389): the repair is recorded for the next boot. -/
def fwSpareAdd (c : Cmd) (d : Dev) : Option FwRes × Dev :=
  let cls := c.fld 0 0 0
  let r : RowRepair := { cls := cls, isle := if cls = 0 then 0 else c.fld 0 14 8, bank := c.fld 0 7 4, row := c.num 1 }
  let mine := fun (q : RowRepair) => q.cls = r.cls && q.isle = r.isle && q.bank = r.bank
  if d.on SS_STAT_BUSY then (none, d)
  else d.checked [(c.rsvd 0 0x7FF1 || (if cls = 0 then decide (511 < c.num 1) else decide (63 < c.num 1) || decide (8 ≤ r.bank) || decide (96 ≤ r.isle)), 0x14)] (fun d =>
    let q := d.ssRepairs
    let have_ := ((d.integ.applied ++ q.1).filter mine).eraseDups
    if spareRows cls ≤ have_.length then (some (FwRes.fail 0x1A), q.2)
    else
      let all := q.1 ++ [r]
      let w := q.2.ssCommit 3 (some (wordsBytes (all.map RowRepair.word)))
      (some (if w.1.1 = 0 then FwRes.ok [w32 (all.filter mine).length] else FwRes.fail (ssStatus w.1.1)), w.2))

/-- RANK_RETIRE (R340, R389). -/
def fwRankRetire (c : Cmd) (d : Dev) : Option FwRes × Dev :=
  let ch := c.fld 0 0 0
  let cs := c.fld 0 2 1
  if d.on SS_STAT_BUSY then (none, d)
  else d.checked [(c.rsvd 0 7, 0x14), (d.rdBit (DC_CHc_STAT_RETIRED ch) cs || d.on (DC_CHc_STAT_MIGR ch), 0x15)]
    (Dev.told (fun d => let d := d.retireRank ch cs 2; ([d.dcRead (DC_CHc_STAT ch)], d)))

/-- FLIP_ARM (R316, R389). -/
def fwFlipArm (c : Cmd) (d : Dev) : Option FwRes × Dev :=
  let k := c.fld 0 1 0
  let sel := c.fld 0 14 8
  d.checked [(c.rsvd 0 0x7F03 || c.rsvd 3 0xFF || (k = 1 && decide (96 ≤ sel)) || (k = 2 && decide (4 ≤ sel)), 0x14), (d.on (MI_FLIPk_CTL_ARM k), 0x15)]
    (Dev.done (fun d =>
      (((d.setReg (MI_FLIPk_LO k) (c.arg 1)).setReg (MI_FLIPk_HI k) (c.arg 2)).wr (MI_FLIPk_CHK_CHK k) (c.num 3)).plainWrite (MI_FLIPk_CTL k) (w32 (sel + 2 ^ 31))))

/-- TRACE_CFG (R275, R389): while the scheduler runs its registers take no other ring (R276). -/
def fwTraceCfg (c : Cmd) (d : Dev) : Option FwRes × Dev :=
  let lg := c.fld 0 12 8
  let base := c.num64 1
  let same := base = d.rd TS_TRBASE_LO_ADDR * 16 + d.rd TS_TRBASE_HI_ADDR * 2 ^ 32 && lg = d.rd TS_TRSIZE_LOG2
  d.checked [(c.rsvd 0 0x1F01 || c.rsvd 2 0xFF || base % 16 ≠ 0 || decide (lg < 4) || decide (20 < lg) || (!same && d.on TS_CTRL_EN), 0x14),
    (!d.claimed 0x13 base (16 * 2 ^ lg), 0x0A)] (Dev.done (fun d =>
      let d := if same then d else
        ((((d.wr TS_CTRL_TREN 0).plainWrite TS_TRBASE_LO (c.arg 1)).plainWrite TS_TRBASE_HI (c.arg 2)).wr TS_TRSIZE_LOG2 lg)
      d.wr TS_CTRL_TREN (c.fld 0 0 0)))

/-! ### Power (R390, R391) -/

/-- A word of the domains that are up. -/
def Dev.upWord (d : Dev) (k : Nat) : BitVec 32 := d.reg (PC_DOMUP0 + 4 * k)

/-- An isle is in use (R391): by an enabled binding, the running image, or a staged partial image. -/
def Dev.isleUsed (d : Dev) (n : Nat) : Bool :=
  d.enabledBindings.any (fun b => d.rd (AHD_TBb_ID_ISLE b) = n) || d.cfg.used.contains n ||
  (decide (5 ≤ d.cfg.icp.phase) && (imgMask (d.loadBytes d.icpStg 128)).contains n)

/-- PWR_SET (R391, R417): the answer to a switch on waits until the domain is up. -/
def fwPwrSet (c : Cmd) (d : Dev) : Option FwRes × Dev :=
  let x := c.fld 0 6 0
  d.checked [(c.rsvd 0 0x17F || x = 96 || decide (103 ≤ x), 0x14), (decide (x < 96) && d.isleUsed x, 0x15)] (fun d =>
    let d := if wbit (c.arg 0) 8 then d.startDomainReq x else d.offDomainReq x
    (if wbit (c.arg 0) 8 ∧ ¬ d.domUp x then none else some (FwRes.ok [d.upWord (x / 32)]), d))

/-- CLK_ROW (R422). -/
def fwClkRow (c : Cmd) (d : Dev) : Option FwRes × Dev :=
  let r := c.fld 0 2 0
  d.checked [(c.rsvd 0 0x37, 0x14), (d.enabledBindings.any (fun b => d.rd (AHD_TBb_ID_ISLE b) / 12 = r), 0x15)]
    (Dev.done (fun d => d.rowWrite r (wput (d.reg (PC_ROWr r)) 1 0 (c.fld 0 5 4))))

/-! ### Network (R392, R393) -/

/-- EN_CFG: an enabled port keeps its mode and address (R408). -/
def fwEnCfg (c : Cmd) (d : Dev) : Option FwRes × Dev :=
  let p := c.fld 0 2 0
  let mode := c.fld 0 10 9
  let on := d.on (EN_Pp_CFG_EN p)
  let other := mode ≠ d.rd (EN_Pp_CFG_MODE p) || c.arg 1 ≠ d.reg (EN_Pp_MAC_LO p) || c.arg 2 ≠ d.reg (EN_Pp_MAC_HI p)
  d.checked [(c.rsvd 0 0x707 || c.rsvd 2 0xFFFF || decide (6 ≤ p) || mode = 3 || (if p < 4 then mode = 2 else mode ≠ 2) || (on && other), 0x14),
    (!d.claimed 0x14 p 1, 0x0A), (d.ev.f3, 0x15), (!d.ethUp, 0x19)] (Dev.told (fun d =>
      let d := if on then d else (d.setReg (EN_Pp_MAC_LO p) (c.arg 1)).setReg (EN_Pp_MAC_HI p) (c.arg 2)
      let d := d.portCfg p (wput (wput (d.reg (EN_Pp_CFG p)) 2 1 mode) 0 0 (c.fld 0 8 8))
      ([w32 (d.rd (EN_Pp_STAT_LINK p))], d)))

/-- Seconds' fraction units in `ns` nanoseconds, times 10^9. -/
def nsUnits (ns : Nat) : Nat := ns * 2 ^ 32

/-- The cadence of a cycle (R393): Q, N and D. -/
def cycleCad (ns : Nat) : Nat × Nat × Nat :=
  let r := nsUnits ns % 1000000000
  let g := Nat.gcd r 1000000000
  (nsUnits ns / 1000000000, r / g, 1000000000 / g)

/-- Insert the GATE entries of a port from index `k` on: the status and part of the first that fails, and the indices. -/
def Dev.insertGates (p l cad : Nat) (base : BitVec 64) : List (Nat × Nat) → Nat → Dev → (Nat × Nat) × List Nat × Dev
  | [], _, d => ((0, 0xFF), [], d)
  | (off, gates) :: es, k, d =>
    let s := (base + BitVec.ofNat 64 ((nsUnits off + 999999999) / 1000000000)).toNat
    let r := d.insert (w32 s) (w32 (s / 2 ^ 32 % 256 + 4 * 2 ^ 8 + 2 ^ 12 + (cad + k) * 2 ^ 16)) (w32 (p + gates * 2 ^ 8)) 0 l
    if 2 ≤ r.1 then ((if r.1 = 2 then 0x1A else 0x14, k), [], r.2.2)
    else
      let q := r.2.2.insertGates p l cad base es (k + 1)
      (q.1, r.2.1 :: q.2.1, q.2.2)

/-- The gate list of an EN_GCL: offset and gate vector of each entry. -/
def Dev.gateList (d : Dev) (c : Cmd) : List (Nat × Nat) :=
  let b := d.bufIn c (8 * c.fld 0 31 24)
  (List.range (c.fld 0 31 24)).map (fun i => (bytesNat ((b.drop (8 * i)).take 4), bytesNat ((b.drop (8 * i + 4)).take 4)))

/-- EN_GCL (R393): every entry or none; the port's earlier entries go first. -/
def fwEnGcl (c : Cmd) (d : Dev) : Option FwRes × Dev :=
  let p := c.fld 0 2 0
  let l := c.fld 0 13 8
  let cad := c.fld 0 23 16
  let n := c.fld 0 31 24
  let q := cycleCad (c.num 1)
  let base := BitVec.ofNat 64 (c.num64 2)
  let es := d.gateList c
  let old := tget [] d.eth.gcl p
  let bad := c.rsvd 0 0xFFFF3F07 || decide (6 ≤ p) || n = 0 || decide (64 < n) || decide (256 < cad + n) || decide (65535 < q.2.2) || decide (2 ^ 32 ≤ q.1) ||
    decide ((base - d.stamp 7).toInt * 1000 < (2 ^ 32 : Int))
  if c.noBuf 0 (8 * n) then (some (FwRes.fail 0x13), d)
  else if bad then (some (FwRes.fail 0x14), d)
  else match (List.range n).find? (fun i => decide (c.num 1 ≤ (es.getD i (0, 0)).1) || decide (256 ≤ (es.getD i (0, 0)).2)) with
    | some i => (some (FwRes.failPart 0x14 i), d)
    | none =>
      if !d.claimed 0x14 p 1 || !d.claimed 0x0C l 1 || !d.claimed 0x0D cad n then (some (FwRes.fail 0x0A), d)
      else if d.ev.f3 then (some (FwRes.fail 0x15), d)
      else if old.any d.ang.reins.contains then (none, d)
      else
        let d2 := forList old Dev.dropEntry d
        let d2 := forUpTo n (fun k (d : Dev) => (((d.wr (ET_CADc_Q_Q (cad + k)) q.1).wr (ET_CADc_N_N (cad + k)) q.2.1).wr (ET_CADc_D_D (cad + k)) q.2.2).wr (ET_CADc_ACC_ACC (cad + k)) 0) d2
        let r := d2.insertGates p l cad base es 0
        if r.1.1 ≠ 0 then (some (FwRes.failPart r.1.1 r.1.2), d)
        else (some (FwRes.ok [w32 (r.2.1.headD 0)]), r.2.2.setEth { r.2.2.eth with gcl := tset [] r.2.2.eth.gcl p r.2.1 })

/-- TIME_READ: the offset, the path delay and the grandmaster are the 802.1AS stack's (log entry 4). -/
def Dev.timeWords (d : Dev) : List (BitVec 32) × Dev :=
  let a := d.fresh
  let b := a.2.fresh
  let e := b.2.fresh
  let f := e.2.fresh
  ([w32 (d.rd EN_TS_CTL_SYNC), w32 a.1, w32 b.1, w32 e.1, w32 f.1, w32 (d.rd EN_TS_CFG_PORT)] ++ stampWords (d.stamp 7), f.2)

/-! ### Events (R394) -/

/-- EVT_MASK. -/
def fwEvtMask (c : Cmd) (d : Dev) : Option FwRes × Dev :=
  d.checked [(c.rsvd 0 0x1FF, 0x14)] (Dev.told (fun d => ([w32 d.ev.mask.toNat], { d with ev := { d.ev with mask := BitVec.ofNat 9 (c.num 0) } })))

/-! ### The commands -/

/-- PORT_READ (R385). -/
def execPortRead (s : State) : Host.Outcome State Fault Refusal := onDev (Dev.fw 0x700 fwPortRead) s
/-- PORT_WRITE (R386). -/
def execPortWrite (s : State) : Host.Outcome State Fault Refusal := onDev (Dev.fw 0x701 fwPortWrite) s
/-- PWM_SAFE (R386). -/
def execPwmSafe (s : State) : Host.Outcome State Fault Refusal := onDev (Dev.fw 0x702 fwPwmSafe) s
/-- PWM_TRIPCLR (R386). -/
def execPwmTripclr (s : State) : Host.Outcome State Fault Refusal := onDev (Dev.fw 0x703 fwPwmTripclr) s
/-- FIFO_READ (R386). -/
def execFifoRead (s : State) : Host.Outcome State Fault Refusal := onDev (Dev.fw 0x704 fwFifoRead) s
/-- CLAIM (R387). -/
def execClaim (s : State) : Host.Outcome State Fault Refusal := onDev (Dev.fw 0x800 fwClaim) s
/-- CLAIM_QUERY (R387). -/
def execClaimQuery (s : State) : Host.Outcome State Fault Refusal := onDev (Dev.fw 0x801 fwClaimQuery) s
/-- CLAIM_LIST (R387). -/
def execClaimList (s : State) : Host.Outcome State Fault Refusal := onDev (Dev.fw 0x802 fwClaimList) s
/-- MEM_READ (R389). -/
def execMemRead (s : State) : Host.Outcome State Fault Refusal := onDev (Dev.fw 0x900 fwMemRead) s
/-- MEM_WRITE (R389). -/
def execMemWrite (s : State) : Host.Outcome State Fault Refusal := onDev (Dev.fw 0x901 fwMemWrite) s
/-- MEM_STATUS (R388). -/
def execMemStatus (s : State) : Host.Outcome State Fault Refusal := onDev (Dev.fw 0x902 (fun _ => Dev.told (fun d => (d.memStatusWords, d)))) s
/-- SPARE_ADD (R389). -/
def execSpareAdd (s : State) : Host.Outcome State Fault Refusal := onDev (Dev.fw 0x903 fwSpareAdd) s
/-- RANK_RETIRE (R389). -/
def execRankRetire (s : State) : Host.Outcome State Fault Refusal := onDev (Dev.fw 0x904 fwRankRetire) s
/-- FLIP_ARM (R389). -/
def execFlipArm (s : State) : Host.Outcome State Fault Refusal := onDev (Dev.fw 0x905 fwFlipArm) s
/-- TRACE_CFG (R389). -/
def execTraceCfg (s : State) : Host.Outcome State Fault Refusal := onDev (Dev.fw 0x906 fwTraceCfg) s
/-- PWR_SET (R391). -/
def execPwrSet (s : State) : Host.Outcome State Fault Refusal := onDev (Dev.fw 0xA00 fwPwrSet) s
/-- PWR_READ (R390). -/
def execPwrRead (s : State) : Host.Outcome State Fault Refusal := onDev (Dev.fw 0xA01 (fun _ => Dev.told (fun d => ((List.range 4).map d.upWord, d)))) s
/-- CLK_ROW (R391). -/
def execClkRow (s : State) : Host.Outcome State Fault Refusal := onDev (Dev.fw 0xA02 fwClkRow) s
/-- EN_CFG (R393). -/
def execEnCfg (s : State) : Host.Outcome State Fault Refusal := onDev (Dev.fw 0xB00 fwEnCfg) s
/-- EN_GCL (R393). -/
def execEnGcl (s : State) : Host.Outcome State Fault Refusal := onDev (Dev.fw 0xB01 fwEnGcl) s
/-- TIME_READ (R392). -/
def execTimeRead (s : State) : Host.Outcome State Fault Refusal := onDev (Dev.fw 0xB02 (fun _ => Dev.told Dev.timeWords)) s
/-- EVT_MASK (R394). -/
def execEvtMask (s : State) : Host.Outcome State Fault Refusal := onDev (Dev.fw 0xC00 fwEvtMask) s
/-- EVT_TEST (R394). -/
def execEvtTest (s : State) : Host.Outcome State Fault Refusal := onDev (Dev.fw 0xC01 (fun c => Dev.done (Dev.post 0x80 [c.arg 0]))) s

end Sys2Proof.Machine
end

