-- ==== Sys2Proof/Machine/Router.lean ====
section
/-! DEFINITION. The routers (R277, R280, R284 to R287, R290 to R292): packets move from their NI through input queues along their route codes, whole packets as
the credits of the next queue allow, one flit of a link per ACLK. -/
namespace Sys2Proof.Machine

/-! ### Packets (R284) -/

/-- The NI a packet starts from, and the one it goes to: a response goes back. -/
def Packet.org (p : Packet) : Nat := if p.vc = 1 then p.dst else p.src
def Packet.goal (p : Packet) : Nat := if p.vc = 1 then p.src else p.dst

/-- The flits of a packet (Table 11-4): a head, and the data of a write request or of a read response that is OK, 16 bytes in each. -/
def Packet.flits (p : Packet) : Nat :=
  if p.vc = 3 then 1
  else if (if p.vc = 1 then !p.write && decide (p.status = 0) else p.write) then 1 + (p.len + 15) / 16 else 1

/-- The packet is wholly at the NI it goes to in ACLK `t`. -/
def Packet.there (t : Nat) (p : Packet) : Bool :=
  match p.legs.head? with
  | some l => l.loc = 24 + p.goal && decide (l.enter + p.flits ≤ t + 1)
  | none => false

/-- The ACLK in which the head of a packet at its goal arrived. -/
def Packet.headAt (p : Packet) : Nat := (p.legs.head?.map (fun l => l.enter)).getD 0

/-- The packet's stay at an input. -/
def Packet.legAt (loc port : Nat) (p : Packet) : Option Leg := p.legs.find? (fun l => l.loc = loc && l.port = port)

/-- The local port of an NI that its packets to NI `t` leave and enter by: of two, the first for an even `t` (R281; log entry 229). -/
def niPort (i t : Nat) : Nat := if t % 2 = 0 then (niPlace i).2.1 else (niPlace i).2.2

/-- The codes of the route that NI `i` holds to NI `t` (R280, R281). -/
def Dev.routeOf (d : Dev) (i t : Nat) : List Nat :=
  match tget none d.net.routes (i * 64 + t) with
  | some (lo, hi) => routeCodes lo hi
  | none => defaultRoute i t

/-! ### Links, queues and credits (R285, R287) -/

/-- Where code `c` leads from router `r` (R277, Table 11-3): the next router and its input port, or an NI; none for a port that is absent. -/
def hop (r c : Nat) : Option (Nat × Nat) :=
  match c with
  | 0 => if r / 6 < 3 then some (r + 6, 2) else none
  | 1 => if r % 6 < 5 then some (r + 1, 3) else none
  | 2 => if 0 < r / 6 then some (r - 6, 0) else none
  | 3 => if 0 < r % 6 then some (r - 1, 1) else none
  | _ => ((List.range 40).find? (fun i => (niPlace i).1 = r && ((niPlace i).2.1 = c || (niPlace i).2.2 = c))).map (fun i => (24 + i, c))

/-- The credits a packet's stay has not returned yet: those of a flit that leaves come back in the next ACLK. -/
def Packet.claims (now : Nat) (p : Packet) (l : Leg) : Nat :=
  match l.left with
  | some t => p.flits - (now - t)
  | none => p.flits

/-- The credits for input queue `vc` of a port of router `r`. -/
def Dev.credits (d : Dev) (r port vc : Nat) : Nat :=
  vcFlits (d.division r) vc -
    ((d.inNet.filter (fun p => p.vc = vc)).map (fun p => ((p.legAt r port).map (p.claims d.now)).getD 0)).sum

/-- The link into an input carries no flit in this ACLK. -/
def Dev.linkFree (d : Dev) (loc port : Nat) : Bool :=
  !d.inNet.any (fun p => (p.legAt loc port).any (fun l => decide (d.now + 1 < l.enter + p.flits)))

/-- The head of a packet may advance into an input: the link is free, and a router's queue has credits for the whole packet and is not held. -/
def Dev.mayEnter (d : Dev) (p : Packet) (loc port : Nat) : Bool :=
  d.linkFree loc port && (decide (24 ≤ loc) || (!d.heldQueue loc p.vc && decide (p.flits ≤ d.credits loc port p.vc)))

/-- The packet at the head of input queue `vc` of a port of router `r`, once its head has entered in an ACLK before; none while the flits of the one before
it leave. -/
def Dev.queueHead (d : Dev) (r port vc : Nat) : Option Packet :=
  let q := d.inNet.filter (fun p => p.vc = vc && (p.legAt r port).isSome)
  let enter := fun (p : Packet) => ((p.legAt r port).map (fun l => l.enter)).getD 0
  if q.any (fun p => (p.legAt r port).any (fun l => l.left.isSome)) then none
  else (q.foldl (fun (b : Option Packet) p => match b with
    | some x => if enter p < enter x then some p else b
    | none => some p) none).filter (fun p => decide (enter p < d.now))

/-! ### Grants (R286) -/

/-- The head that an input port offers to output `o` of router `r` on a VC. -/
def Dev.offer (d : Dev) (r o vc port : Nat) : Option Packet :=
  (d.queueHead r port vc).filter (fun p => p.codes.head? = some o && (hop r o).any (fun h => d.mayEnter p h.1 h.2))

/-- The head of a VC that is granted next at output `o`: the input ports take turns. -/
def Dev.turn (d : Dev) (r o vc : Nat) (a : Arb) : Option (Packet × Arb) :=
  let from_ := tget 0 a.next vc
  (List.range 7).findSome? (fun k =>
    let port := (from_ + k) % 7
    (d.offer r o vc port).map (fun p => (p, { a with next := tset 0 a.next vc ((port + 1) % 7) })))

/-- The arbiter of output `o` of router `r`. -/
def Dev.arb (d : Dev) (r o : Nat) : Arb := tget Arb.reset d.net.arb (r * 7 + o)

/-- The grant of an output in this ACLK: VC3, then VC1, then W0 packets of VC0 and W2 of VC2 in turn; a turn with nothing to grant passes (log entry 229). -/
def Dev.grantOf (d : Dev) (r o : Nat) : Option (Packet × Arb) :=
  let a := d.arb r o
  let w := max 1 (d.rd (if a.two then PN_RTRr_WGT_W2 r else PN_RTRr_WGT_W0 r))
  let cur := if a.two then 2 else 0
  let stay := d.turn r o cur { a with n := if a.n < w then a.n + 1 else 1 }
  let pass := d.turn r o (2 - cur) { a with two := !a.two, n := 1 }
  (d.turn r o 3 a).or ((d.turn r o 1 a).or (if a.n < w then stay.or pass else pass.or stay))

/-- The packet granted: its head enters the next input in the next ACLK. -/
def Packet.move (now loc port : Nat) (p : Packet) : Packet :=
  { p with codes := p.codes.tail,
           legs := { loc := loc, port := port, enter := now + 1, left := none } ::
             p.legs.map (fun l => if l.left.isNone then { l with left := some now } else l) }

/-- The packet as its NI issues its head: it takes the NI's route. -/
def Dev.issued (d : Dev) (p : Packet) : Packet :=
  { p with codes := d.routeOf p.org p.goal, at_ := if p.vc = 1 then p.at_ else d.now,
           legs := [{ loc := (niPlace p.org).1, port := niPort p.org p.goal, enter := d.now + 1, left := none }] }

/-- The block with the first packet equal to `p` replaced. -/
def Dev.swapPacket (p q : Packet) (d : Dev) : Dev :=
  let f := replaceFirst (fun x => x = p) (fun _ => q)
  { d with net := { d.net with reqs := f d.net.reqs, resps := f d.net.resps, msgs := f d.net.msgs } }

/-- Output `o` of router `r` grants a head. -/
def Dev.routerGrant (k : Nat × Nat) (d : Dev) : Dev :=
  match d.grantOf k.1 k.2, hop k.1 k.2 with
  | some (p, a), some h =>
    let d := d.swapPacket p (p.move d.now h.1 h.2)
    { d with net := { d.net with arb := tset Arb.reset d.net.arb (k.1 * 7 + k.2) a } }
  | _, _ => d

/-- NI `i` issues the head of a packet by one of its ports (R287): by VC as the routers choose, requests in the order of their issue (log entry 229). -/
def Dev.niIssue (k : Nat × Nat) (d : Dev) : Dev :=
  let q := d.inNet.filter (fun p => p.legs = [] && !p.held && p.org = k.1 && niPort p.org p.goal = k.2)
  let firsts := [q.find? (fun p => p.vc = 3), q.find? (fun p => p.vc = 1), q.find? (fun p => p.vc % 2 = 0), q.find? (fun p => p.vc = 0), q.find? (fun p => p.vc = 2)]
  match (firsts.filterMap id).find? (fun p => d.mayEnter p (niPlace k.1).1 k.2) with
  | some p => d.swapPacket p (d.issued p)
  | none => d

/-! ### Errors (R290) and messages (R291) -/

/-- A packet stands at router `r` with a code that leads to no neighbour and not to its NI. -/
def Packet.lost (now : Nat) (p : Packet) : Bool :=
  match p.legs.head? with
  | some l => decide (l.loc < 24) && decide (l.enter < now) && l.left.isNone &&
      match p.codes with
      | [] => true
      | c :: _ => match hop l.loc c with
        | some h => decide (24 ≤ h.1) && decide (h.1 ≠ 24 + p.goal)
        | none => true
  | none => false

/-- The route of a packet names an absent port (R290): a request is answered ROUTERR, a response reaches its requester with that status, and a message is
answered with nobody to take it. -/
def Dev.routeError (p : Packet) (d : Dev) : Dev :=
  let without := fun (l : List Packet) => ((takeFirst (fun q => q = p) l).map (fun r => r.2)).getD l
  if p.vc = 1 then
    d.swapPacket p { p with status := 4, data := [], codes := [], legs := [{ loc := 24 + p.goal, port := 4, enter := d.now, left := none }] }
  else if p.vc = 3 then { d with net := { d.net with msgs := without d.net.msgs } }
  else ({ d with net := { d.net with reqs := without d.net.reqs } } : Dev).respond p 4 []

/-- A message reaches its NI (R41, R284, R291): a closed one answers with OFFLINE, and the POST counts as dropped; the queue of a core's NI raises CP_IPEND
bit 2 (R260). A queue that does not exist is answered with DECERR, which nothing takes. -/
def Dev.msgArrive (p : Packet) (d : Dev) : Dev :=
  let d : Dev := { d with net := { d.net with msgs := ((takeFirst (fun q => q = p) d.net.msgs).map (fun r => r.2)).getD d.net.msgs } }
  if d.niClosed p.dst then d.countOffline.actionDrop p.req
  else if ¬ Config.vc3Exists p.dst p.addr then d
  else
    let d := d.vc3Put p.dst p.addr (w32 (bytesNat p.data))
    if 24 ≤ p.dst ∧ p.dst < 28 then d.setFlagBit (CP_IPEND_PEND (p.dst - 24)) 2 else d

/-- The messages that reach their NIs in this ACLK: those of one source to one NI in the order of their issue (R289). -/
def arrivedMsgs (now : Nat) : List Packet → List (Nat × Nat) → List Packet
  | [], _ => []
  | p :: t, stuck =>
    if p.there now ∧ ¬ stuck.contains (p.src, p.dst) then p :: arrivedMsgs now t stuck else arrivedMsgs now t ((p.src, p.dst) :: stuck)

/-! ### One ACLK -/

/-- Stays whose last flit has left end. -/
def Packet.clean (now : Nat) (p : Packet) : Packet :=
  { p with legs := p.legs.filter (fun l => !l.left.any (fun t => decide (t + p.flits ≤ now))) }

/-- The outputs that some head wants, and the NI ports that have something to issue. -/
def Dev.wanted (d : Dev) : List (Nat × Nat) × List (Nat × Nat) :=
  let out := fun (p : Packet) => match p.legs.head?, p.codes.head? with
    | some l, some c => if l.loc < 24 ∧ l.left.isNone then some (l.loc, c) else none
    | _, _ => none
  ((d.inNet.filterMap out).eraseDups, ((d.inNet.filter (fun p => p.legs = [] && !p.held)).map (fun p => (p.org, niPort p.org p.goal))).eraseDups)

/-- The network in a new ACLK (R286, R287). -/
def Dev.tickNet (d : Dev) : Dev :=
  if d.inNet = [] then d
  else
    let n := { d.net with
      reqs := d.net.reqs.map (Packet.clean d.now), resps := d.net.resps.map (Packet.clean d.now), msgs := d.net.msgs.map (Packet.clean d.now) }
    let d : Dev := { d with net := n }
    let d := forList (d.inNet.filter (Packet.lost d.now)) Dev.routeError d
    let k := d.wanted
    let d := forList k.2 Dev.niIssue (forList k.1 Dev.routerGrant d)
    forList (arrivedMsgs d.now d.net.msgs []) Dev.msgArrive d

end Sys2Proof.Machine
end

