-- ==== Sys2Proof/Machine/Packets.lean ====
section
/-! DEFINITION. Packets at their targets and back at their requesters (R284, R289 to R291, R293). -/
namespace Sys2Proof.Machine

/-- The oldest request of each source to NI `ni`, oldest first: requests of one source are executed in the order of their issue (R289). -/
def firstReqs (ni : Nat) : List Packet → List Nat → List Packet
  | [], _ => []
  | p :: t, seen =>
    if p.dst = ni ∧ ¬ p.held ∧ ¬ seen.contains p.src then p :: firstReqs ni t (p.src :: seen) else firstReqs ni t seen

/-- A DRAM request enters its channel's queue while that holds fewer than 128 (R327); one that is answered with an error waits for the source's queued
requests, so that responses keep their order. -/
def Dev.dramTakes (d : Dev) (c : Nat) (p : Packet) : Bool :=
  if d.memStatus p.addr = 0 then decide ((d.chan c).queue.length < 128) else !(d.chan c).queue.any (fun q => q.pkt.src = p.src)

/-- A read or write of host memory (R354): while the link is down a read has no answer and a write is lost. -/
def Dev.hostPacket (p : Packet) (d : Dev) : Dev :=
  if p.write then (d.hostWrite p.addr p.data).respond p 0 [] else d.respond p 0 (d.hostBytes p.addr p.len)

/-- A request executed at an NI that reaches memory or registers at once. -/
def Dev.busPacket (p : Packet) (d : Dev) : Dev :=
  if p.write then
    let r := d.busWrite p.addr p.data
    r.2.respond p r.1 []
  else
    let r := d.busRead p.addr p.len
    r.2.respond p r.1.1 r.1.2

/-- The request of `ni`'s that is executed or answered next, if one has arrived. -/
def Dev.nextReq (d : Dev) (ni : Nat) : Option Packet :=
  let l := (firstReqs ni d.net.reqs []).filter (Packet.there d.now)
  if d.niClosed ni then l.head?
  else if ni = 36 ∨ ni = 37 then l.find? (d.dramTakes (ni - 36))
  else if ni = 38 then l.find? (fun p => p.write || d.on HL_STAT_LINKUP)
  else if ni = 39 then l.find? (fun p => p.write || !d.flashHeld p.addr)
  else l.head?

/-- A request reaches NI `ni` (R289 to R291, R327); one for a rank in power-down wakes it (R334). -/
def Dev.requestArrival (ni : Nat) (d : Dev) : Dev :=
  match d.nextReq ni with
  | none => d
  | some p =>
    let rest := ((takeFirst (fun (q : Packet) => q = p) d.net.reqs).map (fun r => r.2)).getD d.net.reqs
    let d : Dev := { d with net := { d.net with reqs := rest } }
    if d.niClosed ni then d.countOffline.respond p 3 []
    else if ni = 36 ∨ ni = 37 then
      let st := d.memStatus p.addr
      if st = 0 then
        let x := d.chan (ni - 36)
        let d := d.setChan (ni - 36) { x with queue := x.queue ++ [{ pkt := p, at_ := d.now }] }
        d.wrBit (DC_CHc_STAT_PD (ni - 36)) (d.servedBy (ni - 36) (d.reqLocal { pkt := p, at_ := d.now })) false
      else (if st = 3 then d.countOffline else d).respond p st []
    else if ni = 38 then (if p.host then d.hostPacket p else d.busPacket p)
    else d.busPacket p

/-- The oldest response of each target to NI `ni`, oldest first: they return in the order of their requests (R289). -/
def firstResps (ni : Nat) : List Packet → List Nat → List Packet
  | [], _ => []
  | p :: t, seen => if p.src = ni ∧ ¬ seen.contains p.dst then p :: firstResps ni t (p.dst :: seen) else firstResps ni t seen

/-- A response reaches NI `ni` (R288, R290, R293): its request is counted from the injection of its head to the arrival of the response's, a place is free
for a request held, and the requester goes on. -/
def Dev.responseArrival (ni : Nat) (d : Dev) : Dev :=
  match ((firstResps ni d.net.resps []).find? (Packet.there d.now)).bind (fun p => takeFirst (fun q => q = p) d.net.resps) with
  | none => d
  | some (p, rest) =>
    let d : Dev := { d with net := { d.net with resps := rest } }
    let d := (d.countLatency ni (p.headAt - p.at_)).countBytes ni p.data.length false
    (d.releaseHeld ni).xferResponse p

/-- PACKET_REQUEST_ARRIVAL (R289). -/
def execPacketRequestArrival (i : Fin 40) (s : State) : Host.Outcome State Fault Refusal := onDev (Dev.requestArrival i.val) s
/-- PACKET_RESPONSE_ARRIVAL (R290). -/
def execPacketResponseArrival (i : Fin 40) (s : State) : Host.Outcome State Fault Refusal := onDev (Dev.unlessHeld (Dev.responseArrival i.val)) s

end Sys2Proof.Machine
end

