-- ==== Sys2Proof/Machine/Tick.lean ====
section
/-! DEFINITION. The next ACLK (R21, R27): what every unit does as it begins. -/
namespace Sys2Proof.Machine

/-- What latches or is decided as an ACLK ends: outbound registers (R89, R107), carry reads (R138), snapshots and readbacks (R155, R231), Z
pulses (R24). -/
def Dev.settle (d : Dev) : Dev := d.straitsSettle.carrySettle.snapsSettle.zSettle

/-- Every ACLK each enabled tracker advances (R21, R27); the new ACLK begins for the isles, the harbour, the scheduler, the network and the DRAM channels' buckets
(log entry 2). What latches at the end of an ACLK settles before. -/
def Dev.tick (d : Dev) : Dev :=
  let e := d.settle
  let d : Dev := { e with now := e.now + 1, flags := [], ang := { e.ang with issued := [] } }
  let d := d.advanceTrackers.tickIsles.tickLanes.tickHarbour.tickSched.tickNet
  forUpTo 2 Dev.dramLeak d

/-- TRACKER_ADVANCE (R27). -/
def execTrackerAdvance (s : State) : Host.Outcome State Fault Refusal := onDev Dev.tick s

end Sys2Proof.Machine
end

