-- ==== Sys2Proof/Machine/Dispatch.lean ====
section
/-! DEFINITION. exec: one arm per command, each one direct call of its meaning. -/
namespace Sys2Proof.Machine

/-- The effect of a command on everything but the queue. -/
def exec (i : Instr) (s : State) : Host.Outcome State Fault Refusal :=
  match i with
  | .registerWrite addr value => Sys2Proof.Machine.execRegisterWrite addr value s
  | .trackerAdvance => Sys2Proof.Machine.execTrackerAdvance s
  | .measurementLatch dom => Sys2Proof.Machine.execMeasurementLatch dom s
  | .measurementArrival dom => Sys2Proof.Machine.execMeasurementArrival dom s
  | .markTimeout dom => Sys2Proof.Machine.execMarkTimeout dom s
  | .ad7Sample => Sys2Proof.Machine.execAd7Sample s
  | .setang dom => Sys2Proof.Machine.execSetang dom s
  | .setvel dom => Sys2Proof.Machine.execSetvel dom s
  | .auClrcnt dom => Sys2Proof.Machine.execAuClrcnt dom s
  | .domainEnable dom => Sys2Proof.Machine.execDomainEnable dom s
  | .domainDisable dom => Sys2Proof.Machine.execDomainDisable dom s
  | .predictionRequest => Sys2Proof.Machine.execPredictionRequest s
  | .predictionAnswer task => Sys2Proof.Machine.execPredictionAnswer task s
  | .entryIssue list => Sys2Proof.Machine.execEntryIssue list s
  | .reinsertionComplete index => Sys2Proof.Machine.execReinsertionComplete index s
  | .fire => Sys2Proof.Machine.execFire s
  | .strobe => Sys2Proof.Machine.execStrobe s
  | .edge => Sys2Proof.Machine.execEdge s
  | .gate => Sys2Proof.Machine.execGate s
  | .dma => Sys2Proof.Machine.execDma s
  | .wake => Sys2Proof.Machine.execWake s
  | .post => Sys2Proof.Machine.execPost s
  | .insert port list => Sys2Proof.Machine.execInsert port list s
  | .insertComplete port => Sys2Proof.Machine.execInsertComplete port s
  | .delete index => Sys2Proof.Machine.execDelete index s
  | .deleteComplete => Sys2Proof.Machine.execDeleteComplete s
  | .etClrDrop => Sys2Proof.Machine.execEtClrDrop s
  | .etClrLate => Sys2Proof.Machine.execEtClrLate s
  | .landfall dom => Sys2Proof.Machine.execLandfall dom s
  | .modeChangeArm slot dom => Sys2Proof.Machine.execModeChangeArm slot dom s
  | .modeChangeAbort slot => Sys2Proof.Machine.execModeChangeAbort slot s
  | .modeChangeCheck slot => Sys2Proof.Machine.execModeChangeCheck slot s
  | .modeChangeAck slot => Sys2Proof.Machine.execModeChangeAck slot s
  | .modeChangeTimeout slot => Sys2Proof.Machine.execModeChangeTimeout slot s
  | .copybackDone isle => Sys2Proof.Machine.execCopybackDone isle s
  | .nop isle cell => Sys2Proof.Machine.execNop isle cell s
  | .mov isle cell => Sys2Proof.Machine.execMov isle cell s
  | .movc isle cell => Sys2Proof.Machine.execMovc isle cell s
  | .add isle cell => Sys2Proof.Machine.execAdd isle cell s
  | .addc isle cell => Sys2Proof.Machine.execAddc isle cell s
  | .sub isle cell => Sys2Proof.Machine.execSub isle cell s
  | .subc isle cell => Sys2Proof.Machine.execSubc isle cell s
  | .neg isle cell => Sys2Proof.Machine.execNeg isle cell s
  | .abs isle cell => Sys2Proof.Machine.execAbs isle cell s
  | .min isle cell => Sys2Proof.Machine.execMin isle cell s
  | .max isle cell => Sys2Proof.Machine.execMax isle cell s
  | .and isle cell => Sys2Proof.Machine.execAnd isle cell s
  | .or isle cell => Sys2Proof.Machine.execOr isle cell s
  | .xor isle cell => Sys2Proof.Machine.execXor isle cell s
  | .andc isle cell => Sys2Proof.Machine.execAndc isle cell s
  | .orc isle cell => Sys2Proof.Machine.execOrc isle cell s
  | .xorc isle cell => Sys2Proof.Machine.execXorc isle cell s
  | .not isle cell => Sys2Proof.Machine.execNot isle cell s
  | .shl isle cell => Sys2Proof.Machine.execShl isle cell s
  | .shr isle cell => Sys2Proof.Machine.execShr isle cell s
  | .shra isle cell => Sys2Proof.Machine.execShra isle cell s
  | .rol isle cell => Sys2Proof.Machine.execRol isle cell s
  | .exp isle cell => Sys2Proof.Machine.execExp isle cell s
  | .norm isle cell => Sys2Proof.Machine.execNorm isle cell s
  | .clip isle cell => Sys2Proof.Machine.execClip isle cell s
  | .swaph isle cell => Sys2Proof.Machine.execSwaph isle cell s
  | .pack isle cell => Sys2Proof.Machine.execPack isle cell s
  | .conj isle cell => Sys2Proof.Machine.execConj isle cell s
  | .selx isle cell => Sys2Proof.Machine.execSelx isle cell s
  | .csel isle cell => Sys2Proof.Machine.execCsel isle cell s
  | .mpy isle cell => Sys2Proof.Machine.execMpy isle cell s
  | .mac isle cell => Sys2Proof.Machine.execMac isle cell s
  | .msu isle cell => Sys2Proof.Machine.execMsu isle cell s
  | .mpyj isle cell => Sys2Proof.Machine.execMpyj isle cell s
  | .macj isle cell => Sys2Proof.Machine.execMacj isle cell s
  | .msuj isle cell => Sys2Proof.Machine.execMsuj isle cell s
  | .mpyr isle cell => Sys2Proof.Machine.execMpyr isle cell s
  | .macr isle cell => Sys2Proof.Machine.execMacr isle cell s
  | .msur isle cell => Sys2Proof.Machine.execMsur isle cell s
  | .accld isle cell => Sys2Proof.Machine.execAccld isle cell s
  | .accpre isle cell => Sys2Proof.Machine.execAccpre isle cell s
  | .accst isle cell => Sys2Proof.Machine.execAccst isle cell s
  | .malformedIssue isle cell => Sys2Proof.Machine.execMalformedIssue isle cell s
  | .tokenEmit isle cell => Sys2Proof.Machine.execTokenEmit isle cell s
  | .tokenApply isle entry => Sys2Proof.Machine.execTokenApply isle entry s
  | .harbourDelivery chan => Sys2Proof.Machine.execHarbourDelivery chan s
  | .isFire isle group => Sys2Proof.Machine.execIsFire isle group s
  | .firingRequest isle group => Sys2Proof.Machine.execFiringRequest isle group s
  | .preemptComplete isle => Sys2Proof.Machine.execPreemptComplete isle s
  | .preemptTimeout isle => Sys2Proof.Machine.execPreemptTimeout isle s
  | .victimResume isle => Sys2Proof.Machine.execVictimResume isle s
  | .isClr isle => Sys2Proof.Machine.execIsClr isle s
  | .isStrig isle trig => Sys2Proof.Machine.execIsStrig isle trig s
  | .streamTransferStart isle => Sys2Proof.Machine.execStreamTransferStart isle s
  | .streamTransferDone isle => Sys2Proof.Machine.execStreamTransferDone isle s
  | .stepOpen => Sys2Proof.Machine.execStepOpen s
  | .headFire task => Sys2Proof.Machine.execHeadFire task s
  | .carryLoad task => Sys2Proof.Machine.execCarryLoad task s
  | .check task => Sys2Proof.Machine.execCheck task s
  | .tailFire task => Sys2Proof.Machine.execTailFire task s
  | .commit task => Sys2Proof.Machine.execCommit task s
  | .squash task => Sys2Proof.Machine.execSquash task s
  | .rerun task => Sys2Proof.Machine.execRerun task s
  | .replay task => Sys2Proof.Machine.execReplay task s
  | .sqreq task => Sys2Proof.Machine.execSqreq task s
  | .haltToken task => Sys2Proof.Machine.execHaltToken task s
  | .note task => Sys2Proof.Machine.execNote task s
  | .ctlSquash task => Sys2Proof.Machine.execCtlSquash task s
  | .ctlHalt task => Sys2Proof.Machine.execCtlHalt task s
  | .ahdClrcnt task => Sys2Proof.Machine.execAhdClrcnt task s
  | .taskEnable task value => Sys2Proof.Machine.execTaskEnable task value s
  | .taskDisable task => Sys2Proof.Machine.execTaskDisable task s
  | .ahdDisable => Sys2Proof.Machine.execAhdDisable s
  | .polWrite task value => Sys2Proof.Machine.execPolWrite task value s
  | .snapshotArm slot value => Sys2Proof.Machine.execSnapshotArm slot value s
  | .snapshotStop slot => Sys2Proof.Machine.execSnapshotStop slot s
  | .snapshotDrainDone slot => Sys2Proof.Machine.execSnapshotDrainDone slot s
  | .sdFreeWord input => Sys2Proof.Machine.execSdFreeWord input s
  | .sdStrobeWord input => Sys2Proof.Machine.execSdStrobeWord input s
  | .sdTrip input => Sys2Proof.Machine.execSdTrip input s
  | .lvdsFrame lane len bits => Sys2Proof.Machine.execLvdsFrame lane len bits s
  | .encTransition enc a b => Sys2Proof.Machine.execEncTransition enc a b s
  | .zEdge enc rising => Sys2Proof.Machine.execZEdge enc rising s
  | .encCntWrite enc value => Sys2Proof.Machine.execEncCntWrite enc value s
  | .ssiPeriodicStart ssi => Sys2Proof.Machine.execSsiPeriodicStart ssi s
  | .ssiFrameDone ssi startHigh bits => Sys2Proof.Machine.execSsiFrameDone ssi startHigh bits s
  | .predictorSample pred => Sys2Proof.Machine.execPredictorSample pred s
  | .pwmEdgeAct pair => Sys2Proof.Machine.execPwmEdgeAct pair s
  | .pwmDeadtimeEnd pair => Sys2Proof.Machine.execPwmDeadtimeEnd pair s
  | .pwmCmdWrite pair value => Sys2Proof.Machine.execPwmCmdWrite pair value s
  | .tripClear pair => Sys2Proof.Machine.execTripClear pair s
  | .pwSafeWrite safe => Sys2Proof.Machine.execPwSafeWrite safe s
  | .pwClrCnt pair => Sys2Proof.Machine.execPwClrCnt pair s
  | .markAccept gio => Sys2Proof.Machine.execMarkAccept gio s
  | .gioPulseEnd gio => Sys2Proof.Machine.execGioPulseEnd gio s
  | .fifoDataRead fifo => Sys2Proof.Machine.execFifoDataRead fifo s
  | .fqFlush fifo => Sys2Proof.Machine.execFqFlush fifo s
  | .fqClrlost fifo => Sys2Proof.Machine.execFqClrlost fifo s
  | .imageHeaderIn => Sys2Proof.Machine.execImageHeaderIn s
  | .imageStreamEnd sourceOk => Sys2Proof.Machine.execImageStreamEnd sourceOk s
  | .imageRelease => Sys2Proof.Machine.execImageRelease s
  | .icpGo value => Sys2Proof.Machine.execIcpGo value s
  | .icpHeaderIn => Sys2Proof.Machine.execIcpHeaderIn s
  | .icpCopyEnd sourceOk => Sys2Proof.Machine.execIcpCopyEnd sourceOk s
  | .icpTagCheck => Sys2Proof.Machine.execIcpTagCheck s
  | .icpChecksDone => Sys2Proof.Machine.execIcpChecksDone s
  | .icpUnitStaged => Sys2Proof.Machine.execIcpUnitStaged s
  | .icpSetCheckDone isle => Sys2Proof.Machine.execIcpSetCheckDone isle s
  | .icpAbort => Sys2Proof.Machine.execIcpAbort s
  | .rbGo value => Sys2Proof.Machine.execRbGo value s
  | .readbackDone => Sys2Proof.Machine.execReadbackDone s
  | .apertureWrite offset value => Sys2Proof.Machine.execApertureWrite offset value s
  | .coreAdd core rd ra rb => Sys2Proof.Machine.execCoreAdd core rd ra rb s
  | .coreSub core rd ra rb => Sys2Proof.Machine.execCoreSub core rd ra rb s
  | .add32 core rd ra rb => Sys2Proof.Machine.execAdd32 core rd ra rb s
  | .sub32 core rd ra rb => Sys2Proof.Machine.execSub32 core rd ra rb s
  | .coreAnd core rd ra rb => Sys2Proof.Machine.execCoreAnd core rd ra rb s
  | .coreOr core rd ra rb => Sys2Proof.Machine.execCoreOr core rd ra rb s
  | .coreXor core rd ra rb => Sys2Proof.Machine.execCoreXor core rd ra rb s
  | .coreShl core rd ra rb => Sys2Proof.Machine.execCoreShl core rd ra rb s
  | .coreShr core rd ra rb => Sys2Proof.Machine.execCoreShr core rd ra rb s
  | .coreShra core rd ra rb => Sys2Proof.Machine.execCoreShra core rd ra rb s
  | .clts core rd ra rb => Sys2Proof.Machine.execClts core rd ra rb s
  | .cltu core rd ra rb => Sys2Proof.Machine.execCltu core rd ra rb s
  | .mul core rd ra rb => Sys2Proof.Machine.execMul core rd ra rb s
  | .mhis core rd ra rb => Sys2Proof.Machine.execMhis core rd ra rb s
  | .mhiu core rd ra rb => Sys2Proof.Machine.execMhiu core rd ra rb s
  | .quos core rd ra rb => Sys2Proof.Machine.execQuos core rd ra rb s
  | .quou core rd ra rb => Sys2Proof.Machine.execQuou core rd ra rb s
  | .rmds core rd ra rb => Sys2Proof.Machine.execRmds core rd ra rb s
  | .rmdu core rd ra rb => Sys2Proof.Machine.execRmdu core rd ra rb s
  | .addi core rd ra imm => Sys2Proof.Machine.execAddi core rd ra imm s
  | .andi core rd ra imm => Sys2Proof.Machine.execAndi core rd ra imm s
  | .ori core rd ra imm => Sys2Proof.Machine.execOri core rd ra imm s
  | .xori core rd ra imm => Sys2Proof.Machine.execXori core rd ra imm s
  | .cltsi core rd ra imm => Sys2Proof.Machine.execCltsi core rd ra imm s
  | .cltui core rd ra imm => Sys2Proof.Machine.execCltui core rd ra imm s
  | .shli core rd ra imm => Sys2Proof.Machine.execShli core rd ra imm s
  | .shri core rd ra imm => Sys2Proof.Machine.execShri core rd ra imm s
  | .shrai core rd ra imm => Sys2Proof.Machine.execShrai core rd ra imm s
  | .l64 core rd ra imm => Sys2Proof.Machine.execL64 core rd ra imm s
  | .l32s core rd ra imm => Sys2Proof.Machine.execL32s core rd ra imm s
  | .l32u core rd ra imm => Sys2Proof.Machine.execL32u core rd ra imm s
  | .l16s core rd ra imm => Sys2Proof.Machine.execL16s core rd ra imm s
  | .l16u core rd ra imm => Sys2Proof.Machine.execL16u core rd ra imm s
  | .l8s core rd ra imm => Sys2Proof.Machine.execL8s core rd ra imm s
  | .l8u core rd ra imm => Sys2Proof.Machine.execL8u core rd ra imm s
  | .s64 core rd ra imm => Sys2Proof.Machine.execS64 core rd ra imm s
  | .s32 core rd ra imm => Sys2Proof.Machine.execS32 core rd ra imm s
  | .s16 core rd ra imm => Sys2Proof.Machine.execS16 core rd ra imm s
  | .s8 core rd ra imm => Sys2Proof.Machine.execS8 core rd ra imm s
  | .ldmask core rm ra imm => Sys2Proof.Machine.execLdmask core rm ra imm s
  | .stmask core rm ra imm => Sys2Proof.Machine.execStmask core rm ra imm s
  | .phyld core rd ra imm => Sys2Proof.Machine.execPhyld core rd ra imm s
  | .physt core rd ra imm => Sys2Proof.Machine.execPhyst core rd ra imm s
  | .breq core ra rb off => Sys2Proof.Machine.execBreq core ra rb off s
  | .brne core ra rb off => Sys2Proof.Machine.execBrne core ra rb off s
  | .brlt core ra rb off => Sys2Proof.Machine.execBrlt core ra rb off s
  | .brge core ra rb off => Sys2Proof.Machine.execBrge core ra rb off s
  | .brlo core ra rb off => Sys2Proof.Machine.execBrlo core ra rb off s
  | .brhs core ra rb off => Sys2Proof.Machine.execBrhs core ra rb off s
  | .jmp core off => Sys2Proof.Machine.execJmp core off s
  | .callf core off => Sys2Proof.Machine.execCallf core off s
  | .callfr core rd ra imm => Sys2Proof.Machine.execCallfr core rd ra imm s
  | .jmpr core rd ra imm => Sys2Proof.Machine.execJmpr core rd ra imm s
  | .retf core off => Sys2Proof.Machine.execRetf core off s
  | .swap core rd ra imm => Sys2Proof.Machine.execSwap core rd ra imm s
  | .xadd core rd ra imm => Sys2Proof.Machine.execXadd core rd ra imm s
  | .movhi core rd imm => Sys2Proof.Machine.execMovhi core rd imm s
  | .movup core rd imm => Sys2Proof.Machine.execMovup core rd imm s
  | .trap core imm => Sys2Proof.Machine.execTrap core imm s
  | .bkpt core imm => Sys2Proof.Machine.execBkpt core imm s
  | .rett core => Sys2Proof.Machine.execRett core s
  | .retd core => Sys2Proof.Machine.execRetd core s
  | .spillf core => Sys2Proof.Machine.execSpillf core s
  | .fillf core => Sys2Proof.Machine.execFillf core s
  | .mfc core rx imm => Sys2Proof.Machine.execMfc core rx imm s
  | .mtc core rx imm => Sys2Proof.Machine.execMtc core rx imm s
  | .fence core => Sys2Proof.Machine.execFence core s
  | .sync core => Sys2Proof.Machine.execSync core s
  | .tlbi core rx imm => Sys2Proof.Machine.execTlbi core rx imm s
  | .cache core rx imm => Sys2Proof.Machine.execCache core rx imm s
  | .wait core => Sys2Proof.Machine.execWait core s
  | .yield core => Sys2Proof.Machine.execYield core s
  | .irq core => Sys2Proof.Machine.execIrq core s
  | .coreRun core => Sys2Proof.Machine.execCoreRun core s
  | .coreHalt core => Sys2Proof.Machine.execCoreHalt core s
  | .cpIraise core mask => Sys2Proof.Machine.execCpIraise core mask s
  | .cpClr core => Sys2Proof.Machine.execCpClr core s
  | .mmInv value => Sys2Proof.Machine.execMmInv value s
  | .mmInvDone => Sys2Proof.Machine.execMmInvDone s
  | .iofqPop => Sys2Proof.Machine.execIofqPop s
  | .iores value => Sys2Proof.Machine.execIores value s
  | .mmClr => Sys2Proof.Machine.execMmClr s
  | .switch core => Sys2Proof.Machine.execSwitch core s
  | .bankFillDone core => Sys2Proof.Machine.execBankFillDone core s
  | .bankEmptyDone core => Sys2Proof.Machine.execBankEmptyDone core s
  | .schedulerToken => Sys2Proof.Machine.execSchedulerToken s
  | .timedWake => Sys2Proof.Machine.execTimedWake s
  | .unconditionalWake => Sys2Proof.Machine.execUnconditionalWake s
  | .start thread => Sys2Proof.Machine.execStart thread s
  | .suspend thread => Sys2Proof.Machine.execSuspend thread s
  | .setpri thread => Sys2Proof.Machine.execSetpri thread s
  | .setaff thread => Sys2Proof.Machine.execSetaff thread s
  | .kill thread => Sys2Proof.Machine.execKill thread s
  | .wakeCommand thread => Sys2Proof.Machine.execWakeCommand thread s
  | .tsPost token => Sys2Proof.Machine.execTsPost token s
  | .tsClr => Sys2Proof.Machine.execTsClr s
  | .routeCommit ni dest value => Sys2Proof.Machine.execRouteCommit ni dest value s
  | .routeCommitDone ni => Sys2Proof.Machine.execRouteCommitDone ni s
  | .routeCommitTimeout ni => Sys2Proof.Machine.execRouteCommitTimeout ni s
  | .qcfgApply router => Sys2Proof.Machine.execQcfgApply router s
  | .qcfgApplyDone router => Sys2Proof.Machine.execQcfgApplyDone router s
  | .qcfgTimeout router => Sys2Proof.Machine.execQcfgTimeout router s
  | .pnClr => Sys2Proof.Machine.execPnClr s
  | .packetRequestArrival ni => Sys2Proof.Machine.execPacketRequestArrival ni s
  | .packetResponseArrival ni => Sys2Proof.Machine.execPacketResponseArrival ni s
  | .dmaTrig engine trig => Sys2Proof.Machine.execDmaTrig engine trig s
  | .dmaChainStart engine => Sys2Proof.Machine.execDmaChainStart engine s
  | .dmaDescComplete engine => Sys2Proof.Machine.execDmaDescComplete engine s
  | .dmaAbort engine => Sys2Proof.Machine.execDmaAbort engine s
  | .dmClrcnt engine => Sys2Proof.Machine.execDmClrcnt engine s
  | .bgScrubRead walk => Sys2Proof.Machine.execBgScrubRead walk s
  | .cfgScrubRead => Sys2Proof.Machine.execCfgScrubRead s
  | .frameRepairDone verified => Sys2Proof.Machine.execFrameRepairDone verified s
  | .mergeFlush buffer word => Sys2Proof.Machine.execMergeFlush buffer word s
  | .bucketLeak region => Sys2Proof.Machine.execBucketLeak region s
  | .flipMaskArm cls sel => Sys2Proof.Machine.execFlipMaskArm cls sel s
  | .miClr => Sys2Proof.Machine.execMiClr s
  | .channelEnable ch value => Sys2Proof.Machine.execChannelEnable ch value s
  | .trainingDone ch => Sys2Proof.Machine.execTrainingDone ch s
  | .dramServe ch => Sys2Proof.Machine.execDramServe ch s
  | .pageClose ch rank bank => Sys2Proof.Machine.execPageClose ch rank bank s
  | .refresh ch rank => Sys2Proof.Machine.execRefresh ch rank s
  | .tempPoll ch hot => Sys2Proof.Machine.execTempPoll ch hot s
  | .powerDownEntry ch rank => Sys2Proof.Machine.execPowerDownEntry ch rank s
  | .retrainPause ch => Sys2Proof.Machine.execRetrainPause ch s
  | .train ch => Sys2Proof.Machine.execTrain ch s
  | .parityAlert ch rank again => Sys2Proof.Machine.execParityAlert ch rank again s
  | .retire ch rank => Sys2Proof.Machine.execRetire ch rank s
  | .migrationStep ch => Sys2Proof.Machine.execMigrationStep ch s
  | .rhThrClear ni => Sys2Proof.Machine.execRhThrClear ni s
  | .dcClr => Sys2Proof.Machine.execDcClr s
  | .pcieRequest bar2 write offset value => Sys2Proof.Machine.execPcieRequest bar2 write offset value s
  | .commandDoorbell tail => Sys2Proof.Machine.execCommandDoorbell tail s
  | .responseDoorbell head => Sys2Proof.Machine.execResponseDoorbell head s
  | .commandFetch => Sys2Proof.Machine.execCommandFetch s
  | .eventPost => Sys2Proof.Machine.execEventPost s
  | .msixIntervalEnd vec => Sys2Proof.Machine.execMsixIntervalEnd vec s
  | .msixUnmask vec => Sys2Proof.Machine.execMsixUnmask vec s
  | .msiraise mask => Sys2Proof.Machine.execMsiraise mask s
  | .hostReadTimeout requester => Sys2Proof.Machine.execHostReadTimeout requester s
  | .linkDown => Sys2Proof.Machine.execLinkDown s
  | .hostLinkReset => Sys2Proof.Machine.execHostLinkReset s
  | .configReady => Sys2Proof.Machine.execConfigReady s
  | .ringenSet => Sys2Proof.Machine.execRingenSet s
  | .consoleFrame body => Sys2Proof.Machine.execConsoleFrame body s
  | .consoleGapTimeout => Sys2Proof.Machine.execConsoleGapTimeout s
  | .hlClr => Sys2Proof.Machine.execHlClr s
  | .nopCommand => Sys2Proof.Machine.execNopCommand s
  | .devinfo => Sys2Proof.Machine.execDevinfo s
  | .reset => Sys2Proof.Machine.execReset s
  | .resetAction => Sys2Proof.Machine.execResetAction s
  | .console => Sys2Proof.Machine.execConsole s
  | .imgLoad => Sys2Proof.Machine.execImgLoad s
  | .imgPartial => Sys2Proof.Machine.execImgPartial s
  | .imgAbort => Sys2Proof.Machine.execImgAbort s
  | .flashWrite => Sys2Proof.Machine.execFlashWrite s
  | .bootSet => Sys2Proof.Machine.execBootSet s
  | .floorSet => Sys2Proof.Machine.execFloorSet s
  | .keyProg => Sys2Proof.Machine.execKeyProg s
  | .keyRevoke => Sys2Proof.Machine.execKeyRevoke s
  | .readback => Sys2Proof.Machine.execReadback s
  | .setRead => Sys2Proof.Machine.execSetRead s
  | .setWrite => Sys2Proof.Machine.execSetWrite s
  | .setDelete => Sys2Proof.Machine.execSetDelete s
  | .setList => Sys2Proof.Machine.execSetList s
  | .adRead => Sys2Proof.Machine.execAdRead s
  | .adCfg => Sys2Proof.Machine.execAdCfg s
  | .adSet => Sys2Proof.Machine.execAdSet s
  | .evInsert => Sys2Proof.Machine.execEvInsert s
  | .evDelete => Sys2Proof.Machine.execEvDelete s
  | .evList => Sys2Proof.Machine.execEvList s
  | .cadSet => Sys2Proof.Machine.execCadSet s
  | .loopRead => Sys2Proof.Machine.execLoopRead s
  | .loopPolicy => Sys2Proof.Machine.execLoopPolicy s
  | .loopHalt => Sys2Proof.Machine.execLoopHalt s
  | .loopStart => Sys2Proof.Machine.execLoopStart s
  | .loopSquash => Sys2Proof.Machine.execLoopSquash s
  | .loopClr => Sys2Proof.Machine.execLoopClr s
  | .snapArm => Sys2Proof.Machine.execSnapArm s
  | .snapStop => Sys2Proof.Machine.execSnapStop s
  | .snapRead => Sys2Proof.Machine.execSnapRead s
  | .portRead => Sys2Proof.Machine.execPortRead s
  | .portWrite => Sys2Proof.Machine.execPortWrite s
  | .pwmSafe => Sys2Proof.Machine.execPwmSafe s
  | .pwmTripclr => Sys2Proof.Machine.execPwmTripclr s
  | .fifoRead => Sys2Proof.Machine.execFifoRead s
  | .claim => Sys2Proof.Machine.execClaim s
  | .claimQuery => Sys2Proof.Machine.execClaimQuery s
  | .claimList => Sys2Proof.Machine.execClaimList s
  | .memRead => Sys2Proof.Machine.execMemRead s
  | .memWrite => Sys2Proof.Machine.execMemWrite s
  | .memStatus => Sys2Proof.Machine.execMemStatus s
  | .spareAdd => Sys2Proof.Machine.execSpareAdd s
  | .rankRetire => Sys2Proof.Machine.execRankRetire s
  | .flipArm => Sys2Proof.Machine.execFlipArm s
  | .traceCfg => Sys2Proof.Machine.execTraceCfg s
  | .pwrSet => Sys2Proof.Machine.execPwrSet s
  | .pwrRead => Sys2Proof.Machine.execPwrRead s
  | .clkRow => Sys2Proof.Machine.execClkRow s
  | .enCfg => Sys2Proof.Machine.execEnCfg s
  | .enGcl => Sys2Proof.Machine.execEnGcl s
  | .timeRead => Sys2Proof.Machine.execTimeRead s
  | .evtMask => Sys2Proof.Machine.execEvtMask s
  | .evtTest => Sys2Proof.Machine.execEvtTest s
  | .faultWindowEnd source unit => Sys2Proof.Machine.execFaultWindowEnd source unit s
  | .rxFrame port frame fcsOk => Sys2Proof.Machine.execRxFrame port frame fcsOk s
  | .txFrameStart port => Sys2Proof.Machine.execTxFrameStart port s
  | .txFrameDone port => Sys2Proof.Machine.execTxFrameDone port s
  | .rtailWrite port value => Sys2Proof.Machine.execRtailWrite port value s
  | .portEnable port => Sys2Proof.Machine.execPortEnable port s
  | .enClr port => Sys2Proof.Machine.execEnClr port s
  | .ntAdvance => Sys2Proof.Machine.execNtAdvance s
  | .ntStep => Sys2Proof.Machine.execNtStep s
  | .syncSet => Sys2Proof.Machine.execSyncSet s
  | .syncClear => Sys2Proof.Machine.execSyncClear s
  | .syncTimeout => Sys2Proof.Machine.execSyncTimeout s
  | .ethLinkDown port => Sys2Proof.Machine.execEthLinkDown port s
  | .uartDataWrite uart byte => Sys2Proof.Machine.execUartDataWrite uart byte s
  | .uartDataRead uart => Sys2Proof.Machine.execUartDataRead uart s
  | .uartRxByte uart byte framingOk parityOk => Sys2Proof.Machine.execUartRxByte uart byte framingOk parityOk s
  | .spiDataWrite spi word => Sys2Proof.Machine.execSpiDataWrite spi word s
  | .spiDataRead spi => Sys2Proof.Machine.execSpiDataRead spi s
  | .i2cGo value => Sys2Proof.Machine.execI2cGo value s
  | .i2cDone acked arbLost bytes => Sys2Proof.Machine.execI2cDone acked arbLost bytes s
  | .i2cStretchTimeout => Sys2Proof.Machine.execI2cStretchTimeout s
  | .xspiGo value => Sys2Proof.Machine.execXspiGo value s
  | .xspiDone bytes => Sys2Proof.Machine.execXspiDone bytes s
  | .powerGood => Sys2Proof.Machine.execPowerGood s
  | .pllLock => Sys2Proof.Machine.execPllLock s
  | .firmwareVerifyDone verified => Sys2Proof.Machine.execFirmwareVerifyDone verified s
  | .resetNAssert => Sys2Proof.Machine.execResetNAssert s
  | .brownOut => Sys2Proof.Machine.execBrownOut s
  | .swrst key => Sys2Proof.Machine.execSwrst key s
  | .watchdogEnable value => Sys2Proof.Machine.execWatchdogEnable value s
  | .watchdogKick => Sys2Proof.Machine.execWatchdogKick s
  | .watchdogStage1 => Sys2Proof.Machine.execWatchdogStage1 s
  | .watchdogStage2 => Sys2Proof.Machine.execWatchdogStage2 s
  | .domainStartRequest domain => Sys2Proof.Machine.execDomainStartRequest domain s
  | .domainOffRequest domain => Sys2Proof.Machine.execDomainOffRequest domain s
  | .domainUp => Sys2Proof.Machine.execDomainUp s
  | .domainOff domain => Sys2Proof.Machine.execDomainOff domain s
  | .crystalFail => Sys2Proof.Machine.execCrystalFail s
  | .rowClockApply row => Sys2Proof.Machine.execRowClockApply row s
  | .settingsCommit value => Sys2Proof.Machine.execSettingsCommit value s
  | .settingsCommitDone verified => Sys2Proof.Machine.execSettingsCommitDone verified s
  | .f1RepairDone => Sys2Proof.Machine.execF1RepairDone s
  | .harbourParityError cls index => Sys2Proof.Machine.execHarbourParityError cls index s
  | .harbourRepairDone verified => Sys2Proof.Machine.execHarbourRepairDone verified s
  | .f2DiscardTimeout => Sys2Proof.Machine.execF2DiscardTimeout s
  | .sdBitLatch input level => Sys2Proof.Machine.execSdBitLatch input level s
  | .gioInputEdge gio level => Sys2Proof.Machine.execGioInputEdge gio level s
  | .resetNRelease => Sys2Proof.Machine.execResetNRelease s
  | .linkUp rate width => Sys2Proof.Machine.execLinkUp rate width s
  | .ethLinkUp port speed => Sys2Proof.Machine.execEthLinkUp port speed s
  | .retrainPauseEnd ch converged => Sys2Proof.Machine.execRetrainPauseEnd ch converged s
  | .migrationStepEnd ch spareOk => Sys2Proof.Machine.execMigrationStepEnd ch spareOk s
  | .uartTxByte uart => Sys2Proof.Machine.execUartTxByte uart s
  | .spiWordDone spi word => Sys2Proof.Machine.execSpiWordDone spi word s

end Sys2Proof.Machine
end

