-- ==== Sys2Proof/Laws/Sparse.lean ====
section
/-! SUPPORT. Sparse tables: what a read sees after a write, and the canonical form that every write keeps. -/
namespace Sys2Proof.Machine

variable {α : Type}

theorem tget_tput_same (dflt : α) (t : Tbl α) (k : Nat) (v : α) : tget dflt (tput t k v) k = v := by
  induction t with
  | nil => simp [tput, tget]
  | cons e t ih =>
    obtain ⟨a, w⟩ := e
    unfold tput
    split
    · simp [tget]
    · split
      · simp [tget]
      · rename_i h
        simp [tget, h, ih]

theorem tget_tput_ne (dflt : α) (t : Tbl α) {k j : Nat} (v : α) (h : j ≠ k) : tget dflt (tput t k v) j = tget dflt t j := by
  induction t with
  | nil => simp [tput, tget, h]
  | cons e t ih =>
    obtain ⟨a, w⟩ := e
    unfold tput
    split
    · simp [tget, h]
    · split
      · rename_i h2
        subst h2
        simp [tget, h]
      · simp only [tget]
        split <;> simp_all

theorem tget_tdel_same (dflt : α) (t : Tbl α) (k : Nat) : tget dflt (tdel t k) k = dflt := by
  induction t with
  | nil => rfl
  | cons e t ih =>
    obtain ⟨a, w⟩ := e
    unfold tdel
    split
    · exact ih
    · rename_i h
      simp [tget, h, ih]

theorem tget_tdel_ne (dflt : α) (t : Tbl α) {k j : Nat} (h : j ≠ k) : tget dflt (tdel t k) j = tget dflt t j := by
  induction t with
  | nil => rfl
  | cons e t ih =>
    obtain ⟨a, w⟩ := e
    unfold tdel
    split
    · rename_i h2
      subst h2
      simp [tget, h, ih]
    · simp only [tget]
      split <;> simp_all

/-- A write is read back. -/
@[simp] theorem tget_tset_same [DecidableEq α] (dflt : α) (t : Tbl α) (k : Nat) (v : α) : tget dflt (tset dflt t k v) k = v := by
  unfold tset
  split
  · rename_i h
    rw [tget_tdel_same, h]
  · exact tget_tput_same dflt t k v

/-- A write leaves every other key alone, whatever its own default. -/
theorem tget_tset_ne [DecidableEq α] (dflt own : α) (t : Tbl α) {k j : Nat} (v : α) (h : j ≠ k) :
    tget dflt (tset own t k v) j = tget dflt t j := by
  unfold tset
  split
  · exact tget_tdel_ne dflt t h
  · exact tget_tput_ne dflt t v h

/-- A read after a write, in one equation. -/
theorem tget_tset [DecidableEq α] (dflt : α) (t : Tbl α) (k j : Nat) (v : α) :
    tget dflt (tset dflt t k v) j = if j = k then v else tget dflt t j := by
  split
  · rename_i h
    rw [h, tget_tset_same]
  · rename_i h
    exact tget_tset_ne dflt dflt t v h

/-! ### The canonical form -/

theorem tsorted_some_iff (l : Nat) (t : Tbl α) : tsorted (some l) t = true ↔ tsorted none t = true ∧ ∀ e ∈ t, l < e.1 := by
  induction t generalizing l with
  | nil => simp [tsorted]
  | cons e t ih =>
    obtain ⟨a, w⟩ := e
    constructor
    · intro h
      simp only [tsorted, Bool.and_eq_true, decide_eq_true_eq] at h ⊢
      refine ⟨h.2, ?_⟩
      intro x hx
      rcases List.mem_cons.mp hx with h1 | h1
      · simp [h1, h.1]
      · exact lt_trans h.1 ((ih a).mp h.2 |>.2 x h1)
    · intro h
      simp only [tsorted, Bool.and_eq_true, decide_eq_true_eq] at h ⊢
      exact ⟨h.2 _ (List.mem_cons_self), h.1⟩

theorem tsorted_cons_iff (a : Nat) (w : α) (t : Tbl α) :
    tsorted none ((a, w) :: t) = true ↔ tsorted none t = true ∧ ∀ e ∈ t, a < e.1 := by
  rw [show tsorted none ((a, w) :: t) = tsorted (some a) t from rfl]
  exact tsorted_some_iff a t

theorem mem_tput {t : Tbl α} {k : Nat} {v : α} {e : Nat × α} (h : e ∈ tput t k v) : e = (k, v) ∨ e ∈ t := by
  induction t with
  | nil => simpa [tput] using h
  | cons x t ih =>
    obtain ⟨a, w⟩ := x
    unfold tput at h
    split at h
    · simpa using h
    · split at h
      · rcases List.mem_cons.mp h with h1 | h1
        · exact .inl h1
        · exact .inr (List.mem_cons_of_mem _ h1)
      · rcases List.mem_cons.mp h with h1 | h1
        · exact .inr (h1 ▸ List.mem_cons_self)
        · rcases ih h1 with h2 | h2
          · exact .inl h2
          · exact .inr (List.mem_cons_of_mem _ h2)

theorem mem_tdel {t : Tbl α} {k : Nat} {e : Nat × α} (h : e ∈ tdel t k) : e ∈ t := by
  induction t with
  | nil => simpa [tdel] using h
  | cons x t ih =>
    obtain ⟨a, w⟩ := x
    unfold tdel at h
    split at h
    · exact List.mem_cons_of_mem _ (ih h)
    · rcases List.mem_cons.mp h with h1 | h1
      · exact h1 ▸ List.mem_cons_self
      · exact List.mem_cons_of_mem _ (ih h1)

theorem tsorted_tput (t : Tbl α) (k : Nat) (v : α) (h : tsorted none t = true) : tsorted none (tput t k v) = true := by
  induction t with
  | nil => rfl
  | cons e t ih =>
    obtain ⟨a, w⟩ := e
    have h2 := (tsorted_cons_iff a w t).mp h
    unfold tput
    split
    · rename_i hk
      refine (tsorted_cons_iff k v _).mpr ⟨h, ?_⟩
      intro x hx
      rcases List.mem_cons.mp hx with h1 | h1
      · simpa [h1] using hk
      · exact lt_trans hk (h2.2 x h1)
    · split
      · rename_i hk
        exact (tsorted_cons_iff k v t).mpr ⟨h2.1, hk ▸ h2.2⟩
      · rename_i h3 h4
        refine (tsorted_cons_iff a w _).mpr ⟨ih h2.1, ?_⟩
        intro x hx
        rcases mem_tput hx with h1 | h1
        · simp only [h1]
          omega
        · exact h2.2 x h1

theorem tsorted_tdel (t : Tbl α) (k : Nat) (h : tsorted none t = true) : tsorted none (tdel t k) = true := by
  induction t with
  | nil => rfl
  | cons e t ih =>
    obtain ⟨a, w⟩ := e
    have h2 := (tsorted_cons_iff a w t).mp h
    unfold tdel
    split
    · exact ih h2.1
    · exact (tsorted_cons_iff a w _).mpr ⟨ih h2.1, fun x hx => h2.2 x (mem_tdel hx)⟩

/-- Every write keeps the canonical form. -/
theorem twf_tset [DecidableEq α] (dflt : α) (t : Tbl α) (k : Nat) (v : α) (h : twf dflt t = true) : twf dflt (tset dflt t k v) = true := by
  simp only [twf, Bool.and_eq_true, List.all_eq_true, decide_eq_true_eq] at h ⊢
  unfold tset
  split
  · exact ⟨tsorted_tdel t k h.1, fun e he => h.2 e (mem_tdel he)⟩
  · rename_i hv
    refine ⟨tsorted_tput t k v h.1, fun e he => ?_⟩
    rcases mem_tput he with h1 | h1
    · simpa [h1] using hv
    · exact h.2 e h1

end Sys2Proof.Machine
end

