-- ==== Sys2Proof/Laws/Regs.lean ====
section
/-! SUPPORT. The register file: what a field reads after a write of a field. -/
namespace Sys2Proof.Machine

/-- A register reads what was written to it. -/
@[simp] theorem Dev.reg_setReg_same (d : Dev) (a : Nat) (v : BitVec 32) : (d.setReg a v).reg a = v := by
  simp [Dev.reg, Dev.setReg]

/-- A write leaves every other register alone. -/
theorem Dev.reg_setReg_ne (d : Dev) {a b : Nat} (v : BitVec 32) (h : b ≠ a) : (d.setReg a v).reg b = d.reg b :=
  tget_tset_ne _ _ _ _ h

/-- A register after a write, in one equation. -/
theorem Dev.reg_setReg (d : Dev) (a b : Nat) (v : BitVec 32) : (d.setReg a v).reg b = if b = a then v else d.reg b := by
  split
  · rename_i h
    rw [h, Dev.reg_setReg_same]
  · rename_i h
    exact Dev.reg_setReg_ne d v h

/-- The register of a field after a write of the field. -/
theorem Dev.reg_wr (d : Dev) (f : Fld) (v b : Nat) :
    (d.wr f v).reg b = if b = f.addr then wput (d.reg f.addr) f.hi f.lo v else d.reg b := Dev.reg_setReg ..

theorem Dev.reg_wr_ne (d : Dev) (f : Fld) (v : Nat) {b : Nat} (h : b ≠ f.addr) : (d.wr f v).reg b = d.reg b :=
  Dev.reg_setReg_ne _ _ h

/-- A field of another register is left alone. -/
theorem Dev.rd_setReg_ne (d : Dev) (f : Fld) {a : Nat} (v : BitVec 32) (h : f.addr ≠ a) : (d.setReg a v).rd f = d.rd f := by
  simp [Dev.rd, Dev.reg_setReg_ne d v h]

theorem Dev.rd_wr_ne (d : Dev) (f g : Fld) (v : Nat) (h : g.addr ≠ f.addr) : (d.wr f v).rd g = d.rd g :=
  Dev.rd_setReg_ne _ _ _ h

/-! ### Bits of a word -/

/-- A number is what lies above, in and below a bit range. -/
theorem bits_split (x hi lo : Nat) (h : lo ≤ hi + 1) :
    x = x / 2 ^ (hi + 1) * 2 ^ (hi + 1) + bits x hi lo * 2 ^ lo + x % 2 ^ lo := by
  have h1 : 2 ^ (hi + 1) = 2 ^ lo * 2 ^ (hi + 1 - lo) := by rw [← pow_add]; congr 1; omega
  have h2 : x / 2 ^ (hi + 1) = x / 2 ^ lo / 2 ^ (hi + 1 - lo) := by rw [Nat.div_div_eq_div_mul, ← h1]
  have h3 := Nat.div_add_mod (x / 2 ^ lo) (2 ^ (hi + 1 - lo))
  have h4 := Nat.div_add_mod x (2 ^ lo)
  unfold bits
  rw [h2]
  calc x = 2 ^ lo * (x / 2 ^ lo) + x % 2 ^ lo := h4.symm
    _ = 2 ^ lo * (2 ^ (hi + 1 - lo) * (x / 2 ^ lo / 2 ^ (hi + 1 - lo)) + x / 2 ^ lo % 2 ^ (hi + 1 - lo)) + x % 2 ^ lo := by rw [h3]
    _ = _ := by rw [h1]; ring

/-- A number with a bit range replaced, as the part above, the new bits and the part below. -/
theorem wput_toNat (w : BitVec 32) (hi lo v : Nat) (h : lo ≤ hi + 1) (h32 : hi < 32) :
    (wput w hi lo v).toNat = w.toNat / 2 ^ (hi + 1) * 2 ^ (hi + 1) + v % 2 ^ (hi + 1 - lo) * 2 ^ lo + w.toNat % 2 ^ lo := by
  have hs := bits_split w.toNat hi lo h
  have hw := w.isLt
  have h1 : 2 ^ (hi + 1) = 2 ^ (hi + 1 - lo) * 2 ^ lo := by rw [← pow_add]; congr 1; omega
  have hv : v % 2 ^ (hi + 1 - lo) < 2 ^ (hi + 1 - lo) := Nat.mod_lt _ (by positivity)
  have hl : w.toNat % 2 ^ lo < 2 ^ lo := Nat.mod_lt _ (by positivity)
  have hb : v % 2 ^ (hi + 1 - lo) * 2 ^ lo + w.toNat % 2 ^ lo < 2 ^ (hi + 1) := by
    rw [h1]
    calc _ < v % 2 ^ (hi + 1 - lo) * 2 ^ lo + 2 ^ lo := by omega
      _ = (v % 2 ^ (hi + 1 - lo) + 1) * 2 ^ lo := by ring
      _ ≤ _ := Nat.mul_le_mul_right _ hv
  have hq : w.toNat / 2 ^ (hi + 1) * 2 ^ (hi + 1) + 2 ^ (hi + 1) ≤ 2 ^ 32 := by
    have h2 : 2 ^ 32 = 2 ^ (31 - hi) * 2 ^ (hi + 1) := by rw [← pow_add]; congr 1; omega
    have h3 : w.toNat / 2 ^ (hi + 1) < 2 ^ (31 - hi) := by
      rw [Nat.div_lt_iff_lt_mul (by positivity)]; omega
    rw [h2]
    calc _ = (w.toNat / 2 ^ (hi + 1) + 1) * 2 ^ (hi + 1) := by ring
      _ ≤ _ := Nat.mul_le_mul_right _ h3
  unfold wput w32
  rw [BitVec.toNat_ofNat, Nat.mod_eq_of_lt]
  · omega
  · omega

/-- A bit range that lies in a number below another. -/
theorem bits_put_same (q v r hi lo : Nat) (hr : r < 2 ^ lo) (hv : v < 2 ^ (hi + 1 - lo)) (h : lo ≤ hi + 1) :
    bits (q * 2 ^ (hi + 1) + v * 2 ^ lo + r) hi lo = v := by
  have h1 : 2 ^ (hi + 1) = 2 ^ (hi + 1 - lo) * 2 ^ lo := by rw [← pow_add]; congr 1; omega
  unfold bits
  have h2 : q * 2 ^ (hi + 1) + v * 2 ^ lo + r = r + (v + q * 2 ^ (hi + 1 - lo)) * 2 ^ lo := by rw [h1]; ring
  rw [h2, Nat.add_mul_div_right _ _ (by positivity), Nat.div_eq_of_lt hr, zero_add, Nat.add_mul_mod_self_right, Nat.mod_eq_of_lt hv]

/-- A field reads what was written to it, modulo its width. -/
theorem wbits_wput_same (w : BitVec 32) (hi lo v : Nat) (h : lo ≤ hi + 1) (h32 : hi < 32) :
    wbits (wput w hi lo v) hi lo = v % 2 ^ (hi + 1 - lo) := by
  unfold wbits
  rw [wput_toNat w hi lo v h h32]
  exact bits_put_same _ _ _ _ _ (Nat.mod_lt _ (by positivity)) (Nat.mod_lt _ (by positivity)) h

/-- A field above or below the written one is left alone. -/
theorem wbits_wput_disjoint (w : BitVec 32) (hi lo v hi2 lo2 : Nat) (h : lo ≤ hi + 1) (h32 : hi < 32) (hd : hi < lo2 ∨ hi2 < lo) :
    wbits (wput w hi lo v) hi2 lo2 = wbits w hi2 lo2 := by
  have hs := bits_split w.toNat hi lo h
  unfold wbits
  rw [wput_toNat w hi lo v h h32]
  have h1 : 2 ^ (hi + 1) = 2 ^ (hi + 1 - lo) * 2 ^ lo := by rw [← pow_add]; congr 1; omega
  have hl : w.toNat % 2 ^ lo < 2 ^ lo := Nat.mod_lt _ (by positivity)
  have lt : ∀ b, b < 2 ^ (hi + 1 - lo) → b * 2 ^ lo + w.toNat % 2 ^ lo < 2 ^ (hi + 1) := by
    intro b hb
    rw [h1]
    calc _ < b * 2 ^ lo + 2 ^ lo := by omega
      _ = (b + 1) * 2 ^ lo := by ring
      _ ≤ _ := Nat.mul_le_mul_right _ hb
  unfold bits
  rcases hd with hd | hd
  · have e : ∀ b, b < 2 ^ (hi + 1 - lo) →
        (w.toNat / 2 ^ (hi + 1) * 2 ^ (hi + 1) + b * 2 ^ lo + w.toNat % 2 ^ lo) / 2 ^ lo2 = w.toNat / 2 ^ (hi + 1) / 2 ^ (lo2 - (hi + 1)) := by
      intro b hb
      have h3 : 2 ^ lo2 = 2 ^ (hi + 1) * 2 ^ (lo2 - (hi + 1)) := by rw [← pow_add]; congr 1; omega
      rw [h3, ← Nat.div_div_eq_div_mul]
      congr 1
      rw [add_assoc, Nat.add_comm, Nat.add_mul_div_right _ _ (by positivity), Nat.div_eq_of_lt (lt b hb), zero_add]
    rw [e _ (Nat.mod_lt _ (by positivity))]
    congr 1
    rw [Nat.div_div_eq_div_mul, ← pow_add]
    congr 2
    omega
  · have e : ∀ c, (c * 2 ^ lo + w.toNat % 2 ^ lo) / 2 ^ lo2 % 2 ^ (hi2 + 1 - lo2) = w.toNat % 2 ^ lo / 2 ^ lo2 % 2 ^ (hi2 + 1 - lo2) := by
      intro c
      by_cases hc : lo2 ≤ hi2 + 1
      · have h3 : 2 ^ lo = 2 ^ (lo - (hi2 + 1)) * 2 ^ (hi2 + 1 - lo2) * 2 ^ lo2 := by
          rw [← pow_add, ← pow_add]; congr 1; omega
        have h4 : c * 2 ^ lo = (c * 2 ^ (lo - (hi2 + 1)) * 2 ^ (hi2 + 1 - lo2)) * 2 ^ lo2 := by
          conv_lhs => rw [h3]
          ring
        rw [h4, Nat.add_comm, Nat.add_mul_div_right _ _ (by positivity), Nat.add_mul_mod_self_right]
      · have : hi2 + 1 - lo2 = 0 := by omega
        simp [this, Nat.mod_one]
    have e2 := Nat.div_add_mod w.toNat (2 ^ lo)
    have a : w.toNat / 2 ^ (hi + 1) * 2 ^ (hi + 1) + v % 2 ^ (hi + 1 - lo) * 2 ^ lo + w.toNat % 2 ^ lo =
        (w.toNat / 2 ^ (hi + 1) * 2 ^ (hi + 1 - lo) + v % 2 ^ (hi + 1 - lo)) * 2 ^ lo + w.toNat % 2 ^ lo := by rw [h1]; ring
    rw [a, e]
    conv_rhs => rw [← e2, Nat.mul_comm]
    rw [e]

/-- A field reads what was written to it. -/
theorem Dev.rd_wr_same (d : Dev) (f : Fld) (v : Nat) (h : f.lo ≤ f.hi + 1) (h32 : f.hi < 32) :
    (d.wr f v).rd f = v % 2 ^ (f.hi + 1 - f.lo) := by
  simp only [Dev.rd, Dev.wr, Dev.reg_setReg_same]
  exact wbits_wput_same _ _ _ _ h h32

/-- A field that does not overlap the written one is left alone. -/
theorem Dev.rd_wr_disjoint (d : Dev) (f g : Fld) (v : Nat) (h : f.lo ≤ f.hi + 1) (h32 : f.hi < 32)
    (hd : g.addr ≠ f.addr ∨ f.hi < g.lo ∨ g.hi < f.lo) : (d.wr f v).rd g = d.rd g := by
  by_cases ha : g.addr = f.addr
  · simp only [Dev.rd, Dev.wr, ha, Dev.reg_setReg_same]
    exact wbits_wput_disjoint _ _ _ _ _ _ h h32 (hd.resolve_left (fun x => x ha))
  · exact Dev.rd_wr_ne d f g v ha

end Sys2Proof.Machine
end

