-- ==== Sys2Proof/Laws/State.lean ====
section
/-! SUPPORT. The shared updates of the block, field by field: each leaves every field but its own as it was (all by rfl). -/
namespace Sys2Proof.Machine

/-! ### setReg -/

@[simp] theorem Dev.now_setReg (d : Dev) (a : Nat) (v : BitVec 32) : (d.setReg a v).now = d.now := rfl
@[simp] theorem Dev.mem_setReg (d : Dev) (a : Nat) (v : BitVec 32) : (d.setReg a v).mem = d.mem := rfl
@[simp] theorem Dev.flags_setReg (d : Dev) (a : Nat) (v : BitVec 32) : (d.setReg a v).flags = d.flags := rfl
@[simp] theorem Dev.hmem_setReg (d : Dev) (a : Nat) (v : BitVec 32) : (d.setReg a v).hmem = d.hmem := rfl
@[simp] theorem Dev.ang_setReg (d : Dev) (a : Nat) (v : BitVec 32) : (d.setReg a v).ang = d.ang := rfl
@[simp] theorem Dev.ev_setReg (d : Dev) (a : Nat) (v : BitVec 32) : (d.setReg a v).ev = d.ev := rfl
@[simp] theorem Dev.conEvents_setReg (d : Dev) (a : Nat) (v : BitVec 32) : (d.setReg a v).conEvents = d.conEvents := rfl
@[simp] theorem Dev.free_setReg (d : Dev) (a : Nat) (v : BitVec 32) : (d.setReg a v).free = d.free := rfl
@[simp] theorem Dev.isles_setReg (d : Dev) (a : Nat) (v : BitVec 32) : (d.setReg a v).isles = d.isles := rfl
@[simp] theorem Dev.lane_setReg (d : Dev) (a : Nat) (v : BitVec 32) : (d.setReg a v).lane = d.lane := rfl
@[simp] theorem Dev.ahd_setReg (d : Dev) (a : Nat) (v : BitVec 32) : (d.setReg a v).ahd = d.ahd := rfl
@[simp] theorem Dev.schedIn_setReg (d : Dev) (a : Nat) (v : BitVec 32) : (d.setReg a v).schedIn = d.schedIn := rfl
@[simp] theorem Dev.schedWait_setReg (d : Dev) (a : Nat) (v : BitVec 32) : (d.setReg a v).schedWait = d.schedWait := rfl
@[simp] theorem Dev.integ_setReg (d : Dev) (a : Nat) (v : BitVec 32) : (d.setReg a v).integ = d.integ := rfl
@[simp] theorem Dev.preds_setReg (d : Dev) (a : Nat) (v : BitVec 32) : (d.setReg a v).preds = d.preds := rfl
@[simp] theorem Dev.hb_setReg (d : Dev) (a : Nat) (v : BitVec 32) : (d.setReg a v).hb = d.hb := rfl
@[simp] theorem Dev.rdData_setReg (d : Dev) (a : Nat) (v : BitVec 32) : (d.setReg a v).rdData = d.rdData := rfl
@[simp] theorem Dev.cores_setReg (d : Dev) (a : Nat) (v : BitVec 32) : (d.setReg a v).cores = d.cores := rfl
@[simp] theorem Dev.mmu_setReg (d : Dev) (a : Nat) (v : BitVec 32) : (d.setReg a v).mmu = d.mmu := rfl
@[simp] theorem Dev.sched_setReg (d : Dev) (a : Nat) (v : BitVec 32) : (d.setReg a v).sched = d.sched := rfl
@[simp] theorem Dev.net_setReg (d : Dev) (a : Nat) (v : BitVec 32) : (d.setReg a v).net = d.net := rfl
@[simp] theorem Dev.dram_setReg (d : Dev) (a : Nat) (v : BitVec 32) : (d.setReg a v).dram = d.dram := rfl
@[simp] theorem Dev.cfg_setReg (d : Dev) (a : Nat) (v : BitVec 32) : (d.setReg a v).cfg = d.cfg := rfl
@[simp] theorem Dev.power_setReg (d : Dev) (a : Nat) (v : BitVec 32) : (d.setReg a v).power = d.power := rfl
@[simp] theorem Dev.mail_setReg (d : Dev) (a : Nat) (v : BitVec 32) : (d.setReg a v).mail = d.mail := rfl
@[simp] theorem Dev.eth_setReg (d : Dev) (a : Nat) (v : BitVec 32) : (d.setReg a v).eth = d.eth := rfl
@[simp] theorem Dev.ser_setReg (d : Dev) (a : Nat) (v : BitVec 32) : (d.setReg a v).ser = d.ser := rfl

/-! ### wr -/

@[simp] theorem Dev.now_wr (d : Dev) (f : Fld) (v : Nat) : (d.wr f v).now = d.now := rfl
@[simp] theorem Dev.mem_wr (d : Dev) (f : Fld) (v : Nat) : (d.wr f v).mem = d.mem := rfl
@[simp] theorem Dev.flags_wr (d : Dev) (f : Fld) (v : Nat) : (d.wr f v).flags = d.flags := rfl
@[simp] theorem Dev.hmem_wr (d : Dev) (f : Fld) (v : Nat) : (d.wr f v).hmem = d.hmem := rfl
@[simp] theorem Dev.ang_wr (d : Dev) (f : Fld) (v : Nat) : (d.wr f v).ang = d.ang := rfl
@[simp] theorem Dev.ev_wr (d : Dev) (f : Fld) (v : Nat) : (d.wr f v).ev = d.ev := rfl
@[simp] theorem Dev.conEvents_wr (d : Dev) (f : Fld) (v : Nat) : (d.wr f v).conEvents = d.conEvents := rfl
@[simp] theorem Dev.free_wr (d : Dev) (f : Fld) (v : Nat) : (d.wr f v).free = d.free := rfl
@[simp] theorem Dev.isles_wr (d : Dev) (f : Fld) (v : Nat) : (d.wr f v).isles = d.isles := rfl
@[simp] theorem Dev.lane_wr (d : Dev) (f : Fld) (v : Nat) : (d.wr f v).lane = d.lane := rfl
@[simp] theorem Dev.ahd_wr (d : Dev) (f : Fld) (v : Nat) : (d.wr f v).ahd = d.ahd := rfl
@[simp] theorem Dev.schedIn_wr (d : Dev) (f : Fld) (v : Nat) : (d.wr f v).schedIn = d.schedIn := rfl
@[simp] theorem Dev.schedWait_wr (d : Dev) (f : Fld) (v : Nat) : (d.wr f v).schedWait = d.schedWait := rfl
@[simp] theorem Dev.integ_wr (d : Dev) (f : Fld) (v : Nat) : (d.wr f v).integ = d.integ := rfl
@[simp] theorem Dev.preds_wr (d : Dev) (f : Fld) (v : Nat) : (d.wr f v).preds = d.preds := rfl
@[simp] theorem Dev.hb_wr (d : Dev) (f : Fld) (v : Nat) : (d.wr f v).hb = d.hb := rfl
@[simp] theorem Dev.rdData_wr (d : Dev) (f : Fld) (v : Nat) : (d.wr f v).rdData = d.rdData := rfl
@[simp] theorem Dev.cores_wr (d : Dev) (f : Fld) (v : Nat) : (d.wr f v).cores = d.cores := rfl
@[simp] theorem Dev.mmu_wr (d : Dev) (f : Fld) (v : Nat) : (d.wr f v).mmu = d.mmu := rfl
@[simp] theorem Dev.sched_wr (d : Dev) (f : Fld) (v : Nat) : (d.wr f v).sched = d.sched := rfl
@[simp] theorem Dev.net_wr (d : Dev) (f : Fld) (v : Nat) : (d.wr f v).net = d.net := rfl
@[simp] theorem Dev.dram_wr (d : Dev) (f : Fld) (v : Nat) : (d.wr f v).dram = d.dram := rfl
@[simp] theorem Dev.cfg_wr (d : Dev) (f : Fld) (v : Nat) : (d.wr f v).cfg = d.cfg := rfl
@[simp] theorem Dev.power_wr (d : Dev) (f : Fld) (v : Nat) : (d.wr f v).power = d.power := rfl
@[simp] theorem Dev.mail_wr (d : Dev) (f : Fld) (v : Nat) : (d.wr f v).mail = d.mail := rfl
@[simp] theorem Dev.eth_wr (d : Dev) (f : Fld) (v : Nat) : (d.wr f v).eth = d.eth := rfl
@[simp] theorem Dev.ser_wr (d : Dev) (f : Fld) (v : Nat) : (d.wr f v).ser = d.ser := rfl

/-! ### wrb -/

@[simp] theorem Dev.now_wrb (d : Dev) (f : Fld) (b : Bool) : (d.wrb f b).now = d.now := rfl
@[simp] theorem Dev.mem_wrb (d : Dev) (f : Fld) (b : Bool) : (d.wrb f b).mem = d.mem := rfl
@[simp] theorem Dev.flags_wrb (d : Dev) (f : Fld) (b : Bool) : (d.wrb f b).flags = d.flags := rfl
@[simp] theorem Dev.hmem_wrb (d : Dev) (f : Fld) (b : Bool) : (d.wrb f b).hmem = d.hmem := rfl
@[simp] theorem Dev.ang_wrb (d : Dev) (f : Fld) (b : Bool) : (d.wrb f b).ang = d.ang := rfl
@[simp] theorem Dev.ev_wrb (d : Dev) (f : Fld) (b : Bool) : (d.wrb f b).ev = d.ev := rfl
@[simp] theorem Dev.conEvents_wrb (d : Dev) (f : Fld) (b : Bool) : (d.wrb f b).conEvents = d.conEvents := rfl
@[simp] theorem Dev.free_wrb (d : Dev) (f : Fld) (b : Bool) : (d.wrb f b).free = d.free := rfl
@[simp] theorem Dev.isles_wrb (d : Dev) (f : Fld) (b : Bool) : (d.wrb f b).isles = d.isles := rfl
@[simp] theorem Dev.lane_wrb (d : Dev) (f : Fld) (b : Bool) : (d.wrb f b).lane = d.lane := rfl
@[simp] theorem Dev.ahd_wrb (d : Dev) (f : Fld) (b : Bool) : (d.wrb f b).ahd = d.ahd := rfl
@[simp] theorem Dev.schedIn_wrb (d : Dev) (f : Fld) (b : Bool) : (d.wrb f b).schedIn = d.schedIn := rfl
@[simp] theorem Dev.schedWait_wrb (d : Dev) (f : Fld) (b : Bool) : (d.wrb f b).schedWait = d.schedWait := rfl
@[simp] theorem Dev.integ_wrb (d : Dev) (f : Fld) (b : Bool) : (d.wrb f b).integ = d.integ := rfl
@[simp] theorem Dev.preds_wrb (d : Dev) (f : Fld) (b : Bool) : (d.wrb f b).preds = d.preds := rfl
@[simp] theorem Dev.hb_wrb (d : Dev) (f : Fld) (b : Bool) : (d.wrb f b).hb = d.hb := rfl
@[simp] theorem Dev.rdData_wrb (d : Dev) (f : Fld) (b : Bool) : (d.wrb f b).rdData = d.rdData := rfl
@[simp] theorem Dev.cores_wrb (d : Dev) (f : Fld) (b : Bool) : (d.wrb f b).cores = d.cores := rfl
@[simp] theorem Dev.mmu_wrb (d : Dev) (f : Fld) (b : Bool) : (d.wrb f b).mmu = d.mmu := rfl
@[simp] theorem Dev.sched_wrb (d : Dev) (f : Fld) (b : Bool) : (d.wrb f b).sched = d.sched := rfl
@[simp] theorem Dev.net_wrb (d : Dev) (f : Fld) (b : Bool) : (d.wrb f b).net = d.net := rfl
@[simp] theorem Dev.dram_wrb (d : Dev) (f : Fld) (b : Bool) : (d.wrb f b).dram = d.dram := rfl
@[simp] theorem Dev.cfg_wrb (d : Dev) (f : Fld) (b : Bool) : (d.wrb f b).cfg = d.cfg := rfl
@[simp] theorem Dev.power_wrb (d : Dev) (f : Fld) (b : Bool) : (d.wrb f b).power = d.power := rfl
@[simp] theorem Dev.mail_wrb (d : Dev) (f : Fld) (b : Bool) : (d.wrb f b).mail = d.mail := rfl
@[simp] theorem Dev.eth_wrb (d : Dev) (f : Fld) (b : Bool) : (d.wrb f b).eth = d.eth := rfl
@[simp] theorem Dev.ser_wrb (d : Dev) (f : Fld) (b : Bool) : (d.wrb f b).ser = d.ser := rfl

/-! ### setByte -/

@[simp] theorem Dev.now_setByte (d : Dev) (a : Nat) (v : BitVec 8) : (d.setByte a v).now = d.now := rfl
@[simp] theorem Dev.regs_setByte (d : Dev) (a : Nat) (v : BitVec 8) : (d.setByte a v).regs = d.regs := rfl
@[simp] theorem Dev.hmem_setByte (d : Dev) (a : Nat) (v : BitVec 8) : (d.setByte a v).hmem = d.hmem := rfl
@[simp] theorem Dev.ang_setByte (d : Dev) (a : Nat) (v : BitVec 8) : (d.setByte a v).ang = d.ang := rfl
@[simp] theorem Dev.ev_setByte (d : Dev) (a : Nat) (v : BitVec 8) : (d.setByte a v).ev = d.ev := rfl
@[simp] theorem Dev.conEvents_setByte (d : Dev) (a : Nat) (v : BitVec 8) : (d.setByte a v).conEvents = d.conEvents := rfl
@[simp] theorem Dev.free_setByte (d : Dev) (a : Nat) (v : BitVec 8) : (d.setByte a v).free = d.free := rfl
@[simp] theorem Dev.isles_setByte (d : Dev) (a : Nat) (v : BitVec 8) : (d.setByte a v).isles = d.isles := rfl
@[simp] theorem Dev.lane_setByte (d : Dev) (a : Nat) (v : BitVec 8) : (d.setByte a v).lane = d.lane := rfl
@[simp] theorem Dev.ahd_setByte (d : Dev) (a : Nat) (v : BitVec 8) : (d.setByte a v).ahd = d.ahd := rfl
@[simp] theorem Dev.schedIn_setByte (d : Dev) (a : Nat) (v : BitVec 8) : (d.setByte a v).schedIn = d.schedIn := rfl
@[simp] theorem Dev.schedWait_setByte (d : Dev) (a : Nat) (v : BitVec 8) : (d.setByte a v).schedWait = d.schedWait := rfl
@[simp] theorem Dev.integ_setByte (d : Dev) (a : Nat) (v : BitVec 8) : (d.setByte a v).integ = d.integ := rfl
@[simp] theorem Dev.preds_setByte (d : Dev) (a : Nat) (v : BitVec 8) : (d.setByte a v).preds = d.preds := rfl
@[simp] theorem Dev.hb_setByte (d : Dev) (a : Nat) (v : BitVec 8) : (d.setByte a v).hb = d.hb := rfl
@[simp] theorem Dev.rdData_setByte (d : Dev) (a : Nat) (v : BitVec 8) : (d.setByte a v).rdData = d.rdData := rfl
@[simp] theorem Dev.cores_setByte (d : Dev) (a : Nat) (v : BitVec 8) : (d.setByte a v).cores = d.cores := rfl
@[simp] theorem Dev.mmu_setByte (d : Dev) (a : Nat) (v : BitVec 8) : (d.setByte a v).mmu = d.mmu := rfl
@[simp] theorem Dev.sched_setByte (d : Dev) (a : Nat) (v : BitVec 8) : (d.setByte a v).sched = d.sched := rfl
@[simp] theorem Dev.net_setByte (d : Dev) (a : Nat) (v : BitVec 8) : (d.setByte a v).net = d.net := rfl
@[simp] theorem Dev.dram_setByte (d : Dev) (a : Nat) (v : BitVec 8) : (d.setByte a v).dram = d.dram := rfl
@[simp] theorem Dev.cfg_setByte (d : Dev) (a : Nat) (v : BitVec 8) : (d.setByte a v).cfg = d.cfg := rfl
@[simp] theorem Dev.power_setByte (d : Dev) (a : Nat) (v : BitVec 8) : (d.setByte a v).power = d.power := rfl
@[simp] theorem Dev.mail_setByte (d : Dev) (a : Nat) (v : BitVec 8) : (d.setByte a v).mail = d.mail := rfl
@[simp] theorem Dev.eth_setByte (d : Dev) (a : Nat) (v : BitVec 8) : (d.setByte a v).eth = d.eth := rfl
@[simp] theorem Dev.ser_setByte (d : Dev) (a : Nat) (v : BitVec 8) : (d.setByte a v).ser = d.ser := rfl

/-! ### setAd -/

@[simp] theorem Dev.now_setAd (d : Dev) (n : Nat) (t : Tracker) : (d.setAd n t).now = d.now := rfl
@[simp] theorem Dev.regs_setAd (d : Dev) (n : Nat) (t : Tracker) : (d.setAd n t).regs = d.regs := rfl
@[simp] theorem Dev.mem_setAd (d : Dev) (n : Nat) (t : Tracker) : (d.setAd n t).mem = d.mem := rfl
@[simp] theorem Dev.flags_setAd (d : Dev) (n : Nat) (t : Tracker) : (d.setAd n t).flags = d.flags := rfl
@[simp] theorem Dev.hmem_setAd (d : Dev) (n : Nat) (t : Tracker) : (d.setAd n t).hmem = d.hmem := rfl
@[simp] theorem Dev.ev_setAd (d : Dev) (n : Nat) (t : Tracker) : (d.setAd n t).ev = d.ev := rfl
@[simp] theorem Dev.conEvents_setAd (d : Dev) (n : Nat) (t : Tracker) : (d.setAd n t).conEvents = d.conEvents := rfl
@[simp] theorem Dev.free_setAd (d : Dev) (n : Nat) (t : Tracker) : (d.setAd n t).free = d.free := rfl
@[simp] theorem Dev.isles_setAd (d : Dev) (n : Nat) (t : Tracker) : (d.setAd n t).isles = d.isles := rfl
@[simp] theorem Dev.lane_setAd (d : Dev) (n : Nat) (t : Tracker) : (d.setAd n t).lane = d.lane := rfl
@[simp] theorem Dev.ahd_setAd (d : Dev) (n : Nat) (t : Tracker) : (d.setAd n t).ahd = d.ahd := rfl
@[simp] theorem Dev.schedIn_setAd (d : Dev) (n : Nat) (t : Tracker) : (d.setAd n t).schedIn = d.schedIn := rfl
@[simp] theorem Dev.schedWait_setAd (d : Dev) (n : Nat) (t : Tracker) : (d.setAd n t).schedWait = d.schedWait := rfl
@[simp] theorem Dev.integ_setAd (d : Dev) (n : Nat) (t : Tracker) : (d.setAd n t).integ = d.integ := rfl
@[simp] theorem Dev.preds_setAd (d : Dev) (n : Nat) (t : Tracker) : (d.setAd n t).preds = d.preds := rfl
@[simp] theorem Dev.hb_setAd (d : Dev) (n : Nat) (t : Tracker) : (d.setAd n t).hb = d.hb := rfl
@[simp] theorem Dev.rdData_setAd (d : Dev) (n : Nat) (t : Tracker) : (d.setAd n t).rdData = d.rdData := rfl
@[simp] theorem Dev.cores_setAd (d : Dev) (n : Nat) (t : Tracker) : (d.setAd n t).cores = d.cores := rfl
@[simp] theorem Dev.mmu_setAd (d : Dev) (n : Nat) (t : Tracker) : (d.setAd n t).mmu = d.mmu := rfl
@[simp] theorem Dev.sched_setAd (d : Dev) (n : Nat) (t : Tracker) : (d.setAd n t).sched = d.sched := rfl
@[simp] theorem Dev.net_setAd (d : Dev) (n : Nat) (t : Tracker) : (d.setAd n t).net = d.net := rfl
@[simp] theorem Dev.dram_setAd (d : Dev) (n : Nat) (t : Tracker) : (d.setAd n t).dram = d.dram := rfl
@[simp] theorem Dev.cfg_setAd (d : Dev) (n : Nat) (t : Tracker) : (d.setAd n t).cfg = d.cfg := rfl
@[simp] theorem Dev.power_setAd (d : Dev) (n : Nat) (t : Tracker) : (d.setAd n t).power = d.power := rfl
@[simp] theorem Dev.mail_setAd (d : Dev) (n : Nat) (t : Tracker) : (d.setAd n t).mail = d.mail := rfl
@[simp] theorem Dev.eth_setAd (d : Dev) (n : Nat) (t : Tracker) : (d.setAd n t).eth = d.eth := rfl
@[simp] theorem Dev.ser_setAd (d : Dev) (n : Nat) (t : Tracker) : (d.setAd n t).ser = d.ser := rfl

/-! ### setIsle -/

@[simp] theorem Dev.now_setIsle (d : Dev) (n : Nat) (i : Isle) : (d.setIsle n i).now = d.now := rfl
@[simp] theorem Dev.regs_setIsle (d : Dev) (n : Nat) (i : Isle) : (d.setIsle n i).regs = d.regs := rfl
@[simp] theorem Dev.mem_setIsle (d : Dev) (n : Nat) (i : Isle) : (d.setIsle n i).mem = d.mem := rfl
@[simp] theorem Dev.flags_setIsle (d : Dev) (n : Nat) (i : Isle) : (d.setIsle n i).flags = d.flags := rfl
@[simp] theorem Dev.hmem_setIsle (d : Dev) (n : Nat) (i : Isle) : (d.setIsle n i).hmem = d.hmem := rfl
@[simp] theorem Dev.ang_setIsle (d : Dev) (n : Nat) (i : Isle) : (d.setIsle n i).ang = d.ang := rfl
@[simp] theorem Dev.ev_setIsle (d : Dev) (n : Nat) (i : Isle) : (d.setIsle n i).ev = d.ev := rfl
@[simp] theorem Dev.conEvents_setIsle (d : Dev) (n : Nat) (i : Isle) : (d.setIsle n i).conEvents = d.conEvents := rfl
@[simp] theorem Dev.free_setIsle (d : Dev) (n : Nat) (i : Isle) : (d.setIsle n i).free = d.free := rfl
@[simp] theorem Dev.lane_setIsle (d : Dev) (n : Nat) (i : Isle) : (d.setIsle n i).lane = d.lane := rfl
@[simp] theorem Dev.ahd_setIsle (d : Dev) (n : Nat) (i : Isle) : (d.setIsle n i).ahd = d.ahd := rfl
@[simp] theorem Dev.schedIn_setIsle (d : Dev) (n : Nat) (i : Isle) : (d.setIsle n i).schedIn = d.schedIn := rfl
@[simp] theorem Dev.schedWait_setIsle (d : Dev) (n : Nat) (i : Isle) : (d.setIsle n i).schedWait = d.schedWait := rfl
@[simp] theorem Dev.integ_setIsle (d : Dev) (n : Nat) (i : Isle) : (d.setIsle n i).integ = d.integ := rfl
@[simp] theorem Dev.preds_setIsle (d : Dev) (n : Nat) (i : Isle) : (d.setIsle n i).preds = d.preds := rfl
@[simp] theorem Dev.hb_setIsle (d : Dev) (n : Nat) (i : Isle) : (d.setIsle n i).hb = d.hb := rfl
@[simp] theorem Dev.rdData_setIsle (d : Dev) (n : Nat) (i : Isle) : (d.setIsle n i).rdData = d.rdData := rfl
@[simp] theorem Dev.cores_setIsle (d : Dev) (n : Nat) (i : Isle) : (d.setIsle n i).cores = d.cores := rfl
@[simp] theorem Dev.mmu_setIsle (d : Dev) (n : Nat) (i : Isle) : (d.setIsle n i).mmu = d.mmu := rfl
@[simp] theorem Dev.sched_setIsle (d : Dev) (n : Nat) (i : Isle) : (d.setIsle n i).sched = d.sched := rfl
@[simp] theorem Dev.net_setIsle (d : Dev) (n : Nat) (i : Isle) : (d.setIsle n i).net = d.net := rfl
@[simp] theorem Dev.dram_setIsle (d : Dev) (n : Nat) (i : Isle) : (d.setIsle n i).dram = d.dram := rfl
@[simp] theorem Dev.cfg_setIsle (d : Dev) (n : Nat) (i : Isle) : (d.setIsle n i).cfg = d.cfg := rfl
@[simp] theorem Dev.power_setIsle (d : Dev) (n : Nat) (i : Isle) : (d.setIsle n i).power = d.power := rfl
@[simp] theorem Dev.mail_setIsle (d : Dev) (n : Nat) (i : Isle) : (d.setIsle n i).mail = d.mail := rfl
@[simp] theorem Dev.eth_setIsle (d : Dev) (n : Nat) (i : Isle) : (d.setIsle n i).eth = d.eth := rfl
@[simp] theorem Dev.ser_setIsle (d : Dev) (n : Nat) (i : Isle) : (d.setIsle n i).ser = d.ser := rfl

end Sys2Proof.Machine
end

