-- ==== Sys2Proof/Safety.lean ====
section
/-! DEFINITION. What counts as a safe state and a safe run of the block. -/
namespace Sys2Proof.Machine

/-- A state is safe when its next step answers a next state: nothing stops and nothing is refused. -/
def Safe (s : State) : Prop := ∃ t, step s = .next t

/-- A run of `n` steps from `s` stays safe. -/
def SafeRun : Nat → State → Prop
  | 0, _ => True
  | n + 1, s => ∃ t, step s = .next t ∧ SafeRun n t

end Sys2Proof.Machine
end

