-- ==== Sys2Proof/Certificates/Slice0/Obligations.lean ====
section
/-! DEFINITION. The statements for the provers. -/

open Sys2Proof Sys2Proof.Machine

/-- The command `c` on block `d` answers a next state with block `e`, whatever waits and whatever the non-volatile memory holds (both stay as
they are), and `e` satisfies `p`. -/
def Sys2Proof.Machine.On (c : Instr) (d : Dev) (p : Dev → Prop) : Prop :=
  ∀ q nv, ∃ e, exec c { pending := q, nv := nv, dev := d } = .next { pending := q, nv := nv, dev := e } ∧ p e

/-- Nothing of the block changes but registers, and of those only the listed ones; with them may change the note of the W1C bits that hardware has set
in this ACLK (R5). -/
def Sys2Proof.Machine.OnlyRegs (l : List Nat) (d e : Dev) : Prop :=
  e = { d with regs := e.regs, flags := e.flags } ∧ ∀ a, a ∉ l → e.reg a = d.reg a

/-- No register changes but the listed ones. -/
def Sys2Proof.Machine.RegsBut (l : List Nat) (d e : Dev) : Prop := ∀ a, a ∉ l → e.reg a = d.reg a

/-- Cell `c` of isle `n` issues the context word `w` at index `idx` in this ACLK: it runs, the isle is live, the word is well formed and holds no bit
error, its activation carries no run-ahead mark, and no pre-emption waits in the isle. -/
def Sys2Proof.Machine.Dev.cellAt (d : Dev) (n c idx : Nat) (w : Ctx) : Bool :=
  decide (d.issueAt n c = some idx) && decide (Ctx.decode ((d.isle n).ctxWord false c idx) = w) && !w.malformed &&
  decide (d.wordErr (ctxKey (d.isle n).copy n c idx 0) = 0) && decide (d.wordErr (ctxKey (d.isle n).copy n c idx 1) = 0) &&
  decide (((d.isle n).grp ((d.isle n).cell c).group).ra = none) && decide ((d.isle n).pre = [])

/-- A context of opcode `op` and mode `mode` whose operands and destination are w0 to w7, without shift, saturation, post-step, token or branch. -/
def Sys2Proof.Machine.plainCtx (op mode : Nat) (w : Ctx) : Bool :=
  decide (w.op.toNat = op ∧ w.mode.toNat = mode ∧ w.seq = 0 ∧ w.pstep = 0 ∧ w.tok = 0 ∧ w.shf = 0 ∧ w.sat = 0 ∧ w.dst.toNat < 8 ∧ w.sa.toNat < 8 ∧
    w.sb.toNat < 8 ∧ w.sc.toNat < 8)

/-- The block after cell `c` of isle `n` has issued `w` at index `idx`: the cell runs its NEXT in the next ACLK, the effects `es` are on their way, visible in
both copies `k` ACLK later, and the decode cache holds what R76 says. -/
def Sys2Proof.Machine.cellIssued (n c idx k : Nat) (w : Ctx) (es : List CEff) (d : Dev) : Dev :=
  let rs := es.map (fun e => { due := d.now + k * d.step n, both := true, eff := e : CRes })
  d.modCell n c (fun x => { x with mode := .run w.next.toNat, nextAt := d.now + d.step n, pend := x.pend ++ rs,
                                   dcache := cacheIssue (x.pass.any (fun e => e.2 = 1)) idx x.dcache })

/-- What a stored result is: the destination, the flags of Table 04-7, the cell output. -/
def Sys2Proof.Machine.storedEffs (w : Ctx) (v : BitVec 32) (ov : Bool) (cy : Option Bool) : List CEff :=
  [.reg w.dst.toNat v, .flags (resultFlags w.mode.toNat v ov cy).1 (resultFlags w.mode.toNat v ov cy).2,
   .output v w.sout.toNat w.sch.toNat true]

/-- An accumulator takes the exact value modulo 2^48; leaving the range sets its sticky overflow flag. -/
def Sys2Proof.Machine.accEffs (i : Nat) (r : Int) : List CEff :=
  [.acc i (BitVec.ofInt 48 r)] ++ (if r < -(2 ^ 47) ∨ 2 ^ 47 ≤ r then [.sticky (BitVec.ofNat 16 (2 ^ (5 + i)))] else [])


/-- Inbound link channel `c` is bound to the port word (`src`, `i`, `sel`) of Table 07-2. -/
def Sys2Proof.Machine.Dev.carries (d : Dev) (src i : Nat) (sel : Bool) (c : Nat) : Bool :=
  decide (d.rd (HP_IBc_SRC c) = src) && decide (min (srcTop src) (d.rd (HP_IBc_INDEX c)) = i) && (decide (src = 4) || d.on (HP_IBc_SEL c) == sel)

/-- Every inbound channel bound to the port word carries `v`, every other what it carried; nothing else in the isles changes. -/
def Sys2Proof.Machine.Linked (src i : Nat) (sel : Bool) (v : BitVec 32) (d e : Dev) : Prop :=
  (∀ c, c < 96 → tget 0#32 (e.isle (c / 8)).hin (c % 8) = if d.carries src i sel c then v else tget 0#32 (d.isle (c / 8)).hin (c % 8)) ∧
  ∀ n, e.isle n = { d.isle n with hin := (e.isle n).hin, hinFresh := (e.isle n).hinFresh }

/-- As `On`, for one content of the non-volatile memory, which the command reads. -/
def Sys2Proof.Machine.OnNv (c : Instr) (nv : Nv) (d : Dev) (p : Dev → Prop) : Prop :=
  ∀ q, ∃ e, exec c { pending := q, nv := nv, dev := d } = .next { pending := q, nv := nv, dev := e } ∧ p e

/-- `n` bytes of memory from `a`. -/
def Sys2Proof.Machine.Dev.bytesAt (d : Dev) (a n : Nat) : List (BitVec 8) := (List.range n).map (fun k => d.byte (a + k))

/-- The fetch of core `c`'s next instruction: the word or its trap, and the block after it. -/
def Sys2Proof.Machine.Dev.atFetch (d : Dev) (c : Nat) : Except CTrap (BitVec 32) × Dev :=
  (d.modCore c (fun x => { x with waiting := false })).coreFetch c (d.core c).pc.toNat

/-- Core `c` executes instructions, no thread switch acts at this boundary, and no access is held at its NI. -/
def Sys2Proof.Machine.Dev.coreFree (d : Dev) (c : Nat) : Bool := d.coreLive c && !d.switchDue c && !(d.atFetch c).2.net.stall

/-- Core `c` executes the instruction of word `w` next: the word at its pc is fetched and is that one. -/
def Sys2Proof.Machine.Dev.ready (d : Dev) (c : Nat) (w : BitVec 32) : Bool :=
  d.coreFree c && decide ((d.atFetch c).1.toOption.bind coreWord = some w)

/-- The block with core `c`'s instruction fetched and its pc past it. -/
def Sys2Proof.Machine.Dev.afterFetch (d : Dev) (c : Nat) : Dev := (d.atFetch c).2.setPc c ((d.core c).pc + 4)

/-- Core `c` of `q` becomes `x`; the other cores, and everything but the core's status register, stay as they are in `q`. -/
def Sys2Proof.Machine.CoreDid (c : Nat) (q : Dev) (x : CoreSt) (e : Dev) : Prop :=
  e.core c = x ∧ (∀ k, k ≠ c → e.core k = q.core k) ∧ RegsBut [CP_STAT c] q e ∧ e = { q with regs := e.regs, flags := e.flags, cores := e.cores }

/-- What a core holds after taking a trap outside trap mode and double-fault mode (R239): the resume address in EPC, STATUS in ESTATUS, CAUSE with its
code, access and information, FVA, and the handler's address in the pc. -/
def Sys2Proof.Machine.trapEntry (x : CoreSt) (code acc info : Nat) (epc : BitVec 64) (va : BitVec 40) : CoreSt :=
  { x with epc := BitVec.ofNat 40 epc.toNat, est := x.st, cause := BitVec.ofNat 32 (code + acc * 32 + info * 65536), fva := va,
           pc := BitVec.ofNat 64 (x.tvec.toNat + 0x40 * code), waiting := false, st := { x.st with priv := true, tw := true, ie := false, mip := false } }

/-- Core `c` of `q` takes a trap: the count of traps goes on by one; FVA is not constrained unless `va` says it. -/
def Sys2Proof.Machine.Trapped (c : Nat) (q : Dev) (code acc info : Nat) (epc : BitVec 64) (va : Option Nat) (e : Dev) : Prop :=
  e.core c = trapEntry (q.core c) code acc info epc ((va.map (fun a => BitVec.ofNat 40 a)).getD (e.core c).fva) ∧ (∀ k, k ≠ c → e.core k = q.core k) ∧
  e.rd (CP_CNT0_TRAPS c) = min 65535 (q.rd (CP_CNT0_TRAPS c) + 1) ∧ RegsBut [CP_STAT c, CP_CNT0 c] q e ∧
  e = { q with regs := e.regs, flags := e.flags, cores := e.cores, free := e.free }

/-- Core `c` runs untranslated and uncached, outside double-fault mode, no stored word holds a bit error, and no route commit holds the core's accesses. -/
def Sys2Proof.Machine.Dev.plainCore (d : Dev) (c : Nat) : Bool :=
  !(d.core c).ttbOn && !(d.core c).st.df && !d.on (CP_CFG_DCEN c) && decide (d.integ.ecc = []) && decide (d.routeWait (24 + c) = none) && !d.net.stall

/-- The progress of core `c`'s multiple transfer (R244, R245): with STATUS.MIP it is the one held, else it starts with this mask and base. -/
def Sys2Proof.Machine.Dev.progOf (d : Dev) (c : Nat) (mask : BitVec 32) (base : BitVec 64) : MProg :=
  if (d.core c).st.mip then (d.core c).mp else { mask := mask, done := 0, base := base }

/-- Register `i` is the one that progress `m` moves next: the lowest of the mask that is not done. -/
def Sys2Proof.Machine.MProg.at (m : MProg) (i : Nat) : Bool :=
  decide (i < 32) && m.mask.getLsbD i && !m.done.getLsbD i && (List.range i).all (fun j => !m.mask.getLsbD j || m.done.getLsbD j)

/-- Register `i` is the last of the mask of `m` that is not done. -/
def Sys2Proof.Machine.MProg.last (m : MProg) (i : Nat) : Bool := (List.range 32).all (fun j => decide (j = i) || !m.mask.getLsbD j || m.done.getLsbD j)

/-- The address of register `i` of a multiple transfer: a doubleword for each register of the mask, in ascending order from the base (R244). -/
def Sys2Proof.Machine.MProg.addr (m : MProg) (i : Nat) : Nat :=
  (m.base + BitVec.ofNat 64 (8 * ((List.range i).filter (fun k => m.mask.getLsbD k)).length)).toNat

/-- As `OnNv`, for a command that may change the non-volatile memory. -/
def Sys2Proof.Machine.OnBoth (c : Instr) (nv : Nv) (d : Dev) (p : Nv → Dev → Prop) : Prop :=
  ∀ q, ∃ v e, exec c { pending := q, nv := nv, dev := d } = .next { pending := q, nv := v, dev := e } ∧ p v e

/-- The key slots are in a state of R211, by the vote of their three copies: EMPTY, ACTIVE or REVOKED, and one that was programmed holds the 32 bytes of its key. -/
def Sys2Proof.Machine.KeysOk (v : Nv) : Prop :=
  ∀ k, let s := tget KeySlot.empty v.keys k
    (s.voted = 0 ∧ s.key = []) ∨ ((s.voted = 1 ∨ s.voted = 2) ∧ s.key.length = 32)

/-- What no command undoes (R211, R212): a REVOKED slot stays REVOKED, a programmed slot keeps its key and never gets EMPTY, and the floor does not fall; a slot's state is the vote of its copies. -/
def Sys2Proof.Machine.NvKept (v w : Nv) : Prop :=
  v.floor.toNat ≤ w.floor.toNat ∧
  ∀ k, let a := tget KeySlot.empty v.keys k
    let b := tget KeySlot.empty w.keys k
    (a.voted ≠ 0 → b.key = a.key ∧ b.voted ≠ 0) ∧ (a.voted = 2 → b.voted = 2)

/-- The read of the buffer of the descriptor at the head of queue `k` of port `p`, over the harbour NI (R400, R402). -/
def Sys2Proof.Machine.Dev.txBody (d : Dev) (p k : Nat) (ws : List (BitVec 32)) : (Nat × List (BitVec 8)) × Dev :=
  (d.headDesc p k).2.readBy (Dev.niMemRead 39) (descBuf ws) (wbits (ws.getD 2 0) 15 0)

/-- The block where the frame that port `p` sends has gone out and is counted (R400). -/
def Sys2Proof.Machine.Dev.txGone (d : Dev) (p : Nat) : Dev := (d.setEth { d.eth with tx := tset none d.eth.tx p none }).inc (EN_Pp_CNT0_TXF p)

/-- The write of a received frame's bytes into the buffer of the receive ring's head descriptor (R401). -/
def Sys2Proof.Machine.Dev.rxBody (d : Dev) (p : Nat) (ws : List (BitVec 32)) (data : List (BitVec 8)) : Nat × Dev :=
  (d.headDesc p 8).2.writeBy (Dev.niMemWrite 39) (descBuf ws) data

/-- The count of quarter-nanoseconds at which a frame received now passed the line (R404). -/
def Sys2Proof.Machine.Dev.rxTime (d : Dev) (p : Nat) : Nat := ntCount ((d.eth.count : Int) - (d.rd (EN_Pp_TSLAT_RXLAT p) : Nat))

/-- A received frame is stored, counted and its descriptor finished with the line's time (R400, R401, R404). -/
def Sys2Proof.Machine.Dev.rxEnd (d : Dev) (p : Nat) (ws : List (BitVec 32)) (data : List (BitVec 8)) (w3 : BitVec 32) : Dev :=
  ((d.rxBody p ws data).2.inc (EN_Pp_CNT1_RXF p)).finishDesc p 8 ws data.length true false w3 ((d.rxBody p ws data).2.rxTime p % 4000000000) ((d.rxBody p ws data).2.rxTime p / 4000000000)

/-- The counters of NI `i` (R293): bytes read and written, the latency histogram, the greatest latency. -/
def Sys2Proof.Machine.niRegs (i : Nat) : List Nat :=
  [PN_NIi_RDB_LO i, PN_NIi_RDB_HI i, PN_NIi_WRB_LO i, PN_NIi_WRB_HI i, PN_NIi_MAXLAT i] ++ (List.range 8).map (PN_NIi_HISTk i)

/-- SETANG loads AU_ADn_SET into the stamp with the extending bits clear, on AD7 only to a stamp ahead, else CFGERR bit 7 is set and nothing loads. SETVEL loads AU_ADn_VNOM into the velocity, on AD7 it only sets CFGERR bit 7. CLRCNT clears AU_ADn_CNT. An accepted enable sets the enable bit and loads both; a refused one sets CFGERR and leaves the bit 0. A disable clears the enable bit and LOCK and keeps LOST. Other domains and everything else stay. -/
def Obligations.AngleLoadsAndCounters : Prop :=
  (∀ (n : Fin 8) (d : Dev),
    (n.val = 7 → 0 < (d.rd64 (AU_ADn_SET_LO 7) (AU_ADn_SET_HI 7) - d.stamp 7).toInt) →
    On (.setang n) d (fun e =>
      (e.ad n).theta = stampTheta (d.rd64 (AU_ADn_SET_LO n) (AU_ADn_SET_HI n)) ∧ (e.ad n).omega = (d.ad n).omega ∧
      (∀ m, m ≠ n.val → e.ad m = d.ad m) ∧ e = { d with ang := { d.ang with ad := e.ang.ad } })) ∧
  (∀ d : Dev,
    ¬ 0 < (d.rd64 (AU_ADn_SET_LO 7) (AU_ADn_SET_HI 7) - d.stamp 7).toInt →
    On (.setang 7) d (fun e =>
      e.rdBit AU_STAT_CFGERR 7 = true ∧ OnlyRegs [AU_STAT] d e)) ∧
  (∀ (n : Fin 8) (d : Dev),
    n.val ≠ 7 →
    On (.setvel n) d (fun e =>
      (e.ad n).omega = d.vnom n ∧ (e.ad n).theta = (d.ad n).theta ∧ (∀ m, m ≠ n.val → e.ad m = d.ad m) ∧
      e = { d with ang := { d.ang with ad := e.ang.ad } })) ∧
  (∀ d : Dev,
    On (.setvel 7) d (fun e =>
      e.rdBit AU_STAT_CFGERR 7 = true ∧ OnlyRegs [AU_STAT] d e)) ∧
  (∀ (n : Fin 8) (d : Dev),
    On (.auClrcnt n) d (fun e =>
      e.reg (AU_ADn_CNT n) = 0 ∧ OnlyRegs [AU_ADn_CNT n] d e)) ∧
  (∀ (n : Fin 8) (d : Dev),
    d.adOn n = false →
    d.adCfgOk n = true →
    On (.domainEnable n) d (fun e =>
      e.adOn n = true ∧ (e.ad n).theta = stampTheta (d.rd64 (AU_ADn_SET_LO n) (AU_ADn_SET_HI n)) ∧ (e.ad n).omega = d.vnom n ∧
      (∀ m, m ≠ n.val → e.ad m = d.ad m) ∧ RegsBut [AU_CTRL] d e ∧ e = { d with regs := e.regs, flags := e.flags, ang := { d.ang with ad := e.ang.ad } })) ∧
  (∀ (n : Fin 8) (d : Dev),
    d.adOn n = false →
    d.adCfgOk n = false →
    On (.domainEnable n) d (fun e =>
      e.adOn n = false ∧ e.rdBit AU_STAT_CFGERR n = true ∧ OnlyRegs [AU_STAT] d e)) ∧
  (∀ (n : Fin 8) (d : Dev),
    n.val ≠ 7 →
    On (.domainDisable n) d (fun e =>
      e.adOn n = false ∧ e.rdBit AU_STAT_LOCK n = false ∧ e.rd AU_STAT_LOST = d.rd AU_STAT_LOST ∧ (e.ad n).theta = (d.ad n).theta ∧
      (∀ m, m ≠ n.val → e.ad m = d.ad m) ∧ RegsBut [AU_CTRL, AU_STAT] d e ∧ e = { d with regs := e.regs, flags := e.flags, ang := { d.ang with ad := e.ang.ad } }))

/-- An incremental domain latches floor(count * 2^48 / CPR) and AD7 latches network time when MPER expires. An arriving valid measurement with its residual r in the window adds r >> KP to the angle and r >> KI to the velocity of the next ACLK; one outside the window only counts in REJ; an invalid one and an overdue mark count in MISS. A synchronised AD7 sample ahead by more than the threshold steps AD7 to network time. In the next ACLK every enabled tracker stands at theta + omega plus what arrived, and moves with omega plus what arrived. -/
def Obligations.MeasurementsReachTheTracker : Prop :=
  (∀ (n : Fin 8) (d : Dev),
    n.val ≠ 7 →
    d.adOn n = true →
    d.rd (AU_ADn_CFG_SRC n) = 1 →
    (d.ad n).lastLatch + max 1 (d.rd (AU_ADn_TRK_MPER n)) ≤ d.now →
    On (.measurementLatch n) d (fun e =>
      (∃ ok, (e.ad n).inFlight = (d.ad n).inFlight ++ [{ at_ := d.now, valid := ok, isErr := false, latch := none, value := BitVec.ofNat 80 ((d.ad n).revs.toNat * 2 ^ 48 + (d.ad n).count * 2 ^ 48 / d.rd (AU_ADn_CPR_CPR n)) }]) ∧
      (e.ad n).lastLatch = d.now ∧ (∀ m, m ≠ n.val → e.ad m = d.ad m) ∧ e.regs = d.regs ∧ e.mem = d.mem)) ∧
  (∀ d : Dev,
    d.ethUp = true →
    (d.ad 7).lastLatch + max 1 (d.rd (AU_ADn_TRK_MPER 7)) ≤ d.now →
    On (.measurementLatch 7) d (fun e =>
      (e.ad 7).inFlight = (d.ad 7).inFlight ++ [{ at_ := d.now, valid := !d.on (AU_ADn_STAT_UNSYNC 7), isErr := false, latch := none, value := BitVec.ofNat 80 (d.eth.stamp.toNat * 2 ^ 16) }] ∧ (e.ad 7).theta = (d.ad 7).theta ∧ e = { d with ang := { d.ang with ad := e.ang.ad } })) ∧
  (∀ (n : Fin 8) (m : Meas) (ms : List Meas) (th : BitVec 80) (d : Dev),
    n.val ≠ 7 →
    (d.ad n).inFlight = m :: ms →
    m.at_ ≤ d.now →
    m.valid = true →
    m.isErr = false →
    (m.latch = some th ∨ (m.latch = none ∧ d.thetaAt n m.at_ = some th)) →
    (d.rd (AU_ADn_WIN_WIN n) = 0 ∨ (m.value - th).toInt.natAbs ≤ d.rd (AU_ADn_WIN_WIN n) * 2 ^ 16) →
    On (.measurementArrival n) d (fun e =>
      (e.ad n).corrP = (d.ad n).corrP + asr (m.value - th).toInt (d.rd (AU_ADn_TRK_KP n)) ∧
      (e.ad n).corrI = (d.ad n).corrI + asr (m.value - th).toInt (d.rd (AU_ADn_TRK_KI n)) ∧ (e.ad n).inFlight = ms ∧
      (e.ad n).theta = (d.ad n).theta ∧ (e.ad n).lossN = 0 ∧ e.reg (AU_ADn_CNT n) = d.reg (AU_ADn_CNT n) ∧ (∀ k, k ≠ n.val → e.ad k = d.ad k) ∧ e.mem = d.mem)) ∧
  (∀ (n : Fin 8) (m : Meas) (ms : List Meas) (th : BitVec 80) (d : Dev),
    n.val ≠ 7 →
    (d.ad n).inFlight = m :: ms →
    m.at_ ≤ d.now →
    m.valid = true →
    m.isErr = false →
    (m.latch = some th ∨ (m.latch = none ∧ d.thetaAt n m.at_ = some th)) →
    d.rd (AU_ADn_WIN_WIN n) ≠ 0 →
    d.rd (AU_ADn_WIN_WIN n) * 2 ^ 16 < (m.value - th).toInt.natAbs →
    d.rd (AU_ADn_CNT_REJ n) < 65535 →
    On (.measurementArrival n) d (fun e =>
      e.rd (AU_ADn_CNT_REJ n) = d.rd (AU_ADn_CNT_REJ n) + 1 ∧ (e.ad n).corrP = (d.ad n).corrP ∧ (e.ad n).corrI = (d.ad n).corrI ∧
      (e.ad n).theta = (d.ad n).theta ∧ (∀ k, k ≠ n.val → e.ad k = d.ad k) ∧ e.mem = d.mem)) ∧
  (∀ (n : Fin 8) (m : Meas) (ms : List Meas) (d : Dev),
    n.val ≠ 7 →
    (d.ad n).inFlight = m :: ms →
    m.at_ ≤ d.now →
    m.valid = false →
    d.rd (AU_ADn_CNT_MISS n) < 65535 →
    On (.measurementArrival n) d (fun e =>
      e.rd (AU_ADn_CNT_MISS n) = d.rd (AU_ADn_CNT_MISS n) + 1 ∧ (e.ad n).corrP = (d.ad n).corrP ∧ (e.ad n).theta = (d.ad n).theta ∧
      (∀ k, k ≠ n.val → e.ad k = d.ad k) ∧ e.mem = d.mem)) ∧
  (∀ (n : Fin 8) (due : BitVec 80) (d : Dev),
    d.adOn n = true →
    d.rd (AU_ADn_CFG_SRC n) = 5 →
    (d.ad n).markDue = some due →
    0 ≤ (d.ad n).omega.toInt →
    atOrPast false (d.ad n).theta (due + BitVec.ofInt 80 ((2 ^ 47 / d.rd (AU_ADn_CPR_CPR n) : Nat) : Int)) = true →
    d.rd (AU_ADn_CNT_MISS n) < 65535 →
    On (.markTimeout n) d (fun e =>
      e.rd (AU_ADn_CNT_MISS n) = d.rd (AU_ADn_CNT_MISS n) + 1 ∧ (e.ad n).theta = (d.ad n).theta ∧
      (e.ad n).markDue = some (due + BitVec.ofInt 80 ((2 ^ 48 / d.rd (AU_ADn_CPR_CPR n) : Nat) : Int)) ∧ (∀ k, k ≠ n.val → e.ad k = d.ad k) ∧ e.mem = d.mem)) ∧
  (∀ (m : Meas) (ms : List Meas) (th : BitVec 80) (d : Dev),
    d.on (AU_ADn_STAT_UNSYNC 7) = false →
    (d.ad 7).inFlight = m :: ms →
    m.valid = true →
    d.thetaAt 7 m.at_ = some th →
    ((d.rd (AU_ADn_ZOFF_ZOFF 7) * 2 ^ 48 : Nat) : Int) < (m.value - th).toInt * 1000000 →
    On (.ad7Sample) d (fun e =>
      (e.ad 7).theta = (d.ad 7).theta + BitVec.ofInt 80 (m.value - th).toInt ∧ (e.ad 7).inFlight = ms ∧ (∀ k, k ≠ 7 → e.ad k = d.ad k) ∧ e.mem = d.mem)) ∧
  (∀ d : Dev,
    On .trackerAdvance d (fun e =>
      e.now = d.now + 1 ∧ e.ang.issued = [] ∧ e.hmem = d.hmem ∧ e.cores = d.cores ∧ e.mail = d.mail ∧
      (∀ n, n < 8 → d.adOn n = true →
        (e.ad n).theta = (d.ad n).theta + BitVec.ofInt 80 ((d.ad n).omega.toInt + (d.ad n).corrP) ∧
        (e.ad n).prev = (d.ad n).lfFrom.getD (d.ad n).theta ∧ (e.ad n).corrP = 0 ∧ (e.ad n).corrI = 0 ∧
        (-(2 ^ 47 : Int) ≤ (d.ad n).omega.toInt + (d.ad n).corrI ∧ (d.ad n).omega.toInt + (d.ad n).corrI < 2 ^ 47 →
          (e.ad n).omega = BitVec.ofInt 48 ((d.ad n).omega.toInt + (d.ad n).corrI))) ∧
      (∀ n, n < 8 → d.adOn n = false → (e.ad n).theta = (d.ad n).theta ∧ (e.ad n).omega = (d.ad n).omega ∧ (e.ad n).inFlight = (d.ad n).inFlight)))

/-- A write of GO makes an idle insertion port busy with its list; while it is busy a GO only sets OVR. The completion of an accepted insertion puts the entry words, VALID and LIST set, under the new index, places the index in stamp order behind equal stamps, takes one from FREE, adds one to the list count, and answers OK or OK_LATE with the index; a refused one answers the first of BADLIST, BADACT, BADARG, BADCAD, FULL and changes no entry. A deletion frees its entry and answers OK, or NOT_FOUND where the entry is free. -/
def Obligations.EventTableInsertion : Prop :=
  (∀ (p : Fin 8) (l : Fin 64) (d : Dev),
    d.on (ET_INSp_STAT_BUSY p) = false →
    On (.insert p l) d (fun e =>
      e.rd (ET_INSp_STAT_BUSY p) = 1 ∧ e.rd (ET_INSp_CTL_LIST p) = l.val ∧ OnlyRegs [ET_INSp_CTL p, ET_INSp_STAT p] d e)) ∧
  (∀ (p : Fin 8) (l : Fin 64) (d : Dev),
    d.on (ET_INSp_STAT_BUSY p) = true →
    On (.insert p l) d (fun e =>
      e.rd (ET_INSp_STAT_OVR p) = 1 ∧ e.rd (ET_INSp_CTL_LIST p) = d.rd (ET_INSp_CTL_LIST p) ∧ OnlyRegs [ET_INSp_STAT p] d e)) ∧
  (∀ (p : Fin 8) (l : Nat) (d : Dev),
    d.on (ET_INSp_STAT_BUSY p) = true →
    d.rd (ET_INSp_CTL_LIST p) = l →
    d.insertCheck (d.reg (ET_INSp_W1 p)) (d.reg (ET_INSp_W2 p)) (d.reg (ET_INSp_W3 p)) l = 0 →
    d.rd (ET_LSTATl_COUNT l) < 65535 →
    On (.insertComplete p) d (fun e =>
      e.entry d.newIndex = some { w0 := d.reg (ET_INSp_W0 p), w1 := wput (wput (d.reg (ET_INSp_W1 p)) 13 13 1) 29 24 l, w2 := d.reg (ET_INSp_W2 p), w3 := d.reg (ET_INSp_W3 p) } ∧
      (e.rd (ET_INSp_STAT_RES p) = 0 ∨ e.rd (ET_INSp_STAT_RES p) = 1) ∧
      (∀ j, j ≠ d.newIndex → e.entry j = d.entry j) ∧ e.list l = d.placeIn (d.listRev l) (BitVec.ofNat 40 (wbits (d.reg (ET_INSp_W1 p)) 7 0 * 2 ^ 32 + (d.reg (ET_INSp_W0 p)).toNat)) d.newIndex (d.list l) ∧
      e.rd ET_STAT_FREE = d.rd ET_STAT_FREE - 1 ∧ e.rd (ET_LSTATl_COUNT l) = d.rd (ET_LSTATl_COUNT l) + 1 ∧ e.rd (ET_INSp_STAT_BUSY p) = 0 ∧
      e.rd (ET_INSp_STAT_IDX p) = d.newIndex % 2 ^ 15 ∧ e = { d with regs := e.regs, flags := e.flags, ang := e.ang })) ∧
  (∀ (p : Fin 8) (r : Nat) (d : Dev),
    d.on (ET_INSp_STAT_BUSY p) = true →
    d.insertCheck (d.reg (ET_INSp_W1 p)) (d.reg (ET_INSp_W2 p)) (d.reg (ET_INSp_W3 p)) (d.rd (ET_INSp_CTL_LIST p)) = r →
    r ≠ 0 →
    On (.insertComplete p) d (fun e =>
      e.rd (ET_INSp_STAT_RES p) = r ∧ e.rd (ET_INSp_STAT_BUSY p) = 0 ∧ OnlyRegs [ET_INSp_STAT p] d e)) ∧
  (∀ (i : Fin 32768) (d : Dev),
    d.on ET_DEL_STAT_BUSY = false →
    On (.delete i) d (fun e =>
      e.rd ET_DEL_IDX = i.val ∧ e.rd ET_DEL_STAT_BUSY = 1 ∧ OnlyRegs [ET_DEL, ET_DEL_STAT] d e)) ∧
  (∀ (i : Nat) (x : EtEntry) (d : Dev),
    d.on ET_DEL_STAT_BUSY = true →
    d.rd ET_DEL_IDX = i →
    d.ang.reins.contains i = false →
    d.entry i = some x →
    (d.list x.list).head? ≠ some i ∨ d.canIssue x.list = false ∨ d.issueSlot x.list = false →
    On .deleteComplete d (fun e =>
      e.entry i = none ∧ (∀ j, j ≠ i → e.entry j = d.entry j) ∧ i ∉ e.list x.list ∧ e.rd ET_DEL_STAT_BUSY = 0 ∧ e.rd ET_DEL_STAT_RES = 0 ∧ e.mem = d.mem)) ∧
  (∀ (i : Nat) (d : Dev),
    d.on ET_DEL_STAT_BUSY = true →
    d.rd ET_DEL_IDX = i →
    d.ang.reins.contains i = false →
    d.entry i = none →
    On .deleteComplete d (fun e =>
      e.rd ET_DEL_STAT_BUSY = 0 ∧ e.rd ET_DEL_STAT_RES = 1 ∧ OnlyRegs [ET_DEL_STAT] d e)) ∧
  (∀ d : Dev,
    On .etClrDrop d (fun e =>
      e.rd ET_STAT_DROP = 0 ∧ e.rd ET_STAT_FREE = d.rd ET_STAT_FREE ∧ OnlyRegs [ET_STAT] d e)) ∧
  (∀ d : Dev,
    On .etClrLate d (fun e =>
      e.reg ET_LATE = 0 ∧ (∀ l, l < 64 → e.rd (ET_LSTATl_LATE l) = 0 ∧ e.rd (ET_LSTATl_COUNT l) = d.rd (ET_LSTATl_COUNT l)) ∧ e = { d with regs := e.regs, flags := e.flags }))

/-- A list that can issue sends its head entry's action on its way, to take effect 4 ACLK later. A one-shot entry is freed. An entry with an uncorrectable word is removed without its action. A periodic entry stays under its index with its stamp advanced in the list's direction by the cadence increment of R45, its cadence accumulator is updated, and it waits for its reinsertion, which places it in stamp order again behind equal stamps; a deletion that waits for it removes the entry instead. -/
def Obligations.EventTableIssue : Prop :=
  (∀ (l : Fin 64) (i : Nat) (x : EtEntry) (d : Dev),
    d.canIssue l = true →
    d.issueSlot l = true →
    (d.list l).head? = some i →
    d.entry i = some x →
    x.list = l.val →
    (d.readEntry i).1 = false →
    x.per = false →
    On (.entryIssue l) d (fun e =>
      (∃ late, e.ang.acts = d.ang.acts ++ [{ act := x.act, arg0 := x.w2, arg1 := x.w3, list := l.val, stamp := x.stamp, late := late, tf := d.now + 4 }]) ∧
      e.entry i = none ∧ (∀ j, j ≠ i → e.entry j = d.entry j) ∧ i ∉ e.list l ∧ e.ang.issued = d.ang.issued ++ [l.val] ∧ e.isles = d.isles ∧ e.mem = d.mem)) ∧
  (∀ (l : Fin 64) (i : Nat) (x : EtEntry) (st : Nat × Nat) (d : Dev),
    d.canIssue l = true →
    d.issueSlot l = true →
    (d.list l).head? = some i →
    d.entry i = some x →
    (d.readEntry i).1 = false →
    x.per = true →
    st = cadStep (d.rd (ET_CADc_Q_Q x.cad)) (d.rd (ET_CADc_N_N x.cad)) (d.rd (ET_CADc_D_D x.cad)) (d.rd (ET_CADc_ACC_ACC x.cad)) →
    On (.entryIssue l) d (fun e =>
      (∃ late, e.ang.acts = d.ang.acts ++ [{ act := x.act, arg0 := x.w2, arg1 := x.w3, list := l.val, stamp := x.stamp, late := late, tf := d.now + 4 }]) ∧
      e.entry i = some (x.advance (d.listRev l) st.2) ∧ (∀ j, j ≠ i → e.entry j = d.entry j) ∧ e.ang.reins = d.ang.reins ++ [i] ∧
      e.rd (ET_CADc_ACC_ACC x.cad) = st.1 % 65536 ∧ e.list l = (d.list l).drop 1 ∧ e.isles = d.isles ∧ e.mem = d.mem)) ∧
  (∀ (l : Fin 64) (i : Nat) (d : Dev),
    d.canIssue l = true →
    d.issueSlot l = true →
    (d.list l).head? = some i →
    (d.readEntry i).1 = true →
    On (.entryIssue l) d (fun e =>
      e.ang.acts = d.ang.acts ∧ e.entry i = none ∧ (∀ j, j ≠ i → e.entry j = d.entry j) ∧ e.isles = d.isles ∧ e.mem = d.mem)) ∧
  (∀ (i : Fin 32768) (x : EtEntry) (d : Dev),
    d.ang.reins.contains i.val = true →
    d.entry i = some x →
    ¬ (d.on ET_DEL_STAT_BUSY = true ∧ d.rd ET_DEL_IDX = i.val) →
    On (.reinsertionComplete i) d (fun e =>
      e.entry i = some x ∧ (∀ j, j ≠ i.val → e.entry j = d.entry j) ∧ i.val ∉ e.ang.reins ∧
      e.list x.list = d.placeIn (d.listRev x.list) x.stamp i (d.list x.list) ∧ e = { d with ang := e.ang })) ∧
  (∀ (i : Fin 32768) (x : EtEntry) (d : Dev),
    d.ang.reins.contains i.val = true →
    d.entry i = some x →
    d.on ET_DEL_STAT_BUSY = true →
    d.rd ET_DEL_IDX = i.val →
    On (.reinsertionComplete i) d (fun e =>
      e.entry i = none ∧ (∀ j, j ≠ i.val → e.entry j = d.entry j) ∧ i.val ∉ e.ang.reins ∧ i.val ∉ e.list x.list ∧ e.rd ET_DEL_STAT_BUSY = 0 ∧ e.rd ET_DEL_STAT_RES = 0 ∧
      e.mem = d.mem))

/-- The oldest action on its way takes effect in its ACLK: a FIRE raises a firing request for its group, a STROBE latches the measured angles its mask names and the counts of its group's encoders, an EDGE is placed at (t_f - 1) ACLK plus its eighth plus the displacement, a GATE replaces the gate states, a DMA action queues its trigger, a WAKE reaches the scheduler's queue, a POST sends its payload as a VC3 message. An action acts once every landfall of its ACLK has acted. A FIRE to an isle that is gated or powered down, a GATE while the Ethernet domain is down, an EDGE to a pair being loaded and a POST to a closed NI are dropped and counted in ET_STAT.DROP. -/
def Obligations.ActionsTakeEffect : Prop :=
  (∀ (a : Action) (as : List Action) (d : Dev),
    d.ang.acts = a :: as →
    a.act = 1 →
    a.tv = false →
    a.tf ≤ d.now →
    d.landfallWaits = false →
    d.isleLive (wbits a.arg0 6 0) = true →
    On .fire d (fun e =>
      (e.isle (wbits a.arg0 6 0)).reqs = (d.isle (wbits a.arg0 6 0)).reqs ++ [{ group := wbits a.arg0 11 8, at_ := a.tf, ra := none }] ∧
      (∀ n, n ≠ wbits a.arg0 6 0 → e.isle n = d.isle n) ∧ e = { d with ang := { d.ang with acts := as }, isles := e.isles })) ∧
  (∀ (a : Action) (as : List Action) (d : Dev),
    d.ang.acts = a :: as →
    a.act = 1 →
    a.tv = false →
    a.tf ≤ d.now →
    d.landfallWaits = false →
    d.isleLive (wbits a.arg0 6 0) = false →
    d.rd ET_STAT_DROP < 65535 →
    On .fire d (fun e =>
      e.rd ET_STAT_DROP = d.rd ET_STAT_DROP + 1 ∧ e.ang = { d.ang with acts := as } ∧ e.isles = d.isles ∧ e.mem = d.mem)) ∧
  (∀ (a : Action) (as : List Action) (d : Dev),
    d.ang.acts = a :: as →
    a.act = 2 →
    a.tv = false →
    a.tf ≤ d.now →
    d.landfallWaits = false →
    d.hb.loading = false →
    On .strobe d (fun e =>
      (∀ n, n < 8 → wbit a.arg0 (16 + n) = true → (e.ad n).meas = d.measuredAngle n) ∧ (∀ n, (e.ad n).theta = (d.ad n).theta) ∧
      (∀ k, k < 8 → d.on (HP_ENCe_CFG_EN k) = true → d.rd (HP_ENCe_CFG_STG k) = wbits a.arg0 5 0 →
        (a.tf + 1, HEv.encStrobe k a.tf (d.reg (HP_ENCe_CNT k))) ∈ e.hb.due) ∧ e.ang.acts = as ∧ e.isles = d.isles ∧ e.mem = d.mem)) ∧
  (∀ (a : Action) (as : List Action) (p k : Nat) (x : PwmPair) (d : Dev),
    d.ang.acts = a :: as →
    a.act = 3 →
    a.tf ≤ d.now →
    d.landfallWaits = false →
    wbits a.arg0 5 0 = p →
    d.pair p = x →
    d.hb.loading = false →
    x.held = false →
    x.edges.length + x.acted.length < 4 →
    k = (if wbit a.arg0 9 = true then (if wbit a.arg0 8 = true then wbits (d.cmdBefore p) 31 16 else wbits (d.cmdBefore p) 15 0) else 0) →
    x.acted.any (fun q => 8 * (a.tf - 1) + d.edgeEighth a + k ≤ q.at_) = false →
    On .edge d (fun e =>
      (e.pair p).edges = placeEdge { at_ := 8 * (a.tf - 1) + d.edgeEighth a + k, on := !wbit a.arg0 8 } x.edges ∧
      (e.pair p).hs = x.hs ∧ (e.pair p).ls = x.ls ∧ (∀ m, m ≠ p → e.pair m = d.pair m) ∧ e.ang = { d.ang with acts := as } ∧ e.isles = d.isles ∧ e.mem = d.mem)) ∧
  (∀ (a : Action) (as : List Action) (d : Dev),
    d.ang.acts = a :: as →
    a.act = 3 →
    a.tf ≤ d.now →
    d.landfallWaits = false →
    (d.pair (wbits a.arg0 5 0)).held = true →
    d.rd ET_STAT_DROP < 65535 →
    On .edge d (fun e =>
      e.rd ET_STAT_DROP = d.rd ET_STAT_DROP + 1 ∧ e.hb = d.hb ∧ e.ang = { d.ang with acts := as } ∧ e.isles = d.isles ∧ e.mem = d.mem)) ∧
  (∀ (a : Action) (as : List Action) (d : Dev),
    d.ang.acts = a :: as →
    a.act = 4 →
    a.tf ≤ d.now →
    d.landfallWaits = false →
    d.ethUp = true →
    On .gate d (fun e =>
      e.rd (EN_Pp_GATE_STATE (wbits a.arg0 2 0)) = wbits a.arg0 15 8 ∧ RegsBut [EN_Pp_GATE (wbits a.arg0 2 0)] d e ∧
      e = { d with regs := e.regs, flags := e.flags, ang := { d.ang with acts := as } })) ∧
  (∀ (a : Action) (as : List Action) (d : Dev),
    d.ang.acts = a :: as →
    a.act = 4 →
    a.tf ≤ d.now →
    d.landfallWaits = false →
    d.ethUp = false →
    d.rd ET_STAT_DROP < 65535 →
    On .gate d (fun e =>
      e.rd ET_STAT_DROP = d.rd ET_STAT_DROP + 1 ∧ (∀ p, p < 6 → e.reg (EN_Pp_GATE p) = d.reg (EN_Pp_GATE p)) ∧ e.ang = { d.ang with acts := as } ∧ e.mem = d.mem)) ∧
  (∀ (a : Action) (as : List Action) (d : Dev),
    d.ang.acts = a :: as →
    a.act = 5 →
    a.tf ≤ d.now →
    d.landfallWaits = false →
    wbits a.arg0 7 0 < 4 →
    d.on (DM_ENGe_CFG_EN (wbits a.arg0 7 0)) = true →
    (d.dmaQueue (wbits a.arg0 7 0)).length < 8 →
    On .dma d (fun e =>
      e.dmaQueue (wbits a.arg0 7 0) = d.dmaQueue (wbits a.arg0 7 0) ++ [wbits a.arg0 15 8] ∧ (∀ n, n ≠ wbits a.arg0 7 0 → e.dmaQueue n = d.dmaQueue n) ∧
      e.ang = { d.ang with acts := as } ∧ e.isles = d.isles ∧ e.mem = d.mem)) ∧
  (∀ (a : Action) (as : List Action) (n : Nat) (d : Dev),
    d.ang.acts = a :: as →
    a.act = 5 →
    a.tf ≤ d.now →
    d.landfallWaits = false →
    wbits a.arg0 7 0 = 128 + n →
    d.isleLive n = true →
    (d.isle n).sq.length < 4 →
    On .dma d (fun e =>
      (e.isle n).sq = (d.isle n).sq ++ [wbits a.arg0 15 8] ∧ (∀ m, m ≠ n → e.isle m = d.isle m) ∧ e.ang = { d.ang with acts := as } ∧ e.net = d.net ∧ e.mem = d.mem)) ∧
  (∀ (a : Action) (as : List Action) (d : Dev),
    d.ang.acts = a :: as →
    a.act = 6 →
    a.tf ≤ d.now →
    d.landfallWaits = false →
    d.schedIn.length < 64 →
    d.schedWait = [] →
    On .wake d (fun e =>
      { wake := true, num := wbits a.arg0 8 0, value := a.arg1, cls := 3, at_ := d.now } ∈ e.schedIn ∧ e.schedIn.length = d.schedIn.length + 1 ∧
      e = { d with ang := { d.ang with acts := as }, schedIn := e.schedIn })) ∧
  (∀ (a : Action) (as : List Action) (n q : Nat) (d : Dev),
    d.ang.acts = a :: as →
    a.act = 7 →
    a.tf ≤ d.now →
    d.landfallWaits = false →
    wbits a.arg0 5 0 = n →
    wbits a.arg0 15 8 = q →
    d.niClosed n = false →
    On .post d (fun e =>
      e = { d with
        ang := { d.ang with acts := as },
        net := { d.net with
          msgs := d.net.msgs ++ [{ src := 39, dst := n, req := a.list, write := true, addr := q, host := false, len := 4, data := wordBytes a.arg1, status := 0, at_ := d.now, held := (d.routeWait 39).any (fun c => c.dest = n), vc := 3, codes := [], legs := [] }] } })) ∧
  (∀ (a : Action) (as : List Action) (d : Dev),
    d.ang.acts = a :: as →
    a.act = 7 →
    a.tf ≤ d.now →
    d.landfallWaits = false →
    d.niClosed (wbits a.arg0 5 0) = true →
    d.rd ET_STAT_DROP < 65535 →
    On .post d (fun e =>
      e.rd ET_STAT_DROP = d.rd ET_STAT_DROP + 1 ∧ e.rd PN_STAT_OFFL = 1 ∧ e.net = d.net ∧ e.ang = { d.ang with acts := as } ∧ e.mem = d.mem))

/-- A write of ARM to a slot that is neither armed nor committed names the domain, moves the target to a landfall whose check ACLK has not passed, clears PPN, CAUSE and GOT, notes the ACLK of arming, and sets STATE to ARMED. Nothing else changes. A slot that is armed or committed ignores ARM; the RW field DOM takes the written domain. A target that is no landfall moves on to the next one in the domain's direction, which lies at most a period beyond it; one whose check ACLK has passed moves to the first landfall beyond the angle that the domain reaches at the check lead. The check of a target has passed when an enabled domain reaches it at the check lead now and did one ACLK ago. -/
def Obligations.ModeChangeArmed : Prop :=
  (∀ (s n : Fin 8) (d : Dev),
    d.rd (AU_MCs_STAT_STATE s) ≠ 1 →
    d.rd (AU_MCs_STAT_STATE s) ≠ 2 →
    On (.modeChangeArm s n) d (fun e =>
      e.rd (AU_MCs_STAT_STATE s) = 1 ∧ e.rd (AU_MCs_STAT_PPN s) = 0 ∧ e.rd (AU_MCs_STAT_CAUSE s) = 0 ∧ e.rd (AU_MCs_ACK_GOT s) = 0 ∧ e.rd (AU_MCs_ACK_NEED s) = d.rd (AU_MCs_ACK_NEED s) ∧ e.rd (AU_MCs_CTL_DOM s) = n.val ∧ e.rd (AU_MCs_CTL_ARM s) = 1 ∧
      e.rd64 (AU_MCs_LF_LO s) (AU_MCs_LF_HI s) = lfStamp (d.mcArmTarget n (d.mcTarget s)) ∧ tget 0 e.ang.mcArmed s = d.now ∧
      RegsBut [AU_MCs_CTL s, AU_MCs_LF_LO s, AU_MCs_LF_HI s, AU_MCs_ACK s, AU_MCs_STAT s] d e ∧ e = { d with regs := e.regs, flags := e.flags, ang := { d.ang with mcArmed := e.ang.mcArmed } })) ∧
  (∀ (s n : Fin 8) (d : Dev),
    d.rd (AU_MCs_STAT_STATE s) = 1 ∨ d.rd (AU_MCs_STAT_STATE s) = 2 →
    On (.modeChangeArm s n) d (fun e =>
      e.rd (AU_MCs_CTL_DOM s) = n.val ∧ e.rd (AU_MCs_STAT_STATE s) = d.rd (AU_MCs_STAT_STATE s) ∧ OnlyRegs [AU_MCs_CTL s] d e)) ∧
  (∀ (n : Fin 8) (l : BitVec 80) (d : Dev), isLandfall (d.lfPeriod n) l = true → d.checkPassed n l = false → d.mcArmTarget n l = l) ∧
  (∀ (n : Fin 8) (l : BitVec 80) (d : Dev), isLandfall (d.lfPeriod n) l = false → d.checkPassed n (lfNext (d.adRev n) (d.lfPeriod n) l) = false → d.mcArmTarget n l = (lfNext (d.adRev n) (d.lfPeriod n) l)) ∧
  (∀ (n : Fin 8) (l : BitVec 80) (d : Dev), isLandfall (d.lfPeriod n) l = true → d.checkPassed n l = true → d.mcArmTarget n l = (lfNext (d.adRev n) (d.lfPeriod n) ((d.ad n).ahead d.lead))) ∧
  (∀ (n : Fin 8) (l : BitVec 80) (d : Dev), isLandfall (d.lfPeriod n) l = false → d.checkPassed n (lfNext (d.adRev n) (d.lfPeriod n) l) = true → d.mcArmTarget n l = (lfNext (d.adRev n) (d.lfPeriod n) ((d.ad n).ahead d.lead))) ∧
  (∀ (n : Fin 8) (l th : BitVec 80) (d : Dev), d.adOn n = true → (d.ad n).hist[0]? = some th → (d.checkPassed n l = true ↔ d.checkReached n l = true ∧ atOrPast (d.adRev n) (th + BitVec.ofInt 80 ((d.ad n).prevOmega.toInt * d.lead)) l = true)) ∧
  (∀ (n : Fin 8) (l : BitVec 80) (d : Dev), isLandfall (d.lfPeriod n) (lfNext (d.adRev n) (d.lfPeriod n) l) = true ∧ 0 < (if d.adRev n then l - lfNext (d.adRev n) (d.lfPeriod n) l else lfNext (d.adRev n) (d.lfPeriod n) l - l).toNat ∧ (if d.adRev n then l - lfNext (d.adRev n) (d.lfPeriod n) l else lfNext (d.adRev n) (d.lfPeriod n) l - l).toNat ≤ d.lfPeriod n)

/-- In its check ACLK an armed set whose acknowledgments are complete commits; one that lacks some is postponed by a landfall period, PPN counting, and abandoned with CAUSE 1 after the eighth postponement. Each acknowledgment adds one to GOT; ABORT before the check abandons the set with CAUSE 3, an expired AU_MCs_TMO with CAUSE 2; an abandoned set leaves no staged change behind. -/
def Obligations.ModeChangeDecided : Prop :=
  (∀ (s : Fin 8) (d : Dev),
    d.rd (AU_MCs_STAT_STATE s) = 1 →
    d.checkReached (d.rd (AU_MCs_CTL_DOM s)) (d.mcTarget s) = true →
    d.mcPasses s = true →
    (d.ad (d.rd (AU_MCs_CTL_DOM s))).lfDone = false →
    On (.modeChangeCheck s) d (fun e =>
      e.rd (AU_MCs_STAT_STATE s) = 2 ∧ e.rd (AU_MCs_STAT_PPN s) = d.rd (AU_MCs_STAT_PPN s) ∧ OnlyRegs [AU_MCs_STAT s] d e)) ∧
  (∀ (s : Fin 8) (p : Nat) (l : BitVec 80) (d : Dev),
    d.rd (AU_MCs_STAT_STATE s) = 1 →
    d.checkReached (d.rd (AU_MCs_CTL_DOM s)) (d.mcTarget s) = true →
    d.mcPasses s = false →
    d.rd (AU_MCs_STAT_PPN s) = p →
    p < 8 →
    l = lfNext (d.adRev (d.rd (AU_MCs_CTL_DOM s))) (d.lfPeriod (d.rd (AU_MCs_CTL_DOM s))) (d.mcTarget s) →
    d.checkReached (d.rd (AU_MCs_CTL_DOM s)) l = false →
    On (.modeChangeCheck s) d (fun e =>
      e.rd (AU_MCs_STAT_STATE s) = 1 ∧ e.rd (AU_MCs_STAT_PPN s) = p + 1 ∧ e.rd64 (AU_MCs_LF_LO s) (AU_MCs_LF_HI s) = lfStamp l ∧ OnlyRegs [AU_MCs_LF_LO s, AU_MCs_LF_HI s, AU_MCs_STAT s] d e)) ∧
  (∀ (s : Fin 8) (d : Dev),
    d.rd (AU_MCs_STAT_STATE s) = 1 →
    d.checkReached (d.rd (AU_MCs_CTL_DOM s)) (d.mcTarget s) = true →
    d.mcPasses s = false →
    8 ≤ d.rd (AU_MCs_STAT_PPN s) →
    On (.modeChangeCheck s) d (fun e =>
      e.rd (AU_MCs_STAT_STATE s) = 4 ∧ e.rd (AU_MCs_STAT_CAUSE s) = 1 ∧ e.stagedOn s = [] ∧ e.mem = d.mem ∧ e.ang = d.ang)) ∧
  (∀ (s : Fin 8) (a : Nat) (rest : List (Nat × Nat)) (g : Nat) (d : Dev),
    d.rd (AU_MCs_STAT_STATE s) = 1 →
    d.checkReached (d.rd (AU_MCs_CTL_DOM s)) (d.mcTarget s) = false →
    d.cfg.acks = (s.val, a) :: rest →
    a ≤ d.now →
    d.rd (AU_MCs_ACK_GOT s) = g →
    g < 65535 →
    On (.modeChangeAck s) d (fun e =>
      e.rd (AU_MCs_ACK_GOT s) = g + 1 ∧ e.rd (AU_MCs_STAT_STATE s) = 1 ∧ RegsBut [AU_MCs_ACK s] d e ∧ e = { d with regs := e.regs, flags := e.flags, cfg := { d.cfg with acks := rest } })) ∧
  (∀ (s : Fin 8) (d : Dev),
    d.rd (AU_MCs_STAT_STATE s) = 1 →
    d.checkReached (d.rd (AU_MCs_CTL_DOM s)) (d.mcTarget s) = false →
    On (.modeChangeAbort s) d (fun e =>
      e.rd (AU_MCs_STAT_STATE s) = 4 ∧ e.rd (AU_MCs_STAT_CAUSE s) = 3 ∧ e.stagedOn s = [] ∧ e.mem = d.mem ∧ e.ang = d.ang)) ∧
  (∀ (s : Fin 8) (d : Dev),
    d.rd (AU_MCs_STAT_STATE s) ≠ 1 →
    On (.modeChangeAbort s) d (fun e =>
      e = d)) ∧
  (∀ (s : Fin 8) (m : Nat) (d : Dev),
    d.rd (AU_MCs_STAT_STATE s) = 1 ∨ d.rd (AU_MCs_STAT_STATE s) = 2 →
    (d.reg (AU_MCs_TMO s)).toNat = m →
    m ≠ 0 →
    tget 0 d.ang.mcArmed s + m ≤ d.now →
    d.mcReached s = false →
    On (.modeChangeTimeout s) d (fun e =>
      e.rd (AU_MCs_STAT_STATE s) = 4 ∧ e.rd (AU_MCs_STAT_CAUSE s) = 2 ∧ e.stagedOn s = [] ∧ e.mem = d.mem ∧ e.ang = d.ang))

/-- In the ACLK in which a domain passes a landfall, a committed change set whose target it is applies: the isle that staged it swaps its copies, its copy-back starts and the slot shows APPLIED. A cell waiting in landfall-sync in an isle of the domain issues its NEXT. Each domain passes a landfall once an ACLK. The copy-back of R125 ends by copying the active contexts and planes into staging and clearing SYNC. -/
def Obligations.LandfallActs : Prop :=
  (∀ (n : Fin 8) (l : BitVec 80) (i : Fin 96) (c : Fin 16) (a nx : Nat) (qp r : Bool) (d : Dev),
    d.passedLandfall n = some l →
    (∀ s : Fin 8, d.rd (AU_MCs_CTL_DOM s) = n.val → d.rd (AU_MCs_STAT_STATE s) ≠ 1 ∧ d.rd (AU_MCs_STAT_STATE s) ≠ 2) →
    d.rd (IS_CFG_DOM i) = n.val →
    d.isleLive i = true →
    ((d.isle i).cell c).mode = .waitLandfall a nx qp r →
    ((d.isle i).cell c).nextAt ≤ d.now →
    On (.landfall n) d (fun e =>
      ((e.isle i).cell c).mode = .run nx ∧ ((e.isle i).cell c).nextAt = d.now ∧ ((e.isle i).cell c).arch = ((d.isle i).cell c).arch ∧ (e.ad n).lfDone = true ∧ (e.ad n).theta = (d.ad n).theta ∧ (∀ k, k ≠ n.val → e.ad k = d.ad k))) ∧
  (∀ (n s : Fin 8) (l : BitVec 80) (i : Fin 96) (d : Dev),
    d.passedLandfall n = some l →
    d.rd (AU_MCs_CTL_DOM s) = n.val →
    d.rd (AU_MCs_STAT_STATE s) = 2 →
    d.mcReached s = true →
    d.cfg.staged = [{ unit := i.val, slot := s.val, loaded := false, csr := [], seeds := [] }] →
    d.tasksOf i = [] →
    d.icpOn s = false →
    On (.landfall n) d (fun e =>
      e.rd (AU_MCs_STAT_STATE s) = 3 ∧ (e.isle i).copy = !(d.isle i).copy ∧ e.rd (IS_STAT_SYNC i) = 1 ∧ (e.isle i).copyEnd = some (d.now + 256 * d.step i) ∧ (e.isle i).ctx = (d.isle i).ctx ∧ e.stagedOn s = [] ∧ (e.ad n).lfDone = true)) ∧
  (∀ (n : Fin 8) (d : Dev),
    d.passedLandfall n = none →
    On (.landfall n) d (fun e =>
      e = d)) ∧
  (∀ (i : Fin 96) (m : Nat) (d : Dev),
    (d.isle i).copyEnd = some m →
    m ≤ d.now →
    d.integ.cbRep.contains i.val = false →
    (∀ r ∈ d.ev.repairs, ¬ (r.unit = i.val ∧ r.kind = 4)) →
    On (.copybackDone i) d (fun e =>
      e.rd (IS_STAT_SYNC i) = 0 ∧ (e.isle i).copyEnd = none ∧ (e.isle i).copy = (d.isle i).copy ∧ (e.isle i).cells = (d.isle i).cells ∧ (∀ k, k ≠ i.val → e.isle k = d.isle k) ∧ e.mem = d.mem ∧ RegsBut [IS_STAT i] d e)) ∧
  (∀ (i : Fin 96) (c x : Fin 16) (m : Nat) (d : Dev),
    (d.isle i).copyEnd = some m →
    m ≤ d.now →
    tsorted none (d.isle i).ctx = true →
    On (.copybackDone i) d (fun e =>
      (e.isle i).ctxWord true c x = (d.isle i).ctxWord false c x ∧ (e.isle i).ctxWord false c x = (d.isle i).ctxWord false c x))

/-- A cell that issues one of these contexts in s32 mode on registers stores the result in DST one ACLK later with Z, N, V and C as Table 04-7 gives them, produces it as its cell output, and runs its NEXT; no other state changes. -/
def Obligations.CellMovesAndSums : Prop :=
  (∀ (n : Fin 96) (c : Fin 16) (idx : Nat) (w : Ctx) (a : BitVec 32) (d : Dev),
    d.cellAt n c idx w = true →
    plainCtx 1 0 w = true →
    (((d.isle n).cell c).arch.get w.sa.toNat) = a →
    On (.mov n c) d (fun e =>
      e = cellIssued n c idx 1 w (storedEffs w (a) (false) (none)) d)) ∧
  (∀ (n : Fin 96) (c : Fin 16) (idx : Nat) (w : Ctx) (z : BitVec 32) (d : Dev),
    d.cellAt n c idx w = true →
    plainCtx 2 0 w = true →
    (((d.isle n).cell c).arch.get w.sc.toNat) = z →
    On (.movc n c) d (fun e =>
      e = cellIssued n c idx 1 w (storedEffs w (z) (false) (none)) d)) ∧
  (∀ (n : Fin 96) (c : Fin 16) (idx : Nat) (w : Ctx) (a : BitVec 32) (b : BitVec 32) (d : Dev),
    d.cellAt n c idx w = true →
    plainCtx 3 0 w = true →
    (((d.isle n).cell c).arch.get w.sa.toNat) = a →
    (((d.isle n).cell c).arch.get w.sb.toNat) = b →
    On (.add n c) d (fun e =>
      e = cellIssued n c idx 1 w (storedEffs w (a + b) (BitVec.saddOverflow a b) (some (BitVec.uaddOverflow a b))) d)) ∧
  (∀ (n : Fin 96) (c : Fin 16) (idx : Nat) (w : Ctx) (a : BitVec 32) (z : BitVec 32) (d : Dev),
    d.cellAt n c idx w = true →
    plainCtx 4 0 w = true →
    (((d.isle n).cell c).arch.get w.sa.toNat) = a →
    (((d.isle n).cell c).arch.get w.sc.toNat) = z →
    On (.addc n c) d (fun e =>
      e = cellIssued n c idx 1 w (storedEffs w (a + z) (BitVec.saddOverflow a z) (some (BitVec.uaddOverflow a z))) d)) ∧
  (∀ (n : Fin 96) (c : Fin 16) (idx : Nat) (w : Ctx) (a : BitVec 32) (b : BitVec 32) (d : Dev),
    d.cellAt n c idx w = true →
    plainCtx 5 0 w = true →
    (((d.isle n).cell c).arch.get w.sa.toNat) = a →
    (((d.isle n).cell c).arch.get w.sb.toNat) = b →
    On (.sub n c) d (fun e =>
      e = cellIssued n c idx 1 w (storedEffs w (a - b) (BitVec.ssubOverflow a b) (some (decide (b.toNat ≤ a.toNat)))) d)) ∧
  (∀ (n : Fin 96) (c : Fin 16) (idx : Nat) (w : Ctx) (a : BitVec 32) (z : BitVec 32) (d : Dev),
    d.cellAt n c idx w = true →
    plainCtx 6 0 w = true →
    (((d.isle n).cell c).arch.get w.sa.toNat) = a →
    (((d.isle n).cell c).arch.get w.sc.toNat) = z →
    On (.subc n c) d (fun e =>
      e = cellIssued n c idx 1 w (storedEffs w (a - z) (BitVec.ssubOverflow a z) (some (decide (z.toNat ≤ a.toNat)))) d)) ∧
  (∀ (n : Fin 96) (c : Fin 16) (idx : Nat) (w : Ctx) (a : BitVec 32) (d : Dev),
    d.cellAt n c idx w = true →
    plainCtx 7 0 w = true →
    (((d.isle n).cell c).arch.get w.sa.toNat) = a →
    On (.neg n c) d (fun e =>
      e = cellIssued n c idx 1 w (storedEffs w (-a) (decide (a = 0x80000000#32)) (some (decide (a = 0#32)))) d)) ∧
  (∀ (n : Fin 96) (c : Fin 16) (idx : Nat) (w : Ctx) (a : BitVec 32) (d : Dev),
    d.cellAt n c idx w = true →
    plainCtx 8 0 w = true →
    (((d.isle n).cell c).arch.get w.sa.toNat) = a →
    On (.abs n c) d (fun e =>
      e = cellIssued n c idx 1 w (storedEffs w (if a.msb then -a else a) (decide (a = 0x80000000#32)) (some a.msb)) d))

/-- A cell that issues one of these contexts in s32 mode on registers stores the result in DST one ACLK later with its flags, C telling for MIN, MAX and CLIP that the other value was taken; no other state changes. -/
def Obligations.CellComparesAndLogic : Prop :=
  (∀ (n : Fin 96) (c : Fin 16) (idx : Nat) (w : Ctx) (a : BitVec 32) (b : BitVec 32) (d : Dev),
    d.cellAt n c idx w = true →
    plainCtx 9 0 w = true →
    (((d.isle n).cell c).arch.get w.sa.toNat) = a →
    (((d.isle n).cell c).arch.get w.sb.toNat) = b →
    On (.min n c) d (fun e =>
      e = cellIssued n c idx 1 w (storedEffs w (if b.slt a then b else a) (false) (some (b.slt a))) d)) ∧
  (∀ (n : Fin 96) (c : Fin 16) (idx : Nat) (w : Ctx) (a : BitVec 32) (b : BitVec 32) (d : Dev),
    d.cellAt n c idx w = true →
    plainCtx 10 0 w = true →
    (((d.isle n).cell c).arch.get w.sa.toNat) = a →
    (((d.isle n).cell c).arch.get w.sb.toNat) = b →
    On (.max n c) d (fun e =>
      e = cellIssued n c idx 1 w (storedEffs w (if a.slt b then b else a) (false) (some (a.slt b))) d)) ∧
  (∀ (n : Fin 96) (c : Fin 16) (idx : Nat) (w : Ctx) (a : BitVec 32) (b : BitVec 32) (d : Dev),
    d.cellAt n c idx w = true →
    plainCtx 11 0 w = true →
    (((d.isle n).cell c).arch.get w.sa.toNat) = a →
    (((d.isle n).cell c).arch.get w.sb.toNat) = b →
    On (.and n c) d (fun e =>
      e = cellIssued n c idx 1 w (storedEffs w (a &&& b) (false) (none)) d)) ∧
  (∀ (n : Fin 96) (c : Fin 16) (idx : Nat) (w : Ctx) (a : BitVec 32) (b : BitVec 32) (d : Dev),
    d.cellAt n c idx w = true →
    plainCtx 12 0 w = true →
    (((d.isle n).cell c).arch.get w.sa.toNat) = a →
    (((d.isle n).cell c).arch.get w.sb.toNat) = b →
    On (.or n c) d (fun e =>
      e = cellIssued n c idx 1 w (storedEffs w (a ||| b) (false) (none)) d)) ∧
  (∀ (n : Fin 96) (c : Fin 16) (idx : Nat) (w : Ctx) (a : BitVec 32) (b : BitVec 32) (d : Dev),
    d.cellAt n c idx w = true →
    plainCtx 13 0 w = true →
    (((d.isle n).cell c).arch.get w.sa.toNat) = a →
    (((d.isle n).cell c).arch.get w.sb.toNat) = b →
    On (.xor n c) d (fun e =>
      e = cellIssued n c idx 1 w (storedEffs w (a ^^^ b) (false) (none)) d)) ∧
  (∀ (n : Fin 96) (c : Fin 16) (idx : Nat) (w : Ctx) (a : BitVec 32) (z : BitVec 32) (d : Dev),
    d.cellAt n c idx w = true →
    plainCtx 14 0 w = true →
    (((d.isle n).cell c).arch.get w.sa.toNat) = a →
    (((d.isle n).cell c).arch.get w.sc.toNat) = z →
    On (.andc n c) d (fun e =>
      e = cellIssued n c idx 1 w (storedEffs w (a &&& z) (false) (none)) d)) ∧
  (∀ (n : Fin 96) (c : Fin 16) (idx : Nat) (w : Ctx) (a : BitVec 32) (z : BitVec 32) (d : Dev),
    d.cellAt n c idx w = true →
    plainCtx 15 0 w = true →
    (((d.isle n).cell c).arch.get w.sa.toNat) = a →
    (((d.isle n).cell c).arch.get w.sc.toNat) = z →
    On (.orc n c) d (fun e =>
      e = cellIssued n c idx 1 w (storedEffs w (a ||| z) (false) (none)) d)) ∧
  (∀ (n : Fin 96) (c : Fin 16) (idx : Nat) (w : Ctx) (a : BitVec 32) (z : BitVec 32) (d : Dev),
    d.cellAt n c idx w = true →
    plainCtx 16 0 w = true →
    (((d.isle n).cell c).arch.get w.sa.toNat) = a →
    (((d.isle n).cell c).arch.get w.sc.toNat) = z →
    On (.xorc n c) d (fun e =>
      e = cellIssued n c idx 1 w (storedEffs w (a ^^^ z) (false) (none)) d)) ∧
  (∀ (n : Fin 96) (c : Fin 16) (idx : Nat) (w : Ctx) (a : BitVec 32) (d : Dev),
    d.cellAt n c idx w = true →
    plainCtx 17 0 w = true →
    (((d.isle n).cell c).arch.get w.sa.toNat) = a →
    On (.not n c) d (fun e =>
      e = cellIssued n c idx 1 w (storedEffs w (~~~a) (false) (none)) d)) ∧
  (∀ (n : Fin 96) (c : Fin 16) (idx : Nat) (w : Ctx) (a : BitVec 32) (z : BitVec 32) (d : Dev),
    d.cellAt n c idx w = true →
    plainCtx 24 0 w = true →
    (((d.isle n).cell c).arch.get w.sa.toNat) = a →
    (((d.isle n).cell c).arch.get w.sc.toNat) = z →
    On (.clip n c) d (fun e =>
      e = cellIssued n c idx 1 w (storedEffs w (BitVec.ofInt 32 (max (-(z.toInt.natAbs : Int)) (min (z.toInt.natAbs : Int) a.toInt))) (false) (some (decide ((z.toInt.natAbs : Int) < a.toInt ∨ a.toInt < -(z.toInt.natAbs : Int))))) d))

/-- A cell that issues one of these contexts on registers stores the result in DST one ACLK later with its flags: shifts by C modulo 32 with the last bit shifted out in C, the count of redundant sign bits, the normalised word, exchanged and packed halves, the conjugate, the selected switch input, the operand chosen by COND; no other state changes. -/
def Obligations.CellShiftsAndSelects : Prop :=
  (∀ (n : Fin 96) (c : Fin 16) (idx : Nat) (w : Ctx) (a : BitVec 32) (k : Nat) (d : Dev),
    d.cellAt n c idx w = true →
    plainCtx 18 0 w = true →
    (((d.isle n).cell c).arch.get w.sa.toNat) = a →
    (((d.isle n).cell c).arch.get w.sc.toNat).toNat % 32 = k →
    On (.shl n c) d (fun e =>
      e = cellIssued n c idx 1 w (storedEffs w (a <<< k) (false) (some (decide (k ≠ 0) && a.getLsbD (32 - k)))) d)) ∧
  (∀ (n : Fin 96) (c : Fin 16) (idx : Nat) (w : Ctx) (a : BitVec 32) (k : Nat) (d : Dev),
    d.cellAt n c idx w = true →
    plainCtx 19 0 w = true →
    (((d.isle n).cell c).arch.get w.sa.toNat) = a →
    (((d.isle n).cell c).arch.get w.sc.toNat).toNat % 32 = k →
    On (.shr n c) d (fun e =>
      e = cellIssued n c idx 1 w (storedEffs w (a >>> k) (false) (some (decide (k ≠ 0) && a.getLsbD (k - 1)))) d)) ∧
  (∀ (n : Fin 96) (c : Fin 16) (idx : Nat) (w : Ctx) (a : BitVec 32) (k : Nat) (d : Dev),
    d.cellAt n c idx w = true →
    plainCtx 20 0 w = true →
    (((d.isle n).cell c).arch.get w.sa.toNat) = a →
    (((d.isle n).cell c).arch.get w.sc.toNat).toNat % 32 = k →
    On (.shra n c) d (fun e =>
      e = cellIssued n c idx 1 w (storedEffs w (a.sshiftRight k) (false) (some (decide (k ≠ 0) && a.getLsbD (k - 1)))) d)) ∧
  (∀ (n : Fin 96) (c : Fin 16) (idx : Nat) (w : Ctx) (a : BitVec 32) (k : Nat) (d : Dev),
    d.cellAt n c idx w = true →
    plainCtx 21 0 w = true →
    (((d.isle n).cell c).arch.get w.sa.toNat) = a →
    (((d.isle n).cell c).arch.get w.sc.toNat).toNat % 32 = k →
    On (.rol n c) d (fun e =>
      e = cellIssued n c idx 1 w (storedEffs w (a.rotateLeft k) (false) (some (decide (k ≠ 0) && (a.rotateLeft k).getLsbD 0))) d)) ∧
  (∀ (n : Fin 96) (c : Fin 16) (idx : Nat) (w : Ctx) (a : BitVec 32) (k : Nat) (d : Dev),
    d.cellAt n c idx w = true →
    plainCtx 22 0 w = true →
    (((d.isle n).cell c).arch.get w.sa.toNat) = a →
    k < 32 →
    (∀ i : Fin 32, 31 - k ≤ i.val → a.getLsbD i = a.msb) →
    k = 31 ∨ a.getLsbD (30 - k) ≠ a.msb →
    On (.exp n c) d (fun e =>
      e = cellIssued n c idx 1 w [.reg w.dst.toNat (BitVec.ofNat 32 k), .flags 3#16 (BitVec.ofNat 16 (if k = 0 then 1 else 0)), .output (BitVec.ofNat 32 k) w.sout.toNat w.sch.toNat true] d)) ∧
  (∀ (n : Fin 96) (c : Fin 16) (idx : Nat) (w : Ctx) (a : BitVec 32) (k : Nat) (d : Dev),
    d.cellAt n c idx w = true →
    plainCtx 23 0 w = true →
    (((d.isle n).cell c).arch.get w.sa.toNat) = a →
    k < 32 →
    (∀ i : Fin 32, 31 - k ≤ i.val → a.getLsbD i = a.msb) →
    k = 31 ∨ a.getLsbD (30 - k) ≠ a.msb →
    On (.norm n c) d (fun e =>
      e = cellIssued n c idx 1 w [.reg w.dst.toNat (a <<< k), .flags 3#16 (BitVec.ofNat 16 ((if a <<< k = 0#32 then 1 else 0) + (if (a <<< k).msb then 2 else 0))), .output (a <<< k) w.sout.toNat w.sch.toNat true] d)) ∧
  (∀ (n : Fin 96) (c : Fin 16) (idx : Nat) (w : Ctx) (a : BitVec 32) (d : Dev),
    d.cellAt n c idx w = true →
    plainCtx 25 0 w = true →
    (((d.isle n).cell c).arch.get w.sa.toNat) = a →
    On (.swaph n c) d (fun e =>
      e = cellIssued n c idx 1 w (storedEffs w (a.rotateLeft 16) (false) (none)) d)) ∧
  (∀ (n : Fin 96) (c : Fin 16) (idx : Nat) (w : Ctx) (a : BitVec 32) (b : BitVec 32) (d : Dev),
    d.cellAt n c idx w = true →
    plainCtx 26 0 w = true →
    (((d.isle n).cell c).arch.get w.sa.toNat) = a →
    (((d.isle n).cell c).arch.get w.sb.toNat) = b →
    On (.pack n c) d (fun e =>
      e = cellIssued n c idx 1 w (storedEffs w (BitVec.ofNat 32 (a.toNat % 65536 + b.toNat % 65536 * 65536)) (false) (none)) d)) ∧
  (∀ (n : Fin 96) (c : Fin 16) (idx : Nat) (w : Ctx) (a : BitVec 32) (d : Dev),
    d.cellAt n c idx w = true →
    plainCtx 27 3 w = true →
    (((d.isle n).cell c).arch.get w.sa.toNat) = a →
    On (.conj n c) d (fun e =>
      e = cellIssued n c idx 1 w (storedEffs w (BitVec.ofNat 32 (a.toNat % 65536 + (65536 - a.toNat / 65536) % 65536 * 65536)) (decide (a.toNat / 65536 = 0x8000)) (none)) d)) ∧
  (∀ (n : Fin 96) (c : Fin 16) (idx : Nat) (w : Ctx) (a : BitVec 32) (z : BitVec 32) (d : Dev),
    d.cellAt n c idx w = true →
    plainCtx 28 0 w = true →
    (((d.isle n).cell c).arch.get w.sa.toNat) = a →
    (((d.isle n).cell c).arch.get w.sc.toNat) = z →
    On (.selx n c) d (fun e =>
      e = cellIssued n c idx 1 w (storedEffs w (d.switchIn n c (a.toNat / 2 ^ (z.toNat % 32) % 8)) (false) (none)) d)) ∧
  (∀ (n : Fin 96) (c : Fin 16) (idx : Nat) (w : Ctx) (a : BitVec 32) (b : BitVec 32) (d : Dev),
    d.cellAt n c idx w = true →
    plainCtx 29 0 w = true →
    (((d.isle n).cell c).arch.get w.sa.toNat) = a →
    (((d.isle n).cell c).arch.get w.sb.toNat) = b →
    On (.csel n c) d (fun e =>
      e = cellIssued n c idx 1 w (storedEffs w (if condTrue w.cond.toNat ((d.isle n).cell c).arch.flg then a else b) (false) (none)) d))

/-- MPY with ACC 0 stores the narrowed product two ACLK later; the loading, accumulating and subtracting opcodes change the named accumulators by P[63:16] in s32 mode and by the complex sums in c16 mode, modulo 2^48 with AV0 and AV1 telling an overflow, starting from the chained value; ACCLD, ACCPRE and ACCST load, preset and store an accumulator. No other state changes. -/
def Obligations.CellMultiplies : Prop :=
  (∀ (n : Fin 96) (c : Fin 16) (idx : Nat) (w : Ctx) (a z : BitVec 32) (d : Dev),
    d.cellAt n c idx w = true →
    plainCtx 32 0 w = true →
    w.acc = 0 →
    (((d.isle n).cell c).arch.get w.sa.toNat) = a →
    (((d.isle n).cell c).arch.get w.sc.toNat) = z →
    On (.mpy n c) d (fun e =>
      e = cellIssued n c idx 2 w (storedEffs w (a * z) (BitVec.smulOverflow a z) none) d)) ∧
  (∀ (n : Fin 96) (c : Fin 16) (idx : Nat) (w : Ctx) (a z : BitVec 32) (d : Dev),
    d.cellAt n c idx w = true →
    plainCtx 32 0 w = true →
    w.acc = 1 →
    (((d.isle n).cell c).arch.get w.sa.toNat) = a →
    (((d.isle n).cell c).arch.get w.sc.toNat) = z →
    On (.mpy n c) d (fun e =>
      e = cellIssued n c idx 2 w ([.acc 0 (BitVec.ofInt 48 (a.toInt * z.toInt / 65536))]) d)) ∧
  (∀ (n : Fin 96) (c : Fin 16) (idx : Nat) (w : Ctx) (a z : BitVec 32) (d : Dev),
    d.cellAt n c idx w = true →
    plainCtx 33 0 w = true →
    w.acc = 1 →
    (((d.isle n).cell c).arch.get w.sa.toNat) = a →
    (((d.isle n).cell c).arch.get w.sc.toNat) = z →
    On (.mac n c) d (fun e =>
      e = cellIssued n c idx 2 w (accEffs 0 ((chained ((d.isle n).cell c) false 0).toInt + a.toInt * z.toInt / 65536)) d)) ∧
  (∀ (n : Fin 96) (c : Fin 16) (idx : Nat) (w : Ctx) (a z : BitVec 32) (d : Dev),
    d.cellAt n c idx w = true →
    plainCtx 33 0 w = true →
    w.acc = 2 →
    (((d.isle n).cell c).arch.get w.sa.toNat) = a →
    (((d.isle n).cell c).arch.get w.sc.toNat) = z →
    On (.mac n c) d (fun e =>
      e = cellIssued n c idx 2 w (accEffs 1 ((chained ((d.isle n).cell c) false 1).toInt + a.toInt * z.toInt / 65536)) d)) ∧
  (∀ (n : Fin 96) (c : Fin 16) (idx : Nat) (w : Ctx) (a z : BitVec 32) (d : Dev),
    d.cellAt n c idx w = true →
    plainCtx 34 0 w = true →
    w.acc = 1 →
    (((d.isle n).cell c).arch.get w.sa.toNat) = a →
    (((d.isle n).cell c).arch.get w.sc.toNat) = z →
    On (.msu n c) d (fun e =>
      e = cellIssued n c idx 2 w (accEffs 0 ((chained ((d.isle n).cell c) false 0).toInt - a.toInt * z.toInt / 65536)) d)) ∧
  (∀ (n : Fin 96) (c : Fin 16) (idx : Nat) (w : Ctx) (a z : BitVec 32) (d : Dev),
    d.cellAt n c idx w = true →
    plainCtx 35 3 w = true →
    w.acc = 3 →
    (((d.isle n).cell c).arch.get w.sa.toNat) = a →
    (((d.isle n).cell c).arch.get w.sc.toNat) = z →
    On (.mpyj n c) d (fun e =>
      e = cellIssued n c idx 2 w ([.acc 0 (BitVec.ofInt 48 ((BitVec.extractLsb' 0 16 a).toInt * (BitVec.extractLsb' 0 16 z).toInt + (BitVec.extractLsb' 16 16 a).toInt * (BitVec.extractLsb' 16 16 z).toInt)), .acc 1 (BitVec.ofInt 48 ((BitVec.extractLsb' 16 16 a).toInt * (BitVec.extractLsb' 0 16 z).toInt - (BitVec.extractLsb' 0 16 a).toInt * (BitVec.extractLsb' 16 16 z).toInt))]) d)) ∧
  (∀ (n : Fin 96) (c : Fin 16) (idx : Nat) (w : Ctx) (a z : BitVec 32) (d : Dev),
    d.cellAt n c idx w = true →
    plainCtx 38 3 w = true →
    w.acc = 3 →
    (((d.isle n).cell c).arch.get w.sa.toNat) = a →
    (((d.isle n).cell c).arch.get w.sc.toNat) = z →
    On (.mpyr n c) d (fun e =>
      e = cellIssued n c idx 2 w ([.acc 0 (BitVec.ofInt 48 ((BitVec.extractLsb' 0 16 a).toInt * (BitVec.extractLsb' 0 16 z).toInt)), .acc 1 (BitVec.ofInt 48 ((BitVec.extractLsb' 0 16 a).toInt * (BitVec.extractLsb' 16 16 z).toInt))]) d)) ∧
  (∀ (n : Fin 96) (c : Fin 16) (idx : Nat) (w : Ctx) (a z : BitVec 32) (d : Dev),
    d.cellAt n c idx w = true →
    plainCtx 36 3 w = true →
    w.acc = 3 →
    (((d.isle n).cell c).arch.get w.sa.toNat) = a →
    (((d.isle n).cell c).arch.get w.sc.toNat) = z →
    -(2 ^ 46) ≤ (chained ((d.isle n).cell c) false 0).toInt ∧ (chained ((d.isle n).cell c) false 0).toInt < 2 ^ 46 →
    -(2 ^ 46) ≤ (chained ((d.isle n).cell c) false 1).toInt ∧ (chained ((d.isle n).cell c) false 1).toInt < 2 ^ 46 →
    On (.macj n c) d (fun e =>
      e = cellIssued n c idx 2 w ([.acc 0 (BitVec.ofInt 48 ((chained ((d.isle n).cell c) false 0).toInt + ((BitVec.extractLsb' 0 16 a).toInt * (BitVec.extractLsb' 0 16 z).toInt + (BitVec.extractLsb' 16 16 a).toInt * (BitVec.extractLsb' 16 16 z).toInt))), .acc 1 (BitVec.ofInt 48 ((chained ((d.isle n).cell c) false 1).toInt + ((BitVec.extractLsb' 16 16 a).toInt * (BitVec.extractLsb' 0 16 z).toInt - (BitVec.extractLsb' 0 16 a).toInt * (BitVec.extractLsb' 16 16 z).toInt)))]) d)) ∧
  (∀ (n : Fin 96) (c : Fin 16) (idx : Nat) (w : Ctx) (a z : BitVec 32) (d : Dev),
    d.cellAt n c idx w = true →
    plainCtx 37 3 w = true →
    w.acc = 3 →
    (((d.isle n).cell c).arch.get w.sa.toNat) = a →
    (((d.isle n).cell c).arch.get w.sc.toNat) = z →
    -(2 ^ 46) ≤ (chained ((d.isle n).cell c) false 0).toInt ∧ (chained ((d.isle n).cell c) false 0).toInt < 2 ^ 46 →
    -(2 ^ 46) ≤ (chained ((d.isle n).cell c) false 1).toInt ∧ (chained ((d.isle n).cell c) false 1).toInt < 2 ^ 46 →
    On (.msuj n c) d (fun e =>
      e = cellIssued n c idx 2 w ([.acc 0 (BitVec.ofInt 48 ((chained ((d.isle n).cell c) false 0).toInt - ((BitVec.extractLsb' 0 16 a).toInt * (BitVec.extractLsb' 0 16 z).toInt + (BitVec.extractLsb' 16 16 a).toInt * (BitVec.extractLsb' 16 16 z).toInt))), .acc 1 (BitVec.ofInt 48 ((chained ((d.isle n).cell c) false 1).toInt - ((BitVec.extractLsb' 16 16 a).toInt * (BitVec.extractLsb' 0 16 z).toInt - (BitVec.extractLsb' 0 16 a).toInt * (BitVec.extractLsb' 16 16 z).toInt)))]) d)) ∧
  (∀ (n : Fin 96) (c : Fin 16) (idx : Nat) (w : Ctx) (a z : BitVec 32) (d : Dev),
    d.cellAt n c idx w = true →
    plainCtx 39 3 w = true →
    w.acc = 3 →
    (((d.isle n).cell c).arch.get w.sa.toNat) = a →
    (((d.isle n).cell c).arch.get w.sc.toNat) = z →
    -(2 ^ 46) ≤ (chained ((d.isle n).cell c) false 0).toInt ∧ (chained ((d.isle n).cell c) false 0).toInt < 2 ^ 46 →
    -(2 ^ 46) ≤ (chained ((d.isle n).cell c) false 1).toInt ∧ (chained ((d.isle n).cell c) false 1).toInt < 2 ^ 46 →
    On (.macr n c) d (fun e =>
      e = cellIssued n c idx 2 w ([.acc 0 (BitVec.ofInt 48 ((chained ((d.isle n).cell c) false 0).toInt + (BitVec.extractLsb' 0 16 a).toInt * (BitVec.extractLsb' 0 16 z).toInt)), .acc 1 (BitVec.ofInt 48 ((chained ((d.isle n).cell c) false 1).toInt + (BitVec.extractLsb' 0 16 a).toInt * (BitVec.extractLsb' 16 16 z).toInt))]) d)) ∧
  (∀ (n : Fin 96) (c : Fin 16) (idx : Nat) (w : Ctx) (a z : BitVec 32) (d : Dev),
    d.cellAt n c idx w = true →
    plainCtx 40 3 w = true →
    w.acc = 3 →
    (((d.isle n).cell c).arch.get w.sa.toNat) = a →
    (((d.isle n).cell c).arch.get w.sc.toNat) = z →
    -(2 ^ 46) ≤ (chained ((d.isle n).cell c) false 0).toInt ∧ (chained ((d.isle n).cell c) false 0).toInt < 2 ^ 46 →
    -(2 ^ 46) ≤ (chained ((d.isle n).cell c) false 1).toInt ∧ (chained ((d.isle n).cell c) false 1).toInt < 2 ^ 46 →
    On (.msur n c) d (fun e =>
      e = cellIssued n c idx 2 w ([.acc 0 (BitVec.ofInt 48 ((chained ((d.isle n).cell c) false 0).toInt - (BitVec.extractLsb' 0 16 a).toInt * (BitVec.extractLsb' 0 16 z).toInt)), .acc 1 (BitVec.ofInt 48 ((chained ((d.isle n).cell c) false 1).toInt - (BitVec.extractLsb' 0 16 a).toInt * (BitVec.extractLsb' 16 16 z).toInt))]) d)) ∧
  (∀ (n : Fin 96) (c : Fin 16) (idx : Nat) (w : Ctx) (a b : BitVec 32) (d : Dev),
    d.cellAt n c idx w = true →
    plainCtx 41 0 w = true →
    w.acc = 2 →
    (((d.isle n).cell c).arch.get w.sa.toNat) = a →
    (((d.isle n).cell c).arch.get w.sb.toNat) = b →
    On (.accld n c) d (fun e =>
      e = cellIssued n c idx 2 w [.acc 1 (BitVec.extractLsb' 0 16 a ++ b)] d)) ∧
  (∀ (n : Fin 96) (c : Fin 16) (idx : Nat) (w : Ctx) (a z : BitVec 32) (d : Dev),
    d.cellAt n c idx w = true →
    plainCtx 42 0 w = true →
    w.acc = 1 →
    (((d.isle n).cell c).arch.get w.sa.toNat) = a →
    (((d.isle n).cell c).arch.get w.sc.toNat) = z →
    On (.accpre n c) d (fun e =>
      e = cellIssued n c idx 2 w ([.acc 0 (z.signExtend 48)]) d)) ∧
  (∀ (n : Fin 96) (c : Fin 16) (idx : Nat) (w : Ctx) (a z : BitVec 32) (d : Dev),
    d.cellAt n c idx w = true →
    plainCtx 43 0 w = true →
    w.acc = 1 →
    (((d.isle n).cell c).arch.get w.sa.toNat) = a →
    (((d.isle n).cell c).arch.get w.sc.toNat) = z →
    On (.accst n c) d (fun e =>
      e = cellIssued n c idx 1 w (storedEffs w (((d.isle n).cell c).arch.acc0.setWidth 32) (decide (((d.isle n).cell c).arch.acc0.toInt < -(2 ^ 31) ∨ 2 ^ 31 ≤ ((d.isle n).cell c).arch.acc0.toInt)) none) d))

/-- After a context the cell runs NEXT (RUN), NEXT or the following index by COND (branch), NEXT with the loop counter loaded (repeat start), NEXT with the counter one less or the following index with the counter 0 (repeat end); wait-token consumes a credit of its group or waits, landfall-sync waits, and the yield of the last member of a group ends its activation and sets the resume index. The decode cache and the pass of the repeat level follow (R76). Nothing else changes. -/
def Obligations.CellSequencing : Prop :=
  (∀ (n : Fin 96) (c : Fin 16) (idx : Nat) (w : Ctx) (d : Dev),
    d.cellAt n c idx w = true →
    w.op = 0 →
    w.pstep = 0 →
    w.tok = 0 →
    w.seq = 0 →
    On (.nop n c) d (fun e =>
      e = d.modCell n c (fun x => { x with mode := .run w.next.toNat, nextAt := d.now + d.step n, dcache := cacheIssue (x.pass.any (fun e => e.2 = 1)) idx x.dcache }))) ∧
  (∀ (n : Fin 96) (c : Fin 16) (idx : Nat) (w : Ctx) (d : Dev),
    d.cellAt n c idx w = true →
    w.op = 0 →
    w.pstep = 0 →
    w.tok = 0 →
    w.seq = 1 →
    On (.nop n c) d (fun e =>
      e = d.modCell n c (fun x => { x with mode := .run (if condTrue w.cond.toNat ((d.isle n).cell c).arch.flg then w.next.toNat else (idx + 1) % 16), nextAt := d.now + d.step n, dcache := cacheIssue (x.pass.any (fun e => e.2 = 1)) idx x.dcache }))) ∧
  (∀ (n : Fin 96) (c : Fin 16) (idx : Nat) (w : Ctx) (d : Dev),
    d.cellAt n c idx w = true →
    w.op = 0 →
    w.pstep = 0 →
    w.tok = 0 →
    w.seq = 2 →
    On (.nop n c) d (fun e =>
      e = d.modCell n c (fun x => { x with mode := .run w.next.toNat, nextAt := d.now + d.step n, dcache := cacheIssue (x.pass.any (fun e => e.2 = 1)) idx x.dcache, pend := x.pend ++ [{ due := d.now + d.step n, both := true, eff := .reg (0x18 + w.lvl.toNat) (w.imm.zeroExtend 32) }], pass := tset 0 x.pass w.lvl.toNat 1 }))) ∧
  (∀ (n : Fin 96) (c : Fin 16) (idx : Nat) (w : Ctx) (k : BitVec 32) (d : Dev),
    d.cellAt n c idx w = true →
    w.op = 0 →
    w.pstep = 0 →
    w.tok = 0 →
    w.seq = 3 →
    ((d.isle n).cell c).arch.get (0x18 + w.lvl.toNat) = k →
    2 ≤ k.toNat →
    On (.nop n c) d (fun e =>
      e = d.modCell n c (fun x => { x with mode := .run w.next.toNat, nextAt := d.now + d.step n, dcache := cacheIssue (x.pass.any (fun e => e.2 = 1)) idx x.dcache, pend := x.pend ++ [{ due := d.now + d.step n, both := true, eff := .reg (0x18 + w.lvl.toNat) (k - 1) }], pass := tset 0 x.pass w.lvl.toNat 2 }))) ∧
  (∀ (n : Fin 96) (c : Fin 16) (idx : Nat) (w : Ctx) (d : Dev),
    d.cellAt n c idx w = true →
    w.op = 0 →
    w.pstep = 0 →
    w.tok = 0 →
    w.seq = 3 →
    (((d.isle n).cell c).arch.get (0x18 + w.lvl.toNat)).toNat < 2 →
    On (.nop n c) d (fun e =>
      e = d.modCell n c (fun x => { x with mode := .run ((idx + 1) % 16), nextAt := d.now + d.step n, dcache := cacheIssue (x.pass.any (fun e => e.2 = 1)) idx x.dcache, pend := x.pend ++ [{ due := d.now + d.step n, both := true, eff := .reg (0x18 + w.lvl.toNat) 0 }], pass := tset 0 x.pass w.lvl.toNat 0 }))) ∧
  (∀ (n : Fin 96) (c : Fin 16) (idx : Nat) (w : Ctx) (d : Dev),
    d.cellAt n c idx w = true →
    w.op = 0 →
    w.pstep = 0 →
    w.tok = 0 →
    w.seq = 4 →
    ((d.isle n).grp ((d.isle n).cell c).group).rcred = false →
    On (.nop n c) d (fun e =>
      e = d.modCell n c (fun x => { x with mode := .waitToken idx w.next.toNat (decide (w.qp = 1)), nextAt := d.now + d.step n, dcache := cacheIssue (x.pass.any (fun e => e.2 = 1)) idx x.dcache }))) ∧
  (∀ (n : Fin 96) (c : Fin 16) (idx : Nat) (w : Ctx) (d : Dev),
    d.cellAt n c idx w = true →
    w.op = 0 →
    w.pstep = 0 →
    w.tok = 0 →
    w.seq = 4 →
    ((d.isle n).grp ((d.isle n).cell c).group).rcred = true →
    On (.nop n c) d (fun e =>
      ((e.isle n).cell c) = { ((d.isle n).cell c) with mode := .run w.next.toNat, nextAt := d.now + d.step n, dcache := cacheIssue (((d.isle n).cell c).pass.any (fun e => e.2 = 1)) idx ((d.isle n).cell c).dcache } ∧ ((e.isle n).grp ((d.isle n).cell c).group) = { (d.isle n).grp ((d.isle n).cell c).group with rcred := false } ∧ e = { d with isles := e.isles })) ∧
  (∀ (n : Fin 96) (c : Fin 16) (idx : Nat) (w : Ctx) (d : Dev),
    d.cellAt n c idx w = true →
    w.op = 0 →
    w.pstep = 0 →
    w.tok = 0 →
    w.seq = 5 →
    w.qp = 0 →
    (∀ k : Fin 16, k ≠ c → wbit (BitVec.ofNat 16 (d.rd (IS_GRPg_MASK n ((d.isle n).cell c).group))) k = true → ((d.isle n).cell k).group = ((d.isle n).cell c).group → ((d.isle n).cell k).mode = .idle) →
    On (.nop n c) d (fun e =>
      ((e.isle n).cell c).mode = .idle ∧ tget 0 ((e.isle n).cell c).resume ((d.isle n).cell c).group = w.next.toNat ∧ e.rdBit (IS_STAT_ACTIVE n) ((d.isle n).cell c).group = false ∧ ((e.isle n).grp ((d.isle n).cell c).group).endAt = d.now + d.step n ∧ (∀ k, k ≠ c.val → (e.isle n).cell k = (d.isle n).cell k) ∧ RegsBut [IS_STAT n] d e ∧ e = { d with regs := e.regs, flags := e.flags, isles := e.isles })) ∧
  (∀ (n : Fin 96) (c : Fin 16) (idx : Nat) (w : Ctx) (d : Dev),
    d.cellAt n c idx w = true →
    w.op = 0 →
    w.pstep = 0 →
    w.tok = 0 →
    w.seq = 6 →
    On (.nop n c) d (fun e =>
      e = d.modCell n c (fun x => { x with mode := .waitLandfall idx w.next.toNat (decide (w.qp = 1)) false, nextAt := d.now + d.step n, dcache := cacheIssue (x.pass.any (fun e => e.2 = 1)) idx x.dcache })))

/-- A post-step moves the selected pointer by PSTEP modulo 2^15, circularly within BASE and LEN where CIRC is set; a pointer operand reads the lagoon word the pointer named before the step and its result takes two ACLK; a lagoon destination is written when the result lands; a token leaves through its descriptor once every result of its context is visible. -/
def Obligations.CellPointersAndLagoon : Prop :=
  (∀ (n : Fin 96) (c : Fin 16) (idx : Nat) (w : Ctx) (k : Nat) (d : Dev),
    d.cellAt n c idx w = true →
    w.op = 0 →
    w.seq = 0 →
    w.tok = 0 →
    w.pstep ≠ 0 →
    w.circ = 0 →
    (((d.isle n).cell c).arch.get (0x0C + w.psel.toNat)).toNat = k →
    k < 2 ^ 15 →
    On (.nop n c) d (fun e =>
      e = d.modCell n c (fun x => { x with mode := .run w.next.toNat, nextAt := d.now + d.step n, dcache := cacheIssue (x.pass.any (fun e => e.2 = 1)) idx x.dcache, pend := x.pend ++ [{ due := d.now + d.step n, both := true, eff := .reg (0x0C + w.psel.toNat) (w32 ((((k : Int) + w.pstep.toInt) % 2 ^ 15).toNat)) }] }))) ∧
  (∀ (n : Fin 96) (c : Fin 16) (idx : Nat) (w : Ctx) (k b l : Nat) (d : Dev),
    d.cellAt n c idx w = true →
    w.op = 0 →
    w.seq = 0 →
    w.tok = 0 →
    w.pstep ≠ 0 →
    w.circ = 1 →
    (((d.isle n).cell c).arch.get (0x0C + w.psel.toNat)).toNat = k →
    (((d.isle n).cell c).arch.get (0x10 + w.psel.toNat)).toNat = b →
    (((d.isle n).cell c).arch.get (0x14 + w.psel.toNat)).toNat = l →
    b ≤ k →
    k < b + l →
    b + l ≤ 2 ^ 15 →
    8 ≤ l →
    On (.nop n c) d (fun e =>
      e = d.modCell n c (fun x => { x with mode := .run w.next.toNat, nextAt := d.now + d.step n, dcache := cacheIssue (x.pass.any (fun e => e.2 = 1)) idx x.dcache, pend := x.pend ++ [{ due := d.now + d.step n, both := true, eff := .reg (0x0C + w.psel.toNat) (w32 (b + ((((k - b : Nat) : Int) + w.pstep.toInt) % (l : Int)).toNat)) }] }))) ∧
  (∀ (n : Fin 96) (c : Fin 16) (idx : Nat) (w : Ctx) (d : Dev),
    d.cellAt n c idx w = true →
    w.op = 0 →
    w.seq = 0 →
    w.pstep = 0 →
    w.tok ≠ 0 →
    On (.nop n c) d (fun e =>
      e = d.modCell n c (fun x => { x with mode := .run w.next.toNat, nextAt := d.now + d.step n, dcache := cacheIssue (x.pass.any (fun e => e.2 = 1)) idx x.dcache, toks := x.toks ++ [{ due := d.now + d.step n, desc := w.tok.toNat, tag := ((d.isle n).grp ((d.isle n).cell c).group).tag, spec := false, ra := none }] }))) ∧
  (∀ (n : Fin 96) (c : Fin 16) (idx : Nat) (w : Ctx) (k : Nat) (v : BitVec 32) (d : Dev),
    d.cellAt n c idx w = true →
    w.op = 1 →
    w.mode = 0 →
    w.seq = 0 →
    w.pstep = 0 →
    w.tok = 0 →
    w.shf = 0 →
    w.sat = 0 →
    w.dst.toNat < 8 →
    w.sa = 0x1C →
    (((d.isle n).cell c).arch.get (0x0C + w.psel.toNat)).toNat = k →
    k < 32768 →
    (d.isle n).ports = [] →
    (d.isle n).old = [] →
    d.readsAhead n c = [] →
    d.wordErr (lagoonAddr n k) = 0 →
    d.load32 (lagoonAddr n k) = v →
    On (.mov n c) d (fun e =>
      e = cellIssued n c idx 2 w (storedEffs w v false none) (d.setIsle n { d.isle n with ports := [{ seq := 0, cell := c, direct := false, addr := k, write := false, old := none }] }))) ∧
  (∀ (n : Fin 96) (c : Fin 16) (idx : Nat) (w : Ctx) (k : Nat) (d : Dev),
    d.cellAt n c idx w = true →
    w.op = 1 →
    w.mode = 0 →
    w.seq = 0 →
    w.pstep = 0 →
    w.tok = 0 →
    w.shf = 0 →
    w.sat = 0 →
    w.dst = 0x1C →
    w.sa.toNat < 8 →
    (((d.isle n).cell c).arch.get (0x0C + w.psel.toNat)).toNat = k →
    On (.mov n c) d (fun e =>
      e = cellIssued n c idx 1 w [.lagoon k false (((d.isle n).cell c).arch.get w.sa.toNat), .flags (resultFlags 0 (((d.isle n).cell c).arch.get w.sa.toNat) false none).1 (resultFlags 0 (((d.isle n).cell c).arch.get w.sa.toNat) false none).2, .output (((d.isle n).cell c).arch.get w.sa.toNat) w.sout.toNat w.sch.toNat true] d)) ∧
  (∀ (n : Fin 96) (c : Fin 16) (idx : Nat) (d : Dev),
    d.issueAt n c = some idx →
    d.ctxBad n c idx = true →
    On (.malformedIssue n c) d (fun e =>
      ((e.isle n).cell c) = { ((d.isle n).cell c) with mode := .run ((idx + 1) % 16), nextAt := d.now + d.step n } ∧ e.rd (IS_STAT_MALF n) = 1 ∧ (e.isle n).gateFault = true ∧ e.rd (IS_STAT_GATED n) = 1 ∧ (∀ r ∈ d.ev.repairs, r ∈ e.ev.repairs) ∧ (e.ev.repairs.any (fun r => decide (r.unit = n.val)) = true) ∧ e.mem = d.mem))

/-- Narrowing shifts the exact value by SHF, rounding toward minus infinity; with SAT a value outside the range becomes the nearest limit and V and the saturation mark are set; without SAT it wraps and V tells that it was outside. A stored word sets Z where it is 0 and N to its top bit; the ordering conditions read as signed comparisons of the operands of a subtraction. -/
def Obligations.NarrowingAndFlags : Prop :=
  (∀ (v : Int) (s : Bool), -(2 ^ 31) ≤ v → v < 2 ^ 31 → narrow 32 true 0 s v = { x := v, v := false, sat := false }) ∧
  (∀ v : Int, 2 ^ 31 ≤ v → narrow 32 true 0 true v = { x := 2 ^ 31 - 1, v := true, sat := true }) ∧
  (∀ v : Int, v < -(2 ^ 31) → narrow 32 true 0 true v = { x := -(2 ^ 31), v := true, sat := true }) ∧
  (∀ v : Int, v < -(2 ^ 31) ∨ 2 ^ 31 ≤ v → narrow 32 true 0 false v = { x := (BitVec.ofInt 32 v).toInt, v := true, sat := false }) ∧
  (∀ (n : Nat) (sg s : Bool) (k : Nat) (v : Int), narrow n sg (-(k : Int)) s v = narrow n sg 0 s (v / 2 ^ k)) ∧
  (∀ (w : BitVec 32) (v : Bool), wbit (resultFlags 0 w v none).2 flgZ = decide (w = 0) ∧ wbit (resultFlags 0 w v none).2 flgN = w.msb ∧
    wbit (resultFlags 0 w v none).2 flgV = v ∧ wbit (resultFlags 0 w v none).1 flgC = false) ∧
  (∀ (a b : BitVec 32) (f : BitVec 16), f = (resultFlags 0 (a - b) (BitVec.ssubOverflow a b) (some (decide (b.toNat ≤ a.toNat)))).2 →
    condTrue 1 f = decide (a = b) ∧ condTrue 5 f = decide (b.toNat ≤ a.toNat) ∧ condTrue 9 f = a.slt b ∧ condTrue 0xB f = (a.slt b || decide (a = b)) ∧
    condTrue 0xD f = decide (b.toNat < a.toNat))

/-- A write of an angle-unit register sets its RW bits, clears the W1C bits it holds 1 for, but those that hardware has set in this ACLK, and sets the W1S bits it holds 1 for, and leaves RO bits and every other register alone; an offset that holds no register is left alone; a register of a closed or powered-down domain is not written and the refusal counts. A write of a staging area replaces the four bytes it names and no other byte of either copy; a write of an active area does nothing; one while the isle is in SYNC sets CFGERR. A host write in BAR0's register window acts as the register write and counts at the host link's NI; outside every window a host write is dropped and a read is aborted; with the link down nothing happens. -/
def Obligations.RegistersOverTheBus : Prop :=
  (∀ (a : BitVec 40) (v : BitVec 32) (r : RegRow) (d : Dev),
    regRow? a.toNat = some r →
    a.toNat ∈ [AU_STAT] ++ (List.range 8).flatMap (fun n => [AU_ADn_TRK n, AU_ADn_WIN n, AU_ADn_ZOFF n, AU_ADn_STAT n, AU_ADn_CNT n, AU_ADn_SET_LO n, AU_ADn_SET_HI n, AU_ADn_VNOM_LO n]) →
    tget none d.integ.tmr a.toNat = none →
    On (.registerWrite a v) d (fun e =>
      (∀ k, k < 32 → (e.reg a.toNat).getLsbD k = if r.rw.testBit k then v.getLsbD k else if r.w1c.testBit k then (d.reg a.toNat).getLsbD k && !(v.getLsbD k && !(tget 0#32 d.flags a.toNat).getLsbD k) else if r.w1s.testBit k then (d.reg a.toNat).getLsbD k || v.getLsbD k else r.ro.testBit k && (d.reg a.toNat).getLsbD k) ∧ OnlyRegs [a.toNat] d e)) ∧
  (∀ (a : BitVec 40) (v : BitVec 32) (d : Dev),
    areaOf a.toNat = 4 →
    a.toNat % 4 = 0 →
    regRow? a.toNat = none →
    csrDomain a.toNat = none →
    On (.registerWrite a v) d (fun e =>
      e = d)) ∧
  (∀ (a : BitVec 40) (v : BitVec 32) (x k : Nat) (d : Dev),
    areaOf a.toNat = 4 →
    a.toNat % 4 = 0 →
    csrDomain a.toNat = some x →
    d.offline x = true →
    d.rd PN_OFFCNT_CNT = k →
    k < 4294967295 →
    On (.registerWrite a v) d (fun e =>
      e.rd PN_OFFCNT_CNT = k + 1 ∧ e.rd PN_STAT_OFFL = 1 ∧ OnlyRegs [PN_OFFCNT, PN_STAT] d e)) ∧
  (∀ (o : BitVec 21) (v : BitVec 32) (d : Dev),
    o.toNat % 4 = 0 →
    o.toNat < 0x180000 →
    apArea o.toNat % 2 = 1 →
    d.offline (apIsle o.toNat) = false →
    d.on (IS_STAT_SYNC (apIsle o.toNat)) = false →
    d.wordErr (d.apWord (o.toNat / 8 * 8)) = 0 →
    On (.apertureWrite o v) d (fun e =>
      (∀ k, k < 4 → e.apByte (o.toNat + k) = (wordBytes v).getD k 0) ∧ (∀ x, x < 0x180000 → (x < o.toNat ∨ o.toNat + 4 ≤ x) → e.apByte x = d.apByte x) ∧ RegsBut [MI_FLIPk_CTL 0, MI_FLIPk_CTL 1, MI_FLIPk_CTL 2, MI_FLIPk_CTL 3] d e ∧ e = { d with regs := e.regs, flags := e.flags, isles := e.isles, integ := e.integ })) ∧
  (∀ (o : BitVec 21) (v : BitVec 32) (d : Dev),
    o.toNat < 0x180000 →
    apArea o.toNat % 2 = 0 →
    d.offline (apIsle o.toNat) = false →
    On (.apertureWrite o v) d (fun e =>
      e = d)) ∧
  (∀ (o : BitVec 21) (v : BitVec 32) (d : Dev),
    o.toNat < 0x180000 →
    apArea o.toNat % 2 = 1 →
    d.offline (apIsle o.toNat) = false →
    d.on (IS_STAT_SYNC (apIsle o.toNat)) = true →
    On (.apertureWrite o v) d (fun e =>
      e.rd (IS_STAT_CFGERR (apIsle o.toNat)) = 1 ∧ OnlyRegs [IS_STAT (apIsle o.toNat)] d e)) ∧
  (∀ (bar2 write : Bool) (o : BitVec 28) (v : BitVec 32) (d : Dev),
    d.on HL_STAT_LINKUP = false →
    On (.pcieRequest bar2 write o v) d (fun e =>
      e = d)) ∧
  (∀ (o : BitVec 28) (v : BitVec 32) (d : Dev),
    d.on HL_STAT_LINKUP = true →
    o.toNat < 0x100000 →
    csrDomain (0x40000000 + o.toNat / 4 * 4) = none →
    d.net.closed.contains 103 = false →
    (d.niHold 38 (0x40000000 + o.toNat / 4 * 4)).net.stall = false →
    On (.pcieRequest false true o v) d (fun e =>
      On (.registerWrite (BitVec.ofNat 40 (0x40000000 + o.toNat / 4 * 4)) v) d (fun f => OnlyRegs (niRegs 38) f e))) ∧
  (∀ (o : BitVec 28) (v : BitVec 32) (d : Dev),
    d.on HL_STAT_LINKUP = true →
    bar0Addr (o.toNat / 4 * 4) = none →
    0xC01008 ≤ o.toNat →
    d.net.closed.contains 103 = false →
    d.net.stall = false →
    On (.pcieRequest false true o v) d (fun e =>
      e.rd HL_STAT_DROPW = 1 ∧ e.isles = d.isles ∧ e.ang = d.ang ∧ e.net = d.net ∧ e.power = d.power)) ∧
  (∀ (o : BitVec 28) (v : BitVec 32) (k : Nat) (d : Dev),
    d.on HL_STAT_LINKUP = true →
    bar0Addr (o.toNat / 4 * 4) = none →
    0xC01008 ≤ o.toNat →
    d.rd HL_CNT0_CA = k →
    k < 65535 →
    d.net.closed.contains 103 = false →
    d.net.stall = false →
    On (.pcieRequest false false o v) d (fun e =>
      e.rd HL_STAT_CA = 1 ∧ e.rd HL_CNT0_CA = k + 1 ∧ OnlyRegs [HL_STAT, HL_CNT0] d e))

/-- The oldest token whose results are visible leaves its cell. Through a matching-store descriptor it travels to its entry, one ACLK and one per hop, along the row first; through a run-ahead descriptor it reaches the controller 2 ACLK later; through a scheduler descriptor it reaches the arrival queue; through a stream descriptor its trigger is on its way to the isle's stream port, which it reaches in the next ACLK. A descriptor that is not valid emits nothing. -/
def Obligations.TokensLeaveTheirIsle : Prop :=
  (∀ (n : Fin 96) (c : Fin 16) (k : CTok) (rest : List CTok) (m : Nat) (d : Dev),
    ((d.isle n).cell c).toks = k :: rest →
    k.due ≤ d.now →
    d.isleLive n = true →
    d.advances n = true →
    wbit (d.reg (IS_TDk n k.desc)) 31 = true →
    wbits (d.reg (IS_TDk n k.desc)) 1 0 = 0 →
    wbits (d.reg (IS_TDk n k.desc)) 8 2 = m →
    m < 96 →
    On (.tokenEmit n c) d (fun e =>
      e.lane = d.lane ++ [{ src := n, isle := m, entry := wbits (d.reg (IS_TDk n k.desc)) 14 9, slot := wbits (d.reg (IS_TDk n k.desc)) 17 15, tag := k.tag, spec := k.spec, cur := n, due := d.now + 1 + laneHops n m }] ∧
      ((e.isle n).cell c) = { (d.isle n).cell c with toks := rest } ∧ e = { d with isles := e.isles, lane := e.lane })) ∧
  (∀ (n : Fin 96) (c : Fin 16) (k : CTok) (rest : List CTok) (t code : Nat) (d : Dev),
    ((d.isle n).cell c).toks = k :: rest →
    k.due ≤ d.now →
    d.isleLive n = true →
    d.advances n = true →
    wbit (d.reg (IS_TDk n k.desc)) 31 = true →
    wbits (d.reg (IS_TDk n k.desc)) 1 0 = 2 →
    wbits (d.reg (IS_TDk n k.desc)) 7 2 = t →
    t < 48 →
    wbits (d.reg (IS_TDk n k.desc)) 10 8 = code →
    1 ≤ code ∧ code ≤ 3 →
    On (.tokenEmit n c) d (fun e =>
      e.ahd = { d.ahd with toks := d.ahd.toks ++ [{ task := t, code := code, step := k.ra.map (fun m => m.step), due := d.now + 2 }] } ∧
      ((e.isle n).cell c) = { (d.isle n).cell c with toks := rest } ∧ e = { d with isles := e.isles, ahd := e.ahd })) ∧
  (∀ (n : Fin 96) (c : Fin 16) (k : CTok) (rest : List CTok) (num : Nat) (d : Dev),
    ((d.isle n).cell c).toks = k :: rest →
    k.due ≤ d.now →
    d.isleLive n = true →
    d.advances n = true →
    wbit (d.reg (IS_TDk n k.desc)) 31 = true →
    wbits (d.reg (IS_TDk n k.desc)) 1 0 = 1 →
    wbits (d.reg (IS_TDk n k.desc)) 14 2 = num →
    num < 4096 →
    k.spec = false →
    d.schedIn.length < 64 →
    d.schedWait = [] →
    On (.tokenEmit n c) d (fun e =>
      { wake := false, num := num, value := 0, cls := 0, at_ := d.now } ∈ e.schedIn ∧ e.schedIn.length = d.schedIn.length + 1 ∧ ((e.isle n).cell c) = { (d.isle n).cell c with toks := rest } ∧ e = { d with isles := e.isles, schedIn := e.schedIn })) ∧
  (∀ (n : Fin 96) (c : Fin 16) (k : CTok) (rest : List CTok) (t : Nat) (d : Dev),
    ((d.isle n).cell c).toks = k :: rest →
    k.due ≤ d.now →
    d.isleLive n = true →
    d.advances n = true →
    wbit (d.reg (IS_TDk n k.desc)) 31 = true →
    wbits (d.reg (IS_TDk n k.desc)) 1 0 = 3 →
    wbits (d.reg (IS_TDk n k.desc)) 7 2 = t →
    k.spec = false →
    On (.tokenEmit n c) d (fun e =>
      (e.isle n).trigs = (d.isle n).trigs ++ [t] ∧ ((e.isle n).cell c) = { (d.isle n).cell c with toks := rest } ∧ (∀ m, m ≠ n.val → e.isle m = d.isle m) ∧ e = { d with isles := e.isles })) ∧
  (∀ (n : Fin 96) (c : Fin 16) (k : CTok) (rest : List CTok) (d : Dev),
    ((d.isle n).cell c).toks = k :: rest →
    k.due ≤ d.now →
    d.isleLive n = true →
    d.advances n = true →
    wbit (d.reg (IS_TDk n k.desc)) 31 = false →
    On (.tokenEmit n c) d (fun e =>
      ((e.isle n).cell c) = { (d.isle n).cell c with toks := rest } ∧ (∀ m, m ≠ n.val → e.isle m = d.isle m) ∧ e = { d with isles := e.isles }))

/-- A token whose slot the entry needs and whose tag is the current one sets its PRES bit, one of the next tag its NEXTP bit; any other is stale and counted. When PRES covers NEED the entry completes: it fires its group in the next ACLK (ACTION 0b00) or queues its stream trigger (0b10), takes NEXTP into PRES, and its current tag goes on by one. -/
def Obligations.TokensMeetTheirEntry : Prop :=
  (∀ (n : Fin 96) (x : Fin 64) (k : LaneTok) (m : MEntry) (d : Dev),
    d.lane = [k] →
    k.isle = n.val →
    k.cur = n.val →
    k.entry = x.val →
    k.due ≤ d.now →
    d.isleLive n = true →
    d.advances n = true →
    (d.isle n).ment x = m →
    m.action = 0 →
    m.need.getLsbD k.slot = true →
    k.tag = m.cur →
    m.pres.getLsbD k.slot = false →
    m.pres ||| BitVec.ofNat 8 (2 ^ k.slot) ≠ m.need →
    On (.tokenApply n x) d (fun e =>
      e = { d.setIsle n { d.isle n with store := tset MEntry.reset (d.isle n).store x { m with pres := m.pres ||| BitVec.ofNat 8 (2 ^ k.slot) } } with lane := [] })) ∧
  (∀ (n : Fin 96) (x : Fin 64) (k : LaneTok) (m : MEntry) (d : Dev),
    d.lane = [k] →
    k.isle = n.val →
    k.cur = n.val →
    k.entry = x.val →
    k.due ≤ d.now →
    d.isleLive n = true →
    d.advances n = true →
    (d.isle n).ment x = m →
    m.action = 0 →
    m.need.getLsbD k.slot = true →
    k.tag = m.cur →
    m.pres.getLsbD k.slot = false →
    m.pres ||| BitVec.ofNat 8 (2 ^ k.slot) = m.need →
    m.doneAt ≤ d.now →
    On (.tokenApply n x) d (fun e =>
      (e.isle n).ment x = { m with pres := m.nextp, nextp := 0, cur := m.cur + 1, doneAt := d.now + d.step n } ∧ (e.isle n).reqs = (d.isle n).reqs ++ [{ group := m.arg.toNat % 16, at_ := d.now + 1, ra := none }] ∧
      (e.isle n).cells = (d.isle n).cells ∧ (∀ j, j ≠ x.val → (e.isle n).ment j = (d.isle n).ment j) ∧ (∀ j, j ≠ n.val → e.isle j = d.isle j) ∧ e = { d with isles := e.isles, lane := [] })) ∧
  (∀ (n : Fin 96) (x : Fin 64) (k : LaneTok) (m : MEntry) (d : Dev),
    d.lane = [k] →
    k.isle = n.val →
    k.cur = n.val →
    k.entry = x.val →
    k.due ≤ d.now →
    d.isleLive n = true →
    d.advances n = true →
    (d.isle n).ment x = m →
    m.action ≠ 2 →
    m.need.getLsbD k.slot = true →
    k.tag = m.cur + 1 →
    m.nextp.getLsbD k.slot = false →
    m.pres ≠ m.need →
    On (.tokenApply n x) d (fun e =>
      e = { d.setIsle n { d.isle n with store := tset MEntry.reset (d.isle n).store x { m with nextp := m.nextp ||| BitVec.ofNat 8 (2 ^ k.slot) } } with lane := [] })) ∧
  (∀ (n : Fin 96) (x : Fin 64) (k : LaneTok) (m : MEntry) (s : Nat) (d : Dev),
    d.lane = [k] →
    k.isle = n.val →
    k.cur = n.val →
    k.entry = x.val →
    k.due ≤ d.now →
    d.isleLive n = true →
    d.advances n = true →
    (d.isle n).ment x = m →
    m.action ≠ 2 →
    k.tag ≠ m.cur →
    k.tag ≠ m.cur + 1 →
    m.pres ≠ m.need →
    d.rd (IS_CNT1_STALE n) = s →
    s < 65535 →
    On (.tokenApply n x) d (fun e =>
      e.rd (IS_CNT1_STALE n) = s + 1 ∧ RegsBut [IS_CNT1 n] d e ∧ e = { d with regs := e.regs, flags := e.flags, lane := [] }))

/-- A write of IS_FIRE.GO queues a request for the next ACLK. A request that no other of its ACLK precedes (R113's order), for an enabled group that is neither active, saved, pending nor in conflict, starts an activation in its ACLK: the group takes its tag, the isle its plane unless PKEEP is set, and every member cell runs at its resume index. A request for an active or saved group makes it pending; one in conflict is deferred and counted; one for a pending group is an overrun, counted and lost. -/
def Obligations.FiringRequests : Prop :=
  (∀ (n : Fin 96) (g : Fin 16) (d : Dev),
    On (.isFire n g) d (fun e =>
      (e.isle n).reqs = (d.isle n).reqs ++ [{ group := g, at_ := d.now + 1, ra := none }] ∧ e.rd (IS_FIRE_GROUP n) = g.val ∧ RegsBut [IS_FIRE n] d e ∧ e = { d with regs := e.regs, flags := e.flags, isles := e.isles })) ∧
  (∀ (n : Fin 96) (g : Fin 16) (q : FireReq) (rest : List FireReq) (c : Fin 16) (d : Dev),
    (d.isle n).reqs = q :: rest →
    q.group = g.val →
    q.at_ ≤ d.now →
    d.ahead n g = [] →
    d.advances n = true →
    d.isleLive n = true →
    d.on (IS_GRPg_EN n g) = true →
    ((d.isle n).grp g).pend = false →
    d.grpActive n g = false →
    ((d.isle n).grp g).saved = false →
    (∀ h : Fin 16, d.conflictsWith n g h = false) →
    q.ra = none →
    wbit (BitVec.ofNat 16 (d.rd (IS_GRPg_MASK n g))) c = true →
    On (.firingRequest n g) d (fun e =>
      (e.isle n).reqs = rest ∧ e.rdBit (IS_STAT_ACTIVE n) g = true ∧ ((e.isle n).cell c) = { (d.isle n).cell c with mode := .run (tget 0 ((d.isle n).cell c).resume g), group := g, nextAt := d.now } ∧ ((e.isle n).grp g).tag = ((d.isle n).grp g).actcnt ∧ ((e.isle n).grp g).actcnt = ((d.isle n).grp g).actcnt + 1 ∧
      e.rd (IS_STAT_APL n) = (if d.on (IS_GRPg_PKEEP n g) then d.rd (IS_STAT_APL n) else d.rd (IS_GRPg_PLANE n g)) ∧ RegsBut [IS_STAT n] d e ∧ (∀ m, m ≠ n.val → e.isle m = d.isle m) ∧ e = { d with regs := e.regs, flags := e.flags, isles := e.isles })) ∧
  (∀ (n : Fin 96) (g : Fin 16) (q : FireReq) (rest : List FireReq) (d : Dev),
    (d.isle n).reqs = q :: rest →
    q.group = g.val →
    q.at_ ≤ d.now →
    d.ahead n g = [] →
    d.advances n = true →
    d.isleLive n = true →
    d.on (IS_GRPg_EN n g) = true →
    ((d.isle n).grp g).pend = false →
    d.grpActive n g = true ∨ ((d.isle n).grp g).saved = true →
    On (.firingRequest n g) d (fun e =>
      (e.isle n).reqs = rest ∧ ((e.isle n).grp g) = { (d.isle n).grp g with pend := true, pendRa := q.ra } ∧ (e.isle n).cells = (d.isle n).cells ∧ e = { d with isles := e.isles })) ∧
  (∀ (n : Fin 96) (g : Fin 16) (q : FireReq) (rest : List FireReq) (h : Fin 16) (k : Nat) (d : Dev),
    (d.isle n).reqs = q :: rest →
    q.group = g.val →
    q.at_ ≤ d.now →
    d.ahead n g = [] →
    d.advances n = true →
    d.isleLive n = true →
    d.on (IS_GRPg_EN n g) = true →
    ((d.isle n).grp g).pend = false →
    d.grpActive n g = false →
    ((d.isle n).grp g).saved = false →
    d.conflictsWith n g h = true →
    d.rd (IS_CNT0_DEFER n) = k →
    k < 65535 →
    On (.firingRequest n g) d (fun e =>
      ((e.isle n).grp g).pend = true ∧ ((e.isle n).grp g).pendRa = q.ra ∧ e.rd (IS_CNT0_DEFER n) = k + 1 ∧ (e.isle n).reqs = rest ∧ (e.isle n).cells = (d.isle n).cells ∧ RegsBut [IS_CNT0 n] d e ∧ e = { d with regs := e.regs, flags := e.flags, isles := e.isles })) ∧
  (∀ (n : Fin 96) (g : Fin 16) (q : FireReq) (rest : List FireReq) (k : Nat) (d : Dev),
    (d.isle n).reqs = q :: rest →
    q.group = g.val →
    q.at_ ≤ d.now →
    d.ahead n g = [] →
    d.advances n = true →
    d.isleLive n = true →
    d.on (IS_GRPg_EN n g) = true →
    ((d.isle n).grp g).pend = true →
    d.rd (IS_CNT0_FOVR n) = k →
    k < 65535 →
    On (.firingRequest n g) d (fun e =>
      e.rd (IS_CNT0_FOVR n) = k + 1 ∧ (e.isle n).reqs = rest ∧ ((d.grpActive n g = true ∨ ((d.isle n).grp g).saved = true) → (d.isle n).preStart.all (fun p => p.1 ≠ g.val) = true →
        (e.isle n).grp g = (d.isle n).grp g ∧ (e.isle n).cells = (d.isle n).cells) ∧ e.mem = d.mem))

/-- A pre-emption completes once every cell of the victim stands at its quiet point: the victim is saved with its plane in a free slot, is no longer active, its cells are idle, and the pre-emptor starts 2 ACLK after the last quiet-point context. When IS_PMTO expires first the request is withdrawn and the stopped cells run on. When the pre-emptor has become inactive the victim is active again, with its plane, its indices and the flags it had when the pre-emptor started (its present ones where the pre-emptor never started); the shadow copies are not affected. -/
def Obligations.Preemption : Prop :=
  (∀ (n : Fin 96) (p : Preempt) (k : Nat) (d : Dev),
    (d.isle n).pre = [p] →
    p.victim < 16 ∧ p.group < 16 →
    d.on (IS_SLOT0_VALID n) = false →
    d.isleLive n = true →
    d.advances n = true →
    d.preReady n p = true →
    d.rd (IS_CNT1_PREEMPT n) = k →
    k < 65535 →
    On (.preemptComplete n) d (fun e =>
      ((e.isle n).grp p.victim).saved = true ∧ e.rdBit (IS_STAT_ACTIVE n) p.victim = false ∧ (e.isle n).pre = [] ∧ (e.isle n).preStart = (d.isle n).preStart ++ [(p.group, (p.lastQp.getD d.now) + 2 * d.step n)] ∧
      e.rd (IS_SLOT0_VICTIM n) = p.victim ∧ e.rd (IS_SLOT0_PREEMPTOR n) = p.group ∧ e.rd (IS_SLOT0_VALID n) = 1 ∧ e.rd (IS_SLOT0_APL n) = d.rd (IS_STAT_APL n) ∧ e.rd (IS_CNT1_PREEMPT n) = k + 1 ∧
      (∀ c, c < 16 → wbit (BitVec.ofNat 16 (d.rd (IS_GRPg_MASK n p.victim))) c = true → ((d.isle n).cell c).group = p.victim → (e.isle n).cell c = { (d.isle n).cell c with mode := .idle, dcache := [] }) ∧
      RegsBut [IS_STAT n, IS_SLOT0 n, IS_CNT1 n] d e ∧ (∀ m, m ≠ n.val → e.isle m = d.isle m) ∧ e = { d with regs := e.regs, flags := e.flags, isles := e.isles })) ∧
  (∀ (n : Fin 96) (p : Preempt) (c : Fin 16) (x : Nat) (m : Nat) (d : Dev),
    (d.isle n).pre = [p] →
    d.rd (IS_PMTO_PMTO n) = m →
    m ≠ 0 →
    p.at_ + m ≤ d.now →
    d.preReady n p = false →
    ((d.isle n).cell c).mode = .quiet x →
    ((d.isle n).cell c).group = p.victim →
    On (.preemptTimeout n) d (fun e =>
      (e.isle n).pre = [] ∧ ((e.isle n).grp p.group).noPre = true ∧ (e.isle n).cell c = { (d.isle n).cell c with mode := .run x, nextAt := d.now + d.step n } ∧ e = { d with isles := e.isles })) ∧
  (∀ (n : Fin 96) (v g : Nat) (w : BitVec 32) (q : SavedCell) (st : Bool) (ra : Option RaMark) (d : Dev),
    d.on (IS_SLOT1_VALID n) = false →
    d.reg (IS_SLOT0 n) = w →
    wbits w 3 0 = v →
    wbits w 7 4 = g →
    wbit w 8 = true →
    tget none (d.isle n).save 0 = some { cells := [q], settled := st, ra := ra } →
    q.cell < 16 →
    q.yld = false →
    q.wait = 0 →
    d.isleLive n = true →
    d.advances n = true →
    d.rdBit (IS_STAT_ACTIVE n) g = false →
    ((d.isle n).grp g).saved = false →
    ((d.isle n).grp g).endAt + d.step n ≤ d.now →
    (d.isle n).preStart = [] →
    On (.victimResume n) d (fun e =>
      e.rdBit (IS_STAT_ACTIVE n) v = true ∧ e.rd (IS_STAT_APL n) = wbits w 15 12 ∧ ((e.isle n).grp v).saved = false ∧ ((e.isle n).cell q.cell).mode = .run q.index ∧ ((e.isle n).cell q.cell).nextAt = d.now ∧ ((e.isle n).cell q.cell).arch.flg = (if st then q.flg else ((d.isle n).cell q.cell).arch.flg) &&& 0x1FF#16 ∧ ((e.isle n).cell q.cell).shad = ((d.isle n).cell q.cell).shad ∧
      e.rd (IS_SLOT0_VALID n) = 0 ∧ tget none (e.isle n).save 0 = none ∧ RegsBut [IS_STAT n, IS_SLOT0 n] d e ∧ e = { d with regs := e.regs, flags := e.flags, isles := e.isles }))

/-- A trigger joins the stream port's queue, or is dropped with QOVR where four are queued. A port free of transfers takes the next trigger's descriptor from the lagoon: it issues the first packet, or ends in error where the descriptor is bad. A transfer with every byte written ends, its completion token going to the scheduler; one that met an error ends with ERR. IS_CLR clears the three counters. -/
def Obligations.StreamPort : Prop :=
  (∀ (n : Fin 96) (t : Fin 64) (d : Dev),
    (d.isle n).sq.length < 4 →
    On (.isStrig n t) d (fun e =>
      (e.isle n).sq = (d.isle n).sq ++ [t.val] ∧ e.rd (IS_SSTAT_QLEN n) = (d.isle n).sq.length + 1 ∧ e.rd (IS_STRIG_TRIG n) = t.val ∧ RegsBut [IS_STRIG n, IS_SSTAT n] d e ∧ (∀ m, m ≠ n.val → e.isle m = d.isle m) ∧ e = { d with regs := e.regs, flags := e.flags, isles := e.isles })) ∧
  (∀ (n : Fin 96) (t : Fin 64) (d : Dev),
    4 ≤ (d.isle n).sq.length →
    On (.isStrig n t) d (fun e =>
      e.isles = d.isles ∧ e.rd (IS_SSTAT_QOVR n) = 1 ∧ e.mem = d.mem)) ∧
  (∀ (n : Fin 96) (d : Dev),
    On (.isClr n) d (fun e =>
      e.reg (IS_CNT0 n) = 0 ∧ e.reg (IS_CNT1 n) = 0 ∧ e.reg (IS_CNT2 n) = 0 ∧ OnlyRegs [IS_CNT0 n, IS_CNT1 n, IS_CNT2 n] d e)) ∧
  (∀ (n : Fin 96) (t : Nat) (rest : List Nat) (a : Nat) (ws : List (BitVec 32)) (x : Xfer) (d : Dev),
    (d.isle n).sq = t :: rest →
    (d.isle n).xfer = none →
    d.isleLive n = true →
    d.rd (IS_SDBASE_BASE n) + 8 * t + 8 ≤ 0x8000 →
    a = 0x10000000 + n * 0x20000 + 4 * (d.rd (IS_SDBASE_BASE n) + 8 * t) →
    a % 32 = 0 →
    (∀ w ∈ codeWords a 32, d.wordErr w = 0) →
    d.net.closed.contains n.val = false →
    (d.niHold (niOfReq (128 + n)) a).net.stall = false →
    bytesWords (d.loadBytes a 32) 8 = ws →
    x = xferOf t a ws →
    badDesc (128 + n) x ws = false →
    x.fill = false ∧ x.shost = false ∧ x.dhost = false →
    wbits x.w0 7 4 = 0 ∧ wbits x.w0 11 8 = 0 →
    On (.streamTransferStart n) d (fun e =>
      (e.isle n).xfer = some { x with dpa := x.dst, phase := 1 } ∧ (e.isle n).sq = rest ∧ e.rd (IS_SSTAT_BUSY n) = 1 ∧ e.rd (IS_SSTAT_QLEN n) = rest.length % 8 ∧ e.net.reqs = d.net.reqs ++ [{ src := niOfReq (128 + n), dst := d.niOf x.src, req := 128 + n, write := false, addr := x.src, host := false, len := x.chunk, data := [], status := 0, at_ := d.now, held := (d.routeWait (niOfReq (128 + n))).any (fun c => c.dest = d.niOf x.src) || decide (64 ≤ d.outstandingOf (niOfReq (128 + n))), vc := 2, codes := [], legs := [] }] ∧ (∀ m, m ≠ n.val → e.isle m = d.isle m) ∧
      RegsBut ([IS_SSTAT n, PN_NIi_STAT (niOfReq (128 + n))] ++ niRegs (niOfReq (128 + n))) d e ∧ e = { d with regs := e.regs, flags := e.flags, isles := e.isles, net := e.net, free := e.free })) ∧
  (∀ (n : Fin 96) (x : Xfer) (d : Dev),
    (d.isle n).xfer = some x →
    x.phase = 0 →
    x.err = none →
    x.len ≤ x.prog →
    wbit x.w0 2 = false →
    wbit x.w0 3 = true →
    d.net.stall = false →
    d.schedIn.length < 64 →
    d.schedWait = [] →
    On (.streamTransferDone n) d (fun e =>
      (e.isle n).xfer = none ∧ e.rd (IS_SSTAT_BUSY n) = 0 ∧ { wake := false, num := wbits x.w0 27 16, value := 0, cls := 1, at_ := d.now } ∈ e.schedIn ∧ (∀ m, m ≠ n.val → e.isle m = d.isle m) ∧ RegsBut [IS_SSTAT n] d e ∧ e = { d with regs := e.regs, flags := e.flags, isles := e.isles, schedIn := e.schedIn })) ∧
  (∀ (n : Fin 96) (x : Xfer) (c : Nat) (d : Dev),
    (d.isle n).xfer = some x →
    x.phase = 0 →
    x.err = some c →
    d.net.stall = false →
    On (.streamTransferDone n) d (fun e =>
      (e.isle n).xfer = none ∧ e.rd (IS_SSTAT_BUSY n) = 0 ∧ e.rd (IS_SSTAT_ERR n) = 1 ∧ (∀ m, m ≠ n.val → e.isle m = d.isle m) ∧ e.mem = d.mem))

/-- A FIRE with TV = 1 opens the next step of a RUNNING task within its depth: the step joins the open ones, its prediction request is queued, and the task's open position goes on by one step of its cadence. Beyond the depth the step opens without a head; a task that is not RUNNING drops it; while replays wait it is queued. The controller issues one prediction request an ACLK, lowest task first; the head fires 4 ACLK later in every binding with the step's tag; the answer writes the prediction words into the step's frame. -/
def Obligations.StepsOpen : Prop :=
  (∀ (t : Fin 48) (a : Action) (as : List Action) (d : Dev),
    d.ang.acts = a :: as →
    a.act = 1 →
    a.tv = true →
    a.tf ≤ d.now + 4 →
    a.task = t.val →
    d.taskState t = 1 →
    d.replaying t = false →
    (d.task t).openK ≤ d.front t + d.rd (AHD_LTt_CFG_DEPTH t) →
    (d.task t).pol ≠ 2 →
    On .stepOpen d (fun e =>
      (e.task t).steps = (d.task t).steps ++ [{ LStep.fresh (d.task t).openK (d.task t).openS with reqDue := some (a.tf - 4) }] ∧ (e.task t).openK = (d.task t).openK + 1 ∧ (e.task t).openS = (d.task t).openS + BitVec.ofNat 64 (d.taskInc t (d.task t).openAcc).2 ∧ (e.task t).openAcc = (d.taskInc t (d.task t).openAcc).1 ∧
      (∀ u, u ≠ t.val → e.task u = d.task u) ∧ RegsBut [AHD_LTt_STAT t, AHD_QLEN] d e ∧ e = { d with regs := e.regs, flags := e.flags, ahd := e.ahd, ang := { d.ang with acts := as } })) ∧
  (∀ (t : Fin 48) (a : Action) (as : List Action) (d : Dev),
    d.ang.acts = a :: as →
    a.act = 1 →
    a.tv = true →
    a.tf ≤ d.now + 4 →
    a.task = t.val →
    d.taskState t = 1 →
    d.replaying t = false →
    d.front t + d.rd (AHD_LTt_CFG_DEPTH t) < (d.task t).openK →
    On .stepOpen d (fun e =>
      (e.task t).steps = (d.task t).steps ++ [{ LStep.fresh (d.task t).openK (d.task t).openS with noHead := true }] ∧ (e.task t).openK = (d.task t).openK + 1 ∧ e.isles = d.isles ∧ e.mem = d.mem ∧ e.ang = { d.ang with acts := as })) ∧
  (∀ (t : Fin 48) (a : Action) (as : List Action) (k : Nat) (d : Dev),
    d.ang.acts = a :: as →
    a.act = 1 →
    a.tv = true →
    a.tf ≤ d.now + 4 →
    a.task = t.val →
    d.taskState t ≠ 1 →
    d.rd (AHD_LTt_CNT2_DROP t) = k →
    k < 255 →
    On .stepOpen d (fun e =>
      e.rd (AHD_LTt_CNT2_DROP t) = k + 1 ∧ e.ahd = d.ahd ∧ RegsBut [AHD_LTt_CNT2 t, AHD_QLEN] d e ∧ e = { d with regs := e.regs, flags := e.flags, ang := { d.ang with acts := as } })) ∧
  (∀ (t : Fin 48) (s : LStep) (rest : List LStep) (a : Nat) (p : Option (BitVec 64)) (d : Dev),
    (d.task t).steps = s :: rest →
    (∀ u : Fin 48, u < t → (d.task u).steps = []) →
    s.reqDue = some a →
    a ≤ d.now →
    d.ahd.lastReq ≤ d.now →
    d.predictStep t s.stamp = p →
    On .predictionRequest d (fun e =>
      (e.task t).steps = { s with reqDue := none, reqAt := some d.now, answered := false, pred := p, predInvalid := p.isNone, headAt := if p.isSome then some (d.now + 4) else none } :: rest ∧ e.ahd.lastReq = d.now + 1 ∧
      (∀ u, u ≠ t.val → e.task u = d.task u) ∧ RegsBut [AHD_LTt_STAT t, AHD_QLEN] d e ∧ e = { d with regs := e.regs, flags := e.flags, ahd := e.ahd })) ∧
  (∀ (t : Fin 48) (s : LStep) (rest : List LStep) (b n : Nat) (a : Nat) (v : BitVec 64) (d : Dev),
    (d.task t).steps = s :: rest →
    d.bindings t = [b] →
    d.rd (AHD_TBb_ID_ISLE b) = n →
    s.reqAt = some a →
    a + 12 ≤ d.now →
    s.answered = false →
    s.pred = some v →
    On (.predictionAnswer t) d (fun e =>
      e.load32 (lagoonAddr n (d.frameAt b s.k + 0x80)) = w32 v.toNat ∧ e.load32 (lagoonAddr n (d.frameAt b s.k + 0x81)) = w32 (v.toNat / 2 ^ 32) ∧ e.load32 (lagoonAddr n (d.frameAt b s.k + 0x82)) = w32 (d.predVel t).toNat ∧ e.load32 (lagoonAddr n (d.frameAt b s.k + 0x83)) = w32 (((d.predVel t).signExtend 64).toNat / 2 ^ 32) ∧
      (∀ x, (∀ o, o < 4 → ¬ (lagoonAddr n (d.frameAt b s.k + 0x80 + o) ≤ x ∧ x < lagoonAddr n (d.frameAt b s.k + 0x80 + o) + 4)) → e.byte x = d.byte x) ∧ (e.task t).steps = { s with answered := true } :: rest ∧ e.isles = d.isles)) ∧
  (∀ (t : Fin 48) (s : LStep) (rest : List LStep) (b n : Nat) (a : Nat) (d : Dev),
    (d.task t).steps = s :: rest →
    d.bindings t = [b] →
    d.rd (AHD_TBb_ID_ISLE b) = n →
    s.headAt = some a →
    a ≤ d.now →
    s.headFired = false →
    On (.headFire t) d (fun e =>
      (e.isle n).reqs = (d.isle n).reqs ++ [{ group := d.rd (AHD_TBb_GRP_HGRP b), at_ := d.now, ra := some { task := t, step := s.k, head := true, commitAt := none } }] ∧ ((e.isle n).grp (d.rd (AHD_TBb_GRP_HGRP b))).actcnt = d.tagOf t s.k ∧
      (e.isle n).cells = (d.isle n).cells ∧ (∀ m, m ≠ n → e.isle m = d.isle m) ∧ (e.task t).steps = { s with headFired := true, headEnds := 0, headEnd := none } :: rest ∧ (∀ u, u ≠ t.val → e.task u = d.task u) ∧ RegsBut [AHD_LTt_STAT t] d e ∧ e.mem = d.mem))

/-- A prediction of the stepping domain itself is the stamp. When the stepping domain reaches the stamp in exactly k ACLK, k at most 2^26, the prediction of another domain is the stamp of its estimate k ACLK ahead. At zero velocity, or for a stamp that lies behind, there is none. -/
def Obligations.Predictions : Prop :=
  (∀ (a b : Fin 8) (s : BitVec 64) (k : Nat) (d : Dev), 0 < (d.ad a).omega.toInt → k ≤ 2 ^ 26 → (stampTheta s - (d.ad a).theta).toInt = k * (d.ad a).omega.toInt →
    d.predict a s b = some (if a = b then s else BitVec.ofNat 64 (((d.ad b).ahead k).toNat / 2 ^ 16))) ∧
  (∀ (a b : Fin 8) (s : BitVec 64) (d : Dev), (d.ad a).omega = 0 → d.predict a s b = none) ∧
  (∀ (a b : Fin 8) (s : BitVec 64) (d : Dev), 0 < (d.ad a).omega.toInt → (stampTheta s - (d.ad a).theta).toInt ≤ -(d.ad a).omega.toInt → d.predict a s b = none)

/-- Three ACLK after its latch the front step is checked: AHD_LTt_DIFF takes the difference; a ready step whose policy passes is to fire its tail at L + TFIRE and to commit CMT later, any other decides a squash, and one that was not ready is counted. The tail fires in every binding with the step's mark. At the commit ACLK the shadow copy of every cell of CELLS becomes architectural, the held tokens are delivered, AHD_LTt_STEP goes on and the next step is front; a step whose tail has not started everywhere is skipped instead, and the shadow copies take the architectural values. -/
def Obligations.CheckTailCommit : Prop :=
  (∀ (t : Fin 48) (s : LStep) (rest : List LStep) (l : Nat) (r q : Bool) (d : Dev),
    (d.task t).steps = s :: rest →
    s.latch = some l →
    s.checked = false →
    s.rerun = none →
    l + 3 ≤ d.now →
    d.taskState t = 1 →
    d.stepReady t s l = r →
    d.policyPass t s = q →
    r = true ∧ q = true →
    On (.check t) d (fun e =>
      (e.task t).steps = { s with checked := true, passed := true, tailAt := some (l + d.rd (AHD_LTt_TIM_TFIRE t)), commitAt := some (l + d.rd (AHD_LTt_TIM_TFIRE t) + d.rd (AHD_LTt_TIM_CMT t)) } :: rest ∧ e.rd (AHD_LTt_STAT_PASS t) = 1 ∧ e.reg (AHD_LTt_DIFF t) = BitVec.ofInt 32 (d.checkDiff t s) ∧ (e.task t).squash = (d.task t).squash ∧
      (∀ u, u ≠ t.val → e.task u = d.task u) ∧ RegsBut [AHD_LTt_STAT t, AHD_LTt_DIFF t] d e ∧ e = { d with regs := e.regs, flags := e.flags, ahd := e.ahd })) ∧
  (∀ (t : Fin 48) (s : LStep) (rest : List LStep) (l : Nat) (r q : Bool) (m : Nat) (d : Dev),
    (d.task t).steps = s :: rest →
    s.latch = some l →
    s.checked = false →
    s.rerun = none →
    l + 3 ≤ d.now →
    d.taskState t = 1 →
    d.stepReady t s l = r →
    d.policyPass t s = q →
    r = false ∨ q = false →
    (d.task t).squash = [] →
    d.rd (AHD_LTt_CNT1_NOTRDY t) = m →
    m < 65535 →
    On (.check t) d (fun e =>
      (e.task t).squash = [{ d := d.now, k := s.k, rerun := true, replay := true, again := false }] ∧ (e.task t).steps = { s with checked := true, passed := false, tailAt := none, commitAt := none } :: rest ∧ e.rd (AHD_LTt_STAT_PASS t) = 0 ∧ e.rd (AHD_LTt_CNT1_NOTRDY t) = (if r = true then m else m + 1) ∧
      e.reg (AHD_LTt_DIFF t) = BitVec.ofInt 32 (d.checkDiff t s) ∧ RegsBut [AHD_LTt_STAT t, AHD_LTt_DIFF t, AHD_LTt_CNT1 t] d e ∧ e = { d with regs := e.regs, flags := e.flags, ahd := e.ahd })) ∧
  (∀ (t : Fin 48) (s : LStep) (rest : List LStep) (b n : Nat) (a : Nat) (d : Dev),
    (d.task t).steps = s :: rest →
    d.bindings t = [b] →
    d.rd (AHD_TBb_ID_ISLE b) = n →
    s.tailAt = some a →
    a ≤ d.now →
    s.tailFired = false →
    (d.task t).squashes s.k = false →
    On (.tailFire t) d (fun e =>
      (e.isle n).reqs = (d.isle n).reqs ++ [{ group := d.rd (AHD_TBb_GRP_TGRP b), at_ := d.now, ra := some { task := t, step := s.k, head := false, commitAt := s.commitAt } }] ∧ ((e.isle n).grp (d.rd (AHD_TBb_GRP_TGRP b))).actcnt = d.tagOf t s.k ∧
      (e.isle n).cells = (d.isle n).cells ∧ (∀ m, m ≠ n → e.isle m = d.isle m) ∧ (e.task t).steps = { s with tailFired := true } :: rest ∧ RegsBut [AHD_LTt_STAT t] d e ∧ e.mem = d.mem)) ∧
  (∀ (t : Fin 48) (s : LStep) (rest : List LStep) (b n : Nat) (cm l f k : Nat) (d : Dev),
    (d.task t).steps = s :: rest →
    d.bindings t = [b] →
    d.rd (AHD_TBb_ID_ISLE b) = n →
    s.commitAt = some cm →
    cm ≤ d.now →
    (d.task t).squashes s.k = false →
    d.taskState t = 1 →
    s.tailFired = true →
    1 ≤ s.tailStarts →
    d.front t = f →
    (d.task t).latchK ≤ f + 1 →
    f < 2 ^ 32 - 1 →
    s.latch = some l →
    s.rerun = none →
    (∀ h ∈ tget [] d.ahd.held b, h.kind = 1) →
    d.schedIn.length + (tget [] d.ahd.held b).length ≤ 64 →
    d.schedWait = [] →
    (∀ q ∈ rest, q.replay = false) →
    d.rd (AHD_LTt_CNT0_COMMIT t) = k →
    k < 65535 →
    On (.commit t) d (fun e =>
      (∀ c, c < 16 → wbit (BitVec.ofNat 16 (d.rd (AHD_TBb_GRP_CELLS b))) c = true → ((e.isle n).cell c) = { (d.isle n).cell c with arch := ((d.isle n).cell c).shad }) ∧ (∀ c, c < 16 → wbit (BitVec.ofNat 16 (d.rd (AHD_TBb_GRP_CELLS b))) c = false → (e.isle n).cell c = (d.isle n).cell c) ∧ (∀ m, m ≠ n → e.isle m = d.isle m) ∧
      e.front t = f + 1 ∧ e.rd (AHD_LTt_CNT0_COMMIT t) = k + 1 ∧ (e.task t).steps = rest ∧ (e.task t).lastC = d.now ∧ tget [] e.ahd.held b = [] ∧ (∀ h ∈ tget [] d.ahd.held b, { wake := false, num := h.num, value := 0, cls := 0, at_ := d.now } ∈ e.schedIn) ∧ e.schedIn.length = d.schedIn.length + (tget [] d.ahd.held b).length ∧ e.rd (AHD_LTt_LAT_LASTC t) = min 255 (cm - l) ∧ RegsBut [AHD_LTt_STAT t, AHD_LTt_STEP t, AHD_LTt_CNT0 t, AHD_LTt_LAT t, AHD_TBb_STAT b] d e ∧ e.mem = d.mem)) ∧
  (∀ (t : Fin 48) (s : LStep) (rest : List LStep) (b n : Nat) (cm f k : Nat) (d : Dev),
    (d.task t).steps = s :: rest →
    d.bindings t = [b] →
    d.rd (AHD_TBb_ID_ISLE b) = n →
    s.commitAt = some cm →
    cm ≤ d.now →
    (d.task t).squashes s.k = false →
    d.taskState t = 1 →
    s.tailFired = false ∨ s.tailStarts = 0 →
    s.k = f →
    d.front t = f →
    f + 1 = (d.task t).latchK →
    (d.task t).latchK ≤ (d.task t).openK →
    f < 2 ^ 32 - 1 →
    (∀ q ∈ rest, q.replay = false ∧ f < q.k) →
    d.rd (AHD_LTt_CNT1_SKIP t) = k →
    k < 65535 →
    On (.commit t) d (fun e =>
      (∀ c, c < 16 → wbit (BitVec.ofNat 16 (d.rd (AHD_TBb_GRP_CELLS b))) c = true → ((e.isle n).cell c) = { (d.isle n).cell c with shad := ((d.isle n).cell c).arch }) ∧ (∀ m, m ≠ n → e.isle m = d.isle m) ∧
      e.front t = f + 1 ∧ e.rd (AHD_LTt_CNT1_SKIP t) = k + 1 ∧ e.rd (AHD_LTt_CNT0_COMMIT t) = d.rd (AHD_LTt_CNT0_COMMIT t) ∧ (e.task t).steps = rest ∧ tget [] e.ahd.held b = [] ∧ e.mem = d.mem)) ∧
  (∀ (t : Fin 48) (s : LStep) (rest : List LStep) (h : Nat) (d : Dev),
    (d.task t).steps = s :: rest →
    (s.carried.map (fun q => (q.1, q.2.1, q.2.2.1))).Nodup →
    (∀ q ∈ s.carried, q.2.2.1 < 8) →
    s.k = d.front t →
    s.carryAt = none →
    d.carryHold t s = some h →
    h ≤ d.now →
    On (.carryLoad t) d (fun e =>
      (∀ q ∈ s.carried, ((e.isle q.1).cell q.2.1).shad.get q.2.2.1 = q.2.2.2) ∧ (∀ m c, ((e.isle m).cell c).arch = ((d.isle m).cell c).arch) ∧
      (e.task t).steps = { s with carryAt := some h } :: rest ∧ RegsBut [AHD_LTt_STAT t] d e ∧ e.mem = d.mem))

/-- A squash takes effect two ACLK after its decision: the activations of the task's groups end, the shadow copies take the architectural values, held tokens are discarded, EPOCH toggles, the squashed step is to run again and the later open steps wait as replays. A step squashed after its latch runs again with the measured value as its prediction, its head at D + 5 and its tail HLEN + 1 later; one squashed before it asks again at D + 3. The first replay asks for its prediction; a FIRE queued behind the replays opens its step. A run-ahead SQREQ token and a write of AHD_LTt_CTL.SQUASH decide a squash of their step. -/
def Obligations.SquashRerunReplay : Prop :=
  (∀ (t : Fin 48) (s : LStep) (rest : List LStep) (b n : Nat) (p : PendSquash) (ps : List PendSquash) (k : Nat) (d : Dev),
    (d.task t).steps = s :: rest →
    d.bindings t = [b] →
    d.rd (AHD_TBb_ID_ISLE b) = n →
    (d.task t).squash = p :: ps →
    p.d + 2 ≤ d.now →
    p.rerun = true →
    p.again = false →
    s.k = p.k →
    (∀ q ∈ rest, p.k < q.k) →
    d.rd (AHD_LTt_CNT0_SQUASH t) = k →
    ((d.isle n).grp (d.rd (AHD_TBb_GRP_HGRP b))).saved = false →
    ((d.isle n).grp (d.rd (AHD_TBb_GRP_TGRP b))).saved = false →
    k < 65535 →
    On (.squash t) d (fun e =>
      (e.task t).squash = ps ∧ (e.task t).steps = s.again (some p.d) :: rest.map (fun q => q.again none) ∧ e.rd (AHD_LTt_STAT_EPOCH t) = 1 - d.rd (AHD_LTt_STAT_EPOCH t) ∧ e.rd (AHD_LTt_CNT0_SQUASH t) = k + 1 ∧ e.rdBit (IS_STAT_ACTIVE n) (d.rd (AHD_TBb_GRP_HGRP b)) = false ∧ e.rdBit (IS_STAT_ACTIVE n) (d.rd (AHD_TBb_GRP_TGRP b)) = false ∧
      (∀ c, c < 16 → wbit (BitVec.ofNat 16 (d.rd (AHD_TBb_GRP_CELLS b))) c = true → ((e.isle n).cell c).shad = ((d.isle n).cell c).arch ∧ ((e.isle n).cell c).arch = ((d.isle n).cell c).arch) ∧ tget [] e.ahd.held b = [] ∧ (∀ m, m ≠ n → e.isle m = d.isle m) ∧
      RegsBut [AHD_LTt_STAT t, AHD_LTt_CNT0 t, AHD_TBb_STAT b, AHD_QLEN, IS_STAT n] d e ∧ e.mem = d.mem)) ∧
  (∀ (t : Fin 48) (s : LStep) (rest : List LStep) (b n : Nat) (dd l : Nat) (d : Dev),
    (d.task t).steps = s :: rest →
    d.bindings t = [b] →
    d.rd (AHD_TBb_ID_ISLE b) = n →
    s.rerun = some dd →
    s.rerunGo = false →
    d.taskState t = 1 →
    s.latch = some l →
    s.k = d.front t →
    dd + 4 ≤ d.now →
    On (.rerun t) d (fun e =>
      (e.task t).steps = { s with rerunGo := true, headAt := some (dd + 5), tailAt := some (dd + 5 + d.rd (AHD_LTt_TIM_HLEN t) + 1), checked := true, commitAt := some (dd + 5 + d.rd (AHD_LTt_TIM_HLEN t) + 1 + d.rd (AHD_LTt_TIM_CMT t)) } :: rest ∧ e.load32 (lagoonAddr n (d.frameAt b s.k + 0x80)) = w32 s.meas.toNat ∧ e.load32 (lagoonAddr n (d.frameAt b s.k + 0x81)) = w32 (s.meas.toNat / 2 ^ 32) ∧ e.isles = d.isles)) ∧
  (∀ (t : Fin 48) (s : LStep) (rest : List LStep) (dd : Nat) (d : Dev),
    (d.task t).steps = s :: rest →
    s.rerun = some dd →
    s.rerunGo = false →
    d.taskState t = 1 →
    s.latch = none →
    dd + 3 ≤ d.now →
    On (.rerun t) d (fun e =>
      (e.task t).steps = { s with rerun := none, rerunGo := false, reqDue := some (dd + 3) } :: rest ∧ RegsBut [AHD_LTt_STAT t, AHD_QLEN] d e ∧ e = { d with regs := e.regs, flags := e.flags, ahd := e.ahd })) ∧
  (∀ (t : Fin 48) (s : LStep) (rest : List LStep) (d : Dev),
    (d.task t).steps = s :: rest →
    d.taskState t = 1 →
    s.replay = true →
    s.latch = none →
    s.reqDue = none →
    s.reqAt = none →
    (∀ q ∈ rest, q.latch = none) →
    (∀ q ∈ rest, s.k < q.k) →
    On (.replay t) d (fun e =>
      (e.task t).steps = { s with reqDue := some d.now } :: rest ∧ RegsBut [AHD_LTt_STAT t, AHD_QLEN] d e ∧ e = { d with regs := e.regs, flags := e.flags, ahd := e.ahd })) ∧
  (∀ (t : Fin 48) (d : Dev),
    d.taskState t = 1 →
    (∀ q ∈ (d.task t).steps, q.replay = false) →
    0 < (d.task t).fires →
    (d.task t).openK ≤ d.front t + d.rd (AHD_LTt_CFG_DEPTH t) →
    (d.task t).pol ≠ 2 →
    On (.replay t) d (fun e =>
      (e.task t).fires = (d.task t).fires - 1 ∧ (e.task t).steps = (d.task t).steps ++ [{ LStep.fresh (d.task t).openK (d.task t).openS with reqDue := some d.now }] ∧ (e.task t).openK = (d.task t).openK + 1 ∧ e.isles = d.isles ∧ e.mem = d.mem)) ∧
  (∀ (t : Fin 48) (s : LStep) (rest : List LStep) (k : RaTok) (ks : List RaTok) (f : Nat) (d : Dev),
    (d.task t).steps = s :: rest →
    d.ahd.toks = k :: ks →
    k.task = t.val →
    k.code = 1 →
    k.due ≤ d.now →
    k.step = some f →
    s.k = f →
    d.taskState t = 1 →
    s.commitAt = none →
    (d.task t).squash = [] →
    On (.sqreq t) d (fun e =>
      (e.task t).squash = [{ d := d.now, k := f, rerun := true, replay := true, again := s.rerun.isSome }] ∧ (e.task t).steps = (d.task t).steps ∧ e.ahd.toks = ks ∧ RegsBut [AHD_LTt_STAT t] d e ∧ e = { d with regs := e.regs, flags := e.flags, ahd := e.ahd })) ∧
  (∀ (t : Fin 48) (s : LStep) (rest : List LStep) (f : Nat) (d : Dev),
    (d.task t).steps = s :: rest →
    d.front t = f →
    s.k = f →
    d.taskState t = 1 →
    s.commitAt = none →
    (d.task t).squash = [] →
    On (.ctlSquash t) d (fun e =>
      (e.task t).squash = [{ d := d.now, k := f, rerun := true, replay := true, again := s.rerun.isSome }] ∧ (e.task t).steps = (d.task t).steps ∧ RegsBut [AHD_LTt_STAT t] d e ∧ e = { d with regs := e.regs, flags := e.flags, ahd := e.ahd }))

/-- A task enabled, with AHD_CTRL.EN set and registers that pass every check of R132, is RUNNING with EPOCH 0, step 0 at S_0 and AHD_LTt_ACC0, no open step, and its entries at tag 0; a failed check sets CFGERR and leaves it disabled. A disabled task drops its open steps. A HALT token, AHD_LTt_CTL.HALT and the clearing of AHD_CTRL.EN halt a task: its open steps are squashed, its attention bit and CP_IPEND bit 4 are set. A NOTE token adds one to NOTE. A write of AHD_LTt_POL takes in TOL; the reserved value sets CFGERR. CLRCNT clears the four counter registers. -/
def Obligations.TasksStartAndStop : Prop :=
  (∀ (t : Fin 48) (v : BitVec 32) (b n x : Nat) (d : Dev),
    d.on (AHD_LTt_CFG_EN t) = false →
    (d.cfgFields t (wput v 0 0 1)).taskOk t = true →
    d.bindings t = [b] →
    d.rd (AHD_TBb_ID_ISLE b) = n →
    x ∈ d.taskEntries b →
    d.on AHD_CTRL_EN = true →
    On (.taskEnable t v) d (fun e =>
      e.rd (AHD_LTt_CFG_EN t) = 1 ∧ e.taskState t = 1 ∧ e.rd (AHD_LTt_STAT_EPOCH t) = 0 ∧ e.front t = 0 ∧ (e.task t).steps = [] ∧ (e.task t).openK = 0 ∧ (e.task t).openS = d.rd64 (AHD_LTt_S0_LO t) (AHD_LTt_S0_HI t) ∧ (e.task t).latchS = d.rd64 (AHD_LTt_S0_LO t) (AHD_LTt_S0_HI t) ∧ (e.task t).openAcc = d.rd (AHD_LTt_ACC0_ACC t) ∧
      (e.isle n).ment x = { (d.isle n).ment x with cur := 0, pres := 0, nextp := 0 } ∧ (e.isle n).cells = (d.isle n).cells ∧ (∀ m, m ≠ n → e.isle m = d.isle m) ∧ RegsBut [AHD_LTt_CFG t, AHD_LTt_STAT t, AHD_LTt_STEP t] d e ∧ e.mem = d.mem)) ∧
  (∀ (t : Fin 48) (v : BitVec 32) (d : Dev),
    d.on (AHD_LTt_CFG_EN t) = false →
    (d.cfgFields t (wput v 0 0 1)).taskOk t = false →
    On (.taskEnable t v) d (fun e =>
      e.rd (AHD_LTt_CFG_EN t) = 0 ∧ e.rd (AHD_LTt_STAT_CFGERR t) = 1 ∧ e.taskState t = d.taskState t ∧ e.ahd = d.ahd ∧ e = { d with regs := e.regs, flags := e.flags })) ∧
  (∀ (t : Fin 48) (d : Dev),
    d.on (AHD_LTt_CFG_EN t) = true →
    On (.taskDisable t) d (fun e =>
      e.rd (AHD_LTt_CFG_EN t) = 0 ∧ e.taskState t = 0 ∧ (e.task t).steps = [] ∧ (e.task t).squash = [] ∧ (e.task t).pol = (d.task t).pol ∧ (∀ u, u ≠ t.val → e.task u = d.task u) ∧ RegsBut [AHD_LTt_CFG t, AHD_LTt_STAT t] d e ∧ e = { d with regs := e.regs, flags := e.flags, ahd := e.ahd })) ∧
  (∀ (t : Fin 48) (k : RaTok) (ks : List RaTok) (d : Dev),
    d.ahd.toks = k :: ks →
    k.task = t.val →
    k.code = 2 →
    k.due ≤ d.now →
    d.taskState t = 1 ∨ d.taskState t = 2 →
    On (.haltToken t) d (fun e =>
      e.taskState t = 3 ∧ e.front t = d.front t ∧ (e.task t).steps = [] ∧ (if t.val < 32 then e.rdBit AHD_ATTN0_TASK t = true else e.rdBit AHD_ATTN1_TASK (t - 32) = true) ∧ (∀ c, c < 4 → e.rdBit (CP_IPEND_PEND c) 4 = true) ∧ (∀ u, u < 48 → u ≠ t.val → e.task u = d.task u ∧ e.taskState u = d.taskState u) ∧ e.isles = d.isles ∧ e.mem = d.mem ∧ e.ahd.toks = ks)) ∧
  (∀ (t : Fin 48) (d : Dev),
    d.taskState t = 1 ∨ d.taskState t = 2 →
    On (.ctlHalt t) d (fun e =>
      e.taskState t = 3 ∧ e.front t = d.front t ∧ (e.task t).steps = [] ∧ (if t.val < 32 then e.rdBit AHD_ATTN0_TASK t = true else e.rdBit AHD_ATTN1_TASK (t - 32) = true) ∧ (∀ c, c < 4 → e.rdBit (CP_IPEND_PEND c) 4 = true) ∧ (∀ u, u < 48 → u ≠ t.val → e.task u = d.task u ∧ e.taskState u = d.taskState u) ∧ e.isles = d.isles ∧ e.mem = d.mem)) ∧
  (∀ (t : Fin 48) (d : Dev),
    d.taskState t = 1 ∨ d.taskState t = 2 →
    On .ahdDisable d (fun e =>
      e.on AHD_CTRL_EN = false ∧ e.taskState t = 3 ∧ (e.task t).steps = [] ∧ e.isles = d.isles ∧ e.mem = d.mem)) ∧
  (∀ (t : Fin 48) (k : RaTok) (ks : List RaTok) (m : Nat) (d : Dev),
    d.ahd.toks = k :: ks →
    k.task = t.val →
    k.code = 3 →
    k.due ≤ d.now →
    d.rd (AHD_LTt_CNT2_NOTE t) = m →
    m < 65535 →
    On (.note t) d (fun e =>
      e.rd (AHD_LTt_CNT2_NOTE t) = m + 1 ∧ RegsBut [AHD_LTt_CNT2 t] d e ∧ e = { d with regs := e.regs, flags := e.flags, ahd := { d.ahd with toks := ks } })) ∧
  (∀ (t : Fin 48) (v : BitVec 32) (d : Dev),
    wbits v 1 0 ≠ 3 →
    On (.polWrite t v) d (fun e =>
      e.rd (AHD_LTt_POL_POL t) = wbits v 1 0 ∧ e.rd (AHD_LTt_POL_RES t) = wbits v 13 8 ∧ (e.task t).pol = wbits v 1 0 ∧ (e.task t).res = wbits v 13 8 ∧ (e.task t).tol = d.rd (AHD_LTt_TOL_TOL t) ∧ (e.task t).steps = (d.task t).steps ∧ RegsBut [AHD_LTt_POL t, AHD_LTt_STAT t] d e ∧ e = { d with regs := e.regs, flags := e.flags, ahd := e.ahd })) ∧
  (∀ (t : Fin 48) (v : BitVec 32) (d : Dev),
    wbits v 1 0 = 3 →
    On (.polWrite t v) d (fun e =>
      e.rd (AHD_LTt_STAT_CFGERR t) = 1 ∧ e.reg (AHD_LTt_POL t) = d.reg (AHD_LTt_POL t) ∧ e.ahd = d.ahd ∧ e = { d with regs := e.regs, flags := e.flags })) ∧
  (∀ (t : Fin 48) (d : Dev),
    On (.ahdClrcnt t) d (fun e =>
      e.reg (AHD_LTt_CNT0 t) = 0 ∧ e.reg (AHD_LTt_CNT1 t) = 0 ∧ e.reg (AHD_LTt_CNT2 t) = 0 ∧ e.reg (AHD_LTt_LAT t) = 0 ∧ OnlyRegs [AHD_LTt_CNT0 t, AHD_LTt_CNT1 t, AHD_LTt_CNT2 t, AHD_LTt_LAT t] d e))

/-- Arming an IDLE slot with a list and buffers in the Sound makes it ARMED; its target stays where it is a landfall of the period ahead, and moves on to the next landfall where it is not one, is already reached, or the slot is standing. An ARM with a bad list or buffer sets CFGERR and leaves the slot IDLE; while the slot is not IDLE an ARM does nothing. STOP makes an armed slot IDLE, and lets a draining one finish. The record of a slot is written at DST plus SIZE for odd sequence numbers: SEQ, STATUS, stamp, domain and slot, length, CRC, then the payload, and nothing else of memory. -/
def Obligations.SnapshotSlots : Prop :=
  (∀ (s : Fin 8) (v : BitVec 32) (n : Fin 8) (per : Nat) (d : Dev),
    d.rd (AHD_SNs_STAT_STATE s) = 0 →
    1 ≤ d.rd (AHD_SNs_NITEM_N s) →
    d.rd (AHD_SNs_NITEM_N s) ≤ 256 →
    (d.reg (AHD_SNs_LIST s)).toNat < 0x800000 →
    (d.reg (AHD_SNs_DST s)).toNat + 2 * (d.reg (AHD_SNs_SIZE s)).toNat < 0x800000 →
    wbits v 2 0 = n.val →
    2 ^ (48 - min (min 12 (d.rd (AU_ADn_CFG_LFK n))) (wbits v 11 8)) = per →
    wbit v 3 = false →
    isLandfall per (stampTheta (d.rd64 (AHD_SNs_LF_LO s) (AHD_SNs_LF_HI s))) = true →
    atOrPast (d.adRev n) (d.ad n).theta (stampTheta (d.rd64 (AHD_SNs_LF_LO s) (AHD_SNs_LF_HI s))) = false →
    On (.snapshotArm s v) d (fun e =>
      e.rd64 (AHD_SNs_LF_LO s) (AHD_SNs_LF_HI s) = d.rd64 (AHD_SNs_LF_LO s) (AHD_SNs_LF_HI s) ∧ e.rd (AHD_SNs_STAT_STATE s) = 1 ∧ e.rd (AHD_SNs_CTL_ARM s) = 1 ∧ e.rd (AHD_SNs_CTL_DOM s) = n.val ∧ e.rd (AHD_SNs_CTL_STAND s) = wbits v 3 3 ∧ e.rd (AHD_SNs_CTL_KS s) = wbits v 11 8 ∧ (e.snap s).record = (d.snap s).record ∧ RegsBut [AHD_SNs_CTL s, AHD_SNs_LF_LO s, AHD_SNs_LF_HI s, AHD_SNs_STAT s] d e ∧ e = { d with regs := e.regs, flags := e.flags, ahd := e.ahd })) ∧
  (∀ (s : Fin 8) (v : BitVec 32) (n : Fin 8) (per : Nat) (d : Dev),
    d.rd (AHD_SNs_STAT_STATE s) = 0 →
    1 ≤ d.rd (AHD_SNs_NITEM_N s) →
    d.rd (AHD_SNs_NITEM_N s) ≤ 256 →
    (d.reg (AHD_SNs_LIST s)).toNat < 0x800000 →
    (d.reg (AHD_SNs_DST s)).toNat + 2 * (d.reg (AHD_SNs_SIZE s)).toNat < 0x800000 →
    wbits v 2 0 = n.val →
    2 ^ (48 - min (min 12 (d.rd (AU_ADn_CFG_LFK n))) (wbits v 11 8)) = per →
    wbit v 3 = true ∨ atOrPast (d.adRev n) (d.ad n).theta (stampTheta (d.rd64 (AHD_SNs_LF_LO s) (AHD_SNs_LF_HI s))) = true →
    isLandfall per (stampTheta (d.rd64 (AHD_SNs_LF_LO s) (AHD_SNs_LF_HI s))) = true →
    On (.snapshotArm s v) d (fun e =>
      e.rd64 (AHD_SNs_LF_LO s) (AHD_SNs_LF_HI s) = lfStamp (lfNext (d.adRev n) per (d.ad n).theta) ∧ e.rd (AHD_SNs_STAT_STATE s) = 1 ∧ e.rd (AHD_SNs_CTL_ARM s) = 1 ∧ e.rd (AHD_SNs_CTL_DOM s) = n.val ∧ e.rd (AHD_SNs_CTL_STAND s) = wbits v 3 3 ∧ e.rd (AHD_SNs_CTL_KS s) = wbits v 11 8 ∧ (e.snap s).record = (d.snap s).record ∧ RegsBut [AHD_SNs_CTL s, AHD_SNs_LF_LO s, AHD_SNs_LF_HI s, AHD_SNs_STAT s] d e ∧ e = { d with regs := e.regs, flags := e.flags, ahd := e.ahd })) ∧
  (∀ (s : Fin 8) (v : BitVec 32) (d : Dev),
    d.rd (AHD_SNs_STAT_STATE s) = 0 →
    d.rd (AHD_SNs_NITEM_N s) = 0 ∨ 256 < d.rd (AHD_SNs_NITEM_N s) ∨ 0x800000 ≤ (d.reg (AHD_SNs_LIST s)).toNat ∨ 0x800000 ≤ (d.reg (AHD_SNs_DST s)).toNat + 2 * (d.reg (AHD_SNs_SIZE s)).toNat →
    On (.snapshotArm s v) d (fun e =>
      e.rd (AHD_SNs_STAT_STATE s) = 0 ∧ e.rd (AHD_SNs_CTL_CFGERR s) = 1 ∧ OnlyRegs [AHD_SNs_CTL s] d e)) ∧
  (∀ (s : Fin 8) (v : BitVec 32) (d : Dev),
    d.rd (AHD_SNs_STAT_STATE s) ≠ 0 →
    On (.snapshotArm s v) d (fun e =>
      e = d)) ∧
  (∀ (s : Fin 8) (d : Dev),
    d.rd (AHD_SNs_STAT_STATE s) = 1 →
    On (.snapshotStop s) d (fun e =>
      e.rd (AHD_SNs_STAT_STATE s) = 0 ∧ e.rd (AHD_SNs_CTL_ARM s) = 0 ∧ OnlyRegs [AHD_SNs_STAT s, AHD_SNs_CTL s] d e)) ∧
  (∀ (s : Fin 8) (d : Dev),
    d.rd (AHD_SNs_STAT_STATE s) = 2 →
    On (.snapshotStop s) d (fun e =>
      e.rd (AHD_SNs_STAT_STATE s) = 2 ∧ e.snap s = { d.snap s with stop := true } ∧ (∀ q, q ≠ s.val → e.snap q = d.snap q) ∧ e = { d with ahd := e.ahd })) ∧
  (∀ (s : Fin 8) (r : SnapRec) (z b : Nat) (d : Dev),
    (d.snap s).record = some r →
    r.ranges = [] →
    r.status = 0 →
    r.overrun = false →
    (d.snap s).evt = false →
    (d.reg (AHD_SNs_SIZE s)).toNat = z →
    (d.reg (AHD_SNs_DST s)).toNat + r.seq % 2 * z = b →
    32 + 4 * r.payload.length ≤ z →
    (d.reg (AHD_SNs_DST s)).toNat + 2 * z ≤ 0x800000 →
    d.integ.ecc = [] →
    On (.snapshotDrainDone s) d (fun e =>
      e.load32 b = w32 (r.seq + 1) ∧ e.load32 (b + 4) = 0 ∧ e.load32 (b + 8) = w32 r.stamp.toNat ∧ e.load32 (b + 12) = w32 (r.stamp.toNat / 2 ^ 32) ∧ e.load32 (b + 16) = w32 (d.rd (AHD_SNs_CTL_DOM s) + s * 16) ∧ e.load32 (b + 20) = w32 (4 * r.payload.length) ∧ e.load32 (b + 24) = crc32 (wordsBytes r.payload) ∧ e.load32 (b + 28) = 0 ∧ (∀ k, k < r.payload.length → e.load32 (b + 32 + 4 * k) = r.payload.getD k 0) ∧ (∀ a, (a < b ∨ b + 32 + 4 * r.payload.length ≤ a) → e.byte a = d.byte a) ∧
      e.rd (AHD_SNs_STAT_LAST s) = 0 ∧ e.rd (AHD_SNs_STAT_STATE s) = (if d.on (AHD_SNs_CTL_STAND s) && !(d.snap s).stop then 1 else 0) ∧ (e.snap s).record = none ∧ (e.snap s).stop = false ∧ (∀ q, q ≠ s.val → e.snap q = d.snap q) ∧ RegsBut [MI_FLIPk_CTL 0, MI_FLIPk_CTL 1, MI_FLIPk_CTL 2, MI_FLIPk_CTL 3, AHD_SNs_STAT s, AHD_SNs_CTL s] d e ∧ e.net = d.net ∧ e.ang = d.ang)) ∧
  (∀ (s : Fin 8) (d : Dev),
    (d.snap s).record = none →
    On (.snapshotDrainDone s) d (fun e =>
      e = d))

/-- A readback GO while one runs sets BUSY and changes nothing else. Otherwise its control word is taken and the readback waits for the landfall (FREEZE) or for its completion, with the record's first word written 0. The record of a latched readback is written at DST with SEQ 1, its status, stamp and domain; a record longer than SIZE has status TOOBIG and is cut. -/
def Obligations.Readback : Prop :=
  (∀ (v : BitVec 32) (d : Dev),
    d.rd CF_RB_STAT_STATE ≠ 0 →
    On (.rbGo v) d (fun e =>
      e.rd CF_STAT_BUSY = 1 ∧ OnlyRegs [CF_STAT] d e)) ∧
  (∀ (v : BitVec 32) (d : Dev),
    d.rd CF_RB_STAT_STATE = 0 →
    wbit v 1 = true →
    On (.rbGo v) d (fun e =>
      e.rd CF_RB_STAT_STATE = 1 ∧ e.rd CF_RB_CTL_DOM = wbits v 6 4 ∧ e.cfg.rb.rec_ = none ∧ e.cfg.rb.stamp = 0 ∧ RegsBut [CF_RB_CTL, CF_RB_STAT] d e ∧ e = { d with regs := e.regs, flags := e.flags, cfg := { d.cfg with rb := e.cfg.rb } })) ∧
  (∀ (v : BitVec 32) (b : Nat) (d : Dev),
    d.rd CF_RB_STAT_STATE = 0 →
    wbit v 1 = false →
    (d.reg CF_RB_DST).toNat = b →
    b + 4 ≤ 0x800000 →
    4 ≤ (d.reg CF_RB_SIZE).toNat →
    d.integ.ecc = [] →
    On (.rbGo v) d (fun e =>
      e.rd CF_RB_STAT_STATE = 2 ∧ e.rd CF_RB_CTL_DOM = wbits v 6 4 ∧ e.cfg.rb.rec_ = none ∧ e.cfg.rb.stamp = 0 ∧ e.load32 b = 0 ∧ (∀ a, (a < b ∨ b + 4 ≤ a) → e.byte a = d.byte a) ∧ RegsBut [CF_RB_CTL, CF_RB_STAT, MI_FLIPk_CTL 0, MI_FLIPk_CTL 1, MI_FLIPk_CTL 2, MI_FLIPk_CTL 3] d e ∧ e = { d with regs := e.regs, flags := e.flags, mem := e.mem, integ := e.integ, cfg := { d.cfg with rb := e.cfg.rb } })) ∧
  (∀ (st : Nat) (p : List (BitVec 32)) (b : Nat) (d : Dev),
    d.rd CF_RB_STAT_STATE = 2 →
    d.cfg.rb.rec_ = some (st, p) →
    32 + 4 * p.length ≤ (d.reg CF_RB_SIZE).toNat →
    (d.reg CF_RB_DST).toNat = b →
    b + (d.reg CF_RB_SIZE).toNat ≤ 0x800000 →
    d.integ.ecc = [] →
    st < 8 →
    On .readbackDone d (fun e =>
      e.load32 b = 1 ∧ e.load32 (b + 4) = w32 st ∧ e.load32 (b + 8) = w32 d.cfg.rb.stamp.toNat ∧ e.load32 (b + 12) = w32 (d.cfg.rb.stamp.toNat / 2 ^ 32) ∧ e.load32 (b + 16) = w32 (d.rd CF_RB_CTL_DOM) ∧ e.load32 (b + 20) = w32 (4 * p.length) ∧ e.load32 (b + 24) = crc32 (wordsBytes p) ∧ (∀ k, k < p.length → e.load32 (b + 32 + 4 * k) = p.getD k 0) ∧ (∀ a, (a < b ∨ b + 32 + 4 * p.length ≤ a) → e.byte a = d.byte a) ∧ e.rd CF_RB_STAT_STATE = 0 ∧ e.rd CF_RB_STAT_LAST = st ∧ e.cfg.rb.rec_ = none ∧ RegsBut [MI_FLIPk_CTL 0, MI_FLIPk_CTL 1, MI_FLIPk_CTL 2, MI_FLIPk_CTL 3, CF_RB_STAT] d e)) ∧
  (∀ (st : Nat) (p : List (BitVec 32)) (b : Nat) (d : Dev),
    d.rd CF_RB_STAT_STATE = 2 →
    d.cfg.rb.rec_ = some (st, p) →
    (d.reg CF_RB_SIZE).toNat < 32 + 4 * p.length →
    (d.reg CF_RB_DST).toNat = b →
    b + (d.reg CF_RB_SIZE).toNat ≤ 0x800000 →
    On .readbackDone d (fun e =>
      (∀ a, (a < b ∨ b + (d.reg CF_RB_SIZE).toNat ≤ a) → e.byte a = d.byte a) ∧ e.rd CF_RB_STAT_STATE = 0 ∧ e.rd CF_RB_STAT_LAST = 5)) ∧
  (∀ d : Dev,
    d.rd CF_RB_STAT_STATE ≠ 2 →
    On .readbackDone d (fun e =>
      e = d))

/-- A bit latch of an enabled input shifts the bit into the history and takes the sinc filter's result as its word, ready three ACLK later; every DEC-th result is a free-running word. A disabled input latches nothing. A ready free-running word goes to HP_SDi_FWORD and the links; the word of a strobe goes to HP_SDi_WORD, the links and its predictor; a word computed in overload sets OVLD and is counted. An input whose comparator lay outside its limits long enough trips: TRIP, TRIPC and its trip group fire, and the group's pairs are held from the next ACLK. -/
def Obligations.SigmaDeltaInputs : Prop :=
  (∀ (i : Fin 48) (b : Bool) (l : Nat) (d : Dev),
    d.on (HP_SDi_CFG_EN i) = true →
    (tget Mclk.reset d.hb.mclk (d.sdClock i)).last = l →
    (d.sdIn i).cur.at_ < l →
    (d.sdOverload i ((b :: (d.sdIn i).bits).take 768) = false ∨ d.predsOf 0 i = []) →
    d.on (HP_SDi_CMP_CEN i) = false →
    (d.sdIn i).cnt + 1 < max 4 (min 256 (d.rd (HP_SDi_CFG_DEC i))) →
    On (.sdBitLatch i b) d (fun e =>
      (e.sdIn i).bits = (b :: (d.sdIn i).bits).take 768 ∧ (e.sdIn i).prev = (d.sdIn i).cur ∧ (e.sdIn i).cur = { due := l + 3, at_ := l, value := d.sdResult i ((b :: (d.sdIn i).bits).take 768), bad := d.sdOverload i ((b :: (d.sdIn i).bits).take 768) || d.hbRepairing 0 i, ovl := d.sdOverload i ((b :: (d.sdIn i).bits).take 768) } ∧ (e.sdIn i).cnt = (d.sdIn i).cnt + 1 ∧ (e.sdIn i).free = (d.sdIn i).free ∧ (e.sdIn i).cmp = (d.sdIn i).cmp ∧
      (∀ q, q ≠ i.val → e.sdIn q = d.sdIn q) ∧ e = { d with hb := { d.hb with sd := e.hb.sd } })) ∧
  (∀ (i : Fin 48) (b : Bool) (l : Nat) (d : Dev),
    d.on (HP_SDi_CFG_EN i) = true →
    (tget Mclk.reset d.hb.mclk (d.sdClock i)).last = l →
    (d.sdIn i).cur.at_ < l →
    (d.sdOverload i ((b :: (d.sdIn i).bits).take 768) = false ∨ d.predsOf 0 i = []) →
    max 4 (min 256 (d.rd (HP_SDi_CFG_DEC i))) ≤ (d.sdIn i).cnt + 1 →
    On (.sdBitLatch i b) d (fun e =>
      (e.sdIn i).cnt = 0 ∧ (e.sdIn i).free = (d.sdIn i).free ++ [{ due := l + 3, at_ := l, value := d.sdResult i ((b :: (d.sdIn i).bits).take 768), bad := d.sdOverload i ((b :: (d.sdIn i).bits).take 768) || d.hbRepairing 0 i, ovl := d.sdOverload i ((b :: (d.sdIn i).bits).take 768) }] ∧ e.regs = d.regs)) ∧
  (∀ (i : Fin 48) (b : Bool) (d : Dev),
    d.on (HP_SDi_CFG_EN i) = false →
    On (.sdBitLatch i b) d (fun e =>
      e = d)) ∧
  (∀ (i : Fin 48) (b : Bool) (l : Nat) (d : Dev),
    d.on (HP_SDi_CFG_EN i) = true →
    d.on (HP_SDi_CMP_CEN i) = true →
    (tget Mclk.reset d.hb.mclk (d.sdClock i)).last = l →
    (d.sdIn i).cur.at_ < l →
    (d.sdOverload i ((b :: (d.sdIn i).bits).take 768) = false ∨ d.predsOf 0 i = []) →
    (d.sdIn i).spent = false →
    d.rd (HP_SDi_CMP_CCNT i) = (d.sdIn i).outN →
    (BitVec.ofNat 16 (d.rd (HP_SDi_CTHR_CHI i))).toInt < clampInt (-32768) 32767 (sincSum (max 1 (d.rd (HP_SDi_CMP_CORD i))) (max 4 (min 32 (d.rd (HP_SDi_CMP_CDEC i)))) ((b :: (d.sdIn i).bits).take 768)) →
    On (.sdBitLatch i b) d (fun e =>
      (e.sdIn i).trips = (d.sdIn i).trips ++ [l + 3] ∧ (e.sdIn i).spent = true ∧ e.hb.due = d.hb.due ++ [(l + 3, .cmpLive i true)] ∧ e.regs = d.regs ∧ e = { d with hb := e.hb })) ∧
  (∀ (i : Fin 48) (w : SdWord) (ws : List SdWord) (k : Nat) (d : Dev),
    (d.sdIn i).free = w :: ws →
    w.due ≤ d.now →
    d.rd (HP_SDi_CNT_OVLC i) = k →
    k < 65535 →
    (1 ≤ i.val → d.domainsOf 3 (i - 1) = []) →
    (2 ≤ i.val → d.domainsOf 4 (i - 2) = []) →
    On (.sdFreeWord i) d (fun e =>
      e.reg (HP_SDi_FWORD i) = w.value ∧ e.on (HP_SDi_STAT_OVLD i) = w.ovl ∧ e.rd (HP_SDi_CNT_OVLC i) = (if w.ovl then k + 1 else k) ∧ (e.sdIn i).free = ws ∧ (e.sdIn i).freeBad = w.bad ∧ (e.sdIn i).freeAt = w.at_ ∧ Linked 1 i true w.value d e ∧ RegsBut [HP_SDi_FWORD i, HP_SDi_STAT i, HP_SDi_CNT i] d e ∧ e = { d with regs := e.regs, flags := e.flags, hb := e.hb, isles := e.isles })) ∧
  (∀ (i : Fin 48) (w : SdWord) (ws : List SdWord) (n : Fin 7) (d : Dev),
    (d.sdIn i).free = w :: ws →
    w.due ≤ d.now →
    1 ≤ i.val →
    d.domainsOf 3 (i - 1) = [n.val] →
    On (.sdFreeWord i) d (fun e =>
      (e.ad n).inFlight.length = (d.ad n).inFlight.length + 1 ∧ ((e.ad n).inFlight.getLast?.map (·.at_)) = some w.at_ ∧ ((e.ad n).inFlight.getLast?.map (·.valid)) = some (!(d.sdIn (i - 1)).freeBad && !w.bad))) ∧
  (∀ (i : Fin 48) (tf : Nat) (w : SdWord) (ws : List (Nat × Option SdWord)) (d : Dev),
    (d.sdIn i).strobes = (tf, some w) :: ws →
    w.due ≤ d.now →
    tf + 1 ≤ d.now →
    w.bad = false →
    w.ovl = false →
    d.predsOf 0 i = [] →
    On (.sdStrobeWord i) d (fun e =>
      e.reg (HP_SDi_WORD i) = w.value ∧ e.on (HP_SDi_STAT_OVLD i) = false ∧ (e.sdIn i).strobes = ws ∧ Linked 1 i false w.value d e ∧ RegsBut [HP_SDi_WORD i, HP_SDi_STAT i] d e ∧ e = { d with regs := e.regs, flags := e.flags, hb := e.hb, isles := e.isles })) ∧
  (∀ (i : Fin 48) (tf : Nat) (w : SdWord) (ws : List (Nat × Option SdWord)) (p : Fin 48) (d : Dev),
    (d.sdIn i).strobes = (tf, some w) :: ws →
    w.due ≤ d.now →
    tf + 1 ≤ d.now →
    w.bad = false →
    d.predsOf 0 i = [p.val] →
    (d.pred p).got = false →
    On (.sdStrobeWord i) d (fun e =>
      e.pred p = { d.pred p with got := true, x := w.value, at_ := tf } ∧ e.reg (HP_PRDp_LAST p) = w.value ∧ e.reg (HP_SDi_WORD i) = w.value)) ∧
  (∀ (i : Fin 48) (t : Nat) (ts : List Nat) (g k : Nat) (d : Dev),
    (d.sdIn i).trips = t :: ts →
    t ≤ d.now →
    d.rd (HP_SDi_CMP_TGRP i) = g →
    d.rd (HP_SDi_CNT_TRIPC i) = k →
    k < 65535 →
    On (.sdTrip i) d (fun e =>
      e.on (HP_SDi_STAT_TRIP i) = true ∧ e.rd (HP_SDi_CNT_TRIPC i) = k + 1 ∧ e.rdBit PW_STAT_TRIPG g = true ∧ (e.sdIn i).trips = ts ∧ e.hb.due = d.hb.due ++ [(d.now + 1, .trip g)] ∧ Linked 6 (i / 32) false (e.portValue 6 (i / 32) false) d e ∧ e.hb.pwm = d.hb.pwm))

/-- A frame of another length than FLEN sets FERR, counts and unlocks its lane; a locked lane's frame is its new word, sign-extended. A quadrature transition counts by one, reversed by DIRINV; a change of both levels sets LOSS, counts and leaves the count. A Z edge copies the count. A write of CNT sets it. An SSI frame starts when its period expires, or sets BUSY; a good frame's data follow, a frame in error counts. A predictor takes its first measurement, then slopes. An I/O cell captures its level with INV; a mark is measured. A parity error queues the unit's repair. -/
def Obligations.PositionAndSampleInputs : Prop :=
  (∀ (j : Fin 16) (len : Nat) (bs : BitVec 32) (fl k : Nat) (d : Dev),
    d.on (HP_LVj_CFG_EN j) = true →
    d.on (HP_LVGg_EN (j / 4)) = true →
    max 8 (min 32 (d.rd (HP_LVj_CFG_FLEN j))) = fl →
    len ≠ fl →
    d.rd (HP_LVj_STAT_FERRC j) = k →
    k < 65535 →
    d.predsOf 1 j = [] →
    On (.lvdsFrame j len bs) d (fun e =>
      e.on (HP_LVj_STAT_FERR j) = true ∧ e.rd (HP_LVj_STAT_FERRC j) = k + 1 ∧ e.on (HP_LVj_STAT_LOCK j) = false ∧ tget Lane.reset e.hb.lane j = { (tget Lane.reset d.hb.lane j) with good := 0 } ∧ RegsBut [HP_LVj_STAT j] d e ∧ e = { d with regs := e.regs, flags := e.flags, hb := e.hb })) ∧
  (∀ (j : Fin 16) (len : Nat) (bs : BitVec 32) (fl : Nat) (d : Dev),
    d.on (HP_LVj_CFG_EN j) = true →
    d.on (HP_LVGg_EN (j / 4)) = true →
    max 8 (min 32 (d.rd (HP_LVj_CFG_FLEN j))) = fl →
    len = fl →
    d.on (HP_LVj_STAT_LOCK j) = true →
    d.hbRepairing 1 j = false →
    (∀ f : Fin 8, ¬ (d.rd (FQ_Qf_CFG_WSRC f) = 1 ∧ d.rd (FQ_Qf_CFG_LANE f) = j.val)) →
    On (.lvdsFrame j len bs) d (fun e =>
      (tget Lane.reset e.hb.lane j).prev = (tget Lane.reset d.hb.lane j).cur ∧ ((tget Lane.reset e.hb.lane j).cur.map (·.1)) = some d.now ∧ ((bs.toNat : Int) + (if d.on (HP_LVj_CFG_FMT j) then 2 ^ (fl - 1) else 0) - ((tget Lane.reset e.hb.lane j).cur.getD (0, 0)).2.toInt) % 2 ^ fl = 0 ∧ -(2 ^ (fl - 1) : Int) ≤ ((tget Lane.reset e.hb.lane j).cur.getD (0, 0)).2.toInt ∧ ((tget Lane.reset e.hb.lane j).cur.getD (0, 0)).2.toInt < 2 ^ (fl - 1) ∧
      e.hb.due = d.hb.due ++ [(d.now + 3, .laneWord j ((tget Lane.reset e.hb.lane j).cur.getD (0, 0)).2)] ∧ RegsBut [HP_LVj_STAT j] d e ∧ e = { d with regs := e.regs, flags := e.flags, hb := e.hb })) ∧
  (∀ (x : Fin 8) (a b : Bool) (v : BitVec 32) (d : Dev),
    d.on (HP_ENCe_CFG_EN x) = true →
    (quadIdx a b + 4 - quadIdx (d.encIf x).a (d.encIf x).b) % 4 ≠ 0 →
    (quadIdx a b + 4 - quadIdx (d.encIf x).a (d.encIf x).b) % 4 ≠ 2 →
    (d.encIf x).zAt ≠ some d.now →
    (d.encIf x).aFrom ≤ d.now ∧ (d.encIf x).bFrom ≤ d.now →
    d.domainsOf 1 x = [] →
    v = (if (decide ((quadIdx a b + 4 - quadIdx (d.encIf x).a (d.encIf x).b) % 4 = 1) != d.on (HP_ENCe_CFG_DIRINV x)) then d.reg (HP_ENCe_CNT x) + 1 else d.reg (HP_ENCe_CNT x) - 1) →
    On (.encTransition x a b) d (fun e =>
      e.reg (HP_ENCe_CNT x) = v ∧ (e.encIf x).a = a ∧ (e.encIf x).b = b ∧ Linked 3 x true v d e ∧ RegsBut [HP_ENCe_CNT x] d e ∧ e = { d with regs := e.regs, flags := e.flags, hb := e.hb, isles := e.isles })) ∧
  (∀ (x : Fin 8) (a b : Bool) (k : Nat) (d : Dev),
    d.on (HP_ENCe_CFG_EN x) = true →
    (d.encIf x).aFrom ≤ d.now ∧ (d.encIf x).bFrom ≤ d.now →
    a ≠ (d.encIf x).a →
    b ≠ (d.encIf x).b →
    d.rd (HP_ENCe_STAT_ILLC x) = k →
    k < 65535 →
    On (.encTransition x a b) d (fun e =>
      e.on (HP_ENCe_STAT_LOSS x) = true ∧ e.rd (HP_ENCe_STAT_ILLC x) = k + 1 ∧ e.reg (HP_ENCe_CNT x) = d.reg (HP_ENCe_CNT x) ∧ (e.encIf x).a = a ∧ (e.encIf x).b = b ∧ (e.encIf x).bad = d.domainsOf 1 x ++ (d.predsOf 2 x).map (fun p => 8 + p) ∧ RegsBut [HP_ENCe_STAT x] d e ∧ e = { d with regs := e.regs, flags := e.flags, hb := e.hb })) ∧
  (∀ (x : Fin 8) (r : Bool) (d : Dev),
    d.on (HP_ENCe_CFG_EN x) = true →
    r ≠ d.on (HP_ENCe_CFG_ZPOL x) →
    (d.encIf x).zFrom ≤ d.now →
    d.domainsOf 1 x = [] →
    On (.zEdge x r) d (fun e =>
      e.reg (HP_ENCe_ZCNT x) = d.reg (HP_ENCe_CNT x) ∧ e.on (HP_ENCe_STAT_ZSEEN x) = true ∧ (e.encIf x).zAt = some d.now ∧ RegsBut [HP_ENCe_ZCNT x, HP_ENCe_STAT x] d e ∧ e = { d with regs := e.regs, flags := e.flags, hb := e.hb })) ∧
  (∀ (x : Fin 8) (v : BitVec 32) (d : Dev),
    (d.encIf x).stepAt ≠ d.now →
    On (.encCntWrite x v) d (fun e =>
      e.reg (HP_ENCe_CNT x) = v ∧ Linked 3 x true v d e ∧ RegsBut [HP_ENCe_CNT x] d e ∧ (∀ n, n ∉ d.domainsOf 1 x → e.ad n = d.ad n) ∧ e = { d with regs := e.regs, flags := e.flags, ang := { d.ang with ad := e.ang.ad }, isles := e.isles })) ∧
  (∀ (x : Fin 8) (p : Nat) (d : Dev),
    d.on (HP_SSIs_CFG_EN x) = true →
    d.on (HP_SSIs_CFG_TRIGM x) = false →
    d.rd (HP_SSIs_PER_PER x) = p →
    p ≠ 0 →
    (d.ssiIf x).lastPer + p ≤ d.now →
    (d.ssiIf x).start = none →
    (d.ssiIf x).lastRise = none →
    On (.ssiPeriodicStart x) d (fun e =>
      (e.ssiIf x).start = some d.now ∧ (e.ssiIf x).strobed = false ∧ (e.ssiIf x).lastPer = (d.ssiIf x).lastPer + p ∧ (∀ n, n ∈ d.domainsOf 2 x → tget 0 (e.ssiIf x).latch n = (d.ad n).theta) ∧ (∀ q, q ≠ x.val → e.ssiIf q = d.ssiIf q) ∧ e = { d with hb := e.hb })) ∧
  (∀ (x : Fin 8) (p : Nat) (d : Dev),
    d.on (HP_SSIs_CFG_EN x) = true →
    d.on (HP_SSIs_CFG_TRIGM x) = false →
    d.rd (HP_SSIs_PER_PER x) = p →
    p ≠ 0 →
    (d.ssiIf x).lastPer + p ≤ d.now →
    (d.ssiIf x).start ≠ none →
    On (.ssiPeriodicStart x) d (fun e =>
      e.on (HP_SSIs_STAT_BUSY x) = true ∧ (e.ssiIf x).start = (d.ssiIf x).start ∧ RegsBut [HP_SSIs_STAT x] d e ∧ e = { d with regs := e.regs, flags := e.flags, hb := e.hb })) ∧
  (∀ (x : Fin 8) (st : Nat) (bs : BitVec 40) (d : Dev),
    (d.ssiIf x).start = some st →
    st + max 80 (d.rd (HP_SSIs_CLK_CDIV x)) / 2 + (ssiNbits (d.reg (HP_SSIs_CFG x)) (d.reg (HP_SSIs_POLY x)) - 1) * max 80 (d.rd (HP_SSIs_CLK_CDIV x)) + d.rd (HP_SSIs_CLK_SDLY x) ≤ d.now →
    wbits (d.reg (HP_SSIs_CFG x)) 15 14 = 0 →
    wbits (d.reg (HP_SSIs_CFG x)) 13 11 = 0 →
    wbit (d.reg (HP_SSIs_CFG x)) 16 = false →
    d.domainsOf 2 x = [] →
    On (.ssiFrameDone x true bs) d (fun e =>
      e.hb.due = d.hb.due ++ [(d.now + 3, .ssiData x st (BitVec.ofNat 40 (bs.toNat % 2 ^ ssiData (d.reg (HP_SSIs_CFG x)))) 0 (d.ssiIf x).strobed)] ∧ (e.ssiIf x).start = none ∧ (e.ssiIf x).seen = true ∧ e.regs = d.regs ∧ e = { d with hb := e.hb })) ∧
  (∀ (x : Fin 8) (st k : Nat) (bs : BitVec 40) (d : Dev),
    (d.ssiIf x).start = some st →
    st + max 80 (d.rd (HP_SSIs_CLK_CDIV x)) / 2 + (ssiNbits (d.reg (HP_SSIs_CFG x)) (d.reg (HP_SSIs_POLY x)) - 1) * max 80 (d.rd (HP_SSIs_CLK_CDIV x)) + d.rd (HP_SSIs_CLK_SDLY x) ≤ d.now →
    d.domainsOf 2 x = [] →
    d.predsOf 3 x = [] →
    d.rd (HP_SSIs_STAT_ERRC x) = k →
    k < 65535 →
    On (.ssiFrameDone x false bs) d (fun e =>
      e.on (HP_SSIs_STAT_WIRE x) = true ∧ e.on (HP_SSIs_STAT_ERR x) = true ∧ e.rd (HP_SSIs_STAT_ERRC x) = k + 1 ∧ e.hb.due = d.hb.due ∧ (e.ssiIf x).start = none ∧ (e.ssiIf x).seen = (d.ssiIf x).seen ∧ RegsBut [HP_SSIs_STAT x] d e ∧ e = { d with regs := e.regs, flags := e.flags, hb := e.hb })) ∧
  (∀ (p : Fin 48) (per : Nat) (w : BitVec 32) (d : Dev),
    d.on (HP_PRDp_CFG_EN p) = true →
    d.rd (HP_PRDp_CFG_PPER p) = per →
    per ≠ 0 →
    (d.pred p).lastPer + per ≤ d.now →
    d.rd (HP_PRDp_CFG_CLASS p) ≠ 2 →
    d.liveWord (d.rd (HP_PRDp_CFG_CLASS p)) (d.predIndex p) p = (w, true) →
    (d.pred p).got = false →
    On (.predictorSample p) d (fun e =>
      e.pred p = { d.pred p with got := true, x := w, at_ := d.now, lastPer := (d.pred p).lastPer + per } ∧ (∀ q, q ≠ p.val → e.pred q = d.pred q) ∧ RegsBut [HP_PRDp_LAST p, HP_PRDp_SLOPE_LO p, HP_PRDp_SLOPE_HI p] d e ∧ e = { d with regs := e.regs, flags := e.flags, preds := e.preds })) ∧
  (∀ (p : Fin 48) (per dt : Nat) (w : BitVec 32) (d : Dev),
    d.on (HP_PRDp_CFG_EN p) = true →
    d.rd (HP_PRDp_CFG_PPER p) = per →
    per ≠ 0 →
    (d.pred p).lastPer + per ≤ d.now →
    d.rd (HP_PRDp_CFG_CLASS p) ≠ 2 →
    d.liveWord (d.rd (HP_PRDp_CFG_CLASS p)) (d.predIndex p) p = (w, true) →
    (d.pred p).got = true →
    (d.pred p).ready = false →
    d.now = (d.pred p).at_ + dt →
    0 < dt →
    On (.predictorSample p) d (fun e =>
      e.pred p = { d.pred p with ready := true, x := w, slope := BitVec.ofInt 48 ((w - (d.pred p).x).toInt * 2 ^ 16 / dt), at_ := d.now, lastPer := (d.pred p).lastPer + per } ∧ e.reg (HP_PRDp_LAST p) = w ∧ (∀ q, q ≠ p.val → e.pred q = d.pred q) ∧ RegsBut [HP_PRDp_LAST p, HP_PRDp_SLOPE_LO p, HP_PRDp_SLOPE_HI p] d e ∧ e = { d with regs := e.regs, flags := e.flags, preds := e.preds })) ∧
  (∀ (g : Fin 64) (l : Bool) (d : Dev),
    d.rd (HP_GIOg_CFG_DIR g) = 0 →
    (d.gio g).pinAt ≠ some d.now →
    On (.gioInputEdge g l) d (fun e =>
      e.on (HP_GIOg_VAL_IN0 g) = (l != d.on (HP_GIOg_CFG_INV g)) ∧ e.on (HP_GIOg_VAL_IN1 g) = (if d.on (HP_GIOg_CFG_DDR g) then l != d.on (HP_GIOg_CFG_INV g) else d.on (HP_GIOg_VAL_IN1 g)) ∧ (e.gio g).pin = l ∧ (∀ q, q ≠ g.val → e.gio q = d.gio q) ∧ RegsBut [HP_GIOg_VAL g] d e ∧ e = { d with regs := e.regs, flags := e.flags, hb := e.hb, isles := e.isles })) ∧
  (∀ (g : Fin 64) (a : Nat) (d : Dev),
    (d.gio g).mark = some a →
    a + d.rd (HP_GIOg_MARK_MINW g) ≤ d.now →
    d.domainsOf 5 g = [] →
    On (.markAccept g) d (fun e =>
      e.gio g = { d.gio g with mark := none } ∧ (∀ q, q ≠ g.val → e.gio q = d.gio q) ∧ e = { d with hb := e.hb })) ∧
  (∀ (g : Fin 64) (a : Nat) (n : Fin 7) (d : Dev),
    (d.gio g).mark = some a →
    a + d.rd (HP_GIOg_MARK_MINW g) ≤ d.now →
    d.domainsOf 5 g = [n.val] →
    On (.markAccept g) d (fun e =>
      (e.gio g).mark = none ∧ (e.ad n).inFlight.length = (d.ad n).inFlight.length + 1 ∧ ((e.ad n).inFlight.getLast?.map (·.at_)) = some a ∧ (e.ad n).markIdx = (d.ad n).nextMark (d.rd (AU_ADn_CPR_CPR n)) ∧ e.regs = d.regs)) ∧
  (∀ (c : Fin 7) (i : Fin 64) (d : Dev),
    i.val < hbCount c →
    d.ev.repairs = [] →
    On (.harbourParityError c i) d (fun e =>
      (e.ev.repairs.map (fun r => (r.unit, r.kind, r.source))) = [(hbUnit c i, 3, 0x26)] ∧ (c = 4 → (e.pair i).repair = true ∧ (e.pair i).safe = true) ∧ (c = 5 → (e.gio i).repair = true) ∧ (c = 6 → (e.hfifo i).repair = true) ∧ e.ang = d.ang ∧ e.preds = d.preds)) ∧
  (∀ (c : Fin 7) (i : Fin 64) (d : Dev),
    hbCount c ≤ i.val →
    On (.harbourParityError c i) d (fun e =>
      e = d))

/-- A placed edge acts in its ACLK: the side that was on turns off at once and the other turns on after the dead time; the first edge of a pair that nothing holds any more ends its safe state. While a cause holds the pair safe the edge is discarded. At the end of the dead time the side turns on. A CMD word is registered, and the command of the ACLK before stays known. A trip flag clears unless the trip came in the same ACLK. PW_CTRL.SAFE puts every pair in its safe state. CLR clears the pair's counters. A cell's strobe pulse ends. -/
def Obligations.PwmPairs : Prop :=
  (∀ (p : Fin 48) (x : PwmEdge) (es : List PwmEdge) (d : Dev),
    (d.pair p).edges = x :: es →
    x.at_ < 8 * (d.now + 1) →
    d.safeCause p = false →
    (d.pair p).safe = true →
    On (.pwmEdgeAct p) d (fun e =>
      (e.pair p).safe = false ∧ (e.pair p).hiZ = false ∧ (e.pair p).hs = false ∧ (e.pair p).ls = false ∧ (e.pair p).turnOn = some (x.at_ + d.rd (PW_PAIRp_DT_DT p), x.on) ∧ (e.pair p).edges = es ∧ e.on (PW_PAIRp_STAT_INSAFE p) = false ∧ (∀ q, q ≠ p.val → e.pair q = d.pair q) ∧ RegsBut [PW_PAIRp_STAT p] d e ∧ e = { d with regs := e.regs, flags := e.flags, hb := e.hb })) ∧
  (∀ (p : Fin 48) (x : PwmEdge) (es : List PwmEdge) (d : Dev),
    (d.pair p).edges = x :: es →
    x.at_ < 8 * (d.now + 1) →
    d.safeCause p = false →
    (d.pair p).safe = false →
    (d.pair p).turnOn = none →
    (if x.on then (d.pair p).hs else (d.pair p).ls) = false →
    On (.pwmEdgeAct p) d (fun e =>
      e.pair p = { (d.pair p) with hs := false, ls := false, turnOn := some (x.at_ + d.rd (PW_PAIRp_DT_DT p), x.on), edges := es, acted := (d.pair p).acted.filter (fun q => 8 * (d.now - 1) ≤ q.at_) ++ [x], base := (e.pair p).base, upto := max (d.pair p).upto x.at_ } ∧ (∀ q, q ≠ p.val → e.pair q = d.pair q) ∧ RegsBut [PW_PAIRp_STAT p] d e ∧ e = { d with regs := e.regs, flags := e.flags, hb := e.hb })) ∧
  (∀ (p : Fin 48) (x : PwmEdge) (es : List PwmEdge) (d : Dev),
    (d.pair p).edges = x :: es →
    x.at_ < 8 * (d.now + 1) →
    d.safeCause p = true →
    On (.pwmEdgeAct p) d (fun e =>
      (e.pair p).edges = es ∧ (e.pair p).hs = (d.pair p).hs ∧ (e.pair p).ls = (d.pair p).ls ∧ (e.pair p).safe = (d.pair p).safe ∧ (e.pair p).turnOn = (d.pair p).turnOn ∧ (∀ q, q ≠ p.val → e.pair q = d.pair q) ∧ RegsBut [PW_PAIRp_STAT p] d e ∧ e = { d with regs := e.regs, flags := e.flags, hb := e.hb })) ∧
  (∀ (p : Fin 48) (u : Nat) (h : Bool) (d : Dev),
    (d.pair p).turnOn = some (u, h) →
    u < 8 * (d.now + 1) →
    (∀ x ∈ (d.pair p).edges, u < x.at_) →
    On (.pwmDeadtimeEnd p) d (fun e =>
      e.pair p = { (d.pair p) with hs := (d.pair p).hs || h, ls := (d.pair p).ls || !h, turnOn := none, upto := max (d.pair p).upto u } ∧ (∀ q, q ≠ p.val → e.pair q = d.pair q) ∧ RegsBut [PW_PAIRp_STAT p] d e ∧ e = { d with regs := e.regs, flags := e.flags, hb := e.hb })) ∧
  (∀ (p : Fin 48) (u : Nat) (h : Bool) (d : Dev),
    (d.pair p).turnOn = some (u, h) →
    8 * (d.now + 1) ≤ u →
    On (.pwmDeadtimeEnd p) d (fun e =>
      e = d)) ∧
  (∀ (p : Fin 48) (v : BitVec 32) (d : Dev),
    (d.pair p).cmdAt < d.now →
    On (.pwmCmdWrite p v) d (fun e =>
      e.reg (PW_PAIRp_CMD p) = v ∧ e.cmdBefore p = d.reg (PW_PAIRp_CMD p) ∧ (e.pair p).edges = (d.pair p).edges ∧ (e.pair p).hs = (d.pair p).hs ∧ (e.pair p).ls = (d.pair p).ls ∧ (∀ q, q ≠ p.val → e.pair q = d.pair q) ∧ RegsBut [PW_PAIRp_CMD p, PW_PAIRp_STAT p] d e ∧ e = { d with regs := e.regs, flags := e.flags, hb := e.hb })) ∧
  (∀ (p : Fin 48) (d : Dev),
    (d.pair p).tripAt ≠ some d.now →
    On (.tripClear p) d (fun e =>
      e.on (PW_PAIRp_STAT_TRIP p) = false ∧ OnlyRegs [PW_PAIRp_STAT p] d e)) ∧
  (∀ (p : Fin 48) (d : Dev),
    (d.pair p).tripAt = some d.now →
    On (.tripClear p) d (fun e =>
      e = d)) ∧
  (∀ (p : Fin 48) (d : Dev),
    (d.pair p).safe = false →
    d.on PW_STAT_NOIMG = false →
    On (.pwSafeWrite true) d (fun e =>
      e.on PW_CTRL_SAFE = true ∧ (e.pair p).safe = true ∧ (e.pair p).hs = ((d.pair p).hs && decide (d.rd (PW_PAIRp_CFG_SAFE p) = 1)) ∧ (e.pair p).ls = ((d.pair p).ls && decide (d.rd (PW_PAIRp_CFG_SAFE p) = 2)) ∧ (e.pair p).hiZ = decide (d.rd (PW_PAIRp_CFG_SAFE p) = 3) ∧ e.on (PW_PAIRp_STAT_INSAFE p) = true ∧ e = { d with regs := e.regs, flags := e.flags, hb := { d.hb with pwm := e.hb.pwm } })) ∧
  (∀ d : Dev,
    d.ev.f3 = false →
    (∀ p : Fin 48, d.safeCause p = true → (d.pair p).safe = true) →
    On (.pwSafeWrite false) d (fun e =>
      e.on PW_CTRL_SAFE = false ∧ OnlyRegs [PW_CTRL] d e)) ∧
  (∀ d : Dev,
    d.ev.f3 = true →
    On (.pwSafeWrite false) d (fun e =>
      e = d)) ∧
  (∀ (p : Fin 48) (d : Dev),
    On (.pwClrCnt p) d (fun e =>
      e.reg (PW_PAIRp_CNT p) = 0 ∧ OnlyRegs [PW_PAIRp_CNT p] d e)) ∧
  (∀ (g : Fin 64) (a : Nat) (d : Dev),
    (d.gio g).pulseEnd = some a →
    a ≤ d.now →
    On (.gioPulseEnd g) d (fun e =>
      e.gio g = { d.gio g with pulseEnd := none } ∧ (∀ q, q ≠ g.val → e.gio q = d.gio q) ∧ e.regs = d.regs ∧ e = { d with hb := e.hb }))

/-- A read of a harbour FIFO with AVAIL = 0 returns 0 and sets UNDR. FLUSH discards every item, including an open packet, without counting them in LOST. -/
def Obligations.FifoReadAndFlush : Prop :=
  (∀ (f : Fin 8) (d : Dev),
    d.rd (FQ_Qf_STAT_AVAIL f) = (d.hfifo f).items.length →
    d.rd (FQ_Qf_STAT_AVAIL f) = 0 →
    (d.hfifo f).prev.all (fun q => decide (q.at_ ≠ d.now)) = true →
    On (.fifoDataRead f) d (fun e =>
      e.rdData = 0 ∧ e.on (FQ_Qf_STAT_UNDR f) = true ∧ (∀ q, e.hfifo q = d.hfifo q) ∧ RegsBut [FQ_Qf_STAT f] d e ∧ e = { d with regs := e.regs, flags := e.flags, rdData := e.rdData })) ∧
  (∀ (f : Fin 8) (d : Dev),
    On (.fqFlush f) d (fun e =>
      (e.hfifo f).items = [] ∧ (e.hfifo f).packet = none ∧ e.rd (FQ_Qf_STAT_FILL f) = 0 ∧ e.rd (FQ_Qf_STAT_AVAIL f) = 0 ∧ e.reg (FQ_Qf_LOST f) = d.reg (FQ_Qf_LOST f) ∧ (∀ q, q ≠ f.val → e.hfifo q = d.hfifo q) ∧ RegsBut [FQ_Qf_STAT f] d e ∧ e = { d with regs := e.regs, flags := e.flags, hb := e.hb }))

/-- A fresh word of an outbound channel is delivered once, to the PWM pair, FIFO or I/O bank that HP_OBc names; while the harbour is loaded it is dropped. A FIFO that is not full stores the word; a full one discards its oldest item, counts it and sets OVF. A read of a FIFO returns its oldest readable item and removes it; it comes before the writes of its ACLK. CLRLOST clears LOST. -/
def Obligations.DeliveriesAndFifos : Prop :=
  (∀ (c : Fin 96) (v : BitVec 32) (p : Nat) (d : Dev),
    (d.isle (c / 8)).freshV.contains (16 + c % 8) = true →
    (d.isle (c / 8)).taken.contains (c.val % 8) = false →
    tget 0#32 (d.isle (c / 8)).straitV (16 + c % 8) = v →
    d.hb.loading = false →
    obTarget (d.reg (HP_OBc c)) = some (1, p) →
    (d.pair p).cmdAt < d.now →
    On (.harbourDelivery c) d (fun e =>
      e.reg (PW_PAIRp_CMD p) = v ∧ e.cmdBefore p = d.reg (PW_PAIRp_CMD p) ∧ (e.isle (c / 8)) = { d.isle (c / 8) with taken := (d.isle (c / 8)).taken ++ [c.val % 8] } ∧ (∀ n, n ≠ c.val / 8 → e.isle n = d.isle n) ∧ RegsBut [PW_PAIRp_CMD p, PW_PAIRp_STAT p] d e ∧ e = { d with regs := e.regs, flags := e.flags, hb := e.hb, isles := e.isles })) ∧
  (∀ (c : Fin 96) (v : BitVec 32) (b : Nat) (d : Dev),
    (d.isle (c / 8)).freshV.contains (16 + c % 8) = true →
    (d.isle (c / 8)).taken.contains (c.val % 8) = false →
    tget 0#32 (d.isle (c / 8)).straitV (16 + c % 8) = v →
    d.hb.loading = false →
    obTarget (d.reg (HP_OBc c)) = some (3, b) →
    On (.harbourDelivery c) d (fun e =>
      tget 0 e.hb.bank b = v ∧ (e.isle (c / 8)) = { d.isle (c / 8) with taken := (d.isle (c / 8)).taken ++ [c.val % 8] } ∧ (∀ n, n ≠ c.val / 8 → e.isle n = d.isle n) ∧ e.regs = d.regs ∧ e.hb = { d.hb with bank := e.hb.bank } ∧ (∀ x, x ≠ b → tget 0 e.hb.bank x = tget 0 d.hb.bank x) ∧ e = { d with hb := e.hb, isles := e.isles })) ∧
  (∀ (c : Fin 96) (v : BitVec 32) (f : Nat) (d : Dev),
    (d.isle (c / 8)).freshV.contains (16 + c % 8) = true →
    (d.isle (c / 8)).taken.contains (c.val % 8) = false →
    tget 0#32 (d.isle (c / 8)).straitV (16 + c % 8) = v →
    d.hb.loading = false →
    obTarget (d.reg (HP_OBc c)) = some (2, f) →
    d.rd (FQ_Qf_CFG_WSRC f) = 2 →
    d.on (FQ_Qf_CFG_EN f) = true →
    d.on (FQ_Qf_CFG_FRAME f) = false →
    (d.hfifo f).fill < 4096 →
    On (.harbourDelivery c) d (fun e =>
      e.hfifo f = { d.hfifo f with items := (d.hfifo f).items ++ [(v, false)], prev := some (d.fifoPrev f v), fc := (e.hfifo f).fc } ∧ e.rd (FQ_Qf_STAT_FILL f) = (d.hfifo f).fill + 1 ∧ e.reg (FQ_Qf_LOST f) = d.reg (FQ_Qf_LOST f) ∧ (∀ q, q ≠ f → e.hfifo q = d.hfifo q) ∧ (e.isle (c / 8)) = { d.isle (c / 8) with taken := (d.isle (c / 8)).taken ++ [c.val % 8] } ∧ (∀ n, n ≠ c.val / 8 → e.isle n = d.isle n) ∧ RegsBut [FQ_Qf_STAT f] d e ∧ e = { d with regs := e.regs, flags := e.flags, hb := e.hb, isles := e.isles })) ∧
  (∀ (c : Fin 96) (v : BitVec 32) (f k : Nat) (x : BitVec 32) (t : List (BitVec 32 × Bool)) (d : Dev),
    (d.isle (c / 8)).freshV.contains (16 + c % 8) = true →
    (d.isle (c / 8)).taken.contains (c.val % 8) = false →
    tget 0#32 (d.isle (c / 8)).straitV (16 + c % 8) = v →
    d.hb.loading = false →
    obTarget (d.reg (HP_OBc c)) = some (2, f) →
    d.rd (FQ_Qf_CFG_WSRC f) = 2 →
    d.on (FQ_Qf_CFG_EN f) = true →
    d.on (FQ_Qf_CFG_FRAME f) = false →
    4096 ≤ (d.hfifo f).fill →
    (d.hfifo f).items = (x, false) :: t →
    d.rd (FQ_Qf_LOST_LOST f) = k →
    k < 4294967295 →
    On (.harbourDelivery c) d (fun e =>
      (e.hfifo f).items = t ++ [(v, false)] ∧ e.rd (FQ_Qf_LOST_LOST f) = k + 1 ∧ e.on (FQ_Qf_STAT_OVF f) = true ∧ (e.isle (c / 8)) = { d.isle (c / 8) with taken := (d.isle (c / 8)).taken ++ [c.val % 8] } ∧ (∀ n, n ≠ c.val / 8 → e.isle n = d.isle n) ∧ RegsBut [FQ_Qf_STAT f, FQ_Qf_LOST f] d e)) ∧
  (∀ (c : Fin 96) (d : Dev),
    d.hb.loading = true →
    On (.harbourDelivery c) d (fun e =>
      e = d)) ∧
  (∀ (f : Fin 8) (x : BitVec 32) (k : Bool) (t : List (BitVec 32 × Bool)) (d : Dev),
    (d.hfifo f).items = (x, k) :: t →
    (d.hfifo f).prev.all (fun q => decide (q.at_ ≠ d.now)) = true →
    On (.fifoDataRead f) d (fun e =>
      e.rdData = x ∧ e.hfifo f = { d.hfifo f with items := t, fc := (e.hfifo f).fc } ∧ (∀ q, q ≠ f.val → e.hfifo q = d.hfifo q) ∧ RegsBut [FQ_Qf_STAT f] d e ∧ e = { d with regs := e.regs, flags := e.flags, hb := e.hb, rdData := e.rdData })) ∧
  (∀ (f : Fin 8) (q : FifoPrev) (x : BitVec 32) (k : Bool) (t : List (BitVec 32 × Bool)) (d : Dev),
    (d.hfifo f).prev = some q →
    q.at_ = d.now →
    q.items = (x, k) :: t →
    On (.fifoDataRead f) d (fun e =>
      e.rdData = x ∧ (∀ p, p ≠ f.val → e.hfifo p = d.hfifo p) ∧ RegsBut [FQ_Qf_STAT f, FQ_Qf_LOST f] d e ∧ e = { d with regs := e.regs, flags := e.flags, hb := e.hb, rdData := e.rdData })) ∧
  (∀ (f : Fin 8) (d : Dev),
    On (.fqClrlost f) d (fun e =>
      e.reg (FQ_Qf_LOST f) = 0 ∧ OnlyRegs [FQ_Qf_LOST f] d e))

/-- A GO while the ICP is busy sets BUSY and does nothing else; otherwise the ICP fetches. The header in, 129 ACLK after GO, is checked: a bad identity fails the image with DEVID; a good one, with a size that fits, an active key slot and a claimed buffer, goes on. The copy ends no earlier than a byte each ACLK allows: the staging buffer holds the image's bytes and nothing else of memory changes; a source error fails it with TRUNCATED. 160 ACLK later the tag is compared with the one the key gives, and the static checks start, one ACLK for 16 bytes; a wrong tag fails the image. ABORT before the slot is armed ends the image as ABORTED, after it acts as an ABORT of the slot. -/
def Obligations.PartialImageThroughTheIcp : Prop :=
  (∀ (v : BitVec 32) (d : Dev),
    1 ≤ d.rd CF_ICP_STAT_STATE →
    d.rd CF_ICP_STAT_STATE ≤ 4 →
    On (.icpGo v) d (fun e =>
      e.rd CF_STAT_BUSY = 1 ∧ OnlyRegs [CF_STAT] d e)) ∧
  (∀ (v : BitVec 32) (d : Dev),
    d.rd CF_ICP_STAT_STATE = 0 ∨ 5 ≤ d.rd CF_ICP_STAT_STATE →
    d.integ.tmr = [] →
    On (.icpGo v) d (fun e =>
      e.rd CF_ICP_STAT_STATE = 1 ∧ e.cfg.icp = { phase := 1, at_ := d.now, todo := [], checks := [] } ∧ e.rd CF_ICP_CTL_SLOT = wbits v CF_ICP_CTL_SLOT.hi CF_ICP_CTL_SLOT.lo ∧ e.reg CF_ICP_DONE = 0 ∧ e.reg CF_ICP_NEED = 0 ∧ RegsBut [CF_ICP_CTL, CF_ICP_STAT, CF_ICP_DONE, CF_ICP_NEED] d e ∧ e = { d with regs := e.regs, flags := e.flags, cfg := { d.cfg with icp := e.cfg.icp } })) ∧
  (∀ (n : Nat) (nv : Nv) (d : Dev),
    nv.agree = true →
    d.cfg.icp.phase = 1 →
    d.cfg.icp.at_ + 129 ≤ d.now →
    128 ≤ d.rd CF_ICP_LEN_LEN →
    d.icpSrc + 128 + 16 * min 64 (imgSects (d.bytesAt d.icpSrc 128)) ≤ 0x800000 →
    identityOk (d.bytesAt d.icpSrc 128) = true →
    imgLen (d.bytesAt d.icpSrc 128) = n →
    headerOk (d.bytesAt d.icpSrc (128 + 16 * min 64 (imgSects (d.bytesAt d.icpSrc 128)))) = true →
    headerCheck nv true true (d.bytesAt d.icpSrc (128 + 16 * min 64 (imgSects (d.bytesAt d.icpSrc 128)))) = 0 →
    imgPartial (d.bytesAt d.icpSrc 128) = true →
    n ≤ d.rd CF_ICP_STGSZ_SIZE * 16 →
    128 + 16 * imgSects (d.bytesAt d.icpSrc 128) ≤ d.rd CF_ICP_LEN_LEN →
    d.claimed 0x13 d.icpStg n = true →
    d.integ.ecc = [] →
    OnNv .icpHeaderIn nv d (fun e =>
      e.cfg.icp = { d.cfg.icp with phase := 2 } ∧ e.rd CF_ICP_DONE_BYTES = 128 ∧ RegsBut [CF_ICP_DONE] d e ∧ e = { d with regs := e.regs, flags := e.flags, cfg := { d.cfg with icp := e.cfg.icp } })) ∧
  (∀ (nv : Nv) (d : Dev),
    nv.agree = true →
    d.cfg.icp.phase = 1 →
    d.cfg.icp.at_ + 129 ≤ d.now →
    128 ≤ d.rd CF_ICP_LEN_LEN →
    d.icpSrc + 128 ≤ 0x800000 →
    identityOk (d.bytesAt d.icpSrc 128) = false →
    d.cfg.ops = [] →
    d.integ.ecc = [] →
    OnNv .icpHeaderIn nv d (fun e =>
      e.rd CF_ICP_STAT_STATE = 6 ∧ e.rd CF_ICP_STAT_CODE = 1 ∧ e.cfg.icp = Icp.reset ∧ e.mem = d.mem ∧ RegsBut [CF_ICP_STAT] d e)) ∧
  (∀ (n : Nat) (d : Dev),
    d.cfg.icp.phase = 2 →
    imgLen (d.bytesAt d.icpSrc 128) = n →
    128 ≤ n →
    n ≤ d.rd CF_ICP_LEN_LEN →
    n < 2 ^ 24 →
    d.cfg.icp.at_ + n ≤ d.now + 1 →
    d.icpSrc + n ≤ 0x800000 →
    d.icpStg + n ≤ 0x800000 →
    d.integ.ecc = [] →
    On (.icpCopyEnd true) d (fun e =>
      (∀ k, k < n → e.byte (d.icpStg + k) = d.byte (d.icpSrc + k)) ∧ (∀ a, (a < d.icpStg ∨ d.icpStg + n ≤ a) → e.byte a = d.byte a) ∧ e.cfg.icp = { d.cfg.icp with phase := 3, at_ := d.now + 160 } ∧ e.rd CF_ICP_DONE_BYTES = n ∧ e.rd CF_ICP_STAT_STATE = 2 ∧ RegsBut [CF_ICP_DONE, CF_ICP_STAT, MI_FLIPk_CTL 0, MI_FLIPk_CTL 1, MI_FLIPk_CTL 2, MI_FLIPk_CTL 3] d e ∧ e = { d with regs := e.regs, flags := e.flags, mem := e.mem, integ := e.integ, cfg := { d.cfg with icp := e.cfg.icp } })) ∧
  (∀ d : Dev,
    d.cfg.icp.phase = 2 →
    d.cfg.ops = [] →
    d.icpSrc + 128 ≤ 0x800000 →
    d.integ.ecc = [] →
    On (.icpCopyEnd false) d (fun e =>
      e.rd CF_ICP_STAT_STATE = 6 ∧ e.rd CF_ICP_STAT_CODE = 3 ∧ e.cfg.icp = Icp.reset ∧ e.mem = d.mem ∧ RegsBut [CF_ICP_STAT] d e)) ∧
  (∀ (n : Nat) (nv : Nv) (d : Dev),
    nv.agree = true →
    d.cfg.icp.phase = 3 →
    d.cfg.icp.at_ ≤ d.now →
    d.rd CF_ICP_DONE_BYTES = n →
    d.icpStg + n ≤ 0x800000 →
    tagOk nv (d.bytesAt d.icpStg n) = true →
    d.integ.ecc = [] →
    OnNv .icpTagCheck nv d (fun e =>
      e.cfg.icp = { d.cfg.icp with phase := 4, at_ := d.now + 1 + n / 16 } ∧ e.regs = d.regs ∧ e = { d with regs := e.regs, flags := e.flags, cfg := { d.cfg with icp := e.cfg.icp } })) ∧
  (∀ (n : Nat) (nv : Nv) (d : Dev),
    nv.agree = true →
    d.cfg.icp.phase = 3 →
    d.cfg.icp.at_ ≤ d.now →
    d.rd CF_ICP_DONE_BYTES = n →
    d.icpStg + n ≤ 0x800000 →
    tagOk nv (d.bytesAt d.icpStg n) = false →
    d.cfg.ops = [] →
    d.integ.ecc = [] →
    OnNv .icpTagCheck nv d (fun e =>
      e.rd CF_ICP_STAT_STATE = 6 ∧ e.rd CF_ICP_STAT_CODE = 4 ∧ e.cfg.icp = Icp.reset ∧ e.mem = d.mem ∧ RegsBut [CF_ICP_STAT] d e)) ∧
  (∀ d : Dev,
    1 ≤ d.cfg.icp.phase →
    d.cfg.icp.phase ≤ 4 →
    d.cfg.ops = [] →
    On .icpAbort d (fun e =>
      e.rd CF_ICP_STAT_STATE = 6 ∧ e.rd CF_ICP_STAT_CODE = 0x0F ∧ e.cfg.icp = Icp.reset ∧ RegsBut [CF_ICP_STAT] d e ∧ e.mem = d.mem)) ∧
  (∀ (s : Fin 8) (d : Dev),
    5 ≤ d.cfg.icp.phase →
    d.rd CF_ICP_CTL_SLOT = s.val →
    On .icpAbort d (fun e =>
      On (.modeChangeAbort s) d (fun f => e = f)))

/-- When the static checks have passed, the image's claims are reserved, the slot is armed with as many acknowledgments to come as the image has units, and the causeway starts on the first unit, or waits while its isle is in SYNC; a failed check fails the image. Units are written at their rate: a staged isle's contexts go to its staging copy and its active copy stays, its staging set is then checked for 256 ACLK, and a good check sends the acknowledgment, which arrives 4 ACLK after the unit completes. A malformed staging set abandons the slot. -/
def Obligations.StagingAPartialImage : Prop :=
  (∀ (s u : Nat) (us : List Nat) (d : Dev),
    d.cfg.icp.phase = 4 →
    d.cfg.icp.at_ ≤ d.now →
    d.icpStg + d.rd CF_ICP_DONE_BYTES ≤ 0x800000 →
    d.integ.ecc = [] →
    d.checkPartial d.icpStg (d.bytesAt d.icpStg (d.rd CF_ICP_DONE_BYTES)) = none →
    d.rd CF_ICP_CTL_SLOT = s →
    imgUnits (imgItems (d.bytesAt d.icpStg (d.rd CF_ICP_DONE_BYTES))) = u :: us →
    (∀ i ∈ imgItems (d.bytesAt d.icpStg (d.rd CF_ICP_DONE_BYTES)), i.writes.all (fun w => w.1 != 0x13) = true) →
    d.rd (AU_MCs_STAT_STATE s) = 0 ∨ 3 ≤ d.rd (AU_MCs_STAT_STATE s) →
    u < 96 →
    d.on (IS_STAT_SYNC u) = false →
    d.unitRefuses (imgItems (d.bytesAt d.icpStg (d.rd CF_ICP_DONE_BYTES))) u = false →
    (unitItems (imgItems (d.bytesAt d.icpStg (d.rd CF_ICP_DONE_BYTES))) u).any ImgItem.loads = false →
    us.length < 255 →
    On .icpChecksDone d (fun e =>
      e.cfg.claims = (claimsWith d.cfg.claims 5 true (imgItems (d.bytesAt d.icpStg (d.rd CF_ICP_DONE_BYTES)))).2.1 ∧ e.cfg.releases = (claimsWith d.cfg.claims 5 true (imgItems (d.bytesAt d.icpStg (d.rd CF_ICP_DONE_BYTES)))).2.2 ∧ e.rd (AU_MCs_STAT_STATE s) = 1 ∧ e.rd (AU_MCs_CTL_DOM s) = d.rd CF_ICP_CTL_DOM ∧ e.rd (AU_MCs_ACK_NEED s) = us.length + 1 ∧ e.rd (AU_MCs_ACK_GOT s) = 0 ∧ e.rd CF_ICP_NEED_NEED = us.length + 1 ∧ e.rd CF_ICP_STAT_STATE = 3 ∧ e.cfg.icp.phase = 6 ∧ e.cfg.icp.todo = u :: us ∧ e.cfg.icp.at_ = d.now ∧ (e.cfg.staged.map (fun x => (x.unit, x.slot, x.loaded))) = (d.cfg.staged.map (fun x => (x.unit, x.slot, x.loaded))) ++ [(u, s, false)] ∧ e.isles = d.isles ∧ e.mem = d.mem)) ∧
  (∀ (x : ImgErr) (d : Dev),
    d.cfg.icp.phase = 4 →
    d.cfg.icp.at_ ≤ d.now →
    d.icpStg + d.rd CF_ICP_DONE_BYTES ≤ 0x800000 →
    d.integ.ecc = [] →
    d.checkPartial d.icpStg (d.bytesAt d.icpStg (d.rd CF_ICP_DONE_BYTES)) = some x →
    x.code < 256 →
    d.cfg.ops = [] →
    On .icpChecksDone d (fun e =>
      e.rd CF_ICP_STAT_STATE = 6 ∧ e.rd CF_ICP_STAT_CODE = x.code ∧ e.cfg.icp = Icp.reset ∧ e.isles = d.isles ∧ e.mem = d.mem ∧ RegsBut [CF_ICP_STAT] d e)) ∧
  (∀ (u n c k : Nat) (w : BitVec 128) (d : Dev),
    d.cfg.icp.phase = 6 →
    d.cfg.icp.todo = [u] →
    u < 96 →
    n = u →
    c < 16 →
    k < 16 →
    unitItems (imgItems (d.bytesAt d.icpStg (d.rd CF_ICP_DONE_BYTES))) u = [.ctx n c k w] →
    d.cfg.icp.at_ + 1 ≤ d.now →
    d.icpStg + d.rd CF_ICP_DONE_BYTES ≤ 0x800000 →
    d.integ.ecc = [] →
    On .icpUnitStaged d (fun e =>
      (e.isle u).ctxWord true c k = w ∧ (∀ a b, a < 16 → b < 16 → (a ≠ c ∨ b ≠ k) → (e.isle u).ctxWord true a b = (d.isle u).ctxWord true a b) ∧ (∀ a b, a < 16 → b < 16 → (e.isle u).ctxWord false a b = (d.isle u).ctxWord false a b) ∧ (e.isle u).cells = (d.isle u).cells ∧ (∀ m, m ≠ u → e.isle m = d.isle m) ∧ e.rd (IS_STAT_STAGED u) = 1 ∧ e.rd CF_ICP_STAT_STATE = 4 ∧ e.cfg.icp = { d.cfg.icp with phase := 7, todo := [], checks := d.cfg.icp.checks ++ [(u, d.now + 256)] } ∧ RegsBut [CF_ICP_STAT, IS_STAT u, MI_FLIPk_CTL 0, MI_FLIPk_CTL 1, MI_FLIPk_CTL 2, MI_FLIPk_CTL 3] d e ∧ e.mem = d.mem)) ∧
  (∀ (u : Nat) (d : Dev),
    d.cfg.icp.phase = 6 →
    d.cfg.icp.todo = [u] →
    d.now < d.cfg.icp.at_ + unitCost (unitItems (imgItems (d.bytesAt d.icpStg (d.rd CF_ICP_DONE_BYTES))) u) →
    d.icpStg + d.rd CF_ICP_DONE_BYTES ≤ 0x800000 →
    d.integ.ecc = [] →
    On .icpUnitStaged d (fun e =>
      e = d)) ∧
  (∀ (n : Fin 96) (a : Nat) (d : Dev),
    d.cfg.icp.checks = [(n.val, a)] →
    a ≤ d.now →
    d.integ.ecc = [] →
    d.integ.crc = [] →
    d.stagingBad n = none →
    On (.icpSetCheckDone n) d (fun e =>
      e.cfg.acks = d.cfg.acks ++ [(d.rd CF_ICP_CTL_SLOT, d.now + 3)] ∧ e.cfg.icp = { d.cfg.icp with checks := [] } ∧ e = { d with cfg := { d.cfg with icp := e.cfg.icp, acks := e.cfg.acks } })) ∧
  (∀ (n : Fin 96) (a : Nat) (x : ImgErr) (d : Dev),
    d.cfg.icp.checks = [(n.val, a)] →
    a ≤ d.now →
    d.integ.ecc = [] →
    d.integ.crc = [] →
    d.stagingBad n = some x →
    x.code = 8 →
    d.cfg.icp.phase = 7 →
    d.cfg.staged = [] →
    d.cfg.ops = [] →
    d.rd CF_ICP_CTL_SLOT = 0 →
    On (.icpSetCheckDone n) d (fun e =>
      e.rd (AU_MCs_STAT_STATE 0) = 4 ∧ e.rd (AU_MCs_STAT_CAUSE 0) = 3 ∧ e.rd CF_ICP_STAT_STATE = 6 ∧ e.rd CF_ICP_STAT_CODE = 8 ∧ e.cfg.icp = Icp.reset ∧ e.cfg.acks = d.cfg.acks))

/-- The header of a full image read from a source in the Sound is checked: a bad identity ends a run-time load with DEVID; a good one puts the isles of its mask into the start queue and streaming begins. A stream that ends early or with a source error ends the load with TRUNCATED; a whole one whose tag and static checks are right is in staging, the running image ends and its sections begin to apply: of each isle of the mask once it is up. Release happens in one ACLK: the mask's isles are ungated with APL 0, the device is CONFIGURED, outputs leave the state before any image. -/
def Obligations.LoadingAFullImage : Prop :=
  (∀ (nv : Nv) (d : Dev),
    nv.agree = true →
    d.cfg.load.phase = 1 →
    d.cfg.load.field = 3 →
    128 ≤ d.cfg.load.len →
    d.cfg.load.src + 128 ≤ 0x800000 →
    identityOk (d.bytesAt d.cfg.load.src 128) = false →
    d.cfg.ops = [] →
    d.cfg.load.host = false →
    d.cfg.load.data = [] →
    d.integ.ecc = [] →
    OnNv .imageHeaderIn nv d (fun e =>
      e.cfg.load = CfgLoad.reset ∧ e.regs = d.regs ∧ e.mem = d.mem ∧ e.power = d.power)) ∧
  (∀ (n : Nat) (nv : Nv) (d : Dev),
    nv.agree = true →
    d.cfg.load.phase = 1 →
    d.cfg.load.field = 3 →
    128 ≤ d.cfg.load.len →
    d.cfg.load.src + 128 + 16 * min 64 (imgSects (d.bytesAt d.cfg.load.src 128)) ≤ 0x800000 →
    identityOk (d.bytesAt d.cfg.load.src 128) = true →
    imgMask (d.bytesAt d.cfg.load.src 128) = [] →
    headerCheck nv false true (d.bytesAt d.cfg.load.src (128 + 16 * min 64 (imgSects (d.bytesAt d.cfg.load.src 128)))) = 0 →
    imgLen (d.bytesAt d.cfg.load.src (128 + 16 * min 64 (imgSects (d.bytesAt d.cfg.load.src 128)))) = n →
    n ≤ d.cfg.load.len →
    128 + 16 * imgSects (d.bytesAt d.cfg.load.src 128) ≤ d.cfg.load.len →
    d.claimed 0x13 d.cfg.load.stg n = true →
    d.cfg.load.host = false →
    d.cfg.load.data = [] →
    d.integ.ecc = [] →
    OnNv .imageHeaderIn nv d (fun e =>
      e.cfg.load = { d.cfg.load with phase := 2, mask := [], len := n, at_ := d.now } ∧ e.regs = d.regs ∧ e = { d with cfg := { d.cfg with load := e.cfg.load } })) ∧
  (∀ (nv : Nv) (d : Dev),
    nv.agree = true →
    d.cfg.load.phase = 2 →
    d.cfg.load.field = 3 →
    d.cfg.ops = [] →
    OnNv (.imageStreamEnd false) nv d (fun e =>
      e.cfg.load = CfgLoad.reset ∧ e.regs = d.regs ∧ e.mem = d.mem ∧ e.isles = d.isles)) ∧
  (∀ (n : Nat) (nv : Nv) (w d : Dev),
    nv.agree = true →
    d.cfg.load.phase = 2 →
    d.cfg.load.field = 3 →
    d.cfg.load.len = n →
    0 < n →
    d.cfg.load.src + n ≤ 0x800000 →
    d.cfg.load.stg + n ≤ 0x800000 →
    tagOk nv (d.bytesAt d.cfg.load.src n) = true →
    d.checkFull d.cfg.load.stg (d.bytesAt d.cfg.load.src n) = none →
    d.rd (MI_FLIPk_CTL_ARM 0) = 0 →
    d.integ.flipUsed = [] →
    d.cfg.load.host = false →
    d.cfg.load.data = [] →
    d.integ.ecc = [] →
    (d.memWriteAll d.cfg.load.stg (d.bytesAt d.cfg.load.src n)).2 = w →
    OnNv (.imageStreamEnd true) nv d (fun e =>
      (∀ k, k < n → w.byte (d.cfg.load.stg + k) = d.byte (d.cfg.load.src + k)) ∧ (∀ a, (a < d.cfg.load.stg ∨ d.cfg.load.stg + n ≤ a) → w.byte a = d.byte a) ∧ w = { d with mem := w.mem, integ := w.integ } ∧
      e = ((w.applyBegin (d.bytesAt d.cfg.load.src n)).setLoad { d.cfg.load with phase := 3, todo := d.cfg.load.mask, at_ := d.now + n / 16 }).tryApply)) ∧
  (∀ d : Dev,
    d.cfg.load.phase = 4 →
    d.cfg.load.at_ ≤ d.now →
    d.cfg.load.field = 3 →
    d.cfg.ops = [] →
    On .imageRelease d (fun e =>
      (∀ n : Fin 96, d.cfg.load.mask.contains n.val = true → (e.isle n).gateLoad = false ∧ e.rd (IS_STAT_APL n) = 0 ∧ (e.isle n).cells = (d.isle n).cells) ∧ e.rd CF_STAT_STATE = 2 ∧ e.rd PW_STAT_NOIMG = 0 ∧ e.hb.loading = false ∧ e.cfg.used = d.cfg.load.mask ∧ e.cfg.load = CfgLoad.reset ∧ (∀ p : Fin 48, e.safeCause p = false → (e.pair p).safe = false ∧ (e.pair p).hs = false ∧ (e.pair p).ls = false ∧ (e.pair p).hiZ = false) ∧ e.mem = d.mem ∧ e.cfg.claims = d.cfg.claims)) ∧
  (∀ d : Dev,
    d.cfg.load.phase = 4 →
    d.now < d.cfg.load.at_ →
    On .imageRelease d (fun e =>
      e = d))

/-- A core that runs and whose fetch succeeds writes the result of Table 09-6 to rd (a result for g0 is dropped), takes its pc past the instruction,
and changes nothing else: additions and subtractions of 64 and 32 bits, logic, shifts by the low six bits, signed and unsigned compares, the low
and high halves of products, quotients toward zero and remainders, the immediate forms, MOVHI and MOVUP. The quotient of the most negative number
by -1 is not stated here. A division by 0 traps with DIVZ. A core that does not run executes nothing, and a command whose instruction is not the
word at the pc does nothing (the model's choice, log entry 190); a reserved word traps with ILLEGAL. A fetch that fails traps instead. -/
def Obligations.CoreArithmetic : Prop :=
  (∀ (c : Fin 4) (rd ra rb : Fin 32) (d : Dev),
    d.ready c (fmtR 0x010 rd ra rb) = true →
    On (.coreAdd c rd ra rb) d (fun e =>
      CoreDid c (d.afterFetch c) (((d.afterFetch c).core c).rset rd (d.creg c ra + d.creg c rb)) e)) ∧
  (∀ (c : Fin 4) (rd ra rb : Fin 32) (d : Dev),
    d.ready c (fmtR 0x011 rd ra rb) = true →
    On (.coreSub c rd ra rb) d (fun e =>
      CoreDid c (d.afterFetch c) (((d.afterFetch c).core c).rset rd (d.creg c ra - d.creg c rb)) e)) ∧
  (∀ (c : Fin 4) (rd ra rb : Fin 32) (d : Dev),
    d.ready c (fmtR 0x012 rd ra rb) = true →
    On (.add32 c rd ra rb) d (fun e =>
      CoreDid c (d.afterFetch c) (((d.afterFetch c).core c).rset rd ((BitVec.ofNat 32 (d.creg c ra + d.creg c rb).toNat).signExtend 64)) e)) ∧
  (∀ (c : Fin 4) (rd ra rb : Fin 32) (d : Dev),
    d.ready c (fmtR 0x013 rd ra rb) = true →
    On (.sub32 c rd ra rb) d (fun e =>
      CoreDid c (d.afterFetch c) (((d.afterFetch c).core c).rset rd ((BitVec.ofNat 32 (d.creg c ra - d.creg c rb).toNat).signExtend 64)) e)) ∧
  (∀ (c : Fin 4) (rd ra rb : Fin 32) (d : Dev),
    d.ready c (fmtR 0x020 rd ra rb) = true →
    On (.coreAnd c rd ra rb) d (fun e =>
      CoreDid c (d.afterFetch c) (((d.afterFetch c).core c).rset rd (d.creg c ra &&& d.creg c rb)) e)) ∧
  (∀ (c : Fin 4) (rd ra rb : Fin 32) (d : Dev),
    d.ready c (fmtR 0x021 rd ra rb) = true →
    On (.coreOr c rd ra rb) d (fun e =>
      CoreDid c (d.afterFetch c) (((d.afterFetch c).core c).rset rd (d.creg c ra ||| d.creg c rb)) e)) ∧
  (∀ (c : Fin 4) (rd ra rb : Fin 32) (d : Dev),
    d.ready c (fmtR 0x022 rd ra rb) = true →
    On (.coreXor c rd ra rb) d (fun e =>
      CoreDid c (d.afterFetch c) (((d.afterFetch c).core c).rset rd (d.creg c ra ^^^ d.creg c rb)) e)) ∧
  (∀ (c : Fin 4) (rd ra rb : Fin 32) (d : Dev),
    d.ready c (fmtR 0x030 rd ra rb) = true →
    On (.coreShl c rd ra rb) d (fun e =>
      CoreDid c (d.afterFetch c) (((d.afterFetch c).core c).rset rd (d.creg c ra <<< ((d.creg c rb).toNat % 64))) e)) ∧
  (∀ (c : Fin 4) (rd ra rb : Fin 32) (d : Dev),
    d.ready c (fmtR 0x031 rd ra rb) = true →
    On (.coreShr c rd ra rb) d (fun e =>
      CoreDid c (d.afterFetch c) (((d.afterFetch c).core c).rset rd (d.creg c ra >>> ((d.creg c rb).toNat % 64))) e)) ∧
  (∀ (c : Fin 4) (rd ra rb : Fin 32) (d : Dev),
    d.ready c (fmtR 0x032 rd ra rb) = true →
    On (.coreShra c rd ra rb) d (fun e =>
      CoreDid c (d.afterFetch c) (((d.afterFetch c).core c).rset rd (BitVec.ofInt 64 ((d.creg c ra).toInt / 2 ^ ((d.creg c rb).toNat % 64)))) e)) ∧
  (∀ (c : Fin 4) (rd ra rb : Fin 32) (d : Dev),
    d.ready c (fmtR 0x040 rd ra rb) = true →
    On (.clts c rd ra rb) d (fun e =>
      CoreDid c (d.afterFetch c) (((d.afterFetch c).core c).rset rd (if (d.creg c ra).toInt < (d.creg c rb).toInt then 1 else 0)) e)) ∧
  (∀ (c : Fin 4) (rd ra rb : Fin 32) (d : Dev),
    d.ready c (fmtR 0x041 rd ra rb) = true →
    On (.cltu c rd ra rb) d (fun e =>
      CoreDid c (d.afterFetch c) (((d.afterFetch c).core c).rset rd (if (d.creg c ra).toNat < (d.creg c rb).toNat then 1 else 0)) e)) ∧
  (∀ (c : Fin 4) (rd ra rb : Fin 32) (d : Dev),
    d.ready c (fmtR 0x050 rd ra rb) = true →
    On (.mul c rd ra rb) d (fun e =>
      CoreDid c (d.afterFetch c) (((d.afterFetch c).core c).rset rd (BitVec.ofNat 64 ((d.creg c ra).toNat * (d.creg c rb).toNat))) e)) ∧
  (∀ (c : Fin 4) (rd ra rb : Fin 32) (d : Dev),
    d.ready c (fmtR 0x051 rd ra rb) = true →
    On (.mhis c rd ra rb) d (fun e =>
      CoreDid c (d.afterFetch c) (((d.afterFetch c).core c).rset rd (BitVec.ofInt 64 ((d.creg c ra).toInt * (d.creg c rb).toInt / 2 ^ 64))) e)) ∧
  (∀ (c : Fin 4) (rd ra rb : Fin 32) (d : Dev),
    d.ready c (fmtR 0x052 rd ra rb) = true →
    On (.mhiu c rd ra rb) d (fun e =>
      CoreDid c (d.afterFetch c) (((d.afterFetch c).core c).rset rd (BitVec.ofNat 64 ((d.creg c ra).toNat * (d.creg c rb).toNat / 2 ^ 64))) e)) ∧
  (∀ (c : Fin 4) (rd ra : Fin 32) (imm : BitVec 14) (d : Dev),
    d.ready c (fmtI 0x01 rd ra imm) = true →
    On (.addi c rd ra imm) d (fun e =>
      CoreDid c (d.afterFetch c) (((d.afterFetch c).core c).rset rd (d.creg c ra + imm.signExtend 64)) e)) ∧
  (∀ (c : Fin 4) (rd ra : Fin 32) (imm : BitVec 14) (d : Dev),
    d.ready c (fmtI 0x02 rd ra imm) = true →
    On (.andi c rd ra imm) d (fun e =>
      CoreDid c (d.afterFetch c) (((d.afterFetch c).core c).rset rd (d.creg c ra &&& imm.setWidth 64)) e)) ∧
  (∀ (c : Fin 4) (rd ra : Fin 32) (imm : BitVec 14) (d : Dev),
    d.ready c (fmtI 0x03 rd ra imm) = true →
    On (.ori c rd ra imm) d (fun e =>
      CoreDid c (d.afterFetch c) (((d.afterFetch c).core c).rset rd (d.creg c ra ||| imm.setWidth 64)) e)) ∧
  (∀ (c : Fin 4) (rd ra : Fin 32) (imm : BitVec 14) (d : Dev),
    d.ready c (fmtI 0x04 rd ra imm) = true →
    On (.xori c rd ra imm) d (fun e =>
      CoreDid c (d.afterFetch c) (((d.afterFetch c).core c).rset rd (d.creg c ra ^^^ imm.setWidth 64)) e)) ∧
  (∀ (c : Fin 4) (rd ra : Fin 32) (imm : BitVec 14) (d : Dev),
    d.ready c (fmtI 0x05 rd ra imm) = true →
    On (.cltsi c rd ra imm) d (fun e =>
      CoreDid c (d.afterFetch c) (((d.afterFetch c).core c).rset rd (if (d.creg c ra).toInt < (imm.signExtend 64).toInt then 1 else 0)) e)) ∧
  (∀ (c : Fin 4) (rd ra : Fin 32) (imm : BitVec 14) (d : Dev),
    d.ready c (fmtI 0x06 rd ra imm) = true →
    On (.cltui c rd ra imm) d (fun e =>
      CoreDid c (d.afterFetch c) (((d.afterFetch c).core c).rset rd (if (d.creg c ra).toNat < (imm.signExtend 64).toNat then 1 else 0)) e)) ∧
  (∀ (c : Fin 4) (rd ra : Fin 32) (imm : BitVec 14) (d : Dev),
    d.ready c (fmtI 0x07 rd ra imm) = true →
    On (.shli c rd ra imm) d (fun e =>
      CoreDid c (d.afterFetch c) (((d.afterFetch c).core c).rset rd (d.creg c ra <<< (imm.toNat % 64))) e)) ∧
  (∀ (c : Fin 4) (rd ra : Fin 32) (imm : BitVec 14) (d : Dev),
    d.ready c (fmtI 0x08 rd ra imm) = true →
    On (.shri c rd ra imm) d (fun e =>
      CoreDid c (d.afterFetch c) (((d.afterFetch c).core c).rset rd (d.creg c ra >>> (imm.toNat % 64))) e)) ∧
  (∀ (c : Fin 4) (rd ra : Fin 32) (imm : BitVec 14) (d : Dev),
    d.ready c (fmtI 0x09 rd ra imm) = true →
    On (.shrai c rd ra imm) d (fun e =>
      CoreDid c (d.afterFetch c) (((d.afterFetch c).core c).rset rd (BitVec.ofInt 64 ((d.creg c ra).toInt / 2 ^ (imm.toNat % 64)))) e)) ∧
  (∀ (c : Fin 4) (rd ra rb : Fin 32) (d : Dev),
    d.ready c (fmtR 0x060 rd ra rb) = true →
    (d.afterFetch c).creg c rb ≠ 0 →
    ¬ (((d.afterFetch c).creg c ra).toInt = -2 ^ 63 ∧ ((d.afterFetch c).creg c rb).toInt = -1) →
    On (.quos c rd ra rb) d (fun e =>
      CoreDid c (d.afterFetch c) (((d.afterFetch c).core c).rset rd (BitVec.ofInt 64 (Int.tdiv ((d.afterFetch c).creg c ra).toInt ((d.afterFetch c).creg c rb).toInt))) e)) ∧
  (∀ (c : Fin 4) (rd ra rb : Fin 32) (d : Dev),
    d.ready c (fmtR 0x061 rd ra rb) = true →
    (d.afterFetch c).creg c rb ≠ 0 →
    On (.quou c rd ra rb) d (fun e =>
      CoreDid c (d.afterFetch c) (((d.afterFetch c).core c).rset rd (BitVec.ofNat 64 (((d.afterFetch c).creg c ra).toNat / ((d.afterFetch c).creg c rb).toNat))) e)) ∧
  (∀ (c : Fin 4) (rd ra rb : Fin 32) (d : Dev),
    d.ready c (fmtR 0x062 rd ra rb) = true →
    (d.afterFetch c).creg c rb ≠ 0 →
    On (.rmds c rd ra rb) d (fun e =>
      CoreDid c (d.afterFetch c) (((d.afterFetch c).core c).rset rd (BitVec.ofInt 64 (Int.tmod ((d.afterFetch c).creg c ra).toInt ((d.afterFetch c).creg c rb).toInt))) e)) ∧
  (∀ (c : Fin 4) (rd ra rb : Fin 32) (d : Dev),
    d.ready c (fmtR 0x063 rd ra rb) = true →
    (d.afterFetch c).creg c rb ≠ 0 →
    On (.rmdu c rd ra rb) d (fun e =>
      CoreDid c (d.afterFetch c) (((d.afterFetch c).core c).rset rd (BitVec.ofNat 64 (((d.afterFetch c).creg c ra).toNat % ((d.afterFetch c).creg c rb).toNat))) e)) ∧
  (∀ (c : Fin 4) (rd ra rb : Fin 32) (d : Dev),
    d.ready c (fmtR 0x061 rd ra rb) = true →
    (d.afterFetch c).creg c rb = 0 →
    (d.core c).st.tw = false →
    (d.core c).st.df = false →
    On (.quou c rd ra rb) d (fun e =>
      Trapped c (d.afterFetch c) 0x0B 0 0 (d.core c).pc none e)) ∧
  (∀ (c : Fin 4) (rd : Fin 32) (imm : BitVec 19) (d : Dev),
    d.ready c (fmtU 0x34 rd imm) = true →
    On (.movhi c rd imm) d (fun e =>
      CoreDid c (d.afterFetch c) (((d.afterFetch c).core c).rset rd (imm.signExtend 64 <<< 13)) e)) ∧
  (∀ (c : Fin 4) (rd : Fin 32) (imm : BitVec 19) (d : Dev),
    d.ready c (fmtU 0x35 rd imm) = true →
    On (.movup c rd imm) d (fun e =>
      CoreDid c (d.afterFetch c) (((d.afterFetch c).core c).rset rd (BitVec.ofNat 64 (((d.afterFetch c).creg c rd).toNat % 2 ^ 32 + imm.toNat * 2 ^ 32))) e)) ∧
  (∀ (c : Fin 4) (rd ra rb : Fin 32) (d : Dev),
    d.coreLive c = false ∨ d.switchDue c = true →
    On (.coreAdd c rd ra rb) d (fun e =>
      e = d)) ∧
  (∀ (c : Fin 4) (rd ra rb : Fin 32) (w : BitVec 32) (d : Dev),
    d.ready c w = true →
    w ≠ fmtR 0x010 rd ra rb →
    On (.coreAdd c rd ra rb) d (fun e =>
      e = d)) ∧
  (∀ (c : Fin 4) (rd ra rb : Fin 32) (v : BitVec 32) (d : Dev),
    d.coreFree c = true →
    (d.atFetch c).1.toOption = some v →
    coreWord v = none →
    (d.core c).st.tw = false →
    (d.core c).st.df = false →
    On (.coreAdd c rd ra rb) d (fun e =>
      Trapped c (d.atFetch c).2 1 0 0 (d.core c).pc none e)) ∧
  (∀ (c : Fin 4) (rd ra rb : Fin 32) (code acc va : Nat) (d : Dev),
    d.coreFree c = true →
    (match (d.atFetch c).1 with | .error x => decide (x = { code := code, acc := acc, lvl := 0, kind := 0, info := 0, fva := some va }) | .ok _ => false) = true →
    (d.core c).st.tw = false →
    (d.core c).st.df = false →
    On (.coreAdd c rd ra rb) d (fun e =>
      Trapped c (d.atFetch c).2 code acc 0 (d.core c).pc (some va) e))


/-- A load that meets no trap writes the loaded bytes, zero- or sign-extended as its name says, to rd, and a store that meets none leaves the store's
effect, the pc past the instruction. What a load of n bytes reads and a store of n bytes writes, in an untranslated, uncached core with an address
in the Sound aligned to n, is the n bytes of memory at the address, lowest first, and no other byte changes. An unaligned access traps with ALIGN,
one beyond 2^40 with ADDR, before anything is written. SWAP and XADD exchange and add eight bytes and return the old value. PHYLD and PHYST are
for privileged code. Each command of LDMASK or STMASK moves one masked register from or to its doubleword, lowest register first at the lowest
address, notes it in MDONE, and the last one takes the pc past the instruction (one transfer a command: log entry 192). -/
def Obligations.CoreLoadsAndStores : Prop :=
  (∀ (c : Fin 4) (rd ra : Fin 32) (imm : BitVec 14) (v : Nat) (d : Dev),
    d.ready c (fmtI 0x10 rd ra imm) = true →
    ((d.afterFetch c).coreLoad c ((d.afterFetch c).creg c ra + imm.signExtend 64).toNat 8).1.toOption = some v →
    ((d.afterFetch c).coreLoad c ((d.afterFetch c).creg c ra + imm.signExtend 64).toNat 8).2.net.stall = false →
    On (.l64 c rd ra imm) d (fun e =>
      CoreDid c ((d.afterFetch c).coreLoad c ((d.afterFetch c).creg c ra + imm.signExtend 64).toNat 8).2 ((((d.afterFetch c).coreLoad c ((d.afterFetch c).creg c ra + imm.signExtend 64).toNat 8).2.core c).rset rd (BitVec.ofNat 64 v)) e)) ∧
  (∀ (c : Fin 4) (rd ra : Fin 32) (imm : BitVec 14) (v : Nat) (d : Dev),
    d.ready c (fmtI 0x12 rd ra imm) = true →
    ((d.afterFetch c).coreLoad c ((d.afterFetch c).creg c ra + imm.signExtend 64).toNat 4).1.toOption = some v →
    ((d.afterFetch c).coreLoad c ((d.afterFetch c).creg c ra + imm.signExtend 64).toNat 4).2.net.stall = false →
    On (.l32u c rd ra imm) d (fun e =>
      CoreDid c ((d.afterFetch c).coreLoad c ((d.afterFetch c).creg c ra + imm.signExtend 64).toNat 4).2 ((((d.afterFetch c).coreLoad c ((d.afterFetch c).creg c ra + imm.signExtend 64).toNat 4).2.core c).rset rd (BitVec.ofNat 64 v)) e)) ∧
  (∀ (c : Fin 4) (rd ra : Fin 32) (imm : BitVec 14) (v : Nat) (d : Dev),
    d.ready c (fmtI 0x11 rd ra imm) = true →
    ((d.afterFetch c).coreLoad c ((d.afterFetch c).creg c ra + imm.signExtend 64).toNat 4).1.toOption = some v →
    ((d.afterFetch c).coreLoad c ((d.afterFetch c).creg c ra + imm.signExtend 64).toNat 4).2.net.stall = false →
    On (.l32s c rd ra imm) d (fun e =>
      CoreDid c ((d.afterFetch c).coreLoad c ((d.afterFetch c).creg c ra + imm.signExtend 64).toNat 4).2 ((((d.afterFetch c).coreLoad c ((d.afterFetch c).creg c ra + imm.signExtend 64).toNat 4).2.core c).rset rd ((BitVec.ofNat 32 v).signExtend 64)) e)) ∧
  (∀ (c : Fin 4) (rd ra : Fin 32) (imm : BitVec 14) (v : Nat) (d : Dev),
    d.ready c (fmtI 0x14 rd ra imm) = true →
    ((d.afterFetch c).coreLoad c ((d.afterFetch c).creg c ra + imm.signExtend 64).toNat 2).1.toOption = some v →
    ((d.afterFetch c).coreLoad c ((d.afterFetch c).creg c ra + imm.signExtend 64).toNat 2).2.net.stall = false →
    On (.l16u c rd ra imm) d (fun e =>
      CoreDid c ((d.afterFetch c).coreLoad c ((d.afterFetch c).creg c ra + imm.signExtend 64).toNat 2).2 ((((d.afterFetch c).coreLoad c ((d.afterFetch c).creg c ra + imm.signExtend 64).toNat 2).2.core c).rset rd (BitVec.ofNat 64 v)) e)) ∧
  (∀ (c : Fin 4) (rd ra : Fin 32) (imm : BitVec 14) (v : Nat) (d : Dev),
    d.ready c (fmtI 0x13 rd ra imm) = true →
    ((d.afterFetch c).coreLoad c ((d.afterFetch c).creg c ra + imm.signExtend 64).toNat 2).1.toOption = some v →
    ((d.afterFetch c).coreLoad c ((d.afterFetch c).creg c ra + imm.signExtend 64).toNat 2).2.net.stall = false →
    On (.l16s c rd ra imm) d (fun e =>
      CoreDid c ((d.afterFetch c).coreLoad c ((d.afterFetch c).creg c ra + imm.signExtend 64).toNat 2).2 ((((d.afterFetch c).coreLoad c ((d.afterFetch c).creg c ra + imm.signExtend 64).toNat 2).2.core c).rset rd ((BitVec.ofNat 16 v).signExtend 64)) e)) ∧
  (∀ (c : Fin 4) (rd ra : Fin 32) (imm : BitVec 14) (v : Nat) (d : Dev),
    d.ready c (fmtI 0x16 rd ra imm) = true →
    ((d.afterFetch c).coreLoad c ((d.afterFetch c).creg c ra + imm.signExtend 64).toNat 1).1.toOption = some v →
    ((d.afterFetch c).coreLoad c ((d.afterFetch c).creg c ra + imm.signExtend 64).toNat 1).2.net.stall = false →
    On (.l8u c rd ra imm) d (fun e =>
      CoreDid c ((d.afterFetch c).coreLoad c ((d.afterFetch c).creg c ra + imm.signExtend 64).toNat 1).2 ((((d.afterFetch c).coreLoad c ((d.afterFetch c).creg c ra + imm.signExtend 64).toNat 1).2.core c).rset rd (BitVec.ofNat 64 v)) e)) ∧
  (∀ (c : Fin 4) (rd ra : Fin 32) (imm : BitVec 14) (v : Nat) (d : Dev),
    d.ready c (fmtI 0x15 rd ra imm) = true →
    ((d.afterFetch c).coreLoad c ((d.afterFetch c).creg c ra + imm.signExtend 64).toNat 1).1.toOption = some v →
    ((d.afterFetch c).coreLoad c ((d.afterFetch c).creg c ra + imm.signExtend 64).toNat 1).2.net.stall = false →
    On (.l8s c rd ra imm) d (fun e =>
      CoreDid c ((d.afterFetch c).coreLoad c ((d.afterFetch c).creg c ra + imm.signExtend 64).toNat 1).2 ((((d.afterFetch c).coreLoad c ((d.afterFetch c).creg c ra + imm.signExtend 64).toNat 1).2.core c).rset rd ((BitVec.ofNat 8 v).signExtend 64)) e)) ∧
  (∀ (c : Fin 4) (rd ra : Fin 32) (imm : BitVec 14) (d : Dev),
    d.ready c (fmtI 0x18 rd ra imm) = true →
    ((d.afterFetch c).coreStore c ((d.afterFetch c).creg c ra + imm.signExtend 64).toNat 8 (((d.afterFetch c).creg c rd).toNat % 2 ^ 64)).1 = none →
    ((d.afterFetch c).coreStore c ((d.afterFetch c).creg c ra + imm.signExtend 64).toNat 8 (((d.afterFetch c).creg c rd).toNat % 2 ^ 64)).2.net.stall = false →
    On (.s64 c rd ra imm) d (fun e =>
      e = ((d.afterFetch c).coreStore c ((d.afterFetch c).creg c ra + imm.signExtend 64).toNat 8 (((d.afterFetch c).creg c rd).toNat % 2 ^ 64)).2)) ∧
  (∀ (c : Fin 4) (rd ra : Fin 32) (imm : BitVec 14) (d : Dev),
    d.ready c (fmtI 0x19 rd ra imm) = true →
    ((d.afterFetch c).coreStore c ((d.afterFetch c).creg c ra + imm.signExtend 64).toNat 4 (((d.afterFetch c).creg c rd).toNat % 2 ^ 32)).1 = none →
    ((d.afterFetch c).coreStore c ((d.afterFetch c).creg c ra + imm.signExtend 64).toNat 4 (((d.afterFetch c).creg c rd).toNat % 2 ^ 32)).2.net.stall = false →
    On (.s32 c rd ra imm) d (fun e =>
      e = ((d.afterFetch c).coreStore c ((d.afterFetch c).creg c ra + imm.signExtend 64).toNat 4 (((d.afterFetch c).creg c rd).toNat % 2 ^ 32)).2)) ∧
  (∀ (c : Fin 4) (rd ra : Fin 32) (imm : BitVec 14) (d : Dev),
    d.ready c (fmtI 0x1A rd ra imm) = true →
    ((d.afterFetch c).coreStore c ((d.afterFetch c).creg c ra + imm.signExtend 64).toNat 2 (((d.afterFetch c).creg c rd).toNat % 2 ^ 16)).1 = none →
    ((d.afterFetch c).coreStore c ((d.afterFetch c).creg c ra + imm.signExtend 64).toNat 2 (((d.afterFetch c).creg c rd).toNat % 2 ^ 16)).2.net.stall = false →
    On (.s16 c rd ra imm) d (fun e =>
      e = ((d.afterFetch c).coreStore c ((d.afterFetch c).creg c ra + imm.signExtend 64).toNat 2 (((d.afterFetch c).creg c rd).toNat % 2 ^ 16)).2)) ∧
  (∀ (c : Fin 4) (rd ra : Fin 32) (imm : BitVec 14) (d : Dev),
    d.ready c (fmtI 0x1B rd ra imm) = true →
    ((d.afterFetch c).coreStore c ((d.afterFetch c).creg c ra + imm.signExtend 64).toNat 1 (((d.afterFetch c).creg c rd).toNat % 2 ^ 8)).1 = none →
    ((d.afterFetch c).coreStore c ((d.afterFetch c).creg c ra + imm.signExtend 64).toNat 1 (((d.afterFetch c).creg c rd).toNat % 2 ^ 8)).2.net.stall = false →
    On (.s8 c rd ra imm) d (fun e =>
      e = ((d.afterFetch c).coreStore c ((d.afterFetch c).creg c ra + imm.signExtend 64).toNat 1 (((d.afterFetch c).creg c rd).toNat % 2 ^ 8)).2)) ∧
  (∀ (c : Fin 4) (va n : Nat) (d : Dev), d.plainCore c = true → n = 1 ∨ n = 2 ∨ n = 4 ∨ n = 8 → va % n = 0 → va + n ≤ 0x800000 →
    (d.coreLoad c va n).1.toOption = some (bytesNat (d.bytesAt va n)) ∧
      RegsBut (niRegs (24 + c)) d (d.coreLoad c va n).2 ∧
      (d.coreLoad c va n).2 = { d with regs := (d.coreLoad c va n).2.regs, flags := (d.coreLoad c va n).2.flags }) ∧
  (∀ (c : Fin 4) (va n v : Nat) (d : Dev), d.plainCore c = true → n = 1 ∨ n = 2 ∨ n = 4 ∨ n = 8 → va % n = 0 → va + n ≤ 0x800000 → v < 2 ^ (8 * n) →
    (d.coreStore c va n v).1 = none ∧ bytesNat ((d.coreStore c va n v).2.bytesAt va n) = v ∧ (∀ a, (a < va ∨ va + n ≤ a) → (d.coreStore c va n v).2.byte a = d.byte a) ∧ (d.coreStore c va n v).2.cores = d.cores ∧ RegsBut (niRegs (24 + c)) d (d.coreStore c va n v).2) ∧
  (∀ (c : Fin 4) (rd ra : Fin 32) (imm : BitVec 14) (d : Dev),
    d.ready c (fmtI 0x10 rd ra imm) = true →
    (d.core c).st.tw = false →
    (d.core c).st.df = false →
    ((d.afterFetch c).creg c ra + imm.signExtend 64).toNat < 2 ^ 40 →
    ((d.afterFetch c).creg c ra + imm.signExtend 64).toNat % 8 ≠ 0 →
    On (.l64 c rd ra imm) d (fun e =>
      Trapped c (d.afterFetch c) 9 1 0 (d.core c).pc (some ((d.afterFetch c).creg c ra + imm.signExtend 64).toNat) e)) ∧
  (∀ (c : Fin 4) (rd ra : Fin 32) (imm : BitVec 14) (d : Dev),
    d.ready c (fmtI 0x19 rd ra imm) = true →
    (d.core c).st.tw = false →
    (d.core c).st.df = false →
    ((d.afterFetch c).creg c ra + imm.signExtend 64).toNat < 2 ^ 40 →
    ((d.afterFetch c).creg c ra + imm.signExtend 64).toNat % 4 ≠ 0 →
    On (.s32 c rd ra imm) d (fun e =>
      Trapped c (d.afterFetch c) 9 2 0 (d.core c).pc (some ((d.afterFetch c).creg c ra + imm.signExtend 64).toNat) e)) ∧
  (∀ (c : Fin 4) (rd ra : Fin 32) (imm : BitVec 14) (d : Dev),
    d.ready c (fmtI 0x16 rd ra imm) = true →
    (d.core c).st.tw = false →
    (d.core c).st.df = false →
    2 ^ 40 ≤ ((d.afterFetch c).creg c ra + imm.signExtend 64).toNat →
    On (.l8u c rd ra imm) d (fun e =>
      Trapped c (d.afterFetch c) 0x0A 1 0 (d.core c).pc (some (((d.afterFetch c).creg c ra + imm.signExtend 64).toNat % 2 ^ 40)) e)) ∧
  (∀ (c : Fin 4) (rd ra : Fin 32) (imm : BitVec 14) (d : Dev),
    d.ready c (fmtI 0x30 rd ra imm) = true →
    (d.afterFetch c).plainCore c = true →
    ((d.afterFetch c).creg c ra + imm.signExtend 64).toNat + 8 ≤ 0x800000 →
    ((d.afterFetch c).creg c ra + imm.signExtend 64).toNat % 8 = 0 →
    On (.swap c rd ra imm) d (fun e =>
      bytesNat (e.bytesAt ((d.afterFetch c).creg c ra + imm.signExtend 64).toNat 8) = ((d.afterFetch c).creg c rd).toNat ∧ e.core c = ((d.afterFetch c).core c).rset rd (BitVec.ofNat 64 (bytesNat ((d.afterFetch c).bytesAt ((d.afterFetch c).creg c ra + imm.signExtend 64).toNat 8))) ∧ (∀ a, (a < ((d.afterFetch c).creg c ra + imm.signExtend 64).toNat ∨ ((d.afterFetch c).creg c ra + imm.signExtend 64).toNat + 8 ≤ a) → e.byte a = (d.afterFetch c).byte a) ∧ (∀ k, k ≠ c.val → e.core k = d.core k) ∧ RegsBut (CP_STAT c :: niRegs (24 + c)) (d.afterFetch c) e)) ∧
  (∀ (c : Fin 4) (rd ra : Fin 32) (imm : BitVec 14) (d : Dev),
    d.ready c (fmtI 0x31 rd ra imm) = true →
    (d.afterFetch c).plainCore c = true →
    ((d.afterFetch c).creg c ra + imm.signExtend 64).toNat + 8 ≤ 0x800000 →
    ((d.afterFetch c).creg c ra + imm.signExtend 64).toNat % 8 = 0 →
    On (.xadd c rd ra imm) d (fun e =>
      bytesNat (e.bytesAt ((d.afterFetch c).creg c ra + imm.signExtend 64).toNat 8) = (bytesNat ((d.afterFetch c).bytesAt ((d.afterFetch c).creg c ra + imm.signExtend 64).toNat 8) + ((d.afterFetch c).creg c rd).toNat) % 2 ^ 64 ∧ e.core c = ((d.afterFetch c).core c).rset rd (BitVec.ofNat 64 (bytesNat ((d.afterFetch c).bytesAt ((d.afterFetch c).creg c ra + imm.signExtend 64).toNat 8))) ∧ (∀ a, (a < ((d.afterFetch c).creg c ra + imm.signExtend 64).toNat ∨ ((d.afterFetch c).creg c ra + imm.signExtend 64).toNat + 8 ≤ a) → e.byte a = (d.afterFetch c).byte a) ∧ (∀ k, k ≠ c.val → e.core k = d.core k) ∧ RegsBut (CP_STAT c :: niRegs (24 + c)) (d.afterFetch c) e)) ∧
  (∀ (c : Fin 4) (rd ra : Fin 32) (imm : BitVec 14) (d : Dev),
    d.ready c (fmtI 0x1E rd ra imm) = true →
    (d.core c).st.priv = true →
    ((d.afterFetch c).creg c ra + imm.signExtend 64).toNat + 8 ≤ 0x800000 →
    ((d.afterFetch c).creg c ra + imm.signExtend 64).toNat % 8 = 0 →
    (d.afterFetch c).integ.ecc = [] →
    (d.afterFetch c).routeWait (24 + c) = none →
    On (.phyld c rd ra imm) d (fun e =>
      e.core c = ((d.afterFetch c).core c).rset rd (BitVec.ofNat 64 (bytesNat ((d.afterFetch c).bytesAt ((d.afterFetch c).creg c ra + imm.signExtend 64).toNat 8))) ∧ (∀ k, k ≠ c.val → e.core k = d.core k) ∧ RegsBut (CP_STAT c :: niRegs (24 + c)) (d.afterFetch c) e ∧ e = { d.afterFetch c with regs := e.regs, flags := e.flags, cores := e.cores })) ∧
  (∀ (c : Fin 4) (rd ra : Fin 32) (imm : BitVec 14) (d : Dev),
    d.ready c (fmtI 0x1F rd ra imm) = true →
    (d.core c).st.priv = true →
    ((d.afterFetch c).creg c ra + imm.signExtend 64).toNat + 8 ≤ 0x800000 →
    ((d.afterFetch c).creg c ra + imm.signExtend 64).toNat % 8 = 0 →
    (d.afterFetch c).integ.ecc = [] →
    (d.afterFetch c).routeWait (24 + c) = none →
    On (.physt c rd ra imm) d (fun e =>
      bytesNat (e.bytesAt ((d.afterFetch c).creg c ra + imm.signExtend 64).toNat 8) = ((d.afterFetch c).creg c rd).toNat ∧ (∀ a, (a < ((d.afterFetch c).creg c ra + imm.signExtend 64).toNat ∨ ((d.afterFetch c).creg c ra + imm.signExtend 64).toNat + 8 ≤ a) → e.byte a = (d.afterFetch c).byte a) ∧ e.cores = (d.afterFetch c).cores)) ∧
  (∀ (c : Fin 4) (rd ra : Fin 32) (imm : BitVec 14) (d : Dev),
    d.ready c (fmtI 0x1E rd ra imm) = true →
    (d.core c).st.tw = false →
    (d.core c).st.df = false →
    (d.core c).st.priv = false →
    On (.phyld c rd ra imm) d (fun e =>
      Trapped c (d.afterFetch c) 2 0 0 (d.core c).pc none e)) ∧
  (∀ (c : Fin 4) (rd ra : Fin 32) (imm : BitVec 14) (d : Dev),
    d.ready c (fmtI 0x1F rd ra imm) = true →
    (d.core c).st.tw = false →
    (d.core c).st.df = false →
    (d.core c).st.priv = false →
    On (.physt c rd ra imm) d (fun e =>
      Trapped c (d.afterFetch c) 2 0 0 (d.core c).pc none e)) ∧
  (∀ (c : Fin 4) (rm ra : Fin 32) (imm : BitVec 14) (m : MProg) (i b : Nat) (d : Dev),
    d.ready c (fmtI 0x1C rm ra imm) = true →
    (d.afterFetch c).plainCore c = true →
    (d.afterFetch c).progOf c (BitVec.ofNat 32 ((d.afterFetch c).creg c rm).toNat) ((d.afterFetch c).creg c ra + imm.signExtend 64) = m →
    m.at i = true →
    m.addr i = b →
    m.base.toNat % 8 = 0 →
    b + 8 ≤ 0x800000 →
    On (.ldmask c rm ra imm) d (fun e =>
      (i ≠ 0 → (e.core c).rget i = BitVec.ofNat 64 (bytesNat ((d.afterFetch c).bytesAt b 8))) ∧ (∀ k, k < 32 → k ≠ i → (e.core c).rget k = d.creg c k) ∧ e.mem = (d.afterFetch c).mem ∧ (e.core c).mp = { m with done := m.done ||| BitVec.ofNat 32 (2 ^ i) } ∧ (e.core c).st = { (d.core c).st with mip := !m.last i } ∧ (e.core c).pc = (d.core c).pc + (if m.last i then 4 else 0) ∧ (∀ k, k ≠ c.val → e.core k = d.core k) ∧ RegsBut (CP_STAT c :: niRegs (24 + c)) (d.afterFetch c) e)) ∧
  (∀ (c : Fin 4) (rm ra : Fin 32) (imm : BitVec 14) (m : MProg) (i b : Nat) (d : Dev),
    d.ready c (fmtI 0x1D rm ra imm) = true →
    (d.afterFetch c).plainCore c = true →
    (d.afterFetch c).progOf c (BitVec.ofNat 32 ((d.afterFetch c).creg c rm).toNat) ((d.afterFetch c).creg c ra + imm.signExtend 64) = m →
    m.at i = true →
    m.addr i = b →
    m.base.toNat % 8 = 0 →
    b + 8 ≤ 0x800000 →
    On (.stmask c rm ra imm) d (fun e =>
      bytesNat (e.bytesAt b 8) = (d.creg c i).toNat ∧ (∀ a, (a < b ∨ b + 8 ≤ a) → e.byte a = (d.afterFetch c).byte a) ∧ (∀ k, k < 32 → (e.core c).rget k = d.creg c k) ∧ (e.core c).mp = { m with done := m.done ||| BitVec.ofNat 32 (2 ^ i) } ∧ (e.core c).st = { (d.core c).st with mip := !m.last i } ∧ (e.core c).pc = (d.core c).pc + (if m.last i then 4 else 0) ∧ (∀ k, k ≠ c.val → e.core k = d.core k) ∧ RegsBut (CP_STAT c :: niRegs (24 + c)) (d.afterFetch c) e)) ∧
  (∀ (c : Fin 4) (rm ra : Fin 32) (imm : BitVec 14) (d : Dev),
    d.ready c (fmtI 0x1C rm ra imm) = true →
    (d.core c).st.mip = false →
    BitVec.ofNat 32 ((d.afterFetch c).creg c rm).toNat = 0 →
    ((d.afterFetch c).creg c ra + imm.signExtend 64).toNat % 8 = 0 →
    On (.ldmask c rm ra imm) d (fun e =>
      (∀ k, k < 32 → (e.core c).rget k = d.creg c k) ∧ (e.core c).st = (d.core c).st ∧ (e.core c).pc = (d.core c).pc + 4 ∧ e.mem = (d.afterFetch c).mem ∧ (∀ k, k ≠ c.val → e.core k = d.core k)))


/-- A branch goes to pc + 4 OFF where its comparison holds. CALLF and CALLFR open a window and leave the link in its k7; RETF closes one and goes to
the link; in trap mode or at the limit they trap with WOVF or WUNF before anything changes. A trap saves the resume address, STATUS, CAUSE and
FVA, enters trap mode, privileged, interrupts off, and goes to TVEC + 0x40 CODE; a trap in trap mode is a double fault: its own registers, the
entry at offset 0 of the core's SRAM. TRAP resumes after itself, BKPT at itself. RETT restores STATUS and the pc; outside trap mode it is ILLEGAL.
RETD ends double-fault mode. Each command of SPILLF or FILLF moves one register of the oldest frame, and the last one changes WSP and the saved
WRES and takes the pc on (one transfer a command: log entry 192); outside trap mode both are ILLEGAL. An interrupt traps with the pending sources.
-/
def Obligations.CoreControlFlow : Prop :=
  (∀ (c : Fin 4) (ra rb : Fin 32) (off : BitVec 14) (d : Dev),
    d.ready c (fmtI 0x20 ra rb off) = true →
    On (.breq c ra rb off) d (fun e =>
      CoreDid c (d.afterFetch c) { (d.afterFetch c).core c with pc := if d.creg c ra = d.creg c rb then (d.core c).pc + 4 * off.signExtend 64 else (d.core c).pc + 4 } e)) ∧
  (∀ (c : Fin 4) (ra rb : Fin 32) (off : BitVec 14) (d : Dev),
    d.ready c (fmtI 0x21 ra rb off) = true →
    On (.brne c ra rb off) d (fun e =>
      CoreDid c (d.afterFetch c) { (d.afterFetch c).core c with pc := if d.creg c ra ≠ d.creg c rb then (d.core c).pc + 4 * off.signExtend 64 else (d.core c).pc + 4 } e)) ∧
  (∀ (c : Fin 4) (ra rb : Fin 32) (off : BitVec 14) (d : Dev),
    d.ready c (fmtI 0x22 ra rb off) = true →
    On (.brlt c ra rb off) d (fun e =>
      CoreDid c (d.afterFetch c) { (d.afterFetch c).core c with pc := if (d.creg c ra).toInt < (d.creg c rb).toInt then (d.core c).pc + 4 * off.signExtend 64 else (d.core c).pc + 4 } e)) ∧
  (∀ (c : Fin 4) (ra rb : Fin 32) (off : BitVec 14) (d : Dev),
    d.ready c (fmtI 0x23 ra rb off) = true →
    On (.brge c ra rb off) d (fun e =>
      CoreDid c (d.afterFetch c) { (d.afterFetch c).core c with pc := if (d.creg c rb).toInt ≤ (d.creg c ra).toInt then (d.core c).pc + 4 * off.signExtend 64 else (d.core c).pc + 4 } e)) ∧
  (∀ (c : Fin 4) (ra rb : Fin 32) (off : BitVec 14) (d : Dev),
    d.ready c (fmtI 0x24 ra rb off) = true →
    On (.brlo c ra rb off) d (fun e =>
      CoreDid c (d.afterFetch c) { (d.afterFetch c).core c with pc := if (d.creg c ra).toNat < (d.creg c rb).toNat then (d.core c).pc + 4 * off.signExtend 64 else (d.core c).pc + 4 } e)) ∧
  (∀ (c : Fin 4) (ra rb : Fin 32) (off : BitVec 14) (d : Dev),
    d.ready c (fmtI 0x25 ra rb off) = true →
    On (.brhs c ra rb off) d (fun e =>
      CoreDid c (d.afterFetch c) { (d.afterFetch c).core c with pc := if (d.creg c rb).toNat ≤ (d.creg c ra).toNat then (d.core c).pc + 4 * off.signExtend 64 else (d.core c).pc + 4 } e)) ∧
  (∀ (c : Fin 4) (off : BitVec 24) (d : Dev),
    d.ready c (fmtJ 0x28 off) = true →
    On (.jmp c off) d (fun e =>
      CoreDid c (d.afterFetch c) { ((d.afterFetch c).core c) with pc := (d.core c).pc + 4 * off.signExtend 64 } e)) ∧
  (∀ (c : Fin 4) (rd ra : Fin 32) (imm : BitVec 14) (d : Dev),
    d.ready c (fmtI 0x2B rd ra imm) = true →
    On (.jmpr c rd ra imm) d (fun e =>
      CoreDid c (d.afterFetch c) { ((d.afterFetch c).core c) with pc := d.creg c ra + imm.signExtend 64 } e)) ∧
  (∀ (c : Fin 4) (off : BitVec 24) (d : Dev),
    d.ready c (fmtJ 0x29 off) = true →
    (d.core c).st.tw = false →
    (d.core c).st.wres ≠ 7 →
    (d.core c).st.df = false →
    On (.callf c off) d (fun e =>
      (e.core c).st = { (d.core c).st with wcur := (d.core c).st.wcur + 1, wres := (d.core c).st.wres + 1 } ∧ (e.core c).pc = (d.core c).pc + 4 * off.signExtend 64 ∧ (e.core c).rget 15 = (d.core c).pc + 4 ∧ (∀ i, i < 8 → (e.core c).rget (16 + i) = d.creg c (24 + i) ∧ (e.core c).rget i = d.creg c i) ∧ (∀ k, k ≠ c.val → e.core k = d.core k) ∧ e.mem = (d.afterFetch c).mem)) ∧
  (∀ (c : Fin 4) (rd ra : Fin 32) (imm : BitVec 14) (d : Dev),
    d.ready c (fmtI 0x2A rd ra imm) = true →
    (d.core c).st.tw = false →
    (d.core c).st.wres ≠ 7 →
    (d.core c).st.df = false →
    On (.callfr c rd ra imm) d (fun e =>
      (e.core c).st = { (d.core c).st with wcur := (d.core c).st.wcur + 1, wres := (d.core c).st.wres + 1 } ∧ (e.core c).pc = d.creg c ra + imm.signExtend 64 ∧ (e.core c).rget 15 = (d.core c).pc + 4 ∧ (∀ i, i < 8 → (e.core c).rget (16 + i) = d.creg c (24 + i)) ∧ (∀ k, k ≠ c.val → e.core k = d.core k) ∧ e.mem = (d.afterFetch c).mem)) ∧
  (∀ (c : Fin 4) (off : BitVec 24) (d : Dev),
    d.ready c (fmtJ 0x29 off) = true →
    (d.core c).st.wres = 7 →
    (d.core c).st.tw = false →
    (d.core c).st.df = false →
    On (.callf c off) d (fun e =>
      Trapped c (d.afterFetch c) 3 0 0 (d.core c).pc none e)) ∧
  (∀ (c : Fin 4) (d : Dev),
    d.ready c (fmtJ 0x2C 0) = true →
    (d.core c).st.tw = false →
    (d.core c).st.wres ≠ 1 →
    (d.core c).st.df = false →
    On (.retf c 0) d (fun e =>
      CoreDid c (d.afterFetch c) { ((d.afterFetch c).core c) with pc := d.creg c 15, st := { ((d.afterFetch c).core c).st with wcur := ((d.afterFetch c).core c).st.wcur - 1, wres := ((d.afterFetch c).core c).st.wres - 1 } } e)) ∧
  (∀ (c : Fin 4) (d : Dev),
    d.ready c (fmtJ 0x2C 0) = true →
    (d.core c).st.wres = 1 →
    (d.core c).st.tw = false →
    (d.core c).st.df = false →
    On (.retf c 0) d (fun e =>
      Trapped c (d.afterFetch c) 4 0 0 (d.core c).pc none e)) ∧
  (∀ (c : Fin 4) (off : BitVec 24) (d : Dev),
    d.ready c (fmtJ 0x2C off) = true →
    off ≠ 0 →
    (d.core c).st.tw = false →
    (d.core c).st.df = false →
    On (.retf c off) d (fun e =>
      Trapped c (d.afterFetch c) 1 0 0 (d.core c).pc none e)) ∧
  (∀ (c : Fin 4) (imm : BitVec 15) (d : Dev),
    d.ready c (fmtS 0 0 imm) = true →
    (d.core c).st.tw = false →
    (d.core c).st.df = false →
    On (.trap c imm) d (fun e =>
      Trapped c (d.afterFetch c) 0x0C 0 imm.toNat ((d.core c).pc + 4) none e)) ∧
  (∀ (c : Fin 4) (imm : BitVec 15) (d : Dev),
    d.ready c (fmtS 1 0 imm) = true →
    (d.core c).st.tw = false →
    (d.core c).st.df = false →
    On (.bkpt c imm) d (fun e =>
      Trapped c (d.afterFetch c) 0x0D 0 imm.toNat (d.core c).pc none e)) ∧
  (∀ (c : Fin 4) (imm : BitVec 15) (d : Dev),
    d.ready c (fmtS 0 0 imm) = true →
    (d.core c).st.tw = true →
    (d.core c).st.df = false →
    On (.trap c imm) d (fun e =>
      e.core c = { ((d.afterFetch c).core c) with dfepc := BitVec.ofNat 40 ((d.core c).pc + 4).toNat, dfst := ((d.afterFetch c).core c).st, dfcause := BitVec.ofNat 32 (0x0C + imm.toNat * 65536), dffva := (e.core c).dffva, pc := BitVec.ofNat 64 (0x20000000 + c * 0x80000), waiting := false, st := { ((d.afterFetch c).core c).st with df := true, mip := false } } ∧ e.rd (CP_CNT0_DFAULTS c) = min 65535 ((d.afterFetch c).rd (CP_CNT0_DFAULTS c) + 1) ∧ RegsBut [CP_STAT c, CP_CNT0 c] (d.afterFetch c) e ∧ e = { (d.afterFetch c) with regs := e.regs, flags := e.flags, cores := e.cores, free := e.free })) ∧
  (∀ (c : Fin 4) (d : Dev),
    d.ready c (fmtS 0x2 0 0) = true →
    (d.core c).st.tw = true →
    (d.core c).st.df = false →
    (d.core c).st.priv = true →
    (d.core c).est.tw = false →
    (d.core c).haltReq = false →
    (d.core c).yieldReq = false →
    On (.rett c) d (fun e =>
      CoreDid c (d.afterFetch c) { ((d.afterFetch c).core c) with st := (d.core c).est, pc := (d.core c).epc.setWidth 64 } e)) ∧
  (∀ (c : Fin 4) (d : Dev),
    d.ready c (fmtS 0x2 0 0) = true →
    (d.core c).st.tw = false →
    (d.core c).st.df = false →
    On (.rett c) d (fun e =>
      Trapped c (d.afterFetch c) 1 0 0 (d.core c).pc none e)) ∧
  (∀ (c : Fin 4) (d : Dev),
    d.ready c (fmtS 0x3 0 0) = true →
    (d.core c).st.df = true →
    (d.core c).st.priv = true →
    (d.core c).dfst.tw = true →
    On (.retd c) d (fun e =>
      CoreDid c (d.afterFetch c) { ((d.afterFetch c).core c) with st := (d.core c).dfst, pc := (d.core c).dfepc.setWidth 64 } e)) ∧
  (∀ (c : Fin 4) (d : Dev),
    d.ready c (fmtS 0x3 0 0) = true →
    (d.core c).st.tw = false →
    (d.core c).st.df = false →
    On (.retd c) d (fun e =>
      Trapped c (d.afterFetch c) 1 0 0 (d.core c).pc none e)) ∧
  (∀ (c : Fin 4) (m : MProg) (i b w o : Nat) (d : Dev),
    d.ready c (fmtS 0x4 0 0) = true →
    (d.afterFetch c).plainCore c = true →
    (d.core c).st.tw = true →
    (d.core c).st.priv = true →
    (d.core c).est.wres ≠ 1 →
    (((d.core c).est.wcur - (d.core c).est.wres) + 1).toNat = o →
    (d.core c).bank.wsp.toNat = w + 128 →
    w % 8 = 0 →
    w + 128 < 2 ^ 40 →
    (d.afterFetch c).progOf c 0x00FFFF00 ((d.core c).bank.wsp - 128) = m →
    m.at i = true →
    8 ≤ i →
    i < 24 →
    m.addr i = b →
    b % 8 = 0 →
    b + 8 ≤ 0x800000 →
    On (.spillf c) d (fun e =>
      bytesNat (e.bytesAt b 8) = (tget 0#64 (d.core c).bank.w (windowReg o i)).toNat ∧ (∀ a, (a < b ∨ b + 8 ≤ a) → e.byte a = (d.afterFetch c).byte a) ∧ (e.core c).bank.w = (d.core c).bank.w ∧ (e.core c).bank.wsp = (if m.last i then BitVec.ofNat 64 (w) else (d.core c).bank.wsp) ∧ (e.core c).est = (if m.last i then { (d.core c).est with wres := (d.core c).est.wres - 1 } else (d.core c).est) ∧ (e.core c).mp = { m with done := m.done ||| BitVec.ofNat 32 (2 ^ i) } ∧ (e.core c).st = { (d.core c).st with mip := !m.last i } ∧ (e.core c).pc = (d.core c).pc + (if m.last i then 4 else 0) ∧ (∀ k, k ≠ c.val → e.core k = d.core k))) ∧
  (∀ (c : Fin 4) (m : MProg) (i b w o : Nat) (d : Dev),
    d.ready c (fmtS 0x5 0 0) = true →
    (d.afterFetch c).plainCore c = true →
    (d.core c).st.tw = true →
    (d.core c).st.priv = true →
    (d.core c).est.wres ≠ 7 →
    ((d.core c).est.wcur - (d.core c).est.wres).toNat = o →
    (d.core c).bank.wsp.toNat = w →
    w % 8 = 0 →
    w + 128 < 2 ^ 40 →
    (d.afterFetch c).progOf c 0x00FFFF00 ((d.core c).bank.wsp) = m →
    m.at i = true →
    8 ≤ i →
    i < 24 →
    m.addr i = b →
    b % 8 = 0 →
    b + 8 ≤ 0x800000 →
    On (.fillf c) d (fun e =>
      (∀ r, r < 128 → tget 0#64 (e.core c).bank.w r = if r = windowReg o i then BitVec.ofNat 64 (bytesNat ((d.afterFetch c).bytesAt b 8)) else tget 0#64 (d.core c).bank.w r) ∧ e.mem = (d.afterFetch c).mem ∧ (e.core c).bank.wsp = (if m.last i then BitVec.ofNat 64 (w + 128) else (d.core c).bank.wsp) ∧ (e.core c).est = (if m.last i then { (d.core c).est with wres := (d.core c).est.wres + 1 } else (d.core c).est) ∧ (e.core c).mp = { m with done := m.done ||| BitVec.ofNat 32 (2 ^ i) } ∧ (e.core c).st = { (d.core c).st with mip := !m.last i } ∧ (e.core c).pc = (d.core c).pc + (if m.last i then 4 else 0) ∧ (∀ k, k ≠ c.val → e.core k = d.core k))) ∧
  (∀ (c : Fin 4) (d : Dev),
    d.ready c (fmtS 0x4 0 0) = true →
    (d.core c).st.tw = false →
    (d.core c).st.df = false →
    On (.spillf c) d (fun e =>
      Trapped c (d.afterFetch c) 1 0 0 (d.core c).pc none e)) ∧
  (∀ (c : Fin 4) (d : Dev),
    d.ready c (fmtS 0x5 0 0) = true →
    (d.core c).st.tw = false →
    (d.core c).st.df = false →
    On (.fillf c) d (fun e =>
      Trapped c (d.afterFetch c) 1 0 0 (d.core c).pc none e)) ∧
  (∀ (c : Fin 4) (d : Dev),
    d.coreLive c = true →
    (d.core c).st.ie = true →
    d.irqBits c ≠ 0 →
    d.switchDue c = false →
    (d.core c).st.tw = false →
    (d.core c).st.df = false →
    On (.irq c) d (fun e =>
      Trapped c d 0x0F 0 (d.irqBits c) (d.core c).pc none e)) ∧
  (∀ (c : Fin 4) (d : Dev),
    (d.core c).st.ie = false ∨ d.irqBits c = 0 ∨ (d.core c).st.tw = true →
    On (.irq c) d (fun e =>
      e = d))

/-- MTC writes the fields of a control register and MFC reads it; a number beyond 0x15 is ILLEGAL, a privileged register in shore mode traps with PRIV, the bank window traps with BANKACC while it is closed. FENCE orders only. SYNC runs again while an invalidation is under way. TLBI drops the named translations in every core. CACHE writes lines back and drops them. WAIT idles the core until an enabled source is pending. YIELD in trap mode waits for RETT. RUN starts a core at CP_RVEC, HALT stops it at once outside trap mode, CP_IRAISE sets pending bits, CP_CLR clears the counters. -/
def Obligations.CoreSystem : Prop :=
  (∀ (c : Fin 4) (rx : Fin 32) (v : BitVec 64) (d : Dev),
    d.ready c (fmtS 7 rx 5) = true →
    (d.core c).st.priv = true →
    d.creg c rx = v →
    On (.mtc c rx 5) d (fun e =>
      CoreDid c (d.afterFetch c) { ((d.afterFetch c).core c) with tvec := BitVec.ofNat 40 (v.toNat % 2 ^ 40 / 2048 * 2048) } e)) ∧
  (∀ (c : Fin 4) (rx : Fin 32) (v : BitVec 64) (d : Dev),
    d.ready c (fmtS 7 rx 6) = true →
    d.creg c rx = v →
    On (.mtc c rx 6) d (fun e =>
      (e.core c).bank.wsp = BitVec.ofNat 64 (v.toNat % 2 ^ 40 / 8 * 8) ∧ (e.core c).st = (d.core c).st ∧ (e.core c).pc = (d.core c).pc + 4 ∧ (e.core c).bank.w = (d.core c).bank.w ∧ (e.core c).bank.g = (d.core c).bank.g ∧ e.mem = (d.afterFetch c).mem)) ∧
  (∀ (c : Fin 4) (rx : Fin 32) (d : Dev),
    d.ready c (fmtS 6 rx 1) = true →
    (d.core c).st.priv = true →
    On (.mfc c rx 1) d (fun e =>
      CoreDid c (d.afterFetch c) (((d.afterFetch c).core c).rset rx ((d.core c).epc.setWidth 64)) e)) ∧
  (∀ (c : Fin 4) (rx : Fin 32) (d : Dev),
    d.ready c (fmtS 6 rx 0x12) = true →
    On (.mfc c rx 0x12) d (fun e =>
      CoreDid c (d.afterFetch c) (((d.afterFetch c).core c).rset rx (BitVec.ofNat 64 c)) e)) ∧
  (∀ (c : Fin 4) (rx : Fin 32) (imm : BitVec 15) (d : Dev),
    d.ready c (fmtS 6 rx imm) = true →
    (d.core c).st.tw = false →
    (d.core c).st.df = false →
    0x15 < imm.toNat →
    On (.mfc c rx imm) d (fun e =>
      Trapped c (d.afterFetch c) 1 0 0 (d.core c).pc none e)) ∧
  (∀ (c : Fin 4) (rx : Fin 32) (imm : BitVec 15) (d : Dev),
    d.ready c (fmtS 7 rx imm) = true →
    (d.core c).st.tw = false →
    (d.core c).st.df = false →
    imm.toNat ≤ 0x15 →
    imm.toNat ≠ 6 →
    (d.core c).st.priv = false →
    On (.mtc c rx imm) d (fun e =>
      Trapped c (d.afterFetch c) 2 0 0 (d.core c).pc none e)) ∧
  (∀ (c : Fin 4) (rx : Fin 32) (d : Dev),
    d.ready c (fmtS 6 rx 0x0C) = true →
    (d.core c).st.tw = false →
    (d.core c).st.df = false →
    (d.core c).st.priv = true →
    (d.afterFetch c).on (CP_CFG_BANKWIN c) = false →
    On (.mfc c rx 0x0C) d (fun e =>
      Trapped c (d.afterFetch c) 0x0E 0 0 (d.core c).pc none e)) ∧
  (∀ (c : Fin 4) (d : Dev),
    d.ready c (fmtS 0x8 0 0) = true →
    On (.fence c) d (fun e =>
      e = (d.afterFetch c))) ∧
  (∀ (c : Fin 4) (d : Dev),
    d.ready c (fmtS 0x9 0 0) = true →
    On (.sync c) d (fun e =>
      CoreDid c (d.afterFetch c) { ((d.afterFetch c).core c) with pc := if (d.afterFetch c).on MM_STAT_INVBUSY then (d.core c).pc else (d.core c).pc + 4 } e)) ∧
  (∀ (c : Fin 4) (rx : Fin 32) (imm : BitVec 15) (d : Dev),
    d.ready c (fmtS 0xA rx imm) = true →
    (d.core c).st.priv = true →
    On (.tlbi c rx imm) d (fun e =>
      (∀ k, k < 4 → (e.core k).tlb = keepTlb (imm.toNat % 4) (d.core c).asid ((d.creg c rx).toNat % 2 ^ 40) ((d.afterFetch c).core k).tlb) ∧ e.mmu.l2 = keepTlb (imm.toNat % 4) (d.core c).asid ((d.creg c rx).toNat % 2 ^ 40) (d.afterFetch c).mmu.l2 ∧ (e.core c).pc = (d.core c).pc + 4 ∧ e.mem = (d.afterFetch c).mem ∧ e.regs = (d.afterFetch c).regs)) ∧
  (∀ (c : Fin 4) (rx : Fin 32) (imm : BitVec 15) (d : Dev),
    d.ready c (fmtS 0xA rx imm) = true →
    (d.core c).st.tw = false →
    (d.core c).st.df = false →
    (d.core c).st.priv = false →
    On (.tlbi c rx imm) d (fun e =>
      Trapped c (d.afterFetch c) 2 0 0 (d.core c).pc none e)) ∧
  (∀ (c : Fin 4) (rx : Fin 32) (k : Nat) (d : Dev),
    d.ready c (fmtS 0xB rx 1) = true →
    (d.core c).st.priv = true →
    (d.core c).st.df = true →
    (d.creg c rx).toNat = k →
    k < 2 ^ 40 →
    On (.cache c rx 1) d (fun e =>
      CoreDid c (d.afterFetch c) { ((d.afterFetch c).core c) with dc := tdel ((d.afterFetch c).core c).dc (k / 64) } e)) ∧
  (∀ (c : Fin 4) (rx : Fin 32) (imm : BitVec 15) (d : Dev),
    d.ready c (fmtS 0xB rx imm) = true →
    (d.core c).st.tw = false →
    (d.core c).st.df = false →
    5 < imm.toNat →
    On (.cache c rx imm) d (fun e =>
      Trapped c (d.afterFetch c) 1 0 0 (d.core c).pc none e)) ∧
  (∀ (c : Fin 4) (d : Dev),
    d.ready c (fmtS 0xc 0 0) = true →
    On (.wait c) d (fun e =>
      CoreDid c (d.afterFetch c) { ((d.afterFetch c).core c) with waiting := true } e ∧ (d.irqBits c = 0 → e.coreLive c = false))) ∧
  (∀ (c : Fin 4) (d : Dev),
    d.ready c (fmtS 0xd 0 0) = true →
    (d.core c).st.tw = true →
    On (.yield c) d (fun e =>
      CoreDid c (d.afterFetch c) { ((d.afterFetch c).core c) with yieldReq := true } e)) ∧
  (∀ (c : Fin 4) (d : Dev),
    d.ready c (fmtS 0xd 0 0) = true →
    (d.core c).st.tw = false →
    (d.afterFetch c).on TS_CTRL_EN = false →
    On (.yield c) d (fun e =>
      e = (d.afterFetch c))) ∧
  (∀ (c : Fin 4) (d : Dev),
    d.domUp (96 + c) = true →
    d.power.failed = false →
    On (.coreRun c) d (fun e =>
      e.on (CP_STAT_RUN c) = true ∧ e.on (CP_STAT_STOPPED c) = false ∧ e.core c = { (d.core c) with pc := d.rvec c, st := CStat.start, yieldReq := false, waiting := false, idle := false, haltReq := false } ∧ (∀ k, k ≠ c.val → e.core k = d.core k) ∧ RegsBut [CP_STAT c] d e ∧ e = { d with regs := e.regs, flags := e.flags, cores := e.cores })) ∧
  (∀ (c : Fin 4) (d : Dev),
    d.power.failed = true →
    On (.coreRun c) d (fun e =>
      e = d)) ∧
  (∀ (c : Fin 4) (d : Dev),
    d.on (CP_STAT_RUN c) = true →
    (d.core c).st.tw = false →
    (d.core c).st.df = false →
    On (.coreHalt c) d (fun e =>
      e.on (CP_STAT_RUN c) = false ∧ OnlyRegs [CP_STAT c] d e)) ∧
  (∀ (c : Fin 4) (d : Dev),
    d.on (CP_STAT_RUN c) = true →
    (d.core c).st.tw = true →
    On (.coreHalt c) d (fun e =>
      e.on (CP_STAT_RUN c) = true ∧ e.core c = { (d.core c) with haltReq := true } ∧ RegsBut [CP_STAT c] d e)) ∧
  (∀ (c : Fin 4) (m : BitVec 8) (d : Dev),
    On (.cpIraise c m) d (fun e =>
      (∀ k, k < 8 → e.rdBit (CP_IPEND_PEND c) k = (d.rdBit (CP_IPEND_PEND c) k || m.getLsbD k)) ∧ OnlyRegs [CP_IPEND c] d e)) ∧
  (∀ (c : Fin 4) (d : Dev),
    On (.cpClr c) d (fun e =>
      e.reg (CP_CNT0 c) = 0 ∧ e.reg (CP_CNT1 c) = 0 ∧ OnlyRegs [CP_CNT0 c, CP_CNT1 c] d e))

/-- A due switch acts at a boundary outside trap mode with the incoming thread resident: the outgoing thread is parked in its slot, READY at the head of its level; the core goes on with the incoming thread's bank, LAST, SWIN and STATE are updated, WAIT and TMO cleared, WAKE and WVAL shown. A finished fill makes the thread resident, or empties or discards a suspended or killed thread's image. A finished empty writes the image to BANK and clears RES. -/
def Obligations.ThreadSwitches : Prop :=
  (∀ (c : Fin 4) (q : SwReq) (k : Nat) (d : Dev),
    d.pendOn c = some q →
    q.due ≤ d.now →
    (d.core c).st.tw = false →
    d.on (CP_STAT_RUN c) = true →
    d.slotOf c q.thread = some k →
    d.runOn c = none →
    d.on TS_CTRL_TREN = false →
    On (.switch c) d (fun e =>
      e.core c = (let x := (d.core c).enter k; if (d.thr q.thread).fresh then { x with st := { x.st with wres := 1 } } else x) ∧ (∀ x, x ≠ c.val → e.core x = d.core x) ∧ e.runOn c = some q.thread ∧ e.pendOn c = none ∧ (∀ x, x ≠ c.val → e.runOn x = d.runOn x) ∧ e.thr q.thread = { d.thr q.thread with state := 2, last := BitVec.ofNat 2 c, fresh := false, swin := BitVec.ofNat 32 (min 4294967295 ((d.thr q.thread).swin.toNat + 1)) } ∧ (∀ u, u ≠ q.thread → e.thr u = d.thr u) ∧ e.reg (TS_COREc_WAIT c) = 0 ∧ e.reg (TS_COREc_TMO c) = 0 ∧ e.rd (TS_COREc_SELF_THREAD c) = q.thread % 512 ∧ e.rd (TS_COREc_WAKE_CAUSE c) = (d.thr q.thread).wcause % 4 ∧ e.reg (TS_COREc_WVAL c) = (d.thr q.thread).wval ∧ e.mem = d.mem)) ∧
  (∀ (c : Fin 4) (q : SwReq) (k r : Nat) (d : Dev),
    d.pendOn c = some q →
    q.due ≤ d.now →
    (d.core c).st.tw = false →
    d.on (CP_STAT_RUN c) = true →
    d.slotOf c q.thread = some k →
    d.runOn c = some r →
    r ≠ q.thread →
    d.pendCore r = none →
    d.on TS_CTRL_TREN = false →
    On (.switch c) d (fun e =>
      e.core c = (let x := (d.core c).park.enter k; if (d.thr q.thread).fresh then { x with st := { x.st with wres := 1 } } else x) ∧ (∀ x, x ≠ c.val → e.core x = d.core x) ∧ e.runOn c = some q.thread ∧ e.pendOn c = none ∧ (e.thr q.thread).state = 2 ∧ e.thr r = { d.thr r with state := 1, ran := d.now + 1 } ∧ e.readyAt (d.thr r).pri.toNat = r :: d.readyAt (d.thr r).pri.toNat ∧ (∀ u, u ≠ q.thread → u ≠ r → e.thr u = d.thr u) ∧ e.mem = d.mem)) ∧
  (∀ (c : Fin 4) (q : SwReq) (d : Dev),
    d.pendOn c = some q →
    d.now < q.due ∨ (d.core c).st.tw = true ∨ d.on (CP_STAT_RUN c) = false ∨ d.slotOf c q.thread = none →
    On (.switch c) d (fun e =>
      e = d)) ∧
  (∀ (c : Fin 4) (k t : Nat) (d : Dev),
    d.moveDone c 1 = some k →
    ((d.core c).bslot k).mover = t →
    (d.thr t).state ≠ 0 →
    (d.thr t).state ≠ 5 →
    (d.memReadAll (d.thr t).bank.toNat 1152).1.1 = 0 →
    d.on TS_CTRL_TREN = false →
    On (.bankFillDone c) d (fun e =>
      (e.core c).bslot k = { bank := bankOfBytes (d.memReadAll (d.thr t).bank.toNat 1152).1.2, thread := some t, move := 0, mover := 0 } ∧ e.thr t = { d.thr t with home := some (c, k) } ∧ (∀ j, j ≠ k → (e.core c).bslot j = (d.core c).bslot j) ∧ (∀ x, x ≠ c.val → e.core x = d.core x))) ∧
  (∀ (c : Fin 4) (k t : Nat) (d : Dev),
    d.moveDone c 1 = some k →
    ((d.core c).bslot k).mover = t →
    (d.thr t).state = 5 →
    (d.memReadAll (d.thr t).bank.toNat 1152).1.1 = 0 →
    d.on TS_CTRL_TREN = false →
    On (.bankFillDone c) d (fun e =>
      ((e.core c).bslot k).move = 2 ∧ ((e.core c).bslot k).mover = t ∧ tget 0 e.sched.moveEnd c = d.now + 96 ∧ (∀ x, x ≠ c.val → e.core x = d.core x))) ∧
  (∀ (c : Fin 4) (k t : Nat) (d : Dev),
    d.moveDone c 2 = some k →
    ((d.core c).bslot k).mover = t →
    (d.thr t).state ≠ 0 →
    d.rd (TS_CNT1_EVICT) < 65535 →
    d.on TS_CTRL_TREN = false →
    On (.bankEmptyDone c) d (fun e =>
      e.mem = (d.memWriteAll (d.thr t).bank.toNat ((d.core c).bslot k).bank.bytes).2.mem ∧ (e.core c).bslot k = BankSlot.reset ∧ e.thr t = { d.thr t with home := none } ∧ (∀ j, j ≠ k → (e.core c).bslot j = (d.core c).bslot j) ∧ (∀ x, x ≠ c.val → e.core x = d.core x) ∧ (∀ u, u ≠ t → e.thr u = d.thr u))) ∧
  (∀ (c : Fin 4) (d : Dev),
    d.moveDone c 1 = none →
    On (.bankFillDone c) d (fun e =>
      e = d)) ∧
  (∀ (c : Fin 4) (d : Dev),
    d.moveDone c 2 = none →
    On (.bankEmptyDone c) d (fun e =>
      e = d))

/-- The store applies the oldest queued item, at most one in an ACLK. A token counts where nobody waits, COUNT saturating, or wakes the waiter of highest PRI, the oldest among equals; in broadcast mode without a waiter COUNT becomes 1; for a disabled entry it is dropped and counted. A timed wake whose tag is the armed wait's wakes its thread by timeout; any other is stale, counted, and does nothing else. An unconditional wake wakes a waiting thread with its value, is held one deep by a ready or running one, and is stale for a free or suspended one. A woken thread becomes READY in the next ACLK. TS_POST queues a token. CLR clears the counters. -/
def Obligations.TokensAndWakes : Prop :=
  (∀ (k : SchedTok) (rest : List SchedTok) (n : Nat) (d : Dev),
    d.schedIn = k :: rest →
    d.sched.applied ≤ d.now →
    k.wake = false →
    k.num % 4096 = n →
    (d.tokEnt n).mode = 1 →
    (d.tokEnt n).wait = [] →
    On .schedulerToken d (fun e =>
      e.schedIn = rest ∧ e.sched.applied = d.now + 1 ∧ e.tokEnt n = { d.tokEnt n with count := BitVec.ofNat 16 (min 65535 ((d.tokEnt n).count.toNat + 1)) } ∧ (∀ m, m ≠ n → e.tokEnt m = d.tokEnt m) ∧ e.sched.threads = d.sched.threads ∧ e.regs = d.regs ∧ e = { d with regs := e.regs, flags := e.flags, sched := e.sched, schedIn := e.schedIn })) ∧
  (∀ (k : SchedTok) (rest : List SchedTok) (n : Nat) (d : Dev),
    d.schedIn = k :: rest →
    d.sched.applied ≤ d.now →
    k.wake = false →
    k.num % 4096 = n →
    (d.tokEnt n).mode = 2 →
    (d.tokEnt n).wait = [] →
    On .schedulerToken d (fun e =>
      e.schedIn = rest ∧ e.sched.applied = d.now + 1 ∧ e.tokEnt n = { d.tokEnt n with count := 1 } ∧ (∀ m, m ≠ n → e.tokEnt m = d.tokEnt m) ∧ e.sched.threads = d.sched.threads ∧ e.regs = d.regs ∧ e = { d with regs := e.regs, flags := e.flags, sched := e.sched, schedIn := e.schedIn })) ∧
  (∀ (k : SchedTok) (rest : List SchedTok) (n t : Nat) (d : Dev),
    d.schedIn = k :: rest →
    d.sched.applied ≤ d.now →
    k.wake = false →
    k.num % 4096 = n →
    (d.tokEnt n).mode = 1 →
    t ∈ (d.tokEnt n).wait →
    (∀ u ∈ (d.tokEnt n).wait, u ≠ t → (d.thr u).pri < (d.thr t).pri) →
    (d.thr t).wtv = true →
    (d.thr t).wtok.toNat = n →
    (d.thr t).wtt = false →
    d.on TS_CTRL_TREN = false →
    On .schedulerToken d (fun e =>
      e.schedIn = rest ∧ e.sched.applied = d.now + 1 ∧ e.thr t = { d.thr t with wtv := false, wcause := 1, wval := 0 } ∧ e.sched.woken = d.sched.woken ++ [t] ∧ e.tokEnt n = { d.tokEnt n with wait := (d.tokEnt n).wait.filter (fun (u : Nat) => u ≠ t) } ∧ (∀ u, u ≠ t → e.thr u = d.thr u) ∧ (∀ m, m ≠ n → e.tokEnt m = d.tokEnt m) ∧ RegsBut [TS_STAT] d e ∧ e = { d with regs := e.regs, flags := e.flags, sched := e.sched, schedIn := e.schedIn })) ∧
  (∀ (k : SchedTok) (rest : List SchedTok) (n j : Nat) (d : Dev),
    d.schedIn = k :: rest →
    d.sched.applied ≤ d.now →
    k.wake = false →
    k.num % 4096 = n →
    (d.tokEnt n).mode = 0 →
    d.rd TS_CNT2_TDROP = j →
    j < 65535 →
    On .schedulerToken d (fun e =>
      e.schedIn = rest ∧ e.sched.applied = d.now + 1 ∧ e.rd TS_CNT2_TDROP = j + 1 ∧ e.rd TS_STAT_TDROP = 1 ∧ (∀ c, c < 4 → e.rdBit (CP_IPEND_PEND c) 6 = true) ∧ e.sched.toks = d.sched.toks ∧ e.sched.threads = d.sched.threads ∧ e.mem = d.mem)) ∧
  (∀ (k : SchedTok) (rest : List SchedTok) (t : Nat) (d : Dev),
    d.schedIn = k :: rest →
    d.sched.applied ≤ d.now →
    k.wake = true →
    wbit k.value 31 = true →
    k.at_ < d.now →
    k.num % 512 = t →
    (d.thr t).state = 3 ∨ (d.thr t).state = 4 →
    (d.thr t).wtt = true →
    (d.thr t).wtag.toNat = wbits k.value 15 0 →
    (d.thr t).wtv = false →
    d.on TS_CTRL_TREN = false →
    On .timedWake d (fun e =>
      e.schedIn = rest ∧ e.sched.applied = d.now + 1 ∧ e.thr t = { d.thr t with wtt := false, wcause := 2, wval := 0 } ∧ e.sched.woken = d.sched.woken ++ [t] ∧ (∀ u, u ≠ t → e.thr u = d.thr u) ∧ e.sched.toks = d.sched.toks ∧ RegsBut [TS_STAT] d e ∧ e = { d with regs := e.regs, flags := e.flags, sched := e.sched, schedIn := e.schedIn })) ∧
  (∀ (k : SchedTok) (rest : List SchedTok) (t j : Nat) (d : Dev),
    d.schedIn = k :: rest →
    d.sched.applied ≤ d.now →
    k.wake = true →
    wbit k.value 31 = true →
    k.at_ < d.now →
    k.num % 512 = t →
    ((d.thr t).state ≠ 3 ∧ (d.thr t).state ≠ 4) ∨ (d.thr t).wtt = false ∨ (d.thr t).wtag.toNat ≠ wbits k.value 15 0 →
    d.rd TS_CNT2_STALEW = j →
    j < 65535 →
    On .timedWake d (fun e =>
      e.schedIn = rest ∧ e.sched.applied = d.now + 1 ∧ e.rd TS_CNT2_STALEW = j + 1 ∧ RegsBut [TS_CNT2] d e ∧ e.sched = { d.sched with applied := d.now + 1 } ∧ e = { d with regs := e.regs, flags := e.flags, sched := e.sched, schedIn := e.schedIn })) ∧
  (∀ (k : SchedTok) (rest : List SchedTok) (t : Nat) (d : Dev),
    d.schedIn = k :: rest →
    d.sched.applied ≤ d.now →
    k.wake = true →
    wbit k.value 31 = false →
    k.at_ < d.now →
    k.num % 512 = t →
    (d.thr t).state = 3 ∨ (d.thr t).state = 4 →
    (d.thr t).wtv = false →
    t ∉ d.sched.woken →
    On .unconditionalWake d (fun e =>
      e.schedIn = rest ∧ e.sched.applied = d.now + 1 ∧ e.thr t = { d.thr t with wtt := false, wcause := 3, wval := BitVec.ofNat 32 (wbits k.value 30 0) } ∧ e.sched.woken = d.sched.woken ++ [t] ∧ (∀ u, u ≠ t → e.thr u = d.thr u) ∧ RegsBut [TS_STAT] d e ∧ e = { d with regs := e.regs, flags := e.flags, sched := e.sched, schedIn := e.schedIn })) ∧
  (∀ (k : SchedTok) (rest : List SchedTok) (t : Nat) (d : Dev),
    d.schedIn = k :: rest →
    d.sched.applied ≤ d.now →
    k.wake = true →
    wbit k.value 31 = false →
    k.at_ < d.now →
    k.num % 512 = t →
    (d.thr t).state = 1 ∨ (d.thr t).state = 2 →
    On .unconditionalWake d (fun e =>
      e.schedIn = rest ∧ e.sched.applied = d.now + 1 ∧ e.thr t = { d.thr t with wpend := true, wval := BitVec.ofNat 32 (wbits k.value 30 0) } ∧ e.sched.woken = d.sched.woken ∧ (∀ u, u ≠ t → e.thr u = d.thr u) ∧ RegsBut [TS_STAT] d e ∧ e = { d with regs := e.regs, flags := e.flags, sched := e.sched, schedIn := e.schedIn })) ∧
  (∀ (k : SchedTok) (rest : List SchedTok) (t j : Nat) (d : Dev),
    d.schedIn = k :: rest →
    d.sched.applied ≤ d.now →
    k.wake = true →
    wbit k.value 31 = false →
    k.at_ < d.now →
    k.num % 512 = t →
    (d.thr t).state = 0 ∨ (d.thr t).state = 5 →
    d.rd TS_CNT2_STALEW = j →
    j < 65535 →
    On .unconditionalWake d (fun e =>
      e.schedIn = rest ∧ e.sched.applied = d.now + 1 ∧ e.rd TS_CNT2_STALEW = j + 1 ∧ RegsBut [TS_CNT2] d e ∧ e.sched = { d.sched with applied := d.now + 1 } ∧ e = { d with regs := e.regs, flags := e.flags, sched := e.sched, schedIn := e.schedIn })) ∧
  (∀ (n : Fin 4096) (d : Dev),
    d.schedWait = [] →
    d.schedIn.length < 64 →
    On (.tsPost n) d (fun e =>
      { wake := false, num := n, value := 0, cls := 2, at_ := d.now } ∈ e.schedIn ∧ e.schedIn.length = d.schedIn.length + 1 ∧ e.rd TS_POST_TOKEN = n.val ∧ RegsBut [TS_POST] d e ∧ e = { d with regs := e.regs, flags := e.flags, schedIn := e.schedIn })) ∧
  (∀ d : Dev,
    On .tsClr d (fun e =>
      e.reg TS_CNT0 = 0 ∧ e.reg TS_CNT1 = 0 ∧ e.reg TS_CNT2 = 0 ∧ OnlyRegs [TS_CNT0, TS_CNT1, TS_CNT2] d e))

/-- START makes a FREE or SUSPENDED thread READY: it enters the tail of its level, or a switch to the core R264 chooses is requested; in any other state it is refused with BADSTATE. SUSPEND takes a thread out of its list, queue or core, and is refused for a FREE one; the core whose thread is suspended is left without a thread where there is no candidate. SETPRI and SETAFF set the field and place the thread anew. KILL frees the thread and discards its resident image. WAKE acts as an unconditional wake. A command for a thread that runs on a core in trap mode waits. -/
def Obligations.SchedulerCommands : Prop :=
  (∀ (t : Fin 512) (d : Dev),
    (d.thr t).state = 0 ∨ (d.thr t).state = 5 →
    d.coreOf t = none →
    d.on TS_CTRL_EN = false ∨ d.chooseCore t = none →
    d.on TS_CTRL_TREN = false →
    On (.start t) d (fun e =>
      e.rd TS_CMDSTAT_RES = 0 ∧ e.rd TS_CMD_THREAD = t.val ∧ e.thr t = { d.thr t with state := 1 } ∧ e.readyAt (d.thr t).pri.toNat = d.readyAt (d.thr t).pri.toNat ++ [t.val] ∧ e.sched.switch = d.sched.switch ∧ (∀ u, u ≠ t.val → e.thr u = d.thr u) ∧ RegsBut [TS_CMD, TS_CMDSTAT, TS_STAT] d e ∧ e = { d with regs := e.regs, flags := e.flags, sched := e.sched })) ∧
  (∀ (t : Fin 512) (c : Nat) (d : Dev),
    (d.thr t).state = 0 ∨ (d.thr t).state = 5 →
    d.coreOf t = none →
    d.on TS_CTRL_EN = true →
    d.chooseCore t = some c →
    d.pendOn c = none →
    d.on TS_CTRL_TREN = false →
    On (.start t) d (fun e =>
      e.rd TS_CMDSTAT_RES = 0 ∧ e.rd TS_CMD_THREAD = t.val ∧ e.thr t = { d.thr t with state := 1 } ∧ e.pendOn c = some { thread := t, due := d.now + 2 } ∧ (∀ x, x ≠ c → e.pendOn x = d.pendOn x) ∧ e.sched.ready = d.sched.ready ∧ e.sched.running = d.sched.running ∧ (∀ u, u ≠ t.val → e.thr u = d.thr u) ∧ RegsBut [TS_CMD, TS_CMDSTAT, TS_STAT] d e ∧ e = { d with regs := e.regs, flags := e.flags, sched := e.sched })) ∧
  (∀ (t : Fin 512) (d : Dev),
    (d.thr t).state ≠ 0 →
    (d.thr t).state ≠ 5 →
    d.coreOf t = none →
    d.on TS_CTRL_TREN = false →
    On (.start t) d (fun e =>
      e.rd TS_CMDSTAT_RES = 1 ∧ e.rd TS_CMD_THREAD = t.val ∧ OnlyRegs [TS_CMD, TS_CMDSTAT] d e)) ∧
  (∀ (t : Fin 512) (d : Dev),
    (d.thr t).state ≠ 0 →
    (d.thr t).wtv = true →
    (d.thr t).wtok.toNat < 4096 →
    d.coreOf t = none →
    d.pendCore t = none →
    d.on TS_CTRL_TREN = false →
    On (.suspend t) d (fun e =>
      e.rd TS_CMDSTAT_RES = 0 ∧ e.rd TS_CMD_THREAD = t.val ∧ e.thr t = { d.thr t with state := 5, wtv := false, wtt := false } ∧ e.tokEnt (d.thr t).wtok.toNat = { d.tokEnt (d.thr t).wtok.toNat with wait := (d.tokEnt (d.thr t).wtok.toNat).wait.filter (fun (u : Nat) => u ≠ t) } ∧ (∀ p, p < 32 → e.readyAt p = (d.readyAt p).filter (fun (u : Nat) => u ≠ t)) ∧ (∀ u, u ≠ t.val → e.thr u = d.thr u) ∧ RegsBut [TS_CMD, TS_CMDSTAT, TS_STAT] d e ∧ e = { d with regs := e.regs, flags := e.flags, sched := e.sched })) ∧
  (∀ (t : Fin 512) (c : Nat) (d : Dev),
    c < 4 →
    (d.thr t).state = 2 →
    (d.thr t).wtv = false →
    d.coreOf t = some c →
    (d.core c).st.tw = false →
    d.pendCore t = none →
    d.pendOn c = none →
    (∀ p : Fin 32, d.readyAt p = []) →
    d.on TS_CTRL_TREN = false →
    On (.suspend t) d (fun e =>
      e.rd TS_CMDSTAT_RES = 0 ∧ e.rd TS_CMD_THREAD = t.val ∧ e.thr t = { d.thr t with state := 5, wtt := false, ran := d.now + 1 } ∧ e.runOn c = none ∧ e.core c = { (d.core c).park with idle := true } ∧ e.on (TS_COREc_SELF_NONE c) = true ∧ e.sched.switch = d.sched.switch ∧ (∀ x, x ≠ c → e.core x = d.core x) ∧ (∀ u, u ≠ t.val → e.thr u = d.thr u) ∧ RegsBut [TS_CMD, TS_CMDSTAT, TS_STAT, TS_COREc_SELF c, CP_STAT c] d e ∧ e = { d with regs := e.regs, flags := e.flags, sched := e.sched, cores := e.cores })) ∧
  (∀ (t : Fin 512) (c : Nat) (d : Dev),
    c < 4 →
    d.coreOf t = some c →
    (d.core c).st.tw = true →
    On (.suspend t) d (fun e =>
      e.rd TS_CMDSTAT_BUSY = 1 ∧ e.rd TS_CMD_THREAD = t.val ∧ e.sched = { d.sched with cmds := d.sched.cmds ++ [(2, t.val, d.reg TS_CMDARG)] } ∧ RegsBut [TS_CMD, TS_CMDSTAT] d e ∧ e = { d with regs := e.regs, flags := e.flags, sched := e.sched })) ∧
  (∀ (t : Fin 512) (d : Dev),
    (d.thr t).state = 0 →
    d.coreOf t = none →
    d.on TS_CTRL_TREN = false →
    On (.suspend t) d (fun e =>
      e.rd TS_CMDSTAT_RES = 1 ∧ e.rd TS_CMD_THREAD = t.val ∧ OnlyRegs [TS_CMD, TS_CMDSTAT] d e)) ∧
  (∀ (t : Fin 512) (d : Dev),
    (d.thr t).state ≠ 0 →
    (d.thr t).state ≠ 1 →
    d.coreOf t = none →
    t.val ∉ d.readyAt (d.thr t).pri.toNat →
    d.on TS_CTRL_TREN = false →
    On (.setpri t) d (fun e =>
      e.rd TS_CMDSTAT_RES = 0 ∧ e.rd TS_CMD_THREAD = t.val ∧ e.thr t = { d.thr t with pri := BitVec.ofNat 5 (wbits (d.reg TS_CMDARG) 4 0) } ∧ e.sched = { d.sched with threads := e.sched.threads } ∧ (∀ u, u ≠ t.val → e.thr u = d.thr u) ∧ RegsBut [TS_CMD, TS_CMDSTAT, TS_STAT] d e ∧ e = { d with regs := e.regs, flags := e.flags, sched := e.sched })) ∧
  (∀ (t : Fin 512) (p q : Nat) (d : Dev),
    (d.thr t).state = 1 →
    (d.thr t).pri.toNat = p →
    wbits (d.reg TS_CMDARG) 4 0 = q →
    p ≠ q →
    d.coreOf t = none →
    t.val ∈ d.readyAt p →
    (∀ r : Fin 32, r.val ≠ p → t.val ∉ d.readyAt r) →
    d.on TS_CTRL_EN = false →
    d.on TS_CTRL_TREN = false →
    On (.setpri t) d (fun e =>
      e.rd TS_CMDSTAT_RES = 0 ∧ e.rd TS_CMD_THREAD = t.val ∧ (e.thr t).pri.toNat = q ∧ e.readyAt p = (d.readyAt p).filter (fun (u : Nat) => u ≠ t) ∧ e.readyAt q = d.readyAt q ++ [t.val] ∧ (∀ u, u ≠ t.val → e.thr u = d.thr u) ∧ RegsBut [TS_CMD, TS_CMDSTAT, TS_STAT] d e ∧ e = { d with regs := e.regs, flags := e.flags, sched := e.sched })) ∧
  (∀ (t : Fin 512) (d : Dev),
    (d.thr t).state = 0 →
    d.coreOf t = none →
    d.on TS_CTRL_TREN = false →
    On (.setpri t) d (fun e =>
      e.rd TS_CMDSTAT_RES = 1 ∧ e.rd TS_CMD_THREAD = t.val ∧ OnlyRegs [TS_CMD, TS_CMDSTAT] d e)) ∧
  (∀ (t : Fin 512) (d : Dev),
    (d.thr t).state ≠ 0 →
    d.coreOf t = none →
    d.on TS_CTRL_TREN = false →
    On (.setaff t) d (fun e =>
      e.rd TS_CMDSTAT_RES = 0 ∧ e.rd TS_CMD_THREAD = t.val ∧ e.thr t = { d.thr t with aff := BitVec.ofNat 4 (wbits (d.reg TS_CMDARG) 3 0) } ∧ e.sched = { d.sched with threads := e.sched.threads } ∧ (∀ u, u ≠ t.val → e.thr u = d.thr u) ∧ RegsBut [TS_CMD, TS_CMDSTAT, TS_STAT] d e ∧ e = { d with regs := e.regs, flags := e.flags, sched := e.sched })) ∧
  (∀ (t : Fin 512) (d : Dev),
    (d.thr t).state = 0 →
    d.coreOf t = none →
    d.on TS_CTRL_TREN = false →
    On (.setaff t) d (fun e =>
      e.rd TS_CMDSTAT_RES = 1 ∧ e.rd TS_CMD_THREAD = t.val ∧ OnlyRegs [TS_CMD, TS_CMDSTAT] d e)) ∧
  (∀ (t : Fin 512) (c k : Nat) (d : Dev),
    c < 4 →
    k < 4 →
    (d.thr t).wtv = false →
    d.coreOf t = none →
    d.pendCore t = none →
    (d.thr t).home = some (c, k) →
    ((d.core c).bslot k).move ≠ 1 →
    d.on TS_CTRL_TREN = false →
    On (.kill t) d (fun e =>
      e.rd TS_CMDSTAT_RES = 0 ∧ e.rd TS_CMD_THREAD = t.val ∧ e.thr t = { d.thr t with state := 0, wpend := false, wtt := false, home := none, fresh := true } ∧ (e.core c).bslot k = BankSlot.reset ∧ (∀ x, x ≠ c → e.core x = d.core x) ∧ (∀ p, p < 32 → e.readyAt p = (d.readyAt p).filter (fun (u : Nat) => u ≠ t)) ∧ (∀ u, u ≠ t.val → e.thr u = d.thr u) ∧ RegsBut [TS_CMD, TS_CMDSTAT, TS_STAT, CP_STAT c] d e ∧ e = { d with regs := e.regs, flags := e.flags, sched := e.sched, cores := e.cores })) ∧
  (∀ (t : Fin 512) (d : Dev),
    (d.thr t).state = 3 ∨ (d.thr t).state = 4 →
    (d.thr t).wtv = false →
    t.val ∉ d.sched.woken →
    d.coreOf t = none →
    d.on TS_CTRL_TREN = false →
    On (.wakeCommand t) d (fun e =>
      e.rd TS_CMDSTAT_RES = 0 ∧ e.rd TS_CMD_THREAD = t.val ∧ e.thr t = { d.thr t with wtt := false, wcause := 3, wval := BitVec.ofNat 32 (wbits (d.reg TS_CMDARG) 30 0) } ∧ e.sched.woken = d.sched.woken ++ [t.val] ∧ (∀ u, u ≠ t.val → e.thr u = d.thr u) ∧ RegsBut [TS_CMD, TS_CMDSTAT, TS_STAT] d e ∧ e = { d with regs := e.regs, flags := e.flags, sched := e.sched })) ∧
  (∀ (t : Fin 512) (d : Dev),
    (d.thr t).state = 1 ∨ (d.thr t).state = 2 →
    d.coreOf t = none →
    d.on TS_CTRL_TREN = false →
    On (.wakeCommand t) d (fun e =>
      e.rd TS_CMDSTAT_RES = 0 ∧ e.rd TS_CMD_THREAD = t.val ∧ e.thr t = { d.thr t with wpend := true, wval := BitVec.ofNat 32 (wbits (d.reg TS_CMDARG) 30 0) } ∧ e.sched.woken = d.sched.woken ∧ (∀ u, u ≠ t.val → e.thr u = d.thr u) ∧ RegsBut [TS_CMD, TS_CMDSTAT, TS_STAT] d e ∧ e = { d with regs := e.regs, flags := e.flags, sched := e.sched }))

/-- MM_INV with KIND 3 empties the IO TLB of one address space, or of all; with KIND 2 every core TLB and the shared TLB are emptied; with KIND 0 and 1 the entries of the address and ASID, or of the ASID, leave and the others stay. INVBUSY shows until the invalidation is done. POP removes the oldest IO fault and shows the next. MM_IORES with ABORT ends the transfer of a requester that waits on a fault, with IOFAULT. CLR clears the counters. -/
def Obligations.InvalidationAndIoFaults : Prop :=
  (∀ (v : BitVec 32) (x : Nat) (d : Dev),
    wbit v 0 = true →
    wbits v 2 1 = 3 →
    wbits v 19 16 = x →
    On (.mmInv v) d (fun e =>
      e.mmu = { d.mmu with io := if x = 0 then [] else d.mmu.io.filter (fun t => t.asid ≠ x) } ∧ e.rd MM_STAT_INVBUSY = 1 ∧ RegsBut [MM_INV, MM_STAT] d e ∧ e = { d with regs := e.regs, flags := e.flags, mmu := e.mmu })) ∧
  (∀ (v : BitVec 32) (d : Dev),
    wbit v 0 = true →
    wbits v 2 1 = 2 →
    On (.mmInv v) d (fun e =>
      e.mmu = { d.mmu with l2 := [] } ∧ (∀ c, c < 4 → (e.core c).tlb = []) ∧ e.rd MM_STAT_INVBUSY = 1 ∧ RegsBut [MM_INV, MM_STAT] d e ∧ e = { d with regs := e.regs, flags := e.flags, mmu := e.mmu, cores := e.cores })) ∧
  (∀ (v : BitVec 32) (as : Nat) (d : Dev),
    wbit v 0 = true →
    wbits v 2 1 = 1 →
    wbits v 15 8 = as →
    On (.mmInv v) d (fun e =>
      (∀ t : TlbEnt, t ∈ e.mmu.l2 → t ∈ d.mmu.l2 ∧ t.glob = false ∧ t.asid ≠ as) ∧ (∀ t : TlbEnt, t ∈ d.mmu.l2 → t.glob = false → t.asid ≠ as → t ∈ e.mmu.l2) ∧ e.mmu.io = d.mmu.io ∧ e.rd MM_STAT_INVBUSY = 1 ∧ RegsBut [MM_INV, MM_STAT] d e ∧ e = { d with regs := e.regs, flags := e.flags, mmu := e.mmu, cores := e.cores })) ∧
  (∀ (v : BitVec 32) (as : Nat) (t : TlbEnt) (d : Dev),
    wbit v 0 = true →
    wbits v 2 1 = 0 →
    wbits v 15 8 = as →
    t ∈ d.mmu.l2 →
    t.big = false →
    On (.mmInv v) d (fun e =>
      t ∉ e.mmu.l2 ↔ t.vpn = (d.rd MM_INVVA_LO_VA * 4096 + d.rd MM_INVVA_HI_VA * 2 ^ 32) / 4096 % 2 ^ 28 ∧ (t.glob = true ∨ t.asid = as))) ∧
  (∀ (v : BitVec 32) (d : Dev),
    wbit v 0 = false →
    On (.mmInv v) d (fun e =>
      e.mmu = d.mmu ∧ OnlyRegs [MM_INV] d e)) ∧
  (∀ d : Dev,
    On .mmInvDone d (fun e =>
      e.rd MM_STAT_INVBUSY = 0 ∧ OnlyRegs [MM_STAT] d e)) ∧
  (∀ (f g : IoFault) (rest : List IoFault) (d : Dev),
    d.mmu.faults = f :: g :: rest →
    g.req < 256 ∧ g.ioas < 16 ∧ g.acc < 4 ∧ g.lvl < 4 ∧ g.kind < 16 ∧ g.va < 2 ^ 40 →
    d.mmu.waiting = [] →
    On .iofqPop d (fun e =>
      e.mmu = { d.mmu with faults := g :: rest } ∧ e.rd MM_STAT_FQNE = 1 ∧ e.rd MM_STAT_FQLEN = (rest.length + 1) % 16 ∧ (e.reg MM_IOFQ_SRC).toNat % 256 = g.req ∧ wbits (e.reg MM_IOFQ_SRC) 11 8 = g.ioas ∧ wbit (e.reg MM_IOFQ_SRC) 31 = true ∧ (e.reg MM_IOFQ_VA_LO).toNat + (e.reg MM_IOFQ_VA_HI).toNat * 2 ^ 32 = g.va ∧ RegsBut [MM_STAT, MM_IOFQ_SRC, MM_IOFQ_VA_LO, MM_IOFQ_VA_HI] d e ∧ e = { d with regs := e.regs, flags := e.flags, mmu := e.mmu })) ∧
  (∀ (f : IoFault) (d : Dev),
    d.mmu.faults = [f] →
    d.mmu.waiting = [] →
    On .iofqPop d (fun e =>
      e.mmu = { d.mmu with faults := [] } ∧ e.rd MM_STAT_FQNE = 0 ∧ e.rd MM_STAT_FQLEN = 0 ∧ e.reg MM_IOFQ_SRC = 0 ∧ RegsBut [MM_STAT, MM_IOFQ_SRC, MM_IOFQ_VA_LO, MM_IOFQ_VA_HI] d e ∧ e = { d with regs := e.regs, flags := e.flags, mmu := e.mmu })) ∧
  (∀ (v : BitVec 32) (k : Fin 4) (x : Xfer) (n : Nat) (d : Dev),
    wbit v 31 = true →
    wbit v 8 = true →
    wbits v 7 0 = k.val →
    d.net.stall = false →
    k.val ∈ d.mmu.stopped →
    tget none d.net.eng k = some x →
    x.phase = 3 →
    wbit x.w0 15 = false →
    d.rd (DM_ENGe_CNT1_ERRC k) = n →
    n < 65535 →
    On (.iores v) d (fun e =>
      tget none e.net.eng k = none ∧ e.rd (DM_ENGe_STAT_BUSY k) = 0 ∧ e.rd (DM_ENGe_STAT_ERR k) = 1 ∧ e.rd (DM_ENGe_STAT_CODE k) = 6 ∧ e.rd (DM_ENGe_CNT1_ERRC k) = n + 1 ∧ e.mmu = { d.mmu with stopped := d.mmu.stopped.filter (fun q => q ≠ k.val) } ∧ (∀ c, c < 4 → e.rdBit (CP_IPEND_PEND c) 7 = true) ∧ (∀ j, j ≠ k.val → tget none e.net.eng j = tget none d.net.eng j) ∧ e.mem = d.mem)) ∧
  (∀ (v : BitVec 32) (d : Dev),
    wbit v 31 = false ∨ wbits v 7 0 ∉ d.mmu.stopped →
    On (.iores v) d (fun e =>
      OnlyRegs [MM_IORES] d e)) ∧
  (∀ d : Dev,
    On .mmClr d (fun e =>
      e.reg MM_CNT0 = 0 ∧ e.reg MM_CNT1 = 0 ∧ OnlyRegs [MM_CNT0, MM_CNT1] d e))

/-- A route that R282 refuses sets RTERR; a valid one waits as the NI's commit, one at a time, with RTBUSY. When no request to the destination is unanswered the entry takes the route and the held packets go on; after 1,600 ACLK with one unanswered the commit is given up with RTTO. APPLY of a division in which a VC has fewer than 5 flits or all have more than 32 answers BADCFG; otherwise the router holds until the queues are empty, and the division applies, or until 1,600 ACLK have passed, and the old one stays. CLR clears every NI counter and PN_OFFCNT. -/
def Obligations.RoutesAndQueueDivisions : Prop :=
  (∀ (i t : Fin 40) (v : BitVec 32) (d : Dev),
    routeOk i t (d.reg (PN_RTi_d_LO i t)) (w32 (Nat.land v.toNat 0x803F000F)) = false →
    On (.routeCommit i t v) d (fun e =>
      e.on (PN_NIi_STAT_RTERR i) = true ∧ OnlyRegs [PN_NIi_STAT i] d e)) ∧
  (∀ (i t : Fin 40) (v : BitVec 32) (d : Dev),
    routeOk i t (d.reg (PN_RTi_d_LO i t)) (w32 (Nat.land v.toNat 0x803F000F)) = true →
    d.routeWait i = none →
    On (.routeCommit i t v) d (fun e =>
      e.routeWait i = some { dest := t, lo := d.reg (PN_RTi_d_LO i t), hi := w32 (Nat.land v.toNat 0x803F000F), at_ := d.now } ∧ e.on (PN_NIi_STAT_RTBUSY i) = true ∧ (∀ j, j ≠ i.val → e.routeWait j = d.routeWait j) ∧ e.net.routes = d.net.routes ∧ RegsBut [PN_NIi_STAT i] d e ∧ e = { d with regs := e.regs, flags := e.flags, net := e.net })) ∧
  (∀ (i t : Fin 40) (v : BitVec 32) (c : RouteCommit) (d : Dev),
    routeOk i t (d.reg (PN_RTi_d_LO i t)) (w32 (Nat.land v.toNat 0x803F000F)) = true →
    d.routeWait i = some c →
    On (.routeCommit i t v) d (fun e =>
      e.on PN_STAT_CFGERR = true ∧ OnlyRegs [PN_STAT] d e)) ∧
  (∀ (i : Fin 40) (c : RouteCommit) (d : Dev),
    d.routeWait i = some c →
    c.dest < 40 →
    d.outstanding i c.dest = 0 →
    d.outstandingOf i + (d.net.reqs.filter (fun p => decide (p.src = i.val) && p.held)).length ≤ 64 →
    On (.routeCommitDone i) d (fun e =>
      e.routeWait i = none ∧ e.on (PN_NIi_STAT_RTBUSY i) = false ∧ tget none e.net.routes (i * 64 + c.dest) = some (c.lo, c.hi) ∧ e.reg (PN_RTi_d_LO i c.dest) = c.lo ∧ e.reg (PN_RTi_d_HI i c.dest) = c.hi ∧ e.net.reqs = d.net.reqs.map (fun (p : Packet) => if p.src = i.val then { p with held := false } else p) ∧ e.net.resps = d.net.resps.map (fun (p : Packet) => if p.dst = i.val then { p with held := false } else p) ∧ e.net.msgs = d.net.msgs.map (fun (p : Packet) => if p.src = i.val then { p with held := false } else p) ∧ (∀ k, k ≠ i.val * 64 + c.dest → tget none e.net.routes k = tget none d.net.routes k) ∧ RegsBut [PN_NIi_STAT i, PN_RTi_d_LO i c.dest, PN_RTi_d_HI i c.dest] d e ∧ e = { d with regs := e.regs, flags := e.flags, net := e.net })) ∧
  (∀ (i : Fin 40) (d : Dev),
    (d.routeWait i).all (fun c => decide (d.outstanding i c.dest ≠ 0)) = true →
    On (.routeCommitDone i) d (fun e =>
      e = d)) ∧
  (∀ (i : Fin 40) (c : RouteCommit) (d : Dev),
    d.routeWait i = some c →
    c.dest < 40 →
    c.at_ + 1600 ≤ d.now →
    d.outstanding i c.dest ≠ 0 →
    d.outstandingOf i + (d.net.reqs.filter (fun p => decide (p.src = i.val) && p.held)).length ≤ 64 →
    On (.routeCommitTimeout i) d (fun e =>
      e.routeWait i = none ∧ e.on (PN_NIi_STAT_RTBUSY i) = false ∧ e.on (PN_NIi_STAT_RTTO i) = true ∧ e.net.routes = d.net.routes ∧ e.net.reqs = d.net.reqs.map (fun (p : Packet) => if p.src = i.val then { p with held := false } else p) ∧ e.net.resps = d.net.resps.map (fun (p : Packet) => if p.dst = i.val then { p with held := false } else p) ∧ e.net.msgs = d.net.msgs.map (fun (p : Packet) => if p.src = i.val then { p with held := false } else p) ∧ RegsBut [PN_NIi_STAT i] d e ∧ e = { d with regs := e.regs, flags := e.flags, net := e.net })) ∧
  (∀ (i : Fin 40) (c : RouteCommit) (d : Dev),
    d.routeWait i = some c →
    d.now < c.at_ + 1600 ∨ d.outstanding i c.dest = 0 →
    On (.routeCommitTimeout i) d (fun e =>
      e = d)) ∧
  (∀ (r : Fin 24) (a b x y : Nat) (d : Dev),
    d.rd ⟨PN_RTRr_QCFG r, 3, 0⟩ = a →
    d.rd ⟨PN_RTRr_QCFG r, 7, 4⟩ = b →
    d.rd ⟨PN_RTRr_QCFG r, 11, 8⟩ = x →
    d.rd ⟨PN_RTRr_QCFG r, 15, 12⟩ = y →
    tget none d.net.hold r = none →
    a < 5 ∨ b < 5 ∨ x < 5 ∨ y < 5 ∨ 32 < a + b + x + y →
    On (.qcfgApply r) d (fun e =>
      e.rd (PN_RTRr_CST_RES r) = 3 ∧ OnlyRegs [PN_RTRr_CST r] d e)) ∧
  (∀ (r : Fin 24) (a b x y : Nat) (d : Dev),
    d.rd ⟨PN_RTRr_QCFG r, 3, 0⟩ = a →
    d.rd ⟨PN_RTRr_QCFG r, 7, 4⟩ = b →
    d.rd ⟨PN_RTRr_QCFG r, 11, 8⟩ = x →
    d.rd ⟨PN_RTRr_QCFG r, 15, 12⟩ = y →
    tget none d.net.hold r = none →
    5 ≤ a ∧ 5 ≤ b ∧ 5 ≤ x ∧ 5 ≤ y ∧ a + b + x + y ≤ 32 →
    On (.qcfgApply r) d (fun e =>
      e.rd (PN_RTRr_CST_RES r) = 1 ∧ tget none e.net.hold r = some (d.now, BitVec.ofNat 16 (a + 16 * b + 256 * x + 4096 * y)) ∧ e.net.qcfg = d.net.qcfg ∧ RegsBut [PN_RTRr_CST r] d e ∧ e = { d with regs := e.regs, flags := e.flags, net := e.net })) ∧
  (∀ (r : Fin 24) (u : Nat) (v : BitVec 16) (d : Dev),
    tget none d.net.hold r = some (u, v) →
    d.heldEmpty r = true →
    On (.qcfgApplyDone r) d (fun e =>
      e.division r = v ∧ tget none e.net.hold r = none ∧ e.rd (PN_RTRr_CST_RES r) = 0 ∧ (∀ x, x ≠ r.val → e.division x = d.division x) ∧ RegsBut [PN_RTRr_CST r] d e ∧ e = { d with regs := e.regs, flags := e.flags, net := e.net })) ∧
  (∀ (r : Fin 24) (u : Nat) (v : BitVec 16) (d : Dev),
    tget none d.net.hold r = some (u, v) →
    u + 1600 ≤ d.now →
    d.heldEmpty r = false →
    On (.qcfgTimeout r) d (fun e =>
      e.net.qcfg = d.net.qcfg ∧ tget none e.net.hold r = none ∧ e.rd (PN_RTRr_CST_RES r) = 2 ∧ RegsBut [PN_RTRr_CST r] d e ∧ e = { d with regs := e.regs, flags := e.flags, net := e.net })) ∧
  (∀ (r : Fin 24) (d : Dev),
    (tget none d.net.hold r).all (fun h => decide (d.now < h.1 + 1600) || d.heldEmpty r) = true →
    On (.qcfgTimeout r) d (fun e =>
      e = d)) ∧
  (∀ (r : Fin 24) (d : Dev),
    d.heldEmpty r = false →
    On (.qcfgApplyDone r) d (fun e =>
      e = d)) ∧
  (∀ (i : Fin 40) (k : Fin 8) (d : Dev),
    On .pnClr d (fun e =>
      e.reg PN_OFFCNT = 0 ∧ e.reg (PN_NIi_HISTk i k) = 0 ∧ e.rd64 (PN_NIi_RDB_LO i) (PN_NIi_RDB_HI i) = 0 ∧ e.rd64 (PN_NIi_WRB_LO i) (PN_NIi_WRB_HI i) = 0 ∧ e.reg (PN_NIi_MAXLAT i) = 0 ∧ e = { d with regs := e.regs, flags := e.flags }))

/-- A trigger for an enabled engine with fewer than eight queued joins its queue; any other is dropped, counted and sets QOVR. An idle engine takes its next trigger and reads its descriptor; a bad table entry ends it with BADDESC. A descriptor with every byte written completes: DONE counts it, its token goes to the scheduler, and the engine is idle where nothing is chained. An abort lets what is outstanding end and then ends the descriptor with ABORTED. A request of a target out of service is answered OFFLINE and counted; another is executed and answered. An arriving response counts its bytes and its latency and the requester goes on: the bytes read are written, the bytes written are counted. A host read unanswered within HL_CPLTO ends with DECERR. -/
def Obligations.DmaEnginesAndPackets : Prop :=
  (∀ (k : Fin 4) (t : Fin 64) (d : Dev),
    d.on (DM_ENGe_CFG_EN k) = true →
    (d.dmaQueue k).length < 8 →
    On (.dmaTrig k t) d (fun e =>
      e.dmaQueue k = d.dmaQueue k ++ [t.val] ∧ e.rd (DM_ENGe_STAT_QLEN k) = (d.dmaQueue k).length + 1 ∧ (∀ j, j ≠ k.val → e.dmaQueue j = d.dmaQueue j) ∧ RegsBut [DM_ENGe_TRIG k, DM_ENGe_STAT k] d e ∧ e = { d with regs := e.regs, flags := e.flags, net := e.net })) ∧
  (∀ (k : Fin 4) (t : Fin 64) (n : Nat) (d : Dev),
    d.on (DM_ENGe_CFG_EN k) = false ∨ 8 ≤ (d.dmaQueue k).length →
    d.rd (DM_ENGe_CNT1_DROPC k) = n →
    n < 65535 →
    On (.dmaTrig k t) d (fun e =>
      e.rd (DM_ENGe_CNT1_DROPC k) = n + 1 ∧ e.on (DM_ENGe_STAT_QOVR k) = true ∧ e.net = d.net ∧ e.mem = d.mem)) ∧
  (∀ (k : Fin 4) (t : Nat) (rest : List Nat) (d : Dev),
    d.dmaQueue k = t :: rest →
    tget none d.net.eng k = none →
    d.on (DM_ENGe_CFG_EN k) = true →
    ((d.setDmaQueue k rest).niRead (28 + k) (d.rd (DM_ENGe_TTB_LO_ADDR k) * 512 + d.rd (DM_ENGe_TTB_HI_ADDR k) * 2 ^ 32 + 8 * t) 8).1.1 = 0 →
    ((d.setDmaQueue k rest).niRead (28 + k) (d.rd (DM_ENGe_TTB_LO_ADDR k) * 512 + d.rd (DM_ENGe_TTB_HI_ADDR k) * 2 ^ 32 + 8 * t) 8).1.2 = [1, 0, 0, 0, 0, 0, 0, 0] →
    ((d.setDmaQueue k rest).niRead (28 + k) (d.rd (DM_ENGe_TTB_LO_ADDR k) * 512 + d.rd (DM_ENGe_TTB_HI_ADDR k) * 2 ^ 32 + 8 * t) 8).2.net.stall = false →
    On (.dmaChainStart k) d (fun e =>
      tget none e.net.eng k = none ∧ e.dmaQueue k = rest ∧ e.rd (DM_ENGe_STAT_ERR k) = 1 ∧ e.rd (DM_ENGe_STAT_CODE k) = 5 ∧ (∀ j, j ≠ k.val → tget none e.net.eng j = tget none d.net.eng j))) ∧
  (∀ (k : Fin 4) (t a : Nat) (rest : List Nat) (ws : List (BitVec 32)) (d : Dev),
    d.dmaQueue k = t :: rest →
    tget none d.net.eng k = none →
    d.on (DM_ENGe_CFG_EN k) = true →
    ((d.setDmaQueue k rest).niRead (28 + k) (d.rd (DM_ENGe_TTB_LO_ADDR k) * 512 + d.rd (DM_ENGe_TTB_HI_ADDR k) * 2 ^ 32 + 8 * t) 8).1.1 = 0 →
    bytesNat ((d.setDmaQueue k rest).niRead (28 + k) (d.rd (DM_ENGe_TTB_LO_ADDR k) * 512 + d.rd (DM_ENGe_TTB_HI_ADDR k) * 2 ^ 32 + 8 * t) 8).1.2 = a →
    a < 2 ^ 40 →
    a % 32 = 0 →
    (((d.setDmaQueue k rest).niRead (28 + k) (d.rd (DM_ENGe_TTB_LO_ADDR k) * 512 + d.rd (DM_ENGe_TTB_HI_ADDR k) * 2 ^ 32 + 8 * t) 8).2.niRead (niOfReq k) a 32).1.1 = 0 →
    bytesWords (((d.setDmaQueue k rest).niRead (28 + k) (d.rd (DM_ENGe_TTB_LO_ADDR k) * 512 + d.rd (DM_ENGe_TTB_HI_ADDR k) * 2 ^ 32 + 8 * t) 8).2.niRead (niOfReq k) a 32).1.2 8 = ws →
    (((d.setDmaQueue k rest).niRead (28 + k) (d.rd (DM_ENGe_TTB_LO_ADDR k) * 512 + d.rd (DM_ENGe_TTB_HI_ADDR k) * 2 ^ 32 + 8 * t) 8).2.niRead (niOfReq k) a 32).2.net.stall = false →
    d.outstandingOf (niOfReq k) < 64 →
    badDesc k (xferOf t a ws) ws = false →
    (xferOf t a ws).fill = false →
    wbits (xferOf t a ws).w0 13 12 = 0 →
    wbits (xferOf t a ws).w0 11 4 = 0 →
    areaOf (d.rd (DM_ENGe_TTB_LO_ADDR k) * 512 + d.rd (DM_ENGe_TTB_HI_ADDR k) * 2 ^ 32 + 8 * t) = 2 →
    areaOf a = 2 →
    d.routeWait (niOfReq k) = none →
    On (.dmaChainStart k) d (fun e =>
      tget none e.net.eng k = some { xferOf t a ws with dpa := (xferOf t a ws).dst, phase := 1 } ∧ e.dmaQueue k = rest ∧ e.rd (DM_ENGe_STAT_BUSY k) = 1 ∧ e.rd (DM_ENGe_STAT_TRIG k) = t % 64 ∧ e.net.reqs = d.net.reqs ++ [d.reqPacket k (xferOf t a ws).src (xferOf t a ws).chunk (wbit (xferOf t a ws).w0 14) false false []] ∧ (∀ j, j ≠ k.val → tget none e.net.eng j = tget none d.net.eng j))) ∧
  (∀ (k : Fin 4) (d : Dev),
    d.dmaQueue k = [] ∨ (tget none d.net.eng k).isSome = true ∨ d.on (DM_ENGe_CFG_EN k) = false →
    On (.dmaChainStart k) d (fun e =>
      e = d)) ∧
  (∀ (k : Fin 4) (x : Xfer) (n : Nat) (d : Dev),
    tget none d.net.eng k = some x →
    x.phase = 0 →
    x.len ≤ x.prog →
    x.err = none →
    wbit x.w0 2 = false →
    wbit x.w0 3 = true →
    d.rd (DM_ENGe_CNT0_DONE k) = n →
    n < 65535 →
    d.schedWait = [] →
    d.schedIn.length < 64 →
    d.net.stall = false →
    On (.dmaDescComplete k) d (fun e =>
      tget none e.net.eng k = none ∧ e.rd (DM_ENGe_STAT_BUSY k) = 0 ∧ e.rd (DM_ENGe_CNT0_DONE k) = n + 1 ∧ { wake := false, num := wbits x.w0 27 16, value := 0, cls := 1, at_ := d.now } ∈ e.schedIn ∧ e.schedIn.length = d.schedIn.length + 1 ∧ (∀ j, j ≠ k.val → tget none e.net.eng j = tget none d.net.eng j) ∧ RegsBut [DM_ENGe_STAT k, DM_ENGe_CNT0 k] d e ∧ e = { d with regs := e.regs, flags := e.flags, net := e.net, schedIn := e.schedIn })) ∧
  (∀ (k : Fin 4) (d : Dev),
    (tget none d.net.eng k).all (fun x => decide (x.phase ≠ 0 ∨ x.prog < x.len ∨ x.err ≠ none)) = true →
    On (.dmaDescComplete k) d (fun e =>
      e = d)) ∧
  (∀ (k : Fin 4) (x : Xfer) (d : Dev),
    tget none d.net.eng k = some x →
    x.phase = 1 ∨ x.phase = 2 →
    d.net.stall = false →
    On (.dmaAbort k) d (fun e =>
      tget none e.net.eng k = some { x with err := some 7 } ∧ (∀ j, j ≠ k.val → tget none e.net.eng j = tget none d.net.eng j) ∧ e.net = { d.net with eng := e.net.eng } ∧ e.rd (DM_ENGe_STAT_BUSY k) = 1 ∧ e = { d with regs := e.regs, flags := e.flags, net := e.net })) ∧
  (∀ (k : Fin 4) (x : Xfer) (d : Dev),
    tget none d.net.eng k = some x →
    x.phase = 3 →
    wbit x.w0 15 = false →
    d.net.stall = false →
    On (.dmaAbort k) d (fun e =>
      tget none e.net.eng k = none ∧ e.rd (DM_ENGe_STAT_ERR k) = 1 ∧ e.rd (DM_ENGe_STAT_CODE k) = 7 ∧ (∀ j, j ≠ k.val → tget none e.net.eng j = tget none d.net.eng j) ∧ k.val ∉ e.mmu.stopped ∧ e.schedIn = d.schedIn ∧ e.mem = d.mem)) ∧
  (∀ (k : Fin 4) (d : Dev),
    tget none d.net.eng k = none →
    On (.dmaAbort k) d (fun e =>
      e = d)) ∧
  (∀ (i : Fin 40) (p : Packet) (n : Nat) (d : Dev),
    d.niClosed i = true →
    d.nextReq i = some p →
    d.net.reqs = [p] →
    d.rd PN_OFFCNT_CNT = n →
    n < 4294967295 →
    d.routeWait p.dst = none →
    On (.packetRequestArrival i) d (fun e =>
      e.net = { d.net with reqs := [], resps := d.net.resps ++ [{ p with status := 3, data := [], held := false, vc := 1, codes := [], legs := [] }] } ∧ e.rd PN_OFFCNT_CNT = n + 1 ∧ e.mem = d.mem)) ∧
  (∀ (i : Fin 40) (p : Packet) (d : Dev),
    d.niClosed i = false →
    i.val < 36 ∨ i.val = 39 →
    d.nextReq i = some p →
    d.net.reqs = [p] →
    p.write = true →
    (({ d with net := { d.net with reqs := [] } } : Dev).busWrite p.addr p.data).2.routeWait p.dst = none →
    On (.packetRequestArrival i) d (fun e =>
      e = { (({ d with net := { d.net with reqs := [] } } : Dev).busWrite p.addr p.data).2 with net := { (({ d with net := { d.net with reqs := [] } } : Dev).busWrite p.addr p.data).2.net with resps := (({ d with net := { d.net with reqs := [] } } : Dev).busWrite p.addr p.data).2.net.resps ++ [{ p with status := (({ d with net := { d.net with reqs := [] } } : Dev).busWrite p.addr p.data).1, data := [], held := false, vc := 1, codes := [], legs := [] }] } })) ∧
  (∀ (i : Fin 40) (p : Packet) (d : Dev),
    d.niClosed i = false →
    i.val < 36 ∨ i.val = 39 →
    d.nextReq i = some p →
    d.net.reqs = [p] →
    p.write = false →
    (({ d with net := { d.net with reqs := [] } } : Dev).busRead p.addr p.len).2.routeWait p.dst = none →
    On (.packetRequestArrival i) d (fun e =>
      e = { (({ d with net := { d.net with reqs := [] } } : Dev).busRead p.addr p.len).2 with net := { (({ d with net := { d.net with reqs := [] } } : Dev).busRead p.addr p.len).2.net with resps := (({ d with net := { d.net with reqs := [] } } : Dev).busRead p.addr p.len).2.net.resps ++ [{ p with status := (({ d with net := { d.net with reqs := [] } } : Dev).busRead p.addr p.len).1.1, data := (({ d with net := { d.net with reqs := [] } } : Dev).busRead p.addr p.len).1.2, held := false, vc := 1, codes := [], legs := [] }] } })) ∧
  (∀ (i : Fin 40) (d : Dev),
    d.nextReq i = none →
    On (.packetRequestArrival i) d (fun e =>
      e = d)) ∧
  (∀ (i : Fin 40) (p : Packet) (k : Fin 4) (x : Xfer) (d : Dev),
    d.net.resps = [p] →
    p.there d.now = true →
    d.net.stall = false →
    d.net.reqs.all (fun q => decide (q.src ≠ i.val) || !q.held) = true →
    p.src = i.val →
    p.req = k.val →
    tget none d.net.eng k = some x →
    x.err = none →
    p.status = 0 →
    p.write = false →
    wbit x.w0 13 = false →
    d.routeWait (niOfReq k) = none →
    d.outstandingOf (niOfReq k) < 64 →
    d.on PN_CTRL_STATEN = false →
    On (.packetResponseArrival i) d (fun e =>
      tget none e.net.eng k = some { x with phase := 2 } ∧ e.net.resps = [] ∧ e.net.reqs = d.net.reqs ++ [{ src := niOfReq k, dst := d.niOf x.dpa, req := k, write := true, addr := x.dpa, host := false, len := p.len, data := p.data, status := 0, at_ := d.now, held := false, vc := if wbit x.w0 14 then 0 else 2, codes := [], legs := [] }] ∧ e.mem = d.mem ∧ (∀ j, j ≠ k.val → tget none e.net.eng j = tget none d.net.eng j))) ∧
  (∀ (i : Fin 40) (p : Packet) (k : Fin 4) (x : Xfer) (n m : Nat) (d : Dev),
    d.net.resps = [p] →
    p.there d.now = true →
    d.net.stall = false →
    d.net.reqs.all (fun q => decide (q.src ≠ i.val) || !q.held) = true →
    p.src = i.val →
    p.req = k.val →
    tget none d.net.eng k = some x →
    x.err = none →
    p.status = 0 →
    p.write = true →
    x.len ≤ x.prog + p.len →
    d.on PN_CTRL_STATEN = true →
    p.headAt = p.at_ + n →
    n < 65536 →
    latencyBin n = m →
    (d.reg (PN_NIi_HISTk i m)).toNat < 4294967295 →
    On (.packetResponseArrival i) d (fun e =>
      tget none e.net.eng k = some { x with phase := 0, prog := x.prog + p.len } ∧ e.rd (DM_ENGe_PROG_BYTES k) = (x.prog + p.len) % 16777216 ∧ (e.reg (PN_NIi_HISTk i m)).toNat = (d.reg (PN_NIi_HISTk i m)).toNat + 1 ∧ e.rd (PN_NIi_MAXLAT_LAT i) = max (d.rd (PN_NIi_MAXLAT_LAT i)) n ∧ e.net.resps = [] ∧ e.net.reqs = d.net.reqs ∧ e.mem = d.mem ∧ (∀ j, j ≠ k.val → tget none e.net.eng j = tget none d.net.eng j))) ∧
  (∀ (i : Fin 40) (p : Packet) (k : Fin 4) (x : Xfer) (d : Dev),
    d.net.resps = [p] →
    p.there d.now = true →
    d.net.stall = false →
    d.net.reqs.all (fun q => decide (q.src ≠ i.val) || !q.held) = true →
    p.src = i.val →
    p.req = k.val →
    tget none d.net.eng k = some x →
    x.err = none →
    p.status ≠ 0 →
    p.status < 16 →
    wbit x.w0 15 = false →
    On (.packetResponseArrival i) d (fun e =>
      tget none e.net.eng k = none ∧ e.rd (DM_ENGe_STAT_ERR k) = 1 ∧ e.rd (DM_ENGe_STAT_CODE k) = p.status ∧ e.net.resps = [] ∧ e.net.reqs = d.net.reqs ∧ e.mem = d.mem ∧ (∀ j, j ≠ k.val → tget none e.net.eng j = tget none d.net.eng j))) ∧
  (∀ (k : Fin 4) (p : Packet) (x : Xfer) (n : Nat) (d : Dev),
    d.net.reqs = [p] →
    p.req = k.val →
    p.host = true →
    p.write = false →
    p.held = false →
    p.at_ + 800000 * max 1 (d.rd HL_CPLTO_MS) ≤ d.now →
    tget none d.net.eng k = some x →
    x.err = none →
    wbit x.w0 15 = false →
    d.rd HL_CNT1_CPLTO = n →
    n < 65535 →
    On (.hostReadTimeout k) d (fun e =>
      tget none e.net.eng k = none ∧ e.rd (DM_ENGe_STAT_CODE k) = 1 ∧ e.rd (DM_ENGe_STAT_ERR k) = 1 ∧ e.rd HL_CNT1_CPLTO = n + 1 ∧ e.net.reqs = [] ∧ e.mem = d.mem ∧ (∀ j, j ≠ k.val → tget none e.net.eng j = tget none d.net.eng j))) ∧
  (∀ (k : Fin 4) (d : Dev),
    On (.dmClrcnt k) d (fun e =>
      e.reg (DM_ENGe_CNT0 k) = 0 ∧ e.reg (DM_ENGe_CNT1 k) = 0 ∧ OnlyRegs [DM_ENGe_CNT0 k, DM_ENGe_CNT1 k] d e))

/-- A due read of a background walk whose word holds no error only moves the walk on, and counts the pass after its last word; a correctable error is corrected, logged, and counted in its region's bucket; an uncorrectable one is logged in MI_UELOG with the walk's source. A read of the configuration scrubber moves it on; an uncorrectable word of the event table removes the entry; one of an isle's active copy is an F1 fault of the isle. A merge-buffer entry that no write has reached for MI_MBCFG.IDLE ACLK is flushed with new check bits. A leak takes one from a bucket. CTL arms a flip mask; CLR clears the MI counters and every bucket. -/
def Obligations.ScrubbersAndBuckets : Prop :=
  (∀ (w : Fin 101) (a : Nat) (d : Dev),
    d.integ.tmr = [] →
    d.on MI_CTRL_BGEN = true →
    d.walkUp w = true →
    tget 0 d.integ.walkAt w + d.walkInt w ≤ d.now →
    (walkMem w).1 + (walkMem w).2.1 * tget 0 d.integ.walkPos w = a →
    d.hasEntry a = false →
    d.wordErr a = 0 →
    tget 0 d.integ.walkPos w + 1 < (walkMem w).2.2 →
    On (.bgScrubRead w) d (fun e =>
      tget 0 e.integ.walkPos w = (tget 0 d.integ.walkPos w + 1) % (walkMem w).2.2 ∧ tget 0 e.integ.walkAt w = d.now ∧ (∀ x, x ≠ w.val → tget 0 e.integ.walkPos x = tget 0 d.integ.walkPos x) ∧ e.integ = { d.integ with walkPos := e.integ.walkPos, walkAt := e.integ.walkAt } ∧ e = { d with integ := e.integ })) ∧
  (∀ (w : Fin 101) (a n : Nat) (d : Dev),
    w.val = 97 →
    d.integ.tmr = [] →
    d.on MI_CTRL_BGEN = true →
    d.walkUp w = true →
    tget 0 d.integ.walkAt w + d.walkInt w ≤ d.now →
    (walkMem w).1 + (walkMem w).2.1 * tget 0 d.integ.walkPos w = a →
    d.hasEntry a = false →
    d.wordErr a = 0 →
    tget 0 d.integ.walkPos w = 0xFFFF →
    d.rd MI_PASS1_CSR = n →
    n < 65535 →
    On (.bgScrubRead w) d (fun e =>
      tget 0 e.integ.walkPos w = 0 ∧ e.rd MI_PASS1_CSR = n + 1 ∧ RegsBut [MI_PASS1] d e ∧ e = { d with integ := e.integ, regs := e.regs })) ∧
  (∀ (w : Fin 101) (a r : Nat) (d : Dev),
    d.integ.tmr = [] →
    d.on MI_CTRL_BGEN = true →
    d.walkUp w = true →
    tget 0 d.integ.walkAt w + d.walkInt w ≤ d.now →
    (walkMem w).1 + (walkMem w).2.1 * tget 0 d.integ.walkPos w = a →
    d.hasEntry a = false →
    d.wordErr a = 1 →
    regionOf a = some r →
    (d.bucket r).count + 1 < d.rd (MI_LBk_THRESH (regionClass r)) →
    d.now ≤ (d.bucket r).leak + 800000 * max 1 (d.rd (MI_LBk_LEAKP (regionClass r))) →
    (∀ k : Fin 4, d.on (MI_FLIPk_CTL_ARM k) = false) →
    d.integ.flipUsed = [] →
    On (.bgScrubRead w) d (fun e =>
      tget 0 e.integ.walkPos w = (tget 0 d.integ.walkPos w + 1) % (walkMem w).2.2 ∧ tget 0 e.integ.walkAt w = d.now ∧ (∀ x, x ≠ w.val → tget 0 e.integ.walkPos x = tget 0 d.integ.walkPos x) ∧ e.wordErr a = 0 ∧ e.bucket r = { d.bucket r with count := (d.bucket r).count + 1 } ∧ e.rd MI_CELOG_LO_ADDR = a % 4294967296 ∧ e.rd MI_CELOG_HI_REGION = r % 256 ∧ (∀ k, k ≠ codeWord a → tget 0#72 e.integ.ecc k = tget 0#72 d.integ.ecc k) ∧ e.mem = d.mem ∧ e.ev = d.ev)) ∧
  (∀ (w : Fin 101) (a r : Nat) (d : Dev),
    d.integ.tmr = [] →
    d.on MI_CTRL_BGEN = true →
    d.walkUp w = true →
    tget 0 d.integ.walkAt w + d.walkInt w ≤ d.now →
    (walkMem w).1 + (walkMem w).2.1 * tget 0 d.integ.walkPos w = a →
    d.hasEntry a = false →
    d.wordErr a = 2 →
    regionOf a = some r →
    d.on MI_UELOG_HI_VALID = false →
    On (.bgScrubRead w) d (fun e =>
      tget 0 e.integ.walkPos w = (tget 0 d.integ.walkPos w + 1) % (walkMem w).2.2 ∧ tget 0 e.integ.walkAt w = d.now ∧ (∀ x, x ≠ w.val → tget 0 e.integ.walkPos x = tget 0 d.integ.walkPos x) ∧ e.integ.ecc = d.integ.ecc ∧ e.rd MI_STAT_UE = 1 ∧ e.rd MI_UELOG_LO_ADDR = a % 4294967296 ∧ e.rd MI_UELOG_HI_REGION = r % 256 ∧ e.rd MI_UELOG_HI_SRC = 1 ∧ e.rd MI_UELOG_HI_VALID = 1 ∧ (∀ c, c < 4 → e.rdBit (CP_IPEND_PEND c) 3 = true) ∧ e.mem = d.mem)) ∧
  (∀ (w : Fin 101) (d : Dev),
    d.integ.tmr = [] →
    d.on MI_CTRL_BGEN = false ∨ d.walkUp w = false ∨ d.now < tget 0 d.integ.walkAt w + d.walkInt w →
    On (.bgScrubRead w) d (fun e =>
      e = d)) ∧
  (∀ d : Dev,
    d.integ.tmr = [] →
    d.on MI_CTRL_CFGEN = true →
    d.integ.cfgAt + max 1 (d.rd MI_CFG_INT_INT) ≤ d.now →
    d.integ.ecc = [] →
    d.integ.crc = [] →
    d.integ.cfgPos < 262143 →
    On .cfgScrubRead d (fun e =>
      e.integ = { d.integ with cfgPos := d.integ.cfgPos + 1, cfgAt := d.now, walkFrame := e.integ.walkFrame } ∧ e = { d with integ := e.integ })) ∧
  (∀ (k : Nat) (d : Dev),
    d.integ.tmr = [] →
    d.on MI_CTRL_CFGEN = true →
    d.integ.cfgAt + max 1 (d.rd MI_CFG_INT_INT) ≤ d.now →
    d.integ.cfgPos = 196608 + k →
    k < 65535 →
    d.wordErr (0x41000000 + 8 * k) = 2 →
    (d.entry (k / 2)).isSome = true →
    On .cfgScrubRead d (fun e =>
      e.entry (k / 2) = none ∧ (∀ i, i ≠ k / 2 → e.entry i = d.entry i) ∧ e.wordErr (0x41000000 + 8 * k) = 0 ∧ e.integ.cfgPos = d.integ.cfgPos + 1 ∧ e.rd MI_STAT_UE = 1 ∧ e.mem = d.mem)) ∧
  (∀ (n f : Nat) (d : Dev),
    d.integ.tmr = [] →
    d.on MI_CTRL_CFGEN = true →
    d.integ.cfgAt + max 1 (d.rd MI_CFG_INT_INT) ≤ d.now →
    n < 96 →
    f < 16 →
    d.integ.cfgPos = n * 512 + f * 32 →
    d.wordErr ((frameWords (d.isle n).copy n f).getD 0 0) = 2 →
    d.setCommitted n = false →
    d.tasksOf n = [] →
    d.ev.repairs = [] →
    On .cfgScrubRead d (fun e =>
      e.ev.repairs = [{ unit := n, kind := 2, source := 0x23, what := f, at_ := d.now }] ∧ (e.isle n).gateFault = true ∧ (∀ m, m ≠ n → e.isle m = d.isle m) ∧ e.integ.cfgPos = d.integ.cfgPos + 1 ∧ e.mem = d.mem)) ∧
  (∀ d : Dev,
    d.integ.tmr = [] →
    d.on MI_CTRL_CFGEN = false ∨ d.now < d.integ.cfgAt + max 1 (d.rd MI_CFG_INT_INT) →
    On .cfgScrubRead d (fun e =>
      e = d)) ∧
  (∀ (b : Fin 112) (w : BitVec 40) (x : MergeEnt) (n : Nat) (d : Dev),
    (d.merged b).find? (fun q => q.addr = w.toNat) = some x →
    x.at_ + max 1 (d.rd MI_MBCFG_IDLE) ≤ d.now →
    b.val = 16 + n →
    n < 96 →
    0x10000000 + n * 0x20000 ≤ w.toNat →
    w.toNat < 0x10000000 + (n + 1) * 0x20000 →
    d.on (MI_FLIPk_CTL_ARM 1) = false →
    d.integ.flipUsed = [] →
    On (.mergeFlush b w) d (fun e =>
      e.merged b = (d.merged b).filter (fun q => q.addr ≠ w.toNat) ∧ e.wordErr w.toNat = 0 ∧ (∀ x, x ≠ b.val → e.merged x = d.merged x) ∧ (∀ k, k ≠ codeWord w.toNat → tget 0#72 e.integ.ecc k = tget 0#72 d.integ.ecc k) ∧ e = { d with integ := e.integ })) ∧
  (∀ (b : Fin 112) (w : BitVec 40) (d : Dev),
    (d.merged b).find? (fun q => q.addr = w.toNat) = none →
    On (.mergeFlush b w) d (fun e =>
      e = d)) ∧
  (∀ (r : Fin 213) (d : Dev),
    d.integ.tmr = [] →
    (d.bucket r).leak + 800000 * max 1 (d.rd (MI_LBk_LEAKP (regionClass r))) < d.now →
    On (.bucketLeak r) d (fun e =>
      e.bucket r = { d.bucket r with count := (d.bucket r).count - 1, leak := (d.bucket r).leak + 800000 * max 1 (d.rd (MI_LBk_LEAKP (regionClass r))) } ∧ (∀ x, x ≠ r.val → e.bucket x = d.bucket x) ∧ e = { d with integ := e.integ })) ∧
  (∀ (r : Fin 213) (d : Dev),
    d.integ.tmr = [] →
    d.now ≤ (d.bucket r).leak + 800000 * max 1 (d.rd (MI_LBk_LEAKP (regionClass r))) →
    On (.bucketLeak r) d (fun e =>
      e = d)) ∧
  (∀ (k : Fin 4) (sel : BitVec 7) (d : Dev),
    On (.flipMaskArm k sel) d (fun e =>
      e.rd (MI_FLIPk_CTL_ARM k) = 1 ∧ e.rd (MI_FLIPk_CTL_SEL k) = sel.toNat ∧ OnlyRegs [MI_FLIPk_CTL k] d e)) ∧
  (∀ (r : Fin 213) (d : Dev),
    On .miClr d (fun e =>
      e.reg MI_UECNT = 0 ∧ e.reg MI_TMRCNT = 0 ∧ e.reg MI_PASS0 = 0 ∧ e.reg MI_PASS1 = 0 ∧ (e.bucket r).count = 0 ∧ (e.bucket r).ovfc = 0 ∧ (e.bucket r).leak = (d.bucket r).leak ∧ RegsBut [MI_UECNT, MI_TMRCNT, MI_PASS0, MI_PASS1] d e ∧ e = { d with regs := e.regs, flags := e.flags, integ := e.integ }))

/-- A word or empty repair completes 16 ACLK after its detection: the isle's clock runs again. A frame repair that reads back right sets CFGREP and ungates the isle; one that does not sets REPFAIL and is an F2 fault. A harbour repair whose check passes ends; one whose check fails is F3. Two seconds without the DISCARD event after an F2 fault are F3: outputs go safe and every loop task stops. At the end of the 100 ms window of an F0 source the counted faults post as one event. -/
def Obligations.RepairsAndFaultClasses : Prop :=
  (∀ (r : Repair) (rest : List Repair) (d : Dev),
    d.ev.repairs = r :: rest →
    r.kind = 0 →
    r.unit < 96 →
    r.at_ + 16 ≤ d.now →
    d.tasksOf r.unit = [] →
    On .f1RepairDone d (fun e =>
      e.ev = { d.ev with repairs := rest } ∧ e.isle r.unit = { d.isle r.unit with gateFault := false } ∧ e.on (IS_STAT_GATED r.unit) = (d.isle r.unit).gateLoad ∧ (∀ m, m ≠ r.unit → e.isle m = d.isle m) ∧ RegsBut [IS_STAT r.unit] d e ∧ e = { d with regs := e.regs, flags := e.flags, ev := e.ev, isles := e.isles })) ∧
  (∀ (r : Repair) (rest : List Repair) (n : Nat) (d : Dev),
    d.ev.repairs = r :: rest →
    r.kind = 1 →
    r.unit < 96 →
    r.at_ + 16 ≤ d.now →
    d.tasksOf r.unit = [] →
    r.what = 0x10000000 + r.unit * 0x20000 + 4 * n →
    n < 0x8000 →
    d.hasEntry r.what = false →
    d.on (MI_FLIPk_CTL_ARM 1) = false →
    d.integ.flipUsed = [] →
    On .f1RepairDone d (fun e =>
      e.load32 r.what = 0 ∧ e.wordErr r.what = 0 ∧ (∀ a, a < r.what ∨ r.what + 4 ≤ a → e.byte a = d.byte a) ∧ (e.isle r.unit).gateFault = false ∧ e.ev.repairs = rest)) ∧
  (∀ d : Dev,
    (∀ r ∈ d.ev.repairs, 2 ≤ r.kind) →
    On .f1RepairDone d (fun e =>
      e = d)) ∧
  (∀ (r : Repair) (rest : List Repair) (d : Dev),
    d.ev.repairs = r :: rest →
    r.kind = 2 →
    r.what < 32 →
    r.unit < 96 →
    d.tasksOf r.unit = [] →
    d.integ.ecc = [] →
    d.integ.merge = [] →
    d.integ.flipUsed = [] →
    d.on (MI_FLIPk_CTL_ARM 3) = false →
    d.routeWait 39 = none →
    d.net.stall = false →
    On (.frameRepairDone true) d (fun e =>
      (e.isle r.unit).gateFault = false ∧ e.rd MI_STAT_CFGREP = 1 ∧ (r.what < 16 → ∀ j, j < 16 → tget 0#128 (e.isle r.unit).ctx (b2n (d.isle r.unit).copy * 256 + r.what * 16 + j) = BitVec.ofNat 128 (bytesNat (d.bytesAt (refFrame r.unit r.what + 16 * j) 16))) ∧ (16 ≤ r.what → ∀ j, j < 256 → tget 0#8 (e.isle r.unit).planes (b2n (d.isle r.unit).copy * 4096 + (r.what - 16) * 256 + j) = d.byte (refFrame r.unit r.what + j)) ∧ e.ev = { d.ev with repairs := rest } ∧ (∀ m, m ≠ r.unit → e.isle m = d.isle m) ∧ e.mem = d.mem)) ∧
  (∀ (r : Repair) (rest : List Repair) (d : Dev),
    d.ev.repairs = r :: rest →
    r.kind = 2 →
    r.unit < 96 →
    d.routeWait 39 = none →
    d.net.stall = false →
    On (.frameRepairDone false) d (fun e =>
      e.rd MI_STAT_REPFAIL = 1 ∧ e.ev.repairs = rest ∧ (∀ c, c < 4 → e.rdBit (CP_IPEND_PEND c) 7 = true) ∧ e.ev.f2.head? = some d.now)) ∧
  (∀ (r : Repair) (rest : List Repair) (c i : Nat) (d : Dev),
    d.ev.repairs = r :: rest →
    r.kind = 3 →
    4 ≤ c →
    c < 7 →
    i < hbCount c →
    r.unit = hbUnit c i →
    d.hb.refd = [] →
    d.net.stall = false →
    On (.harbourRepairDone true) d (fun e =>
      e.ev = { d.ev with repairs := rest } ∧ (c = 4 → (e.pair i).repair = false) ∧ (c = 5 → (e.gio i).repair = false) ∧ (c = 6 → (e.hfifo i).repair = false) ∧ e.mem = d.mem)) ∧
  (∀ (r : Repair) (rest : List Repair) (c i : Nat) (d : Dev),
    d.ev.repairs = r :: rest →
    r.kind = 3 →
    c < 7 →
    i < hbCount c →
    r.unit = hbUnit c i →
    d.routeWait 39 = none →
    d.net.stall = false →
    On (.harbourRepairDone false) d (fun e =>
      e.ev.f3 = true ∧ e.ev.f2Open = none ∧ e.rd PW_CTRL_SAFE = 1 ∧ e.rd AHD_CTRL_EN = 0 ∧ (∀ t, t < 48 → e.taskState t ≠ 1) ∧ (∀ p, p < 48 → (e.pair p).safe = true) ∧ e.ev.repairs = rest)) ∧
  (∀ (a : Nat) (d : Dev),
    d.ev.f2Open = some a →
    a + 1600000000 ≤ d.now →
    On .f2DiscardTimeout d (fun e =>
      e.ev.f3 = true ∧ e.ev.f2Open = none ∧ e.rd PW_CTRL_SAFE = 1 ∧ e.rd AHD_CTRL_EN = 0 ∧ (∀ t, t < 48 → e.taskState t ≠ 1) ∧ (∀ p, p < 48 → (e.pair p).safe = true))) ∧
  (∀ (a : Nat) (d : Dev),
    d.ev.f2Open = some a →
    d.now < a + 1600000000 →
    On .f2DiscardTimeout d (fun e =>
      e = d)) ∧
  (∀ d : Dev,
    d.ev.f2Open = none →
    On .f2DiscardTimeout d (fun e =>
      e = d)) ∧
  (∀ (s : BitVec 8) (u : BitVec 16) (x : F0Win) (d : Dev),
    d.ev.f0 = [x] →
    x.source = s →
    x.unit = u →
    x.start + 80000000 ≤ d.now →
    x.count ≠ 0 →
    wbit d.ev.mask 6 = true →
    d.ev.queue.length < 64 →
    d.on HL_CTRL_CONEVT = false →
    On (.faultWindowEnd s u) d (fun e =>
      e.ev = { d.ev with f0 := [], queue := d.ev.queue ++ [{ code := 0x60, eseq := nextEseq (d.reg HL_ESEQ), payload := [0, BitVec.ofNat 32 s.toNat, BitVec.ofNat 32 u.toNat, BitVec.ofNat 32 x.count, x.frac] }] } ∧ e.reg HL_ESEQ = nextEseq (d.reg HL_ESEQ) ∧ e.rd HL_EVQ_LEN = d.ev.queue.length + 1 ∧ RegsBut [HL_ESEQ, HL_EVQ, HL_STAT] d e ∧ e = { d with regs := e.regs, flags := e.flags, ev := e.ev })) ∧
  (∀ (s : BitVec 8) (u : BitVec 16) (x : F0Win) (d : Dev),
    d.ev.f0 = [x] →
    x.source = s →
    x.unit = u →
    x.start + 80000000 ≤ d.now →
    x.count = 0 →
    On (.faultWindowEnd s u) d (fun e =>
      e.ev = { d.ev with f0 := [] } ∧ e = { d with ev := e.ev }))

/-- A write of CFG enables a channel and starts its training; while it is enabled the write is refused with CFGERR. When training completes READY sets. The request the scheduler picks is performed on memory and answered. A row whose idle timer expired closes; an expired refresh interval issues the refresh, closing the rank's rows, or postpones it while requests wait, up to the limit. A hot poll sets HOT, the second cool poll clears it. An idle rank powers down. A due or asked-for retraining pause sets TRAIN and counts, and its end clears TRAIN and counts a failure. A parity alert is counted and replays; a second one during the replay is a command error that retires the rank. RETIRE of a mapped rank starts its migration to the spare, or puts the rank out of service where there is none. A migration copies one block a step. Writing 1 to a bit of DC_RH_THR ends that throttle. CLR clears the counters. -/
def Obligations.DramChannels : Prop :=
  (∀ (c : Fin 2) (v : BitVec 32) (d : Dev),
    d.on (DC_CHc_CFG_EN c) = true →
    On (.channelEnable c v) d (fun e =>
      e.on DC_STAT_CFGERR = true ∧ OnlyRegs [DC_STAT] d e)) ∧
  (∀ (c : Fin 2) (v : BitVec 32) (d : Dev),
    d.on (DC_CHc_CFG_EN c) = false →
    wbit v 0 = true →
    d.rd (DC_CHc_STAT_RETIRED c) = 0 →
    On (.channelEnable c v) d (fun e =>
      e.on (DC_CHc_CFG_EN c) = true ∧ e.rd (DC_CHc_CFG_WIDTH c) = wbits v 2 1 ∧ e.rd (DC_CHc_CFG_DENS c) = wbits v 4 3 ∧ e.rd (DC_CHc_CFG_NRANK c) = wbits v 6 5 ∧ e.rd (DC_CHc_CFG_SPARE c) = wbits v 9 7 ∧ e.chan c = { (d.chan c) with training := true } ∧ (∀ k, k ≠ c.val → e.chan k = d.chan k) ∧ RegsBut [DC_CHc_CFG c, DC_CHc_SIZE c] d e ∧ e = { d with regs := e.regs, flags := e.flags, dram := e.dram })) ∧
  (∀ (c : Fin 2) (d : Dev),
    (d.chan c).training = true →
    d.domUp (100 + c) = true →
    On (.trainingDone c) d (fun e =>
      e.on (DC_CHc_STAT_READY c) = true ∧ e.chan c = { (d.chan c) with training := false } ∧ (∀ k, k ≠ c.val → e.chan k = d.chan k) ∧ RegsBut [DC_CHc_STAT c] d e ∧ e = { d with regs := e.regs, flags := e.flags, dram := e.dram })) ∧
  (∀ (c : Fin 2) (d : Dev),
    (d.chan c).training = false →
    On (.trainingDone c) d (fun e =>
      e = d)) ∧
  (∀ (c : Fin 2) (q : DReq) (d : Dev),
    d.dramReady c = true →
    d.on (DC_CHc_STAT_TRAIN c) = false →
    d.pickReq c = some q →
    d.memStatus q.pkt.addr = 0 →
    areaOf q.pkt.addr = 9 →
    d.integ.ecc = [] →
    ((d.chan c).rank (d.servedBy c (d.reqLocal q))).post = 0 →
    d.rd (DC_CHc_REF_POST c) ≠ 0 →
    ((d.chan c).bank (d.servedBy c (d.reqLocal q)) (d.bankOf c (d.reqLocal q))).row = some (d.rowOf c (d.reqLocal q)) →
    d.rd (DC_CHc_PG_IDLE c) ≠ 0 →
    d.routeWait q.pkt.dst = none →
    q.pkt.write = false →
    On (.dramServe c) d (fun e =>
      e.net = { d.net with resps := d.net.resps ++ [{ q.pkt with status := 0, data := d.bytesAt q.pkt.addr q.pkt.len, held := false, vc := 1, codes := [], legs := [] }] } ∧ (e.chan c).queue = (d.chan c).queue.filter (fun r => r ≠ q) ∧ e.mem = d.mem ∧ (∀ k, k ≠ c.val → e.chan k = d.chan k))) ∧
  (∀ (c : Fin 2) (q : DReq) (d : Dev),
    d.dramReady c = true →
    d.on (DC_CHc_STAT_TRAIN c) = false →
    d.pickReq c = some q →
    d.memStatus q.pkt.addr = 0 →
    areaOf q.pkt.addr = 9 →
    d.integ.ecc = [] →
    ((d.chan c).rank (d.servedBy c (d.reqLocal q))).post = 0 →
    d.rd (DC_CHc_REF_POST c) ≠ 0 →
    ((d.chan c).bank (d.servedBy c (d.reqLocal q)) (d.bankOf c (d.reqLocal q))).row = some (d.rowOf c (d.reqLocal q)) →
    d.rd (DC_CHc_PG_IDLE c) ≠ 0 →
    d.routeWait q.pkt.dst = none →
    q.pkt.write = true →
    On (.dramServe c) d (fun e =>
      e.net = { d.net with resps := d.net.resps ++ [{ q.pkt with status := 0, data := [], held := false, vc := 1, codes := [], legs := [] }] } ∧ (e.chan c).queue = (d.chan c).queue.filter (fun r => r ≠ q) ∧ e.mem = (d.storeBytes q.pkt.addr q.pkt.data).mem ∧ (∀ k, k ≠ c.val → e.chan k = d.chan k))) ∧
  (∀ (c : Fin 2) (d : Dev),
    d.dramReady c = false ∨ d.on (DC_CHc_STAT_TRAIN c) = true ∨ d.pickReq c = none →
    On (.dramServe c) d (fun e =>
      e = d)) ∧
  (∀ (c : Fin 2) (s : Fin 4) (b : Fin 16) (r : Nat) (d : Dev),
    ((d.chan c).bank s b).row = some r →
    d.dclkPast c ((d.chan c).bank s b).used (d.rd (DC_CHc_PG_IDLE c) + 1) = true →
    d.rowWanted c s b r = false →
    On (.pageClose c s b) d (fun e =>
      ((e.chan c).bank s b) = { (d.chan c).bank s b with row := none } ∧ (∀ k, k ≠ s.val * 16 + b.val → tget DBank.reset (e.chan c).banks k = tget DBank.reset (d.chan c).banks k) ∧ e.chan c = { (d.chan c) with banks := (e.chan c).banks } ∧ (∀ k, k ≠ c.val → e.chan k = d.chan k) ∧ e = { d with dram := e.dram })) ∧
  (∀ (c : Fin 2) (s : Fin 4) (b : Fin 16) (d : Dev),
    ((d.chan c).bank s b).row = none →
    On (.pageClose c s b) d (fun e =>
      e = d)) ∧
  (∀ (c : Fin 2) (s : Fin 4) (d : Dev),
    d.dramReady c = true →
    (d.chipSels c).contains s.val = true →
    d.dclkPast c ((d.chan c).rank s).refAt (d.trefi c s) = true →
    d.rankBusy c s = true →
    ((d.chan c).rank s).post < min 8 (d.rd (DC_CHc_REF_POST c)) →
    On (.refresh c s) d (fun e =>
      (e.chan c).rank s = { (d.chan c).rank s with refAt := d.now, half := d.on (DC_CHc_STAT_HOT c), post := ((d.chan c).rank s).post + 1 } ∧ e.chan c = { (d.chan c) with ranks := (e.chan c).ranks } ∧ (∀ k, k ≠ s.val → (e.chan c).rank k = (d.chan c).rank k) ∧ (∀ k, k ≠ c.val → e.chan k = d.chan k) ∧ e = { d with dram := e.dram })) ∧
  (∀ (c : Fin 2) (s : Fin 4) (d : Dev),
    d.dramReady c = true →
    (d.chipSels c).contains s.val = true →
    d.dclkPast c ((d.chan c).rank s).refAt (d.trefi c s) = true →
    d.rankBusy c s = false →
    (d.chan c).refs + ((d.chan c).rank s).post + 1 < max 1 (d.rd DC_RH_CFG_RHWIN) →
    On (.refresh c s) d (fun e =>
      (∀ b, b < 16 → ((e.chan c).bank s b).row = none) ∧ ((e.chan c).rank s).post = 0 ∧ ((e.chan c).rank s).refAt = d.now ∧ (e.chan c).refs = (d.chan c).refs + ((d.chan c).rank s).post + 1 ∧ e.rdBit (DC_CHc_STAT_PD c) s = false ∧ (∀ k b, k < 4 → k ≠ s.val → b < 16 → (e.chan c).bank k b = (d.chan c).bank k b) ∧ (∀ k, k ≠ c.val → e.chan k = d.chan k) ∧ RegsBut [DC_CHc_STAT c] d e ∧ e = { d with regs := e.regs, flags := e.flags, dram := e.dram })) ∧
  (∀ (c : Fin 2) (d : Dev),
    d.dramReady c = true →
    (d.chan c).pollAt + 800000 * max 1 (d.rd DC_TEMP_PER) ≤ d.now →
    On (.tempPoll c true) d (fun e =>
      e.on (DC_CHc_STAT_HOT c) = true ∧ e.chan c = { (d.chan c) with pollAt := d.now, cool := 0 } ∧ (∀ k, k ≠ c.val → e.chan k = d.chan k) ∧ RegsBut [DC_CHc_STAT c] d e ∧ e = { d with regs := e.regs, flags := e.flags, dram := e.dram })) ∧
  (∀ (c : Fin 2) (d : Dev),
    d.dramReady c = true →
    (d.chan c).pollAt + 800000 * max 1 (d.rd DC_TEMP_PER) ≤ d.now →
    On (.tempPoll c false) d (fun e =>
      e.on (DC_CHc_STAT_HOT c) = (d.on (DC_CHc_STAT_HOT c) && decide ((d.chan c).cool = 0)) ∧ (e.chan c).cool = min 2 ((d.chan c).cool + 1) ∧ (e.chan c).pollAt = d.now ∧ (∀ k, k ≠ c.val → e.chan k = d.chan k) ∧ RegsBut [DC_CHc_STAT c] d e ∧ e = { d with regs := e.regs, flags := e.flags, dram := e.dram })) ∧
  (∀ (c : Fin 2) (s : Fin 4) (d : Dev),
    d.dramReady c = true →
    d.rd (DC_CHc_PG_PDT c) ≠ 0 →
    (d.chipSels c).contains s.val = true →
    d.rankBusy c s = false →
    d.dclkPast c ((d.chan c).rank s).used (d.rd (DC_CHc_PG_PDT c) + 1) = true →
    On (.powerDownEntry c s) d (fun e =>
      e.rdBit (DC_CHc_STAT_PD c) s = true ∧ OnlyRegs [DC_CHc_STAT c] d e)) ∧
  (∀ (c : Fin 2) (s : Fin 4) (d : Dev),
    d.rd (DC_CHc_PG_PDT c) = 0 ∨ d.rankBusy c s = true →
    On (.powerDownEntry c s) d (fun e =>
      e = d)) ∧
  (∀ (c : Fin 2) (n : Nat) (d : Dev),
    d.dramReady c = true →
    d.on (DC_CHc_STAT_TRAIN c) = false →
    (d.chan c).mig = none →
    d.refreshDue c = false →
    d.rd DC_TRN_PER ≠ 0 →
    d.pauseDue c ≤ d.now →
    d.rd (DC_CHc_CNT2_TRN c) = n →
    n < 65535 →
    On (.retrainPause c) d (fun e =>
      e.on (DC_CHc_STAT_TRAIN c) = true ∧ e.rd (DC_CHc_CNT2_TRN c) = n + 1 ∧ e.chan c = { (d.chan c) with trnAt := d.pauseDue c, trnReq := false } ∧ (∀ k, k ≠ c.val → e.chan k = d.chan k) ∧ RegsBut [DC_CHc_STAT c, DC_CHc_CNT2 c] d e ∧ e = { d with regs := e.regs, flags := e.flags, dram := e.dram })) ∧
  (∀ (c : Fin 2) (d : Dev),
    d.on (DC_CHc_STAT_TRAIN c) = true ∨ d.refreshDue c = true →
    On (.retrainPause c) d (fun e =>
      e = d)) ∧
  (∀ (c : Fin 2) (n : Nat) (d : Dev),
    d.dramReady c = true →
    d.on (DC_CHc_STAT_TRAIN c) = false →
    (d.chan c).mig = none →
    d.refreshDue c = false →
    d.rd DC_TRN_PER = 0 →
    d.rd (DC_CHc_CNT2_TRN c) = n →
    n < 65535 →
    On (.train c) d (fun e =>
      e.on (DC_CHc_STAT_TRAIN c) = true ∧ e.rd (DC_CHc_CNT2_TRN c) = n + 1 ∧ (e.chan c).trnReq = false ∧ (e.chan c).queue = (d.chan c).queue ∧ (∀ k, k ≠ c.val → e.chan k = d.chan k) ∧ RegsBut [DC_CHc_STAT c, DC_CHc_CNT2 c] d e ∧ e = { d with regs := e.regs, flags := e.flags, dram := e.dram })) ∧
  (∀ (c : Fin 2) (k : Bool) (n : Nat) (d : Dev),
    d.on (DC_CHc_STAT_TRAIN c) = true →
    d.rd (DC_CHc_CNT2_TRNF c) = n →
    n < 65535 →
    On (.retrainPauseEnd c k) d (fun e =>
      e.on (DC_CHc_STAT_TRAIN c) = false ∧ e.rd (DC_CHc_CNT2_TRNF c) = (if k then n else n + 1) ∧ e.chan c = { (d.chan c) with turn := (e.chan c).turn } ∧ (∀ k, k ≠ c.val → e.chan k = d.chan k) ∧ RegsBut [DC_CHc_STAT c, DC_CHc_CNT2 c] d e ∧ e = { d with regs := e.regs, flags := e.flags, dram := e.dram })) ∧
  (∀ (c : Fin 2) (s : Fin 4) (a : Bool) (n : Nat) (d : Dev),
    s.val ∉ (d.chan c).replay →
    d.rd (DC_CHc_CNT1_CAPAR c) = n →
    n < 65535 →
    On (.parityAlert c s a) d (fun e =>
      e.rd (DC_CHc_CNT1_CAPAR c) = n + 1 ∧ e.chan c = { (d.chan c) with replay := (d.chan c).replay ++ [s.val] } ∧ (∀ k, k ≠ c.val → e.chan k = d.chan k) ∧ RegsBut [DC_CHc_CNT1 c] d e ∧ e = { d with regs := e.regs, flags := e.flags, dram := e.dram })) ∧
  (∀ (c : Fin 2) (s : Fin 4) (n : Nat) (m : Nat) (d : Dev),
    s.val ∈ (d.chan c).replay →
    d.rd (DC_CHc_CNT1_CAPAR c) = n →
    n < 65535 →
    d.rd (DC_CHc_CNT0_UE c) = m →
    m < 65535 →
    On (.parityAlert c s true) d (fun e =>
      e.rd (DC_CHc_CNT1_CAPAR c) = n + 1 ∧ e.rd (DC_CHc_CNT0_UE c) = m + 1 ∧ e.on DC_STAT_UE = true ∧ e.rdBit (DC_CHc_STAT_RETIRED c) s = true ∧ s.val ∉ (e.chan c).replay ∧ (∀ k, k ≠ c.val → e.chan k = d.chan k) ∧ (∀ a, areaOf a = 9 → e.byte a = d.byte a))) ∧
  (∀ (c : Fin 2) (s : Fin 4) (k : Nat) (d : Dev),
    d.rdBit (DC_CHc_STAT_RETIRED c) s = false →
    d.idxOf c s = some k →
    d.rd (DC_CHc_CFG_SPARE c) < 4 →
    d.on (DC_CHc_STAT_SPUSED c) = false →
    d.rdBit (DC_CHc_STAT_RETIRED c) (d.rd (DC_CHc_CFG_SPARE c)) = false →
    d.rd (DC_CHc_CFG_SPARE c) ≠ s.val →
    On (.retire c s) d (fun e =>
      e.rdBit (DC_CHc_STAT_RETIRED c) s = true ∧ e.on (DC_CHc_STAT_SPUSED c) = true ∧ e.on (DC_CHc_STAT_MIGR c) = true ∧ e.reg (DC_CHc_MIGP c) = 0 ∧ e.chan c = { (d.chan c) with spareFor := some k, mig := some { idx := k, total := d.rankBlocks c, at_ := d.now, step := false } } ∧ (∀ k, k ≠ c.val → e.chan k = d.chan k) ∧ (∀ a, areaOf a = 9 → e.byte a = d.byte a))) ∧
  (∀ (c : Fin 2) (s : Fin 4) (k : Nat) (d : Dev),
    d.rdBit (DC_CHc_STAT_RETIRED c) s = false →
    d.idxOf c s = some k →
    4 ≤ d.rd (DC_CHc_CFG_SPARE c) ∨ d.on (DC_CHc_STAT_SPUSED c) = true →
    On (.retire c s) d (fun e =>
      e.rdBit (DC_CHc_STAT_RETIRED c) s = true ∧ e.chan c = { (d.chan c) with dead := (d.chan c).dead ++ [k] } ∧ (∀ k, k ≠ c.val → e.chan k = d.chan k) ∧ (∀ a, areaOf a = 9 → e.byte a = d.byte a))) ∧
  (∀ (c : Fin 2) (s : Fin 4) (d : Dev),
    d.rdBit (DC_CHc_STAT_RETIRED c) s = true →
    On (.retire c s) d (fun e =>
      e.rd (DC_CHc_CTL_RANK c) = s.val ∧ OnlyRegs [DC_CHc_CTL c] d e)) ∧
  (∀ (c : Fin 2) (m : Migr) (d : Dev),
    (d.chan c).mig = some m →
    m.step = false →
    m.at_ + 800 * d.rd DC_MIG_MGAP ≤ d.now →
    d.on (DC_CHc_STAT_TRAIN c) = false →
    d.dramReady c = true →
    On (.migrationStep c) d (fun e =>
      e.chan c = { (d.chan c) with mig := some { m with step := true } } ∧ (∀ k, k ≠ c.val → e.chan k = d.chan k) ∧ e = { d with dram := e.dram })) ∧
  (∀ (c : Fin 2) (m : Migr) (n : Nat) (d : Dev),
    (d.chan c).mig = some m →
    m.step = true →
    d.rd (DC_CHc_MIGP_BLOCKS c) = n →
    n + 1 ≠ m.total →
    n < 0xFFFFF →
    d.integ.ecc = [] →
    On (.migrationStepEnd c true) d (fun e =>
      e.rd (DC_CHc_MIGP_BLOCKS c) = n + 1 ∧ e.chan c = { (d.chan c) with mig := some { m with step := false, at_ := d.now } } ∧ (∀ k, k ≠ c.val → e.chan k = d.chan k) ∧ RegsBut [DC_CHc_MIGP c] d e ∧ e = { d with regs := e.regs, flags := e.flags, dram := e.dram })) ∧
  (∀ (c : Fin 2) (m : Migr) (d : Dev),
    (d.chan c).mig = some m →
    m.step = true →
    On (.migrationStepEnd c false) d (fun e =>
      e.on (DC_CHc_STAT_MIGR c) = false ∧ e.chan c = { (d.chan c) with mig := none, spareFor := none, dead := (d.chan c).dead ++ [m.idx] } ∧ (∀ k, k ≠ c.val → e.chan k = d.chan k) ∧ e.mem = d.mem)) ∧
  (∀ (n : Fin 40) (d : Dev),
    On (.rhThrClear n) d (fun e =>
      e.rdBit (if n.val < 32 then DC_RH_THR_LO_NI else DC_RH_THR_HI_NI) (n % 32) = false ∧ (∀ c, c < 2 → (e.chan c) = { d.chan c with thr := (d.chan c).thr.filter (fun t => t.ni ≠ n.val) }) ∧ RegsBut [DC_RH_THR_LO, DC_RH_THR_HI] d e ∧ e = { d with regs := e.regs, flags := e.flags, dram := e.dram })) ∧
  (∀ (c : Fin 2) (d : Dev),
    On .dcClr d (fun e =>
      e.reg (DC_CHc_CNT0 c) = 0 ∧ e.reg (DC_CHc_CNT1 c) = 0 ∧ e.reg (DC_CHc_CNT2 c) = 0 ∧ (e.chan c) = { (d.chan c) with bucket := { count := 0, ovfc := 0, leak := (d.chan c).bucket.leak } } ∧ e = { d with regs := e.regs, flags := e.flags, dram := e.dram }))

/-- A doorbell write names the tail and interrupts the cores. Firmware fetches the entry at the head where the ring is enabled and there is room for the response: a well-formed one with a free TAG and a known opcode is in progress, one with a reserved bit set is answered BADENTRY. The oldest event is written to the ring, body before its first word, and the tail goes on. A masked vector leaves its pending bit; unmasking it sends the message; a moderated one waits for the end of its interval. When the link goes down RINGEN clears, the commands are discarded and a DISCARD event is generated; RINGEN set again starts the ring at index 0 with PHASE 1. A bad console frame is discarded, a good one is taken as a ring entry is; a gap of more than 100 ms discards a frame. A host-link reset clears the MSI-X state. -/
def Obligations.HostLinkAndConsole : Prop :=
  (∀ (t : BitVec 8) (d : Dev),
    On (.commandDoorbell t) d (fun e =>
      e.rd HL_CMDDB_TAIL = t.toNat ∧ (∀ c, c < 4 → e.rdBit (CP_IPEND_PEND c) 0 = true) ∧ OnlyRegs [HL_CMDDB, CP_IPEND 0, CP_IPEND 1, CP_IPEND 2, CP_IPEND 3] d e)) ∧
  (∀ (t : BitVec 8) (d : Dev),
    On (.responseDoorbell t) d (fun e =>
      e.rd HL_RSPDB_HEAD = t.toNat ∧ OnlyRegs [HL_RSPDB] d e)) ∧
  (∀ (h : Nat) (ws : List (BitVec 32)) (d : Dev),
    d.power.failed = false →
    d.ev.queue.any (fun (x : Evt) => x.code = 3) = false →
    d.on HL_CTRL_RINGEN = true →
    d.rd HL_CMD_HEAD_HEAD = h →
    h ≠ d.rd HL_CMDDB_TAIL →
    d.owed < d.ringRoom →
    d.integ.ecc = [] →
    d.integ.merge = [] →
    bytesWords (d.bytesAt (64 * h) 64) 16 = ws →
    badEntry ws = false →
    d.dupTag false (ws.getD 1 0) = false →
    (wbits (ws.getD 0 0) 15 0) ∈ knownOps →
    On .commandFetch d (fun e =>
      e.mail = { d.mail with cmds := d.mail.cmds ++ [cmdOf false h ws []] } ∧ e.rd HL_CMD_HEAD_HEAD = (h + 1) % 256 ∧ RegsBut [HL_CMD_HEAD] d e ∧ e = { d with regs := e.regs, flags := e.flags, mail := e.mail })) ∧
  (∀ (h v : Nat) (ws : List (BitVec 32)) (d : Dev),
    d.power.failed = false →
    d.ev.queue.any (fun (x : Evt) => x.code = 3) = false →
    d.on HL_CTRL_RINGEN = true →
    d.rd HL_CMD_HEAD_HEAD = h →
    h ≠ d.rd HL_CMDDB_TAIL →
    d.owed < d.ringRoom →
    d.integ.ecc = [] →
    d.integ.merge = [] →
    bytesWords (d.bytesAt (64 * h) 64) 16 = ws →
    badEntry ws = true →
    d.on HL_STAT_LINKUP = true →
    d.rd HL_MSIV_RSP = v →
    wbit (d.msixWord (4 * v + 3)) 0 = true →
    On .commandFetch d (fun e =>
      e.mail.cmds = d.mail.cmds ∧ e.rd HL_CMD_HEAD_HEAD = (h + 1) % 256 ∧ e.rd HL_RSP_TAIL_TAIL = (d.rd HL_RSP_TAIL_TAIL + 1) % 256 ∧ e.hostBytes ((d.rd64 HL_RSP_BASE_LO HL_RSP_BASE_HI).toNat + 64 * d.rd HL_RSP_TAIL_TAIL) 8 = wordBytes (BitVec.ofNat 32 (wbits (ws.getD 0 0) 15 0 + 0x11 * 2 ^ 16 + d.rd HL_RSP_TAIL_PHASE * 2 ^ 31)) ++ wordBytes (ws.getD 1 0) ∧ e.mem = d.mem)) ∧
  (∀ d : Dev,
    d.power.failed = true ∨ d.on HL_CTRL_RINGEN = false ∨ d.rd HL_CMD_HEAD_HEAD = d.rd HL_CMDDB_TAIL ∨ d.ringRoom ≤ d.owed →
    On .commandFetch d (fun e =>
      e = d)) ∧
  (∀ (x : Evt) (rest : List Evt) (v : Nat) (d : Dev),
    d.ev.queue = x :: rest →
    x.code ≠ 3 →
    d.on HL_CTRL_RINGEN = true →
    d.owed < d.ringRoom →
    d.ev.dropped = 0 →
    d.on HL_STAT_LINKUP = true →
    d.rd HL_MSIV_EVT = v →
    wbit (d.msixWord (4 * v + 3)) 0 = true →
    x.payload.length ≤ 12 →
    x.code < 256 →
    On .eventPost d (fun e =>
      e.ev = { d.ev with queue := rest } ∧ e.rd HL_EVQ_LEN = rest.length % 128 ∧ e.rd HL_RSP_TAIL_TAIL = (d.rd HL_RSP_TAIL_TAIL + 1) % 256 ∧ e.rd HL_RSP_TAIL_PHASE = (if d.rd HL_RSP_TAIL_TAIL = 255 then 1 - d.rd HL_RSP_TAIL_PHASE else d.rd HL_RSP_TAIL_PHASE) ∧ e.hostBytes ((d.rd64 HL_RSP_BASE_LO HL_RSP_BASE_HI).toNat + 64 * d.rd HL_RSP_TAIL_TAIL) 4 = wordBytes (BitVec.ofNat 32 (x.code + 2 ^ 24 + d.rd HL_RSP_TAIL_PHASE * 2 ^ 31)) ∧ e.hostBytes (((d.rd64 HL_RSP_BASE_LO HL_RSP_BASE_HI).toNat + 64 * d.rd HL_RSP_TAIL_TAIL) + 4) 4 = wordBytes x.eseq ∧ e.hostBytes (((d.rd64 HL_RSP_BASE_LO HL_RSP_BASE_HI).toNat + 64 * d.rd HL_RSP_TAIL_TAIL) + 16) (4 * x.payload.length) = wordsBytes x.payload ∧ RegsBut [HL_EVQ, HL_RSP_TAIL] d e)) ∧
  (∀ d : Dev,
    d.ev.queue = [] ∨ d.on HL_CTRL_RINGEN = false ∨ d.ringRoom ≤ d.owed →
    On .eventPost d (fun e =>
      e = d)) ∧
  (∀ (v : Fin 16) (d : Dev),
    d.mail.waits.contains v.val = true →
    d.moderated v = false →
    wbit (d.msixWord (4 * v + 3)) 0 = false →
    On (.msixIntervalEnd v) d (fun e =>
      e.mail = { d.mail with waits := d.mail.waits.filter (fun w => w ≠ v.val), sent := e.mail.sent } ∧ tget 0 e.mail.sent v = d.now + 1 ∧ e.hmem = (d.hostWrite ((d.msixWord (4 * v)).toNat + (d.msixWord (4 * v + 1)).toNat * 2 ^ 32) (wordBytes (d.msixWord (4 * v + 2)))).hmem ∧ e = { d with mail := e.mail, hmem := e.hmem })) ∧
  (∀ (v : Fin 16) (d : Dev),
    d.mail.waits.contains v.val = false ∨ d.moderated v = true →
    On (.msixIntervalEnd v) d (fun e =>
      e = d)) ∧
  (∀ (v : Fin 16) (d : Dev),
    d.mail.pba.getLsbD v = true →
    On (.msixUnmask v) d (fun e =>
      wbit (e.msixWord (4 * v + 3)) 0 = false ∧ e.mail.pba = d.mail.pba &&& ~~~(BitVec.ofNat 16 (2 ^ v.val)) ∧ tget 0 e.mail.sent v = d.now + 1 ∧ e.hmem = (d.hostWrite ((d.msixWord (4 * v)).toNat + (d.msixWord (4 * v + 1)).toNat * 2 ^ 32) (wordBytes (d.msixWord (4 * v + 2)))).hmem ∧ e = { d with mail := e.mail, hmem := e.hmem })) ∧
  (∀ (v : Fin 16) (d : Dev),
    d.mail.pba.getLsbD v = false →
    On (.msixUnmask v) d (fun e =>
      wbit (e.msixWord (4 * v + 3)) 0 = false ∧ e.mail = { d.mail with msix := e.mail.msix } ∧ (∀ i, i ≠ 4 * v.val + 3 → e.msixWord i = d.msixWord i) ∧ e = { d with mail := e.mail })) ∧
  (∀ (m : BitVec 16) (d : Dev),
    (∀ v : Fin 16, m.getLsbD v = true → wbit (d.msixWord (4 * v + 3)) 0 = true) →
    On (.msiraise m) d (fun e =>
      e.mail = { d.mail with pba := d.mail.pba ||| m } ∧ e = { d with mail := e.mail })) ∧
  (∀ (v : Fin 16) (d : Dev),
    wbit (d.msixWord (4 * v + 3)) 0 = false →
    On (.msiraise (BitVec.ofNat 16 (2 ^ v.val))) d (fun e =>
      tget 0 e.mail.sent v = d.now + 1 ∧ e.mail.pba = d.mail.pba ∧ e.hmem = (d.hostWrite ((d.msixWord (4 * v)).toNat + (d.msixWord (4 * v + 1)).toNat * 2 ^ 32) (wordBytes (d.msixWord (4 * v + 2)))).hmem ∧ e = { d with mail := e.mail, hmem := e.hmem })) ∧
  (∀ (k : Cmd) (d : Dev),
    d.power.failed = false →
    d.mail.cmds = [k] →
    k.console = false →
    d.rd HL_CMD_HEAD_HEAD = d.rd HL_CMDDB_TAIL →
    d.ev.queue.length < 64 →
    d.on HL_CTRL_CONEVT = false →
    On .linkDown d (fun e =>
      e.on HL_STAT_LINKUP = false ∧ e.rd HL_STAT_RATE = 0 ∧ e.rd HL_STAT_WIDTH = 0 ∧ e.on HL_CTRL_RINGEN = false ∧ e.mail = { d.mail with cmds := [] } ∧ e.ev = { d.ev with queue := d.ev.queue ++ [{ code := 3, eseq := nextEseq (d.reg HL_ESEQ), payload := [BitVec.ofNat 32 k.idx, 1, k.tag, k.tag, 1] }] } ∧ RegsBut [HL_STAT, HL_CTRL, HL_CMD_HEAD, HL_ESEQ, HL_EVQ] d e ∧ e = { d with regs := e.regs, flags := e.flags, mail := e.mail, ev := e.ev })) ∧
  (∀ d : Dev,
    d.on HL_CTRL_RINGEN = false →
    On .ringenSet d (fun e =>
      e.on HL_CTRL_RINGEN = true ∧ e.rd HL_RSP_TAIL_TAIL = 0 ∧ e.rd HL_RSP_TAIL_PHASE = 1 ∧ OnlyRegs [HL_CTRL, HL_RSP_TAIL] d e)) ∧
  (∀ d : Dev,
    d.on HL_CTRL_RINGEN = true →
    On .ringenSet d (fun e =>
      e.on HL_CTRL_RINGEN = true ∧ OnlyRegs [HL_CTRL] d e)) ∧
  (∀ d : Dev,
    On .hlClr d (fun e =>
      e.reg HL_CNT0 = 0 ∧ e.reg HL_CNT1 = 0 ∧ OnlyRegs [HL_CNT0, HL_CNT1] d e)) ∧
  (∀ (b : List (BitVec 8)) (d : Dev),
    d.on PC_STAT_FWOK = false ∨ frameOk b = false →
    On (.consoleFrame b) d (fun e =>
      e.mail = { d.mail with part := none } ∧ e = { d with mail := e.mail })) ∧
  (∀ (b : List (BitVec 8)) (ws : List (BitVec 32)) (d : Dev),
    d.on PC_STAT_FWOK = true →
    frameOk b = true →
    bytesWords b 16 = ws →
    badEntry ws = false →
    d.dupTag true (ws.getD 1 0) = false →
    (wbits (ws.getD 0 0) 15 0) ∈ knownOps →
    On (.consoleFrame b) d (fun e =>
      e.mail = { d.mail with part := none, cmds := d.mail.cmds ++ [cmdOf true 0 ws ((b.drop 64).take (b.length - 68))] } ∧ e = { d with mail := e.mail })) ∧
  (∀ (t : Nat) (d : Dev),
    d.mail.part = some t →
    t + 80000000 < d.now →
    On .consoleGapTimeout d (fun e =>
      e.mail = { d.mail with part := none } ∧ e = { d with mail := e.mail })) ∧
  (∀ (t : Nat) (d : Dev),
    d.mail.part = some t →
    d.now ≤ t + 80000000 →
    On .consoleGapTimeout d (fun e =>
      e = d)) ∧
  (∀ d : Dev,
    d.on HL_STAT_LINKUP = false →
    On .hostLinkReset d (fun e =>
      e.mail = { d.mail with msix := [], pba := 0, sent := [], waits := [] } ∧ e.on HL_STAT_CFGRDY = false ∧ RegsBut [HL_STAT] d e ∧ e = { d with regs := e.regs, flags := e.flags, mail := e.mail })) ∧
  (∀ d : Dev,
    d.domUp 103 = true →
    d.power.booted = false ∨ d.power.told = true ∨ d.on HL_STAT_LINKUP = false →
    On .configReady d (fun e =>
      e.on HL_STAT_CFGRDY = true ∧ OnlyRegs [HL_STAT] d e)) ∧
  (∀ d : Dev,
    d.domUp 103 = false →
    On .configReady d (fun e =>
      e = d)) ∧
  (∀ (r : BitVec 2) (w : BitVec 3) (d : Dev),
    d.domUp 103 = true →
    d.power.booted = false ∨ d.power.told = true →
    On (.linkUp r w) d (fun e =>
      e.on HL_STAT_LINKUP = true ∧ e.rd HL_STAT_RATE = r.toNat ∧ e.rd HL_STAT_WIDTH = w.toNat ∧ OnlyRegs [HL_STAT] d e)) ∧
  (∀ (r : BitVec 2) (w : BitVec 3) (d : Dev),
    d.domUp 103 = true →
    d.power.booted = true →
    d.power.told = false →
    d.ev.queue.length < 64 →
    d.on HL_CTRL_CONEVT = false →
    On (.linkUp r w) d (fun e =>
      e.on HL_STAT_LINKUP = true ∧ e.power = { d.power with told := true } ∧ e.ev.queue = d.ev.queue ++ [{ code := 1, eseq := nextEseq (d.reg HL_ESEQ), payload := [d.reg CF_BOOT, d.reg CF_STAT, d.reg CF_IMGSEQ, Config.fwVersion, BitVec.ofNat 32 (d.rd PC_RSTCAUSE_CAUSE)] }] ∧ RegsBut [HL_STAT, HL_ESEQ, HL_EVQ] d e ∧ e = { d with regs := e.regs, flags := e.flags, ev := e.ev, power := e.power }))

/-- A command that firmware takes, with its buffers right, has its effect and is answered: device information, a reset request 10 ms ahead, the console rate, image loads and aborts, the flash, the boot record, the floor, the keys, readback, the settings, the angle domains, the event table and its cadences, the loop tasks and the snapshot slots, each with the status, result words and buffer bytes its entry gives. A reserved bit or a bad argument is answered BADARG, an unclaimed resource UNCLAIMED, a wrong state BADSTATE, a bad buffer BADBUF, all without effect; a settings command waits while the settings controller is busy, and an operation answers STARTED. -/
def Obligations.DeviceAndLoopCommands : Prop :=
  (∀ (c : Cmd) (d : Dev),
    d.nextCmd 0x100 = some c →
    c.bufsOk = true →
    On .nopCommand d (fun e =>
      e = d.finish c (FwRes.ok [Config.fwVersion, Config.fwBuild]))) ∧
  (∀ (c : Cmd) (d : Dev),
    d.nextCmd 0x100 = none →
    On .nopCommand d (fun e =>
      e = d)) ∧
  (∀ (c : Cmd) (d : Dev),
    d.nextCmd 0x100 = some c →
    c.bufsOk = false →
    On .nopCommand d (fun e =>
      e = d.finish c (FwRes.fail 0x13))) ∧
  (∀ (c : Cmd) (d : Dev),
    d.nextCmd 0x101 = some c →
    c.bufsOk = true →
    On .devinfo d (fun e =>
      e = d.finish c (FwRes.ok ([d.reg CF_DEVID, d.reg CF_STAT, d.reg CF_BOOT, d.reg CF_IMGSEQ, d.reg CF_IMGLEN] ++ stampWords Config.uniqueNumber ++ stampWords (d.stamp 7) ++ [(d.auRead (AU_ADn_STAT 7)).1])))) ∧
  (∀ (c : Cmd) (d : Dev),
    d.nextCmd 0x102 = some c →
    c.bufsOk = true →
    c.rsvd 0 1 = false →
    On .reset d (fun e =>
      ∃ q : Dev, q.power = { d.power with asked := d.power.asked ++ [(c.fld 0 0 0, d.now + 8000000)] } ∧ q = { d with power := q.power } ∧ e = q.finish c (FwRes.ok []))) ∧
  (∀ (c : Cmd) (d : Dev),
    d.nextCmd 0x102 = some c →
    c.bufsOk = true →
    c.rsvd 0 1 = true →
    On .reset d (fun e =>
      e = d.finish c (FwRes.fail 0x14))) ∧
  (∀ (c : Cmd) (d : Dev),
    d.nextCmd 0x103 = some c →
    c.bufsOk = true →
    9600 ≤ c.num 0 →
    c.num 0 ≤ 3000000 →
    c.rsvd 1 1 = false →
    On .console d (fun e =>
      ∃ q : Dev, q.mail = { d.mail with baud := c.num 0 } ∧ q.rd (SP_Uu_CFG_DIV 0) = 12800000000 / c.num 0 ∧ q.on HL_CTRL_CONEVT = wbit (c.arg 1) 0 ∧ RegsBut [SP_Uu_CFG 0, HL_CTRL] d q ∧ q = { d with regs := q.regs, flags := q.flags, mail := q.mail } ∧ e = q.finish c (FwRes.ok []))) ∧
  (∀ (c : Cmd) (d : Dev),
    d.nextCmd 0x103 = some c →
    c.bufsOk = true →
    c.num 0 < 9600 ∨ 3000000 < c.num 0 ∨ c.rsvd 1 1 = true →
    On .console d (fun e =>
      e = d.finish c (FwRes.fail 0x14))) ∧
  (∀ (c : Cmd) (d : Dev),
    d.nextCmd 0x200 = some c →
    c.bufsOk = true →
    c.nbuf = 0 →
    d.claimed 0x13 (c.num64 3) (c.num 2) = true →
    d.claimed 0x13 (c.num64 0) (c.num 2) = true →
    d.ev.f3 = false →
    d.cfg.load.phase = 0 →
    d.icpBusy = false →
    On .imgLoad d (fun e =>
      ∃ q : Dev, q.cfg = { d.cfg with load := { CfgLoad.reset with phase := 1, src := c.num64 0, len := c.num 2, host := false, data := if c.console then c.data else [], stg := c.num64 3, at_ := d.now }, ops := d.cfg.ops ++ [{ tag := c.tag, op := c.op, console := c.console }] } ∧ q = { d with cfg := q.cfg } ∧ e = q.finish c (FwRes.fail 0x1C))) ∧
  (∀ (c : Cmd) (d : Dev),
    d.nextCmd 0x200 = some c →
    c.bufsOk = true →
    c.nbuf = 0 →
    d.claimed 0x13 (c.num64 3) (c.num 2) = false →
    On .imgLoad d (fun e =>
      e = d.finish c (FwRes.fail 0x0A))) ∧
  (∀ (c : Cmd) (d : Dev),
    d.nextCmd 0x201 = some c →
    c.bufsOk = true →
    c.rsvd 1 0xFF = false →
    c.rsvd 2 0x1FFFFFF = false →
    c.rsvd 5 0x707 = false →
    c.num 3 % 16 = 0 →
    c.num 4 % 16 = 0 →
    c.num 3 + c.num 4 ≤ 0x7FFFFF →
    d.claimed 0x12 0 1 = true →
    d.claimed 0x0F (c.fld 5 10 8) 1 = true →
    d.claimed 0x13 (c.num64 0) (c.num 2) = true →
    d.claimed 0x13 (c.num 3) (c.num 4) = true →
    d.ev.f3 = false →
    d.icpBusy = false →
    d.cfg.load.phase = 0 →
    On .imgPartial d (fun e =>
      ∃ q : Dev, q.rd CF_ICP_STAT_STATE = 1 ∧ q.rd CF_ICP_SRC_LO_ADDR = c.num 0 ∧ q.rd CF_ICP_SRC_HI_ADDR = c.num 1 ∧ q.rd CF_ICP_LEN_LEN = c.num 2 ∧ q.rd CF_ICP_STG_ADDR = c.num 3 / 16 ∧ q.rd CF_ICP_STGSZ_SIZE = c.num 4 / 16 ∧ q.reg CF_ICP_LF_LO = c.arg 6 ∧ q.reg CF_ICP_LF_HI = c.arg 7 ∧ q.rd CF_ICP_CTL_DOM = c.fld 5 2 0 ∧ q.rd CF_ICP_CTL_SLOT = c.fld 5 10 8 ∧ q.cfg = { d.cfg with icp := { phase := 1, at_ := d.now, todo := [], checks := [] }, ops := d.cfg.ops ++ [{ tag := c.tag, op := c.op, console := c.console }] } ∧ RegsBut [CF_ICP_SRC_LO, CF_ICP_SRC_HI, CF_ICP_LEN, CF_ICP_STG, CF_ICP_STGSZ, CF_ICP_LF_LO, CF_ICP_LF_HI, CF_ICP_CTL, CF_ICP_STAT, CF_ICP_DONE, CF_ICP_NEED] d q ∧ q = { d with regs := q.regs, flags := q.flags, cfg := q.cfg } ∧ e = q.finish c (FwRes.fail 0x1C))) ∧
  (∀ (c : Cmd) (d : Dev),
    d.nextCmd 0x202 = some c →
    c.bufsOk = true →
    d.ev.f3 = false →
    d.icpBusy = true →
    1 ≤ d.cfg.icp.phase →
    d.cfg.icp.phase ≤ 4 →
    d.cfg.ops = [] →
    On .imgAbort d (fun e =>
      ∃ q : Dev, q.rd CF_ICP_STAT_STATE = 6 ∧ q.rd CF_ICP_STAT_CODE = 0x0F ∧ q.cfg.icp = Icp.reset ∧ RegsBut [CF_ICP_STAT] d q ∧ q = { d with regs := q.regs, flags := q.flags, cfg := q.cfg } ∧ e = q.finish c (FwRes.ok [0]))) ∧
  (∀ (c : Cmd) (d : Dev),
    d.nextCmd 0x202 = some c →
    c.bufsOk = true →
    d.icpBusy = false →
    On .imgAbort d (fun e =>
      e = d.finish c (FwRes.fail 0x15))) ∧
  (∀ (c : Cmd) (nv : Nv) (b : List (BitVec 8)) (d : Dev),
    nv.agree = true →
    d.nextCmd 0x203 = some c →
    c.bufsOk = true →
    c.noBuf 0 1 = false →
    c.rsvd 1 1 = false →
    d.bufIn c c.bufLen = b →
    d.flashRefuses (c.num 0) (imgLen b) (wbit (c.arg 1) 0) = false →
    d.ev.f3 = false →
    flashCheck nv b = 0 →
    d.cfg.ops = [] →
    d.ev.queue.length < 64 →
    d.on HL_CTRL_CONEVT = false →
    OnNv .flashWrite nv d (fun e =>
      ∃ q : Dev, q.bytesAt (0x60000000 + c.num 0) (imgLen b) = b.take (imgLen b) ∧ q.bytesAt ((0x60000000 + c.num 0) + imgLen b) ((4096 - imgLen b % 4096) % 4096) = List.replicate ((4096 - imgLen b % 4096) % 4096) 0xFF#8 ∧ (∀ a, a < (0x60000000 + c.num 0) ∨ (0x60000000 + c.num 0) + (imgLen b + 4095) / 4096 * 4096 ≤ a → q.byte a = d.byte a) ∧ q.ev.queue = d.ev.queue ++ [{ code := 2, eseq := nextEseq (d.reg HL_ESEQ), payload := [c.tag, 0x203, 0xFF00, 8, BitVec.ofNat 32 (imgLen b), crc32 (b.take (imgLen b))] }] ∧ q.cfg = d.cfg ∧ e = q.finish c (FwRes.fail 0x1C))) ∧
  (∀ (c : Cmd) (nv : Nv) (b : List (BitVec 8)) (d : Dev),
    nv.agree = true →
    d.nextCmd 0x203 = some c →
    c.bufsOk = true →
    c.noBuf 0 1 = false →
    c.rsvd 1 1 = false →
    d.bufIn c c.bufLen = b →
    d.flashRefuses (c.num 0) (imgLen b) (wbit (c.arg 1) 0) = false →
    d.ev.f3 = false →
    flashCheck nv b ≠ 0 →
    d.cfg.ops = [] →
    d.ev.queue.length < 64 →
    d.on HL_CTRL_CONEVT = false →
    OnNv .flashWrite nv d (fun e =>
      ∃ q : Dev, q.mem = d.mem ∧ q.ev.queue = d.ev.queue ++ [{ code := 2, eseq := nextEseq (d.reg HL_ESEQ), payload := [c.tag, 0x203, BitVec.ofNat 32 (flashCheck nv b + 0xFF00), 8, 0, 0] }] ∧ q.cfg = d.cfg ∧ e = q.finish c (FwRes.fail 0x1C))) ∧
  (∀ (c : Cmd) (old new : List (BitVec 32)) (d : Dev),
    d.nextCmd 0x204 = some c →
    c.bufsOk = true →
    d.on SS_STAT_BUSY = false →
    c.rsvd 0 0xF = false →
    c.rsvd 3 3 = false →
    (∀ k : Fin 2, wbit (c.arg 0) k = true → c.num (1 + k) % 4096 = 0 ∧ c.num (1 + k) < 0x10000000) →
    d.bootRecord.1 = old →
    [if wbit (c.arg 0) 0 then c.arg 1 else old.getD 0 0, if wbit (c.arg 0) 1 then c.arg 2 else old.getD 1 0, if wbit (c.arg 0) 2 then BitVec.ofNat 32 (c.fld 3 0 0) else old.getD 2 0, if wbit (c.arg 0) 3 then BitVec.ofNat 32 (c.fld 3 1 1) else old.getD 3 0] = new →
    (d.bootRecord.2.bootCommit new).1 = 0 →
    On .bootSet d (fun e =>
      ∃ q : Dev, q.rd CF_BPTR0_PTR = (new.getD 0 0).toNat / 4096 % 65536 ∧ q.rd CF_BPTR1_PTR = (new.getD 1 0).toNat / 4096 % 65536 ∧ q.rd CF_BSEL_SEL = (new.getD 2 0).toNat % 2 ∧ q.rd CF_BSEL_TRIAL = (new.getD 3 0).toNat % 2 ∧ RegsBut [CF_BPTR0, CF_BPTR1, CF_BSEL] (d.bootRecord.2.bootCommit new).2 q ∧ q = { (d.bootRecord.2.bootCommit new).2 with regs := q.regs, flags := q.flags } ∧ e = q.finish c (FwRes.ok new))) ∧
  (∀ (c : Cmd) (d : Dev),
    d.nextCmd 0x204 = some c →
    c.bufsOk = true →
    d.on SS_STAT_BUSY = false →
    c.rsvd 0 0xF = false →
    wbit (c.arg 0) 0 = true →
    c.num 1 % 4096 ≠ 0 →
    On .bootSet d (fun e =>
      e = d.finish c (FwRes.fail 0x14))) ∧
  (∀ (c : Cmd) (d : Dev),
    d.nextCmd 0x204 = some c →
    c.bufsOk = true →
    d.on SS_STAT_BUSY = true →
    On .bootSet d (fun e =>
      e = d)) ∧
  (∀ (c : Cmd) (nv : Nv) (b : List (BitVec 8)) (d : Dev),
    nv.agree = true →
    d.nextCmd 0x205 = some c →
    c.bufsOk = true →
    d.on SS_STAT_BUSY = false →
    nv.floor.toNat ≤ c.num 0 →
    d.loadBytes 0x62000000 128 = b →
    identityOk b = true →
    c.num 0 ≤ imgSeq b →
    (d.ssCommit 5 (some (wordBytes (c.arg 0)))).1.1 = 0 →
    OnBoth .floorSet nv d (fun v e =>
      ∃ q : Dev, v = { nv with floor := c.arg 0 } ∧ q.reg CF_FLOOR = c.arg 0 ∧ q = (d.ssCommit 5 (some (wordBytes (c.arg 0)))).2.showNv v ∧ e = q.finish c (FwRes.ok [c.arg 0]))) ∧
  (∀ (c : Cmd) (nv : Nv) (d : Dev),
    nv.agree = true →
    d.nextCmd 0x205 = some c →
    c.bufsOk = true →
    d.on SS_STAT_BUSY = false →
    c.num 0 < nv.floor.toNat →
    OnBoth .floorSet nv d (fun v e =>
      v = nv ∧ e = d.finish c (FwRes.fail 0x14))) ∧
  (∀ (c : Cmd) (nv : Nv) (d : Dev),
    nv.agree = true →
    d.nextCmd 0x206 = some c →
    c.bufsOk = true →
    c.rsvd 0 3 = false →
    (tget KeySlot.empty nv.keys (c.fld 0 1 0)).state = 0 →
    OnBoth .keyProg nv d (fun v e =>
      ∃ q : Dev, tget KeySlot.empty v.keys (c.fld 0 1 0) = { state := 1, copy1 := 1, copy2 := 1, key := (List.range 8).flatMap (fun i => wordBytes (c.arg (1 + i))) } ∧ (∀ k, k ≠ c.fld 0 1 0 → tget KeySlot.empty v.keys k = tget KeySlot.empty nv.keys k) ∧ v = { nv with keys := v.keys } ∧ wbits (q.reg CF_KEYST) (2 * c.fld 0 1 0 + 1) (2 * c.fld 0 1 0) = 1 ∧ q = d.showNv v ∧ e = q.finish c (FwRes.ok []))) ∧
  (∀ (c : Cmd) (nv : Nv) (d : Dev),
    nv.agree = true →
    d.nextCmd 0x206 = some c →
    c.bufsOk = true →
    c.rsvd 0 3 = false →
    (tget KeySlot.empty nv.keys (c.fld 0 1 0)).state ≠ 0 →
    OnBoth .keyProg nv d (fun v e =>
      v = nv ∧ e = d.finish c (FwRes.fail 0x15))) ∧
  (∀ (c : Cmd) (nv : Nv) (d : Dev),
    nv.agree = true →
    d.nextCmd 0x207 = some c →
    c.bufsOk = true →
    c.rsvd 0 3 = false →
    (tget KeySlot.empty nv.keys (c.fld 0 1 0)).state = 1 →
    d.golden = none →
    OnBoth .keyRevoke nv d (fun v e =>
      ∃ q : Dev, tget KeySlot.empty v.keys (c.fld 0 1 0) = { tget KeySlot.empty nv.keys (c.fld 0 1 0) with state := 2, copy1 := 2, copy2 := 2 } ∧ (∀ k, k ≠ c.fld 0 1 0 → tget KeySlot.empty v.keys k = tget KeySlot.empty nv.keys k) ∧ v = { nv with keys := v.keys } ∧ wbits (q.reg CF_KEYST) (2 * c.fld 0 1 0 + 1) (2 * c.fld 0 1 0) = 2 ∧ q = d.showNv v ∧ e = q.finish c (FwRes.ok []))) ∧
  (∀ (c : Cmd) (nv : Nv) (d : Dev),
    nv.agree = true →
    d.nextCmd 0x207 = some c →
    c.bufsOk = true →
    c.rsvd 0 3 = false →
    (tget KeySlot.empty nv.keys (c.fld 0 1 0)).state ≠ 1 →
    OnBoth .keyRevoke nv d (fun v e =>
      v = nv ∧ e = d.finish c (FwRes.fail 0x15))) ∧
  (∀ (c : Cmd) (d : Dev),
    d.nextCmd 0x208 = some c →
    c.bufsOk = true →
    c.rsvd 4 0x71 = false →
    d.rd CF_RB_STAT_STATE = 0 →
    c.fld 4 0 0 = 1 →
    On .readback d (fun e =>
      ∃ q : Dev, q.rd CF_RB_LIST_ADDR = c.num 0 / 16 % 524288 ∧ q.rd CF_RB_N_N = c.num 1 % 512 ∧ q.rd CF_RB_DST_ADDR = c.num 2 / 32 % 262144 ∧ q.rd CF_RB_SIZE_SIZE = c.num 3 / 32 % 262144 ∧ q.rd CF_RB_CTL_FREEZE = c.fld 4 0 0 ∧ q.rd CF_RB_CTL_DOM = c.fld 4 6 4 ∧ q.rd CF_RB_STAT_STATE = 1 ∧ q.cfg = { d.cfg with rb := { rec_ := none, stamp := 0, at_ := d.now }, ops := d.cfg.ops ++ [{ tag := c.tag, op := c.op, console := c.console }] } ∧ RegsBut [CF_RB_LIST, CF_RB_N, CF_RB_DST, CF_RB_SIZE, CF_RB_CTL, CF_RB_STAT] d q ∧ q = { d with regs := q.regs, flags := q.flags, cfg := q.cfg } ∧ e = q.finish c (FwRes.fail 0x1C))) ∧
  (∀ (c : Cmd) (d : Dev),
    d.nextCmd 0x208 = some c →
    c.bufsOk = true →
    c.rsvd 4 0x71 = false →
    d.rd CF_RB_STAT_STATE = 0 →
    c.fld 4 0 0 = 0 →
    c.num 3 / 32 % 262144 ≠ 0 →
    d.integ.ecc = [] →
    On .readback d (fun e =>
      ∃ q : Dev, q.rd CF_RB_LIST_ADDR = c.num 0 / 16 % 524288 ∧ q.rd CF_RB_N_N = c.num 1 % 512 ∧ q.rd CF_RB_DST_ADDR = c.num 2 / 32 % 262144 ∧ q.rd CF_RB_SIZE_SIZE = c.num 3 / 32 % 262144 ∧ q.rd CF_RB_CTL_FREEZE = c.fld 4 0 0 ∧ q.rd CF_RB_CTL_DOM = c.fld 4 6 4 ∧ q.rd CF_RB_STAT_STATE = 2 ∧ q.cfg = { d.cfg with rb := { rec_ := none, stamp := 0, at_ := d.now }, ops := d.cfg.ops ++ [{ tag := c.tag, op := c.op, console := c.console }] } ∧ q.load32 (c.num 2 / 32 % 262144 * 32) = 0 ∧ (∀ a, a < c.num 2 / 32 % 262144 * 32 ∨ c.num 2 / 32 % 262144 * 32 + 4 ≤ a → q.byte a = d.byte a) ∧ RegsBut [MI_FLIPk_CTL 0, MI_FLIPk_CTL 1, MI_FLIPk_CTL 2, MI_FLIPk_CTL 3, CF_RB_LIST, CF_RB_N, CF_RB_DST, CF_RB_SIZE, CF_RB_CTL, CF_RB_STAT] d q ∧ q = { d with regs := q.regs, flags := q.flags, mem := q.mem, integ := q.integ, cfg := q.cfg } ∧ e = q.finish c (FwRes.fail 0x1C))) ∧
  (∀ (c : Cmd) (d : Dev),
    d.nextCmd 0x208 = some c →
    c.bufsOk = true →
    c.rsvd 4 0x71 = false →
    d.rd CF_RB_STAT_STATE ≠ 0 →
    On .readback d (fun e =>
      e = d.finish c (FwRes.fail 0x17))) ∧
  (∀ (c : Cmd) (d : Dev),
    d.nextCmd 0x300 = some c →
    c.bufsOk = true →
    c.noBuf 1 1 = false →
    c.rsvd 0 0xFFFF = false →
    d.ssActive = none →
    On .setRead d (fun e =>
      e = d.finish c (FwRes.fail 0x16))) ∧
  (∀ (c : Cmd) (k : Nat) (w : List (BitVec 32)) (r : SsRec) (d : Dev),
    d.nextCmd 0x300 = some c →
    c.bufsOk = true →
    c.noBuf 1 1 = false →
    c.rsvd 0 0xFFFF = false →
    d.ssActive = some k →
    (d.ssEntries k).find? (fun w => wbits (w.getD 0 0) 15 0 = c.num 0) = some w →
    d.ssRead k w = some (r, false) →
    r.bytes.length ≤ c.bufLen →
    On .setRead d (fun e =>
      e = d.finish c ({ FwRes.ok [BitVec.ofNat 32 r.bytes.length, r.seq] with out := r.bytes }))) ∧
  (∀ (c : Cmd) (r : BitVec 32) (d : Dev),
    d.nextCmd 0x301 = some c →
    c.bufsOk = true →
    d.on SS_STAT_BUSY = false →
    c.noBuf 0 (c.num 1) = false →
    c.rsvd 0 0xFFFF = false →
    hostRecord (c.num 0) = true →
    1 ≤ c.num 1 →
    c.num 1 ≤ 4096 →
    (d.ssCommit (c.num 0) (some (d.bufIn c (c.num 1)))).1 = (0, r) →
    On .setWrite d (fun e =>
      ∃ q : Dev, q = (d.ssCommit (c.num 0) (some (d.bufIn c (c.num 1)))).2 ∧ q.rd SS_RES_RES = 0 ∧ q.reg SS_RSEQ = r ∧ e = q.finish c (FwRes.ok [r]))) ∧
  (∀ (c : Cmd) (d : Dev),
    d.nextCmd 0x301 = some c →
    c.bufsOk = true →
    d.on SS_STAT_BUSY = false →
    c.noBuf 0 (c.num 1) = false →
    hostRecord (c.num 0) = false →
    On .setWrite d (fun e =>
      e = d.finish c (FwRes.fail 0x14))) ∧
  (∀ (c : Cmd) (d : Dev),
    d.nextCmd 0x302 = some c →
    c.bufsOk = true →
    d.on SS_STAT_BUSY = false →
    c.rsvd 0 0xFFFF = false →
    c.num 0 ≠ 2 →
    hostRecord (c.num 0) = true →
    (d.ssCommit (c.num 0) none).1.1 = 0 →
    On .setDelete d (fun e =>
      ∃ q : Dev, q = (d.ssCommit (c.num 0) none).2 ∧ q.rd SS_RES_RES = 0 ∧ e = q.finish c (FwRes.ok []))) ∧
  (∀ (c : Cmd) (l : List (List (BitVec 32))) (d : Dev),
    d.nextCmd 0x303 = some c →
    c.bufsOk = true →
    (d.ssActive.map d.ssEntries).getD [] = l →
    c.noBuf 1 (8 * l.length) = false →
    On .setList d (fun e =>
      e = d.finish c ({ FwRes.ok [BitVec.ofNat 32 l.length, BitVec.ofNat 32 (d.rd SS_FREE_BYTES)] with out := l.flatMap (fun w => wordBytes (w.getD 0 0) ++ wordBytes (w.getD 2 0)) }))) ∧
  (∀ (c : Cmd) (d : Dev),
    d.nextCmd 0x400 = some c →
    c.bufsOk = true →
    c.num 0 < 8 →
    On .adRead d (fun e =>
      e = d.finish c (FwRes.ok [BitVec.ofNat 32 (d.stamp (c.num 0)).toNat, BitVec.ofNat 32 ((d.stamp (c.num 0)).toNat / 2 ^ 32), BitVec.ofNat 32 (d.ad (c.num 0)).omega.toNat, BitVec.ofNat 32 (((d.ad (c.num 0)).omega.toInt / 2 ^ 32) % 2 ^ 32).toNat, BitVec.ofNat 32 (d.ad (c.num 0)).meas.toNat, BitVec.ofNat 32 ((d.ad (c.num 0)).meas.toNat / 2 ^ 32), d.reg (AU_ADn_STAT (c.num 0)), d.reg (AU_ADn_CNT (c.num 0))]))) ∧
  (∀ (c : Cmd) (d : Dev),
    d.nextCmd 0x401 = some c →
    c.bufsOk = true →
    c.rsvd 0 0x107 = false →
    c.rsvd 7 0xFFFF = false →
    d.adLfkHeld c (c.fld 0 2 0) = false →
    (c.fld 0 2 0) < 7 →
    wbit (c.arg 0) 8 = false →
    d.claimed 0x16 (c.fld 0 2 0) 1 = true →
    d.ev.f3 = false →
    d.adOn (c.fld 0 2 0) = false →
    On .adCfg d (fun e =>
      ∃ q : Dev, q.reg (AU_ADn_CFG (c.fld 0 2 0)) = rwPart (AU_ADn_CFG (c.fld 0 2 0)) (c.arg 1) ∧ q.reg (AU_ADn_CPR (c.fld 0 2 0)) = c.arg 2 ∧ q.reg (AU_ADn_TRK (c.fld 0 2 0)) = rwPart (AU_ADn_TRK (c.fld 0 2 0)) (c.arg 3) ∧ q.reg (AU_ADn_VNOM_LO (c.fld 0 2 0)) = c.arg 6 ∧ q.reg (AU_ADn_VNOM_HI (c.fld 0 2 0)) = c.arg 7 ∧ RegsBut [AU_ADn_CFG (c.fld 0 2 0), AU_ADn_CPR (c.fld 0 2 0), AU_ADn_TRK (c.fld 0 2 0), AU_ADn_WIN (c.fld 0 2 0), AU_ADn_ZOFF (c.fld 0 2 0), AU_ADn_VNOM_LO (c.fld 0 2 0), AU_ADn_VNOM_HI (c.fld 0 2 0)] d q ∧ q = { d with regs := q.regs, flags := q.flags } ∧ e = q.finish c (FwRes.ok []))) ∧
  (∀ (c : Cmd) (d : Dev),
    d.nextCmd 0x401 = some c →
    c.bufsOk = true →
    c.rsvd 0 0x107 = false →
    c.rsvd 7 0xFFFF = false →
    d.adLfkHeld c (c.fld 0 2 0) = false →
    (c.fld 0 2 0) < 7 →
    wbit (c.arg 0) 8 = true →
    (((d.disableDomain (c.fld 0 2 0)).adTune (c.fld 0 2 0) c).adConfig (c.fld 0 2 0) c).adCfgOk (c.fld 0 2 0) = true →
    d.claimed 0x16 (c.fld 0 2 0) 1 = true →
    d.ev.f3 = false →
    On .adCfg d (fun e =>
      ∃ q : Dev, q.adOn (c.fld 0 2 0) = true ∧ q = (((d.disableDomain (c.fld 0 2 0)).adTune (c.fld 0 2 0) c).adConfig (c.fld 0 2 0) c).enableDomain (c.fld 0 2 0) ∧ e = q.finish c (FwRes.ok []))) ∧
  (∀ (c : Cmd) (d : Dev),
    d.nextCmd 0x401 = some c →
    c.bufsOk = true →
    c.rsvd 0 0x107 = false →
    c.rsvd 7 0xFFFF = false →
    d.adLfkHeld c (c.fld 0 2 0) = false →
    (c.fld 0 2 0) < 7 →
    wbit (c.arg 0) 8 = false →
    d.claimed 0x16 (c.fld 0 2 0) 1 = false →
    On .adCfg d (fun e =>
      e = d.finish c (FwRes.fail 0x0A))) ∧
  (∀ (c : Cmd) (d : Dev),
    d.nextCmd 0x402 = some c →
    c.bufsOk = true →
    c.rsvd 0 0x307 = false →
    c.rsvd 4 0xFFFF = false →
    (c.fld 0 2 0) < 7 →
    wbit (c.arg 0) 8 = true →
    wbit (c.arg 0) 9 = true →
    d.claimed 0x16 (c.fld 0 2 0) 1 = true →
    d.ev.f3 = false →
    On .adSet d (fun e =>
      ∃ q : Dev, (q.stamp (c.fld 0 2 0)).toNat = c.num 1 + c.num 2 * 2 ^ 32 ∧ (q.ad (c.fld 0 2 0)).omega.toNat = c.num 3 + c.num 4 * 2 ^ 32 ∧ (∀ n, n ≠ (c.fld 0 2 0) → q.ad n = d.ad n) ∧ RegsBut [AU_ADn_SET_LO (c.fld 0 2 0), AU_ADn_SET_HI (c.fld 0 2 0), AU_ADn_VNOM_LO (c.fld 0 2 0), AU_ADn_VNOM_HI (c.fld 0 2 0)] d q ∧ q = { d with regs := q.regs, flags := q.flags, ang := q.ang } ∧ e = q.finish c (FwRes.ok []))) ∧
  (∀ (c : Cmd) (d : Dev),
    d.nextCmd 0x402 = some c →
    c.bufsOk = true →
    (c.fld 0 2 0) = 7 →
    On .adSet d (fun e =>
      e = d.finish c (FwRes.fail 0x14))) ∧
  (∀ (c : Cmd) (d : Dev),
    d.nextCmd 0x403 = some c →
    c.bufsOk = true →
    (∀ p : Fin 8, d.on (ET_INSp_STAT_BUSY p) = false) →
    c.rsvd 4 0x3F = false →
    d.insertCheck (c.arg 1) (c.arg 2) (c.arg 3) (c.fld 4 5 0) = 0 →
    d.claimed 0x0C (c.fld 4 5 0) 1 = true →
    d.rd (ET_LSTATl_COUNT (c.fld 4 5 0)) < 65535 →
    On .evInsert d (fun e =>
      ∃ q : Dev, (q.entry d.newIndex).map (fun x => (x.w0, x.w1, x.w2, x.w3)) = some (c.arg 0, wput (wput (c.arg 1) 13 13 1) 29 24 (c.fld 4 5 0), c.arg 2, c.arg 3) ∧ (∀ j, j ≠ d.newIndex → q.entry j = d.entry j) ∧ q.rd ET_STAT_FREE = d.rd ET_STAT_FREE - 1 ∧ q.rd (ET_LSTATl_COUNT (c.fld 4 5 0)) = d.rd (ET_LSTATl_COUNT (c.fld 4 5 0)) + 1 ∧ q = { d with regs := q.regs, flags := q.flags, ang := q.ang } ∧ e = q.finish c (FwRes.ok [BitVec.ofNat 32 (b2n (reached40 (d.listRev (c.fld 4 5 0)) (d.ad (d.rd (ET_LCFGl_DOM (c.fld 4 5 0)))).prev4 (BitVec.ofNat 40 (wbits (c.arg 1) 7 0 * 2 ^ 32 + c.num 0)))), BitVec.ofNat 32 d.newIndex]))) ∧
  (∀ (c : Cmd) (d : Dev),
    d.nextCmd 0x403 = some c →
    c.bufsOk = true →
    (∀ p : Fin 8, d.on (ET_INSp_STAT_BUSY p) = false) →
    c.rsvd 4 0x3F = false →
    d.insertCheck (c.arg 1) (c.arg 2) (c.arg 3) (c.fld 4 5 0) = 2 →
    d.claimed 0x0C (c.fld 4 5 0) 1 = true →
    On .evInsert d (fun e =>
      e = d.finish c (FwRes.fail 0x1A))) ∧
  (∀ (c : Cmd) (x : EtEntry) (l : List Nat) (d : Dev),
    d.nextCmd 0x404 = some c →
    c.bufsOk = true →
    d.on ET_DEL_STAT_BUSY = false →
    c.num 0 < 32768 →
    d.entry (c.num 0) = some x →
    d.claimed 0x0C x.list 1 = true →
    d.ang.reins.contains (c.num 0) = false →
    d.list x.list = l →
    l.head? ≠ some (c.num 0) →
    On .evDelete d (fun e =>
      ∃ q : Dev, q.entry (c.num 0) = none ∧ (∀ j, j ≠ c.num 0 → q.entry j = d.entry j) ∧ q.list x.list = l.filter (fun j => j ≠ c.num 0) ∧ q.on ET_DEL_STAT_BUSY = false ∧ q.rd ET_DEL_STAT_RES = 0 ∧ q.mem = d.mem ∧ e = q.finish c (FwRes.ok []))) ∧
  (∀ (c : Cmd) (d : Dev),
    d.nextCmd 0x404 = some c →
    c.bufsOk = true →
    d.on ET_DEL_STAT_BUSY = false →
    c.num 0 < 32768 →
    d.entry (c.num 0) = none →
    d.ang.reins.contains (c.num 0) = false →
    On .evDelete d (fun e =>
      ∃ q : Dev, q.on ET_DEL_STAT_BUSY = false ∧ q.rd ET_DEL_STAT_RES = 1 ∧ q.rd ET_DEL_IDX = c.num 0 ∧ RegsBut [ET_DEL, ET_DEL_STAT] d q ∧ q = { d with regs := q.regs, flags := q.flags } ∧ e = q.finish c (FwRes.fail 0x16))) ∧
  (∀ (c : Cmd) (d : Dev),
    d.nextCmd 0x405 = some c →
    c.bufsOk = true →
    c.rsvd 0 0x1F3F = false →
    d.claimed 0x0C (c.fld 0 5 0) 1 = true →
    d.on (ET_LSTATl_COUNT (c.fld 0 5 0)) = false →
    On .evList d (fun e =>
      ∃ q : Dev, q.rd (ET_LCFGl_EN (c.fld 0 5 0)) = c.fld 0 8 8 ∧ q.rd (ET_LCFGl_DOM (c.fld 0 5 0)) = c.fld 0 11 9 ∧ q.rd (ET_LCFGl_DIR (c.fld 0 5 0)) = c.fld 0 12 12 ∧ RegsBut [ET_LCFGl (c.fld 0 5 0)] d q ∧ q = { d with regs := q.regs, flags := q.flags } ∧ e = q.finish c (FwRes.ok [BitVec.ofNat 32 (d.rd (ET_LSTATl_COUNT (c.fld 0 5 0)))]))) ∧
  (∀ (c : Cmd) (d : Dev),
    d.nextCmd 0x405 = some c →
    c.bufsOk = true →
    c.rsvd 0 0x1F3F = false →
    d.claimed 0x0C (c.fld 0 5 0) 1 = true →
    d.on (ET_LSTATl_COUNT (c.fld 0 5 0)) = true →
    c.fld 0 11 9 ≠ d.rd (ET_LCFGl_DOM (c.fld 0 5 0)) →
    On .evList d (fun e =>
      e = d.finish c (FwRes.fail 0x15))) ∧
  (∀ (c : Cmd) (d : Dev),
    d.nextCmd 0x406 = some c →
    c.bufsOk = true →
    c.num 0 < 256 →
    c.num 2 < c.num 3 →
    c.num 3 < 65536 →
    c.num 4 < 65536 →
    d.claimed 0x0D (c.num 0) 1 = true →
    d.cadNamed (c.num 0) = false →
    On .cadSet d (fun e =>
      ∃ q : Dev, q.reg (ET_CADc_Q (c.num 0)) = c.arg 1 ∧ q.rd (ET_CADc_N_N (c.num 0)) = c.num 2 ∧ q.rd (ET_CADc_D_D (c.num 0)) = c.num 3 ∧ q.rd (ET_CADc_ACC_ACC (c.num 0)) = c.num 4 ∧ RegsBut [ET_CADc_Q (c.num 0), ET_CADc_N (c.num 0), ET_CADc_D (c.num 0), ET_CADc_ACC (c.num 0)] d q ∧ q = { d with regs := q.regs, flags := q.flags } ∧ e = q.finish c (FwRes.ok []))) ∧
  (∀ (c : Cmd) (d : Dev),
    d.nextCmd 0x406 = some c →
    c.bufsOk = true →
    c.num 3 ≤ c.num 2 →
    On .cadSet d (fun e =>
      e = d.finish c (FwRes.fail 0x14))) ∧
  (∀ (c : Cmd) (d : Dev),
    d.nextCmd 0x500 = some c →
    c.bufsOk = true →
    c.num 0 < 48 →
    On .loopRead d (fun e =>
      e = d.finish c (FwRes.ok [d.reg (AHD_LTt_STEP (c.num 0)), d.reg (AHD_LTt_STAT (c.num 0)), d.reg (AHD_LTt_DIFF (c.num 0)), d.reg (AHD_LTt_CNT0 (c.num 0)), d.reg (AHD_LTt_CNT1 (c.num 0)), d.reg (AHD_LTt_CNT2 (c.num 0)), d.reg (AHD_LTt_LAT (c.num 0)), 0, d.reg (AHD_LTt_POL (c.num 0)), d.reg (AHD_LTt_TOL (c.num 0)), d.reg (AHD_LTt_CFG (c.num 0)), d.reg (AHD_LTt_TIM (c.num 0))]))) ∧
  (∀ (c : Cmd) (d : Dev),
    d.nextCmd 0x500 = some c →
    c.bufsOk = true →
    48 ≤ c.num 0 →
    On .loopRead d (fun e =>
      e = d.finish c (FwRes.fail 0x14))) ∧
  (∀ (c : Cmd) (d : Dev),
    d.nextCmd 0x501 = some c →
    c.bufsOk = true →
    c.num 0 < 48 →
    c.rsvd 1 0x3F03 = false →
    c.fld 1 1 0 ≤ 1 ∨ (c.fld 1 1 0 = 2 ∧ d.on (AHD_LTt_CFG_PSRC (c.num 0)) = false) →
    d.claimed 0x0B (c.num 0) 1 = true →
    d.ev.f3 = false →
    On .loopPolicy d (fun e =>
      ∃ q : Dev, q.task (c.num 0) = { d.task (c.num 0) with pol := c.fld 1 1 0, res := c.fld 1 13 8, tol := c.num 2 } ∧ (∀ u, u ≠ (c.num 0) → q.task u = d.task u) ∧ q.reg (AHD_LTt_TOL (c.num 0)) = c.arg 2 ∧ q.rd (AHD_LTt_POL_POL (c.num 0)) = c.fld 1 1 0 ∧ q.rd (AHD_LTt_POL_RES (c.num 0)) = c.fld 1 13 8 ∧ RegsBut [AHD_LTt_TOL (c.num 0), AHD_LTt_POL (c.num 0), AHD_LTt_STAT (c.num 0)] d q ∧ q.reg (AHD_LTt_STAT (c.num 0)) = wput (d.reg (AHD_LTt_STAT (c.num 0))) 5 3 (d.task (c.num 0)).steps.length ∧ q = { d with regs := q.regs, flags := q.flags, ahd := q.ahd } ∧ e = q.finish c (FwRes.ok [d.reg (AHD_LTt_DIFF (c.num 0))]))) ∧
  (∀ (c : Cmd) (t : Fin 48) (d : Dev),
    d.nextCmd 0x502 = some c →
    c.bufsOk = true →
    c.num64 0 = 2 ^ t.val →
    d.claimed 0x0B t 1 = true →
    d.ev.f3 = false →
    d.taskState t = 1 →
    (d.task t).steps = [] →
    On .loopHalt d (fun e =>
      ∃ q : Dev, q.taskState t = 3 ∧ (q.task t).steps = [] ∧ (if t.val < 32 then q.rdBit AHD_ATTN0_TASK t = true else q.rdBit AHD_ATTN1_TASK (t - 32) = true) ∧ (∀ u, u < 48 → u ≠ t.val → q.task u = d.task u ∧ q.taskState u = d.taskState u) ∧ q.mem = d.mem ∧ e = q.finish c (FwRes.ok [BitVec.ofNat 32 (2 ^ t.val), BitVec.ofNat 32 (2 ^ t.val / 2 ^ 32)]))) ∧
  (∀ (c : Cmd) (t : Fin 48) (d : Dev),
    d.nextCmd 0x502 = some c →
    c.bufsOk = true →
    c.num64 0 = 2 ^ t.val →
    d.claimed 0x0B t 1 = false →
    On .loopHalt d (fun e =>
      e = d.finish c (FwRes.fail 0x0A))) ∧
  (∀ (c : Cmd) (d : Dev),
    d.nextCmd 0x503 = some c →
    c.bufsOk = true →
    c.num 0 < 48 →
    c.num 3 < 65536 →
    (d.startPrep (c.num 0) c).taskOk (c.num 0) = true →
    d.claimed 0x0B (c.num 0) 1 = true →
    d.ev.f3 = false →
    d.taskState (c.num 0) = 0 ∨ d.taskState (c.num 0) = 3 →
    On .loopStart d (fun e =>
      ∃ q : Dev, q.taskState (c.num 0) = 1 ∧ q.on (AHD_LTt_CFG_EN (c.num 0)) = true ∧ q.rd (AHD_LTt_STEP_STEP (c.num 0)) = 0 ∧ (q.task (c.num 0)).openS = BitVec.ofNat 64 (c.num 1 + c.num 2 * 2 ^ 32) ∧ (q.task (c.num 0)).openAcc = c.num 3 ∧ (q.task (c.num 0)).steps = [] ∧ (∀ u, u < 48 → u ≠ (c.num 0) → q.task u = d.task u ∧ q.taskState u = d.taskState u) ∧ q.mem = d.mem ∧ e = q.finish c (FwRes.ok [q.reg (AHD_LTt_STAT (c.num 0))]))) ∧
  (∀ (c : Cmd) (d : Dev),
    d.nextCmd 0x503 = some c →
    c.bufsOk = true →
    c.num 0 < 48 →
    c.num 3 < 65536 →
    (d.startPrep (c.num 0) c).taskOk (c.num 0) = false →
    On .loopStart d (fun e =>
      e = d.finish c (FwRes.fail 0x14))) ∧
  (∀ (c : Cmd) (s : LStep) (d : Dev),
    d.nextCmd 0x504 = some c →
    c.bufsOk = true →
    c.num 0 < 48 →
    d.claimed 0x0B (c.num 0) 1 = true →
    d.ev.f3 = false →
    d.taskState (c.num 0) = 1 →
    d.step? (c.num 0) (d.front (c.num 0)) = some s →
    s.commitAt = none →
    On .loopSquash d (fun e =>
      ∃ q : Dev, q = d.decideSquash (c.num 0) (d.front (c.num 0)) ∧ e = q.finish c (FwRes.ok []))) ∧
  (∀ (c : Cmd) (d : Dev),
    d.nextCmd 0x504 = some c →
    c.bufsOk = true →
    c.num 0 < 48 →
    d.claimed 0x0B (c.num 0) 1 = true →
    d.taskState (c.num 0) ≠ 1 →
    On .loopSquash d (fun e =>
      e = d.finish c (FwRes.fail 0x15))) ∧
  (∀ (c : Cmd) (t : Fin 48) (d : Dev),
    d.nextCmd 0x505 = some c →
    c.bufsOk = true →
    c.num64 0 = 2 ^ t.val →
    d.claimed 0x0B t 1 = true →
    d.ev.f3 = false →
    On .loopClr d (fun e =>
      ∃ q : Dev, q.reg (AHD_LTt_CNT0 t) = 0 ∧ q.reg (AHD_LTt_CNT1 t) = 0 ∧ q.reg (AHD_LTt_CNT2 t) = 0 ∧ q.reg (AHD_LTt_LAT t) = 0 ∧ RegsBut [AHD_LTt_CNT0 t, AHD_LTt_CNT1 t, AHD_LTt_CNT2 t, AHD_LTt_LAT t] d q ∧ q = { d with regs := q.regs, flags := q.flags } ∧ e = q.finish c (FwRes.ok []))) ∧
  (∀ (c : Cmd) (d : Dev),
    d.nextCmd 0x600 = some c →
    c.bufsOk = true →
    c.rsvd 0 0x1FF7 = false →
    ((d.wr (AHD_SNs_STAT_STATE (c.fld 0 2 0)) 0).snapCmd (c.fld 0 2 0) c).on (AHD_SNs_CTL_CFGERR (c.fld 0 2 0)) = false →
    d.claimed 0x10 (c.fld 0 2 0) 1 = true →
    d.on (AHD_SNs_STAT_STATE (c.fld 0 2 0)) = false →
    On .snapArm d (fun e =>
      ∃ q : Dev, q.rd (AHD_SNs_STAT_STATE (c.fld 0 2 0)) = 1 ∧ q.rd (AHD_SNs_LIST_ADDR (c.fld 0 2 0)) = c.num 1 / 16 % 524288 ∧ q.rd (AHD_SNs_NITEM_N (c.fld 0 2 0)) = c.num 2 % 512 ∧ q.rd (AHD_SNs_DST_ADDR (c.fld 0 2 0)) = c.num 3 / 32 % 262144 ∧ q.rd (AHD_SNs_SIZE_SIZE (c.fld 0 2 0)) = c.num 4 / 32 % 262144 ∧ q.rd (AHD_SNs_CTL_DOM (c.fld 0 2 0)) = c.fld 0 6 4 ∧ q.rd (AHD_SNs_CTL_STAND (c.fld 0 2 0)) = c.fld 0 7 7 ∧ q.rd (AHD_SNs_CTL_KS (c.fld 0 2 0)) = c.fld 0 11 8 ∧ q.snap (c.fld 0 2 0) = { d.snap (c.fld 0 2 0) with evt := wbit (c.arg 0) 12, stop := false } ∧ (∀ u, u ≠ (c.fld 0 2 0) → q.snap u = d.snap u) ∧ RegsBut [AHD_SNs_CTL (c.fld 0 2 0), AHD_SNs_LIST (c.fld 0 2 0), AHD_SNs_NITEM (c.fld 0 2 0), AHD_SNs_DST (c.fld 0 2 0), AHD_SNs_SIZE (c.fld 0 2 0), AHD_SNs_LF_LO (c.fld 0 2 0), AHD_SNs_LF_HI (c.fld 0 2 0), AHD_SNs_STAT (c.fld 0 2 0)] d q ∧ q = { d with regs := q.regs, flags := q.flags, ahd := q.ahd } ∧ e = q.finish c (FwRes.ok [d.reg (AHD_SNs_SEQ (c.fld 0 2 0))]))) ∧
  (∀ (c : Cmd) (d : Dev),
    d.nextCmd 0x601 = some c →
    c.bufsOk = true →
    c.num 0 < 8 →
    d.claimed 0x10 (c.num 0) 1 = true →
    d.rd (AHD_SNs_STAT_STATE (c.num 0)) = 1 →
    On .snapStop d (fun e =>
      ∃ q : Dev, q.rd (AHD_SNs_STAT_STATE (c.num 0)) = 0 ∧ RegsBut [AHD_SNs_STAT (c.num 0)] d q ∧ q = { d with regs := q.regs, flags := q.flags } ∧ e = q.finish c (FwRes.ok [d.reg (AHD_SNs_SEQ (c.num 0))]))) ∧
  (∀ (c : Cmd) (d : Dev),
    d.nextCmd 0x602 = some c →
    c.bufsOk = true →
    c.num 0 < 8 →
    On .snapRead d (fun e =>
      e = d.finish c (FwRes.ok [d.reg (AHD_SNs_STAT (c.num 0)), d.reg (AHD_SNs_SEQ (c.num 0)), d.reg (AHD_SNs_LF_LO (c.num 0)), d.reg (AHD_SNs_LF_HI (c.num 0))])))

/-- A command that firmware takes, with its buffers right, has its effect and is answered: port words, writes of port registers (every pair or none), SAFE and trip clears, FIFO data, claims and their list, memory accesses and their status, row repairs, rank retirement, flip masks, the trace ring, power domains and row clocks, network ports and gate lists, the time, the event mask and a test event. A reserved bit or a bad argument is answered BADARG, an unclaimed resource UNCLAIMED, a held one CONFLICT, a wrong state BADSTATE, all without effect; a domain asked on is answered when it is up. The offset, path delay and grandmaster that TIME_READ gives are the 802.1AS stack's and stay open (log entry 4). -/
def Obligations.PortAndSystemCommands : Prop :=
  (∀ (c : Cmd) (d : Dev),
    d.nextCmd 0x700 = some c →
    c.bufsOk = true →
    c.fld 0 15 12 = 4 →
    c.rsvd 0 0xF03F = false →
    (c.fld 0 5 0) < 48 →
    On .portRead d (fun e =>
      e = d.finish c (FwRes.ok ([d.reg (PW_PAIRp_CMD (c.fld 0 5 0)), d.reg (PW_PAIRp_STAT (c.fld 0 5 0)), d.reg (PW_PAIRp_CNT (c.fld 0 5 0))] ++ List.replicate 9 0)))) ∧
  (∀ (c : Cmd) (d : Dev),
    d.nextCmd 0x700 = some c →
    c.bufsOk = true →
    c.rsvd 0 0xF03F = false →
    (c.fld 0 5 0) < hbCount (c.fld 0 15 12) →
    On .portRead d (fun e =>
      e = d.finish c (FwRes.ok ((d.portWords (c.fld 0 15 12) (c.fld 0 5 0)).take 12)))) ∧
  (∀ (c : Cmd) (d : Dev),
    d.nextCmd 0x700 = some c →
    c.bufsOk = true →
    hbCount (c.fld 0 15 12) ≤ (c.fld 0 5 0) →
    On .portRead d (fun e =>
      e = d.finish c (FwRes.fail 0x14))) ∧
  (∀ (c : Cmd) (d : Dev),
    d.nextCmd 0x701 = some c →
    c.bufsOk = true →
    c.num 0 = 1 →
    c.pairBad 0 = false →
    d.pairUnclaimed c 0 = false →
    d.ev.f3 = false →
    d.pairRefused (c.pairAddr 0) (c.arg 2) = 0 →
    On .portWrite d (fun e =>
      ∃ q : Dev, q = d.harbourWrite (c.pairAddr 0) (c.arg 2) ∧ e = q.finish c (FwRes.ok []))) ∧
  (∀ (c : Cmd) (k : Nat) (d : Dev),
    d.nextCmd 0x701 = some c →
    c.bufsOk = true →
    c.num 0 = 2 →
    c.pairBad 0 = false →
    d.pairUnclaimed c 0 = false →
    c.pairBad 1 = false →
    d.pairUnclaimed c 1 = false →
    d.ev.f3 = false →
    d.pairRefused (c.pairAddr 0) (c.arg 2) = 0 →
    (d.harbourWrite (c.pairAddr 0) (c.arg 2)).pairRefused (c.pairAddr 1) (c.arg 4) = k →
    k ≠ 0 →
    On .portWrite d (fun e =>
      e = d.finish c (FwRes.failPart k 1))) ∧
  (∀ (c : Cmd) (d : Dev),
    d.nextCmd 0x701 = some c →
    c.bufsOk = true →
    c.num 0 = 1 →
    c.pairBad 0 = false →
    d.pairUnclaimed c 0 = true →
    On .portWrite d (fun e =>
      e = d.finish c (FwRes.failPart 0x0A 0))) ∧
  (∀ (c : Cmd) (d : Dev),
    d.nextCmd 0x701 = some c →
    c.bufsOk = true →
    c.num 0 = 0 ∨ 5 < c.num 0 →
    On .portWrite d (fun e =>
      e = d.finish c (FwRes.fail 0x14))) ∧
  (∀ (c : Cmd) (d : Dev),
    d.nextCmd 0x702 = some c →
    c.bufsOk = true →
    c.num 0 = 1 →
    d.ev.f3 = false →
    On .pwmSafe d (fun e =>
      ∃ q : Dev, q.on PW_CTRL_SAFE = true ∧ (∀ p, p < 48 → (q.pair p).safe = true) ∧ q = d.safeWrite true ∧ e = q.finish c (FwRes.ok []))) ∧
  (∀ (c : Cmd) (d : Dev),
    d.nextCmd 0x702 = some c →
    c.bufsOk = true →
    c.num 0 = 0 →
    d.ev.f3 = false →
    On .pwmSafe d (fun e =>
      ∃ q : Dev, q.on PW_CTRL_SAFE = false ∧ q = d.safeWrite false ∧ e = q.finish c (FwRes.ok []))) ∧
  (∀ (c : Cmd) (d : Dev),
    d.nextCmd 0x702 = some c →
    c.bufsOk = true →
    c.num 0 ≤ 1 →
    d.ev.f3 = true →
    On .pwmSafe d (fun e =>
      e = d.finish c (FwRes.fail 0x15))) ∧
  (∀ (c : Cmd) (p : Fin 48) (d : Dev),
    d.nextCmd 0x703 = some c →
    c.bufsOk = true →
    c.num64 0 = 2 ^ p.val →
    d.claimed 0x01 p 1 = true →
    d.ev.f3 = false →
    (d.pair p).tripAt ≠ some d.now →
    On .pwmTripclr d (fun e =>
      ∃ q : Dev, q.rd (PW_PAIRp_STAT_TRIP p) = 0 ∧ RegsBut [PW_PAIRp_STAT p] d q ∧ q = { d with regs := q.regs, flags := q.flags } ∧ e = q.finish c (FwRes.ok [0, 0]))) ∧
  (∀ (c : Cmd) (l : List (BitVec 32 × Bool)) (d : Dev),
    d.nextCmd 0x704 = some c →
    c.bufsOk = true →
    c.noBuf 1 (4 * c.fld 0 31 16) = false →
    c.rsvd 0 0xFFFF0007 = false →
    d.claimed 0x09 (c.fld 0 2 0) 1 = true →
    (d.hfifo (c.fld 0 2 0)).items = l →
    l.length ≤ c.fld 0 31 16 →
    (d.hfifo (c.fld 0 2 0)).prev.all (fun q => decide (q.at_ ≠ d.now)) = true →
    On .fifoRead d (fun e =>
      ∃ q : Dev, (q.hfifo (c.fld 0 2 0)).items = [] ∧ (q.hfifo (c.fld 0 2 0)).packet = (d.hfifo (c.fld 0 2 0)).packet ∧ (∀ x, x ≠ (c.fld 0 2 0) → q.hfifo x = d.hfifo x) ∧ RegsBut [FQ_Qf_STAT (c.fld 0 2 0)] d q ∧ q = { d with regs := q.regs, flags := q.flags, hb := q.hb } ∧ e = q.finish c ({ FwRes.ok [BitVec.ofNat 32 l.length, q.reg (FQ_Qf_STAT (c.fld 0 2 0))] with out := wordsBytes (l.map (fun y => y.1)) }))) ∧
  (∀ (c : Cmd) (cls first len : Nat) (d : Dev),
    d.nextCmd 0x800 = some c →
    c.bufsOk = true →
    c.nbuf = 0 →
    c.num 0 = 1 →
    claimEntry [c.arg 1, c.arg 2, c.arg 3, c.arg 4] = some (cls, first, len, false) →
    d.cfg.claims.any (fun (x : Claim) => x.meets cls first len) = false →
    d.ev.f3 = false →
    On .claim d (fun e =>
      ∃ q : Dev, q = d.setClaims (d.cfg.claims ++ [{ cls := cls, first := first, len := len, holder := 3, tag := c.tag }]) ∧ e = q.finish c (FwRes.ok [1]))) ∧
  (∀ (c : Cmd) (cls first len : Nat) (d : Dev),
    d.nextCmd 0x800 = some c →
    c.bufsOk = true →
    c.nbuf = 0 →
    c.num 0 = 1 →
    claimEntry [c.arg 1, c.arg 2, c.arg 3, c.arg 4] = some (cls, first, len, false) →
    d.cfg.claims.any (fun (x : Claim) => x.meets cls first len) = true →
    On .claim d (fun e =>
      e = d.finish c (FwRes.failPart 9 0))) ∧
  (∀ (c : Cmd) (cls first len : Nat) (d : Dev),
    d.nextCmd 0x800 = some c →
    c.bufsOk = true →
    c.nbuf = 0 →
    c.num 0 = 1 →
    claimEntry [c.arg 1, c.arg 2, c.arg 3, c.arg 4] = some (cls, first, len, true) →
    d.claimed cls first len = true →
    d.ev.f3 = false →
    On .claim d (fun e =>
      ∃ q : Dev, q = d.setClaims (freeClaims cls first len d.cfg.claims) ∧ e = q.finish c (FwRes.ok [1]))) ∧
  (∀ (c : Cmd) (d : Dev),
    d.nextCmd 0x800 = some c →
    c.bufsOk = true →
    c.nbuf = 0 →
    c.num 0 = 1 →
    claimEntry [c.arg 1, c.arg 2, c.arg 3, c.arg 4] = none →
    On .claim d (fun e =>
      e = d.finish c (FwRes.failPart 0x14 0))) ∧
  (∀ (c : Cmd) (k : Claim) (d : Dev),
    d.nextCmd 0x801 = some c →
    c.bufsOk = true →
    c.rsvd 2 0xFF = false →
    c.num 0 ≠ 0x13 →
    c.num 1 < claimUnits (c.num 0) →
    d.cfg.claims.filter (fun (x : Claim) => x.meets (c.num 0) (c.num 1) 1) = [k] →
    On .claimQuery d (fun e =>
      e = d.finish c (FwRes.ok [BitVec.ofNat 32 k.holder, if k.holder = 3 then k.tag else 0]))) ∧
  (∀ (c : Cmd) (d : Dev),
    d.nextCmd 0x801 = some c →
    c.bufsOk = true →
    c.rsvd 2 0xFF = false →
    c.num 0 ≠ 0x13 →
    c.num 1 < claimUnits (c.num 0) →
    d.cfg.claims.any (fun (x : Claim) => x.meets (c.num 0) (c.num 1) 1) = false →
    On .claimQuery d (fun e =>
      e = d.finish c (FwRes.ok [0, 0]))) ∧
  (∀ (c : Cmd) (d : Dev),
    d.nextCmd 0x802 = some c →
    c.bufsOk = true →
    c.noBuf 1 (16 * d.cfg.claims.length) = false →
    On .claimList d (fun e =>
      e = d.finish c ({ FwRes.ok [BitVec.ofNat 32 d.cfg.claims.length] with out := wordsBytes (d.cfg.claims.flatMap Claim.words) }))) ∧
  (∀ (c : Cmd) (d : Dev),
    d.nextCmd 0x802 = some c →
    c.bufsOk = true →
    c.noBuf 1 (16 * d.cfg.claims.length) = true →
    On .claimList d (fun e =>
      e = d.finish c (FwRes.fail 0x13))) ∧
  (∀ (c : Cmd) (b : List (BitVec 8)) (d : Dev),
    d.nextCmd 0x900 = some c →
    c.bufsOk = true →
    c.noBuf 1 (c.num 2) = false →
    c.num 2 ≤ 64 →
    packetLens (c.num64 0) (c.num 2) = [c.num 2] →
    (d.niRead 24 (c.num64 0) (c.num 2)).1 = (0, b) →
    (d.niRead 24 (c.num64 0) (c.num 2)).2.net.stall = false →
    On .memRead d (fun e =>
      ∃ q : Dev, q = (d.niRead 24 (c.num64 0) (c.num 2)).2 ∧ e = q.finish c ({ FwRes.ok [BitVec.ofNat 32 b.length] with out := b }))) ∧
  (∀ (c : Cmd) (k : Nat) (d : Dev),
    d.nextCmd 0x900 = some c →
    c.bufsOk = true →
    c.noBuf 1 (c.num 2) = false →
    c.num 2 ≤ 64 →
    packetLens (c.num64 0) (c.num 2) = [c.num 2] →
    (d.niRead 24 (c.num64 0) (c.num 2)).1.1 = k →
    k ≠ 0 →
    (d.niRead 24 (c.num64 0) (c.num 2)).2.net.stall = false →
    On .memRead d (fun e =>
      ∃ q : Dev, q = (d.niRead 24 (c.num64 0) (c.num 2)).2 ∧ e = q.finish c ({ FwRes.fail (busStatus k) with res := [0] }))) ∧
  (∀ (c : Cmd) (d : Dev),
    d.nextCmd 0x901 = some c →
    c.bufsOk = true →
    c.noBuf 0 (c.num 2) = false →
    c.num 2 ≤ 64 →
    packetLens (c.num64 0) (c.num 2) = [c.num 2] →
    (d.bufIn c (c.num 2)).length = c.num 2 →
    (d.niWrite 24 (c.num64 0) (d.bufIn c (c.num 2))).1 = 0 →
    (d.niWrite 24 (c.num64 0) (d.bufIn c (c.num 2))).2.net.stall = false →
    On .memWrite d (fun e =>
      ∃ q : Dev, q = (d.niWrite 24 (c.num64 0) (d.bufIn c (c.num 2))).2 ∧ e = q.finish c (FwRes.ok [BitVec.ofNat 32 (c.num 2)]))) ∧
  (∀ (c : Cmd) (k : Nat) (d : Dev),
    d.nextCmd 0x901 = some c →
    c.bufsOk = true →
    c.noBuf 0 (c.num 2) = false →
    c.num 2 ≤ 64 →
    packetLens (c.num64 0) (c.num 2) = [c.num 2] →
    (d.bufIn c (c.num 2)).length = c.num 2 →
    (d.niWrite 24 (c.num64 0) (d.bufIn c (c.num 2))).1 = k →
    k ≠ 0 →
    (d.niWrite 24 (c.num64 0) (d.bufIn c (c.num 2))).2.net.stall = false →
    On .memWrite d (fun e =>
      ∃ q : Dev, q = (d.niWrite 24 (c.num64 0) (d.bufIn c (c.num 2))).2 ∧ e = q.finish c ({ FwRes.fail (busStatus k) with res := [0] }))) ∧
  (∀ (c : Cmd) (d : Dev),
    d.nextCmd 0x902 = some c →
    c.bufsOk = true →
    On .memStatus d (fun e =>
      e = d.finish c (FwRes.ok [d.reg MI_STAT, d.reg MI_UELOG_LO, d.reg MI_UELOG_HI, d.reg MI_UECNT, d.reg MI_CELOG_LO, d.reg MI_CELOG_HI, d.reg DC_STAT, d.reg DC_UELOG_LO, d.reg DC_UELOG_HI, d.reg (DC_CHc_STAT 0), d.reg (DC_CHc_STAT 1)]))) ∧
  (∀ (c : Cmd) (r : RowRepair) (d : Dev),
    d.nextCmd 0x903 = some c →
    c.bufsOk = true →
    d.on SS_STAT_BUSY = false →
    c.rsvd 0 0x7FF1 = false →
    c.fld 0 0 0 = 0 →
    c.num 1 ≤ 511 →
    r = { cls := 0, isle := 0, bank := c.fld 0 7 4, row := c.num 1 } →
    d.ssActive = none →
    (d.integ.applied.filter (fun x => x.cls = 0 && x.isle = 0 && x.bank = r.bank)).eraseDups.length < 16 →
    (d.ssCommit 3 (some (wordBytes r.word))).1.1 = 0 →
    On .spareAdd d (fun e =>
      ∃ q : Dev, q = (d.ssCommit 3 (some (wordBytes r.word))).2 ∧ e = q.finish c (FwRes.ok [1]))) ∧
  (∀ (c : Cmd) (d : Dev),
    d.nextCmd 0x903 = some c →
    c.bufsOk = true →
    d.on SS_STAT_BUSY = false →
    c.fld 0 0 0 = 0 →
    511 < c.num 1 →
    On .spareAdd d (fun e =>
      e = d.finish c (FwRes.fail 0x14))) ∧
  (∀ (c : Cmd) (d : Dev),
    d.nextCmd 0x903 = some c →
    c.bufsOk = true →
    d.on SS_STAT_BUSY = true →
    On .spareAdd d (fun e =>
      e = d)) ∧
  (∀ (c : Cmd) (d : Dev),
    d.nextCmd 0x904 = some c →
    c.bufsOk = true →
    d.on SS_STAT_BUSY = false →
    c.num 0 < 8 →
    d.rdBit (DC_CHc_STAT_RETIRED (c.fld 0 0 0)) (c.fld 0 2 1) = false →
    d.on (DC_CHc_STAT_MIGR (c.fld 0 0 0)) = false →
    On .rankRetire d (fun e =>
      ∃ q : Dev, q.rdBit (DC_CHc_STAT_RETIRED (c.fld 0 0 0)) (c.fld 0 2 1) = true ∧ q = d.retireRank (c.fld 0 0 0) (c.fld 0 2 1) 2 ∧ e = q.finish c (FwRes.ok [q.reg (DC_CHc_STAT (c.fld 0 0 0))]))) ∧
  (∀ (c : Cmd) (d : Dev),
    d.nextCmd 0x904 = some c →
    c.bufsOk = true →
    d.on SS_STAT_BUSY = false →
    c.num 0 < 8 →
    d.rdBit (DC_CHc_STAT_RETIRED (c.fld 0 0 0)) (c.fld 0 2 1) = true →
    On .rankRetire d (fun e =>
      e = d.finish c (FwRes.fail 0x15))) ∧
  (∀ (c : Cmd) (d : Dev),
    d.nextCmd 0x905 = some c →
    c.bufsOk = true →
    c.rsvd 0 0x7F03 = false →
    c.num 3 ≤ 255 →
    (c.fld 0 1 0 = 1 → c.fld 0 14 8 < 96) →
    (c.fld 0 1 0 = 2 → c.fld 0 14 8 < 4) →
    d.on (MI_FLIPk_CTL_ARM (c.fld 0 1 0)) = false →
    On .flipArm d (fun e =>
      ∃ q : Dev, q.reg (MI_FLIPk_LO (c.fld 0 1 0)) = c.arg 1 ∧ q.reg (MI_FLIPk_HI (c.fld 0 1 0)) = c.arg 2 ∧ q.rd (MI_FLIPk_CHK_CHK (c.fld 0 1 0)) = c.num 3 ∧ q.on (MI_FLIPk_CTL_ARM (c.fld 0 1 0)) = true ∧ q.rd (MI_FLIPk_CTL_SEL (c.fld 0 1 0)) = c.fld 0 14 8 ∧ RegsBut [MI_FLIPk_LO (c.fld 0 1 0), MI_FLIPk_HI (c.fld 0 1 0), MI_FLIPk_CHK (c.fld 0 1 0), MI_FLIPk_CTL (c.fld 0 1 0)] d q ∧ q = { d with regs := q.regs, flags := q.flags } ∧ e = q.finish c (FwRes.ok []))) ∧
  (∀ (c : Cmd) (d : Dev),
    d.nextCmd 0x905 = some c →
    c.bufsOk = true →
    (c.fld 0 1 0) = 1 →
    96 ≤ c.fld 0 14 8 →
    On .flipArm d (fun e =>
      e = d.finish c (FwRes.fail 0x14))) ∧
  (∀ (c : Cmd) (d : Dev),
    d.nextCmd 0x906 = some c →
    c.bufsOk = true →
    c.rsvd 0 0x1F01 = false →
    c.rsvd 2 0xFF = false →
    c.num 1 % 16 = 0 →
    4 ≤ c.fld 0 12 8 →
    c.fld 0 12 8 ≤ 20 →
    d.on TS_CTRL_EN = false →
    d.claimed 0x13 (c.num64 1) (16 * 2 ^ c.fld 0 12 8) = true →
    On .traceCfg d (fun e =>
      ∃ q : Dev, q.rd TS_TRBASE_LO_ADDR = c.num 1 / 16 ∧ q.rd TS_TRBASE_HI_ADDR = c.num 2 ∧ q.rd TS_TRSIZE_LOG2 = c.fld 0 12 8 ∧ q.on TS_CTRL_TREN = wbit (c.arg 0) 0 ∧ RegsBut [TS_TRBASE_LO, TS_TRBASE_HI, TS_TRSIZE, TS_CTRL] d q ∧ q = { d with regs := q.regs, flags := q.flags } ∧ e = q.finish c (FwRes.ok []))) ∧
  (∀ (c : Cmd) (d : Dev),
    d.nextCmd 0x906 = some c →
    c.bufsOk = true →
    c.fld 0 12 8 < 4 ∨ 20 < c.fld 0 12 8 →
    On .traceCfg d (fun e =>
      e = d.finish c (FwRes.fail 0x14))) ∧
  (∀ (c : Cmd) (x : Fin 103) (d : Dev),
    d.nextCmd 0xA00 = some c →
    c.bufsOk = true →
    c.num 0 = x.val →
    x.val ≠ 96 →
    (x.val < 96 → d.isleUsed x = false) →
    On .pwrSet d (fun e =>
      ∃ q : Dev, q = d.offDomainReq x ∧ e = q.finish c (FwRes.ok [q.reg (PC_DOMUP0 + 4 * (x.val / 32))]))) ∧
  (∀ (c : Cmd) (x : Fin 103) (d : Dev),
    d.nextCmd 0xA00 = some c →
    c.bufsOk = true →
    c.num 0 = x.val + 256 →
    x.val ≠ 96 →
    (x.val < 96 → d.isleUsed x = false) →
    d.domUp x = true →
    x.val ∉ d.power.going →
    On .pwrSet d (fun e =>
      e = d.finish c (FwRes.ok [d.reg (PC_DOMUP0 + 4 * (x.val / 32))]))) ∧
  (∀ (c : Cmd) (x : Fin 103) (d : Dev),
    d.nextCmd 0xA00 = some c →
    c.bufsOk = true →
    c.num 0 = x.val + 256 →
    x.val ≠ 96 →
    (x.val < 96 → d.isleUsed x = false) →
    d.domUp x = false →
    On .pwrSet d (fun e =>
      e = d.startDomainReq x ∧ e.mail = d.mail)) ∧
  (∀ (c : Cmd) (d : Dev),
    d.nextCmd 0xA00 = some c →
    c.bufsOk = true →
    c.rsvd 0 0x17F = false →
    c.fld 0 6 0 < 96 →
    d.isleUsed (c.fld 0 6 0) = true →
    On .pwrSet d (fun e =>
      e = d.finish c (FwRes.fail 0x15))) ∧
  (∀ (c : Cmd) (d : Dev),
    d.nextCmd 0xA01 = some c →
    c.bufsOk = true →
    On .pwrRead d (fun e =>
      e = d.finish c (FwRes.ok [d.reg PC_DOMUP0, d.reg (PC_DOMUP0 + 4), d.reg (PC_DOMUP0 + 8), d.reg (PC_DOMUP0 + 12)]))) ∧
  (∀ (c : Cmd) (d : Dev),
    d.nextCmd 0xA02 = some c →
    c.bufsOk = true →
    c.rsvd 0 0x37 = false →
    d.enabledBindings.any (fun x => d.rd (AHD_TBb_ID_ISLE x) / 12 = (c.fld 0 2 0)) = false →
    On .clkRow d (fun e =>
      ∃ q : Dev, q.rd (PC_ROWr_DIV (c.fld 0 2 0)) = c.fld 0 5 4 ∧ q.on (PC_ROWr_PEND (c.fld 0 2 0)) = true ∧ q.on (PC_ROWr_SRC (c.fld 0 2 0)) = d.on (PC_ROWr_SRC (c.fld 0 2 0)) ∧ q.power = { d.power with rowAt := tset 0 d.power.rowAt (c.fld 0 2 0) d.now } ∧ RegsBut [PC_ROWr (c.fld 0 2 0)] d q ∧ q = { d with regs := q.regs, flags := q.flags, power := q.power } ∧ e = q.finish c (FwRes.ok []))) ∧
  (∀ (c : Cmd) (d : Dev),
    d.nextCmd 0xA02 = some c →
    c.bufsOk = true →
    c.rsvd 0 0x37 = true →
    On .clkRow d (fun e =>
      e = d.finish c (FwRes.fail 0x14))) ∧
  (∀ (c : Cmd) (d : Dev),
    d.nextCmd 0xB00 = some c →
    c.bufsOk = true →
    c.rsvd 0 0x707 = false →
    c.rsvd 2 0xFFFF = false →
    (c.fld 0 2 0) < 6 →
    ((c.fld 0 2 0) < 4 ∧ c.fld 0 10 9 < 2) ∨ (4 ≤ (c.fld 0 2 0) ∧ c.fld 0 10 9 = 2) →
    d.on (EN_Pp_CFG_EN (c.fld 0 2 0)) = false →
    d.claimed 0x14 (c.fld 0 2 0) 1 = true →
    d.ev.f3 = false →
    d.ethUp = true →
    On .enCfg d (fun e =>
      ∃ q : Dev, q.reg (EN_Pp_MAC_LO (c.fld 0 2 0)) = c.arg 1 ∧ q.reg (EN_Pp_MAC_HI (c.fld 0 2 0)) = c.arg 2 ∧ q.rd (EN_Pp_CFG_MODE (c.fld 0 2 0)) = c.fld 0 10 9 ∧ q.on (EN_Pp_CFG_EN (c.fld 0 2 0)) = wbit (c.arg 0) 8 ∧ RegsBut [EN_Pp_MAC_LO (c.fld 0 2 0), EN_Pp_MAC_HI (c.fld 0 2 0), EN_Pp_CFG (c.fld 0 2 0), EN_Pp_GATE (c.fld 0 2 0)] d q ∧ q = { d with regs := q.regs, flags := q.flags } ∧ e = q.finish c (FwRes.ok [BitVec.ofNat 32 (q.rd (EN_Pp_STAT_LINK (c.fld 0 2 0)))]))) ∧
  (∀ (c : Cmd) (d : Dev),
    d.nextCmd 0xB00 = some c →
    c.bufsOk = true →
    6 ≤ (c.fld 0 2 0) ∨ c.fld 0 10 9 = 3 →
    On .enCfg d (fun e =>
      e = d.finish c (FwRes.fail 0x14))) ∧
  (∀ (c : Cmd) (y n m off g z : Nat) (d : Dev),
    d.nextCmd 0xB01 = some c →
    c.bufsOk = true →
    c.noBuf 0 8 = false →
    c.rsvd 0 0xFFFF3F07 = false →
    (c.fld 0 2 0) < 6 →
    c.fld 0 31 24 = 1 →
    cycleCad (c.num 1) = (y, n, m) →
    m ≤ 65535 →
    y < 2 ^ 32 →
    (2 ^ 32 : Int) ≤ (BitVec.ofNat 64 (c.num64 2) - d.stamp 7).toInt * 1000 →
    d.gateList c = [(off, g)] →
    off < c.num 1 →
    g < 256 →
    d.claimed 0x14 (c.fld 0 2 0) 1 = true →
    d.claimed 0x0C (c.fld 0 13 8) 1 = true →
    d.claimed 0x0D (c.fld 0 23 16) 1 = true →
    d.ev.f3 = false →
    tget [] d.eth.gcl (c.fld 0 2 0) = [] →
    n < m →
    d.on (ET_LCFGl_EN (c.fld 0 13 8)) = true →
    1 ≤ d.rd ET_STAT_FREE →
    z = (BitVec.ofNat 64 (c.num64 2) + BitVec.ofNat 64 ((off * 2 ^ 32 + 999999999) / 1000000000)).toNat →
    On .enGcl d (fun e =>
      ∃ q : Dev, tget [] q.eth.gcl (c.fld 0 2 0) = [d.newIndex] ∧ (q.entry d.newIndex).map (fun x => (x.w0, x.stamp, x.act, x.cad, x.per, x.list)) = some (BitVec.ofNat 32 z, BitVec.ofNat 40 z, 4, c.fld 0 23 16, true, c.fld 0 13 8) ∧ (q.entry d.newIndex).map (fun x => x.w2) = some (BitVec.ofNat 32 ((c.fld 0 2 0) + g * 2 ^ 8)) ∧ q.rd (ET_CADc_Q_Q (c.fld 0 23 16)) = y ∧ q.rd (ET_CADc_N_N (c.fld 0 23 16)) = n ∧ q.rd (ET_CADc_D_D (c.fld 0 23 16)) = m ∧ q.rd (ET_CADc_ACC_ACC (c.fld 0 23 16)) = 0 ∧ q.mem = d.mem ∧ e = q.finish c (FwRes.ok [BitVec.ofNat 32 d.newIndex]))) ∧
  (∀ (c : Cmd) (d : Dev),
    d.nextCmd 0xB02 = some c →
    c.bufsOk = true →
    On .timeRead d (fun e =>
      ∃ o1 o2 p g : BitVec 32, e = ({ d with free := d.free + 4 } : Dev).finish c (FwRes.ok ([BitVec.ofNat 32 (d.rd EN_TS_CTL_SYNC), o1, o2, p, g, BitVec.ofNat 32 (d.rd EN_TS_CFG_PORT)] ++ stampWords (d.stamp 7))))) ∧
  (∀ (c : Cmd) (d : Dev),
    d.nextCmd 0xC00 = some c →
    c.bufsOk = true →
    c.num 0 < 512 →
    On .evtMask d (fun e =>
      ∃ q : Dev, q.ev = { d.ev with mask := BitVec.ofNat 9 (c.num 0) } ∧ q = { d with ev := q.ev } ∧ e = q.finish c (FwRes.ok [BitVec.ofNat 32 d.ev.mask.toNat]))) ∧
  (∀ (c : Cmd) (d : Dev),
    d.nextCmd 0xC00 = some c →
    c.bufsOk = true →
    512 ≤ c.num 0 →
    On .evtMask d (fun e =>
      e = d.finish c (FwRes.fail 0x14))) ∧
  (∀ (c : Cmd) (d : Dev),
    d.nextCmd 0xC01 = some c →
    c.bufsOk = true →
    wbit d.ev.mask 8 = true →
    d.ev.queue.length < 64 →
    d.on HL_CTRL_CONEVT = false →
    On .evtTest d (fun e =>
      ∃ q : Dev, q.ev = { d.ev with queue := d.ev.queue ++ [{ code := 0x80, eseq := nextEseq (d.reg HL_ESEQ), payload := [c.arg 0] }] } ∧ q.reg HL_ESEQ = nextEseq (d.reg HL_ESEQ) ∧ RegsBut [HL_ESEQ, HL_EVQ] d q ∧ q = { d with regs := q.regs, flags := q.flags, ev := q.ev } ∧ e = q.finish c (FwRes.ok []))) ∧
  (∀ (c : Cmd) (d : Dev),
    d.nextCmd 0xC01 = some c →
    c.bufsOk = true →
    wbit d.ev.mask 8 = false →
    On .evtTest d (fun e =>
      e = d.finish c (FwRes.ok [])))

/-- Power-good, and the release of RESET_N with power good, start the boot: core 0's domain is started. RESET_N, a brown-out, the software reset with
its key and the watchdog's second expiry reset the device: everything but the non-volatile bytes is at its reset value and the cause is recorded;
a wrong key does nothing. The PLLs locked, the Sound is zero. A write enables the watchdog, a kick restarts its period, the first expiry sets
STAGE1, is an F2 fault and restarts the cores. A RESET command acts 10 ms later; KIND 0 restarts the cores as an F2 fault does. A failed
verification of the boot firmware stops every core; a good one sets FWOK, and core 0 starts where its domain is up. The key-slot copies agree in
the clauses about it (R306's repair is the vote's). A crystal failure sets XFAIL and takes the Ethernet links down. -/
def Obligations.DeviceResets : Prop :=
  (∀ d : Dev,
    d.power.good = false →
    d.power.held = false →
    d.power.queue = [] →
    d.power.cur = none →
    d.domUp 96 = false →
    96 ∉ d.power.going →
    On .powerGood d (fun e =>
      e.power.good = true ∧ e.power.cur = some (96, e.now + e.startStep 96) ∧ e.on PC_QSTAT_ACT = true)) ∧
  (∀ d : Dev,
    d.power.good = true →
    On .powerGood d (fun e =>
      e = d)) ∧
  (∀ d : Dev,
    d.power.good = false →
    d.power.held = true →
    On .powerGood d (fun e =>
      e.power = { d.power with good := true } ∧ e = { d with power := e.power })) ∧
  (∀ d : Dev,
    On .resetNAssert d (fun e =>
      e.rd PC_RSTCAUSE_CAUSE = 1 ∧ e.isles = [] ∧ e.cores = [] ∧ e.ang = Angle.reset ∧ e.ahd = Ahd.reset ∧ e.dram = [] ∧ e.cfg = Cfg.reset ∧ (∀ a, keptByte a = true → e.byte a = d.byte a) ∧ (∀ a, keptByte a = false → e.byte a = 0) ∧ e.hmem = d.hmem ∧ e.power.held = true ∧ e.power.cur = none ∧ e.power.good = d.power.good ∧ (∀ a, a ≠ PC_RSTCAUSE → e.reg a = regReset a))) ∧
  (∀ d : Dev,
    d.power.good = true →
    d.power.held = true →
    On .brownOut d (fun e =>
      e.rd PC_RSTCAUSE_CAUSE = 5 ∧ e.isles = [] ∧ e.cores = [] ∧ e.ang = Angle.reset ∧ e.ahd = Ahd.reset ∧ e.dram = [] ∧ e.cfg = Cfg.reset ∧ (∀ a, keptByte a = true → e.byte a = d.byte a) ∧ (∀ a, keptByte a = false → e.byte a = 0) ∧ e.hmem = d.hmem ∧ e.power.good = false ∧ e.power.held = true ∧ e.power.cur = none)) ∧
  (∀ d : Dev,
    d.power.good = true →
    d.power.held = false →
    On .brownOut d (fun e =>
      e.rd PC_RSTCAUSE_CAUSE = 5 ∧ e.isles = [] ∧ e.cores = [] ∧ e.ang = Angle.reset ∧ e.ahd = Ahd.reset ∧ e.dram = [] ∧ e.cfg = Cfg.reset ∧ (∀ a, keptByte a = true → e.byte a = d.byte a) ∧ (∀ a, keptByte a = false → e.byte a = 0) ∧ e.hmem = d.hmem ∧ e.power.good = false ∧ e.power.cur = none ∧ (∀ a, a ≠ PC_RSTCAUSE → e.reg a = regReset a))) ∧
  (∀ (k : BitVec 8) (d : Dev),
    k ≠ 0x5A →
    On (.swrst k) d (fun e =>
      e = d)) ∧
  (∀ d : Dev,
    d.power.good = true →
    d.power.held = false →
    On (.swrst 0x5A) d (fun e =>
      e.rd PC_RSTCAUSE_CAUSE = 4 ∧ e.isles = [] ∧ e.cores = [] ∧ e.ang = Angle.reset ∧ e.ahd = Ahd.reset ∧ e.dram = [] ∧ e.cfg = Cfg.reset ∧ (∀ a, keptByte a = true → e.byte a = d.byte a) ∧ (∀ a, keptByte a = false → e.byte a = 0) ∧ e.hmem = d.hmem ∧ e.power.cur = some (96, e.now + e.startStep 96) ∧ e.on PC_QSTAT_ACT = true ∧ e.power.held = false)) ∧
  (∀ d : Dev,
    d.power.held = true →
    d.power.good = true →
    d.power.queue = [] →
    d.power.cur = none →
    d.domUp 96 = false →
    96 ∉ d.power.going →
    On .resetNRelease d (fun e =>
      e.power.held = false ∧ e.power.cur = some (96, e.now + e.startStep 96) ∧ e.on PC_QSTAT_ACT = true)) ∧
  (∀ d : Dev,
    d.power.held = false →
    On .resetNRelease d (fun e =>
      e = d)) ∧
  (∀ d : Dev,
    d.power.good = true →
    d.power.held = false →
    d.power.locked = false →
    On .pllLock d (fun e =>
      e.on PC_STAT_ALOCK = true ∧ e.on PC_STAT_CLOCK = true ∧ e.power = { d.power with locked := true } ∧ (∀ a, a < 0x800000 → e.byte a = 0) ∧ (∀ a, 0x800000 ≤ a → e.byte a = d.byte a) ∧ RegsBut [PC_STAT] d e ∧ e = { d with regs := e.regs, flags := e.flags, mem := e.mem, integ := e.integ, power := e.power })) ∧
  (∀ d : Dev,
    d.power.good = false ∨ d.power.held = true ∨ d.power.locked = true →
    On .pllLock d (fun e =>
      e = d)) ∧
  (∀ (v : BitVec 32) (d : Dev),
    d.on PC_WDT_CTL_EN = false →
    wbit v 0 = true →
    On (.watchdogEnable v) d (fun e =>
      e.on PC_WDT_CTL_EN = true ∧ e.rd PC_WDT_CTL_PERIOD = wbits v 23 8 ∧ e.power = { d.power with wdtAt := d.now, wdtHit := false } ∧ RegsBut [PC_WDT_CTL] d e ∧ e = { d with regs := e.regs, flags := e.flags, power := e.power })) ∧
  (∀ (v : BitVec 32) (d : Dev),
    d.on PC_WDT_CTL_EN = true →
    On (.watchdogEnable v) d (fun e =>
      e.on PC_WDT_CTL_EN = true ∧ OnlyRegs [PC_WDT_CTL] d e)) ∧
  (∀ d : Dev,
    d.wdtExpired = false →
    On .watchdogKick d (fun e =>
      e = { d with power := { d.power with wdtAt := d.now, wdtHit := false } })) ∧
  (∀ (c : Fin 4) (d : Dev),
    d.wdtExpired = true →
    d.power.wdtHit = false →
    d.power.failed = false →
    d.sched.threads = [] →
    d.domUp (96 + c) = true →
    d.ev.f2 = [] →
    On .watchdogStage1 d (fun e =>
      e.on PC_WDT_STAT_STAGE1 = true ∧ e.power.wdtHit = true ∧ e.ev.f2 = [d.now] ∧ (e.core c).pc = d.rvec c ∧ (e.core c).st = CStat.start ∧ e.on (CP_STAT_RUN c) = true ∧ e.on (CP_STAT_STOPPED c) = false ∧ e.mem = d.mem)) ∧
  (∀ d : Dev,
    d.wdtExpired = false ∨ d.power.wdtHit = true →
    On .watchdogStage1 d (fun e =>
      e = d)) ∧
  (∀ d : Dev,
    d.wdtExpired = true →
    d.power.wdtHit = true →
    d.power.good = true →
    d.power.held = false →
    On .watchdogStage2 d (fun e =>
      e.rd PC_RSTCAUSE_CAUSE = 3 ∧ e.isles = [] ∧ e.cores = [] ∧ e.ang = Angle.reset ∧ e.ahd = Ahd.reset ∧ e.dram = [] ∧ e.cfg = Cfg.reset ∧ (∀ a, keptByte a = true → e.byte a = d.byte a) ∧ (∀ a, keptByte a = false → e.byte a = 0) ∧ e.hmem = d.hmem ∧ e.power.cur = some (96, e.now + e.startStep 96) ∧ e.on PC_QSTAT_ACT = true)) ∧
  (∀ d : Dev,
    d.wdtExpired = false ∨ d.power.wdtHit = false →
    On .watchdogStage2 d (fun e =>
      e = d)) ∧
  (∀ (t : Nat) (rest : List (Nat × Nat)) (d : Dev),
    d.power.asked = (1, t) :: rest →
    t ≤ d.now →
    d.power.good = true →
    d.power.held = false →
    On .resetAction d (fun e =>
      e.rd PC_RSTCAUSE_CAUSE = 2 ∧ e.isles = [] ∧ e.cores = [] ∧ e.ang = Angle.reset ∧ e.ahd = Ahd.reset ∧ e.dram = [] ∧ e.cfg = Cfg.reset ∧ (∀ a, keptByte a = true → e.byte a = d.byte a) ∧ (∀ a, keptByte a = false → e.byte a = 0) ∧ e.hmem = d.hmem ∧ e.power.cur = some (96, e.now + e.startStep 96) ∧ e.on PC_QSTAT_ACT = true)) ∧
  (∀ (t : Nat) (rest : List (Nat × Nat)) (c : Fin 4) (d : Dev),
    d.power.asked = (0, t) :: rest →
    t ≤ d.now →
    d.power.failed = false →
    d.sched.threads = [] →
    d.domUp (96 + c) = true →
    d.ev.f2 = [] →
    On .resetAction d (fun e =>
      e.power.asked = rest ∧ e.ev.f2 = [d.now] ∧ (e.core c).pc = d.rvec c ∧ e.on (CP_STAT_RUN c) = true ∧ e.mem = d.mem)) ∧
  (∀ d : Dev,
    d.power.asked = [] →
    On .resetAction d (fun e =>
      e = d)) ∧
  (∀ (nv : Nv) (d : Dev),
    nv.agree = true →
    d.power.locked = true →
    d.on PC_STAT_FWOK = false →
    d.power.failed = false →
    OnNv (.firmwareVerifyDone false) nv d (fun e =>
      e.power = { d.power with failed := true } ∧ (∀ c, c < 4 → e.on (CP_STAT_RUN c) = false) ∧ e.on PC_STAT_FWOK = false ∧ e = { d with regs := e.regs, flags := e.flags, power := e.power })) ∧
  (∀ (nv : Nv) (d : Dev),
    nv.agree = true →
    d.power.locked = true →
    d.on PC_STAT_FWOK = false →
    d.power.failed = false →
    d.domUp 96 = false →
    OnNv (.firmwareVerifyDone true) nv d (fun e =>
      e.on PC_STAT_FWOK = true ∧ OnlyRegs [PC_STAT] d e)) ∧
  (∀ (nv : Nv) (b : Bool) (d : Dev),
    nv.agree = true →
    d.power.locked = false ∨ d.on PC_STAT_FWOK = true ∨ d.power.failed = true →
    OnNv (.firmwareVerifyDone b) nv d (fun e =>
      e = d)) ∧
  (∀ (p : Fin 6) (d : Dev),
    d.on PC_STAT_XFAIL = false →
    d.power.failed = false →
    d.ev.f2 = [] →
    On .crystalFail d (fun e =>
      e.on PC_STAT_XFAIL = true ∧ e.on PC_STAT_SLOCK = false ∧ e.on (EN_Pp_STAT_LINK p) = false ∧ e.rd (EN_Pp_STAT_SPEED p) = 0 ∧ e.ev.f2 = [d.now] ∧ (∀ c, c < 4 → e.rdBit (CP_IPEND_PEND c) 7 = true) ∧ e.mem = d.mem)) ∧
  (∀ d : Dev,
    d.on PC_STAT_XFAIL = true →
    On .crystalFail d (fun e =>
      e = d)) ∧
  (∀ d : Dev,
    d.power.good = false →
    On .brownOut d (fun e =>
      e = d)) ∧
  (∀ (nv : Nv) (d : Dev),
    nv.agree = true →
    d.power.locked = true →
    d.on PC_STAT_FWOK = false →
    d.power.failed = false →
    d.domUp 96 = true →
    OnNv (.firmwareVerifyDone true) nv d (fun e =>
      e.on PC_STAT_FWOK = true ∧ (e.core 0).pc = d.rvec 0 ∧ e.on (CP_STAT_RUN 0) = true ∧ (∀ c : Fin 4, c.val ≠ 0 → e.core c = d.core c)))

/-- A start request starts an idle queue's domain or joins the queue; for a domain that is up it does nothing, for a number without a domain it is
refused. The domain at the end of its start step is up: an isle then is gated with every word 0. An off request closes a domain that is up, and
takes one that waits out of the queue; a closed domain with nothing outstanding loses power. A row's clock change takes effect at an ACLK whose
count is a multiple of 8. A commit of the settings store is refused while one runs, or with its result; otherwise BUSY shows and the record, its
sequence number and the bank stand; it ends with its result and BUSY clears. An isle whose domain goes off is at its reset state and keeps the
harbour's words. -/
def Obligations.DomainsClocksAndSettings : Prop :=
  (∀ (x : Fin 104) (d : Dev),
    x.val ∉ d.power.going →
    d.domUp x = false →
    d.power.queue = [] →
    d.power.cur = none →
    On (.domainStartRequest ⟨x.val, Nat.lt_trans x.isLt (by decide)⟩) d (fun e =>
      e.power = { d.power with cur := some (x.val, d.now + d.startStep x), offNext := false } ∧ e.on PC_QSTAT_ACT = true ∧ e.rd PC_QSTAT_CUR = x.val ∧ e.rd PC_QSTAT_QLEN = 0 ∧ RegsBut [PC_DOMREQ, PC_QSTAT] d e ∧ e = { d with regs := e.regs, flags := e.flags, power := e.power })) ∧
  (∀ (x : Fin 104) (c : Nat × Nat) (d : Dev),
    x.val ∉ d.power.going →
    d.domUp x = false →
    x.val ∉ d.power.queue →
    d.power.cur = some c →
    c.1 ≠ x.val →
    On (.domainStartRequest ⟨x.val, Nat.lt_trans x.isLt (by decide)⟩) d (fun e =>
      e.power = { d.power with queue := d.power.queue ++ [x.val] } ∧ RegsBut [PC_DOMREQ, PC_QSTAT] d e ∧ e = { d with regs := e.regs, flags := e.flags, power := e.power })) ∧
  (∀ (x : Fin 104) (d : Dev),
    x.val ∉ d.power.going →
    d.domUp x = true →
    On (.domainStartRequest ⟨x.val, Nat.lt_trans x.isLt (by decide)⟩) d (fun e =>
      OnlyRegs [PC_DOMREQ] d e)) ∧
  (∀ (x : Fin 128) (d : Dev),
    104 ≤ x.val →
    On (.domainStartRequest x) d (fun e =>
      e.on PC_QSTAT_REFUSED = true ∧ OnlyRegs [PC_DOMREQ, PC_QSTAT] d e)) ∧
  (∀ (x : Fin 104) (d : Dev),
    x.val ∉ d.power.going →
    x.val ∉ d.power.queue →
    (∀ c, d.power.cur = some c → c.1 ≠ x.val) →
    d.domUp x = true →
    x.val ∉ d.net.closed →
    On (.domainOffRequest ⟨x.val, Nat.lt_trans x.isLt (by decide)⟩) d (fun e =>
      e.power = { d.power with going := d.power.going ++ [x.val] } ∧ e.net = { d.net with closed := d.net.closed ++ [x.val] } ∧ (∀ q, niOfDomain x = some q → e.on (PN_NIi_STAT_OPEN q) = false) ∧ RegsBut (PC_DOMREQ :: ((niOfDomain x).map PN_NIi_STAT).toList) d e ∧ e = { d with regs := e.regs, flags := e.flags, power := e.power, net := e.net })) ∧
  (∀ (x : Fin 104) (d : Dev),
    x.val ∉ d.power.going →
    x.val ∈ d.power.queue →
    On (.domainOffRequest ⟨x.val, Nat.lt_trans x.isLt (by decide)⟩) d (fun e =>
      e.power = { d.power with queue := d.power.queue.filter (fun (y : Nat) => y ≠ x.val) } ∧ RegsBut [PC_DOMREQ, PC_QSTAT] d e ∧ e = { d with regs := e.regs, flags := e.flags, power := e.power })) ∧
  (∀ (x : Fin 128) (d : Dev),
    104 ≤ x.val →
    On (.domainOffRequest x) d (fun e =>
      e.on PC_QSTAT_REFUSED = true ∧ OnlyRegs [PC_DOMREQ, PC_QSTAT] d e)) ∧
  (∀ (nv : Nv) (n t : Nat) (d : Dev),
    nv.agree = true →
    d.power.cur = some (n, t) →
    t ≤ d.now →
    n < 96 →
    d.power.offNext = false →
    d.power.queue = [] →
    d.cfg.load.phase ≠ 3 →
    OnNv .domainUp nv d (fun e =>
      e.domUp n = true ∧ e.isle n = { Isle.reset with hin := (d.isle n).hin, hinV := (d.isle n).hinV, gateLoad := true } ∧ e.on (IS_STAT_GATED n) = true ∧ e.power.cur = none ∧ e.on PC_QSTAT_ACT = false ∧ n ∉ e.net.closed ∧ (∀ a, 0x10000000 + n * 0x20000 ≤ a → a < 0x10000000 + (n + 1) * 0x20000 → e.byte a = 0))) ∧
  (∀ (nv : Nv) (c t : Nat) (d : Dev),
    nv.agree = true →
    d.power.cur = some (100 + c, t) →
    t ≤ d.now →
    c < 2 →
    d.on (DC_CHc_CFG_EN c) = true →
    d.power.offNext = false →
    d.power.queue = [] →
    d.cfg.load.phase ≠ 3 →
    OnNv .domainUp nv d (fun e =>
      e.domUp (100 + c) = true ∧ e.chan c = { d.chan c with training := true } ∧ e.on (DC_CHc_STAT_READY c) = false ∧ e.power.cur = none)) ∧
  (∀ (nv : Nv) (d : Dev),
    nv.agree = true →
    (∀ c, d.power.cur = some c → d.now < c.2) →
    OnNv .domainUp nv d (fun e =>
      e = d)) ∧
  (∀ (n : Fin 96) (d : Dev),
    n.val ∈ d.power.going →
    d.domUp n = true →
    d.domainIdle n = true →
    n.val ∉ d.power.again →
    On (.domainOff ⟨n.val, Nat.lt_trans n.isLt (by decide)⟩) d (fun e =>
      e.domUp n = false ∧ e.isle n = { Isle.reset with hin := (d.isle n).hin, hinV := (d.isle n).hinV, gateLoad := true } ∧ n.val ∉ e.power.going ∧ e.power = { d.power with going := e.power.going, again := e.power.again } ∧ (∀ m, m ≠ n.val → e.isle m = d.isle m))) ∧
  (∀ (x : Fin 104) (d : Dev),
    x.val ∉ d.power.going ∨ d.domUp x = false ∨ d.domainIdle x = false →
    On (.domainOff x) d (fun e =>
      e = d)) ∧
  (∀ (r : Fin 8) (d : Dev),
    d.on (PC_ROWr_PEND r) = true →
    d.now % 8 = 0 →
    tget 0 d.power.rowAt r < d.now →
    On (.rowClockApply r) d (fun e =>
      tget 0 e.power.rows r = d.rd (PC_ROWr_DIV r) + (if d.on (PC_ROWr_SRC r) then 3 else 0) ∧ e.on (PC_ROWr_PEND r) = false ∧ (∀ x, x ≠ r.val → tget 0 e.power.rows x = tget 0 d.power.rows x) ∧ RegsBut [PC_ROWr r] d e ∧ e = { d with regs := e.regs, flags := e.flags, power := e.power })) ∧
  (∀ (r : Fin 8) (d : Dev),
    d.on (PC_ROWr_PEND r) = false ∨ d.now % 8 ≠ 0 ∨ d.now ≤ tget 0 d.power.rowAt r →
    On (.rowClockApply r) d (fun e =>
      e = d)) ∧
  (∀ (v : BitVec 32) (d : Dev),
    d.on SS_STAT_BUSY = true →
    On (.settingsCommit v) d (fun e =>
      e.on SS_STAT_GOBUSY = true ∧ OnlyRegs [SS_STAT] d e)) ∧
  (∀ (v : BitVec 32) (d : Dev),
    d.on SS_STAT_BUSY = false →
    wbit v 31 = false →
    On (.settingsCommit v) d (fun e =>
      e.rd SS_CMD_ID = wbits v 15 0 ∧ e.rdBit SS_CMD_DEL 0 = wbit v 16 ∧ OnlyRegs [SS_CMD] d e)) ∧
  (∀ (v : BitVec 32) (d : Dev),
    d.on SS_STAT_BUSY = false →
    wbit v 31 = true →
    wbit v 16 = false →
    d.rd SS_LEN_LEN = 0 ∨ 4096 < d.rd SS_LEN_LEN →
    On (.settingsCommit v) d (fun e =>
      e.rd SS_RES_RES = 4 ∧ OnlyRegs [SS_CMD, SS_RES] d e)) ∧
  (∀ (v : Bool) (c : SsCommit) (d : Dev),
    d.power.commit = some c →
    d.power.late = [] →
    On (.settingsCommitDone false) d (fun e =>
      e.power = { d.power with commit := none } ∧ e.on SS_STAT_BUSY = false ∧ e.rd SS_RES_RES = 2 ∧ RegsBut [SS_STAT, SS_RES] d e ∧ e = { d with regs := e.regs, flags := e.flags, power := e.power })) ∧
  (∀ (c : SsCommit) (d : Dev),
    d.power.commit = some c →
    d.power.late = [] →
    d.on SS_CMD_DEL = false →
    On (.settingsCommitDone true) d (fun e =>
      e.power = { d.power with commit := none } ∧ e.on SS_STAT_BUSY = false ∧ e.rd SS_RES_RES = 0 ∧ e.reg SS_RSEQ = c.rseq)) ∧
  (∀ (v : Bool) (d : Dev),
    d.power.commit = none →
    On (.settingsCommitDone v) d (fun e =>
      e = d)) ∧
  (∀ (v : BitVec 32) (d : Dev),
    d.on SS_STAT_BUSY = false →
    wbit v 31 = true →
    wbit v 16 = true ∨ (1 ≤ d.rd SS_LEN_LEN ∧ d.rd SS_LEN_LEN ≤ 4096 ∧ d.rd SS_BUF_ADDR * 8 + d.rd SS_LEN_LEN ≤ 0x800000 ∧ d.integ.ecc = []) →
    d.ssCheck (wbits v 15 0) (if wbit v 16 then none else some (d.loadBytes (d.rd SS_BUF_ADDR * 8) (d.rd SS_LEN_LEN))) = 0 →
    On (.settingsCommit v) d (fun e =>
      e.on SS_STAT_BUSY = true ∧ e.rd SS_CMD_ID = wbits v 15 0 ∧ e.power = { d.power with commit := some { id := wbits v 15 0, rseq := d.ssRseq (wbits v 15 0), seq := d.ssTarget.2, bank := d.ssTarget.1 } }))

/-- A port whose domain and link are up, that sends nothing and has no gate change of this ACLK to come, starts the frame of its highest-numbered open queue whose
head descriptor is owned; at its end the descriptor is finished with the timestamp it asked for, the ring's head advances and TXF counts. A
received frame that is short, long or bad is counted in RXERR; one not addressed to the port is ignored; one without a descriptor or with too
small a buffer is counted in RXDROP; any other goes to the buffer of the receive ring's head descriptor with its timestamp. Network time advances
by 5 quarter-ns and ADJ in each ACLK and takes a step that waits; a change of SYNC shows in AD7 and posts TIME_SYNC; the loss of the slave port's
link clears SYNC. In a domain that is down nothing happens. -/
def Obligations.EthernetPortsAndTime : Prop :=
  (∀ (p : Fin 6) (k : Fin 8) (ws : List (BitVec 32)) (b : List (BitVec 8)) (d : Dev),
    d.portOn p = true →
    d.on (EN_Pp_STAT_LINK p) = true →
    tget none d.eth.tx p = none →
    d.rdBit (EN_Pp_GATE_STATE p) k = true →
    (∀ j : Fin 8, k < j → d.rdBit (EN_Pp_GATE_STATE p) j = false) →
    d.gateComing p = false →
    (d.headDesc p k.val).1 = some (0, ws) →
    (d.txBody p k.val ws).1 = (0, b) →
    (d.txBody p k.val ws).2.net.stall = false →
    On (.txFrameStart p) d (fun e =>
      e = (d.txBody p k.val ws).2.setEth { (d.txBody p k.val ws).2.eth with tx := tset none (d.txBody p k.val ws).2.eth.tx p (some { queue := k, bytes := lineFrame b (ws.getD 3 0), q := ntCount (((d.txBody p k.val ws).2.eth.count + (d.txBody p k.val ws).2.rd (EN_Pp_TSLAT_TXLAT p) : Nat) : Int) % 4000000000, s := ntCount (((d.txBody p k.val ws).2.eth.count + (d.txBody p k.val ws).2.rd (EN_Pp_TSLAT_TXLAT p) : Nat) : Int) / 4000000000, err := false }) })) ∧
  (∀ (p : Fin 6) (d : Dev),
    d.gateComing p = true ∨ d.portOn p = false ∨ d.on (EN_Pp_STAT_LINK p) = false ∨ (tget none d.eth.tx p).isSome = true →
    On (.txFrameStart p) d (fun e =>
      e = d)) ∧
  (∀ (p : Fin 6) (d : Dev),
    d.portOn p = true →
    d.on (EN_Pp_STAT_LINK p) = true →
    d.rd (EN_Pp_GATE_STATE p) = 0 →
    On (.txFrameStart p) d (fun e =>
      e = d)) ∧
  (∀ (p : Fin 6) (f : TxFrame) (ws : List (BitVec 32)) (x : EnRing) (d : Dev),
    tget none d.eth.tx p = some f →
    d.enRing p f.queue = x →
    d.on (EN_Pp_CFG_TOKEN p) = false →
    ((d.txGone p).niMemRead 39 x.desc 32).1.1 = 0 →
    bytesWords (((d.txGone p).niMemRead 39 x.desc 32).1.2) 8 = ws →
    (((d.txGone p).niMemRead 39 x.desc 32).2.niMemWrite 39 (x.desc + 8) (wordsBytes ([BitVec.ofNat 32 (wbits (ws.getD 2 0) 15 0 + b2n (wbit (ws.getD 2 0) 17) * 2 ^ 17), ws.getD 3 0] ++ (if wbit (ws.getD 2 0) 17 then [BitVec.ofNat 32 f.q, BitVec.ofNat 32 f.s, BitVec.ofNat 32 (f.s / 2 ^ 32 % 2 ^ 16)] else [ws.getD 4 0, ws.getD 5 0, ws.getD 6 0])))).2.net.stall = false →
    On (.txFrameDone p) d (fun e =>
      tget none e.eth.tx p = none ∧ (e.enRing p f.queue) = { x with head := (x.head % x.size + 1) % x.size } ∧ e.rd (EN_Pp_CNT0_TXF p) = min 4294967295 (d.rd (EN_Pp_CNT0_TXF p) + 1) ∧ e.mem = (((d.txGone p).niMemRead 39 x.desc 32).2.niMemWrite 39 (x.desc + 8) (wordsBytes ([BitVec.ofNat 32 (wbits (ws.getD 2 0) 15 0 + b2n (wbit (ws.getD 2 0) 17) * 2 ^ 17), ws.getD 3 0] ++ (if wbit (ws.getD 2 0) 17 then [BitVec.ofNat 32 f.q, BitVec.ofNat 32 f.s, BitVec.ofNat 32 (f.s / 2 ^ 32 % 2 ^ 16)] else [ws.getD 4 0, ws.getD 5 0, ws.getD 6 0])))).2.mem)) ∧
  (∀ (p : Fin 6) (d : Dev),
    tget none d.eth.tx p = none →
    On (.txFrameDone p) d (fun e =>
      e = d)) ∧
  (∀ (p : Fin 6) (b : List (BitVec 8)) (ok : Bool) (d : Dev),
    d.portOn p = false ∨ d.on (EN_Pp_STAT_LINK p) = false →
    On (.rxFrame p b ok) d (fun e =>
      e = d)) ∧
  (∀ (p : Fin 6) (b : List (BitVec 8)) (ok : Bool) (d : Dev),
    d.portOn p = true →
    d.on (EN_Pp_STAT_LINK p) = true →
    ok = false ∨ b.length < 64 ∨ 1522 < b.length →
    d.net.stall = false →
    On (.rxFrame p b ok) d (fun e =>
      e.rd (EN_Pp_CNT2_RXERR p) = min 65535 (d.rd (EN_Pp_CNT2_RXERR p) + 1) ∧ OnlyRegs [EN_Pp_CNT2 p] d e)) ∧
  (∀ (p : Fin 6) (b : List (BitVec 8)) (d : Dev),
    d.portOn p = true →
    d.on (EN_Pp_STAT_LINK p) = true →
    64 ≤ b.length →
    b.length ≤ 1522 →
    d.rxAccepts p b = false →
    On (.rxFrame p b true) d (fun e =>
      e = d)) ∧
  (∀ (p : Fin 6) (b : List (BitVec 8)) (d : Dev),
    d.portOn p = true →
    d.on (EN_Pp_STAT_LINK p) = true →
    64 ≤ b.length →
    b.length ≤ 1522 →
    d.rxAccepts p b = true →
    (d.headDesc p 8).1 = none →
    (d.headDesc p 8).2.net.stall = false →
    On (.rxFrame p b true) d (fun e =>
      e = (d.headDesc p 8).2.inc (EN_Pp_CNT2_RXDROP p))) ∧
  (∀ (p : Fin 6) (b : List (BitVec 8)) (data : List (BitVec 8)) (ws : List (BitVec 32)) (d : Dev),
    d.portOn p = true →
    d.on (EN_Pp_STAT_LINK p) = true →
    64 ≤ b.length →
    b.length ≤ 1522 →
    d.rxAccepts p b = true →
    (b.drop 12).take 2 ≠ [0x81#8, 0#8] →
    data = b.take (b.length - 4) →
    (d.headDesc p 8).1 = some (0, ws) →
    data.length ≤ wbits (ws.getD 2 0) 15 0 →
    (d.rxBody p ws data).1 = 0 →
    (d.rxEnd p ws data 0).net.stall = false →
    On (.rxFrame p b true) d (fun e =>
      e = d.rxEnd p ws data 0 ∧ (e.enRing p 8).head = ((d.enRing p 8).head % (d.enRing p 8).size + 1) % (d.enRing p 8).size)) ∧
  (∀ (p : Fin 6) (b : List (BitVec 8)) (data : List (BitVec 8)) (ws : List (BitVec 32)) (z : Nat) (d : Dev),
    d.portOn p = true →
    d.on (EN_Pp_STAT_LINK p) = true →
    64 ≤ b.length →
    b.length ≤ 1522 →
    d.rxAccepts p b = true →
    (b.drop 12).take 2 = [0x81#8, 0#8] →
    data = b.take 12 ++ (b.take (b.length - 4)).drop 16 →
    (d.headDesc p 8).1 = some (0, ws) →
    data.length ≤ wbits (ws.getD 2 0) 15 0 →
    (d.rxBody p ws data).1 = 0 →
    z = (b.getD 14 0).toNat * 256 + (b.getD 15 0).toNat →
    (d.rxEnd p ws data (BitVec.ofNat 32 (z % 4096 + z / 8192 * 4096 + 2 ^ 15))).net.stall = false →
    On (.rxFrame p b true) d (fun e =>
      e = d.rxEnd p ws data (BitVec.ofNat 32 (z % 4096 + z / 8192 * 4096 + 2 ^ 15)))) ∧
  (∀ (p : Fin 6) (b : List (BitVec 8)) (ws : List (BitVec 32)) (d : Dev),
    d.portOn p = true →
    d.on (EN_Pp_STAT_LINK p) = true →
    64 ≤ b.length →
    b.length ≤ 1522 →
    d.rxAccepts p b = true →
    (b.drop 12).take 2 ≠ [0x81#8, 0#8] →
    (d.headDesc p 8).1 = some (0, ws) →
    wbits (ws.getD 2 0) 15 0 < b.length - 4 →
    (d.headDesc p 8).2.net.stall = false →
    On (.rxFrame p b true) d (fun e =>
      e = (d.headDesc p 8).2.inc (EN_Pp_CNT2_RXDROP p))) ∧
  (∀ (p : Fin 6) (v : BitVec 32) (d : Dev),
    d.ethUp = true →
    On (.rtailWrite p v) d (fun e =>
      e.eth = { d.eth with rings := tset EnRing.reset d.eth.rings (p * 16 + d.rd (EN_Pp_RSEL_RING p)) { d.enRing p (d.rd (EN_Pp_RSEL_RING p)) with tail := wbits v 11 0 } } ∧ e = { d with eth := e.eth })) ∧
  (∀ (p : Fin 6) (d : Dev),
    d.ethUp = true →
    d.on (EN_Pp_CFG_EN p) = false →
    On (.portEnable p) d (fun e =>
      e.on (EN_Pp_CFG_EN p) = true ∧ e.rd (EN_Pp_GATE_STATE p) = d.rd (EN_Pp_GATE_INIT p) ∧ e.rd (EN_Pp_CFG_MODE p) = d.rd (EN_Pp_CFG_MODE p) ∧ OnlyRegs [EN_Pp_CFG p, EN_Pp_GATE p] d e)) ∧
  (∀ (p : Fin 6) (d : Dev),
    d.ethUp = true →
    d.on (EN_Pp_CFG_EN p) = true →
    On (.portEnable p) d (fun e =>
      e.on (EN_Pp_CFG_EN p) = true ∧ e.rd (EN_Pp_CFG_MODE p) = d.rd (EN_Pp_CFG_MODE p) ∧ OnlyRegs [EN_Pp_CFG p] d e)) ∧
  (∀ (p : Fin 6) (d : Dev),
    d.ethUp = true →
    On (.enClr p) d (fun e =>
      e.reg (EN_Pp_CNT0 p) = 0 ∧ e.reg (EN_Pp_CNT1 p) = 0 ∧ e.reg (EN_Pp_CNT2 p) = 0 ∧ OnlyRegs [EN_Pp_CNT0 p, EN_Pp_CNT1 p, EN_Pp_CNT2 p] d e)) ∧
  (∀ (p : Fin 6) (v : BitVec 32) (d : Dev),
    d.ethUp = false →
    On (.rtailWrite p v) d (fun e =>
      e = d)) ∧
  (∀ d : Dev,
    d.ethUp = true →
    On .ntAdvance d (fun e =>
      ((e.eth.count * 2 ^ 32 + e.eth.sub.toNat : Nat) : Int) = (((d.eth.count * 2 ^ 32 + d.eth.sub.toNat + 5 * 2 ^ 32 : Nat) : Int) + (d.reg EN_NT_ADJ).toInt + d.eth.step * 2 ^ 32) % ((2 ^ 48 * 4000000000 * 2 ^ 32 : Nat) : Int) ∧ e.eth.qns < 4000000000 ∧ e.eth.step = 0 ∧ e.eth = { d.eth with sec := e.eth.sec, qns := e.eth.qns, sub := e.eth.sub, step := e.eth.step } ∧ e = { d with eth := e.eth })) ∧
  (∀ d : Dev,
    d.ethUp = false →
    On .ntAdvance d (fun e =>
      e = d)) ∧
  (∀ d : Dev,
    d.ethUp = true →
    On .ntStep d (fun e =>
      e.eth = { d.eth with step := d.eth.step + (d.reg EN_NT_STEPS).toInt * 4000000000 + (d.reg EN_NT_STEPQ).toInt } ∧ e = { d with eth := e.eth })) ∧
  (∀ d : Dev,
    d.ethUp = true →
    d.on EN_TS_CTL_SYNC = false →
    On .syncSet d (fun e =>
      e.on EN_TS_CTL_SYNC = true ∧ e.on (AU_ADn_STAT_UNSYNC 7) = false ∧ e.ang = d.ang ∧ (wbit d.ev.mask 7 = true → d.ev.queue.length < 64 → (∃ a b c, e.ev.queue = d.ev.queue ++ [{ code := 0x70, eseq := nextEseq (d.reg HL_ESEQ), payload := [1, a, b, c] }])) ∧ e.mem = d.mem)) ∧
  (∀ d : Dev,
    d.ethUp = false ∨ d.on EN_TS_CTL_SYNC = true →
    On .syncSet d (fun e =>
      e = d)) ∧
  (∀ d : Dev,
    d.ethUp = true →
    d.on EN_TS_CTL_SYNC = true →
    On .syncClear d (fun e =>
      e.on EN_TS_CTL_SYNC = false ∧ e.on (AU_ADn_STAT_UNSYNC 7) = true ∧ e.rdBit AU_STAT_LOCK 7 = false ∧ e.ad 7 = { d.ad 7 with accN := 0 } ∧ (∀ n, n ≠ 7 → e.ad n = d.ad n) ∧ (wbit d.ev.mask 7 = true → d.ev.queue.length < 64 → (∃ a b c, e.ev.queue = d.ev.queue ++ [{ code := 0x70, eseq := nextEseq (d.reg HL_ESEQ), payload := [0, a, b, c] }])) ∧ e.mem = d.mem)) ∧
  (∀ d : Dev,
    d.on EN_TS_CTL_SYNC = true →
    On .syncTimeout d (fun e =>
      e.on EN_TS_CTL_SYNC = false ∧ e.on (AU_ADn_STAT_UNSYNC 7) = true ∧ e.rdBit AU_STAT_LOCK 7 = false ∧ e.ad 7 = { d.ad 7 with accN := 0 } ∧ (∀ n, n ≠ 7 → e.ad n = d.ad n) ∧ (wbit d.ev.mask 7 = true → d.ev.queue.length < 64 → (∃ a b c, e.ev.queue = d.ev.queue ++ [{ code := 0x70, eseq := nextEseq (d.reg HL_ESEQ), payload := [0, a, b, c] }])) ∧ e.mem = d.mem)) ∧
  (∀ d : Dev,
    d.on EN_TS_CTL_SYNC = false →
    On .syncTimeout d (fun e =>
      e = d)) ∧
  (∀ (p : Fin 6) (d : Dev),
    d.rd EN_TS_CFG_PORT ≠ p.val ∨ d.on EN_TS_CTL_SYNC = false →
    On (.ethLinkDown p) d (fun e =>
      e.on (EN_Pp_STAT_LINK p) = false ∧ e.rd (EN_Pp_STAT_SPEED p) = 0 ∧ OnlyRegs [EN_Pp_STAT p] d e)) ∧
  (∀ (p : Fin 6) (d : Dev),
    d.rd EN_TS_CFG_PORT = p.val →
    d.on EN_TS_CTL_SYNC = true →
    On (.ethLinkDown p) d (fun e =>
      e.on (EN_Pp_STAT_LINK p) = false ∧ e.on EN_TS_CTL_SYNC = false ∧ e.on (AU_ADn_STAT_UNSYNC 7) = true ∧ e.rdBit AU_STAT_LOCK 7 = false ∧ e.ad 7 = { d.ad 7 with accN := 0 } ∧ (∀ n, n ≠ 7 → e.ad n = d.ad n) ∧ (wbit d.ev.mask 7 = true → d.ev.queue.length < 64 → (∃ a b c, e.ev.queue = d.ev.queue ++ [{ code := 0x70, eseq := nextEseq (d.reg HL_ESEQ), payload := [0, a, b, c] }])) ∧ e.mem = d.mem)) ∧
  (∀ (p : Fin 6) (v : BitVec 2) (d : Dev),
    d.ethUp = true →
    d.on PC_STAT_SLOCK = true →
    On (.ethLinkUp p v) d (fun e =>
      e.on (EN_Pp_STAT_LINK p) = true ∧ e.rd (EN_Pp_STAT_SPEED p) = v.toNat ∧ OnlyRegs [EN_Pp_STAT p] d e)) ∧
  (∀ (p : Fin 6) (v : BitVec 2) (d : Dev),
    d.ethUp = false ∨ d.on PC_STAT_SLOCK = false →
    On (.ethLinkUp p v) d (fun e =>
      e = d))

/-- A byte written to a UART with room joins its transmit FIFO and a read takes the oldest received one, the levels showing it; a full FIFO sets OVR
and loses the byte; a received byte of an enabled UART joins the receive FIFO, framing and parity errors show, and the console's UART gives it to
firmware while firmware runs; a byte shifted out leaves. SPI words likewise, and a completed word moves one word of each FIFO. An I2C command
makes an enabled controller BUSY with the fields it had at GO, is ignored while it is, and ends with NACK or ARBL, its bytes taken or given, or
with TMO. An xSPI command makes its controller BUSY with its fields, and with the bytes of its buffer where it writes, as they are at GO; one that
reads leaves its bytes in the Sound. -/
def Obligations.SerialControllers : Prop :=
  (∀ (u : Fin 2) (b : BitVec 8) (d : Dev),
    (tget [] d.ser.utx u).length < 16 →
    On (.uartDataWrite u b) d (fun e =>
      tget [] e.ser.utx u = (tget [] d.ser.utx u) ++ [b] ∧ e.rd (SP_Uu_STAT_TXLVL u) = (tget [] d.ser.utx u).length + 1 ∧ e.ser = { d.ser with utx := e.ser.utx } ∧ (∀ x, x ≠ u.val → tget [] e.ser.utx x = tget [] d.ser.utx x) ∧ RegsBut [SP_Uu_STAT u] d e ∧ e = { d with regs := e.regs, flags := e.flags, ser := e.ser })) ∧
  (∀ (u : Fin 2) (b : BitVec 8) (d : Dev),
    16 ≤ (tget [] d.ser.utx u).length →
    On (.uartDataWrite u b) d (fun e =>
      e.on (SP_Uu_STAT_OVR u) = true ∧ OnlyRegs [SP_Uu_STAT u] d e)) ∧
  (∀ (u : Fin 2) (b : BitVec 8) (l : List (BitVec 8)) (d : Dev),
    (tget [] d.ser.urx u) = b :: l →
    l.length < 16 →
    On (.uartDataRead u) d (fun e =>
      e.rdData = b.setWidth 32 ∧ tget [] e.ser.urx u = l ∧ e.rd (SP_Uu_STAT_RXLVL u) = l.length ∧ e.ser = { d.ser with urx := e.ser.urx } ∧ RegsBut [SP_Uu_STAT u] d e ∧ e = { d with regs := e.regs, flags := e.flags, ser := e.ser, rdData := e.rdData })) ∧
  (∀ (u : Fin 2) (d : Dev),
    (tget [] d.ser.urx u) = [] →
    On (.uartDataRead u) d (fun e =>
      e = { d with rdData := 0 })) ∧
  (∀ (u : Fin 2) (b : BitVec 8) (f p : Bool) (d : Dev),
    d.on (SP_Uu_CFG_EN u) = true →
    u ≠ 0 ∨ d.on PC_STAT_FWOK = false →
    (tget [] d.ser.urx u).length < 16 →
    On (.uartRxByte u b f p) d (fun e =>
      tget [] e.ser.urx u = (tget [] d.ser.urx u) ++ [b] ∧ e.rd (SP_Uu_STAT_RXLVL u) = (tget [] d.ser.urx u).length + 1 ∧ (f = false → e.on (SP_Uu_STAT_FERR u) = true) ∧ (f = true → e.on (SP_Uu_STAT_FERR u) = d.on (SP_Uu_STAT_FERR u)) ∧ (p = false → d.rd (SP_Uu_CFG_PAR u) ≠ 0 → e.on (SP_Uu_STAT_PERR u) = true) ∧ (p = true ∨ d.rd (SP_Uu_CFG_PAR u) = 0 → e.on (SP_Uu_STAT_PERR u) = d.on (SP_Uu_STAT_PERR u)) ∧ e.ser = { d.ser with urx := e.ser.urx } ∧ (∀ x, x ≠ u.val → tget [] e.ser.urx x = tget [] d.ser.urx x) ∧ RegsBut [SP_Uu_STAT u] d e ∧ e = { d with regs := e.regs, flags := e.flags, ser := e.ser })) ∧
  (∀ (u : Fin 2) (b : BitVec 8) (f p : Bool) (d : Dev),
    d.on (SP_Uu_CFG_EN u) = true →
    u ≠ 0 ∨ d.on PC_STAT_FWOK = false →
    16 ≤ (tget [] d.ser.urx u).length →
    On (.uartRxByte u b f p) d (fun e =>
      e.on (SP_Uu_STAT_OVR u) = true ∧ OnlyRegs [SP_Uu_STAT u] d e)) ∧
  (∀ (b : BitVec 8) (d : Dev),
    d.on (SP_Uu_CFG_EN 0) = true →
    d.on PC_STAT_FWOK = true →
    On (.uartRxByte 0 b true true) d (fun e =>
      e.mail = { d.mail with part := some d.now } ∧ e = { d with mail := e.mail })) ∧
  (∀ (u : Fin 2) (b : BitVec 8) (f p : Bool) (d : Dev),
    d.on (SP_Uu_CFG_EN u) = false →
    On (.uartRxByte u b f p) d (fun e =>
      e = d)) ∧
  (∀ (u : Fin 2) (b : BitVec 8) (l : List (BitVec 8)) (d : Dev),
    (tget [] d.ser.utx u) = b :: l →
    l.length < 16 →
    d.on (SP_Uu_CFG_EN u) = true →
    On (.uartTxByte u) d (fun e =>
      tget [] e.ser.utx u = l ∧ e.rd (SP_Uu_STAT_TXLVL u) = l.length ∧ e.ser = { d.ser with utx := e.ser.utx } ∧ (∀ x, x ≠ u.val → tget [] e.ser.utx x = tget [] d.ser.utx x) ∧ RegsBut [SP_Uu_STAT u] d e ∧ e = { d with regs := e.regs, flags := e.flags, ser := e.ser })) ∧
  (∀ (u : Fin 2) (d : Dev),
    (tget [] d.ser.utx u) = [] ∨ d.on (SP_Uu_CFG_EN u) = false →
    On (.uartTxByte u) d (fun e =>
      e = d)) ∧
  (∀ (u : Fin 2) (v : BitVec 32) (d : Dev),
    (tget [] d.ser.stx u).length < 16 →
    On (.spiDataWrite u v) d (fun e =>
      tget [] e.ser.stx u = (tget [] d.ser.stx u) ++ [v] ∧ e.rd (SP_Ss_STAT_TXLVL u) = (tget [] d.ser.stx u).length + 1 ∧ e.on (SP_Ss_STAT_BUSY u) = d.on (SP_Ss_CFG_EN u) ∧ e.ser = { d.ser with stx := e.ser.stx } ∧ (∀ x, x ≠ u.val → tget [] e.ser.stx x = tget [] d.ser.stx x) ∧ RegsBut [SP_Ss_STAT u] d e ∧ e = { d with regs := e.regs, flags := e.flags, ser := e.ser })) ∧
  (∀ (u : Fin 2) (v : BitVec 32) (d : Dev),
    16 ≤ (tget [] d.ser.stx u).length →
    On (.spiDataWrite u v) d (fun e =>
      e.on (SP_Ss_STAT_OVR u) = true ∧ OnlyRegs [SP_Ss_STAT u] d e)) ∧
  (∀ (u : Fin 2) (v : BitVec 32) (l : List (BitVec 32)) (d : Dev),
    (tget [] d.ser.srx u) = v :: l →
    l.length < 16 →
    On (.spiDataRead u) d (fun e =>
      e.rdData = v ∧ tget [] e.ser.srx u = l ∧ e.rd (SP_Ss_STAT_RXLVL u) = l.length ∧ e.ser = { d.ser with srx := e.ser.srx } ∧ RegsBut [SP_Ss_STAT u] d e ∧ e = { d with regs := e.regs, flags := e.flags, ser := e.ser, rdData := e.rdData })) ∧
  (∀ (u : Fin 2) (d : Dev),
    (tget [] d.ser.srx u) = [] →
    On (.spiDataRead u) d (fun e =>
      e = { d with rdData := 0 })) ∧
  (∀ (u : Fin 2) (v w : BitVec 32) (l : List (BitVec 32)) (d : Dev),
    (tget [] d.ser.stx u) = w :: l →
    l.length < 16 →
    d.on (SP_Ss_CFG_EN u) = true →
    (tget [] d.ser.srx u).length < 16 →
    On (.spiWordDone u v) d (fun e =>
      tget [] e.ser.stx u = l ∧ tget [] e.ser.srx u = (tget [] d.ser.srx u) ++ [BitVec.ofNat 32 (v.toNat % 2 ^ max 8 (d.rd (SP_Ss_CFG_WLEN u) + 1))] ∧ e.rd (SP_Ss_STAT_TXLVL u) = l.length ∧ e.rd (SP_Ss_STAT_RXLVL u) = (tget [] d.ser.srx u).length + 1 ∧ (e.on (SP_Ss_STAT_BUSY u) = true ↔ l ≠ []) ∧ e.ser = { d.ser with stx := e.ser.stx, srx := e.ser.srx } ∧ RegsBut [SP_Ss_STAT u] d e ∧ e = { d with regs := e.regs, flags := e.flags, ser := e.ser })) ∧
  (∀ (u : Fin 2) (v w : BitVec 32) (l : List (BitVec 32)) (d : Dev),
    (tget [] d.ser.stx u) = w :: l →
    l.length < 16 →
    d.on (SP_Ss_CFG_EN u) = true →
    16 ≤ (tget [] d.ser.srx u).length →
    On (.spiWordDone u v) d (fun e =>
      e.on (SP_Ss_STAT_OVR u) = true ∧ tget [] e.ser.stx u = l ∧ e.ser.srx = d.ser.srx)) ∧
  (∀ (u : Fin 2) (v : BitVec 32) (d : Dev),
    (tget [] d.ser.stx u) = [] ∨ d.on (SP_Ss_CFG_EN u) = false →
    On (.spiWordDone u v) d (fun e =>
      e = d)) ∧
  (∀ (v : BitVec 32) (d : Dev),
    wbit v 31 = false ∨ d.on SP_I2C_STAT_BUSY = false →
    On (.i2cGo v) d (fun e =>
      e.on SP_I2C_STAT_BUSY = (d.on SP_I2C_STAT_BUSY || (wbit v 31 && d.on SP_I2C_CFG_EN)) ∧ e.rd SP_I2C_CMD_ADDR = wbits v 6 0 ∧ e.on SP_I2C_CMD_READ = wbit v 7 ∧ e.rd SP_I2C_CMD_LEN = wbits v 11 8 ∧ e.on SP_I2C_CMD_NOSTOP = wbit v 16 ∧ e.ser = { d.ser with i2cRun := if wbit v 31 && d.on SP_I2C_CFG_EN then v else d.ser.i2cRun } ∧ RegsBut [SP_I2C_CMD, SP_I2C_STAT] d e ∧ e = { d with regs := e.regs, flags := e.flags, ser := e.ser })) ∧
  (∀ (v : BitVec 32) (d : Dev),
    wbit v 31 = true →
    d.on SP_I2C_STAT_BUSY = true →
    On (.i2cGo v) d (fun e =>
      e = d)) ∧
  (∀ (b : List (BitVec 8)) (d : Dev),
    d.on SP_I2C_STAT_BUSY = true →
    wbit d.ser.i2cRun 7 = true →
    On (.i2cDone true false b) d (fun e =>
      e.on SP_I2C_STAT_BUSY = false ∧ e.ser = { d.ser with i2c := (d.ser.i2c ++ b.take (wbits d.ser.i2cRun 11 8 + 1)).take 16 } ∧ RegsBut [SP_I2C_STAT] d e ∧ e = { d with regs := e.regs, flags := e.flags, ser := e.ser })) ∧
  (∀ (b : List (BitVec 8)) (d : Dev),
    d.on SP_I2C_STAT_BUSY = true →
    wbit d.ser.i2cRun 7 = false →
    On (.i2cDone true false b) d (fun e =>
      e.on SP_I2C_STAT_BUSY = false ∧ e.ser = { d.ser with i2c := d.ser.i2c.drop (wbits d.ser.i2cRun 11 8 + 1) } ∧ RegsBut [SP_I2C_STAT] d e ∧ e = { d with regs := e.regs, flags := e.flags, ser := e.ser })) ∧
  (∀ (a l : Bool) (b : List (BitVec 8)) (d : Dev),
    d.on SP_I2C_STAT_BUSY = true →
    a = false ∨ l = true →
    On (.i2cDone a l b) d (fun e =>
      e.on SP_I2C_STAT_BUSY = false ∧ (a = false → e.on SP_I2C_STAT_NACK = true) ∧ (l = true → e.on SP_I2C_STAT_ARBL = true) ∧ OnlyRegs [SP_I2C_STAT] d e)) ∧
  (∀ (a l : Bool) (b : List (BitVec 8)) (d : Dev),
    d.on SP_I2C_STAT_BUSY = false →
    On (.i2cDone a l b) d (fun e =>
      e = d)) ∧
  (∀ d : Dev,
    d.on SP_I2C_STAT_BUSY = true →
    On .i2cStretchTimeout d (fun e =>
      e.on SP_I2C_STAT_BUSY = false ∧ e.on SP_I2C_STAT_TMO = true ∧ OnlyRegs [SP_I2C_STAT] d e)) ∧
  (∀ d : Dev,
    d.on SP_I2C_STAT_BUSY = false →
    On .i2cStretchTimeout d (fun e =>
      e = d)) ∧
  (∀ (v : BitVec 32) (d : Dev),
    d.on SP_XS_STAT_BUSY = false →
    wbit v 31 = true →
    d.on SP_XS_CMD_WR = false →
    On (.xspiGo v) d (fun e =>
      e.on SP_XS_STAT_BUSY = true ∧ e.rd SP_XS_LEN_LEN = wbits v 8 0 ∧ e.ser = { d.ser with xs := some { op := if d.on SP_XS_CFG_MODE then d.rd SP_XS_CMD_OPCODE else d.rd SP_XS_CMD_OPCODE % 256, sends := d.on SP_XS_CMD_ADDR, addr := d.rd SP_XS_ADDR_ADDR, wr := false, buf := d.rd SP_XS_BUF_ADDR * 4, len := min 256 (wbits v 8 0), data := [] } } ∧ RegsBut [SP_XS_LEN, SP_XS_STAT] d e ∧ e = { d with regs := e.regs, flags := e.flags, ser := e.ser })) ∧
  (∀ (v : BitVec 32) (d : Dev),
    wbit v 31 = false →
    On (.xspiGo v) d (fun e =>
      e.on SP_XS_STAT_BUSY = d.on SP_XS_STAT_BUSY ∧ e.rd SP_XS_LEN_LEN = wbits v 8 0 ∧ OnlyRegs [SP_XS_LEN] d e)) ∧
  (∀ (v : BitVec 32) (d : Dev),
    wbit v 31 = true →
    d.on SP_XS_STAT_BUSY = true →
    On (.xspiGo v) d (fun e =>
      e = d)) ∧
  (∀ (b : List (BitVec 8)) (x : XsCmd) (d : Dev),
    d.ser.xs = some x →
    x.wr = true →
    On (.xspiDone b) d (fun e =>
      e.on SP_XS_STAT_BUSY = false ∧ e.ser = { d.ser with xs := none } ∧ RegsBut [SP_XS_STAT] d e ∧ (x.sends = false → e.mem = d.mem) ∧ e = { d with regs := e.regs, flags := e.flags, mem := e.mem, ser := e.ser })) ∧
  (∀ (b : List (BitVec 8)) (x : XsCmd) (d : Dev),
    d.ser.xs = some x →
    x.wr = false →
    b.length = x.len →
    1 ≤ b.length →
    x.buf + b.length ≤ 0x800000 →
    d.integ.ecc = [] →
    d.integ.merge = [] →
    (∀ k : Fin 4, d.on (MI_FLIPk_CTL_ARM k) = false) →
    On (.xspiDone b) d (fun e =>
      e.on SP_XS_STAT_BUSY = false ∧ e.ser = { d.ser with xs := none } ∧ e.bytesAt x.buf b.length = b ∧ (∀ a, a < x.buf ∨ x.buf + b.length ≤ a → e.byte a = d.byte a) ∧ e.on SP_XS_STAT_ERR = d.on SP_XS_STAT_ERR)) ∧
  (∀ (b : List (BitVec 8)) (d : Dev),
    d.ser.xs = none →
    On (.xspiDone b) d (fun e =>
      e = d)) ∧
  (∀ (v : BitVec 32) (d : Dev),
    d.on SP_XS_STAT_BUSY = false →
    wbit v 31 = true →
    d.on SP_XS_CMD_WR = true →
    d.rd SP_XS_BUF_ADDR * 4 + min 256 (wbits v 8 0) ≤ 0x800000 →
    d.integ.ecc = [] →
    On (.xspiGo v) d (fun e =>
      e.on SP_XS_STAT_BUSY = true ∧ e.rd SP_XS_LEN_LEN = wbits v 8 0 ∧ e.ser = { d.ser with xs := some { op := if d.on SP_XS_CFG_MODE then d.rd SP_XS_CMD_OPCODE else d.rd SP_XS_CMD_OPCODE % 256, sends := d.on SP_XS_CMD_ADDR, addr := d.rd SP_XS_ADDR_ADDR, wr := true, buf := d.rd SP_XS_BUF_ADDR * 4, len := min 256 (wbits v 8 0), data := d.loadBytes (d.rd SP_XS_BUF_ADDR * 4) (min 256 (wbits v 8 0)) } } ∧ RegsBut [SP_XS_LEN, SP_XS_STAT] d e ∧ e = { d with regs := e.regs, flags := e.flags, ser := e.ser }))

/-- A step of a state whose queue has a command at its front is that command's effect on the state with the rest of the queue; on an empty queue the block idles (the model's choice, log entry 1). -/
def Obligations.StepRunsTheFront : Prop :=
  (∀ (c : Instr) (rest : List Instr) (s : State), step { s with pending := c :: rest } = exec c { s with pending := rest }) ∧
  (∀ s : State, s.pending = [] → step s = .next s)

/-- After reset no command waits, the registers hold the reset values of the register tables (29 of them, from every chapter that has one, at the first or the last unit of their kind), and the invariant of the key slots holds. That the non-volatile memory is delivered with every slot EMPTY and a floor of 0 is the model's choice (log entry 16). -/
def Obligations.StateAfterReset : Prop :=
  State.reset.pending = [] ∧ KeysOk State.reset.nv ∧ State.reset.nv.floor = 0 ∧
  State.reset.dev.reg AU_CTRL = 0x80 ∧ State.reset.dev.reg AU_LEAD = 0x100 ∧ State.reset.dev.reg (AU_ADn_CFG 7) = 0x6 ∧ State.reset.dev.reg (AU_ADn_TRK 3) = 0xC040040 ∧ State.reset.dev.reg ET_CTRL = 0x1 ∧ State.reset.dev.reg ET_STAT = 0x8000 ∧ State.reset.dev.reg (IS_MCFG 95) = 0xC0 ∧ State.reset.dev.reg AHD_CTRL = 0x1 ∧ State.reset.dev.reg (HP_MCLKm 0) = 0x1228 ∧ State.reset.dev.reg (HP_SDi_CFG 47) = 0x100806 ∧ State.reset.dev.reg (HP_SDi_CTHR 0) = 0x7FFF8000 ∧ State.reset.dev.reg PW_STAT = 0x1 ∧ State.reset.dev.reg (PW_PAIRp_CFG 47) = 0x6 ∧ State.reset.dev.reg CF_DEVID = 0x59419601 ∧ State.reset.dev.reg CF_BOOT = 0xFFFFFF ∧ State.reset.dev.reg (CP_STAT 0) = 0x1 ∧ State.reset.dev.reg (CP_STAT 1) = 0x0 ∧ State.reset.dev.reg (CP_CFG 3) = 0x6 ∧ State.reset.dev.reg MM_CTRL = 0x1 ∧ State.reset.dev.reg TS_TRSIZE = 0x8 ∧ State.reset.dev.reg PN_CTRL = 0x1 ∧ State.reset.dev.reg MI_CTRL = 0x3 ∧ State.reset.dev.reg DC_MAP = 0x34 ∧ State.reset.dev.reg HL_CTRL = 0x2 ∧ State.reset.dev.reg HL_ID = 0xA961FC3 ∧ State.reset.dev.reg EN_TS_THR = 0x64 ∧ State.reset.dev.reg SP_XS_CFG = 0x140 ∧ State.reset.dev.reg PC_STEP = 0x1F400FA ∧ State.reset.dev.reg SS_FREE = 0x1EFC0

/-- Every step from every state answers a next state: no command faults and none is refused. A step takes exactly the command at the front off the queue and adds none. It keeps the key slots legal; a REVOKED slot stays REVOKED, a programmed slot keeps its key, and the floor never falls; and only FLOOR_SET, KEY_PROG and KEY_REVOKE change the non-volatile memory, but that a read of the key slots rewrites the copies of a slot that disagree from their vote (R306). The first clause says of the whole model what R211 and R212 say of firmware's commands. -/
def Obligations.NonVolatileMemoryIsKept : Prop :=
  (∀ s : State, Safe s) ∧
  (∀ s t : State, step s = .next t → t.pending = s.pending.tail) ∧
  (∀ s t : State, KeysOk s.nv → step s = .next t → KeysOk t.nv) ∧
  (∀ s t : State, step s = .next t → NvKept s.nv t.nv) ∧
  (∀ (c : Instr) (rest : List Instr) (s t : State), s.pending = c :: rest → c ≠ .floorSet → c ≠ .keyProg → c ≠ .keyRevoke → step s = .next t → t.nv = s.nv ∨ t.nv = s.nv.mended)

/-- Reading the fields of the context word that the fields give returns them, every field at every value; encoding the fields of a context word returns the word; and of the four 32-bit words that hold it, word k is bits [32k+31:32k]. -/
def Obligations.ContextWordsRoundTrip : Prop :=
  (∀ c : Ctx, Ctx.decode c.encode = c) ∧
  (∀ w : BitVec 128, (Ctx.decode w).encode = w) ∧
  (∀ w0 w1 w2 w3 : BitVec 32, ∀ k : Fin 4, (Ctx.ofWords w0 w1 w2 w3).extractLsb' (32 * k) 32 = [w0, w1, w2, w3].getD k 0) ∧
  (∀ w : BitVec 128, Ctx.ofWords (w.extractLsb' 0 32) (w.extractLsb' 32 32) (w.extractLsb' 64 32) (w.extractLsb' 96 32) = w) ∧
  (∀ c e : Ctx, c.encode = e.encode → c = e)
end

