-- ==== Sys2Proof/Laws/Memory.lean ====
section
/-! SUPPORT. Memory: what a byte reads after a store, that a store changes memory alone, and that every memory operation keeps the canonical form. -/
namespace Sys2Proof.Machine

/-! ### One byte -/

@[simp] theorem Dev.byte_setByte_same (d : Dev) (a : Nat) (v : BitVec 8) : (d.setByte a v).byte a = v := by
  simp [Dev.byte, Dev.setByte]

theorem Dev.byte_setByte_ne (d : Dev) {a b : Nat} (v : BitVec 8) (h : b ≠ a) : (d.setByte a v).byte b = d.byte b :=
  tget_tset_ne _ _ _ _ h

theorem Dev.byte_setByte (d : Dev) (a b : Nat) (v : BitVec 8) : (d.setByte a v).byte b = if b = a then v else d.byte b := by
  split
  · rename_i h
    rw [h, Dev.byte_setByte_same]
  · rename_i h
    exact Dev.byte_setByte_ne d v h

/-! ### Several bytes -/

/-- A store changes memory alone. -/
theorem Dev.store_only (n : Nat) : ∀ (d : Dev) (a v : Nat), d.store a n v = { d with mem := (d.store a n v).mem } := by
  induction n with
  | zero => intros; rfl
  | succ n ih =>
    intro d a v
    unfold Dev.store
    rw [ih]
    rfl

theorem Dev.storeBytes_only (bs : List (BitVec 8)) : ∀ (d : Dev) (a : Nat), d.storeBytes a bs = { d with mem := (d.storeBytes a bs).mem } := by
  induction bs with
  | nil => intros; rfl
  | cons b bs ih =>
    intro d a
    unfold Dev.storeBytes
    rw [ih]
    rfl

/-- A store leaves every byte outside it alone. -/
theorem Dev.byte_storeBytes_out (bs : List (BitVec 8)) : ∀ (d : Dev) (a x : Nat), x < a ∨ a + bs.length ≤ x → (d.storeBytes a bs).byte x = d.byte x := by
  induction bs with
  | nil => intros; rfl
  | cons b bs ih =>
    intro d a x h
    simp only [List.length_cons] at h
    unfold Dev.storeBytes
    rw [ih _ _ _ (by omega), Dev.byte_setByte_ne]
    omega

theorem Dev.byte_store_out (n : Nat) : ∀ (d : Dev) (a v x : Nat), x < a ∨ a + n ≤ x → (d.store a n v).byte x = d.byte x := by
  induction n with
  | zero => intros; rfl
  | succ n ih =>
    intro d a v x h
    unfold Dev.store
    rw [ih _ _ _ _ (by omega), Dev.byte_setByte_ne]
    omega

/-- Byte `k` of a store is the `k`-th byte stored. -/
theorem Dev.byte_storeBytes_in (bs : List (BitVec 8)) : ∀ (d : Dev) (a k : Nat), k < bs.length → (d.storeBytes a bs).byte (a + k) = bs.getD k 0 := by
  induction bs with
  | nil => intro _ _ _ h; exact absurd h (Nat.not_lt_zero _)
  | cons b bs ih =>
    intro d a k h
    unfold Dev.storeBytes
    cases k with
    | zero => rw [Dev.byte_storeBytes_out _ _ _ _ (by omega)]; simp
    | succ k =>
      rw [show a + (k + 1) = a + 1 + k by omega, ih _ _ _ (by simpa using h)]
      simp

/-- Bytes stored are read back. -/
theorem Dev.loadBytes_storeBytes (bs : List (BitVec 8)) : ∀ (d : Dev) (a : Nat), (d.storeBytes a bs).loadBytes a bs.length = bs := by
  induction bs with
  | nil => intros; rfl
  | cons b bs ih =>
    intro d a
    have h0 : (d.storeBytes a (b :: bs)).byte a = b := by simpa using Dev.byte_storeBytes_in (b :: bs) d a 0 (by simp)
    have h1 : (d.storeBytes a (b :: bs)).loadBytes (a + 1) bs.length = bs := ih (d.setByte a b) (a + 1)
    simp [Dev.loadBytes, h0, h1]

/-! ### The canonical form -/

theorem Dev.wf_setByte {d : Dev} (a : Nat) (v : BitVec 8) (h : Memory.wf d.mem = true) : Memory.wf (d.setByte a v).mem = true :=
  twf_tset _ _ _ _ h

theorem Dev.wf_store (n : Nat) : ∀ {d : Dev} (a v : Nat), Memory.wf d.mem = true → Memory.wf (d.store a n v).mem = true := by
  induction n with
  | zero => intro _ _ _ h; exact h
  | succ n ih =>
    intro d a v h
    exact ih _ _ (Dev.wf_setByte _ _ h)

theorem Dev.wf_storeBytes (bs : List (BitVec 8)) : ∀ {d : Dev} (a : Nat), Memory.wf d.mem = true → Memory.wf (d.storeBytes a bs).mem = true := by
  induction bs with
  | nil => intro _ _ h; exact h
  | cons b bs ih =>
    intro d a h
    exact ih _ (Dev.wf_setByte _ _ h)

theorem Dev.wf_storeWords (ws : List (BitVec 32)) : ∀ {d : Dev} (a : Nat), Memory.wf d.mem = true → Memory.wf (d.storeWords a ws).mem = true := by
  induction ws with
  | nil => intro _ _ h; exact h
  | cons w ws ih =>
    intro d a h
    exact ih _ (Dev.wf_store _ _ _ h)

/-- Host memory keeps it too. -/
theorem Dev.wf_hostStore (bs : List (BitVec 8)) : ∀ {d : Dev} (a : Nat), Memory.wf d.hmem = true → Memory.wf (d.hostStore a bs).hmem = true := by
  induction bs with
  | nil => intro _ _ h; exact h
  | cons b bs ih =>
    intro d a h
    exact ih (d := { d with hmem := tset 0#8 d.hmem a b }) _ (twf_tset _ _ _ _ h)

/-- A reset or a staging area drops bytes: what is left keeps the form. -/
theorem wf_filter {m : List Host.Cell} (p : Host.Cell → Bool) (h : Memory.wf m = true) : Memory.wf (m.filter p) = true := by
  have key : ∀ t : List Host.Cell, tsorted none t = true → tsorted none (t.filter p) = true := by
    intro t
    induction t with
    | nil => intro h; exact h
    | cons e t ih =>
      intro h
      obtain ⟨a, w⟩ := e
      have h2 := (tsorted_cons_iff a w t).mp h
      rw [List.filter_cons]
      split
      · exact (tsorted_cons_iff a w _).mpr ⟨ih h2.1, fun x hx => h2.2 x (List.mem_of_mem_filter hx)⟩
      · exact ih h2.1
  simp only [Memory.wf, twf, Bool.and_eq_true, List.all_eq_true] at h ⊢
  exact ⟨key m h.1, fun e he => h.2 e (List.mem_of_mem_filter he)⟩

/-- Memory and host memory after reset have the form. -/
theorem wf_reset : Memory.wf State.reset.dev.mem = true ∧ Memory.wf State.reset.dev.hmem = true := ⟨rfl, rfl⟩

end Sys2Proof.Machine
end

