-- ==== Sys2Proof/Laws/Units.lean ====
section
/-! SUPPORT. The updates of the single units, field by field: each leaves every field of the block but those it names as it was (all by rfl). -/
namespace Sys2Proof.Machine

/-- A saturating counter's step changes registers alone. -/
theorem Dev.inc_frame (d : Dev) (f : Fld) : d.inc f = { d with regs := (d.inc f).regs } := by
  unfold Dev.inc
  split <;> rfl

/-- ... and of them its own alone. -/
theorem Dev.reg_inc_ne (d : Dev) (f : Fld) {a : Nat} (h : a ≠ f.addr) : (d.inc f).reg a = d.reg a := by
  unfold Dev.inc
  split
  · exact Dev.reg_wr_ne d f _ h
  · rfl

/-- What hardware sets (R5): the bit, and its mark for this ACLK; no other register. -/
theorem Dev.reg_setFlag_ne (d : Dev) (f : Fld) {a : Nat} (h : a ≠ f.addr) : (d.setFlag f).reg a = d.reg a := Dev.reg_wr_ne d f _ h

/-! ### setFlag -/

@[simp] theorem Dev.now_setFlag (d : Dev) (f : Fld) : (d.setFlag f).now = d.now := rfl
@[simp] theorem Dev.mem_setFlag (d : Dev) (f : Fld) : (d.setFlag f).mem = d.mem := rfl
@[simp] theorem Dev.hmem_setFlag (d : Dev) (f : Fld) : (d.setFlag f).hmem = d.hmem := rfl
@[simp] theorem Dev.ang_setFlag (d : Dev) (f : Fld) : (d.setFlag f).ang = d.ang := rfl
@[simp] theorem Dev.ev_setFlag (d : Dev) (f : Fld) : (d.setFlag f).ev = d.ev := rfl
@[simp] theorem Dev.conEvents_setFlag (d : Dev) (f : Fld) : (d.setFlag f).conEvents = d.conEvents := rfl
@[simp] theorem Dev.free_setFlag (d : Dev) (f : Fld) : (d.setFlag f).free = d.free := rfl
@[simp] theorem Dev.isles_setFlag (d : Dev) (f : Fld) : (d.setFlag f).isles = d.isles := rfl
@[simp] theorem Dev.lane_setFlag (d : Dev) (f : Fld) : (d.setFlag f).lane = d.lane := rfl
@[simp] theorem Dev.ahd_setFlag (d : Dev) (f : Fld) : (d.setFlag f).ahd = d.ahd := rfl
@[simp] theorem Dev.schedIn_setFlag (d : Dev) (f : Fld) : (d.setFlag f).schedIn = d.schedIn := rfl
@[simp] theorem Dev.schedWait_setFlag (d : Dev) (f : Fld) : (d.setFlag f).schedWait = d.schedWait := rfl
@[simp] theorem Dev.integ_setFlag (d : Dev) (f : Fld) : (d.setFlag f).integ = d.integ := rfl
@[simp] theorem Dev.preds_setFlag (d : Dev) (f : Fld) : (d.setFlag f).preds = d.preds := rfl
@[simp] theorem Dev.hb_setFlag (d : Dev) (f : Fld) : (d.setFlag f).hb = d.hb := rfl
@[simp] theorem Dev.rdData_setFlag (d : Dev) (f : Fld) : (d.setFlag f).rdData = d.rdData := rfl
@[simp] theorem Dev.cores_setFlag (d : Dev) (f : Fld) : (d.setFlag f).cores = d.cores := rfl
@[simp] theorem Dev.mmu_setFlag (d : Dev) (f : Fld) : (d.setFlag f).mmu = d.mmu := rfl
@[simp] theorem Dev.sched_setFlag (d : Dev) (f : Fld) : (d.setFlag f).sched = d.sched := rfl
@[simp] theorem Dev.net_setFlag (d : Dev) (f : Fld) : (d.setFlag f).net = d.net := rfl
@[simp] theorem Dev.dram_setFlag (d : Dev) (f : Fld) : (d.setFlag f).dram = d.dram := rfl
@[simp] theorem Dev.cfg_setFlag (d : Dev) (f : Fld) : (d.setFlag f).cfg = d.cfg := rfl
@[simp] theorem Dev.power_setFlag (d : Dev) (f : Fld) : (d.setFlag f).power = d.power := rfl
@[simp] theorem Dev.mail_setFlag (d : Dev) (f : Fld) : (d.setFlag f).mail = d.mail := rfl
@[simp] theorem Dev.eth_setFlag (d : Dev) (f : Fld) : (d.setFlag f).eth = d.eth := rfl
@[simp] theorem Dev.ser_setFlag (d : Dev) (f : Fld) : (d.setFlag f).ser = d.ser := rfl

/-! ### setFlagBit -/

@[simp] theorem Dev.now_setFlagBit (d : Dev) (f : Fld) (i : Nat) : (d.setFlagBit f i).now = d.now := rfl
@[simp] theorem Dev.mem_setFlagBit (d : Dev) (f : Fld) (i : Nat) : (d.setFlagBit f i).mem = d.mem := rfl
@[simp] theorem Dev.hmem_setFlagBit (d : Dev) (f : Fld) (i : Nat) : (d.setFlagBit f i).hmem = d.hmem := rfl
@[simp] theorem Dev.ang_setFlagBit (d : Dev) (f : Fld) (i : Nat) : (d.setFlagBit f i).ang = d.ang := rfl
@[simp] theorem Dev.ev_setFlagBit (d : Dev) (f : Fld) (i : Nat) : (d.setFlagBit f i).ev = d.ev := rfl
@[simp] theorem Dev.conEvents_setFlagBit (d : Dev) (f : Fld) (i : Nat) : (d.setFlagBit f i).conEvents = d.conEvents := rfl
@[simp] theorem Dev.free_setFlagBit (d : Dev) (f : Fld) (i : Nat) : (d.setFlagBit f i).free = d.free := rfl
@[simp] theorem Dev.isles_setFlagBit (d : Dev) (f : Fld) (i : Nat) : (d.setFlagBit f i).isles = d.isles := rfl
@[simp] theorem Dev.lane_setFlagBit (d : Dev) (f : Fld) (i : Nat) : (d.setFlagBit f i).lane = d.lane := rfl
@[simp] theorem Dev.ahd_setFlagBit (d : Dev) (f : Fld) (i : Nat) : (d.setFlagBit f i).ahd = d.ahd := rfl
@[simp] theorem Dev.schedIn_setFlagBit (d : Dev) (f : Fld) (i : Nat) : (d.setFlagBit f i).schedIn = d.schedIn := rfl
@[simp] theorem Dev.schedWait_setFlagBit (d : Dev) (f : Fld) (i : Nat) : (d.setFlagBit f i).schedWait = d.schedWait := rfl
@[simp] theorem Dev.integ_setFlagBit (d : Dev) (f : Fld) (i : Nat) : (d.setFlagBit f i).integ = d.integ := rfl
@[simp] theorem Dev.preds_setFlagBit (d : Dev) (f : Fld) (i : Nat) : (d.setFlagBit f i).preds = d.preds := rfl
@[simp] theorem Dev.hb_setFlagBit (d : Dev) (f : Fld) (i : Nat) : (d.setFlagBit f i).hb = d.hb := rfl
@[simp] theorem Dev.rdData_setFlagBit (d : Dev) (f : Fld) (i : Nat) : (d.setFlagBit f i).rdData = d.rdData := rfl
@[simp] theorem Dev.cores_setFlagBit (d : Dev) (f : Fld) (i : Nat) : (d.setFlagBit f i).cores = d.cores := rfl
@[simp] theorem Dev.mmu_setFlagBit (d : Dev) (f : Fld) (i : Nat) : (d.setFlagBit f i).mmu = d.mmu := rfl
@[simp] theorem Dev.sched_setFlagBit (d : Dev) (f : Fld) (i : Nat) : (d.setFlagBit f i).sched = d.sched := rfl
@[simp] theorem Dev.net_setFlagBit (d : Dev) (f : Fld) (i : Nat) : (d.setFlagBit f i).net = d.net := rfl
@[simp] theorem Dev.dram_setFlagBit (d : Dev) (f : Fld) (i : Nat) : (d.setFlagBit f i).dram = d.dram := rfl
@[simp] theorem Dev.cfg_setFlagBit (d : Dev) (f : Fld) (i : Nat) : (d.setFlagBit f i).cfg = d.cfg := rfl
@[simp] theorem Dev.power_setFlagBit (d : Dev) (f : Fld) (i : Nat) : (d.setFlagBit f i).power = d.power := rfl
@[simp] theorem Dev.mail_setFlagBit (d : Dev) (f : Fld) (i : Nat) : (d.setFlagBit f i).mail = d.mail := rfl
@[simp] theorem Dev.eth_setFlagBit (d : Dev) (f : Fld) (i : Nat) : (d.setFlagBit f i).eth = d.eth := rfl
@[simp] theorem Dev.ser_setFlagBit (d : Dev) (f : Fld) (i : Nat) : (d.setFlagBit f i).ser = d.ser := rfl

/-! ### setErr -/

@[simp] theorem Dev.now_setErr (d : Dev) (a : Nat) (m : BitVec 72) : (d.setErr a m).now = d.now := rfl
@[simp] theorem Dev.regs_setErr (d : Dev) (a : Nat) (m : BitVec 72) : (d.setErr a m).regs = d.regs := rfl
@[simp] theorem Dev.flags_setErr (d : Dev) (a : Nat) (m : BitVec 72) : (d.setErr a m).flags = d.flags := rfl
@[simp] theorem Dev.mem_setErr (d : Dev) (a : Nat) (m : BitVec 72) : (d.setErr a m).mem = d.mem := rfl
@[simp] theorem Dev.hmem_setErr (d : Dev) (a : Nat) (m : BitVec 72) : (d.setErr a m).hmem = d.hmem := rfl
@[simp] theorem Dev.ang_setErr (d : Dev) (a : Nat) (m : BitVec 72) : (d.setErr a m).ang = d.ang := rfl
@[simp] theorem Dev.ev_setErr (d : Dev) (a : Nat) (m : BitVec 72) : (d.setErr a m).ev = d.ev := rfl
@[simp] theorem Dev.conEvents_setErr (d : Dev) (a : Nat) (m : BitVec 72) : (d.setErr a m).conEvents = d.conEvents := rfl
@[simp] theorem Dev.free_setErr (d : Dev) (a : Nat) (m : BitVec 72) : (d.setErr a m).free = d.free := rfl
@[simp] theorem Dev.isles_setErr (d : Dev) (a : Nat) (m : BitVec 72) : (d.setErr a m).isles = d.isles := rfl
@[simp] theorem Dev.lane_setErr (d : Dev) (a : Nat) (m : BitVec 72) : (d.setErr a m).lane = d.lane := rfl
@[simp] theorem Dev.ahd_setErr (d : Dev) (a : Nat) (m : BitVec 72) : (d.setErr a m).ahd = d.ahd := rfl
@[simp] theorem Dev.schedIn_setErr (d : Dev) (a : Nat) (m : BitVec 72) : (d.setErr a m).schedIn = d.schedIn := rfl
@[simp] theorem Dev.schedWait_setErr (d : Dev) (a : Nat) (m : BitVec 72) : (d.setErr a m).schedWait = d.schedWait := rfl
@[simp] theorem Dev.preds_setErr (d : Dev) (a : Nat) (m : BitVec 72) : (d.setErr a m).preds = d.preds := rfl
@[simp] theorem Dev.hb_setErr (d : Dev) (a : Nat) (m : BitVec 72) : (d.setErr a m).hb = d.hb := rfl
@[simp] theorem Dev.rdData_setErr (d : Dev) (a : Nat) (m : BitVec 72) : (d.setErr a m).rdData = d.rdData := rfl
@[simp] theorem Dev.cores_setErr (d : Dev) (a : Nat) (m : BitVec 72) : (d.setErr a m).cores = d.cores := rfl
@[simp] theorem Dev.mmu_setErr (d : Dev) (a : Nat) (m : BitVec 72) : (d.setErr a m).mmu = d.mmu := rfl
@[simp] theorem Dev.sched_setErr (d : Dev) (a : Nat) (m : BitVec 72) : (d.setErr a m).sched = d.sched := rfl
@[simp] theorem Dev.net_setErr (d : Dev) (a : Nat) (m : BitVec 72) : (d.setErr a m).net = d.net := rfl
@[simp] theorem Dev.dram_setErr (d : Dev) (a : Nat) (m : BitVec 72) : (d.setErr a m).dram = d.dram := rfl
@[simp] theorem Dev.cfg_setErr (d : Dev) (a : Nat) (m : BitVec 72) : (d.setErr a m).cfg = d.cfg := rfl
@[simp] theorem Dev.power_setErr (d : Dev) (a : Nat) (m : BitVec 72) : (d.setErr a m).power = d.power := rfl
@[simp] theorem Dev.mail_setErr (d : Dev) (a : Nat) (m : BitVec 72) : (d.setErr a m).mail = d.mail := rfl
@[simp] theorem Dev.eth_setErr (d : Dev) (a : Nat) (m : BitVec 72) : (d.setErr a m).eth = d.eth := rfl
@[simp] theorem Dev.ser_setErr (d : Dev) (a : Nat) (m : BitVec 72) : (d.setErr a m).ser = d.ser := rfl

/-! ### setBucket -/

@[simp] theorem Dev.now_setBucket (d : Dev) (r : Nat) (b : Bucket) : (d.setBucket r b).now = d.now := rfl
@[simp] theorem Dev.regs_setBucket (d : Dev) (r : Nat) (b : Bucket) : (d.setBucket r b).regs = d.regs := rfl
@[simp] theorem Dev.flags_setBucket (d : Dev) (r : Nat) (b : Bucket) : (d.setBucket r b).flags = d.flags := rfl
@[simp] theorem Dev.mem_setBucket (d : Dev) (r : Nat) (b : Bucket) : (d.setBucket r b).mem = d.mem := rfl
@[simp] theorem Dev.hmem_setBucket (d : Dev) (r : Nat) (b : Bucket) : (d.setBucket r b).hmem = d.hmem := rfl
@[simp] theorem Dev.ang_setBucket (d : Dev) (r : Nat) (b : Bucket) : (d.setBucket r b).ang = d.ang := rfl
@[simp] theorem Dev.ev_setBucket (d : Dev) (r : Nat) (b : Bucket) : (d.setBucket r b).ev = d.ev := rfl
@[simp] theorem Dev.conEvents_setBucket (d : Dev) (r : Nat) (b : Bucket) : (d.setBucket r b).conEvents = d.conEvents := rfl
@[simp] theorem Dev.free_setBucket (d : Dev) (r : Nat) (b : Bucket) : (d.setBucket r b).free = d.free := rfl
@[simp] theorem Dev.isles_setBucket (d : Dev) (r : Nat) (b : Bucket) : (d.setBucket r b).isles = d.isles := rfl
@[simp] theorem Dev.lane_setBucket (d : Dev) (r : Nat) (b : Bucket) : (d.setBucket r b).lane = d.lane := rfl
@[simp] theorem Dev.ahd_setBucket (d : Dev) (r : Nat) (b : Bucket) : (d.setBucket r b).ahd = d.ahd := rfl
@[simp] theorem Dev.schedIn_setBucket (d : Dev) (r : Nat) (b : Bucket) : (d.setBucket r b).schedIn = d.schedIn := rfl
@[simp] theorem Dev.schedWait_setBucket (d : Dev) (r : Nat) (b : Bucket) : (d.setBucket r b).schedWait = d.schedWait := rfl
@[simp] theorem Dev.preds_setBucket (d : Dev) (r : Nat) (b : Bucket) : (d.setBucket r b).preds = d.preds := rfl
@[simp] theorem Dev.hb_setBucket (d : Dev) (r : Nat) (b : Bucket) : (d.setBucket r b).hb = d.hb := rfl
@[simp] theorem Dev.rdData_setBucket (d : Dev) (r : Nat) (b : Bucket) : (d.setBucket r b).rdData = d.rdData := rfl
@[simp] theorem Dev.cores_setBucket (d : Dev) (r : Nat) (b : Bucket) : (d.setBucket r b).cores = d.cores := rfl
@[simp] theorem Dev.mmu_setBucket (d : Dev) (r : Nat) (b : Bucket) : (d.setBucket r b).mmu = d.mmu := rfl
@[simp] theorem Dev.sched_setBucket (d : Dev) (r : Nat) (b : Bucket) : (d.setBucket r b).sched = d.sched := rfl
@[simp] theorem Dev.net_setBucket (d : Dev) (r : Nat) (b : Bucket) : (d.setBucket r b).net = d.net := rfl
@[simp] theorem Dev.dram_setBucket (d : Dev) (r : Nat) (b : Bucket) : (d.setBucket r b).dram = d.dram := rfl
@[simp] theorem Dev.cfg_setBucket (d : Dev) (r : Nat) (b : Bucket) : (d.setBucket r b).cfg = d.cfg := rfl
@[simp] theorem Dev.power_setBucket (d : Dev) (r : Nat) (b : Bucket) : (d.setBucket r b).power = d.power := rfl
@[simp] theorem Dev.mail_setBucket (d : Dev) (r : Nat) (b : Bucket) : (d.setBucket r b).mail = d.mail := rfl
@[simp] theorem Dev.eth_setBucket (d : Dev) (r : Nat) (b : Bucket) : (d.setBucket r b).eth = d.eth := rfl
@[simp] theorem Dev.ser_setBucket (d : Dev) (r : Nat) (b : Bucket) : (d.setBucket r b).ser = d.ser := rfl

/-! ### setEntry -/

@[simp] theorem Dev.now_setEntry (d : Dev) (i : Nat) (e : Option EtEntry) : (d.setEntry i e).now = d.now := rfl
@[simp] theorem Dev.regs_setEntry (d : Dev) (i : Nat) (e : Option EtEntry) : (d.setEntry i e).regs = d.regs := rfl
@[simp] theorem Dev.flags_setEntry (d : Dev) (i : Nat) (e : Option EtEntry) : (d.setEntry i e).flags = d.flags := rfl
@[simp] theorem Dev.mem_setEntry (d : Dev) (i : Nat) (e : Option EtEntry) : (d.setEntry i e).mem = d.mem := rfl
@[simp] theorem Dev.hmem_setEntry (d : Dev) (i : Nat) (e : Option EtEntry) : (d.setEntry i e).hmem = d.hmem := rfl
@[simp] theorem Dev.ev_setEntry (d : Dev) (i : Nat) (e : Option EtEntry) : (d.setEntry i e).ev = d.ev := rfl
@[simp] theorem Dev.conEvents_setEntry (d : Dev) (i : Nat) (e : Option EtEntry) : (d.setEntry i e).conEvents = d.conEvents := rfl
@[simp] theorem Dev.free_setEntry (d : Dev) (i : Nat) (e : Option EtEntry) : (d.setEntry i e).free = d.free := rfl
@[simp] theorem Dev.isles_setEntry (d : Dev) (i : Nat) (e : Option EtEntry) : (d.setEntry i e).isles = d.isles := rfl
@[simp] theorem Dev.lane_setEntry (d : Dev) (i : Nat) (e : Option EtEntry) : (d.setEntry i e).lane = d.lane := rfl
@[simp] theorem Dev.ahd_setEntry (d : Dev) (i : Nat) (e : Option EtEntry) : (d.setEntry i e).ahd = d.ahd := rfl
@[simp] theorem Dev.schedIn_setEntry (d : Dev) (i : Nat) (e : Option EtEntry) : (d.setEntry i e).schedIn = d.schedIn := rfl
@[simp] theorem Dev.schedWait_setEntry (d : Dev) (i : Nat) (e : Option EtEntry) : (d.setEntry i e).schedWait = d.schedWait := rfl
@[simp] theorem Dev.integ_setEntry (d : Dev) (i : Nat) (e : Option EtEntry) : (d.setEntry i e).integ = d.integ := rfl
@[simp] theorem Dev.preds_setEntry (d : Dev) (i : Nat) (e : Option EtEntry) : (d.setEntry i e).preds = d.preds := rfl
@[simp] theorem Dev.hb_setEntry (d : Dev) (i : Nat) (e : Option EtEntry) : (d.setEntry i e).hb = d.hb := rfl
@[simp] theorem Dev.rdData_setEntry (d : Dev) (i : Nat) (e : Option EtEntry) : (d.setEntry i e).rdData = d.rdData := rfl
@[simp] theorem Dev.cores_setEntry (d : Dev) (i : Nat) (e : Option EtEntry) : (d.setEntry i e).cores = d.cores := rfl
@[simp] theorem Dev.mmu_setEntry (d : Dev) (i : Nat) (e : Option EtEntry) : (d.setEntry i e).mmu = d.mmu := rfl
@[simp] theorem Dev.sched_setEntry (d : Dev) (i : Nat) (e : Option EtEntry) : (d.setEntry i e).sched = d.sched := rfl
@[simp] theorem Dev.net_setEntry (d : Dev) (i : Nat) (e : Option EtEntry) : (d.setEntry i e).net = d.net := rfl
@[simp] theorem Dev.dram_setEntry (d : Dev) (i : Nat) (e : Option EtEntry) : (d.setEntry i e).dram = d.dram := rfl
@[simp] theorem Dev.cfg_setEntry (d : Dev) (i : Nat) (e : Option EtEntry) : (d.setEntry i e).cfg = d.cfg := rfl
@[simp] theorem Dev.power_setEntry (d : Dev) (i : Nat) (e : Option EtEntry) : (d.setEntry i e).power = d.power := rfl
@[simp] theorem Dev.mail_setEntry (d : Dev) (i : Nat) (e : Option EtEntry) : (d.setEntry i e).mail = d.mail := rfl
@[simp] theorem Dev.eth_setEntry (d : Dev) (i : Nat) (e : Option EtEntry) : (d.setEntry i e).eth = d.eth := rfl
@[simp] theorem Dev.ser_setEntry (d : Dev) (i : Nat) (e : Option EtEntry) : (d.setEntry i e).ser = d.ser := rfl

/-! ### setList -/

@[simp] theorem Dev.now_setList (d : Dev) (l : Nat) (xs : List Nat) : (d.setList l xs).now = d.now := rfl
@[simp] theorem Dev.regs_setList (d : Dev) (l : Nat) (xs : List Nat) : (d.setList l xs).regs = d.regs := rfl
@[simp] theorem Dev.flags_setList (d : Dev) (l : Nat) (xs : List Nat) : (d.setList l xs).flags = d.flags := rfl
@[simp] theorem Dev.mem_setList (d : Dev) (l : Nat) (xs : List Nat) : (d.setList l xs).mem = d.mem := rfl
@[simp] theorem Dev.hmem_setList (d : Dev) (l : Nat) (xs : List Nat) : (d.setList l xs).hmem = d.hmem := rfl
@[simp] theorem Dev.ev_setList (d : Dev) (l : Nat) (xs : List Nat) : (d.setList l xs).ev = d.ev := rfl
@[simp] theorem Dev.conEvents_setList (d : Dev) (l : Nat) (xs : List Nat) : (d.setList l xs).conEvents = d.conEvents := rfl
@[simp] theorem Dev.free_setList (d : Dev) (l : Nat) (xs : List Nat) : (d.setList l xs).free = d.free := rfl
@[simp] theorem Dev.isles_setList (d : Dev) (l : Nat) (xs : List Nat) : (d.setList l xs).isles = d.isles := rfl
@[simp] theorem Dev.lane_setList (d : Dev) (l : Nat) (xs : List Nat) : (d.setList l xs).lane = d.lane := rfl
@[simp] theorem Dev.ahd_setList (d : Dev) (l : Nat) (xs : List Nat) : (d.setList l xs).ahd = d.ahd := rfl
@[simp] theorem Dev.schedIn_setList (d : Dev) (l : Nat) (xs : List Nat) : (d.setList l xs).schedIn = d.schedIn := rfl
@[simp] theorem Dev.schedWait_setList (d : Dev) (l : Nat) (xs : List Nat) : (d.setList l xs).schedWait = d.schedWait := rfl
@[simp] theorem Dev.integ_setList (d : Dev) (l : Nat) (xs : List Nat) : (d.setList l xs).integ = d.integ := rfl
@[simp] theorem Dev.preds_setList (d : Dev) (l : Nat) (xs : List Nat) : (d.setList l xs).preds = d.preds := rfl
@[simp] theorem Dev.hb_setList (d : Dev) (l : Nat) (xs : List Nat) : (d.setList l xs).hb = d.hb := rfl
@[simp] theorem Dev.rdData_setList (d : Dev) (l : Nat) (xs : List Nat) : (d.setList l xs).rdData = d.rdData := rfl
@[simp] theorem Dev.cores_setList (d : Dev) (l : Nat) (xs : List Nat) : (d.setList l xs).cores = d.cores := rfl
@[simp] theorem Dev.mmu_setList (d : Dev) (l : Nat) (xs : List Nat) : (d.setList l xs).mmu = d.mmu := rfl
@[simp] theorem Dev.sched_setList (d : Dev) (l : Nat) (xs : List Nat) : (d.setList l xs).sched = d.sched := rfl
@[simp] theorem Dev.net_setList (d : Dev) (l : Nat) (xs : List Nat) : (d.setList l xs).net = d.net := rfl
@[simp] theorem Dev.dram_setList (d : Dev) (l : Nat) (xs : List Nat) : (d.setList l xs).dram = d.dram := rfl
@[simp] theorem Dev.cfg_setList (d : Dev) (l : Nat) (xs : List Nat) : (d.setList l xs).cfg = d.cfg := rfl
@[simp] theorem Dev.power_setList (d : Dev) (l : Nat) (xs : List Nat) : (d.setList l xs).power = d.power := rfl
@[simp] theorem Dev.mail_setList (d : Dev) (l : Nat) (xs : List Nat) : (d.setList l xs).mail = d.mail := rfl
@[simp] theorem Dev.eth_setList (d : Dev) (l : Nat) (xs : List Nat) : (d.setList l xs).eth = d.eth := rfl
@[simp] theorem Dev.ser_setList (d : Dev) (l : Nat) (xs : List Nat) : (d.setList l xs).ser = d.ser := rfl

/-! ### setMerged -/

@[simp] theorem Dev.now_setMerged (d : Dev) (b : Nat) (l : List MergeEnt) : (d.setMerged b l).now = d.now := rfl
@[simp] theorem Dev.regs_setMerged (d : Dev) (b : Nat) (l : List MergeEnt) : (d.setMerged b l).regs = d.regs := rfl
@[simp] theorem Dev.flags_setMerged (d : Dev) (b : Nat) (l : List MergeEnt) : (d.setMerged b l).flags = d.flags := rfl
@[simp] theorem Dev.mem_setMerged (d : Dev) (b : Nat) (l : List MergeEnt) : (d.setMerged b l).mem = d.mem := rfl
@[simp] theorem Dev.hmem_setMerged (d : Dev) (b : Nat) (l : List MergeEnt) : (d.setMerged b l).hmem = d.hmem := rfl
@[simp] theorem Dev.ang_setMerged (d : Dev) (b : Nat) (l : List MergeEnt) : (d.setMerged b l).ang = d.ang := rfl
@[simp] theorem Dev.ev_setMerged (d : Dev) (b : Nat) (l : List MergeEnt) : (d.setMerged b l).ev = d.ev := rfl
@[simp] theorem Dev.conEvents_setMerged (d : Dev) (b : Nat) (l : List MergeEnt) : (d.setMerged b l).conEvents = d.conEvents := rfl
@[simp] theorem Dev.free_setMerged (d : Dev) (b : Nat) (l : List MergeEnt) : (d.setMerged b l).free = d.free := rfl
@[simp] theorem Dev.isles_setMerged (d : Dev) (b : Nat) (l : List MergeEnt) : (d.setMerged b l).isles = d.isles := rfl
@[simp] theorem Dev.lane_setMerged (d : Dev) (b : Nat) (l : List MergeEnt) : (d.setMerged b l).lane = d.lane := rfl
@[simp] theorem Dev.ahd_setMerged (d : Dev) (b : Nat) (l : List MergeEnt) : (d.setMerged b l).ahd = d.ahd := rfl
@[simp] theorem Dev.schedIn_setMerged (d : Dev) (b : Nat) (l : List MergeEnt) : (d.setMerged b l).schedIn = d.schedIn := rfl
@[simp] theorem Dev.schedWait_setMerged (d : Dev) (b : Nat) (l : List MergeEnt) : (d.setMerged b l).schedWait = d.schedWait := rfl
@[simp] theorem Dev.preds_setMerged (d : Dev) (b : Nat) (l : List MergeEnt) : (d.setMerged b l).preds = d.preds := rfl
@[simp] theorem Dev.hb_setMerged (d : Dev) (b : Nat) (l : List MergeEnt) : (d.setMerged b l).hb = d.hb := rfl
@[simp] theorem Dev.rdData_setMerged (d : Dev) (b : Nat) (l : List MergeEnt) : (d.setMerged b l).rdData = d.rdData := rfl
@[simp] theorem Dev.cores_setMerged (d : Dev) (b : Nat) (l : List MergeEnt) : (d.setMerged b l).cores = d.cores := rfl
@[simp] theorem Dev.mmu_setMerged (d : Dev) (b : Nat) (l : List MergeEnt) : (d.setMerged b l).mmu = d.mmu := rfl
@[simp] theorem Dev.sched_setMerged (d : Dev) (b : Nat) (l : List MergeEnt) : (d.setMerged b l).sched = d.sched := rfl
@[simp] theorem Dev.net_setMerged (d : Dev) (b : Nat) (l : List MergeEnt) : (d.setMerged b l).net = d.net := rfl
@[simp] theorem Dev.dram_setMerged (d : Dev) (b : Nat) (l : List MergeEnt) : (d.setMerged b l).dram = d.dram := rfl
@[simp] theorem Dev.cfg_setMerged (d : Dev) (b : Nat) (l : List MergeEnt) : (d.setMerged b l).cfg = d.cfg := rfl
@[simp] theorem Dev.power_setMerged (d : Dev) (b : Nat) (l : List MergeEnt) : (d.setMerged b l).power = d.power := rfl
@[simp] theorem Dev.mail_setMerged (d : Dev) (b : Nat) (l : List MergeEnt) : (d.setMerged b l).mail = d.mail := rfl
@[simp] theorem Dev.eth_setMerged (d : Dev) (b : Nat) (l : List MergeEnt) : (d.setMerged b l).eth = d.eth := rfl
@[simp] theorem Dev.ser_setMerged (d : Dev) (b : Nat) (l : List MergeEnt) : (d.setMerged b l).ser = d.ser := rfl

/-! ### setTask -/

@[simp] theorem Dev.now_setTask (d : Dev) (t : Nat) (x : Task) : (d.setTask t x).now = d.now := rfl
@[simp] theorem Dev.flags_setTask (d : Dev) (t : Nat) (x : Task) : (d.setTask t x).flags = d.flags := rfl
@[simp] theorem Dev.mem_setTask (d : Dev) (t : Nat) (x : Task) : (d.setTask t x).mem = d.mem := rfl
@[simp] theorem Dev.hmem_setTask (d : Dev) (t : Nat) (x : Task) : (d.setTask t x).hmem = d.hmem := rfl
@[simp] theorem Dev.ang_setTask (d : Dev) (t : Nat) (x : Task) : (d.setTask t x).ang = d.ang := rfl
@[simp] theorem Dev.ev_setTask (d : Dev) (t : Nat) (x : Task) : (d.setTask t x).ev = d.ev := rfl
@[simp] theorem Dev.conEvents_setTask (d : Dev) (t : Nat) (x : Task) : (d.setTask t x).conEvents = d.conEvents := rfl
@[simp] theorem Dev.free_setTask (d : Dev) (t : Nat) (x : Task) : (d.setTask t x).free = d.free := rfl
@[simp] theorem Dev.isles_setTask (d : Dev) (t : Nat) (x : Task) : (d.setTask t x).isles = d.isles := rfl
@[simp] theorem Dev.lane_setTask (d : Dev) (t : Nat) (x : Task) : (d.setTask t x).lane = d.lane := rfl
@[simp] theorem Dev.schedIn_setTask (d : Dev) (t : Nat) (x : Task) : (d.setTask t x).schedIn = d.schedIn := rfl
@[simp] theorem Dev.schedWait_setTask (d : Dev) (t : Nat) (x : Task) : (d.setTask t x).schedWait = d.schedWait := rfl
@[simp] theorem Dev.integ_setTask (d : Dev) (t : Nat) (x : Task) : (d.setTask t x).integ = d.integ := rfl
@[simp] theorem Dev.preds_setTask (d : Dev) (t : Nat) (x : Task) : (d.setTask t x).preds = d.preds := rfl
@[simp] theorem Dev.hb_setTask (d : Dev) (t : Nat) (x : Task) : (d.setTask t x).hb = d.hb := rfl
@[simp] theorem Dev.rdData_setTask (d : Dev) (t : Nat) (x : Task) : (d.setTask t x).rdData = d.rdData := rfl
@[simp] theorem Dev.cores_setTask (d : Dev) (t : Nat) (x : Task) : (d.setTask t x).cores = d.cores := rfl
@[simp] theorem Dev.mmu_setTask (d : Dev) (t : Nat) (x : Task) : (d.setTask t x).mmu = d.mmu := rfl
@[simp] theorem Dev.sched_setTask (d : Dev) (t : Nat) (x : Task) : (d.setTask t x).sched = d.sched := rfl
@[simp] theorem Dev.net_setTask (d : Dev) (t : Nat) (x : Task) : (d.setTask t x).net = d.net := rfl
@[simp] theorem Dev.dram_setTask (d : Dev) (t : Nat) (x : Task) : (d.setTask t x).dram = d.dram := rfl
@[simp] theorem Dev.cfg_setTask (d : Dev) (t : Nat) (x : Task) : (d.setTask t x).cfg = d.cfg := rfl
@[simp] theorem Dev.power_setTask (d : Dev) (t : Nat) (x : Task) : (d.setTask t x).power = d.power := rfl
@[simp] theorem Dev.mail_setTask (d : Dev) (t : Nat) (x : Task) : (d.setTask t x).mail = d.mail := rfl
@[simp] theorem Dev.eth_setTask (d : Dev) (t : Nat) (x : Task) : (d.setTask t x).eth = d.eth := rfl
@[simp] theorem Dev.ser_setTask (d : Dev) (t : Nat) (x : Task) : (d.setTask t x).ser = d.ser := rfl

/-! ### setSnap -/

@[simp] theorem Dev.now_setSnap (d : Dev) (s : Nat) (x : Snap) : (d.setSnap s x).now = d.now := rfl
@[simp] theorem Dev.regs_setSnap (d : Dev) (s : Nat) (x : Snap) : (d.setSnap s x).regs = d.regs := rfl
@[simp] theorem Dev.flags_setSnap (d : Dev) (s : Nat) (x : Snap) : (d.setSnap s x).flags = d.flags := rfl
@[simp] theorem Dev.mem_setSnap (d : Dev) (s : Nat) (x : Snap) : (d.setSnap s x).mem = d.mem := rfl
@[simp] theorem Dev.hmem_setSnap (d : Dev) (s : Nat) (x : Snap) : (d.setSnap s x).hmem = d.hmem := rfl
@[simp] theorem Dev.ang_setSnap (d : Dev) (s : Nat) (x : Snap) : (d.setSnap s x).ang = d.ang := rfl
@[simp] theorem Dev.ev_setSnap (d : Dev) (s : Nat) (x : Snap) : (d.setSnap s x).ev = d.ev := rfl
@[simp] theorem Dev.conEvents_setSnap (d : Dev) (s : Nat) (x : Snap) : (d.setSnap s x).conEvents = d.conEvents := rfl
@[simp] theorem Dev.free_setSnap (d : Dev) (s : Nat) (x : Snap) : (d.setSnap s x).free = d.free := rfl
@[simp] theorem Dev.isles_setSnap (d : Dev) (s : Nat) (x : Snap) : (d.setSnap s x).isles = d.isles := rfl
@[simp] theorem Dev.lane_setSnap (d : Dev) (s : Nat) (x : Snap) : (d.setSnap s x).lane = d.lane := rfl
@[simp] theorem Dev.schedIn_setSnap (d : Dev) (s : Nat) (x : Snap) : (d.setSnap s x).schedIn = d.schedIn := rfl
@[simp] theorem Dev.schedWait_setSnap (d : Dev) (s : Nat) (x : Snap) : (d.setSnap s x).schedWait = d.schedWait := rfl
@[simp] theorem Dev.integ_setSnap (d : Dev) (s : Nat) (x : Snap) : (d.setSnap s x).integ = d.integ := rfl
@[simp] theorem Dev.preds_setSnap (d : Dev) (s : Nat) (x : Snap) : (d.setSnap s x).preds = d.preds := rfl
@[simp] theorem Dev.hb_setSnap (d : Dev) (s : Nat) (x : Snap) : (d.setSnap s x).hb = d.hb := rfl
@[simp] theorem Dev.rdData_setSnap (d : Dev) (s : Nat) (x : Snap) : (d.setSnap s x).rdData = d.rdData := rfl
@[simp] theorem Dev.cores_setSnap (d : Dev) (s : Nat) (x : Snap) : (d.setSnap s x).cores = d.cores := rfl
@[simp] theorem Dev.mmu_setSnap (d : Dev) (s : Nat) (x : Snap) : (d.setSnap s x).mmu = d.mmu := rfl
@[simp] theorem Dev.sched_setSnap (d : Dev) (s : Nat) (x : Snap) : (d.setSnap s x).sched = d.sched := rfl
@[simp] theorem Dev.net_setSnap (d : Dev) (s : Nat) (x : Snap) : (d.setSnap s x).net = d.net := rfl
@[simp] theorem Dev.dram_setSnap (d : Dev) (s : Nat) (x : Snap) : (d.setSnap s x).dram = d.dram := rfl
@[simp] theorem Dev.cfg_setSnap (d : Dev) (s : Nat) (x : Snap) : (d.setSnap s x).cfg = d.cfg := rfl
@[simp] theorem Dev.power_setSnap (d : Dev) (s : Nat) (x : Snap) : (d.setSnap s x).power = d.power := rfl
@[simp] theorem Dev.mail_setSnap (d : Dev) (s : Nat) (x : Snap) : (d.setSnap s x).mail = d.mail := rfl
@[simp] theorem Dev.eth_setSnap (d : Dev) (s : Nat) (x : Snap) : (d.setSnap s x).eth = d.eth := rfl
@[simp] theorem Dev.ser_setSnap (d : Dev) (s : Nat) (x : Snap) : (d.setSnap s x).ser = d.ser := rfl

/-! ### setSdIn -/

@[simp] theorem Dev.now_setSdIn (d : Dev) (i : Nat) (x : SdIn) : (d.setSdIn i x).now = d.now := rfl
@[simp] theorem Dev.regs_setSdIn (d : Dev) (i : Nat) (x : SdIn) : (d.setSdIn i x).regs = d.regs := rfl
@[simp] theorem Dev.flags_setSdIn (d : Dev) (i : Nat) (x : SdIn) : (d.setSdIn i x).flags = d.flags := rfl
@[simp] theorem Dev.mem_setSdIn (d : Dev) (i : Nat) (x : SdIn) : (d.setSdIn i x).mem = d.mem := rfl
@[simp] theorem Dev.hmem_setSdIn (d : Dev) (i : Nat) (x : SdIn) : (d.setSdIn i x).hmem = d.hmem := rfl
@[simp] theorem Dev.ang_setSdIn (d : Dev) (i : Nat) (x : SdIn) : (d.setSdIn i x).ang = d.ang := rfl
@[simp] theorem Dev.ev_setSdIn (d : Dev) (i : Nat) (x : SdIn) : (d.setSdIn i x).ev = d.ev := rfl
@[simp] theorem Dev.conEvents_setSdIn (d : Dev) (i : Nat) (x : SdIn) : (d.setSdIn i x).conEvents = d.conEvents := rfl
@[simp] theorem Dev.free_setSdIn (d : Dev) (i : Nat) (x : SdIn) : (d.setSdIn i x).free = d.free := rfl
@[simp] theorem Dev.isles_setSdIn (d : Dev) (i : Nat) (x : SdIn) : (d.setSdIn i x).isles = d.isles := rfl
@[simp] theorem Dev.lane_setSdIn (d : Dev) (i : Nat) (x : SdIn) : (d.setSdIn i x).lane = d.lane := rfl
@[simp] theorem Dev.ahd_setSdIn (d : Dev) (i : Nat) (x : SdIn) : (d.setSdIn i x).ahd = d.ahd := rfl
@[simp] theorem Dev.schedIn_setSdIn (d : Dev) (i : Nat) (x : SdIn) : (d.setSdIn i x).schedIn = d.schedIn := rfl
@[simp] theorem Dev.schedWait_setSdIn (d : Dev) (i : Nat) (x : SdIn) : (d.setSdIn i x).schedWait = d.schedWait := rfl
@[simp] theorem Dev.integ_setSdIn (d : Dev) (i : Nat) (x : SdIn) : (d.setSdIn i x).integ = d.integ := rfl
@[simp] theorem Dev.preds_setSdIn (d : Dev) (i : Nat) (x : SdIn) : (d.setSdIn i x).preds = d.preds := rfl
@[simp] theorem Dev.rdData_setSdIn (d : Dev) (i : Nat) (x : SdIn) : (d.setSdIn i x).rdData = d.rdData := rfl
@[simp] theorem Dev.cores_setSdIn (d : Dev) (i : Nat) (x : SdIn) : (d.setSdIn i x).cores = d.cores := rfl
@[simp] theorem Dev.mmu_setSdIn (d : Dev) (i : Nat) (x : SdIn) : (d.setSdIn i x).mmu = d.mmu := rfl
@[simp] theorem Dev.sched_setSdIn (d : Dev) (i : Nat) (x : SdIn) : (d.setSdIn i x).sched = d.sched := rfl
@[simp] theorem Dev.net_setSdIn (d : Dev) (i : Nat) (x : SdIn) : (d.setSdIn i x).net = d.net := rfl
@[simp] theorem Dev.dram_setSdIn (d : Dev) (i : Nat) (x : SdIn) : (d.setSdIn i x).dram = d.dram := rfl
@[simp] theorem Dev.cfg_setSdIn (d : Dev) (i : Nat) (x : SdIn) : (d.setSdIn i x).cfg = d.cfg := rfl
@[simp] theorem Dev.power_setSdIn (d : Dev) (i : Nat) (x : SdIn) : (d.setSdIn i x).power = d.power := rfl
@[simp] theorem Dev.mail_setSdIn (d : Dev) (i : Nat) (x : SdIn) : (d.setSdIn i x).mail = d.mail := rfl
@[simp] theorem Dev.eth_setSdIn (d : Dev) (i : Nat) (x : SdIn) : (d.setSdIn i x).eth = d.eth := rfl
@[simp] theorem Dev.ser_setSdIn (d : Dev) (i : Nat) (x : SdIn) : (d.setSdIn i x).ser = d.ser := rfl

/-! ### setEncIf -/

@[simp] theorem Dev.now_setEncIf (d : Dev) (k : Nat) (x : EncIf) : (d.setEncIf k x).now = d.now := rfl
@[simp] theorem Dev.regs_setEncIf (d : Dev) (k : Nat) (x : EncIf) : (d.setEncIf k x).regs = d.regs := rfl
@[simp] theorem Dev.flags_setEncIf (d : Dev) (k : Nat) (x : EncIf) : (d.setEncIf k x).flags = d.flags := rfl
@[simp] theorem Dev.mem_setEncIf (d : Dev) (k : Nat) (x : EncIf) : (d.setEncIf k x).mem = d.mem := rfl
@[simp] theorem Dev.hmem_setEncIf (d : Dev) (k : Nat) (x : EncIf) : (d.setEncIf k x).hmem = d.hmem := rfl
@[simp] theorem Dev.ang_setEncIf (d : Dev) (k : Nat) (x : EncIf) : (d.setEncIf k x).ang = d.ang := rfl
@[simp] theorem Dev.ev_setEncIf (d : Dev) (k : Nat) (x : EncIf) : (d.setEncIf k x).ev = d.ev := rfl
@[simp] theorem Dev.conEvents_setEncIf (d : Dev) (k : Nat) (x : EncIf) : (d.setEncIf k x).conEvents = d.conEvents := rfl
@[simp] theorem Dev.free_setEncIf (d : Dev) (k : Nat) (x : EncIf) : (d.setEncIf k x).free = d.free := rfl
@[simp] theorem Dev.isles_setEncIf (d : Dev) (k : Nat) (x : EncIf) : (d.setEncIf k x).isles = d.isles := rfl
@[simp] theorem Dev.lane_setEncIf (d : Dev) (k : Nat) (x : EncIf) : (d.setEncIf k x).lane = d.lane := rfl
@[simp] theorem Dev.ahd_setEncIf (d : Dev) (k : Nat) (x : EncIf) : (d.setEncIf k x).ahd = d.ahd := rfl
@[simp] theorem Dev.schedIn_setEncIf (d : Dev) (k : Nat) (x : EncIf) : (d.setEncIf k x).schedIn = d.schedIn := rfl
@[simp] theorem Dev.schedWait_setEncIf (d : Dev) (k : Nat) (x : EncIf) : (d.setEncIf k x).schedWait = d.schedWait := rfl
@[simp] theorem Dev.integ_setEncIf (d : Dev) (k : Nat) (x : EncIf) : (d.setEncIf k x).integ = d.integ := rfl
@[simp] theorem Dev.preds_setEncIf (d : Dev) (k : Nat) (x : EncIf) : (d.setEncIf k x).preds = d.preds := rfl
@[simp] theorem Dev.rdData_setEncIf (d : Dev) (k : Nat) (x : EncIf) : (d.setEncIf k x).rdData = d.rdData := rfl
@[simp] theorem Dev.cores_setEncIf (d : Dev) (k : Nat) (x : EncIf) : (d.setEncIf k x).cores = d.cores := rfl
@[simp] theorem Dev.mmu_setEncIf (d : Dev) (k : Nat) (x : EncIf) : (d.setEncIf k x).mmu = d.mmu := rfl
@[simp] theorem Dev.sched_setEncIf (d : Dev) (k : Nat) (x : EncIf) : (d.setEncIf k x).sched = d.sched := rfl
@[simp] theorem Dev.net_setEncIf (d : Dev) (k : Nat) (x : EncIf) : (d.setEncIf k x).net = d.net := rfl
@[simp] theorem Dev.dram_setEncIf (d : Dev) (k : Nat) (x : EncIf) : (d.setEncIf k x).dram = d.dram := rfl
@[simp] theorem Dev.cfg_setEncIf (d : Dev) (k : Nat) (x : EncIf) : (d.setEncIf k x).cfg = d.cfg := rfl
@[simp] theorem Dev.power_setEncIf (d : Dev) (k : Nat) (x : EncIf) : (d.setEncIf k x).power = d.power := rfl
@[simp] theorem Dev.mail_setEncIf (d : Dev) (k : Nat) (x : EncIf) : (d.setEncIf k x).mail = d.mail := rfl
@[simp] theorem Dev.eth_setEncIf (d : Dev) (k : Nat) (x : EncIf) : (d.setEncIf k x).eth = d.eth := rfl
@[simp] theorem Dev.ser_setEncIf (d : Dev) (k : Nat) (x : EncIf) : (d.setEncIf k x).ser = d.ser := rfl

/-! ### setSsiIf -/

@[simp] theorem Dev.now_setSsiIf (d : Dev) (k : Nat) (x : SsiIf) : (d.setSsiIf k x).now = d.now := rfl
@[simp] theorem Dev.regs_setSsiIf (d : Dev) (k : Nat) (x : SsiIf) : (d.setSsiIf k x).regs = d.regs := rfl
@[simp] theorem Dev.flags_setSsiIf (d : Dev) (k : Nat) (x : SsiIf) : (d.setSsiIf k x).flags = d.flags := rfl
@[simp] theorem Dev.mem_setSsiIf (d : Dev) (k : Nat) (x : SsiIf) : (d.setSsiIf k x).mem = d.mem := rfl
@[simp] theorem Dev.hmem_setSsiIf (d : Dev) (k : Nat) (x : SsiIf) : (d.setSsiIf k x).hmem = d.hmem := rfl
@[simp] theorem Dev.ang_setSsiIf (d : Dev) (k : Nat) (x : SsiIf) : (d.setSsiIf k x).ang = d.ang := rfl
@[simp] theorem Dev.ev_setSsiIf (d : Dev) (k : Nat) (x : SsiIf) : (d.setSsiIf k x).ev = d.ev := rfl
@[simp] theorem Dev.conEvents_setSsiIf (d : Dev) (k : Nat) (x : SsiIf) : (d.setSsiIf k x).conEvents = d.conEvents := rfl
@[simp] theorem Dev.free_setSsiIf (d : Dev) (k : Nat) (x : SsiIf) : (d.setSsiIf k x).free = d.free := rfl
@[simp] theorem Dev.isles_setSsiIf (d : Dev) (k : Nat) (x : SsiIf) : (d.setSsiIf k x).isles = d.isles := rfl
@[simp] theorem Dev.lane_setSsiIf (d : Dev) (k : Nat) (x : SsiIf) : (d.setSsiIf k x).lane = d.lane := rfl
@[simp] theorem Dev.ahd_setSsiIf (d : Dev) (k : Nat) (x : SsiIf) : (d.setSsiIf k x).ahd = d.ahd := rfl
@[simp] theorem Dev.schedIn_setSsiIf (d : Dev) (k : Nat) (x : SsiIf) : (d.setSsiIf k x).schedIn = d.schedIn := rfl
@[simp] theorem Dev.schedWait_setSsiIf (d : Dev) (k : Nat) (x : SsiIf) : (d.setSsiIf k x).schedWait = d.schedWait := rfl
@[simp] theorem Dev.integ_setSsiIf (d : Dev) (k : Nat) (x : SsiIf) : (d.setSsiIf k x).integ = d.integ := rfl
@[simp] theorem Dev.preds_setSsiIf (d : Dev) (k : Nat) (x : SsiIf) : (d.setSsiIf k x).preds = d.preds := rfl
@[simp] theorem Dev.rdData_setSsiIf (d : Dev) (k : Nat) (x : SsiIf) : (d.setSsiIf k x).rdData = d.rdData := rfl
@[simp] theorem Dev.cores_setSsiIf (d : Dev) (k : Nat) (x : SsiIf) : (d.setSsiIf k x).cores = d.cores := rfl
@[simp] theorem Dev.mmu_setSsiIf (d : Dev) (k : Nat) (x : SsiIf) : (d.setSsiIf k x).mmu = d.mmu := rfl
@[simp] theorem Dev.sched_setSsiIf (d : Dev) (k : Nat) (x : SsiIf) : (d.setSsiIf k x).sched = d.sched := rfl
@[simp] theorem Dev.net_setSsiIf (d : Dev) (k : Nat) (x : SsiIf) : (d.setSsiIf k x).net = d.net := rfl
@[simp] theorem Dev.dram_setSsiIf (d : Dev) (k : Nat) (x : SsiIf) : (d.setSsiIf k x).dram = d.dram := rfl
@[simp] theorem Dev.cfg_setSsiIf (d : Dev) (k : Nat) (x : SsiIf) : (d.setSsiIf k x).cfg = d.cfg := rfl
@[simp] theorem Dev.power_setSsiIf (d : Dev) (k : Nat) (x : SsiIf) : (d.setSsiIf k x).power = d.power := rfl
@[simp] theorem Dev.mail_setSsiIf (d : Dev) (k : Nat) (x : SsiIf) : (d.setSsiIf k x).mail = d.mail := rfl
@[simp] theorem Dev.eth_setSsiIf (d : Dev) (k : Nat) (x : SsiIf) : (d.setSsiIf k x).eth = d.eth := rfl
@[simp] theorem Dev.ser_setSsiIf (d : Dev) (k : Nat) (x : SsiIf) : (d.setSsiIf k x).ser = d.ser := rfl

/-! ### setPred -/

@[simp] theorem Dev.now_setPred (d : Dev) (p : Nat) (x : Pred) : (d.setPred p x).now = d.now := rfl
@[simp] theorem Dev.flags_setPred (d : Dev) (p : Nat) (x : Pred) : (d.setPred p x).flags = d.flags := rfl
@[simp] theorem Dev.mem_setPred (d : Dev) (p : Nat) (x : Pred) : (d.setPred p x).mem = d.mem := rfl
@[simp] theorem Dev.hmem_setPred (d : Dev) (p : Nat) (x : Pred) : (d.setPred p x).hmem = d.hmem := rfl
@[simp] theorem Dev.ang_setPred (d : Dev) (p : Nat) (x : Pred) : (d.setPred p x).ang = d.ang := rfl
@[simp] theorem Dev.ev_setPred (d : Dev) (p : Nat) (x : Pred) : (d.setPred p x).ev = d.ev := rfl
@[simp] theorem Dev.conEvents_setPred (d : Dev) (p : Nat) (x : Pred) : (d.setPred p x).conEvents = d.conEvents := rfl
@[simp] theorem Dev.free_setPred (d : Dev) (p : Nat) (x : Pred) : (d.setPred p x).free = d.free := rfl
@[simp] theorem Dev.isles_setPred (d : Dev) (p : Nat) (x : Pred) : (d.setPred p x).isles = d.isles := rfl
@[simp] theorem Dev.lane_setPred (d : Dev) (p : Nat) (x : Pred) : (d.setPred p x).lane = d.lane := rfl
@[simp] theorem Dev.ahd_setPred (d : Dev) (p : Nat) (x : Pred) : (d.setPred p x).ahd = d.ahd := rfl
@[simp] theorem Dev.schedIn_setPred (d : Dev) (p : Nat) (x : Pred) : (d.setPred p x).schedIn = d.schedIn := rfl
@[simp] theorem Dev.schedWait_setPred (d : Dev) (p : Nat) (x : Pred) : (d.setPred p x).schedWait = d.schedWait := rfl
@[simp] theorem Dev.integ_setPred (d : Dev) (p : Nat) (x : Pred) : (d.setPred p x).integ = d.integ := rfl
@[simp] theorem Dev.hb_setPred (d : Dev) (p : Nat) (x : Pred) : (d.setPred p x).hb = d.hb := rfl
@[simp] theorem Dev.rdData_setPred (d : Dev) (p : Nat) (x : Pred) : (d.setPred p x).rdData = d.rdData := rfl
@[simp] theorem Dev.cores_setPred (d : Dev) (p : Nat) (x : Pred) : (d.setPred p x).cores = d.cores := rfl
@[simp] theorem Dev.mmu_setPred (d : Dev) (p : Nat) (x : Pred) : (d.setPred p x).mmu = d.mmu := rfl
@[simp] theorem Dev.sched_setPred (d : Dev) (p : Nat) (x : Pred) : (d.setPred p x).sched = d.sched := rfl
@[simp] theorem Dev.net_setPred (d : Dev) (p : Nat) (x : Pred) : (d.setPred p x).net = d.net := rfl
@[simp] theorem Dev.dram_setPred (d : Dev) (p : Nat) (x : Pred) : (d.setPred p x).dram = d.dram := rfl
@[simp] theorem Dev.cfg_setPred (d : Dev) (p : Nat) (x : Pred) : (d.setPred p x).cfg = d.cfg := rfl
@[simp] theorem Dev.power_setPred (d : Dev) (p : Nat) (x : Pred) : (d.setPred p x).power = d.power := rfl
@[simp] theorem Dev.mail_setPred (d : Dev) (p : Nat) (x : Pred) : (d.setPred p x).mail = d.mail := rfl
@[simp] theorem Dev.eth_setPred (d : Dev) (p : Nat) (x : Pred) : (d.setPred p x).eth = d.eth := rfl
@[simp] theorem Dev.ser_setPred (d : Dev) (p : Nat) (x : Pred) : (d.setPred p x).ser = d.ser := rfl

/-! ### setPair -/

@[simp] theorem Dev.now_setPair (d : Dev) (p : Nat) (x : PwmPair) : (d.setPair p x).now = d.now := rfl
@[simp] theorem Dev.flags_setPair (d : Dev) (p : Nat) (x : PwmPair) : (d.setPair p x).flags = d.flags := rfl
@[simp] theorem Dev.mem_setPair (d : Dev) (p : Nat) (x : PwmPair) : (d.setPair p x).mem = d.mem := rfl
@[simp] theorem Dev.hmem_setPair (d : Dev) (p : Nat) (x : PwmPair) : (d.setPair p x).hmem = d.hmem := rfl
@[simp] theorem Dev.ang_setPair (d : Dev) (p : Nat) (x : PwmPair) : (d.setPair p x).ang = d.ang := rfl
@[simp] theorem Dev.ev_setPair (d : Dev) (p : Nat) (x : PwmPair) : (d.setPair p x).ev = d.ev := rfl
@[simp] theorem Dev.conEvents_setPair (d : Dev) (p : Nat) (x : PwmPair) : (d.setPair p x).conEvents = d.conEvents := rfl
@[simp] theorem Dev.free_setPair (d : Dev) (p : Nat) (x : PwmPair) : (d.setPair p x).free = d.free := rfl
@[simp] theorem Dev.isles_setPair (d : Dev) (p : Nat) (x : PwmPair) : (d.setPair p x).isles = d.isles := rfl
@[simp] theorem Dev.lane_setPair (d : Dev) (p : Nat) (x : PwmPair) : (d.setPair p x).lane = d.lane := rfl
@[simp] theorem Dev.ahd_setPair (d : Dev) (p : Nat) (x : PwmPair) : (d.setPair p x).ahd = d.ahd := rfl
@[simp] theorem Dev.schedIn_setPair (d : Dev) (p : Nat) (x : PwmPair) : (d.setPair p x).schedIn = d.schedIn := rfl
@[simp] theorem Dev.schedWait_setPair (d : Dev) (p : Nat) (x : PwmPair) : (d.setPair p x).schedWait = d.schedWait := rfl
@[simp] theorem Dev.integ_setPair (d : Dev) (p : Nat) (x : PwmPair) : (d.setPair p x).integ = d.integ := rfl
@[simp] theorem Dev.preds_setPair (d : Dev) (p : Nat) (x : PwmPair) : (d.setPair p x).preds = d.preds := rfl
@[simp] theorem Dev.rdData_setPair (d : Dev) (p : Nat) (x : PwmPair) : (d.setPair p x).rdData = d.rdData := rfl
@[simp] theorem Dev.cores_setPair (d : Dev) (p : Nat) (x : PwmPair) : (d.setPair p x).cores = d.cores := rfl
@[simp] theorem Dev.mmu_setPair (d : Dev) (p : Nat) (x : PwmPair) : (d.setPair p x).mmu = d.mmu := rfl
@[simp] theorem Dev.sched_setPair (d : Dev) (p : Nat) (x : PwmPair) : (d.setPair p x).sched = d.sched := rfl
@[simp] theorem Dev.net_setPair (d : Dev) (p : Nat) (x : PwmPair) : (d.setPair p x).net = d.net := rfl
@[simp] theorem Dev.dram_setPair (d : Dev) (p : Nat) (x : PwmPair) : (d.setPair p x).dram = d.dram := rfl
@[simp] theorem Dev.cfg_setPair (d : Dev) (p : Nat) (x : PwmPair) : (d.setPair p x).cfg = d.cfg := rfl
@[simp] theorem Dev.power_setPair (d : Dev) (p : Nat) (x : PwmPair) : (d.setPair p x).power = d.power := rfl
@[simp] theorem Dev.mail_setPair (d : Dev) (p : Nat) (x : PwmPair) : (d.setPair p x).mail = d.mail := rfl
@[simp] theorem Dev.eth_setPair (d : Dev) (p : Nat) (x : PwmPair) : (d.setPair p x).eth = d.eth := rfl
@[simp] theorem Dev.ser_setPair (d : Dev) (p : Nat) (x : PwmPair) : (d.setPair p x).ser = d.ser := rfl

/-! ### setGio -/

@[simp] theorem Dev.now_setGio (d : Dev) (g : Nat) (x : GioCell) : (d.setGio g x).now = d.now := rfl
@[simp] theorem Dev.regs_setGio (d : Dev) (g : Nat) (x : GioCell) : (d.setGio g x).regs = d.regs := rfl
@[simp] theorem Dev.flags_setGio (d : Dev) (g : Nat) (x : GioCell) : (d.setGio g x).flags = d.flags := rfl
@[simp] theorem Dev.mem_setGio (d : Dev) (g : Nat) (x : GioCell) : (d.setGio g x).mem = d.mem := rfl
@[simp] theorem Dev.hmem_setGio (d : Dev) (g : Nat) (x : GioCell) : (d.setGio g x).hmem = d.hmem := rfl
@[simp] theorem Dev.ang_setGio (d : Dev) (g : Nat) (x : GioCell) : (d.setGio g x).ang = d.ang := rfl
@[simp] theorem Dev.ev_setGio (d : Dev) (g : Nat) (x : GioCell) : (d.setGio g x).ev = d.ev := rfl
@[simp] theorem Dev.conEvents_setGio (d : Dev) (g : Nat) (x : GioCell) : (d.setGio g x).conEvents = d.conEvents := rfl
@[simp] theorem Dev.free_setGio (d : Dev) (g : Nat) (x : GioCell) : (d.setGio g x).free = d.free := rfl
@[simp] theorem Dev.isles_setGio (d : Dev) (g : Nat) (x : GioCell) : (d.setGio g x).isles = d.isles := rfl
@[simp] theorem Dev.lane_setGio (d : Dev) (g : Nat) (x : GioCell) : (d.setGio g x).lane = d.lane := rfl
@[simp] theorem Dev.ahd_setGio (d : Dev) (g : Nat) (x : GioCell) : (d.setGio g x).ahd = d.ahd := rfl
@[simp] theorem Dev.schedIn_setGio (d : Dev) (g : Nat) (x : GioCell) : (d.setGio g x).schedIn = d.schedIn := rfl
@[simp] theorem Dev.schedWait_setGio (d : Dev) (g : Nat) (x : GioCell) : (d.setGio g x).schedWait = d.schedWait := rfl
@[simp] theorem Dev.integ_setGio (d : Dev) (g : Nat) (x : GioCell) : (d.setGio g x).integ = d.integ := rfl
@[simp] theorem Dev.preds_setGio (d : Dev) (g : Nat) (x : GioCell) : (d.setGio g x).preds = d.preds := rfl
@[simp] theorem Dev.rdData_setGio (d : Dev) (g : Nat) (x : GioCell) : (d.setGio g x).rdData = d.rdData := rfl
@[simp] theorem Dev.cores_setGio (d : Dev) (g : Nat) (x : GioCell) : (d.setGio g x).cores = d.cores := rfl
@[simp] theorem Dev.mmu_setGio (d : Dev) (g : Nat) (x : GioCell) : (d.setGio g x).mmu = d.mmu := rfl
@[simp] theorem Dev.sched_setGio (d : Dev) (g : Nat) (x : GioCell) : (d.setGio g x).sched = d.sched := rfl
@[simp] theorem Dev.net_setGio (d : Dev) (g : Nat) (x : GioCell) : (d.setGio g x).net = d.net := rfl
@[simp] theorem Dev.dram_setGio (d : Dev) (g : Nat) (x : GioCell) : (d.setGio g x).dram = d.dram := rfl
@[simp] theorem Dev.cfg_setGio (d : Dev) (g : Nat) (x : GioCell) : (d.setGio g x).cfg = d.cfg := rfl
@[simp] theorem Dev.power_setGio (d : Dev) (g : Nat) (x : GioCell) : (d.setGio g x).power = d.power := rfl
@[simp] theorem Dev.mail_setGio (d : Dev) (g : Nat) (x : GioCell) : (d.setGio g x).mail = d.mail := rfl
@[simp] theorem Dev.eth_setGio (d : Dev) (g : Nat) (x : GioCell) : (d.setGio g x).eth = d.eth := rfl
@[simp] theorem Dev.ser_setGio (d : Dev) (g : Nat) (x : GioCell) : (d.setGio g x).ser = d.ser := rfl

/-! ### setCore -/

@[simp] theorem Dev.now_setCore (d : Dev) (c : Nat) (x : CoreSt) : (d.setCore c x).now = d.now := rfl
@[simp] theorem Dev.flags_setCore (d : Dev) (c : Nat) (x : CoreSt) : (d.setCore c x).flags = d.flags := rfl
@[simp] theorem Dev.mem_setCore (d : Dev) (c : Nat) (x : CoreSt) : (d.setCore c x).mem = d.mem := rfl
@[simp] theorem Dev.hmem_setCore (d : Dev) (c : Nat) (x : CoreSt) : (d.setCore c x).hmem = d.hmem := rfl
@[simp] theorem Dev.ang_setCore (d : Dev) (c : Nat) (x : CoreSt) : (d.setCore c x).ang = d.ang := rfl
@[simp] theorem Dev.ev_setCore (d : Dev) (c : Nat) (x : CoreSt) : (d.setCore c x).ev = d.ev := rfl
@[simp] theorem Dev.conEvents_setCore (d : Dev) (c : Nat) (x : CoreSt) : (d.setCore c x).conEvents = d.conEvents := rfl
@[simp] theorem Dev.free_setCore (d : Dev) (c : Nat) (x : CoreSt) : (d.setCore c x).free = d.free := rfl
@[simp] theorem Dev.isles_setCore (d : Dev) (c : Nat) (x : CoreSt) : (d.setCore c x).isles = d.isles := rfl
@[simp] theorem Dev.lane_setCore (d : Dev) (c : Nat) (x : CoreSt) : (d.setCore c x).lane = d.lane := rfl
@[simp] theorem Dev.ahd_setCore (d : Dev) (c : Nat) (x : CoreSt) : (d.setCore c x).ahd = d.ahd := rfl
@[simp] theorem Dev.schedIn_setCore (d : Dev) (c : Nat) (x : CoreSt) : (d.setCore c x).schedIn = d.schedIn := rfl
@[simp] theorem Dev.schedWait_setCore (d : Dev) (c : Nat) (x : CoreSt) : (d.setCore c x).schedWait = d.schedWait := rfl
@[simp] theorem Dev.integ_setCore (d : Dev) (c : Nat) (x : CoreSt) : (d.setCore c x).integ = d.integ := rfl
@[simp] theorem Dev.preds_setCore (d : Dev) (c : Nat) (x : CoreSt) : (d.setCore c x).preds = d.preds := rfl
@[simp] theorem Dev.hb_setCore (d : Dev) (c : Nat) (x : CoreSt) : (d.setCore c x).hb = d.hb := rfl
@[simp] theorem Dev.rdData_setCore (d : Dev) (c : Nat) (x : CoreSt) : (d.setCore c x).rdData = d.rdData := rfl
@[simp] theorem Dev.mmu_setCore (d : Dev) (c : Nat) (x : CoreSt) : (d.setCore c x).mmu = d.mmu := rfl
@[simp] theorem Dev.sched_setCore (d : Dev) (c : Nat) (x : CoreSt) : (d.setCore c x).sched = d.sched := rfl
@[simp] theorem Dev.net_setCore (d : Dev) (c : Nat) (x : CoreSt) : (d.setCore c x).net = d.net := rfl
@[simp] theorem Dev.dram_setCore (d : Dev) (c : Nat) (x : CoreSt) : (d.setCore c x).dram = d.dram := rfl
@[simp] theorem Dev.cfg_setCore (d : Dev) (c : Nat) (x : CoreSt) : (d.setCore c x).cfg = d.cfg := rfl
@[simp] theorem Dev.power_setCore (d : Dev) (c : Nat) (x : CoreSt) : (d.setCore c x).power = d.power := rfl
@[simp] theorem Dev.mail_setCore (d : Dev) (c : Nat) (x : CoreSt) : (d.setCore c x).mail = d.mail := rfl
@[simp] theorem Dev.eth_setCore (d : Dev) (c : Nat) (x : CoreSt) : (d.setCore c x).eth = d.eth := rfl
@[simp] theorem Dev.ser_setCore (d : Dev) (c : Nat) (x : CoreSt) : (d.setCore c x).ser = d.ser := rfl

/-! ### setMmu -/

@[simp] theorem Dev.now_setMmu (d : Dev) (m : Mmu) : (d.setMmu m).now = d.now := rfl
@[simp] theorem Dev.regs_setMmu (d : Dev) (m : Mmu) : (d.setMmu m).regs = d.regs := rfl
@[simp] theorem Dev.flags_setMmu (d : Dev) (m : Mmu) : (d.setMmu m).flags = d.flags := rfl
@[simp] theorem Dev.mem_setMmu (d : Dev) (m : Mmu) : (d.setMmu m).mem = d.mem := rfl
@[simp] theorem Dev.hmem_setMmu (d : Dev) (m : Mmu) : (d.setMmu m).hmem = d.hmem := rfl
@[simp] theorem Dev.ang_setMmu (d : Dev) (m : Mmu) : (d.setMmu m).ang = d.ang := rfl
@[simp] theorem Dev.ev_setMmu (d : Dev) (m : Mmu) : (d.setMmu m).ev = d.ev := rfl
@[simp] theorem Dev.conEvents_setMmu (d : Dev) (m : Mmu) : (d.setMmu m).conEvents = d.conEvents := rfl
@[simp] theorem Dev.free_setMmu (d : Dev) (m : Mmu) : (d.setMmu m).free = d.free := rfl
@[simp] theorem Dev.isles_setMmu (d : Dev) (m : Mmu) : (d.setMmu m).isles = d.isles := rfl
@[simp] theorem Dev.lane_setMmu (d : Dev) (m : Mmu) : (d.setMmu m).lane = d.lane := rfl
@[simp] theorem Dev.ahd_setMmu (d : Dev) (m : Mmu) : (d.setMmu m).ahd = d.ahd := rfl
@[simp] theorem Dev.schedIn_setMmu (d : Dev) (m : Mmu) : (d.setMmu m).schedIn = d.schedIn := rfl
@[simp] theorem Dev.schedWait_setMmu (d : Dev) (m : Mmu) : (d.setMmu m).schedWait = d.schedWait := rfl
@[simp] theorem Dev.integ_setMmu (d : Dev) (m : Mmu) : (d.setMmu m).integ = d.integ := rfl
@[simp] theorem Dev.preds_setMmu (d : Dev) (m : Mmu) : (d.setMmu m).preds = d.preds := rfl
@[simp] theorem Dev.hb_setMmu (d : Dev) (m : Mmu) : (d.setMmu m).hb = d.hb := rfl
@[simp] theorem Dev.rdData_setMmu (d : Dev) (m : Mmu) : (d.setMmu m).rdData = d.rdData := rfl
@[simp] theorem Dev.cores_setMmu (d : Dev) (m : Mmu) : (d.setMmu m).cores = d.cores := rfl
@[simp] theorem Dev.sched_setMmu (d : Dev) (m : Mmu) : (d.setMmu m).sched = d.sched := rfl
@[simp] theorem Dev.net_setMmu (d : Dev) (m : Mmu) : (d.setMmu m).net = d.net := rfl
@[simp] theorem Dev.dram_setMmu (d : Dev) (m : Mmu) : (d.setMmu m).dram = d.dram := rfl
@[simp] theorem Dev.cfg_setMmu (d : Dev) (m : Mmu) : (d.setMmu m).cfg = d.cfg := rfl
@[simp] theorem Dev.power_setMmu (d : Dev) (m : Mmu) : (d.setMmu m).power = d.power := rfl
@[simp] theorem Dev.mail_setMmu (d : Dev) (m : Mmu) : (d.setMmu m).mail = d.mail := rfl
@[simp] theorem Dev.eth_setMmu (d : Dev) (m : Mmu) : (d.setMmu m).eth = d.eth := rfl
@[simp] theorem Dev.ser_setMmu (d : Dev) (m : Mmu) : (d.setMmu m).ser = d.ser := rfl

/-! ### setThr -/

@[simp] theorem Dev.now_setThr (d : Dev) (t : Nat) (x : Thread) : (d.setThr t x).now = d.now := rfl
@[simp] theorem Dev.flags_setThr (d : Dev) (t : Nat) (x : Thread) : (d.setThr t x).flags = d.flags := rfl
@[simp] theorem Dev.mem_setThr (d : Dev) (t : Nat) (x : Thread) : (d.setThr t x).mem = d.mem := rfl
@[simp] theorem Dev.hmem_setThr (d : Dev) (t : Nat) (x : Thread) : (d.setThr t x).hmem = d.hmem := rfl
@[simp] theorem Dev.ang_setThr (d : Dev) (t : Nat) (x : Thread) : (d.setThr t x).ang = d.ang := rfl
@[simp] theorem Dev.ev_setThr (d : Dev) (t : Nat) (x : Thread) : (d.setThr t x).ev = d.ev := rfl
@[simp] theorem Dev.conEvents_setThr (d : Dev) (t : Nat) (x : Thread) : (d.setThr t x).conEvents = d.conEvents := rfl
@[simp] theorem Dev.free_setThr (d : Dev) (t : Nat) (x : Thread) : (d.setThr t x).free = d.free := rfl
@[simp] theorem Dev.isles_setThr (d : Dev) (t : Nat) (x : Thread) : (d.setThr t x).isles = d.isles := rfl
@[simp] theorem Dev.lane_setThr (d : Dev) (t : Nat) (x : Thread) : (d.setThr t x).lane = d.lane := rfl
@[simp] theorem Dev.ahd_setThr (d : Dev) (t : Nat) (x : Thread) : (d.setThr t x).ahd = d.ahd := rfl
@[simp] theorem Dev.schedIn_setThr (d : Dev) (t : Nat) (x : Thread) : (d.setThr t x).schedIn = d.schedIn := rfl
@[simp] theorem Dev.schedWait_setThr (d : Dev) (t : Nat) (x : Thread) : (d.setThr t x).schedWait = d.schedWait := rfl
@[simp] theorem Dev.integ_setThr (d : Dev) (t : Nat) (x : Thread) : (d.setThr t x).integ = d.integ := rfl
@[simp] theorem Dev.preds_setThr (d : Dev) (t : Nat) (x : Thread) : (d.setThr t x).preds = d.preds := rfl
@[simp] theorem Dev.hb_setThr (d : Dev) (t : Nat) (x : Thread) : (d.setThr t x).hb = d.hb := rfl
@[simp] theorem Dev.rdData_setThr (d : Dev) (t : Nat) (x : Thread) : (d.setThr t x).rdData = d.rdData := rfl
@[simp] theorem Dev.cores_setThr (d : Dev) (t : Nat) (x : Thread) : (d.setThr t x).cores = d.cores := rfl
@[simp] theorem Dev.mmu_setThr (d : Dev) (t : Nat) (x : Thread) : (d.setThr t x).mmu = d.mmu := rfl
@[simp] theorem Dev.net_setThr (d : Dev) (t : Nat) (x : Thread) : (d.setThr t x).net = d.net := rfl
@[simp] theorem Dev.dram_setThr (d : Dev) (t : Nat) (x : Thread) : (d.setThr t x).dram = d.dram := rfl
@[simp] theorem Dev.cfg_setThr (d : Dev) (t : Nat) (x : Thread) : (d.setThr t x).cfg = d.cfg := rfl
@[simp] theorem Dev.power_setThr (d : Dev) (t : Nat) (x : Thread) : (d.setThr t x).power = d.power := rfl
@[simp] theorem Dev.mail_setThr (d : Dev) (t : Nat) (x : Thread) : (d.setThr t x).mail = d.mail := rfl
@[simp] theorem Dev.eth_setThr (d : Dev) (t : Nat) (x : Thread) : (d.setThr t x).eth = d.eth := rfl
@[simp] theorem Dev.ser_setThr (d : Dev) (t : Nat) (x : Thread) : (d.setThr t x).ser = d.ser := rfl

/-! ### setTok -/

@[simp] theorem Dev.now_setTok (d : Dev) (k : Nat) (x : TokEnt) : (d.setTok k x).now = d.now := rfl
@[simp] theorem Dev.regs_setTok (d : Dev) (k : Nat) (x : TokEnt) : (d.setTok k x).regs = d.regs := rfl
@[simp] theorem Dev.flags_setTok (d : Dev) (k : Nat) (x : TokEnt) : (d.setTok k x).flags = d.flags := rfl
@[simp] theorem Dev.mem_setTok (d : Dev) (k : Nat) (x : TokEnt) : (d.setTok k x).mem = d.mem := rfl
@[simp] theorem Dev.hmem_setTok (d : Dev) (k : Nat) (x : TokEnt) : (d.setTok k x).hmem = d.hmem := rfl
@[simp] theorem Dev.ang_setTok (d : Dev) (k : Nat) (x : TokEnt) : (d.setTok k x).ang = d.ang := rfl
@[simp] theorem Dev.ev_setTok (d : Dev) (k : Nat) (x : TokEnt) : (d.setTok k x).ev = d.ev := rfl
@[simp] theorem Dev.conEvents_setTok (d : Dev) (k : Nat) (x : TokEnt) : (d.setTok k x).conEvents = d.conEvents := rfl
@[simp] theorem Dev.free_setTok (d : Dev) (k : Nat) (x : TokEnt) : (d.setTok k x).free = d.free := rfl
@[simp] theorem Dev.isles_setTok (d : Dev) (k : Nat) (x : TokEnt) : (d.setTok k x).isles = d.isles := rfl
@[simp] theorem Dev.lane_setTok (d : Dev) (k : Nat) (x : TokEnt) : (d.setTok k x).lane = d.lane := rfl
@[simp] theorem Dev.ahd_setTok (d : Dev) (k : Nat) (x : TokEnt) : (d.setTok k x).ahd = d.ahd := rfl
@[simp] theorem Dev.schedIn_setTok (d : Dev) (k : Nat) (x : TokEnt) : (d.setTok k x).schedIn = d.schedIn := rfl
@[simp] theorem Dev.schedWait_setTok (d : Dev) (k : Nat) (x : TokEnt) : (d.setTok k x).schedWait = d.schedWait := rfl
@[simp] theorem Dev.integ_setTok (d : Dev) (k : Nat) (x : TokEnt) : (d.setTok k x).integ = d.integ := rfl
@[simp] theorem Dev.preds_setTok (d : Dev) (k : Nat) (x : TokEnt) : (d.setTok k x).preds = d.preds := rfl
@[simp] theorem Dev.hb_setTok (d : Dev) (k : Nat) (x : TokEnt) : (d.setTok k x).hb = d.hb := rfl
@[simp] theorem Dev.rdData_setTok (d : Dev) (k : Nat) (x : TokEnt) : (d.setTok k x).rdData = d.rdData := rfl
@[simp] theorem Dev.cores_setTok (d : Dev) (k : Nat) (x : TokEnt) : (d.setTok k x).cores = d.cores := rfl
@[simp] theorem Dev.mmu_setTok (d : Dev) (k : Nat) (x : TokEnt) : (d.setTok k x).mmu = d.mmu := rfl
@[simp] theorem Dev.net_setTok (d : Dev) (k : Nat) (x : TokEnt) : (d.setTok k x).net = d.net := rfl
@[simp] theorem Dev.dram_setTok (d : Dev) (k : Nat) (x : TokEnt) : (d.setTok k x).dram = d.dram := rfl
@[simp] theorem Dev.cfg_setTok (d : Dev) (k : Nat) (x : TokEnt) : (d.setTok k x).cfg = d.cfg := rfl
@[simp] theorem Dev.power_setTok (d : Dev) (k : Nat) (x : TokEnt) : (d.setTok k x).power = d.power := rfl
@[simp] theorem Dev.mail_setTok (d : Dev) (k : Nat) (x : TokEnt) : (d.setTok k x).mail = d.mail := rfl
@[simp] theorem Dev.eth_setTok (d : Dev) (k : Nat) (x : TokEnt) : (d.setTok k x).eth = d.eth := rfl
@[simp] theorem Dev.ser_setTok (d : Dev) (k : Nat) (x : TokEnt) : (d.setTok k x).ser = d.ser := rfl

/-! ### setReady -/

@[simp] theorem Dev.now_setReady (d : Dev) (p : Nat) (l : List Nat) : (d.setReady p l).now = d.now := rfl
@[simp] theorem Dev.regs_setReady (d : Dev) (p : Nat) (l : List Nat) : (d.setReady p l).regs = d.regs := rfl
@[simp] theorem Dev.flags_setReady (d : Dev) (p : Nat) (l : List Nat) : (d.setReady p l).flags = d.flags := rfl
@[simp] theorem Dev.mem_setReady (d : Dev) (p : Nat) (l : List Nat) : (d.setReady p l).mem = d.mem := rfl
@[simp] theorem Dev.hmem_setReady (d : Dev) (p : Nat) (l : List Nat) : (d.setReady p l).hmem = d.hmem := rfl
@[simp] theorem Dev.ang_setReady (d : Dev) (p : Nat) (l : List Nat) : (d.setReady p l).ang = d.ang := rfl
@[simp] theorem Dev.ev_setReady (d : Dev) (p : Nat) (l : List Nat) : (d.setReady p l).ev = d.ev := rfl
@[simp] theorem Dev.conEvents_setReady (d : Dev) (p : Nat) (l : List Nat) : (d.setReady p l).conEvents = d.conEvents := rfl
@[simp] theorem Dev.free_setReady (d : Dev) (p : Nat) (l : List Nat) : (d.setReady p l).free = d.free := rfl
@[simp] theorem Dev.isles_setReady (d : Dev) (p : Nat) (l : List Nat) : (d.setReady p l).isles = d.isles := rfl
@[simp] theorem Dev.lane_setReady (d : Dev) (p : Nat) (l : List Nat) : (d.setReady p l).lane = d.lane := rfl
@[simp] theorem Dev.ahd_setReady (d : Dev) (p : Nat) (l : List Nat) : (d.setReady p l).ahd = d.ahd := rfl
@[simp] theorem Dev.schedIn_setReady (d : Dev) (p : Nat) (l : List Nat) : (d.setReady p l).schedIn = d.schedIn := rfl
@[simp] theorem Dev.schedWait_setReady (d : Dev) (p : Nat) (l : List Nat) : (d.setReady p l).schedWait = d.schedWait := rfl
@[simp] theorem Dev.integ_setReady (d : Dev) (p : Nat) (l : List Nat) : (d.setReady p l).integ = d.integ := rfl
@[simp] theorem Dev.preds_setReady (d : Dev) (p : Nat) (l : List Nat) : (d.setReady p l).preds = d.preds := rfl
@[simp] theorem Dev.hb_setReady (d : Dev) (p : Nat) (l : List Nat) : (d.setReady p l).hb = d.hb := rfl
@[simp] theorem Dev.rdData_setReady (d : Dev) (p : Nat) (l : List Nat) : (d.setReady p l).rdData = d.rdData := rfl
@[simp] theorem Dev.cores_setReady (d : Dev) (p : Nat) (l : List Nat) : (d.setReady p l).cores = d.cores := rfl
@[simp] theorem Dev.mmu_setReady (d : Dev) (p : Nat) (l : List Nat) : (d.setReady p l).mmu = d.mmu := rfl
@[simp] theorem Dev.net_setReady (d : Dev) (p : Nat) (l : List Nat) : (d.setReady p l).net = d.net := rfl
@[simp] theorem Dev.dram_setReady (d : Dev) (p : Nat) (l : List Nat) : (d.setReady p l).dram = d.dram := rfl
@[simp] theorem Dev.cfg_setReady (d : Dev) (p : Nat) (l : List Nat) : (d.setReady p l).cfg = d.cfg := rfl
@[simp] theorem Dev.power_setReady (d : Dev) (p : Nat) (l : List Nat) : (d.setReady p l).power = d.power := rfl
@[simp] theorem Dev.mail_setReady (d : Dev) (p : Nat) (l : List Nat) : (d.setReady p l).mail = d.mail := rfl
@[simp] theorem Dev.eth_setReady (d : Dev) (p : Nat) (l : List Nat) : (d.setReady p l).eth = d.eth := rfl
@[simp] theorem Dev.ser_setReady (d : Dev) (p : Nat) (l : List Nat) : (d.setReady p l).ser = d.ser := rfl

/-! ### setPend -/

@[simp] theorem Dev.now_setPend (d : Dev) (c : Nat) (q : Option SwReq) : (d.setPend c q).now = d.now := rfl
@[simp] theorem Dev.regs_setPend (d : Dev) (c : Nat) (q : Option SwReq) : (d.setPend c q).regs = d.regs := rfl
@[simp] theorem Dev.flags_setPend (d : Dev) (c : Nat) (q : Option SwReq) : (d.setPend c q).flags = d.flags := rfl
@[simp] theorem Dev.mem_setPend (d : Dev) (c : Nat) (q : Option SwReq) : (d.setPend c q).mem = d.mem := rfl
@[simp] theorem Dev.hmem_setPend (d : Dev) (c : Nat) (q : Option SwReq) : (d.setPend c q).hmem = d.hmem := rfl
@[simp] theorem Dev.ang_setPend (d : Dev) (c : Nat) (q : Option SwReq) : (d.setPend c q).ang = d.ang := rfl
@[simp] theorem Dev.ev_setPend (d : Dev) (c : Nat) (q : Option SwReq) : (d.setPend c q).ev = d.ev := rfl
@[simp] theorem Dev.conEvents_setPend (d : Dev) (c : Nat) (q : Option SwReq) : (d.setPend c q).conEvents = d.conEvents := rfl
@[simp] theorem Dev.free_setPend (d : Dev) (c : Nat) (q : Option SwReq) : (d.setPend c q).free = d.free := rfl
@[simp] theorem Dev.isles_setPend (d : Dev) (c : Nat) (q : Option SwReq) : (d.setPend c q).isles = d.isles := rfl
@[simp] theorem Dev.lane_setPend (d : Dev) (c : Nat) (q : Option SwReq) : (d.setPend c q).lane = d.lane := rfl
@[simp] theorem Dev.ahd_setPend (d : Dev) (c : Nat) (q : Option SwReq) : (d.setPend c q).ahd = d.ahd := rfl
@[simp] theorem Dev.schedIn_setPend (d : Dev) (c : Nat) (q : Option SwReq) : (d.setPend c q).schedIn = d.schedIn := rfl
@[simp] theorem Dev.schedWait_setPend (d : Dev) (c : Nat) (q : Option SwReq) : (d.setPend c q).schedWait = d.schedWait := rfl
@[simp] theorem Dev.integ_setPend (d : Dev) (c : Nat) (q : Option SwReq) : (d.setPend c q).integ = d.integ := rfl
@[simp] theorem Dev.preds_setPend (d : Dev) (c : Nat) (q : Option SwReq) : (d.setPend c q).preds = d.preds := rfl
@[simp] theorem Dev.hb_setPend (d : Dev) (c : Nat) (q : Option SwReq) : (d.setPend c q).hb = d.hb := rfl
@[simp] theorem Dev.rdData_setPend (d : Dev) (c : Nat) (q : Option SwReq) : (d.setPend c q).rdData = d.rdData := rfl
@[simp] theorem Dev.cores_setPend (d : Dev) (c : Nat) (q : Option SwReq) : (d.setPend c q).cores = d.cores := rfl
@[simp] theorem Dev.mmu_setPend (d : Dev) (c : Nat) (q : Option SwReq) : (d.setPend c q).mmu = d.mmu := rfl
@[simp] theorem Dev.net_setPend (d : Dev) (c : Nat) (q : Option SwReq) : (d.setPend c q).net = d.net := rfl
@[simp] theorem Dev.dram_setPend (d : Dev) (c : Nat) (q : Option SwReq) : (d.setPend c q).dram = d.dram := rfl
@[simp] theorem Dev.cfg_setPend (d : Dev) (c : Nat) (q : Option SwReq) : (d.setPend c q).cfg = d.cfg := rfl
@[simp] theorem Dev.power_setPend (d : Dev) (c : Nat) (q : Option SwReq) : (d.setPend c q).power = d.power := rfl
@[simp] theorem Dev.mail_setPend (d : Dev) (c : Nat) (q : Option SwReq) : (d.setPend c q).mail = d.mail := rfl
@[simp] theorem Dev.eth_setPend (d : Dev) (c : Nat) (q : Option SwReq) : (d.setPend c q).eth = d.eth := rfl
@[simp] theorem Dev.ser_setPend (d : Dev) (c : Nat) (q : Option SwReq) : (d.setPend c q).ser = d.ser := rfl

/-! ### setRouteWait -/

@[simp] theorem Dev.now_setRouteWait (d : Dev) (i : Nat) (c : Option RouteCommit) : (d.setRouteWait i c).now = d.now := rfl
@[simp] theorem Dev.flags_setRouteWait (d : Dev) (i : Nat) (c : Option RouteCommit) : (d.setRouteWait i c).flags = d.flags := rfl
@[simp] theorem Dev.mem_setRouteWait (d : Dev) (i : Nat) (c : Option RouteCommit) : (d.setRouteWait i c).mem = d.mem := rfl
@[simp] theorem Dev.hmem_setRouteWait (d : Dev) (i : Nat) (c : Option RouteCommit) : (d.setRouteWait i c).hmem = d.hmem := rfl
@[simp] theorem Dev.ang_setRouteWait (d : Dev) (i : Nat) (c : Option RouteCommit) : (d.setRouteWait i c).ang = d.ang := rfl
@[simp] theorem Dev.ev_setRouteWait (d : Dev) (i : Nat) (c : Option RouteCommit) : (d.setRouteWait i c).ev = d.ev := rfl
@[simp] theorem Dev.conEvents_setRouteWait (d : Dev) (i : Nat) (c : Option RouteCommit) : (d.setRouteWait i c).conEvents = d.conEvents := rfl
@[simp] theorem Dev.free_setRouteWait (d : Dev) (i : Nat) (c : Option RouteCommit) : (d.setRouteWait i c).free = d.free := rfl
@[simp] theorem Dev.isles_setRouteWait (d : Dev) (i : Nat) (c : Option RouteCommit) : (d.setRouteWait i c).isles = d.isles := rfl
@[simp] theorem Dev.lane_setRouteWait (d : Dev) (i : Nat) (c : Option RouteCommit) : (d.setRouteWait i c).lane = d.lane := rfl
@[simp] theorem Dev.ahd_setRouteWait (d : Dev) (i : Nat) (c : Option RouteCommit) : (d.setRouteWait i c).ahd = d.ahd := rfl
@[simp] theorem Dev.schedIn_setRouteWait (d : Dev) (i : Nat) (c : Option RouteCommit) : (d.setRouteWait i c).schedIn = d.schedIn := rfl
@[simp] theorem Dev.schedWait_setRouteWait (d : Dev) (i : Nat) (c : Option RouteCommit) : (d.setRouteWait i c).schedWait = d.schedWait := rfl
@[simp] theorem Dev.integ_setRouteWait (d : Dev) (i : Nat) (c : Option RouteCommit) : (d.setRouteWait i c).integ = d.integ := rfl
@[simp] theorem Dev.preds_setRouteWait (d : Dev) (i : Nat) (c : Option RouteCommit) : (d.setRouteWait i c).preds = d.preds := rfl
@[simp] theorem Dev.hb_setRouteWait (d : Dev) (i : Nat) (c : Option RouteCommit) : (d.setRouteWait i c).hb = d.hb := rfl
@[simp] theorem Dev.rdData_setRouteWait (d : Dev) (i : Nat) (c : Option RouteCommit) : (d.setRouteWait i c).rdData = d.rdData := rfl
@[simp] theorem Dev.cores_setRouteWait (d : Dev) (i : Nat) (c : Option RouteCommit) : (d.setRouteWait i c).cores = d.cores := rfl
@[simp] theorem Dev.mmu_setRouteWait (d : Dev) (i : Nat) (c : Option RouteCommit) : (d.setRouteWait i c).mmu = d.mmu := rfl
@[simp] theorem Dev.sched_setRouteWait (d : Dev) (i : Nat) (c : Option RouteCommit) : (d.setRouteWait i c).sched = d.sched := rfl
@[simp] theorem Dev.dram_setRouteWait (d : Dev) (i : Nat) (c : Option RouteCommit) : (d.setRouteWait i c).dram = d.dram := rfl
@[simp] theorem Dev.cfg_setRouteWait (d : Dev) (i : Nat) (c : Option RouteCommit) : (d.setRouteWait i c).cfg = d.cfg := rfl
@[simp] theorem Dev.power_setRouteWait (d : Dev) (i : Nat) (c : Option RouteCommit) : (d.setRouteWait i c).power = d.power := rfl
@[simp] theorem Dev.mail_setRouteWait (d : Dev) (i : Nat) (c : Option RouteCommit) : (d.setRouteWait i c).mail = d.mail := rfl
@[simp] theorem Dev.eth_setRouteWait (d : Dev) (i : Nat) (c : Option RouteCommit) : (d.setRouteWait i c).eth = d.eth := rfl
@[simp] theorem Dev.ser_setRouteWait (d : Dev) (i : Nat) (c : Option RouteCommit) : (d.setRouteWait i c).ser = d.ser := rfl

/-! ### setHold -/

@[simp] theorem Dev.now_setHold (d : Dev) (r : Nat) (h : Option (Nat × BitVec 16)) : (d.setHold r h).now = d.now := rfl
@[simp] theorem Dev.regs_setHold (d : Dev) (r : Nat) (h : Option (Nat × BitVec 16)) : (d.setHold r h).regs = d.regs := rfl
@[simp] theorem Dev.flags_setHold (d : Dev) (r : Nat) (h : Option (Nat × BitVec 16)) : (d.setHold r h).flags = d.flags := rfl
@[simp] theorem Dev.mem_setHold (d : Dev) (r : Nat) (h : Option (Nat × BitVec 16)) : (d.setHold r h).mem = d.mem := rfl
@[simp] theorem Dev.hmem_setHold (d : Dev) (r : Nat) (h : Option (Nat × BitVec 16)) : (d.setHold r h).hmem = d.hmem := rfl
@[simp] theorem Dev.ang_setHold (d : Dev) (r : Nat) (h : Option (Nat × BitVec 16)) : (d.setHold r h).ang = d.ang := rfl
@[simp] theorem Dev.ev_setHold (d : Dev) (r : Nat) (h : Option (Nat × BitVec 16)) : (d.setHold r h).ev = d.ev := rfl
@[simp] theorem Dev.conEvents_setHold (d : Dev) (r : Nat) (h : Option (Nat × BitVec 16)) : (d.setHold r h).conEvents = d.conEvents := rfl
@[simp] theorem Dev.free_setHold (d : Dev) (r : Nat) (h : Option (Nat × BitVec 16)) : (d.setHold r h).free = d.free := rfl
@[simp] theorem Dev.isles_setHold (d : Dev) (r : Nat) (h : Option (Nat × BitVec 16)) : (d.setHold r h).isles = d.isles := rfl
@[simp] theorem Dev.lane_setHold (d : Dev) (r : Nat) (h : Option (Nat × BitVec 16)) : (d.setHold r h).lane = d.lane := rfl
@[simp] theorem Dev.ahd_setHold (d : Dev) (r : Nat) (h : Option (Nat × BitVec 16)) : (d.setHold r h).ahd = d.ahd := rfl
@[simp] theorem Dev.schedIn_setHold (d : Dev) (r : Nat) (h : Option (Nat × BitVec 16)) : (d.setHold r h).schedIn = d.schedIn := rfl
@[simp] theorem Dev.schedWait_setHold (d : Dev) (r : Nat) (h : Option (Nat × BitVec 16)) : (d.setHold r h).schedWait = d.schedWait := rfl
@[simp] theorem Dev.integ_setHold (d : Dev) (r : Nat) (h : Option (Nat × BitVec 16)) : (d.setHold r h).integ = d.integ := rfl
@[simp] theorem Dev.preds_setHold (d : Dev) (r : Nat) (h : Option (Nat × BitVec 16)) : (d.setHold r h).preds = d.preds := rfl
@[simp] theorem Dev.hb_setHold (d : Dev) (r : Nat) (h : Option (Nat × BitVec 16)) : (d.setHold r h).hb = d.hb := rfl
@[simp] theorem Dev.rdData_setHold (d : Dev) (r : Nat) (h : Option (Nat × BitVec 16)) : (d.setHold r h).rdData = d.rdData := rfl
@[simp] theorem Dev.cores_setHold (d : Dev) (r : Nat) (h : Option (Nat × BitVec 16)) : (d.setHold r h).cores = d.cores := rfl
@[simp] theorem Dev.mmu_setHold (d : Dev) (r : Nat) (h : Option (Nat × BitVec 16)) : (d.setHold r h).mmu = d.mmu := rfl
@[simp] theorem Dev.sched_setHold (d : Dev) (r : Nat) (h : Option (Nat × BitVec 16)) : (d.setHold r h).sched = d.sched := rfl
@[simp] theorem Dev.dram_setHold (d : Dev) (r : Nat) (h : Option (Nat × BitVec 16)) : (d.setHold r h).dram = d.dram := rfl
@[simp] theorem Dev.cfg_setHold (d : Dev) (r : Nat) (h : Option (Nat × BitVec 16)) : (d.setHold r h).cfg = d.cfg := rfl
@[simp] theorem Dev.power_setHold (d : Dev) (r : Nat) (h : Option (Nat × BitVec 16)) : (d.setHold r h).power = d.power := rfl
@[simp] theorem Dev.mail_setHold (d : Dev) (r : Nat) (h : Option (Nat × BitVec 16)) : (d.setHold r h).mail = d.mail := rfl
@[simp] theorem Dev.eth_setHold (d : Dev) (r : Nat) (h : Option (Nat × BitVec 16)) : (d.setHold r h).eth = d.eth := rfl
@[simp] theorem Dev.ser_setHold (d : Dev) (r : Nat) (h : Option (Nat × BitVec 16)) : (d.setHold r h).ser = d.ser := rfl

/-! ### setDmaQueue -/

@[simp] theorem Dev.now_setDmaQueue (d : Dev) (k : Nat) (l : List Nat) : (d.setDmaQueue k l).now = d.now := rfl
@[simp] theorem Dev.flags_setDmaQueue (d : Dev) (k : Nat) (l : List Nat) : (d.setDmaQueue k l).flags = d.flags := rfl
@[simp] theorem Dev.mem_setDmaQueue (d : Dev) (k : Nat) (l : List Nat) : (d.setDmaQueue k l).mem = d.mem := rfl
@[simp] theorem Dev.hmem_setDmaQueue (d : Dev) (k : Nat) (l : List Nat) : (d.setDmaQueue k l).hmem = d.hmem := rfl
@[simp] theorem Dev.ang_setDmaQueue (d : Dev) (k : Nat) (l : List Nat) : (d.setDmaQueue k l).ang = d.ang := rfl
@[simp] theorem Dev.ev_setDmaQueue (d : Dev) (k : Nat) (l : List Nat) : (d.setDmaQueue k l).ev = d.ev := rfl
@[simp] theorem Dev.conEvents_setDmaQueue (d : Dev) (k : Nat) (l : List Nat) : (d.setDmaQueue k l).conEvents = d.conEvents := rfl
@[simp] theorem Dev.free_setDmaQueue (d : Dev) (k : Nat) (l : List Nat) : (d.setDmaQueue k l).free = d.free := rfl
@[simp] theorem Dev.isles_setDmaQueue (d : Dev) (k : Nat) (l : List Nat) : (d.setDmaQueue k l).isles = d.isles := rfl
@[simp] theorem Dev.lane_setDmaQueue (d : Dev) (k : Nat) (l : List Nat) : (d.setDmaQueue k l).lane = d.lane := rfl
@[simp] theorem Dev.ahd_setDmaQueue (d : Dev) (k : Nat) (l : List Nat) : (d.setDmaQueue k l).ahd = d.ahd := rfl
@[simp] theorem Dev.schedIn_setDmaQueue (d : Dev) (k : Nat) (l : List Nat) : (d.setDmaQueue k l).schedIn = d.schedIn := rfl
@[simp] theorem Dev.schedWait_setDmaQueue (d : Dev) (k : Nat) (l : List Nat) : (d.setDmaQueue k l).schedWait = d.schedWait := rfl
@[simp] theorem Dev.integ_setDmaQueue (d : Dev) (k : Nat) (l : List Nat) : (d.setDmaQueue k l).integ = d.integ := rfl
@[simp] theorem Dev.preds_setDmaQueue (d : Dev) (k : Nat) (l : List Nat) : (d.setDmaQueue k l).preds = d.preds := rfl
@[simp] theorem Dev.hb_setDmaQueue (d : Dev) (k : Nat) (l : List Nat) : (d.setDmaQueue k l).hb = d.hb := rfl
@[simp] theorem Dev.rdData_setDmaQueue (d : Dev) (k : Nat) (l : List Nat) : (d.setDmaQueue k l).rdData = d.rdData := rfl
@[simp] theorem Dev.cores_setDmaQueue (d : Dev) (k : Nat) (l : List Nat) : (d.setDmaQueue k l).cores = d.cores := rfl
@[simp] theorem Dev.mmu_setDmaQueue (d : Dev) (k : Nat) (l : List Nat) : (d.setDmaQueue k l).mmu = d.mmu := rfl
@[simp] theorem Dev.sched_setDmaQueue (d : Dev) (k : Nat) (l : List Nat) : (d.setDmaQueue k l).sched = d.sched := rfl
@[simp] theorem Dev.dram_setDmaQueue (d : Dev) (k : Nat) (l : List Nat) : (d.setDmaQueue k l).dram = d.dram := rfl
@[simp] theorem Dev.cfg_setDmaQueue (d : Dev) (k : Nat) (l : List Nat) : (d.setDmaQueue k l).cfg = d.cfg := rfl
@[simp] theorem Dev.power_setDmaQueue (d : Dev) (k : Nat) (l : List Nat) : (d.setDmaQueue k l).power = d.power := rfl
@[simp] theorem Dev.mail_setDmaQueue (d : Dev) (k : Nat) (l : List Nat) : (d.setDmaQueue k l).mail = d.mail := rfl
@[simp] theorem Dev.eth_setDmaQueue (d : Dev) (k : Nat) (l : List Nat) : (d.setDmaQueue k l).eth = d.eth := rfl
@[simp] theorem Dev.ser_setDmaQueue (d : Dev) (k : Nat) (l : List Nat) : (d.setDmaQueue k l).ser = d.ser := rfl

/-! ### setChan -/

@[simp] theorem Dev.now_setChan (d : Dev) (c : Nat) (x : DChan) : (d.setChan c x).now = d.now := rfl
@[simp] theorem Dev.regs_setChan (d : Dev) (c : Nat) (x : DChan) : (d.setChan c x).regs = d.regs := rfl
@[simp] theorem Dev.flags_setChan (d : Dev) (c : Nat) (x : DChan) : (d.setChan c x).flags = d.flags := rfl
@[simp] theorem Dev.mem_setChan (d : Dev) (c : Nat) (x : DChan) : (d.setChan c x).mem = d.mem := rfl
@[simp] theorem Dev.hmem_setChan (d : Dev) (c : Nat) (x : DChan) : (d.setChan c x).hmem = d.hmem := rfl
@[simp] theorem Dev.ang_setChan (d : Dev) (c : Nat) (x : DChan) : (d.setChan c x).ang = d.ang := rfl
@[simp] theorem Dev.ev_setChan (d : Dev) (c : Nat) (x : DChan) : (d.setChan c x).ev = d.ev := rfl
@[simp] theorem Dev.conEvents_setChan (d : Dev) (c : Nat) (x : DChan) : (d.setChan c x).conEvents = d.conEvents := rfl
@[simp] theorem Dev.free_setChan (d : Dev) (c : Nat) (x : DChan) : (d.setChan c x).free = d.free := rfl
@[simp] theorem Dev.isles_setChan (d : Dev) (c : Nat) (x : DChan) : (d.setChan c x).isles = d.isles := rfl
@[simp] theorem Dev.lane_setChan (d : Dev) (c : Nat) (x : DChan) : (d.setChan c x).lane = d.lane := rfl
@[simp] theorem Dev.ahd_setChan (d : Dev) (c : Nat) (x : DChan) : (d.setChan c x).ahd = d.ahd := rfl
@[simp] theorem Dev.schedIn_setChan (d : Dev) (c : Nat) (x : DChan) : (d.setChan c x).schedIn = d.schedIn := rfl
@[simp] theorem Dev.schedWait_setChan (d : Dev) (c : Nat) (x : DChan) : (d.setChan c x).schedWait = d.schedWait := rfl
@[simp] theorem Dev.integ_setChan (d : Dev) (c : Nat) (x : DChan) : (d.setChan c x).integ = d.integ := rfl
@[simp] theorem Dev.preds_setChan (d : Dev) (c : Nat) (x : DChan) : (d.setChan c x).preds = d.preds := rfl
@[simp] theorem Dev.hb_setChan (d : Dev) (c : Nat) (x : DChan) : (d.setChan c x).hb = d.hb := rfl
@[simp] theorem Dev.rdData_setChan (d : Dev) (c : Nat) (x : DChan) : (d.setChan c x).rdData = d.rdData := rfl
@[simp] theorem Dev.cores_setChan (d : Dev) (c : Nat) (x : DChan) : (d.setChan c x).cores = d.cores := rfl
@[simp] theorem Dev.mmu_setChan (d : Dev) (c : Nat) (x : DChan) : (d.setChan c x).mmu = d.mmu := rfl
@[simp] theorem Dev.sched_setChan (d : Dev) (c : Nat) (x : DChan) : (d.setChan c x).sched = d.sched := rfl
@[simp] theorem Dev.net_setChan (d : Dev) (c : Nat) (x : DChan) : (d.setChan c x).net = d.net := rfl
@[simp] theorem Dev.cfg_setChan (d : Dev) (c : Nat) (x : DChan) : (d.setChan c x).cfg = d.cfg := rfl
@[simp] theorem Dev.power_setChan (d : Dev) (c : Nat) (x : DChan) : (d.setChan c x).power = d.power := rfl
@[simp] theorem Dev.mail_setChan (d : Dev) (c : Nat) (x : DChan) : (d.setChan c x).mail = d.mail := rfl
@[simp] theorem Dev.eth_setChan (d : Dev) (c : Nat) (x : DChan) : (d.setChan c x).eth = d.eth := rfl
@[simp] theorem Dev.ser_setChan (d : Dev) (c : Nat) (x : DChan) : (d.setChan c x).ser = d.ser := rfl

/-! ### setClaims -/

@[simp] theorem Dev.now_setClaims (d : Dev) (cs : List Claim) : (d.setClaims cs).now = d.now := rfl
@[simp] theorem Dev.regs_setClaims (d : Dev) (cs : List Claim) : (d.setClaims cs).regs = d.regs := rfl
@[simp] theorem Dev.flags_setClaims (d : Dev) (cs : List Claim) : (d.setClaims cs).flags = d.flags := rfl
@[simp] theorem Dev.mem_setClaims (d : Dev) (cs : List Claim) : (d.setClaims cs).mem = d.mem := rfl
@[simp] theorem Dev.hmem_setClaims (d : Dev) (cs : List Claim) : (d.setClaims cs).hmem = d.hmem := rfl
@[simp] theorem Dev.ang_setClaims (d : Dev) (cs : List Claim) : (d.setClaims cs).ang = d.ang := rfl
@[simp] theorem Dev.ev_setClaims (d : Dev) (cs : List Claim) : (d.setClaims cs).ev = d.ev := rfl
@[simp] theorem Dev.conEvents_setClaims (d : Dev) (cs : List Claim) : (d.setClaims cs).conEvents = d.conEvents := rfl
@[simp] theorem Dev.free_setClaims (d : Dev) (cs : List Claim) : (d.setClaims cs).free = d.free := rfl
@[simp] theorem Dev.isles_setClaims (d : Dev) (cs : List Claim) : (d.setClaims cs).isles = d.isles := rfl
@[simp] theorem Dev.lane_setClaims (d : Dev) (cs : List Claim) : (d.setClaims cs).lane = d.lane := rfl
@[simp] theorem Dev.ahd_setClaims (d : Dev) (cs : List Claim) : (d.setClaims cs).ahd = d.ahd := rfl
@[simp] theorem Dev.schedIn_setClaims (d : Dev) (cs : List Claim) : (d.setClaims cs).schedIn = d.schedIn := rfl
@[simp] theorem Dev.schedWait_setClaims (d : Dev) (cs : List Claim) : (d.setClaims cs).schedWait = d.schedWait := rfl
@[simp] theorem Dev.integ_setClaims (d : Dev) (cs : List Claim) : (d.setClaims cs).integ = d.integ := rfl
@[simp] theorem Dev.preds_setClaims (d : Dev) (cs : List Claim) : (d.setClaims cs).preds = d.preds := rfl
@[simp] theorem Dev.hb_setClaims (d : Dev) (cs : List Claim) : (d.setClaims cs).hb = d.hb := rfl
@[simp] theorem Dev.rdData_setClaims (d : Dev) (cs : List Claim) : (d.setClaims cs).rdData = d.rdData := rfl
@[simp] theorem Dev.cores_setClaims (d : Dev) (cs : List Claim) : (d.setClaims cs).cores = d.cores := rfl
@[simp] theorem Dev.mmu_setClaims (d : Dev) (cs : List Claim) : (d.setClaims cs).mmu = d.mmu := rfl
@[simp] theorem Dev.sched_setClaims (d : Dev) (cs : List Claim) : (d.setClaims cs).sched = d.sched := rfl
@[simp] theorem Dev.net_setClaims (d : Dev) (cs : List Claim) : (d.setClaims cs).net = d.net := rfl
@[simp] theorem Dev.dram_setClaims (d : Dev) (cs : List Claim) : (d.setClaims cs).dram = d.dram := rfl
@[simp] theorem Dev.power_setClaims (d : Dev) (cs : List Claim) : (d.setClaims cs).power = d.power := rfl
@[simp] theorem Dev.mail_setClaims (d : Dev) (cs : List Claim) : (d.setClaims cs).mail = d.mail := rfl
@[simp] theorem Dev.eth_setClaims (d : Dev) (cs : List Claim) : (d.setClaims cs).eth = d.eth := rfl
@[simp] theorem Dev.ser_setClaims (d : Dev) (cs : List Claim) : (d.setClaims cs).ser = d.ser := rfl

/-! ### setIcp -/

@[simp] theorem Dev.now_setIcp (d : Dev) (x : Icp) : (d.setIcp x).now = d.now := rfl
@[simp] theorem Dev.regs_setIcp (d : Dev) (x : Icp) : (d.setIcp x).regs = d.regs := rfl
@[simp] theorem Dev.flags_setIcp (d : Dev) (x : Icp) : (d.setIcp x).flags = d.flags := rfl
@[simp] theorem Dev.mem_setIcp (d : Dev) (x : Icp) : (d.setIcp x).mem = d.mem := rfl
@[simp] theorem Dev.hmem_setIcp (d : Dev) (x : Icp) : (d.setIcp x).hmem = d.hmem := rfl
@[simp] theorem Dev.ang_setIcp (d : Dev) (x : Icp) : (d.setIcp x).ang = d.ang := rfl
@[simp] theorem Dev.ev_setIcp (d : Dev) (x : Icp) : (d.setIcp x).ev = d.ev := rfl
@[simp] theorem Dev.conEvents_setIcp (d : Dev) (x : Icp) : (d.setIcp x).conEvents = d.conEvents := rfl
@[simp] theorem Dev.free_setIcp (d : Dev) (x : Icp) : (d.setIcp x).free = d.free := rfl
@[simp] theorem Dev.isles_setIcp (d : Dev) (x : Icp) : (d.setIcp x).isles = d.isles := rfl
@[simp] theorem Dev.lane_setIcp (d : Dev) (x : Icp) : (d.setIcp x).lane = d.lane := rfl
@[simp] theorem Dev.ahd_setIcp (d : Dev) (x : Icp) : (d.setIcp x).ahd = d.ahd := rfl
@[simp] theorem Dev.schedIn_setIcp (d : Dev) (x : Icp) : (d.setIcp x).schedIn = d.schedIn := rfl
@[simp] theorem Dev.schedWait_setIcp (d : Dev) (x : Icp) : (d.setIcp x).schedWait = d.schedWait := rfl
@[simp] theorem Dev.integ_setIcp (d : Dev) (x : Icp) : (d.setIcp x).integ = d.integ := rfl
@[simp] theorem Dev.preds_setIcp (d : Dev) (x : Icp) : (d.setIcp x).preds = d.preds := rfl
@[simp] theorem Dev.hb_setIcp (d : Dev) (x : Icp) : (d.setIcp x).hb = d.hb := rfl
@[simp] theorem Dev.rdData_setIcp (d : Dev) (x : Icp) : (d.setIcp x).rdData = d.rdData := rfl
@[simp] theorem Dev.cores_setIcp (d : Dev) (x : Icp) : (d.setIcp x).cores = d.cores := rfl
@[simp] theorem Dev.mmu_setIcp (d : Dev) (x : Icp) : (d.setIcp x).mmu = d.mmu := rfl
@[simp] theorem Dev.sched_setIcp (d : Dev) (x : Icp) : (d.setIcp x).sched = d.sched := rfl
@[simp] theorem Dev.net_setIcp (d : Dev) (x : Icp) : (d.setIcp x).net = d.net := rfl
@[simp] theorem Dev.dram_setIcp (d : Dev) (x : Icp) : (d.setIcp x).dram = d.dram := rfl
@[simp] theorem Dev.power_setIcp (d : Dev) (x : Icp) : (d.setIcp x).power = d.power := rfl
@[simp] theorem Dev.mail_setIcp (d : Dev) (x : Icp) : (d.setIcp x).mail = d.mail := rfl
@[simp] theorem Dev.eth_setIcp (d : Dev) (x : Icp) : (d.setIcp x).eth = d.eth := rfl
@[simp] theorem Dev.ser_setIcp (d : Dev) (x : Icp) : (d.setIcp x).ser = d.ser := rfl

/-! ### setLoad -/

@[simp] theorem Dev.now_setLoad (d : Dev) (l : CfgLoad) : (d.setLoad l).now = d.now := rfl
@[simp] theorem Dev.regs_setLoad (d : Dev) (l : CfgLoad) : (d.setLoad l).regs = d.regs := rfl
@[simp] theorem Dev.flags_setLoad (d : Dev) (l : CfgLoad) : (d.setLoad l).flags = d.flags := rfl
@[simp] theorem Dev.mem_setLoad (d : Dev) (l : CfgLoad) : (d.setLoad l).mem = d.mem := rfl
@[simp] theorem Dev.hmem_setLoad (d : Dev) (l : CfgLoad) : (d.setLoad l).hmem = d.hmem := rfl
@[simp] theorem Dev.ang_setLoad (d : Dev) (l : CfgLoad) : (d.setLoad l).ang = d.ang := rfl
@[simp] theorem Dev.ev_setLoad (d : Dev) (l : CfgLoad) : (d.setLoad l).ev = d.ev := rfl
@[simp] theorem Dev.conEvents_setLoad (d : Dev) (l : CfgLoad) : (d.setLoad l).conEvents = d.conEvents := rfl
@[simp] theorem Dev.free_setLoad (d : Dev) (l : CfgLoad) : (d.setLoad l).free = d.free := rfl
@[simp] theorem Dev.isles_setLoad (d : Dev) (l : CfgLoad) : (d.setLoad l).isles = d.isles := rfl
@[simp] theorem Dev.lane_setLoad (d : Dev) (l : CfgLoad) : (d.setLoad l).lane = d.lane := rfl
@[simp] theorem Dev.ahd_setLoad (d : Dev) (l : CfgLoad) : (d.setLoad l).ahd = d.ahd := rfl
@[simp] theorem Dev.schedIn_setLoad (d : Dev) (l : CfgLoad) : (d.setLoad l).schedIn = d.schedIn := rfl
@[simp] theorem Dev.schedWait_setLoad (d : Dev) (l : CfgLoad) : (d.setLoad l).schedWait = d.schedWait := rfl
@[simp] theorem Dev.integ_setLoad (d : Dev) (l : CfgLoad) : (d.setLoad l).integ = d.integ := rfl
@[simp] theorem Dev.preds_setLoad (d : Dev) (l : CfgLoad) : (d.setLoad l).preds = d.preds := rfl
@[simp] theorem Dev.hb_setLoad (d : Dev) (l : CfgLoad) : (d.setLoad l).hb = d.hb := rfl
@[simp] theorem Dev.rdData_setLoad (d : Dev) (l : CfgLoad) : (d.setLoad l).rdData = d.rdData := rfl
@[simp] theorem Dev.cores_setLoad (d : Dev) (l : CfgLoad) : (d.setLoad l).cores = d.cores := rfl
@[simp] theorem Dev.mmu_setLoad (d : Dev) (l : CfgLoad) : (d.setLoad l).mmu = d.mmu := rfl
@[simp] theorem Dev.sched_setLoad (d : Dev) (l : CfgLoad) : (d.setLoad l).sched = d.sched := rfl
@[simp] theorem Dev.net_setLoad (d : Dev) (l : CfgLoad) : (d.setLoad l).net = d.net := rfl
@[simp] theorem Dev.dram_setLoad (d : Dev) (l : CfgLoad) : (d.setLoad l).dram = d.dram := rfl
@[simp] theorem Dev.power_setLoad (d : Dev) (l : CfgLoad) : (d.setLoad l).power = d.power := rfl
@[simp] theorem Dev.mail_setLoad (d : Dev) (l : CfgLoad) : (d.setLoad l).mail = d.mail := rfl
@[simp] theorem Dev.eth_setLoad (d : Dev) (l : CfgLoad) : (d.setLoad l).eth = d.eth := rfl
@[simp] theorem Dev.ser_setLoad (d : Dev) (l : CfgLoad) : (d.setLoad l).ser = d.ser := rfl

/-! ### setPower -/

@[simp] theorem Dev.now_setPower (d : Dev) (p : Power) : (d.setPower p).now = d.now := rfl
@[simp] theorem Dev.regs_setPower (d : Dev) (p : Power) : (d.setPower p).regs = d.regs := rfl
@[simp] theorem Dev.flags_setPower (d : Dev) (p : Power) : (d.setPower p).flags = d.flags := rfl
@[simp] theorem Dev.mem_setPower (d : Dev) (p : Power) : (d.setPower p).mem = d.mem := rfl
@[simp] theorem Dev.hmem_setPower (d : Dev) (p : Power) : (d.setPower p).hmem = d.hmem := rfl
@[simp] theorem Dev.ang_setPower (d : Dev) (p : Power) : (d.setPower p).ang = d.ang := rfl
@[simp] theorem Dev.ev_setPower (d : Dev) (p : Power) : (d.setPower p).ev = d.ev := rfl
@[simp] theorem Dev.conEvents_setPower (d : Dev) (p : Power) : (d.setPower p).conEvents = d.conEvents := rfl
@[simp] theorem Dev.free_setPower (d : Dev) (p : Power) : (d.setPower p).free = d.free := rfl
@[simp] theorem Dev.isles_setPower (d : Dev) (p : Power) : (d.setPower p).isles = d.isles := rfl
@[simp] theorem Dev.lane_setPower (d : Dev) (p : Power) : (d.setPower p).lane = d.lane := rfl
@[simp] theorem Dev.ahd_setPower (d : Dev) (p : Power) : (d.setPower p).ahd = d.ahd := rfl
@[simp] theorem Dev.schedIn_setPower (d : Dev) (p : Power) : (d.setPower p).schedIn = d.schedIn := rfl
@[simp] theorem Dev.schedWait_setPower (d : Dev) (p : Power) : (d.setPower p).schedWait = d.schedWait := rfl
@[simp] theorem Dev.integ_setPower (d : Dev) (p : Power) : (d.setPower p).integ = d.integ := rfl
@[simp] theorem Dev.preds_setPower (d : Dev) (p : Power) : (d.setPower p).preds = d.preds := rfl
@[simp] theorem Dev.hb_setPower (d : Dev) (p : Power) : (d.setPower p).hb = d.hb := rfl
@[simp] theorem Dev.rdData_setPower (d : Dev) (p : Power) : (d.setPower p).rdData = d.rdData := rfl
@[simp] theorem Dev.cores_setPower (d : Dev) (p : Power) : (d.setPower p).cores = d.cores := rfl
@[simp] theorem Dev.mmu_setPower (d : Dev) (p : Power) : (d.setPower p).mmu = d.mmu := rfl
@[simp] theorem Dev.sched_setPower (d : Dev) (p : Power) : (d.setPower p).sched = d.sched := rfl
@[simp] theorem Dev.net_setPower (d : Dev) (p : Power) : (d.setPower p).net = d.net := rfl
@[simp] theorem Dev.dram_setPower (d : Dev) (p : Power) : (d.setPower p).dram = d.dram := rfl
@[simp] theorem Dev.cfg_setPower (d : Dev) (p : Power) : (d.setPower p).cfg = d.cfg := rfl
@[simp] theorem Dev.mail_setPower (d : Dev) (p : Power) : (d.setPower p).mail = d.mail := rfl
@[simp] theorem Dev.eth_setPower (d : Dev) (p : Power) : (d.setPower p).eth = d.eth := rfl
@[simp] theorem Dev.ser_setPower (d : Dev) (p : Power) : (d.setPower p).ser = d.ser := rfl

/-! ### setMail -/

@[simp] theorem Dev.now_setMail (d : Dev) (m : Mail) : (d.setMail m).now = d.now := rfl
@[simp] theorem Dev.regs_setMail (d : Dev) (m : Mail) : (d.setMail m).regs = d.regs := rfl
@[simp] theorem Dev.flags_setMail (d : Dev) (m : Mail) : (d.setMail m).flags = d.flags := rfl
@[simp] theorem Dev.mem_setMail (d : Dev) (m : Mail) : (d.setMail m).mem = d.mem := rfl
@[simp] theorem Dev.hmem_setMail (d : Dev) (m : Mail) : (d.setMail m).hmem = d.hmem := rfl
@[simp] theorem Dev.ang_setMail (d : Dev) (m : Mail) : (d.setMail m).ang = d.ang := rfl
@[simp] theorem Dev.ev_setMail (d : Dev) (m : Mail) : (d.setMail m).ev = d.ev := rfl
@[simp] theorem Dev.conEvents_setMail (d : Dev) (m : Mail) : (d.setMail m).conEvents = d.conEvents := rfl
@[simp] theorem Dev.free_setMail (d : Dev) (m : Mail) : (d.setMail m).free = d.free := rfl
@[simp] theorem Dev.isles_setMail (d : Dev) (m : Mail) : (d.setMail m).isles = d.isles := rfl
@[simp] theorem Dev.lane_setMail (d : Dev) (m : Mail) : (d.setMail m).lane = d.lane := rfl
@[simp] theorem Dev.ahd_setMail (d : Dev) (m : Mail) : (d.setMail m).ahd = d.ahd := rfl
@[simp] theorem Dev.schedIn_setMail (d : Dev) (m : Mail) : (d.setMail m).schedIn = d.schedIn := rfl
@[simp] theorem Dev.schedWait_setMail (d : Dev) (m : Mail) : (d.setMail m).schedWait = d.schedWait := rfl
@[simp] theorem Dev.integ_setMail (d : Dev) (m : Mail) : (d.setMail m).integ = d.integ := rfl
@[simp] theorem Dev.preds_setMail (d : Dev) (m : Mail) : (d.setMail m).preds = d.preds := rfl
@[simp] theorem Dev.hb_setMail (d : Dev) (m : Mail) : (d.setMail m).hb = d.hb := rfl
@[simp] theorem Dev.rdData_setMail (d : Dev) (m : Mail) : (d.setMail m).rdData = d.rdData := rfl
@[simp] theorem Dev.cores_setMail (d : Dev) (m : Mail) : (d.setMail m).cores = d.cores := rfl
@[simp] theorem Dev.mmu_setMail (d : Dev) (m : Mail) : (d.setMail m).mmu = d.mmu := rfl
@[simp] theorem Dev.sched_setMail (d : Dev) (m : Mail) : (d.setMail m).sched = d.sched := rfl
@[simp] theorem Dev.net_setMail (d : Dev) (m : Mail) : (d.setMail m).net = d.net := rfl
@[simp] theorem Dev.dram_setMail (d : Dev) (m : Mail) : (d.setMail m).dram = d.dram := rfl
@[simp] theorem Dev.cfg_setMail (d : Dev) (m : Mail) : (d.setMail m).cfg = d.cfg := rfl
@[simp] theorem Dev.power_setMail (d : Dev) (m : Mail) : (d.setMail m).power = d.power := rfl
@[simp] theorem Dev.eth_setMail (d : Dev) (m : Mail) : (d.setMail m).eth = d.eth := rfl
@[simp] theorem Dev.ser_setMail (d : Dev) (m : Mail) : (d.setMail m).ser = d.ser := rfl

/-! ### setEth -/

@[simp] theorem Dev.now_setEth (d : Dev) (e : Eth) : (d.setEth e).now = d.now := rfl
@[simp] theorem Dev.regs_setEth (d : Dev) (e : Eth) : (d.setEth e).regs = d.regs := rfl
@[simp] theorem Dev.flags_setEth (d : Dev) (e : Eth) : (d.setEth e).flags = d.flags := rfl
@[simp] theorem Dev.mem_setEth (d : Dev) (e : Eth) : (d.setEth e).mem = d.mem := rfl
@[simp] theorem Dev.hmem_setEth (d : Dev) (e : Eth) : (d.setEth e).hmem = d.hmem := rfl
@[simp] theorem Dev.ang_setEth (d : Dev) (e : Eth) : (d.setEth e).ang = d.ang := rfl
@[simp] theorem Dev.ev_setEth (d : Dev) (e : Eth) : (d.setEth e).ev = d.ev := rfl
@[simp] theorem Dev.conEvents_setEth (d : Dev) (e : Eth) : (d.setEth e).conEvents = d.conEvents := rfl
@[simp] theorem Dev.free_setEth (d : Dev) (e : Eth) : (d.setEth e).free = d.free := rfl
@[simp] theorem Dev.isles_setEth (d : Dev) (e : Eth) : (d.setEth e).isles = d.isles := rfl
@[simp] theorem Dev.lane_setEth (d : Dev) (e : Eth) : (d.setEth e).lane = d.lane := rfl
@[simp] theorem Dev.ahd_setEth (d : Dev) (e : Eth) : (d.setEth e).ahd = d.ahd := rfl
@[simp] theorem Dev.schedIn_setEth (d : Dev) (e : Eth) : (d.setEth e).schedIn = d.schedIn := rfl
@[simp] theorem Dev.schedWait_setEth (d : Dev) (e : Eth) : (d.setEth e).schedWait = d.schedWait := rfl
@[simp] theorem Dev.integ_setEth (d : Dev) (e : Eth) : (d.setEth e).integ = d.integ := rfl
@[simp] theorem Dev.preds_setEth (d : Dev) (e : Eth) : (d.setEth e).preds = d.preds := rfl
@[simp] theorem Dev.hb_setEth (d : Dev) (e : Eth) : (d.setEth e).hb = d.hb := rfl
@[simp] theorem Dev.rdData_setEth (d : Dev) (e : Eth) : (d.setEth e).rdData = d.rdData := rfl
@[simp] theorem Dev.cores_setEth (d : Dev) (e : Eth) : (d.setEth e).cores = d.cores := rfl
@[simp] theorem Dev.mmu_setEth (d : Dev) (e : Eth) : (d.setEth e).mmu = d.mmu := rfl
@[simp] theorem Dev.sched_setEth (d : Dev) (e : Eth) : (d.setEth e).sched = d.sched := rfl
@[simp] theorem Dev.net_setEth (d : Dev) (e : Eth) : (d.setEth e).net = d.net := rfl
@[simp] theorem Dev.dram_setEth (d : Dev) (e : Eth) : (d.setEth e).dram = d.dram := rfl
@[simp] theorem Dev.cfg_setEth (d : Dev) (e : Eth) : (d.setEth e).cfg = d.cfg := rfl
@[simp] theorem Dev.power_setEth (d : Dev) (e : Eth) : (d.setEth e).power = d.power := rfl
@[simp] theorem Dev.mail_setEth (d : Dev) (e : Eth) : (d.setEth e).mail = d.mail := rfl
@[simp] theorem Dev.ser_setEth (d : Dev) (e : Eth) : (d.setEth e).ser = d.ser := rfl

/-! ### setRing -/

@[simp] theorem Dev.now_setRing (d : Dev) (p r : Nat) (x : EnRing) : (d.setRing p r x).now = d.now := rfl
@[simp] theorem Dev.regs_setRing (d : Dev) (p r : Nat) (x : EnRing) : (d.setRing p r x).regs = d.regs := rfl
@[simp] theorem Dev.flags_setRing (d : Dev) (p r : Nat) (x : EnRing) : (d.setRing p r x).flags = d.flags := rfl
@[simp] theorem Dev.mem_setRing (d : Dev) (p r : Nat) (x : EnRing) : (d.setRing p r x).mem = d.mem := rfl
@[simp] theorem Dev.hmem_setRing (d : Dev) (p r : Nat) (x : EnRing) : (d.setRing p r x).hmem = d.hmem := rfl
@[simp] theorem Dev.ang_setRing (d : Dev) (p r : Nat) (x : EnRing) : (d.setRing p r x).ang = d.ang := rfl
@[simp] theorem Dev.ev_setRing (d : Dev) (p r : Nat) (x : EnRing) : (d.setRing p r x).ev = d.ev := rfl
@[simp] theorem Dev.conEvents_setRing (d : Dev) (p r : Nat) (x : EnRing) : (d.setRing p r x).conEvents = d.conEvents := rfl
@[simp] theorem Dev.free_setRing (d : Dev) (p r : Nat) (x : EnRing) : (d.setRing p r x).free = d.free := rfl
@[simp] theorem Dev.isles_setRing (d : Dev) (p r : Nat) (x : EnRing) : (d.setRing p r x).isles = d.isles := rfl
@[simp] theorem Dev.lane_setRing (d : Dev) (p r : Nat) (x : EnRing) : (d.setRing p r x).lane = d.lane := rfl
@[simp] theorem Dev.ahd_setRing (d : Dev) (p r : Nat) (x : EnRing) : (d.setRing p r x).ahd = d.ahd := rfl
@[simp] theorem Dev.schedIn_setRing (d : Dev) (p r : Nat) (x : EnRing) : (d.setRing p r x).schedIn = d.schedIn := rfl
@[simp] theorem Dev.schedWait_setRing (d : Dev) (p r : Nat) (x : EnRing) : (d.setRing p r x).schedWait = d.schedWait := rfl
@[simp] theorem Dev.integ_setRing (d : Dev) (p r : Nat) (x : EnRing) : (d.setRing p r x).integ = d.integ := rfl
@[simp] theorem Dev.preds_setRing (d : Dev) (p r : Nat) (x : EnRing) : (d.setRing p r x).preds = d.preds := rfl
@[simp] theorem Dev.hb_setRing (d : Dev) (p r : Nat) (x : EnRing) : (d.setRing p r x).hb = d.hb := rfl
@[simp] theorem Dev.rdData_setRing (d : Dev) (p r : Nat) (x : EnRing) : (d.setRing p r x).rdData = d.rdData := rfl
@[simp] theorem Dev.cores_setRing (d : Dev) (p r : Nat) (x : EnRing) : (d.setRing p r x).cores = d.cores := rfl
@[simp] theorem Dev.mmu_setRing (d : Dev) (p r : Nat) (x : EnRing) : (d.setRing p r x).mmu = d.mmu := rfl
@[simp] theorem Dev.sched_setRing (d : Dev) (p r : Nat) (x : EnRing) : (d.setRing p r x).sched = d.sched := rfl
@[simp] theorem Dev.net_setRing (d : Dev) (p r : Nat) (x : EnRing) : (d.setRing p r x).net = d.net := rfl
@[simp] theorem Dev.dram_setRing (d : Dev) (p r : Nat) (x : EnRing) : (d.setRing p r x).dram = d.dram := rfl
@[simp] theorem Dev.cfg_setRing (d : Dev) (p r : Nat) (x : EnRing) : (d.setRing p r x).cfg = d.cfg := rfl
@[simp] theorem Dev.power_setRing (d : Dev) (p r : Nat) (x : EnRing) : (d.setRing p r x).power = d.power := rfl
@[simp] theorem Dev.mail_setRing (d : Dev) (p r : Nat) (x : EnRing) : (d.setRing p r x).mail = d.mail := rfl
@[simp] theorem Dev.ser_setRing (d : Dev) (p r : Nat) (x : EnRing) : (d.setRing p r x).ser = d.ser := rfl

/-! ### setSer -/

@[simp] theorem Dev.now_setSer (d : Dev) (x : Serial) : (d.setSer x).now = d.now := rfl
@[simp] theorem Dev.regs_setSer (d : Dev) (x : Serial) : (d.setSer x).regs = d.regs := rfl
@[simp] theorem Dev.flags_setSer (d : Dev) (x : Serial) : (d.setSer x).flags = d.flags := rfl
@[simp] theorem Dev.mem_setSer (d : Dev) (x : Serial) : (d.setSer x).mem = d.mem := rfl
@[simp] theorem Dev.hmem_setSer (d : Dev) (x : Serial) : (d.setSer x).hmem = d.hmem := rfl
@[simp] theorem Dev.ang_setSer (d : Dev) (x : Serial) : (d.setSer x).ang = d.ang := rfl
@[simp] theorem Dev.ev_setSer (d : Dev) (x : Serial) : (d.setSer x).ev = d.ev := rfl
@[simp] theorem Dev.conEvents_setSer (d : Dev) (x : Serial) : (d.setSer x).conEvents = d.conEvents := rfl
@[simp] theorem Dev.free_setSer (d : Dev) (x : Serial) : (d.setSer x).free = d.free := rfl
@[simp] theorem Dev.isles_setSer (d : Dev) (x : Serial) : (d.setSer x).isles = d.isles := rfl
@[simp] theorem Dev.lane_setSer (d : Dev) (x : Serial) : (d.setSer x).lane = d.lane := rfl
@[simp] theorem Dev.ahd_setSer (d : Dev) (x : Serial) : (d.setSer x).ahd = d.ahd := rfl
@[simp] theorem Dev.schedIn_setSer (d : Dev) (x : Serial) : (d.setSer x).schedIn = d.schedIn := rfl
@[simp] theorem Dev.schedWait_setSer (d : Dev) (x : Serial) : (d.setSer x).schedWait = d.schedWait := rfl
@[simp] theorem Dev.integ_setSer (d : Dev) (x : Serial) : (d.setSer x).integ = d.integ := rfl
@[simp] theorem Dev.preds_setSer (d : Dev) (x : Serial) : (d.setSer x).preds = d.preds := rfl
@[simp] theorem Dev.hb_setSer (d : Dev) (x : Serial) : (d.setSer x).hb = d.hb := rfl
@[simp] theorem Dev.rdData_setSer (d : Dev) (x : Serial) : (d.setSer x).rdData = d.rdData := rfl
@[simp] theorem Dev.cores_setSer (d : Dev) (x : Serial) : (d.setSer x).cores = d.cores := rfl
@[simp] theorem Dev.mmu_setSer (d : Dev) (x : Serial) : (d.setSer x).mmu = d.mmu := rfl
@[simp] theorem Dev.sched_setSer (d : Dev) (x : Serial) : (d.setSer x).sched = d.sched := rfl
@[simp] theorem Dev.net_setSer (d : Dev) (x : Serial) : (d.setSer x).net = d.net := rfl
@[simp] theorem Dev.dram_setSer (d : Dev) (x : Serial) : (d.setSer x).dram = d.dram := rfl
@[simp] theorem Dev.cfg_setSer (d : Dev) (x : Serial) : (d.setSer x).cfg = d.cfg := rfl
@[simp] theorem Dev.power_setSer (d : Dev) (x : Serial) : (d.setSer x).power = d.power := rfl
@[simp] theorem Dev.mail_setSer (d : Dev) (x : Serial) : (d.setSer x).mail = d.mail := rfl
@[simp] theorem Dev.eth_setSer (d : Dev) (x : Serial) : (d.setSer x).eth = d.eth := rfl

end Sys2Proof.Machine
end

