-- ==== Sys2Proof/Tests/Slice0.lean ====
section
/-! SUPPORT. The model's own tests: ill-formed terms are refused, single steps give what the manual's examples say, and for every statement with
hypotheses a state that meets them. -/
namespace Sys2Proof.Machine

set_option Elab.async false

/-- Set registers of a block. -/
def setRegs (l : List (Nat × BitVec 32)) (d : Dev) : Dev := l.foldl (fun d e => d.setReg e.1 e.2) d

/-- A header for the witnesses below. -/
def hdrPartial : List (BitVec 8) := [69, 84, 68, 82, 0, 0, 1, 0, 1, 150, 65, 89, 2, 0, 0, 0, 0, 2, 0, 0, 1, 0, 0, 0, 9, 0, 0, 0, 1, 0, 0, 0, 0, 0, 0, 0, 0, 0, 0, 0, 0, 0, 0, 0, 0, 0, 0, 0, 0, 0, 0, 0, 0, 0, 0, 0, 0, 0, 0, 0, 0, 0, 0, 0, 0, 0, 0, 0, 0, 0, 0, 0, 0, 0, 0, 0, 0, 0, 0, 0, 0, 0, 0, 0, 0, 0, 0, 0, 0, 0, 0, 0, 0, 0, 0, 0, 0, 0, 0, 0, 0, 0, 0, 0, 0, 0, 0, 0, 0, 0, 0, 0, 0, 0, 0, 0, 0, 0, 0, 0, 0, 0, 0, 0, 212, 162, 221, 167]

theorem hdrPartial_identity : identityOk hdrPartial = true := by
  have h : crc32 (hdrPartial.take 0x7C) = 0xa7dda2d4#32 := by
    rw [show hdrPartial.take 0x7C = ((hdrPartial.drop 0).take 31) ++ (((hdrPartial.drop 31).take 31) ++ (((hdrPartial.drop 62).take 31) ++ ((hdrPartial.drop 93).take 31))) by decide]
    simp only [crc32, List.foldl_append]
    rw [show ((hdrPartial.drop 0).take 31).foldl crcByte (BitVec.allOnes 32) = 0x4d0867db#32 by decide +kernel, show ((hdrPartial.drop 31).take 31).foldl crcByte 0x4d0867db#32 = 0x1e14ffbb#32 by decide +kernel, show ((hdrPartial.drop 62).take 31).foldl crcByte 0x1e14ffbb#32 = 0x641dae48#32 by decide +kernel, show ((hdrPartial.drop 93).take 31).foldl crcByte 0x641dae48#32 = 0x58225d2b#32 by decide +kernel]
    decide
  simp only [identityOk, h]
  decide +kernel

/-- A header for the witnesses below. -/
def hdrFull : List (BitVec 8) := [69, 84, 68, 82, 0, 0, 1, 0, 1, 150, 65, 89, 2, 0, 0, 0, 0, 2, 0, 0, 0, 0, 0, 0, 9, 0, 0, 0, 1, 0, 0, 0, 0, 0, 0, 0, 0, 0, 0, 0, 0, 0, 0, 0, 0, 0, 0, 0, 0, 0, 0, 0, 0, 0, 0, 0, 0, 0, 0, 0, 0, 0, 0, 0, 0, 0, 0, 0, 0, 0, 0, 0, 0, 0, 0, 0, 0, 0, 0, 0, 0, 0, 0, 0, 0, 0, 0, 0, 0, 0, 0, 0, 0, 0, 0, 0, 0, 0, 0, 0, 0, 0, 0, 0, 0, 0, 0, 0, 0, 0, 0, 0, 0, 0, 0, 0, 0, 0, 0, 0, 0, 0, 0, 0, 57, 98, 99, 171]

theorem hdrFull_identity : identityOk hdrFull = true := by
  have h : crc32 (hdrFull.take 0x7C) = 0xab636239#32 := by
    rw [show hdrFull.take 0x7C = ((hdrFull.drop 0).take 31) ++ (((hdrFull.drop 31).take 31) ++ (((hdrFull.drop 62).take 31) ++ ((hdrFull.drop 93).take 31))) by decide]
    simp only [crc32, List.foldl_append]
    rw [show ((hdrFull.drop 0).take 31).foldl crcByte (BitVec.allOnes 32) = 0x8c86b81b#32 by decide +kernel, show ((hdrFull.drop 31).take 31).foldl crcByte 0x8c86b81b#32 = 0xbf2d7b55#32 by decide +kernel, show ((hdrFull.drop 62).take 31).foldl crcByte 0xbf2d7b55#32 = 0x93d1f246#32 by decide +kernel, show ((hdrFull.drop 93).take 31).foldl crcByte 0x93d1f246#32 = 0x549c9dc6#32 by decide +kernel]
    decide
  simp only [identityOk, h]
  decide +kernel


/-- A whole image for the witnesses below, its tag made with the key [5]. -/
def imgFlash : List (BitVec 8) := [69, 84, 68, 82, 0, 0, 1, 0, 1, 150, 65, 89, 2, 0, 0, 0, 0, 2, 0, 0, 0, 0, 0, 0, 9, 0, 0, 0, 1, 0, 0, 0, 0, 0, 0, 0, 0, 0, 0, 0, 0, 0, 0, 0, 0, 0, 0, 0, 0, 0, 0, 0, 0, 0, 0, 0, 0, 0, 0, 0, 0, 0, 0, 0, 0, 0, 0, 0, 0, 0, 0, 0, 0, 0, 0, 0, 0, 0, 0, 0, 0, 0, 0, 0, 0, 0, 0, 0, 0, 0, 0, 0, 0, 0, 0, 0, 0, 0, 0, 0, 0, 0, 0, 0, 0, 0, 0, 0, 0, 0, 0, 0, 0, 0, 0, 0, 0, 0, 0, 0, 0, 0, 0, 0, 57, 98, 99, 171, 7, 0, 0, 0, 144, 0, 0, 0, 0, 0, 0, 0, 0, 0, 0, 0, 0, 0, 0, 0, 0, 0, 0, 0, 0, 0, 0, 0, 0, 0, 0, 0, 0, 0, 0, 0, 0, 0, 0, 0, 0, 0, 0, 0, 0, 0, 0, 0, 0, 0, 0, 0, 0, 0, 0, 0, 0, 0, 0, 0, 0, 0, 0, 0, 0, 0, 0, 0, 0, 0, 0, 0, 0, 0, 0, 0, 0, 0, 0, 0, 0, 0, 0, 0, 0, 0, 0, 0, 0, 0, 0, 0, 0, 0, 0, 0, 0, 0, 0, 0, 0, 0, 0, 0, 0, 0, 0, 0, 0, 0, 0, 0, 0, 0, 0, 0, 0, 0, 0, 0, 0, 0, 0, 0, 0, 0, 0, 0, 0, 0, 0, 0, 0, 0, 0, 0, 0, 0, 0, 0, 0, 0, 0, 0, 0, 0, 0, 0, 0, 0, 0, 0, 0, 0, 0, 0, 0, 0, 0, 0, 0, 0, 0, 0, 0, 0, 0, 0, 0, 0, 0, 0, 0, 0, 0, 0, 0, 0, 0, 0, 0, 0, 0, 0, 0, 0, 0, 0, 0, 0, 0, 0, 0, 0, 0, 0, 0, 0, 0, 0, 0, 0, 0, 0, 0, 0, 0, 0, 0, 0, 0, 0, 0, 0, 0, 0, 0, 0, 0, 0, 0, 0, 0, 0, 0, 0, 0, 0, 0, 0, 0, 0, 0, 0, 0, 0, 0, 0, 0, 0, 0, 0, 0, 0, 0, 0, 0, 0, 0, 0, 0, 0, 0, 0, 0, 0, 0, 0, 0, 0, 0, 0, 0, 0, 0, 0, 0, 0, 0, 0, 0, 0, 0, 0, 0, 0, 0, 0, 0, 0, 0, 0, 0, 0, 0, 0, 0, 0, 0, 0, 0, 0, 0, 0, 0, 0, 0, 0, 0, 0, 0, 0, 0, 0, 0, 0, 0, 0, 0, 0, 0, 0, 0, 0, 0, 0, 0, 0, 0, 0, 0, 0, 0, 0, 0, 0, 0, 0, 0, 0, 0, 0, 0, 0, 0, 0, 0, 0, 0, 0, 0, 0, 0, 0, 0, 0, 0, 0, 0, 0, 0, 0, 174, 253, 187, 132, 80, 142, 120, 149, 96, 228, 178, 17, 70, 146, 185, 95, 10, 113, 184, 65, 238, 25, 46, 173, 31, 30, 232, 103, 107, 110, 233, 113]

theorem imgFlash_identity : identityOk imgFlash = true := by
  have h : crc32 (imgFlash.take 0x7C) = 0xab636239#32 := by
    rw [show imgFlash.take 0x7C = ((imgFlash.drop 0).take 31) ++ (((imgFlash.drop 31).take 31) ++ (((imgFlash.drop 62).take 31) ++ ((imgFlash.drop 93).take 31))) by decide +kernel]
    simp only [crc32, List.foldl_append]
    rw [show ((imgFlash.drop 0).take 31).foldl crcByte (BitVec.allOnes 32) = 0x8c86b81b#32 by decide +kernel, show ((imgFlash.drop 31).take 31).foldl crcByte 0x8c86b81b#32 = 0xbf2d7b55#32 by decide +kernel, show ((imgFlash.drop 62).take 31).foldl crcByte 0xbf2d7b55#32 = 0x93d1f246#32 by decide +kernel, show ((imgFlash.drop 93).take 31).foldl crcByte 0x93d1f246#32 = 0x549c9dc6#32 by decide +kernel]
    decide
  simp only [identityOk, h]
  decide +kernel

theorem imgFlash_check : flashCheck { Nv.reset with keys := [(0, { state := 1, copy1 := 1, copy2 := 1, key := [5] })] } imgFlash = 0 := by
  simp only [flashCheck, imgFlash_identity]
  decide +kernel

/-! ### Words and numbers worked in the manual -/

/-- An ill-formed register write: an address that is not a multiple of 4 (R18). -/
theorem test_wf_refuses_registerWrite : (Instr.registerWrite 0x1#40 0).wf = false ∧ (Instr.registerWrite 0x4#40 0).wf = true := by decide
/-- An aperture write within a word (R3). -/
theorem test_wf_refuses_apertureWrite : (Instr.apertureWrite 0x2#21 0).wf = false := by decide
/-- A host request beyond BAR0, and one within a word (R347). -/
theorem test_wf_refuses_pcieRequest : (Instr.pcieRequest false true 0x1000000#28 0).wf = false ∧ (Instr.pcieRequest true true 0x1000000#28 0).wf = true ∧
    (Instr.pcieRequest true true 0x6#28 0).wf = false := by decide
/-- A merge-buffer entry that lies within a code word's half (R307). -/
theorem test_wf_refuses_mergeFlush : (Instr.mergeFlush 0 0x2#40).wf = false := by decide
/-- A frame of more bits than a lane shifts in (R174). -/
theorem test_wf_refuses_lvdsFrame : (Instr.lvdsFrame 0 33 0).wf = false ∧ (Instr.lvdsFrame 0 32 0).wf = true := by decide
/-- A console body and an Ethernet frame that are too long (R364, R398). -/
theorem test_wf_refuses_frames : (Instr.consoleFrame (List.replicate 4165 0)).wf = false ∧ (Instr.rxFrame 0 (List.replicate 65536 0) true).wf = false := by
  simp only [Instr.wf, List.length_replicate]; decide

/-- Context 4 of the Park tail (Table 04-11) by its fields. -/
def park4 : Ctx :=
  { op := 0x2B, mode := 3, sa := 0, sb := 0, sc := 0, dst := 0, shf := 0b110010, sat := 1, acc := 3, psel := 0, circ := 0, pstep := 0, imm := 0, next := 5,
    seq := 0, cond := 0, lvl := 0, qp := 0, role := 2, sout := 4, sch := 2, tok := 0, loff := 0, rsv := 0 }
/-- Tap 0 of the front end's FIR (04_context_words.md) by its fields. -/
def firTap0 : Ctx :=
  { op := 0x21, mode := 3, sa := 0x1C, sb := 0, sc := 0x15, dst := 0, shf := 0, sat := 0, acc := 3, psel := 0, circ := 1, pstep := 0xF, imm := 0, next := 10,
    seq := 0, cond := 0, lvl := 0, qp := 0, role := 0, sout := 0, sch := 0, tok := 0, loff := 4, rsv := 0 }

/-- Table 04-12, context 4. -/
theorem test_word_park4 : Ctx.decode (Ctx.ofWords 0 0x05002420 0x0CB80000 0x2B300000) = park4 ∧ park4.wf = true := by decide
/-- Table 04-12, contexts 2 and 3: the fields that differ. -/
theorem test_word_park2 : Ctx.decode (Ctx.ofWords 0 0x03002000 0x00180000 0x26380008) =
    { park4 with op := 0x26, sa := 0x20, sc := 2, shf := 0, sat := 0, next := 3, sout := 0, sch := 0 } := by decide
theorem test_word_park3 : Ctx.decode (Ctx.ofWords 0 0x06002000 0x00180000 0x2738400C) =
    { park4 with op := 0x27, sa := 0x21, sc := 3, shf := 0, sat := 0, next := 6, sout := 0, sch := 0 } := by decide
/-- The FIR's tap 0. -/
theorem test_word_firTap0 : Ctx.decode (Ctx.ofWords 0x00400000 0x0A000000 0x0019F000 0x21370054) = firTap0 ∧ firTap0.wf = true := by decide
/-- Malformed words (R97): a reserved opcode, mode and select code, SEQ 7, reserved bits, an offer without a result. -/
theorem test_word_malformed : ({ park4 with op := 0x2C } : Ctx).wf = false ∧ ({ park4 with mode := 5 } : Ctx).wf = false ∧
    ({ firTap0 with sa := 0x1E } : Ctx).wf = false ∧ ({ park4 with seq := 7 } : Ctx).wf = false ∧ ({ park4 with rsv := 1 } : Ctx).wf = false ∧
    ({ firTap0 with sout := 4 } : Ctx).wf = false ∧ ({ park4 with dst := 0x1B } : Ctx).wf = false ∧ ({ park4 with sch := 8 } : Ctx).wf = false ∧
    ({ park4 with role := 2, qp := 1 } : Ctx).wf = false ∧ ({ park4 with acc := 0 } : Ctx).wf = false := by decide

/-- TRAP 0x42 and the STMASK of 09_control_cores.md, and the system words of Table 09-7. -/
theorem test_word_core : fmtS 0 0 0x42 = 0xFF000042#32 ∧ fmtI 0x1D 24 14 0x10 = 0x1DC38010#32 ∧ fmtS 2 0 0 = 0xFF200000#32 ∧ fmtS 0xD 0 0 = 0xFFD00000#32 := by decide
/-- Reserved OP, FN and SUB codes encode nothing; a listed one encodes itself (R258). -/
theorem test_word_core_reserved : coreWord 0x0A000000#32 = none ∧ coreWord 0x00000014#32 = none ∧ coreWord 0xFFE00000#32 = none ∧
    coreWord 0x00000010#32 = some 0x00000010#32 := by decide

/-- The routes between NI 2 and NI 33 of 11_packet_network_dma.md. -/
theorem test_word_route : routeCodes 0x141#32 0x80000003#32 = [1, 0, 5] ∧ defaultRoute 2 33 = [1, 0, 5] ∧ routeCodes 0x113#32 0x80000003#32 = [3, 2, 4] ∧
    defaultRoute 33 2 = [3, 2, 4] ∧ routeOk 2 33 0x141#32 0x80000003#32 = true := by decide
/-- Routes that R282 refuses: no code, a reserved code, an early ejection, a W after another direction. -/
theorem test_word_route_refused : routeOk 2 33 0x141#32 0#32 = false ∧ routeOk 2 33 0x147#32 3#32 = false ∧ routeOk 2 33 0x161#32 3#32 = false ∧
    routeOk 33 2 (w32 (2 + 3 * 8 + 4 * 64)) 3#32 = false := by decide

/-- The example of R70: EXP 18 and NORM 0x48D0_0000. -/
theorem test_exp_norm : expCount 32 0x1234 = 18 ∧ normWord { a := 0x1234, b := 0, c := 0, acc0 := 0, acc1 := 0, sa := 0, flg := 0, x := [] } = 0x48D00000#32 := by decide
/-- The cadence of R45: five steps leave ACC at 36,480, the sixth gives 107,375. -/
theorem test_cadence : cadStep 107374 7296 40000 29184 = (36480, 107374) ∧ cadStep 107374 7296 40000 36480 = (3776, 107375) := by decide
/-- The cadence of a 1 ms cycle (15_ouvtan_commands.md). -/
theorem test_cycle : cycleCad 1000000 = (4294967, 37, 125) := by decide +kernel
/-- The Park tail's accumulators narrowed (04_context_words.md): 0x1000 and 0xE449, nothing saturates. -/
theorem test_park_narrow : narrow 16 true (-14) true 67108864 = { x := 0x1000, v := false, sat := false } ∧
    narrow 16 true (-14) true (-116232192) = { x := -7095, v := false, sat := false } := by decide
/-- The oldest live window of 09_control_cores.md: its k registers are 112 to 119, its a registers 104 to 111. -/
theorem test_window : windowReg 7 8 = 112 ∧ windowReg 7 15 = 119 ∧ windowReg 7 16 = 104 ∧ windowReg 7 23 = 111 := by decide
/-- The bank of the address of 13_dram_controller.md: bank group 3, bank 3 with BXOR. -/
theorem test_dram_address : ((setRegs [(DC_MAP, 0x34#32), (DC_CHc_CFG 0, 0x3AB#32), (DC_CHc_CFG 1, 0x3AB#32)] Dev.reset).bankOf 0 0x91A567) = 15 := by decide +kernel

theorem test_meets_AngleLoadsAndCounters_1 : ∃ (n : Fin 8) (d : Dev), ((n.val = 7 → 0 < (d.rd64 (AU_ADn_SET_LO 7) (AU_ADn_SET_HI 7) - d.stamp 7).toInt)) :=
  ⟨0, Dev.reset, by decide⟩

theorem test_meets_AngleLoadsAndCounters_2 : ∃ (d : Dev), (¬ 0 < (d.rd64 (AU_ADn_SET_LO 7) (AU_ADn_SET_HI 7) - d.stamp 7).toInt) :=
  ⟨Dev.reset, by decide⟩

theorem test_meets_AngleLoadsAndCounters_3 : ∃ (n : Fin 8) (d : Dev), (n.val ≠ 7) :=
  ⟨3, Dev.reset, by decide⟩

theorem test_meets_AngleLoadsAndCounters_6 : ∃ (n : Fin 8) (d : Dev), (d.adOn n = false) ∧ (d.adCfgOk n = true) :=
  ⟨0, Dev.reset, by decide⟩

theorem test_meets_AngleLoadsAndCounters_7 : ∃ (n : Fin 8) (d : Dev), (d.adOn n = false) ∧ (d.adCfgOk n = false) :=
  ⟨0, setRegs [(AU_ADn_CFG 0, 7)] Dev.reset, by decide⟩

theorem test_meets_AngleLoadsAndCounters_8 : ∃ (n : Fin 8) (d : Dev), (n.val ≠ 7) :=
  ⟨3, Dev.reset, by decide⟩

theorem test_meets_MeasurementsReachTheTracker_1 : ∃ (n : Fin 8) (d : Dev), (n.val ≠ 7) ∧ (d.adOn n = true) ∧ (d.rd (AU_ADn_CFG_SRC n) = 1) ∧ ((d.ad n).lastLatch + max 1 (d.rd (AU_ADn_TRK_MPER n)) ≤ d.now) :=
  ⟨0, { setRegs [(AU_CTRL, 0x81), (AU_ADn_CFG 0, 1)] Dev.reset with now := 64 }, by decide⟩

theorem test_meets_MeasurementsReachTheTracker_2 : ∃ (d : Dev), (d.ethUp = true) ∧ ((d.ad 7).lastLatch + max 1 (d.rd (AU_ADn_TRK_MPER 7)) ≤ d.now) :=
  ⟨{ setRegs [(PC_DOMUP0 + 12, 0xFFFFFFFF)] Dev.reset with now := 64 }, by decide⟩

theorem test_meets_MeasurementsReachTheTracker_3 : ∃ (n : Fin 8) (m : Meas) (ms : List Meas) (th : BitVec 80) (d : Dev), (n.val ≠ 7) ∧ ((d.ad n).inFlight = m :: ms) ∧ (m.at_ ≤ d.now) ∧ (m.valid = true) ∧ (m.isErr = false) ∧ ((m.latch = some th ∨ (m.latch = none ∧ d.thetaAt n m.at_ = some th))) ∧ ((d.rd (AU_ADn_WIN_WIN n) = 0 ∨ (m.value - th).toInt.natAbs ≤ d.rd (AU_ADn_WIN_WIN n) * 2 ^ 16)) :=
  ⟨0, { at_ := 0, valid := true, value := 5, isErr := false, latch := some 3 }, [], 3, Dev.reset.setAd 0 { Tracker.reset with inFlight := [{ at_ := 0, valid := true, value := 5, isErr := false, latch := some 3 }] }, by decide⟩

theorem test_meets_MeasurementsReachTheTracker_4 : ∃ (n : Fin 8) (m : Meas) (ms : List Meas) (th : BitVec 80) (d : Dev), (n.val ≠ 7) ∧ ((d.ad n).inFlight = m :: ms) ∧ (m.at_ ≤ d.now) ∧ (m.valid = true) ∧ (m.isErr = false) ∧ ((m.latch = some th ∨ (m.latch = none ∧ d.thetaAt n m.at_ = some th))) ∧ (d.rd (AU_ADn_WIN_WIN n) ≠ 0) ∧ (d.rd (AU_ADn_WIN_WIN n) * 2 ^ 16 < (m.value - th).toInt.natAbs) ∧ (d.rd (AU_ADn_CNT_REJ n) < 65535) :=
  ⟨0, { at_ := 0, valid := true, value := 0x100000, isErr := false, latch := some 0 }, [], 0, (setRegs [(AU_ADn_WIN 0, 1)] Dev.reset).setAd 0 { Tracker.reset with inFlight := [{ at_ := 0, valid := true, value := 0x100000, isErr := false, latch := some 0 }] }, by decide⟩

theorem test_meets_MeasurementsReachTheTracker_5 : ∃ (n : Fin 8) (m : Meas) (ms : List Meas) (d : Dev), (n.val ≠ 7) ∧ ((d.ad n).inFlight = m :: ms) ∧ (m.at_ ≤ d.now) ∧ (m.valid = false) ∧ (d.rd (AU_ADn_CNT_MISS n) < 65535) :=
  ⟨0, { at_ := 0, valid := false, value := 5, isErr := false, latch := none }, [], Dev.reset.setAd 0 { Tracker.reset with inFlight := [{ at_ := 0, valid := false, value := 5, isErr := false, latch := none }] }, by decide⟩

theorem test_meets_MeasurementsReachTheTracker_6 : ∃ (n : Fin 8) (due : BitVec 80) (d : Dev), (d.adOn n = true) ∧ (d.rd (AU_ADn_CFG_SRC n) = 5) ∧ ((d.ad n).markDue = some due) ∧ (0 ≤ (d.ad n).omega.toInt) ∧ (atOrPast false (d.ad n).theta (due + BitVec.ofInt 80 ((2 ^ 47 / d.rd (AU_ADn_CPR_CPR n) : Nat) : Int)) = true) ∧ (d.rd (AU_ADn_CNT_MISS n) < 65535) :=
  ⟨0, 0, (setRegs [(AU_CTRL, 0x81), (AU_ADn_CFG 0, 5), (AU_ADn_CPR 0, 1)] Dev.reset).setAd 0 { Tracker.reset with markDue := some 0, theta := BitVec.ofNat 80 (2 ^ 48) }, by decide⟩

theorem test_meets_MeasurementsReachTheTracker_7 : ∃ (m : Meas) (ms : List Meas) (th : BitVec 80) (d : Dev), (d.on (AU_ADn_STAT_UNSYNC 7) = false) ∧ ((d.ad 7).inFlight = m :: ms) ∧ (m.valid = true) ∧ (d.thetaAt 7 m.at_ = some th) ∧ (((d.rd (AU_ADn_ZOFF_ZOFF 7) * 2 ^ 48 : Nat) : Int) < (m.value - th).toInt * 1000000) :=
  ⟨{ at_ := 0, valid := true, value := BitVec.ofNat 80 (2 ^ 48), isErr := false, latch := none }, [], 0, (setRegs [(AU_ADn_STAT 7, 0)] Dev.reset).setAd 7 { Tracker.reset7 with inFlight := [{ at_ := 0, valid := true, value := BitVec.ofNat 80 (2 ^ 48), isErr := false, latch := none }] }, by decide⟩

theorem test_meets_EventTableInsertion_1 : ∃ (p : Fin 8) (l : Fin 64) (d : Dev), (d.on (ET_INSp_STAT_BUSY p) = false) :=
  ⟨2, 5, Dev.reset, by decide⟩

theorem test_meets_EventTableInsertion_2 : ∃ (p : Fin 8) (l : Fin 64) (d : Dev), (d.on (ET_INSp_STAT_BUSY p) = true) :=
  ⟨2, 5, setRegs [(ET_INSp_STAT 2, 1)] Dev.reset, by decide⟩

theorem test_meets_EventTableInsertion_3 : ∃ (p : Fin 8) (l : Nat) (d : Dev), (d.on (ET_INSp_STAT_BUSY p) = true) ∧ (d.rd (ET_INSp_CTL_LIST p) = l) ∧ (d.insertCheck (d.reg (ET_INSp_W1 p)) (d.reg (ET_INSp_W2 p)) (d.reg (ET_INSp_W3 p)) l = 0) ∧ (d.rd (ET_LSTATl_COUNT l) < 65535) :=
  ⟨0, 7, setRegs [(ET_INSp_STAT 0, 1), (ET_INSp_CTL 0, 7), (ET_INSp_W0 0, 5), (ET_INSp_W1 0, 0x100), (ET_LCFGl 7, 1)] Dev.reset, by decide⟩

theorem test_meets_EventTableInsertion_4 : ∃ (p : Fin 8) (r : Nat) (d : Dev), (d.on (ET_INSp_STAT_BUSY p) = true) ∧ (d.insertCheck (d.reg (ET_INSp_W1 p)) (d.reg (ET_INSp_W2 p)) (d.reg (ET_INSp_W3 p)) (d.rd (ET_INSp_CTL_LIST p)) = r) ∧ (r ≠ 0) :=
  ⟨0, 3, setRegs [(ET_INSp_STAT 0, 1), (ET_INSp_CTL 0, 7)] Dev.reset, by decide⟩

theorem test_meets_EventTableInsertion_5 : ∃ (i : Fin 32768) (d : Dev), (d.on ET_DEL_STAT_BUSY = false) :=
  ⟨9, Dev.reset, by decide⟩

theorem test_meets_EventTableInsertion_6 : ∃ (i : Nat) (x : EtEntry) (d : Dev), (d.on ET_DEL_STAT_BUSY = true) ∧ (d.rd ET_DEL_IDX = i) ∧ (d.ang.reins.contains i = false) ∧ (d.entry i = some x) ∧ ((d.list x.list).head? ≠ some i ∨ d.canIssue x.list = false ∨ d.issueSlot x.list = false) :=
  ⟨4, { w0 := 0x10, w1 := 0x2100, w2 := 3, w3 := 0 }, (setRegs [(ET_DEL, 4), (ET_DEL_STAT, 1)] Dev.reset).setEntry 4 (some { w0 := 0x10, w1 := 0x2100, w2 := 3, w3 := 0 }), by decide⟩

theorem test_meets_EventTableInsertion_7 : ∃ (i : Nat) (d : Dev), (d.on ET_DEL_STAT_BUSY = true) ∧ (d.rd ET_DEL_IDX = i) ∧ (d.ang.reins.contains i = false) ∧ (d.entry i = none) :=
  ⟨4, setRegs [(ET_DEL, 4), (ET_DEL_STAT, 1)] Dev.reset, by decide⟩

theorem test_meets_EventTableIssue_1 : ∃ (l : Fin 64) (i : Nat) (x : EtEntry) (d : Dev), (d.canIssue l = true) ∧ (d.issueSlot l = true) ∧ ((d.list l).head? = some i) ∧ (d.entry i = some x) ∧ (x.list = l.val) ∧ ((d.readEntry i).1 = false) ∧ (x.per = false) :=
  ⟨0, 4, { w0 := 0x10, w1 := 0x2100, w2 := 3, w3 := 0 }, ((setRegs [(ET_LCFGl 0, 0xF)] Dev.reset).setEntry 4 (some { w0 := 0x10, w1 := 0x2100, w2 := 3, w3 := 0 })).setList 0 [4], by decide⟩

theorem test_meets_EventTableIssue_2 : ∃ (l : Fin 64) (i : Nat) (x : EtEntry) (st : Nat × Nat) (d : Dev), (d.canIssue l = true) ∧ (d.issueSlot l = true) ∧ ((d.list l).head? = some i) ∧ (d.entry i = some x) ∧ ((d.readEntry i).1 = false) ∧ (x.per = true) ∧ (st = cadStep (d.rd (ET_CADc_Q_Q x.cad)) (d.rd (ET_CADc_N_N x.cad)) (d.rd (ET_CADc_D_D x.cad)) (d.rd (ET_CADc_ACC_ACC x.cad))) :=
  ⟨0, 4, { w0 := 0x10, w1 := 0x53100, w2 := 3, w3 := 0 }, (3, 7), ((setRegs [(ET_LCFGl 0, 0xF), (ET_CADc_Q 5, 7), (ET_CADc_N 5, 3), (ET_CADc_D 5, 8)] Dev.reset).setEntry 4 (some { w0 := 0x10, w1 := 0x53100, w2 := 3, w3 := 0 })).setList 0 [4], by decide⟩

theorem test_meets_EventTableIssue_3 : ∃ (l : Fin 64) (i : Nat) (d : Dev), (d.canIssue l = true) ∧ (d.issueSlot l = true) ∧ ((d.list l).head? = some i) ∧ ((d.readEntry i).1 = true) :=
  ⟨0, 4, { ((setRegs [(ET_LCFGl 0, 0xF)] Dev.reset).setEntry 4 (some { w0 := 0x10, w1 := 0x2100, w2 := 3, w3 := 0 })).setList 0 [4] with integ := { Integ.reset with ecc := [(0x41000040, 3)] } }, by decide⟩

theorem test_meets_EventTableIssue_4 : ∃ (i : Fin 32768) (x : EtEntry) (d : Dev), (d.ang.reins.contains i.val = true) ∧ (d.entry i = some x) ∧ (¬ (d.on ET_DEL_STAT_BUSY = true ∧ d.rd ET_DEL_IDX = i.val)) :=
  ⟨4, { w0 := 0x10, w1 := 0x53100, w2 := 3, w3 := 0 }, (Dev.reset.setEntry 4 (some { w0 := 0x10, w1 := 0x53100, w2 := 3, w3 := 0 })) |> fun d => { d with ang := { d.ang with reins := [4] } }, by decide⟩

theorem test_meets_EventTableIssue_5 : ∃ (i : Fin 32768) (x : EtEntry) (d : Dev), (d.ang.reins.contains i.val = true) ∧ (d.entry i = some x) ∧ (d.on ET_DEL_STAT_BUSY = true) ∧ (d.rd ET_DEL_IDX = i.val) :=
  ⟨4, { w0 := 0x10, w1 := 0x53100, w2 := 3, w3 := 0 }, ((setRegs [(ET_DEL, 4), (ET_DEL_STAT, 1)] Dev.reset).setEntry 4 (some { w0 := 0x10, w1 := 0x53100, w2 := 3, w3 := 0 })) |> fun d => { d with ang := { d.ang with reins := [4] } }, by decide⟩

theorem test_meets_ActionsTakeEffect_1 : ∃ (a : Action) (as : List Action) (d : Dev), (d.ang.acts = a :: as) ∧ (a.act = 1) ∧ (a.tv = false) ∧ (a.tf ≤ d.now) ∧ (d.landfallWaits = false) ∧ (d.isleLive (wbits a.arg0 6 0) = true) :=
  ⟨{ act := 1, arg0 := 0x205, arg1 := 0, list := 0, stamp := 0, late := false, tf := 4 }, [], { (setRegs [(PC_DOMUP0, 0xFFFFFFFF)] Dev.reset) with now := 4, ang := { (setRegs [(PC_DOMUP0, 0xFFFFFFFF)] Dev.reset).ang with acts := [{ act := 1, arg0 := 0x205, arg1 := 0, list := 0, stamp := 0, late := false, tf := 4 }] } }, by decide⟩

theorem test_meets_ActionsTakeEffect_2 : ∃ (a : Action) (as : List Action) (d : Dev), (d.ang.acts = a :: as) ∧ (a.act = 1) ∧ (a.tv = false) ∧ (a.tf ≤ d.now) ∧ (d.landfallWaits = false) ∧ (d.isleLive (wbits a.arg0 6 0) = false) ∧ (d.rd ET_STAT_DROP < 65535) :=
  ⟨{ act := 1, arg0 := 0x205, arg1 := 0, list := 0, stamp := 0, late := false, tf := 4 }, [], { (Dev.reset) with now := 4, ang := { (Dev.reset).ang with acts := [{ act := 1, arg0 := 0x205, arg1 := 0, list := 0, stamp := 0, late := false, tf := 4 }] } }, by decide⟩

theorem test_meets_ActionsTakeEffect_3 : ∃ (a : Action) (as : List Action) (d : Dev), (d.ang.acts = a :: as) ∧ (a.act = 2) ∧ (a.tv = false) ∧ (a.tf ≤ d.now) ∧ (d.landfallWaits = false) ∧ (d.hb.loading = false) :=
  ⟨{ act := 2, arg0 := 0x10003, arg1 := 0, list := 0, stamp := 0, late := false, tf := 4 }, [], { (setRegs [(HP_ENCe_CFG 1, 0x301), (HP_ENCe_CNT 1, 77)] Dev.reset) with now := 4, ang := { (setRegs [(HP_ENCe_CFG 1, 0x301), (HP_ENCe_CNT 1, 77)] Dev.reset).ang with acts := [{ act := 2, arg0 := 0x10003, arg1 := 0, list := 0, stamp := 0, late := false, tf := 4 }] } }, by decide⟩

theorem test_meets_ActionsTakeEffect_4 : ∃ (a : Action) (as : List Action) (p k : Nat) (x : PwmPair) (d : Dev), (d.ang.acts = a :: as) ∧ (a.act = 3) ∧ (a.tf ≤ d.now) ∧ (d.landfallWaits = false) ∧ (wbits a.arg0 5 0 = p) ∧ (d.pair p = x) ∧ (d.hb.loading = false) ∧ (x.held = false) ∧ (x.edges.length + x.acted.length < 4) ∧ (k = (if wbit a.arg0 9 = true then (if wbit a.arg0 8 = true then wbits (d.cmdBefore p) 31 16 else wbits (d.cmdBefore p) 15 0) else 0)) ∧ (x.acted.any (fun q => 8 * (a.tf - 1) + d.edgeEighth a + k ≤ q.at_) = false) :=
  ⟨{ act := 3, arg0 := 0x202, arg1 := 0, list := 0, stamp := 0, late := false, tf := 4 }, [], 2, 0x140, PwmPair.reset, { (setRegs [(PW_PAIRp_CMD 2, 0x02000140)] Dev.reset) with now := 4, ang := { (setRegs [(PW_PAIRp_CMD 2, 0x02000140)] Dev.reset).ang with acts := [{ act := 3, arg0 := 0x202, arg1 := 0, list := 0, stamp := 0, late := false, tf := 4 }] } }, by decide⟩

theorem test_meets_ActionsTakeEffect_5 : ∃ (a : Action) (as : List Action) (d : Dev), (d.ang.acts = a :: as) ∧ (a.act = 3) ∧ (a.tf ≤ d.now) ∧ (d.landfallWaits = false) ∧ ((d.pair (wbits a.arg0 5 0)).held = true) ∧ (d.rd ET_STAT_DROP < 65535) :=
  ⟨{ act := 3, arg0 := 0x202, arg1 := 0, list := 0, stamp := 0, late := false, tf := 4 }, [], { (Dev.reset.setPair 2 { PwmPair.reset with held := true }) with now := 4, ang := { (Dev.reset.setPair 2 { PwmPair.reset with held := true }).ang with acts := [{ act := 3, arg0 := 0x202, arg1 := 0, list := 0, stamp := 0, late := false, tf := 4 }] } }, by decide⟩

theorem test_meets_ActionsTakeEffect_6 : ∃ (a : Action) (as : List Action) (d : Dev), (d.ang.acts = a :: as) ∧ (a.act = 4) ∧ (a.tf ≤ d.now) ∧ (d.landfallWaits = false) ∧ (d.ethUp = true) :=
  ⟨{ act := 4, arg0 := 0x7F01, arg1 := 0, list := 0, stamp := 0, late := false, tf := 4 }, [], { (setRegs [(PC_DOMUP0 + 12, 0xFFFFFFFF)] Dev.reset) with now := 4, ang := { (setRegs [(PC_DOMUP0 + 12, 0xFFFFFFFF)] Dev.reset).ang with acts := [{ act := 4, arg0 := 0x7F01, arg1 := 0, list := 0, stamp := 0, late := false, tf := 4 }] } }, by decide⟩

theorem test_meets_ActionsTakeEffect_7 : ∃ (a : Action) (as : List Action) (d : Dev), (d.ang.acts = a :: as) ∧ (a.act = 4) ∧ (a.tf ≤ d.now) ∧ (d.landfallWaits = false) ∧ (d.ethUp = false) ∧ (d.rd ET_STAT_DROP < 65535) :=
  ⟨{ act := 4, arg0 := 0x7F01, arg1 := 0, list := 0, stamp := 0, late := false, tf := 4 }, [], { (Dev.reset) with now := 4, ang := { (Dev.reset).ang with acts := [{ act := 4, arg0 := 0x7F01, arg1 := 0, list := 0, stamp := 0, late := false, tf := 4 }] } }, by decide⟩

theorem test_meets_ActionsTakeEffect_8 : ∃ (a : Action) (as : List Action) (d : Dev), (d.ang.acts = a :: as) ∧ (a.act = 5) ∧ (a.tf ≤ d.now) ∧ (d.landfallWaits = false) ∧ (wbits a.arg0 7 0 < 4) ∧ (d.on (DM_ENGe_CFG_EN (wbits a.arg0 7 0)) = true) ∧ ((d.dmaQueue (wbits a.arg0 7 0)).length < 8) :=
  ⟨{ act := 5, arg0 := 0x1102, arg1 := 0, list := 0, stamp := 0, late := false, tf := 4 }, [], { (setRegs [(DM_ENGe_CFG 2, 1)] Dev.reset) with now := 4, ang := { (setRegs [(DM_ENGe_CFG 2, 1)] Dev.reset).ang with acts := [{ act := 5, arg0 := 0x1102, arg1 := 0, list := 0, stamp := 0, late := false, tf := 4 }] } }, by decide⟩

theorem test_meets_ActionsTakeEffect_9 : ∃ (a : Action) (as : List Action) (n : Nat) (d : Dev), (d.ang.acts = a :: as) ∧ (a.act = 5) ∧ (a.tf ≤ d.now) ∧ (d.landfallWaits = false) ∧ (wbits a.arg0 7 0 = 128 + n) ∧ (d.isleLive n = true) ∧ ((d.isle n).sq.length < 4) :=
  ⟨{ act := 5, arg0 := 0x1183, arg1 := 0, list := 0, stamp := 0, late := false, tf := 4 }, [], 3, { (setRegs [(PC_DOMUP0, 0xFFFFFFFF)] Dev.reset) with now := 4, ang := { (setRegs [(PC_DOMUP0, 0xFFFFFFFF)] Dev.reset).ang with acts := [{ act := 5, arg0 := 0x1183, arg1 := 0, list := 0, stamp := 0, late := false, tf := 4 }] } }, by decide⟩

theorem test_meets_ActionsTakeEffect_10 : ∃ (a : Action) (as : List Action) (d : Dev), (d.ang.acts = a :: as) ∧ (a.act = 6) ∧ (a.tf ≤ d.now) ∧ (d.landfallWaits = false) ∧ (d.schedIn.length < 64) ∧ (d.schedWait = []) :=
  ⟨{ act := 6, arg0 := 0x102, arg1 := 0x80000005, list := 0, stamp := 0, late := false, tf := 4 }, [], { (Dev.reset) with now := 4, ang := { (Dev.reset).ang with acts := [{ act := 6, arg0 := 0x102, arg1 := 0x80000005, list := 0, stamp := 0, late := false, tf := 4 }] } }, by decide⟩

theorem test_meets_ActionsTakeEffect_11 : ∃ (a : Action) (as : List Action) (n q : Nat) (d : Dev), (d.ang.acts = a :: as) ∧ (a.act = 7) ∧ (a.tf ≤ d.now) ∧ (d.landfallWaits = false) ∧ (wbits a.arg0 5 0 = n) ∧ (wbits a.arg0 15 8 = q) ∧ (d.niClosed n = false) :=
  ⟨{ act := 7, arg0 := 0x219, arg1 := 0x80000005, list := 0, stamp := 0, late := false, tf := 4 }, [], 25, 2, { (setRegs [(PC_DOMUP0 + 12, 0xF)] Dev.reset) with now := 4, ang := { (setRegs [(PC_DOMUP0 + 12, 0xF)] Dev.reset).ang with acts := [{ act := 7, arg0 := 0x219, arg1 := 0x80000005, list := 0, stamp := 0, late := false, tf := 4 }] } }, by decide⟩

theorem test_meets_ActionsTakeEffect_12 : ∃ (a : Action) (as : List Action) (d : Dev), (d.ang.acts = a :: as) ∧ (a.act = 7) ∧ (a.tf ≤ d.now) ∧ (d.landfallWaits = false) ∧ (d.niClosed (wbits a.arg0 5 0) = true) ∧ (d.rd ET_STAT_DROP < 65535) :=
  ⟨{ act := 7, arg0 := 0x59, arg1 := 0x80000005, list := 0, stamp := 0, late := false, tf := 4 }, [], { (Dev.reset) with now := 4, ang := { (Dev.reset).ang with acts := [{ act := 7, arg0 := 0x59, arg1 := 0x80000005, list := 0, stamp := 0, late := false, tf := 4 }] } }, by decide⟩

theorem test_meets_ModeChangeArmed_1 : ∃ (s n : Fin 8) (d : Dev), (d.rd (AU_MCs_STAT_STATE s) ≠ 1) ∧ (d.rd (AU_MCs_STAT_STATE s) ≠ 2) :=
  ⟨3, 2, setRegs [(AU_MCs_LF_LO 3, 5), (AU_MCs_ACK 3, 0x10002), (AU_MCs_STAT 3, 0x344)] Dev.reset, by decide⟩

theorem test_meets_ModeChangeArmed_2 : ∃ (s n : Fin 8) (d : Dev), (d.rd (AU_MCs_STAT_STATE s) = 1 ∨ d.rd (AU_MCs_STAT_STATE s) = 2) :=
  ⟨3, 2, setRegs [(AU_MCs_STAT 3, 2)] Dev.reset, by decide⟩

theorem test_meets_ModeChangeArmed_3 : ∃ (n : Fin 8) (l : BitVec 80) (d : Dev), (isLandfall (d.lfPeriod n) l = true) ∧ (d.checkPassed n l = false) :=
  ⟨2, BitVec.ofNat 80 (2 ^ 48), Dev.reset, by decide⟩

theorem test_meets_ModeChangeArmed_4 : ∃ (n : Fin 8) (l : BitVec 80) (d : Dev), (isLandfall (d.lfPeriod n) l = false) ∧ (d.checkPassed n (lfNext (d.adRev n) (d.lfPeriod n) l) = false) :=
  ⟨2, BitVec.ofNat 80 (2 ^ 48 + 5), Dev.reset, by decide⟩

theorem test_meets_ModeChangeArmed_5 : ∃ (n : Fin 8) (l : BitVec 80) (d : Dev), (isLandfall (d.lfPeriod n) l = true) ∧ (d.checkPassed n l = true) :=
  ⟨2, 0, Dev.reset, by decide⟩

theorem test_meets_ModeChangeArmed_6 : ∃ (n : Fin 8) (l : BitVec 80) (d : Dev), (isLandfall (d.lfPeriod n) l = false) ∧ (d.checkPassed n (lfNext (d.adRev n) (d.lfPeriod n) l) = true) :=
  ⟨2, BitVec.ofNat 80 (2 ^ 80 - 2 ^ 48 - 1), Dev.reset, by decide⟩

theorem test_meets_ModeChangeArmed_7 : ∃ (n : Fin 8) (l th : BitVec 80) (d : Dev), (d.adOn n = true) ∧ ((d.ad n).hist[0]? = some th) :=
  ⟨7, 0, 99, Dev.reset.setAd 7 { Tracker.reset7 with hist := [99#80] }, by decide⟩

theorem test_meets_ModeChangeDecided_1 : ∃ (s : Fin 8) (d : Dev), (d.rd (AU_MCs_STAT_STATE s) = 1) ∧ (d.checkReached (d.rd (AU_MCs_CTL_DOM s)) (d.mcTarget s) = true) ∧ (d.mcPasses s = true) ∧ ((d.ad (d.rd (AU_MCs_CTL_DOM s))).lfDone = false) :=
  ⟨3, (setRegs [(AU_MCs_CTL 3, 2), (AU_MCs_LF_HI 3, 0), (AU_MCs_STAT 3, 1), (AU_MCs_ACK 3, 0x20002)] Dev.reset), by decide⟩

theorem test_meets_ModeChangeDecided_2 : ∃ (s : Fin 8) (p : Nat) (l : BitVec 80) (d : Dev), (d.rd (AU_MCs_STAT_STATE s) = 1) ∧ (d.checkReached (d.rd (AU_MCs_CTL_DOM s)) (d.mcTarget s) = true) ∧ (d.mcPasses s = false) ∧ (d.rd (AU_MCs_STAT_PPN s) = p) ∧ (p < 8) ∧ (l = lfNext (d.adRev (d.rd (AU_MCs_CTL_DOM s))) (d.lfPeriod (d.rd (AU_MCs_CTL_DOM s))) (d.mcTarget s)) ∧ (d.checkReached (d.rd (AU_MCs_CTL_DOM s)) l = false) :=
  ⟨3, 0, BitVec.ofNat 80 (2 ^ 48), (setRegs [(AU_MCs_CTL 3, 2), (AU_MCs_LF_HI 3, 0), (AU_MCs_STAT 3, 1), (AU_MCs_ACK 3, 0x00002)] Dev.reset), by decide⟩

theorem test_meets_ModeChangeDecided_3 : ∃ (s : Fin 8) (d : Dev), (d.rd (AU_MCs_STAT_STATE s) = 1) ∧ (d.checkReached (d.rd (AU_MCs_CTL_DOM s)) (d.mcTarget s) = true) ∧ (d.mcPasses s = false) ∧ (8 ≤ d.rd (AU_MCs_STAT_PPN s)) :=
  ⟨3, (setRegs [(AU_MCs_CTL 3, 2), (AU_MCs_LF_HI 3, 0), (AU_MCs_STAT 3, 0x81), (AU_MCs_ACK 3, 0x00002)] Dev.reset), by decide⟩

theorem test_meets_ModeChangeDecided_4 : ∃ (s : Fin 8) (a : Nat) (rest : List (Nat × Nat)) (g : Nat) (d : Dev), (d.rd (AU_MCs_STAT_STATE s) = 1) ∧ (d.checkReached (d.rd (AU_MCs_CTL_DOM s)) (d.mcTarget s) = false) ∧ (d.cfg.acks = (s.val, a) :: rest) ∧ (a ≤ d.now) ∧ (d.rd (AU_MCs_ACK_GOT s) = g) ∧ (g < 65535) :=
  ⟨3, 4, [], 1, { (setRegs [(AU_MCs_CTL 3, 2), (AU_MCs_LF_HI 3, 9), (AU_MCs_STAT 3, 1), (AU_MCs_ACK 3, 0x10002)] Dev.reset) with now := 5, cfg := { Cfg.reset with acks := [(3, 4)] } }, by decide⟩

theorem test_meets_ModeChangeDecided_5 : ∃ (s : Fin 8) (d : Dev), (d.rd (AU_MCs_STAT_STATE s) = 1) ∧ (d.checkReached (d.rd (AU_MCs_CTL_DOM s)) (d.mcTarget s) = false) :=
  ⟨3, setRegs [(AU_MCs_CTL 3, 2), (AU_MCs_LF_HI 3, 9), (AU_MCs_STAT 3, 1), (AU_MCs_ACK 3, 2)] Dev.reset, by decide⟩

theorem test_meets_ModeChangeDecided_6 : ∃ (s : Fin 8) (d : Dev), (d.rd (AU_MCs_STAT_STATE s) ≠ 1) :=
  ⟨3, Dev.reset, by decide⟩

theorem test_meets_ModeChangeDecided_7 : ∃ (s : Fin 8) (m : Nat) (d : Dev), (d.rd (AU_MCs_STAT_STATE s) = 1 ∨ d.rd (AU_MCs_STAT_STATE s) = 2) ∧ ((d.reg (AU_MCs_TMO s)).toNat = m) ∧ (m ≠ 0) ∧ (tget 0 d.ang.mcArmed s + m ≤ d.now) ∧ (d.mcReached s = false) :=
  ⟨3, 7, { (setRegs [(AU_MCs_CTL 3, 2), (AU_MCs_LF_HI 3, 9), (AU_MCs_STAT 3, 1), (AU_MCs_ACK 3, 2)] Dev.reset).setReg (AU_MCs_TMO 3) 7 with now := 9 }, by decide⟩

theorem test_meets_LandfallActs_1 : ∃ (n : Fin 8) (l : BitVec 80) (i : Fin 96) (c : Fin 16) (a nx : Nat) (qp r : Bool) (d : Dev), (d.passedLandfall n = some l) ∧ ((∀ s : Fin 8, d.rd (AU_MCs_CTL_DOM s) = n.val → d.rd (AU_MCs_STAT_STATE s) ≠ 1 ∧ d.rd (AU_MCs_STAT_STATE s) ≠ 2)) ∧ (d.rd (IS_CFG_DOM i) = n.val) ∧ (d.isleLive i = true) ∧ (((d.isle i).cell c).mode = .waitLandfall a nx qp r) ∧ (((d.isle i).cell c).nextAt ≤ d.now) :=
  ⟨2, BitVec.ofNat 80 (2 ^ 48), 5, 1, 4, 9, false, false, ({ (setRegs [(AU_CTRL, 4), (AU_MCs_CTL 3, 2), (IS_CFG 5, 2), (PC_DOMUP0, 0xFFFFFFFF)] Dev.reset) with now := 3, isles := [(5, { Isle.reset with cells := [(1, { Cell.reset with mode := .waitLandfall 4 9 false false, nextAt := 2 })] })] }).setAd 2 { Tracker.reset with theta := BitVec.ofNat 80 (2 ^ 48 + 5), prev := BitVec.ofNat 80 (2 ^ 48 - 7) }, by decide⟩

theorem test_meets_LandfallActs_2 : ∃ (n s : Fin 8) (l : BitVec 80) (i : Fin 96) (d : Dev), (d.passedLandfall n = some l) ∧ (d.rd (AU_MCs_CTL_DOM s) = n.val) ∧ (d.rd (AU_MCs_STAT_STATE s) = 2) ∧ (d.mcReached s = true) ∧ (d.cfg.staged = [{ unit := i.val, slot := s.val, loaded := false, csr := [], seeds := [] }]) ∧ (d.tasksOf i = []) ∧ (d.icpOn s = false) :=
  ⟨2, 3, BitVec.ofNat 80 (2 ^ 48), 5, { ({ (setRegs [(AU_CTRL, 4), (AU_MCs_CTL 3, 2), (IS_CFG 5, 2), (PC_DOMUP0, 0xFFFFFFFF), (AU_MCs_STAT 3, 2)] Dev.reset) with now := 3, isles := [(5, { Isle.reset with cells := [(1, { Cell.reset with mode := .waitLandfall 4 9 false false, nextAt := 2 })] })] }).setAd 2 { Tracker.reset with theta := BitVec.ofNat 80 (2 ^ 48 + 5), prev := BitVec.ofNat 80 (2 ^ 48 - 7) } with cfg := { Cfg.reset with staged := [{ unit := 5, slot := 3, loaded := false, csr := [], seeds := [] }] } }, by decide⟩

theorem test_meets_LandfallActs_3 : ∃ (n : Fin 8) (d : Dev), (d.passedLandfall n = none) :=
  ⟨2, Dev.reset, by decide⟩

theorem test_meets_LandfallActs_4 : ∃ (i : Fin 96) (m : Nat) (d : Dev), ((d.isle i).copyEnd = some m) ∧ (m ≤ d.now) ∧ (d.integ.cbRep.contains i.val = false) ∧ ((∀ r ∈ d.ev.repairs, ¬ (r.unit = i.val ∧ r.kind = 4))) :=
  ⟨5, 256, { setRegs [(IS_STAT 5, 0x400000)] Dev.reset with now := 300, isles := [(5, { Isle.reset with copyEnd := some 256, ctx := [(3, 7)] })] }, by decide⟩

theorem test_meets_LandfallActs_5 : ∃ (i : Fin 96) (c x : Fin 16) (m : Nat) (d : Dev), ((d.isle i).copyEnd = some m) ∧ (m ≤ d.now) ∧ (tsorted none (d.isle i).ctx = true) :=
  ⟨5, 0, 3, 256, { Dev.reset with now := 300, isles := [(5, { Isle.reset with copyEnd := some 256, ctx := [(3, 7)] })] }, by decide⟩

theorem test_meets_CellMovesAndSums_1 : ∃ (n : Fin 96) (c : Fin 16) (idx : Nat) (w : Ctx) (a : BitVec 32) (d : Dev), (d.cellAt n c idx w = true) ∧ (plainCtx 1 0 w = true) ∧ ((((d.isle n).cell c).arch.get w.sa.toNat) = a) :=
  ⟨5, 2, 4, { op := 1, mode := 0, sa := 1, sb := 2, sc := 3, dst := 4, shf := 0, sat := 0, acc := 0, psel := 0, circ := 0, pstep := 0, imm := 0, next := 7, seq := 0, cond := 0, lvl := 0, qp := 0, role := 0, sout := 3, sch := 1, tok := 0, loff := 0, rsv := 0 }, 0x80000003#32, { setRegs [(PC_DOMUP0, 0xFFFFFFFF)] Dev.reset with now := 8, isles := [(5, { Isle.reset with cells := [(2, { Cell.reset with mode := .run 4, group := 1, arch := { CRegs.zero with g := [(1, 0x80000003#32), (2, 0x7FFFFFFE#32), (3, 0x12345#32)], acc0 := 0x123456789ABC#48, acc1 := 0x0FFFFFFFFFFF#48 } })], ctx := [(36, ({ op := 1, mode := 0, sa := 1, sb := 2, sc := 3, dst := 4, shf := 0, sat := 0, acc := 0, psel := 0, circ := 0, pstep := 0, imm := 0, next := 7, seq := 0, cond := 0, lvl := 0, qp := 0, role := 0, sout := 3, sch := 1, tok := 0, loff := 0, rsv := 0 } : Ctx).encode)] })] }, by decide⟩

theorem test_meets_CellMovesAndSums_2 : ∃ (n : Fin 96) (c : Fin 16) (idx : Nat) (w : Ctx) (z : BitVec 32) (d : Dev), (d.cellAt n c idx w = true) ∧ (plainCtx 2 0 w = true) ∧ ((((d.isle n).cell c).arch.get w.sc.toNat) = z) :=
  ⟨5, 2, 4, { op := 2, mode := 0, sa := 1, sb := 2, sc := 3, dst := 4, shf := 0, sat := 0, acc := 0, psel := 0, circ := 0, pstep := 0, imm := 0, next := 7, seq := 0, cond := 0, lvl := 0, qp := 0, role := 0, sout := 3, sch := 1, tok := 0, loff := 0, rsv := 0 }, 0x12345#32, { setRegs [(PC_DOMUP0, 0xFFFFFFFF)] Dev.reset with now := 8, isles := [(5, { Isle.reset with cells := [(2, { Cell.reset with mode := .run 4, group := 1, arch := { CRegs.zero with g := [(1, 0x80000003#32), (2, 0x7FFFFFFE#32), (3, 0x12345#32)], acc0 := 0x123456789ABC#48, acc1 := 0x0FFFFFFFFFFF#48 } })], ctx := [(36, ({ op := 2, mode := 0, sa := 1, sb := 2, sc := 3, dst := 4, shf := 0, sat := 0, acc := 0, psel := 0, circ := 0, pstep := 0, imm := 0, next := 7, seq := 0, cond := 0, lvl := 0, qp := 0, role := 0, sout := 3, sch := 1, tok := 0, loff := 0, rsv := 0 } : Ctx).encode)] })] }, by decide⟩

theorem test_meets_CellMovesAndSums_3 : ∃ (n : Fin 96) (c : Fin 16) (idx : Nat) (w : Ctx) (a : BitVec 32) (b : BitVec 32) (d : Dev), (d.cellAt n c idx w = true) ∧ (plainCtx 3 0 w = true) ∧ ((((d.isle n).cell c).arch.get w.sa.toNat) = a) ∧ ((((d.isle n).cell c).arch.get w.sb.toNat) = b) :=
  ⟨5, 2, 4, { op := 3, mode := 0, sa := 1, sb := 2, sc := 3, dst := 4, shf := 0, sat := 0, acc := 0, psel := 0, circ := 0, pstep := 0, imm := 0, next := 7, seq := 0, cond := 0, lvl := 0, qp := 0, role := 0, sout := 3, sch := 1, tok := 0, loff := 0, rsv := 0 }, 0x80000003#32, 0x7FFFFFFE#32, { setRegs [(PC_DOMUP0, 0xFFFFFFFF)] Dev.reset with now := 8, isles := [(5, { Isle.reset with cells := [(2, { Cell.reset with mode := .run 4, group := 1, arch := { CRegs.zero with g := [(1, 0x80000003#32), (2, 0x7FFFFFFE#32), (3, 0x12345#32)], acc0 := 0x123456789ABC#48, acc1 := 0x0FFFFFFFFFFF#48 } })], ctx := [(36, ({ op := 3, mode := 0, sa := 1, sb := 2, sc := 3, dst := 4, shf := 0, sat := 0, acc := 0, psel := 0, circ := 0, pstep := 0, imm := 0, next := 7, seq := 0, cond := 0, lvl := 0, qp := 0, role := 0, sout := 3, sch := 1, tok := 0, loff := 0, rsv := 0 } : Ctx).encode)] })] }, by decide⟩

theorem test_meets_CellMovesAndSums_4 : ∃ (n : Fin 96) (c : Fin 16) (idx : Nat) (w : Ctx) (a : BitVec 32) (z : BitVec 32) (d : Dev), (d.cellAt n c idx w = true) ∧ (plainCtx 4 0 w = true) ∧ ((((d.isle n).cell c).arch.get w.sa.toNat) = a) ∧ ((((d.isle n).cell c).arch.get w.sc.toNat) = z) :=
  ⟨5, 2, 4, { op := 4, mode := 0, sa := 1, sb := 2, sc := 3, dst := 4, shf := 0, sat := 0, acc := 0, psel := 0, circ := 0, pstep := 0, imm := 0, next := 7, seq := 0, cond := 0, lvl := 0, qp := 0, role := 0, sout := 3, sch := 1, tok := 0, loff := 0, rsv := 0 }, 0x80000003#32, 0x12345#32, { setRegs [(PC_DOMUP0, 0xFFFFFFFF)] Dev.reset with now := 8, isles := [(5, { Isle.reset with cells := [(2, { Cell.reset with mode := .run 4, group := 1, arch := { CRegs.zero with g := [(1, 0x80000003#32), (2, 0x7FFFFFFE#32), (3, 0x12345#32)], acc0 := 0x123456789ABC#48, acc1 := 0x0FFFFFFFFFFF#48 } })], ctx := [(36, ({ op := 4, mode := 0, sa := 1, sb := 2, sc := 3, dst := 4, shf := 0, sat := 0, acc := 0, psel := 0, circ := 0, pstep := 0, imm := 0, next := 7, seq := 0, cond := 0, lvl := 0, qp := 0, role := 0, sout := 3, sch := 1, tok := 0, loff := 0, rsv := 0 } : Ctx).encode)] })] }, by decide⟩

theorem test_meets_CellMovesAndSums_5 : ∃ (n : Fin 96) (c : Fin 16) (idx : Nat) (w : Ctx) (a : BitVec 32) (b : BitVec 32) (d : Dev), (d.cellAt n c idx w = true) ∧ (plainCtx 5 0 w = true) ∧ ((((d.isle n).cell c).arch.get w.sa.toNat) = a) ∧ ((((d.isle n).cell c).arch.get w.sb.toNat) = b) :=
  ⟨5, 2, 4, { op := 5, mode := 0, sa := 1, sb := 2, sc := 3, dst := 4, shf := 0, sat := 0, acc := 0, psel := 0, circ := 0, pstep := 0, imm := 0, next := 7, seq := 0, cond := 0, lvl := 0, qp := 0, role := 0, sout := 3, sch := 1, tok := 0, loff := 0, rsv := 0 }, 0x80000003#32, 0x7FFFFFFE#32, { setRegs [(PC_DOMUP0, 0xFFFFFFFF)] Dev.reset with now := 8, isles := [(5, { Isle.reset with cells := [(2, { Cell.reset with mode := .run 4, group := 1, arch := { CRegs.zero with g := [(1, 0x80000003#32), (2, 0x7FFFFFFE#32), (3, 0x12345#32)], acc0 := 0x123456789ABC#48, acc1 := 0x0FFFFFFFFFFF#48 } })], ctx := [(36, ({ op := 5, mode := 0, sa := 1, sb := 2, sc := 3, dst := 4, shf := 0, sat := 0, acc := 0, psel := 0, circ := 0, pstep := 0, imm := 0, next := 7, seq := 0, cond := 0, lvl := 0, qp := 0, role := 0, sout := 3, sch := 1, tok := 0, loff := 0, rsv := 0 } : Ctx).encode)] })] }, by decide⟩

theorem test_meets_CellMovesAndSums_6 : ∃ (n : Fin 96) (c : Fin 16) (idx : Nat) (w : Ctx) (a : BitVec 32) (z : BitVec 32) (d : Dev), (d.cellAt n c idx w = true) ∧ (plainCtx 6 0 w = true) ∧ ((((d.isle n).cell c).arch.get w.sa.toNat) = a) ∧ ((((d.isle n).cell c).arch.get w.sc.toNat) = z) :=
  ⟨5, 2, 4, { op := 6, mode := 0, sa := 1, sb := 2, sc := 3, dst := 4, shf := 0, sat := 0, acc := 0, psel := 0, circ := 0, pstep := 0, imm := 0, next := 7, seq := 0, cond := 0, lvl := 0, qp := 0, role := 0, sout := 3, sch := 1, tok := 0, loff := 0, rsv := 0 }, 0x80000003#32, 0x12345#32, { setRegs [(PC_DOMUP0, 0xFFFFFFFF)] Dev.reset with now := 8, isles := [(5, { Isle.reset with cells := [(2, { Cell.reset with mode := .run 4, group := 1, arch := { CRegs.zero with g := [(1, 0x80000003#32), (2, 0x7FFFFFFE#32), (3, 0x12345#32)], acc0 := 0x123456789ABC#48, acc1 := 0x0FFFFFFFFFFF#48 } })], ctx := [(36, ({ op := 6, mode := 0, sa := 1, sb := 2, sc := 3, dst := 4, shf := 0, sat := 0, acc := 0, psel := 0, circ := 0, pstep := 0, imm := 0, next := 7, seq := 0, cond := 0, lvl := 0, qp := 0, role := 0, sout := 3, sch := 1, tok := 0, loff := 0, rsv := 0 } : Ctx).encode)] })] }, by decide⟩

theorem test_meets_CellMovesAndSums_7 : ∃ (n : Fin 96) (c : Fin 16) (idx : Nat) (w : Ctx) (a : BitVec 32) (d : Dev), (d.cellAt n c idx w = true) ∧ (plainCtx 7 0 w = true) ∧ ((((d.isle n).cell c).arch.get w.sa.toNat) = a) :=
  ⟨5, 2, 4, { op := 7, mode := 0, sa := 1, sb := 2, sc := 3, dst := 4, shf := 0, sat := 0, acc := 0, psel := 0, circ := 0, pstep := 0, imm := 0, next := 7, seq := 0, cond := 0, lvl := 0, qp := 0, role := 0, sout := 3, sch := 1, tok := 0, loff := 0, rsv := 0 }, 0x80000003#32, { setRegs [(PC_DOMUP0, 0xFFFFFFFF)] Dev.reset with now := 8, isles := [(5, { Isle.reset with cells := [(2, { Cell.reset with mode := .run 4, group := 1, arch := { CRegs.zero with g := [(1, 0x80000003#32), (2, 0x7FFFFFFE#32), (3, 0x12345#32)], acc0 := 0x123456789ABC#48, acc1 := 0x0FFFFFFFFFFF#48 } })], ctx := [(36, ({ op := 7, mode := 0, sa := 1, sb := 2, sc := 3, dst := 4, shf := 0, sat := 0, acc := 0, psel := 0, circ := 0, pstep := 0, imm := 0, next := 7, seq := 0, cond := 0, lvl := 0, qp := 0, role := 0, sout := 3, sch := 1, tok := 0, loff := 0, rsv := 0 } : Ctx).encode)] })] }, by decide⟩

theorem test_meets_CellMovesAndSums_8 : ∃ (n : Fin 96) (c : Fin 16) (idx : Nat) (w : Ctx) (a : BitVec 32) (d : Dev), (d.cellAt n c idx w = true) ∧ (plainCtx 8 0 w = true) ∧ ((((d.isle n).cell c).arch.get w.sa.toNat) = a) :=
  ⟨5, 2, 4, { op := 8, mode := 0, sa := 1, sb := 2, sc := 3, dst := 4, shf := 0, sat := 0, acc := 0, psel := 0, circ := 0, pstep := 0, imm := 0, next := 7, seq := 0, cond := 0, lvl := 0, qp := 0, role := 0, sout := 3, sch := 1, tok := 0, loff := 0, rsv := 0 }, 0x80000003#32, { setRegs [(PC_DOMUP0, 0xFFFFFFFF)] Dev.reset with now := 8, isles := [(5, { Isle.reset with cells := [(2, { Cell.reset with mode := .run 4, group := 1, arch := { CRegs.zero with g := [(1, 0x80000003#32), (2, 0x7FFFFFFE#32), (3, 0x12345#32)], acc0 := 0x123456789ABC#48, acc1 := 0x0FFFFFFFFFFF#48 } })], ctx := [(36, ({ op := 8, mode := 0, sa := 1, sb := 2, sc := 3, dst := 4, shf := 0, sat := 0, acc := 0, psel := 0, circ := 0, pstep := 0, imm := 0, next := 7, seq := 0, cond := 0, lvl := 0, qp := 0, role := 0, sout := 3, sch := 1, tok := 0, loff := 0, rsv := 0 } : Ctx).encode)] })] }, by decide⟩

theorem test_meets_CellComparesAndLogic_1 : ∃ (n : Fin 96) (c : Fin 16) (idx : Nat) (w : Ctx) (a : BitVec 32) (b : BitVec 32) (d : Dev), (d.cellAt n c idx w = true) ∧ (plainCtx 9 0 w = true) ∧ ((((d.isle n).cell c).arch.get w.sa.toNat) = a) ∧ ((((d.isle n).cell c).arch.get w.sb.toNat) = b) :=
  ⟨5, 2, 4, { op := 9, mode := 0, sa := 1, sb := 2, sc := 3, dst := 4, shf := 0, sat := 0, acc := 0, psel := 0, circ := 0, pstep := 0, imm := 0, next := 7, seq := 0, cond := 0, lvl := 0, qp := 0, role := 0, sout := 3, sch := 1, tok := 0, loff := 0, rsv := 0 }, 0x80000003#32, 0x7FFFFFFE#32, { setRegs [(PC_DOMUP0, 0xFFFFFFFF)] Dev.reset with now := 8, isles := [(5, { Isle.reset with cells := [(2, { Cell.reset with mode := .run 4, group := 1, arch := { CRegs.zero with g := [(1, 0x80000003#32), (2, 0x7FFFFFFE#32), (3, 0x12345#32)], acc0 := 0x123456789ABC#48, acc1 := 0x0FFFFFFFFFFF#48 } })], ctx := [(36, ({ op := 9, mode := 0, sa := 1, sb := 2, sc := 3, dst := 4, shf := 0, sat := 0, acc := 0, psel := 0, circ := 0, pstep := 0, imm := 0, next := 7, seq := 0, cond := 0, lvl := 0, qp := 0, role := 0, sout := 3, sch := 1, tok := 0, loff := 0, rsv := 0 } : Ctx).encode)] })] }, by decide⟩

theorem test_meets_CellComparesAndLogic_2 : ∃ (n : Fin 96) (c : Fin 16) (idx : Nat) (w : Ctx) (a : BitVec 32) (b : BitVec 32) (d : Dev), (d.cellAt n c idx w = true) ∧ (plainCtx 10 0 w = true) ∧ ((((d.isle n).cell c).arch.get w.sa.toNat) = a) ∧ ((((d.isle n).cell c).arch.get w.sb.toNat) = b) :=
  ⟨5, 2, 4, { op := 10, mode := 0, sa := 1, sb := 2, sc := 3, dst := 4, shf := 0, sat := 0, acc := 0, psel := 0, circ := 0, pstep := 0, imm := 0, next := 7, seq := 0, cond := 0, lvl := 0, qp := 0, role := 0, sout := 3, sch := 1, tok := 0, loff := 0, rsv := 0 }, 0x80000003#32, 0x7FFFFFFE#32, { setRegs [(PC_DOMUP0, 0xFFFFFFFF)] Dev.reset with now := 8, isles := [(5, { Isle.reset with cells := [(2, { Cell.reset with mode := .run 4, group := 1, arch := { CRegs.zero with g := [(1, 0x80000003#32), (2, 0x7FFFFFFE#32), (3, 0x12345#32)], acc0 := 0x123456789ABC#48, acc1 := 0x0FFFFFFFFFFF#48 } })], ctx := [(36, ({ op := 10, mode := 0, sa := 1, sb := 2, sc := 3, dst := 4, shf := 0, sat := 0, acc := 0, psel := 0, circ := 0, pstep := 0, imm := 0, next := 7, seq := 0, cond := 0, lvl := 0, qp := 0, role := 0, sout := 3, sch := 1, tok := 0, loff := 0, rsv := 0 } : Ctx).encode)] })] }, by decide⟩

theorem test_meets_CellComparesAndLogic_3 : ∃ (n : Fin 96) (c : Fin 16) (idx : Nat) (w : Ctx) (a : BitVec 32) (b : BitVec 32) (d : Dev), (d.cellAt n c idx w = true) ∧ (plainCtx 11 0 w = true) ∧ ((((d.isle n).cell c).arch.get w.sa.toNat) = a) ∧ ((((d.isle n).cell c).arch.get w.sb.toNat) = b) :=
  ⟨5, 2, 4, { op := 11, mode := 0, sa := 1, sb := 2, sc := 3, dst := 4, shf := 0, sat := 0, acc := 0, psel := 0, circ := 0, pstep := 0, imm := 0, next := 7, seq := 0, cond := 0, lvl := 0, qp := 0, role := 0, sout := 3, sch := 1, tok := 0, loff := 0, rsv := 0 }, 0x80000003#32, 0x7FFFFFFE#32, { setRegs [(PC_DOMUP0, 0xFFFFFFFF)] Dev.reset with now := 8, isles := [(5, { Isle.reset with cells := [(2, { Cell.reset with mode := .run 4, group := 1, arch := { CRegs.zero with g := [(1, 0x80000003#32), (2, 0x7FFFFFFE#32), (3, 0x12345#32)], acc0 := 0x123456789ABC#48, acc1 := 0x0FFFFFFFFFFF#48 } })], ctx := [(36, ({ op := 11, mode := 0, sa := 1, sb := 2, sc := 3, dst := 4, shf := 0, sat := 0, acc := 0, psel := 0, circ := 0, pstep := 0, imm := 0, next := 7, seq := 0, cond := 0, lvl := 0, qp := 0, role := 0, sout := 3, sch := 1, tok := 0, loff := 0, rsv := 0 } : Ctx).encode)] })] }, by decide⟩

theorem test_meets_CellComparesAndLogic_4 : ∃ (n : Fin 96) (c : Fin 16) (idx : Nat) (w : Ctx) (a : BitVec 32) (b : BitVec 32) (d : Dev), (d.cellAt n c idx w = true) ∧ (plainCtx 12 0 w = true) ∧ ((((d.isle n).cell c).arch.get w.sa.toNat) = a) ∧ ((((d.isle n).cell c).arch.get w.sb.toNat) = b) :=
  ⟨5, 2, 4, { op := 12, mode := 0, sa := 1, sb := 2, sc := 3, dst := 4, shf := 0, sat := 0, acc := 0, psel := 0, circ := 0, pstep := 0, imm := 0, next := 7, seq := 0, cond := 0, lvl := 0, qp := 0, role := 0, sout := 3, sch := 1, tok := 0, loff := 0, rsv := 0 }, 0x80000003#32, 0x7FFFFFFE#32, { setRegs [(PC_DOMUP0, 0xFFFFFFFF)] Dev.reset with now := 8, isles := [(5, { Isle.reset with cells := [(2, { Cell.reset with mode := .run 4, group := 1, arch := { CRegs.zero with g := [(1, 0x80000003#32), (2, 0x7FFFFFFE#32), (3, 0x12345#32)], acc0 := 0x123456789ABC#48, acc1 := 0x0FFFFFFFFFFF#48 } })], ctx := [(36, ({ op := 12, mode := 0, sa := 1, sb := 2, sc := 3, dst := 4, shf := 0, sat := 0, acc := 0, psel := 0, circ := 0, pstep := 0, imm := 0, next := 7, seq := 0, cond := 0, lvl := 0, qp := 0, role := 0, sout := 3, sch := 1, tok := 0, loff := 0, rsv := 0 } : Ctx).encode)] })] }, by decide⟩

theorem test_meets_CellComparesAndLogic_5 : ∃ (n : Fin 96) (c : Fin 16) (idx : Nat) (w : Ctx) (a : BitVec 32) (b : BitVec 32) (d : Dev), (d.cellAt n c idx w = true) ∧ (plainCtx 13 0 w = true) ∧ ((((d.isle n).cell c).arch.get w.sa.toNat) = a) ∧ ((((d.isle n).cell c).arch.get w.sb.toNat) = b) :=
  ⟨5, 2, 4, { op := 13, mode := 0, sa := 1, sb := 2, sc := 3, dst := 4, shf := 0, sat := 0, acc := 0, psel := 0, circ := 0, pstep := 0, imm := 0, next := 7, seq := 0, cond := 0, lvl := 0, qp := 0, role := 0, sout := 3, sch := 1, tok := 0, loff := 0, rsv := 0 }, 0x80000003#32, 0x7FFFFFFE#32, { setRegs [(PC_DOMUP0, 0xFFFFFFFF)] Dev.reset with now := 8, isles := [(5, { Isle.reset with cells := [(2, { Cell.reset with mode := .run 4, group := 1, arch := { CRegs.zero with g := [(1, 0x80000003#32), (2, 0x7FFFFFFE#32), (3, 0x12345#32)], acc0 := 0x123456789ABC#48, acc1 := 0x0FFFFFFFFFFF#48 } })], ctx := [(36, ({ op := 13, mode := 0, sa := 1, sb := 2, sc := 3, dst := 4, shf := 0, sat := 0, acc := 0, psel := 0, circ := 0, pstep := 0, imm := 0, next := 7, seq := 0, cond := 0, lvl := 0, qp := 0, role := 0, sout := 3, sch := 1, tok := 0, loff := 0, rsv := 0 } : Ctx).encode)] })] }, by decide⟩

theorem test_meets_CellComparesAndLogic_6 : ∃ (n : Fin 96) (c : Fin 16) (idx : Nat) (w : Ctx) (a : BitVec 32) (z : BitVec 32) (d : Dev), (d.cellAt n c idx w = true) ∧ (plainCtx 14 0 w = true) ∧ ((((d.isle n).cell c).arch.get w.sa.toNat) = a) ∧ ((((d.isle n).cell c).arch.get w.sc.toNat) = z) :=
  ⟨5, 2, 4, { op := 14, mode := 0, sa := 1, sb := 2, sc := 3, dst := 4, shf := 0, sat := 0, acc := 0, psel := 0, circ := 0, pstep := 0, imm := 0, next := 7, seq := 0, cond := 0, lvl := 0, qp := 0, role := 0, sout := 3, sch := 1, tok := 0, loff := 0, rsv := 0 }, 0x80000003#32, 0x12345#32, { setRegs [(PC_DOMUP0, 0xFFFFFFFF)] Dev.reset with now := 8, isles := [(5, { Isle.reset with cells := [(2, { Cell.reset with mode := .run 4, group := 1, arch := { CRegs.zero with g := [(1, 0x80000003#32), (2, 0x7FFFFFFE#32), (3, 0x12345#32)], acc0 := 0x123456789ABC#48, acc1 := 0x0FFFFFFFFFFF#48 } })], ctx := [(36, ({ op := 14, mode := 0, sa := 1, sb := 2, sc := 3, dst := 4, shf := 0, sat := 0, acc := 0, psel := 0, circ := 0, pstep := 0, imm := 0, next := 7, seq := 0, cond := 0, lvl := 0, qp := 0, role := 0, sout := 3, sch := 1, tok := 0, loff := 0, rsv := 0 } : Ctx).encode)] })] }, by decide⟩

theorem test_meets_CellComparesAndLogic_7 : ∃ (n : Fin 96) (c : Fin 16) (idx : Nat) (w : Ctx) (a : BitVec 32) (z : BitVec 32) (d : Dev), (d.cellAt n c idx w = true) ∧ (plainCtx 15 0 w = true) ∧ ((((d.isle n).cell c).arch.get w.sa.toNat) = a) ∧ ((((d.isle n).cell c).arch.get w.sc.toNat) = z) :=
  ⟨5, 2, 4, { op := 15, mode := 0, sa := 1, sb := 2, sc := 3, dst := 4, shf := 0, sat := 0, acc := 0, psel := 0, circ := 0, pstep := 0, imm := 0, next := 7, seq := 0, cond := 0, lvl := 0, qp := 0, role := 0, sout := 3, sch := 1, tok := 0, loff := 0, rsv := 0 }, 0x80000003#32, 0x12345#32, { setRegs [(PC_DOMUP0, 0xFFFFFFFF)] Dev.reset with now := 8, isles := [(5, { Isle.reset with cells := [(2, { Cell.reset with mode := .run 4, group := 1, arch := { CRegs.zero with g := [(1, 0x80000003#32), (2, 0x7FFFFFFE#32), (3, 0x12345#32)], acc0 := 0x123456789ABC#48, acc1 := 0x0FFFFFFFFFFF#48 } })], ctx := [(36, ({ op := 15, mode := 0, sa := 1, sb := 2, sc := 3, dst := 4, shf := 0, sat := 0, acc := 0, psel := 0, circ := 0, pstep := 0, imm := 0, next := 7, seq := 0, cond := 0, lvl := 0, qp := 0, role := 0, sout := 3, sch := 1, tok := 0, loff := 0, rsv := 0 } : Ctx).encode)] })] }, by decide⟩

theorem test_meets_CellComparesAndLogic_8 : ∃ (n : Fin 96) (c : Fin 16) (idx : Nat) (w : Ctx) (a : BitVec 32) (z : BitVec 32) (d : Dev), (d.cellAt n c idx w = true) ∧ (plainCtx 16 0 w = true) ∧ ((((d.isle n).cell c).arch.get w.sa.toNat) = a) ∧ ((((d.isle n).cell c).arch.get w.sc.toNat) = z) :=
  ⟨5, 2, 4, { op := 16, mode := 0, sa := 1, sb := 2, sc := 3, dst := 4, shf := 0, sat := 0, acc := 0, psel := 0, circ := 0, pstep := 0, imm := 0, next := 7, seq := 0, cond := 0, lvl := 0, qp := 0, role := 0, sout := 3, sch := 1, tok := 0, loff := 0, rsv := 0 }, 0x80000003#32, 0x12345#32, { setRegs [(PC_DOMUP0, 0xFFFFFFFF)] Dev.reset with now := 8, isles := [(5, { Isle.reset with cells := [(2, { Cell.reset with mode := .run 4, group := 1, arch := { CRegs.zero with g := [(1, 0x80000003#32), (2, 0x7FFFFFFE#32), (3, 0x12345#32)], acc0 := 0x123456789ABC#48, acc1 := 0x0FFFFFFFFFFF#48 } })], ctx := [(36, ({ op := 16, mode := 0, sa := 1, sb := 2, sc := 3, dst := 4, shf := 0, sat := 0, acc := 0, psel := 0, circ := 0, pstep := 0, imm := 0, next := 7, seq := 0, cond := 0, lvl := 0, qp := 0, role := 0, sout := 3, sch := 1, tok := 0, loff := 0, rsv := 0 } : Ctx).encode)] })] }, by decide⟩

theorem test_meets_CellComparesAndLogic_9 : ∃ (n : Fin 96) (c : Fin 16) (idx : Nat) (w : Ctx) (a : BitVec 32) (d : Dev), (d.cellAt n c idx w = true) ∧ (plainCtx 17 0 w = true) ∧ ((((d.isle n).cell c).arch.get w.sa.toNat) = a) :=
  ⟨5, 2, 4, { op := 17, mode := 0, sa := 1, sb := 2, sc := 3, dst := 4, shf := 0, sat := 0, acc := 0, psel := 0, circ := 0, pstep := 0, imm := 0, next := 7, seq := 0, cond := 0, lvl := 0, qp := 0, role := 0, sout := 3, sch := 1, tok := 0, loff := 0, rsv := 0 }, 0x80000003#32, { setRegs [(PC_DOMUP0, 0xFFFFFFFF)] Dev.reset with now := 8, isles := [(5, { Isle.reset with cells := [(2, { Cell.reset with mode := .run 4, group := 1, arch := { CRegs.zero with g := [(1, 0x80000003#32), (2, 0x7FFFFFFE#32), (3, 0x12345#32)], acc0 := 0x123456789ABC#48, acc1 := 0x0FFFFFFFFFFF#48 } })], ctx := [(36, ({ op := 17, mode := 0, sa := 1, sb := 2, sc := 3, dst := 4, shf := 0, sat := 0, acc := 0, psel := 0, circ := 0, pstep := 0, imm := 0, next := 7, seq := 0, cond := 0, lvl := 0, qp := 0, role := 0, sout := 3, sch := 1, tok := 0, loff := 0, rsv := 0 } : Ctx).encode)] })] }, by decide⟩

theorem test_meets_CellComparesAndLogic_10 : ∃ (n : Fin 96) (c : Fin 16) (idx : Nat) (w : Ctx) (a : BitVec 32) (z : BitVec 32) (d : Dev), (d.cellAt n c idx w = true) ∧ (plainCtx 24 0 w = true) ∧ ((((d.isle n).cell c).arch.get w.sa.toNat) = a) ∧ ((((d.isle n).cell c).arch.get w.sc.toNat) = z) :=
  ⟨5, 2, 4, { op := 24, mode := 0, sa := 1, sb := 2, sc := 3, dst := 4, shf := 0, sat := 0, acc := 0, psel := 0, circ := 0, pstep := 0, imm := 0, next := 7, seq := 0, cond := 0, lvl := 0, qp := 0, role := 0, sout := 3, sch := 1, tok := 0, loff := 0, rsv := 0 }, 0x80000003#32, 0x12345#32, { setRegs [(PC_DOMUP0, 0xFFFFFFFF)] Dev.reset with now := 8, isles := [(5, { Isle.reset with cells := [(2, { Cell.reset with mode := .run 4, group := 1, arch := { CRegs.zero with g := [(1, 0x80000003#32), (2, 0x7FFFFFFE#32), (3, 0x12345#32)], acc0 := 0x123456789ABC#48, acc1 := 0x0FFFFFFFFFFF#48 } })], ctx := [(36, ({ op := 24, mode := 0, sa := 1, sb := 2, sc := 3, dst := 4, shf := 0, sat := 0, acc := 0, psel := 0, circ := 0, pstep := 0, imm := 0, next := 7, seq := 0, cond := 0, lvl := 0, qp := 0, role := 0, sout := 3, sch := 1, tok := 0, loff := 0, rsv := 0 } : Ctx).encode)] })] }, by decide⟩

theorem test_meets_CellShiftsAndSelects_1 : ∃ (n : Fin 96) (c : Fin 16) (idx : Nat) (w : Ctx) (a : BitVec 32) (k : Nat) (d : Dev), (d.cellAt n c idx w = true) ∧ (plainCtx 18 0 w = true) ∧ ((((d.isle n).cell c).arch.get w.sa.toNat) = a) ∧ ((((d.isle n).cell c).arch.get w.sc.toNat).toNat % 32 = k) :=
  ⟨5, 2, 4, { op := 18, mode := 0, sa := 1, sb := 2, sc := 3, dst := 4, shf := 0, sat := 0, acc := 0, psel := 0, circ := 0, pstep := 0, imm := 0, next := 7, seq := 0, cond := 0, lvl := 0, qp := 0, role := 0, sout := 3, sch := 1, tok := 0, loff := 0, rsv := 0 }, 0x80000003#32, 5, { setRegs [(PC_DOMUP0, 0xFFFFFFFF)] Dev.reset with now := 8, isles := [(5, { Isle.reset with cells := [(2, { Cell.reset with mode := .run 4, group := 1, arch := { CRegs.zero with g := [(1, 0x80000003#32), (2, 0x7FFFFFFE#32), (3, 0x12345#32)], acc0 := 0x123456789ABC#48, acc1 := 0x0FFFFFFFFFFF#48 } })], ctx := [(36, ({ op := 18, mode := 0, sa := 1, sb := 2, sc := 3, dst := 4, shf := 0, sat := 0, acc := 0, psel := 0, circ := 0, pstep := 0, imm := 0, next := 7, seq := 0, cond := 0, lvl := 0, qp := 0, role := 0, sout := 3, sch := 1, tok := 0, loff := 0, rsv := 0 } : Ctx).encode)] })] }, by decide⟩

theorem test_meets_CellShiftsAndSelects_2 : ∃ (n : Fin 96) (c : Fin 16) (idx : Nat) (w : Ctx) (a : BitVec 32) (k : Nat) (d : Dev), (d.cellAt n c idx w = true) ∧ (plainCtx 19 0 w = true) ∧ ((((d.isle n).cell c).arch.get w.sa.toNat) = a) ∧ ((((d.isle n).cell c).arch.get w.sc.toNat).toNat % 32 = k) :=
  ⟨5, 2, 4, { op := 19, mode := 0, sa := 1, sb := 2, sc := 3, dst := 4, shf := 0, sat := 0, acc := 0, psel := 0, circ := 0, pstep := 0, imm := 0, next := 7, seq := 0, cond := 0, lvl := 0, qp := 0, role := 0, sout := 3, sch := 1, tok := 0, loff := 0, rsv := 0 }, 0x80000003#32, 5, { setRegs [(PC_DOMUP0, 0xFFFFFFFF)] Dev.reset with now := 8, isles := [(5, { Isle.reset with cells := [(2, { Cell.reset with mode := .run 4, group := 1, arch := { CRegs.zero with g := [(1, 0x80000003#32), (2, 0x7FFFFFFE#32), (3, 0x12345#32)], acc0 := 0x123456789ABC#48, acc1 := 0x0FFFFFFFFFFF#48 } })], ctx := [(36, ({ op := 19, mode := 0, sa := 1, sb := 2, sc := 3, dst := 4, shf := 0, sat := 0, acc := 0, psel := 0, circ := 0, pstep := 0, imm := 0, next := 7, seq := 0, cond := 0, lvl := 0, qp := 0, role := 0, sout := 3, sch := 1, tok := 0, loff := 0, rsv := 0 } : Ctx).encode)] })] }, by decide⟩

theorem test_meets_CellShiftsAndSelects_3 : ∃ (n : Fin 96) (c : Fin 16) (idx : Nat) (w : Ctx) (a : BitVec 32) (k : Nat) (d : Dev), (d.cellAt n c idx w = true) ∧ (plainCtx 20 0 w = true) ∧ ((((d.isle n).cell c).arch.get w.sa.toNat) = a) ∧ ((((d.isle n).cell c).arch.get w.sc.toNat).toNat % 32 = k) :=
  ⟨5, 2, 4, { op := 20, mode := 0, sa := 1, sb := 2, sc := 3, dst := 4, shf := 0, sat := 0, acc := 0, psel := 0, circ := 0, pstep := 0, imm := 0, next := 7, seq := 0, cond := 0, lvl := 0, qp := 0, role := 0, sout := 3, sch := 1, tok := 0, loff := 0, rsv := 0 }, 0x80000003#32, 5, { setRegs [(PC_DOMUP0, 0xFFFFFFFF)] Dev.reset with now := 8, isles := [(5, { Isle.reset with cells := [(2, { Cell.reset with mode := .run 4, group := 1, arch := { CRegs.zero with g := [(1, 0x80000003#32), (2, 0x7FFFFFFE#32), (3, 0x12345#32)], acc0 := 0x123456789ABC#48, acc1 := 0x0FFFFFFFFFFF#48 } })], ctx := [(36, ({ op := 20, mode := 0, sa := 1, sb := 2, sc := 3, dst := 4, shf := 0, sat := 0, acc := 0, psel := 0, circ := 0, pstep := 0, imm := 0, next := 7, seq := 0, cond := 0, lvl := 0, qp := 0, role := 0, sout := 3, sch := 1, tok := 0, loff := 0, rsv := 0 } : Ctx).encode)] })] }, by decide⟩

theorem test_meets_CellShiftsAndSelects_4 : ∃ (n : Fin 96) (c : Fin 16) (idx : Nat) (w : Ctx) (a : BitVec 32) (k : Nat) (d : Dev), (d.cellAt n c idx w = true) ∧ (plainCtx 21 0 w = true) ∧ ((((d.isle n).cell c).arch.get w.sa.toNat) = a) ∧ ((((d.isle n).cell c).arch.get w.sc.toNat).toNat % 32 = k) :=
  ⟨5, 2, 4, { op := 21, mode := 0, sa := 1, sb := 2, sc := 3, dst := 4, shf := 0, sat := 0, acc := 0, psel := 0, circ := 0, pstep := 0, imm := 0, next := 7, seq := 0, cond := 0, lvl := 0, qp := 0, role := 0, sout := 3, sch := 1, tok := 0, loff := 0, rsv := 0 }, 0x80000003#32, 5, { setRegs [(PC_DOMUP0, 0xFFFFFFFF)] Dev.reset with now := 8, isles := [(5, { Isle.reset with cells := [(2, { Cell.reset with mode := .run 4, group := 1, arch := { CRegs.zero with g := [(1, 0x80000003#32), (2, 0x7FFFFFFE#32), (3, 0x12345#32)], acc0 := 0x123456789ABC#48, acc1 := 0x0FFFFFFFFFFF#48 } })], ctx := [(36, ({ op := 21, mode := 0, sa := 1, sb := 2, sc := 3, dst := 4, shf := 0, sat := 0, acc := 0, psel := 0, circ := 0, pstep := 0, imm := 0, next := 7, seq := 0, cond := 0, lvl := 0, qp := 0, role := 0, sout := 3, sch := 1, tok := 0, loff := 0, rsv := 0 } : Ctx).encode)] })] }, by decide⟩

theorem test_meets_CellShiftsAndSelects_5 : ∃ (n : Fin 96) (c : Fin 16) (idx : Nat) (w : Ctx) (a : BitVec 32) (k : Nat) (d : Dev), (d.cellAt n c idx w = true) ∧ (plainCtx 22 0 w = true) ∧ ((((d.isle n).cell c).arch.get w.sa.toNat) = a) ∧ (k < 32) ∧ ((∀ i : Fin 32, 31 - k ≤ i.val → a.getLsbD i = a.msb)) ∧ (k = 31 ∨ a.getLsbD (30 - k) ≠ a.msb) :=
  ⟨5, 2, 4, { op := 22, mode := 0, sa := 1, sb := 2, sc := 3, dst := 4, shf := 0, sat := 0, acc := 0, psel := 0, circ := 0, pstep := 0, imm := 0, next := 7, seq := 0, cond := 0, lvl := 0, qp := 0, role := 0, sout := 3, sch := 1, tok := 0, loff := 0, rsv := 0 }, 0x12345#32, 14, { setRegs [(PC_DOMUP0, 0xFFFFFFFF)] Dev.reset with now := 8, isles := [(5, { Isle.reset with cells := [(2, { Cell.reset with mode := .run 4, group := 1, arch := { CRegs.zero with g := [(1, 0x12345#32), (2, 0x7FFFFFFE#32), (3, 0x12345#32)], acc0 := 0x123456789ABC#48, acc1 := 0x0FFFFFFFFFFF#48 } })], ctx := [(36, ({ op := 22, mode := 0, sa := 1, sb := 2, sc := 3, dst := 4, shf := 0, sat := 0, acc := 0, psel := 0, circ := 0, pstep := 0, imm := 0, next := 7, seq := 0, cond := 0, lvl := 0, qp := 0, role := 0, sout := 3, sch := 1, tok := 0, loff := 0, rsv := 0 } : Ctx).encode)] })] }, by decide⟩

theorem test_meets_CellShiftsAndSelects_6 : ∃ (n : Fin 96) (c : Fin 16) (idx : Nat) (w : Ctx) (a : BitVec 32) (k : Nat) (d : Dev), (d.cellAt n c idx w = true) ∧ (plainCtx 23 0 w = true) ∧ ((((d.isle n).cell c).arch.get w.sa.toNat) = a) ∧ (k < 32) ∧ ((∀ i : Fin 32, 31 - k ≤ i.val → a.getLsbD i = a.msb)) ∧ (k = 31 ∨ a.getLsbD (30 - k) ≠ a.msb) :=
  ⟨5, 2, 4, { op := 23, mode := 0, sa := 1, sb := 2, sc := 3, dst := 4, shf := 0, sat := 0, acc := 0, psel := 0, circ := 0, pstep := 0, imm := 0, next := 7, seq := 0, cond := 0, lvl := 0, qp := 0, role := 0, sout := 3, sch := 1, tok := 0, loff := 0, rsv := 0 }, 0xFFF12345#32, 11, { setRegs [(PC_DOMUP0, 0xFFFFFFFF)] Dev.reset with now := 8, isles := [(5, { Isle.reset with cells := [(2, { Cell.reset with mode := .run 4, group := 1, arch := { CRegs.zero with g := [(1, 0xFFF12345#32), (2, 0x7FFFFFFE#32), (3, 0x12345#32)], acc0 := 0x123456789ABC#48, acc1 := 0x0FFFFFFFFFFF#48 } })], ctx := [(36, ({ op := 23, mode := 0, sa := 1, sb := 2, sc := 3, dst := 4, shf := 0, sat := 0, acc := 0, psel := 0, circ := 0, pstep := 0, imm := 0, next := 7, seq := 0, cond := 0, lvl := 0, qp := 0, role := 0, sout := 3, sch := 1, tok := 0, loff := 0, rsv := 0 } : Ctx).encode)] })] }, by decide⟩

theorem test_meets_CellShiftsAndSelects_7 : ∃ (n : Fin 96) (c : Fin 16) (idx : Nat) (w : Ctx) (a : BitVec 32) (d : Dev), (d.cellAt n c idx w = true) ∧ (plainCtx 25 0 w = true) ∧ ((((d.isle n).cell c).arch.get w.sa.toNat) = a) :=
  ⟨5, 2, 4, { op := 25, mode := 0, sa := 1, sb := 2, sc := 3, dst := 4, shf := 0, sat := 0, acc := 0, psel := 0, circ := 0, pstep := 0, imm := 0, next := 7, seq := 0, cond := 0, lvl := 0, qp := 0, role := 0, sout := 3, sch := 1, tok := 0, loff := 0, rsv := 0 }, 0x80000003#32, { setRegs [(PC_DOMUP0, 0xFFFFFFFF)] Dev.reset with now := 8, isles := [(5, { Isle.reset with cells := [(2, { Cell.reset with mode := .run 4, group := 1, arch := { CRegs.zero with g := [(1, 0x80000003#32), (2, 0x7FFFFFFE#32), (3, 0x12345#32)], acc0 := 0x123456789ABC#48, acc1 := 0x0FFFFFFFFFFF#48 } })], ctx := [(36, ({ op := 25, mode := 0, sa := 1, sb := 2, sc := 3, dst := 4, shf := 0, sat := 0, acc := 0, psel := 0, circ := 0, pstep := 0, imm := 0, next := 7, seq := 0, cond := 0, lvl := 0, qp := 0, role := 0, sout := 3, sch := 1, tok := 0, loff := 0, rsv := 0 } : Ctx).encode)] })] }, by decide⟩

theorem test_meets_CellShiftsAndSelects_8 : ∃ (n : Fin 96) (c : Fin 16) (idx : Nat) (w : Ctx) (a : BitVec 32) (b : BitVec 32) (d : Dev), (d.cellAt n c idx w = true) ∧ (plainCtx 26 0 w = true) ∧ ((((d.isle n).cell c).arch.get w.sa.toNat) = a) ∧ ((((d.isle n).cell c).arch.get w.sb.toNat) = b) :=
  ⟨5, 2, 4, { op := 26, mode := 0, sa := 1, sb := 2, sc := 3, dst := 4, shf := 0, sat := 0, acc := 0, psel := 0, circ := 0, pstep := 0, imm := 0, next := 7, seq := 0, cond := 0, lvl := 0, qp := 0, role := 0, sout := 3, sch := 1, tok := 0, loff := 0, rsv := 0 }, 0x80000003#32, 0x7FFFFFFE#32, { setRegs [(PC_DOMUP0, 0xFFFFFFFF)] Dev.reset with now := 8, isles := [(5, { Isle.reset with cells := [(2, { Cell.reset with mode := .run 4, group := 1, arch := { CRegs.zero with g := [(1, 0x80000003#32), (2, 0x7FFFFFFE#32), (3, 0x12345#32)], acc0 := 0x123456789ABC#48, acc1 := 0x0FFFFFFFFFFF#48 } })], ctx := [(36, ({ op := 26, mode := 0, sa := 1, sb := 2, sc := 3, dst := 4, shf := 0, sat := 0, acc := 0, psel := 0, circ := 0, pstep := 0, imm := 0, next := 7, seq := 0, cond := 0, lvl := 0, qp := 0, role := 0, sout := 3, sch := 1, tok := 0, loff := 0, rsv := 0 } : Ctx).encode)] })] }, by decide⟩

theorem test_meets_CellShiftsAndSelects_9 : ∃ (n : Fin 96) (c : Fin 16) (idx : Nat) (w : Ctx) (a : BitVec 32) (d : Dev), (d.cellAt n c idx w = true) ∧ (plainCtx 27 3 w = true) ∧ ((((d.isle n).cell c).arch.get w.sa.toNat) = a) :=
  ⟨5, 2, 4, { op := 27, mode := 3, sa := 1, sb := 2, sc := 3, dst := 4, shf := 0, sat := 0, acc := 0, psel := 0, circ := 0, pstep := 0, imm := 0, next := 7, seq := 0, cond := 0, lvl := 0, qp := 0, role := 0, sout := 3, sch := 1, tok := 0, loff := 0, rsv := 0 }, 0x80000003#32, { setRegs [(PC_DOMUP0, 0xFFFFFFFF)] Dev.reset with now := 8, isles := [(5, { Isle.reset with cells := [(2, { Cell.reset with mode := .run 4, group := 1, arch := { CRegs.zero with g := [(1, 0x80000003#32), (2, 0x7FFFFFFE#32), (3, 0x12345#32)], acc0 := 0x123456789ABC#48, acc1 := 0x0FFFFFFFFFFF#48 } })], ctx := [(36, ({ op := 27, mode := 3, sa := 1, sb := 2, sc := 3, dst := 4, shf := 0, sat := 0, acc := 0, psel := 0, circ := 0, pstep := 0, imm := 0, next := 7, seq := 0, cond := 0, lvl := 0, qp := 0, role := 0, sout := 3, sch := 1, tok := 0, loff := 0, rsv := 0 } : Ctx).encode)] })] }, by decide⟩

theorem test_meets_CellShiftsAndSelects_10 : ∃ (n : Fin 96) (c : Fin 16) (idx : Nat) (w : Ctx) (a : BitVec 32) (z : BitVec 32) (d : Dev), (d.cellAt n c idx w = true) ∧ (plainCtx 28 0 w = true) ∧ ((((d.isle n).cell c).arch.get w.sa.toNat) = a) ∧ ((((d.isle n).cell c).arch.get w.sc.toNat) = z) :=
  ⟨5, 2, 4, { op := 28, mode := 0, sa := 1, sb := 2, sc := 3, dst := 4, shf := 0, sat := 0, acc := 0, psel := 0, circ := 0, pstep := 0, imm := 0, next := 7, seq := 0, cond := 0, lvl := 0, qp := 0, role := 0, sout := 3, sch := 1, tok := 0, loff := 0, rsv := 0 }, 0x80000003#32, 0x12345#32, { setRegs [(PC_DOMUP0, 0xFFFFFFFF)] Dev.reset with now := 8, isles := [(5, { Isle.reset with cells := [(2, { Cell.reset with mode := .run 4, group := 1, arch := { CRegs.zero with g := [(1, 0x80000003#32), (2, 0x7FFFFFFE#32), (3, 0x12345#32)], acc0 := 0x123456789ABC#48, acc1 := 0x0FFFFFFFFFFF#48 } })], ctx := [(36, ({ op := 28, mode := 0, sa := 1, sb := 2, sc := 3, dst := 4, shf := 0, sat := 0, acc := 0, psel := 0, circ := 0, pstep := 0, imm := 0, next := 7, seq := 0, cond := 0, lvl := 0, qp := 0, role := 0, sout := 3, sch := 1, tok := 0, loff := 0, rsv := 0 } : Ctx).encode)] })] }, by decide⟩

theorem test_meets_CellShiftsAndSelects_11 : ∃ (n : Fin 96) (c : Fin 16) (idx : Nat) (w : Ctx) (a : BitVec 32) (b : BitVec 32) (d : Dev), (d.cellAt n c idx w = true) ∧ (plainCtx 29 0 w = true) ∧ ((((d.isle n).cell c).arch.get w.sa.toNat) = a) ∧ ((((d.isle n).cell c).arch.get w.sb.toNat) = b) :=
  ⟨5, 2, 4, { op := 29, mode := 0, sa := 1, sb := 2, sc := 3, dst := 4, shf := 0, sat := 0, acc := 0, psel := 0, circ := 0, pstep := 0, imm := 0, next := 7, seq := 0, cond := 2, lvl := 0, qp := 0, role := 0, sout := 3, sch := 1, tok := 0, loff := 0, rsv := 0 }, 0x80000003#32, 0x7FFFFFFE#32, { setRegs [(PC_DOMUP0, 0xFFFFFFFF)] Dev.reset with now := 8, isles := [(5, { Isle.reset with cells := [(2, { Cell.reset with mode := .run 4, group := 1, arch := { CRegs.zero with g := [(1, 0x80000003#32), (2, 0x7FFFFFFE#32), (3, 0x12345#32)], acc0 := 0x123456789ABC#48, acc1 := 0x0FFFFFFFFFFF#48 } })], ctx := [(36, ({ op := 29, mode := 0, sa := 1, sb := 2, sc := 3, dst := 4, shf := 0, sat := 0, acc := 0, psel := 0, circ := 0, pstep := 0, imm := 0, next := 7, seq := 0, cond := 2, lvl := 0, qp := 0, role := 0, sout := 3, sch := 1, tok := 0, loff := 0, rsv := 0 } : Ctx).encode)] })] }, by decide⟩

theorem test_meets_CellMultiplies_1 : ∃ (n : Fin 96) (c : Fin 16) (idx : Nat) (w : Ctx) (a z : BitVec 32) (d : Dev), (d.cellAt n c idx w = true) ∧ (plainCtx 32 0 w = true) ∧ (w.acc = 0) ∧ ((((d.isle n).cell c).arch.get w.sa.toNat) = a) ∧ ((((d.isle n).cell c).arch.get w.sc.toNat) = z) :=
  ⟨5, 2, 4, { op := 32, mode := 0, sa := 1, sb := 2, sc := 3, dst := 4, shf := 0, sat := 0, acc := 0, psel := 0, circ := 0, pstep := 0, imm := 0, next := 7, seq := 0, cond := 0, lvl := 0, qp := 0, role := 0, sout := 0, sch := 0, tok := 0, loff := 0, rsv := 0 }, 0x80000003#32, 0x12345#32, { setRegs [(PC_DOMUP0, 0xFFFFFFFF)] Dev.reset with now := 8, isles := [(5, { Isle.reset with cells := [(2, { Cell.reset with mode := .run 4, group := 1, arch := { CRegs.zero with g := [(1, 0x80000003#32), (2, 0x7FFFFFFE#32), (3, 0x12345#32)], acc0 := 0x123456789ABC#48, acc1 := 0x0FFFFFFFFFFF#48 } })], ctx := [(36, ({ op := 32, mode := 0, sa := 1, sb := 2, sc := 3, dst := 4, shf := 0, sat := 0, acc := 0, psel := 0, circ := 0, pstep := 0, imm := 0, next := 7, seq := 0, cond := 0, lvl := 0, qp := 0, role := 0, sout := 0, sch := 0, tok := 0, loff := 0, rsv := 0 } : Ctx).encode)] })] }, by decide⟩

theorem test_meets_CellMultiplies_2 : ∃ (n : Fin 96) (c : Fin 16) (idx : Nat) (w : Ctx) (a z : BitVec 32) (d : Dev), (d.cellAt n c idx w = true) ∧ (plainCtx 32 0 w = true) ∧ (w.acc = 1) ∧ ((((d.isle n).cell c).arch.get w.sa.toNat) = a) ∧ ((((d.isle n).cell c).arch.get w.sc.toNat) = z) :=
  ⟨5, 2, 4, { op := 32, mode := 0, sa := 1, sb := 2, sc := 3, dst := 4, shf := 0, sat := 0, acc := 1, psel := 0, circ := 0, pstep := 0, imm := 0, next := 7, seq := 0, cond := 0, lvl := 0, qp := 0, role := 0, sout := 0, sch := 0, tok := 0, loff := 0, rsv := 0 }, 0x80000003#32, 0x12345#32, { setRegs [(PC_DOMUP0, 0xFFFFFFFF)] Dev.reset with now := 8, isles := [(5, { Isle.reset with cells := [(2, { Cell.reset with mode := .run 4, group := 1, arch := { CRegs.zero with g := [(1, 0x80000003#32), (2, 0x7FFFFFFE#32), (3, 0x12345#32)], acc0 := 0x123456789ABC#48, acc1 := 0x0FFFFFFFFFFF#48 } })], ctx := [(36, ({ op := 32, mode := 0, sa := 1, sb := 2, sc := 3, dst := 4, shf := 0, sat := 0, acc := 1, psel := 0, circ := 0, pstep := 0, imm := 0, next := 7, seq := 0, cond := 0, lvl := 0, qp := 0, role := 0, sout := 0, sch := 0, tok := 0, loff := 0, rsv := 0 } : Ctx).encode)] })] }, by decide⟩

theorem test_meets_CellMultiplies_3 : ∃ (n : Fin 96) (c : Fin 16) (idx : Nat) (w : Ctx) (a z : BitVec 32) (d : Dev), (d.cellAt n c idx w = true) ∧ (plainCtx 33 0 w = true) ∧ (w.acc = 1) ∧ ((((d.isle n).cell c).arch.get w.sa.toNat) = a) ∧ ((((d.isle n).cell c).arch.get w.sc.toNat) = z) :=
  ⟨5, 2, 4, { op := 33, mode := 0, sa := 1, sb := 2, sc := 3, dst := 4, shf := 0, sat := 0, acc := 1, psel := 0, circ := 0, pstep := 0, imm := 0, next := 7, seq := 0, cond := 0, lvl := 0, qp := 0, role := 0, sout := 0, sch := 0, tok := 0, loff := 0, rsv := 0 }, 0x80000003#32, 0x12345#32, { setRegs [(PC_DOMUP0, 0xFFFFFFFF)] Dev.reset with now := 8, isles := [(5, { Isle.reset with cells := [(2, { Cell.reset with mode := .run 4, group := 1, arch := { CRegs.zero with g := [(1, 0x80000003#32), (2, 0x7FFFFFFE#32), (3, 0x12345#32)], acc0 := 0x123456789ABC#48, acc1 := 0x0FFFFFFFFFFF#48 } })], ctx := [(36, ({ op := 33, mode := 0, sa := 1, sb := 2, sc := 3, dst := 4, shf := 0, sat := 0, acc := 1, psel := 0, circ := 0, pstep := 0, imm := 0, next := 7, seq := 0, cond := 0, lvl := 0, qp := 0, role := 0, sout := 0, sch := 0, tok := 0, loff := 0, rsv := 0 } : Ctx).encode)] })] }, by decide⟩

theorem test_meets_CellMultiplies_4 : ∃ (n : Fin 96) (c : Fin 16) (idx : Nat) (w : Ctx) (a z : BitVec 32) (d : Dev), (d.cellAt n c idx w = true) ∧ (plainCtx 33 0 w = true) ∧ (w.acc = 2) ∧ ((((d.isle n).cell c).arch.get w.sa.toNat) = a) ∧ ((((d.isle n).cell c).arch.get w.sc.toNat) = z) :=
  ⟨5, 2, 4, { op := 33, mode := 0, sa := 1, sb := 2, sc := 3, dst := 4, shf := 0, sat := 0, acc := 2, psel := 0, circ := 0, pstep := 0, imm := 0, next := 7, seq := 0, cond := 0, lvl := 0, qp := 0, role := 0, sout := 0, sch := 0, tok := 0, loff := 0, rsv := 0 }, 0x80000003#32, 0x12345#32, { setRegs [(PC_DOMUP0, 0xFFFFFFFF)] Dev.reset with now := 8, isles := [(5, { Isle.reset with cells := [(2, { Cell.reset with mode := .run 4, group := 1, arch := { CRegs.zero with g := [(1, 0x80000003#32), (2, 0x7FFFFFFE#32), (3, 0x12345#32)], acc0 := 0x123456789ABC#48, acc1 := 0x0FFFFFFFFFFF#48 } })], ctx := [(36, ({ op := 33, mode := 0, sa := 1, sb := 2, sc := 3, dst := 4, shf := 0, sat := 0, acc := 2, psel := 0, circ := 0, pstep := 0, imm := 0, next := 7, seq := 0, cond := 0, lvl := 0, qp := 0, role := 0, sout := 0, sch := 0, tok := 0, loff := 0, rsv := 0 } : Ctx).encode)] })] }, by decide⟩

theorem test_meets_CellMultiplies_5 : ∃ (n : Fin 96) (c : Fin 16) (idx : Nat) (w : Ctx) (a z : BitVec 32) (d : Dev), (d.cellAt n c idx w = true) ∧ (plainCtx 34 0 w = true) ∧ (w.acc = 1) ∧ ((((d.isle n).cell c).arch.get w.sa.toNat) = a) ∧ ((((d.isle n).cell c).arch.get w.sc.toNat) = z) :=
  ⟨5, 2, 4, { op := 34, mode := 0, sa := 1, sb := 2, sc := 3, dst := 4, shf := 0, sat := 0, acc := 1, psel := 0, circ := 0, pstep := 0, imm := 0, next := 7, seq := 0, cond := 0, lvl := 0, qp := 0, role := 0, sout := 0, sch := 0, tok := 0, loff := 0, rsv := 0 }, 0x80000003#32, 0x12345#32, { setRegs [(PC_DOMUP0, 0xFFFFFFFF)] Dev.reset with now := 8, isles := [(5, { Isle.reset with cells := [(2, { Cell.reset with mode := .run 4, group := 1, arch := { CRegs.zero with g := [(1, 0x80000003#32), (2, 0x7FFFFFFE#32), (3, 0x12345#32)], acc0 := 0x123456789ABC#48, acc1 := 0x0FFFFFFFFFFF#48 } })], ctx := [(36, ({ op := 34, mode := 0, sa := 1, sb := 2, sc := 3, dst := 4, shf := 0, sat := 0, acc := 1, psel := 0, circ := 0, pstep := 0, imm := 0, next := 7, seq := 0, cond := 0, lvl := 0, qp := 0, role := 0, sout := 0, sch := 0, tok := 0, loff := 0, rsv := 0 } : Ctx).encode)] })] }, by decide⟩

theorem test_meets_CellMultiplies_6 : ∃ (n : Fin 96) (c : Fin 16) (idx : Nat) (w : Ctx) (a z : BitVec 32) (d : Dev), (d.cellAt n c idx w = true) ∧ (plainCtx 35 3 w = true) ∧ (w.acc = 3) ∧ ((((d.isle n).cell c).arch.get w.sa.toNat) = a) ∧ ((((d.isle n).cell c).arch.get w.sc.toNat) = z) :=
  ⟨5, 2, 4, { op := 35, mode := 3, sa := 1, sb := 2, sc := 3, dst := 4, shf := 0, sat := 0, acc := 3, psel := 0, circ := 0, pstep := 0, imm := 0, next := 7, seq := 0, cond := 0, lvl := 0, qp := 0, role := 0, sout := 0, sch := 0, tok := 0, loff := 0, rsv := 0 }, 0x80000003#32, 0x12345#32, { setRegs [(PC_DOMUP0, 0xFFFFFFFF)] Dev.reset with now := 8, isles := [(5, { Isle.reset with cells := [(2, { Cell.reset with mode := .run 4, group := 1, arch := { CRegs.zero with g := [(1, 0x80000003#32), (2, 0x7FFFFFFE#32), (3, 0x12345#32)], acc0 := 0x123456789ABC#48, acc1 := 0x0FFFFFFFFFFF#48 } })], ctx := [(36, ({ op := 35, mode := 3, sa := 1, sb := 2, sc := 3, dst := 4, shf := 0, sat := 0, acc := 3, psel := 0, circ := 0, pstep := 0, imm := 0, next := 7, seq := 0, cond := 0, lvl := 0, qp := 0, role := 0, sout := 0, sch := 0, tok := 0, loff := 0, rsv := 0 } : Ctx).encode)] })] }, by decide⟩

theorem test_meets_CellMultiplies_7 : ∃ (n : Fin 96) (c : Fin 16) (idx : Nat) (w : Ctx) (a z : BitVec 32) (d : Dev), (d.cellAt n c idx w = true) ∧ (plainCtx 38 3 w = true) ∧ (w.acc = 3) ∧ ((((d.isle n).cell c).arch.get w.sa.toNat) = a) ∧ ((((d.isle n).cell c).arch.get w.sc.toNat) = z) :=
  ⟨5, 2, 4, { op := 38, mode := 3, sa := 1, sb := 2, sc := 3, dst := 4, shf := 0, sat := 0, acc := 3, psel := 0, circ := 0, pstep := 0, imm := 0, next := 7, seq := 0, cond := 0, lvl := 0, qp := 0, role := 0, sout := 0, sch := 0, tok := 0, loff := 0, rsv := 0 }, 0x80000003#32, 0x12345#32, { setRegs [(PC_DOMUP0, 0xFFFFFFFF)] Dev.reset with now := 8, isles := [(5, { Isle.reset with cells := [(2, { Cell.reset with mode := .run 4, group := 1, arch := { CRegs.zero with g := [(1, 0x80000003#32), (2, 0x7FFFFFFE#32), (3, 0x12345#32)], acc0 := 0x123456789ABC#48, acc1 := 0x0FFFFFFFFFFF#48 } })], ctx := [(36, ({ op := 38, mode := 3, sa := 1, sb := 2, sc := 3, dst := 4, shf := 0, sat := 0, acc := 3, psel := 0, circ := 0, pstep := 0, imm := 0, next := 7, seq := 0, cond := 0, lvl := 0, qp := 0, role := 0, sout := 0, sch := 0, tok := 0, loff := 0, rsv := 0 } : Ctx).encode)] })] }, by decide⟩

theorem test_meets_CellMultiplies_8 : ∃ (n : Fin 96) (c : Fin 16) (idx : Nat) (w : Ctx) (a z : BitVec 32) (d : Dev), (d.cellAt n c idx w = true) ∧ (plainCtx 36 3 w = true) ∧ (w.acc = 3) ∧ ((((d.isle n).cell c).arch.get w.sa.toNat) = a) ∧ ((((d.isle n).cell c).arch.get w.sc.toNat) = z) ∧ (-(2 ^ 46) ≤ (chained ((d.isle n).cell c) false 0).toInt ∧ (chained ((d.isle n).cell c) false 0).toInt < 2 ^ 46) ∧ (-(2 ^ 46) ≤ (chained ((d.isle n).cell c) false 1).toInt ∧ (chained ((d.isle n).cell c) false 1).toInt < 2 ^ 46) :=
  ⟨5, 2, 4, { op := 36, mode := 3, sa := 1, sb := 2, sc := 3, dst := 4, shf := 0, sat := 0, acc := 3, psel := 0, circ := 0, pstep := 0, imm := 0, next := 7, seq := 0, cond := 0, lvl := 0, qp := 0, role := 0, sout := 0, sch := 0, tok := 0, loff := 0, rsv := 0 }, 0x80000003#32, 0x12345#32, { setRegs [(PC_DOMUP0, 0xFFFFFFFF)] Dev.reset with now := 8, isles := [(5, { Isle.reset with cells := [(2, { Cell.reset with mode := .run 4, group := 1, arch := { CRegs.zero with g := [(1, 0x80000003#32), (2, 0x7FFFFFFE#32), (3, 0x12345#32)], acc0 := 0x123456789ABC#48, acc1 := 0x0FFFFFFFFFFF#48 } })], ctx := [(36, ({ op := 36, mode := 3, sa := 1, sb := 2, sc := 3, dst := 4, shf := 0, sat := 0, acc := 3, psel := 0, circ := 0, pstep := 0, imm := 0, next := 7, seq := 0, cond := 0, lvl := 0, qp := 0, role := 0, sout := 0, sch := 0, tok := 0, loff := 0, rsv := 0 } : Ctx).encode)] })] }, by decide⟩

theorem test_meets_CellMultiplies_9 : ∃ (n : Fin 96) (c : Fin 16) (idx : Nat) (w : Ctx) (a z : BitVec 32) (d : Dev), (d.cellAt n c idx w = true) ∧ (plainCtx 37 3 w = true) ∧ (w.acc = 3) ∧ ((((d.isle n).cell c).arch.get w.sa.toNat) = a) ∧ ((((d.isle n).cell c).arch.get w.sc.toNat) = z) ∧ (-(2 ^ 46) ≤ (chained ((d.isle n).cell c) false 0).toInt ∧ (chained ((d.isle n).cell c) false 0).toInt < 2 ^ 46) ∧ (-(2 ^ 46) ≤ (chained ((d.isle n).cell c) false 1).toInt ∧ (chained ((d.isle n).cell c) false 1).toInt < 2 ^ 46) :=
  ⟨5, 2, 4, { op := 37, mode := 3, sa := 1, sb := 2, sc := 3, dst := 4, shf := 0, sat := 0, acc := 3, psel := 0, circ := 0, pstep := 0, imm := 0, next := 7, seq := 0, cond := 0, lvl := 0, qp := 0, role := 0, sout := 0, sch := 0, tok := 0, loff := 0, rsv := 0 }, 0x80000003#32, 0x12345#32, { setRegs [(PC_DOMUP0, 0xFFFFFFFF)] Dev.reset with now := 8, isles := [(5, { Isle.reset with cells := [(2, { Cell.reset with mode := .run 4, group := 1, arch := { CRegs.zero with g := [(1, 0x80000003#32), (2, 0x7FFFFFFE#32), (3, 0x12345#32)], acc0 := 0x123456789ABC#48, acc1 := 0x0FFFFFFFFFFF#48 } })], ctx := [(36, ({ op := 37, mode := 3, sa := 1, sb := 2, sc := 3, dst := 4, shf := 0, sat := 0, acc := 3, psel := 0, circ := 0, pstep := 0, imm := 0, next := 7, seq := 0, cond := 0, lvl := 0, qp := 0, role := 0, sout := 0, sch := 0, tok := 0, loff := 0, rsv := 0 } : Ctx).encode)] })] }, by decide⟩

theorem test_meets_CellMultiplies_10 : ∃ (n : Fin 96) (c : Fin 16) (idx : Nat) (w : Ctx) (a z : BitVec 32) (d : Dev), (d.cellAt n c idx w = true) ∧ (plainCtx 39 3 w = true) ∧ (w.acc = 3) ∧ ((((d.isle n).cell c).arch.get w.sa.toNat) = a) ∧ ((((d.isle n).cell c).arch.get w.sc.toNat) = z) ∧ (-(2 ^ 46) ≤ (chained ((d.isle n).cell c) false 0).toInt ∧ (chained ((d.isle n).cell c) false 0).toInt < 2 ^ 46) ∧ (-(2 ^ 46) ≤ (chained ((d.isle n).cell c) false 1).toInt ∧ (chained ((d.isle n).cell c) false 1).toInt < 2 ^ 46) :=
  ⟨5, 2, 4, { op := 39, mode := 3, sa := 1, sb := 2, sc := 3, dst := 4, shf := 0, sat := 0, acc := 3, psel := 0, circ := 0, pstep := 0, imm := 0, next := 7, seq := 0, cond := 0, lvl := 0, qp := 0, role := 0, sout := 0, sch := 0, tok := 0, loff := 0, rsv := 0 }, 0x80000003#32, 0x12345#32, { setRegs [(PC_DOMUP0, 0xFFFFFFFF)] Dev.reset with now := 8, isles := [(5, { Isle.reset with cells := [(2, { Cell.reset with mode := .run 4, group := 1, arch := { CRegs.zero with g := [(1, 0x80000003#32), (2, 0x7FFFFFFE#32), (3, 0x12345#32)], acc0 := 0x123456789ABC#48, acc1 := 0x0FFFFFFFFFFF#48 } })], ctx := [(36, ({ op := 39, mode := 3, sa := 1, sb := 2, sc := 3, dst := 4, shf := 0, sat := 0, acc := 3, psel := 0, circ := 0, pstep := 0, imm := 0, next := 7, seq := 0, cond := 0, lvl := 0, qp := 0, role := 0, sout := 0, sch := 0, tok := 0, loff := 0, rsv := 0 } : Ctx).encode)] })] }, by decide⟩

theorem test_meets_CellMultiplies_11 : ∃ (n : Fin 96) (c : Fin 16) (idx : Nat) (w : Ctx) (a z : BitVec 32) (d : Dev), (d.cellAt n c idx w = true) ∧ (plainCtx 40 3 w = true) ∧ (w.acc = 3) ∧ ((((d.isle n).cell c).arch.get w.sa.toNat) = a) ∧ ((((d.isle n).cell c).arch.get w.sc.toNat) = z) ∧ (-(2 ^ 46) ≤ (chained ((d.isle n).cell c) false 0).toInt ∧ (chained ((d.isle n).cell c) false 0).toInt < 2 ^ 46) ∧ (-(2 ^ 46) ≤ (chained ((d.isle n).cell c) false 1).toInt ∧ (chained ((d.isle n).cell c) false 1).toInt < 2 ^ 46) :=
  ⟨5, 2, 4, { op := 40, mode := 3, sa := 1, sb := 2, sc := 3, dst := 4, shf := 0, sat := 0, acc := 3, psel := 0, circ := 0, pstep := 0, imm := 0, next := 7, seq := 0, cond := 0, lvl := 0, qp := 0, role := 0, sout := 0, sch := 0, tok := 0, loff := 0, rsv := 0 }, 0x80000003#32, 0x12345#32, { setRegs [(PC_DOMUP0, 0xFFFFFFFF)] Dev.reset with now := 8, isles := [(5, { Isle.reset with cells := [(2, { Cell.reset with mode := .run 4, group := 1, arch := { CRegs.zero with g := [(1, 0x80000003#32), (2, 0x7FFFFFFE#32), (3, 0x12345#32)], acc0 := 0x123456789ABC#48, acc1 := 0x0FFFFFFFFFFF#48 } })], ctx := [(36, ({ op := 40, mode := 3, sa := 1, sb := 2, sc := 3, dst := 4, shf := 0, sat := 0, acc := 3, psel := 0, circ := 0, pstep := 0, imm := 0, next := 7, seq := 0, cond := 0, lvl := 0, qp := 0, role := 0, sout := 0, sch := 0, tok := 0, loff := 0, rsv := 0 } : Ctx).encode)] })] }, by decide⟩

theorem test_meets_CellMultiplies_12 : ∃ (n : Fin 96) (c : Fin 16) (idx : Nat) (w : Ctx) (a b : BitVec 32) (d : Dev), (d.cellAt n c idx w = true) ∧ (plainCtx 41 0 w = true) ∧ (w.acc = 2) ∧ ((((d.isle n).cell c).arch.get w.sa.toNat) = a) ∧ ((((d.isle n).cell c).arch.get w.sb.toNat) = b) :=
  ⟨5, 2, 4, { op := 41, mode := 0, sa := 1, sb := 2, sc := 3, dst := 4, shf := 0, sat := 0, acc := 2, psel := 0, circ := 0, pstep := 0, imm := 0, next := 7, seq := 0, cond := 0, lvl := 0, qp := 0, role := 0, sout := 0, sch := 0, tok := 0, loff := 0, rsv := 0 }, 0x80000003#32, 0x7FFFFFFE#32, { setRegs [(PC_DOMUP0, 0xFFFFFFFF)] Dev.reset with now := 8, isles := [(5, { Isle.reset with cells := [(2, { Cell.reset with mode := .run 4, group := 1, arch := { CRegs.zero with g := [(1, 0x80000003#32), (2, 0x7FFFFFFE#32), (3, 0x12345#32)], acc0 := 0x123456789ABC#48, acc1 := 0x0FFFFFFFFFFF#48 } })], ctx := [(36, ({ op := 41, mode := 0, sa := 1, sb := 2, sc := 3, dst := 4, shf := 0, sat := 0, acc := 2, psel := 0, circ := 0, pstep := 0, imm := 0, next := 7, seq := 0, cond := 0, lvl := 0, qp := 0, role := 0, sout := 0, sch := 0, tok := 0, loff := 0, rsv := 0 } : Ctx).encode)] })] }, by decide⟩

theorem test_meets_CellMultiplies_13 : ∃ (n : Fin 96) (c : Fin 16) (idx : Nat) (w : Ctx) (a z : BitVec 32) (d : Dev), (d.cellAt n c idx w = true) ∧ (plainCtx 42 0 w = true) ∧ (w.acc = 1) ∧ ((((d.isle n).cell c).arch.get w.sa.toNat) = a) ∧ ((((d.isle n).cell c).arch.get w.sc.toNat) = z) :=
  ⟨5, 2, 4, { op := 42, mode := 0, sa := 1, sb := 2, sc := 3, dst := 4, shf := 0, sat := 0, acc := 1, psel := 0, circ := 0, pstep := 0, imm := 0, next := 7, seq := 0, cond := 0, lvl := 0, qp := 0, role := 0, sout := 0, sch := 0, tok := 0, loff := 0, rsv := 0 }, 0x80000003#32, 0x12345#32, { setRegs [(PC_DOMUP0, 0xFFFFFFFF)] Dev.reset with now := 8, isles := [(5, { Isle.reset with cells := [(2, { Cell.reset with mode := .run 4, group := 1, arch := { CRegs.zero with g := [(1, 0x80000003#32), (2, 0x7FFFFFFE#32), (3, 0x12345#32)], acc0 := 0x123456789ABC#48, acc1 := 0x0FFFFFFFFFFF#48 } })], ctx := [(36, ({ op := 42, mode := 0, sa := 1, sb := 2, sc := 3, dst := 4, shf := 0, sat := 0, acc := 1, psel := 0, circ := 0, pstep := 0, imm := 0, next := 7, seq := 0, cond := 0, lvl := 0, qp := 0, role := 0, sout := 0, sch := 0, tok := 0, loff := 0, rsv := 0 } : Ctx).encode)] })] }, by decide⟩

theorem test_meets_CellMultiplies_14 : ∃ (n : Fin 96) (c : Fin 16) (idx : Nat) (w : Ctx) (a z : BitVec 32) (d : Dev), (d.cellAt n c idx w = true) ∧ (plainCtx 43 0 w = true) ∧ (w.acc = 1) ∧ ((((d.isle n).cell c).arch.get w.sa.toNat) = a) ∧ ((((d.isle n).cell c).arch.get w.sc.toNat) = z) :=
  ⟨5, 2, 4, { op := 43, mode := 0, sa := 1, sb := 2, sc := 3, dst := 4, shf := 0, sat := 0, acc := 1, psel := 0, circ := 0, pstep := 0, imm := 0, next := 7, seq := 0, cond := 0, lvl := 0, qp := 0, role := 0, sout := 0, sch := 0, tok := 0, loff := 0, rsv := 0 }, 0x80000003#32, 0x12345#32, { setRegs [(PC_DOMUP0, 0xFFFFFFFF)] Dev.reset with now := 8, isles := [(5, { Isle.reset with cells := [(2, { Cell.reset with mode := .run 4, group := 1, arch := { CRegs.zero with g := [(1, 0x80000003#32), (2, 0x7FFFFFFE#32), (3, 0x12345#32)], acc0 := 0x123456789ABC#48, acc1 := 0x0FFFFFFFFFFF#48 } })], ctx := [(36, ({ op := 43, mode := 0, sa := 1, sb := 2, sc := 3, dst := 4, shf := 0, sat := 0, acc := 1, psel := 0, circ := 0, pstep := 0, imm := 0, next := 7, seq := 0, cond := 0, lvl := 0, qp := 0, role := 0, sout := 0, sch := 0, tok := 0, loff := 0, rsv := 0 } : Ctx).encode)] })] }, by decide⟩

theorem test_meets_CellSequencing_1 : ∃ (n : Fin 96) (c : Fin 16) (idx : Nat) (w : Ctx) (d : Dev), (d.cellAt n c idx w = true) ∧ (w.op = 0) ∧ (w.pstep = 0) ∧ (w.tok = 0) ∧ (w.seq = 0) :=
  ⟨5, 2, 4, { op := 0, mode := 0, sa := 0, sb := 0, sc := 0, dst := 0, shf := 0, sat := 0, acc := 0, psel := 0, circ := 0, pstep := 0, imm := 0, next := 7, seq := 0, cond := 0, lvl := 0, qp := 0, role := 0, sout := 0, sch := 0, tok := 0, loff := 0, rsv := 0 }, { setRegs [(PC_DOMUP0, 0xFFFFFFFF)] Dev.reset with now := 8, isles := [(5, { Isle.reset with cells := [(2, { Cell.reset with mode := .run 4, group := 1, arch := { CRegs.zero with g := [(1, 0x80000003#32), (2, 0x7FFFFFFE#32), (3, 0x12345#32)], acc0 := 0x123456789ABC#48, acc1 := 0x0FFFFFFFFFFF#48 } })], ctx := [(36, ({ op := 0, mode := 0, sa := 0, sb := 0, sc := 0, dst := 0, shf := 0, sat := 0, acc := 0, psel := 0, circ := 0, pstep := 0, imm := 0, next := 7, seq := 0, cond := 0, lvl := 0, qp := 0, role := 0, sout := 0, sch := 0, tok := 0, loff := 0, rsv := 0 } : Ctx).encode)] })] }, by decide⟩

theorem test_meets_CellSequencing_2 : ∃ (n : Fin 96) (c : Fin 16) (idx : Nat) (w : Ctx) (d : Dev), (d.cellAt n c idx w = true) ∧ (w.op = 0) ∧ (w.pstep = 0) ∧ (w.tok = 0) ∧ (w.seq = 1) :=
  ⟨5, 2, 4, { op := 0, mode := 0, sa := 0, sb := 0, sc := 0, dst := 0, shf := 0, sat := 0, acc := 0, psel := 0, circ := 0, pstep := 0, imm := 0, next := 7, seq := 1, cond := 1, lvl := 0, qp := 0, role := 0, sout := 0, sch := 0, tok := 0, loff := 0, rsv := 0 }, { setRegs [(PC_DOMUP0, 0xFFFFFFFF)] Dev.reset with now := 8, isles := [(5, { Isle.reset with cells := [(2, { Cell.reset with mode := .run 4, group := 1, arch := { CRegs.zero with g := [(1, 0x80000003#32), (2, 0x7FFFFFFE#32), (3, 0x12345#32)], acc0 := 0x123456789ABC#48, acc1 := 0x0FFFFFFFFFFF#48 } })], ctx := [(36, ({ op := 0, mode := 0, sa := 0, sb := 0, sc := 0, dst := 0, shf := 0, sat := 0, acc := 0, psel := 0, circ := 0, pstep := 0, imm := 0, next := 7, seq := 1, cond := 1, lvl := 0, qp := 0, role := 0, sout := 0, sch := 0, tok := 0, loff := 0, rsv := 0 } : Ctx).encode)] })] }, by decide⟩

theorem test_meets_CellSequencing_3 : ∃ (n : Fin 96) (c : Fin 16) (idx : Nat) (w : Ctx) (d : Dev), (d.cellAt n c idx w = true) ∧ (w.op = 0) ∧ (w.pstep = 0) ∧ (w.tok = 0) ∧ (w.seq = 2) :=
  ⟨5, 2, 4, { op := 0, mode := 0, sa := 0, sb := 0, sc := 0, dst := 0, shf := 0, sat := 0, acc := 0, psel := 0, circ := 0, pstep := 0, imm := 9, next := 7, seq := 2, cond := 0, lvl := 1, qp := 0, role := 0, sout := 0, sch := 0, tok := 0, loff := 0, rsv := 0 }, { setRegs [(PC_DOMUP0, 0xFFFFFFFF)] Dev.reset with now := 8, isles := [(5, { Isle.reset with cells := [(2, { Cell.reset with mode := .run 4, group := 1, arch := { CRegs.zero with g := [(1, 0x80000003#32), (2, 0x7FFFFFFE#32), (3, 0x12345#32)], acc0 := 0x123456789ABC#48, acc1 := 0x0FFFFFFFFFFF#48 } })], ctx := [(36, ({ op := 0, mode := 0, sa := 0, sb := 0, sc := 0, dst := 0, shf := 0, sat := 0, acc := 0, psel := 0, circ := 0, pstep := 0, imm := 9, next := 7, seq := 2, cond := 0, lvl := 1, qp := 0, role := 0, sout := 0, sch := 0, tok := 0, loff := 0, rsv := 0 } : Ctx).encode)] })] }, by decide⟩

theorem test_meets_CellSequencing_4 : ∃ (n : Fin 96) (c : Fin 16) (idx : Nat) (w : Ctx) (k : BitVec 32) (d : Dev), (d.cellAt n c idx w = true) ∧ (w.op = 0) ∧ (w.pstep = 0) ∧ (w.tok = 0) ∧ (w.seq = 3) ∧ (((d.isle n).cell c).arch.get (0x18 + w.lvl.toNat) = k) ∧ (2 ≤ k.toNat) :=
  ⟨5, 2, 4, { op := 0, mode := 0, sa := 0, sb := 0, sc := 0, dst := 0, shf := 0, sat := 0, acc := 0, psel := 0, circ := 0, pstep := 0, imm := 0, next := 7, seq := 3, cond := 0, lvl := 1, qp := 0, role := 0, sout := 0, sch := 0, tok := 0, loff := 0, rsv := 0 }, 5, { setRegs [(PC_DOMUP0, 0xFFFFFFFF)] Dev.reset with now := 8, isles := [(5, { Isle.reset with cells := [(2, { Cell.reset with mode := .run 4, group := 1, arch := { CRegs.zero with g := [(0x19, 5)] } })], ctx := [(36, ({ op := 0, mode := 0, sa := 0, sb := 0, sc := 0, dst := 0, shf := 0, sat := 0, acc := 0, psel := 0, circ := 0, pstep := 0, imm := 0, next := 7, seq := 3, cond := 0, lvl := 1, qp := 0, role := 0, sout := 0, sch := 0, tok := 0, loff := 0, rsv := 0 } : Ctx).encode)] })] }, by decide⟩

theorem test_meets_CellSequencing_5 : ∃ (n : Fin 96) (c : Fin 16) (idx : Nat) (w : Ctx) (d : Dev), (d.cellAt n c idx w = true) ∧ (w.op = 0) ∧ (w.pstep = 0) ∧ (w.tok = 0) ∧ (w.seq = 3) ∧ ((((d.isle n).cell c).arch.get (0x18 + w.lvl.toNat)).toNat < 2) :=
  ⟨5, 2, 4, { op := 0, mode := 0, sa := 0, sb := 0, sc := 0, dst := 0, shf := 0, sat := 0, acc := 0, psel := 0, circ := 0, pstep := 0, imm := 0, next := 7, seq := 3, cond := 0, lvl := 1, qp := 0, role := 0, sout := 0, sch := 0, tok := 0, loff := 0, rsv := 0 }, { setRegs [(PC_DOMUP0, 0xFFFFFFFF)] Dev.reset with now := 8, isles := [(5, { Isle.reset with cells := [(2, { Cell.reset with mode := .run 4, group := 1, arch := { CRegs.zero with g := [(1, 0x80000003#32), (2, 0x7FFFFFFE#32), (3, 0x12345#32)], acc0 := 0x123456789ABC#48, acc1 := 0x0FFFFFFFFFFF#48 } })], ctx := [(36, ({ op := 0, mode := 0, sa := 0, sb := 0, sc := 0, dst := 0, shf := 0, sat := 0, acc := 0, psel := 0, circ := 0, pstep := 0, imm := 0, next := 7, seq := 3, cond := 0, lvl := 1, qp := 0, role := 0, sout := 0, sch := 0, tok := 0, loff := 0, rsv := 0 } : Ctx).encode)] })] }, by decide⟩

theorem test_meets_CellSequencing_6 : ∃ (n : Fin 96) (c : Fin 16) (idx : Nat) (w : Ctx) (d : Dev), (d.cellAt n c idx w = true) ∧ (w.op = 0) ∧ (w.pstep = 0) ∧ (w.tok = 0) ∧ (w.seq = 4) ∧ (((d.isle n).grp ((d.isle n).cell c).group).rcred = false) :=
  ⟨5, 2, 4, { op := 0, mode := 0, sa := 0, sb := 0, sc := 0, dst := 0, shf := 0, sat := 0, acc := 0, psel := 0, circ := 0, pstep := 0, imm := 0, next := 7, seq := 4, cond := 0, lvl := 0, qp := 0, role := 0, sout := 0, sch := 0, tok := 0, loff := 0, rsv := 0 }, { setRegs [(PC_DOMUP0, 0xFFFFFFFF)] Dev.reset with now := 8, isles := [(5, { Isle.reset with cells := [(2, { Cell.reset with mode := .run 4, group := 1, arch := { CRegs.zero with g := [(1, 0x80000003#32), (2, 0x7FFFFFFE#32), (3, 0x12345#32)], acc0 := 0x123456789ABC#48, acc1 := 0x0FFFFFFFFFFF#48 } })], ctx := [(36, ({ op := 0, mode := 0, sa := 0, sb := 0, sc := 0, dst := 0, shf := 0, sat := 0, acc := 0, psel := 0, circ := 0, pstep := 0, imm := 0, next := 7, seq := 4, cond := 0, lvl := 0, qp := 0, role := 0, sout := 0, sch := 0, tok := 0, loff := 0, rsv := 0 } : Ctx).encode)] })] }, by decide⟩

theorem test_meets_CellSequencing_7 : ∃ (n : Fin 96) (c : Fin 16) (idx : Nat) (w : Ctx) (d : Dev), (d.cellAt n c idx w = true) ∧ (w.op = 0) ∧ (w.pstep = 0) ∧ (w.tok = 0) ∧ (w.seq = 4) ∧ (((d.isle n).grp ((d.isle n).cell c).group).rcred = true) :=
  ⟨5, 2, 4, { op := 0, mode := 0, sa := 0, sb := 0, sc := 0, dst := 0, shf := 0, sat := 0, acc := 0, psel := 0, circ := 0, pstep := 0, imm := 0, next := 7, seq := 4, cond := 0, lvl := 0, qp := 0, role := 0, sout := 0, sch := 0, tok := 0, loff := 0, rsv := 0 }, { setRegs [(PC_DOMUP0, 0xFFFFFFFF)] Dev.reset with now := 8, isles := [(5, { Isle.reset with cells := [(2, { Cell.reset with mode := .run 4, group := 1, arch := { CRegs.zero with g := [(1, 0x80000003#32), (2, 0x7FFFFFFE#32), (3, 0x12345#32)], acc0 := 0x123456789ABC#48, acc1 := 0x0FFFFFFFFFFF#48 } })], ctx := [(36, ({ op := 0, mode := 0, sa := 0, sb := 0, sc := 0, dst := 0, shf := 0, sat := 0, acc := 0, psel := 0, circ := 0, pstep := 0, imm := 0, next := 7, seq := 4, cond := 0, lvl := 0, qp := 0, role := 0, sout := 0, sch := 0, tok := 0, loff := 0, rsv := 0 } : Ctx).encode)], groups := [(1, { Group.reset with rcred := true })] })] }, by decide⟩

theorem test_meets_CellSequencing_8 : ∃ (n : Fin 96) (c : Fin 16) (idx : Nat) (w : Ctx) (d : Dev), (d.cellAt n c idx w = true) ∧ (w.op = 0) ∧ (w.pstep = 0) ∧ (w.tok = 0) ∧ (w.seq = 5) ∧ (w.qp = 0) ∧ ((∀ k : Fin 16, k ≠ c → wbit (BitVec.ofNat 16 (d.rd (IS_GRPg_MASK n ((d.isle n).cell c).group))) k = true → ((d.isle n).cell k).group = ((d.isle n).cell c).group → ((d.isle n).cell k).mode = .idle)) :=
  ⟨5, 2, 4, { op := 0, mode := 0, sa := 0, sb := 0, sc := 0, dst := 0, shf := 0, sat := 0, acc := 0, psel := 0, circ := 0, pstep := 0, imm := 0, next := 7, seq := 5, cond := 0, lvl := 0, qp := 0, role := 0, sout := 0, sch := 0, tok := 0, loff := 0, rsv := 0 }, { setRegs [(PC_DOMUP0, 0xFFFFFFFF)] Dev.reset with now := 8, isles := [(5, { Isle.reset with cells := [(2, { Cell.reset with mode := .run 4, group := 1, arch := { CRegs.zero with g := [(1, 0x80000003#32), (2, 0x7FFFFFFE#32), (3, 0x12345#32)], acc0 := 0x123456789ABC#48, acc1 := 0x0FFFFFFFFFFF#48 } })], ctx := [(36, ({ op := 0, mode := 0, sa := 0, sb := 0, sc := 0, dst := 0, shf := 0, sat := 0, acc := 0, psel := 0, circ := 0, pstep := 0, imm := 0, next := 7, seq := 5, cond := 0, lvl := 0, qp := 0, role := 0, sout := 0, sch := 0, tok := 0, loff := 0, rsv := 0 } : Ctx).encode)] })] }, by decide⟩

theorem test_meets_CellSequencing_9 : ∃ (n : Fin 96) (c : Fin 16) (idx : Nat) (w : Ctx) (d : Dev), (d.cellAt n c idx w = true) ∧ (w.op = 0) ∧ (w.pstep = 0) ∧ (w.tok = 0) ∧ (w.seq = 6) :=
  ⟨5, 2, 4, { op := 0, mode := 0, sa := 0, sb := 0, sc := 0, dst := 0, shf := 0, sat := 0, acc := 0, psel := 0, circ := 0, pstep := 0, imm := 0, next := 7, seq := 6, cond := 0, lvl := 0, qp := 0, role := 0, sout := 0, sch := 0, tok := 0, loff := 0, rsv := 0 }, { setRegs [(PC_DOMUP0, 0xFFFFFFFF)] Dev.reset with now := 8, isles := [(5, { Isle.reset with cells := [(2, { Cell.reset with mode := .run 4, group := 1, arch := { CRegs.zero with g := [(1, 0x80000003#32), (2, 0x7FFFFFFE#32), (3, 0x12345#32)], acc0 := 0x123456789ABC#48, acc1 := 0x0FFFFFFFFFFF#48 } })], ctx := [(36, ({ op := 0, mode := 0, sa := 0, sb := 0, sc := 0, dst := 0, shf := 0, sat := 0, acc := 0, psel := 0, circ := 0, pstep := 0, imm := 0, next := 7, seq := 6, cond := 0, lvl := 0, qp := 0, role := 0, sout := 0, sch := 0, tok := 0, loff := 0, rsv := 0 } : Ctx).encode)] })] }, by decide⟩

theorem test_meets_CellPointersAndLagoon_1 : ∃ (n : Fin 96) (c : Fin 16) (idx : Nat) (w : Ctx) (k : Nat) (d : Dev), (d.cellAt n c idx w = true) ∧ (w.op = 0) ∧ (w.seq = 0) ∧ (w.tok = 0) ∧ (w.pstep ≠ 0) ∧ (w.circ = 0) ∧ ((((d.isle n).cell c).arch.get (0x0C + w.psel.toNat)).toNat = k) ∧ (k < 2 ^ 15) :=
  ⟨5, 2, 4, { op := 0, mode := 0, sa := 0, sb := 0, sc := 0, dst := 0, shf := 0, sat := 0, acc := 0, psel := 1, circ := 0, pstep := 13, imm := 0, next := 7, seq := 0, cond := 0, lvl := 0, qp := 0, role := 0, sout := 0, sch := 0, tok := 0, loff := 0, rsv := 0 }, 40, { setRegs [(PC_DOMUP0, 0xFFFFFFFF)] Dev.reset with now := 8, isles := [(5, { Isle.reset with cells := [(2, { Cell.reset with mode := .run 4, group := 1, arch := { CRegs.zero with g := [(1, 0xABCD1234#32), (0xD, 40), (0x11, 32), (0x15, 16)] } })], ctx := [(36, ({ op := 0, mode := 0, sa := 0, sb := 0, sc := 0, dst := 0, shf := 0, sat := 0, acc := 0, psel := 1, circ := 0, pstep := 13, imm := 0, next := 7, seq := 0, cond := 0, lvl := 0, qp := 0, role := 0, sout := 0, sch := 0, tok := 0, loff := 0, rsv := 0 } : Ctx).encode)] })] }, by decide⟩

theorem test_meets_CellPointersAndLagoon_2 : ∃ (n : Fin 96) (c : Fin 16) (idx : Nat) (w : Ctx) (k b l : Nat) (d : Dev), (d.cellAt n c idx w = true) ∧ (w.op = 0) ∧ (w.seq = 0) ∧ (w.tok = 0) ∧ (w.pstep ≠ 0) ∧ (w.circ = 1) ∧ ((((d.isle n).cell c).arch.get (0x0C + w.psel.toNat)).toNat = k) ∧ ((((d.isle n).cell c).arch.get (0x10 + w.psel.toNat)).toNat = b) ∧ ((((d.isle n).cell c).arch.get (0x14 + w.psel.toNat)).toNat = l) ∧ (b ≤ k) ∧ (k < b + l) ∧ (b + l ≤ 2 ^ 15) ∧ (8 ≤ l) :=
  ⟨5, 2, 4, { op := 0, mode := 0, sa := 0, sb := 0, sc := 0, dst := 0, shf := 0, sat := 0, acc := 0, psel := 1, circ := 1, pstep := 13, imm := 0, next := 7, seq := 0, cond := 0, lvl := 0, qp := 0, role := 0, sout := 0, sch := 0, tok := 0, loff := 0, rsv := 0 }, 40, 32, 16, { setRegs [(PC_DOMUP0, 0xFFFFFFFF)] Dev.reset with now := 8, isles := [(5, { Isle.reset with cells := [(2, { Cell.reset with mode := .run 4, group := 1, arch := { CRegs.zero with g := [(1, 0xABCD1234#32), (0xD, 40), (0x11, 32), (0x15, 16)] } })], ctx := [(36, ({ op := 0, mode := 0, sa := 0, sb := 0, sc := 0, dst := 0, shf := 0, sat := 0, acc := 0, psel := 1, circ := 1, pstep := 13, imm := 0, next := 7, seq := 0, cond := 0, lvl := 0, qp := 0, role := 0, sout := 0, sch := 0, tok := 0, loff := 0, rsv := 0 } : Ctx).encode)] })] }, by decide⟩

theorem test_meets_CellPointersAndLagoon_3 : ∃ (n : Fin 96) (c : Fin 16) (idx : Nat) (w : Ctx) (d : Dev), (d.cellAt n c idx w = true) ∧ (w.op = 0) ∧ (w.seq = 0) ∧ (w.pstep = 0) ∧ (w.tok ≠ 0) :=
  ⟨5, 2, 4, { op := 0, mode := 0, sa := 0, sb := 0, sc := 0, dst := 0, shf := 0, sat := 0, acc := 0, psel := 0, circ := 0, pstep := 0, imm := 0, next := 7, seq := 0, cond := 0, lvl := 0, qp := 0, role := 0, sout := 0, sch := 0, tok := 3, loff := 0, rsv := 0 }, { setRegs [(PC_DOMUP0, 0xFFFFFFFF)] Dev.reset with now := 8, isles := [(5, { Isle.reset with cells := [(2, { Cell.reset with mode := .run 4, group := 1, arch := { CRegs.zero with g := [(1, 0x80000003#32), (2, 0x7FFFFFFE#32), (3, 0x12345#32)], acc0 := 0x123456789ABC#48, acc1 := 0x0FFFFFFFFFFF#48 } })], ctx := [(36, ({ op := 0, mode := 0, sa := 0, sb := 0, sc := 0, dst := 0, shf := 0, sat := 0, acc := 0, psel := 0, circ := 0, pstep := 0, imm := 0, next := 7, seq := 0, cond := 0, lvl := 0, qp := 0, role := 0, sout := 0, sch := 0, tok := 3, loff := 0, rsv := 0 } : Ctx).encode)] })] }, by decide⟩

theorem test_meets_CellPointersAndLagoon_4 : ∃ (n : Fin 96) (c : Fin 16) (idx : Nat) (w : Ctx) (k : Nat) (v : BitVec 32) (d : Dev), (d.cellAt n c idx w = true) ∧ (w.op = 1) ∧ (w.mode = 0) ∧ (w.seq = 0) ∧ (w.pstep = 0) ∧ (w.tok = 0) ∧ (w.shf = 0) ∧ (w.sat = 0) ∧ (w.dst.toNat < 8) ∧ (w.sa = 0x1C) ∧ ((((d.isle n).cell c).arch.get (0x0C + w.psel.toNat)).toNat = k) ∧ (k < 32768) ∧ ((d.isle n).ports = []) ∧ ((d.isle n).old = []) ∧ (d.readsAhead n c = []) ∧ (d.wordErr (lagoonAddr n k) = 0) ∧ (d.load32 (lagoonAddr n k) = v) :=
  ⟨5, 2, 4, { op := 1, mode := 0, sa := 28, sb := 0, sc := 0, dst := 4, shf := 0, sat := 0, acc := 0, psel := 1, circ := 0, pstep := 0, imm := 0, next := 7, seq := 0, cond := 0, lvl := 0, qp := 0, role := 0, sout := 0, sch := 0, tok := 0, loff := 0, rsv := 0 }, 40, 0x55667788#32, { { setRegs [(PC_DOMUP0, 0xFFFFFFFF)] Dev.reset with now := 8, isles := [(5, { Isle.reset with cells := [(2, { Cell.reset with mode := .run 4, group := 1, arch := { CRegs.zero with g := [(1, 0xABCD1234#32), (0xD, 40), (0x11, 32), (0x15, 16)] } })], ctx := [(36, ({ op := 1, mode := 0, sa := 28, sb := 0, sc := 0, dst := 4, shf := 0, sat := 0, acc := 0, psel := 1, circ := 0, pstep := 0, imm := 0, next := 7, seq := 0, cond := 0, lvl := 0, qp := 0, role := 0, sout := 0, sch := 0, tok := 0, loff := 0, rsv := 0 } : Ctx).encode)] })] } with mem := (Dev.reset.store32 (lagoonAddr 5 40) 0x55667788#32).mem }, by decide⟩

theorem test_meets_CellPointersAndLagoon_5 : ∃ (n : Fin 96) (c : Fin 16) (idx : Nat) (w : Ctx) (k : Nat) (d : Dev), (d.cellAt n c idx w = true) ∧ (w.op = 1) ∧ (w.mode = 0) ∧ (w.seq = 0) ∧ (w.pstep = 0) ∧ (w.tok = 0) ∧ (w.shf = 0) ∧ (w.sat = 0) ∧ (w.dst = 0x1C) ∧ (w.sa.toNat < 8) ∧ ((((d.isle n).cell c).arch.get (0x0C + w.psel.toNat)).toNat = k) :=
  ⟨5, 2, 4, { op := 1, mode := 0, sa := 1, sb := 0, sc := 0, dst := 28, shf := 0, sat := 0, acc := 0, psel := 1, circ := 0, pstep := 0, imm := 0, next := 7, seq := 0, cond := 0, lvl := 0, qp := 0, role := 0, sout := 0, sch := 0, tok := 0, loff := 0, rsv := 0 }, 40, { setRegs [(PC_DOMUP0, 0xFFFFFFFF)] Dev.reset with now := 8, isles := [(5, { Isle.reset with cells := [(2, { Cell.reset with mode := .run 4, group := 1, arch := { CRegs.zero with g := [(1, 0xABCD1234#32), (0xD, 40), (0x11, 32), (0x15, 16)] } })], ctx := [(36, ({ op := 1, mode := 0, sa := 1, sb := 0, sc := 0, dst := 28, shf := 0, sat := 0, acc := 0, psel := 1, circ := 0, pstep := 0, imm := 0, next := 7, seq := 0, cond := 0, lvl := 0, qp := 0, role := 0, sout := 0, sch := 0, tok := 0, loff := 0, rsv := 0 } : Ctx).encode)] })] }, by decide⟩

theorem test_meets_CellPointersAndLagoon_6 : ∃ (n : Fin 96) (c : Fin 16) (idx : Nat) (d : Dev), (d.issueAt n c = some idx) ∧ (d.ctxBad n c idx = true) :=
  ⟨5, 2, 4, { setRegs [(PC_DOMUP0, 0xFFFFFFFF)] Dev.reset with now := 8, isles := [(5, { Isle.reset with cells := [(2, { Cell.reset with mode := .run 4, group := 1, arch := { CRegs.zero with g := [(1, 0x80000003#32), (2, 0x7FFFFFFE#32), (3, 0x12345#32)], acc0 := 0x123456789ABC#48, acc1 := 0x0FFFFFFFFFFF#48 } })], ctx := [(36, ({ op := 127, mode := 0, sa := 0, sb := 0, sc := 0, dst := 0, shf := 0, sat := 0, acc := 0, psel := 0, circ := 0, pstep := 0, imm := 0, next := 0, seq := 0, cond := 0, lvl := 0, qp := 0, role := 0, sout := 0, sch := 0, tok := 0, loff := 0, rsv := 0 } : Ctx).encode)] })] }, by decide⟩

theorem test_meets_NarrowingAndFlags : (∃ v : Int, -(2 ^ 31) ≤ v ∧ v < 2 ^ 31) ∧ (∃ v : Int, 2 ^ 31 ≤ v) ∧ (∃ v : Int, v < -(2 ^ 31)) :=
  ⟨⟨-5, by decide⟩, ⟨2 ^ 31, by decide⟩, ⟨-(2 ^ 31) - 1, by decide⟩⟩

theorem test_meets_NarrowingAndFlags_1 : ∃ (v : Int) (s : Bool), (-(2 ^ 31) ≤ v) ∧ (v < 2 ^ 31) :=
  ⟨-5, true, by decide⟩

theorem test_meets_NarrowingAndFlags_2 : ∃ (v : Int), (2 ^ 31 ≤ v) :=
  ⟨2 ^ 31, by decide⟩

theorem test_meets_NarrowingAndFlags_3 : ∃ (v : Int), (v < -(2 ^ 31)) :=
  ⟨-(2 ^ 31) - 1, by decide⟩

theorem test_meets_NarrowingAndFlags_4 : ∃ (v : Int), (v < -(2 ^ 31) ∨ 2 ^ 31 ≤ v) :=
  ⟨2 ^ 31, by decide⟩

theorem test_meets_NarrowingAndFlags_7 : ∃ (a b : BitVec 32) (f : BitVec 16), (f = (resultFlags 0 (a - b) (BitVec.ssubOverflow a b) (some (decide (b.toNat ≤ a.toNat)))).2) :=
  ⟨3, 3, _, rfl⟩

theorem test_meets_RegistersOverTheBus_1 : ∃ (a : BitVec 40) (v : BitVec 32) (r : RegRow) (d : Dev), (regRow? a.toNat = some r) ∧ (a.toNat ∈ [AU_STAT] ++ (List.range 8).flatMap (fun n => [AU_ADn_TRK n, AU_ADn_WIN n, AU_ADn_ZOFF n, AU_ADn_STAT n, AU_ADn_CNT n, AU_ADn_SET_LO n, AU_ADn_SET_HI n, AU_ADn_VNOM_LO n])) ∧ (tget none d.integ.tmr a.toNat = none) :=
  ⟨0x40010108, 0x12345678, (regRow? 0x40010108).getD { base := 0, dims := [], rw := 0, w1c := 0, w1s := 0, ro := 0, reset := 0 }, Dev.reset, by decide⟩

theorem test_meets_RegistersOverTheBus_2 : ∃ (a : BitVec 40) (v : BitVec 32) (d : Dev), (areaOf a.toNat = 4) ∧ (a.toNat % 4 = 0) ∧ (regRow? a.toNat = none) ∧ (csrDomain a.toNat = none) :=
  ⟨0x40010010, 5, Dev.reset, by decide⟩

theorem test_meets_RegistersOverTheBus_3 : ∃ (a : BitVec 40) (v : BitVec 32) (x k : Nat) (d : Dev), (areaOf a.toNat = 4) ∧ (a.toNat % 4 = 0) ∧ (csrDomain a.toNat = some x) ∧ (d.offline x = true) ∧ (d.rd PN_OFFCNT_CNT = k) ∧ (k < 4294967295) :=
  ⟨0x400C0000, 5, 102, 0, Dev.reset, by decide⟩

theorem test_meets_RegistersOverTheBus_4 : ∃ (o : BitVec 21) (v : BitVec 32) (d : Dev), (o.toNat % 4 = 0) ∧ (o.toNat < 0x180000) ∧ (apArea o.toNat % 2 = 1) ∧ (d.offline (apIsle o.toNat) = false) ∧ (d.on (IS_STAT_SYNC (apIsle o.toNat)) = false) ∧ (d.wordErr (d.apWord (o.toNat / 8 * 8)) = 0) :=
  ⟨0x60124, 0xDEADBEEF, setRegs [(PC_DOMUP0, 0xFFFFFFFF)] Dev.reset, by decide⟩

theorem test_meets_RegistersOverTheBus_5 : ∃ (o : BitVec 21) (v : BitVec 32) (d : Dev), (o.toNat < 0x180000) ∧ (apArea o.toNat % 2 = 0) ∧ (d.offline (apIsle o.toNat) = false) :=
  ⟨0x124, 5, setRegs [(PC_DOMUP0, 0xFFFFFFFF)] Dev.reset, by decide⟩

theorem test_meets_RegistersOverTheBus_6 : ∃ (o : BitVec 21) (v : BitVec 32) (d : Dev), (o.toNat < 0x180000) ∧ (apArea o.toNat % 2 = 1) ∧ (d.offline (apIsle o.toNat) = false) ∧ (d.on (IS_STAT_SYNC (apIsle o.toNat)) = true) :=
  ⟨0x60124, 5, (setRegs [(PC_DOMUP0, 0xFFFFFFFF)] Dev.reset).wr (IS_STAT_SYNC 0) 1, by decide⟩

theorem test_meets_RegistersOverTheBus_7 : ∃ (bar2 write : Bool) (o : BitVec 28) (v : BitVec 32) (d : Dev), (d.on HL_STAT_LINKUP = false) :=
  ⟨true, false, 0, 0, Dev.reset, by decide⟩

theorem test_meets_RegistersOverTheBus_8 : ∃ (o : BitVec 28) (v : BitVec 32) (d : Dev), (d.on HL_STAT_LINKUP = true) ∧ (o.toNat < 0x100000) ∧ (csrDomain (0x40000000 + o.toNat / 4 * 4) = none) ∧ (d.net.closed.contains 103 = false) ∧ ((d.niHold 38 (0x40000000 + o.toNat / 4 * 4)).net.stall = false) :=
  ⟨0x10108, 0x1234, Dev.reset.wr HL_STAT_LINKUP 1, by decide⟩

theorem test_meets_RegistersOverTheBus_9 : ∃ (o : BitVec 28) (v : BitVec 32) (d : Dev), (d.on HL_STAT_LINKUP = true) ∧ (bar0Addr (o.toNat / 4 * 4) = none) ∧ (0xC01008 ≤ o.toNat) ∧ (d.net.closed.contains 103 = false) ∧ (d.net.stall = false) :=
  ⟨0xD00000, 5, Dev.reset.wr HL_STAT_LINKUP 1, by decide⟩

theorem test_meets_RegistersOverTheBus_10 : ∃ (o : BitVec 28) (v : BitVec 32) (k : Nat) (d : Dev), (d.on HL_STAT_LINKUP = true) ∧ (bar0Addr (o.toNat / 4 * 4) = none) ∧ (0xC01008 ≤ o.toNat) ∧ (d.rd HL_CNT0_CA = k) ∧ (k < 65535) ∧ (d.net.closed.contains 103 = false) ∧ (d.net.stall = false) :=
  ⟨0xD00000, 5, 0, Dev.reset.wr HL_STAT_LINKUP 1, by decide⟩

theorem test_meets_TokensLeaveTheirIsle_1 : ∃ (n : Fin 96) (c : Fin 16) (k : CTok) (rest : List CTok) (m : Nat) (d : Dev), (((d.isle n).cell c).toks = k :: rest) ∧ (k.due ≤ d.now) ∧ (d.isleLive n = true) ∧ (d.advances n = true) ∧ (wbit (d.reg (IS_TDk n k.desc)) 31 = true) ∧ (wbits (d.reg (IS_TDk n k.desc)) 1 0 = 0) ∧ (wbits (d.reg (IS_TDk n k.desc)) 8 2 = m) ∧ (m < 96) :=
  ⟨5, 2, { due := 7, desc := 3, tag := 9, spec := false, ra := none }, [], 7, { setRegs [(PC_DOMUP0, 0xFFFFFFFF), (PC_DOMUP0 + 4, 0xFFFFFFFF), (PC_DOMUP0 + 8, 0xFFFFFFFF), (IS_TDk 5 3, 0x8000021C)] Dev.reset with now := 8, isles := [(5, { Isle.reset with cells := [(2, { Cell.reset with toks := [{ due := 7, desc := 3, tag := 9, spec := false, ra := none }] })] })] }, by decide⟩

theorem test_meets_TokensLeaveTheirIsle_2 : ∃ (n : Fin 96) (c : Fin 16) (k : CTok) (rest : List CTok) (t code : Nat) (d : Dev), (((d.isle n).cell c).toks = k :: rest) ∧ (k.due ≤ d.now) ∧ (d.isleLive n = true) ∧ (d.advances n = true) ∧ (wbit (d.reg (IS_TDk n k.desc)) 31 = true) ∧ (wbits (d.reg (IS_TDk n k.desc)) 1 0 = 2) ∧ (wbits (d.reg (IS_TDk n k.desc)) 7 2 = t) ∧ (t < 48) ∧ (wbits (d.reg (IS_TDk n k.desc)) 10 8 = code) ∧ (1 ≤ code ∧ code ≤ 3) :=
  ⟨5, 2, { due := 7, desc := 3, tag := 9, spec := false, ra := none }, [], 7, 3, { setRegs [(PC_DOMUP0, 0xFFFFFFFF), (PC_DOMUP0 + 4, 0xFFFFFFFF), (PC_DOMUP0 + 8, 0xFFFFFFFF), (IS_TDk 5 3, 0x8000031E)] Dev.reset with now := 8, isles := [(5, { Isle.reset with cells := [(2, { Cell.reset with toks := [{ due := 7, desc := 3, tag := 9, spec := false, ra := none }] })] })] }, by decide⟩

theorem test_meets_TokensLeaveTheirIsle_3 : ∃ (n : Fin 96) (c : Fin 16) (k : CTok) (rest : List CTok) (num : Nat) (d : Dev), (((d.isle n).cell c).toks = k :: rest) ∧ (k.due ≤ d.now) ∧ (d.isleLive n = true) ∧ (d.advances n = true) ∧ (wbit (d.reg (IS_TDk n k.desc)) 31 = true) ∧ (wbits (d.reg (IS_TDk n k.desc)) 1 0 = 1) ∧ (wbits (d.reg (IS_TDk n k.desc)) 14 2 = num) ∧ (num < 4096) ∧ (k.spec = false) ∧ (d.schedIn.length < 64) ∧ (d.schedWait = []) :=
  ⟨5, 2, { due := 7, desc := 3, tag := 9, spec := false, ra := none }, [], 100, { setRegs [(PC_DOMUP0, 0xFFFFFFFF), (PC_DOMUP0 + 4, 0xFFFFFFFF), (PC_DOMUP0 + 8, 0xFFFFFFFF), (IS_TDk 5 3, 0x80000191)] Dev.reset with now := 8, isles := [(5, { Isle.reset with cells := [(2, { Cell.reset with toks := [{ due := 7, desc := 3, tag := 9, spec := false, ra := none }] })] })] }, by decide⟩

theorem test_meets_TokensLeaveTheirIsle_4 : ∃ (n : Fin 96) (c : Fin 16) (k : CTok) (rest : List CTok) (t : Nat) (d : Dev), (((d.isle n).cell c).toks = k :: rest) ∧ (k.due ≤ d.now) ∧ (d.isleLive n = true) ∧ (d.advances n = true) ∧ (wbit (d.reg (IS_TDk n k.desc)) 31 = true) ∧ (wbits (d.reg (IS_TDk n k.desc)) 1 0 = 3) ∧ (wbits (d.reg (IS_TDk n k.desc)) 7 2 = t) ∧ (k.spec = false) :=
  ⟨5, 2, { due := 7, desc := 3, tag := 9, spec := false, ra := none }, [], 6, { setRegs [(PC_DOMUP0, 0xFFFFFFFF), (PC_DOMUP0 + 4, 0xFFFFFFFF), (PC_DOMUP0 + 8, 0xFFFFFFFF), (IS_TDk 5 3, 0x8000001B)] Dev.reset with now := 8, isles := [(5, { Isle.reset with cells := [(2, { Cell.reset with toks := [{ due := 7, desc := 3, tag := 9, spec := false, ra := none }] })] })] }, by decide⟩

theorem test_meets_TokensLeaveTheirIsle_5 : ∃ (n : Fin 96) (c : Fin 16) (k : CTok) (rest : List CTok) (d : Dev), (((d.isle n).cell c).toks = k :: rest) ∧ (k.due ≤ d.now) ∧ (d.isleLive n = true) ∧ (d.advances n = true) ∧ (wbit (d.reg (IS_TDk n k.desc)) 31 = false) :=
  ⟨5, 2, { due := 7, desc := 3, tag := 9, spec := false, ra := none }, [], { setRegs [(PC_DOMUP0, 0xFFFFFFFF), (PC_DOMUP0 + 4, 0xFFFFFFFF), (PC_DOMUP0 + 8, 0xFFFFFFFF), (IS_TDk 5 3, 0x1B)] Dev.reset with now := 8, isles := [(5, { Isle.reset with cells := [(2, { Cell.reset with toks := [{ due := 7, desc := 3, tag := 9, spec := false, ra := none }] })] })] }, by decide⟩

theorem test_meets_TokensMeetTheirEntry_1 : ∃ (n : Fin 96) (x : Fin 64) (k : LaneTok) (m : MEntry) (d : Dev), (d.lane = [k]) ∧ (k.isle = n.val) ∧ (k.cur = n.val) ∧ (k.entry = x.val) ∧ (k.due ≤ d.now) ∧ (d.isleLive n = true) ∧ (d.advances n = true) ∧ ((d.isle n).ment x = m) ∧ (m.action = 0) ∧ (m.need.getLsbD k.slot = true) ∧ (k.tag = m.cur) ∧ (m.pres.getLsbD k.slot = false) ∧ (m.pres ||| BitVec.ofNat 8 (2 ^ k.slot) ≠ m.need) :=
  ⟨5, 6, { src := 4, isle := 5, entry := 6, slot := 1, tag := 9, spec := false, cur := 5, due := 7 }, { arg := 3, action := 0, need := 0x7, cur := 9, pres := 0x1, nextp := 0x10, doneAt := 0 }, { setRegs [(PC_DOMUP0, 0xFFFFFFFF), (PC_DOMUP0 + 4, 0xFFFFFFFF), (PC_DOMUP0 + 8, 0xFFFFFFFF)] Dev.reset with now := 8, isles := [(5, { Isle.reset with store := [(6, { arg := 3, action := 0, need := 0x7, cur := 9, pres := 0x1, nextp := 0x10, doneAt := 0 })] })], lane := [{ src := 4, isle := 5, entry := 6, slot := 1, tag := 9, spec := false, cur := 5, due := 7 }] }, by decide⟩

theorem test_meets_TokensMeetTheirEntry_2 : ∃ (n : Fin 96) (x : Fin 64) (k : LaneTok) (m : MEntry) (d : Dev), (d.lane = [k]) ∧ (k.isle = n.val) ∧ (k.cur = n.val) ∧ (k.entry = x.val) ∧ (k.due ≤ d.now) ∧ (d.isleLive n = true) ∧ (d.advances n = true) ∧ ((d.isle n).ment x = m) ∧ (m.action = 0) ∧ (m.need.getLsbD k.slot = true) ∧ (k.tag = m.cur) ∧ (m.pres.getLsbD k.slot = false) ∧ (m.pres ||| BitVec.ofNat 8 (2 ^ k.slot) = m.need) ∧ (m.doneAt ≤ d.now) :=
  ⟨5, 6, { src := 4, isle := 5, entry := 6, slot := 1, tag := 9, spec := false, cur := 5, due := 7 }, { arg := 3, action := 0, need := 0x7, cur := 9, pres := 0x5, nextp := 0x10, doneAt := 0 }, { setRegs [(PC_DOMUP0, 0xFFFFFFFF), (PC_DOMUP0 + 4, 0xFFFFFFFF), (PC_DOMUP0 + 8, 0xFFFFFFFF)] Dev.reset with now := 8, isles := [(5, { Isle.reset with store := [(6, { arg := 3, action := 0, need := 0x7, cur := 9, pres := 0x5, nextp := 0x10, doneAt := 0 })] })], lane := [{ src := 4, isle := 5, entry := 6, slot := 1, tag := 9, spec := false, cur := 5, due := 7 }] }, by decide⟩

theorem test_meets_TokensMeetTheirEntry_3 : ∃ (n : Fin 96) (x : Fin 64) (k : LaneTok) (m : MEntry) (d : Dev), (d.lane = [k]) ∧ (k.isle = n.val) ∧ (k.cur = n.val) ∧ (k.entry = x.val) ∧ (k.due ≤ d.now) ∧ (d.isleLive n = true) ∧ (d.advances n = true) ∧ ((d.isle n).ment x = m) ∧ (m.action ≠ 2) ∧ (m.need.getLsbD k.slot = true) ∧ (k.tag = m.cur + 1) ∧ (m.nextp.getLsbD k.slot = false) ∧ (m.pres ≠ m.need) :=
  ⟨5, 6, { ({ src := 4, isle := 5, entry := 6, slot := 1, tag := 9, spec := false, cur := 5, due := 7 } : LaneTok) with tag := 10 }, { arg := 3, action := 0, need := 0x7, cur := 9, pres := 0x1, nextp := 0x10, doneAt := 0 }, { setRegs [(PC_DOMUP0, 0xFFFFFFFF), (PC_DOMUP0 + 4, 0xFFFFFFFF), (PC_DOMUP0 + 8, 0xFFFFFFFF)] Dev.reset with now := 8, isles := [(5, { Isle.reset with store := [(6, { arg := 3, action := 0, need := 0x7, cur := 9, pres := 0x1, nextp := 0x10, doneAt := 0 })] })], lane := [{ ({ src := 4, isle := 5, entry := 6, slot := 1, tag := 9, spec := false, cur := 5, due := 7 } : LaneTok) with tag := 10 }] }, by decide⟩

theorem test_meets_TokensMeetTheirEntry_4 : ∃ (n : Fin 96) (x : Fin 64) (k : LaneTok) (m : MEntry) (s : Nat) (d : Dev), (d.lane = [k]) ∧ (k.isle = n.val) ∧ (k.cur = n.val) ∧ (k.entry = x.val) ∧ (k.due ≤ d.now) ∧ (d.isleLive n = true) ∧ (d.advances n = true) ∧ ((d.isle n).ment x = m) ∧ (m.action ≠ 2) ∧ (k.tag ≠ m.cur) ∧ (k.tag ≠ m.cur + 1) ∧ (m.pres ≠ m.need) ∧ (d.rd (IS_CNT1_STALE n) = s) ∧ (s < 65535) :=
  ⟨5, 6, { ({ src := 4, isle := 5, entry := 6, slot := 1, tag := 9, spec := false, cur := 5, due := 7 } : LaneTok) with tag := 30 }, { arg := 3, action := 0, need := 0x7, cur := 9, pres := 0x1, nextp := 0x10, doneAt := 0 }, 0, { setRegs [(PC_DOMUP0, 0xFFFFFFFF), (PC_DOMUP0 + 4, 0xFFFFFFFF), (PC_DOMUP0 + 8, 0xFFFFFFFF)] Dev.reset with now := 8, isles := [(5, { Isle.reset with store := [(6, { arg := 3, action := 0, need := 0x7, cur := 9, pres := 0x1, nextp := 0x10, doneAt := 0 })] })], lane := [{ ({ src := 4, isle := 5, entry := 6, slot := 1, tag := 9, spec := false, cur := 5, due := 7 } : LaneTok) with tag := 30 }] }, by decide⟩

theorem test_meets_FiringRequests_2 : ∃ (n : Fin 96) (g : Fin 16) (q : FireReq) (rest : List FireReq) (c : Fin 16) (d : Dev), ((d.isle n).reqs = q :: rest) ∧ (q.group = g.val) ∧ (q.at_ ≤ d.now) ∧ (d.ahead n g = []) ∧ (d.advances n = true) ∧ (d.isleLive n = true) ∧ (d.on (IS_GRPg_EN n g) = true) ∧ (((d.isle n).grp g).pend = false) ∧ (d.grpActive n g = false) ∧ (((d.isle n).grp g).saved = false) ∧ ((∀ h : Fin 16, d.conflictsWith n g h = false)) ∧ (q.ra = none) ∧ (wbit (BitVec.ofNat 16 (d.rd (IS_GRPg_MASK n g))) c = true) :=
  ⟨5, 3, { group := 3, at_ := 8, ra := none }, [], 2, { setRegs [(PC_DOMUP0, 0xFFFFFFFF), (PC_DOMUP0 + 4, 0xFFFFFFFF), (PC_DOMUP0 + 8, 0xFFFFFFFF), (IS_GRPg 5 3, 0x80500006)] Dev.reset with now := 8, isles := [(5, { Isle.reset with reqs := [{ group := 3, at_ := 8, ra := none }], cells := [(2, { Cell.reset with resume := [(3, 6)] })] })] }, by decide⟩

theorem test_meets_FiringRequests_3 : ∃ (n : Fin 96) (g : Fin 16) (q : FireReq) (rest : List FireReq) (d : Dev), ((d.isle n).reqs = q :: rest) ∧ (q.group = g.val) ∧ (q.at_ ≤ d.now) ∧ (d.ahead n g = []) ∧ (d.advances n = true) ∧ (d.isleLive n = true) ∧ (d.on (IS_GRPg_EN n g) = true) ∧ (((d.isle n).grp g).pend = false) ∧ (d.grpActive n g = true ∨ ((d.isle n).grp g).saved = true) :=
  ⟨5, 3, { group := 3, at_ := 8, ra := none }, [], { setRegs [(PC_DOMUP0, 0xFFFFFFFF), (PC_DOMUP0 + 4, 0xFFFFFFFF), (PC_DOMUP0 + 8, 0xFFFFFFFF), (IS_GRPg 5 3, 0x80000006)] Dev.reset with now := 8, isles := [(5, { Isle.reset with reqs := [{ group := 3, at_ := 8, ra := none }], groups := [(3, { Group.reset with saved := true })] })] }, by decide⟩

theorem test_meets_FiringRequests_4 : ∃ (n : Fin 96) (g : Fin 16) (q : FireReq) (rest : List FireReq) (h : Fin 16) (k : Nat) (d : Dev), ((d.isle n).reqs = q :: rest) ∧ (q.group = g.val) ∧ (q.at_ ≤ d.now) ∧ (d.ahead n g = []) ∧ (d.advances n = true) ∧ (d.isleLive n = true) ∧ (d.on (IS_GRPg_EN n g) = true) ∧ (((d.isle n).grp g).pend = false) ∧ (d.grpActive n g = false) ∧ (((d.isle n).grp g).saved = false) ∧ (d.conflictsWith n g h = true) ∧ (d.rd (IS_CNT0_DEFER n) = k) ∧ (k < 65535) :=
  ⟨5, 3, { group := 3, at_ := 8, ra := none }, [], 4, 0, { setRegs [(PC_DOMUP0, 0xFFFFFFFF), (PC_DOMUP0 + 4, 0xFFFFFFFF), (PC_DOMUP0 + 8, 0xFFFFFFFF), (IS_GRPg 5 3, 0x80000006), (IS_GRPg 5 4, 0x80000004)] Dev.reset with now := 8, isles := [(5, { Isle.reset with reqs := [{ group := 3, at_ := 8, ra := none }], groups := [(4, { Group.reset with saved := true })] })] }, by decide⟩

theorem test_meets_FiringRequests_5 : ∃ (n : Fin 96) (g : Fin 16) (q : FireReq) (rest : List FireReq) (k : Nat) (d : Dev), ((d.isle n).reqs = q :: rest) ∧ (q.group = g.val) ∧ (q.at_ ≤ d.now) ∧ (d.ahead n g = []) ∧ (d.advances n = true) ∧ (d.isleLive n = true) ∧ (d.on (IS_GRPg_EN n g) = true) ∧ (((d.isle n).grp g).pend = true) ∧ (d.rd (IS_CNT0_FOVR n) = k) ∧ (k < 65535) :=
  ⟨5, 3, { group := 3, at_ := 8, ra := none }, [], 0, { setRegs [(PC_DOMUP0, 0xFFFFFFFF), (PC_DOMUP0 + 4, 0xFFFFFFFF), (PC_DOMUP0 + 8, 0xFFFFFFFF), (IS_GRPg 5 3, 0x80000006)] Dev.reset with now := 8, isles := [(5, { Isle.reset with reqs := [{ group := 3, at_ := 8, ra := none }], groups := [(3, { Group.reset with pend := true })] })] }, by decide⟩

theorem test_meets_Preemption_1 : ∃ (n : Fin 96) (p : Preempt) (k : Nat) (d : Dev), ((d.isle n).pre = [p]) ∧ (p.victim < 16 ∧ p.group < 16) ∧ (d.on (IS_SLOT0_VALID n) = false) ∧ (d.isleLive n = true) ∧ (d.advances n = true) ∧ (d.preReady n p = true) ∧ (d.rd (IS_CNT1_PREEMPT n) = k) ∧ (k < 65535) :=
  ⟨5, { victim := 1, group := 2, at_ := 3, lastQp := some 6 }, 0, { setRegs [(PC_DOMUP0, 0xFFFFFFFF), (PC_DOMUP0 + 4, 0xFFFFFFFF), (PC_DOMUP0 + 8, 0xFFFFFFFF), (IS_GRPg 5 1, 0x80000004), (IS_STAT 5, 2)] Dev.reset with now := 8, isles := [(5, { Isle.reset with pre := [{ victim := 1, group := 2, at_ := 3, lastQp := some 6 }], cells := [(2, { Cell.reset with mode := .quiet 9, group := 1 })] })] }, by decide⟩

theorem test_meets_Preemption_2 : ∃ (n : Fin 96) (p : Preempt) (c : Fin 16) (x : Nat) (m : Nat) (d : Dev), ((d.isle n).pre = [p]) ∧ (d.rd (IS_PMTO_PMTO n) = m) ∧ (m ≠ 0) ∧ (p.at_ + m ≤ d.now) ∧ (d.preReady n p = false) ∧ (((d.isle n).cell c).mode = .quiet x) ∧ (((d.isle n).cell c).group = p.victim) :=
  ⟨5, { victim := 1, group := 2, at_ := 3, lastQp := some 6 }, 2, 9, 4, { setRegs [(PC_DOMUP0, 0xFFFFFFFF), (PC_DOMUP0 + 4, 0xFFFFFFFF), (PC_DOMUP0 + 8, 0xFFFFFFFF), (IS_GRPg 5 1, 0x8000000C), (IS_PMTO 5, 4)] Dev.reset with now := 8, isles := [(5, { Isle.reset with pre := [{ victim := 1, group := 2, at_ := 3, lastQp := some 6 }], cells := [(2, { Cell.reset with mode := .quiet 9, group := 1 }), (3, { Cell.reset with mode := .run 1, group := 1 })] })] }, by decide⟩

theorem test_meets_Preemption_3 : ∃ (n : Fin 96) (v g : Nat) (w : BitVec 32) (q : SavedCell) (st : Bool) (ra : Option RaMark) (d : Dev), (d.on (IS_SLOT1_VALID n) = false) ∧ (d.reg (IS_SLOT0 n) = w) ∧ (wbits w 3 0 = v) ∧ (wbits w 7 4 = g) ∧ (wbit w 8 = true) ∧ (tget none (d.isle n).save 0 = some { cells := [q], settled := st, ra := ra }) ∧ (q.cell < 16) ∧ (q.yld = false) ∧ (q.wait = 0) ∧ (d.isleLive n = true) ∧ (d.advances n = true) ∧ (d.rdBit (IS_STAT_ACTIVE n) g = false) ∧ (((d.isle n).grp g).saved = false) ∧ (((d.isle n).grp g).endAt + d.step n ≤ d.now) ∧ ((d.isle n).preStart = []) :=
  ⟨5, 1, 2, 0x3121#32, { cell := 2, index := 9, flg := 5, yld := false, wait := 0, next := 0, reached := false }, true, none, { setRegs [(PC_DOMUP0, 0xFFFFFFFF), (PC_DOMUP0 + 4, 0xFFFFFFFF), (PC_DOMUP0 + 8, 0xFFFFFFFF), (IS_SLOT0 5, 0x3121)] Dev.reset with now := 8, isles := [(5, { Isle.reset with save := [(0, some { cells := [{ cell := 2, index := 9, flg := 5, yld := false, wait := 0, next := 0, reached := false }], settled := true, ra := none })], groups := [(1, { Group.reset with saved := true })] })] }, by decide⟩

theorem test_meets_StreamPort_1 : ∃ (n : Fin 96) (t : Fin 64) (d : Dev), ((d.isle n).sq.length < 4) :=
  ⟨5, 6, Dev.reset, by decide⟩

theorem test_meets_StreamPort_2 : ∃ (n : Fin 96) (t : Fin 64) (d : Dev), (4 ≤ (d.isle n).sq.length) :=
  ⟨5, 6, { setRegs [(PC_DOMUP0, 0xFFFFFFFF), (PC_DOMUP0 + 4, 0xFFFFFFFF), (PC_DOMUP0 + 8, 0xFFFFFFFF)] Dev.reset with now := 8, isles := [(5, { Isle.reset with sq := [1, 2, 3, 4] })] }, by decide⟩

theorem test_meets_StreamPort_4 : ∃ (n : Fin 96) (t : Nat) (rest : List Nat) (a : Nat) (ws : List (BitVec 32)) (x : Xfer) (d : Dev), ((d.isle n).sq = t :: rest) ∧ ((d.isle n).xfer = none) ∧ (d.isleLive n = true) ∧ (d.rd (IS_SDBASE_BASE n) + 8 * t + 8 ≤ 0x8000) ∧ (a = 0x10000000 + n * 0x20000 + 4 * (d.rd (IS_SDBASE_BASE n) + 8 * t)) ∧ (a % 32 = 0) ∧ ((∀ w ∈ codeWords a 32, d.wordErr w = 0)) ∧ (d.net.closed.contains n.val = false) ∧ ((d.niHold (niOfReq (128 + n)) a).net.stall = false) ∧ (bytesWords (d.loadBytes a 32) 8 = ws) ∧ (x = xferOf t a ws) ∧ (badDesc (128 + n) x ws = false) ∧ (x.fill = false ∧ x.shost = false ∧ x.dhost = false) ∧ (wbits x.w0 7 4 = 0 ∧ wbits x.w0 11 8 = 0) :=
  ⟨5, 0, [], 0x100A0000, [8#32, 0x100A0100#32, 0#32, 0x2000#32, 0#32, 64#32, 0#32, 0#32], xferOf 0 0x100A0000 [8#32, 0x100A0100#32, 0#32, 0x2000#32, 0#32, 64#32, 0#32, 0#32], (({ setRegs [(PC_DOMUP0, 0xFFFFFFFF), (PC_DOMUP0 + 4, 0xFFFFFFFF), (PC_DOMUP0 + 8, 0xFFFFFFFF)] Dev.reset with now := 8, isles := [(5, { Isle.reset with sq := [0] })] } : Dev).storeWords 0x100A0000 [8#32, 0x100A0100#32, 0#32, 0x2000#32, 0#32, 64#32, 0#32, 0#32]), by decide +kernel⟩

theorem test_meets_StreamPort_5 : ∃ (n : Fin 96) (x : Xfer) (d : Dev), ((d.isle n).xfer = some x) ∧ (x.phase = 0) ∧ (x.err = none) ∧ (x.len ≤ x.prog) ∧ (wbit x.w0 2 = false) ∧ (wbit x.w0 3 = true) ∧ (d.net.stall = false) ∧ (d.schedIn.length < 64) ∧ (d.schedWait = []) :=
  ⟨5, { trig := 3, desc := 0x100A0000, w0 := 0x00640008, w1 := 0, src := 0x100A0100, dst := 0x2000, len := 64, next := 0, prog := 64, dpa := 0, phase := 0, err := none }, { setRegs [(PC_DOMUP0, 0xFFFFFFFF), (PC_DOMUP0 + 4, 0xFFFFFFFF), (PC_DOMUP0 + 8, 0xFFFFFFFF)] Dev.reset with now := 8, isles := [(5, { Isle.reset with xfer := some ({ trig := 3, desc := 0x100A0000, w0 := 0x00640008, w1 := 0, src := 0x100A0100, dst := 0x2000, len := 64, next := 0, prog := 64, dpa := 0, phase := 0, err := none }) })] }, by decide⟩

theorem test_meets_StreamPort_6 : ∃ (n : Fin 96) (x : Xfer) (c : Nat) (d : Dev), ((d.isle n).xfer = some x) ∧ (x.phase = 0) ∧ (x.err = some c) ∧ (d.net.stall = false) :=
  ⟨5, { trig := 3, desc := 0x100A0000, w0 := 0x00640008, w1 := 0, src := 0x100A0100, dst := 0x2000, len := 64, next := 0, prog := 0, dpa := 0, phase := 0, err := some 5 }, 5, { setRegs [(PC_DOMUP0, 0xFFFFFFFF), (PC_DOMUP0 + 4, 0xFFFFFFFF), (PC_DOMUP0 + 8, 0xFFFFFFFF)] Dev.reset with now := 8, isles := [(5, { Isle.reset with xfer := some ({ trig := 3, desc := 0x100A0000, w0 := 0x00640008, w1 := 0, src := 0x100A0100, dst := 0x2000, len := 64, next := 0, prog := 0, dpa := 0, phase := 0, err := some 5 }) })] }, by decide⟩

theorem test_meets_StepsOpen_1 : ∃ (t : Fin 48) (a : Action) (as : List Action) (d : Dev), (d.ang.acts = a :: as) ∧ (a.act = 1) ∧ (a.tv = true) ∧ (a.tf ≤ d.now + 4) ∧ (a.task = t.val) ∧ (d.taskState t = 1) ∧ (d.replaying t = false) ∧ ((d.task t).openK ≤ d.front t + d.rd (AHD_LTt_CFG_DEPTH t)) ∧ ((d.task t).pol ≠ 2) :=
  ⟨2, { act := 1, arg0 := 0, arg1 := 0x42, list := 0, stamp := 0, late := false, tf := 104 }, [], { setRegs [(AHD_LTt_STAT 2, 1), (AHD_LTt_CFG 2, 0x30001), (AHD_LTt_TIM 2, 0x14021205), (AHD_LTt_STEP 2, 4), (AHD_TBb_ID 3, 0x80000207), (AHD_TBb_GRP 3, 0x21000C), (AHD_TBb_SHD 3, 0x40100), (AHD_TBb_WIN 3, 0x4000)] Dev.reset with now := 100, ahd := { Ahd.reset with tasks := [(2, { Task.reset with openK := 5, latchK := 4, openS := 9, steps := [] })] }, ang := { Angle.reset with acts := [{ act := 1, arg0 := 0, arg1 := 0x42, list := 0, stamp := 0, late := false, tf := 104 }] } }, by decide⟩

theorem test_meets_StepsOpen_2 : ∃ (t : Fin 48) (a : Action) (as : List Action) (d : Dev), (d.ang.acts = a :: as) ∧ (a.act = 1) ∧ (a.tv = true) ∧ (a.tf ≤ d.now + 4) ∧ (a.task = t.val) ∧ (d.taskState t = 1) ∧ (d.replaying t = false) ∧ (d.front t + d.rd (AHD_LTt_CFG_DEPTH t) < (d.task t).openK) :=
  ⟨2, { act := 1, arg0 := 0, arg1 := 0x42, list := 0, stamp := 0, late := false, tf := 104 }, [], { setRegs [(AHD_LTt_STAT 2, 1), (AHD_LTt_CFG 2, 0x30001), (AHD_LTt_TIM 2, 0x14021205), (AHD_LTt_STEP 2, 4), (AHD_TBb_ID 3, 0x80000207), (AHD_TBb_GRP 3, 0x21000C), (AHD_TBb_SHD 3, 0x40100), (AHD_TBb_WIN 3, 0x4000)] Dev.reset with now := 100, ahd := { Ahd.reset with tasks := [(2, { Task.reset with openK := 8, latchK := 4, openS := 9, steps := [] })] }, ang := { Angle.reset with acts := [{ act := 1, arg0 := 0, arg1 := 0x42, list := 0, stamp := 0, late := false, tf := 104 }] } }, by decide⟩

theorem test_meets_StepsOpen_3 : ∃ (t : Fin 48) (a : Action) (as : List Action) (k : Nat) (d : Dev), (d.ang.acts = a :: as) ∧ (a.act = 1) ∧ (a.tv = true) ∧ (a.tf ≤ d.now + 4) ∧ (a.task = t.val) ∧ (d.taskState t ≠ 1) ∧ (d.rd (AHD_LTt_CNT2_DROP t) = k) ∧ (k < 255) :=
  ⟨2, { act := 1, arg0 := 0, arg1 := 0x42, list := 0, stamp := 0, late := false, tf := 104 }, [], 0, { setRegs [(AHD_LTt_STAT 2, 3), (AHD_LTt_CFG 2, 0x30001), (AHD_LTt_TIM 2, 0x14021205), (AHD_LTt_STEP 2, 4), (AHD_TBb_ID 3, 0x80000207), (AHD_TBb_GRP 3, 0x21000C), (AHD_TBb_SHD 3, 0x40100), (AHD_TBb_WIN 3, 0x4000)] Dev.reset with now := 100, ahd := { Ahd.reset with tasks := [(2, { Task.reset with openK := 5, latchK := 4, openS := 9, steps := [] })] }, ang := { Angle.reset with acts := [{ act := 1, arg0 := 0, arg1 := 0x42, list := 0, stamp := 0, late := false, tf := 104 }] } }, by decide⟩

theorem test_meets_StepsOpen_4 : ∃ (t : Fin 48) (s : LStep) (rest : List LStep) (a : Nat) (p : Option (BitVec 64)) (d : Dev), ((d.task t).steps = s :: rest) ∧ ((∀ u : Fin 48, u < t → (d.task u).steps = [])) ∧ (s.reqDue = some a) ∧ (a ≤ d.now) ∧ (d.ahd.lastReq ≤ d.now) ∧ (d.predictStep t s.stamp = p) :=
  ⟨2, { LStep.fresh 4 0 with reqDue := some 99 }, [], 99, none, { setRegs [(AHD_LTt_STAT 2, 1), (AHD_LTt_CFG 2, 0x30001), (AHD_LTt_TIM 2, 0x14021205), (AHD_LTt_STEP 2, 4), (AHD_TBb_ID 3, 0x80000207), (AHD_TBb_GRP 3, 0x21000C), (AHD_TBb_SHD 3, 0x40100), (AHD_TBb_WIN 3, 0x4000)] Dev.reset with now := 100, ahd := { Ahd.reset with tasks := [(2, { Task.reset with openK := 5, latchK := 4, openS := 9, steps := [{ LStep.fresh 4 0 with reqDue := some 99 }] })] } }, by decide⟩

theorem test_meets_StepsOpen_5 : ∃ (t : Fin 48) (s : LStep) (rest : List LStep) (b n : Nat) (a : Nat) (v : BitVec 64) (d : Dev), ((d.task t).steps = s :: rest) ∧ (d.bindings t = [b]) ∧ (d.rd (AHD_TBb_ID_ISLE b) = n) ∧ (s.reqAt = some a) ∧ (a + 12 ≤ d.now) ∧ (s.answered = false) ∧ (s.pred = some v) :=
  ⟨2, { LStep.fresh 4 0 with reqAt := some 88, pred := some 0x123456789AB }, [], 3, 7, 88, 0x123456789AB, { setRegs [(AHD_LTt_STAT 2, 1), (AHD_LTt_CFG 2, 0x30001), (AHD_LTt_TIM 2, 0x14021205), (AHD_LTt_STEP 2, 4), (AHD_TBb_ID 3, 0x80000207), (AHD_TBb_GRP 3, 0x21000C), (AHD_TBb_SHD 3, 0x40100), (AHD_TBb_WIN 3, 0x4000)] Dev.reset with now := 100, ahd := { Ahd.reset with tasks := [(2, { Task.reset with openK := 5, latchK := 4, openS := 9, steps := [{ LStep.fresh 4 0 with reqAt := some 88, pred := some 0x123456789AB }] })] } }, by decide⟩

theorem test_meets_StepsOpen_6 : ∃ (t : Fin 48) (s : LStep) (rest : List LStep) (b n : Nat) (a : Nat) (d : Dev), ((d.task t).steps = s :: rest) ∧ (d.bindings t = [b]) ∧ (d.rd (AHD_TBb_ID_ISLE b) = n) ∧ (s.headAt = some a) ∧ (a ≤ d.now) ∧ (s.headFired = false) :=
  ⟨2, { LStep.fresh 4 0 with headAt := some 99 }, [], 3, 7, 99, { setRegs [(AHD_LTt_STAT 2, 1), (AHD_LTt_CFG 2, 0x30001), (AHD_LTt_TIM 2, 0x14021205), (AHD_LTt_STEP 2, 4), (AHD_TBb_ID 3, 0x80000207), (AHD_TBb_GRP 3, 0x21000C), (AHD_TBb_SHD 3, 0x40100), (AHD_TBb_WIN 3, 0x4000)] Dev.reset with now := 100, ahd := { Ahd.reset with tasks := [(2, { Task.reset with openK := 5, latchK := 4, openS := 9, steps := [{ LStep.fresh 4 0 with headAt := some 99 }] })] } }, by decide⟩

theorem test_meets_Predictions_1 : ∃ (a b : Fin 8) (s : BitVec 64) (k : Nat) (d : Dev), (0 < (d.ad a).omega.toInt) ∧ (k ≤ 2 ^ 26) ∧ ((stampTheta s - (d.ad a).theta).toInt = k * (d.ad a).omega.toInt) :=
  ⟨1, 3, 3, 3, Dev.reset.setAd 1 { Tracker.reset with omega := 0x10000 }, by decide⟩

theorem test_meets_Predictions_2 : ∃ (a b : Fin 8) (s : BitVec 64) (d : Dev), ((d.ad a).omega = 0) :=
  ⟨1, 3, 3, Dev.reset, by decide⟩

theorem test_meets_Predictions_3 : ∃ (a b : Fin 8) (s : BitVec 64) (d : Dev), (0 < (d.ad a).omega.toInt) ∧ ((stampTheta s - (d.ad a).theta).toInt ≤ -(d.ad a).omega.toInt) :=
  ⟨1, 3, 0xFFFFFFFFFFFFFFFE, Dev.reset.setAd 1 { Tracker.reset with omega := 0x10000 }, by decide⟩

theorem test_meets_CheckTailCommit_1 : ∃ (t : Fin 48) (s : LStep) (rest : List LStep) (l : Nat) (r q : Bool) (d : Dev), ((d.task t).steps = s :: rest) ∧ (s.latch = some l) ∧ (s.checked = false) ∧ (s.rerun = none) ∧ (l + 3 ≤ d.now) ∧ (d.taskState t = 1) ∧ (d.stepReady t s l = r) ∧ (d.policyPass t s = q) ∧ (r = true ∧ q = true) :=
  ⟨2, { LStep.fresh 4 0 with latch := some 97, headFired := true, headEnd := some 60, pred := some 7, meas := 7 }, [], 97, true, true, { setRegs [(AHD_LTt_STAT 2, 1), (AHD_LTt_CFG 2, 0x30001), (AHD_LTt_TIM 2, 0x14021205), (AHD_LTt_STEP 2, 4), (AHD_TBb_ID 3, 0x80000207), (AHD_TBb_GRP 3, 0x21000C), (AHD_TBb_SHD 3, 0x40100), (AHD_TBb_WIN 3, 0x4000)] Dev.reset with now := 100, ahd := { Ahd.reset with tasks := [(2, { Task.reset with openK := 5, latchK := 4, openS := 9, steps := [{ LStep.fresh 4 0 with latch := some 97, headFired := true, headEnd := some 60, pred := some 7, meas := 7 }] })] } }, by decide⟩

theorem test_meets_CheckTailCommit_2 : ∃ (t : Fin 48) (s : LStep) (rest : List LStep) (l : Nat) (r q : Bool) (m : Nat) (d : Dev), ((d.task t).steps = s :: rest) ∧ (s.latch = some l) ∧ (s.checked = false) ∧ (s.rerun = none) ∧ (l + 3 ≤ d.now) ∧ (d.taskState t = 1) ∧ (d.stepReady t s l = r) ∧ (d.policyPass t s = q) ∧ (r = false ∨ q = false) ∧ ((d.task t).squash = []) ∧ (d.rd (AHD_LTt_CNT1_NOTRDY t) = m) ∧ (m < 65535) :=
  ⟨2, { LStep.fresh 4 0 with latch := some 97, pred := some 0x900000000, meas := 7 }, [], 97, false, false, 0, { setRegs [(AHD_LTt_STAT 2, 1), (AHD_LTt_CFG 2, 0x30001), (AHD_LTt_TIM 2, 0x14021205), (AHD_LTt_STEP 2, 4), (AHD_TBb_ID 3, 0x80000207), (AHD_TBb_GRP 3, 0x21000C), (AHD_TBb_SHD 3, 0x40100), (AHD_TBb_WIN 3, 0x4000)] Dev.reset with now := 100, ahd := { Ahd.reset with tasks := [(2, { Task.reset with openK := 5, latchK := 4, openS := 9, steps := [{ LStep.fresh 4 0 with latch := some 97, pred := some 0x900000000, meas := 7 }] })] } }, by decide⟩

theorem test_meets_CheckTailCommit_3 : ∃ (t : Fin 48) (s : LStep) (rest : List LStep) (b n : Nat) (a : Nat) (d : Dev), ((d.task t).steps = s :: rest) ∧ (d.bindings t = [b]) ∧ (d.rd (AHD_TBb_ID_ISLE b) = n) ∧ (s.tailAt = some a) ∧ (a ≤ d.now) ∧ (s.tailFired = false) ∧ ((d.task t).squashes s.k = false) :=
  ⟨2, { LStep.fresh 4 0 with tailAt := some 99, commitAt := some 110 }, [], 3, 7, 99, { setRegs [(AHD_LTt_STAT 2, 1), (AHD_LTt_CFG 2, 0x30001), (AHD_LTt_TIM 2, 0x14021205), (AHD_LTt_STEP 2, 4), (AHD_TBb_ID 3, 0x80000207), (AHD_TBb_GRP 3, 0x21000C), (AHD_TBb_SHD 3, 0x40100), (AHD_TBb_WIN 3, 0x4000)] Dev.reset with now := 100, ahd := { Ahd.reset with tasks := [(2, { Task.reset with openK := 5, latchK := 4, openS := 9, steps := [{ LStep.fresh 4 0 with tailAt := some 99, commitAt := some 110 }] })] } }, by decide⟩

theorem test_meets_CheckTailCommit_4 : ∃ (t : Fin 48) (s : LStep) (rest : List LStep) (b n : Nat) (cm l f k : Nat) (d : Dev), ((d.task t).steps = s :: rest) ∧ (d.bindings t = [b]) ∧ (d.rd (AHD_TBb_ID_ISLE b) = n) ∧ (s.commitAt = some cm) ∧ (cm ≤ d.now) ∧ ((d.task t).squashes s.k = false) ∧ (d.taskState t = 1) ∧ (s.tailFired = true) ∧ (1 ≤ s.tailStarts) ∧ (d.front t = f) ∧ ((d.task t).latchK ≤ f + 1) ∧ (f < 2 ^ 32 - 1) ∧ (s.latch = some l) ∧ (s.rerun = none) ∧ ((∀ h ∈ tget [] d.ahd.held b, h.kind = 1)) ∧ (d.schedIn.length + (tget [] d.ahd.held b).length ≤ 64) ∧ (d.schedWait = []) ∧ ((∀ q ∈ rest, q.replay = false)) ∧ (d.rd (AHD_LTt_CNT0_COMMIT t) = k) ∧ (k < 65535) :=
  ⟨2, { LStep.fresh 4 0 with commitAt := some 99, tailFired := true, tailStarts := 1, latch := some 80 }, [], 3, 7, 99, 80, 4, 0, { setRegs [(AHD_LTt_STAT 2, 1), (AHD_LTt_CFG 2, 0x30001), (AHD_LTt_TIM 2, 0x14021205), (AHD_LTt_STEP 2, 4), (AHD_TBb_ID 3, 0x80000207), (AHD_TBb_GRP 3, 0x21000C), (AHD_TBb_SHD 3, 0x40100), (AHD_TBb_WIN 3, 0x4000)] Dev.reset with now := 100, ahd := { Ahd.reset with tasks := [(2, { Task.reset with openK := 5, latchK := 4, openS := 9, steps := [{ LStep.fresh 4 0 with commitAt := some 99, tailFired := true, tailStarts := 1, latch := some 80 }] })], held := [(3, [{ isle := 7, kind := 1, num := 100, tag := 0 }])] }, isles := [(7, { Isle.reset with cells := [(2, { Cell.reset with shad := { CRegs.zero with g := [(1, 5)] } })] })] }, by decide⟩

theorem test_meets_CheckTailCommit_5 : ∃ (t : Fin 48) (s : LStep) (rest : List LStep) (b n : Nat) (cm f k : Nat) (d : Dev), ((d.task t).steps = s :: rest) ∧ (d.bindings t = [b]) ∧ (d.rd (AHD_TBb_ID_ISLE b) = n) ∧ (s.commitAt = some cm) ∧ (cm ≤ d.now) ∧ ((d.task t).squashes s.k = false) ∧ (d.taskState t = 1) ∧ (s.tailFired = false ∨ s.tailStarts = 0) ∧ (s.k = f) ∧ (d.front t = f) ∧ (f + 1 = (d.task t).latchK) ∧ ((d.task t).latchK ≤ (d.task t).openK) ∧ (f < 2 ^ 32 - 1) ∧ ((∀ q ∈ rest, q.replay = false ∧ f < q.k)) ∧ (d.rd (AHD_LTt_CNT1_SKIP t) = k) ∧ (k < 65535) :=
  ⟨2, { LStep.fresh 4 0 with commitAt := some 99 }, [], 3, 7, 99, 4, 0, { setRegs [(AHD_LTt_STAT 2, 1), (AHD_LTt_CFG 2, 0x30001), (AHD_LTt_TIM 2, 0x14021205), (AHD_LTt_STEP 2, 4), (AHD_TBb_ID 3, 0x80000207), (AHD_TBb_GRP 3, 0x21000C), (AHD_TBb_SHD 3, 0x40100), (AHD_TBb_WIN 3, 0x4000)] Dev.reset with now := 100, ahd := { Ahd.reset with tasks := [(2, { Task.reset with openK := 5, latchK := 5, openS := 9, steps := [{ LStep.fresh 4 0 with commitAt := some 99 }] })] } }, by decide⟩

theorem test_meets_CheckTailCommit_6 : ∃ (t : Fin 48) (s : LStep) (rest : List LStep) (h : Nat) (d : Dev), ((d.task t).steps = s :: rest) ∧ ((s.carried.map (fun q => (q.1, q.2.1, q.2.2.1))).Nodup) ∧ ((∀ q ∈ s.carried, q.2.2.1 < 8)) ∧ (s.k = d.front t) ∧ (s.carryAt = none) ∧ (d.carryHold t s = some h) ∧ (h ≤ d.now) :=
  ⟨2, { LStep.fresh 4 0 with headEnd := some 60, carried := [(7, 2, 1, 99)] }, [], 63, { setRegs [(AHD_LTt_STAT 2, 1), (AHD_LTt_CFG 2, 0x30001), (AHD_LTt_TIM 2, 0x14021205), (AHD_LTt_STEP 2, 4), (AHD_TBb_ID 3, 0x80000207), (AHD_TBb_GRP 3, 0x21000C), (AHD_TBb_SHD 3, 0x40100), (AHD_TBb_WIN 3, 0x4000)] Dev.reset with now := 100, ahd := { Ahd.reset with tasks := [(2, { Task.reset with openK := 5, latchK := 4, openS := 9, steps := [{ LStep.fresh 4 0 with headEnd := some 60, carried := [(7, 2, 1, 99)] }] })] } }, by decide⟩

theorem test_meets_SquashRerunReplay_1 : ∃ (t : Fin 48) (s : LStep) (rest : List LStep) (b n : Nat) (p : PendSquash) (ps : List PendSquash) (k : Nat) (d : Dev), ((d.task t).steps = s :: rest) ∧ (d.bindings t = [b]) ∧ (d.rd (AHD_TBb_ID_ISLE b) = n) ∧ ((d.task t).squash = p :: ps) ∧ (p.d + 2 ≤ d.now) ∧ (p.rerun = true) ∧ (p.again = false) ∧ (s.k = p.k) ∧ ((∀ q ∈ rest, p.k < q.k)) ∧ (d.rd (AHD_LTt_CNT0_SQUASH t) = k) ∧ (((d.isle n).grp (d.rd (AHD_TBb_GRP_HGRP b))).saved = false) ∧ (((d.isle n).grp (d.rd (AHD_TBb_GRP_TGRP b))).saved = false) ∧ (k < 65535) :=
  ⟨2, { LStep.fresh 4 0 with latch := some 95, checked := true }, [LStep.fresh 5 0], 3, 7, { d := 98, k := 4, rerun := true, replay := true, again := false }, [], 0, { setRegs [(AHD_LTt_STAT 2, 1), (AHD_LTt_CFG 2, 0x30001), (AHD_LTt_TIM 2, 0x14021205), (AHD_LTt_STEP 2, 4), (AHD_TBb_ID 3, 0x80000207), (AHD_TBb_GRP 3, 0x21000C), (AHD_TBb_SHD 3, 0x40100), (AHD_TBb_WIN 3, 0x4000), (IS_STAT 7, 0x6)] Dev.reset with now := 100, ahd := { Ahd.reset with tasks := [(2, { Task.reset with openK := 5, latchK := 4, openS := 9, steps := [{ LStep.fresh 4 0 with latch := some 95, checked := true }, LStep.fresh 5 0], squash := [{ d := 98, k := 4, rerun := true, replay := true, again := false }] })] }, isles := [(7, { Isle.reset with cells := [(2, { Cell.reset with shad := { CRegs.zero with g := [(1, 5)] } })] })] }, by decide⟩

theorem test_meets_SquashRerunReplay_2 : ∃ (t : Fin 48) (s : LStep) (rest : List LStep) (b n : Nat) (dd l : Nat) (d : Dev), ((d.task t).steps = s :: rest) ∧ (d.bindings t = [b]) ∧ (d.rd (AHD_TBb_ID_ISLE b) = n) ∧ (s.rerun = some dd) ∧ (s.rerunGo = false) ∧ (d.taskState t = 1) ∧ (s.latch = some l) ∧ (s.k = d.front t) ∧ (dd + 4 ≤ d.now) :=
  ⟨2, { LStep.fresh 4 0 with latch := some 90, meas := 77, vel := 5, rerun := some 95 }, [], 3, 7, 95, 90, { setRegs [(AHD_LTt_STAT 2, 1), (AHD_LTt_CFG 2, 0x30001), (AHD_LTt_TIM 2, 0x14021205), (AHD_LTt_STEP 2, 4), (AHD_TBb_ID 3, 0x80000207), (AHD_TBb_GRP 3, 0x21000C), (AHD_TBb_SHD 3, 0x40100), (AHD_TBb_WIN 3, 0x4000)] Dev.reset with now := 100, ahd := { Ahd.reset with tasks := [(2, { Task.reset with openK := 5, latchK := 4, openS := 9, steps := [{ LStep.fresh 4 0 with latch := some 90, meas := 77, vel := 5, rerun := some 95 }] })] } }, by decide⟩

theorem test_meets_SquashRerunReplay_3 : ∃ (t : Fin 48) (s : LStep) (rest : List LStep) (dd : Nat) (d : Dev), ((d.task t).steps = s :: rest) ∧ (s.rerun = some dd) ∧ (s.rerunGo = false) ∧ (d.taskState t = 1) ∧ (s.latch = none) ∧ (dd + 3 ≤ d.now) :=
  ⟨2, { LStep.fresh 4 0 with rerun := some 95 }, [], 95, { setRegs [(AHD_LTt_STAT 2, 1), (AHD_LTt_CFG 2, 0x30001), (AHD_LTt_TIM 2, 0x14021205), (AHD_LTt_STEP 2, 4), (AHD_TBb_ID 3, 0x80000207), (AHD_TBb_GRP 3, 0x21000C), (AHD_TBb_SHD 3, 0x40100), (AHD_TBb_WIN 3, 0x4000)] Dev.reset with now := 100, ahd := { Ahd.reset with tasks := [(2, { Task.reset with openK := 5, latchK := 4, openS := 9, steps := [{ LStep.fresh 4 0 with rerun := some 95 }] })] } }, by decide⟩

theorem test_meets_SquashRerunReplay_4 : ∃ (t : Fin 48) (s : LStep) (rest : List LStep) (d : Dev), ((d.task t).steps = s :: rest) ∧ (d.taskState t = 1) ∧ (s.replay = true) ∧ (s.latch = none) ∧ (s.reqDue = none) ∧ (s.reqAt = none) ∧ ((∀ q ∈ rest, q.latch = none)) ∧ ((∀ q ∈ rest, s.k < q.k)) :=
  ⟨2, { LStep.fresh 4 0 with replay := true }, [], { setRegs [(AHD_LTt_STAT 2, 1), (AHD_LTt_CFG 2, 0x30001), (AHD_LTt_TIM 2, 0x14021205), (AHD_LTt_STEP 2, 4), (AHD_TBb_ID 3, 0x80000207), (AHD_TBb_GRP 3, 0x21000C), (AHD_TBb_SHD 3, 0x40100), (AHD_TBb_WIN 3, 0x4000)] Dev.reset with now := 100, ahd := { Ahd.reset with tasks := [(2, { Task.reset with openK := 5, latchK := 4, openS := 9, steps := [{ LStep.fresh 4 0 with replay := true }] })] } }, by decide⟩

theorem test_meets_SquashRerunReplay_5 : ∃ (t : Fin 48) (d : Dev), (d.taskState t = 1) ∧ ((∀ q ∈ (d.task t).steps, q.replay = false)) ∧ (0 < (d.task t).fires) ∧ ((d.task t).openK ≤ d.front t + d.rd (AHD_LTt_CFG_DEPTH t)) ∧ ((d.task t).pol ≠ 2) :=
  ⟨2, { setRegs [(AHD_LTt_STAT 2, 1), (AHD_LTt_CFG 2, 0x30001), (AHD_LTt_TIM 2, 0x14021205), (AHD_LTt_STEP 2, 4), (AHD_TBb_ID 3, 0x80000207), (AHD_TBb_GRP 3, 0x21000C), (AHD_TBb_SHD 3, 0x40100), (AHD_TBb_WIN 3, 0x4000)] Dev.reset with now := 100, ahd := { Ahd.reset with tasks := [(2, { Task.reset with openK := 5, latchK := 4, openS := 9, steps := [], fires := 1 })] } }, by decide⟩

theorem test_meets_SquashRerunReplay_6 : ∃ (t : Fin 48) (s : LStep) (rest : List LStep) (k : RaTok) (ks : List RaTok) (f : Nat) (d : Dev), ((d.task t).steps = s :: rest) ∧ (d.ahd.toks = k :: ks) ∧ (k.task = t.val) ∧ (k.code = 1) ∧ (k.due ≤ d.now) ∧ (k.step = some f) ∧ (s.k = f) ∧ (d.taskState t = 1) ∧ (s.commitAt = none) ∧ ((d.task t).squash = []) :=
  ⟨2, LStep.fresh 4 0, [], { task := 2, code := 1, step := some 4, due := 100 }, [], 4, { setRegs [(AHD_LTt_STAT 2, 1), (AHD_LTt_CFG 2, 0x30001), (AHD_LTt_TIM 2, 0x14021205), (AHD_LTt_STEP 2, 4), (AHD_TBb_ID 3, 0x80000207), (AHD_TBb_GRP 3, 0x21000C), (AHD_TBb_SHD 3, 0x40100), (AHD_TBb_WIN 3, 0x4000)] Dev.reset with now := 100, ahd := { Ahd.reset with tasks := [(2, { Task.reset with openK := 5, latchK := 4, openS := 9, steps := [LStep.fresh 4 0] })], toks := [{ task := 2, code := 1, step := some 4, due := 100 }] } }, by decide⟩

theorem test_meets_SquashRerunReplay_7 : ∃ (t : Fin 48) (s : LStep) (rest : List LStep) (f : Nat) (d : Dev), ((d.task t).steps = s :: rest) ∧ (d.front t = f) ∧ (s.k = f) ∧ (d.taskState t = 1) ∧ (s.commitAt = none) ∧ ((d.task t).squash = []) :=
  ⟨2, LStep.fresh 4 0, [], 4, { setRegs [(AHD_LTt_STAT 2, 1), (AHD_LTt_CFG 2, 0x30001), (AHD_LTt_TIM 2, 0x14021205), (AHD_LTt_STEP 2, 4), (AHD_TBb_ID 3, 0x80000207), (AHD_TBb_GRP 3, 0x21000C), (AHD_TBb_SHD 3, 0x40100), (AHD_TBb_WIN 3, 0x4000)] Dev.reset with now := 100, ahd := { Ahd.reset with tasks := [(2, { Task.reset with openK := 5, latchK := 4, openS := 9, steps := [LStep.fresh 4 0] })] } }, by decide⟩

theorem test_meets_TasksStartAndStop_1 : ∃ (t : Fin 48) (v : BitVec 32) (b n x : Nat) (d : Dev), (d.on (AHD_LTt_CFG_EN t) = false) ∧ ((d.cfgFields t (wput v 0 0 1)).taskOk t = true) ∧ (d.bindings t = [b]) ∧ (d.rd (AHD_TBb_ID_ISLE b) = n) ∧ (x ∈ d.taskEntries b) ∧ (d.on AHD_CTRL_EN = true) :=
  ⟨2, 0x30000, 3, 7, 6, { setRegs [(AHD_LTt_STAT 2, 0), (AHD_LTt_CFG 2, 0), (AHD_LTt_TIM 2, 0x14021205), (AHD_LTt_STEP 2, 4), (AHD_TBb_ID 3, 0x80000207), (AHD_TBb_GRP 3, 0x21000C), (AHD_TBb_SHD 3, 0x40100), (AHD_TBb_WIN 3, 0x4000), (AHD_TBb_ENT_LO 3, 0x40), (ET_CADc_D 0, 1)] Dev.reset with now := 100, ahd := { Ahd.reset with tasks := [(2, { Task.reset with openK := 5, latchK := 4, openS := 9, steps := [] })] } }, by decide⟩

theorem test_meets_TasksStartAndStop_2 : ∃ (t : Fin 48) (v : BitVec 32) (d : Dev), (d.on (AHD_LTt_CFG_EN t) = false) ∧ ((d.cfgFields t (wput v 0 0 1)).taskOk t = false) :=
  ⟨2, 0x50000, Dev.reset, by decide⟩

theorem test_meets_TasksStartAndStop_3 : ∃ (t : Fin 48) (d : Dev), (d.on (AHD_LTt_CFG_EN t) = true) :=
  ⟨2, { setRegs [(AHD_LTt_STAT 2, 1), (AHD_LTt_CFG 2, 0x30001), (AHD_LTt_TIM 2, 0x14021205), (AHD_LTt_STEP 2, 4), (AHD_TBb_ID 3, 0x80000207), (AHD_TBb_GRP 3, 0x21000C), (AHD_TBb_SHD 3, 0x40100), (AHD_TBb_WIN 3, 0x4000)] Dev.reset with now := 100, ahd := { Ahd.reset with tasks := [(2, { Task.reset with openK := 5, latchK := 4, openS := 9, steps := [LStep.fresh 4 0] })] } }, by decide⟩

theorem test_meets_TasksStartAndStop_4 : ∃ (t : Fin 48) (k : RaTok) (ks : List RaTok) (d : Dev), (d.ahd.toks = k :: ks) ∧ (k.task = t.val) ∧ (k.code = 2) ∧ (k.due ≤ d.now) ∧ (d.taskState t = 1 ∨ d.taskState t = 2) :=
  ⟨2, { task := 2, code := 2, step := some 4, due := 100 }, [], { setRegs [(AHD_LTt_STAT 2, 1), (AHD_LTt_CFG 2, 0x30001), (AHD_LTt_TIM 2, 0x14021205), (AHD_LTt_STEP 2, 4), (AHD_TBb_ID 3, 0x80000207), (AHD_TBb_GRP 3, 0x21000C), (AHD_TBb_SHD 3, 0x40100), (AHD_TBb_WIN 3, 0x4000)] Dev.reset with now := 100, ahd := { Ahd.reset with tasks := [(2, { Task.reset with openK := 5, latchK := 4, openS := 9, steps := [LStep.fresh 4 0] })], toks := [{ task := 2, code := 2, step := some 4, due := 100 }] } }, by decide⟩

theorem test_meets_TasksStartAndStop_5 : ∃ (t : Fin 48) (d : Dev), (d.taskState t = 1 ∨ d.taskState t = 2) :=
  ⟨2, { setRegs [(AHD_LTt_STAT 2, 1), (AHD_LTt_CFG 2, 0x30001), (AHD_LTt_TIM 2, 0x14021205), (AHD_LTt_STEP 2, 4), (AHD_TBb_ID 3, 0x80000207), (AHD_TBb_GRP 3, 0x21000C), (AHD_TBb_SHD 3, 0x40100), (AHD_TBb_WIN 3, 0x4000)] Dev.reset with now := 100, ahd := { Ahd.reset with tasks := [(2, { Task.reset with openK := 5, latchK := 4, openS := 9, steps := [LStep.fresh 4 0] })] } }, by decide⟩

theorem test_meets_TasksStartAndStop_6 : ∃ (t : Fin 48) (d : Dev), (d.taskState t = 1 ∨ d.taskState t = 2) :=
  ⟨2, { setRegs [(AHD_LTt_STAT 2, 1), (AHD_LTt_CFG 2, 0x30001), (AHD_LTt_TIM 2, 0x14021205), (AHD_LTt_STEP 2, 4), (AHD_TBb_ID 3, 0x80000207), (AHD_TBb_GRP 3, 0x21000C), (AHD_TBb_SHD 3, 0x40100), (AHD_TBb_WIN 3, 0x4000)] Dev.reset with now := 100, ahd := { Ahd.reset with tasks := [(2, { Task.reset with openK := 5, latchK := 4, openS := 9, steps := [LStep.fresh 4 0] })] } }, by decide⟩

theorem test_meets_TasksStartAndStop_7 : ∃ (t : Fin 48) (k : RaTok) (ks : List RaTok) (m : Nat) (d : Dev), (d.ahd.toks = k :: ks) ∧ (k.task = t.val) ∧ (k.code = 3) ∧ (k.due ≤ d.now) ∧ (d.rd (AHD_LTt_CNT2_NOTE t) = m) ∧ (m < 65535) :=
  ⟨2, { task := 2, code := 3, step := some 4, due := 100 }, [], 0, { setRegs [(AHD_LTt_STAT 2, 1), (AHD_LTt_CFG 2, 0x30001), (AHD_LTt_TIM 2, 0x14021205), (AHD_LTt_STEP 2, 4), (AHD_TBb_ID 3, 0x80000207), (AHD_TBb_GRP 3, 0x21000C), (AHD_TBb_SHD 3, 0x40100), (AHD_TBb_WIN 3, 0x4000)] Dev.reset with now := 100, ahd := { Ahd.reset with tasks := [(2, { Task.reset with openK := 5, latchK := 4, openS := 9, steps := [LStep.fresh 4 0] })], toks := [{ task := 2, code := 3, step := some 4, due := 100 }] } }, by decide⟩

theorem test_meets_TasksStartAndStop_8 : ∃ (t : Fin 48) (v : BitVec 32) (d : Dev), (wbits v 1 0 ≠ 3) :=
  ⟨2, 0x1001, { setRegs [(AHD_LTt_STAT 2, 1), (AHD_LTt_CFG 2, 0x30001), (AHD_LTt_TIM 2, 0x14021205), (AHD_LTt_STEP 2, 4), (AHD_TBb_ID 3, 0x80000207), (AHD_TBb_GRP 3, 0x21000C), (AHD_TBb_SHD 3, 0x40100), (AHD_TBb_WIN 3, 0x4000)] Dev.reset with now := 100, ahd := { Ahd.reset with tasks := [(2, { Task.reset with openK := 5, latchK := 4, openS := 9, steps := [LStep.fresh 4 0] })] } }, by decide⟩

theorem test_meets_TasksStartAndStop_9 : ∃ (t : Fin 48) (v : BitVec 32) (d : Dev), (wbits v 1 0 = 3) :=
  ⟨2, 3, Dev.reset, by decide⟩

theorem test_meets_SnapshotSlots_1 : ∃ (s : Fin 8) (v : BitVec 32) (n : Fin 8) (per : Nat) (d : Dev), (d.rd (AHD_SNs_STAT_STATE s) = 0) ∧ (1 ≤ d.rd (AHD_SNs_NITEM_N s)) ∧ (d.rd (AHD_SNs_NITEM_N s) ≤ 256) ∧ ((d.reg (AHD_SNs_LIST s)).toNat < 0x800000) ∧ ((d.reg (AHD_SNs_DST s)).toNat + 2 * (d.reg (AHD_SNs_SIZE s)).toNat < 0x800000) ∧ (wbits v 2 0 = n.val) ∧ (2 ^ (48 - min (min 12 (d.rd (AU_ADn_CFG_LFK n))) (wbits v 11 8)) = per) ∧ (wbit v 3 = false) ∧ (isLandfall per (stampTheta (d.rd64 (AHD_SNs_LF_LO s) (AHD_SNs_LF_HI s))) = true) ∧ (atOrPast (d.adRev n) (d.ad n).theta (stampTheta (d.rd64 (AHD_SNs_LF_LO s) (AHD_SNs_LF_HI s))) = false) :=
  ⟨3, 0x10000, 0, 281474976710656, { setRegs [(AHD_SNs_NITEM 3, 2), (AHD_SNs_LIST 3, 0x1000), (AHD_SNs_DST 3, 0x2000), (AHD_SNs_SIZE 3, 0x100), (AHD_SNs_LF_HI 3, 3)] Dev.reset with now := 100 }, by decide⟩

theorem test_meets_SnapshotSlots_2 : ∃ (s : Fin 8) (v : BitVec 32) (n : Fin 8) (per : Nat) (d : Dev), (d.rd (AHD_SNs_STAT_STATE s) = 0) ∧ (1 ≤ d.rd (AHD_SNs_NITEM_N s)) ∧ (d.rd (AHD_SNs_NITEM_N s) ≤ 256) ∧ ((d.reg (AHD_SNs_LIST s)).toNat < 0x800000) ∧ ((d.reg (AHD_SNs_DST s)).toNat + 2 * (d.reg (AHD_SNs_SIZE s)).toNat < 0x800000) ∧ (wbits v 2 0 = n.val) ∧ (2 ^ (48 - min (min 12 (d.rd (AU_ADn_CFG_LFK n))) (wbits v 11 8)) = per) ∧ (wbit v 3 = true ∨ atOrPast (d.adRev n) (d.ad n).theta (stampTheta (d.rd64 (AHD_SNs_LF_LO s) (AHD_SNs_LF_HI s))) = true) ∧ (isLandfall per (stampTheta (d.rd64 (AHD_SNs_LF_LO s) (AHD_SNs_LF_HI s))) = true) :=
  ⟨3, 0x10008, 0, 281474976710656, { setRegs [(AHD_SNs_NITEM 3, 2), (AHD_SNs_LIST 3, 0x1000), (AHD_SNs_DST 3, 0x2000), (AHD_SNs_SIZE 3, 0x100)] Dev.reset with now := 100 }, by decide⟩

theorem test_meets_SnapshotSlots_3 : ∃ (s : Fin 8) (v : BitVec 32) (d : Dev), (d.rd (AHD_SNs_STAT_STATE s) = 0) ∧ (d.rd (AHD_SNs_NITEM_N s) = 0 ∨ 256 < d.rd (AHD_SNs_NITEM_N s) ∨ 0x800000 ≤ (d.reg (AHD_SNs_LIST s)).toNat ∨ 0x800000 ≤ (d.reg (AHD_SNs_DST s)).toNat + 2 * (d.reg (AHD_SNs_SIZE s)).toNat) :=
  ⟨3, 0x10008, Dev.reset, by decide⟩

theorem test_meets_SnapshotSlots_4 : ∃ (s : Fin 8) (v : BitVec 32) (d : Dev), (d.rd (AHD_SNs_STAT_STATE s) ≠ 0) :=
  ⟨3, 0x10008, { setRegs [(AHD_SNs_STAT 3, 1)] Dev.reset with now := 100 }, by decide⟩

theorem test_meets_SnapshotSlots_5 : ∃ (s : Fin 8) (d : Dev), (d.rd (AHD_SNs_STAT_STATE s) = 1) :=
  ⟨3, { setRegs [(AHD_SNs_STAT 3, 1)] Dev.reset with now := 100 }, by decide⟩

theorem test_meets_SnapshotSlots_6 : ∃ (s : Fin 8) (d : Dev), (d.rd (AHD_SNs_STAT_STATE s) = 2) :=
  ⟨3, { setRegs [(AHD_SNs_STAT 3, 2)] Dev.reset with now := 100 }, by decide⟩

theorem test_meets_SnapshotSlots_7 : ∃ (s : Fin 8) (r : SnapRec) (z b : Nat) (d : Dev), ((d.snap s).record = some r) ∧ (r.ranges = []) ∧ (r.status = 0) ∧ (r.overrun = false) ∧ ((d.snap s).evt = false) ∧ ((d.reg (AHD_SNs_SIZE s)).toNat = z) ∧ ((d.reg (AHD_SNs_DST s)).toNat + r.seq % 2 * z = b) ∧ (32 + 4 * r.payload.length ≤ z) ∧ ((d.reg (AHD_SNs_DST s)).toNat + 2 * z ≤ 0x800000) ∧ (d.integ.ecc = []) :=
  ⟨3, { stamp := 0x300000000, status := 0, payload := [0x11, 0x22], isles := [], start := 90, seq := 1, ranges := [], overrun := false }, 0x100, 0x2100, { setRegs [(AHD_SNs_NITEM 3, 2), (AHD_SNs_LIST 3, 0x1000), (AHD_SNs_DST 3, 0x2000), (AHD_SNs_SIZE 3, 0x100), (AHD_SNs_STAT 3, 2)] Dev.reset with now := 100, ahd := { Ahd.reset with snaps := [(3, { Snap.reset with record := some { stamp := 0x300000000, status := 0, payload := [0x11, 0x22], isles := [], start := 90, seq := 1, ranges := [], overrun := false } })] } }, by decide⟩

theorem test_meets_SnapshotSlots_8 : ∃ (s : Fin 8) (d : Dev), ((d.snap s).record = none) :=
  ⟨3, Dev.reset, by decide⟩

theorem test_meets_Readback_1 : ∃ (v : BitVec 32) (d : Dev), (d.rd CF_RB_STAT_STATE ≠ 0) :=
  ⟨1, { setRegs [(CF_RB_STAT, 2)] Dev.reset with now := 100 }, by decide⟩

theorem test_meets_Readback_2 : ∃ (v : BitVec 32) (d : Dev), (d.rd CF_RB_STAT_STATE = 0) ∧ (wbit v 1 = true) :=
  ⟨2, Dev.reset, by decide⟩

theorem test_meets_Readback_3 : ∃ (v : BitVec 32) (b : Nat) (d : Dev), (d.rd CF_RB_STAT_STATE = 0) ∧ (wbit v 1 = false) ∧ ((d.reg CF_RB_DST).toNat = b) ∧ (b + 4 ≤ 0x800000) ∧ (4 ≤ (d.reg CF_RB_SIZE).toNat) ∧ (d.integ.ecc = []) :=
  ⟨0x10, 0x2000, { setRegs [(CF_RB_SIZE, 0x100), (CF_RB_DST, 0x2000)] Dev.reset with now := 100 }, by decide⟩

theorem test_meets_Readback_4 : ∃ (st : Nat) (p : List (BitVec 32)) (b : Nat) (d : Dev), (d.rd CF_RB_STAT_STATE = 2) ∧ (d.cfg.rb.rec_ = some (st, p)) ∧ (32 + 4 * p.length ≤ (d.reg CF_RB_SIZE).toNat) ∧ ((d.reg CF_RB_DST).toNat = b) ∧ (b + (d.reg CF_RB_SIZE).toNat ≤ 0x800000) ∧ (d.integ.ecc = []) ∧ (st < 8) :=
  ⟨0, [0x11, 0x22], 0x2000, { setRegs [(CF_RB_STAT, 2), (CF_RB_SIZE, 0x100), (CF_RB_DST, 0x2000)] Dev.reset with now := 100, cfg := { Cfg.reset with rb := { rec_ := some (0, [0x11, 0x22]), stamp := 5, at_ := 90 } } }, by decide⟩

theorem test_meets_Readback_5 : ∃ (st : Nat) (p : List (BitVec 32)) (b : Nat) (d : Dev), (d.rd CF_RB_STAT_STATE = 2) ∧ (d.cfg.rb.rec_ = some (st, p)) ∧ ((d.reg CF_RB_SIZE).toNat < 32 + 4 * p.length) ∧ ((d.reg CF_RB_DST).toNat = b) ∧ (b + (d.reg CF_RB_SIZE).toNat ≤ 0x800000) :=
  ⟨0, [0x11, 0x22], 0x2000, { setRegs [(CF_RB_STAT, 2), (CF_RB_SIZE, 0x20), (CF_RB_DST, 0x2000)] Dev.reset with now := 100, cfg := { Cfg.reset with rb := { rec_ := some (0, [0x11, 0x22]), stamp := 5, at_ := 90 } } }, by decide⟩

theorem test_meets_Readback_6 : ∃ (d : Dev), (d.rd CF_RB_STAT_STATE ≠ 2) :=
  ⟨Dev.reset, by decide⟩

theorem test_meets_SigmaDeltaInputs_1 : ∃ (i : Fin 48) (b : Bool) (l : Nat) (d : Dev), (d.on (HP_SDi_CFG_EN i) = true) ∧ ((tget Mclk.reset d.hb.mclk (d.sdClock i)).last = l) ∧ ((d.sdIn i).cur.at_ < l) ∧ ((d.sdOverload i ((b :: (d.sdIn i).bits).take 768) = false ∨ d.predsOf 0 i = [])) ∧ (d.on (HP_SDi_CMP_CEN i) = false) ∧ ((d.sdIn i).cnt + 1 < max 4 (min 256 (d.rd (HP_SDi_CFG_DEC i)))) :=
  ⟨5, true, 99, { setRegs [(HP_SDi_CFG 5, 0x807)] Dev.reset with now := 100, hb := { Harb.reset with mclk := [(0, { Mclk.reset with last := 99 })] } }, by decide⟩

theorem test_meets_SigmaDeltaInputs_2 : ∃ (i : Fin 48) (b : Bool) (l : Nat) (d : Dev), (d.on (HP_SDi_CFG_EN i) = true) ∧ ((tget Mclk.reset d.hb.mclk (d.sdClock i)).last = l) ∧ ((d.sdIn i).cur.at_ < l) ∧ ((d.sdOverload i ((b :: (d.sdIn i).bits).take 768) = false ∨ d.predsOf 0 i = [])) ∧ (max 4 (min 256 (d.rd (HP_SDi_CFG_DEC i))) ≤ (d.sdIn i).cnt + 1) :=
  ⟨5, true, 99, { setRegs [(HP_SDi_CFG 5, 0x807)] Dev.reset with now := 100, hb := { Harb.reset with mclk := [(0, { Mclk.reset with last := 99 })], sd := [(5, { SdIn.reset with cnt := 31 })] } }, by decide⟩

theorem test_meets_SigmaDeltaInputs_3 : ∃ (i : Fin 48) (b : Bool) (d : Dev), (d.on (HP_SDi_CFG_EN i) = false) :=
  ⟨5, true, Dev.reset, by decide⟩

theorem test_meets_SigmaDeltaInputs_4 : ∃ (i : Fin 48) (b : Bool) (l : Nat) (d : Dev), (d.on (HP_SDi_CFG_EN i) = true) ∧ (d.on (HP_SDi_CMP_CEN i) = true) ∧ ((tget Mclk.reset d.hb.mclk (d.sdClock i)).last = l) ∧ ((d.sdIn i).cur.at_ < l) ∧ ((d.sdOverload i ((b :: (d.sdIn i).bits).take 768) = false ∨ d.predsOf 0 i = [])) ∧ ((d.sdIn i).spent = false) ∧ (d.rd (HP_SDi_CMP_CCNT i) = (d.sdIn i).outN) ∧ ((BitVec.ofNat 16 (d.rd (HP_SDi_CTHR_CHI i))).toInt < clampInt (-32768) 32767 (sincSum (max 1 (d.rd (HP_SDi_CMP_CORD i))) (max 4 (min 32 (d.rd (HP_SDi_CMP_CDEC i)))) ((b :: (d.sdIn i).bits).take 768))) :=
  ⟨5, true, 99, { setRegs [(HP_SDi_CFG 5, 0x807), (HP_SDi_CMP 5, 0x43), (HP_SDi_CTHR 5, 0x8000)] Dev.reset with now := 100, hb := { Harb.reset with mclk := [(0, { Mclk.reset with last := 99 })] } }, by decide +kernel⟩

theorem test_meets_SigmaDeltaInputs_5 : ∃ (i : Fin 48) (w : SdWord) (ws : List SdWord) (k : Nat) (d : Dev), ((d.sdIn i).free = w :: ws) ∧ (w.due ≤ d.now) ∧ (d.rd (HP_SDi_CNT_OVLC i) = k) ∧ (k < 65535) ∧ ((1 ≤ i.val → d.domainsOf 3 (i - 1) = [])) ∧ ((2 ≤ i.val → d.domainsOf 4 (i - 2) = [])) :=
  ⟨5, { due := 99, at_ := 96, value := 0x77, bad := true, ovl := true }, [], 0, { setRegs [(HP_IBc 9, 0x1051), (HP_IBc 10, 0x51)] Dev.reset with now := 100, hb := { Harb.reset with sd := [(5, { SdIn.reset with free := [{ due := 99, at_ := 96, value := 0x77, bad := true, ovl := true }] })] } }, by decide⟩

theorem test_meets_SigmaDeltaInputs_6 : ∃ (i : Fin 48) (w : SdWord) (ws : List SdWord) (n : Fin 7) (d : Dev), ((d.sdIn i).free = w :: ws) ∧ (w.due ≤ d.now) ∧ (1 ≤ i.val) ∧ (d.domainsOf 3 (i - 1) = [n.val]) :=
  ⟨5, { due := 99, at_ := 96, value := 0x77, bad := false, ovl := false }, [], 2, { setRegs [(AU_CTRL, 0x84), (AU_ADn_CFG 2, 0x43)] Dev.reset with now := 100, hb := { Harb.reset with sd := [(5, { SdIn.reset with free := [{ due := 99, at_ := 96, value := 0x77, bad := false, ovl := false }] })] } }, by decide⟩

theorem test_meets_SigmaDeltaInputs_7 : ∃ (i : Fin 48) (tf : Nat) (w : SdWord) (ws : List (Nat × Option SdWord)) (d : Dev), ((d.sdIn i).strobes = (tf, some w) :: ws) ∧ (w.due ≤ d.now) ∧ (tf + 1 ≤ d.now) ∧ (w.bad = false) ∧ (w.ovl = false) ∧ (d.predsOf 0 i = []) :=
  ⟨5, 97, { due := 99, at_ := 96, value := 0x77, bad := false, ovl := false }, [], { setRegs [(HP_IBc 9, 0x1051), (HP_IBc 10, 0x51)] Dev.reset with now := 100, hb := { Harb.reset with sd := [(5, { SdIn.reset with strobes := [(97, some { due := 99, at_ := 96, value := 0x77, bad := false, ovl := false })] })] } }, by decide⟩

theorem test_meets_SigmaDeltaInputs_8 : ∃ (i : Fin 48) (tf : Nat) (w : SdWord) (ws : List (Nat × Option SdWord)) (p : Fin 48) (d : Dev), ((d.sdIn i).strobes = (tf, some w) :: ws) ∧ (w.due ≤ d.now) ∧ (tf + 1 ≤ d.now) ∧ (w.bad = false) ∧ (d.predsOf 0 i = [p.val]) ∧ ((d.pred p).got = false) :=
  ⟨5, 97, { due := 99, at_ := 96, value := 0x77, bad := false, ovl := false }, [], 3, { setRegs [(HP_PRDp_CFG 3, 0x29)] Dev.reset with now := 100, hb := { Harb.reset with sd := [(5, { SdIn.reset with strobes := [(97, some { due := 99, at_ := 96, value := 0x77, bad := false, ovl := false })] })] } }, by decide⟩

theorem test_meets_SigmaDeltaInputs_9 : ∃ (i : Fin 48) (t : Nat) (ts : List Nat) (g k : Nat) (d : Dev), ((d.sdIn i).trips = t :: ts) ∧ (t ≤ d.now) ∧ (d.rd (HP_SDi_CMP_TGRP i) = g) ∧ (d.rd (HP_SDi_CNT_TRIPC i) = k) ∧ (k < 65535) :=
  ⟨5, 99, [], 2, 0, { setRegs [(HP_SDi_CMP 5, 0x4043), (HP_IBc 9, 6)] Dev.reset with now := 100, hb := { Harb.reset with sd := [(5, { SdIn.reset with trips := [99] })] } }, by decide⟩

theorem test_meets_PositionAndSampleInputs_1 : ∃ (j : Fin 16) (len : Nat) (bs : BitVec 32) (fl k : Nat) (d : Dev), (d.on (HP_LVj_CFG_EN j) = true) ∧ (d.on (HP_LVGg_EN (j / 4)) = true) ∧ (max 8 (min 32 (d.rd (HP_LVj_CFG_FLEN j))) = fl) ∧ (len ≠ fl) ∧ (d.rd (HP_LVj_STAT_FERRC j) = k) ∧ (k < 65535) ∧ (d.predsOf 1 j = []) :=
  ⟨5, 14, 3, 16, 0, { setRegs [(HP_LVj_CFG 5, 0x21), (HP_LVGg 1, 1), (HP_LVj_STAT 5, 1)] Dev.reset with now := 100, hb := { Harb.reset with due := [] } }, by decide⟩

theorem test_meets_PositionAndSampleInputs_2 : ∃ (j : Fin 16) (len : Nat) (bs : BitVec 32) (fl : Nat) (d : Dev), (d.on (HP_LVj_CFG_EN j) = true) ∧ (d.on (HP_LVGg_EN (j / 4)) = true) ∧ (max 8 (min 32 (d.rd (HP_LVj_CFG_FLEN j))) = fl) ∧ (len = fl) ∧ (d.on (HP_LVj_STAT_LOCK j) = true) ∧ (d.hbRepairing 1 j = false) ∧ ((∀ f : Fin 8, ¬ (d.rd (FQ_Qf_CFG_WSRC f) = 1 ∧ d.rd (FQ_Qf_CFG_LANE f) = j.val))) :=
  ⟨5, 16, 0xABCD, 16, { setRegs [(HP_LVj_CFG 5, 0x21), (HP_LVGg 1, 1), (HP_LVj_STAT 5, 1)] Dev.reset with now := 100, hb := { Harb.reset with due := [] } }, by decide⟩

theorem test_meets_PositionAndSampleInputs_3 : ∃ (x : Fin 8) (a b : Bool) (v : BitVec 32) (d : Dev), (d.on (HP_ENCe_CFG_EN x) = true) ∧ ((quadIdx a b + 4 - quadIdx (d.encIf x).a (d.encIf x).b) % 4 ≠ 0) ∧ ((quadIdx a b + 4 - quadIdx (d.encIf x).a (d.encIf x).b) % 4 ≠ 2) ∧ ((d.encIf x).zAt ≠ some d.now) ∧ ((d.encIf x).aFrom ≤ d.now ∧ (d.encIf x).bFrom ≤ d.now) ∧ (d.domainsOf 1 x = []) ∧ (v = (if (decide ((quadIdx a b + 4 - quadIdx (d.encIf x).a (d.encIf x).b) % 4 = 1) != d.on (HP_ENCe_CFG_DIRINV x)) then d.reg (HP_ENCe_CNT x) + 1 else d.reg (HP_ENCe_CNT x) - 1)) :=
  ⟨2, true, false, 1, { setRegs [(HP_ENCe_CFG 2, 1), (HP_IBc 9, 0x1023)] Dev.reset with now := 100, hb := { Harb.reset with due := [] } }, by decide⟩

theorem test_meets_PositionAndSampleInputs_4 : ∃ (x : Fin 8) (a b : Bool) (k : Nat) (d : Dev), (d.on (HP_ENCe_CFG_EN x) = true) ∧ ((d.encIf x).aFrom ≤ d.now ∧ (d.encIf x).bFrom ≤ d.now) ∧ (a ≠ (d.encIf x).a) ∧ (b ≠ (d.encIf x).b) ∧ (d.rd (HP_ENCe_STAT_ILLC x) = k) ∧ (k < 65535) :=
  ⟨2, true, true, 0, { setRegs [(HP_ENCe_CFG 2, 1)] Dev.reset with now := 100, hb := { Harb.reset with due := [] } }, by decide⟩

theorem test_meets_PositionAndSampleInputs_5 : ∃ (x : Fin 8) (r : Bool) (d : Dev), (d.on (HP_ENCe_CFG_EN x) = true) ∧ (r ≠ d.on (HP_ENCe_CFG_ZPOL x)) ∧ ((d.encIf x).zFrom ≤ d.now) ∧ (d.domainsOf 1 x = []) :=
  ⟨2, true, { setRegs [(HP_ENCe_CFG 2, 1), (HP_ENCe_CNT 2, 77)] Dev.reset with now := 100, hb := { Harb.reset with due := [] } }, by decide⟩

theorem test_meets_PositionAndSampleInputs_6 : ∃ (x : Fin 8) (v : BitVec 32) (d : Dev), ((d.encIf x).stepAt ≠ d.now) :=
  ⟨2, 7, { setRegs [(HP_IBc 9, 0x1023)] Dev.reset with now := 100, hb := { Harb.reset with due := [] } }, by decide⟩

theorem test_meets_PositionAndSampleInputs_7 : ∃ (x : Fin 8) (p : Nat) (d : Dev), (d.on (HP_SSIs_CFG_EN x) = true) ∧ (d.on (HP_SSIs_CFG_TRIGM x) = false) ∧ (d.rd (HP_SSIs_PER_PER x) = p) ∧ (p ≠ 0) ∧ ((d.ssiIf x).lastPer + p ≤ d.now) ∧ ((d.ssiIf x).start = none) ∧ ((d.ssiIf x).lastRise = none) :=
  ⟨2, 50, { setRegs [(HP_SSIs_CFG 2, 0x321), (HP_SSIs_PER 2, 50)] Dev.reset with now := 100, hb := { Harb.reset with due := [] } }, by decide⟩

theorem test_meets_PositionAndSampleInputs_8 : ∃ (x : Fin 8) (p : Nat) (d : Dev), (d.on (HP_SSIs_CFG_EN x) = true) ∧ (d.on (HP_SSIs_CFG_TRIGM x) = false) ∧ (d.rd (HP_SSIs_PER_PER x) = p) ∧ (p ≠ 0) ∧ ((d.ssiIf x).lastPer + p ≤ d.now) ∧ ((d.ssiIf x).start ≠ none) :=
  ⟨2, 50, { setRegs [(HP_SSIs_CFG 2, 0x321), (HP_SSIs_PER 2, 50)] Dev.reset with now := 100, hb := { Harb.reset with ssi := [(2, { SsiIf.reset with start := some 90 })] } }, by decide⟩

theorem test_meets_PositionAndSampleInputs_9 : ∃ (x : Fin 8) (st : Nat) (bs : BitVec 40) (d : Dev), ((d.ssiIf x).start = some st) ∧ (st + max 80 (d.rd (HP_SSIs_CLK_CDIV x)) / 2 + (ssiNbits (d.reg (HP_SSIs_CFG x)) (d.reg (HP_SSIs_POLY x)) - 1) * max 80 (d.rd (HP_SSIs_CLK_CDIV x)) + d.rd (HP_SSIs_CLK_SDLY x) ≤ d.now) ∧ (wbits (d.reg (HP_SSIs_CFG x)) 15 14 = 0) ∧ (wbits (d.reg (HP_SSIs_CFG x)) 13 11 = 0) ∧ (wbit (d.reg (HP_SSIs_CFG x)) 16 = false) ∧ (d.domainsOf 2 x = []) :=
  ⟨2, 0, 0x3FFFFFF, { setRegs [(HP_SSIs_CFG 2, 0x321)] Dev.reset with now := 10000, hb := { Harb.reset with ssi := [(2, { SsiIf.reset with start := some 0 })] } }, by decide⟩

theorem test_meets_PositionAndSampleInputs_10 : ∃ (x : Fin 8) (st k : Nat) (bs : BitVec 40) (d : Dev), ((d.ssiIf x).start = some st) ∧ (st + max 80 (d.rd (HP_SSIs_CLK_CDIV x)) / 2 + (ssiNbits (d.reg (HP_SSIs_CFG x)) (d.reg (HP_SSIs_POLY x)) - 1) * max 80 (d.rd (HP_SSIs_CLK_CDIV x)) + d.rd (HP_SSIs_CLK_SDLY x) ≤ d.now) ∧ (d.domainsOf 2 x = []) ∧ (d.predsOf 3 x = []) ∧ (d.rd (HP_SSIs_STAT_ERRC x) = k) ∧ (k < 65535) :=
  ⟨2, 0, 0, 0x3FFFFFF, { setRegs [(HP_SSIs_CFG 2, 0x321)] Dev.reset with now := 10000, hb := { Harb.reset with ssi := [(2, { SsiIf.reset with start := some 0 })] } }, by decide⟩

theorem test_meets_PositionAndSampleInputs_11 : ∃ (p : Fin 48) (per : Nat) (w : BitVec 32) (d : Dev), (d.on (HP_PRDp_CFG_EN p) = true) ∧ (d.rd (HP_PRDp_CFG_PPER p) = per) ∧ (per ≠ 0) ∧ ((d.pred p).lastPer + per ≤ d.now) ∧ (d.rd (HP_PRDp_CFG_CLASS p) ≠ 2) ∧ (d.liveWord (d.rd (HP_PRDp_CFG_CLASS p)) (d.predIndex p) p = (w, true)) ∧ ((d.pred p).got = false) :=
  ⟨3, 50, 9, { setRegs [(HP_PRDp_CFG 3, 0x320029), (HP_SDi_CFG 5, 0x807), (HP_SDi_FWORD 5, 9)] Dev.reset with now := 100, hb := { Harb.reset with sd := [(5, { SdIn.reset with freeBad := false })] } }, by decide⟩

theorem test_meets_PositionAndSampleInputs_12 : ∃ (p : Fin 48) (per dt : Nat) (w : BitVec 32) (d : Dev), (d.on (HP_PRDp_CFG_EN p) = true) ∧ (d.rd (HP_PRDp_CFG_PPER p) = per) ∧ (per ≠ 0) ∧ ((d.pred p).lastPer + per ≤ d.now) ∧ (d.rd (HP_PRDp_CFG_CLASS p) ≠ 2) ∧ (d.liveWord (d.rd (HP_PRDp_CFG_CLASS p)) (d.predIndex p) p = (w, true)) ∧ ((d.pred p).got = true) ∧ ((d.pred p).ready = false) ∧ (d.now = (d.pred p).at_ + dt) ∧ (0 < dt) :=
  ⟨3, 50, 30, 9, { setRegs [(HP_PRDp_CFG 3, 0x320029), (HP_SDi_CFG 5, 0x807), (HP_SDi_FWORD 5, 9)] Dev.reset with now := 100, hb := { Harb.reset with sd := [(5, { SdIn.reset with freeBad := false })] }, preds := [(3, { Pred.reset with got := true, x := 50, at_ := 70 })] }, by decide⟩

theorem test_meets_PositionAndSampleInputs_13 : ∃ (g : Fin 64) (l : Bool) (d : Dev), (d.rd (HP_GIOg_CFG_DIR g) = 0) ∧ ((d.gio g).pinAt ≠ some d.now) :=
  ⟨40, true, { setRegs [(HP_IBc 9, 0x15)] Dev.reset with now := 100, hb := { Harb.reset with due := [] } }, by decide⟩

theorem test_meets_PositionAndSampleInputs_14 : ∃ (g : Fin 64) (a : Nat) (d : Dev), ((d.gio g).mark = some a) ∧ (a + d.rd (HP_GIOg_MARK_MINW g) ≤ d.now) ∧ (d.domainsOf 5 g = []) :=
  ⟨40, 90, { setRegs [] Dev.reset with now := 100, hb := { Harb.reset with gio := [(40, { GioCell.reset with mark := some 90 })] } }, by decide⟩

theorem test_meets_PositionAndSampleInputs_15 : ∃ (g : Fin 64) (a : Nat) (n : Fin 7) (d : Dev), ((d.gio g).mark = some a) ∧ (a + d.rd (HP_GIOg_MARK_MINW g) ≤ d.now) ∧ (d.domainsOf 5 g = [n.val]) :=
  ⟨40, 90, 2, { setRegs [(AU_CTRL, 0x84), (AU_ADn_CFG 2, 0x285), (AU_ADn_CPR 2, 4)] Dev.reset with now := 100, hb := { Harb.reset with gio := [(40, { GioCell.reset with mark := some 90 })] } }, by decide⟩

theorem test_meets_PositionAndSampleInputs_16 : ∃ (c : Fin 7) (i : Fin 64) (d : Dev), (i.val < hbCount c) ∧ (d.ev.repairs = []) :=
  ⟨4, 5, Dev.reset, by decide⟩

theorem test_meets_PositionAndSampleInputs_17 : ∃ (c : Fin 7) (i : Fin 64) (d : Dev), (hbCount c ≤ i.val) :=
  ⟨1, 20, Dev.reset, by decide⟩

theorem test_meets_PwmPairs_1 : ∃ (p : Fin 48) (x : PwmEdge) (es : List PwmEdge) (d : Dev), ((d.pair p).edges = x :: es) ∧ (x.at_ < 8 * (d.now + 1)) ∧ (d.safeCause p = false) ∧ ((d.pair p).safe = true) :=
  ⟨5, { at_ := 805, on := true }, [], { setRegs [(PW_PAIRp_CFG 5, 1), (PW_PAIRp_DT 5, 16), (PW_STAT, 0), (PW_PAIRp_STAT 5, 0)] Dev.reset with now := 100, hb := { Harb.reset with pwm := [(5, { PwmPair.reset with edges := [{ at_ := 805, on := true }] })] } }, by decide⟩

theorem test_meets_PwmPairs_2 : ∃ (p : Fin 48) (x : PwmEdge) (es : List PwmEdge) (d : Dev), ((d.pair p).edges = x :: es) ∧ (x.at_ < 8 * (d.now + 1)) ∧ (d.safeCause p = false) ∧ ((d.pair p).safe = false) ∧ ((d.pair p).turnOn = none) ∧ ((if x.on then (d.pair p).hs else (d.pair p).ls) = false) :=
  ⟨5, { at_ := 805, on := true }, [], { setRegs [(PW_PAIRp_CFG 5, 1), (PW_PAIRp_DT 5, 16), (PW_STAT, 0), (PW_PAIRp_STAT 5, 0)] Dev.reset with now := 100, hb := { Harb.reset with pwm := [(5, { PwmPair.reset with edges := [{ at_ := 805, on := true }], safe := false, hiZ := false, ls := true })] } }, by decide⟩

theorem test_meets_PwmPairs_3 : ∃ (p : Fin 48) (x : PwmEdge) (es : List PwmEdge) (d : Dev), ((d.pair p).edges = x :: es) ∧ (x.at_ < 8 * (d.now + 1)) ∧ (d.safeCause p = true) :=
  ⟨5, { at_ := 805, on := true }, [], { setRegs [] Dev.reset with now := 100, hb := { Harb.reset with pwm := [(5, { PwmPair.reset with edges := [{ at_ := 805, on := true }] })] } }, by decide⟩

theorem test_meets_PwmPairs_4 : ∃ (p : Fin 48) (u : Nat) (h : Bool) (d : Dev), ((d.pair p).turnOn = some (u, h)) ∧ (u < 8 * (d.now + 1)) ∧ ((∀ x ∈ (d.pair p).edges, u < x.at_)) :=
  ⟨5, 803, true, { setRegs [(PW_PAIRp_CFG 5, 1), (PW_PAIRp_DT 5, 16), (PW_STAT, 0), (PW_PAIRp_STAT 5, 0)] Dev.reset with now := 100, hb := { Harb.reset with pwm := [(5, { PwmPair.reset with turnOn := some (803, true), edges := [{ at_ := 805, on := true }], safe := false })] } }, by decide⟩

theorem test_meets_PwmPairs_5 : ∃ (p : Fin 48) (u : Nat) (h : Bool) (d : Dev), ((d.pair p).turnOn = some (u, h)) ∧ (8 * (d.now + 1) ≤ u) :=
  ⟨5, 1803, true, { setRegs [(PW_PAIRp_CFG 5, 1), (PW_PAIRp_DT 5, 16), (PW_STAT, 0), (PW_PAIRp_STAT 5, 0)] Dev.reset with now := 100, hb := { Harb.reset with pwm := [(5, { PwmPair.reset with turnOn := some (1803, true) })] } }, by decide⟩

theorem test_meets_PwmPairs_6 : ∃ (p : Fin 48) (v : BitVec 32) (d : Dev), ((d.pair p).cmdAt < d.now) :=
  ⟨5, 0x1234, { setRegs [(PW_PAIRp_CFG 5, 1), (PW_PAIRp_DT 5, 16), (PW_STAT, 0), (PW_PAIRp_STAT 5, 0)] Dev.reset with now := 100, hb := { Harb.reset with due := [] } }, by decide⟩

theorem test_meets_PwmPairs_7 : ∃ (p : Fin 48) (d : Dev), ((d.pair p).tripAt ≠ some d.now) :=
  ⟨5, { setRegs [(PW_PAIRp_STAT 5, 0xC)] Dev.reset with now := 100, hb := { Harb.reset with due := [] } }, by decide⟩

theorem test_meets_PwmPairs_8 : ∃ (p : Fin 48) (d : Dev), ((d.pair p).tripAt = some d.now) :=
  ⟨5, { setRegs [(PW_PAIRp_STAT 5, 0xC)] Dev.reset with now := 100, hb := { Harb.reset with pwm := [(5, { PwmPair.reset with tripAt := some 100 })] } }, by decide⟩

theorem test_meets_PwmPairs_9 : ∃ (p : Fin 48) (d : Dev), ((d.pair p).safe = false) ∧ (d.on PW_STAT_NOIMG = false) :=
  ⟨5, { setRegs [(PW_PAIRp_CFG 5, 3), (PW_STAT, 0), (PW_PAIRp_STAT 5, 0)] Dev.reset with now := 100, hb := { Harb.reset with pwm := [(5, { PwmPair.reset with safe := false, hs := true, hiZ := false })] } }, by decide⟩

theorem test_meets_PwmPairs_10 : ∃ (d : Dev), (d.ev.f3 = false) ∧ ((∀ p : Fin 48, d.safeCause p = true → (d.pair p).safe = true)) :=
  ⟨Dev.reset, by decide⟩

theorem test_meets_PwmPairs_11 : ∃ (d : Dev), (d.ev.f3 = true) :=
  ⟨{ Dev.reset with ev := { Events.reset with f3 := true } }, by decide⟩

theorem test_meets_PwmPairs_13 : ∃ (g : Fin 64) (a : Nat) (d : Dev), ((d.gio g).pulseEnd = some a) ∧ (a ≤ d.now) :=
  ⟨40, 90, { setRegs [] Dev.reset with now := 100, hb := { Harb.reset with gio := [(40, { GioCell.reset with pulseEnd := some 90 })] } }, by decide⟩

theorem test_meets_FifoReadAndFlush_1 : ∃ (f : Fin 8) (d : Dev), (d.rd (FQ_Qf_STAT_AVAIL f) = (d.hfifo f).items.length) ∧ (d.rd (FQ_Qf_STAT_AVAIL f) = 0) ∧ ((d.hfifo f).prev.all (fun q => decide (q.at_ ≠ d.now)) = true) :=
  ⟨3, Dev.reset, by decide⟩

theorem test_meets_DeliveriesAndFifos_1 : ∃ (c : Fin 96) (v : BitVec 32) (p : Nat) (d : Dev), ((d.isle (c / 8)).freshV.contains (16 + c % 8) = true) ∧ ((d.isle (c / 8)).taken.contains (c.val % 8) = false) ∧ (tget 0#32 (d.isle (c / 8)).straitV (16 + c % 8) = v) ∧ (d.hb.loading = false) ∧ (obTarget (d.reg (HP_OBc c)) = some (1, p)) ∧ ((d.pair p).cmdAt < d.now) :=
  ⟨17, 0x55, 5, { setRegs [(HP_OBc 17, 0x51)] Dev.reset with now := 100, hb := { Harb.reset with due := [] }, isles := [(2, { Isle.reset with freshV := [17], straitV := [(17, 0x55)] })] }, by decide⟩

theorem test_meets_DeliveriesAndFifos_2 : ∃ (c : Fin 96) (v : BitVec 32) (b : Nat) (d : Dev), ((d.isle (c / 8)).freshV.contains (16 + c % 8) = true) ∧ ((d.isle (c / 8)).taken.contains (c.val % 8) = false) ∧ (tget 0#32 (d.isle (c / 8)).straitV (16 + c % 8) = v) ∧ (d.hb.loading = false) ∧ (obTarget (d.reg (HP_OBc c)) = some (3, b)) :=
  ⟨17, 0x55, 1, { setRegs [(HP_OBc 17, 0x13)] Dev.reset with now := 100, hb := { Harb.reset with due := [] }, isles := [(2, { Isle.reset with freshV := [17], straitV := [(17, 0x55)] })] }, by decide⟩

theorem test_meets_DeliveriesAndFifos_3 : ∃ (c : Fin 96) (v : BitVec 32) (f : Nat) (d : Dev), ((d.isle (c / 8)).freshV.contains (16 + c % 8) = true) ∧ ((d.isle (c / 8)).taken.contains (c.val % 8) = false) ∧ (tget 0#32 (d.isle (c / 8)).straitV (16 + c % 8) = v) ∧ (d.hb.loading = false) ∧ (obTarget (d.reg (HP_OBc c)) = some (2, f)) ∧ (d.rd (FQ_Qf_CFG_WSRC f) = 2) ∧ (d.on (FQ_Qf_CFG_EN f) = true) ∧ (d.on (FQ_Qf_CFG_FRAME f) = false) ∧ ((d.hfifo f).fill < 4096) :=
  ⟨17, 0x55, 3, { setRegs [(HP_OBc 17, 0x32), (FQ_Qf_CFG 3, 5)] Dev.reset with now := 100, hb := { Harb.reset with fifo := [(3, { HFifo.reset with items := [(7, false)], packet := none })] }, isles := [(2, { Isle.reset with freshV := [17], straitV := [(17, 0x55)] })] }, by decide⟩

theorem test_meets_DeliveriesAndFifos_4 : ∃ (c : Fin 96) (v : BitVec 32) (f k : Nat) (x : BitVec 32) (t : List (BitVec 32 × Bool)) (d : Dev), ((d.isle (c / 8)).freshV.contains (16 + c % 8) = true) ∧ ((d.isle (c / 8)).taken.contains (c.val % 8) = false) ∧ (tget 0#32 (d.isle (c / 8)).straitV (16 + c % 8) = v) ∧ (d.hb.loading = false) ∧ (obTarget (d.reg (HP_OBc c)) = some (2, f)) ∧ (d.rd (FQ_Qf_CFG_WSRC f) = 2) ∧ (d.on (FQ_Qf_CFG_EN f) = true) ∧ (d.on (FQ_Qf_CFG_FRAME f) = false) ∧ (4096 ≤ (d.hfifo f).fill) ∧ ((d.hfifo f).items = (x, false) :: t) ∧ (d.rd (FQ_Qf_LOST_LOST f) = k) ∧ (k < 4294967295) :=
  have h : ∀ t : List (BitVec 32 × Bool), t.length = 4095 → _ := fun t ht => ⟨17, 0x55, 3, 0, 7, t, { setRegs [(HP_OBc 17, 0x32), (FQ_Qf_CFG 3, 5)] Dev.reset with now := 100, hb := { Harb.reset with fifo := [(3, { HFifo.reset with items := (7, false) :: t, packet := none })] }, isles := [(2, { Isle.reset with freshV := [17], straitV := [(17, 0x55)] })] }, rfl, rfl, rfl, rfl, (by decide : obTarget ((setRegs [(HP_OBc 17, 0x32), (FQ_Qf_CFG 3, 5)] Dev.reset).reg (HP_OBc 17)) = some (2, 3)), (by decide : (setRegs [(HP_OBc 17, 0x32), (FQ_Qf_CFG 3, 5)] Dev.reset).rd (FQ_Qf_CFG_WSRC 3) = 2), (by decide : (setRegs [(HP_OBc 17, 0x32), (FQ_Qf_CFG 3, 5)] Dev.reset).on (FQ_Qf_CFG_EN 3) = true), (by decide : (setRegs [(HP_OBc 17, 0x32), (FQ_Qf_CFG 3, 5)] Dev.reset).on (FQ_Qf_CFG_FRAME 3) = false), show 4096 ≤ ((7#32, false) :: t).length + 0 by simp [ht], rfl, (by decide : (setRegs [(HP_OBc 17, 0x32), (FQ_Qf_CFG 3, 5)] Dev.reset).rd (FQ_Qf_LOST_LOST 3) = 0), by decide⟩
  h (List.replicate 4095 (8, false)) (List.length_replicate ..)

theorem test_meets_DeliveriesAndFifos_5 : ∃ (c : Fin 96) (d : Dev), (d.hb.loading = true) :=
  ⟨17, { setRegs [(HP_OBc 17, 0x51)] Dev.reset with now := 100, hb := { Harb.reset with due := [], loading := true }, isles := [(2, { Isle.reset with freshV := [17], straitV := [(17, 0x55)] })] }, by decide⟩

theorem test_meets_DeliveriesAndFifos_6 : ∃ (f : Fin 8) (x : BitVec 32) (k : Bool) (t : List (BitVec 32 × Bool)) (d : Dev), ((d.hfifo f).items = (x, k) :: t) ∧ ((d.hfifo f).prev.all (fun q => decide (q.at_ ≠ d.now)) = true) :=
  ⟨3, 7, false, [], { setRegs [] Dev.reset with now := 100, hb := { Harb.reset with fifo := [(3, { HFifo.reset with items := [(7, false)], packet := none })] } }, by decide⟩

theorem test_meets_DeliveriesAndFifos_7 : ∃ (f : Fin 8) (q : FifoPrev) (x : BitVec 32) (k : Bool) (t : List (BitVec 32 × Bool)) (d : Dev), ((d.hfifo f).prev = some q) ∧ (q.at_ = d.now) ∧ (q.items = (x, k) :: t) :=
  ⟨3, { at_ := 100, items := [(7, false)], packet := none, fc := false, stat := 0x10001, lost := 0, writes := [9] }, 7, false, [], { setRegs [] Dev.reset with now := 100, hb := { Harb.reset with fifo := [(3, { HFifo.reset with items := [(7, false), (9, false)], prev := some { at_ := 100, items := [(7, false)], packet := none, fc := false, stat := 0x10001, lost := 0, writes := [9] } })] } }, by decide⟩

theorem test_meets_PartialImageThroughTheIcp_1 : ∃ (v : BitVec 32) (d : Dev), (1 ≤ d.rd CF_ICP_STAT_STATE) ∧ (d.rd CF_ICP_STAT_STATE ≤ 4) :=
  ⟨1, { setRegs [(CF_ICP_STAT, 2)] Dev.reset with now := 1000, mem := [], cfg := { Cfg.reset with used := [] } }, by decide⟩

theorem test_meets_PartialImageThroughTheIcp_2 : ∃ (v : BitVec 32) (d : Dev), (d.rd CF_ICP_STAT_STATE = 0 ∨ 5 ≤ d.rd CF_ICP_STAT_STATE) ∧ (d.integ.tmr = []) :=
  ⟨1, Dev.reset, by decide⟩

theorem test_meets_PartialImageThroughTheIcp_3 : ∃ (n : Nat) (nv : Nv) (d : Dev), (nv.agree = true) ∧ (d.cfg.icp.phase = 1) ∧ (d.cfg.icp.at_ + 129 ≤ d.now) ∧ (128 ≤ d.rd CF_ICP_LEN_LEN) ∧ (d.icpSrc + 128 + 16 * min 64 (imgSects (d.bytesAt d.icpSrc 128)) ≤ 0x800000) ∧ (identityOk (d.bytesAt d.icpSrc 128) = true) ∧ (imgLen (d.bytesAt d.icpSrc 128) = n) ∧ (headerOk (d.bytesAt d.icpSrc (128 + 16 * min 64 (imgSects (d.bytesAt d.icpSrc 128)))) = true) ∧ (headerCheck nv true true (d.bytesAt d.icpSrc (128 + 16 * min 64 (imgSects (d.bytesAt d.icpSrc 128)))) = 0) ∧ (imgPartial (d.bytesAt d.icpSrc 128) = true) ∧ (n ≤ d.rd CF_ICP_STGSZ_SIZE * 16) ∧ (128 + 16 * imgSects (d.bytesAt d.icpSrc 128) ≤ d.rd CF_ICP_LEN_LEN) ∧ (d.claimed 0x13 d.icpStg n = true) ∧ (d.integ.ecc = []) :=
  ⟨0x200, { Nv.reset with keys := [(0, { state := 1, copy1 := 1, copy2 := 1, key := [5] })] }, { setRegs [(CF_ICP_SRC_LO, 0x101000), (CF_ICP_LEN, 0x1000), (CF_ICP_STG, 0x102000), (CF_ICP_STGSZ, 0x1000), (CF_ICP_CTL, 0)] Dev.reset with now := 1000, mem := [(1052672, 69), (1052673, 84), (1052674, 68), (1052675, 82), (1052678, 1), (1052680, 1), (1052681, 150), (1052682, 65), (1052683, 89), (1052684, 2), (1052689, 2), (1052692, 1), (1052696, 9), (1052700, 1), (1052796, 212), (1052797, 162), (1052798, 221), (1052799, 167), (1052800, 7), (1052804, 144)], cfg := { Cfg.reset with icp := { phase := 1, at_ := 800, todo := [], checks := [] }, claims := [{ cls := 0x13, first := 0x102000, len := 0x1000, holder := 2, tag := 0 }] } }, by decide +kernel, by decide +kernel, by decide +kernel, by decide +kernel, by decide +kernel, (congrArg identityOk (by decide +kernel)).trans hdrPartial_identity, by decide +kernel, by decide +kernel, by decide +kernel, by decide +kernel, by decide +kernel, by decide +kernel, by decide +kernel, by decide +kernel⟩

theorem test_meets_PartialImageThroughTheIcp_4 : ∃ (nv : Nv) (d : Dev), (nv.agree = true) ∧ (d.cfg.icp.phase = 1) ∧ (d.cfg.icp.at_ + 129 ≤ d.now) ∧ (128 ≤ d.rd CF_ICP_LEN_LEN) ∧ (d.icpSrc + 128 ≤ 0x800000) ∧ (identityOk (d.bytesAt d.icpSrc 128) = false) ∧ (d.cfg.ops = []) ∧ (d.integ.ecc = []) :=
  ⟨Nv.reset, { setRegs [(CF_ICP_SRC_LO, 0x101000), (CF_ICP_LEN, 0x1000), (CF_ICP_STG, 0x102000), (CF_ICP_STGSZ, 0x1000), (CF_ICP_CTL, 0)] Dev.reset with now := 1000, mem := [], cfg := { Cfg.reset with icp := { phase := 1, at_ := 800, todo := [], checks := [] } } }, by decide⟩

theorem test_meets_PartialImageThroughTheIcp_5 : ∃ (n : Nat) (d : Dev), (d.cfg.icp.phase = 2) ∧ (imgLen (d.bytesAt d.icpSrc 128) = n) ∧ (128 ≤ n) ∧ (n ≤ d.rd CF_ICP_LEN_LEN) ∧ (n < 2 ^ 24) ∧ (d.cfg.icp.at_ + n ≤ d.now + 1) ∧ (d.icpSrc + n ≤ 0x800000) ∧ (d.icpStg + n ≤ 0x800000) ∧ (d.integ.ecc = []) :=
  ⟨0x200, { setRegs [(CF_ICP_SRC_LO, 0x101000), (CF_ICP_LEN, 0x1000), (CF_ICP_STG, 0x102000), (CF_ICP_STGSZ, 0x1000), (CF_ICP_CTL, 0)] Dev.reset with now := 1000, mem := [(1052672, 69), (1052673, 84), (1052674, 68), (1052675, 82), (1052678, 1), (1052680, 1), (1052681, 150), (1052682, 65), (1052683, 89), (1052684, 2), (1052689, 2), (1052692, 1), (1052696, 9), (1052700, 1), (1052796, 212), (1052797, 162), (1052798, 221), (1052799, 167), (1052800, 7), (1052804, 144), (1053152, 217), (1053153, 149), (1053154, 230), (1053155, 37), (1053156, 243), (1053157, 81), (1053158, 126), (1053159, 119), (1053160, 33), (1053161, 167), (1053162, 248), (1053163, 152), (1053164, 244), (1053165, 225), (1053166, 78), (1053167, 131), (1053168, 49), (1053169, 7), (1053170, 238), (1053171, 20), (1053172, 75), (1053173, 147), (1053174, 68), (1053175, 73), (1053176, 69), (1053177, 113), (1053178, 120), (1053179, 253), (1053180, 165), (1053181, 205), (1053182, 171), (1053183, 95)], cfg := { Cfg.reset with icp := { phase := 2, at_ := 200, todo := [], checks := [] } } }, by decide⟩

theorem test_meets_PartialImageThroughTheIcp_6 : ∃ (d : Dev), (d.cfg.icp.phase = 2) ∧ (d.cfg.ops = []) ∧ (d.icpSrc + 128 ≤ 0x800000) ∧ (d.integ.ecc = []) :=
  ⟨{ setRegs [(CF_ICP_SRC_LO, 0x101000), (CF_ICP_LEN, 0x1000), (CF_ICP_STG, 0x102000), (CF_ICP_STGSZ, 0x1000), (CF_ICP_CTL, 0)] Dev.reset with now := 1000, mem := [], cfg := { Cfg.reset with icp := { phase := 2, at_ := 200, todo := [], checks := [] } } }, by decide⟩

theorem test_meets_PartialImageThroughTheIcp_7 : ∃ (n : Nat) (nv : Nv) (d : Dev), (nv.agree = true) ∧ (d.cfg.icp.phase = 3) ∧ (d.cfg.icp.at_ ≤ d.now) ∧ (d.rd CF_ICP_DONE_BYTES = n) ∧ (d.icpStg + n ≤ 0x800000) ∧ (tagOk nv (d.bytesAt d.icpStg n) = true) ∧ (d.integ.ecc = []) :=
  ⟨64, { Nv.reset with keys := [(0, { state := 1, copy1 := 1, copy2 := 1, key := [5] })] }, { setRegs [(CF_ICP_SRC_LO, 0x101000), (CF_ICP_LEN, 0x1000), (CF_ICP_STG, 0x102000), (CF_ICP_STGSZ, 0x1000), (CF_ICP_CTL, 0), (CF_ICP_DONE, 64)] Dev.reset with now := 1000, mem := [(1056784, 64), (1056800, 173), (1056801, 65), (1056802, 224), (1056803, 95), (1056804, 83), (1056805, 57), (1056806, 236), (1056807, 62), (1056808, 240), (1056809, 48), (1056810, 145), (1056811, 199), (1056812, 215), (1056813, 194), (1056814, 192), (1056815, 51), (1056816, 216), (1056817, 65), (1056818, 199), (1056819, 136), (1056820, 131), (1056821, 117), (1056822, 155), (1056823, 79), (1056824, 4), (1056825, 240), (1056826, 45), (1056827, 18), (1056828, 10), (1056829, 139), (1056830, 154), (1056831, 157)], cfg := { Cfg.reset with icp := { phase := 3, at_ := 900, todo := [], checks := [] } } }, by decide +kernel⟩

theorem test_meets_PartialImageThroughTheIcp_8 : ∃ (n : Nat) (nv : Nv) (d : Dev), (nv.agree = true) ∧ (d.cfg.icp.phase = 3) ∧ (d.cfg.icp.at_ ≤ d.now) ∧ (d.rd CF_ICP_DONE_BYTES = n) ∧ (d.icpStg + n ≤ 0x800000) ∧ (tagOk nv (d.bytesAt d.icpStg n) = false) ∧ (d.cfg.ops = []) ∧ (d.integ.ecc = []) :=
  ⟨0, Nv.reset, { setRegs [(CF_ICP_SRC_LO, 0x101000), (CF_ICP_LEN, 0x1000), (CF_ICP_STG, 0x102000), (CF_ICP_STGSZ, 0x1000), (CF_ICP_CTL, 0)] Dev.reset with now := 1000, mem := [], cfg := { Cfg.reset with icp := { phase := 3, at_ := 900, todo := [], checks := [] } } }, by decide +kernel⟩

theorem test_meets_PartialImageThroughTheIcp_9 : ∃ (d : Dev), (1 ≤ d.cfg.icp.phase) ∧ (d.cfg.icp.phase ≤ 4) ∧ (d.cfg.ops = []) :=
  ⟨{ setRegs [] Dev.reset with now := 1000, mem := [], cfg := { Cfg.reset with icp := { phase := 2, at_ := 900, todo := [], checks := [] } } }, by decide⟩

theorem test_meets_PartialImageThroughTheIcp_10 : ∃ (s : Fin 8) (d : Dev), (5 ≤ d.cfg.icp.phase) ∧ (d.rd CF_ICP_CTL_SLOT = s.val) :=
  ⟨0, { setRegs [] Dev.reset with now := 1000, mem := [], cfg := { Cfg.reset with icp := { phase := 5, at_ := 900, todo := [], checks := [] } } }, by decide⟩

theorem test_meets_StagingAPartialImage_1 : ∃ (s u : Nat) (us : List Nat) (d : Dev), (d.cfg.icp.phase = 4) ∧ (d.cfg.icp.at_ ≤ d.now) ∧ (d.icpStg + d.rd CF_ICP_DONE_BYTES ≤ 0x800000) ∧ (d.integ.ecc = []) ∧ (d.checkPartial d.icpStg (d.bytesAt d.icpStg (d.rd CF_ICP_DONE_BYTES)) = none) ∧ (d.rd CF_ICP_CTL_SLOT = s) ∧ (imgUnits (imgItems (d.bytesAt d.icpStg (d.rd CF_ICP_DONE_BYTES))) = u :: us) ∧ ((∀ i ∈ imgItems (d.bytesAt d.icpStg (d.rd CF_ICP_DONE_BYTES)), i.writes.all (fun w => w.1 != 0x13) = true)) ∧ (d.rd (AU_MCs_STAT_STATE s) = 0 ∨ 3 ≤ d.rd (AU_MCs_STAT_STATE s)) ∧ (u < 96) ∧ (d.on (IS_STAT_SYNC u) = false) ∧ (d.unitRefuses (imgItems (d.bytesAt d.icpStg (d.rd CF_ICP_DONE_BYTES))) u = false) ∧ ((unitItems (imgItems (d.bytesAt d.icpStg (d.rd CF_ICP_DONE_BYTES))) u).any ImgItem.loads = false) ∧ (us.length < 255) :=
  ⟨0, 16, [], { setRegs [(CF_ICP_STG, 0x102000), (CF_ICP_DONE, 0x200), (CF_ICP_CTL, 0), (PC_DOMUP0, 0xFFFFFFFF)] Dev.reset with now := 1000, mem := [(1056768, 69), (1056769, 84), (1056770, 68), (1056771, 82), (1056774, 1), (1056776, 1), (1056777, 150), (1056778, 65), (1056779, 89), (1056780, 2), (1056785, 2), (1056788, 1), (1056792, 9), (1056796, 2), (1056806, 1), (1056892, 185), (1056894, 19), (1056895, 135), (1056896, 7), (1056900, 160), (1056904, 16), (1056912, 1), (1056916, 176), (1056920, 20), (1056928, 10), (1056930, 1), (1056932, 16), (1056944, 16), (1056945, 2), (1056946, 3), (1057248, 56), (1057249, 177), (1057250, 192), (1057251, 209), (1057252, 126), (1057253, 207), (1057254, 67), (1057255, 191), (1057256, 44), (1057257, 32), (1057258, 237), (1057259, 196), (1057260, 117), (1057261, 80), (1057262, 246), (1057263, 31), (1057264, 178), (1057265, 141), (1057266, 106), (1057267, 21), (1057268, 218), (1057269, 55), (1057270, 3), (1057271, 176), (1057272, 99), (1057273, 22), (1057274, 150), (1057275, 45), (1057276, 51), (1057277, 251), (1057278, 106), (1057279, 119)], cfg := { Cfg.reset with icp := { phase := 4, at_ := 900, todo := [], checks := [] }, claims := [{ cls := 0x13, first := 0x102000, len := 0x1000, holder := 2, tag := 0 }] } }, by decide +kernel⟩

theorem test_meets_StagingAPartialImage_2 : ∃ (x : ImgErr) (d : Dev), (d.cfg.icp.phase = 4) ∧ (d.cfg.icp.at_ ≤ d.now) ∧ (d.icpStg + d.rd CF_ICP_DONE_BYTES ≤ 0x800000) ∧ (d.integ.ecc = []) ∧ (d.checkPartial d.icpStg (d.bytesAt d.icpStg (d.rd CF_ICP_DONE_BYTES)) = some x) ∧ (x.code < 256) ∧ (d.cfg.ops = []) :=
  ⟨imgErr 2, { setRegs [(CF_ICP_STG, 0x102000), (CF_ICP_DONE, 0x200), (CF_ICP_CTL, 0)] Dev.reset with now := 1000, mem := [(1056768, 69), (1056769, 84), (1056770, 68), (1056771, 82), (1056774, 1), (1056776, 1), (1056777, 150), (1056778, 65), (1056779, 89), (1056780, 2), (1056785, 2), (1056788, 1), (1056792, 9), (1056796, 1), (1056804, 1), (1056892, 205), (1056893, 234), (1056894, 24), (1056895, 240), (1056896, 7), (1056900, 144), (1057248, 2), (1057249, 11), (1057250, 240), (1057251, 106), (1057252, 151), (1057253, 108), (1057254, 237), (1057255, 152), (1057256, 233), (1057257, 54), (1057258, 13), (1057259, 248), (1057260, 140), (1057261, 167), (1057262, 177), (1057263, 58), (1057264, 188), (1057265, 176), (1057266, 180), (1057267, 136), (1057268, 35), (1057269, 195), (1057270, 224), (1057271, 30), (1057272, 83), (1057273, 141), (1057274, 135), (1057275, 202), (1057276, 34), (1057277, 142), (1057278, 33), (1057279, 55)], cfg := { Cfg.reset with icp := { phase := 4, at_ := 900, todo := [], checks := [] }, claims := [{ cls := 0x13, first := 0x102000, len := 0x1000, holder := 2, tag := 0 }] } }, by decide +kernel⟩

theorem test_meets_StagingAPartialImage_3 : ∃ (u n c k : Nat) (w : BitVec 128) (d : Dev), (d.cfg.icp.phase = 6) ∧ (d.cfg.icp.todo = [u]) ∧ (u < 96) ∧ (n = u) ∧ (c < 16) ∧ (k < 16) ∧ (unitItems (imgItems (d.bytesAt d.icpStg (d.rd CF_ICP_DONE_BYTES))) u = [.ctx n c k w]) ∧ (d.cfg.icp.at_ + 1 ≤ d.now) ∧ (d.icpStg + d.rd CF_ICP_DONE_BYTES ≤ 0x800000) ∧ (d.integ.ecc = []) :=
  ⟨16, 16, 2, 3, 0, { setRegs [(CF_ICP_STG, 0x102000), (CF_ICP_DONE, 0x200), (CF_ICP_CTL, 0)] Dev.reset with now := 1000, mem := [(1056768, 69), (1056769, 84), (1056770, 68), (1056771, 82), (1056774, 1), (1056776, 1), (1056777, 150), (1056778, 65), (1056779, 89), (1056780, 2), (1056785, 2), (1056788, 1), (1056792, 9), (1056796, 2), (1056806, 1), (1056892, 185), (1056894, 19), (1056895, 135), (1056896, 7), (1056900, 160), (1056904, 16), (1056912, 1), (1056916, 176), (1056920, 20), (1056928, 10), (1056930, 1), (1056932, 16), (1056944, 16), (1056945, 2), (1056946, 3), (1057248, 56), (1057249, 177), (1057250, 192), (1057251, 209), (1057252, 126), (1057253, 207), (1057254, 67), (1057255, 191), (1057256, 44), (1057257, 32), (1057258, 237), (1057259, 196), (1057260, 117), (1057261, 80), (1057262, 246), (1057263, 31), (1057264, 178), (1057265, 141), (1057266, 106), (1057267, 21), (1057268, 218), (1057269, 55), (1057270, 3), (1057271, 176), (1057272, 99), (1057273, 22), (1057274, 150), (1057275, 45), (1057276, 51), (1057277, 251), (1057278, 106), (1057279, 119)], cfg := { Cfg.reset with icp := { phase := 6, at_ := 900, todo := [16], checks := [] } } }, by decide +kernel⟩

theorem test_meets_StagingAPartialImage_4 : ∃ (u : Nat) (d : Dev), (d.cfg.icp.phase = 6) ∧ (d.cfg.icp.todo = [u]) ∧ (d.now < d.cfg.icp.at_ + unitCost (unitItems (imgItems (d.bytesAt d.icpStg (d.rd CF_ICP_DONE_BYTES))) u)) ∧ (d.icpStg + d.rd CF_ICP_DONE_BYTES ≤ 0x800000) ∧ (d.integ.ecc = []) :=
  ⟨16, { setRegs [(CF_ICP_STG, 0x102000), (CF_ICP_DONE, 0x200), (CF_ICP_CTL, 0)] Dev.reset with now := 1000, mem := [(1056768, 69), (1056769, 84), (1056770, 68), (1056771, 82), (1056774, 1), (1056776, 1), (1056777, 150), (1056778, 65), (1056779, 89), (1056780, 2), (1056785, 2), (1056788, 1), (1056792, 9), (1056796, 2), (1056806, 1), (1056892, 185), (1056894, 19), (1056895, 135), (1056896, 7), (1056900, 160), (1056904, 16), (1056912, 1), (1056916, 176), (1056920, 20), (1056928, 10), (1056930, 1), (1056932, 16), (1056944, 16), (1056945, 2), (1056946, 3), (1057248, 56), (1057249, 177), (1057250, 192), (1057251, 209), (1057252, 126), (1057253, 207), (1057254, 67), (1057255, 191), (1057256, 44), (1057257, 32), (1057258, 237), (1057259, 196), (1057260, 117), (1057261, 80), (1057262, 246), (1057263, 31), (1057264, 178), (1057265, 141), (1057266, 106), (1057267, 21), (1057268, 218), (1057269, 55), (1057270, 3), (1057271, 176), (1057272, 99), (1057273, 22), (1057274, 150), (1057275, 45), (1057276, 51), (1057277, 251), (1057278, 106), (1057279, 119)], cfg := { Cfg.reset with icp := { phase := 6, at_ := 1000, todo := [16], checks := [] } } }, by decide +kernel⟩

theorem test_meets_StagingAPartialImage_5 : ∃ (n : Fin 96) (a : Nat) (d : Dev), (d.cfg.icp.checks = [(n.val, a)]) ∧ (a ≤ d.now) ∧ (d.integ.ecc = []) ∧ (d.integ.crc = []) ∧ (d.stagingBad n = none) :=
  ⟨16, 990, { setRegs [(CF_ICP_STG, 0x102000), (CF_ICP_DONE, 0x200), (CF_ICP_CTL, 0)] Dev.reset with now := 1000, mem := [], cfg := { Cfg.reset with icp := { phase := 6, at_ := 1000, todo := [17], checks := [(16, 990)] } } }, by decide⟩

theorem test_meets_StagingAPartialImage_6 : ∃ (n : Fin 96) (a : Nat) (x : ImgErr) (d : Dev), (d.cfg.icp.checks = [(n.val, a)]) ∧ (a ≤ d.now) ∧ (d.integ.ecc = []) ∧ (d.integ.crc = []) ∧ (d.stagingBad n = some x) ∧ (x.code = 8) ∧ (d.cfg.icp.phase = 7) ∧ (d.cfg.staged = []) ∧ (d.cfg.ops = []) ∧ (d.rd CF_ICP_CTL_SLOT = 0) :=
  ⟨16, 990, { code := 8, isle := 16, plane := false, cell := 2, idx := 3 }, { setRegs [(CF_ICP_STG, 0x102000), (CF_ICP_DONE, 0x200), (CF_ICP_CTL, 0)] Dev.reset with now := 1000, mem := [], cfg := { Cfg.reset with icp := { phase := 7, at_ := 1000, todo := [], checks := [(16, 990)] } }, isles := [(16, { Isle.reset with ctx := [(256 + 35, BitVec.ofNat 128 (2 ^ 128 - 1))] })] }, by decide⟩

theorem test_meets_LoadingAFullImage_1 : ∃ (nv : Nv) (d : Dev), (nv.agree = true) ∧ (d.cfg.load.phase = 1) ∧ (d.cfg.load.field = 3) ∧ (128 ≤ d.cfg.load.len) ∧ (d.cfg.load.src + 128 ≤ 0x800000) ∧ (identityOk (d.bytesAt d.cfg.load.src 128) = false) ∧ (d.cfg.ops = []) ∧ (d.cfg.load.host = false) ∧ (d.cfg.load.data = []) ∧ (d.integ.ecc = []) :=
  ⟨Nv.reset, { setRegs [] Dev.reset with now := 1000, mem := [], cfg := { Cfg.reset with load := { CfgLoad.reset with phase := 1, src := 0x101000, len := 0x1000 } } }, by decide⟩

theorem test_meets_LoadingAFullImage_2 : ∃ (n : Nat) (nv : Nv) (d : Dev), (nv.agree = true) ∧ (d.cfg.load.phase = 1) ∧ (d.cfg.load.field = 3) ∧ (128 ≤ d.cfg.load.len) ∧ (d.cfg.load.src + 128 + 16 * min 64 (imgSects (d.bytesAt d.cfg.load.src 128)) ≤ 0x800000) ∧ (identityOk (d.bytesAt d.cfg.load.src 128) = true) ∧ (imgMask (d.bytesAt d.cfg.load.src 128) = []) ∧ (headerCheck nv false true (d.bytesAt d.cfg.load.src (128 + 16 * min 64 (imgSects (d.bytesAt d.cfg.load.src 128)))) = 0) ∧ (imgLen (d.bytesAt d.cfg.load.src (128 + 16 * min 64 (imgSects (d.bytesAt d.cfg.load.src 128)))) = n) ∧ (n ≤ d.cfg.load.len) ∧ (128 + 16 * imgSects (d.bytesAt d.cfg.load.src 128) ≤ d.cfg.load.len) ∧ (d.claimed 0x13 d.cfg.load.stg n = true) ∧ (d.cfg.load.host = false) ∧ (d.cfg.load.data = []) ∧ (d.integ.ecc = []) :=
  ⟨0x200, { Nv.reset with keys := [(0, { state := 1, copy1 := 1, copy2 := 1, key := [5] })] }, { setRegs [] Dev.reset with now := 1000, mem := [(1052672, 69), (1052673, 84), (1052674, 68), (1052675, 82), (1052678, 1), (1052680, 1), (1052681, 150), (1052682, 65), (1052683, 89), (1052684, 2), (1052689, 2), (1052696, 9), (1052700, 1), (1052796, 57), (1052797, 98), (1052798, 99), (1052799, 171), (1052800, 7), (1052804, 144)], cfg := { Cfg.reset with load := { CfgLoad.reset with phase := 1, src := 0x101000, len := 0x1000, stg := 0x102000 }, claims := [{ cls := 0x13, first := 0x102000, len := 0x1000, holder := 2, tag := 0 }] } }, by decide +kernel, by decide +kernel, by decide +kernel, by decide +kernel, by decide +kernel, (congrArg identityOk (by decide +kernel)).trans hdrFull_identity, by decide +kernel, by decide +kernel, by decide +kernel, by decide +kernel, by decide +kernel, by decide +kernel, by decide +kernel, by decide +kernel, by decide +kernel⟩

theorem test_meets_LoadingAFullImage_3 : ∃ (nv : Nv) (d : Dev), (nv.agree = true) ∧ (d.cfg.load.phase = 2) ∧ (d.cfg.load.field = 3) ∧ (d.cfg.ops = []) :=
  ⟨Nv.reset, { setRegs [] Dev.reset with now := 1000, mem := [], cfg := { Cfg.reset with load := { CfgLoad.reset with phase := 2, src := 0x101000, len := 0x200, stg := 0x102000 } } }, by decide⟩

theorem test_meets_LoadingAFullImage_4 : ∃ (n : Nat) (nv : Nv) (w d : Dev), (nv.agree = true) ∧ (d.cfg.load.phase = 2) ∧ (d.cfg.load.field = 3) ∧ (d.cfg.load.len = n) ∧ (0 < n) ∧ (d.cfg.load.src + n ≤ 0x800000) ∧ (d.cfg.load.stg + n ≤ 0x800000) ∧ (tagOk nv (d.bytesAt d.cfg.load.src n) = true) ∧ (d.checkFull d.cfg.load.stg (d.bytesAt d.cfg.load.src n) = none) ∧ (d.rd (MI_FLIPk_CTL_ARM 0) = 0) ∧ (d.integ.flipUsed = []) ∧ (d.cfg.load.host = false) ∧ (d.cfg.load.data = []) ∧ (d.integ.ecc = []) ∧ ((d.memWriteAll d.cfg.load.stg (d.bytesAt d.cfg.load.src n)).2 = w) :=
  ⟨0xc0, { Nv.reset with keys := [(0, { state := 1, copy1 := 1, copy2 := 1, key := [5] })] }, (Dev.memWriteAll 0x102000 (Dev.bytesAt ({ setRegs [] Dev.reset with now := 1000, mem := [(1052672, 69), (1052673, 84), (1052674, 68), (1052675, 82), (1052678, 1), (1052680, 1), (1052681, 150), (1052682, 65), (1052683, 89), (1052684, 2), (1052688, 192), (1052696, 9), (1052700, 1), (1052716, 1), (1052796, 235), (1052797, 170), (1052798, 68), (1052799, 228), (1052800, 7), (1052804, 144), (1052808, 16), (1052816, 1), (1052818, 1), (1052820, 3), (1052832, 131), (1052833, 17), (1052834, 242), (1052835, 58), (1052836, 18), (1052837, 26), (1052838, 179), (1052839, 124), (1052840, 157), (1052841, 11), (1052842, 250), (1052843, 131), (1052844, 254), (1052845, 46), (1052846, 116), (1052847, 255), (1052848, 6), (1052849, 220), (1052850, 65), (1052851, 26), (1052852, 121), (1052853, 50), (1052854, 46), (1052855, 235), (1052856, 102), (1052857, 188), (1052858, 4), (1052859, 170), (1052860, 94), (1052861, 97), (1052862, 197), (1052863, 199)], cfg := { Cfg.reset with load := { CfgLoad.reset with phase := 2, src := 0x101000, len := 0xc0, stg := 0x102000, mask := [64] } } }) 0x101000 0xc0) ({ setRegs [] Dev.reset with now := 1000, mem := [(1052672, 69), (1052673, 84), (1052674, 68), (1052675, 82), (1052678, 1), (1052680, 1), (1052681, 150), (1052682, 65), (1052683, 89), (1052684, 2), (1052688, 192), (1052696, 9), (1052700, 1), (1052716, 1), (1052796, 235), (1052797, 170), (1052798, 68), (1052799, 228), (1052800, 7), (1052804, 144), (1052808, 16), (1052816, 1), (1052818, 1), (1052820, 3), (1052832, 131), (1052833, 17), (1052834, 242), (1052835, 58), (1052836, 18), (1052837, 26), (1052838, 179), (1052839, 124), (1052840, 157), (1052841, 11), (1052842, 250), (1052843, 131), (1052844, 254), (1052845, 46), (1052846, 116), (1052847, 255), (1052848, 6), (1052849, 220), (1052850, 65), (1052851, 26), (1052852, 121), (1052853, 50), (1052854, 46), (1052855, 235), (1052856, 102), (1052857, 188), (1052858, 4), (1052859, 170), (1052860, 94), (1052861, 97), (1052862, 197), (1052863, 199)], cfg := { Cfg.reset with load := { CfgLoad.reset with phase := 2, src := 0x101000, len := 0xc0, stg := 0x102000, mask := [64] } } })).2, { setRegs [] Dev.reset with now := 1000, mem := [(1052672, 69), (1052673, 84), (1052674, 68), (1052675, 82), (1052678, 1), (1052680, 1), (1052681, 150), (1052682, 65), (1052683, 89), (1052684, 2), (1052688, 192), (1052696, 9), (1052700, 1), (1052716, 1), (1052796, 235), (1052797, 170), (1052798, 68), (1052799, 228), (1052800, 7), (1052804, 144), (1052808, 16), (1052816, 1), (1052818, 1), (1052820, 3), (1052832, 131), (1052833, 17), (1052834, 242), (1052835, 58), (1052836, 18), (1052837, 26), (1052838, 179), (1052839, 124), (1052840, 157), (1052841, 11), (1052842, 250), (1052843, 131), (1052844, 254), (1052845, 46), (1052846, 116), (1052847, 255), (1052848, 6), (1052849, 220), (1052850, 65), (1052851, 26), (1052852, 121), (1052853, 50), (1052854, 46), (1052855, 235), (1052856, 102), (1052857, 188), (1052858, 4), (1052859, 170), (1052860, 94), (1052861, 97), (1052862, 197), (1052863, 199)], cfg := { Cfg.reset with load := { CfgLoad.reset with phase := 2, src := 0x101000, len := 0xc0, stg := 0x102000, mask := [64] } } }, by decide +kernel, by decide +kernel, by decide +kernel, by decide +kernel, by decide +kernel, by decide +kernel, by decide +kernel, by decide +kernel, by decide +kernel, by decide +kernel, by decide +kernel, by decide +kernel, by decide +kernel, by decide +kernel, rfl⟩

theorem test_meets_LoadingAFullImage_5 : ∃ (d : Dev), (d.cfg.load.phase = 4) ∧ (d.cfg.load.at_ ≤ d.now) ∧ (d.cfg.load.field = 3) ∧ (d.cfg.ops = []) :=
  ⟨{ setRegs [(PW_PAIRp_CFG 5, 1), (PW_STAT, 1), (CF_STAT, 1)] Dev.reset with now := 1000, mem := [], cfg := { Cfg.reset with load := { CfgLoad.reset with phase := 4, at_ := 900, mask := [3, 17] } }, hb := { Harb.reset with loading := true }, isles := [(3, { Isle.reset with gateLoad := true })] }, by decide⟩

theorem test_meets_LoadingAFullImage_6 : ∃ (d : Dev), (d.cfg.load.phase = 4) ∧ (d.now < d.cfg.load.at_) :=
  ⟨{ setRegs [] Dev.reset with now := 1000, mem := [], cfg := { Cfg.reset with load := { CfgLoad.reset with phase := 4, at_ := 9000 } } }, by decide⟩

theorem test_meets_CoreArithmetic_1 : ∃ (c : Fin 4) (rd ra rb : Fin 32) (d : Dev), (d.ready c (fmtR 0x010 rd ra rb) = true) :=
  ⟨1, 5, 3, 2, { setRegs [(PC_DOMUP0 + 12, 0x2), (CP_STAT 1, 1), (CP_CFG 1, 0)] Dev.reset with now := 100, mem := [(0x20081000, 16), (0x20081001, 196), (0x20081002, 40)], cores := [(1, { CoreSt.reset with pc := 0x20081000, slots := [(0, { BankSlot.reset with bank := { Bank.zero with g := [(2, 7), (3, 0xFFFFFFFFFFFFFFFB)] } })] })] }, by decide⟩

theorem test_meets_CoreArithmetic_2 : ∃ (c : Fin 4) (rd ra rb : Fin 32) (d : Dev), (d.ready c (fmtR 0x011 rd ra rb) = true) :=
  ⟨1, 5, 3, 2, { setRegs [(PC_DOMUP0 + 12, 0x2), (CP_STAT 1, 1), (CP_CFG 1, 0)] Dev.reset with now := 100, mem := [(0x20081000, 17), (0x20081001, 196), (0x20081002, 40)], cores := [(1, { CoreSt.reset with pc := 0x20081000, slots := [(0, { BankSlot.reset with bank := { Bank.zero with g := [(2, 7), (3, 0xFFFFFFFFFFFFFFFB)] } })] })] }, by decide⟩

theorem test_meets_CoreArithmetic_3 : ∃ (c : Fin 4) (rd ra rb : Fin 32) (d : Dev), (d.ready c (fmtR 0x012 rd ra rb) = true) :=
  ⟨1, 5, 3, 2, { setRegs [(PC_DOMUP0 + 12, 0x2), (CP_STAT 1, 1), (CP_CFG 1, 0)] Dev.reset with now := 100, mem := [(0x20081000, 18), (0x20081001, 196), (0x20081002, 40)], cores := [(1, { CoreSt.reset with pc := 0x20081000, slots := [(0, { BankSlot.reset with bank := { Bank.zero with g := [(2, 7), (3, 0xFFFFFFFFFFFFFFFB)] } })] })] }, by decide⟩

theorem test_meets_CoreArithmetic_4 : ∃ (c : Fin 4) (rd ra rb : Fin 32) (d : Dev), (d.ready c (fmtR 0x013 rd ra rb) = true) :=
  ⟨1, 5, 3, 2, { setRegs [(PC_DOMUP0 + 12, 0x2), (CP_STAT 1, 1), (CP_CFG 1, 0)] Dev.reset with now := 100, mem := [(0x20081000, 19), (0x20081001, 196), (0x20081002, 40)], cores := [(1, { CoreSt.reset with pc := 0x20081000, slots := [(0, { BankSlot.reset with bank := { Bank.zero with g := [(2, 7), (3, 0xFFFFFFFFFFFFFFFB)] } })] })] }, by decide⟩

theorem test_meets_CoreArithmetic_5 : ∃ (c : Fin 4) (rd ra rb : Fin 32) (d : Dev), (d.ready c (fmtR 0x020 rd ra rb) = true) :=
  ⟨1, 5, 3, 2, { setRegs [(PC_DOMUP0 + 12, 0x2), (CP_STAT 1, 1), (CP_CFG 1, 0)] Dev.reset with now := 100, mem := [(0x20081000, 32), (0x20081001, 196), (0x20081002, 40)], cores := [(1, { CoreSt.reset with pc := 0x20081000, slots := [(0, { BankSlot.reset with bank := { Bank.zero with g := [(2, 7), (3, 0xFFFFFFFFFFFFFFFB)] } })] })] }, by decide⟩

theorem test_meets_CoreArithmetic_6 : ∃ (c : Fin 4) (rd ra rb : Fin 32) (d : Dev), (d.ready c (fmtR 0x021 rd ra rb) = true) :=
  ⟨1, 5, 3, 2, { setRegs [(PC_DOMUP0 + 12, 0x2), (CP_STAT 1, 1), (CP_CFG 1, 0)] Dev.reset with now := 100, mem := [(0x20081000, 33), (0x20081001, 196), (0x20081002, 40)], cores := [(1, { CoreSt.reset with pc := 0x20081000, slots := [(0, { BankSlot.reset with bank := { Bank.zero with g := [(2, 7), (3, 0xFFFFFFFFFFFFFFFB)] } })] })] }, by decide⟩

theorem test_meets_CoreArithmetic_7 : ∃ (c : Fin 4) (rd ra rb : Fin 32) (d : Dev), (d.ready c (fmtR 0x022 rd ra rb) = true) :=
  ⟨1, 5, 3, 2, { setRegs [(PC_DOMUP0 + 12, 0x2), (CP_STAT 1, 1), (CP_CFG 1, 0)] Dev.reset with now := 100, mem := [(0x20081000, 34), (0x20081001, 196), (0x20081002, 40)], cores := [(1, { CoreSt.reset with pc := 0x20081000, slots := [(0, { BankSlot.reset with bank := { Bank.zero with g := [(2, 7), (3, 0xFFFFFFFFFFFFFFFB)] } })] })] }, by decide⟩

theorem test_meets_CoreArithmetic_8 : ∃ (c : Fin 4) (rd ra rb : Fin 32) (d : Dev), (d.ready c (fmtR 0x030 rd ra rb) = true) :=
  ⟨1, 5, 3, 2, { setRegs [(PC_DOMUP0 + 12, 0x2), (CP_STAT 1, 1), (CP_CFG 1, 0)] Dev.reset with now := 100, mem := [(0x20081000, 48), (0x20081001, 196), (0x20081002, 40)], cores := [(1, { CoreSt.reset with pc := 0x20081000, slots := [(0, { BankSlot.reset with bank := { Bank.zero with g := [(2, 7), (3, 0xFFFFFFFFFFFFFFFB)] } })] })] }, by decide⟩

theorem test_meets_CoreArithmetic_9 : ∃ (c : Fin 4) (rd ra rb : Fin 32) (d : Dev), (d.ready c (fmtR 0x031 rd ra rb) = true) :=
  ⟨1, 5, 3, 2, { setRegs [(PC_DOMUP0 + 12, 0x2), (CP_STAT 1, 1), (CP_CFG 1, 0)] Dev.reset with now := 100, mem := [(0x20081000, 49), (0x20081001, 196), (0x20081002, 40)], cores := [(1, { CoreSt.reset with pc := 0x20081000, slots := [(0, { BankSlot.reset with bank := { Bank.zero with g := [(2, 7), (3, 0xFFFFFFFFFFFFFFFB)] } })] })] }, by decide⟩

theorem test_meets_CoreArithmetic_10 : ∃ (c : Fin 4) (rd ra rb : Fin 32) (d : Dev), (d.ready c (fmtR 0x032 rd ra rb) = true) :=
  ⟨1, 5, 3, 2, { setRegs [(PC_DOMUP0 + 12, 0x2), (CP_STAT 1, 1), (CP_CFG 1, 0)] Dev.reset with now := 100, mem := [(0x20081000, 50), (0x20081001, 196), (0x20081002, 40)], cores := [(1, { CoreSt.reset with pc := 0x20081000, slots := [(0, { BankSlot.reset with bank := { Bank.zero with g := [(2, 7), (3, 0xFFFFFFFFFFFFFFFB)] } })] })] }, by decide⟩

theorem test_meets_CoreArithmetic_11 : ∃ (c : Fin 4) (rd ra rb : Fin 32) (d : Dev), (d.ready c (fmtR 0x040 rd ra rb) = true) :=
  ⟨1, 5, 3, 2, { setRegs [(PC_DOMUP0 + 12, 0x2), (CP_STAT 1, 1), (CP_CFG 1, 0)] Dev.reset with now := 100, mem := [(0x20081000, 64), (0x20081001, 196), (0x20081002, 40)], cores := [(1, { CoreSt.reset with pc := 0x20081000, slots := [(0, { BankSlot.reset with bank := { Bank.zero with g := [(2, 7), (3, 0xFFFFFFFFFFFFFFFB)] } })] })] }, by decide⟩

theorem test_meets_CoreArithmetic_12 : ∃ (c : Fin 4) (rd ra rb : Fin 32) (d : Dev), (d.ready c (fmtR 0x041 rd ra rb) = true) :=
  ⟨1, 5, 3, 2, { setRegs [(PC_DOMUP0 + 12, 0x2), (CP_STAT 1, 1), (CP_CFG 1, 0)] Dev.reset with now := 100, mem := [(0x20081000, 65), (0x20081001, 196), (0x20081002, 40)], cores := [(1, { CoreSt.reset with pc := 0x20081000, slots := [(0, { BankSlot.reset with bank := { Bank.zero with g := [(2, 7), (3, 0xFFFFFFFFFFFFFFFB)] } })] })] }, by decide⟩

theorem test_meets_CoreArithmetic_13 : ∃ (c : Fin 4) (rd ra rb : Fin 32) (d : Dev), (d.ready c (fmtR 0x050 rd ra rb) = true) :=
  ⟨1, 5, 3, 2, { setRegs [(PC_DOMUP0 + 12, 0x2), (CP_STAT 1, 1), (CP_CFG 1, 0)] Dev.reset with now := 100, mem := [(0x20081000, 80), (0x20081001, 196), (0x20081002, 40)], cores := [(1, { CoreSt.reset with pc := 0x20081000, slots := [(0, { BankSlot.reset with bank := { Bank.zero with g := [(2, 7), (3, 0xFFFFFFFFFFFFFFFB)] } })] })] }, by decide⟩

theorem test_meets_CoreArithmetic_14 : ∃ (c : Fin 4) (rd ra rb : Fin 32) (d : Dev), (d.ready c (fmtR 0x051 rd ra rb) = true) :=
  ⟨1, 5, 3, 2, { setRegs [(PC_DOMUP0 + 12, 0x2), (CP_STAT 1, 1), (CP_CFG 1, 0)] Dev.reset with now := 100, mem := [(0x20081000, 81), (0x20081001, 196), (0x20081002, 40)], cores := [(1, { CoreSt.reset with pc := 0x20081000, slots := [(0, { BankSlot.reset with bank := { Bank.zero with g := [(2, 7), (3, 0xFFFFFFFFFFFFFFFB)] } })] })] }, by decide⟩

theorem test_meets_CoreArithmetic_15 : ∃ (c : Fin 4) (rd ra rb : Fin 32) (d : Dev), (d.ready c (fmtR 0x052 rd ra rb) = true) :=
  ⟨1, 5, 3, 2, { setRegs [(PC_DOMUP0 + 12, 0x2), (CP_STAT 1, 1), (CP_CFG 1, 0)] Dev.reset with now := 100, mem := [(0x20081000, 82), (0x20081001, 196), (0x20081002, 40)], cores := [(1, { CoreSt.reset with pc := 0x20081000, slots := [(0, { BankSlot.reset with bank := { Bank.zero with g := [(2, 7), (3, 0xFFFFFFFFFFFFFFFB)] } })] })] }, by decide⟩

theorem test_meets_CoreArithmetic_16 : ∃ (c : Fin 4) (rd ra : Fin 32) (imm : BitVec 14) (d : Dev), (d.ready c (fmtI 0x01 rd ra imm) = true) :=
  ⟨1, 5, 3, 0x3FFE, { setRegs [(PC_DOMUP0 + 12, 0x2), (CP_STAT 1, 1), (CP_CFG 1, 0)] Dev.reset with now := 100, mem := [(0x20081000, 254), (0x20081001, 255), (0x20081002, 40), (0x20081003, 1)], cores := [(1, { CoreSt.reset with pc := 0x20081000, slots := [(0, { BankSlot.reset with bank := { Bank.zero with g := [(2, 7), (3, 0xFFFFFFFFFFFFFFFB)] } })] })] }, by decide⟩

theorem test_meets_CoreArithmetic_17 : ∃ (c : Fin 4) (rd ra : Fin 32) (imm : BitVec 14) (d : Dev), (d.ready c (fmtI 0x02 rd ra imm) = true) :=
  ⟨1, 5, 3, 0x3FFE, { setRegs [(PC_DOMUP0 + 12, 0x2), (CP_STAT 1, 1), (CP_CFG 1, 0)] Dev.reset with now := 100, mem := [(0x20081000, 254), (0x20081001, 255), (0x20081002, 40), (0x20081003, 2)], cores := [(1, { CoreSt.reset with pc := 0x20081000, slots := [(0, { BankSlot.reset with bank := { Bank.zero with g := [(2, 7), (3, 0xFFFFFFFFFFFFFFFB)] } })] })] }, by decide⟩

theorem test_meets_CoreArithmetic_18 : ∃ (c : Fin 4) (rd ra : Fin 32) (imm : BitVec 14) (d : Dev), (d.ready c (fmtI 0x03 rd ra imm) = true) :=
  ⟨1, 5, 3, 0x3FFE, { setRegs [(PC_DOMUP0 + 12, 0x2), (CP_STAT 1, 1), (CP_CFG 1, 0)] Dev.reset with now := 100, mem := [(0x20081000, 254), (0x20081001, 255), (0x20081002, 40), (0x20081003, 3)], cores := [(1, { CoreSt.reset with pc := 0x20081000, slots := [(0, { BankSlot.reset with bank := { Bank.zero with g := [(2, 7), (3, 0xFFFFFFFFFFFFFFFB)] } })] })] }, by decide⟩

theorem test_meets_CoreArithmetic_19 : ∃ (c : Fin 4) (rd ra : Fin 32) (imm : BitVec 14) (d : Dev), (d.ready c (fmtI 0x04 rd ra imm) = true) :=
  ⟨1, 5, 3, 0x3FFE, { setRegs [(PC_DOMUP0 + 12, 0x2), (CP_STAT 1, 1), (CP_CFG 1, 0)] Dev.reset with now := 100, mem := [(0x20081000, 254), (0x20081001, 255), (0x20081002, 40), (0x20081003, 4)], cores := [(1, { CoreSt.reset with pc := 0x20081000, slots := [(0, { BankSlot.reset with bank := { Bank.zero with g := [(2, 7), (3, 0xFFFFFFFFFFFFFFFB)] } })] })] }, by decide⟩

theorem test_meets_CoreArithmetic_20 : ∃ (c : Fin 4) (rd ra : Fin 32) (imm : BitVec 14) (d : Dev), (d.ready c (fmtI 0x05 rd ra imm) = true) :=
  ⟨1, 5, 3, 0x3FFE, { setRegs [(PC_DOMUP0 + 12, 0x2), (CP_STAT 1, 1), (CP_CFG 1, 0)] Dev.reset with now := 100, mem := [(0x20081000, 254), (0x20081001, 255), (0x20081002, 40), (0x20081003, 5)], cores := [(1, { CoreSt.reset with pc := 0x20081000, slots := [(0, { BankSlot.reset with bank := { Bank.zero with g := [(2, 7), (3, 0xFFFFFFFFFFFFFFFB)] } })] })] }, by decide⟩

theorem test_meets_CoreArithmetic_21 : ∃ (c : Fin 4) (rd ra : Fin 32) (imm : BitVec 14) (d : Dev), (d.ready c (fmtI 0x06 rd ra imm) = true) :=
  ⟨1, 5, 3, 0x3FFE, { setRegs [(PC_DOMUP0 + 12, 0x2), (CP_STAT 1, 1), (CP_CFG 1, 0)] Dev.reset with now := 100, mem := [(0x20081000, 254), (0x20081001, 255), (0x20081002, 40), (0x20081003, 6)], cores := [(1, { CoreSt.reset with pc := 0x20081000, slots := [(0, { BankSlot.reset with bank := { Bank.zero with g := [(2, 7), (3, 0xFFFFFFFFFFFFFFFB)] } })] })] }, by decide⟩

theorem test_meets_CoreArithmetic_22 : ∃ (c : Fin 4) (rd ra : Fin 32) (imm : BitVec 14) (d : Dev), (d.ready c (fmtI 0x07 rd ra imm) = true) :=
  ⟨1, 5, 3, 0x3FFE, { setRegs [(PC_DOMUP0 + 12, 0x2), (CP_STAT 1, 1), (CP_CFG 1, 0)] Dev.reset with now := 100, mem := [(0x20081000, 254), (0x20081001, 255), (0x20081002, 40), (0x20081003, 7)], cores := [(1, { CoreSt.reset with pc := 0x20081000, slots := [(0, { BankSlot.reset with bank := { Bank.zero with g := [(2, 7), (3, 0xFFFFFFFFFFFFFFFB)] } })] })] }, by decide⟩

theorem test_meets_CoreArithmetic_23 : ∃ (c : Fin 4) (rd ra : Fin 32) (imm : BitVec 14) (d : Dev), (d.ready c (fmtI 0x08 rd ra imm) = true) :=
  ⟨1, 5, 3, 0x3FFE, { setRegs [(PC_DOMUP0 + 12, 0x2), (CP_STAT 1, 1), (CP_CFG 1, 0)] Dev.reset with now := 100, mem := [(0x20081000, 254), (0x20081001, 255), (0x20081002, 40), (0x20081003, 8)], cores := [(1, { CoreSt.reset with pc := 0x20081000, slots := [(0, { BankSlot.reset with bank := { Bank.zero with g := [(2, 7), (3, 0xFFFFFFFFFFFFFFFB)] } })] })] }, by decide⟩

theorem test_meets_CoreArithmetic_24 : ∃ (c : Fin 4) (rd ra : Fin 32) (imm : BitVec 14) (d : Dev), (d.ready c (fmtI 0x09 rd ra imm) = true) :=
  ⟨1, 5, 3, 0x3FFE, { setRegs [(PC_DOMUP0 + 12, 0x2), (CP_STAT 1, 1), (CP_CFG 1, 0)] Dev.reset with now := 100, mem := [(0x20081000, 254), (0x20081001, 255), (0x20081002, 40), (0x20081003, 9)], cores := [(1, { CoreSt.reset with pc := 0x20081000, slots := [(0, { BankSlot.reset with bank := { Bank.zero with g := [(2, 7), (3, 0xFFFFFFFFFFFFFFFB)] } })] })] }, by decide⟩

theorem test_meets_CoreArithmetic_25 : ∃ (c : Fin 4) (rd ra rb : Fin 32) (d : Dev), (d.ready c (fmtR 0x060 rd ra rb) = true) ∧ ((d.afterFetch c).creg c rb ≠ 0) ∧ (¬ (((d.afterFetch c).creg c ra).toInt = -2 ^ 63 ∧ ((d.afterFetch c).creg c rb).toInt = -1)) :=
  ⟨1, 5, 3, 2, { setRegs [(PC_DOMUP0 + 12, 0x2), (CP_STAT 1, 1), (CP_CFG 1, 0)] Dev.reset with now := 100, mem := [(0x20081000, 96), (0x20081001, 196), (0x20081002, 40)], cores := [(1, { CoreSt.reset with pc := 0x20081000, slots := [(0, { BankSlot.reset with bank := { Bank.zero with g := [(1, 0xFFFFFFFFFFFFFFFF), (2, 100), (3, 0xFFFFFFFFFFFFFFF9)] } })] })] }, by decide⟩

theorem test_meets_CoreArithmetic_26 : ∃ (c : Fin 4) (rd ra rb : Fin 32) (d : Dev), (d.ready c (fmtR 0x061 rd ra rb) = true) ∧ ((d.afterFetch c).creg c rb ≠ 0) :=
  ⟨1, 5, 3, 2, { setRegs [(PC_DOMUP0 + 12, 0x2), (CP_STAT 1, 1), (CP_CFG 1, 0)] Dev.reset with now := 100, mem := [(0x20081000, 97), (0x20081001, 196), (0x20081002, 40)], cores := [(1, { CoreSt.reset with pc := 0x20081000, slots := [(0, { BankSlot.reset with bank := { Bank.zero with g := [(1, 0xFFFFFFFFFFFFFFFF), (2, 100), (3, 0xFFFFFFFFFFFFFFF9)] } })] })] }, by decide⟩

theorem test_meets_CoreArithmetic_27 : ∃ (c : Fin 4) (rd ra rb : Fin 32) (d : Dev), (d.ready c (fmtR 0x062 rd ra rb) = true) ∧ ((d.afterFetch c).creg c rb ≠ 0) :=
  ⟨1, 5, 3, 2, { setRegs [(PC_DOMUP0 + 12, 0x2), (CP_STAT 1, 1), (CP_CFG 1, 0)] Dev.reset with now := 100, mem := [(0x20081000, 98), (0x20081001, 196), (0x20081002, 40)], cores := [(1, { CoreSt.reset with pc := 0x20081000, slots := [(0, { BankSlot.reset with bank := { Bank.zero with g := [(1, 0xFFFFFFFFFFFFFFFF), (2, 100), (3, 0xFFFFFFFFFFFFFFF9)] } })] })] }, by decide⟩

theorem test_meets_CoreArithmetic_28 : ∃ (c : Fin 4) (rd ra rb : Fin 32) (d : Dev), (d.ready c (fmtR 0x063 rd ra rb) = true) ∧ ((d.afterFetch c).creg c rb ≠ 0) :=
  ⟨1, 5, 3, 2, { setRegs [(PC_DOMUP0 + 12, 0x2), (CP_STAT 1, 1), (CP_CFG 1, 0)] Dev.reset with now := 100, mem := [(0x20081000, 99), (0x20081001, 196), (0x20081002, 40)], cores := [(1, { CoreSt.reset with pc := 0x20081000, slots := [(0, { BankSlot.reset with bank := { Bank.zero with g := [(1, 0xFFFFFFFFFFFFFFFF), (2, 100), (3, 0xFFFFFFFFFFFFFFF9)] } })] })] }, by decide⟩

theorem test_meets_CoreArithmetic_29 : ∃ (c : Fin 4) (rd ra rb : Fin 32) (d : Dev), (d.ready c (fmtR 0x061 rd ra rb) = true) ∧ ((d.afterFetch c).creg c rb = 0) ∧ ((d.core c).st.tw = false) ∧ ((d.core c).st.df = false) :=
  ⟨1, 5, 3, 4, { setRegs [(PC_DOMUP0 + 12, 0x2), (CP_STAT 1, 1), (CP_CFG 1, 0)] Dev.reset with now := 100, mem := [(0x20081000, 97), (0x20081001, 200), (0x20081002, 40)], cores := [(1, { CoreSt.reset with pc := 0x20081000, slots := [(0, { BankSlot.reset with bank := { Bank.zero with g := [(1, 0xFFFFFFFFFFFFFFFF), (2, 100), (3, 0xFFFFFFFFFFFFFFF9)] } })] })] }, by decide⟩

theorem test_meets_CoreArithmetic_30 : ∃ (c : Fin 4) (rd : Fin 32) (imm : BitVec 19) (d : Dev), (d.ready c (fmtU 0x34 rd imm) = true) :=
  ⟨1, 5, 0x40001, { setRegs [(PC_DOMUP0 + 12, 0x2), (CP_STAT 1, 1), (CP_CFG 1, 0)] Dev.reset with now := 100, mem := [(0x20081000, 1), (0x20081002, 44), (0x20081003, 52)], cores := [(1, { CoreSt.reset with pc := 0x20081000 })] }, by decide⟩

theorem test_meets_CoreArithmetic_31 : ∃ (c : Fin 4) (rd : Fin 32) (imm : BitVec 19) (d : Dev), (d.ready c (fmtU 0x35 rd imm) = true) :=
  ⟨1, 5, 0x40001, { setRegs [(PC_DOMUP0 + 12, 0x2), (CP_STAT 1, 1), (CP_CFG 1, 0)] Dev.reset with now := 100, mem := [(0x20081000, 1), (0x20081002, 44), (0x20081003, 53)], cores := [(1, { CoreSt.reset with pc := 0x20081000 })] }, by decide⟩

theorem test_meets_CoreArithmetic_32 : ∃ (c : Fin 4) (rd ra rb : Fin 32) (d : Dev), (d.coreLive c = false ∨ d.switchDue c = true) :=
  ⟨1, 5, 3, 2, Dev.reset, by decide⟩

theorem test_meets_CoreArithmetic_33 : ∃ (c : Fin 4) (rd ra rb : Fin 32) (w : BitVec 32) (d : Dev), (d.ready c w = true) ∧ (w ≠ fmtR 0x010 rd ra rb) :=
  ⟨1, 5, 3, 2, fmtR 0x011 5 3 2, { setRegs [(PC_DOMUP0 + 12, 0x2), (CP_STAT 1, 1), (CP_CFG 1, 0)] Dev.reset with now := 100, mem := [(0x20081000, 17), (0x20081001, 196), (0x20081002, 40)], cores := [(1, { CoreSt.reset with pc := 0x20081000 })] }, by decide⟩

theorem test_meets_CoreArithmetic_34 : ∃ (c : Fin 4) (rd ra rb : Fin 32) (v : BitVec 32) (d : Dev), (d.coreFree c = true) ∧ ((d.atFetch c).1.toOption = some v) ∧ (coreWord v = none) ∧ ((d.core c).st.tw = false) ∧ ((d.core c).st.df = false) :=
  ⟨1, 5, 3, 2, 0x00000015, { setRegs [(PC_DOMUP0 + 12, 0x2), (CP_STAT 1, 1), (CP_CFG 1, 0)] Dev.reset with now := 100, mem := [(0x20081000, 21)], cores := [(1, { CoreSt.reset with pc := 0x20081000 })] }, by decide⟩

theorem test_meets_CoreArithmetic_35 : ∃ (c : Fin 4) (rd ra rb : Fin 32) (code acc va : Nat) (d : Dev), (d.coreFree c = true) ∧ ((match (d.atFetch c).1 with | .error x => decide (x = { code := code, acc := acc, lvl := 0, kind := 0, info := 0, fva := some va }) | .ok _ => false) = true) ∧ ((d.core c).st.tw = false) ∧ ((d.core c).st.df = false) :=
  ⟨1, 5, 3, 2, 9, 0, 0x20081002, { setRegs [(PC_DOMUP0 + 12, 0x2), (CP_STAT 1, 1), (CP_CFG 1, 0)] Dev.reset with now := 100, mem := [], cores := [(1, { CoreSt.reset with pc := 0x20081002 })] }, by decide⟩

theorem test_meets_CoreLoadsAndStores_1 : ∃ (c : Fin 4) (rd ra : Fin 32) (imm : BitVec 14) (v : Nat) (d : Dev), (d.ready c (fmtI 0x10 rd ra imm) = true) ∧ (((d.afterFetch c).coreLoad c ((d.afterFetch c).creg c ra + imm.signExtend 64).toNat 8).1.toOption = some v) ∧ (((d.afterFetch c).coreLoad c ((d.afterFetch c).creg c ra + imm.signExtend 64).toNat 8).2.net.stall = false) :=
  ⟨1, 5, 3, 8, 0x88FFFFFFFFFFFFFF, { setRegs [(PC_DOMUP0 + 12, 0x2), (CP_STAT 1, 1), (CP_CFG 1, 0)] Dev.reset with now := 100, mem := [(0x20081000, 8), (0x20081001, 192), (0x20081002, 40), (0x20081003, 16), (0x20082008, 255), (0x20082009, 255), (0x2008200a, 255), (0x2008200b, 255), (0x2008200c, 255), (0x2008200d, 255), (0x2008200e, 255), (0x2008200f, 136)], cores := [(1, { CoreSt.reset with pc := 0x20081000, slots := [(0, { BankSlot.reset with bank := { Bank.zero with g := [(3, 0x20082000)] } })] })] }, by decide⟩

theorem test_meets_CoreLoadsAndStores_2 : ∃ (c : Fin 4) (rd ra : Fin 32) (imm : BitVec 14) (v : Nat) (d : Dev), (d.ready c (fmtI 0x12 rd ra imm) = true) ∧ (((d.afterFetch c).coreLoad c ((d.afterFetch c).creg c ra + imm.signExtend 64).toNat 4).1.toOption = some v) ∧ (((d.afterFetch c).coreLoad c ((d.afterFetch c).creg c ra + imm.signExtend 64).toNat 4).2.net.stall = false) :=
  ⟨1, 5, 3, 8, 0x88FFFFFF, { setRegs [(PC_DOMUP0 + 12, 0x2), (CP_STAT 1, 1), (CP_CFG 1, 0)] Dev.reset with now := 100, mem := [(0x20081000, 8), (0x20081001, 192), (0x20081002, 40), (0x20081003, 18), (0x20082008, 255), (0x20082009, 255), (0x2008200a, 255), (0x2008200b, 136)], cores := [(1, { CoreSt.reset with pc := 0x20081000, slots := [(0, { BankSlot.reset with bank := { Bank.zero with g := [(3, 0x20082000)] } })] })] }, by decide⟩

theorem test_meets_CoreLoadsAndStores_3 : ∃ (c : Fin 4) (rd ra : Fin 32) (imm : BitVec 14) (v : Nat) (d : Dev), (d.ready c (fmtI 0x11 rd ra imm) = true) ∧ (((d.afterFetch c).coreLoad c ((d.afterFetch c).creg c ra + imm.signExtend 64).toNat 4).1.toOption = some v) ∧ (((d.afterFetch c).coreLoad c ((d.afterFetch c).creg c ra + imm.signExtend 64).toNat 4).2.net.stall = false) :=
  ⟨1, 5, 3, 8, 0x88FFFFFF, { setRegs [(PC_DOMUP0 + 12, 0x2), (CP_STAT 1, 1), (CP_CFG 1, 0)] Dev.reset with now := 100, mem := [(0x20081000, 8), (0x20081001, 192), (0x20081002, 40), (0x20081003, 17), (0x20082008, 255), (0x20082009, 255), (0x2008200a, 255), (0x2008200b, 136)], cores := [(1, { CoreSt.reset with pc := 0x20081000, slots := [(0, { BankSlot.reset with bank := { Bank.zero with g := [(3, 0x20082000)] } })] })] }, by decide⟩

theorem test_meets_CoreLoadsAndStores_4 : ∃ (c : Fin 4) (rd ra : Fin 32) (imm : BitVec 14) (v : Nat) (d : Dev), (d.ready c (fmtI 0x14 rd ra imm) = true) ∧ (((d.afterFetch c).coreLoad c ((d.afterFetch c).creg c ra + imm.signExtend 64).toNat 2).1.toOption = some v) ∧ (((d.afterFetch c).coreLoad c ((d.afterFetch c).creg c ra + imm.signExtend 64).toNat 2).2.net.stall = false) :=
  ⟨1, 5, 3, 8, 0x88FF, { setRegs [(PC_DOMUP0 + 12, 0x2), (CP_STAT 1, 1), (CP_CFG 1, 0)] Dev.reset with now := 100, mem := [(0x20081000, 8), (0x20081001, 192), (0x20081002, 40), (0x20081003, 20), (0x20082008, 255), (0x20082009, 136)], cores := [(1, { CoreSt.reset with pc := 0x20081000, slots := [(0, { BankSlot.reset with bank := { Bank.zero with g := [(3, 0x20082000)] } })] })] }, by decide⟩

theorem test_meets_CoreLoadsAndStores_5 : ∃ (c : Fin 4) (rd ra : Fin 32) (imm : BitVec 14) (v : Nat) (d : Dev), (d.ready c (fmtI 0x13 rd ra imm) = true) ∧ (((d.afterFetch c).coreLoad c ((d.afterFetch c).creg c ra + imm.signExtend 64).toNat 2).1.toOption = some v) ∧ (((d.afterFetch c).coreLoad c ((d.afterFetch c).creg c ra + imm.signExtend 64).toNat 2).2.net.stall = false) :=
  ⟨1, 5, 3, 8, 0x88FF, { setRegs [(PC_DOMUP0 + 12, 0x2), (CP_STAT 1, 1), (CP_CFG 1, 0)] Dev.reset with now := 100, mem := [(0x20081000, 8), (0x20081001, 192), (0x20081002, 40), (0x20081003, 19), (0x20082008, 255), (0x20082009, 136)], cores := [(1, { CoreSt.reset with pc := 0x20081000, slots := [(0, { BankSlot.reset with bank := { Bank.zero with g := [(3, 0x20082000)] } })] })] }, by decide⟩

theorem test_meets_CoreLoadsAndStores_6 : ∃ (c : Fin 4) (rd ra : Fin 32) (imm : BitVec 14) (v : Nat) (d : Dev), (d.ready c (fmtI 0x16 rd ra imm) = true) ∧ (((d.afterFetch c).coreLoad c ((d.afterFetch c).creg c ra + imm.signExtend 64).toNat 1).1.toOption = some v) ∧ (((d.afterFetch c).coreLoad c ((d.afterFetch c).creg c ra + imm.signExtend 64).toNat 1).2.net.stall = false) :=
  ⟨1, 5, 3, 8, 0x88, { setRegs [(PC_DOMUP0 + 12, 0x2), (CP_STAT 1, 1), (CP_CFG 1, 0)] Dev.reset with now := 100, mem := [(0x20081000, 8), (0x20081001, 192), (0x20081002, 40), (0x20081003, 22), (0x20082008, 136)], cores := [(1, { CoreSt.reset with pc := 0x20081000, slots := [(0, { BankSlot.reset with bank := { Bank.zero with g := [(3, 0x20082000)] } })] })] }, by decide⟩

theorem test_meets_CoreLoadsAndStores_7 : ∃ (c : Fin 4) (rd ra : Fin 32) (imm : BitVec 14) (v : Nat) (d : Dev), (d.ready c (fmtI 0x15 rd ra imm) = true) ∧ (((d.afterFetch c).coreLoad c ((d.afterFetch c).creg c ra + imm.signExtend 64).toNat 1).1.toOption = some v) ∧ (((d.afterFetch c).coreLoad c ((d.afterFetch c).creg c ra + imm.signExtend 64).toNat 1).2.net.stall = false) :=
  ⟨1, 5, 3, 8, 0x88, { setRegs [(PC_DOMUP0 + 12, 0x2), (CP_STAT 1, 1), (CP_CFG 1, 0)] Dev.reset with now := 100, mem := [(0x20081000, 8), (0x20081001, 192), (0x20081002, 40), (0x20081003, 21), (0x20082008, 136)], cores := [(1, { CoreSt.reset with pc := 0x20081000, slots := [(0, { BankSlot.reset with bank := { Bank.zero with g := [(3, 0x20082000)] } })] })] }, by decide⟩

theorem test_meets_CoreLoadsAndStores_8 : ∃ (c : Fin 4) (rd ra : Fin 32) (imm : BitVec 14) (d : Dev), (d.ready c (fmtI 0x18 rd ra imm) = true) ∧ (((d.afterFetch c).coreStore c ((d.afterFetch c).creg c ra + imm.signExtend 64).toNat 8 (((d.afterFetch c).creg c rd).toNat % 2 ^ 64)).1 = none) ∧ (((d.afterFetch c).coreStore c ((d.afterFetch c).creg c ra + imm.signExtend 64).toNat 8 (((d.afterFetch c).creg c rd).toNat % 2 ^ 64)).2.net.stall = false) :=
  ⟨1, 2, 3, 8, { setRegs [(PC_DOMUP0 + 12, 0x2), (CP_STAT 1, 1), (CP_CFG 1, 0)] Dev.reset with now := 100, mem := [(0x20081000, 8), (0x20081001, 192), (0x20081002, 16), (0x20081003, 24)], cores := [(1, { CoreSt.reset with pc := 0x20081000, slots := [(0, { BankSlot.reset with bank := { Bank.zero with g := [(2, 0x1122334455667788), (3, 0x20082000)] } })] })] }, by decide +kernel⟩

theorem test_meets_CoreLoadsAndStores_9 : ∃ (c : Fin 4) (rd ra : Fin 32) (imm : BitVec 14) (d : Dev), (d.ready c (fmtI 0x19 rd ra imm) = true) ∧ (((d.afterFetch c).coreStore c ((d.afterFetch c).creg c ra + imm.signExtend 64).toNat 4 (((d.afterFetch c).creg c rd).toNat % 2 ^ 32)).1 = none) ∧ (((d.afterFetch c).coreStore c ((d.afterFetch c).creg c ra + imm.signExtend 64).toNat 4 (((d.afterFetch c).creg c rd).toNat % 2 ^ 32)).2.net.stall = false) :=
  ⟨1, 2, 3, 8, { setRegs [(PC_DOMUP0 + 12, 0x2), (CP_STAT 1, 1), (CP_CFG 1, 0)] Dev.reset with now := 100, mem := [(0x20081000, 8), (0x20081001, 192), (0x20081002, 16), (0x20081003, 25)], cores := [(1, { CoreSt.reset with pc := 0x20081000, slots := [(0, { BankSlot.reset with bank := { Bank.zero with g := [(2, 0x1122334455667788), (3, 0x20082000)] } })] })] }, by decide +kernel⟩

theorem test_meets_CoreLoadsAndStores_10 : ∃ (c : Fin 4) (rd ra : Fin 32) (imm : BitVec 14) (d : Dev), (d.ready c (fmtI 0x1A rd ra imm) = true) ∧ (((d.afterFetch c).coreStore c ((d.afterFetch c).creg c ra + imm.signExtend 64).toNat 2 (((d.afterFetch c).creg c rd).toNat % 2 ^ 16)).1 = none) ∧ (((d.afterFetch c).coreStore c ((d.afterFetch c).creg c ra + imm.signExtend 64).toNat 2 (((d.afterFetch c).creg c rd).toNat % 2 ^ 16)).2.net.stall = false) :=
  ⟨1, 2, 3, 8, { setRegs [(PC_DOMUP0 + 12, 0x2), (CP_STAT 1, 1), (CP_CFG 1, 0)] Dev.reset with now := 100, mem := [(0x20081000, 8), (0x20081001, 192), (0x20081002, 16), (0x20081003, 26)], cores := [(1, { CoreSt.reset with pc := 0x20081000, slots := [(0, { BankSlot.reset with bank := { Bank.zero with g := [(2, 0x1122334455667788), (3, 0x20082000)] } })] })] }, by decide +kernel⟩

theorem test_meets_CoreLoadsAndStores_11 : ∃ (c : Fin 4) (rd ra : Fin 32) (imm : BitVec 14) (d : Dev), (d.ready c (fmtI 0x1B rd ra imm) = true) ∧ (((d.afterFetch c).coreStore c ((d.afterFetch c).creg c ra + imm.signExtend 64).toNat 1 (((d.afterFetch c).creg c rd).toNat % 2 ^ 8)).1 = none) ∧ (((d.afterFetch c).coreStore c ((d.afterFetch c).creg c ra + imm.signExtend 64).toNat 1 (((d.afterFetch c).creg c rd).toNat % 2 ^ 8)).2.net.stall = false) :=
  ⟨1, 2, 3, 8, { setRegs [(PC_DOMUP0 + 12, 0x2), (CP_STAT 1, 1), (CP_CFG 1, 0)] Dev.reset with now := 100, mem := [(0x20081000, 8), (0x20081001, 192), (0x20081002, 16), (0x20081003, 27)], cores := [(1, { CoreSt.reset with pc := 0x20081000, slots := [(0, { BankSlot.reset with bank := { Bank.zero with g := [(2, 0x1122334455667788), (3, 0x20082000)] } })] })] }, by decide +kernel⟩

theorem test_meets_CoreLoadsAndStores_12 : ∃ (c : Fin 4) (va n : Nat) (d : Dev), (d.plainCore c = true) ∧ (n = 1 ∨ n = 2 ∨ n = 4 ∨ n = 8) ∧ (va % n = 0) ∧ (va + n ≤ 0x800000) :=
  ⟨1, 0x2008, 8, { setRegs [(PC_DOMUP0 + 12, 0x2), (CP_STAT 1, 1), (CP_CFG 1, 0)] Dev.reset with now := 100, mem := [(0x2009, 3)], cores := [(1, { CoreSt.reset with pc := 0x20081000 })] }, by decide⟩

theorem test_meets_CoreLoadsAndStores_13 : ∃ (c : Fin 4) (va n v : Nat) (d : Dev), (d.plainCore c = true) ∧ (n = 1 ∨ n = 2 ∨ n = 4 ∨ n = 8) ∧ (va % n = 0) ∧ (va + n ≤ 0x800000) ∧ (v < 2 ^ (8 * n)) :=
  ⟨1, 0x2008, 8, 0x1122334455667788, { setRegs [(PC_DOMUP0 + 12, 0x2), (CP_STAT 1, 1), (CP_CFG 1, 0)] Dev.reset with now := 100, mem := [(0x2009, 3)], cores := [(1, { CoreSt.reset with pc := 0x20081000 })] }, by decide⟩

theorem test_meets_CoreLoadsAndStores_14 : ∃ (c : Fin 4) (rd ra : Fin 32) (imm : BitVec 14) (d : Dev), (d.ready c (fmtI 0x10 rd ra imm) = true) ∧ ((d.core c).st.tw = false) ∧ ((d.core c).st.df = false) ∧ (((d.afterFetch c).creg c ra + imm.signExtend 64).toNat < 2 ^ 40) ∧ (((d.afterFetch c).creg c ra + imm.signExtend 64).toNat % 8 ≠ 0) :=
  ⟨1, 5, 3, 9, { setRegs [(PC_DOMUP0 + 12, 0x2), (CP_STAT 1, 1), (CP_CFG 1, 0)] Dev.reset with now := 100, mem := [(0x20081000, 9), (0x20081001, 192), (0x20081002, 40), (0x20081003, 16)], cores := [(1, { CoreSt.reset with pc := 0x20081000, slots := [(0, { BankSlot.reset with bank := { Bank.zero with g := [(3, 0x2000)] } })] })] }, by decide⟩

theorem test_meets_CoreLoadsAndStores_15 : ∃ (c : Fin 4) (rd ra : Fin 32) (imm : BitVec 14) (d : Dev), (d.ready c (fmtI 0x19 rd ra imm) = true) ∧ ((d.core c).st.tw = false) ∧ ((d.core c).st.df = false) ∧ (((d.afterFetch c).creg c ra + imm.signExtend 64).toNat < 2 ^ 40) ∧ (((d.afterFetch c).creg c ra + imm.signExtend 64).toNat % 4 ≠ 0) :=
  ⟨1, 5, 3, 9, { setRegs [(PC_DOMUP0 + 12, 0x2), (CP_STAT 1, 1), (CP_CFG 1, 0)] Dev.reset with now := 100, mem := [(0x20081000, 9), (0x20081001, 192), (0x20081002, 40), (0x20081003, 25)], cores := [(1, { CoreSt.reset with pc := 0x20081000, slots := [(0, { BankSlot.reset with bank := { Bank.zero with g := [(3, 0x2000)] } })] })] }, by decide⟩

theorem test_meets_CoreLoadsAndStores_16 : ∃ (c : Fin 4) (rd ra : Fin 32) (imm : BitVec 14) (d : Dev), (d.ready c (fmtI 0x16 rd ra imm) = true) ∧ ((d.core c).st.tw = false) ∧ ((d.core c).st.df = false) ∧ (2 ^ 40 ≤ ((d.afterFetch c).creg c ra + imm.signExtend 64).toNat) :=
  ⟨1, 5, 0, 0x3FFF, { setRegs [(PC_DOMUP0 + 12, 0x2), (CP_STAT 1, 1), (CP_CFG 1, 0)] Dev.reset with now := 100, mem := [(0x20081000, 255), (0x20081001, 63), (0x20081002, 40), (0x20081003, 22)], cores := [(1, { CoreSt.reset with pc := 0x20081000, slots := [(0, { BankSlot.reset with bank := { Bank.zero with g := [(3, 0x2000)] } })] })] }, by decide⟩

theorem test_meets_CoreLoadsAndStores_17 : ∃ (c : Fin 4) (rd ra : Fin 32) (imm : BitVec 14) (d : Dev), (d.ready c (fmtI 0x30 rd ra imm) = true) ∧ ((d.afterFetch c).plainCore c = true) ∧ (((d.afterFetch c).creg c ra + imm.signExtend 64).toNat + 8 ≤ 0x800000) ∧ (((d.afterFetch c).creg c ra + imm.signExtend 64).toNat % 8 = 0) :=
  ⟨1, 2, 3, 8, { setRegs [(PC_DOMUP0 + 12, 0x2), (CP_STAT 1, 1), (CP_CFG 1, 0)] Dev.reset with now := 100, mem := [(0x2009, 3), (0x20081000, 8), (0x20081001, 192), (0x20081002, 16), (0x20081003, 48)], cores := [(1, { CoreSt.reset with pc := 0x20081000, slots := [(0, { BankSlot.reset with bank := { Bank.zero with g := [(2, 0x1122334455667788), (3, 0x2000)] } })] })] }, by decide⟩

theorem test_meets_CoreLoadsAndStores_18 : ∃ (c : Fin 4) (rd ra : Fin 32) (imm : BitVec 14) (d : Dev), (d.ready c (fmtI 0x31 rd ra imm) = true) ∧ ((d.afterFetch c).plainCore c = true) ∧ (((d.afterFetch c).creg c ra + imm.signExtend 64).toNat + 8 ≤ 0x800000) ∧ (((d.afterFetch c).creg c ra + imm.signExtend 64).toNat % 8 = 0) :=
  ⟨1, 2, 3, 8, { setRegs [(PC_DOMUP0 + 12, 0x2), (CP_STAT 1, 1), (CP_CFG 1, 0)] Dev.reset with now := 100, mem := [(0x2009, 3), (0x20081000, 8), (0x20081001, 192), (0x20081002, 16), (0x20081003, 49)], cores := [(1, { CoreSt.reset with pc := 0x20081000, slots := [(0, { BankSlot.reset with bank := { Bank.zero with g := [(2, 0x1122334455667788), (3, 0x2000)] } })] })] }, by decide⟩

theorem test_meets_CoreLoadsAndStores_19 : ∃ (c : Fin 4) (rd ra : Fin 32) (imm : BitVec 14) (d : Dev), (d.ready c (fmtI 0x1E rd ra imm) = true) ∧ ((d.core c).st.priv = true) ∧ (((d.afterFetch c).creg c ra + imm.signExtend 64).toNat + 8 ≤ 0x800000) ∧ (((d.afterFetch c).creg c ra + imm.signExtend 64).toNat % 8 = 0) ∧ ((d.afterFetch c).integ.ecc = []) ∧ ((d.afterFetch c).routeWait (24 + c) = none) :=
  ⟨1, 2, 3, 8, { setRegs [(PC_DOMUP0 + 12, 0x2), (CP_STAT 1, 1), (CP_CFG 1, 0)] Dev.reset with now := 100, mem := [(0x2009, 3), (0x20081000, 8), (0x20081001, 192), (0x20081002, 16), (0x20081003, 30)], cores := [(1, { CoreSt.reset with pc := 0x20081000, slots := [(0, { BankSlot.reset with bank := { Bank.zero with g := [(2, 0x1122334455667788), (3, 0x2000)] } })] })] }, by decide⟩

theorem test_meets_CoreLoadsAndStores_20 : ∃ (c : Fin 4) (rd ra : Fin 32) (imm : BitVec 14) (d : Dev), (d.ready c (fmtI 0x1F rd ra imm) = true) ∧ ((d.core c).st.priv = true) ∧ (((d.afterFetch c).creg c ra + imm.signExtend 64).toNat + 8 ≤ 0x800000) ∧ (((d.afterFetch c).creg c ra + imm.signExtend 64).toNat % 8 = 0) ∧ ((d.afterFetch c).integ.ecc = []) ∧ ((d.afterFetch c).routeWait (24 + c) = none) :=
  ⟨1, 2, 3, 8, { setRegs [(PC_DOMUP0 + 12, 0x2), (CP_STAT 1, 1), (CP_CFG 1, 0)] Dev.reset with now := 100, mem := [(0x2009, 3), (0x20081000, 8), (0x20081001, 192), (0x20081002, 16), (0x20081003, 31)], cores := [(1, { CoreSt.reset with pc := 0x20081000, slots := [(0, { BankSlot.reset with bank := { Bank.zero with g := [(2, 0x1122334455667788), (3, 0x2000)] } })] })] }, by decide⟩

theorem test_meets_CoreLoadsAndStores_21 : ∃ (c : Fin 4) (rd ra : Fin 32) (imm : BitVec 14) (d : Dev), (d.ready c (fmtI 0x1E rd ra imm) = true) ∧ ((d.core c).st.tw = false) ∧ ((d.core c).st.df = false) ∧ ((d.core c).st.priv = false) :=
  ⟨1, 2, 3, 8, { setRegs [(PC_DOMUP0 + 12, 0x2), (CP_STAT 1, 1), (CP_CFG 1, 0)] Dev.reset with now := 100, mem := [(0x20081000, 8), (0x20081001, 192), (0x20081002, 16), (0x20081003, 30)], cores := [(1, { CoreSt.reset with pc := 0x20081000, st := { CStat.start with priv := false } })] }, by decide⟩

theorem test_meets_CoreLoadsAndStores_22 : ∃ (c : Fin 4) (rd ra : Fin 32) (imm : BitVec 14) (d : Dev), (d.ready c (fmtI 0x1F rd ra imm) = true) ∧ ((d.core c).st.tw = false) ∧ ((d.core c).st.df = false) ∧ ((d.core c).st.priv = false) :=
  ⟨1, 2, 3, 8, { setRegs [(PC_DOMUP0 + 12, 0x2), (CP_STAT 1, 1), (CP_CFG 1, 0)] Dev.reset with now := 100, mem := [(0x20081000, 8), (0x20081001, 192), (0x20081002, 16), (0x20081003, 31)], cores := [(1, { CoreSt.reset with pc := 0x20081000, st := { CStat.start with priv := false } })] }, by decide⟩

theorem test_meets_CoreLoadsAndStores_23 : ∃ (c : Fin 4) (rm ra : Fin 32) (imm : BitVec 14) (m : MProg) (i b : Nat) (d : Dev), (d.ready c (fmtI 0x1C rm ra imm) = true) ∧ ((d.afterFetch c).plainCore c = true) ∧ ((d.afterFetch c).progOf c (BitVec.ofNat 32 ((d.afterFetch c).creg c rm).toNat) ((d.afterFetch c).creg c ra + imm.signExtend 64) = m) ∧ (m.at i = true) ∧ (m.addr i = b) ∧ (m.base.toNat % 8 = 0) ∧ (b + 8 ≤ 0x800000) :=
  ⟨1, 2, 3, 8, { mask := 0x41000E02, done := 0, base := 0x2008 }, 1, 0x2008, { setRegs [(PC_DOMUP0 + 12, 0x2), (CP_STAT 1, 1), (CP_CFG 1, 0)] Dev.reset with now := 100, mem := [(0x2009, 3), (0x2010, 5), (0x2020, 7), (0x20081000, 8), (0x20081001, 192), (0x20081002, 16), (0x20081003, 28)], cores := [(1, { CoreSt.reset with pc := 0x20081000, slots := [(0, { BankSlot.reset with bank := { Bank.zero with g := [(2, 0x41000E02), (3, 0x2000)] } })] })] }, by decide⟩

theorem test_meets_CoreLoadsAndStores_24 : ∃ (c : Fin 4) (rm ra : Fin 32) (imm : BitVec 14) (m : MProg) (i b : Nat) (d : Dev), (d.ready c (fmtI 0x1D rm ra imm) = true) ∧ ((d.afterFetch c).plainCore c = true) ∧ ((d.afterFetch c).progOf c (BitVec.ofNat 32 ((d.afterFetch c).creg c rm).toNat) ((d.afterFetch c).creg c ra + imm.signExtend 64) = m) ∧ (m.at i = true) ∧ (m.addr i = b) ∧ (m.base.toNat % 8 = 0) ∧ (b + 8 ≤ 0x800000) :=
  ⟨1, 2, 3, 8, { mask := 0x41000E02, done := 2, base := 0x2008 }, 9, 0x2010, { setRegs [(PC_DOMUP0 + 12, 0x2), (CP_STAT 1, 1), (CP_CFG 1, 0)] Dev.reset with now := 100, mem := [(0x2009, 3), (0x2010, 5), (0x2020, 7), (0x20081000, 8), (0x20081001, 192), (0x20081002, 16), (0x20081003, 29)], cores := [(1, { CoreSt.reset with pc := 0x20081000, slots := [(0, { BankSlot.reset with bank := { Bank.zero with mp := { mask := 0x41000E02, done := 2, base := 0x2008 }, g := [(2, 0x41000E02), (3, 0x2000)] } })], st := { CStat.start with mip := true } })] }, by decide⟩

theorem test_meets_CoreLoadsAndStores_25 : ∃ (c : Fin 4) (rm ra : Fin 32) (imm : BitVec 14) (d : Dev), (d.ready c (fmtI 0x1C rm ra imm) = true) ∧ ((d.core c).st.mip = false) ∧ (BitVec.ofNat 32 ((d.afterFetch c).creg c rm).toNat = 0) ∧ (((d.afterFetch c).creg c ra + imm.signExtend 64).toNat % 8 = 0) :=
  ⟨1, 2, 3, 8, { setRegs [(PC_DOMUP0 + 12, 0x2), (CP_STAT 1, 1), (CP_CFG 1, 0)] Dev.reset with now := 100, mem := [(0x2009, 3), (0x2010, 5), (0x2020, 7), (0x20081000, 8), (0x20081001, 192), (0x20081002, 16), (0x20081003, 28)], cores := [(1, { CoreSt.reset with pc := 0x20081000, slots := [(0, { BankSlot.reset with bank := { Bank.zero with g := [(2, 0x4100000000), (3, 0x2000)] } })] })] }, by decide⟩

theorem test_meets_CoreControlFlow_1 : ∃ (c : Fin 4) (ra rb : Fin 32) (off : BitVec 14) (d : Dev), (d.ready c (fmtI 0x20 ra rb off) = true) :=
  ⟨1, 3, 2, 0x3FFE, { setRegs [(PC_DOMUP0 + 12, 0x2), (CP_STAT 1, 1), (CP_CFG 1, 0)] Dev.reset with now := 100, mem := [(0x20081000, 254), (0x20081001, 191), (0x20081002, 24), (0x20081003, 32)], cores := [(1, { CoreSt.reset with pc := 0x20081000, slots := [(0, { BankSlot.reset with bank := { Bank.zero with g := [(2, 7), (3, 0xFFFFFFFFFFFFFFFB)] } })] })] }, by decide⟩

theorem test_meets_CoreControlFlow_2 : ∃ (c : Fin 4) (ra rb : Fin 32) (off : BitVec 14) (d : Dev), (d.ready c (fmtI 0x21 ra rb off) = true) :=
  ⟨1, 3, 2, 0x3FFE, { setRegs [(PC_DOMUP0 + 12, 0x2), (CP_STAT 1, 1), (CP_CFG 1, 0)] Dev.reset with now := 100, mem := [(0x20081000, 254), (0x20081001, 191), (0x20081002, 24), (0x20081003, 33)], cores := [(1, { CoreSt.reset with pc := 0x20081000, slots := [(0, { BankSlot.reset with bank := { Bank.zero with g := [(2, 7), (3, 0xFFFFFFFFFFFFFFFB)] } })] })] }, by decide⟩

theorem test_meets_CoreControlFlow_3 : ∃ (c : Fin 4) (ra rb : Fin 32) (off : BitVec 14) (d : Dev), (d.ready c (fmtI 0x22 ra rb off) = true) :=
  ⟨1, 3, 2, 0x3FFE, { setRegs [(PC_DOMUP0 + 12, 0x2), (CP_STAT 1, 1), (CP_CFG 1, 0)] Dev.reset with now := 100, mem := [(0x20081000, 254), (0x20081001, 191), (0x20081002, 24), (0x20081003, 34)], cores := [(1, { CoreSt.reset with pc := 0x20081000, slots := [(0, { BankSlot.reset with bank := { Bank.zero with g := [(2, 7), (3, 0xFFFFFFFFFFFFFFFB)] } })] })] }, by decide⟩

theorem test_meets_CoreControlFlow_4 : ∃ (c : Fin 4) (ra rb : Fin 32) (off : BitVec 14) (d : Dev), (d.ready c (fmtI 0x23 ra rb off) = true) :=
  ⟨1, 3, 2, 0x3FFE, { setRegs [(PC_DOMUP0 + 12, 0x2), (CP_STAT 1, 1), (CP_CFG 1, 0)] Dev.reset with now := 100, mem := [(0x20081000, 254), (0x20081001, 191), (0x20081002, 24), (0x20081003, 35)], cores := [(1, { CoreSt.reset with pc := 0x20081000, slots := [(0, { BankSlot.reset with bank := { Bank.zero with g := [(2, 7), (3, 0xFFFFFFFFFFFFFFFB)] } })] })] }, by decide⟩

theorem test_meets_CoreControlFlow_5 : ∃ (c : Fin 4) (ra rb : Fin 32) (off : BitVec 14) (d : Dev), (d.ready c (fmtI 0x24 ra rb off) = true) :=
  ⟨1, 3, 2, 0x3FFE, { setRegs [(PC_DOMUP0 + 12, 0x2), (CP_STAT 1, 1), (CP_CFG 1, 0)] Dev.reset with now := 100, mem := [(0x20081000, 254), (0x20081001, 191), (0x20081002, 24), (0x20081003, 36)], cores := [(1, { CoreSt.reset with pc := 0x20081000, slots := [(0, { BankSlot.reset with bank := { Bank.zero with g := [(2, 7), (3, 0xFFFFFFFFFFFFFFFB)] } })] })] }, by decide⟩

theorem test_meets_CoreControlFlow_6 : ∃ (c : Fin 4) (ra rb : Fin 32) (off : BitVec 14) (d : Dev), (d.ready c (fmtI 0x25 ra rb off) = true) :=
  ⟨1, 3, 2, 0x3FFE, { setRegs [(PC_DOMUP0 + 12, 0x2), (CP_STAT 1, 1), (CP_CFG 1, 0)] Dev.reset with now := 100, mem := [(0x20081000, 254), (0x20081001, 191), (0x20081002, 24), (0x20081003, 37)], cores := [(1, { CoreSt.reset with pc := 0x20081000, slots := [(0, { BankSlot.reset with bank := { Bank.zero with g := [(2, 7), (3, 0xFFFFFFFFFFFFFFFB)] } })] })] }, by decide⟩

theorem test_meets_CoreControlFlow_7 : ∃ (c : Fin 4) (off : BitVec 24) (d : Dev), (d.ready c (fmtJ 0x28 off) = true) :=
  ⟨1, 0xFFFFFE, { setRegs [(PC_DOMUP0 + 12, 0x2), (CP_STAT 1, 1), (CP_CFG 1, 0)] Dev.reset with now := 100, mem := [(0x20081000, 254), (0x20081001, 255), (0x20081002, 255), (0x20081003, 40)], cores := [(1, { CoreSt.reset with pc := 0x20081000 })] }, by decide⟩

theorem test_meets_CoreControlFlow_8 : ∃ (c : Fin 4) (rd ra : Fin 32) (imm : BitVec 14) (d : Dev), (d.ready c (fmtI 0x2B rd ra imm) = true) :=
  ⟨1, 5, 3, 8, { setRegs [(PC_DOMUP0 + 12, 0x2), (CP_STAT 1, 1), (CP_CFG 1, 0)] Dev.reset with now := 100, mem := [(0x20081000, 8), (0x20081001, 192), (0x20081002, 40), (0x20081003, 43)], cores := [(1, { CoreSt.reset with pc := 0x20081000, slots := [(0, { BankSlot.reset with bank := { Bank.zero with g := [(2, 7), (3, 0xFFFFFFFFFFFFFFFB)] } })] })] }, by decide⟩

theorem test_meets_CoreControlFlow_9 : ∃ (c : Fin 4) (off : BitVec 24) (d : Dev), (d.ready c (fmtJ 0x29 off) = true) ∧ ((d.core c).st.tw = false) ∧ ((d.core c).st.wres ≠ 7) ∧ ((d.core c).st.df = false) :=
  ⟨1, 0x10, { setRegs [(PC_DOMUP0 + 12, 0x2), (CP_STAT 1, 1), (CP_CFG 1, 0)] Dev.reset with now := 100, mem := [(0x20081000, 16), (0x20081003, 41)], cores := [(1, { CoreSt.reset with pc := 0x20081000, slots := [(0, { BankSlot.reset with bank := { Bank.zero with w := [(8, 0x11), (15, 0x22)] } })], st := { CStat.start with wres := 1 } })] }, by decide⟩

theorem test_meets_CoreControlFlow_10 : ∃ (c : Fin 4) (rd ra : Fin 32) (imm : BitVec 14) (d : Dev), (d.ready c (fmtI 0x2A rd ra imm) = true) ∧ ((d.core c).st.tw = false) ∧ ((d.core c).st.wres ≠ 7) ∧ ((d.core c).st.df = false) :=
  ⟨1, 0, 3, 0x10, { setRegs [(PC_DOMUP0 + 12, 0x2), (CP_STAT 1, 1), (CP_CFG 1, 0)] Dev.reset with now := 100, mem := [(0x20081000, 16), (0x20081001, 192), (0x20081003, 42)], cores := [(1, { CoreSt.reset with pc := 0x20081000, slots := [(0, { BankSlot.reset with bank := { Bank.zero with g := [(3, 0x4000)], w := [(8, 0x11), (15, 0x22)] } })], st := { CStat.start with wres := 1 } })] }, by decide⟩

theorem test_meets_CoreControlFlow_11 : ∃ (c : Fin 4) (off : BitVec 24) (d : Dev), (d.ready c (fmtJ 0x29 off) = true) ∧ ((d.core c).st.wres = 7) ∧ ((d.core c).st.tw = false) ∧ ((d.core c).st.df = false) :=
  ⟨1, 0x10, { setRegs [(PC_DOMUP0 + 12, 0x2), (CP_STAT 1, 1), (CP_CFG 1, 0)] Dev.reset with now := 100, mem := [(0x20081000, 16), (0x20081003, 41)], cores := [(1, { CoreSt.reset with pc := 0x20081000, st := { CStat.start with wres := 7 } })] }, by decide⟩

theorem test_meets_CoreControlFlow_12 : ∃ (c : Fin 4) (d : Dev), (d.ready c (fmtJ 0x2C 0) = true) ∧ ((d.core c).st.tw = false) ∧ ((d.core c).st.wres ≠ 1) ∧ ((d.core c).st.df = false) :=
  ⟨1, { setRegs [(PC_DOMUP0 + 12, 0x2), (CP_STAT 1, 1), (CP_CFG 1, 0)] Dev.reset with now := 100, mem := [(0x20081003, 44)], cores := [(1, { CoreSt.reset with pc := 0x20081000, slots := [(0, { BankSlot.reset with bank := { Bank.zero with w := [(23, 0x4000)] } })], st := { CStat.start with wres := 2, wcur := 1 } })] }, by decide⟩

theorem test_meets_CoreControlFlow_13 : ∃ (c : Fin 4) (d : Dev), (d.ready c (fmtJ 0x2C 0) = true) ∧ ((d.core c).st.wres = 1) ∧ ((d.core c).st.tw = false) ∧ ((d.core c).st.df = false) :=
  ⟨1, { setRegs [(PC_DOMUP0 + 12, 0x2), (CP_STAT 1, 1), (CP_CFG 1, 0)] Dev.reset with now := 100, mem := [(0x20081003, 44)], cores := [(1, { CoreSt.reset with pc := 0x20081000, st := { CStat.start with wres := 1 } })] }, by decide⟩

theorem test_meets_CoreControlFlow_14 : ∃ (c : Fin 4) (off : BitVec 24) (d : Dev), (d.ready c (fmtJ 0x2C off) = true) ∧ (off ≠ 0) ∧ ((d.core c).st.tw = false) ∧ ((d.core c).st.df = false) :=
  ⟨1, 1, { setRegs [(PC_DOMUP0 + 12, 0x2), (CP_STAT 1, 1), (CP_CFG 1, 0)] Dev.reset with now := 100, mem := [(0x20081000, 1), (0x20081003, 44)], cores := [(1, { CoreSt.reset with pc := 0x20081000, st := { CStat.start with wres := 2 } })] }, by decide⟩

theorem test_meets_CoreControlFlow_15 : ∃ (c : Fin 4) (imm : BitVec 15) (d : Dev), (d.ready c (fmtS 0 0 imm) = true) ∧ ((d.core c).st.tw = false) ∧ ((d.core c).st.df = false) :=
  ⟨1, 0x55, { setRegs [(PC_DOMUP0 + 12, 0x2), (CP_STAT 1, 1), (CP_CFG 1, 0)] Dev.reset with now := 100, mem := [(0x20081000, 85), (0x20081003, 255)], cores := [(1, { CoreSt.reset with pc := 0x20081000, tvec := 0x3000 })] }, by decide⟩

theorem test_meets_CoreControlFlow_16 : ∃ (c : Fin 4) (imm : BitVec 15) (d : Dev), (d.ready c (fmtS 1 0 imm) = true) ∧ ((d.core c).st.tw = false) ∧ ((d.core c).st.df = false) :=
  ⟨1, 0x55, { setRegs [(PC_DOMUP0 + 12, 0x2), (CP_STAT 1, 1), (CP_CFG 1, 0)] Dev.reset with now := 100, mem := [(0x20081000, 85), (0x20081002, 16), (0x20081003, 255)], cores := [(1, { CoreSt.reset with pc := 0x20081000, tvec := 0x3000 })] }, by decide⟩

theorem test_meets_CoreControlFlow_17 : ∃ (c : Fin 4) (imm : BitVec 15) (d : Dev), (d.ready c (fmtS 0 0 imm) = true) ∧ ((d.core c).st.tw = true) ∧ ((d.core c).st.df = false) :=
  ⟨1, 0x55, { setRegs [(PC_DOMUP0 + 12, 0x2), (CP_STAT 1, 1), (CP_CFG 1, 0)] Dev.reset with now := 100, mem := [(0x20081000, 85), (0x20081003, 255)], cores := [(1, { CoreSt.reset with pc := 0x20081000, st := { CStat.start with tw := true } })] }, by decide⟩

theorem test_meets_CoreControlFlow_18 : ∃ (c : Fin 4) (d : Dev), (d.ready c (fmtS 0x2 0 0) = true) ∧ ((d.core c).st.tw = true) ∧ ((d.core c).st.df = false) ∧ ((d.core c).st.priv = true) ∧ ((d.core c).est.tw = false) ∧ ((d.core c).haltReq = false) ∧ ((d.core c).yieldReq = false) :=
  ⟨1, { setRegs [(PC_DOMUP0 + 12, 0x2), (CP_STAT 1, 1), (CP_CFG 1, 0)] Dev.reset with now := 100, mem := [(0x20081002, 32), (0x20081003, 255)], cores := [(1, { CoreSt.reset with pc := 0x20081000, st := { CStat.start with tw := true }, epc := 0x4000 })] }, by decide⟩

theorem test_meets_CoreControlFlow_19 : ∃ (c : Fin 4) (d : Dev), (d.ready c (fmtS 0x2 0 0) = true) ∧ ((d.core c).st.tw = false) ∧ ((d.core c).st.df = false) :=
  ⟨1, { setRegs [(PC_DOMUP0 + 12, 0x2), (CP_STAT 1, 1), (CP_CFG 1, 0)] Dev.reset with now := 100, mem := [(0x20081002, 32), (0x20081003, 255)], cores := [(1, { CoreSt.reset with pc := 0x20081000 })] }, by decide⟩

theorem test_meets_CoreControlFlow_20 : ∃ (c : Fin 4) (d : Dev), (d.ready c (fmtS 0x3 0 0) = true) ∧ ((d.core c).st.df = true) ∧ ((d.core c).st.priv = true) ∧ ((d.core c).dfst.tw = true) :=
  ⟨1, { setRegs [(PC_DOMUP0 + 12, 0x2), (CP_STAT 1, 1), (CP_CFG 1, 0)] Dev.reset with now := 100, mem := [(0x20081002, 48), (0x20081003, 255)], cores := [(1, { CoreSt.reset with pc := 0x20081000, st := { CStat.start with tw := true, df := true }, dfepc := 0x4000, dfst := { CStat.start with tw := true } })] }, by decide⟩

theorem test_meets_CoreControlFlow_21 : ∃ (c : Fin 4) (d : Dev), (d.ready c (fmtS 0x3 0 0) = true) ∧ ((d.core c).st.tw = false) ∧ ((d.core c).st.df = false) :=
  ⟨1, { setRegs [(PC_DOMUP0 + 12, 0x2), (CP_STAT 1, 1), (CP_CFG 1, 0)] Dev.reset with now := 100, mem := [(0x20081002, 48), (0x20081003, 255)], cores := [(1, { CoreSt.reset with pc := 0x20081000 })] }, by decide⟩

theorem test_meets_CoreControlFlow_22 : ∃ (c : Fin 4) (m : MProg) (i b w o : Nat) (d : Dev), (d.ready c (fmtS 0x4 0 0) = true) ∧ ((d.afterFetch c).plainCore c = true) ∧ ((d.core c).st.tw = true) ∧ ((d.core c).st.priv = true) ∧ ((d.core c).est.wres ≠ 1) ∧ ((((d.core c).est.wcur - (d.core c).est.wres) + 1).toNat = o) ∧ ((d.core c).bank.wsp.toNat = w + 128) ∧ (w % 8 = 0) ∧ (w + 128 < 2 ^ 40) ∧ ((d.afterFetch c).progOf c 0x00FFFF00 ((d.core c).bank.wsp - 128) = m) ∧ (m.at i = true) ∧ (8 ≤ i) ∧ (i < 24) ∧ (m.addr i = b) ∧ (b % 8 = 0) ∧ (b + 8 ≤ 0x800000) :=
  ⟨1, { mask := 0x00FFFF00, done := 0, base := 0x2000 }, 8, 0x2000, 0x2000, 7, { setRegs [(PC_DOMUP0 + 12, 0x2), (CP_STAT 1, 1), (CP_CFG 1, 0)] Dev.reset with now := 100, mem := [(0x20081002, 64), (0x20081003, 255)], cores := [(1, { CoreSt.reset with pc := 0x20081000, slots := [(0, { BankSlot.reset with bank := { Bank.zero with wsp := 0x2080, w := [(104, 5), (112, 0x11), (119, 0x22)] } })], st := { CStat.start with tw := true }, est := { CStat.start with wcur := 1, wres := 3 } })] }, by decide⟩

theorem test_meets_CoreControlFlow_23 : ∃ (c : Fin 4) (m : MProg) (i b w o : Nat) (d : Dev), (d.ready c (fmtS 0x5 0 0) = true) ∧ ((d.afterFetch c).plainCore c = true) ∧ ((d.core c).st.tw = true) ∧ ((d.core c).st.priv = true) ∧ ((d.core c).est.wres ≠ 7) ∧ (((d.core c).est.wcur - (d.core c).est.wres).toNat = o) ∧ ((d.core c).bank.wsp.toNat = w) ∧ (w % 8 = 0) ∧ (w + 128 < 2 ^ 40) ∧ ((d.afterFetch c).progOf c 0x00FFFF00 ((d.core c).bank.wsp) = m) ∧ (m.at i = true) ∧ (8 ≤ i) ∧ (i < 24) ∧ (m.addr i = b) ∧ (b % 8 = 0) ∧ (b + 8 ≤ 0x800000) :=
  ⟨1, { mask := 0x00FFFF00, done := 0x007FFF00, base := 0x2000 }, 23, 0x2078, 0x2000, 7, { setRegs [(PC_DOMUP0 + 12, 0x2), (CP_STAT 1, 1), (CP_CFG 1, 0)] Dev.reset with now := 100, mem := [(0x2003, 9), (0x2079, 3), (0x20081002, 80), (0x20081003, 255)], cores := [(1, { CoreSt.reset with pc := 0x20081000, slots := [(0, { BankSlot.reset with bank := { Bank.zero with wsp := 0x2000 } })], tm := { mask := 0x00FFFF00, done := 0x007FFF00, base := 0x2000 }, st := { CStat.start with tw := true, mip := true }, est := { CStat.start with wcur := 2, wres := 3 } })] }, by decide⟩

theorem test_meets_CoreControlFlow_24 : ∃ (c : Fin 4) (d : Dev), (d.ready c (fmtS 0x4 0 0) = true) ∧ ((d.core c).st.tw = false) ∧ ((d.core c).st.df = false) :=
  ⟨1, { setRegs [(PC_DOMUP0 + 12, 0x2), (CP_STAT 1, 1), (CP_CFG 1, 0)] Dev.reset with now := 100, mem := [(0x20081002, 64), (0x20081003, 255)], cores := [(1, { CoreSt.reset with pc := 0x20081000 })] }, by decide⟩

theorem test_meets_CoreControlFlow_25 : ∃ (c : Fin 4) (d : Dev), (d.ready c (fmtS 0x5 0 0) = true) ∧ ((d.core c).st.tw = false) ∧ ((d.core c).st.df = false) :=
  ⟨1, { setRegs [(PC_DOMUP0 + 12, 0x2), (CP_STAT 1, 1), (CP_CFG 1, 0)] Dev.reset with now := 100, mem := [(0x20081002, 80), (0x20081003, 255)], cores := [(1, { CoreSt.reset with pc := 0x20081000 })] }, by decide⟩

theorem test_meets_CoreControlFlow_26 : ∃ (c : Fin 4) (d : Dev), (d.coreLive c = true) ∧ ((d.core c).st.ie = true) ∧ (d.irqBits c ≠ 0) ∧ (d.switchDue c = false) ∧ ((d.core c).st.tw = false) ∧ ((d.core c).st.df = false) :=
  ⟨1, { setRegs [(PC_DOMUP0 + 12, 0x2), (CP_STAT 1, 1), (CP_CFG 1, 0), (CP_IPEND 1, 6), (CP_IMASK 1, 4)] Dev.reset with now := 100, mem := [], cores := [(1, { CoreSt.reset with pc := 0x20081000, st := { CStat.start with ie := true } })] }, by decide⟩

theorem test_meets_CoreControlFlow_27 : ∃ (c : Fin 4) (d : Dev), ((d.core c).st.ie = false ∨ d.irqBits c = 0 ∨ (d.core c).st.tw = true) :=
  ⟨1, Dev.reset, by decide⟩

theorem test_meets_CoreSystem_1 : ∃ (c : Fin 4) (rx : Fin 32) (v : BitVec 64) (d : Dev), (d.ready c (fmtS 7 rx 5) = true) ∧ ((d.core c).st.priv = true) ∧ (d.creg c rx = v) :=
  ⟨1, 3, 0x12345, { setRegs [(PC_DOMUP0 + 12, 0x2), (CP_STAT 1, 1), (CP_CFG 1, 0)] Dev.reset with now := 100, mem := [(0x20081000, 5), (0x20081001, 128), (0x20081002, 113), (0x20081003, 255)], cores := [(1, { CoreSt.reset with pc := 0x20081000, slots := [(0, { BankSlot.reset with bank := { Bank.zero with g := [(3, 0x12345)] } })] })] }, by decide⟩

theorem test_meets_CoreSystem_2 : ∃ (c : Fin 4) (rx : Fin 32) (v : BitVec 64) (d : Dev), (d.ready c (fmtS 7 rx 6) = true) ∧ (d.creg c rx = v) :=
  ⟨1, 3, 0x12345, { setRegs [(PC_DOMUP0 + 12, 0x2), (CP_STAT 1, 1), (CP_CFG 1, 0)] Dev.reset with now := 100, mem := [(0x20081000, 6), (0x20081001, 128), (0x20081002, 113), (0x20081003, 255)], cores := [(1, { CoreSt.reset with pc := 0x20081000, slots := [(0, { BankSlot.reset with bank := { Bank.zero with g := [(3, 0x12345)] } })], st := { CStat.start with priv := false } })] }, by decide⟩

theorem test_meets_CoreSystem_3 : ∃ (c : Fin 4) (rx : Fin 32) (d : Dev), (d.ready c (fmtS 6 rx 1) = true) ∧ ((d.core c).st.priv = true) :=
  ⟨1, 3, { setRegs [(PC_DOMUP0 + 12, 0x2), (CP_STAT 1, 1), (CP_CFG 1, 0)] Dev.reset with now := 100, mem := [(0x20081000, 1), (0x20081001, 128), (0x20081002, 97), (0x20081003, 255)], cores := [(1, { CoreSt.reset with pc := 0x20081000, epc := 0x4000 })] }, by decide⟩

theorem test_meets_CoreSystem_4 : ∃ (c : Fin 4) (rx : Fin 32) (d : Dev), (d.ready c (fmtS 6 rx 0x12) = true) :=
  ⟨1, 3, { setRegs [(PC_DOMUP0 + 12, 0x2), (CP_STAT 1, 1), (CP_CFG 1, 0)] Dev.reset with now := 100, mem := [(0x20081000, 18), (0x20081001, 128), (0x20081002, 97), (0x20081003, 255)], cores := [(1, { CoreSt.reset with pc := 0x20081000, st := { CStat.start with priv := false } })] }, by decide⟩

theorem test_meets_CoreSystem_5 : ∃ (c : Fin 4) (rx : Fin 32) (imm : BitVec 15) (d : Dev), (d.ready c (fmtS 6 rx imm) = true) ∧ ((d.core c).st.tw = false) ∧ ((d.core c).st.df = false) ∧ (0x15 < imm.toNat) :=
  ⟨1, 3, 0x16, { setRegs [(PC_DOMUP0 + 12, 0x2), (CP_STAT 1, 1), (CP_CFG 1, 0)] Dev.reset with now := 100, mem := [(0x20081000, 22), (0x20081001, 128), (0x20081002, 97), (0x20081003, 255)], cores := [(1, { CoreSt.reset with pc := 0x20081000 })] }, by decide⟩

theorem test_meets_CoreSystem_6 : ∃ (c : Fin 4) (rx : Fin 32) (imm : BitVec 15) (d : Dev), (d.ready c (fmtS 7 rx imm) = true) ∧ ((d.core c).st.tw = false) ∧ ((d.core c).st.df = false) ∧ (imm.toNat ≤ 0x15) ∧ (imm.toNat ≠ 6) ∧ ((d.core c).st.priv = false) :=
  ⟨1, 3, 5, { setRegs [(PC_DOMUP0 + 12, 0x2), (CP_STAT 1, 1), (CP_CFG 1, 0)] Dev.reset with now := 100, mem := [(0x20081000, 5), (0x20081001, 128), (0x20081002, 113), (0x20081003, 255)], cores := [(1, { CoreSt.reset with pc := 0x20081000, st := { CStat.start with priv := false } })] }, by decide⟩

theorem test_meets_CoreSystem_7 : ∃ (c : Fin 4) (rx : Fin 32) (d : Dev), (d.ready c (fmtS 6 rx 0x0C) = true) ∧ ((d.core c).st.tw = false) ∧ ((d.core c).st.df = false) ∧ ((d.core c).st.priv = true) ∧ ((d.afterFetch c).on (CP_CFG_BANKWIN c) = false) :=
  ⟨1, 3, { setRegs [(PC_DOMUP0 + 12, 0x2), (CP_STAT 1, 1), (CP_CFG 1, 0)] Dev.reset with now := 100, mem := [(0x20081000, 12), (0x20081001, 128), (0x20081002, 97), (0x20081003, 255)], cores := [(1, { CoreSt.reset with pc := 0x20081000 })] }, by decide⟩

theorem test_meets_CoreSystem_8 : ∃ (c : Fin 4) (d : Dev), (d.ready c (fmtS 0x8 0 0) = true) :=
  ⟨1, { setRegs [(PC_DOMUP0 + 12, 0x2), (CP_STAT 1, 1), (CP_CFG 1, 0)] Dev.reset with now := 100, mem := [(0x20081002, 128), (0x20081003, 255)], cores := [(1, { CoreSt.reset with pc := 0x20081000 })] }, by decide⟩

theorem test_meets_CoreSystem_9 : ∃ (c : Fin 4) (d : Dev), (d.ready c (fmtS 0x9 0 0) = true) :=
  ⟨1, { setRegs [(PC_DOMUP0 + 12, 0x2), (CP_STAT 1, 1), (CP_CFG 1, 0)] Dev.reset with now := 100, mem := [(0x20081002, 144), (0x20081003, 255)], cores := [(1, { CoreSt.reset with pc := 0x20081000 })] }, by decide⟩

theorem test_meets_CoreSystem_10 : ∃ (c : Fin 4) (rx : Fin 32) (imm : BitVec 15) (d : Dev), (d.ready c (fmtS 0xA rx imm) = true) ∧ ((d.core c).st.priv = true) :=
  ⟨1, 3, 0, { setRegs [(PC_DOMUP0 + 12, 0x2), (CP_STAT 1, 1), (CP_CFG 1, 0)] Dev.reset with now := 100, mem := [(0x20081001, 128), (0x20081002, 161), (0x20081003, 255)], cores := [(1, { CoreSt.reset with pc := 0x20081000 })] }, by decide⟩

theorem test_meets_CoreSystem_11 : ∃ (c : Fin 4) (rx : Fin 32) (imm : BitVec 15) (d : Dev), (d.ready c (fmtS 0xA rx imm) = true) ∧ ((d.core c).st.tw = false) ∧ ((d.core c).st.df = false) ∧ ((d.core c).st.priv = false) :=
  ⟨1, 3, 0, { setRegs [(PC_DOMUP0 + 12, 0x2), (CP_STAT 1, 1), (CP_CFG 1, 0)] Dev.reset with now := 100, mem := [(0x20081001, 128), (0x20081002, 161), (0x20081003, 255)], cores := [(1, { CoreSt.reset with pc := 0x20081000, st := { CStat.start with priv := false } })] }, by decide⟩

theorem test_meets_CoreSystem_12 : ∃ (c : Fin 4) (rx : Fin 32) (k : Nat) (d : Dev), (d.ready c (fmtS 0xB rx 1) = true) ∧ ((d.core c).st.priv = true) ∧ ((d.core c).st.df = true) ∧ ((d.creg c rx).toNat = k) ∧ (k < 2 ^ 40) :=
  ⟨1, 3, 0x12345, { setRegs [(PC_DOMUP0 + 12, 0x2), (CP_STAT 1, 1), (CP_CFG 1, 0)] Dev.reset with now := 100, mem := [(0x20081000, 1), (0x20081001, 128), (0x20081002, 177), (0x20081003, 255)], cores := [(1, { CoreSt.reset with pc := 0x20081000, st := { CStat.start with df := true }, dfbank := [(3, 0x12345)] })] }, by decide⟩

theorem test_meets_CoreSystem_13 : ∃ (c : Fin 4) (rx : Fin 32) (imm : BitVec 15) (d : Dev), (d.ready c (fmtS 0xB rx imm) = true) ∧ ((d.core c).st.tw = false) ∧ ((d.core c).st.df = false) ∧ (5 < imm.toNat) :=
  ⟨1, 3, 6, { setRegs [(PC_DOMUP0 + 12, 0x2), (CP_STAT 1, 1), (CP_CFG 1, 0)] Dev.reset with now := 100, mem := [(0x20081000, 6), (0x20081001, 128), (0x20081002, 177), (0x20081003, 255)], cores := [(1, { CoreSt.reset with pc := 0x20081000 })] }, by decide⟩

theorem test_meets_CoreSystem_14 : ∃ (c : Fin 4) (d : Dev), (d.ready c (fmtS 0xc 0 0) = true) :=
  ⟨1, { setRegs [(PC_DOMUP0 + 12, 0x2), (CP_STAT 1, 1), (CP_CFG 1, 0)] Dev.reset with now := 100, mem := [(0x20081002, 192), (0x20081003, 255)], cores := [(1, { CoreSt.reset with pc := 0x20081000 })] }, by decide⟩

theorem test_meets_CoreSystem_15 : ∃ (c : Fin 4) (d : Dev), (d.ready c (fmtS 0xd 0 0) = true) ∧ ((d.core c).st.tw = true) :=
  ⟨1, { setRegs [(PC_DOMUP0 + 12, 0x2), (CP_STAT 1, 1), (CP_CFG 1, 0)] Dev.reset with now := 100, mem := [(0x20081002, 208), (0x20081003, 255)], cores := [(1, { CoreSt.reset with pc := 0x20081000, st := { CStat.start with tw := true } })] }, by decide⟩

theorem test_meets_CoreSystem_16 : ∃ (c : Fin 4) (d : Dev), (d.ready c (fmtS 0xd 0 0) = true) ∧ ((d.core c).st.tw = false) ∧ ((d.afterFetch c).on TS_CTRL_EN = false) :=
  ⟨1, { setRegs [(PC_DOMUP0 + 12, 0x2), (CP_STAT 1, 1), (CP_CFG 1, 0)] Dev.reset with now := 100, mem := [(0x20081002, 208), (0x20081003, 255)], cores := [(1, { CoreSt.reset with pc := 0x20081000 })] }, by decide⟩

theorem test_meets_CoreSystem_17 : ∃ (c : Fin 4) (d : Dev), (d.domUp (96 + c) = true) ∧ (d.power.failed = false) :=
  ⟨1, { setRegs [(PC_DOMUP0 + 12, 0x2), (CP_STAT 1, 1), (CP_CFG 1, 0)] Dev.reset with now := 100, mem := [], cores := [(1, { CoreSt.reset with pc := 0x20081000 })] }, by decide⟩

theorem test_meets_CoreSystem_18 : ∃ (c : Fin 4) (d : Dev), (d.power.failed = true) :=
  ⟨1, { Dev.reset with power := { Power.reset with failed := true } }, by decide⟩

theorem test_meets_CoreSystem_19 : ∃ (c : Fin 4) (d : Dev), (d.on (CP_STAT_RUN c) = true) ∧ ((d.core c).st.tw = false) ∧ ((d.core c).st.df = false) :=
  ⟨1, { setRegs [(PC_DOMUP0 + 12, 0x2), (CP_STAT 1, 1), (CP_CFG 1, 0)] Dev.reset with now := 100, mem := [], cores := [(1, { CoreSt.reset with pc := 0x20081000 })] }, by decide⟩

theorem test_meets_CoreSystem_20 : ∃ (c : Fin 4) (d : Dev), (d.on (CP_STAT_RUN c) = true) ∧ ((d.core c).st.tw = true) :=
  ⟨1, { setRegs [(PC_DOMUP0 + 12, 0x2), (CP_STAT 1, 1), (CP_CFG 1, 0)] Dev.reset with now := 100, mem := [], cores := [(1, { CoreSt.reset with pc := 0x20081000, st := { CStat.start with tw := true } })] }, by decide⟩

theorem test_meets_ThreadSwitches_1 : ∃ (c : Fin 4) (q : SwReq) (k : Nat) (d : Dev), (d.pendOn c = some q) ∧ (q.due ≤ d.now) ∧ ((d.core c).st.tw = false) ∧ (d.on (CP_STAT_RUN c) = true) ∧ (d.slotOf c q.thread = some k) ∧ (d.runOn c = none) ∧ (d.on TS_CTRL_TREN = false) :=
  ⟨1, { thread := 7, due := 90 }, 2, { setRegs [(CP_STAT 1, 1)] Dev.reset with now := 100, sched := { Sched.reset with threads := [(7, { Thread.reset with state := 1, pri := 3, wval := 9 })], switch := [(1, some { thread := 7, due := 90 })] }, cores := [(1, { CoreSt.reset with idle := true, slots := [(2, { BankSlot.reset with thread := some 7, bank := { Bank.zero with pc := 0x40 } })] })] }, by decide⟩

theorem test_meets_ThreadSwitches_2 : ∃ (c : Fin 4) (q : SwReq) (k r : Nat) (d : Dev), (d.pendOn c = some q) ∧ (q.due ≤ d.now) ∧ ((d.core c).st.tw = false) ∧ (d.on (CP_STAT_RUN c) = true) ∧ (d.slotOf c q.thread = some k) ∧ (d.runOn c = some r) ∧ (r ≠ q.thread) ∧ (d.pendCore r = none) ∧ (d.on TS_CTRL_TREN = false) :=
  ⟨1, { thread := 7, due := 90 }, 2, 5, { setRegs [(CP_STAT 1, 1)] Dev.reset with now := 100, sched := { Sched.reset with threads := [(5, { Thread.reset with state := 2, pri := 1 }), (7, { Thread.reset with state := 1, pri := 3 })], switch := [(1, some { thread := 7, due := 90 })], running := [(1, some 5)] }, cores := [(1, { CoreSt.reset with pc := 0x80, slots := [(2, { BankSlot.reset with thread := some 7 })] })] }, by decide⟩

theorem test_meets_ThreadSwitches_3 : ∃ (c : Fin 4) (q : SwReq) (d : Dev), (d.pendOn c = some q) ∧ (d.now < q.due ∨ (d.core c).st.tw = true ∨ d.on (CP_STAT_RUN c) = false ∨ d.slotOf c q.thread = none) :=
  ⟨1, { thread := 7, due := 90 }, { setRegs [] Dev.reset with now := 100, sched := { Sched.reset with switch := [(1, some { thread := 7, due := 90 })] } }, by decide⟩

theorem test_meets_ThreadSwitches_4 : ∃ (c : Fin 4) (k t : Nat) (d : Dev), (d.moveDone c 1 = some k) ∧ (((d.core c).bslot k).mover = t) ∧ ((d.thr t).state ≠ 0) ∧ ((d.thr t).state ≠ 5) ∧ ((d.memReadAll (d.thr t).bank.toNat 1152).1.1 = 0) ∧ (d.on TS_CTRL_TREN = false) :=
  ⟨1, 2, 7, { setRegs [(CP_STAT 1, 1), (PC_DOMUP0 + 12, 2)] Dev.reset with now := 100, sched := { Sched.reset with threads := [(7, { Thread.reset with state := 1, bank := 0x20081000 })], moveEnd := [(1, 90)] }, cores := [(1, { CoreSt.reset with slots := [(2, { BankSlot.reset with move := 1, mover := 7 })] })], mem := [(0x20081000, 0x40)] }, by decide +kernel⟩

theorem test_meets_ThreadSwitches_5 : ∃ (c : Fin 4) (k t : Nat) (d : Dev), (d.moveDone c 1 = some k) ∧ (((d.core c).bslot k).mover = t) ∧ ((d.thr t).state = 5) ∧ ((d.memReadAll (d.thr t).bank.toNat 1152).1.1 = 0) ∧ (d.on TS_CTRL_TREN = false) :=
  ⟨1, 2, 7, { setRegs [(CP_STAT 1, 1), (PC_DOMUP0 + 12, 2)] Dev.reset with now := 100, sched := { Sched.reset with threads := [(7, { Thread.reset with state := 5, bank := 0x20081000 })], moveEnd := [(1, 90)] }, cores := [(1, { CoreSt.reset with slots := [(2, { BankSlot.reset with move := 1, mover := 7 })] })] }, by decide +kernel⟩

theorem test_meets_ThreadSwitches_6 : ∃ (c : Fin 4) (k t : Nat) (d : Dev), (d.moveDone c 2 = some k) ∧ (((d.core c).bslot k).mover = t) ∧ ((d.thr t).state ≠ 0) ∧ (d.rd (TS_CNT1_EVICT) < 65535) ∧ (d.on TS_CTRL_TREN = false) :=
  ⟨1, 2, 7, { setRegs [(CP_STAT 1, 1), (PC_DOMUP0 + 12, 2)] Dev.reset with now := 100, sched := { Sched.reset with threads := [(7, { Thread.reset with state := 5, bank := 0x20081000 })], moveEnd := [(1, 90)] }, cores := [(1, { CoreSt.reset with slots := [(2, { BankSlot.reset with thread := some 7, move := 2, mover := 7 })] })] }, by decide +kernel⟩

theorem test_meets_ThreadSwitches_7 : ∃ (c : Fin 4) (d : Dev), (d.moveDone c 1 = none) :=
  ⟨1, Dev.reset, by decide⟩

theorem test_meets_ThreadSwitches_8 : ∃ (c : Fin 4) (d : Dev), (d.moveDone c 2 = none) :=
  ⟨1, Dev.reset, by decide⟩

theorem test_meets_TokensAndWakes_1 : ∃ (k : SchedTok) (rest : List SchedTok) (n : Nat) (d : Dev), (d.schedIn = k :: rest) ∧ (d.sched.applied ≤ d.now) ∧ (k.wake = false) ∧ (k.num % 4096 = n) ∧ ((d.tokEnt n).mode = 1) ∧ ((d.tokEnt n).wait = []) :=
  ⟨{ wake := false, num := 291, value := 0, cls := 0, at_ := 50 }, [], 0x123, { setRegs [] Dev.reset with now := 100, sched := { Sched.reset with toks := [(0x123, { TokEnt.reset with mode := 1 })] }, schedIn := [{ wake := false, num := 291, value := 0, cls := 0, at_ := 50 }] }, by decide⟩

theorem test_meets_TokensAndWakes_2 : ∃ (k : SchedTok) (rest : List SchedTok) (n : Nat) (d : Dev), (d.schedIn = k :: rest) ∧ (d.sched.applied ≤ d.now) ∧ (k.wake = false) ∧ (k.num % 4096 = n) ∧ ((d.tokEnt n).mode = 2) ∧ ((d.tokEnt n).wait = []) :=
  ⟨{ wake := false, num := 291, value := 0, cls := 0, at_ := 50 }, [], 0x123, { setRegs [] Dev.reset with now := 100, sched := { Sched.reset with toks := [(0x123, { TokEnt.reset with mode := 2 })] }, schedIn := [{ wake := false, num := 291, value := 0, cls := 0, at_ := 50 }] }, by decide⟩

theorem test_meets_TokensAndWakes_3 : ∃ (k : SchedTok) (rest : List SchedTok) (n t : Nat) (d : Dev), (d.schedIn = k :: rest) ∧ (d.sched.applied ≤ d.now) ∧ (k.wake = false) ∧ (k.num % 4096 = n) ∧ ((d.tokEnt n).mode = 1) ∧ (t ∈ (d.tokEnt n).wait) ∧ ((∀ u ∈ (d.tokEnt n).wait, u ≠ t → (d.thr u).pri < (d.thr t).pri)) ∧ ((d.thr t).wtv = true) ∧ ((d.thr t).wtok.toNat = n) ∧ ((d.thr t).wtt = false) ∧ (d.on TS_CTRL_TREN = false) :=
  ⟨{ wake := false, num := 291, value := 0, cls := 0, at_ := 50 }, [], 0x123, 40, { setRegs [] Dev.reset with now := 100, sched := { Sched.reset with toks := [(0x123, { mode := 1, count := 0, wait := [7, 40] })], threads := [(7, { Thread.reset with state := 3, pri := 3, wtv := true, wtok := 0x123 }), (40, { Thread.reset with state := 3, pri := 20, wtv := true, wtok := 0x123 })] }, schedIn := [{ wake := false, num := 291, value := 0, cls := 0, at_ := 50 }] }, by decide⟩

theorem test_meets_TokensAndWakes_4 : ∃ (k : SchedTok) (rest : List SchedTok) (n j : Nat) (d : Dev), (d.schedIn = k :: rest) ∧ (d.sched.applied ≤ d.now) ∧ (k.wake = false) ∧ (k.num % 4096 = n) ∧ ((d.tokEnt n).mode = 0) ∧ (d.rd TS_CNT2_TDROP = j) ∧ (j < 65535) :=
  ⟨{ wake := false, num := 291, value := 0, cls := 0, at_ := 50 }, [], 0x123, 0, { setRegs [] Dev.reset with now := 100, sched := { Sched.reset with gap := 0 }, schedIn := [{ wake := false, num := 291, value := 0, cls := 0, at_ := 50 }] }, by decide⟩

theorem test_meets_TokensAndWakes_5 : ∃ (k : SchedTok) (rest : List SchedTok) (t : Nat) (d : Dev), (d.schedIn = k :: rest) ∧ (d.sched.applied ≤ d.now) ∧ (k.wake = true) ∧ (wbit k.value 31 = true) ∧ (k.at_ < d.now) ∧ (k.num % 512 = t) ∧ ((d.thr t).state = 3 ∨ (d.thr t).state = 4) ∧ ((d.thr t).wtt = true) ∧ ((d.thr t).wtag.toNat = wbits k.value 15 0) ∧ ((d.thr t).wtv = false) ∧ (d.on TS_CTRL_TREN = false) :=
  ⟨{ wake := true, num := 40, value := 0x80000007, cls := 3, at_ := 50 }, [], 40, { setRegs [] Dev.reset with now := 100, sched := { Sched.reset with threads := [(40, { Thread.reset with state := 4, wtt := true, wtag := 7 })] }, schedIn := [{ wake := true, num := 40, value := 0x80000007, cls := 3, at_ := 50 }] }, by decide⟩

theorem test_meets_TokensAndWakes_6 : ∃ (k : SchedTok) (rest : List SchedTok) (t j : Nat) (d : Dev), (d.schedIn = k :: rest) ∧ (d.sched.applied ≤ d.now) ∧ (k.wake = true) ∧ (wbit k.value 31 = true) ∧ (k.at_ < d.now) ∧ (k.num % 512 = t) ∧ (((d.thr t).state ≠ 3 ∧ (d.thr t).state ≠ 4) ∨ (d.thr t).wtt = false ∨ (d.thr t).wtag.toNat ≠ wbits k.value 15 0) ∧ (d.rd TS_CNT2_STALEW = j) ∧ (j < 65535) :=
  ⟨{ wake := true, num := 40, value := 0x80000007, cls := 3, at_ := 50 }, [], 40, 0, { setRegs [] Dev.reset with now := 100, sched := { Sched.reset with threads := [(40, { Thread.reset with state := 4, wtt := true, wtag := 8 })] }, schedIn := [{ wake := true, num := 40, value := 0x80000007, cls := 3, at_ := 50 }] }, by decide⟩

theorem test_meets_TokensAndWakes_7 : ∃ (k : SchedTok) (rest : List SchedTok) (t : Nat) (d : Dev), (d.schedIn = k :: rest) ∧ (d.sched.applied ≤ d.now) ∧ (k.wake = true) ∧ (wbit k.value 31 = false) ∧ (k.at_ < d.now) ∧ (k.num % 512 = t) ∧ ((d.thr t).state = 3 ∨ (d.thr t).state = 4) ∧ ((d.thr t).wtv = false) ∧ (t ∉ d.sched.woken) :=
  ⟨{ wake := true, num := 40, value := 0x77, cls := 3, at_ := 50 }, [], 40, { setRegs [] Dev.reset with now := 100, sched := { Sched.reset with threads := [(40, { Thread.reset with state := 4 })] }, schedIn := [{ wake := true, num := 40, value := 0x77, cls := 3, at_ := 50 }] }, by decide⟩

theorem test_meets_TokensAndWakes_8 : ∃ (k : SchedTok) (rest : List SchedTok) (t : Nat) (d : Dev), (d.schedIn = k :: rest) ∧ (d.sched.applied ≤ d.now) ∧ (k.wake = true) ∧ (wbit k.value 31 = false) ∧ (k.at_ < d.now) ∧ (k.num % 512 = t) ∧ ((d.thr t).state = 1 ∨ (d.thr t).state = 2) :=
  ⟨{ wake := true, num := 40, value := 0x77, cls := 3, at_ := 50 }, [], 40, { setRegs [] Dev.reset with now := 100, sched := { Sched.reset with threads := [(40, { Thread.reset with state := 2 })] }, schedIn := [{ wake := true, num := 40, value := 0x77, cls := 3, at_ := 50 }] }, by decide⟩

theorem test_meets_TokensAndWakes_9 : ∃ (k : SchedTok) (rest : List SchedTok) (t j : Nat) (d : Dev), (d.schedIn = k :: rest) ∧ (d.sched.applied ≤ d.now) ∧ (k.wake = true) ∧ (wbit k.value 31 = false) ∧ (k.at_ < d.now) ∧ (k.num % 512 = t) ∧ ((d.thr t).state = 0 ∨ (d.thr t).state = 5) ∧ (d.rd TS_CNT2_STALEW = j) ∧ (j < 65535) :=
  ⟨{ wake := true, num := 40, value := 0x77, cls := 3, at_ := 50 }, [], 40, 0, { setRegs [] Dev.reset with now := 100, sched := { Sched.reset with threads := [(40, { Thread.reset with state := 5 })] }, schedIn := [{ wake := true, num := 40, value := 0x77, cls := 3, at_ := 50 }] }, by decide⟩

theorem test_meets_TokensAndWakes_10 : ∃ (n : Fin 4096) (d : Dev), (d.schedWait = []) ∧ (d.schedIn.length < 64) :=
  ⟨5, Dev.reset, by decide⟩

theorem test_meets_SchedulerCommands_1 : ∃ (t : Fin 512) (d : Dev), ((d.thr t).state = 0 ∨ (d.thr t).state = 5) ∧ (d.coreOf t = none) ∧ (d.on TS_CTRL_EN = false ∨ d.chooseCore t = none) ∧ (d.on TS_CTRL_TREN = false) :=
  ⟨40, { setRegs [] Dev.reset with now := 100, sched := { Sched.reset with threads := [(40, { Thread.reset with state := 5, pri := 20 })] } }, by decide⟩

theorem test_meets_SchedulerCommands_2 : ∃ (t : Fin 512) (c : Nat) (d : Dev), ((d.thr t).state = 0 ∨ (d.thr t).state = 5) ∧ (d.coreOf t = none) ∧ (d.on TS_CTRL_EN = true) ∧ (d.chooseCore t = some c) ∧ (d.pendOn c = none) ∧ (d.on TS_CTRL_TREN = false) :=
  ⟨40, 2, { setRegs [(TS_CTRL, 1)] Dev.reset with now := 100, sched := { Sched.reset with threads := [(40, { Thread.reset with state := 5, pri := 20, aff := 4 })] } }, by decide⟩

theorem test_meets_SchedulerCommands_3 : ∃ (t : Fin 512) (d : Dev), ((d.thr t).state ≠ 0) ∧ ((d.thr t).state ≠ 5) ∧ (d.coreOf t = none) ∧ (d.on TS_CTRL_TREN = false) :=
  ⟨40, { setRegs [] Dev.reset with now := 100, sched := { Sched.reset with threads := [(40, { Thread.reset with state := 3 })] } }, by decide⟩

theorem test_meets_SchedulerCommands_4 : ∃ (t : Fin 512) (d : Dev), ((d.thr t).state ≠ 0) ∧ ((d.thr t).wtv = true) ∧ ((d.thr t).wtok.toNat < 4096) ∧ (d.coreOf t = none) ∧ (d.pendCore t = none) ∧ (d.on TS_CTRL_TREN = false) :=
  ⟨40, { setRegs [] Dev.reset with now := 100, sched := { Sched.reset with threads := [(40, { Thread.reset with state := 3, wtv := true, wtok := 5 })], toks := [(5, { mode := 1, count := 0, wait := [40] })] } }, by decide⟩

theorem test_meets_SchedulerCommands_5 : ∃ (t : Fin 512) (c : Nat) (d : Dev), (c < 4) ∧ ((d.thr t).state = 2) ∧ ((d.thr t).wtv = false) ∧ (d.coreOf t = some c) ∧ ((d.core c).st.tw = false) ∧ (d.pendCore t = none) ∧ (d.pendOn c = none) ∧ ((∀ p : Fin 32, d.readyAt p = [])) ∧ (d.on TS_CTRL_TREN = false) :=
  ⟨40, 1, { setRegs [(CP_STAT 1, 1)] Dev.reset with now := 100, sched := { Sched.reset with threads := [(40, { Thread.reset with state := 2 })], running := [(1, some 40)] }, cores := [(1, { CoreSt.reset with pc := 0x80 })] }, by decide⟩

theorem test_meets_SchedulerCommands_6 : ∃ (t : Fin 512) (c : Nat) (d : Dev), (c < 4) ∧ (d.coreOf t = some c) ∧ ((d.core c).st.tw = true) :=
  ⟨40, 1, { setRegs [(CP_STAT 1, 3)] Dev.reset with now := 100, sched := { Sched.reset with threads := [(40, { Thread.reset with state := 2 })], running := [(1, some 40)] }, cores := [(1, { CoreSt.reset with st := { CStat.start with tw := true } })] }, by decide⟩

theorem test_meets_SchedulerCommands_7 : ∃ (t : Fin 512) (d : Dev), ((d.thr t).state = 0) ∧ (d.coreOf t = none) ∧ (d.on TS_CTRL_TREN = false) :=
  ⟨40, { setRegs [] Dev.reset with now := 100, sched := { Sched.reset with gap := 0 } }, by decide⟩

theorem test_meets_SchedulerCommands_8 : ∃ (t : Fin 512) (d : Dev), ((d.thr t).state ≠ 0) ∧ ((d.thr t).state ≠ 1) ∧ (d.coreOf t = none) ∧ (t.val ∉ d.readyAt (d.thr t).pri.toNat) ∧ (d.on TS_CTRL_TREN = false) :=
  ⟨40, { setRegs [(TS_CMDARG, 4)] Dev.reset with now := 100, sched := { Sched.reset with threads := [(40, { Thread.reset with state := 3, pri := 20 })] } }, by decide⟩

theorem test_meets_SchedulerCommands_9 : ∃ (t : Fin 512) (p q : Nat) (d : Dev), ((d.thr t).state = 1) ∧ ((d.thr t).pri.toNat = p) ∧ (wbits (d.reg TS_CMDARG) 4 0 = q) ∧ (p ≠ q) ∧ (d.coreOf t = none) ∧ (t.val ∈ d.readyAt p) ∧ ((∀ r : Fin 32, r.val ≠ p → t.val ∉ d.readyAt r)) ∧ (d.on TS_CTRL_EN = false) ∧ (d.on TS_CTRL_TREN = false) :=
  ⟨40, 20, 4, { setRegs [(TS_CMDARG, 4)] Dev.reset with now := 100, sched := { Sched.reset with threads := [(40, { Thread.reset with state := 1, pri := 20 })], ready := [(4, [7]), (20, [40, 41])] } }, by decide⟩

theorem test_meets_SchedulerCommands_10 : ∃ (t : Fin 512) (d : Dev), ((d.thr t).state = 0) ∧ (d.coreOf t = none) ∧ (d.on TS_CTRL_TREN = false) :=
  ⟨5, { setRegs [(TS_CTRL, 0)] Dev.reset with now := 100 }, by decide⟩

theorem test_meets_SchedulerCommands_11 : ∃ (t : Fin 512) (d : Dev), ((d.thr t).state ≠ 0) ∧ (d.coreOf t = none) ∧ (d.on TS_CTRL_TREN = false) :=
  ⟨40, { setRegs [(TS_CMDARG, 4)] Dev.reset with now := 100, sched := { Sched.reset with threads := [(40, { Thread.reset with state := 3, pri := 20 })] } }, by decide⟩

theorem test_meets_SchedulerCommands_12 : ∃ (t : Fin 512) (d : Dev), ((d.thr t).state = 0) ∧ (d.coreOf t = none) ∧ (d.on TS_CTRL_TREN = false) :=
  ⟨5, { setRegs [(TS_CTRL, 0)] Dev.reset with now := 100 }, by decide⟩

theorem test_meets_SchedulerCommands_13 : ∃ (t : Fin 512) (c k : Nat) (d : Dev), (c < 4) ∧ (k < 4) ∧ ((d.thr t).wtv = false) ∧ (d.coreOf t = none) ∧ (d.pendCore t = none) ∧ ((d.thr t).home = some (c, k)) ∧ (((d.core c).bslot k).move ≠ 1) ∧ (d.on TS_CTRL_TREN = false) :=
  ⟨40, 1, 2, { setRegs [] Dev.reset with now := 100, sched := { Sched.reset with threads := [(40, { Thread.reset with state := 1, pri := 20, home := some (1, 2) })] }, cores := [(1, { CoreSt.reset with slots := [(2, { BankSlot.reset with thread := some 40 })] })] }, by decide⟩

theorem test_meets_SchedulerCommands_14 : ∃ (t : Fin 512) (d : Dev), ((d.thr t).state = 3 ∨ (d.thr t).state = 4) ∧ ((d.thr t).wtv = false) ∧ (t.val ∉ d.sched.woken) ∧ (d.coreOf t = none) ∧ (d.on TS_CTRL_TREN = false) :=
  ⟨40, { setRegs [(TS_CMDARG, 4)] Dev.reset with now := 100, sched := { Sched.reset with threads := [(40, { Thread.reset with state := 4 })] } }, by decide⟩

theorem test_meets_SchedulerCommands_15 : ∃ (t : Fin 512) (d : Dev), ((d.thr t).state = 1 ∨ (d.thr t).state = 2) ∧ (d.coreOf t = none) ∧ (d.on TS_CTRL_TREN = false) :=
  ⟨40, { setRegs [(TS_CMDARG, 4)] Dev.reset with now := 100, sched := { Sched.reset with threads := [(40, { Thread.reset with state := 1 })] } }, by decide⟩

theorem test_meets_InvalidationAndIoFaults_1 : ∃ (v : BitVec 32) (x : Nat) (d : Dev), (wbit v 0 = true) ∧ (wbits v 2 1 = 3) ∧ (wbits v 19 16 = x) :=
  ⟨0x30007, 3, { setRegs [] Dev.reset with now := 100, mmu := { Mmu.reset with io := [{ asid := 3, glob := false, big := false, vpn := 0x1234, pa := 0x20081000, mattr := 0 }, { asid := 4, glob := false, big := false, vpn := 0x1234, pa := 0x20081000, mattr := 0 }] } }, by decide⟩

theorem test_meets_InvalidationAndIoFaults_2 : ∃ (v : BitVec 32) (d : Dev), (wbit v 0 = true) ∧ (wbits v 2 1 = 2) :=
  ⟨5, { setRegs [] Dev.reset with now := 100, mmu := { Mmu.reset with l2 := [{ asid := 3, glob := true, big := false, vpn := 0x1234, pa := 0x20081000, mattr := 0 }] }, cores := [(1, { CoreSt.reset with tlb := [{ asid := 3, glob := true, big := false, vpn := 0x1234, pa := 0x20081000, mattr := 0 }] })] }, by decide⟩

theorem test_meets_InvalidationAndIoFaults_3 : ∃ (v : BitVec 32) (as : Nat) (d : Dev), (wbit v 0 = true) ∧ (wbits v 2 1 = 1) ∧ (wbits v 15 8 = as) :=
  ⟨0x303, 3, { setRegs [] Dev.reset with now := 100, mmu := { Mmu.reset with l2 := [{ asid := 3, glob := true, big := false, vpn := 0x1234, pa := 0x20081000, mattr := 0 }] } }, by decide⟩

theorem test_meets_InvalidationAndIoFaults_4 : ∃ (v : BitVec 32) (as : Nat) (t : TlbEnt) (d : Dev), (wbit v 0 = true) ∧ (wbits v 2 1 = 0) ∧ (wbits v 15 8 = as) ∧ (t ∈ d.mmu.l2) ∧ (t.big = false) :=
  ⟨0x301, 3, { asid := 3, glob := true, big := false, vpn := 0x1234, pa := 0x20081000, mattr := 0 }, { setRegs [] Dev.reset with now := 100, mmu := { Mmu.reset with l2 := [{ asid := 3, glob := true, big := false, vpn := 0x1234, pa := 0x20081000, mattr := 0 }] } }, by decide⟩

theorem test_meets_InvalidationAndIoFaults_5 : ∃ (v : BitVec 32) (d : Dev), (wbit v 0 = false) :=
  ⟨2, Dev.reset, by decide⟩

theorem test_meets_InvalidationAndIoFaults_7 : ∃ (f g : IoFault) (rest : List IoFault) (d : Dev), (d.mmu.faults = f :: g :: rest) ∧ (g.req < 256 ∧ g.ioas < 16 ∧ g.acc < 4 ∧ g.lvl < 4 ∧ g.kind < 16 ∧ g.va < 2 ^ 40) ∧ (d.mmu.waiting = []) :=
  ⟨{ req := 2, ioas := 3, acc := 1, lvl := 2, kind := 0, va := 0x123456789A }, { ({ req := 2, ioas := 3, acc := 1, lvl := 2, kind := 0, va := 0x123456789A } : IoFault) with req := 0x85, va := 0x2233445566 }, [], { setRegs [] Dev.reset with now := 100, mmu := { Mmu.reset with faults := [{ req := 2, ioas := 3, acc := 1, lvl := 2, kind := 0, va := 0x123456789A }, { ({ req := 2, ioas := 3, acc := 1, lvl := 2, kind := 0, va := 0x123456789A } : IoFault) with req := 0x85, va := 0x2233445566 }] } }, by decide⟩

theorem test_meets_InvalidationAndIoFaults_8 : ∃ (f : IoFault) (d : Dev), (d.mmu.faults = [f]) ∧ (d.mmu.waiting = []) :=
  ⟨{ req := 2, ioas := 3, acc := 1, lvl := 2, kind := 0, va := 0x123456789A }, { setRegs [] Dev.reset with now := 100, mmu := { Mmu.reset with faults := [{ req := 2, ioas := 3, acc := 1, lvl := 2, kind := 0, va := 0x123456789A }] } }, by decide⟩

theorem test_meets_InvalidationAndIoFaults_9 : ∃ (v : BitVec 32) (k : Fin 4) (x : Xfer) (n : Nat) (d : Dev), (wbit v 31 = true) ∧ (wbit v 8 = true) ∧ (wbits v 7 0 = k.val) ∧ (d.net.stall = false) ∧ (k.val ∈ d.mmu.stopped) ∧ (tget none d.net.eng k = some x) ∧ (x.phase = 3) ∧ (wbit x.w0 15 = false) ∧ (d.rd (DM_ENGe_CNT1_ERRC k) = n) ∧ (n < 65535) :=
  ⟨0x80000102, 2, { trig := 3, desc := 0x20081000, w0 := 4, w1 := 0, src := 0x20081100, dst := 0x2000, len := 64, next := 0, prog := 0, dpa := 0, phase := 3, err := none }, 0, { setRegs [] Dev.reset with now := 5000, net := { Net.reset with eng := [(2, some { trig := 3, desc := 0x20081000, w0 := 4, w1 := 0, src := 0x20081100, dst := 0x2000, len := 64, next := 0, prog := 0, dpa := 0, phase := 3, err := none })] }, mmu := { Mmu.reset with stopped := [2] } }, by decide⟩

theorem test_meets_InvalidationAndIoFaults_10 : ∃ (v : BitVec 32) (d : Dev), (wbit v 31 = false ∨ wbits v 7 0 ∉ d.mmu.stopped) :=
  ⟨2, Dev.reset, by decide⟩

theorem test_meets_RoutesAndQueueDivisions_1 : ∃ (i t : Fin 40) (v : BitVec 32) (d : Dev), (routeOk i t (d.reg (PN_RTi_d_LO i t)) (w32 (Nat.land v.toNat 0x803F000F)) = false) :=
  ⟨3, 4, 0, Dev.reset, by decide⟩

theorem test_meets_RoutesAndQueueDivisions_2 : ∃ (i t : Fin 40) (v : BitVec 32) (d : Dev), (routeOk i t (d.reg (PN_RTi_d_LO i t)) (w32 (Nat.land v.toNat 0x803F000F)) = true) ∧ (d.routeWait i = none) :=
  ⟨0, 1, 2, { setRegs [(PN_RTi_d_LO 0 1, 0x21)] Dev.reset with now := 5000, net := { Net.reset with vc3 := [] } }, by decide⟩

theorem test_meets_RoutesAndQueueDivisions_3 : ∃ (i t : Fin 40) (v : BitVec 32) (c : RouteCommit) (d : Dev), (routeOk i t (d.reg (PN_RTi_d_LO i t)) (w32 (Nat.land v.toNat 0x803F000F)) = true) ∧ (d.routeWait i = some c) :=
  ⟨0, 1, 2, { dest := 7, lo := 0x21, hi := 0x80000003, at_ := 4000 }, { setRegs [(PN_RTi_d_LO 0 1, 0x21)] Dev.reset with now := 5000, net := { Net.reset with commit := [(0, some { dest := 7, lo := 0x21, hi := 0x80000003, at_ := 4000 })] } }, by decide⟩

theorem test_meets_RoutesAndQueueDivisions_4 : ∃ (i : Fin 40) (c : RouteCommit) (d : Dev), (d.routeWait i = some c) ∧ (c.dest < 40) ∧ (d.outstanding i c.dest = 0) ∧ (d.outstandingOf i + (d.net.reqs.filter (fun p => decide (p.src = i.val) && p.held)).length ≤ 64) :=
  ⟨0, { dest := 7, lo := 0x21, hi := 0x80000003, at_ := 4000 }, { setRegs [] Dev.reset with now := 5000, net := { Net.reset with commit := [(0, some { dest := 7, lo := 0x21, hi := 0x80000003, at_ := 4000 })], reqs := [{ src := 0, dst := 7, req := 0, write := false, addr := 0x20101000, host := false, len := 8, data := [], status := 0, at_ := 4900, held := true, vc := 0, codes := [], legs := [] }] } }, by decide⟩

theorem test_meets_RoutesAndQueueDivisions_5 : ∃ (i : Fin 40) (d : Dev), ((d.routeWait i).all (fun c => decide (d.outstanding i c.dest ≠ 0)) = true) :=
  ⟨0, Dev.reset, by decide⟩

theorem test_meets_RoutesAndQueueDivisions_6 : ∃ (i : Fin 40) (c : RouteCommit) (d : Dev), (d.routeWait i = some c) ∧ (c.dest < 40) ∧ (c.at_ + 1600 ≤ d.now) ∧ (d.outstanding i c.dest ≠ 0) ∧ (d.outstandingOf i + (d.net.reqs.filter (fun p => decide (p.src = i.val) && p.held)).length ≤ 64) :=
  ⟨0, { dest := 7, lo := 0x21, hi := 0x80000003, at_ := 3000 }, { setRegs [] Dev.reset with now := 5000, net := { Net.reset with commit := [(0, some { dest := 7, lo := 0x21, hi := 0x80000003, at_ := 3000 })], reqs := [{ src := 0, dst := 7, req := 0, write := false, addr := 0x20101000, host := false, len := 8, data := [], status := 0, at_ := 4900, held := false, vc := 0, codes := [], legs := [] }] } }, by decide⟩

theorem test_meets_RoutesAndQueueDivisions_7 : ∃ (i : Fin 40) (c : RouteCommit) (d : Dev), (d.routeWait i = some c) ∧ (d.now < c.at_ + 1600 ∨ d.outstanding i c.dest = 0) :=
  ⟨0, { dest := 7, lo := 0x21, hi := 0x80000003, at_ := 4000 }, { setRegs [] Dev.reset with now := 5000, net := { Net.reset with commit := [(0, some { dest := 7, lo := 0x21, hi := 0x80000003, at_ := 4000 })] } }, by decide⟩

theorem test_meets_RoutesAndQueueDivisions_8 : ∃ (r : Fin 24) (a b x y : Nat) (d : Dev), (d.rd ⟨PN_RTRr_QCFG r, 3, 0⟩ = a) ∧ (d.rd ⟨PN_RTRr_QCFG r, 7, 4⟩ = b) ∧ (d.rd ⟨PN_RTRr_QCFG r, 11, 8⟩ = x) ∧ (d.rd ⟨PN_RTRr_QCFG r, 15, 12⟩ = y) ∧ (tget none d.net.hold r = none) ∧ (a < 5 ∨ b < 5 ∨ x < 5 ∨ y < 5 ∨ 32 < a + b + x + y) :=
  ⟨4, 9, 8, 8, 8, { setRegs [(PN_RTRr_QCFG 4, 0x8889)] Dev.reset with now := 5000, net := { Net.reset with vc3 := [] } }, by decide⟩

theorem test_meets_RoutesAndQueueDivisions_9 : ∃ (r : Fin 24) (a b x y : Nat) (d : Dev), (d.rd ⟨PN_RTRr_QCFG r, 3, 0⟩ = a) ∧ (d.rd ⟨PN_RTRr_QCFG r, 7, 4⟩ = b) ∧ (d.rd ⟨PN_RTRr_QCFG r, 11, 8⟩ = x) ∧ (d.rd ⟨PN_RTRr_QCFG r, 15, 12⟩ = y) ∧ (tget none d.net.hold r = none) ∧ (5 ≤ a ∧ 5 ≤ b ∧ 5 ≤ x ∧ 5 ≤ y ∧ a + b + x + y ≤ 32) :=
  ⟨4, 5, 8, 8, 11, { setRegs [(PN_RTRr_QCFG 4, 0xB885)] Dev.reset with now := 5000, net := { Net.reset with vc3 := [] } }, by decide⟩

theorem test_meets_RoutesAndQueueDivisions_10 : ∃ (r : Fin 24) (u : Nat) (v : BitVec 16) (d : Dev), (tget none d.net.hold r = some (u, v)) ∧ (d.heldEmpty r = true) :=
  ⟨4, 4000, 0xB885, { setRegs [] Dev.reset with now := 5000, net := { Net.reset with hold := [(4, some (4000, 0xB885))] } }, by decide⟩

theorem test_meets_RoutesAndQueueDivisions_11 : ∃ (r : Fin 24) (u : Nat) (v : BitVec 16) (d : Dev), (tget none d.net.hold r = some (u, v)) ∧ (u + 1600 ≤ d.now) ∧ (d.heldEmpty r = false) :=
  ⟨4, 3000, 0xB885, { setRegs [] Dev.reset with now := 5000, net := { Net.reset with hold := [(4, some (3000, 0xB885))], reqs := [{ src := 0, dst := 7, req := 0, write := false, addr := 0x20101000, host := false, len := 8, data := [], status := 0, at_ := 4900, held := false, vc := 0, codes := [4], legs := [{ loc := 4, port := 4, enter := 4901, left := none }] }] } }, by decide⟩

theorem test_meets_RoutesAndQueueDivisions_12 : ∃ (r : Fin 24) (d : Dev), ((tget none d.net.hold r).all (fun h => decide (d.now < h.1 + 1600) || d.heldEmpty r) = true) :=
  ⟨4, Dev.reset, by decide⟩

theorem test_meets_RoutesAndQueueDivisions_13 : ∃ (r : Fin 24) (d : Dev), (d.heldEmpty r = false) :=
  ⟨4, { setRegs [] Dev.reset with now := 5000, net := { Net.reset with hold := [(4, some (3000, 0xB885))], reqs := [{ src := 0, dst := 7, req := 0, write := false, addr := 0x20101000, host := false, len := 8, data := [], status := 0, at_ := 4900, held := false, vc := 0, codes := [4], legs := [{ loc := 4, port := 4, enter := 4901, left := none }] }] } }, by decide⟩

theorem test_meets_DmaEnginesAndPackets_1 : ∃ (k : Fin 4) (t : Fin 64) (d : Dev), (d.on (DM_ENGe_CFG_EN k) = true) ∧ ((d.dmaQueue k).length < 8) :=
  ⟨2, 5, { setRegs [(DM_ENGe_CFG 2, 1)] Dev.reset with now := 5000, net := { Net.reset with vc3 := [] } }, by decide⟩

theorem test_meets_DmaEnginesAndPackets_2 : ∃ (k : Fin 4) (t : Fin 64) (n : Nat) (d : Dev), (d.on (DM_ENGe_CFG_EN k) = false ∨ 8 ≤ (d.dmaQueue k).length) ∧ (d.rd (DM_ENGe_CNT1_DROPC k) = n) ∧ (n < 65535) :=
  ⟨2, 5, 0, { setRegs [] Dev.reset with now := 5000, net := { Net.reset with vc3 := [] } }, by decide⟩

theorem test_meets_DmaEnginesAndPackets_3 : ∃ (k : Fin 4) (t : Nat) (rest : List Nat) (d : Dev), (d.dmaQueue k = t :: rest) ∧ (tget none d.net.eng k = none) ∧ (d.on (DM_ENGe_CFG_EN k) = true) ∧ (((d.setDmaQueue k rest).niRead (28 + k) (d.rd (DM_ENGe_TTB_LO_ADDR k) * 512 + d.rd (DM_ENGe_TTB_HI_ADDR k) * 2 ^ 32 + 8 * t) 8).1.1 = 0) ∧ (((d.setDmaQueue k rest).niRead (28 + k) (d.rd (DM_ENGe_TTB_LO_ADDR k) * 512 + d.rd (DM_ENGe_TTB_HI_ADDR k) * 2 ^ 32 + 8 * t) 8).1.2 = [1, 0, 0, 0, 0, 0, 0, 0]) ∧ (((d.setDmaQueue k rest).niRead (28 + k) (d.rd (DM_ENGe_TTB_LO_ADDR k) * 512 + d.rd (DM_ENGe_TTB_HI_ADDR k) * 2 ^ 32 + 8 * t) 8).2.net.stall = false) :=
  ⟨2, 5, [], { setRegs [(PN_CTRL, 0), (DM_ENGe_CFG 2, 1), (DM_ENGe_TTB_LO 2, 0x20081000), (PC_DOMUP0, 0xFFFFFFFF), (PC_DOMUP0 + 4, 0xFFFFFFFF), (PC_DOMUP0 + 8, 0xFFFFFFFF), (PC_DOMUP0 + 12, 0xFFFFFFFF)] Dev.reset with now := 5000, net := { Net.reset with queue := [(2, [5])] }, mem := [(0x20081028, 1)] }, by decide +kernel⟩

theorem test_meets_DmaEnginesAndPackets_4 : ∃ (k : Fin 4) (t a : Nat) (rest : List Nat) (ws : List (BitVec 32)) (d : Dev), (d.dmaQueue k = t :: rest) ∧ (tget none d.net.eng k = none) ∧ (d.on (DM_ENGe_CFG_EN k) = true) ∧ (((d.setDmaQueue k rest).niRead (28 + k) (d.rd (DM_ENGe_TTB_LO_ADDR k) * 512 + d.rd (DM_ENGe_TTB_HI_ADDR k) * 2 ^ 32 + 8 * t) 8).1.1 = 0) ∧ (bytesNat ((d.setDmaQueue k rest).niRead (28 + k) (d.rd (DM_ENGe_TTB_LO_ADDR k) * 512 + d.rd (DM_ENGe_TTB_HI_ADDR k) * 2 ^ 32 + 8 * t) 8).1.2 = a) ∧ (a < 2 ^ 40) ∧ (a % 32 = 0) ∧ ((((d.setDmaQueue k rest).niRead (28 + k) (d.rd (DM_ENGe_TTB_LO_ADDR k) * 512 + d.rd (DM_ENGe_TTB_HI_ADDR k) * 2 ^ 32 + 8 * t) 8).2.niRead (niOfReq k) a 32).1.1 = 0) ∧ (bytesWords (((d.setDmaQueue k rest).niRead (28 + k) (d.rd (DM_ENGe_TTB_LO_ADDR k) * 512 + d.rd (DM_ENGe_TTB_HI_ADDR k) * 2 ^ 32 + 8 * t) 8).2.niRead (niOfReq k) a 32).1.2 8 = ws) ∧ ((((d.setDmaQueue k rest).niRead (28 + k) (d.rd (DM_ENGe_TTB_LO_ADDR k) * 512 + d.rd (DM_ENGe_TTB_HI_ADDR k) * 2 ^ 32 + 8 * t) 8).2.niRead (niOfReq k) a 32).2.net.stall = false) ∧ (d.outstandingOf (niOfReq k) < 64) ∧ (badDesc k (xferOf t a ws) ws = false) ∧ ((xferOf t a ws).fill = false) ∧ (wbits (xferOf t a ws).w0 13 12 = 0) ∧ (wbits (xferOf t a ws).w0 11 4 = 0) ∧ (areaOf (d.rd (DM_ENGe_TTB_LO_ADDR k) * 512 + d.rd (DM_ENGe_TTB_HI_ADDR k) * 2 ^ 32 + 8 * t) = 2) ∧ (areaOf a = 2) ∧ (d.routeWait (niOfReq k) = none) :=
  ⟨2, 5, 0x20081060, [], [8, 0x20081100, 0, 0x2000, 0, 64, 0, 0], { setRegs [(PN_CTRL, 0), (DM_ENGe_CFG 2, 1), (DM_ENGe_TTB_LO 2, 0x20081000), (PC_DOMUP0, 0xFFFFFFFF), (PC_DOMUP0 + 4, 0xFFFFFFFF), (PC_DOMUP0 + 8, 0xFFFFFFFF), (PC_DOMUP0 + 12, 0xFFFFFFFF)] Dev.reset with now := 5000, net := { Net.reset with queue := [(2, [5])] }, mem := [(537399336, 96), (537399337, 16), (537399338, 8), (537399339, 32), (537399392, 8), (537399397, 17), (537399398, 8), (537399399, 32), (537399405, 32), (537399412, 64)] }, by decide +kernel⟩

theorem test_meets_DmaEnginesAndPackets_5 : ∃ (k : Fin 4) (d : Dev), (d.dmaQueue k = [] ∨ (tget none d.net.eng k).isSome = true ∨ d.on (DM_ENGe_CFG_EN k) = false) :=
  ⟨2, Dev.reset, by decide⟩

theorem test_meets_DmaEnginesAndPackets_6 : ∃ (k : Fin 4) (x : Xfer) (n : Nat) (d : Dev), (tget none d.net.eng k = some x) ∧ (x.phase = 0) ∧ (x.len ≤ x.prog) ∧ (x.err = none) ∧ (wbit x.w0 2 = false) ∧ (wbit x.w0 3 = true) ∧ (d.rd (DM_ENGe_CNT0_DONE k) = n) ∧ (n < 65535) ∧ (d.schedWait = []) ∧ (d.schedIn.length < 64) ∧ (d.net.stall = false) :=
  ⟨2, { trig := 3, desc := 0x20081000, w0 := 0x1230008, w1 := 0, src := 0x20081100, dst := 0x2000, len := 64, next := 0, prog := 64, dpa := 0, phase := 0, err := none }, 0, { setRegs [] Dev.reset with now := 5000, net := { Net.reset with eng := [(2, some { trig := 3, desc := 0x20081000, w0 := 0x1230008, w1 := 0, src := 0x20081100, dst := 0x2000, len := 64, next := 0, prog := 64, dpa := 0, phase := 0, err := none })] } }, by decide⟩

theorem test_meets_DmaEnginesAndPackets_7 : ∃ (k : Fin 4) (d : Dev), ((tget none d.net.eng k).all (fun x => decide (x.phase ≠ 0 ∨ x.prog < x.len ∨ x.err ≠ none)) = true) :=
  ⟨2, Dev.reset, by decide⟩

theorem test_meets_DmaEnginesAndPackets_8 : ∃ (k : Fin 4) (x : Xfer) (d : Dev), (tget none d.net.eng k = some x) ∧ (x.phase = 1 ∨ x.phase = 2) ∧ (d.net.stall = false) :=
  ⟨2, { trig := 3, desc := 0x20081000, w0 := 0x8, w1 := 0, src := 0x20081100, dst := 0x2000, len := 64, next := 0, prog := 0, dpa := 0, phase := 1, err := none }, { setRegs [] Dev.reset with now := 5000, net := { Net.reset with eng := [(2, some { trig := 3, desc := 0x20081000, w0 := 0x8, w1 := 0, src := 0x20081100, dst := 0x2000, len := 64, next := 0, prog := 0, dpa := 0, phase := 1, err := none })] } }, by decide⟩

theorem test_meets_DmaEnginesAndPackets_9 : ∃ (k : Fin 4) (x : Xfer) (d : Dev), (tget none d.net.eng k = some x) ∧ (x.phase = 3) ∧ (wbit x.w0 15 = false) ∧ (d.net.stall = false) :=
  ⟨2, { trig := 3, desc := 0x20081000, w0 := 0x8, w1 := 0, src := 0x20081100, dst := 0x2000, len := 64, next := 0, prog := 0, dpa := 0, phase := 3, err := none }, { setRegs [] Dev.reset with now := 5000, net := { Net.reset with eng := [(2, some { trig := 3, desc := 0x20081000, w0 := 0x8, w1 := 0, src := 0x20081100, dst := 0x2000, len := 64, next := 0, prog := 0, dpa := 0, phase := 3, err := none })] } }, by decide⟩

theorem test_meets_DmaEnginesAndPackets_10 : ∃ (k : Fin 4) (d : Dev), (tget none d.net.eng k = none) :=
  ⟨2, Dev.reset, by decide⟩

theorem test_meets_DmaEnginesAndPackets_11 : ∃ (i : Fin 40) (p : Packet) (n : Nat) (d : Dev), (d.niClosed i = true) ∧ (d.nextReq i = some p) ∧ (d.net.reqs = [p]) ∧ (d.rd PN_OFFCNT_CNT = n) ∧ (n < 4294967295) ∧ (d.routeWait p.dst = none) :=
  ⟨26, { src := 28, dst := 26, req := 0, write := false, addr := 0x20101000, host := false, len := 8, data := [], status := 0, at_ := 4900, held := false, vc := 2, codes := [], legs := [{ loc := 50, port := 4, enter := 4990, left := none }] }, 0, { setRegs [(PC_DOMUP0, 0)] Dev.reset with now := 5000, net := { Net.reset with reqs := [{ src := 28, dst := 26, req := 0, write := false, addr := 0x20101000, host := false, len := 8, data := [], status := 0, at_ := 4900, held := false, vc := 2, codes := [], legs := [{ loc := 50, port := 4, enter := 4990, left := none }] }] } }, by decide⟩

theorem test_meets_DmaEnginesAndPackets_12 : ∃ (i : Fin 40) (p : Packet) (d : Dev), (d.niClosed i = false) ∧ (i.val < 36 ∨ i.val = 39) ∧ (d.nextReq i = some p) ∧ (d.net.reqs = [p]) ∧ (p.write = true) ∧ ((({ d with net := { d.net with reqs := [] } } : Dev).busWrite p.addr p.data).2.routeWait p.dst = none) :=
  ⟨26, { src := 28, dst := 26, req := 0, write := true, addr := 0x20101000, host := false, len := 1, data := [5], status := 0, at_ := 4900, held := false, vc := 2, codes := [], legs := [{ loc := 50, port := 4, enter := 4990, left := none }] }, { setRegs [(PC_DOMUP0, 0xFFFFFFFF), (PC_DOMUP0 + 4, 0xFFFFFFFF), (PC_DOMUP0 + 8, 0xFFFFFFFF), (PC_DOMUP0 + 12, 0xFFFFFFFF)] Dev.reset with now := 5000, net := { Net.reset with reqs := [{ src := 28, dst := 26, req := 0, write := true, addr := 0x20101000, host := false, len := 1, data := [5], status := 0, at_ := 4900, held := false, vc := 2, codes := [], legs := [{ loc := 50, port := 4, enter := 4990, left := none }] }] } }, by decide +kernel⟩

theorem test_meets_DmaEnginesAndPackets_13 : ∃ (i : Fin 40) (p : Packet) (d : Dev), (d.niClosed i = false) ∧ (i.val < 36 ∨ i.val = 39) ∧ (d.nextReq i = some p) ∧ (d.net.reqs = [p]) ∧ (p.write = false) ∧ ((({ d with net := { d.net with reqs := [] } } : Dev).busRead p.addr p.len).2.routeWait p.dst = none) :=
  ⟨26, { src := 28, dst := 26, req := 0, write := false, addr := 0x20101000, host := false, len := 8, data := [], status := 0, at_ := 4900, held := false, vc := 2, codes := [], legs := [{ loc := 50, port := 4, enter := 4990, left := none }] }, { setRegs [(PC_DOMUP0, 0xFFFFFFFF), (PC_DOMUP0 + 4, 0xFFFFFFFF), (PC_DOMUP0 + 8, 0xFFFFFFFF), (PC_DOMUP0 + 12, 0xFFFFFFFF)] Dev.reset with now := 5000, net := { Net.reset with reqs := [{ src := 28, dst := 26, req := 0, write := false, addr := 0x20101000, host := false, len := 8, data := [], status := 0, at_ := 4900, held := false, vc := 2, codes := [], legs := [{ loc := 50, port := 4, enter := 4990, left := none }] }] } }, by decide +kernel⟩

theorem test_meets_DmaEnginesAndPackets_14 : ∃ (i : Fin 40) (d : Dev), (d.nextReq i = none) :=
  ⟨26, Dev.reset, by decide⟩

theorem test_meets_DmaEnginesAndPackets_15 : ∃ (i : Fin 40) (p : Packet) (k : Fin 4) (x : Xfer) (d : Dev), (d.net.resps = [p]) ∧ (p.there d.now = true) ∧ (d.net.stall = false) ∧ (d.net.reqs.all (fun q => decide (q.src ≠ i.val) || !q.held) = true) ∧ (p.src = i.val) ∧ (p.req = k.val) ∧ (tget none d.net.eng k = some x) ∧ (x.err = none) ∧ (p.status = 0) ∧ (p.write = false) ∧ (wbit x.w0 13 = false) ∧ (d.routeWait (niOfReq k) = none) ∧ (d.outstandingOf (niOfReq k) < 64) ∧ (d.on PN_CTRL_STATEN = false) :=
  ⟨30, { src := 30, dst := 26, req := 2, write := false, addr := 0x20101000, host := false, len := 8, data := [1,2,3,4,5,6,7,8], status := 0, at_ := 4900, held := false, vc := 1, codes := [], legs := [{ loc := 54, port := 4, enter := 4990, left := none }] }, 2, { ({ trig := 3, desc := 0x20081000, w0 := 0x8, w1 := 0, src := 0x20081100, dst := 0x2000, len := 64, next := 0, prog := 0, dpa := 0, phase := 1, err := none } : Xfer) with dpa := 0x20101000 }, { setRegs [(PN_CTRL, 0)] Dev.reset with now := 5000, net := { Net.reset with resps := [{ src := 30, dst := 26, req := 2, write := false, addr := 0x20101000, host := false, len := 8, data := [1,2,3,4,5,6,7,8], status := 0, at_ := 4900, held := false, vc := 1, codes := [], legs := [{ loc := 54, port := 4, enter := 4990, left := none }] }], eng := [(2, some { ({ trig := 3, desc := 0x20081000, w0 := 0x8, w1 := 0, src := 0x20081100, dst := 0x2000, len := 64, next := 0, prog := 0, dpa := 0, phase := 1, err := none } : Xfer) with dpa := 0x20101000 })] } }, by decide⟩

theorem test_meets_DmaEnginesAndPackets_16 : ∃ (i : Fin 40) (p : Packet) (k : Fin 4) (x : Xfer) (n m : Nat) (d : Dev), (d.net.resps = [p]) ∧ (p.there d.now = true) ∧ (d.net.stall = false) ∧ (d.net.reqs.all (fun q => decide (q.src ≠ i.val) || !q.held) = true) ∧ (p.src = i.val) ∧ (p.req = k.val) ∧ (tget none d.net.eng k = some x) ∧ (x.err = none) ∧ (p.status = 0) ∧ (p.write = true) ∧ (x.len ≤ x.prog + p.len) ∧ (d.on PN_CTRL_STATEN = true) ∧ (p.headAt = p.at_ + n) ∧ (n < 65536) ∧ (latencyBin n = m) ∧ ((d.reg (PN_NIi_HISTk i m)).toNat < 4294967295) :=
  ⟨30, { src := 30, dst := 26, req := 2, write := true, addr := 0x20101000, host := false, len := 8, data := [], status := 0, at_ := 4900, held := false, vc := 1, codes := [], legs := [{ loc := 54, port := 4, enter := 5000, left := none }] }, 2, { trig := 3, desc := 0x20081000, w0 := 0x8, w1 := 0, src := 0x20081100, dst := 0x2000, len := 64, next := 0, prog := 56, dpa := 0, phase := 2, err := none }, 100, 2, { setRegs [(PN_CTRL, 3)] Dev.reset with now := 5000, net := { Net.reset with resps := [{ src := 30, dst := 26, req := 2, write := true, addr := 0x20101000, host := false, len := 8, data := [], status := 0, at_ := 4900, held := false, vc := 1, codes := [], legs := [{ loc := 54, port := 4, enter := 5000, left := none }] }], eng := [(2, some { trig := 3, desc := 0x20081000, w0 := 0x8, w1 := 0, src := 0x20081100, dst := 0x2000, len := 64, next := 0, prog := 56, dpa := 0, phase := 2, err := none })] } }, by decide⟩

theorem test_meets_DmaEnginesAndPackets_17 : ∃ (i : Fin 40) (p : Packet) (k : Fin 4) (x : Xfer) (d : Dev), (d.net.resps = [p]) ∧ (p.there d.now = true) ∧ (d.net.stall = false) ∧ (d.net.reqs.all (fun q => decide (q.src ≠ i.val) || !q.held) = true) ∧ (p.src = i.val) ∧ (p.req = k.val) ∧ (tget none d.net.eng k = some x) ∧ (x.err = none) ∧ (p.status ≠ 0) ∧ (p.status < 16) ∧ (wbit x.w0 15 = false) :=
  ⟨30, { src := 30, dst := 26, req := 2, write := false, addr := 0x20101000, host := false, len := 8, data := [], status := 3, at_ := 4900, held := false, vc := 1, codes := [], legs := [{ loc := 54, port := 4, enter := 4990, left := none }] }, 2, { trig := 3, desc := 0x20081000, w0 := 0x8, w1 := 0, src := 0x20081100, dst := 0x2000, len := 64, next := 0, prog := 0, dpa := 0, phase := 1, err := none }, { setRegs [] Dev.reset with now := 5000, net := { Net.reset with resps := [{ src := 30, dst := 26, req := 2, write := false, addr := 0x20101000, host := false, len := 8, data := [], status := 3, at_ := 4900, held := false, vc := 1, codes := [], legs := [{ loc := 54, port := 4, enter := 4990, left := none }] }], eng := [(2, some { trig := 3, desc := 0x20081000, w0 := 0x8, w1 := 0, src := 0x20081100, dst := 0x2000, len := 64, next := 0, prog := 0, dpa := 0, phase := 1, err := none })] } }, by decide⟩

theorem test_meets_DmaEnginesAndPackets_18 : ∃ (k : Fin 4) (p : Packet) (x : Xfer) (n : Nat) (d : Dev), (d.net.reqs = [p]) ∧ (p.req = k.val) ∧ (p.host = true) ∧ (p.write = false) ∧ (p.held = false) ∧ (p.at_ + 800000 * max 1 (d.rd HL_CPLTO_MS) ≤ d.now) ∧ (tget none d.net.eng k = some x) ∧ (x.err = none) ∧ (wbit x.w0 15 = false) ∧ (d.rd HL_CNT1_CPLTO = n) ∧ (n < 65535) :=
  ⟨2, { src := 30, dst := 26, req := 2, write := false, addr := 0x20101000, host := true, len := 8, data := [], status := 0, at_ := 100, held := false, vc := 0, codes := [], legs := [] }, { trig := 3, desc := 0x20081000, w0 := 0x1008, w1 := 0, src := 0x20081100, dst := 0x2000, len := 64, next := 0, prog := 0, dpa := 0, phase := 1, err := none }, 0, { setRegs [(HL_CPLTO, 1)] Dev.reset with now := 900000, net := { Net.reset with reqs := [{ src := 30, dst := 26, req := 2, write := false, addr := 0x20101000, host := true, len := 8, data := [], status := 0, at_ := 100, held := false, vc := 0, codes := [], legs := [] }], eng := [(2, some { trig := 3, desc := 0x20081000, w0 := 0x1008, w1 := 0, src := 0x20081100, dst := 0x2000, len := 64, next := 0, prog := 0, dpa := 0, phase := 1, err := none })] } }, by decide⟩

theorem test_meets_ScrubbersAndBuckets_1 : ∃ (w : Fin 101) (a : Nat) (d : Dev), (d.integ.tmr = []) ∧ (d.on MI_CTRL_BGEN = true) ∧ (d.walkUp w = true) ∧ (tget 0 d.integ.walkAt w + d.walkInt w ≤ d.now) ∧ ((walkMem w).1 + (walkMem w).2.1 * tget 0 d.integ.walkPos w = a) ∧ (d.hasEntry a = false) ∧ (d.wordErr a = 0) ∧ (tget 0 d.integ.walkPos w + 1 < (walkMem w).2.2) :=
  ⟨97, 0x20000018, { setRegs [(PC_DOMUP0, 0xFFFFFFFF), (PC_DOMUP0 + 4, 0xFFFFFFFF), (PC_DOMUP0 + 8, 0xFFFFFFFF), (PC_DOMUP0 + 12, 0xF), (MI_CTRL, 3)] Dev.reset with now := 200000000, integ := { Integ.reset with walkPos := [(97, 3)] } }, by decide⟩

theorem test_meets_ScrubbersAndBuckets_2 : ∃ (w : Fin 101) (a n : Nat) (d : Dev), (w.val = 97) ∧ (d.integ.tmr = []) ∧ (d.on MI_CTRL_BGEN = true) ∧ (d.walkUp w = true) ∧ (tget 0 d.integ.walkAt w + d.walkInt w ≤ d.now) ∧ ((walkMem w).1 + (walkMem w).2.1 * tget 0 d.integ.walkPos w = a) ∧ (d.hasEntry a = false) ∧ (d.wordErr a = 0) ∧ (tget 0 d.integ.walkPos w = 0xFFFF) ∧ (d.rd MI_PASS1_CSR = n) ∧ (n < 65535) :=
  ⟨97, 0x2007FFF8, 0, { setRegs [(PC_DOMUP0, 0xFFFFFFFF), (PC_DOMUP0 + 4, 0xFFFFFFFF), (PC_DOMUP0 + 8, 0xFFFFFFFF), (PC_DOMUP0 + 12, 0xF), (MI_CTRL, 3)] Dev.reset with now := 200000000, integ := { Integ.reset with walkPos := [(97, 0xFFFF)] } }, by decide⟩

theorem test_meets_ScrubbersAndBuckets_3 : ∃ (w : Fin 101) (a r : Nat) (d : Dev), (d.integ.tmr = []) ∧ (d.on MI_CTRL_BGEN = true) ∧ (d.walkUp w = true) ∧ (tget 0 d.integ.walkAt w + d.walkInt w ≤ d.now) ∧ ((walkMem w).1 + (walkMem w).2.1 * tget 0 d.integ.walkPos w = a) ∧ (d.hasEntry a = false) ∧ (d.wordErr a = 1) ∧ (regionOf a = some r) ∧ ((d.bucket r).count + 1 < d.rd (MI_LBk_THRESH (regionClass r))) ∧ (d.now ≤ (d.bucket r).leak + 800000 * max 1 (d.rd (MI_LBk_LEAKP (regionClass r)))) ∧ ((∀ k : Fin 4, d.on (MI_FLIPk_CTL_ARM k) = false)) ∧ (d.integ.flipUsed = []) :=
  ⟨97, 0x20000018, 112, { setRegs [(PC_DOMUP0, 0xFFFFFFFF), (PC_DOMUP0 + 4, 0xFFFFFFFF), (PC_DOMUP0 + 8, 0xFFFFFFFF), (PC_DOMUP0 + 12, 0xF), (MI_CTRL, 3), (MI_LBk 2, 0x640010)] Dev.reset with now := 200000000, integ := { Integ.reset with walkPos := [(97, 3)], ecc := [(0x20000018, 4)], buckets := [(112, { count := 1, ovfc := 0, leak := 199999999 })] } }, by decide⟩

theorem test_meets_ScrubbersAndBuckets_4 : ∃ (w : Fin 101) (a r : Nat) (d : Dev), (d.integ.tmr = []) ∧ (d.on MI_CTRL_BGEN = true) ∧ (d.walkUp w = true) ∧ (tget 0 d.integ.walkAt w + d.walkInt w ≤ d.now) ∧ ((walkMem w).1 + (walkMem w).2.1 * tget 0 d.integ.walkPos w = a) ∧ (d.hasEntry a = false) ∧ (d.wordErr a = 2) ∧ (regionOf a = some r) ∧ (d.on MI_UELOG_HI_VALID = false) :=
  ⟨97, 0x20000018, 112, { setRegs [(PC_DOMUP0, 0xFFFFFFFF), (PC_DOMUP0 + 4, 0xFFFFFFFF), (PC_DOMUP0 + 8, 0xFFFFFFFF), (PC_DOMUP0 + 12, 0xF), (MI_CTRL, 3)] Dev.reset with now := 200000000, integ := { Integ.reset with walkPos := [(97, 3)], ecc := [(0x20000018, 5)] } }, by decide⟩

theorem test_meets_ScrubbersAndBuckets_5 : ∃ (w : Fin 101) (d : Dev), (d.integ.tmr = []) ∧ (d.on MI_CTRL_BGEN = false ∨ d.walkUp w = false ∨ d.now < tget 0 d.integ.walkAt w + d.walkInt w) :=
  ⟨97, Dev.reset, by decide⟩

theorem test_meets_ScrubbersAndBuckets_6 : ∃ (d : Dev), (d.integ.tmr = []) ∧ (d.on MI_CTRL_CFGEN = true) ∧ (d.integ.cfgAt + max 1 (d.rd MI_CFG_INT_INT) ≤ d.now) ∧ (d.integ.ecc = []) ∧ (d.integ.crc = []) ∧ (d.integ.cfgPos < 262143) :=
  ⟨{ setRegs [(MI_CTRL, 3)] Dev.reset with now := 200000000, integ := { Integ.reset with cfgPos := 0x1234 } }, by decide⟩

theorem test_meets_ScrubbersAndBuckets_7 : ∃ (k : Nat) (d : Dev), (d.integ.tmr = []) ∧ (d.on MI_CTRL_CFGEN = true) ∧ (d.integ.cfgAt + max 1 (d.rd MI_CFG_INT_INT) ≤ d.now) ∧ (d.integ.cfgPos = 196608 + k) ∧ (k < 65535) ∧ (d.wordErr (0x41000000 + 8 * k) = 2) ∧ ((d.entry (k / 2)).isSome = true) :=
  ⟨10, { setRegs [(MI_CTRL, 3)] Dev.reset with now := 200000000, integ := { Integ.reset with cfgPos := 196618, ecc := [(0x41000050, 3)] }, ang := { Angle.reset with entries := [(5, some { w0 := 0, w1 := 0, w2 := 0, w3 := 0 })], lists := [(0, [5])] } }, by decide⟩

theorem test_meets_ScrubbersAndBuckets_8 : ∃ (n f : Nat) (d : Dev), (d.integ.tmr = []) ∧ (d.on MI_CTRL_CFGEN = true) ∧ (d.integ.cfgAt + max 1 (d.rd MI_CFG_INT_INT) ≤ d.now) ∧ (n < 96) ∧ (f < 16) ∧ (d.integ.cfgPos = n * 512 + f * 32) ∧ (d.wordErr ((frameWords (d.isle n).copy n f).getD 0 0) = 2) ∧ (d.setCommitted n = false) ∧ (d.tasksOf n = []) ∧ (d.ev.repairs = []) :=
  ⟨3, 2, { setRegs [(MI_CTRL, 3)] Dev.reset with now := 200000000, integ := { Integ.reset with cfgPos := 1600, ecc := [(0x30003200, 3)] } }, by decide⟩

theorem test_meets_ScrubbersAndBuckets_9 : ∃ (d : Dev), (d.integ.tmr = []) ∧ (d.on MI_CTRL_CFGEN = false ∨ d.now < d.integ.cfgAt + max 1 (d.rd MI_CFG_INT_INT)) :=
  ⟨Dev.reset, by decide⟩

theorem test_meets_ScrubbersAndBuckets_10 : ∃ (b : Fin 112) (w : BitVec 40) (x : MergeEnt) (n : Nat) (d : Dev), ((d.merged b).find? (fun q => q.addr = w.toNat) = some x) ∧ (x.at_ + max 1 (d.rd MI_MBCFG_IDLE) ≤ d.now) ∧ (b.val = 16 + n) ∧ (n < 96) ∧ (0x10000000 + n * 0x20000 ≤ w.toNat) ∧ (w.toNat < 0x10000000 + (n + 1) * 0x20000) ∧ (d.on (MI_FLIPk_CTL_ARM 1) = false) ∧ (d.integ.flipUsed = []) :=
  ⟨18, 0x10040008, { addr := 0x10040008, written := 3, at_ := 5 }, 2, { setRegs [] Dev.reset with now := 200000000, integ := { Integ.reset with merge := [(18, [{ addr := 0x10040008, written := 3, at_ := 5 }])] } }, by decide⟩

theorem test_meets_ScrubbersAndBuckets_11 : ∃ (b : Fin 112) (w : BitVec 40) (d : Dev), ((d.merged b).find? (fun q => q.addr = w.toNat) = none) :=
  ⟨18, 0x10040008, Dev.reset, by decide⟩

theorem test_meets_ScrubbersAndBuckets_12 : ∃ (r : Fin 213) (d : Dev), (d.integ.tmr = []) ∧ ((d.bucket r).leak + 800000 * max 1 (d.rd (MI_LBk_LEAKP (regionClass r))) < d.now) :=
  ⟨17, { setRegs [(MI_LBk 1, 0x10010)] Dev.reset with now := 200000000, integ := { Integ.reset with buckets := [(17, { count := 5, ovfc := 1, leak := 0 })] } }, by decide⟩

theorem test_meets_ScrubbersAndBuckets_13 : ∃ (r : Fin 213) (d : Dev), (d.integ.tmr = []) ∧ (d.now ≤ (d.bucket r).leak + 800000 * max 1 (d.rd (MI_LBk_LEAKP (regionClass r)))) :=
  ⟨17, { setRegs [] Dev.reset with now := 10, integ := { Integ.reset with cfgPos := 0 } }, by decide⟩

theorem test_meets_RepairsAndFaultClasses_1 : ∃ (r : Repair) (rest : List Repair) (d : Dev), (d.ev.repairs = r :: rest) ∧ (r.kind = 0) ∧ (r.unit < 96) ∧ (r.at_ + 16 ≤ d.now) ∧ (d.tasksOf r.unit = []) :=
  ⟨{ unit := 5, kind := 0, source := 0x20, what := 0, at_ := 100 }, [], { setRegs [(IS_STAT 5, 0x80000)] Dev.reset with now := 9000000000, ev := { Events.reset with repairs := [{ unit := 5, kind := 0, source := 0x20, what := 0, at_ := 100 }] }, isles := [(5, { Isle.reset with gateFault := true })] }, by decide⟩

theorem test_meets_RepairsAndFaultClasses_2 : ∃ (r : Repair) (rest : List Repair) (n : Nat) (d : Dev), (d.ev.repairs = r :: rest) ∧ (r.kind = 1) ∧ (r.unit < 96) ∧ (r.at_ + 16 ≤ d.now) ∧ (d.tasksOf r.unit = []) ∧ (r.what = 0x10000000 + r.unit * 0x20000 + 4 * n) ∧ (n < 0x8000) ∧ (d.hasEntry r.what = false) ∧ (d.on (MI_FLIPk_CTL_ARM 1) = false) ∧ (d.integ.flipUsed = []) :=
  ⟨{ unit := 5, kind := 1, source := 0x22, what := 0x100A0010, at_ := 100 }, [], 4, { setRegs [] Dev.reset with now := 9000000000, ev := { Events.reset with repairs := [{ unit := 5, kind := 1, source := 0x22, what := 0x100A0010, at_ := 100 }] }, isles := [(5, { Isle.reset with gateFault := true })], mem := [(0x100A0011, 7)], integ := { Integ.reset with ecc := [(0x100A0010, 3)] } }, by decide⟩

theorem test_meets_RepairsAndFaultClasses_3 : ∃ (d : Dev), ((∀ r ∈ d.ev.repairs, 2 ≤ r.kind)) :=
  ⟨{ setRegs [] Dev.reset with now := 9000000000, ev := { Events.reset with repairs := [{ unit := 5, kind := 2, source := 0x23, what := 0, at_ := 100 }] } }, by decide⟩

theorem test_meets_RepairsAndFaultClasses_4 : ∃ (r : Repair) (rest : List Repair) (d : Dev), (d.ev.repairs = r :: rest) ∧ (r.kind = 2) ∧ (r.what < 32) ∧ (r.unit < 96) ∧ (d.tasksOf r.unit = []) ∧ (d.integ.ecc = []) ∧ (d.integ.merge = []) ∧ (d.integ.flipUsed = []) ∧ (d.on (MI_FLIPk_CTL_ARM 3) = false) ∧ (d.routeWait 39 = none) ∧ (d.net.stall = false) :=
  ⟨{ unit := 5, kind := 2, source := 0x23, what := 2, at_ := 100 }, [], { setRegs [(MI_FLIPk_CTL 3, 0)] Dev.reset with now := 9000000000, ev := { Events.reset with repairs := [{ unit := 5, kind := 2, source := 0x23, what := 2, at_ := 100 }] }, mem := [(0x45207, 9)], isles := [(5, { Isle.reset with gateFault := true, ctx := [(33, 77)] })] }, by decide⟩

theorem test_meets_RepairsAndFaultClasses_5 : ∃ (r : Repair) (rest : List Repair) (d : Dev), (d.ev.repairs = r :: rest) ∧ (r.kind = 2) ∧ (r.unit < 96) ∧ (d.routeWait 39 = none) ∧ (d.net.stall = false) :=
  ⟨{ unit := 5, kind := 2, source := 0x23, what := 2, at_ := 100 }, [], { setRegs [] Dev.reset with now := 9000000000, ev := { Events.reset with repairs := [{ unit := 5, kind := 2, source := 0x23, what := 2, at_ := 100 }] } }, by decide⟩

theorem test_meets_RepairsAndFaultClasses_6 : ∃ (r : Repair) (rest : List Repair) (c i : Nat) (d : Dev), (d.ev.repairs = r :: rest) ∧ (r.kind = 3) ∧ (4 ≤ c) ∧ (c < 7) ∧ (i < hbCount c) ∧ (r.unit = hbUnit c i) ∧ (d.hb.refd = []) ∧ (d.net.stall = false) :=
  ⟨{ unit := 0x10405, kind := 3, source := 0x26, what := 0, at_ := 100 }, [], 4, 5, { setRegs [] Dev.reset with now := 9000000000, ev := { Events.reset with repairs := [{ unit := 0x10405, kind := 3, source := 0x26, what := 0, at_ := 100 }] }, hb := { Harb.reset with pwm := [(5, { PwmPair.reset with repair := true })] } }, by decide⟩

theorem test_meets_RepairsAndFaultClasses_7 : ∃ (r : Repair) (rest : List Repair) (c i : Nat) (d : Dev), (d.ev.repairs = r :: rest) ∧ (r.kind = 3) ∧ (c < 7) ∧ (i < hbCount c) ∧ (r.unit = hbUnit c i) ∧ (d.routeWait 39 = none) ∧ (d.net.stall = false) :=
  ⟨{ unit := 0x10405, kind := 3, source := 0x26, what := 0, at_ := 100 }, [], 4, 5, { setRegs [] Dev.reset with now := 9000000000, ev := { Events.reset with repairs := [{ unit := 0x10405, kind := 3, source := 0x26, what := 0, at_ := 100 }] }, hb := { Harb.reset with pwm := [(5, { PwmPair.reset with repair := true })] } }, by decide⟩

theorem test_meets_RepairsAndFaultClasses_8 : ∃ (a : Nat) (d : Dev), (d.ev.f2Open = some a) ∧ (a + 1600000000 ≤ d.now) :=
  ⟨100, { setRegs [] Dev.reset with now := 9000000000, ev := { Events.reset with f2Open := some 100 } }, by decide⟩

theorem test_meets_RepairsAndFaultClasses_9 : ∃ (a : Nat) (d : Dev), (d.ev.f2Open = some a) ∧ (d.now < a + 1600000000) :=
  ⟨8999999999, { setRegs [] Dev.reset with now := 9000000000, ev := { Events.reset with f2Open := some 8999999999 } }, by decide⟩

theorem test_meets_RepairsAndFaultClasses_10 : ∃ (d : Dev), (d.ev.f2Open = none) :=
  ⟨Dev.reset, by decide⟩

theorem test_meets_RepairsAndFaultClasses_11 : ∃ (s : BitVec 8) (u : BitVec 16) (x : F0Win) (d : Dev), (d.ev.f0 = [x]) ∧ (x.source = s) ∧ (x.unit = u) ∧ (x.start + 80000000 ≤ d.now) ∧ (x.count ≠ 0) ∧ (wbit d.ev.mask 6 = true) ∧ (d.ev.queue.length < 64) ∧ (d.on HL_CTRL_CONEVT = false) :=
  ⟨8, 5, { source := 8, unit := 5, start := 100, count := 3, frac := 7 }, { setRegs [(HL_CTRL, 0)] Dev.reset with now := 9000000000, ev := { Events.reset with f0 := [{ source := 8, unit := 5, start := 100, count := 3, frac := 7 }] } }, by decide⟩

theorem test_meets_RepairsAndFaultClasses_12 : ∃ (s : BitVec 8) (u : BitVec 16) (x : F0Win) (d : Dev), (d.ev.f0 = [x]) ∧ (x.source = s) ∧ (x.unit = u) ∧ (x.start + 80000000 ≤ d.now) ∧ (x.count = 0) :=
  ⟨8, 5, { source := 8, unit := 5, start := 100, count := 0, frac := 7 }, { setRegs [] Dev.reset with now := 9000000000, ev := { Events.reset with f0 := [{ source := 8, unit := 5, start := 100, count := 0, frac := 7 }] } }, by decide⟩

theorem test_meets_DramChannels_1 : ∃ (c : Fin 2) (v : BitVec 32) (d : Dev), (d.on (DC_CHc_CFG_EN c) = true) :=
  ⟨0, 1, { setRegs [(PC_DOMUP0 + 12, 0xFF), (DC_CHc_CFG 0, 0x381), (DC_CHc_STAT 0, 1)] Dev.reset with now := 100000, dram := [(0, { DChan.reset with refs := 0 })] }, by decide⟩

theorem test_meets_DramChannels_2 : ∃ (c : Fin 2) (v : BitVec 32) (d : Dev), (d.on (DC_CHc_CFG_EN c) = false) ∧ (wbit v 0 = true) ∧ (d.rd (DC_CHc_STAT_RETIRED c) = 0) :=
  ⟨0, 0x29, { setRegs [(PC_DOMUP0 + 12, 0xFF)] Dev.reset with now := 100000, dram := [(0, { DChan.reset with refs := 0 })] }, by decide⟩

theorem test_meets_DramChannels_3 : ∃ (c : Fin 2) (d : Dev), ((d.chan c).training = true) ∧ (d.domUp (100 + c) = true) :=
  ⟨0, { setRegs [(PC_DOMUP0 + 12, 0xFF), (DC_CHc_CFG 0, 1)] Dev.reset with now := 100000, dram := [(0, { DChan.reset with training := true })] }, by decide⟩

theorem test_meets_DramChannels_4 : ∃ (c : Fin 2) (d : Dev), ((d.chan c).training = false) :=
  ⟨0, Dev.reset, by decide⟩

theorem test_meets_DramChannels_5 : ∃ (c : Fin 2) (q : DReq) (d : Dev), (d.dramReady c = true) ∧ (d.on (DC_CHc_STAT_TRAIN c) = false) ∧ (d.pickReq c = some q) ∧ (d.memStatus q.pkt.addr = 0) ∧ (areaOf q.pkt.addr = 9) ∧ (d.integ.ecc = []) ∧ (((d.chan c).rank (d.servedBy c (d.reqLocal q))).post = 0) ∧ (d.rd (DC_CHc_REF_POST c) ≠ 0) ∧ (((d.chan c).bank (d.servedBy c (d.reqLocal q)) (d.bankOf c (d.reqLocal q))).row = some (d.rowOf c (d.reqLocal q))) ∧ (d.rd (DC_CHc_PG_IDLE c) ≠ 0) ∧ (d.routeWait q.pkt.dst = none) ∧ (q.pkt.write = false) :=
  ⟨0, { pkt := { src := 3, dst := 36, req := 0, write := false, addr := 0x1000000040, host := false, len := 8, data := [], status := 0, at_ := 4900, held := false, vc := 0, codes := [], legs := [] }, at_ := 99000 }, { setRegs [(PC_DOMUP0 + 12, 0xFF), (DC_CHc_CFG 0, 0x381), (DC_CHc_STAT 0, 1), (DC_CHc_REF 0, 0x80100), (DC_CHc_PG 0, 10)] Dev.reset with now := 100000, dram := [(0, { DChan.reset with queue := [{ pkt := { src := 3, dst := 36, req := 0, write := false, addr := 0x1000000040, host := false, len := 8, data := [], status := 0, at_ := 4900, held := false, vc := 0, codes := [], legs := [] }, at_ := 99000 }], banks := [(4, { DBank.reset with row := some 0 })] })], mem := [(0x1000000041, 5)] }, by decide⟩

theorem test_meets_DramChannels_6 : ∃ (c : Fin 2) (q : DReq) (d : Dev), (d.dramReady c = true) ∧ (d.on (DC_CHc_STAT_TRAIN c) = false) ∧ (d.pickReq c = some q) ∧ (d.memStatus q.pkt.addr = 0) ∧ (areaOf q.pkt.addr = 9) ∧ (d.integ.ecc = []) ∧ (((d.chan c).rank (d.servedBy c (d.reqLocal q))).post = 0) ∧ (d.rd (DC_CHc_REF_POST c) ≠ 0) ∧ (((d.chan c).bank (d.servedBy c (d.reqLocal q)) (d.bankOf c (d.reqLocal q))).row = some (d.rowOf c (d.reqLocal q))) ∧ (d.rd (DC_CHc_PG_IDLE c) ≠ 0) ∧ (d.routeWait q.pkt.dst = none) ∧ (q.pkt.write = true) :=
  ⟨0, { pkt := { src := 3, dst := 36, req := 0, write := true, addr := 0x1000000040, host := false, len := 2, data := [7, 9], status := 0, at_ := 4900, held := false, vc := 0, codes := [], legs := [] }, at_ := 99000 }, { setRegs [(PC_DOMUP0 + 12, 0xFF), (DC_CHc_CFG 0, 0x381), (DC_CHc_STAT 0, 1), (DC_CHc_REF 0, 0x80100), (DC_CHc_PG 0, 10)] Dev.reset with now := 100000, dram := [(0, { DChan.reset with queue := [{ pkt := { src := 3, dst := 36, req := 0, write := true, addr := 0x1000000040, host := false, len := 2, data := [7, 9], status := 0, at_ := 4900, held := false, vc := 0, codes := [], legs := [] }, at_ := 99000 }], banks := [(4, { DBank.reset with row := some 0 })] })] }, by decide⟩

theorem test_meets_DramChannels_7 : ∃ (c : Fin 2) (d : Dev), (d.dramReady c = false ∨ d.on (DC_CHc_STAT_TRAIN c) = true ∨ d.pickReq c = none) :=
  ⟨0, Dev.reset, by decide⟩

theorem test_meets_DramChannels_8 : ∃ (c : Fin 2) (s : Fin 4) (b : Fin 16) (r : Nat) (d : Dev), (((d.chan c).bank s b).row = some r) ∧ (d.dclkPast c ((d.chan c).bank s b).used (d.rd (DC_CHc_PG_IDLE c) + 1) = true) ∧ (d.rowWanted c s b r = false) :=
  ⟨0, 1, 4, 7, { setRegs [(PC_DOMUP0 + 12, 0xFF), (DC_CHc_CFG 0, 0x381), (DC_CHc_STAT 0, 1), (DC_CHc_PG 0, 10)] Dev.reset with now := 100000, dram := [(0, { DChan.reset with banks := [(20, { DBank.reset with row := some 7 })] })] }, by decide⟩

theorem test_meets_DramChannels_9 : ∃ (c : Fin 2) (s : Fin 4) (b : Fin 16) (d : Dev), (((d.chan c).bank s b).row = none) :=
  ⟨0, 1, 4, Dev.reset, by decide⟩

theorem test_meets_DramChannels_10 : ∃ (c : Fin 2) (s : Fin 4) (d : Dev), (d.dramReady c = true) ∧ ((d.chipSels c).contains s.val = true) ∧ (d.dclkPast c ((d.chan c).rank s).refAt (d.trefi c s) = true) ∧ (d.rankBusy c s = true) ∧ (((d.chan c).rank s).post < min 8 (d.rd (DC_CHc_REF_POST c))) :=
  ⟨0, 0, { setRegs [(PC_DOMUP0 + 12, 0xFF), (DC_CHc_CFG 0, 0x381), (DC_CHc_STAT 0, 1), (DC_CHc_REF 0, 0x80100)] Dev.reset with now := 100000, dram := [(0, { DChan.reset with queue := [{ pkt := { src := 3, dst := 36, req := 0, write := false, addr := 0x1000000040, host := false, len := 8, data := [], status := 0, at_ := 4900, held := false, vc := 0, codes := [], legs := [] }, at_ := 99000 }] })] }, by decide⟩

theorem test_meets_DramChannels_11 : ∃ (c : Fin 2) (s : Fin 4) (d : Dev), (d.dramReady c = true) ∧ ((d.chipSels c).contains s.val = true) ∧ (d.dclkPast c ((d.chan c).rank s).refAt (d.trefi c s) = true) ∧ (d.rankBusy c s = false) ∧ ((d.chan c).refs + ((d.chan c).rank s).post + 1 < max 1 (d.rd DC_RH_CFG_RHWIN)) :=
  ⟨0, 0, { setRegs [(PC_DOMUP0 + 12, 0xFF), (DC_CHc_CFG 0, 0x381), (DC_CHc_STAT 0, 1), (DC_CHc_REF 0, 0x80100), (DC_RH_CFG, 0x20001000)] Dev.reset with now := 100000, dram := [(0, { DChan.reset with banks := [(4, { DBank.reset with row := some 7 })] })] }, by decide⟩

theorem test_meets_DramChannels_12 : ∃ (c : Fin 2) (d : Dev), (d.dramReady c = true) ∧ ((d.chan c).pollAt + 800000 * max 1 (d.rd DC_TEMP_PER) ≤ d.now) :=
  ⟨0, { setRegs [(PC_DOMUP0 + 12, 0xFF), (DC_CHc_CFG 0, 0x381), (DC_CHc_STAT 0, 1), (DC_TEMP, 1)] Dev.reset with now := 9000000, dram := [(0, { DChan.reset with cool := 1 })] }, by decide⟩

theorem test_meets_DramChannels_13 : ∃ (c : Fin 2) (d : Dev), (d.dramReady c = true) ∧ ((d.chan c).pollAt + 800000 * max 1 (d.rd DC_TEMP_PER) ≤ d.now) :=
  ⟨0, { setRegs [(PC_DOMUP0 + 12, 0xFF), (DC_CHc_CFG 0, 0x381), (DC_CHc_STAT 0, 1), (DC_TEMP, 1)] Dev.reset with now := 9000000, dram := [(0, { DChan.reset with cool := 1 })] }, by decide⟩

theorem test_meets_DramChannels_14 : ∃ (c : Fin 2) (s : Fin 4) (d : Dev), (d.dramReady c = true) ∧ (d.rd (DC_CHc_PG_PDT c) ≠ 0) ∧ ((d.chipSels c).contains s.val = true) ∧ (d.rankBusy c s = false) ∧ (d.dclkPast c ((d.chan c).rank s).used (d.rd (DC_CHc_PG_PDT c) + 1) = true) :=
  ⟨0, 0, { setRegs [(PC_DOMUP0 + 12, 0xFF), (DC_CHc_CFG 0, 0x381), (DC_CHc_STAT 0, 1), (DC_CHc_PG 0, 0x100010)] Dev.reset with now := 100000, dram := [(0, { DChan.reset with refs := 0 })] }, by decide⟩

theorem test_meets_DramChannels_15 : ∃ (c : Fin 2) (s : Fin 4) (d : Dev), (d.rd (DC_CHc_PG_PDT c) = 0 ∨ d.rankBusy c s = true) :=
  ⟨0, 0, { setRegs [(PC_DOMUP0 + 12, 0xFF), (DC_CHc_CFG 0, 0x381), (DC_CHc_STAT 0, 1), (DC_CHc_PG 0, 0x10)] Dev.reset with now := 100000, dram := [(0, { DChan.reset with refs := 0 })] }, by decide⟩

theorem test_meets_DramChannels_16 : ∃ (c : Fin 2) (n : Nat) (d : Dev), (d.dramReady c = true) ∧ (d.on (DC_CHc_STAT_TRAIN c) = false) ∧ ((d.chan c).mig = none) ∧ (d.refreshDue c = false) ∧ (d.rd DC_TRN_PER ≠ 0) ∧ (d.pauseDue c ≤ d.now) ∧ (d.rd (DC_CHc_CNT2_TRN c) = n) ∧ (n < 65535) :=
  ⟨0, 0, { setRegs [(PC_DOMUP0 + 12, 0xFF), (DC_CHc_CFG 0, 0x381), (DC_CHc_STAT 0, 1), (DC_TRN, 1), (DC_CHc_REF 0, 0x80100)] Dev.reset with now := 9000000, dram := [(0, { DChan.reset with ranks := [(0, { DRank.reset with refAt := 8999999 })] })] }, by decide⟩

theorem test_meets_DramChannels_17 : ∃ (c : Fin 2) (d : Dev), (d.on (DC_CHc_STAT_TRAIN c) = true ∨ d.refreshDue c = true) :=
  ⟨0, { setRegs [(PC_DOMUP0 + 12, 0xFF), (DC_CHc_CFG 0, 1), (DC_CHc_STAT 0, 5)] Dev.reset with now := 100000, dram := [(0, { DChan.reset with refs := 0 })] }, by decide⟩

theorem test_meets_DramChannels_18 : ∃ (c : Fin 2) (n : Nat) (d : Dev), (d.dramReady c = true) ∧ (d.on (DC_CHc_STAT_TRAIN c) = false) ∧ ((d.chan c).mig = none) ∧ (d.refreshDue c = false) ∧ (d.rd DC_TRN_PER = 0) ∧ (d.rd (DC_CHc_CNT2_TRN c) = n) ∧ (n < 65535) :=
  ⟨0, 0, { setRegs [(PC_DOMUP0 + 12, 0xFF), (DC_CHc_CFG 0, 0x381), (DC_CHc_STAT 0, 1), (DC_TRN, 0), (DC_CHc_REF 0, 0x80100)] Dev.reset with now := 9000000, dram := [(0, { DChan.reset with ranks := [(0, { DRank.reset with refAt := 8999999 })] })] }, by decide⟩

theorem test_meets_DramChannels_19 : ∃ (c : Fin 2) (k : Bool) (n : Nat) (d : Dev), (d.on (DC_CHc_STAT_TRAIN c) = true) ∧ (d.rd (DC_CHc_CNT2_TRNF c) = n) ∧ (n < 65535) :=
  ⟨0, false, 0, { setRegs [(PC_DOMUP0 + 12, 0xFF), (DC_CHc_CFG 0, 1), (DC_CHc_STAT 0, 5)] Dev.reset with now := 100000, dram := [(0, { DChan.reset with refs := 0 })] }, by decide⟩

theorem test_meets_DramChannels_20 : ∃ (c : Fin 2) (s : Fin 4) (a : Bool) (n : Nat) (d : Dev), (s.val ∉ (d.chan c).replay) ∧ (d.rd (DC_CHc_CNT1_CAPAR c) = n) ∧ (n < 65535) :=
  ⟨0, 2, true, 0, { setRegs [(PC_DOMUP0 + 12, 0xFF)] Dev.reset with now := 100000, dram := [(0, { DChan.reset with refs := 0 })] }, by decide⟩

theorem test_meets_DramChannels_21 : ∃ (c : Fin 2) (s : Fin 4) (n : Nat) (m : Nat) (d : Dev), (s.val ∈ (d.chan c).replay) ∧ (d.rd (DC_CHc_CNT1_CAPAR c) = n) ∧ (n < 65535) ∧ (d.rd (DC_CHc_CNT0_UE c) = m) ∧ (m < 65535) :=
  ⟨0, 2, 0, 0, { setRegs [(PC_DOMUP0 + 12, 0xFF)] Dev.reset with now := 100000, dram := [(0, { DChan.reset with replay := [2] })] }, by decide⟩

theorem test_meets_DramChannels_22 : ∃ (c : Fin 2) (s : Fin 4) (k : Nat) (d : Dev), (d.rdBit (DC_CHc_STAT_RETIRED c) s = false) ∧ (d.idxOf c s = some k) ∧ (d.rd (DC_CHc_CFG_SPARE c) < 4) ∧ (d.on (DC_CHc_STAT_SPUSED c) = false) ∧ (d.rdBit (DC_CHc_STAT_RETIRED c) (d.rd (DC_CHc_CFG_SPARE c)) = false) ∧ (d.rd (DC_CHc_CFG_SPARE c) ≠ s.val) :=
  ⟨0, 1, 1, { setRegs [(PC_DOMUP0 + 12, 0xFF), (DC_CHc_CFG 0, 0x121), (DC_CHc_STAT 0, 1)] Dev.reset with now := 100000, dram := [(0, { DChan.reset with refs := 0 })] }, by decide⟩

theorem test_meets_DramChannels_23 : ∃ (c : Fin 2) (s : Fin 4) (k : Nat) (d : Dev), (d.rdBit (DC_CHc_STAT_RETIRED c) s = false) ∧ (d.idxOf c s = some k) ∧ (4 ≤ d.rd (DC_CHc_CFG_SPARE c) ∨ d.on (DC_CHc_STAT_SPUSED c) = true) :=
  ⟨0, 1, 1, { setRegs [(PC_DOMUP0 + 12, 0xFF), (DC_CHc_CFG 0, 0x221), (DC_CHc_STAT 0, 1)] Dev.reset with now := 100000, dram := [(0, { DChan.reset with refs := 0 })] }, by decide⟩

theorem test_meets_DramChannels_24 : ∃ (c : Fin 2) (s : Fin 4) (d : Dev), (d.rdBit (DC_CHc_STAT_RETIRED c) s = true) :=
  ⟨0, 1, { setRegs [(PC_DOMUP0 + 12, 0xFF), (DC_CHc_CFG 0, 0x221), (DC_CHc_STAT 0, 0x200)] Dev.reset with now := 100000, dram := [(0, { DChan.reset with refs := 0 })] }, by decide⟩

theorem test_meets_DramChannels_25 : ∃ (c : Fin 2) (m : Migr) (d : Dev), ((d.chan c).mig = some m) ∧ (m.step = false) ∧ (m.at_ + 800 * d.rd DC_MIG_MGAP ≤ d.now) ∧ (d.on (DC_CHc_STAT_TRAIN c) = false) ∧ (d.dramReady c = true) :=
  ⟨0, { idx := 1, total := 8, at_ := 5, step := false }, { setRegs [(PC_DOMUP0 + 12, 0xFF), (DC_CHc_CFG 0, 0x381), (DC_CHc_STAT 0, 1)] Dev.reset with now := 100000, dram := [(0, { DChan.reset with mig := some { idx := 1, total := 8, at_ := 5, step := false } })] }, by decide⟩

theorem test_meets_DramChannels_26 : ∃ (c : Fin 2) (m : Migr) (n : Nat) (d : Dev), ((d.chan c).mig = some m) ∧ (m.step = true) ∧ (d.rd (DC_CHc_MIGP_BLOCKS c) = n) ∧ (n + 1 ≠ m.total) ∧ (n < 0xFFFFF) ∧ (d.integ.ecc = []) :=
  ⟨0, { idx := 1, total := 8, at_ := 5, step := true }, 3, { setRegs [(PC_DOMUP0 + 12, 0xFF), (DC_CHc_CFG 0, 0x381), (DC_CHc_STAT 0, 1), (DC_CHc_MIGP 0, 3)] Dev.reset with now := 100000, dram := [(0, { DChan.reset with mig := some { idx := 1, total := 8, at_ := 5, step := true } })] }, by decide⟩

theorem test_meets_DramChannels_27 : ∃ (c : Fin 2) (m : Migr) (d : Dev), ((d.chan c).mig = some m) ∧ (m.step = true) :=
  ⟨0, { idx := 1, total := 8, at_ := 5, step := true }, { setRegs [(PC_DOMUP0 + 12, 0xFF), (DC_CHc_CFG 0, 0x381), (DC_CHc_STAT 0, 1)] Dev.reset with now := 100000, dram := [(0, { DChan.reset with mig := some { idx := 1, total := 8, at_ := 5, step := true } })] }, by decide⟩

theorem test_meets_HostLinkAndConsole_3 : ∃ (h : Nat) (ws : List (BitVec 32)) (d : Dev), (d.power.failed = false) ∧ (d.ev.queue.any (fun (x : Evt) => x.code = 3) = false) ∧ (d.on HL_CTRL_RINGEN = true) ∧ (d.rd HL_CMD_HEAD_HEAD = h) ∧ (h ≠ d.rd HL_CMDDB_TAIL) ∧ (d.owed < d.ringRoom) ∧ (d.integ.ecc = []) ∧ (d.integ.merge = []) ∧ (bytesWords (d.bytesAt (64 * h) 64) 16 = ws) ∧ (badEntry ws = false) ∧ (d.dupTag false (ws.getD 1 0) = false) ∧ ((wbits (ws.getD 0 0) 15 0) ∈ knownOps) :=
  ⟨255, [0x0100, 0x55, 0, 0, 0, 0, 0, 0, 0, 0, 0, 0, 0, 0, 0, 0], { setRegs [(HL_CTRL, 1), (HL_CMD_HEAD, 255), (HL_CMDDB, 0)] Dev.reset with now := 100000, mail := { Mail.reset with out := [] }, mem := [(16321, 1), (16324, 85)] }, by decide⟩

theorem test_meets_HostLinkAndConsole_4 : ∃ (h v : Nat) (ws : List (BitVec 32)) (d : Dev), (d.power.failed = false) ∧ (d.ev.queue.any (fun (x : Evt) => x.code = 3) = false) ∧ (d.on HL_CTRL_RINGEN = true) ∧ (d.rd HL_CMD_HEAD_HEAD = h) ∧ (h ≠ d.rd HL_CMDDB_TAIL) ∧ (d.owed < d.ringRoom) ∧ (d.integ.ecc = []) ∧ (d.integ.merge = []) ∧ (bytesWords (d.bytesAt (64 * h) 64) 16 = ws) ∧ (badEntry ws = true) ∧ (d.on HL_STAT_LINKUP = true) ∧ (d.rd HL_MSIV_RSP = v) ∧ (wbit (d.msixWord (4 * v + 3)) 0 = true) :=
  ⟨3, 0, [0x10100, 0x55, 0, 0, 0, 0, 0, 0, 0, 0, 0, 0, 0, 0, 0, 0], { setRegs [(HL_CTRL, 1), (HL_CMD_HEAD, 3), (HL_CMDDB, 9), (HL_STAT, 1)] Dev.reset with now := 100000, mail := { Mail.reset with out := [] }, mem := [(193, 1), (194, 1), (196, 85)] }, by decide⟩

theorem test_meets_HostLinkAndConsole_5 : ∃  (d : Dev), (d.power.failed = true ∨ d.on HL_CTRL_RINGEN = false ∨ d.rd HL_CMD_HEAD_HEAD = d.rd HL_CMDDB_TAIL ∨ d.ringRoom ≤ d.owed) :=
  ⟨Dev.reset, by decide⟩

theorem test_meets_HostLinkAndConsole_6 : ∃ (x : Evt) (rest : List Evt) (v : Nat) (d : Dev), (d.ev.queue = x :: rest) ∧ (x.code ≠ 3) ∧ (d.on HL_CTRL_RINGEN = true) ∧ (d.owed < d.ringRoom) ∧ (d.ev.dropped = 0) ∧ (d.on HL_STAT_LINKUP = true) ∧ (d.rd HL_MSIV_EVT = v) ∧ (wbit (d.msixWord (4 * v + 3)) 0 = true) ∧ (x.payload.length ≤ 12) ∧ (x.code < 256) :=
  ⟨{ code := 0x60, eseq := 5, payload := [1, 2] }, [], 0, { setRegs [(HL_CTRL, 1), (HL_STAT, 1), (HL_RSP_TAIL, 0x1FF), (HL_RSPDB, 0xF0), (HL_MSIV, 0)] Dev.reset with now := 100000, mail := { Mail.reset with out := [] }, ev := { Events.reset with queue := [{ code := 0x60, eseq := 5, payload := [1, 2] }] } }, by decide⟩

theorem test_meets_HostLinkAndConsole_7 : ∃  (d : Dev), (d.ev.queue = [] ∨ d.on HL_CTRL_RINGEN = false ∨ d.ringRoom ≤ d.owed) :=
  ⟨Dev.reset, by decide⟩

theorem test_meets_HostLinkAndConsole_8 : ∃ (v : Fin 16) (d : Dev), (d.mail.waits.contains v.val = true) ∧ (d.moderated v = false) ∧ (wbit (d.msixWord (4 * v + 3)) 0 = false) :=
  ⟨3, { setRegs [(HL_STAT, 1)] Dev.reset with now := 100000, mail := { Mail.reset with waits := [3], msix := [(12, 0x1000), (14, 0x42), (15, 0)] } }, by decide⟩

theorem test_meets_HostLinkAndConsole_9 : ∃ (v : Fin 16) (d : Dev), (d.mail.waits.contains v.val = false ∨ d.moderated v = true) :=
  ⟨3, Dev.reset, by decide⟩

theorem test_meets_HostLinkAndConsole_10 : ∃ (v : Fin 16) (d : Dev), (d.mail.pba.getLsbD v = true) :=
  ⟨3, { setRegs [(HL_STAT, 1)] Dev.reset with now := 100000, mail := { Mail.reset with pba := 0x18, msix := [(12, 0x1000), (14, 0x42)] } }, by decide⟩

theorem test_meets_HostLinkAndConsole_11 : ∃ (v : Fin 16) (d : Dev), (d.mail.pba.getLsbD v = false) :=
  ⟨3, Dev.reset, by decide⟩

theorem test_meets_HostLinkAndConsole_12 : ∃ (m : BitVec 16) (d : Dev), (∀ v : Fin 16, m.getLsbD v = true → wbit (d.msixWord (4 * v + 3)) 0 = true) :=
  ⟨0x8005, Dev.reset, by decide⟩

theorem test_meets_HostLinkAndConsole_13 : ∃ (v : Fin 16) (d : Dev), (wbit (d.msixWord (4 * v + 3)) 0 = false) :=
  ⟨3, { setRegs [(HL_STAT, 1)] Dev.reset with now := 100000, mail := { Mail.reset with msix := [(12, 0x1000), (14, 0x42), (15, 0)] } }, by decide⟩

theorem test_meets_HostLinkAndConsole_14 : ∃ (k : Cmd) (d : Dev), (d.power.failed = false) ∧ (d.mail.cmds = [k]) ∧ (k.console = false) ∧ (d.rd HL_CMD_HEAD_HEAD = d.rd HL_CMDDB_TAIL) ∧ (d.ev.queue.length < 64) ∧ (d.on HL_CTRL_CONEVT = false) :=
  ⟨{ console := false, idx := 3, op := 0x201, tag := 0x77, plen := 0, nbuf := 0, pay := [], data := [] }, { setRegs [(HL_STAT, 0x15), (HL_CTRL, 1), (HL_CMD_HEAD, 4), (HL_CMDDB, 4)] Dev.reset with now := 100000, mail := { Mail.reset with cmds := [{ console := false, idx := 3, op := 0x201, tag := 0x77, plen := 0, nbuf := 0, pay := [], data := [] }] } }, by decide⟩

theorem test_meets_HostLinkAndConsole_15 : ∃  (d : Dev), (d.on HL_CTRL_RINGEN = false) :=
  ⟨Dev.reset, by decide⟩

theorem test_meets_HostLinkAndConsole_16 : ∃  (d : Dev), (d.on HL_CTRL_RINGEN = true) :=
  ⟨{ setRegs [(HL_CTRL, 1)] Dev.reset with now := 100000, mail := { Mail.reset with out := [] } }, by decide⟩

theorem test_meets_HostLinkAndConsole_18 : ∃ (b : List (BitVec 8)) (d : Dev), (d.on PC_STAT_FWOK = false ∨ frameOk b = false) :=
  ⟨[0, 1, 0, 0, 85, 0, 0, 0, 0, 0, 0, 0, 0, 0, 0, 0, 0, 0, 0, 0, 0, 0, 0, 0, 0, 0, 0, 0, 0, 0, 0, 0, 0, 0, 0, 0, 0, 0, 0, 0, 0, 0, 0, 0, 0, 0, 0, 0, 0, 0, 0, 0, 0, 0, 0, 0, 0, 0, 0, 0, 0, 0, 0, 0, 12, 33, 237, 7], { setRegs [] Dev.reset with now := 100000, mail := { Mail.reset with part := some 5 } }, by decide⟩

theorem test_meets_HostLinkAndConsole_19 : ∃ (b : List (BitVec 8)) (ws : List (BitVec 32)) (d : Dev), (d.on PC_STAT_FWOK = true) ∧ (frameOk b = true) ∧ (bytesWords b 16 = ws) ∧ (badEntry ws = false) ∧ (d.dupTag true (ws.getD 1 0) = false) ∧ ((wbits (ws.getD 0 0) 15 0) ∈ knownOps) :=
  ⟨[0, 1, 0, 0, 85, 0, 0, 0, 0, 0, 0, 0, 0, 0, 0, 0, 0, 0, 0, 0, 0, 0, 0, 0, 0, 0, 0, 0, 0, 0, 0, 0, 0, 0, 0, 0, 0, 0, 0, 0, 0, 0, 0, 0, 0, 0, 0, 0, 0, 0, 0, 0, 0, 0, 0, 0, 0, 0, 0, 0, 0, 0, 0, 0, 12, 33, 237, 5], [0x0100, 0x55, 0, 0, 0, 0, 0, 0, 0, 0, 0, 0, 0, 0, 0, 0], { setRegs [(PC_STAT, 0x1F)] Dev.reset with now := 100000, mail := { Mail.reset with part := some 5 } }, by decide +kernel⟩

theorem test_meets_HostLinkAndConsole_20 : ∃ (t : Nat) (d : Dev), (d.mail.part = some t) ∧ (t + 80000000 < d.now) :=
  ⟨5, { setRegs [] Dev.reset with now := 90000000, mail := { Mail.reset with part := some 5 } }, by decide⟩

theorem test_meets_HostLinkAndConsole_21 : ∃ (t : Nat) (d : Dev), (d.mail.part = some t) ∧ (d.now ≤ t + 80000000) :=
  ⟨5, { setRegs [] Dev.reset with now := 100000, mail := { Mail.reset with part := some 5 } }, by decide⟩

theorem test_meets_HostLinkAndConsole_22 : ∃  (d : Dev), (d.on HL_STAT_LINKUP = false) :=
  ⟨{ setRegs [] Dev.reset with now := 100000, mail := { Mail.reset with pba := 3, waits := [4] } }, by decide⟩

theorem test_meets_HostLinkAndConsole_23 : ∃  (d : Dev), (d.domUp 103 = true) ∧ (d.power.booted = false ∨ d.power.told = true ∨ d.on HL_STAT_LINKUP = false) :=
  ⟨{ setRegs [(PC_DOMUP0 + 12, 0x80)] Dev.reset with now := 100000, mail := { Mail.reset with out := [] } }, by decide⟩

theorem test_meets_HostLinkAndConsole_24 : ∃  (d : Dev), (d.domUp 103 = false) :=
  ⟨Dev.reset, by decide⟩

theorem test_meets_HostLinkAndConsole_25 : ∃ (r : BitVec 2) (w : BitVec 3) (d : Dev), (d.domUp 103 = true) ∧ (d.power.booted = false ∨ d.power.told = true) :=
  ⟨2, 5, { setRegs [(PC_DOMUP0 + 12, 0x80)] Dev.reset with now := 100000, mail := { Mail.reset with out := [] } }, by decide⟩

theorem test_meets_HostLinkAndConsole_26 : ∃ (r : BitVec 2) (w : BitVec 3) (d : Dev), (d.domUp 103 = true) ∧ (d.power.booted = true) ∧ (d.power.told = false) ∧ (d.ev.queue.length < 64) ∧ (d.on HL_CTRL_CONEVT = false) :=
  ⟨2, 5, { setRegs [(PC_DOMUP0 + 12, 0x80), (HL_CTRL, 0)] Dev.reset with now := 100000, mail := { Mail.reset with out := [] }, power := { Power.reset with booted := true } }, by decide⟩

theorem test_meets_DeviceAndLoopCommands_1 : ∃ (c : Cmd) (d : Dev), (d.nextCmd 0x100 = some c) ∧ (c.bufsOk = true) :=
  ⟨{ console := true, idx := 3, op := 0x100, tag := 0x77, plen := 48, nbuf := 0, pay := [], data := [] }, { setRegs [] Dev.reset with now := 100000, mail := { Mail.reset with cmds := [{ console := true, idx := 3, op := 0x100, tag := 0x77, plen := 48, nbuf := 0, pay := [], data := [] }] } }, by decide +kernel⟩

theorem test_meets_DeviceAndLoopCommands_2 : ∃ (c : Cmd) (d : Dev), (d.nextCmd 0x100 = none) :=
  ⟨{ console := true, idx := 3, op := 0x100, tag := 0x77, plen := 48, nbuf := 0, pay := [], data := [] }, Dev.reset, by decide⟩

theorem test_meets_DeviceAndLoopCommands_3 : ∃ (c : Cmd) (d : Dev), (d.nextCmd 0x100 = some c) ∧ (c.bufsOk = false) :=
  ⟨{ console := true, idx := 3, op := 0x100, tag := 0x77, plen := 48, nbuf := 1, pay := [0x0, 0x0, 0x0, 0x0], data := [] }, { setRegs [] Dev.reset with now := 100000, mail := { Mail.reset with cmds := [{ console := true, idx := 3, op := 0x100, tag := 0x77, plen := 48, nbuf := 1, pay := [0x0, 0x0, 0x0, 0x0], data := [] }] } }, by decide +kernel⟩

theorem test_meets_DeviceAndLoopCommands_4 : ∃ (c : Cmd) (d : Dev), (d.nextCmd 0x101 = some c) ∧ (c.bufsOk = true) :=
  ⟨{ console := true, idx := 3, op := 0x101, tag := 0x77, plen := 48, nbuf := 0, pay := [], data := [] }, { setRegs [] Dev.reset with now := 100000, mail := { Mail.reset with cmds := [{ console := true, idx := 3, op := 0x101, tag := 0x77, plen := 48, nbuf := 0, pay := [], data := [] }] } }, by decide +kernel⟩

theorem test_meets_DeviceAndLoopCommands_5 : ∃ (c : Cmd) (d : Dev), (d.nextCmd 0x102 = some c) ∧ (c.bufsOk = true) ∧ (c.rsvd 0 1 = false) :=
  ⟨{ console := true, idx := 3, op := 0x102, tag := 0x77, plen := 48, nbuf := 0, pay := [0x1], data := [] }, { setRegs [] Dev.reset with now := 100000, mail := { Mail.reset with cmds := [{ console := true, idx := 3, op := 0x102, tag := 0x77, plen := 48, nbuf := 0, pay := [0x1], data := [] }] } }, by decide +kernel⟩

theorem test_meets_DeviceAndLoopCommands_6 : ∃ (c : Cmd) (d : Dev), (d.nextCmd 0x102 = some c) ∧ (c.bufsOk = true) ∧ (c.rsvd 0 1 = true) :=
  ⟨{ console := true, idx := 3, op := 0x102, tag := 0x77, plen := 48, nbuf := 0, pay := [0x2], data := [] }, { setRegs [] Dev.reset with now := 100000, mail := { Mail.reset with cmds := [{ console := true, idx := 3, op := 0x102, tag := 0x77, plen := 48, nbuf := 0, pay := [0x2], data := [] }] } }, by decide +kernel⟩

theorem test_meets_DeviceAndLoopCommands_7 : ∃ (c : Cmd) (d : Dev), (d.nextCmd 0x103 = some c) ∧ (c.bufsOk = true) ∧ (9600 ≤ c.num 0) ∧ (c.num 0 ≤ 3000000) ∧ (c.rsvd 1 1 = false) :=
  ⟨{ console := true, idx := 3, op := 0x103, tag := 0x77, plen := 48, nbuf := 0, pay := [0x2580, 0x1], data := [] }, { setRegs [] Dev.reset with now := 100000, mail := { Mail.reset with cmds := [{ console := true, idx := 3, op := 0x103, tag := 0x77, plen := 48, nbuf := 0, pay := [0x2580, 0x1], data := [] }] } }, by decide +kernel⟩

theorem test_meets_DeviceAndLoopCommands_8 : ∃ (c : Cmd) (d : Dev), (d.nextCmd 0x103 = some c) ∧ (c.bufsOk = true) ∧ (c.num 0 < 9600 ∨ 3000000 < c.num 0 ∨ c.rsvd 1 1 = true) :=
  ⟨{ console := true, idx := 3, op := 0x103, tag := 0x77, plen := 48, nbuf := 0, pay := [0x257F, 0x1], data := [] }, { setRegs [] Dev.reset with now := 100000, mail := { Mail.reset with cmds := [{ console := true, idx := 3, op := 0x103, tag := 0x77, plen := 48, nbuf := 0, pay := [0x257F, 0x1], data := [] }] } }, by decide +kernel⟩

theorem test_meets_DeviceAndLoopCommands_9 : ∃ (c : Cmd) (d : Dev), (d.nextCmd 0x200 = some c) ∧ (c.bufsOk = true) ∧ (c.nbuf = 0) ∧ (d.claimed 0x13 (c.num64 3) (c.num 2) = true) ∧ (d.claimed 0x13 (c.num64 0) (c.num 2) = true) ∧ (d.ev.f3 = false) ∧ (d.cfg.load.phase = 0) ∧ (d.icpBusy = false) :=
  ⟨{ console := true, idx := 3, op := 0x200, tag := 0x77, plen := 48, nbuf := 0, pay := [0x101000, 0x0, 0x800, 0x110000, 0x0], data := [] }, { setRegs [] Dev.reset with now := 100000, mail := { Mail.reset with cmds := [{ console := true, idx := 3, op := 0x200, tag := 0x77, plen := 48, nbuf := 0, pay := [0x101000, 0x0, 0x800, 0x110000, 0x0], data := [] }] }, cfg := { Cfg.reset with claims := [{ cls := 0x13, first := 0x101000, len := 0x800, holder := 2, tag := 0 }, { cls := 0x13, first := 0x110000, len := 0x1000, holder := 2, tag := 0 }] } }, by decide +kernel⟩

theorem test_meets_DeviceAndLoopCommands_10 : ∃ (c : Cmd) (d : Dev), (d.nextCmd 0x200 = some c) ∧ (c.bufsOk = true) ∧ (c.nbuf = 0) ∧ (d.claimed 0x13 (c.num64 3) (c.num 2) = false) :=
  ⟨{ console := true, idx := 3, op := 0x200, tag := 0x77, plen := 48, nbuf := 0, pay := [0x101000, 0x0, 0x800, 0x110000, 0x0], data := [] }, { setRegs [] Dev.reset with now := 100000, mail := { Mail.reset with cmds := [{ console := true, idx := 3, op := 0x200, tag := 0x77, plen := 48, nbuf := 0, pay := [0x101000, 0x0, 0x800, 0x110000, 0x0], data := [] }] }, cfg := { Cfg.reset with claims := [{ cls := 0x13, first := 0x101000, len := 0x800, holder := 2, tag := 0 }] } }, by decide +kernel⟩

theorem test_meets_DeviceAndLoopCommands_11 : ∃ (c : Cmd) (d : Dev), (d.nextCmd 0x201 = some c) ∧ (c.bufsOk = true) ∧ (c.rsvd 1 0xFF = false) ∧ (c.rsvd 2 0x1FFFFFF = false) ∧ (c.rsvd 5 0x707 = false) ∧ (c.num 3 % 16 = 0) ∧ (c.num 4 % 16 = 0) ∧ (c.num 3 + c.num 4 ≤ 0x7FFFFF) ∧ (d.claimed 0x12 0 1 = true) ∧ (d.claimed 0x0F (c.fld 5 10 8) 1 = true) ∧ (d.claimed 0x13 (c.num64 0) (c.num 2) = true) ∧ (d.claimed 0x13 (c.num 3) (c.num 4) = true) ∧ (d.ev.f3 = false) ∧ (d.icpBusy = false) ∧ (d.cfg.load.phase = 0) :=
  ⟨{ console := true, idx := 3, op := 0x201, tag := 0x77, plen := 48, nbuf := 0, pay := [0x101000, 0x0, 0x800, 0x110000, 0x800, 0x302, 0xAAAA5555, 0x1234], data := [] }, { setRegs [] Dev.reset with now := 100000, mail := { Mail.reset with cmds := [{ console := true, idx := 3, op := 0x201, tag := 0x77, plen := 48, nbuf := 0, pay := [0x101000, 0x0, 0x800, 0x110000, 0x800, 0x302, 0xAAAA5555, 0x1234], data := [] }] }, cfg := { Cfg.reset with claims := [{ cls := 0x13, first := 0x101000, len := 0x800, holder := 2, tag := 0 }, { cls := 0x13, first := 0x110000, len := 0x1000, holder := 2, tag := 0 }, { cls := 0x12, first := 0x0, len := 0x1, holder := 2, tag := 0 }, { cls := 0xF, first := 0x3, len := 0x1, holder := 2, tag := 0 }] } }, by decide +kernel⟩

theorem test_meets_DeviceAndLoopCommands_12 : ∃ (c : Cmd) (d : Dev), (d.nextCmd 0x202 = some c) ∧ (c.bufsOk = true) ∧ (d.ev.f3 = false) ∧ (d.icpBusy = true) ∧ (1 ≤ d.cfg.icp.phase) ∧ (d.cfg.icp.phase ≤ 4) ∧ (d.cfg.ops = []) :=
  ⟨{ console := true, idx := 3, op := 0x202, tag := 0x77, plen := 48, nbuf := 0, pay := [], data := [] }, { setRegs [(CF_ICP_STAT, 2)] Dev.reset with now := 100000, mail := { Mail.reset with cmds := [{ console := true, idx := 3, op := 0x202, tag := 0x77, plen := 48, nbuf := 0, pay := [], data := [] }] }, cfg := { Cfg.reset with icp := { Icp.reset with phase := 2 } } }, by decide +kernel⟩

theorem test_meets_DeviceAndLoopCommands_13 : ∃ (c : Cmd) (d : Dev), (d.nextCmd 0x202 = some c) ∧ (c.bufsOk = true) ∧ (d.icpBusy = false) :=
  ⟨{ console := true, idx := 3, op := 0x202, tag := 0x77, plen := 48, nbuf := 0, pay := [], data := [] }, { setRegs [] Dev.reset with now := 100000, mail := { Mail.reset with cmds := [{ console := true, idx := 3, op := 0x202, tag := 0x77, plen := 48, nbuf := 0, pay := [], data := [] }] } }, by decide +kernel⟩

theorem test_meets_DeviceAndLoopCommands_14 : ∃ (c : Cmd) (nv : Nv) (b : List (BitVec 8)) (d : Dev), (nv.agree = true) ∧ (d.nextCmd 0x203 = some c) ∧ (c.bufsOk = true) ∧ (c.noBuf 0 1 = false) ∧ (c.rsvd 1 1 = false) ∧ (d.bufIn c c.bufLen = b) ∧ (d.flashRefuses (c.num 0) (imgLen b) (wbit (c.arg 1) 0) = false) ∧ (d.ev.f3 = false) ∧ (flashCheck nv b = 0) ∧ (d.cfg.ops = []) ∧ (d.ev.queue.length < 64) ∧ (d.on HL_CTRL_CONEVT = false) :=
  ⟨{ console := true, idx := 3, op := 0x203, tag := 0x77, plen := 48, nbuf := 1, pay := [0x0, 0x0, 0x200, 0x0, 0x4000, 0x0], data := imgFlash }, { Nv.reset with keys := [(0, { state := 1, copy1 := 1, copy2 := 1, key := [5] })] }, imgFlash, { setRegs [(HL_CTRL, 0)] Dev.reset with now := 100000, mail := { Mail.reset with cmds := [{ console := true, idx := 3, op := 0x203, tag := 0x77, plen := 48, nbuf := 1, pay := [0x0, 0x0, 0x200, 0x0, 0x4000, 0x0], data := imgFlash }] }, mem := [(0x60004005, 7)] }, by decide +kernel, by decide +kernel, by decide +kernel, by decide +kernel, by decide +kernel, by decide +kernel, by decide +kernel, by decide +kernel, imgFlash_check, by decide +kernel, by decide +kernel, by decide +kernel⟩

theorem test_meets_DeviceAndLoopCommands_15 : ∃ (c : Cmd) (nv : Nv) (b : List (BitVec 8)) (d : Dev), (nv.agree = true) ∧ (d.nextCmd 0x203 = some c) ∧ (c.bufsOk = true) ∧ (c.noBuf 0 1 = false) ∧ (c.rsvd 1 1 = false) ∧ (d.bufIn c c.bufLen = b) ∧ (d.flashRefuses (c.num 0) (imgLen b) (wbit (c.arg 1) 0) = false) ∧ (d.ev.f3 = false) ∧ (flashCheck nv b ≠ 0) ∧ (d.cfg.ops = []) ∧ (d.ev.queue.length < 64) ∧ (d.on HL_CTRL_CONEVT = false) :=
  ⟨{ console := true, idx := 3, op := 0x203, tag := 0x77, plen := 48, nbuf := 1, pay := [0x0, 0x0, 0x20, 0x0, 0x4000, 0x0], data := [1] }, Nv.reset, [1] ++ List.replicate 31 0, { setRegs [(HL_CTRL, 0)] Dev.reset with now := 100000, mail := { Mail.reset with cmds := [{ console := true, idx := 3, op := 0x203, tag := 0x77, plen := 48, nbuf := 1, pay := [0x0, 0x0, 0x20, 0x0, 0x4000, 0x0], data := [1] }] } }, by decide +kernel⟩

theorem test_meets_DeviceAndLoopCommands_16 : ∃ (c : Cmd) (old new : List (BitVec 32)) (d : Dev), (d.nextCmd 0x204 = some c) ∧ (c.bufsOk = true) ∧ (d.on SS_STAT_BUSY = false) ∧ (c.rsvd 0 0xF = false) ∧ (c.rsvd 3 3 = false) ∧ ((∀ k : Fin 2, wbit (c.arg 0) k = true → c.num (1 + k) % 4096 = 0 ∧ c.num (1 + k) < 0x10000000)) ∧ (d.bootRecord.1 = old) ∧ ([if wbit (c.arg 0) 0 then c.arg 1 else old.getD 0 0, if wbit (c.arg 0) 1 then c.arg 2 else old.getD 1 0, if wbit (c.arg 0) 2 then BitVec.ofNat 32 (c.fld 3 0 0) else old.getD 2 0, if wbit (c.arg 0) 3 then BitVec.ofNat 32 (c.fld 3 1 1) else old.getD 3 0] = new) ∧ ((d.bootRecord.2.bootCommit new).1 = 0) :=
  ⟨{ console := true, idx := 3, op := 0x204, tag := 0x77, plen := 48, nbuf := 0, pay := [0xB, 0x5000, 0x8000, 0x2], data := [] }, [0, 0, 0, 0], [0x5000, 0x8000, 0, 1], { setRegs [] Dev.reset with now := 100000, mail := { Mail.reset with cmds := [{ console := true, idx := 3, op := 0x204, tag := 0x77, plen := 48, nbuf := 0, pay := [0xB, 0x5000, 0x8000, 0x2], data := [] }] } }, by decide +kernel⟩

theorem test_meets_DeviceAndLoopCommands_17 : ∃ (c : Cmd) (d : Dev), (d.nextCmd 0x204 = some c) ∧ (c.bufsOk = true) ∧ (d.on SS_STAT_BUSY = false) ∧ (c.rsvd 0 0xF = false) ∧ (wbit (c.arg 0) 0 = true) ∧ (c.num 1 % 4096 ≠ 0) :=
  ⟨{ console := true, idx := 3, op := 0x204, tag := 0x77, plen := 48, nbuf := 0, pay := [0x1, 0x5001], data := [] }, { setRegs [] Dev.reset with now := 100000, mail := { Mail.reset with cmds := [{ console := true, idx := 3, op := 0x204, tag := 0x77, plen := 48, nbuf := 0, pay := [0x1, 0x5001], data := [] }] } }, by decide +kernel⟩

theorem test_meets_DeviceAndLoopCommands_18 : ∃ (c : Cmd) (d : Dev), (d.nextCmd 0x204 = some c) ∧ (c.bufsOk = true) ∧ (d.on SS_STAT_BUSY = true) :=
  ⟨{ console := true, idx := 3, op := 0x204, tag := 0x77, plen := 48, nbuf := 0, pay := [0x1, 0x5001], data := [] }, { setRegs [(SS_STAT, 1)] Dev.reset with now := 100000, mail := { Mail.reset with cmds := [{ console := true, idx := 3, op := 0x204, tag := 0x77, plen := 48, nbuf := 0, pay := [0x1, 0x5001], data := [] }] } }, by decide +kernel⟩

theorem test_meets_DeviceAndLoopCommands_19 : ∃ (c : Cmd) (nv : Nv) (b : List (BitVec 8)) (d : Dev), (nv.agree = true) ∧ (d.nextCmd 0x205 = some c) ∧ (c.bufsOk = true) ∧ (d.on SS_STAT_BUSY = false) ∧ (nv.floor.toNat ≤ c.num 0) ∧ (d.loadBytes 0x62000000 128 = b) ∧ (identityOk b = true) ∧ (c.num 0 ≤ imgSeq b) ∧ ((d.ssCommit 5 (some (wordBytes (c.arg 0)))).1.1 = 0) :=
  ⟨{ console := true, idx := 3, op := 0x205, tag := 0x77, plen := 48, nbuf := 0, pay := [0x8], data := [] }, { Nv.reset with floor := 3 }, hdrFull, { setRegs [] Dev.reset with now := 100000, mail := { Mail.reset with cmds := [{ console := true, idx := 3, op := 0x205, tag := 0x77, plen := 48, nbuf := 0, pay := [0x8], data := [] }] }, mem := [(1644167168, 69), (1644167169, 84), (1644167170, 68), (1644167171, 82), (1644167174, 1), (1644167176, 1), (1644167177, 150), (1644167178, 65), (1644167179, 89), (1644167180, 2), (1644167185, 2), (1644167192, 9), (1644167196, 1), (1644167292, 57), (1644167293, 98), (1644167294, 99), (1644167295, 171)] }, by decide +kernel, by decide +kernel, by decide +kernel, by decide +kernel, by decide +kernel, by decide +kernel, hdrFull_identity, by decide +kernel, by decide +kernel⟩

theorem test_meets_DeviceAndLoopCommands_20 : ∃ (c : Cmd) (nv : Nv) (d : Dev), (nv.agree = true) ∧ (d.nextCmd 0x205 = some c) ∧ (c.bufsOk = true) ∧ (d.on SS_STAT_BUSY = false) ∧ (c.num 0 < nv.floor.toNat) :=
  ⟨{ console := true, idx := 3, op := 0x205, tag := 0x77, plen := 48, nbuf := 0, pay := [0x2], data := [] }, { Nv.reset with floor := 3 }, { setRegs [] Dev.reset with now := 100000, mail := { Mail.reset with cmds := [{ console := true, idx := 3, op := 0x205, tag := 0x77, plen := 48, nbuf := 0, pay := [0x2], data := [] }] } }, by decide +kernel⟩

theorem test_meets_DeviceAndLoopCommands_21 : ∃ (c : Cmd) (nv : Nv) (d : Dev), (nv.agree = true) ∧ (d.nextCmd 0x206 = some c) ∧ (c.bufsOk = true) ∧ (c.rsvd 0 3 = false) ∧ ((tget KeySlot.empty nv.keys (c.fld 0 1 0)).state = 0) :=
  ⟨{ console := true, idx := 3, op := 0x206, tag := 0x77, plen := 48, nbuf := 0, pay := [0x2, 0x1, 0x2, 0x3, 0x4, 0x5, 0x6, 0x7, 0x8], data := [] }, Nv.reset, { setRegs [] Dev.reset with now := 100000, mail := { Mail.reset with cmds := [{ console := true, idx := 3, op := 0x206, tag := 0x77, plen := 48, nbuf := 0, pay := [0x2, 0x1, 0x2, 0x3, 0x4, 0x5, 0x6, 0x7, 0x8], data := [] }] } }, by decide +kernel⟩

theorem test_meets_DeviceAndLoopCommands_22 : ∃ (c : Cmd) (nv : Nv) (d : Dev), (nv.agree = true) ∧ (d.nextCmd 0x206 = some c) ∧ (c.bufsOk = true) ∧ (c.rsvd 0 3 = false) ∧ ((tget KeySlot.empty nv.keys (c.fld 0 1 0)).state ≠ 0) :=
  ⟨{ console := true, idx := 3, op := 0x206, tag := 0x77, plen := 48, nbuf := 0, pay := [0x0], data := [] }, { Nv.reset with keys := [(0, { state := 1, copy1 := 1, copy2 := 1, key := [5] })] }, { setRegs [] Dev.reset with now := 100000, mail := { Mail.reset with cmds := [{ console := true, idx := 3, op := 0x206, tag := 0x77, plen := 48, nbuf := 0, pay := [0x0], data := [] }] } }, by decide +kernel⟩

theorem test_meets_DeviceAndLoopCommands_23 : ∃ (c : Cmd) (nv : Nv) (d : Dev), (nv.agree = true) ∧ (d.nextCmd 0x207 = some c) ∧ (c.bufsOk = true) ∧ (c.rsvd 0 3 = false) ∧ ((tget KeySlot.empty nv.keys (c.fld 0 1 0)).state = 1) ∧ (d.golden = none) :=
  ⟨{ console := true, idx := 3, op := 0x207, tag := 0x77, plen := 48, nbuf := 0, pay := [0x0], data := [] }, { Nv.reset with keys := [(0, { state := 1, copy1 := 1, copy2 := 1, key := [5] })] }, { setRegs [] Dev.reset with now := 100000, mail := { Mail.reset with cmds := [{ console := true, idx := 3, op := 0x207, tag := 0x77, plen := 48, nbuf := 0, pay := [0x0], data := [] }] } }, by decide +kernel⟩

theorem test_meets_DeviceAndLoopCommands_24 : ∃ (c : Cmd) (nv : Nv) (d : Dev), (nv.agree = true) ∧ (d.nextCmd 0x207 = some c) ∧ (c.bufsOk = true) ∧ (c.rsvd 0 3 = false) ∧ ((tget KeySlot.empty nv.keys (c.fld 0 1 0)).state ≠ 1) :=
  ⟨{ console := true, idx := 3, op := 0x207, tag := 0x77, plen := 48, nbuf := 0, pay := [0x1], data := [] }, { Nv.reset with keys := [(0, { state := 1, copy1 := 1, copy2 := 1, key := [5] })] }, { setRegs [] Dev.reset with now := 100000, mail := { Mail.reset with cmds := [{ console := true, idx := 3, op := 0x207, tag := 0x77, plen := 48, nbuf := 0, pay := [0x1], data := [] }] } }, by decide +kernel⟩

theorem test_meets_DeviceAndLoopCommands_25 : ∃ (c : Cmd) (d : Dev), (d.nextCmd 0x208 = some c) ∧ (c.bufsOk = true) ∧ (c.rsvd 4 0x71 = false) ∧ (d.rd CF_RB_STAT_STATE = 0) ∧ (c.fld 4 0 0 = 1) :=
  ⟨{ console := true, idx := 3, op := 0x208, tag := 0x77, plen := 48, nbuf := 0, pay := [0x101010, 0x5, 0x102020, 0x200, 0x31], data := [] }, { setRegs [] Dev.reset with now := 100000, mail := { Mail.reset with cmds := [{ console := true, idx := 3, op := 0x208, tag := 0x77, plen := 48, nbuf := 0, pay := [0x101010, 0x5, 0x102020, 0x200, 0x31], data := [] }] } }, by decide +kernel⟩

theorem test_meets_DeviceAndLoopCommands_26 : ∃ (c : Cmd) (d : Dev), (d.nextCmd 0x208 = some c) ∧ (c.bufsOk = true) ∧ (c.rsvd 4 0x71 = false) ∧ (d.rd CF_RB_STAT_STATE = 0) ∧ (c.fld 4 0 0 = 0) ∧ (c.num 3 / 32 % 262144 ≠ 0) ∧ (d.integ.ecc = []) :=
  ⟨{ console := true, idx := 3, op := 0x208, tag := 0x77, plen := 48, nbuf := 0, pay := [0x101010, 0x5, 0x102020, 0x200, 0x30], data := [] }, { setRegs [] Dev.reset with now := 100000, mail := { Mail.reset with cmds := [{ console := true, idx := 3, op := 0x208, tag := 0x77, plen := 48, nbuf := 0, pay := [0x101010, 0x5, 0x102020, 0x200, 0x30], data := [] }] } }, by decide +kernel⟩

theorem test_meets_DeviceAndLoopCommands_27 : ∃ (c : Cmd) (d : Dev), (d.nextCmd 0x208 = some c) ∧ (c.bufsOk = true) ∧ (c.rsvd 4 0x71 = false) ∧ (d.rd CF_RB_STAT_STATE ≠ 0) :=
  ⟨{ console := true, idx := 3, op := 0x208, tag := 0x77, plen := 48, nbuf := 0, pay := [0x101010, 0x5, 0x102020, 0x200, 0x31], data := [] }, { setRegs [(CF_RB_STAT, 2)] Dev.reset with now := 100000, mail := { Mail.reset with cmds := [{ console := true, idx := 3, op := 0x208, tag := 0x77, plen := 48, nbuf := 0, pay := [0x101010, 0x5, 0x102020, 0x200, 0x31], data := [] }] } }, by decide +kernel⟩

theorem test_meets_DeviceAndLoopCommands_28 : ∃ (c : Cmd) (d : Dev), (d.nextCmd 0x300 = some c) ∧ (c.bufsOk = true) ∧ (c.noBuf 1 1 = false) ∧ (c.rsvd 0 0xFFFF = false) ∧ (d.ssActive = none) :=
  ⟨{ console := true, idx := 3, op := 0x300, tag := 0x77, plen := 48, nbuf := 1, pay := [0x1000, 0x0, 0x40, 0x1, 0x5], data := [] }, { setRegs [] Dev.reset with now := 100000, mail := { Mail.reset with cmds := [{ console := true, idx := 3, op := 0x300, tag := 0x77, plen := 48, nbuf := 1, pay := [0x1000, 0x0, 0x40, 0x1, 0x5], data := [] }] } }, by decide +kernel⟩

theorem test_meets_DeviceAndLoopCommands_29 : ∃ (c : Cmd) (k : Nat) (w : List (BitVec 32)) (r : SsRec) (d : Dev), (d.nextCmd 0x300 = some c) ∧ (c.bufsOk = true) ∧ (c.noBuf 1 1 = false) ∧ (c.rsvd 0 0xFFFF = false) ∧ (d.ssActive = some k) ∧ ((d.ssEntries k).find? (fun w => wbits (w.getD 0 0) 15 0 = c.num 0) = some w) ∧ (d.ssRead k w = some (r, false)) ∧ (r.bytes.length ≤ c.bufLen) :=
  ⟨{ console := true, idx := 3, op := 0x300, tag := 0x77, plen := 48, nbuf := 1, pay := [0x1000, 0x0, 0x40, 0x1, 0x1000], data := [] }, 1, [0x41000, 0x1040, 1, 0xB63CFBCD], { id := 0x1000, seq := 1, bytes := [1, 2, 3, 4] }, { setRegs [] Dev.reset with now := 100000, mail := { Mail.reset with cmds := [{ console := true, idx := 3, op := 0x300, tag := 0x77, plen := 48, nbuf := 1, pay := [0x1000, 0x0, 0x40, 0x1, 0x1000], data := [] }] }, mem := [(0x42020000, 1), (0x42020004, 0xFE), (0x42020005, 0xFF), (0x42020006, 0xFF), (0x42020007, 0xFF), (0x42020008, 1), (0x4202000C, 0xFE), (0x4202000D, 0xFF), (0x4202000E, 0xFF), (0x4202000F, 0xFF), (0x42020040, 0), (0x42020041, 0x10), (0x42020042, 4), (0x42020044, 0x40), (0x42020045, 0x10), (0x42020048, 1), (0x4202004C, 0xCD), (0x4202004D, 0xFB), (0x4202004E, 0x3C), (0x4202004F, 0xB6), (0x42021040, 1), (0x42021041, 2), (0x42021042, 3), (0x42021043, 4)] }, by decide +kernel⟩

theorem test_meets_DeviceAndLoopCommands_30 : ∃ (c : Cmd) (r : BitVec 32) (d : Dev), (d.nextCmd 0x301 = some c) ∧ (c.bufsOk = true) ∧ (d.on SS_STAT_BUSY = false) ∧ (c.noBuf 0 (c.num 1) = false) ∧ (c.rsvd 0 0xFFFF = false) ∧ (hostRecord (c.num 0) = true) ∧ (1 ≤ c.num 1) ∧ (c.num 1 ≤ 4096) ∧ ((d.ssCommit (c.num 0) (some (d.bufIn c (c.num 1)))).1 = (0, r)) :=
  ⟨{ console := true, idx := 3, op := 0x301, tag := 0x77, plen := 48, nbuf := 1, pay := [0x0, 0x0, 0x4, 0x0, 0x1000, 0x4], data := [1, 2, 3, 4] }, 1, { setRegs [] Dev.reset with now := 100000, mail := { Mail.reset with cmds := [{ console := true, idx := 3, op := 0x301, tag := 0x77, plen := 48, nbuf := 1, pay := [0x0, 0x0, 0x4, 0x0, 0x1000, 0x4], data := [1, 2, 3, 4] }] } }, by decide +kernel⟩

theorem test_meets_DeviceAndLoopCommands_31 : ∃ (c : Cmd) (d : Dev), (d.nextCmd 0x301 = some c) ∧ (c.bufsOk = true) ∧ (d.on SS_STAT_BUSY = false) ∧ (c.noBuf 0 (c.num 1) = false) ∧ (hostRecord (c.num 0) = false) :=
  ⟨{ console := true, idx := 3, op := 0x301, tag := 0x77, plen := 48, nbuf := 1, pay := [0x0, 0x0, 0x4, 0x0, 0xFFF, 0x4], data := [] }, { setRegs [] Dev.reset with now := 100000, mail := { Mail.reset with cmds := [{ console := true, idx := 3, op := 0x301, tag := 0x77, plen := 48, nbuf := 1, pay := [0x0, 0x0, 0x4, 0x0, 0xFFF, 0x4], data := [] }] } }, by decide +kernel⟩

theorem test_meets_DeviceAndLoopCommands_32 : ∃ (c : Cmd) (d : Dev), (d.nextCmd 0x302 = some c) ∧ (c.bufsOk = true) ∧ (d.on SS_STAT_BUSY = false) ∧ (c.rsvd 0 0xFFFF = false) ∧ (c.num 0 ≠ 2) ∧ (hostRecord (c.num 0) = true) ∧ ((d.ssCommit (c.num 0) none).1.1 = 0) :=
  ⟨{ console := true, idx := 3, op := 0x302, tag := 0x77, plen := 48, nbuf := 0, pay := [0x1000], data := [] }, { setRegs [] Dev.reset with now := 100000, mail := { Mail.reset with cmds := [{ console := true, idx := 3, op := 0x302, tag := 0x77, plen := 48, nbuf := 0, pay := [0x1000], data := [] }] }, mem := [(0x42020000, 1), (0x42020004, 0xFE), (0x42020005, 0xFF), (0x42020006, 0xFF), (0x42020007, 0xFF), (0x42020008, 1), (0x4202000C, 0xFE), (0x4202000D, 0xFF), (0x4202000E, 0xFF), (0x4202000F, 0xFF), (0x42020040, 0), (0x42020041, 0x10), (0x42020042, 4), (0x42020044, 0x40), (0x42020045, 0x10), (0x42020048, 1), (0x4202004C, 0xCD), (0x4202004D, 0xFB), (0x4202004E, 0x3C), (0x4202004F, 0xB6), (0x42021040, 1), (0x42021041, 2), (0x42021042, 3), (0x42021043, 4)] }, by decide +kernel⟩

theorem test_meets_DeviceAndLoopCommands_33 : ∃ (c : Cmd) (l : List (List (BitVec 32))) (d : Dev), (d.nextCmd 0x303 = some c) ∧ (c.bufsOk = true) ∧ ((d.ssActive.map d.ssEntries).getD [] = l) ∧ (c.noBuf 1 (8 * l.length) = false) :=
  ⟨{ console := true, idx := 3, op := 0x303, tag := 0x77, plen := 48, nbuf := 1, pay := [0x1000, 0x0, 0x40, 0x1], data := [] }, [], { setRegs [] Dev.reset with now := 100000, mail := { Mail.reset with cmds := [{ console := true, idx := 3, op := 0x303, tag := 0x77, plen := 48, nbuf := 1, pay := [0x1000, 0x0, 0x40, 0x1], data := [] }] } }, by decide +kernel⟩

theorem test_meets_DeviceAndLoopCommands_34 : ∃ (c : Cmd) (d : Dev), (d.nextCmd 0x400 = some c) ∧ (c.bufsOk = true) ∧ (c.num 0 < 8) :=
  ⟨{ console := true, idx := 3, op := 0x400, tag := 0x77, plen := 48, nbuf := 0, pay := [0x3], data := [] }, { setRegs [] Dev.reset with now := 100000, mail := { Mail.reset with cmds := [{ console := true, idx := 3, op := 0x400, tag := 0x77, plen := 48, nbuf := 0, pay := [0x3], data := [] }] }, ang := { Angle.reset with ad := [(3, { Tracker.reset with theta := 0x123456789ABCDEF01234, omega := 0xF23456789ABC })] } }, by decide +kernel⟩

theorem test_meets_DeviceAndLoopCommands_35 : ∃ (c : Cmd) (d : Dev), (d.nextCmd 0x401 = some c) ∧ (c.bufsOk = true) ∧ (c.rsvd 0 0x107 = false) ∧ (c.rsvd 7 0xFFFF = false) ∧ (d.adLfkHeld c (c.fld 0 2 0) = false) ∧ ((c.fld 0 2 0) < 7) ∧ (wbit (c.arg 0) 8 = false) ∧ (d.claimed 0x16 (c.fld 0 2 0) 1 = true) ∧ (d.ev.f3 = false) ∧ (d.adOn (c.fld 0 2 0) = false) :=
  ⟨{ console := true, idx := 3, op := 0x401, tag := 0x77, plen := 48, nbuf := 0, pay := [0x3, 0x0, 0x1000, 0x55, 0x66, 0x77, 0x88, 0x99], data := [] }, { setRegs [] Dev.reset with now := 100000, mail := { Mail.reset with cmds := [{ console := true, idx := 3, op := 0x401, tag := 0x77, plen := 48, nbuf := 0, pay := [0x3, 0x0, 0x1000, 0x55, 0x66, 0x77, 0x88, 0x99], data := [] }] }, cfg := { Cfg.reset with claims := [{ cls := 0x16, first := 0x3, len := 0x1, holder := 2, tag := 0 }] } }, by decide +kernel⟩

theorem test_meets_DeviceAndLoopCommands_36 : ∃ (c : Cmd) (d : Dev), (d.nextCmd 0x401 = some c) ∧ (c.bufsOk = true) ∧ (c.rsvd 0 0x107 = false) ∧ (c.rsvd 7 0xFFFF = false) ∧ (d.adLfkHeld c (c.fld 0 2 0) = false) ∧ ((c.fld 0 2 0) < 7) ∧ (wbit (c.arg 0) 8 = true) ∧ ((((d.disableDomain (c.fld 0 2 0)).adTune (c.fld 0 2 0) c).adConfig (c.fld 0 2 0) c).adCfgOk (c.fld 0 2 0) = true) ∧ (d.claimed 0x16 (c.fld 0 2 0) 1 = true) ∧ (d.ev.f3 = false) :=
  ⟨{ console := true, idx := 3, op := 0x401, tag := 0x77, plen := 48, nbuf := 0, pay := [0x103, 0x0, 0x1000, 0x55, 0x66, 0x77, 0x88, 0x99], data := [] }, { setRegs [] Dev.reset with now := 100000, mail := { Mail.reset with cmds := [{ console := true, idx := 3, op := 0x401, tag := 0x77, plen := 48, nbuf := 0, pay := [0x103, 0x0, 0x1000, 0x55, 0x66, 0x77, 0x88, 0x99], data := [] }] }, cfg := { Cfg.reset with claims := [{ cls := 0x16, first := 0x3, len := 0x1, holder := 2, tag := 0 }] } }, by decide +kernel⟩

theorem test_meets_DeviceAndLoopCommands_37 : ∃ (c : Cmd) (d : Dev), (d.nextCmd 0x401 = some c) ∧ (c.bufsOk = true) ∧ (c.rsvd 0 0x107 = false) ∧ (c.rsvd 7 0xFFFF = false) ∧ (d.adLfkHeld c (c.fld 0 2 0) = false) ∧ ((c.fld 0 2 0) < 7) ∧ (wbit (c.arg 0) 8 = false) ∧ (d.claimed 0x16 (c.fld 0 2 0) 1 = false) :=
  ⟨{ console := true, idx := 3, op := 0x401, tag := 0x77, plen := 48, nbuf := 0, pay := [0x3], data := [] }, { setRegs [] Dev.reset with now := 100000, mail := { Mail.reset with cmds := [{ console := true, idx := 3, op := 0x401, tag := 0x77, plen := 48, nbuf := 0, pay := [0x3], data := [] }] } }, by decide +kernel⟩

theorem test_meets_DeviceAndLoopCommands_38 : ∃ (c : Cmd) (d : Dev), (d.nextCmd 0x402 = some c) ∧ (c.bufsOk = true) ∧ (c.rsvd 0 0x307 = false) ∧ (c.rsvd 4 0xFFFF = false) ∧ ((c.fld 0 2 0) < 7) ∧ (wbit (c.arg 0) 8 = true) ∧ (wbit (c.arg 0) 9 = true) ∧ (d.claimed 0x16 (c.fld 0 2 0) 1 = true) ∧ (d.ev.f3 = false) :=
  ⟨{ console := true, idx := 3, op := 0x402, tag := 0x77, plen := 48, nbuf := 0, pay := [0x303, 0x12345678, 0x9ABCDEF0, 0x77777777, 0x8888], data := [] }, { setRegs [] Dev.reset with now := 100000, mail := { Mail.reset with cmds := [{ console := true, idx := 3, op := 0x402, tag := 0x77, plen := 48, nbuf := 0, pay := [0x303, 0x12345678, 0x9ABCDEF0, 0x77777777, 0x8888], data := [] }] }, cfg := { Cfg.reset with claims := [{ cls := 0x16, first := 0x3, len := 0x1, holder := 2, tag := 0 }] } }, by decide +kernel⟩

theorem test_meets_DeviceAndLoopCommands_39 : ∃ (c : Cmd) (d : Dev), (d.nextCmd 0x402 = some c) ∧ (c.bufsOk = true) ∧ ((c.fld 0 2 0) = 7) :=
  ⟨{ console := true, idx := 3, op := 0x402, tag := 0x77, plen := 48, nbuf := 0, pay := [0x107], data := [] }, { setRegs [] Dev.reset with now := 100000, mail := { Mail.reset with cmds := [{ console := true, idx := 3, op := 0x402, tag := 0x77, plen := 48, nbuf := 0, pay := [0x107], data := [] }] } }, by decide +kernel⟩

theorem test_meets_DeviceAndLoopCommands_40 : ∃ (c : Cmd) (d : Dev), (d.nextCmd 0x403 = some c) ∧ (c.bufsOk = true) ∧ ((∀ p : Fin 8, d.on (ET_INSp_STAT_BUSY p) = false)) ∧ (c.rsvd 4 0x3F = false) ∧ (d.insertCheck (c.arg 1) (c.arg 2) (c.arg 3) (c.fld 4 5 0) = 0) ∧ (d.claimed 0x0C (c.fld 4 5 0) 1 = true) ∧ (d.rd (ET_LSTATl_COUNT (c.fld 4 5 0)) < 65535) :=
  ⟨{ console := true, idx := 3, op := 0x403, tag := 0x77, plen := 48, nbuf := 0, pay := [0x1000, 0x105, 0x42, 0x3, 0x3], data := [] }, { setRegs [(ET_LCFGl 3, 1), (ET_STAT, 0x8000)] Dev.reset with now := 100000, mail := { Mail.reset with cmds := [{ console := true, idx := 3, op := 0x403, tag := 0x77, plen := 48, nbuf := 0, pay := [0x1000, 0x105, 0x42, 0x3, 0x3], data := [] }] }, cfg := { Cfg.reset with claims := [{ cls := 0xC, first := 0x3, len := 0x1, holder := 2, tag := 0 }] } }, by decide +kernel⟩

theorem test_meets_DeviceAndLoopCommands_41 : ∃ (c : Cmd) (d : Dev), (d.nextCmd 0x403 = some c) ∧ (c.bufsOk = true) ∧ ((∀ p : Fin 8, d.on (ET_INSp_STAT_BUSY p) = false)) ∧ (c.rsvd 4 0x3F = false) ∧ (d.insertCheck (c.arg 1) (c.arg 2) (c.arg 3) (c.fld 4 5 0) = 2) ∧ (d.claimed 0x0C (c.fld 4 5 0) 1 = true) :=
  ⟨{ console := true, idx := 3, op := 0x403, tag := 0x77, plen := 48, nbuf := 0, pay := [0x1000, 0x105, 0x42, 0x3, 0x3], data := [] }, { setRegs [(ET_LCFGl 3, 1), (ET_STAT, 0)] Dev.reset with now := 100000, mail := { Mail.reset with cmds := [{ console := true, idx := 3, op := 0x403, tag := 0x77, plen := 48, nbuf := 0, pay := [0x1000, 0x105, 0x42, 0x3, 0x3], data := [] }] }, cfg := { Cfg.reset with claims := [{ cls := 0xC, first := 0x3, len := 0x1, holder := 2, tag := 0 }] } }, by decide +kernel⟩

theorem test_meets_DeviceAndLoopCommands_42 : ∃ (c : Cmd) (x : EtEntry) (l : List Nat) (d : Dev), (d.nextCmd 0x404 = some c) ∧ (c.bufsOk = true) ∧ (d.on ET_DEL_STAT_BUSY = false) ∧ (c.num 0 < 32768) ∧ (d.entry (c.num 0) = some x) ∧ (d.claimed 0x0C x.list 1 = true) ∧ (d.ang.reins.contains (c.num 0) = false) ∧ (d.list x.list = l) ∧ (l.head? ≠ some (c.num 0)) :=
  ⟨{ console := true, idx := 3, op := 0x404, tag := 0x77, plen := 48, nbuf := 0, pay := [0x6], data := [] }, { w0 := 0x10, w1 := 0x3002100, w2 := 3, w3 := 0 }, [5, 6], { setRegs [] Dev.reset with now := 100000, mail := { Mail.reset with cmds := [{ console := true, idx := 3, op := 0x404, tag := 0x77, plen := 48, nbuf := 0, pay := [0x6], data := [] }] }, cfg := { Cfg.reset with claims := [{ cls := 0xC, first := 0x3, len := 0x1, holder := 2, tag := 0 }] }, ang := { Angle.reset with entries := [(5, some { w0 := 0, w1 := 0x3002100, w2 := 3, w3 := 0 }), (6, some { w0 := 0x10, w1 := 0x3002100, w2 := 3, w3 := 0 })], lists := [(3, [5, 6])] } }, by decide +kernel⟩

theorem test_meets_DeviceAndLoopCommands_43 : ∃ (c : Cmd) (d : Dev), (d.nextCmd 0x404 = some c) ∧ (c.bufsOk = true) ∧ (d.on ET_DEL_STAT_BUSY = false) ∧ (c.num 0 < 32768) ∧ (d.entry (c.num 0) = none) ∧ (d.ang.reins.contains (c.num 0) = false) :=
  ⟨{ console := true, idx := 3, op := 0x404, tag := 0x77, plen := 48, nbuf := 0, pay := [0x6], data := [] }, { setRegs [] Dev.reset with now := 100000, mail := { Mail.reset with cmds := [{ console := true, idx := 3, op := 0x404, tag := 0x77, plen := 48, nbuf := 0, pay := [0x6], data := [] }] } }, by decide +kernel⟩

theorem test_meets_DeviceAndLoopCommands_44 : ∃ (c : Cmd) (d : Dev), (d.nextCmd 0x405 = some c) ∧ (c.bufsOk = true) ∧ (c.rsvd 0 0x1F3F = false) ∧ (d.claimed 0x0C (c.fld 0 5 0) 1 = true) ∧ (d.on (ET_LSTATl_COUNT (c.fld 0 5 0)) = false) :=
  ⟨{ console := true, idx := 3, op := 0x405, tag := 0x77, plen := 48, nbuf := 0, pay := [0x1B03], data := [] }, { setRegs [] Dev.reset with now := 100000, mail := { Mail.reset with cmds := [{ console := true, idx := 3, op := 0x405, tag := 0x77, plen := 48, nbuf := 0, pay := [0x1B03], data := [] }] }, cfg := { Cfg.reset with claims := [{ cls := 0xC, first := 0x3, len := 0x1, holder := 2, tag := 0 }] } }, by decide +kernel⟩

theorem test_meets_DeviceAndLoopCommands_45 : ∃ (c : Cmd) (d : Dev), (d.nextCmd 0x405 = some c) ∧ (c.bufsOk = true) ∧ (c.rsvd 0 0x1F3F = false) ∧ (d.claimed 0x0C (c.fld 0 5 0) 1 = true) ∧ (d.on (ET_LSTATl_COUNT (c.fld 0 5 0)) = true) ∧ (c.fld 0 11 9 ≠ d.rd (ET_LCFGl_DOM (c.fld 0 5 0))) :=
  ⟨{ console := true, idx := 3, op := 0x405, tag := 0x77, plen := 48, nbuf := 0, pay := [0x1B03], data := [] }, { setRegs [(ET_LSTATl 3, 1)] Dev.reset with now := 100000, mail := { Mail.reset with cmds := [{ console := true, idx := 3, op := 0x405, tag := 0x77, plen := 48, nbuf := 0, pay := [0x1B03], data := [] }] }, cfg := { Cfg.reset with claims := [{ cls := 0xC, first := 0x3, len := 0x1, holder := 2, tag := 0 }] } }, by decide +kernel⟩

theorem test_meets_DeviceAndLoopCommands_46 : ∃ (c : Cmd) (d : Dev), (d.nextCmd 0x406 = some c) ∧ (c.bufsOk = true) ∧ (c.num 0 < 256) ∧ (c.num 2 < c.num 3) ∧ (c.num 3 < 65536) ∧ (c.num 4 < 65536) ∧ (d.claimed 0x0D (c.num 0) 1 = true) ∧ (d.cadNamed (c.num 0) = false) :=
  ⟨{ console := true, idx := 3, op := 0x406, tag := 0x77, plen := 48, nbuf := 0, pay := [0x9, 0x12345678, 0x4, 0x5, 0x6], data := [] }, { setRegs [] Dev.reset with now := 100000, mail := { Mail.reset with cmds := [{ console := true, idx := 3, op := 0x406, tag := 0x77, plen := 48, nbuf := 0, pay := [0x9, 0x12345678, 0x4, 0x5, 0x6], data := [] }] }, cfg := { Cfg.reset with claims := [{ cls := 0xD, first := 0x9, len := 0x1, holder := 2, tag := 0 }] } }, by decide +kernel⟩

theorem test_meets_DeviceAndLoopCommands_47 : ∃ (c : Cmd) (d : Dev), (d.nextCmd 0x406 = some c) ∧ (c.bufsOk = true) ∧ (c.num 3 ≤ c.num 2) :=
  ⟨{ console := true, idx := 3, op := 0x406, tag := 0x77, plen := 48, nbuf := 0, pay := [0x9, 0x12345678, 0x5, 0x5, 0x6], data := [] }, { setRegs [] Dev.reset with now := 100000, mail := { Mail.reset with cmds := [{ console := true, idx := 3, op := 0x406, tag := 0x77, plen := 48, nbuf := 0, pay := [0x9, 0x12345678, 0x5, 0x5, 0x6], data := [] }] } }, by decide +kernel⟩

theorem test_meets_DeviceAndLoopCommands_48 : ∃ (c : Cmd) (d : Dev), (d.nextCmd 0x500 = some c) ∧ (c.bufsOk = true) ∧ (c.num 0 < 48) :=
  ⟨{ console := true, idx := 3, op := 0x500, tag := 0x77, plen := 48, nbuf := 0, pay := [0x2F], data := [] }, { setRegs [] Dev.reset with now := 100000, mail := { Mail.reset with cmds := [{ console := true, idx := 3, op := 0x500, tag := 0x77, plen := 48, nbuf := 0, pay := [0x2F], data := [] }] } }, by decide +kernel⟩

theorem test_meets_DeviceAndLoopCommands_49 : ∃ (c : Cmd) (d : Dev), (d.nextCmd 0x500 = some c) ∧ (c.bufsOk = true) ∧ (48 ≤ c.num 0) :=
  ⟨{ console := true, idx := 3, op := 0x500, tag := 0x77, plen := 48, nbuf := 0, pay := [0x30], data := [] }, { setRegs [] Dev.reset with now := 100000, mail := { Mail.reset with cmds := [{ console := true, idx := 3, op := 0x500, tag := 0x77, plen := 48, nbuf := 0, pay := [0x30], data := [] }] } }, by decide +kernel⟩

theorem test_meets_DeviceAndLoopCommands_50 : ∃ (c : Cmd) (d : Dev), (d.nextCmd 0x501 = some c) ∧ (c.bufsOk = true) ∧ (c.num 0 < 48) ∧ (c.rsvd 1 0x3F03 = false) ∧ (c.fld 1 1 0 ≤ 1 ∨ (c.fld 1 1 0 = 2 ∧ d.on (AHD_LTt_CFG_PSRC (c.num 0)) = false)) ∧ (d.claimed 0x0B (c.num 0) 1 = true) ∧ (d.ev.f3 = false) :=
  ⟨{ console := true, idx := 3, op := 0x501, tag := 0x77, plen := 48, nbuf := 0, pay := [0x5, 0x1A01, 0x12345678], data := [] }, { setRegs [] Dev.reset with now := 100000, mail := { Mail.reset with cmds := [{ console := true, idx := 3, op := 0x501, tag := 0x77, plen := 48, nbuf := 0, pay := [0x5, 0x1A01, 0x12345678], data := [] }] }, cfg := { Cfg.reset with claims := [{ cls := 0xB, first := 0x5, len := 0x1, holder := 2, tag := 0 }] } }, by decide +kernel⟩

theorem test_meets_DeviceAndLoopCommands_51 : ∃ (c : Cmd) (t : Fin 48) (d : Dev), (d.nextCmd 0x502 = some c) ∧ (c.bufsOk = true) ∧ (c.num64 0 = 2 ^ t.val) ∧ (d.claimed 0x0B t 1 = true) ∧ (d.ev.f3 = false) ∧ (d.taskState t = 1) ∧ ((d.task t).steps = []) :=
  ⟨{ console := true, idx := 3, op := 0x502, tag := 0x77, plen := 48, nbuf := 0, pay := [0x20, 0x0], data := [] }, 5, { setRegs [(AHD_LTt_CFG 5, 1), (AHD_LTt_STAT 5, 1)] Dev.reset with now := 100000, mail := { Mail.reset with cmds := [{ console := true, idx := 3, op := 0x502, tag := 0x77, plen := 48, nbuf := 0, pay := [0x20, 0x0], data := [] }] }, cfg := { Cfg.reset with claims := [{ cls := 0xB, first := 0x5, len := 0x1, holder := 2, tag := 0 }] } }, by decide +kernel⟩

theorem test_meets_DeviceAndLoopCommands_52 : ∃ (c : Cmd) (t : Fin 48) (d : Dev), (d.nextCmd 0x502 = some c) ∧ (c.bufsOk = true) ∧ (c.num64 0 = 2 ^ t.val) ∧ (d.claimed 0x0B t 1 = false) :=
  ⟨{ console := true, idx := 3, op := 0x502, tag := 0x77, plen := 48, nbuf := 0, pay := [0x20, 0x0], data := [] }, 5, { setRegs [] Dev.reset with now := 100000, mail := { Mail.reset with cmds := [{ console := true, idx := 3, op := 0x502, tag := 0x77, plen := 48, nbuf := 0, pay := [0x20, 0x0], data := [] }] } }, by decide +kernel⟩

theorem test_meets_DeviceAndLoopCommands_53 : ∃ (c : Cmd) (d : Dev), (d.nextCmd 0x503 = some c) ∧ (c.bufsOk = true) ∧ (c.num 0 < 48) ∧ (c.num 3 < 65536) ∧ ((d.startPrep (c.num 0) c).taskOk (c.num 0) = true) ∧ (d.claimed 0x0B (c.num 0) 1 = true) ∧ (d.ev.f3 = false) ∧ (d.taskState (c.num 0) = 0 ∨ d.taskState (c.num 0) = 3) :=
  ⟨{ console := true, idx := 3, op := 0x503, tag := 0x77, plen := 48, nbuf := 0, pay := [0x2, 0x1111, 0x22, 0x3333], data := [] }, { setRegs [(AHD_TBb_ID 3, 0x80000207), (AHD_TBb_GRP 3, 0x21000C), (AHD_TBb_SHD 3, 0x40100), (AHD_TBb_WIN 3, 0x4000), (AHD_LTt_CFG 2, 0x30000), (AHD_LTt_TIM 2, 0x14021205), (ET_CADc_D 0, 1)] Dev.reset with now := 100000, mail := { Mail.reset with cmds := [{ console := true, idx := 3, op := 0x503, tag := 0x77, plen := 48, nbuf := 0, pay := [0x2, 0x1111, 0x22, 0x3333], data := [] }] }, cfg := { Cfg.reset with claims := [{ cls := 0xB, first := 0x2, len := 0x1, holder := 2, tag := 0 }] } }, by decide +kernel⟩

theorem test_meets_DeviceAndLoopCommands_54 : ∃ (c : Cmd) (d : Dev), (d.nextCmd 0x503 = some c) ∧ (c.bufsOk = true) ∧ (c.num 0 < 48) ∧ (c.num 3 < 65536) ∧ ((d.startPrep (c.num 0) c).taskOk (c.num 0) = false) :=
  ⟨{ console := true, idx := 3, op := 0x503, tag := 0x77, plen := 48, nbuf := 0, pay := [0x2, 0x1111, 0x22, 0x3333], data := [] }, { setRegs [] Dev.reset with now := 100000, mail := { Mail.reset with cmds := [{ console := true, idx := 3, op := 0x503, tag := 0x77, plen := 48, nbuf := 0, pay := [0x2, 0x1111, 0x22, 0x3333], data := [] }] } }, by decide +kernel⟩

theorem test_meets_DeviceAndLoopCommands_55 : ∃ (c : Cmd) (s : LStep) (d : Dev), (d.nextCmd 0x504 = some c) ∧ (c.bufsOk = true) ∧ (c.num 0 < 48) ∧ (d.claimed 0x0B (c.num 0) 1 = true) ∧ (d.ev.f3 = false) ∧ (d.taskState (c.num 0) = 1) ∧ (d.step? (c.num 0) (d.front (c.num 0)) = some s) ∧ (s.commitAt = none) :=
  ⟨{ console := true, idx := 3, op := 0x504, tag := 0x77, plen := 48, nbuf := 0, pay := [0x2], data := [] }, LStep.fresh 0 0, { setRegs [(AHD_LTt_CFG 2, 1), (AHD_LTt_STAT 2, 1)] Dev.reset with now := 100000, mail := { Mail.reset with cmds := [{ console := true, idx := 3, op := 0x504, tag := 0x77, plen := 48, nbuf := 0, pay := [0x2], data := [] }] }, cfg := { Cfg.reset with claims := [{ cls := 0xB, first := 0x2, len := 0x1, holder := 2, tag := 0 }] }, ahd := { Ahd.reset with tasks := [(2, { Task.reset with steps := [LStep.fresh 0 0] })] } }, by decide +kernel⟩

theorem test_meets_DeviceAndLoopCommands_56 : ∃ (c : Cmd) (d : Dev), (d.nextCmd 0x504 = some c) ∧ (c.bufsOk = true) ∧ (c.num 0 < 48) ∧ (d.claimed 0x0B (c.num 0) 1 = true) ∧ (d.taskState (c.num 0) ≠ 1) :=
  ⟨{ console := true, idx := 3, op := 0x504, tag := 0x77, plen := 48, nbuf := 0, pay := [0x2], data := [] }, { setRegs [] Dev.reset with now := 100000, mail := { Mail.reset with cmds := [{ console := true, idx := 3, op := 0x504, tag := 0x77, plen := 48, nbuf := 0, pay := [0x2], data := [] }] }, cfg := { Cfg.reset with claims := [{ cls := 0xB, first := 0x2, len := 0x1, holder := 2, tag := 0 }] } }, by decide +kernel⟩

theorem test_meets_DeviceAndLoopCommands_57 : ∃ (c : Cmd) (t : Fin 48) (d : Dev), (d.nextCmd 0x505 = some c) ∧ (c.bufsOk = true) ∧ (c.num64 0 = 2 ^ t.val) ∧ (d.claimed 0x0B t 1 = true) ∧ (d.ev.f3 = false) :=
  ⟨{ console := true, idx := 3, op := 0x505, tag := 0x77, plen := 48, nbuf := 0, pay := [0x0, 0x8000], data := [] }, 47, { setRegs [] Dev.reset with now := 100000, mail := { Mail.reset with cmds := [{ console := true, idx := 3, op := 0x505, tag := 0x77, plen := 48, nbuf := 0, pay := [0x0, 0x8000], data := [] }] }, cfg := { Cfg.reset with claims := [{ cls := 0xB, first := 0x2F, len := 0x1, holder := 2, tag := 0 }] } }, by decide +kernel⟩

theorem test_meets_DeviceAndLoopCommands_58 : ∃ (c : Cmd) (d : Dev), (d.nextCmd 0x600 = some c) ∧ (c.bufsOk = true) ∧ (c.rsvd 0 0x1FF7 = false) ∧ (((d.wr (AHD_SNs_STAT_STATE (c.fld 0 2 0)) 0).snapCmd (c.fld 0 2 0) c).on (AHD_SNs_CTL_CFGERR (c.fld 0 2 0)) = false) ∧ (d.claimed 0x10 (c.fld 0 2 0) 1 = true) ∧ (d.on (AHD_SNs_STAT_STATE (c.fld 0 2 0)) = false) :=
  ⟨{ console := true, idx := 3, op := 0x600, tag := 0x77, plen := 48, nbuf := 0, pay := [0x10A3, 0x101010, 0x5, 0x102020, 0x200, 0x0, 0x1000], data := [] }, { setRegs [] Dev.reset with now := 100000, mail := { Mail.reset with cmds := [{ console := true, idx := 3, op := 0x600, tag := 0x77, plen := 48, nbuf := 0, pay := [0x10A3, 0x101010, 0x5, 0x102020, 0x200, 0x0, 0x1000], data := [] }] }, cfg := { Cfg.reset with claims := [{ cls := 0x10, first := 0x3, len := 0x1, holder := 2, tag := 0 }] } }, by decide +kernel⟩

theorem test_meets_DeviceAndLoopCommands_59 : ∃ (c : Cmd) (d : Dev), (d.nextCmd 0x601 = some c) ∧ (c.bufsOk = true) ∧ (c.num 0 < 8) ∧ (d.claimed 0x10 (c.num 0) 1 = true) ∧ (d.rd (AHD_SNs_STAT_STATE (c.num 0)) = 1) :=
  ⟨{ console := true, idx := 3, op := 0x601, tag := 0x77, plen := 48, nbuf := 0, pay := [0x3], data := [] }, { setRegs [(AHD_SNs_STAT 3, 1)] Dev.reset with now := 100000, mail := { Mail.reset with cmds := [{ console := true, idx := 3, op := 0x601, tag := 0x77, plen := 48, nbuf := 0, pay := [0x3], data := [] }] }, cfg := { Cfg.reset with claims := [{ cls := 0x10, first := 0x3, len := 0x1, holder := 2, tag := 0 }] } }, by decide +kernel⟩

theorem test_meets_DeviceAndLoopCommands_60 : ∃ (c : Cmd) (d : Dev), (d.nextCmd 0x602 = some c) ∧ (c.bufsOk = true) ∧ (c.num 0 < 8) :=
  ⟨{ console := true, idx := 3, op := 0x602, tag := 0x77, plen := 48, nbuf := 0, pay := [0x7], data := [] }, { setRegs [] Dev.reset with now := 100000, mail := { Mail.reset with cmds := [{ console := true, idx := 3, op := 0x602, tag := 0x77, plen := 48, nbuf := 0, pay := [0x7], data := [] }] } }, by decide +kernel⟩

theorem test_meets_PortAndSystemCommands_1 : ∃ (c : Cmd) (d : Dev), (d.nextCmd 0x700 = some c) ∧ (c.bufsOk = true) ∧ (c.fld 0 15 12 = 4) ∧ (c.rsvd 0 0xF03F = false) ∧ ((c.fld 0 5 0) < 48) :=
  ⟨{ console := true, idx := 3, op := 0x700, tag := 0x77, plen := 48, nbuf := 0, pay := [0x402F], data := [] }, { setRegs [] Dev.reset with now := 100000, mail := { Mail.reset with cmds := [{ console := true, idx := 3, op := 0x700, tag := 0x77, plen := 48, nbuf := 0, pay := [0x402F], data := [] }] } }, by decide +kernel⟩

theorem test_meets_PortAndSystemCommands_2 : ∃ (c : Cmd) (d : Dev), (d.nextCmd 0x700 = some c) ∧ (c.bufsOk = true) ∧ (c.rsvd 0 0xF03F = false) ∧ ((c.fld 0 5 0) < hbCount (c.fld 0 15 12)) :=
  ⟨{ console := true, idx := 3, op := 0x700, tag := 0x77, plen := 48, nbuf := 0, pay := [0x3], data := [] }, { setRegs [] Dev.reset with now := 100000, mail := { Mail.reset with cmds := [{ console := true, idx := 3, op := 0x700, tag := 0x77, plen := 48, nbuf := 0, pay := [0x3], data := [] }] } }, by decide +kernel⟩

theorem test_meets_PortAndSystemCommands_3 : ∃ (c : Cmd) (d : Dev), (d.nextCmd 0x700 = some c) ∧ (c.bufsOk = true) ∧ (hbCount (c.fld 0 15 12) ≤ (c.fld 0 5 0)) :=
  ⟨{ console := true, idx := 3, op := 0x700, tag := 0x77, plen := 48, nbuf := 0, pay := [0x2008], data := [] }, { setRegs [] Dev.reset with now := 100000, mail := { Mail.reset with cmds := [{ console := true, idx := 3, op := 0x700, tag := 0x77, plen := 48, nbuf := 0, pay := [0x2008], data := [] }] } }, by decide +kernel⟩

theorem test_meets_PortAndSystemCommands_4 : ∃ (c : Cmd) (d : Dev), (d.nextCmd 0x701 = some c) ∧ (c.bufsOk = true) ∧ (c.num 0 = 1) ∧ (c.pairBad 0 = false) ∧ (d.pairUnclaimed c 0 = false) ∧ (d.ev.f3 = false) ∧ (d.pairRefused (c.pairAddr 0) (c.arg 2) = 0) :=
  ⟨{ console := true, idx := 3, op := 0x701, tag := 0x77, plen := 48, nbuf := 0, pay := [0x1, 0x30104, 0x55], data := [] }, { setRegs [] Dev.reset with now := 100000, mail := { Mail.reset with cmds := [{ console := true, idx := 3, op := 0x701, tag := 0x77, plen := 48, nbuf := 0, pay := [0x1, 0x30104, 0x55], data := [] }] }, cfg := { Cfg.reset with claims := [{ cls := 0x3, first := 0x0, len := 0x30, holder := 2, tag := 0 }] } }, by decide +kernel⟩

theorem test_meets_PortAndSystemCommands_5 : ∃ (c : Cmd) (k : Nat) (d : Dev), (d.nextCmd 0x701 = some c) ∧ (c.bufsOk = true) ∧ (c.num 0 = 2) ∧ (c.pairBad 0 = false) ∧ (d.pairUnclaimed c 0 = false) ∧ (c.pairBad 1 = false) ∧ (d.pairUnclaimed c 1 = false) ∧ (d.ev.f3 = false) ∧ (d.pairRefused (c.pairAddr 0) (c.arg 2) = 0) ∧ ((d.harbourWrite (c.pairAddr 0) (c.arg 2)).pairRefused (c.pairAddr 1) (c.arg 4) = k) ∧ (k ≠ 0) :=
  ⟨{ console := true, idx := 3, op := 0x701, tag := 0x77, plen := 48, nbuf := 0, pay := [0x2, 0x30104, 0x55, 0x30100, 0x0], data := [] }, 0x14, { setRegs [] Dev.reset with now := 100000, mail := { Mail.reset with cmds := [{ console := true, idx := 3, op := 0x701, tag := 0x77, plen := 48, nbuf := 0, pay := [0x2, 0x30104, 0x55, 0x30100, 0x0], data := [] }] }, cfg := { Cfg.reset with claims := [{ cls := 0x3, first := 0x0, len := 0x30, holder := 2, tag := 0 }] } }, by decide +kernel⟩

theorem test_meets_PortAndSystemCommands_6 : ∃ (c : Cmd) (d : Dev), (d.nextCmd 0x701 = some c) ∧ (c.bufsOk = true) ∧ (c.num 0 = 1) ∧ (c.pairBad 0 = false) ∧ (d.pairUnclaimed c 0 = true) :=
  ⟨{ console := true, idx := 3, op := 0x701, tag := 0x77, plen := 48, nbuf := 0, pay := [0x1, 0x30104, 0x55], data := [] }, { setRegs [] Dev.reset with now := 100000, mail := { Mail.reset with cmds := [{ console := true, idx := 3, op := 0x701, tag := 0x77, plen := 48, nbuf := 0, pay := [0x1, 0x30104, 0x55], data := [] }] } }, by decide +kernel⟩

theorem test_meets_PortAndSystemCommands_7 : ∃ (c : Cmd) (d : Dev), (d.nextCmd 0x701 = some c) ∧ (c.bufsOk = true) ∧ (c.num 0 = 0 ∨ 5 < c.num 0) :=
  ⟨{ console := true, idx := 3, op := 0x701, tag := 0x77, plen := 48, nbuf := 0, pay := [0x6], data := [] }, { setRegs [] Dev.reset with now := 100000, mail := { Mail.reset with cmds := [{ console := true, idx := 3, op := 0x701, tag := 0x77, plen := 48, nbuf := 0, pay := [0x6], data := [] }] } }, by decide +kernel⟩

theorem test_meets_PortAndSystemCommands_8 : ∃ (c : Cmd) (d : Dev), (d.nextCmd 0x702 = some c) ∧ (c.bufsOk = true) ∧ (c.num 0 = 1) ∧ (d.ev.f3 = false) :=
  ⟨{ console := true, idx := 3, op := 0x702, tag := 0x77, plen := 48, nbuf := 0, pay := [0x1], data := [] }, { setRegs [] Dev.reset with now := 100000, mail := { Mail.reset with cmds := [{ console := true, idx := 3, op := 0x702, tag := 0x77, plen := 48, nbuf := 0, pay := [0x1], data := [] }] } }, by decide +kernel⟩

theorem test_meets_PortAndSystemCommands_9 : ∃ (c : Cmd) (d : Dev), (d.nextCmd 0x702 = some c) ∧ (c.bufsOk = true) ∧ (c.num 0 = 0) ∧ (d.ev.f3 = false) :=
  ⟨{ console := true, idx := 3, op := 0x702, tag := 0x77, plen := 48, nbuf := 0, pay := [0x0], data := [] }, { setRegs [(PW_CTRL, 1)] Dev.reset with now := 100000, mail := { Mail.reset with cmds := [{ console := true, idx := 3, op := 0x702, tag := 0x77, plen := 48, nbuf := 0, pay := [0x0], data := [] }] } }, by decide +kernel⟩

theorem test_meets_PortAndSystemCommands_10 : ∃ (c : Cmd) (d : Dev), (d.nextCmd 0x702 = some c) ∧ (c.bufsOk = true) ∧ (c.num 0 ≤ 1) ∧ (d.ev.f3 = true) :=
  ⟨{ console := true, idx := 3, op := 0x702, tag := 0x77, plen := 48, nbuf := 0, pay := [0x0], data := [] }, { setRegs [] Dev.reset with now := 100000, mail := { Mail.reset with cmds := [{ console := true, idx := 3, op := 0x702, tag := 0x77, plen := 48, nbuf := 0, pay := [0x0], data := [] }] }, ev := { Events.reset with f3 := true } }, by decide +kernel⟩

theorem test_meets_PortAndSystemCommands_11 : ∃ (c : Cmd) (p : Fin 48) (d : Dev), (d.nextCmd 0x703 = some c) ∧ (c.bufsOk = true) ∧ (c.num64 0 = 2 ^ p.val) ∧ (d.claimed 0x01 p 1 = true) ∧ (d.ev.f3 = false) ∧ ((d.pair p).tripAt ≠ some d.now) :=
  ⟨{ console := true, idx := 3, op := 0x703, tag := 0x77, plen := 48, nbuf := 0, pay := [0x20, 0x0], data := [] }, 5, { setRegs [(PW_PAIRp_STAT 5, 0xFFFFFFFF)] Dev.reset with now := 100000, mail := { Mail.reset with cmds := [{ console := true, idx := 3, op := 0x703, tag := 0x77, plen := 48, nbuf := 0, pay := [0x20, 0x0], data := [] }] }, cfg := { Cfg.reset with claims := [{ cls := 0x1, first := 0x5, len := 0x1, holder := 2, tag := 0 }] } }, by decide +kernel⟩

theorem test_meets_PortAndSystemCommands_12 : ∃ (c : Cmd) (l : List (BitVec 32 × Bool)) (d : Dev), (d.nextCmd 0x704 = some c) ∧ (c.bufsOk = true) ∧ (c.noBuf 1 (4 * c.fld 0 31 16) = false) ∧ (c.rsvd 0 0xFFFF0007 = false) ∧ (d.claimed 0x09 (c.fld 0 2 0) 1 = true) ∧ ((d.hfifo (c.fld 0 2 0)).items = l) ∧ (l.length ≤ c.fld 0 31 16) ∧ ((d.hfifo (c.fld 0 2 0)).prev.all (fun q => decide (q.at_ ≠ d.now)) = true) :=
  ⟨{ console := true, idx := 3, op := 0x704, tag := 0x77, plen := 48, nbuf := 1, pay := [0x1000, 0x0, 0x40, 0x1, 0x30002], data := [] }, [(7, true), (8, false)], { setRegs [] Dev.reset with now := 100000, mail := { Mail.reset with cmds := [{ console := true, idx := 3, op := 0x704, tag := 0x77, plen := 48, nbuf := 1, pay := [0x1000, 0x0, 0x40, 0x1, 0x30002], data := [] }] }, cfg := { Cfg.reset with claims := [{ cls := 0x9, first := 0x2, len := 0x1, holder := 2, tag := 0 }] }, hb := { Harb.reset with fifo := [(2, { HFifo.reset with items := [(7, true), (8, false)] })] } }, by decide +kernel⟩

theorem test_meets_PortAndSystemCommands_13 : ∃ (c : Cmd) (cls first len : Nat) (d : Dev), (d.nextCmd 0x800 = some c) ∧ (c.bufsOk = true) ∧ (c.nbuf = 0) ∧ (c.num 0 = 1) ∧ (claimEntry [c.arg 1, c.arg 2, c.arg 3, c.arg 4] = some (cls, first, len, false)) ∧ (d.cfg.claims.any (fun (x : Claim) => x.meets cls first len) = false) ∧ (d.ev.f3 = false) :=
  ⟨{ console := true, idx := 3, op := 0x800, tag := 0x77, plen := 48, nbuf := 0, pay := [0x1, 0x20003, 0x2E, 0x0, 0x0], data := [] }, 3, 46, 2, { setRegs [] Dev.reset with now := 100000, mail := { Mail.reset with cmds := [{ console := true, idx := 3, op := 0x800, tag := 0x77, plen := 48, nbuf := 0, pay := [0x1, 0x20003, 0x2E, 0x0, 0x0], data := [] }] } }, by decide +kernel⟩

theorem test_meets_PortAndSystemCommands_14 : ∃ (c : Cmd) (cls first len : Nat) (d : Dev), (d.nextCmd 0x800 = some c) ∧ (c.bufsOk = true) ∧ (c.nbuf = 0) ∧ (c.num 0 = 1) ∧ (claimEntry [c.arg 1, c.arg 2, c.arg 3, c.arg 4] = some (cls, first, len, false)) ∧ (d.cfg.claims.any (fun (x : Claim) => x.meets cls first len) = true) :=
  ⟨{ console := true, idx := 3, op := 0x800, tag := 0x77, plen := 48, nbuf := 0, pay := [0x1, 0x20003, 0x2E, 0x0, 0x0], data := [] }, 3, 46, 2, { setRegs [] Dev.reset with now := 100000, mail := { Mail.reset with cmds := [{ console := true, idx := 3, op := 0x800, tag := 0x77, plen := 48, nbuf := 0, pay := [0x1, 0x20003, 0x2E, 0x0, 0x0], data := [] }] }, cfg := { Cfg.reset with claims := [{ cls := 0x3, first := 0x2F, len := 0x1, holder := 2, tag := 0 }] } }, by decide +kernel⟩

theorem test_meets_PortAndSystemCommands_15 : ∃ (c : Cmd) (cls first len : Nat) (d : Dev), (d.nextCmd 0x800 = some c) ∧ (c.bufsOk = true) ∧ (c.nbuf = 0) ∧ (c.num 0 = 1) ∧ (claimEntry [c.arg 1, c.arg 2, c.arg 3, c.arg 4] = some (cls, first, len, true)) ∧ (d.claimed cls first len = true) ∧ (d.ev.f3 = false) :=
  ⟨{ console := true, idx := 3, op := 0x800, tag := 0x77, plen := 48, nbuf := 0, pay := [0x1, 0x10103, 0x2E, 0x0, 0x0], data := [] }, 3, 46, 1, { setRegs [] Dev.reset with now := 100000, mail := { Mail.reset with cmds := [{ console := true, idx := 3, op := 0x800, tag := 0x77, plen := 48, nbuf := 0, pay := [0x1, 0x10103, 0x2E, 0x0, 0x0], data := [] }] }, cfg := { Cfg.reset with claims := [{ cls := 0x3, first := 0x2D, len := 0x3, holder := 2, tag := 0 }] } }, by decide +kernel⟩

theorem test_meets_PortAndSystemCommands_16 : ∃ (c : Cmd) (d : Dev), (d.nextCmd 0x800 = some c) ∧ (c.bufsOk = true) ∧ (c.nbuf = 0) ∧ (c.num 0 = 1) ∧ (claimEntry [c.arg 1, c.arg 2, c.arg 3, c.arg 4] = none) :=
  ⟨{ console := true, idx := 3, op := 0x800, tag := 0x77, plen := 48, nbuf := 0, pay := [0x1, 0x30003, 0x2E, 0x0, 0x0], data := [] }, { setRegs [] Dev.reset with now := 100000, mail := { Mail.reset with cmds := [{ console := true, idx := 3, op := 0x800, tag := 0x77, plen := 48, nbuf := 0, pay := [0x1, 0x30003, 0x2E, 0x0, 0x0], data := [] }] } }, by decide +kernel⟩

theorem test_meets_PortAndSystemCommands_17 : ∃ (c : Cmd) (k : Claim) (d : Dev), (d.nextCmd 0x801 = some c) ∧ (c.bufsOk = true) ∧ (c.rsvd 2 0xFF = false) ∧ (c.num 0 ≠ 0x13) ∧ (c.num 1 < claimUnits (c.num 0)) ∧ (d.cfg.claims.filter (fun (x : Claim) => x.meets (c.num 0) (c.num 1) 1) = [k]) :=
  ⟨{ console := true, idx := 3, op := 0x801, tag := 0x77, plen := 48, nbuf := 0, pay := [0x3, 0x2E], data := [] }, { cls := 3, first := 45, len := 3, holder := 2, tag := 0 }, { setRegs [] Dev.reset with now := 100000, mail := { Mail.reset with cmds := [{ console := true, idx := 3, op := 0x801, tag := 0x77, plen := 48, nbuf := 0, pay := [0x3, 0x2E], data := [] }] }, cfg := { Cfg.reset with claims := [{ cls := 0x3, first := 0x2D, len := 0x3, holder := 2, tag := 0 }] } }, by decide +kernel⟩

theorem test_meets_PortAndSystemCommands_18 : ∃ (c : Cmd) (d : Dev), (d.nextCmd 0x801 = some c) ∧ (c.bufsOk = true) ∧ (c.rsvd 2 0xFF = false) ∧ (c.num 0 ≠ 0x13) ∧ (c.num 1 < claimUnits (c.num 0)) ∧ (d.cfg.claims.any (fun (x : Claim) => x.meets (c.num 0) (c.num 1) 1) = false) :=
  ⟨{ console := true, idx := 3, op := 0x801, tag := 0x77, plen := 48, nbuf := 0, pay := [0x3, 0x2E], data := [] }, { setRegs [] Dev.reset with now := 100000, mail := { Mail.reset with cmds := [{ console := true, idx := 3, op := 0x801, tag := 0x77, plen := 48, nbuf := 0, pay := [0x3, 0x2E], data := [] }] } }, by decide +kernel⟩

theorem test_meets_PortAndSystemCommands_19 : ∃ (c : Cmd) (d : Dev), (d.nextCmd 0x802 = some c) ∧ (c.bufsOk = true) ∧ (c.noBuf 1 (16 * d.cfg.claims.length) = false) :=
  ⟨{ console := true, idx := 3, op := 0x802, tag := 0x77, plen := 48, nbuf := 1, pay := [0x1000, 0x0, 0x280, 0x1], data := [] }, { setRegs [] Dev.reset with now := 100000, mail := { Mail.reset with cmds := [{ console := true, idx := 3, op := 0x802, tag := 0x77, plen := 48, nbuf := 1, pay := [0x1000, 0x0, 0x280, 0x1], data := [] }] } }, by decide +kernel⟩

theorem test_meets_PortAndSystemCommands_20 : ∃ (c : Cmd) (d : Dev), (d.nextCmd 0x802 = some c) ∧ (c.bufsOk = true) ∧ (c.noBuf 1 (16 * d.cfg.claims.length) = true) :=
  ⟨{ console := true, idx := 3, op := 0x802, tag := 0x77, plen := 48, nbuf := 1, pay := [0x1000, 0x0, 0x3F, 0x1], data := [] }, { setRegs [] Dev.reset with now := 100000, mail := { Mail.reset with cmds := [{ console := true, idx := 3, op := 0x802, tag := 0x77, plen := 48, nbuf := 1, pay := [0x1000, 0x0, 0x3F, 0x1], data := [] }] } }, by decide +kernel⟩

theorem test_meets_PortAndSystemCommands_21 : ∃ (c : Cmd) (b : List (BitVec 8)) (d : Dev), (d.nextCmd 0x900 = some c) ∧ (c.bufsOk = true) ∧ (c.noBuf 1 (c.num 2) = false) ∧ (c.num 2 ≤ 64) ∧ (packetLens (c.num64 0) (c.num 2) = [c.num 2]) ∧ ((d.niRead 24 (c.num64 0) (c.num 2)).1 = (0, b)) ∧ ((d.niRead 24 (c.num64 0) (c.num 2)).2.net.stall = false) :=
  ⟨{ console := true, idx := 3, op := 0x900, tag := 0x77, plen := 48, nbuf := 1, pay := [0x1000, 0x0, 0x40, 0x1, 0x20081000, 0x0, 0x8], data := [] }, [1, 2, 3, 4, 5, 6, 7, 8], { setRegs [(PN_CTRL, 0), (PC_DOMUP0 + 12, 0xFF)] Dev.reset with now := 100000, mail := { Mail.reset with cmds := [{ console := true, idx := 3, op := 0x900, tag := 0x77, plen := 48, nbuf := 1, pay := [0x1000, 0x0, 0x40, 0x1, 0x20081000, 0x0, 0x8], data := [] }] }, mem := [(0x20081000, 1), (0x20081001, 2), (0x20081002, 3), (0x20081003, 4), (0x20081004, 5), (0x20081005, 6), (0x20081006, 7), (0x20081007, 8)] }, by decide +kernel⟩

theorem test_meets_PortAndSystemCommands_22 : ∃ (c : Cmd) (k : Nat) (d : Dev), (d.nextCmd 0x900 = some c) ∧ (c.bufsOk = true) ∧ (c.noBuf 1 (c.num 2) = false) ∧ (c.num 2 ≤ 64) ∧ (packetLens (c.num64 0) (c.num 2) = [c.num 2]) ∧ ((d.niRead 24 (c.num64 0) (c.num 2)).1.1 = k) ∧ (k ≠ 0) ∧ ((d.niRead 24 (c.num64 0) (c.num 2)).2.net.stall = false) :=
  ⟨{ console := true, idx := 3, op := 0x900, tag := 0x77, plen := 48, nbuf := 1, pay := [0x1000, 0x0, 0x40, 0x1, 0xF000000, 0x0, 0x8], data := [] }, 1, { setRegs [(PN_CTRL, 0)] Dev.reset with now := 100000, mail := { Mail.reset with cmds := [{ console := true, idx := 3, op := 0x900, tag := 0x77, plen := 48, nbuf := 1, pay := [0x1000, 0x0, 0x40, 0x1, 0xF000000, 0x0, 0x8], data := [] }] } }, by decide +kernel⟩

theorem test_meets_PortAndSystemCommands_23 : ∃ (c : Cmd) (d : Dev), (d.nextCmd 0x901 = some c) ∧ (c.bufsOk = true) ∧ (c.noBuf 0 (c.num 2) = false) ∧ (c.num 2 ≤ 64) ∧ (packetLens (c.num64 0) (c.num 2) = [c.num 2]) ∧ ((d.bufIn c (c.num 2)).length = c.num 2) ∧ ((d.niWrite 24 (c.num64 0) (d.bufIn c (c.num 2))).1 = 0) ∧ ((d.niWrite 24 (c.num64 0) (d.bufIn c (c.num 2))).2.net.stall = false) :=
  ⟨{ console := true, idx := 3, op := 0x901, tag := 0x77, plen := 48, nbuf := 1, pay := [0x1000, 0x0, 0x8, 0x0, 0x20081000, 0x0, 0x8], data := [1, 2, 3, 4, 5, 6, 7, 8] }, { setRegs [(PN_CTRL, 0), (PC_DOMUP0 + 12, 0xFF)] Dev.reset with now := 100000, mail := { Mail.reset with cmds := [{ console := true, idx := 3, op := 0x901, tag := 0x77, plen := 48, nbuf := 1, pay := [0x1000, 0x0, 0x8, 0x0, 0x20081000, 0x0, 0x8], data := [1, 2, 3, 4, 5, 6, 7, 8] }] } }, by decide +kernel⟩

theorem test_meets_PortAndSystemCommands_24 : ∃ (c : Cmd) (k : Nat) (d : Dev), (d.nextCmd 0x901 = some c) ∧ (c.bufsOk = true) ∧ (c.noBuf 0 (c.num 2) = false) ∧ (c.num 2 ≤ 64) ∧ (packetLens (c.num64 0) (c.num 2) = [c.num 2]) ∧ ((d.bufIn c (c.num 2)).length = c.num 2) ∧ ((d.niWrite 24 (c.num64 0) (d.bufIn c (c.num 2))).1 = k) ∧ (k ≠ 0) ∧ ((d.niWrite 24 (c.num64 0) (d.bufIn c (c.num 2))).2.net.stall = false) :=
  ⟨{ console := true, idx := 3, op := 0x901, tag := 0x77, plen := 48, nbuf := 1, pay := [0x1000, 0x0, 0x8, 0x0, 0xF000000, 0x0, 0x8], data := [] }, 1, { setRegs [(PN_CTRL, 0)] Dev.reset with now := 100000, mail := { Mail.reset with cmds := [{ console := true, idx := 3, op := 0x901, tag := 0x77, plen := 48, nbuf := 1, pay := [0x1000, 0x0, 0x8, 0x0, 0xF000000, 0x0, 0x8], data := [] }] } }, by decide +kernel⟩

theorem test_meets_PortAndSystemCommands_25 : ∃ (c : Cmd) (d : Dev), (d.nextCmd 0x902 = some c) ∧ (c.bufsOk = true) :=
  ⟨{ console := true, idx := 3, op := 0x902, tag := 0x77, plen := 48, nbuf := 0, pay := [], data := [] }, { setRegs [] Dev.reset with now := 100000, mail := { Mail.reset with cmds := [{ console := true, idx := 3, op := 0x902, tag := 0x77, plen := 48, nbuf := 0, pay := [], data := [] }] } }, by decide +kernel⟩

theorem test_meets_PortAndSystemCommands_26 : ∃ (c : Cmd) (r : RowRepair) (d : Dev), (d.nextCmd 0x903 = some c) ∧ (c.bufsOk = true) ∧ (d.on SS_STAT_BUSY = false) ∧ (c.rsvd 0 0x7FF1 = false) ∧ (c.fld 0 0 0 = 0) ∧ (c.num 1 ≤ 511) ∧ (r = { cls := 0, isle := 0, bank := c.fld 0 7 4, row := c.num 1 }) ∧ (d.ssActive = none) ∧ ((d.integ.applied.filter (fun x => x.cls = 0 && x.isle = 0 && x.bank = r.bank)).eraseDups.length < 16) ∧ ((d.ssCommit 3 (some (wordBytes r.word))).1.1 = 0) :=
  ⟨{ console := true, idx := 3, op := 0x903, tag := 0x77, plen := 48, nbuf := 0, pay := [0x30, 0x1FF], data := [] }, { cls := 0, isle := 0, bank := 3, row := 0x1FF }, { setRegs [] Dev.reset with now := 100000, mail := { Mail.reset with cmds := [{ console := true, idx := 3, op := 0x903, tag := 0x77, plen := 48, nbuf := 0, pay := [0x30, 0x1FF], data := [] }] } }, by decide +kernel⟩

theorem test_meets_PortAndSystemCommands_27 : ∃ (c : Cmd) (d : Dev), (d.nextCmd 0x903 = some c) ∧ (c.bufsOk = true) ∧ (d.on SS_STAT_BUSY = false) ∧ (c.fld 0 0 0 = 0) ∧ (511 < c.num 1) :=
  ⟨{ console := true, idx := 3, op := 0x903, tag := 0x77, plen := 48, nbuf := 0, pay := [0x30, 0x200], data := [] }, { setRegs [] Dev.reset with now := 100000, mail := { Mail.reset with cmds := [{ console := true, idx := 3, op := 0x903, tag := 0x77, plen := 48, nbuf := 0, pay := [0x30, 0x200], data := [] }] } }, by decide +kernel⟩

theorem test_meets_PortAndSystemCommands_28 : ∃ (c : Cmd) (d : Dev), (d.nextCmd 0x903 = some c) ∧ (c.bufsOk = true) ∧ (d.on SS_STAT_BUSY = true) :=
  ⟨{ console := true, idx := 3, op := 0x903, tag := 0x77, plen := 48, nbuf := 0, pay := [0x30, 0x1FF], data := [] }, { setRegs [(SS_STAT, 1)] Dev.reset with now := 100000, mail := { Mail.reset with cmds := [{ console := true, idx := 3, op := 0x903, tag := 0x77, plen := 48, nbuf := 0, pay := [0x30, 0x1FF], data := [] }] } }, by decide +kernel⟩

theorem test_meets_PortAndSystemCommands_29 : ∃ (c : Cmd) (d : Dev), (d.nextCmd 0x904 = some c) ∧ (c.bufsOk = true) ∧ (d.on SS_STAT_BUSY = false) ∧ (c.num 0 < 8) ∧ (d.rdBit (DC_CHc_STAT_RETIRED (c.fld 0 0 0)) (c.fld 0 2 1) = false) ∧ (d.on (DC_CHc_STAT_MIGR (c.fld 0 0 0)) = false) :=
  ⟨{ console := true, idx := 3, op := 0x904, tag := 0x77, plen := 48, nbuf := 0, pay := [0x5], data := [] }, { setRegs [] Dev.reset with now := 100000, mail := { Mail.reset with cmds := [{ console := true, idx := 3, op := 0x904, tag := 0x77, plen := 48, nbuf := 0, pay := [0x5], data := [] }] } }, by decide +kernel⟩

theorem test_meets_PortAndSystemCommands_30 : ∃ (c : Cmd) (d : Dev), (d.nextCmd 0x904 = some c) ∧ (c.bufsOk = true) ∧ (d.on SS_STAT_BUSY = false) ∧ (c.num 0 < 8) ∧ (d.rdBit (DC_CHc_STAT_RETIRED (c.fld 0 0 0)) (c.fld 0 2 1) = true) :=
  ⟨{ console := true, idx := 3, op := 0x904, tag := 0x77, plen := 48, nbuf := 0, pay := [0x5], data := [] }, { setRegs [(DC_CHc_STAT 1, 0xFFFFFFFF)] Dev.reset with now := 100000, mail := { Mail.reset with cmds := [{ console := true, idx := 3, op := 0x904, tag := 0x77, plen := 48, nbuf := 0, pay := [0x5], data := [] }] } }, by decide +kernel⟩

theorem test_meets_PortAndSystemCommands_31 : ∃ (c : Cmd) (d : Dev), (d.nextCmd 0x905 = some c) ∧ (c.bufsOk = true) ∧ (c.rsvd 0 0x7F03 = false) ∧ (c.num 3 ≤ 255) ∧ ((c.fld 0 1 0 = 1 → c.fld 0 14 8 < 96)) ∧ ((c.fld 0 1 0 = 2 → c.fld 0 14 8 < 4)) ∧ (d.on (MI_FLIPk_CTL_ARM (c.fld 0 1 0)) = false) :=
  ⟨{ console := true, idx := 3, op := 0x905, tag := 0x77, plen := 48, nbuf := 0, pay := [0x5F01, 0x11111111, 0x22222222, 0x33], data := [] }, { setRegs [] Dev.reset with now := 100000, mail := { Mail.reset with cmds := [{ console := true, idx := 3, op := 0x905, tag := 0x77, plen := 48, nbuf := 0, pay := [0x5F01, 0x11111111, 0x22222222, 0x33], data := [] }] } }, by decide +kernel⟩

theorem test_meets_PortAndSystemCommands_32 : ∃ (c : Cmd) (d : Dev), (d.nextCmd 0x905 = some c) ∧ (c.bufsOk = true) ∧ ((c.fld 0 1 0) = 1) ∧ (96 ≤ c.fld 0 14 8) :=
  ⟨{ console := true, idx := 3, op := 0x905, tag := 0x77, plen := 48, nbuf := 0, pay := [0x6001], data := [] }, { setRegs [] Dev.reset with now := 100000, mail := { Mail.reset with cmds := [{ console := true, idx := 3, op := 0x905, tag := 0x77, plen := 48, nbuf := 0, pay := [0x6001], data := [] }] } }, by decide +kernel⟩

theorem test_meets_PortAndSystemCommands_33 : ∃ (c : Cmd) (d : Dev), (d.nextCmd 0x906 = some c) ∧ (c.bufsOk = true) ∧ (c.rsvd 0 0x1F01 = false) ∧ (c.rsvd 2 0xFF = false) ∧ (c.num 1 % 16 = 0) ∧ (4 ≤ c.fld 0 12 8) ∧ (c.fld 0 12 8 ≤ 20) ∧ (d.on TS_CTRL_EN = false) ∧ (d.claimed 0x13 (c.num64 1) (16 * 2 ^ c.fld 0 12 8) = true) :=
  ⟨{ console := true, idx := 3, op := 0x906, tag := 0x77, plen := 48, nbuf := 0, pay := [0x401, 0x101000, 0x0], data := [] }, { setRegs [] Dev.reset with now := 100000, mail := { Mail.reset with cmds := [{ console := true, idx := 3, op := 0x906, tag := 0x77, plen := 48, nbuf := 0, pay := [0x401, 0x101000, 0x0], data := [] }] }, cfg := { Cfg.reset with claims := [{ cls := 0x13, first := 0x101000, len := 0x1000, holder := 2, tag := 0 }] } }, by decide +kernel⟩

theorem test_meets_PortAndSystemCommands_34 : ∃ (c : Cmd) (d : Dev), (d.nextCmd 0x906 = some c) ∧ (c.bufsOk = true) ∧ (c.fld 0 12 8 < 4 ∨ 20 < c.fld 0 12 8) :=
  ⟨{ console := true, idx := 3, op := 0x906, tag := 0x77, plen := 48, nbuf := 0, pay := [0x301, 0x101000, 0x0], data := [] }, { setRegs [] Dev.reset with now := 100000, mail := { Mail.reset with cmds := [{ console := true, idx := 3, op := 0x906, tag := 0x77, plen := 48, nbuf := 0, pay := [0x301, 0x101000, 0x0], data := [] }] } }, by decide +kernel⟩

theorem test_meets_PortAndSystemCommands_35 : ∃ (c : Cmd) (x : Fin 103) (d : Dev), (d.nextCmd 0xA00 = some c) ∧ (c.bufsOk = true) ∧ (c.num 0 = x.val) ∧ (x.val ≠ 96) ∧ ((x.val < 96 → d.isleUsed x = false)) :=
  ⟨{ console := true, idx := 3, op := 0xA00, tag := 0x77, plen := 48, nbuf := 0, pay := [0x61], data := [] }, 97, { setRegs [(PC_DOMUP0 + 12, 0xFF)] Dev.reset with now := 100000, mail := { Mail.reset with cmds := [{ console := true, idx := 3, op := 0xA00, tag := 0x77, plen := 48, nbuf := 0, pay := [0x61], data := [] }] } }, by decide +kernel⟩

theorem test_meets_PortAndSystemCommands_36 : ∃ (c : Cmd) (x : Fin 103) (d : Dev), (d.nextCmd 0xA00 = some c) ∧ (c.bufsOk = true) ∧ (c.num 0 = x.val + 256) ∧ (x.val ≠ 96) ∧ ((x.val < 96 → d.isleUsed x = false)) ∧ (d.domUp x = true) ∧ (x.val ∉ d.power.going) :=
  ⟨{ console := true, idx := 3, op := 0xA00, tag := 0x77, plen := 48, nbuf := 0, pay := [0x161], data := [] }, 97, { setRegs [(PC_DOMUP0 + 12, 0xFF)] Dev.reset with now := 100000, mail := { Mail.reset with cmds := [{ console := true, idx := 3, op := 0xA00, tag := 0x77, plen := 48, nbuf := 0, pay := [0x161], data := [] }] } }, by decide +kernel⟩

theorem test_meets_PortAndSystemCommands_37 : ∃ (c : Cmd) (x : Fin 103) (d : Dev), (d.nextCmd 0xA00 = some c) ∧ (c.bufsOk = true) ∧ (c.num 0 = x.val + 256) ∧ (x.val ≠ 96) ∧ ((x.val < 96 → d.isleUsed x = false)) ∧ (d.domUp x = false) :=
  ⟨{ console := true, idx := 3, op := 0xA00, tag := 0x77, plen := 48, nbuf := 0, pay := [0x105], data := [] }, 5, { setRegs [] Dev.reset with now := 100000, mail := { Mail.reset with cmds := [{ console := true, idx := 3, op := 0xA00, tag := 0x77, plen := 48, nbuf := 0, pay := [0x105], data := [] }] } }, by decide +kernel⟩

theorem test_meets_PortAndSystemCommands_38 : ∃ (c : Cmd) (d : Dev), (d.nextCmd 0xA00 = some c) ∧ (c.bufsOk = true) ∧ (c.rsvd 0 0x17F = false) ∧ (c.fld 0 6 0 < 96) ∧ (d.isleUsed (c.fld 0 6 0) = true) :=
  ⟨{ console := true, idx := 3, op := 0xA00, tag := 0x77, plen := 48, nbuf := 0, pay := [0x5], data := [] }, { setRegs [] Dev.reset with now := 100000, mail := { Mail.reset with cmds := [{ console := true, idx := 3, op := 0xA00, tag := 0x77, plen := 48, nbuf := 0, pay := [0x5], data := [] }] }, cfg := { Cfg.reset with used := [5] } }, by decide +kernel⟩

theorem test_meets_PortAndSystemCommands_39 : ∃ (c : Cmd) (d : Dev), (d.nextCmd 0xA01 = some c) ∧ (c.bufsOk = true) :=
  ⟨{ console := true, idx := 3, op := 0xA01, tag := 0x77, plen := 48, nbuf := 0, pay := [], data := [] }, { setRegs [] Dev.reset with now := 100000, mail := { Mail.reset with cmds := [{ console := true, idx := 3, op := 0xA01, tag := 0x77, plen := 48, nbuf := 0, pay := [], data := [] }] } }, by decide +kernel⟩

theorem test_meets_PortAndSystemCommands_40 : ∃ (c : Cmd) (d : Dev), (d.nextCmd 0xA02 = some c) ∧ (c.bufsOk = true) ∧ (c.rsvd 0 0x37 = false) ∧ (d.enabledBindings.any (fun x => d.rd (AHD_TBb_ID_ISLE x) / 12 = (c.fld 0 2 0)) = false) :=
  ⟨{ console := true, idx := 3, op := 0xA02, tag := 0x77, plen := 48, nbuf := 0, pay := [0x23], data := [] }, { setRegs [] Dev.reset with now := 100000, mail := { Mail.reset with cmds := [{ console := true, idx := 3, op := 0xA02, tag := 0x77, plen := 48, nbuf := 0, pay := [0x23], data := [] }] } }, by decide +kernel⟩

theorem test_meets_PortAndSystemCommands_41 : ∃ (c : Cmd) (d : Dev), (d.nextCmd 0xA02 = some c) ∧ (c.bufsOk = true) ∧ (c.rsvd 0 0x37 = true) :=
  ⟨{ console := true, idx := 3, op := 0xA02, tag := 0x77, plen := 48, nbuf := 0, pay := [0x40], data := [] }, { setRegs [] Dev.reset with now := 100000, mail := { Mail.reset with cmds := [{ console := true, idx := 3, op := 0xA02, tag := 0x77, plen := 48, nbuf := 0, pay := [0x40], data := [] }] } }, by decide +kernel⟩

theorem test_meets_PortAndSystemCommands_42 : ∃ (c : Cmd) (d : Dev), (d.nextCmd 0xB00 = some c) ∧ (c.bufsOk = true) ∧ (c.rsvd 0 0x707 = false) ∧ (c.rsvd 2 0xFFFF = false) ∧ ((c.fld 0 2 0) < 6) ∧ (((c.fld 0 2 0) < 4 ∧ c.fld 0 10 9 < 2) ∨ (4 ≤ (c.fld 0 2 0) ∧ c.fld 0 10 9 = 2)) ∧ (d.on (EN_Pp_CFG_EN (c.fld 0 2 0)) = false) ∧ (d.claimed 0x14 (c.fld 0 2 0) 1 = true) ∧ (d.ev.f3 = false) ∧ (d.ethUp = true) :=
  ⟨{ console := true, idx := 3, op := 0xB00, tag := 0x77, plen := 48, nbuf := 0, pay := [0x303, 0x11223344, 0x5566], data := [] }, { setRegs [(PC_DOMUP0 + 12, 0xFF)] Dev.reset with now := 100000, mail := { Mail.reset with cmds := [{ console := true, idx := 3, op := 0xB00, tag := 0x77, plen := 48, nbuf := 0, pay := [0x303, 0x11223344, 0x5566], data := [] }] }, cfg := { Cfg.reset with claims := [{ cls := 0x14, first := 0x3, len := 0x1, holder := 2, tag := 0 }] } }, by decide +kernel⟩

theorem test_meets_PortAndSystemCommands_43 : ∃ (c : Cmd) (d : Dev), (d.nextCmd 0xB00 = some c) ∧ (c.bufsOk = true) ∧ (6 ≤ (c.fld 0 2 0) ∨ c.fld 0 10 9 = 3) :=
  ⟨{ console := true, idx := 3, op := 0xB00, tag := 0x77, plen := 48, nbuf := 0, pay := [0x306], data := [] }, { setRegs [] Dev.reset with now := 100000, mail := { Mail.reset with cmds := [{ console := true, idx := 3, op := 0xB00, tag := 0x77, plen := 48, nbuf := 0, pay := [0x306], data := [] }] } }, by decide +kernel⟩

theorem test_meets_PortAndSystemCommands_44 : ∃ (c : Cmd) (y n m off g z : Nat) (d : Dev), (d.nextCmd 0xB01 = some c) ∧ (c.bufsOk = true) ∧ (c.noBuf 0 8 = false) ∧ (c.rsvd 0 0xFFFF3F07 = false) ∧ ((c.fld 0 2 0) < 6) ∧ (c.fld 0 31 24 = 1) ∧ (cycleCad (c.num 1) = (y, n, m)) ∧ (m ≤ 65535) ∧ (y < 2 ^ 32) ∧ ((2 ^ 32 : Int) ≤ (BitVec.ofNat 64 (c.num64 2) - d.stamp 7).toInt * 1000) ∧ (d.gateList c = [(off, g)]) ∧ (off < c.num 1) ∧ (g < 256) ∧ (d.claimed 0x14 (c.fld 0 2 0) 1 = true) ∧ (d.claimed 0x0C (c.fld 0 13 8) 1 = true) ∧ (d.claimed 0x0D (c.fld 0 23 16) 1 = true) ∧ (d.ev.f3 = false) ∧ (tget [] d.eth.gcl (c.fld 0 2 0) = []) ∧ (n < m) ∧ (d.on (ET_LCFGl_EN (c.fld 0 13 8)) = true) ∧ (1 ≤ d.rd ET_STAT_FREE) ∧ (z = (BitVec.ofNat 64 (c.num64 2) + BitVec.ofNat 64 ((off * 2 ^ 32 + 999999999) / 1000000000)).toNat) :=
  ⟨{ console := true, idx := 3, op := 0xB01, tag := 0x77, plen := 48, nbuf := 1, pay := [0x1000, 0x0, 0x8, 0x0, 0x1090302, 0x3D090, 0x40000000, 0x1], data := [0x10, 0x27, 0, 0, 0x81, 0, 0, 0] }, 1073741, 103, 125, 10000, 0x81, 4294967296 + 1073741824 + 42950, { setRegs [(ET_LCFGl 3, 1), (ET_STAT, 0x8000)] Dev.reset with now := 100000, mail := { Mail.reset with cmds := [{ console := true, idx := 3, op := 0xB01, tag := 0x77, plen := 48, nbuf := 1, pay := [0x1000, 0x0, 0x8, 0x0, 0x1090302, 0x3D090, 0x40000000, 0x1], data := [0x10, 0x27, 0, 0, 0x81, 0, 0, 0] }] }, cfg := { Cfg.reset with claims := [{ cls := 0x14, first := 0x2, len := 0x1, holder := 2, tag := 0 }, { cls := 0xC, first := 0x3, len := 0x1, holder := 2, tag := 0 }, { cls := 0xD, first := 0x9, len := 0x1, holder := 2, tag := 0 }] } }, by decide +kernel⟩

theorem test_meets_PortAndSystemCommands_45 : ∃ (c : Cmd) (d : Dev), (d.nextCmd 0xB02 = some c) ∧ (c.bufsOk = true) :=
  ⟨{ console := true, idx := 3, op := 0xB02, tag := 0x77, plen := 48, nbuf := 0, pay := [], data := [] }, { setRegs [] Dev.reset with now := 100000, mail := { Mail.reset with cmds := [{ console := true, idx := 3, op := 0xB02, tag := 0x77, plen := 48, nbuf := 0, pay := [], data := [] }] } }, by decide +kernel⟩

theorem test_meets_PortAndSystemCommands_46 : ∃ (c : Cmd) (d : Dev), (d.nextCmd 0xC00 = some c) ∧ (c.bufsOk = true) ∧ (c.num 0 < 512) :=
  ⟨{ console := true, idx := 3, op := 0xC00, tag := 0x77, plen := 48, nbuf := 0, pay := [0x1A5], data := [] }, { setRegs [] Dev.reset with now := 100000, mail := { Mail.reset with cmds := [{ console := true, idx := 3, op := 0xC00, tag := 0x77, plen := 48, nbuf := 0, pay := [0x1A5], data := [] }] } }, by decide +kernel⟩

theorem test_meets_PortAndSystemCommands_47 : ∃ (c : Cmd) (d : Dev), (d.nextCmd 0xC00 = some c) ∧ (c.bufsOk = true) ∧ (512 ≤ c.num 0) :=
  ⟨{ console := true, idx := 3, op := 0xC00, tag := 0x77, plen := 48, nbuf := 0, pay := [0x200], data := [] }, { setRegs [] Dev.reset with now := 100000, mail := { Mail.reset with cmds := [{ console := true, idx := 3, op := 0xC00, tag := 0x77, plen := 48, nbuf := 0, pay := [0x200], data := [] }] } }, by decide +kernel⟩

theorem test_meets_PortAndSystemCommands_48 : ∃ (c : Cmd) (d : Dev), (d.nextCmd 0xC01 = some c) ∧ (c.bufsOk = true) ∧ (wbit d.ev.mask 8 = true) ∧ (d.ev.queue.length < 64) ∧ (d.on HL_CTRL_CONEVT = false) :=
  ⟨{ console := true, idx := 3, op := 0xC01, tag := 0x77, plen := 48, nbuf := 0, pay := [0xCAFE], data := [] }, { setRegs [(HL_CTRL, 0)] Dev.reset with now := 100000, mail := { Mail.reset with cmds := [{ console := true, idx := 3, op := 0xC01, tag := 0x77, plen := 48, nbuf := 0, pay := [0xCAFE], data := [] }] } }, by decide +kernel⟩

theorem test_meets_PortAndSystemCommands_49 : ∃ (c : Cmd) (d : Dev), (d.nextCmd 0xC01 = some c) ∧ (c.bufsOk = true) ∧ (wbit d.ev.mask 8 = false) :=
  ⟨{ console := true, idx := 3, op := 0xC01, tag := 0x77, plen := 48, nbuf := 0, pay := [0xCAFE], data := [] }, { setRegs [] Dev.reset with now := 100000, mail := { Mail.reset with cmds := [{ console := true, idx := 3, op := 0xC01, tag := 0x77, plen := 48, nbuf := 0, pay := [0xCAFE], data := [] }] }, ev := { Events.reset with mask := 0 } }, by decide +kernel⟩

theorem test_meets_DeviceResets_1 : ∃ (d : Dev), (d.power.good = false) ∧ (d.power.held = false) ∧ (d.power.queue = []) ∧ (d.power.cur = none) ∧ (d.domUp 96 = false) ∧ (96 ∉ d.power.going) :=
  ⟨{ setRegs [] Dev.reset with now := 100000, power := { Power.reset with wdtAt := 0 } }, by decide⟩

theorem test_meets_DeviceResets_2 : ∃ (d : Dev), (d.power.good = true) :=
  ⟨{ setRegs [] Dev.reset with now := 100000, power := { Power.reset with good := true } }, by decide⟩

theorem test_meets_DeviceResets_3 : ∃ (d : Dev), (d.power.good = false) ∧ (d.power.held = true) :=
  ⟨{ setRegs [] Dev.reset with now := 100000, power := { Power.reset with held := true } }, by decide⟩

theorem test_meets_DeviceResets_5 : ∃ (d : Dev), (d.power.good = true) ∧ (d.power.held = true) :=
  ⟨{ setRegs [] Dev.reset with now := 100000, power := { Power.reset with good := true, held := true } }, by decide⟩

theorem test_meets_DeviceResets_6 : ∃ (d : Dev), (d.power.good = true) ∧ (d.power.held = false) :=
  ⟨{ setRegs [] Dev.reset with now := 100000, power := { Power.reset with good := true } }, by decide⟩

theorem test_meets_DeviceResets_7 : ∃ (k : BitVec 8) (d : Dev), (k ≠ 0x5A) :=
  ⟨7, Dev.reset, by decide⟩

theorem test_meets_DeviceResets_8 : ∃ (d : Dev), (d.power.good = true) ∧ (d.power.held = false) :=
  ⟨{ Dev.reset with power := { Power.reset with good := true } }, by decide⟩

theorem test_meets_DeviceResets_9 : ∃ (d : Dev), (d.power.held = true) ∧ (d.power.good = true) ∧ (d.power.queue = []) ∧ (d.power.cur = none) ∧ (d.domUp 96 = false) ∧ (96 ∉ d.power.going) :=
  ⟨{ setRegs [] Dev.reset with now := 100000, power := { Power.reset with held := true, good := true } }, by decide⟩

theorem test_meets_DeviceResets_10 : ∃ (d : Dev), (d.power.held = false) :=
  ⟨Dev.reset, by decide⟩

theorem test_meets_DeviceResets_11 : ∃ (d : Dev), (d.power.good = true) ∧ (d.power.held = false) ∧ (d.power.locked = false) :=
  ⟨{ setRegs [] Dev.reset with now := 100000, power := { Power.reset with good := true }, mem := [(5, 6), (0x20081000, 7)] }, by decide⟩

theorem test_meets_DeviceResets_12 : ∃ (d : Dev), (d.power.good = false ∨ d.power.held = true ∨ d.power.locked = true) :=
  ⟨{ setRegs [] Dev.reset with now := 100000, power := { Power.reset with wdtAt := 0 } }, by decide⟩

theorem test_meets_DeviceResets_13 : ∃ (v : BitVec 32) (d : Dev), (d.on PC_WDT_CTL_EN = false) ∧ (wbit v 0 = true) :=
  ⟨0x501, { setRegs [] Dev.reset with now := 100000, power := { Power.reset with wdtHit := true } }, by decide⟩

theorem test_meets_DeviceResets_14 : ∃ (v : BitVec 32) (d : Dev), (d.on PC_WDT_CTL_EN = true) :=
  ⟨0x500, { setRegs [(PC_WDT_CTL, 1)] Dev.reset with now := 100000, power := { Power.reset with wdtAt := 0 } }, by decide⟩

theorem test_meets_DeviceResets_15 : ∃ (d : Dev), (d.wdtExpired = false) :=
  ⟨Dev.reset, by decide⟩

theorem test_meets_DeviceResets_16 : ∃ (c : Fin 4) (d : Dev), (d.wdtExpired = true) ∧ (d.power.wdtHit = false) ∧ (d.power.failed = false) ∧ (d.sched.threads = []) ∧ (d.domUp (96 + c) = true) ∧ (d.ev.f2 = []) :=
  ⟨1, { setRegs [(PC_WDT_CTL, 0x101), (PC_DOMUP0 + 12, 0xF), (CP_RVEC_LO 1, 0x400)] Dev.reset with now := 90000000, power := { Power.reset with wdtAt := 0 } }, by decide⟩

theorem test_meets_DeviceResets_17 : ∃ (d : Dev), (d.wdtExpired = false ∨ d.power.wdtHit = true) :=
  ⟨{ setRegs [] Dev.reset with now := 100000, power := { Power.reset with wdtAt := 0 } }, by decide⟩

theorem test_meets_DeviceResets_18 : ∃ (d : Dev), (d.wdtExpired = true) ∧ (d.power.wdtHit = true) ∧ (d.power.good = true) ∧ (d.power.held = false) :=
  ⟨{ setRegs [(PC_WDT_CTL, 0x101)] Dev.reset with now := 90000000, power := { Power.reset with good := true, wdtHit := true } }, by decide⟩

theorem test_meets_DeviceResets_19 : ∃ (d : Dev), (d.wdtExpired = false ∨ d.power.wdtHit = false) :=
  ⟨{ setRegs [] Dev.reset with now := 100000, power := { Power.reset with wdtAt := 0 } }, by decide⟩

theorem test_meets_DeviceResets_20 : ∃ (t : Nat) (rest : List (Nat × Nat)) (d : Dev), (d.power.asked = (1, t) :: rest) ∧ (t ≤ d.now) ∧ (d.power.good = true) ∧ (d.power.held = false) :=
  ⟨50, [], { setRegs [] Dev.reset with now := 100000, power := { Power.reset with good := true, asked := [(1, 50)] } }, by decide⟩

theorem test_meets_DeviceResets_21 : ∃ (t : Nat) (rest : List (Nat × Nat)) (c : Fin 4) (d : Dev), (d.power.asked = (0, t) :: rest) ∧ (t ≤ d.now) ∧ (d.power.failed = false) ∧ (d.sched.threads = []) ∧ (d.domUp (96 + c) = true) ∧ (d.ev.f2 = []) :=
  ⟨50, [], 1, { setRegs [(PC_DOMUP0 + 12, 0xF)] Dev.reset with now := 100000, power := { Power.reset with asked := [(0, 50)] } }, by decide⟩

theorem test_meets_DeviceResets_22 : ∃ (d : Dev), (d.power.asked = []) :=
  ⟨Dev.reset, by decide⟩

theorem test_meets_DeviceResets_23 : ∃ (nv : Nv) (d : Dev), (nv.agree = true) ∧ (d.power.locked = true) ∧ (d.on PC_STAT_FWOK = false) ∧ (d.power.failed = false) :=
  ⟨Nv.reset, { setRegs [(CP_STAT 1, 1)] Dev.reset with now := 100000, power := { Power.reset with locked := true } }, by decide⟩

theorem test_meets_DeviceResets_24 : ∃ (nv : Nv) (d : Dev), (nv.agree = true) ∧ (d.power.locked = true) ∧ (d.on PC_STAT_FWOK = false) ∧ (d.power.failed = false) ∧ (d.domUp 96 = false) :=
  ⟨Nv.reset, { setRegs [] Dev.reset with now := 100000, power := { Power.reset with locked := true } }, by decide⟩

theorem test_meets_DeviceResets_25 : ∃ (nv : Nv) (b : Bool) (d : Dev), (nv.agree = true) ∧ (d.power.locked = false ∨ d.on PC_STAT_FWOK = true ∨ d.power.failed = true) :=
  ⟨Nv.reset, true, { setRegs [] Dev.reset with now := 100000, power := { Power.reset with wdtAt := 0 } }, by decide⟩

theorem test_meets_DeviceResets_26 : ∃ (p : Fin 6) (d : Dev), (d.on PC_STAT_XFAIL = false) ∧ (d.power.failed = false) ∧ (d.ev.f2 = []) :=
  ⟨3, { setRegs [(PC_STAT, 4), (EN_Pp_STAT 3, 3)] Dev.reset with now := 100000, power := { Power.reset with wdtAt := 0 } }, by decide⟩

theorem test_meets_DeviceResets_27 : ∃ (d : Dev), (d.on PC_STAT_XFAIL = true) :=
  ⟨{ setRegs [(PC_STAT, 8)] Dev.reset with now := 100000, power := { Power.reset with wdtAt := 0 } }, by decide⟩

theorem test_meets_DeviceResets_28 : ∃ (d : Dev), (d.power.good = false) :=
  ⟨Dev.reset, by decide⟩

theorem test_meets_DeviceResets_29 : ∃ (nv : Nv) (d : Dev), (nv.agree = true) ∧ (d.power.locked = true) ∧ (d.on PC_STAT_FWOK = false) ∧ (d.power.failed = false) ∧ (d.domUp 96 = true) :=
  ⟨Nv.reset, { setRegs [(PC_DOMUP0 + 12, 1)] Dev.reset with power := { Power.reset with good := true, locked := true } }, by decide⟩

theorem test_meets_DomainsClocksAndSettings_1 : ∃ (x : Fin 104) (d : Dev), (x.val ∉ d.power.going) ∧ (d.domUp x = false) ∧ (d.power.queue = []) ∧ (d.power.cur = none) :=
  ⟨5, { setRegs [] Dev.reset with now := 100000, power := { Power.reset with wdtAt := 0 } }, by decide⟩

theorem test_meets_DomainsClocksAndSettings_2 : ∃ (x : Fin 104) (c : Nat × Nat) (d : Dev), (x.val ∉ d.power.going) ∧ (d.domUp x = false) ∧ (x.val ∉ d.power.queue) ∧ (d.power.cur = some c) ∧ (c.1 ≠ x.val) :=
  ⟨5, (7, 200000), { setRegs [] Dev.reset with now := 100000, power := { Power.reset with cur := some (7, 200000) } }, by decide⟩

theorem test_meets_DomainsClocksAndSettings_3 : ∃ (x : Fin 104) (d : Dev), (x.val ∉ d.power.going) ∧ (d.domUp x = true) :=
  ⟨5, { setRegs [(PC_DOMUP0, 0x20)] Dev.reset with now := 100000, power := { Power.reset with wdtAt := 0 } }, by decide⟩

theorem test_meets_DomainsClocksAndSettings_4 : ∃ (x : Fin 128) (d : Dev), (104 ≤ x.val) :=
  ⟨110, Dev.reset, by decide⟩

theorem test_meets_DomainsClocksAndSettings_5 : ∃ (x : Fin 104) (d : Dev), (x.val ∉ d.power.going) ∧ (x.val ∉ d.power.queue) ∧ ((∀ c, d.power.cur = some c → c.1 ≠ x.val)) ∧ (d.domUp x = true) ∧ (x.val ∉ d.net.closed) :=
  ⟨5, { setRegs [(PC_DOMUP0, 0x20)] Dev.reset with now := 100000, power := { Power.reset with wdtAt := 0 } }, by decide, by decide, (fun _ h => by cases h), by decide, by decide⟩

theorem test_meets_DomainsClocksAndSettings_6 : ∃ (x : Fin 104) (d : Dev), (x.val ∉ d.power.going) ∧ (x.val ∈ d.power.queue) :=
  ⟨5, { setRegs [] Dev.reset with now := 100000, power := { Power.reset with queue := [4, 5], cur := some (7, 200000) } }, by decide⟩

theorem test_meets_DomainsClocksAndSettings_7 : ∃ (x : Fin 128) (d : Dev), (104 ≤ x.val) :=
  ⟨104, Dev.reset, by decide⟩

theorem test_meets_DomainsClocksAndSettings_8 : ∃ (nv : Nv) (n t : Nat) (d : Dev), (nv.agree = true) ∧ (d.power.cur = some (n, t)) ∧ (t ≤ d.now) ∧ (n < 96) ∧ (d.power.offNext = false) ∧ (d.power.queue = []) ∧ (d.cfg.load.phase ≠ 3) :=
  ⟨Nv.reset, 5, 900, { setRegs [] Dev.reset with now := 100000, power := { Power.reset with cur := some (5, 900) }, net := { Net.reset with closed := [5] }, mem := [(0x100A0004, 8)] }, by decide⟩

theorem test_meets_DomainsClocksAndSettings_9 : ∃ (nv : Nv) (c t : Nat) (d : Dev), (nv.agree = true) ∧ (d.power.cur = some (100 + c, t)) ∧ (t ≤ d.now) ∧ (c < 2) ∧ (d.on (DC_CHc_CFG_EN c) = true) ∧ (d.power.offNext = false) ∧ (d.power.queue = []) ∧ (d.cfg.load.phase ≠ 3) :=
  ⟨Nv.reset, 0, 900, { setRegs [(DC_CHc_CFG 0, 1)] Dev.reset with now := 100000, power := { Power.reset with cur := some (100, 900) } }, by decide⟩

theorem test_meets_DomainsClocksAndSettings_10 : ∃ (nv : Nv) (d : Dev), (nv.agree = true) ∧ ((∀ c, d.power.cur = some c → d.now < c.2)) :=
  ⟨Nv.reset, { setRegs [] Dev.reset with now := 100000, power := { Power.reset with wdtAt := 0 } }, by decide, fun _ h => by cases h⟩

theorem test_meets_DomainsClocksAndSettings_11 : ∃ (n : Fin 96) (d : Dev), (n.val ∈ d.power.going) ∧ (d.domUp n = true) ∧ (d.domainIdle n = true) ∧ (n.val ∉ d.power.again) :=
  ⟨5, { setRegs [(PC_DOMUP0, 0x20)] Dev.reset with now := 100000, power := { Power.reset with going := [5] } }, by decide⟩

theorem test_meets_DomainsClocksAndSettings_12 : ∃ (x : Fin 104) (d : Dev), (x.val ∉ d.power.going ∨ d.domUp x = false ∨ d.domainIdle x = false) :=
  ⟨5, { setRegs [] Dev.reset with now := 100000, power := { Power.reset with wdtAt := 0 } }, by decide⟩

theorem test_meets_DomainsClocksAndSettings_13 : ∃ (r : Fin 8) (d : Dev), (d.on (PC_ROWr_PEND r) = true) ∧ (d.now % 8 = 0) ∧ (tget 0 d.power.rowAt r < d.now) :=
  ⟨2, { setRegs [(PC_ROWr 2, 0x106)] Dev.reset with now := 100000, power := { Power.reset with wdtAt := 0 } }, by decide⟩

theorem test_meets_DomainsClocksAndSettings_14 : ∃ (r : Fin 8) (d : Dev), (d.on (PC_ROWr_PEND r) = false ∨ d.now % 8 ≠ 0 ∨ d.now ≤ tget 0 d.power.rowAt r) :=
  ⟨2, Dev.reset, by decide⟩

theorem test_meets_DomainsClocksAndSettings_15 : ∃ (v : BitVec 32) (d : Dev), (d.on SS_STAT_BUSY = true) :=
  ⟨0, { setRegs [(SS_STAT, 1)] Dev.reset with now := 100000, power := { Power.reset with wdtAt := 0 } }, by decide⟩

theorem test_meets_DomainsClocksAndSettings_16 : ∃ (v : BitVec 32) (d : Dev), (d.on SS_STAT_BUSY = false) ∧ (wbit v 31 = false) :=
  ⟨0x10005, Dev.reset, by decide⟩

theorem test_meets_DomainsClocksAndSettings_17 : ∃ (v : BitVec 32) (d : Dev), (d.on SS_STAT_BUSY = false) ∧ (wbit v 31 = true) ∧ (wbit v 16 = false) ∧ (d.rd SS_LEN_LEN = 0 ∨ 4096 < d.rd SS_LEN_LEN) :=
  ⟨0x80000005, { setRegs [] Dev.reset with now := 100000, power := { Power.reset with wdtAt := 0 } }, by decide⟩

theorem test_meets_DomainsClocksAndSettings_18 : ∃ (v : Bool) (c : SsCommit) (d : Dev), (d.power.commit = some c) ∧ (d.power.late = []) :=
  ⟨true, { id := 5, rseq := 1, seq := 1, bank := 1 }, { setRegs [(SS_STAT, 1)] Dev.reset with now := 100000, power := { Power.reset with commit := some { id := 5, rseq := 1, seq := 1, bank := 1 } } }, by decide⟩

theorem test_meets_DomainsClocksAndSettings_19 : ∃ (c : SsCommit) (d : Dev), (d.power.commit = some c) ∧ (d.power.late = []) ∧ (d.on SS_CMD_DEL = false) :=
  ⟨{ id := 5, rseq := 1, seq := 1, bank := 1 }, { setRegs [(SS_STAT, 1)] Dev.reset with now := 100000, power := { Power.reset with commit := some { id := 5, rseq := 1, seq := 1, bank := 1 } } }, by decide⟩

theorem test_meets_DomainsClocksAndSettings_20 : ∃ (v : Bool) (d : Dev), (d.power.commit = none) :=
  ⟨true, Dev.reset, by decide⟩

theorem test_meets_DomainsClocksAndSettings_21 : ∃ (v : BitVec 32) (d : Dev), (d.on SS_STAT_BUSY = false) ∧ (wbit v 31 = true) ∧ (wbit v 16 = true ∨ (1 ≤ d.rd SS_LEN_LEN ∧ d.rd SS_LEN_LEN ≤ 4096 ∧ d.rd SS_BUF_ADDR * 8 + d.rd SS_LEN_LEN ≤ 0x800000 ∧ d.integ.ecc = [])) ∧ (d.ssCheck (wbits v 15 0) (if wbit v 16 then none else some (d.loadBytes (d.rd SS_BUF_ADDR * 8) (d.rd SS_LEN_LEN))) = 0) :=
  ⟨0x80000005, { setRegs [(SS_LEN, 4), (SS_BUF, 0x1000)] Dev.reset with now := 100000, mem := [(0x1000, 7), (0x1003, 9)] }, by decide +kernel⟩

theorem test_meets_EthernetPortsAndTime_1 : ∃ (p : Fin 6) (k : Fin 8) (ws : List (BitVec 32)) (b : List (BitVec 8)) (d : Dev), (d.portOn p = true) ∧ (d.on (EN_Pp_STAT_LINK p) = true) ∧ (tget none d.eth.tx p = none) ∧ (d.rdBit (EN_Pp_GATE_STATE p) k = true) ∧ ((∀ j : Fin 8, k < j → d.rdBit (EN_Pp_GATE_STATE p) j = false)) ∧ (d.gateComing p = false) ∧ ((d.headDesc p k.val).1 = some (0, ws)) ∧ ((d.txBody p k.val ws).1 = (0, b)) ∧ ((d.txBody p k.val ws).2.net.stall = false) :=
  ⟨3, 2, [0x20082000, 0, 0x30040, 0x8123, 0, 0, 0, 0], List.replicate 64 0, { setRegs [(PN_CTRL, 0), (PC_DOMUP0 + 12, 0xFF), (EN_Pp_CFG 3, 1), (EN_Pp_STAT 3, 1), (EN_Pp_GATE 3, 0x04), (EN_Pp_TSLAT 3, 0x00700050)] Dev.reset with now := 100000, eth := { Eth.reset with rings := [(50, { baseLo := 0x20081000, baseHi := 0, log2 := 4, head := 15, tail := 3 })], sec := 5, qns := 3999999999 }, mem := [(537399777, 32), (537399778, 8), (537399779, 32), (537399784, 64), (537399786, 3), (537399788, 35), (537399789, 129)] }, by decide +kernel⟩

theorem test_meets_EthernetPortsAndTime_2 : ∃ (p : Fin 6) (d : Dev), (d.gateComing p = true ∨ d.portOn p = false ∨ d.on (EN_Pp_STAT_LINK p) = false ∨ (tget none d.eth.tx p).isSome = true) :=
  ⟨3, Dev.reset, by decide⟩

theorem test_meets_EthernetPortsAndTime_3 : ∃ (p : Fin 6) (d : Dev), (d.portOn p = true) ∧ (d.on (EN_Pp_STAT_LINK p) = true) ∧ (d.rd (EN_Pp_GATE_STATE p) = 0) :=
  ⟨3, { setRegs [(PC_DOMUP0 + 12, 0xFF), (EN_Pp_CFG 3, 1), (EN_Pp_STAT 3, 1), (EN_Pp_GATE 3, 0x0400), (EN_Pp_TSLAT 3, 0x00700050)] Dev.reset with now := 100000, eth := { Eth.reset with rings := [] } }, by decide⟩

theorem test_meets_EthernetPortsAndTime_4 : ∃ (p : Fin 6) (f : TxFrame) (ws : List (BitVec 32)) (x : EnRing) (d : Dev), (tget none d.eth.tx p = some f) ∧ (d.enRing p f.queue = x) ∧ (d.on (EN_Pp_CFG_TOKEN p) = false) ∧ (((d.txGone p).niMemRead 39 x.desc 32).1.1 = 0) ∧ (bytesWords (((d.txGone p).niMemRead 39 x.desc 32).1.2) 8 = ws) ∧ ((((d.txGone p).niMemRead 39 x.desc 32).2.niMemWrite 39 (x.desc + 8) (wordsBytes ([BitVec.ofNat 32 (wbits (ws.getD 2 0) 15 0 + b2n (wbit (ws.getD 2 0) 17) * 2 ^ 17), ws.getD 3 0] ++ (if wbit (ws.getD 2 0) 17 then [BitVec.ofNat 32 f.q, BitVec.ofNat 32 f.s, BitVec.ofNat 32 (f.s / 2 ^ 32 % 2 ^ 16)] else [ws.getD 4 0, ws.getD 5 0, ws.getD 6 0])))).2.net.stall = false) :=
  ⟨3, { queue := 2, bytes := [1, 2, 3], q := 7, s := 9, err := false }, [0x20082000, 0, 0x30040, 0x8123, 0, 0, 0, 0], { baseLo := 0x20081000, baseHi := 0, log2 := 4, head := 15, tail := 3 }, { setRegs [(PN_CTRL, 0), (PC_DOMUP0 + 12, 0xFF), (EN_Pp_CFG 3, 1), (EN_Pp_STAT 3, 1), (EN_Pp_GATE 3, 0x04), (EN_Pp_TSLAT 3, 0x00700050)] Dev.reset with now := 100000, eth := { Eth.reset with tx := [(3, some { queue := 2, bytes := [1, 2, 3], q := 7, s := 9, err := false })], rings := [(50, { baseLo := 0x20081000, baseHi := 0, log2 := 4, head := 15, tail := 3 })] }, mem := [(537399777, 32), (537399778, 8), (537399779, 32), (537399784, 64), (537399786, 3), (537399788, 35), (537399789, 129)] }, by decide +kernel⟩

theorem test_meets_EthernetPortsAndTime_5 : ∃ (p : Fin 6) (d : Dev), (tget none d.eth.tx p = none) :=
  ⟨3, Dev.reset, by decide⟩

theorem test_meets_EthernetPortsAndTime_6 : ∃ (p : Fin 6) (b : List (BitVec 8)) (ok : Bool) (d : Dev), (d.portOn p = false ∨ d.on (EN_Pp_STAT_LINK p) = false) :=
  ⟨3, [], true, Dev.reset, by decide⟩

theorem test_meets_EthernetPortsAndTime_7 : ∃ (p : Fin 6) (b : List (BitVec 8)) (ok : Bool) (d : Dev), (d.portOn p = true) ∧ (d.on (EN_Pp_STAT_LINK p) = true) ∧ (ok = false ∨ b.length < 64 ∨ 1522 < b.length) ∧ (d.net.stall = false) :=
  ⟨3, List.replicate 63 1, true, { setRegs [(PC_DOMUP0 + 12, 0xFF), (EN_Pp_CFG 3, 1), (EN_Pp_STAT 3, 1), (EN_Pp_GATE 3, 0x04), (EN_Pp_TSLAT 3, 0x00700050)] Dev.reset with now := 100000, eth := { Eth.reset with rings := [] } }, by decide⟩

theorem test_meets_EthernetPortsAndTime_8 : ∃ (p : Fin 6) (b : List (BitVec 8)) (d : Dev), (d.portOn p = true) ∧ (d.on (EN_Pp_STAT_LINK p) = true) ∧ (64 ≤ b.length) ∧ (b.length ≤ 1522) ∧ (d.rxAccepts p b = false) :=
  ⟨3, List.replicate 64 2, { setRegs [(PC_DOMUP0 + 12, 0xFF), (EN_Pp_CFG 3, 1), (EN_Pp_STAT 3, 1), (EN_Pp_GATE 3, 0x04), (EN_Pp_TSLAT 3, 0x00700050)] Dev.reset with now := 100000, eth := { Eth.reset with rings := [] } }, by decide⟩

theorem test_meets_EthernetPortsAndTime_9 : ∃ (p : Fin 6) (b : List (BitVec 8)) (d : Dev), (d.portOn p = true) ∧ (d.on (EN_Pp_STAT_LINK p) = true) ∧ (64 ≤ b.length) ∧ (b.length ≤ 1522) ∧ (d.rxAccepts p b = true) ∧ ((d.headDesc p 8).1 = none) ∧ ((d.headDesc p 8).2.net.stall = false) :=
  ⟨3, List.replicate 64 1, { setRegs [(PC_DOMUP0 + 12, 0xFF), (EN_Pp_CFG 3, 1), (EN_Pp_STAT 3, 1), (EN_Pp_GATE 3, 0x04), (EN_Pp_TSLAT 3, 0x00700050)] Dev.reset with now := 100000, eth := { Eth.reset with rings := [] } }, by decide⟩

theorem test_meets_EthernetPortsAndTime_10 : ∃ (p : Fin 6) (b : List (BitVec 8)) (data : List (BitVec 8)) (ws : List (BitVec 32)) (d : Dev), (d.portOn p = true) ∧ (d.on (EN_Pp_STAT_LINK p) = true) ∧ (64 ≤ b.length) ∧ (b.length ≤ 1522) ∧ (d.rxAccepts p b = true) ∧ ((b.drop 12).take 2 ≠ [0x81#8, 0#8]) ∧ (data = b.take (b.length - 4)) ∧ ((d.headDesc p 8).1 = some (0, ws)) ∧ (data.length ≤ wbits (ws.getD 2 0) 15 0) ∧ ((d.rxBody p ws data).1 = 0) ∧ ((d.rxEnd p ws data 0).net.stall = false) :=
  ⟨3, [1, 34, 34, 34, 34, 34, 34, 34, 34, 34, 34, 34, 8, 0, 0, 1, 2, 3, 4, 5, 6, 7, 8, 9, 10, 11, 12, 13, 14, 15, 16, 17, 18, 19, 20, 21, 22, 23, 24, 25, 26, 27, 28, 29, 30, 31, 32, 33, 34, 35, 36, 37, 38, 39, 40, 41, 42, 43, 44, 45, 46, 47, 48, 49], [1, 34, 34, 34, 34, 34, 34, 34, 34, 34, 34, 34, 8, 0, 0, 1, 2, 3, 4, 5, 6, 7, 8, 9, 10, 11, 12, 13, 14, 15, 16, 17, 18, 19, 20, 21, 22, 23, 24, 25, 26, 27, 28, 29, 30, 31, 32, 33, 34, 35, 36, 37, 38, 39, 40, 41, 42, 43, 44, 45], [0x20082000, 0, 0x30040, 0x8123, 0, 0, 0, 0], { setRegs [(PN_CTRL, 0), (PC_DOMUP0 + 12, 0xFF), (EN_Pp_CFG 3, 1), (EN_Pp_STAT 3, 1), (EN_Pp_GATE 3, 0x04), (EN_Pp_TSLAT 3, 0x00700050)] Dev.reset with now := 100000, eth := { Eth.reset with rings := [(56, { baseLo := 0x20081000, baseHi := 0, log2 := 4, head := 15, tail := 3 })], sec := 5, qns := 3 }, mem := [(537399777, 32), (537399778, 8), (537399779, 32), (537399784, 64), (537399786, 3), (537399788, 35), (537399789, 129)] }, by decide +kernel⟩

theorem test_meets_EthernetPortsAndTime_11 : ∃ (p : Fin 6) (b : List (BitVec 8)) (data : List (BitVec 8)) (ws : List (BitVec 32)) (z : Nat) (d : Dev), (d.portOn p = true) ∧ (d.on (EN_Pp_STAT_LINK p) = true) ∧ (64 ≤ b.length) ∧ (b.length ≤ 1522) ∧ (d.rxAccepts p b = true) ∧ ((b.drop 12).take 2 = [0x81#8, 0#8]) ∧ (data = b.take 12 ++ (b.take (b.length - 4)).drop 16) ∧ ((d.headDesc p 8).1 = some (0, ws)) ∧ (data.length ≤ wbits (ws.getD 2 0) 15 0) ∧ ((d.rxBody p ws data).1 = 0) ∧ (z = (b.getD 14 0).toNat * 256 + (b.getD 15 0).toNat) ∧ ((d.rxEnd p ws data (BitVec.ofNat 32 (z % 4096 + z / 8192 * 4096 + 2 ^ 15))).net.stall = false) :=
  ⟨3, [1, 34, 34, 34, 34, 34, 34, 34, 34, 34, 34, 34, 129, 0, 225, 35, 0, 1, 2, 3, 4, 5, 6, 7, 8, 9, 10, 11, 12, 13, 14, 15, 16, 17, 18, 19, 20, 21, 22, 23, 24, 25, 26, 27, 28, 29, 30, 31, 32, 33, 34, 35, 36, 37, 38, 39, 40, 41, 42, 43, 44, 45, 46, 47, 48, 49], [1, 34, 34, 34, 34, 34, 34, 34, 34, 34, 34, 34, 0, 1, 2, 3, 4, 5, 6, 7, 8, 9, 10, 11, 12, 13, 14, 15, 16, 17, 18, 19, 20, 21, 22, 23, 24, 25, 26, 27, 28, 29, 30, 31, 32, 33, 34, 35, 36, 37, 38, 39, 40, 41, 42, 43, 44, 45], [0x20082000, 0, 0x30040, 0x8123, 0, 0, 0, 0], 0xE123, { setRegs [(PN_CTRL, 0), (PC_DOMUP0 + 12, 0xFF), (EN_Pp_CFG 3, 1), (EN_Pp_STAT 3, 1), (EN_Pp_GATE 3, 0x04), (EN_Pp_TSLAT 3, 0x00700050)] Dev.reset with now := 100000, eth := { Eth.reset with rings := [(56, { baseLo := 0x20081000, baseHi := 0, log2 := 4, head := 15, tail := 3 })], sec := 5, qns := 3 }, mem := [(537399777, 32), (537399778, 8), (537399779, 32), (537399784, 64), (537399786, 3), (537399788, 35), (537399789, 129)] }, by decide +kernel⟩

theorem test_meets_EthernetPortsAndTime_12 : ∃ (p : Fin 6) (b : List (BitVec 8)) (ws : List (BitVec 32)) (d : Dev), (d.portOn p = true) ∧ (d.on (EN_Pp_STAT_LINK p) = true) ∧ (64 ≤ b.length) ∧ (b.length ≤ 1522) ∧ (d.rxAccepts p b = true) ∧ ((b.drop 12).take 2 ≠ [0x81#8, 0#8]) ∧ ((d.headDesc p 8).1 = some (0, ws)) ∧ (wbits (ws.getD 2 0) 15 0 < b.length - 4) ∧ ((d.headDesc p 8).2.net.stall = false) :=
  ⟨3, List.replicate 70 1, [0x20082000, 0, 0x30040, 0x8123, 0, 0, 0, 0], { setRegs [(PN_CTRL, 0), (PC_DOMUP0 + 12, 0xFF), (EN_Pp_CFG 3, 1), (EN_Pp_STAT 3, 1), (EN_Pp_GATE 3, 0x04), (EN_Pp_TSLAT 3, 0x00700050)] Dev.reset with now := 100000, eth := { Eth.reset with rings := [(56, { baseLo := 0x20081000, baseHi := 0, log2 := 4, head := 15, tail := 3 })] }, mem := [(537399777, 32), (537399778, 8), (537399779, 32), (537399784, 64), (537399786, 3), (537399788, 35), (537399789, 129)] }, by decide +kernel⟩

theorem test_meets_EthernetPortsAndTime_13 : ∃ (p : Fin 6) (v : BitVec 32) (d : Dev), (d.ethUp = true) :=
  ⟨3, 0x12345, { setRegs [(PC_DOMUP0 + 12, 0xFF), (EN_Pp_RSEL 3, 8)] Dev.reset with now := 100000, eth := { Eth.reset with rings := [] } }, by decide⟩

theorem test_meets_EthernetPortsAndTime_14 : ∃ (p : Fin 6) (d : Dev), (d.ethUp = true) ∧ (d.on (EN_Pp_CFG_EN p) = false) :=
  ⟨3, { setRegs [(PC_DOMUP0 + 12, 0xFF), (EN_Pp_GATE 3, 0xA500)] Dev.reset with now := 100000, eth := { Eth.reset with rings := [] } }, by decide⟩

theorem test_meets_EthernetPortsAndTime_15 : ∃ (p : Fin 6) (d : Dev), (d.ethUp = true) ∧ (d.on (EN_Pp_CFG_EN p) = true) :=
  ⟨3, { setRegs [(PC_DOMUP0 + 12, 0xFF), (EN_Pp_CFG 3, 1), (EN_Pp_STAT 3, 1), (EN_Pp_GATE 3, 0x04), (EN_Pp_TSLAT 3, 0x00700050)] Dev.reset with now := 100000, eth := { Eth.reset with rings := [] } }, by decide⟩

theorem test_meets_EthernetPortsAndTime_16 : ∃ (p : Fin 6) (d : Dev), (d.ethUp = true) :=
  ⟨3, { setRegs [(PC_DOMUP0 + 12, 0xFF), (EN_Pp_CNT0 3, 7)] Dev.reset with now := 100000, eth := { Eth.reset with rings := [] } }, by decide⟩

theorem test_meets_EthernetPortsAndTime_17 : ∃ (p : Fin 6) (v : BitVec 32) (d : Dev), (d.ethUp = false) :=
  ⟨3, 7, Dev.reset, by decide⟩

theorem test_meets_EthernetPortsAndTime_18 : ∃ (d : Dev), (d.ethUp = true) :=
  ⟨{ setRegs [(PC_DOMUP0 + 12, 0xFF), (EN_NT_ADJ, 0x80000001), (EN_NT_STEPS, 0xFFFFFFFF), (EN_NT_STEPQ, 0x80000000)] Dev.reset with now := 100000, eth := { Eth.reset with sec := 0xFFFFFFFFFFFF, qns := 3999999998, sub := 0xFFFFFFFF, step := -7 } }, by decide⟩

theorem test_meets_EthernetPortsAndTime_19 : ∃ (d : Dev), (d.ethUp = false) :=
  ⟨Dev.reset, by decide⟩

theorem test_meets_EthernetPortsAndTime_20 : ∃ (d : Dev), (d.ethUp = true) :=
  ⟨{ setRegs [(PC_DOMUP0 + 12, 0xFF), (EN_NT_STEPS, 0xFFFFFFFF), (EN_NT_STEPQ, 5)] Dev.reset with eth := { Eth.reset with step := 3 } }, by decide⟩

theorem test_meets_EthernetPortsAndTime_21 : ∃ (d : Dev), (d.ethUp = true) ∧ (d.on EN_TS_CTL_SYNC = false) :=
  ⟨{ setRegs [(PC_DOMUP0 + 12, 0xFF), (AU_ADn_STAT 7, 0x2)] Dev.reset with now := 100000, eth := { Eth.reset with rings := [] } }, by decide⟩

theorem test_meets_EthernetPortsAndTime_22 : ∃ (d : Dev), (d.ethUp = false ∨ d.on EN_TS_CTL_SYNC = true) :=
  ⟨Dev.reset, by decide⟩

theorem test_meets_EthernetPortsAndTime_23 : ∃ (d : Dev), (d.ethUp = true) ∧ (d.on EN_TS_CTL_SYNC = true) :=
  ⟨{ setRegs [(PC_DOMUP0 + 12, 0xFF), (EN_TS_CTL, 1)] Dev.reset with now := 100000, eth := { Eth.reset with rings := [] } }, by decide⟩

theorem test_meets_EthernetPortsAndTime_24 : ∃ (d : Dev), (d.on EN_TS_CTL_SYNC = true) :=
  ⟨{ setRegs [(PC_DOMUP0 + 12, 0xFF), (EN_TS_CTL, 1)] Dev.reset with now := 100000, eth := { Eth.reset with rings := [] } }, by decide⟩

theorem test_meets_EthernetPortsAndTime_25 : ∃ (d : Dev), (d.on EN_TS_CTL_SYNC = false) :=
  ⟨Dev.reset, by decide⟩

theorem test_meets_EthernetPortsAndTime_26 : ∃ (p : Fin 6) (d : Dev), (d.rd EN_TS_CFG_PORT ≠ p.val ∨ d.on EN_TS_CTL_SYNC = false) :=
  ⟨3, { setRegs [(PC_DOMUP0 + 12, 0xFF), (EN_Pp_CFG 3, 1), (EN_Pp_STAT 3, 1), (EN_Pp_GATE 3, 0x04), (EN_Pp_TSLAT 3, 0x00700050)] Dev.reset with now := 100000, eth := { Eth.reset with rings := [] } }, by decide⟩

theorem test_meets_EthernetPortsAndTime_27 : ∃ (p : Fin 6) (d : Dev), (d.rd EN_TS_CFG_PORT = p.val) ∧ (d.on EN_TS_CTL_SYNC = true) :=
  ⟨3, { setRegs [(PC_DOMUP0 + 12, 0xFF), (EN_Pp_CFG 3, 1), (EN_Pp_STAT 3, 1), (EN_Pp_GATE 3, 0x04), (EN_Pp_TSLAT 3, 0x00700050), (EN_TS_CFG, 3), (EN_TS_CTL, 1)] Dev.reset with now := 100000, eth := { Eth.reset with rings := [] } }, by decide⟩

theorem test_meets_EthernetPortsAndTime_28 : ∃ (p : Fin 6) (v : BitVec 2) (d : Dev), (d.ethUp = true) ∧ (d.on PC_STAT_SLOCK = true) :=
  ⟨3, 2, { setRegs [(PC_DOMUP0 + 12, 0xFF), (PC_STAT, 0xFFFFFFFF)] Dev.reset with now := 100000, eth := { Eth.reset with rings := [] } }, by decide⟩

theorem test_meets_EthernetPortsAndTime_29 : ∃ (p : Fin 6) (v : BitVec 2) (d : Dev), (d.ethUp = false ∨ d.on PC_STAT_SLOCK = false) :=
  ⟨3, 2, Dev.reset, by decide⟩

theorem test_meets_SerialControllers_1 : ∃ (u : Fin 2) (b : BitVec 8) (d : Dev), ((tget [] d.ser.utx u).length < 16) :=
  ⟨1, 7, { setRegs [] Dev.reset with now := 100000, ser := { Serial.reset with utx := [(1, [3])] } }, by decide⟩

theorem test_meets_SerialControllers_2 : ∃ (u : Fin 2) (b : BitVec 8) (d : Dev), (16 ≤ (tget [] d.ser.utx u).length) :=
  ⟨1, 7, { setRegs [] Dev.reset with now := 100000, ser := { Serial.reset with utx := [(1, List.replicate 16 3)] } }, by decide⟩

theorem test_meets_SerialControllers_3 : ∃ (u : Fin 2) (b : BitVec 8) (l : List (BitVec 8)) (d : Dev), ((tget [] d.ser.urx u) = b :: l) ∧ (l.length < 16) :=
  ⟨1, 7, [8], { setRegs [] Dev.reset with now := 100000, ser := { Serial.reset with urx := [(1, [7, 8])] } }, by decide⟩

theorem test_meets_SerialControllers_4 : ∃ (u : Fin 2) (d : Dev), ((tget [] d.ser.urx u) = []) :=
  ⟨1, { setRegs [] Dev.reset with now := 100000, ser := { Serial.reset with i2c := [] } }, by decide⟩

theorem test_meets_SerialControllers_5 : ∃ (u : Fin 2) (b : BitVec 8) (f p : Bool) (d : Dev), (d.on (SP_Uu_CFG_EN u) = true) ∧ (u ≠ 0 ∨ d.on PC_STAT_FWOK = false) ∧ ((tget [] d.ser.urx u).length < 16) :=
  ⟨1, 7, false, false, { setRegs [(SP_Uu_CFG 1, 0x1200000)] Dev.reset with now := 100000, ser := { Serial.reset with i2c := [] } }, by decide⟩

theorem test_meets_SerialControllers_6 : ∃ (u : Fin 2) (b : BitVec 8) (f p : Bool) (d : Dev), (d.on (SP_Uu_CFG_EN u) = true) ∧ (u ≠ 0 ∨ d.on PC_STAT_FWOK = false) ∧ (16 ≤ (tget [] d.ser.urx u).length) :=
  ⟨1, 7, false, false, { setRegs [(SP_Uu_CFG 1, 0x1200000)] Dev.reset with now := 100000, ser := { Serial.reset with urx := [(1, List.replicate 16 3)] } }, by decide⟩

theorem test_meets_SerialControllers_7 : ∃ (b : BitVec 8) (d : Dev), (d.on (SP_Uu_CFG_EN 0) = true) ∧ (d.on PC_STAT_FWOK = true) :=
  ⟨7, { setRegs [(SP_Uu_CFG 0, 0x1000000), (PC_STAT, 0xFFFFFFFF)] Dev.reset with now := 100000, ser := { Serial.reset with i2c := [] } }, by decide⟩

theorem test_meets_SerialControllers_8 : ∃ (u : Fin 2) (b : BitVec 8) (f p : Bool) (d : Dev), (d.on (SP_Uu_CFG_EN u) = false) :=
  ⟨1, 7, false, false, { setRegs [(SP_Uu_CFG 1, 0)] Dev.reset with now := 100000, ser := { Serial.reset with i2c := [] } }, by decide⟩

theorem test_meets_SerialControllers_9 : ∃ (u : Fin 2) (b : BitVec 8) (l : List (BitVec 8)) (d : Dev), ((tget [] d.ser.utx u) = b :: l) ∧ (l.length < 16) ∧ (d.on (SP_Uu_CFG_EN u) = true) :=
  ⟨1, 7, [8], { setRegs [(SP_Uu_CFG 1, 0x1200000)] Dev.reset with now := 100000, ser := { Serial.reset with utx := [(1, [7, 8])] } }, by decide⟩

theorem test_meets_SerialControllers_10 : ∃ (u : Fin 2) (d : Dev), ((tget [] d.ser.utx u) = [] ∨ d.on (SP_Uu_CFG_EN u) = false) :=
  ⟨1, { setRegs [] Dev.reset with now := 100000, ser := { Serial.reset with i2c := [] } }, by decide⟩

theorem test_meets_SerialControllers_11 : ∃ (u : Fin 2) (v : BitVec 32) (d : Dev), ((tget [] d.ser.stx u).length < 16) :=
  ⟨1, 7, { setRegs [] Dev.reset with now := 100000, ser := { Serial.reset with stx := [(1, [3])] } }, by decide⟩

theorem test_meets_SerialControllers_12 : ∃ (u : Fin 2) (v : BitVec 32) (d : Dev), (16 ≤ (tget [] d.ser.stx u).length) :=
  ⟨1, 7, { setRegs [] Dev.reset with now := 100000, ser := { Serial.reset with stx := [(1, List.replicate 16 3)] } }, by decide⟩

theorem test_meets_SerialControllers_13 : ∃ (u : Fin 2) (v : BitVec 32) (l : List (BitVec 32)) (d : Dev), ((tget [] d.ser.srx u) = v :: l) ∧ (l.length < 16) :=
  ⟨1, 7, [8], { setRegs [] Dev.reset with now := 100000, ser := { Serial.reset with srx := [(1, [7, 8])] } }, by decide⟩

theorem test_meets_SerialControllers_14 : ∃ (u : Fin 2) (d : Dev), ((tget [] d.ser.srx u) = []) :=
  ⟨1, { setRegs [] Dev.reset with now := 100000, ser := { Serial.reset with i2c := [] } }, by decide⟩

theorem test_meets_SerialControllers_15 : ∃ (u : Fin 2) (v w : BitVec 32) (l : List (BitVec 32)) (d : Dev), ((tget [] d.ser.stx u) = w :: l) ∧ (l.length < 16) ∧ (d.on (SP_Ss_CFG_EN u) = true) ∧ ((tget [] d.ser.srx u).length < 16) :=
  ⟨1, 0xABCD, 7, [8], { setRegs [(SP_Ss_CFG 1, 0x80024000)] Dev.reset with now := 100000, ser := { Serial.reset with stx := [(1, [7, 8])] } }, by decide⟩

theorem test_meets_SerialControllers_16 : ∃ (u : Fin 2) (v w : BitVec 32) (l : List (BitVec 32)) (d : Dev), ((tget [] d.ser.stx u) = w :: l) ∧ (l.length < 16) ∧ (d.on (SP_Ss_CFG_EN u) = true) ∧ (16 ≤ (tget [] d.ser.srx u).length) :=
  ⟨1, 0xABCD, 7, [8], { setRegs [(SP_Ss_CFG 1, 0x80024000)] Dev.reset with now := 100000, ser := { Serial.reset with stx := [(1, [7, 8])], srx := [(1, List.replicate 16 3)] } }, by decide⟩

theorem test_meets_SerialControllers_17 : ∃ (u : Fin 2) (v : BitVec 32) (d : Dev), ((tget [] d.ser.stx u) = [] ∨ d.on (SP_Ss_CFG_EN u) = false) :=
  ⟨1, 7, { setRegs [] Dev.reset with now := 100000, ser := { Serial.reset with i2c := [] } }, by decide⟩

theorem test_meets_SerialControllers_18 : ∃ (v : BitVec 32) (d : Dev), (wbit v 31 = false ∨ d.on SP_I2C_STAT_BUSY = false) :=
  ⟨0x80010FD5, { setRegs [(SP_I2C_CFG, 1)] Dev.reset with now := 100000, ser := { Serial.reset with i2c := [] } }, by decide⟩

theorem test_meets_SerialControllers_19 : ∃ (v : BitVec 32) (d : Dev), (wbit v 31 = true) ∧ (d.on SP_I2C_STAT_BUSY = true) :=
  ⟨0x80010FD5, { setRegs [(SP_I2C_STAT, 1)] Dev.reset with now := 100000, ser := { Serial.reset with i2c := [] } }, by decide⟩

theorem test_meets_SerialControllers_20 : ∃ (b : List (BitVec 8)) (d : Dev), (d.on SP_I2C_STAT_BUSY = true) ∧ (wbit d.ser.i2cRun 7 = true) :=
  ⟨[1, 2, 3], { setRegs [(SP_I2C_STAT, 1), (SP_I2C_CMD, 0x180)] Dev.reset with now := 100000, ser := { Serial.reset with i2c := [], i2cRun := 0x180 } }, by decide⟩

theorem test_meets_SerialControllers_21 : ∃ (b : List (BitVec 8)) (d : Dev), (d.on SP_I2C_STAT_BUSY = true) ∧ (wbit d.ser.i2cRun 7 = false) :=
  ⟨[], { setRegs [(SP_I2C_STAT, 1), (SP_I2C_CMD, 0x100)] Dev.reset with now := 100000, ser := { Serial.reset with i2c := [1, 2, 3], i2cRun := 0x100 } }, by decide⟩

theorem test_meets_SerialControllers_22 : ∃ (a l : Bool) (b : List (BitVec 8)) (d : Dev), (d.on SP_I2C_STAT_BUSY = true) ∧ (a = false ∨ l = true) :=
  ⟨false, true, [], { setRegs [(SP_I2C_STAT, 1)] Dev.reset with now := 100000, ser := { Serial.reset with i2c := [] } }, by decide⟩

theorem test_meets_SerialControllers_23 : ∃ (a l : Bool) (b : List (BitVec 8)) (d : Dev), (d.on SP_I2C_STAT_BUSY = false) :=
  ⟨false, true, [], { setRegs [] Dev.reset with now := 100000, ser := { Serial.reset with i2c := [] } }, by decide⟩

theorem test_meets_SerialControllers_24 : ∃ (d : Dev), (d.on SP_I2C_STAT_BUSY = true) :=
  ⟨{ setRegs [(SP_I2C_STAT, 1)] Dev.reset with now := 100000, ser := { Serial.reset with i2c := [] } }, by decide⟩

theorem test_meets_SerialControllers_25 : ∃ (d : Dev), (d.on SP_I2C_STAT_BUSY = false) :=
  ⟨{ setRegs [] Dev.reset with now := 100000, ser := { Serial.reset with i2c := [] } }, by decide⟩

theorem test_meets_SerialControllers_26 : ∃ (v : BitVec 32) (d : Dev), (d.on SP_XS_STAT_BUSY = false) ∧ (wbit v 31 = true) ∧ (d.on SP_XS_CMD_WR = false) :=
  ⟨0x80000100, { setRegs [] Dev.reset with now := 100000, ser := { Serial.reset with i2c := [] } }, by decide⟩

theorem test_meets_SerialControllers_27 : ∃ (v : BitVec 32) (d : Dev), (wbit v 31 = false) :=
  ⟨0x100, { setRegs [] Dev.reset with now := 100000, ser := { Serial.reset with i2c := [] } }, by decide⟩

theorem test_meets_SerialControllers_28 : ∃ (v : BitVec 32) (d : Dev), (wbit v 31 = true) ∧ (d.on SP_XS_STAT_BUSY = true) :=
  ⟨0x80000100, { setRegs [(SP_XS_STAT, 1)] Dev.reset with now := 100000, ser := { Serial.reset with i2c := [] } }, by decide⟩

theorem test_meets_SerialControllers_29 : ∃ (b : List (BitVec 8)) (x : XsCmd) (d : Dev), (d.ser.xs = some x) ∧ (x.wr = true) :=
  ⟨[1], { op := 3, sends := true, addr := 0x20, wr := true, buf := 0x1004, len := 3, data := [5, 6, 7] }, { setRegs [(SP_XS_STAT, 1), (SP_XS_CMD, 0x20000)] Dev.reset with now := 100000, ser := { Serial.reset with xs := some { op := 3, sends := true, addr := 0x20, wr := true, buf := 0x1004, len := 3, data := [5, 6, 7] } } }, by decide⟩

theorem test_meets_SerialControllers_30 : ∃ (b : List (BitVec 8)) (x : XsCmd) (d : Dev), (d.ser.xs = some x) ∧ (x.wr = false) ∧ (b.length = x.len) ∧ (1 ≤ b.length) ∧ (x.buf + b.length ≤ 0x800000) ∧ (d.integ.ecc = []) ∧ (d.integ.merge = []) ∧ ((∀ k : Fin 4, d.on (MI_FLIPk_CTL_ARM k) = false)) :=
  ⟨[1, 2, 3], { op := 3, sends := true, addr := 0x20, wr := false, buf := 0x1004, len := 3, data := [] }, { setRegs [(SP_XS_STAT, 1), (SP_XS_BUF, 0x1004), (SP_XS_LEN, 3)] Dev.reset with now := 100000, ser := { Serial.reset with xs := some { op := 3, sends := true, addr := 0x20, wr := false, buf := 0x1004, len := 3, data := [] } } }, by decide⟩

theorem test_meets_SerialControllers_31 : ∃ (b : List (BitVec 8)) (d : Dev), (d.ser.xs = none) :=
  ⟨[1], { setRegs [] Dev.reset with now := 100000, ser := { Serial.reset with i2c := [] } }, by decide⟩

theorem test_meets_SerialControllers_32 : ∃ (v : BitVec 32) (d : Dev), (d.on SP_XS_STAT_BUSY = false) ∧ (wbit v 31 = true) ∧ (d.on SP_XS_CMD_WR = true) ∧ (d.rd SP_XS_BUF_ADDR * 4 + min 256 (wbits v 8 0) ≤ 0x800000) ∧ (d.integ.ecc = []) :=
  ⟨0x80000004, { setRegs [(SP_XS_CMD, 0x30002), (SP_XS_BUF, 0x1004)] Dev.reset with mem := [(0x1005, 7)] }, by decide +kernel⟩

theorem test_meets_StepRunsTheFront_2 : ∃ s : State, s.pending = [] := ⟨State.reset, rfl⟩

theorem test_meets_NonVolatileMemoryIsKept_2 : ∃ s t : State, step s = .next t := ⟨State.reset, State.reset, rfl⟩

theorem test_meets_NonVolatileMemoryIsKept_3 : ∃ s t : State, KeysOk s.nv ∧ step s = .next t :=
  ⟨State.reset, State.reset, fun _ => .inl ⟨(by decide : KeySlot.empty.voted = 0), rfl⟩, rfl⟩

theorem test_meets_NonVolatileMemoryIsKept_4 : ∃ s t : State, step s = .next t :=
  ⟨{ State.reset with pending := [.hlClr] }, { State.reset with dev := State.reset.dev.setReg HL_CNT0 0 }, rfl⟩

theorem test_meets_NonVolatileMemoryIsKept_5 : ∃ (c : Instr) (rest : List Instr) (s t : State),
    s.pending = c :: rest ∧ c ≠ .floorSet ∧ c ≠ .keyProg ∧ c ≠ .keyRevoke ∧ step s = .next t :=
  ⟨.hlClr, [], { State.reset with pending := [.hlClr] }, { State.reset with dev := State.reset.dev.setReg HL_CNT0 0 }, rfl, by decide, by decide, by decide, rfl⟩

theorem test_meets_ContextWordsRoundTrip_5 : ∃ c e : Ctx, c.encode = e.encode := ⟨Ctx.decode 0, Ctx.decode 0, rfl⟩

end Sys2Proof.Machine
end

/-! ## A write at an offset that holds no register (R18) meets the vote of R306

A write over the bus reads the stored copies of the control word at its address before it looks for a register there. Where the copies listed
for that address differ, the vote rewrites them, whether or not a register lies there. -/
namespace Sys2Proof.Machine

/-- After its vote the copies of a control word agree. -/
theorem Dev.tget_tmr_vote (d : Dev) (a : Nat) : tget none (d.vote a).integ.tmr a = none := by
  unfold Dev.vote
  split
  case h_1 agree => exact agree
  case h_2 =>
    unfold Dev.tmrFixed
    rw [Dev.inc_frame]
    simp

/-- A read of one control word is its vote, where any copies differ. -/
theorem Dev.tget_tmr_votes_singleton (d : Dev) (a : Nat) : tget none (d.votes [a]).integ.tmr a = none := by
  unfold Dev.votes
  split
  case isTrue noUpset => rw [noUpset]; rfl
  case isFalse => exact d.tget_tmr_vote a

/-- R18: a write at an offset that holds no register leaves what the read of its copies leaves. -/
theorem Dev.busWrite_hole (d : Dev) {a : Nat} (v : BitVec 32) (csr : areaOf a = 4) (aligned : a % 4 = 0) (hole : regRow? a = none)
    (alwaysOn : csrDomain a = none) : (d.busWrite a (wordBytes v)).2 = d.votes [a] := by
  have base : a / 4 * 4 = a := Nat.div_mul_cancel (Nat.dvd_of_mod_eq_zero aligned)
  simp [Dev.busWrite, csr, Dev.csrWriteBytes, alwaysOn, aligned, wordBytes, base, Dev.csrWrite, hole]

/-- ... and so does the command REGISTER_WRITE. -/
theorem exec_registerWrite_hole {a : BitVec 40} (v : BitVec 32) (s : State) (csr : areaOf a.toNat = 4) (aligned : a.toNat % 4 = 0)
    (hole : regRow? a.toNat = none) (alwaysOn : csrDomain a.toNat = none) :
    exec (.registerWrite a v) s = .next { s with dev := s.dev.votes [a.toNat] } := by
  change execRegisterWrite a v s = _
  simp [execRegisterWrite, onDev, csr, aligned, Dev.busWrite_hole s.dev v csr aligned hole alwaysOn]

/-- An address in the block of the angle unit where no register lies (R58). -/
def auHole : BitVec 40 := 0x40010010

/-- The block after reset, but that of three copies listed at `auHole` one differs. -/
def Dev.upsetAtHole : Dev := { Dev.reset with integ := { Integ.reset with tmr := [(auHole.toNat, some { a := 1, b := 0, c := 0 })] } }

/-- Refutes O16, at its second clause: a write at an offset that holds no register is not without effect on every block. Where the copies of a
control word listed at that offset differ, the write's vote (R306) takes them off the list. The clause has no hypothesis that none are listed
there, as the first clause has. No command of the model puts an entry on that list, so a run from reset does not come to such a block. -/
theorem not_registersOverTheBus : ¬ Obligations.RegistersOverTheBus := by
  unfold Obligations.RegistersOverTheBus
  intro h
  obtain ⟨-, holeLeftAlone, -⟩ := h
  have csr : areaOf auHole.toNat = 4 := by decide
  have aligned : auHole.toNat % 4 = 0 := by decide
  have hole : regRow? auHole.toNat = none := by decide
  have alwaysOn : csrDomain auHole.toNat = none := by decide
  obtain ⟨e, ran, same⟩ := holeLeftAlone auHole 0 Dev.upsetAtHole csr aligned hole alwaysOn [] State.reset.nv
  rw [exec_registerWrite_hole _ _ csr aligned hole alwaysOn, same] at ran
  have voted : Dev.upsetAtHole.votes [auHole.toNat] = Dev.upsetAtHole := by simpa using ran
  have agree : tget none Dev.upsetAtHole.integ.tmr auHole.toNat = none := voted ▸ Dev.upsetAtHole.tget_tmr_votes_singleton auHole.toNat
  exact absurd agree (by decide)

end Sys2Proof.Machine

/-! ## Reasoning rules of the register file, the trackers and the event table

What a command that acts on the block alone answers, what bits of a register read after hardware sets or clears one, and what a read of a tracker, an entry or
a list returns after a write of one. -/
namespace Sys2Proof.Machine

/-! ### Commands that act on the block alone -/

/-- A command whose meaning is a function of the block answers the block that the function gives. -/
theorem On.of_onDev {c : Instr} {d : Dev} {p : Dev → Prop} (f : Dev → Dev) (means : ∀ s, exec c s = onDev f s) (holds : p (f d)) : On c d p :=
  fun _ _ => ⟨f d, means _, holds⟩

/-- ... and no other. -/
theorem On.elim_onDev {c : Instr} {d : Dev} {p : Dev → Prop} (f : Dev → Dev) (means : ∀ s, exec c s = onDev f s) (on : On c d p) : p (f d) := by
  obtain ⟨e, ran, holds⟩ := on [] Nv.reset
  rw [means] at ran
  simp only [onDev, Host.Outcome.next.injEq, State.mk.injEq, true_and] at ran
  exact ran ▸ holds

/-! ### Fields and their bits -/

theorem Dev.rd_lt (d : Dev) (f : Fld) : d.rd f < 2 ^ (f.hi + 1 - f.lo) := Nat.mod_lt _ (by positivity)

/-- A field of a register that holds a given word. -/

@[simp] theorem Dev.reg_setAd (d : Dev) (n : Nat) (t : Tracker) (a : Nat) : (d.setAd n t).reg a = d.reg a := rfl
@[simp] theorem Dev.rdBit_setAd (d : Dev) (n : Nat) (t : Tracker) (f : Fld) (i : Nat) : (d.setAd n t).rdBit f i = d.rdBit f i := rfl
@[simp] theorem Dev.rd_setAd (d : Dev) (n : Nat) (t : Tracker) (f : Fld) : (d.setAd n t).rd f = d.rd f := rfl

theorem Dev.reg_wrBit_ne (d : Dev) (f : Fld) (i : Nat) (b : Bool) {a : Nat} (h : a ≠ f.addr) : (d.wrBit f i b).reg a = d.reg a := Dev.reg_wr_ne d f _ h

theorem Dev.rd_wrBit_disjoint (d : Dev) (f g : Fld) (i : Nat) (b : Bool) (h : f.lo ≤ f.hi + 1) (h32 : f.hi < 32)
    (hd : g.addr ≠ f.addr ∨ f.hi < g.lo ∨ g.hi < f.lo) : (d.wrBit f i b).rd g = d.rd g := Dev.rd_wr_disjoint d f g _ h h32 hd

/-- Adding a power of two that a number lacks sets that bit. -/
theorem bit_add_of_clear {x i : Nat} (clear : x / 2 ^ i % 2 = 0) : (x + 2 ^ i) / 2 ^ i % 2 = 1 := by
  rw [Nat.add_div_right _ (by positivity)]
  omega

/-- Taking away a power of two that a number has clears that bit. -/
theorem bit_sub_of_set {x i : Nat} (set : x / 2 ^ i % 2 = 1) : (x - 2 ^ i) / 2 ^ i % 2 = 0 := by
  have sub := Nat.sub_mul_div x (2 ^ i) 1
  rw [Nat.mul_one] at sub
  omega

/-- A number of `k` bits that lacks bit `i` has room for it. -/
theorem add_bit_lt {x i k : Nat} (lt : x < 2 ^ k) (hi : i < k) (clear : x / 2 ^ i % 2 = 0) : x + 2 ^ i < 2 ^ k := by
  have pow : 2 ^ k = 2 ^ i * (2 * 2 ^ (k - i - 1)) := by
    rw [← pow_succ', ← pow_add]; congr 1; omega
  have above : x / 2 ^ i < 2 * 2 ^ (k - i - 1) := by
    rw [Nat.div_lt_iff_lt_mul (by positivity), Nat.mul_comm, ← pow]; exact lt
  have room : 2 ^ i * (x / 2 ^ i + 1 + 1) ≤ 2 ^ i * (2 * 2 ^ (k - i - 1)) := Nat.mul_le_mul_left _ (by omega)
  have split := Nat.div_add_mod x (2 ^ i)
  have low : x % 2 ^ i < 2 ^ i := Nat.mod_lt _ (by positivity)
  rw [Nat.mul_succ, Nat.mul_succ] at room
  omega

/-- A bit of a field reads what was written to it. -/
theorem Dev.rdBit_wrBit_same (d : Dev) (f : Fld) (i : Nat) (b : Bool) (h : f.lo ≤ f.hi) (h32 : f.hi < 32) (hi : i < f.hi + 1 - f.lo) :
    (d.wrBit f i b).rdBit f i = b := by
  have lt := d.rd_lt f
  unfold Dev.wrBit
  rw [Dev.rdBit, Dev.rd_wr_same d f _ (by omega) h32]
  by_cases same : d.rdBit f i = b
  · rw [if_pos same, Nat.mod_eq_of_lt lt]; exact same
  · rw [if_neg same]
    cases b with
    | true =>
      have clear : d.rd f / 2 ^ i % 2 = 0 := by simp [Dev.rdBit] at same; omega
      rw [if_pos rfl, Nat.mod_eq_of_lt (add_bit_lt lt hi clear), bit_add_of_clear clear]; rfl
    | false =>
      have set : d.rd f / 2 ^ i % 2 = 1 := by simpa [Dev.rdBit] using same
      rw [if_neg (by simp), Nat.mod_eq_of_lt (lt_of_le_of_lt (Nat.sub_le _ _) lt), bit_sub_of_set set]; rfl

/-- A bit that hardware sets reads 1. -/
theorem Dev.rdBit_setFlagBit_same (d : Dev) (f : Fld) (i : Nat) (h : f.lo ≤ f.hi) (h32 : f.hi < 32) (hi : i < f.hi + 1 - f.lo) :
    (d.setFlagBit f i).rdBit f i = true := d.rdBit_wrBit_same f i true h h32 hi

theorem Dev.reg_setFlagBit_ne (d : Dev) (f : Fld) (i : Nat) {a : Nat} (h : a ≠ f.addr) : (d.setFlagBit f i).reg a = d.reg a := d.reg_wrBit_ne f i true h

/-- What hardware sets changes the register of the bit alone. -/
theorem Dev.onlyRegs_setFlagBit (d : Dev) (f : Fld) (i : Nat) : OnlyRegs [f.addr] d (d.setFlagBit f i) :=
  ⟨rfl, fun a h => d.reg_setFlagBit_ne f i (by simpa using h)⟩

/-- A flag that hardware sets reads 1. -/
theorem Dev.rd_setFlag_same (d : Dev) (f : Fld) (h : f.lo = f.hi) (h32 : f.hi < 32) : (d.setFlag f).rd f = 1 := by
  have w : f.hi + 1 - f.lo = 1 := by omega
  have r := d.rd_wr_same f 1 (by omega) h32
  rw [w] at r
  exact r

/-- A counter that is not at its top counts. -/
theorem Dev.rd_inc_same (d : Dev) (f : Fld) (h : f.lo ≤ f.hi + 1) (h32 : f.hi < 32) (room : d.rd f < f.top) : (d.inc f).rd f = d.rd f + 1 := by
  rw [Dev.inc, if_pos room, d.rd_wr_same f _ h h32, Nat.mod_eq_of_lt]
  unfold Fld.top at room
  omega

theorem Dev.rd_inc_disjoint (d : Dev) (f g : Fld) (h : f.lo ≤ f.hi + 1) (h32 : f.hi < 32) (hd : g.addr ≠ f.addr ∨ f.hi < g.lo ∨ g.hi < f.lo) :
    (d.inc f).rd g = d.rd g := by
  unfold Dev.inc
  split
  · exact d.rd_wr_disjoint f g _ h h32 hd
  · rfl

theorem Dev.rd64_wr64_same (d : Dev) {lo hi : Nat} (v : BitVec 64) (h : lo ≠ hi) : (d.wr64 lo hi v).rd64 lo hi = v := by
  have a : (d.wr64 lo hi v).reg lo = w32 v.toNat := by
    unfold Dev.wr64; rw [Dev.reg_setReg_ne _ _ h, Dev.reg_setReg_same]
  have b : (d.wr64 lo hi v).reg hi = w32 (v.toNat / 2 ^ 32) := Dev.reg_setReg_same ..
  apply BitVec.eq_of_toNat_eq
  rw [Dev.rd64, a, b]
  simp only [w32, BitVec.toNat_ofNat]
  have := v.isLt
  omega

theorem Dev.reg_wr64_ne (d : Dev) {lo hi a : Nat} (v : BitVec 64) (hl : a ≠ lo) (hh : a ≠ hi) : (d.wr64 lo hi v).reg a = d.reg a := by
  unfold Dev.wr64; rw [Dev.reg_setReg_ne _ _ hh, Dev.reg_setReg_ne _ _ hl]

@[simp] theorem Dev.ang_wr64 (d : Dev) (lo hi : Nat) (v : BitVec 64) : (d.wr64 lo hi v).ang = d.ang := rfl
@[simp] theorem Dev.now_wr64 (d : Dev) (lo hi : Nat) (v : BitVec 64) : (d.wr64 lo hi v).now = d.now := rfl

theorem Dev.rd64_eq {d e : Dev} {lo hi : Nat} (hl : e.reg lo = d.reg lo) (hh : e.reg hi = d.reg hi) : e.rd64 lo hi = d.rd64 lo hi := by
  simp [Dev.rd64, hl, hh]

theorem Dev.rd_eq {d e : Dev} {f : Fld} (h : e.reg f.addr = d.reg f.addr) : e.rd f = d.rd f := by simp [Dev.rd, h]

/-! ### What a chain of register writes leaves -/

theorem OnlyRegs.refl (l : List Nat) (d : Dev) : OnlyRegs l d d := ⟨rfl, fun _ _ => rfl⟩

theorem OnlyRegs.trans {l : List Nat} {c d e : Dev} (first : OnlyRegs l c d) (second : OnlyRegs l d e) : OnlyRegs l c e :=
  ⟨second.1.trans (congrArg (fun x : Dev => { x with regs := e.regs, flags := e.flags }) first.1), fun a h => (second.2 a h).trans (first.2 a h)⟩

theorem OnlyRegs.mono {l m : List Nat} {d e : Dev} (h : OnlyRegs l d e) (sub : l ⊆ m) : OnlyRegs m d e :=
  ⟨h.1, fun a out => h.2 a fun mem => out (sub mem)⟩

theorem OnlyRegs.setReg {l : List Nat} {d e : Dev} (h : OnlyRegs l d e) {a : Nat} (v : BitVec 32) (listed : a ∈ l) : OnlyRegs l d (e.setReg a v) :=
  h.trans ⟨rfl, fun _ out => Dev.reg_setReg_ne _ _ fun same => out (same ▸ listed)⟩

theorem OnlyRegs.wr {l : List Nat} {d e : Dev} (h : OnlyRegs l d e) {f : Fld} (v : Nat) (listed : f.addr ∈ l) : OnlyRegs l d (e.wr f v) :=
  h.setReg _ listed

theorem OnlyRegs.wr64 {l : List Nat} {d e : Dev} (h : OnlyRegs l d e) {lo hi : Nat} (v : BitVec 64) (low : lo ∈ l) (high : hi ∈ l) :
    OnlyRegs l d (e.wr64 lo hi v) :=
  (h.setReg _ low).setReg _ high

theorem OnlyRegs.inc {l : List Nat} {d e : Dev} (h : OnlyRegs l d e) {f : Fld} (listed : f.addr ∈ l) : OnlyRegs l d (e.inc f) := by
  unfold Dev.inc
  split
  · exact h.wr _ listed
  · exact h

theorem OnlyRegs.setFlagBit {l : List Nat} {d e : Dev} (h : OnlyRegs l d e) {f : Fld} (i : Nat) (listed : f.addr ∈ l) :
    OnlyRegs l d (e.setFlagBit f i) := h.trans ((e.onlyRegs_setFlagBit f i).mono (by simpa using listed))

theorem OnlyRegs.setFlag {l : List Nat} {d e : Dev} (h : OnlyRegs l d e) {f : Fld} (listed : f.addr ∈ l) : OnlyRegs l d (e.setFlag f) :=
  h.trans ⟨rfl, fun _ out => Dev.reg_setFlag_ne _ _ fun same => out (same ▸ listed)⟩

/-- The block without its registers. -/
def Dev.beyondRegs (d : Dev) : Dev := { d with regs := [], flags := [] }

@[simp] theorem Dev.beyondRegs_setReg (d : Dev) (a : Nat) (v : BitVec 32) : (d.setReg a v).beyondRegs = d.beyondRegs := rfl
@[simp] theorem Dev.beyondRegs_wr (d : Dev) (f : Fld) (v : Nat) : (d.wr f v).beyondRegs = d.beyondRegs := rfl

@[simp] theorem Dev.beyondRegs_inc (d : Dev) (f : Fld) : (d.inc f).beyondRegs = d.beyondRegs := by
  unfold Dev.inc
  split
  · exact d.beyondRegs_wr f _
  · rfl

/-- Equal beside registers. -/
theorem Dev.eq_of_beyondRegs {d e : Dev} (h : e.beyondRegs = d.beyondRegs) : e = { d with regs := e.regs, flags := e.flags } :=
  congrArg (fun x : Dev => { x with regs := e.regs, flags := e.flags }) h

/-! ### The angle unit beside the registers -/

/-- The block with its angle unit replaced. -/
def Dev.withAng (d : Dev) (a : Angle) : Dev := { d with ang := a }

@[simp] theorem Dev.ang_withAng (d : Dev) (a : Angle) : (d.withAng a).ang = a := rfl
@[simp] theorem Dev.reg_withAng (d : Dev) (a : Angle) (x : Nat) : (d.withAng a).reg x = d.reg x := rfl
@[simp] theorem Dev.rd_withAng (d : Dev) (a : Angle) (f : Fld) : (d.withAng a).rd f = d.rd f := rfl

/-- A change of registers with another angle unit changes just that. -/
theorem OnlyRegs.withAng_frame {l : List Nat} {d e : Dev} (h : OnlyRegs l d e) (a : Angle) :
    e.withAng a = { d with regs := e.regs, flags := e.flags, ang := a } := congrArg (·.withAng a) h.1

/-! ### Loops -/

/-- What every turn of a loop keeps, the loop keeps. -/
theorem forUpTo_induct {σ : Type} {f : Nat → σ → σ} (p : σ → Prop) {n : Nat} {s : σ} (init : p s) (step : ∀ i, i < n → ∀ s, p s → p (f i s)) :
    p (forUpTo n f s) := by
  refine List.foldlRecOn (List.range n) (fun s i => f i s) init fun s hs i hi => step i (List.mem_range.mp hi) s hs

theorem forList_induct {α σ : Type} {f : α → σ → σ} (p : σ → Prop) {xs : List α} {s : σ} (init : p s) (step : ∀ x, x ∈ xs → ∀ s, p s → p (f x s)) :
    p (forList xs f s) :=
  List.foldlRecOn xs (fun s x => f x s) init fun s hs x hx => step x hx s hs

theorem forUpTo_succ {σ : Type} (n : Nat) (f : Nat → σ → σ) (s : σ) : forUpTo (n + 1) f s = f n (forUpTo n f s) := by
  simp [forUpTo, List.range_succ]

/-- A function of the state that every turn keeps, the loop keeps. -/
theorem forUpTo_keeps {σ β : Type} {f : Nat → σ → σ} (view : σ → β) (n : Nat) (s : σ) (step : ∀ i, i < n → ∀ s, view (f i s) = view s) :
    view (forUpTo n f s) = view s :=
  forUpTo_induct (fun t => view t = view s) rfl fun i hi t ht => (step i hi t).trans ht

theorem forList_keeps {α σ β : Type} {f : α → σ → σ} (view : σ → β) (xs : List α) (s : σ) (step : ∀ x, x ∈ xs → ∀ s, view (f x s) = view s) :
    view (forList xs f s) = view s :=
  forList_induct (fun t => view t = view s) rfl fun x hx t ht => (step x hx t).trans ht

/-! ### Trackers -/

@[simp] theorem Dev.ad_setAd_same (d : Dev) (n : Nat) (t : Tracker) : (d.setAd n t).ad n = t := tget_tset_same ..

theorem Dev.ad_setAd_ne (d : Dev) {n m : Nat} (t : Tracker) (h : m ≠ n) : (d.setAd n t).ad m = d.ad m := tget_tset_ne _ _ _ _ h

@[simp] theorem Dev.ad_wr (d : Dev) (f : Fld) (v n : Nat) : (d.wr f v).ad n = d.ad n := rfl

/-- Trackers are read from the angle unit alone. -/
theorem Dev.ad_eq {d e : Dev} (h : e.ang.ad = d.ang.ad) (n : Nat) : e.ad n = d.ad n := by simp [Dev.ad, h]

/-! ### Isles -/

@[simp] theorem Dev.isle_setIsle_same (d : Dev) (n : Nat) (i : Isle) : (d.setIsle n i).isle n = i := tget_tset_same ..
theorem Dev.isle_setIsle_ne (d : Dev) {n m : Nat} (i : Isle) (h : m ≠ n) : (d.setIsle n i).isle m = d.isle m := tget_tset_ne _ _ _ _ h
@[simp] theorem Dev.isle_setAd (d : Dev) (n : Nat) (t : Tracker) (k : Nat) : (d.setAd n t).isle k = d.isle k := rfl
@[simp] theorem Dev.isle_wr (d : Dev) (f : Fld) (v n : Nat) : (d.wr f v).isle n = d.isle n := rfl

/-! ### The event table -/

@[simp] theorem Dev.entry_setEntry_same (d : Dev) (i : Nat) (x : Option EtEntry) : (d.setEntry i x).entry i = x := tget_tset_same ..
theorem Dev.entry_setEntry_ne (d : Dev) {i j : Nat} (x : Option EtEntry) (h : j ≠ i) : (d.setEntry i x).entry j = d.entry j := tget_tset_ne _ _ _ _ h
@[simp] theorem Dev.list_setList_same (d : Dev) (l : Nat) (xs : List Nat) : (d.setList l xs).list l = xs := tget_tset_same ..
@[simp] theorem Dev.entry_setList (d : Dev) (l : Nat) (xs : List Nat) (i : Nat) : (d.setList l xs).entry i = d.entry i := rfl

/-- Entries are read from the angle unit alone. -/
theorem Dev.entry_eq {d e : Dev} (h : e.ang.entries = d.ang.entries) (i : Nat) : e.entry i = d.entry i := by simp [Dev.entry, h]

theorem Dev.list_eq {d e : Dev} (h : e.ang.lists = d.ang.lists) (l : Nat) : e.list l = d.list l := by simp [Dev.list, h]

/-- Where an entry is placed depends on the entries alone. -/
theorem Dev.placeIn_eq {d e : Dev} (h : ∀ i, e.entry i = d.entry i) (rev : Bool) (s : BitVec 40) (i : Nat) (l : List Nat) :
    e.placeIn rev s i l = d.placeIn rev s i l := by
  induction l with
  | nil => rfl
  | cons x xs ih => simp only [Dev.placeIn, h, ih]

end Sys2Proof.Machine

/-! ## Loads, counters, enable and disable of the angle domains (R22, R29, R30, R58) -/
namespace Sys2Proof.Machine

/-- A jump moves the estimate and keeps the velocity. -/
@[simp] theorem Tracker.theta_jump (t : Tracker) (th : BitVec 80) : (t.jump th).theta = th := rfl
@[simp] theorem Tracker.omega_jump (t : Tracker) (th : BitVec 80) : (t.jump th).omega = t.omega := rfl

theorem Dev.setAng_of_ahead {n : Nat} {d : Dev} (ahead : n = 7 → 0 < (d.rd64 (AU_ADn_SET_LO 7) (AU_ADn_SET_HI 7) - d.stamp 7).toInt) :
    d.setAng n = d.loadAngle n := by
  unfold Dev.setAng
  rw [if_neg]
  rintro ⟨rfl, behind⟩
  exact behind (ahead rfl)

theorem Dev.setAng_of_behind {d : Dev} (behind : ¬ 0 < (d.rd64 (AU_ADn_SET_LO 7) (AU_ADn_SET_HI 7) - d.stamp 7).toInt) :
    d.setAng 7 = d.setFlagBit AU_STAT_CFGERR 7 := if_pos ⟨rfl, behind⟩

theorem Dev.setVel_seven (d : Dev) : d.setVel 7 = d.setFlagBit AU_STAT_CFGERR 7 := if_pos rfl
theorem Dev.setVel_of_ne {n : Nat} {d : Dev} (h : n ≠ 7) : d.setVel n = d.loadVel n := if_neg h

/-- The start of a domain replaces its tracker by one at AU_ADn_SET and AU_ADn_VNOM. -/
theorem Dev.startDomain_eq (d : Dev) (n : Nat) :
    ∃ t : Tracker, d.startDomain n = d.setAd n t ∧ t.theta = stampTheta (d.rd64 (AU_ADn_SET_LO n) (AU_ADn_SET_HI n)) ∧ t.omega = d.vnom n :=
  ⟨_, rfl, rfl, rfl⟩

theorem Dev.enableDomain_of_ok {n : Nat} {d : Dev} (off : d.adOn n = false) (ok : d.adCfgOk n = true) :
    d.enableDomain n = (d.wrBit AU_CTRL_EN n true).startDomain n := by
  simp [Dev.enableDomain, off, ok]

theorem Dev.enableDomain_of_refused {n : Nat} {d : Dev} (off : d.adOn n = false) (bad : d.adCfgOk n = false) :
    d.enableDomain n = d.setFlagBit AU_STAT_CFGERR n := by
  simp [Dev.enableDomain, off, bad]

/-- The velocity register lies apart from the enable bits. -/
theorem Dev.vnom_wrBit_en (d : Dev) (n i : Nat) (b : Bool) : (d.wrBit AU_CTRL_EN i b).vnom n = d.vnom n := by
  have lo := d.reg_wrBit_ne AU_CTRL_EN i b (a := AU_ADn_VNOM_LO n) (by grind)
  have hi := d.reg_wrBit_ne AU_CTRL_EN i b (a := AU_ADn_VNOM_HI n) (by grind)
  rw [Dev.vnom, Dev.rd64_eq lo hi, Dev.vnom]

/-- Settles O1: each command's function has one equation per case, and what it writes is read back by the rules of registers and trackers. -/
theorem angleLoadsAndCounters : Obligations.AngleLoadsAndCounters := by
  unfold Obligations.AngleLoadsAndCounters
  refine ⟨?setang, ?setangBehind, ?setvel, ?setvel7, ?clrcnt, ?enable, ?refused, ?disable⟩
  case setang =>
    intro n d ahead
    refine .of_onDev (Dev.setAng n.val) (fun _ => rfl) ?_
    rw [Dev.setAng_of_ahead ahead, Dev.loadAngle]
    exact ⟨by rw [Dev.ad_setAd_same, Tracker.theta_jump], by rw [Dev.ad_setAd_same, Tracker.omega_jump], fun m h => d.ad_setAd_ne _ h, rfl⟩
  case setangBehind =>
    intro d behind
    refine .of_onDev (Dev.setAng 7) (fun _ => rfl) ?_
    rw [Dev.setAng_of_behind behind]
    exact ⟨d.rdBit_setFlagBit_same _ _ (by decide) (by decide) (by decide), d.onlyRegs_setFlagBit _ _⟩
  case setvel =>
    intro n d h
    refine .of_onDev (Dev.setVel n.val) (fun _ => rfl) ?_
    rw [Dev.setVel_of_ne h, Dev.loadVel]
    exact ⟨by rw [Dev.ad_setAd_same], by rw [Dev.ad_setAd_same], fun m h => d.ad_setAd_ne _ h, rfl⟩
  case setvel7 =>
    intro d
    refine .of_onDev (Dev.setVel 7) (fun _ => rfl) ?_
    rw [Dev.setVel_seven]
    exact ⟨d.rdBit_setFlagBit_same _ _ (by decide) (by decide) (by decide), d.onlyRegs_setFlagBit _ _⟩
  case clrcnt =>
    intro n d
    refine .of_onDev (fun d => d.setReg (AU_ADn_CNT n.val) 0) (fun _ => rfl) ?_
    exact ⟨d.reg_setReg_same _ _, rfl, fun a h => d.reg_setReg_ne _ (by simpa using h)⟩
  case enable =>
    intro n d off ok
    refine .of_onDev (Dev.enableDomain n.val) (fun _ => rfl) ?_
    rw [Dev.enableDomain_of_ok off ok]
    obtain ⟨t, started, theta, omega⟩ := (d.wrBit AU_CTRL_EN n true).startDomain_eq n
    rw [started]
    have lo := d.reg_wrBit_ne AU_CTRL_EN n true (a := AU_ADn_SET_LO n) (by grind)
    have hi := d.reg_wrBit_ne AU_CTRL_EN n true (a := AU_ADn_SET_HI n) (by grind)
    rw [Dev.rd64_eq lo hi] at theta
    rw [Dev.vnom_wrBit_en] at omega
    refine ⟨?_, by rw [Dev.ad_setAd_same, theta], by rw [Dev.ad_setAd_same, omega], fun m h => Dev.ad_setAd_ne _ _ h, fun a h => ?_, rfl⟩
    · rw [Dev.adOn, Dev.rdBit_setAd]
      exact d.rdBit_wrBit_same AU_CTRL_EN n true (by decide) (by decide) n.isLt
    · rw [Dev.reg_setAd]
      exact d.reg_wrBit_ne _ _ _ (by simpa using h)
  case refused =>
    intro n d off bad
    refine .of_onDev (Dev.enableDomain n.val) (fun _ => rfl) ?_
    rw [Dev.enableDomain_of_refused off bad]
    have still : (d.setFlagBit AU_STAT_CFGERR n).rd AU_CTRL_EN = d.rd AU_CTRL_EN := Dev.rd_eq (d.reg_setFlagBit_ne _ _ (by decide))
    refine ⟨?_, d.rdBit_setFlagBit_same _ _ (by decide) (by decide) n.isLt, d.onlyRegs_setFlagBit _ _⟩
    rw [← off, Dev.adOn, Dev.rdBit, still, Dev.adOn, Dev.rdBit]
  case disable =>
    intro n d h
    refine .of_onDev (Dev.disableDomain n.val) (fun _ => rfl) ?_
    rw [Dev.disableDomain, if_neg h]
    let c := d.wrBit AU_CTRL_EN n false
    let e := c.wrBit AU_STAT_LOCK n false
    have en : e.rd AU_CTRL_EN = c.rd AU_CTRL_EN := c.rd_wrBit_disjoint _ _ _ _ (by decide) (by decide) (by decide)
    have off : e.adOn n = false := by
      rw [Dev.adOn, Dev.rdBit, en]
      exact d.rdBit_wrBit_same AU_CTRL_EN n false (by decide) (by decide) n.isLt
    have lock : e.rdBit AU_STAT_LOCK n = false := c.rdBit_wrBit_same _ _ _ (by decide) (by decide) n.isLt
    have lost : e.rd AU_STAT_LOST = d.rd AU_STAT_LOST :=
      (c.rd_wrBit_disjoint _ _ _ _ (by decide) (by decide) (by decide)).trans (d.rd_wrBit_disjoint _ _ _ _ (by decide) (by decide) (by decide))
    refine ⟨off, lock, lost, by rw [Dev.ad_setAd_same], fun m h => e.ad_setAd_ne _ h, fun a ha => ?_, rfl⟩
    simp only [List.mem_cons, List.not_mem_nil, or_false, not_or] at ha
    exact (c.reg_wrBit_ne _ _ _ ha.2).trans (d.reg_wrBit_ne _ _ _ ha.1)

end Sys2Proof.Machine

/-! ## Predictions (R31) -/
namespace Sys2Proof.Machine

/-- An exact quotient is not rounded. -/
theorem roundDiv_mul {k w : Int} (h : 0 < w) : roundDiv (k * w) w = k := by
  have exact_ : k * w % w = 0 := Int.mul_emod_left k w
  simp only [roundDiv, exact_, Int.mul_ediv_cancel k h.ne']
  rw [if_pos (by omega)]

/-- Rounding adds at most one. -/
theorem roundDiv_le {a w : Int} (h : 0 < w) : roundDiv a w ≤ a / w + 1 := by
  simp only [roundDiv]
  split_ifs <;> omega

/-- What lies a whole step or more behind is rounded to a negative quotient, whichever way a tie falls. -/
theorem roundDiv_neg {a w : Int} (h : 0 < w) (behind : a ≤ -w) : roundDiv a w < 0 := by
  have div := Int.mul_ediv_add_emod a w
  have nonneg := Int.emod_nonneg a h.ne'
  have q : a / w < 0 := Int.ediv_lt_of_lt_mul h (by omega)
  by_cases last : a / w = -1
  · have whole : a = -1 * w := by rw [last] at div; omega
    rw [whole, roundDiv_mul h]
    omega
  · have le := roundDiv_le (a := a) h
    omega

/-- There is no prediction from a domain that stands still. -/
theorem Dev.predict_of_still {d : Dev} {a : Nat} (still : (d.ad a).omega = 0) (s : BitVec 64) (b : Nat) : d.predict a s b = none := by
  simp [Dev.predict, still]

/-- Nor one for a stamp that is rounded to a time before now. -/
theorem Dev.predict_of_behind {d : Dev} {a : Nat} {s : BitVec 64} (moves : 0 < (d.ad a).omega.toInt)
    (behind : roundDiv (stampTheta s - (d.ad a).theta).toInt (d.ad a).omega.toInt < 0) (b : Nat) : d.predict a s b = none := by
  unfold Dev.predict
  rw [if_neg moves.ne', if_pos (.inl behind)]

/-- A stamp that is `k` ACLK ahead, within the horizon, is predicted by the other domain's estimate `k` ACLK ahead. -/
theorem Dev.predict_of_ahead {d : Dev} {a : Nat} {s : BitVec 64} {k : Nat} (moves : 0 < (d.ad a).omega.toInt) (near : k ≤ 2 ^ 26)
    (ahead : roundDiv (stampTheta s - (d.ad a).theta).toInt (d.ad a).omega.toInt = k) (b : Nat) :
    d.predict a s b = some (if a = b then s else BitVec.ofNat 64 (((d.ad b).ahead k).toNat / 2 ^ 16)) := by
  have inHorizon : ¬ ((k : Int) < 0 ∨ (2 ^ 26 : Int) < k) := by omega
  simp only [Dev.predict, ahead]
  rw [if_neg moves.ne', if_neg inHorizon]
  split <;> rfl

/-- Settles O23, by the quotient that R31 rounds: exact where the stamp is a whole number of steps ahead, negative where it lies a step behind. -/
theorem predictions : Obligations.Predictions := by
  unfold Obligations.Predictions
  refine ⟨fun a b s k d moves near dist => ?_, fun a b s d still => d.predict_of_still still s b, fun a b s d moves behind => ?_⟩
  · rw [d.predict_of_ahead moves near (by rw [dist, roundDiv_mul moves])]
    simp only [Fin.ext_iff]
  · exact d.predict_of_behind moves (roundDiv_neg moves behind) b

end Sys2Proof.Machine

/-! ## Arming a change set and the target it takes (R50, R54, R55) -/
namespace Sys2Proof.Machine

/-! ### Landfall arithmetic -/

theorem Dev.lfPeriod_dvd (d : Dev) (n : Nat) : d.lfPeriod n ∣ 2 ^ 80 := Nat.pow_dvd_pow 2 (by omega)

theorem Dev.lfPeriod_pos (d : Dev) (n : Nat) : 0 < d.lfPeriod n := by unfold Dev.lfPeriod; positivity

/-- Reduction modulo a multiple of the period keeps a landfall. -/
theorem isLandfall_ofNat {per x : Nat} (dvd : per ∣ 2 ^ 80) (h : per ∣ x) : isLandfall per (BitVec.ofNat 80 x) = true := by
  have mod : x % 2 ^ 80 % per = 0 := by rw [Nat.mod_mod_of_dvd _ dvd]; exact Nat.mod_eq_zero_of_dvd h
  simpa [isLandfall] using mod

/-- Adding or taking away a period keeps a landfall. -/
theorem isLandfall_sub_per {per x : Nat} (dvd : per ∣ 2 ^ 80) (h : per ∣ x) :
    isLandfall per (BitVec.ofNat 80 x - BitVec.ofNat 80 per) = true := by
  have inRange : per ∣ 2 ^ 80 - per % 2 ^ 80 + x % 2 ^ 80 := by
    refine Nat.dvd_add (Nat.dvd_sub dvd ?_) ?_
    · exact (Nat.dvd_mod_iff dvd).mpr dvd_rfl
    · exact (Nat.dvd_mod_iff dvd).mpr h
  rw [isLandfall, BitVec.toNat_sub, BitVec.toNat_ofNat, BitVec.toNat_ofNat, Nat.mod_mod_of_dvd _ dvd]
  simpa using Nat.mod_eq_zero_of_dvd inRange

/-- The next landfall is a landfall. -/
theorem isLandfall_lfNext (rev : Bool) {per : Nat} (dvd : per ∣ 2 ^ 80) (t : BitVec 80) : isLandfall per (lfNext rev per t) = true := by
  cases rev with
  | false =>
    have sum : lfNext false per t = BitVec.ofNat 80 (t.toNat / per * per + per) := (BitVec.ofNat_add ..).symm
    rw [sum]
    exact isLandfall_ofNat dvd (Dvd.dvd.add (Nat.dvd_mul_left ..) dvd_rfl)
  | true => exact isLandfall_sub_per dvd (Nat.dvd_mul_left ..)

/-- How far the next landfall lies ahead, in the domain's direction. -/
def lfGap (rev : Bool) (per : Nat) (t : BitVec 80) : BitVec 80 := if rev then t - lfNext rev per t else lfNext rev per t - t

/-- Forward, the gap is what the estimate lacks of the period. -/
theorem lfGap_forward {per : Nat} (pos : 0 < per) (t : BitVec 80) : lfGap false per t = BitVec.ofNat 80 (per - t.toNat % per) := by
  have split := Nat.div_add_mod' t.toNat per
  have low := Nat.mod_lt t.toNat pos
  have self : t = BitVec.ofNat 80 (t.toNat / per * per + t.toNat % per) := by rw [split]; simp
  have next : lfNext false per t = BitVec.ofNat 80 (t.toNat / per * per + per) := (BitVec.ofNat_add ..).symm
  have sum : t.toNat / per * per + per = t.toNat / per * per + t.toNat % per + (per - t.toNat % per) := by omega
  have ahead : lfNext false per t = t + BitVec.ofNat 80 (per - t.toNat % per) := by rw [next, sum, BitVec.ofNat_add, ← self]
  simp only [lfGap, Bool.false_eq_true, if_false]
  rw [ahead, add_sub_cancel_left]

/-- In reverse, the gap is what the estimate is beyond the landfall before it, a whole period on a landfall. -/
theorem lfGap_reverse (per : Nat) (t : BitVec 80) :
    lfGap true per t = BitVec.ofNat 80 (t.toNat + per - (t.toNat + per - 1) / per * per) := by
  have floor : (t.toNat + per - 1) / per * per ≤ t.toNat + per := (Nat.div_mul_le_self _ _).trans (Nat.sub_le _ _)
  have sum : t.toNat + per = t.toNat + per - (t.toNat + per - 1) / per * per + (t.toNat + per - 1) / per * per := by omega
  have ahead : t + BitVec.ofNat 80 per =
      BitVec.ofNat 80 (t.toNat + per - (t.toNat + per - 1) / per * per) + BitVec.ofNat 80 ((t.toNat + per - 1) / per * per) := by
    rw [← BitVec.ofNat_add, ← sum, BitVec.ofNat_add]; simp
  simp only [lfGap, lfNext, lfFloor, if_true]
  rw [BitVec.sub_eq_iff_eq_add]
  rw [← add_sub_assoc, ← ahead, add_sub_cancel_right]

/-- The next landfall lies ahead, at most a period. -/
theorem lfGap_bounds (rev : Bool) {per : Nat} (pos : 0 < per) (lt : per < 2 ^ 80) (t : BitVec 80) :
    0 < (lfGap rev per t).toNat ∧ (lfGap rev per t).toNat ≤ per := by
  cases rev with
  | false =>
    have low := Nat.mod_lt t.toNat pos
    rw [lfGap_forward pos, BitVec.toNat_ofNat, Nat.mod_eq_of_lt (by omega)]
    omega
  | true =>
    have split := Nat.div_add_mod' (t.toNat + per - 1) per
    have low := Nat.mod_lt (t.toNat + per - 1) pos
    rw [lfGap_reverse, BitVec.toNat_ofNat, Nat.mod_eq_of_lt (by omega)]
    omega

theorem Dev.lfPeriod_lt (d : Dev) (n : Nat) : d.lfPeriod n < 2 ^ 80 := Nat.pow_lt_pow_right (by omega) (by omega)

/-! ### The target -/

/-- The target that an armed slot takes, in one equation: the given landfall, or the next one, unless its check has passed. -/
theorem Dev.mcArmTarget_eq (d : Dev) (n : Nat) (l : BitVec 80) :
    d.mcArmTarget n l =
      if d.checkPassed n (if isLandfall (d.lfPeriod n) l then l else lfNext (d.adRev n) (d.lfPeriod n) l) then
        lfNext (d.adRev n) (d.lfPeriod n) ((d.ad n).ahead d.lead)
      else if isLandfall (d.lfPeriod n) l then l else lfNext (d.adRev n) (d.lfPeriod n) l := rfl

/-- On an enabled domain with a history, the check of a target has passed when it is reached now and was one ACLK ago. -/
theorem Dev.checkPassed_iff {d : Dev} {n : Nat} {l th : BitVec 80} (on : d.adOn n = true) (before : (d.ad n).hist[0]? = some th) :
    d.checkPassed n l = true ↔
      d.checkReached n l = true ∧ atOrPast (d.adRev n) (th + BitVec.ofInt 80 ((d.ad n).prevOmega.toInt * d.lead)) l = true := by
  obtain ⟨rest, hist⟩ : ∃ rest, (d.ad n).hist = th :: rest := by
    cases h : (d.ad n).hist with
    | nil => simp [h] at before
    | cons x xs => exact ⟨xs, by simpa [h] using before⟩
  simp [Dev.checkPassed, on, hist]

/-- The target depends on the trackers, the domain's configuration, the lead and the enable bits alone. -/
theorem Dev.mcArmTarget_congr {d e : Dev} {n : Nat} (ang : e.ang = d.ang) (cfg : e.reg (AU_ADn_CFG n) = d.reg (AU_ADn_CFG n))
    (lead : e.reg AU_LEAD = d.reg AU_LEAD) (en : e.reg AU_CTRL = d.reg AU_CTRL) (l : BitVec 80) : e.mcArmTarget n l = d.mcArmTarget n l := by
  have ad : e.ad n = d.ad n := Dev.ad_eq (by rw [ang]) n
  have per : e.lfPeriod n = d.lfPeriod n := by rw [Dev.lfPeriod, Dev.lfPeriod, Dev.rd_eq (f := AU_ADn_CFG_LFK n) cfg]
  have rev : e.adRev n = d.adRev n := by rw [Dev.adRev, Dev.adRev, Dev.on, Dev.on, Dev.rd_eq (f := AU_ADn_CFG_DIR n) cfg]
  have leads : e.lead = d.lead := by rw [Dev.lead, Dev.lead, Dev.rd_eq (f := AU_LEAD_LEAD) lead]
  have on : e.adOn n = d.adOn n := by rw [Dev.adOn, Dev.adOn, Dev.rdBit, Dev.rdBit, Dev.rd_eq (f := AU_CTRL_EN) en]
  have reached : ∀ l, e.checkReached n l = d.checkReached n l := fun l => by rw [Dev.checkReached, Dev.checkReached, ad, rev, leads]
  have passed : ∀ l, e.checkPassed n l = d.checkPassed n l := fun l => by rw [Dev.checkPassed, Dev.checkPassed, reached, ad, rev, leads, on]
  simp only [Dev.mcArmTarget_eq, passed, ad, per, rev, leads]

/-! ### The write of ARM -/

/-- The registers of slot `s` as an arming on domain `n` with target `l` leaves them. -/
def Dev.armRegs (s n : Nat) (l : BitVec 80) (d : Dev) : Dev :=
  (((((d.wr (AU_MCs_CTL_DOM s) n).wr (AU_MCs_CTL_ARM s) 1).wr64 (AU_MCs_LF_LO s) (AU_MCs_LF_HI s) (lfStamp l)).wr (AU_MCs_ACK_GOT s) 0).setReg
    (AU_MCs_STAT s) 0).wr (AU_MCs_STAT_STATE s) 1

/-- The two writes of CTL leave what the target depends on. -/
theorem Dev.mcArmTarget_wr_ctl (d : Dev) (s n : Nat) (h : n < 8) (a b : Nat) (l : BitVec 80) :
    ((d.wr (AU_MCs_CTL_DOM s) a).wr (AU_MCs_CTL_ARM s) b).mcArmTarget n l = d.mcArmTarget n l := by
  have reg : ∀ x, x ≠ AU_MCs_CTL s → ((d.wr (AU_MCs_CTL_DOM s) a).wr (AU_MCs_CTL_ARM s) b).reg x = d.reg x := fun x hx =>
    (Dev.reg_wr_ne _ _ _ hx).trans (Dev.reg_wr_ne _ _ _ hx)
  exact Dev.mcArmTarget_congr (d := d) (e := (d.wr (AU_MCs_CTL_DOM s) a).wr (AU_MCs_CTL_ARM s) b) rfl (reg (AU_ADn_CFG n) (by grind)) (reg AU_LEAD (by grind)) (reg AU_CTRL (by grind)) l

theorem Dev.mcTarget_wr_ctl (d : Dev) (s a b : Nat) : ((d.wr (AU_MCs_CTL_DOM s) a).wr (AU_MCs_CTL_ARM s) b).mcTarget s = d.mcTarget s := by
  have reg : ∀ x, x ≠ AU_MCs_CTL s → ((d.wr (AU_MCs_CTL_DOM s) a).wr (AU_MCs_CTL_ARM s) b).reg x = d.reg x := fun x hx =>
    (Dev.reg_wr_ne _ _ _ hx).trans (Dev.reg_wr_ne _ _ _ hx)
  rw [Dev.mcTarget, Dev.rd64_eq (reg (AU_MCs_LF_LO s) (by grind)) (reg (AU_MCs_LF_HI s) (by grind)), Dev.mcTarget]

/-- Naming the domain leaves the state of a slot. -/
theorem Dev.rd_state_wr_dom (d : Dev) (s n : Nat) : (d.wr (AU_MCs_CTL_DOM s) n).rd (AU_MCs_STAT_STATE s) = d.rd (AU_MCs_STAT_STATE s) :=
  d.rd_wr_ne _ _ _ (by grind)

/-- A slot that is neither armed nor committed is armed. -/
theorem Dev.mcArm_of_free {s n : Nat} {d : Dev} (h : n < 8) (notArmed : d.rd (AU_MCs_STAT_STATE s) ≠ 1) (notCommitted : d.rd (AU_MCs_STAT_STATE s) ≠ 2) :
    d.mcArm s n =
      (d.armRegs s n (d.mcArmTarget n (d.mcTarget s))).withAng { d.ang with mcArmed := tset 0 d.ang.mcArmed s d.now } := by
  simp only [Dev.mcArm, Dev.rd_state_wr_dom]
  rw [if_neg (not_or.mpr ⟨notArmed, notCommitted⟩), Dev.mcTarget_wr_ctl, Dev.mcArmTarget_wr_ctl _ _ _ h]
  simp only [Dev.withAng, Dev.armRegs, Dev.ang_wr, Dev.ang_setReg, Dev.ang_wr64, Dev.now_wr, Dev.now_setReg, Dev.now_wr64]

/-- One that is armed or committed ignores ARM. -/
theorem Dev.mcArm_of_busy {s n : Nat} {d : Dev} (busy : d.rd (AU_MCs_STAT_STATE s) = 1 ∨ d.rd (AU_MCs_STAT_STATE s) = 2) :
    d.mcArm s n = d.wr (AU_MCs_CTL_DOM s) n := by
  simp only [Dev.mcArm, Dev.rd_state_wr_dom]
  exact if_pos busy

theorem Dev.rd64_armRegs (s n : Nat) (l : BitVec 80) (d : Dev) : (d.armRegs s n l).rd64 (AU_MCs_LF_LO s) (AU_MCs_LF_HI s) = lfStamp l := by
  unfold Dev.armRegs
  have reg : ∀ (c : Dev) (x : Nat), x ≠ AU_MCs_ACK s → x ≠ AU_MCs_STAT s →
      (((c.wr (AU_MCs_ACK_GOT s) 0).setReg (AU_MCs_STAT s) 0).wr (AU_MCs_STAT_STATE s) 1).reg x = c.reg x := fun c x ha hs =>
    ((Dev.reg_wr_ne _ _ _ hs).trans (Dev.reg_setReg_ne _ _ hs)).trans (Dev.reg_wr_ne _ _ _ ha)
  rw [Dev.rd64_eq (reg _ (AU_MCs_LF_LO s) (by grind) (by grind)) (reg _ (AU_MCs_LF_HI s) (by grind) (by grind))]
  exact Dev.rd64_wr64_same _ _ (by grind)

/-- Arming writes the registers of the slot alone. -/
theorem Dev.onlyRegs_armRegs (s n : Nat) (l : BitVec 80) (d : Dev) :
    OnlyRegs [AU_MCs_CTL s, AU_MCs_LF_LO s, AU_MCs_LF_HI s, AU_MCs_ACK s, AU_MCs_STAT s] d (d.armRegs s n l) :=
  ((((((OnlyRegs.refl _ d).wr n (by simp)).wr 1 (by simp)).wr64 _ (by simp) (by simp)).wr 0 (by simp)).setReg 0 (by simp)).wr 1 (by simp)

/-- The fields of the slot after its arming. -/
theorem Dev.rd_armRegs (s n : Nat) (h : n < 8) (l : BitVec 80) (d : Dev) :
    (d.armRegs s n l).rd (AU_MCs_STAT_STATE s) = 1 ∧ (d.armRegs s n l).rd (AU_MCs_STAT_PPN s) = 0 ∧ (d.armRegs s n l).rd (AU_MCs_STAT_CAUSE s) = 0 ∧
    (d.armRegs s n l).rd (AU_MCs_ACK_GOT s) = 0 ∧ (d.armRegs s n l).rd (AU_MCs_ACK_NEED s) = d.rd (AU_MCs_ACK_NEED s) ∧
    (d.armRegs s n l).rd (AU_MCs_CTL_DOM s) = n ∧ (d.armRegs s n l).rd (AU_MCs_CTL_ARM s) = 1 := by
  have cleared : ∀ (c : Dev) (hi lo : Nat), (c.setReg (AU_MCs_STAT s) 0).rd ⟨AU_MCs_STAT s, hi, lo⟩ = 0 := fun c hi lo => by
    simp [Dev.rd, wbits, Sys2Proof.bits]
  unfold Dev.armRegs Dev.wr64
  refine ⟨?_, ?_, ?_, ?_, ?_, ?_, ?_⟩
  · rw [Dev.rd_wr_same] <;> simp
  · rw [Dev.rd_wr_disjoint, cleared] <;> simp
  · rw [Dev.rd_wr_disjoint, cleared] <;> simp
  · rw [Dev.rd_wr_ne, Dev.rd_setReg_ne, Dev.rd_wr_same] <;> grind
  · rw [Dev.rd_wr_ne, Dev.rd_setReg_ne, Dev.rd_wr_disjoint, Dev.rd_setReg_ne, Dev.rd_setReg_ne, Dev.rd_wr_ne, Dev.rd_wr_ne] <;> grind
  · rw [Dev.rd_wr_ne, Dev.rd_setReg_ne, Dev.rd_wr_ne, Dev.rd_setReg_ne, Dev.rd_setReg_ne, Dev.rd_wr_disjoint, Dev.rd_wr_same, Nat.mod_eq_of_lt] <;> grind
  · rw [Dev.rd_wr_ne, Dev.rd_setReg_ne, Dev.rd_wr_ne, Dev.rd_setReg_ne, Dev.rd_setReg_ne, Dev.rd_wr_same] <;> grind

/-- Settles O6: the slot's registers are read back field by field, and the gap to the next landfall is worked out in both directions. -/
theorem modeChangeArmed : Obligations.ModeChangeArmed := by
  unfold Obligations.ModeChangeArmed
  refine ⟨?arm, ?ignored, ?kept, ?next, ?keptPassed, ?nextPassed, fun n l th d on before => Dev.checkPassed_iff on before, ?gap⟩
  case arm =>
    intro s n d notArmed notCommitted
    refine .of_onDev (Dev.mcArm s.val n.val) (fun _ => rfl) ?_
    rw [Dev.mcArm_of_free n.isLt notArmed notCommitted]
    obtain ⟨state, ppn, cause, got, need, dom, arm⟩ := d.rd_armRegs s n n.isLt (d.mcArmTarget n (d.mcTarget s))
    have target := d.rd64_armRegs s n (d.mcArmTarget n (d.mcTarget s))
    have only := d.onlyRegs_armRegs s n (d.mcArmTarget n (d.mcTarget s))
    generalize d.armRegs s n (d.mcArmTarget n (d.mcTarget s)) = x at *
    exact ⟨state, ppn, cause, got, need, dom, arm, target, tget_tset_same .., only.2, only.withAng_frame _⟩
  case ignored =>
    intro s n d busy
    refine .of_onDev (Dev.mcArm s.val n.val) (fun _ => rfl) ?_
    rw [Dev.mcArm_of_busy busy]
    refine ⟨?_, d.rd_state_wr_dom s n, rfl, fun a h => d.reg_wr_ne _ _ (by simpa using h)⟩
    rw [Dev.rd_wr_same _ _ _ (by simp) (by simp)]
    exact Nat.mod_eq_of_lt n.isLt
  case kept => intro n l d lf ahead; rw [Dev.mcArmTarget_eq, if_pos lf, ahead]; rfl
  case next => intro n l d noLf ahead; rw [Dev.mcArmTarget_eq, noLf]; simp [ahead]
  case keptPassed => intro n l d lf passed; rw [Dev.mcArmTarget_eq, if_pos lf, if_pos passed]
  case nextPassed => intro n l d noLf passed; rw [Dev.mcArmTarget_eq, noLf]; simp [passed]
  case gap =>
    intro n l d
    exact ⟨isLandfall_lfNext _ (d.lfPeriod_dvd n) l, lfGap_bounds _ (d.lfPeriod_pos n) (d.lfPeriod_lt n) l⟩

end Sys2Proof.Machine

/-! ## The next ACLK for the scheduler's cores (R267) -/
namespace Sys2Proof.Machine

/-- The reset state with the scheduler on and one thread READY on core 0. -/
def Dev.oneReady : Dev :=
  { Dev.reset.setReg TS_CTRL 1 with
    sched := { Sched.reset with threads := [(0, { Thread.reset with state := 1, aff := 1 })], ready := tset [] Sched.reset.ready 0 [0] } }

/-- In the next ACLK core 0 begins to prefetch the context of that thread: it gets a record of its own. -/
theorem Dev.cores_tick_oneReady : Dev.oneReady.tick.cores.length = 1 := by decide +kernel

/-- Refutes O2: its last clause lets no core change in the next ACLK, but in that ACLK the scheduler's slot moves, and a core that has a thread to prefetch (R267)
does change. -/
theorem not_measurementsReachTheTracker : ¬ Obligations.MeasurementsReachTheTracker := by
  unfold Obligations.MeasurementsReachTheTracker
  rintro ⟨-, -, -, -, -, -, -, next⟩
  obtain ⟨-, -, -, cores, -⟩ := On.elim_onDev Dev.tick (fun _ => rfl) (next Dev.oneReady)
  have length := Dev.cores_tick_oneReady
  rw [cores] at length
  exact absurd length (by decide)

end Sys2Proof.Machine

/-! ## Insertion and deletion of event-table entries (R35, R36, R40, R42, R43, R44, R59) -/
namespace Sys2Proof.Machine

/-! ### What the table's operations leave -/

/-- The block without its registers and its angle unit: what the event table's operations keep. -/
def Dev.beyondTable (d : Dev) : Dev := { d with regs := [], flags := [], ang := Angle.reset }

@[simp] theorem Dev.beyondTable_wr (d : Dev) (f : Fld) (v : Nat) : (d.wr f v).beyondTable = d.beyondTable := rfl
@[simp] theorem Dev.beyondTable_withAng (d : Dev) (a : Angle) : (d.withAng a).beyondTable = d.beyondTable := rfl
@[simp] theorem Dev.beyondTable_putEntry (l i : Nat) (e : EtEntry) (d : Dev) : (d.putEntry l i e).beyondTable = d.beyondTable := rfl

/-- Equal beside registers and angle unit. -/
theorem Dev.eq_of_beyondTable {d e : Dev} (h : e.beyondTable = d.beyondTable) : e = { d with regs := e.regs, flags := e.flags, ang := e.ang } :=
  congrArg (fun x : Dev => { x with regs := e.regs, flags := e.flags, ang := e.ang }) h

@[simp] theorem Dev.rd_putEntry (l i : Nat) (e : EtEntry) (d : Dev) (f : Fld) : (d.putEntry l i e).rd f = d.rd f := rfl

theorem Dev.entry_putEntry_same (l i : Nat) (e : EtEntry) (d : Dev) : (d.putEntry l i e).entry i = some e := Dev.entry_setEntry_same ..
theorem Dev.entry_putEntry_ne (l i : Nat) (e : EtEntry) (d : Dev) {j : Nat} (h : j ≠ i) : (d.putEntry l i e).entry j = d.entry j :=
  Dev.entry_setEntry_ne _ _ h
theorem Dev.list_putEntry_same (l i : Nat) (e : EtEntry) (d : Dev) :
    (d.putEntry l i e).list l = d.placeIn (d.listRev l) e.stamp i (d.list l) := Dev.list_setList_same ..

/-! ### Insertion -/

/-- The entry that an insertion of the words `w0`, `w1`, `a0`, `a1` puts into list `l`. -/
def insertedEntry (l : Nat) (w0 w1 a0 a1 : BitVec 32) : EtEntry := { w0 := w0, w1 := wput (wput w1 13 13 1) 29 24 l, w2 := a0, w3 := a1 }

/-- The stamp of an inserted entry is the one of its words: VALID and LIST lie above it. -/
theorem stamp_insertedEntry (l : Nat) (w0 w1 a0 a1 : BitVec 32) :
    (insertedEntry l w0 w1 a0 a1).stamp = BitVec.ofNat 40 (wbits w1 7 0 * 2 ^ 32 + w0.toNat) := by
  have rev : wbits (wput (wput w1 13 13 1) 29 24 l) 7 0 = wbits w1 7 0 := by
    rw [wbits_wput_disjoint, wbits_wput_disjoint] <;> simp
  simp only [EtEntry.stamp, insertedEntry, rev]

/-- The result codes fit their field. -/
theorem Dev.insertCheck_lt (d : Dev) (w1 a0 a1 : BitVec 32) (l : Nat) : d.insertCheck w1 a0 a1 l < 8 := by
  unfold Dev.insertCheck
  dsimp only
  split_ifs <;> omega

/-- One entry less is free, and list `l` holds one more. -/
def Dev.countInserted (l : Nat) (d : Dev) : Dev :=
  (d.wr ET_STAT_FREE (d.rd ET_STAT_FREE - 1)).wr (ET_LSTATl_COUNT l) (d.rd (ET_LSTATl_COUNT l) + 1)

@[simp] theorem Dev.beyondTable_countInserted (l : Nat) (d : Dev) : (d.countInserted l).beyondTable = d.beyondTable := by
  rw [Dev.countInserted, Dev.beyondTable_wr, Dev.beyondTable_wr]

theorem Dev.rd_free_countInserted (l : Nat) (d : Dev) : (d.countInserted l).rd ET_STAT_FREE = d.rd ET_STAT_FREE - 1 := by
  have lt := d.rd_lt ET_STAT_FREE
  rw [Dev.countInserted, Dev.rd_wr_ne _ _ _ _ (by grind), Dev.rd_wr_same _ _ _ (by decide) (by decide)]
  exact Nat.mod_eq_of_lt (lt_of_le_of_lt (Nat.sub_le _ _) lt)

theorem Dev.rd_count_countInserted (l : Nat) (d : Dev) (room : d.rd (ET_LSTATl_COUNT l) < 65535) :
    (d.countInserted l).rd (ET_LSTATl_COUNT l) = d.rd (ET_LSTATl_COUNT l) + 1 := by
  rw [Dev.countInserted, Dev.rd_wr_same _ _ _ (by simp) (by simp)]
  exact Nat.mod_eq_of_lt (by simp only; omega)

/-- An insertion that no check refuses puts its entry under the new index. -/
theorem Dev.insert_of_ok {w0 w1 a0 a1 : BitVec 32} {l : Nat} {d : Dev} (ok : d.insertCheck w1 a0 a1 l = 0) :
    ∃ late a, d.insert w0 w1 a0 a1 l =
        (b2n late, d.newIndex, ((d.putEntry l d.newIndex (insertedEntry l w0 w1 a0 a1)).countInserted l).withAng a) ∧
      a.entries = (d.putEntry l d.newIndex (insertedEntry l w0 w1 a0 a1)).ang.entries ∧
      a.lists = (d.putEntry l d.newIndex (insertedEntry l w0 w1 a0 a1)).ang.lists := by
  unfold Dev.insert
  rw [if_neg (not_not.mpr ok)]
  exact ⟨_, _, rfl, rfl, rfl⟩

/-- One that a check refuses changes nothing. -/
theorem Dev.insert_of_refused {w1 a0 a1 : BitVec 32} {l : Nat} {d : Dev} (w0 : BitVec 32) (bad : d.insertCheck w1 a0 a1 l ≠ 0) :
    d.insert w0 w1 a0 a1 l = (d.insertCheck w1 a0 a1 l, 0, d) := if_pos bad

/-- Port `p` answers a result and an index. -/
def Dev.portEnd (p res idx : Nat) (d : Dev) : Dev := ((d.wr (ET_INSp_STAT_BUSY p) 0).wr (ET_INSp_STAT_RES p) res).wr (ET_INSp_STAT_IDX p) idx

theorem Dev.insertComplete_of_busy {p : Nat} {d : Dev} (busy : d.on (ET_INSp_STAT_BUSY p) = true) {l c i : Nat} {e : Dev} (list : d.rd (ET_INSp_CTL_LIST p) = l)
    (answer : d.insert (d.reg (ET_INSp_W0 p)) (d.reg (ET_INSp_W1 p)) (d.reg (ET_INSp_W2 p)) (d.reg (ET_INSp_W3 p)) l = (c, i, e)) :
    d.insertComplete p = e.portEnd p c i := by
  unfold Dev.insertComplete
  rw [if_pos busy, list, answer, Dev.portEnd]

@[simp] theorem Dev.ang_portEnd (p res idx : Nat) (d : Dev) : (d.portEnd p res idx).ang = d.ang := by
  rw [Dev.portEnd, Dev.ang_wr, Dev.ang_wr, Dev.ang_wr]
@[simp] theorem Dev.beyondTable_portEnd (p res idx : Nat) (d : Dev) : (d.portEnd p res idx).beyondTable = d.beyondTable := by
  rw [Dev.portEnd, Dev.beyondTable_wr, Dev.beyondTable_wr, Dev.beyondTable_wr]

theorem Dev.onlyRegs_portEnd (p res idx : Nat) (d : Dev) : OnlyRegs [ET_INSp_STAT p] d (d.portEnd p res idx) :=
  (((OnlyRegs.refl _ d).wr 0 (by simp)).wr res (by simp)).wr idx (by simp)

/-- What the port's fields read. -/
theorem Dev.rd_portEnd (p res idx : Nat) (d : Dev) :
    (d.portEnd p res idx).rd (ET_INSp_STAT_BUSY p) = 0 ∧ (d.portEnd p res idx).rd (ET_INSp_STAT_RES p) = res % 8 ∧
    (d.portEnd p res idx).rd (ET_INSp_STAT_IDX p) = idx % 2 ^ 15 := by
  unfold Dev.portEnd
  refine ⟨?_, ?_, ?_⟩
  · rw [Dev.rd_wr_disjoint, Dev.rd_wr_disjoint, Dev.rd_wr_same] <;> simp
  · rw [Dev.rd_wr_disjoint, Dev.rd_wr_same] <;> simp
  · rw [Dev.rd_wr_same] <;> simp

/-! ### Deletion -/

/-- A deletion ends with its result. -/
theorem Dev.rd_deleteEnd (res : Nat) (d : Dev) :
    (d.deleteEnd res).rd ET_DEL_STAT_BUSY = 0 ∧ (d.deleteEnd res).rd ET_DEL_STAT_RES = res % 8 := by
  unfold Dev.deleteEnd
  refine ⟨?_, ?_⟩
  · rw [Dev.rd_wr_disjoint, Dev.rd_wr_same] <;> simp
  · rw [Dev.rd_wr_same] <;> simp

@[simp] theorem Dev.ang_deleteEnd (res : Nat) (d : Dev) : (d.deleteEnd res).ang = d.ang := rfl
@[simp] theorem Dev.mem_deleteEnd (res : Nat) (d : Dev) : (d.deleteEnd res).mem = d.mem := rfl
@[simp] theorem Dev.entry_deleteEnd (res : Nat) (d : Dev) (i : Nat) : (d.deleteEnd res).entry i = d.entry i := Dev.entry_eq (by rw [Dev.ang_deleteEnd]) i
@[simp] theorem Dev.list_deleteEnd (res : Nat) (d : Dev) (l : Nat) : (d.deleteEnd res).list l = d.list l := Dev.list_eq (by rw [Dev.ang_deleteEnd]) l

theorem Dev.onlyRegs_deleteEnd (res : Nat) (d : Dev) : OnlyRegs [ET_DEL_STAT] d (d.deleteEnd res) :=
  ((OnlyRegs.refl _ d).wr 0 (by simp)).wr res (by simp)

/-- A free entry is not dropped again. -/
theorem Dev.dropEntry_of_none {i : Nat} {d : Dev} (h : d.entry i = none) : d.dropEntry i = d := by rw [Dev.dropEntry, h]

/-- What is left of the angle unit when an entry leaves the table. -/
theorem Dev.ang_dropEntry {i : Nat} {x : EtEntry} {d : Dev} (h : d.entry i = some x) :
    (d.dropEntry i).ang = ((d.setEntry i none).setList x.list ((d.list x.list).filter (fun j => j ≠ i))).ang := by rw [Dev.dropEntry, h]; rfl

theorem Dev.entry_dropEntry_same (i : Nat) (d : Dev) : (d.dropEntry i).entry i = none := by
  cases h : d.entry i with
  | none => rw [Dev.dropEntry_of_none h, h]
  | some x => rw [Dev.entry_eq (congrArg Angle.entries (Dev.ang_dropEntry h)), Dev.entry_setList, Dev.entry_setEntry_same]

theorem Dev.entry_dropEntry_ne {i j : Nat} (d : Dev) (ne : j ≠ i) : (d.dropEntry i).entry j = d.entry j := by
  cases h : d.entry i with
  | none => rw [Dev.dropEntry_of_none h]
  | some x => rw [Dev.entry_eq (congrArg Angle.entries (Dev.ang_dropEntry h)), Dev.entry_setList, Dev.entry_setEntry_ne _ _ ne]

/-- The dropped entry stands in its list no longer. -/
theorem Dev.not_mem_list_dropEntry {i : Nat} {x : EtEntry} {d : Dev} (h : d.entry i = some x) : i ∉ (d.dropEntry i).list x.list := by
  rw [Dev.list_eq (congrArg Angle.lists (Dev.ang_dropEntry h)), Dev.list_setList_same]
  simp

@[simp] theorem Dev.mem_dropEntry (i : Nat) (d : Dev) : (d.dropEntry i).mem = d.mem := by unfold Dev.dropEntry; split <;> rfl
@[simp] theorem Dev.isles_dropEntry (i : Nat) (d : Dev) : (d.dropEntry i).isles = d.isles := by unfold Dev.dropEntry; split <;> rfl

/-- The end of a deletion in progress, while its entry waits for no reinsertion. -/
theorem Dev.deleteComplete_of_free {d : Dev} (busy : d.on ET_DEL_STAT_BUSY = true) (settled : d.ang.reins.contains (d.rd ET_DEL_IDX) = false)
    (free : d.entry (d.rd ET_DEL_IDX) = none) : d.deleteComplete = d.deleteEnd 1 := by
  unfold Dev.deleteComplete
  rw [if_neg (by simpa [busy] using settled), free]

theorem Dev.deleteComplete_of_used {d : Dev} {x : EtEntry} (busy : d.on ET_DEL_STAT_BUSY = true)
    (settled : d.ang.reins.contains (d.rd ET_DEL_IDX) = false) (used : d.entry (d.rd ET_DEL_IDX) = some x)
    (stays : (d.list x.list).head? ≠ some (d.rd ET_DEL_IDX) ∨ d.canIssue x.list = false ∨ d.issueSlot x.list = false) :
    d.deleteComplete = (d.dropEntry (d.rd ET_DEL_IDX)).deleteEnd 0 := by
  have noIssue : ¬ ((d.list x.list).head? = some (d.rd ET_DEL_IDX) ∧ d.canIssue x.list ∧ d.issueSlot x.list) := by
    rintro ⟨head, can, slot⟩
    rcases stays with other | cannot | noSlot
    · exact other head
    · simp [cannot] at can
    · simp [noSlot] at slot
  unfold Dev.deleteComplete
  rw [if_neg (by simpa [busy] using settled), used]
  exact if_neg noIssue

/-! ### The counters -/

/-- The LATE counts of the lists below `n` clear; every COUNT stays, and nothing but registers changes. -/
theorem Dev.clearLate_spec (d : Dev) (n : Nat) (l : Nat) (h : l < n) :
    (forUpTo n (fun l d => d.wr (ET_LSTATl_LATE l) 0) d).rd (ET_LSTATl_LATE l) = 0 := by
  induction n with
  | zero => omega
  | succ n ih =>
    rw [forUpTo_succ]
    rcases Nat.lt_succ_iff_lt_or_eq.mp h with lower | rfl
    · rw [Dev.rd_wr_ne _ _ _ _ (by grind), ih lower]
    · rw [Dev.rd_wr_same _ _ _ (by simp) (by simp)]; simp

theorem Dev.rd_count_clearLate (d : Dev) (n l : Nat) :
    (forUpTo n (fun l d => d.wr (ET_LSTATl_LATE l) 0) d).rd (ET_LSTATl_COUNT l) = d.rd (ET_LSTATl_COUNT l) :=
  forUpTo_keeps (fun d => d.rd (ET_LSTATl_COUNT l)) n d fun i _ d => Dev.rd_wr_disjoint _ _ _ _ (by simp) (by simp) (by simp)

theorem Dev.reg_late_clearLate (d : Dev) (n : Nat) : (forUpTo n (fun l d => d.wr (ET_LSTATl_LATE l) 0) d).reg ET_LATE = d.reg ET_LATE :=
  forUpTo_keeps (fun d => d.reg ET_LATE) n d fun i _ d => Dev.reg_wr_ne _ _ _ (by grind)

theorem Dev.beyondRegs_etClrLate (d : Dev) : d.etClrLate.beyondRegs = d.beyondRegs := by
  unfold Dev.etClrLate
  rw [forUpTo_keeps Dev.beyondRegs _ _ fun l _ d => d.beyondRegs_wr _ _, Dev.beyondRegs_setReg]

/-- Settles O3: the answer of a port and the end of a deletion are read field by field, and the table's functions have one equation per case. -/
theorem eventTableInsertion : Obligations.EventTableInsertion := by
  unfold Obligations.EventTableInsertion
  refine ⟨?go, ?overrun, ?inserted, ?refused, ?delete, ?deleted, ?notFound, ?clrDrop, ?clrLate⟩
  case go =>
    intro p l d idle
    refine .of_onDev (Dev.insertGo p.val l.val) (fun _ => rfl) ?_
    rw [Dev.insertGo, if_neg (by simp [idle])]
    refine ⟨?_, ?_, ((OnlyRegs.refl _ d).wr l.val (by simp)).wr 1 (by simp)⟩
    · rw [Dev.rd_wr_same] <;> simp
    · rw [Dev.rd_wr_ne _ _ _ _ (by grind), Dev.rd_wr_same _ _ _ (by simp) (by simp)]
      exact Nat.mod_eq_of_lt l.isLt
  case overrun =>
    intro p l d busy
    refine .of_onDev (Dev.insertGo p.val l.val) (fun _ => rfl) ?_
    rw [Dev.insertGo, if_pos busy]
    exact ⟨d.rd_setFlag_same _ rfl (by simp), Dev.rd_eq (d.reg_setFlag_ne _ (by grind)), (OnlyRegs.refl _ d).setFlag (by simp)⟩
  case inserted =>
    intro p l d busy list ok room
    refine .of_onDev (Dev.insertComplete p.val) (fun _ => rfl) ?_
    have small : l < 64 := list ▸ d.rd_lt (ET_INSp_CTL_LIST p)
    obtain ⟨late, a, answer, entries, lists⟩ := Dev.insert_of_ok (w0 := d.reg (ET_INSp_W0 p)) ok
    rw [Dev.insertComplete_of_busy busy list answer]
    set x := d.putEntry l d.newIndex (insertedEntry l (d.reg (ET_INSp_W0 p)) (d.reg (ET_INSp_W1 p)) (d.reg (ET_INSp_W2 p)) (d.reg (ET_INSp_W3 p))) with hx
    have others := ((x.countInserted l).withAng a).onlyRegs_portEnd p (b2n late) d.newIndex
    have beyond : (((x.countInserted l).withAng a).portEnd p (b2n late) d.newIndex).beyondTable = d.beyondTable := by
      rw [Dev.beyondTable_portEnd, Dev.beyondTable_withAng, Dev.beyondTable_countInserted, hx, Dev.beyondTable_putEntry]
    have ang : (((x.countInserted l).withAng a).portEnd p (b2n late) d.newIndex).ang = a := by rw [Dev.ang_portEnd, Dev.ang_withAng]
    obtain ⟨isIdle, res, idx⟩ := Dev.rd_portEnd p (b2n late) d.newIndex ((x.countInserted l).withAng a)
    refine ⟨?_, ?_, fun j ne => ?_, ?_, ?_, ?_, isIdle, idx, Dev.eq_of_beyondTable beyond⟩
    · rw [Dev.entry_eq (d := x) ((congrArg Angle.entries ang).trans entries), hx, Dev.entry_putEntry_same, insertedEntry]
    · rw [res]; cases late <;> simp [b2n]
    · rw [Dev.entry_eq (d := x) ((congrArg Angle.entries ang).trans entries), hx, Dev.entry_putEntry_ne _ _ _ _ ne]
    · rw [Dev.list_eq (d := x) ((congrArg Angle.lists ang).trans lists), hx, Dev.list_putEntry_same, stamp_insertedEntry]
    · rw [Dev.rd_eq (others.2 ET_STAT (by grind)), Dev.rd_withAng, Dev.rd_free_countInserted, hx, Dev.rd_putEntry]
    · rw [Dev.rd_eq (others.2 (ET_LSTATl l) (by grind)), Dev.rd_withAng, Dev.rd_count_countInserted _ _ (by rwa [hx, Dev.rd_putEntry]), hx,
        Dev.rd_putEntry]
  case refused =>
    intro p r d busy code bad
    refine .of_onDev (Dev.insertComplete p.val) (fun _ => rfl) ?_
    rw [Dev.insertComplete_of_busy busy rfl (Dev.insert_of_refused _ (code ▸ bad)), code]
    obtain ⟨isIdle, res, -⟩ := Dev.rd_portEnd p r 0 d
    exact ⟨res.trans (Nat.mod_eq_of_lt (code ▸ d.insertCheck_lt ..)), isIdle, d.onlyRegs_portEnd p r 0⟩
  case delete =>
    intro i d idle
    refine .of_onDev (Dev.deleteGo i.val) (fun _ => rfl) ?_
    rw [Dev.deleteGo, if_neg (by simp [idle])]
    refine ⟨?_, ?_, ((OnlyRegs.refl _ d).wr i.val (by simp)).wr 1 (by simp)⟩
    · rw [Dev.rd_wr_ne _ _ _ _ (by decide), Dev.rd_wr_same _ _ _ (by decide) (by decide)]
      exact Nat.mod_eq_of_lt i.isLt
    · rw [Dev.rd_wr_same] <;> simp
  case deleted =>
    rintro i x d busy rfl settled used stays
    refine .of_onDev Dev.deleteComplete (fun _ => rfl) ?_
    rw [Dev.deleteComplete_of_used busy settled used stays]
    obtain ⟨isIdle, res⟩ := (d.dropEntry (d.rd ET_DEL_IDX)).rd_deleteEnd 0
    refine ⟨?_, fun j h => ?_, ?_, isIdle, res, ?_⟩
    · rw [Dev.entry_deleteEnd, Dev.entry_dropEntry_same]
    · rw [Dev.entry_deleteEnd, Dev.entry_dropEntry_ne _ h]
    · rw [Dev.list_deleteEnd]; exact Dev.not_mem_list_dropEntry used
    · rw [Dev.mem_deleteEnd, Dev.mem_dropEntry]
  case notFound =>
    rintro i d busy rfl settled free
    refine .of_onDev Dev.deleteComplete (fun _ => rfl) ?_
    rw [Dev.deleteComplete_of_free busy settled free]
    obtain ⟨isIdle, res⟩ := d.rd_deleteEnd 1
    exact ⟨isIdle, res, d.onlyRegs_deleteEnd 1⟩
  case clrDrop =>
    intro d
    refine .of_onDev (fun d => d.wr ET_STAT_DROP 0) (fun _ => rfl) ⟨?_, ?_, (OnlyRegs.refl _ d).wr 0 (by simp)⟩
    · rw [Dev.rd_wr_same] <;> simp
    · rw [Dev.rd_wr_disjoint] <;> simp
  case clrLate =>
    intro d
    refine .of_onDev Dev.etClrLate (fun _ => rfl) ⟨?_, fun l h => ⟨Dev.clearLate_spec _ 64 l h, ?_⟩, Dev.eq_of_beyondRegs d.beyondRegs_etClrLate⟩
    · rw [Dev.etClrLate, Dev.reg_late_clearLate, Dev.reg_setReg_same]
    · rw [Dev.etClrLate, Dev.rd_count_clearLate, Dev.rd_setReg_ne _ _ _ (by grind)]

end Sys2Proof.Machine

/-! ## What events, faults and the code words of a memory leave

Posting an event, reporting a fault or meeting an error of a code word changes the registers of the integrity unit, of the host's links and of the cores'
interrupts, and beside them only what those units hold. -/
namespace Sys2Proof.Machine

/-- An address outside the registers of the isles, the angle unit, the event table and the bindings of tasks. -/
abbrev OffUnits (a : Nat) : Prop := a < 0x40008000 ∨ (0x40020000 ≤ a ∧ a < 0x40021000) ∨ 0x40022000 ≤ a

/-- The registers of the isles, the angle unit, the event table and the bindings. -/
def Dev.unitRegs (d : Dev) (a : Nat) : BitVec 32 := if OffUnits a then 0 else d.reg a

/-- What no event and no error of a code word changes: the block without registers, events and the integrity unit, the registers of the units, and which bindings
are enabled. -/
def Dev.steady (d : Dev) : Dev × (Nat → BitVec 32) × List Nat :=
  ({ d with regs := [], flags := [], ev := Events.reset, conEvents := [], integ := Integ.reset }, d.unitRegs, d.enabledBindings)

theorem Dev.unitRegs_setReg (d : Dev) {a : Nat} (v : BitVec 32) (off : OffUnits a) : (d.setReg a v).unitRegs = d.unitRegs := by
  funext b
  unfold Dev.unitRegs
  split
  · rfl
  · rename_i on
    exact d.reg_setReg_ne v fun same => on (same ▸ off)

theorem Dev.reg_of_unitRegs {d e : Dev} (h : e.unitRegs = d.unitRegs) {a : Nat} (on : ¬ OffUnits a) : e.reg a = d.reg a := by
  have at_ := congrFun h a
  rwa [Dev.unitRegs, Dev.unitRegs, if_neg on, if_neg on] at at_

/-! ### Tables read entry by entry -/

section
variable {α β : Type} {f : Nat × α → Option β} {k : Nat} (unread : ∀ v, f (k, v) = none)
include unread

theorem filterMap_tput_of_unread (t : Tbl α) (v : α) : (tput t k v).filterMap f = t.filterMap f := by
  induction t with
  | nil => simp [tput, unread]
  | cons e t ih =>
    obtain ⟨a, w⟩ := e
    unfold tput
    split
    · simp [unread]
    · split
      · next same => subst same; simp [unread]
      · simp [List.filterMap_cons, ih]

theorem filterMap_tdel_of_unread (t : Tbl α) : (tdel t k).filterMap f = t.filterMap f := by
  induction t with
  | nil => rfl
  | cons e t ih =>
    obtain ⟨a, w⟩ := e
    unfold tdel
    split
    · next same => subst same; simp [unread, ih]
    · simp [List.filterMap_cons, ih]

theorem filterMap_tset_of_unread [DecidableEq α] (dflt : α) (t : Tbl α) (v : α) : (tset dflt t k v).filterMap f = t.filterMap f := by
  unfold tset
  split
  · exact filterMap_tdel_of_unread unread t
  · exact filterMap_tput_of_unread unread t v

end

/-- A write outside the bindings' registers enables and disables none. -/
theorem Dev.enabledBindings_setReg (d : Dev) {a : Nat} (v : BitVec 32) (off : OffUnits a) : (d.setReg a v).enabledBindings = d.enabledBindings := by
  refine filterMap_tset_of_unread (fun w => if_neg ?_) _ d.regs v
  rintro ⟨low, high, -⟩
  simp only [AHD_TBb_ID] at low high
  omega

/-! ### What an equal view says -/

theorem Dev.reg_of_steady {d e : Dev} (h : e.steady = d.steady) {a : Nat} (on : ¬ OffUnits a) : e.reg a = d.reg a :=
  Dev.reg_of_unitRegs (congrArg (fun p => p.2.1) h) on

theorem Dev.ang_of_steady {d e : Dev} (h : e.steady = d.steady) : e.ang = d.ang := congrArg (fun p => p.1.ang) h
theorem Dev.mem_of_steady {d e : Dev} (h : e.steady = d.steady) : e.mem = d.mem := congrArg (fun p => p.1.mem) h
theorem Dev.now_of_steady {d e : Dev} (h : e.steady = d.steady) : e.now = d.now := congrArg (fun p => p.1.now) h
theorem Dev.isles_of_steady {d e : Dev} (h : e.steady = d.steady) : e.isles = d.isles := congrArg (fun p => p.1.isles) h

/-! ### Register writes -/

theorem Dev.steady_setReg (d : Dev) {a : Nat} (v : BitVec 32) (off : OffUnits a) : (d.setReg a v).steady = d.steady :=
  Prod.ext rfl (Prod.ext (d.unitRegs_setReg v off) (d.enabledBindings_setReg v off))

theorem Dev.steady_wr (d : Dev) (f : Fld) (v : Nat) (off : OffUnits f.addr) : (d.wr f v).steady = d.steady := d.steady_setReg _ off

theorem Dev.steady_setFlag (d : Dev) (f : Fld) (off : OffUnits f.addr) : (d.setFlag f).steady = d.steady := d.steady_wr f 1 off

theorem Dev.steady_setFlagBit (d : Dev) (f : Fld) (i : Nat) (off : OffUnits f.addr) : (d.setFlagBit f i).steady = d.steady := d.steady_wr f _ off

theorem Dev.steady_inc (d : Dev) (f : Fld) (off : OffUnits f.addr) : (d.inc f).steady = d.steady := by
  unfold Dev.inc
  split
  · exact d.steady_wr f _ off
  · rfl

/-! ### The integrity unit's tables -/

@[simp] theorem Dev.steady_setErr (d : Dev) (a : Nat) (m : BitVec 72) : (d.setErr a m).steady = d.steady := rfl
@[simp] theorem Dev.steady_setBucket (d : Dev) (r : Nat) (b : Bucket) : (d.setBucket r b).steady = d.steady := rfl

/-- The block with its integrity unit replaced. -/
def Dev.withInteg (d : Dev) (i : Integ) : Dev := { d with integ := i }
@[simp] theorem Dev.steady_withInteg (d : Dev) (i : Integ) : (d.withInteg i).steady = d.steady := rfl

theorem Dev.steady_tmrFixed (d : Dev) : d.tmrFixed.steady = d.steady := by
  rw [Dev.tmrFixed, Dev.steady_inc _ _ (by decide), Dev.steady_setFlag _ _ (by decide)]

theorem Dev.steady_vote (d : Dev) {a : Nat} (off : OffUnits a) : (d.vote a).steady = d.steady := by
  unfold Dev.vote
  split
  · rfl
  · next t _ =>
    rw [Dev.steady_tmrFixed, Dev.steady_setReg _ _ off]
    exact d.steady_withInteg { d.integ with tmr := tset none d.integ.tmr a none }

theorem Dev.steady_votes (d : Dev) {as : List Nat} (off : ∀ a ∈ as, OffUnits a) : (d.votes as).steady = d.steady := by
  unfold Dev.votes
  split
  · rfl
  · exact forList_keeps Dev.steady as d fun a mem d => d.steady_vote (off a mem)

/-! ### Events and faults -/

/-- The block with its events replaced, those for the console and the others. -/
def Dev.withEvents (d : Dev) (con : List Evt) (ev : Events) : Dev := { d with conEvents := con, ev := ev }
@[simp] theorem Dev.steady_withEvents (d : Dev) (con : List Evt) (ev : Events) : (d.withEvents con ev).steady = d.steady := rfl

theorem Dev.steady_raiseIrq (d : Dev) (i : Nat) : (d.raiseIrq i).steady = d.steady :=
  forUpTo_keeps Dev.steady 4 d fun c lt d => d.steady_setFlagBit _ i (by grind)

/-- An event takes its number and then stands in the queue or is counted as lost. -/
theorem Dev.genEvent_eq (d : Dev) (code : Nat) (pay : List (BitVec 32)) : ∃ n con ev,
    d.genEvent code pay = ((d.setReg HL_ESEQ n).withEvents con ev).wr HL_EVQ_LEN (d.ev.queue.length + 1) ∨
    d.genEvent code pay = ((d.setReg HL_ESEQ n).withEvents con ev).setFlag HL_STAT_EVLOST := by
  unfold Dev.genEvent
  dsimp only
  split_ifs
  · exact ⟨_, _, _, .inl rfl⟩
  · exact ⟨_, _, _, .inr rfl⟩
  · exact ⟨_, _, _, .inl rfl⟩
  · exact ⟨_, _, _, .inr rfl⟩

theorem Dev.steady_genEvent (d : Dev) (code : Nat) (pay : List (BitVec 32)) : (d.genEvent code pay).steady = d.steady := by
  obtain ⟨n, con, ev, queued | lost⟩ := d.genEvent_eq code pay
  · rw [queued, Dev.steady_wr _ _ _ (by decide), Dev.steady_withEvents, Dev.steady_setReg _ _ (by decide)]
  · rw [lost, Dev.steady_setFlag _ _ (by decide), Dev.steady_withEvents, Dev.steady_setReg _ _ (by decide)]

theorem Dev.steady_post (d : Dev) (code : Nat) (pay : List (BitVec 32)) : (d.post code pay).steady = d.steady := by
  unfold Dev.post
  split
  · exact d.steady_genEvent code pay
  · split
    · exact d.steady_genEvent code pay
    · rfl

theorem Dev.steady_postFault (d : Dev) (cls src unit count : Nat) (frac : BitVec 32) : (d.postFault cls src unit count frac).steady = d.steady :=
  d.steady_post _ _

theorem Dev.steady_f0 (d : Dev) (src unit : Nat) : (d.f0 src unit).steady = d.steady := by
  unfold Dev.f0
  dsimp only
  split
  · exact d.steady_withEvents d.conEvents _
  · exact (Dev.steady_postFault _ _ _ _ _ _).trans (d.steady_withEvents d.conEvents _)

/-! ### Code words -/

theorem offUnits_bucket (k : Nat) : OffUnits (MI_LBk k) := by grind

theorem Dev.steady_bucketLeak (d : Dev) (r : Nat) : (d.bucketLeak r).steady = d.steady := by
  have voted : (d.votes [MI_LBk (regionClass r)]).steady = d.steady := d.steady_votes (by simpa using offUnits_bucket _)
  unfold Dev.bucketLeak
  dsimp only
  split
  · exact voted
  · exact (Dev.steady_setBucket _ _ _).trans voted

theorem Dev.steady_bucketAdd (d : Dev) (r a src : Nat) : (d.bucketAdd r a src).steady = d.steady := by
  have leaked := d.steady_bucketLeak r
  unfold Dev.bucketAdd
  dsimp only
  split
  · rw [Dev.steady_post, Dev.steady_raiseIrq, Dev.steady_setFlag _ _ (by decide), Dev.steady_setBucket, leaked]
  · rw [Dev.steady_setBucket, leaked]

theorem Dev.steady_logCe (d : Dev) (key a src : Nat) : (d.logCe key a src).steady = d.steady := by
  unfold Dev.logCe
  split
  · rfl
  · rw [Dev.steady_bucketAdd, Dev.steady_wr _ _ _ (by decide), Dev.steady_wr _ _ _ (by decide), Dev.steady_wr _ _ _ (by decide),
      Dev.steady_wr _ _ _ (by decide)]

theorem Dev.steady_logUe (d : Dev) (a src : Nat) : (d.logUe a src).steady = d.steady := by
  unfold Dev.logUe
  split
  · rfl
  · dsimp only
    rw [Dev.steady_post]
    split
    · rw [Dev.steady_inc _ _ (by decide), Dev.steady_raiseIrq, Dev.steady_setFlag _ _ (by decide)]
    · rw [Dev.steady_setFlag _ _ (by decide), Dev.steady_wr _ _ _ (by decide), Dev.steady_wr _ _ _ (by decide), Dev.steady_wr _ _ _ (by decide),
        Dev.steady_wr _ _ _ (by decide), Dev.steady_raiseIrq, Dev.steady_setFlag _ _ (by decide)]

theorem Dev.steady_flipAt (d : Dev) (k a r : Nat) : (d.flipAt k a r).steady = d.steady :=
  (Dev.steady_withInteg _ _).trans (d.steady_setErr a (d.flipMask k))

theorem Dev.steady_codeWrite (d : Dev) (a : Nat) : (d.codeWrite a).steady = d.steady := by
  unfold Dev.codeWrite
  split
  · rfl
  · dsimp only
    split
    · rw [Dev.steady_wr _ _ _ (by grind), Dev.steady_flipAt, Dev.steady_setErr]
    · split
      · split
        · rw [Dev.steady_flipAt, Dev.steady_setErr, Dev.steady_setErr]
        · rw [Dev.steady_setErr]
      · rw [Dev.steady_setErr]

theorem Dev.steady_eccReadAs (d : Dev) (key a src : Nat) : (d.eccReadAs key a src).2.steady = d.steady := by
  unfold Dev.eccReadAs
  split
  · rfl
  · rw [Dev.steady_codeWrite, Dev.steady_logCe]
  · rw [Dev.steady_logUe]

theorem Dev.steady_eccRead (d : Dev) (a src : Nat) : (d.eccRead a src).2.steady = d.steady := d.steady_eccReadAs a a src

theorem Dev.steady_readEntry (d : Dev) (i : Nat) : (d.readEntry i).2.steady = d.steady := by
  unfold Dev.readEntry
  split
  · rfl
  · exact (Dev.steady_eccRead _ _ _).trans (d.steady_eccRead _ _)

end Sys2Proof.Machine

/-! ## Issue and periodic reinsertion (R37, R38, R40, R45) -/
namespace Sys2Proof.Machine

/-! ### What an issue leaves as it is -/

/-- The registers of the cadences. -/
def Dev.cadRegs (d : Dev) (a : Nat) : BitVec 32 := if 0x40019000 ≤ a ∧ a < 0x40020000 then d.reg a else 0

/-- What of the block the report of a late entry and the alignment of the modulator clocks keep. -/
def Dev.underIssue (d : Dev) : Angle × List Host.Cell × Tbl Isle × (Nat → BitVec 32) := (d.ang, d.mem, d.isles, d.cadRegs)

theorem Dev.reg_of_underIssue {d e : Dev} (h : e.underIssue = d.underIssue) {a : Nat} (cad : 0x40019000 ≤ a ∧ a < 0x40020000) : e.reg a = d.reg a := by
  have at_ := congrFun (congrArg (fun v => v.2.2.2) h) a
  simpa only [Dev.underIssue, Dev.cadRegs, if_pos cad] using at_

theorem Dev.underIssue_wr (d : Dev) (f : Fld) (v : Nat) (off : f.addr < 0x40019000) : (d.wr f v).underIssue = d.underIssue := by
  have regs : (d.wr f v).cadRegs = d.cadRegs := by
    funext a
    unfold Dev.cadRegs
    split
    · exact d.reg_wr_ne f v (by omega)
    · rfl
  rw [Dev.underIssue, regs, Dev.ang_wr, Dev.mem_wr, Dev.isles_wr, Dev.underIssue]

theorem Dev.underIssue_inc (d : Dev) (f : Fld) (off : f.addr < 0x40019000) : (d.inc f).underIssue = d.underIssue := by
  unfold Dev.inc
  split
  · exact d.underIssue_wr f _ off
  · rfl

theorem Dev.underIssue_of_steady {d e : Dev} (h : e.steady = d.steady) : e.underIssue = d.underIssue := by
  have regs : e.cadRegs = d.cadRegs := by
    funext a
    unfold Dev.cadRegs
    split
    · exact Dev.reg_of_steady h (by omega)
    · rfl
  rw [Dev.underIssue, regs, Dev.ang_of_steady h, Dev.mem_of_steady h, Dev.isles_of_steady h, Dev.underIssue]

theorem Dev.underIssue_alignClocks (d : Dev) (g tf : Nat) : (d.alignClocks g tf).underIssue = d.underIssue := by
  unfold Dev.alignClocks
  refine forUpTo_keeps Dev.underIssue 6 d fun m _ d => ?_
  dsimp only
  split
  · rfl
  · rfl

/-- A late entry of list `l` is counted and reported. -/
def Dev.lateReport (late : Bool) (l : Nat) (d : Dev) : Dev := if late then ((d.inc (ET_LSTATl_LATE l)).inc ET_LATE_LATE).f0 0x02 l else d

theorem Dev.underIssue_lateReport (d : Dev) (late : Bool) {l : Nat} (h : l < 64) : (d.lateReport late l).underIssue = d.underIssue := by
  unfold Dev.lateReport
  split
  · rw [Dev.underIssue_of_steady (Dev.steady_f0 _ _ _), Dev.underIssue_inc _ _ (by decide), Dev.underIssue_inc _ _ (by simp only [ET_LSTATl]; omega)]
  · rfl

/-! ### The issue of the head entry -/

/-- The action of entry `x` of list `l`. -/
def Dev.actionOf (d : Dev) (l : Nat) (x : EtEntry) (late : Bool) : Action :=
  { act := x.act, arg0 := x.w2, arg1 := x.w3, list := l, stamp := x.stamp, late := late, tf := d.now + 4 }

/-- The angle unit with an action of list `l` on its way. -/
def Dev.angIssued (d : Dev) (l : Nat) (a : Action) : Angle := { d.ang with acts := d.ang.acts ++ [a], issued := d.ang.issued ++ [l] }

/-- The block in which list `l`'s action is on its way. -/
def Dev.sentAction (d : Dev) (l : Nat) (a : Action) : Dev :=
  let d := (d.withAng (d.angIssued l a)).lateReport a.late l
  if a.act = 2 then d.alignClocks (a.arg0.toNat % 64) a.tf else d

theorem Dev.underIssue_sentAction (d : Dev) {l : Nat} (h : l < 64) (a : Action) :
    (d.sentAction l a).underIssue = (d.withAng (d.angIssued l a)).underIssue := by
  unfold Dev.sentAction
  dsimp only
  split
  · rw [Dev.underIssue_alignClocks, Dev.underIssue_lateReport _ _ h]
  · rw [Dev.underIssue_lateReport _ _ h]

/-- A list that can issue has an entry at its head. -/
theorem Dev.entry_of_canIssue {l i : Nat} {d : Dev} (can : d.canIssue l = true) (head : (d.list l).head? = some i) : ∃ x, d.entry i = some x := by
  cases h : d.entry i with
  | some x => exact ⟨x, rfl⟩
  | none => simp [Dev.canIssue, head, h] at can

/-- The cadence step of an entry that is issued (R45). -/
def Dev.cadStepOf (d : Dev) (x : EtEntry) : Nat × Nat :=
  cadStep (d.rd (ET_CADc_Q_Q x.cad)) (d.rd (ET_CADc_N_N x.cad)) (d.rd (ET_CADc_D_D x.cad)) (d.rd (ET_CADc_ACC_ACC x.cad))

/-- The step depends on the cadence registers alone. -/
theorem Dev.cadStepOf_eq {d e : Dev} {x : EtEntry} (h : ∀ a, 0x40019000 ≤ a ∧ a < 0x40020000 → e.reg a = d.reg a) : e.cadStepOf x = d.cadStepOf x := by
  have cad : x.cad < 256 := Nat.mod_lt _ (by decide)
  have q := Dev.rd_eq (f := ET_CADc_Q_Q x.cad) (h (ET_CADc_Q x.cad) (by simp only [ET_CADc_Q]; omega))
  have n := Dev.rd_eq (f := ET_CADc_N_N x.cad) (h (ET_CADc_N x.cad) (by simp only [ET_CADc_N]; omega))
  have m := Dev.rd_eq (f := ET_CADc_D_D x.cad) (h (ET_CADc_D x.cad) (by simp only [ET_CADc_D]; omega))
  have acc := Dev.rd_eq (f := ET_CADc_ACC_ACC x.cad) (h (ET_CADc_ACC x.cad) (by simp only [ET_CADc_ACC]; omega))
  rw [Dev.cadStepOf, q, n, m, acc, Dev.cadStepOf]

/-- A periodic entry begins its reinsertion. -/
def Dev.beginReinsertion (l i : Nat) (x : EtEntry) (rev : Bool) (d : Dev) : Dev :=
  let st := d.cadStepOf x
  let e := d.wr (ET_CADc_ACC_ACC x.cad) st.1
  let e := (e.setEntry i (some (x.advance rev st.2))).setList l ((e.list l).drop 1)
  e.withAng { e.ang with reins := e.ang.reins ++ [i] }

section
variable {l i : Nat} {x : EtEntry} {d : Dev} (can : d.canIssue l = true) (slot : d.issueSlot l = true) (head : (d.list l).head? = some i)
  (entry : d.entry i = some x)
include can slot head entry

/-- A head entry whose code words are good issues its action and then leaves the table or begins its reinsertion. -/
theorem Dev.entryIssue_of_good (good : (d.readEntry i).1 = false) : ∃ late, d.entryIssue l =
    let e := (d.readEntry i).2.sentAction l ((d.readEntry i).2.actionOf l x late)
    if x.per then e.beginReinsertion l i x ((d.readEntry i).2.listRev l) else e.dropEntry i := by
  unfold Dev.entryIssue
  rw [if_neg (by simp [can, slot]), head]
  simp only [entry]
  rw [if_neg (by simp [good])]
  exact ⟨_, rfl⟩

/-- One that an uncorrectable word has damaged is removed. -/
theorem Dev.entryIssue_of_damaged (bad : (d.readEntry i).1 = true) : d.entryIssue l = (d.readEntry i).2.damagedEntry i := by
  unfold Dev.entryIssue
  rw [if_neg (by simp [can, slot]), head]
  simp only [entry]
  exact if_pos bad

end

/-- What the block with the action on its way holds, after a read of the entry that has changed nothing steady. -/
theorem Dev.sentAction_spec {d e : Dev} (h : e.steady = d.steady) {l : Nat} (lt : l < 64) (x : EtEntry) (late : Bool) :
    (e.sentAction l (e.actionOf l x late)).ang = d.angIssued l (d.actionOf l x late) ∧ (e.sentAction l (e.actionOf l x late)).mem = d.mem ∧
    (e.sentAction l (e.actionOf l x late)).isles = d.isles ∧
    ∀ a, 0x40019000 ≤ a ∧ a < 0x40020000 → (e.sentAction l (e.actionOf l x late)).reg a = d.reg a := by
  have view := e.underIssue_sentAction lt (e.actionOf l x late)
  have action : e.actionOf l x late = d.actionOf l x late := by rw [Dev.actionOf, Dev.now_of_steady h, Dev.actionOf]
  have angle : e.angIssued l (e.actionOf l x late) = d.angIssued l (d.actionOf l x late) := by
    rw [action, Dev.angIssued, Dev.ang_of_steady h, Dev.angIssued]
  refine ⟨?_, ?_, ?_, fun a cad => ?_⟩
  · exact (congrArg Prod.fst view).trans angle
  · rw [← Dev.mem_of_steady h]
    exact congrArg (fun v => v.2.1) view
  · rw [← Dev.isles_of_steady h]
    exact congrArg (fun v => v.2.2.1) view
  · rw [Dev.reg_of_underIssue view cad, Dev.reg_withAng]
    exact Dev.reg_of_steady h (by omega)

/-- The entry and the lists of the angle unit in which an action is on its way are the ones before. -/
theorem Dev.entry_of_angIssued {d s : Dev} {l : Nat} {a : Action} (h : s.ang = d.angIssued l a) (i : Nat) : s.entry i = d.entry i :=
  Dev.entry_eq (by rw [h]; rfl) i
theorem Dev.list_of_angIssued {d s : Dev} {l : Nat} {a : Action} (h : s.ang = d.angIssued l a) (k : Nat) : s.list k = d.list k :=
  Dev.list_eq (by rw [h]; rfl) k

/-! ### The removal of a damaged entry -/

@[simp] theorem Dev.ang_inc (d : Dev) (f : Fld) : (d.inc f).ang = d.ang := by rw [Dev.inc_frame]
@[simp] theorem Dev.mem_inc (d : Dev) (f : Fld) : (d.inc f).mem = d.mem := by rw [Dev.inc_frame]
@[simp] theorem Dev.isles_inc (d : Dev) (f : Fld) : (d.inc f).isles = d.isles := by rw [Dev.inc_frame]

theorem Dev.ang_damagedEntry (i : Nat) (d : Dev) : (d.damagedEntry i).ang = (d.dropEntry i).ang := Dev.ang_inc _ _
theorem Dev.mem_damagedEntry (i : Nat) (d : Dev) : (d.damagedEntry i).mem = d.mem := (Dev.mem_inc _ _).trans (d.mem_dropEntry i)
theorem Dev.isles_damagedEntry (i : Nat) (d : Dev) : (d.damagedEntry i).isles = d.isles := (Dev.isles_inc _ _).trans (d.isles_dropEntry i)

theorem Dev.acts_dropEntry (i : Nat) (d : Dev) : (d.dropEntry i).ang.acts = d.ang.acts := by
  cases h : d.entry i with
  | none => rw [Dev.dropEntry_of_none h]
  | some x => rw [Dev.ang_dropEntry h]; rfl

theorem Dev.issued_dropEntry (i : Nat) (d : Dev) : (d.dropEntry i).ang.issued = d.ang.issued := by
  cases h : d.entry i with
  | none => rw [Dev.dropEntry_of_none h]
  | some x => rw [Dev.ang_dropEntry h]; rfl

theorem Dev.reins_dropEntry (i : Nat) (d : Dev) : (d.dropEntry i).ang.reins = d.ang.reins := by
  cases h : d.entry i with
  | none => rw [Dev.dropEntry_of_none h]
  | some x => rw [Dev.ang_dropEntry h]; rfl

/-! ### The reinsertion -/

/-- What the beginning of a reinsertion does to the table. -/
theorem Dev.beginReinsertion_spec (l i : Nat) (x : EtEntry) (rev : Bool) (d : Dev) :
    (d.beginReinsertion l i x rev).ang.acts = d.ang.acts ∧ (d.beginReinsertion l i x rev).entry i = some (x.advance rev (d.cadStepOf x).2) ∧
    (∀ j, j ≠ i → (d.beginReinsertion l i x rev).entry j = d.entry j) ∧ (d.beginReinsertion l i x rev).ang.reins = d.ang.reins ++ [i] ∧
    (d.beginReinsertion l i x rev).rd (ET_CADc_ACC_ACC x.cad) = (d.cadStepOf x).1 % 65536 ∧ (d.beginReinsertion l i x rev).list l = (d.list l).drop 1 ∧
    (d.beginReinsertion l i x rev).isles = d.isles ∧ (d.beginReinsertion l i x rev).mem = d.mem := by
  have entries : (d.beginReinsertion l i x rev).ang.entries = (d.setEntry i (some (x.advance rev (d.cadStepOf x).2))).ang.entries := rfl
  have lists : (d.beginReinsertion l i x rev).ang.lists = (d.setList l ((d.list l).drop 1)).ang.lists := rfl
  refine ⟨rfl, ?_, fun j ne => ?_, rfl, ?_, ?_, rfl, rfl⟩
  · rw [Dev.entry_eq entries, Dev.entry_setEntry_same]
  · rw [Dev.entry_eq entries, Dev.entry_setEntry_ne _ _ ne]
  · exact d.rd_wr_same _ _ (by simp) (by simp)
  · rw [Dev.list_eq lists, Dev.list_setList_same]

/-- The block in which entry `i` waits for its reinsertion no longer. -/
def Dev.reinserted (i : Nat) (d : Dev) : Dev := d.withAng { d.ang with reins := d.ang.reins.filter (fun j => j ≠ i) }

theorem Dev.not_mem_reins_reinserted (i : Nat) (d : Dev) : i ∉ (d.reinserted i).ang.reins := by simp [Dev.reinserted]

theorem Dev.reinsertionComplete_of_waiting {i : Nat} {x : EtEntry} {d : Dev} (waits : d.ang.reins.contains i = true) (entry : d.entry i = some x) :
    d.reinsertionComplete i =
      if d.on ET_DEL_STAT_BUSY ∧ d.rd ET_DEL_IDX = i then (((d.reinserted i).putEntry x.list i x).dropEntry i).deleteEnd 0
      else (d.reinserted i).putEntry x.list i x := by
  unfold Dev.reinsertionComplete
  rw [if_pos waits]
  have same : (d.reinserted i).entry i = some x := entry
  simp only [Dev.reinserted, Dev.withAng] at same ⊢
  rw [same]
  rfl

/-- Settles O4: a read of the entry leaves everything steady, so its action leaves with what the entry held before. -/
theorem eventTableIssue : Obligations.EventTableIssue := by
  unfold Obligations.EventTableIssue
  refine ⟨?oneShot, ?periodic, ?damaged, ?reinserted, ?deleted⟩
  case oneShot =>
    intro l i x d can slot head entry list good once
    refine .of_onDev (Dev.entryIssue l.val) (fun _ => rfl) ?_
    obtain ⟨late, issue⟩ := Dev.entryIssue_of_good can slot head entry good
    obtain ⟨ang, mem, isles, -⟩ := Dev.sentAction_spec (d.steady_readEntry i) l.isLt x late
    rw [issue, once]
    generalize (d.readEntry i).2.sentAction l.val ((d.readEntry i).2.actionOf l.val x late) = s at *
    have entries := Dev.entry_of_angIssued ang
    refine ⟨⟨late, ?_⟩, s.entry_dropEntry_same i, fun j ne => ?_, ?_, ?_, ?_, ?_⟩
    · exact (s.acts_dropEntry i).trans (congrArg Angle.acts ang)
    · exact (s.entry_dropEntry_ne ne).trans (entries j)
    · exact list ▸ Dev.not_mem_list_dropEntry ((entries i).trans entry)
    · exact (s.issued_dropEntry i).trans (congrArg Angle.issued ang)
    · exact (s.isles_dropEntry i).trans isles
    · exact (s.mem_dropEntry i).trans mem
  case periodic =>
    rintro l i x st d can slot head entry good periodic rfl
    refine .of_onDev (Dev.entryIssue l.val) (fun _ => rfl) ?_
    obtain ⟨late, issue⟩ := Dev.entryIssue_of_good can slot head entry good
    obtain ⟨ang, mem, isles, regs⟩ := Dev.sentAction_spec (d.steady_readEntry i) l.isLt x late
    have rev : (d.readEntry i).2.listRev l.val = d.listRev l.val := by
      rw [Dev.listRev, Dev.on, Dev.rd_eq (Dev.reg_of_steady (d.steady_readEntry i) (by grind)), ← Dev.on, Dev.listRev]
    rw [issue, periodic, rev]
    generalize (d.readEntry i).2.sentAction l.val ((d.readEntry i).2.actionOf l.val x late) = s at *
    have entries := Dev.entry_of_angIssued ang
    obtain ⟨acts, same, others, reins, acc, list, keptIsles, keptMem⟩ := s.beginReinsertion_spec l.val i x (d.listRev l.val)
    rw [Dev.cadStepOf_eq regs] at same acc
    refine ⟨⟨late, acts.trans (congrArg Angle.acts ang)⟩, same, fun j ne => (others j ne).trans (entries j), ?_, acc, ?_, keptIsles.trans isles,
      keptMem.trans mem⟩
    · exact reins.trans (congrArg (fun a => a.reins ++ [i]) ang)
    · exact list.trans (congrArg (List.drop 1) (Dev.list_of_angIssued ang l.val))
  case damaged =>
    intro l i d can slot head bad
    refine .of_onDev (Dev.entryIssue l.val) (fun _ => rfl) ?_
    obtain ⟨x, entry⟩ := Dev.entry_of_canIssue can head
    rw [Dev.entryIssue_of_damaged can slot head entry bad]
    have steady := d.steady_readEntry i
    generalize (d.readEntry i).2 = s at *
    have ang := s.ang_damagedEntry i
    refine ⟨?_, ?_, fun j ne => ?_, ?_, ?_⟩
    · rw [ang, Dev.acts_dropEntry, Dev.ang_of_steady steady]
    · rw [Dev.entry_eq (congrArg Angle.entries ang), Dev.entry_dropEntry_same]
    · rw [Dev.entry_eq (congrArg Angle.entries ang), Dev.entry_dropEntry_ne _ ne, Dev.entry_eq (congrArg Angle.entries (Dev.ang_of_steady steady))]
    · rw [Dev.isles_damagedEntry, Dev.isles_of_steady steady]
    · rw [Dev.mem_damagedEntry, Dev.mem_of_steady steady]
  case reinserted =>
    intro i x d waits entry noDelete
    refine .of_onDev (Dev.reinsertionComplete i.val) (fun _ => rfl) ?_
    rw [Dev.reinsertionComplete_of_waiting waits entry, if_neg noDelete]
    refine ⟨Dev.entry_putEntry_same _ _ _ _, fun j ne => Dev.entry_putEntry_ne _ _ _ _ ne, d.not_mem_reins_reinserted i, ?_, rfl⟩
    exact (Dev.list_putEntry_same _ _ _ _).trans (Dev.placeIn_eq (d := d) (e := d.reinserted i) (fun _ => rfl) _ _ _ _)
  case deleted =>
    intro i x d waits entry busy index
    refine .of_onDev (Dev.reinsertionComplete i.val) (fun _ => rfl) ?_
    rw [Dev.reinsertionComplete_of_waiting waits entry, if_pos ⟨busy, index⟩]
    have reins := d.not_mem_reins_reinserted i
    have stays : ∀ j, j ≠ i.val → ((d.reinserted i).putEntry x.list i x).entry j = d.entry j := fun j ne => Dev.entry_putEntry_ne _ _ _ _ ne
    have put := (d.reinserted i).entry_putEntry_same x.list i x
    have mem : ((d.reinserted i).putEntry x.list i x).mem = d.mem := rfl
    have reinsPut : ((d.reinserted i).putEntry x.list i x).ang.reins = (d.reinserted i).ang.reins := rfl
    generalize (d.reinserted i).putEntry x.list i x = s at *
    obtain ⟨isIdle, res⟩ := (s.dropEntry i).rd_deleteEnd 0
    refine ⟨?_, fun j ne => ?_, ?_, ?_, isIdle, res, ?_⟩
    · rw [Dev.entry_deleteEnd, Dev.entry_dropEntry_same]
    · rw [Dev.entry_deleteEnd, Dev.entry_dropEntry_ne _ ne, stays j ne]
    · rw [Dev.ang_deleteEnd, Dev.reins_dropEntry, reinsPut]; exact reins
    · rw [Dev.list_deleteEnd]; exact Dev.not_mem_list_dropEntry put
    · rw [Dev.mem_deleteEnd, Dev.mem_dropEntry, mem]

end Sys2Proof.Machine

/-! ## The end of a change set (R55, R56, R223)

A change set that is abandoned or applied ends with its registers, its events and, where the ICP drives it, the ICP's answer: that leaves the units' registers
and everything outside events, integrity and configuration. -/
namespace Sys2Proof.Machine

/-- What the configuration's own bookkeeping keeps: the steady part of the block without the configuration, and the staged changes. -/
def Dev.outline (d : Dev) : (Dev × (Nat → BitVec 32) × List Nat) × List Staged := (({ d.steady.1 with cfg := Cfg.reset }, d.steady.2), d.cfg.staged)

theorem Dev.outline_of_steady {d e : Dev} (h : e.steady = d.steady) : e.outline = d.outline := by
  have staged : e.cfg.staged = d.cfg.staged := congrArg (fun p => p.1.cfg.staged) h
  rw [Dev.outline, h, staged, Dev.outline]

theorem Dev.reg_of_outline {d e : Dev} (h : e.outline = d.outline) {a : Nat} (on : ¬ OffUnits a) : e.reg a = d.reg a :=
  Dev.reg_of_unitRegs (congrArg (fun p => p.1.2.1) h) on

theorem Dev.ang_of_outline {d e : Dev} (h : e.outline = d.outline) : e.ang = d.ang := congrArg (fun p => p.1.1.ang) h
theorem Dev.mem_of_outline {d e : Dev} (h : e.outline = d.outline) : e.mem = d.mem := congrArg (fun p => p.1.1.mem) h
theorem Dev.staged_of_outline {d e : Dev} (h : e.outline = d.outline) : e.cfg.staged = d.cfg.staged := congrArg Prod.snd h

theorem Dev.outline_wr (d : Dev) (f : Fld) (v : Nat) (off : OffUnits f.addr) : (d.wr f v).outline = d.outline :=
  Dev.outline_of_steady (d.steady_wr f v off)

/-- The block with its configuration replaced. -/
def Dev.withCfg (d : Dev) (c : Cfg) : Dev := { d with cfg := c }

theorem Dev.outline_withCfg (d : Dev) {c : Cfg} (same : c.staged = d.cfg.staged) : (d.withCfg c).outline = d.outline :=
  Prod.ext rfl same

theorem Dev.outline_claimsLapse (d : Dev) : d.claimsLapse.outline = d.outline :=
  d.outline_withCfg (c := d.claimsLapse.cfg) rfl

theorem Dev.outline_cmdDone (d : Dev) (op status part : Nat) (res : List (BitVec 32)) : (d.cmdDone op status part res).outline = d.outline := by
  unfold Dev.cmdDone
  split
  · rfl
  · next rest _ => exact (Dev.outline_of_steady (Dev.steady_genEvent _ _ _)).trans (d.outline_withCfg (c := { d.cfg with ops := rest }) rfl)

/-- The end of the ICP's work answers its command. -/
theorem Dev.outline_icpIdle (d : Dev) : (d.withCfg { d.cfg with icp := Icp.reset }).outline = d.outline := d.outline_withCfg rfl

theorem Dev.outline_icpFail (d : Dev) (code part : Nat) : (d.icpFail code part).outline = d.outline := by
  unfold Dev.icpFail
  dsimp only
  rw [Dev.outline_cmdDone]
  refine (Dev.outline_icpIdle _).trans ?_
  rw [Dev.outline_claimsLapse, Dev.outline_wr _ _ _ (by decide), Dev.outline_wr _ _ _ (by decide)]

/-- The slot as an abandoned set leaves it. -/
def Dev.slotAbandoned (s cause : Nat) (d : Dev) : Dev :=
  (((d.dropStaged s).wr (AU_MCs_STAT_STATE s) 4).wr (AU_MCs_STAT_CAUSE s) cause).wr (AU_MCs_CTL_ARM s) 0

theorem Dev.outline_mcAbandon (d : Dev) (s cause code : Nat) :
    (d.mcAbandon s cause code).outline = ((forList (d.stagedOn s) Dev.discardUnit d).slotAbandoned s cause).outline := by
  unfold Dev.mcAbandon
  dsimp only
  split
  · rw [Dev.outline_icpFail]
    exact Dev.outline_of_steady (Dev.steady_post _ _ _)
  · exact Dev.outline_of_steady (Dev.steady_post _ _ _)

/-- The fields of an abandoned slot. -/
theorem Dev.rd_slotAbandoned (s cause : Nat) (d : Dev) :
    (d.slotAbandoned s cause).rd (AU_MCs_STAT_STATE s) = 4 ∧ (d.slotAbandoned s cause).rd (AU_MCs_STAT_CAUSE s) = cause % 8 := by
  unfold Dev.slotAbandoned
  refine ⟨?_, ?_⟩
  · rw [Dev.rd_wr_ne, Dev.rd_wr_disjoint, Dev.rd_wr_same] <;> simp
  · rw [Dev.rd_wr_ne, Dev.rd_wr_same] <;> simp

/-- No unit holds a change of the slot any more. -/
theorem Dev.stagedOn_dropStaged (s : Nat) (d : Dev) : (d.dropStaged s).stagedOn s = [] := by
  simp [Dev.stagedOn, Dev.dropStaged]

@[simp] theorem Dev.stagedOn_wr (d : Dev) (f : Fld) (v s : Nat) : (d.wr f v).stagedOn s = d.stagedOn s := rfl

theorem Dev.stagedOn_slotAbandoned (s cause : Nat) (d : Dev) : (d.slotAbandoned s cause).stagedOn s = [] := by
  rw [Dev.slotAbandoned, Dev.stagedOn_wr, Dev.stagedOn_wr, Dev.stagedOn_wr, Dev.stagedOn_dropStaged]

@[simp] theorem Dev.ang_dropStaged (s : Nat) (d : Dev) : (d.dropStaged s).ang = d.ang := rfl
@[simp] theorem Dev.mem_dropStaged (s : Nat) (d : Dev) : (d.dropStaged s).mem = d.mem := rfl

@[simp] theorem Dev.ang_slotAbandoned (s cause : Nat) (d : Dev) : (d.slotAbandoned s cause).ang = d.ang := by
  rw [Dev.slotAbandoned, Dev.ang_wr, Dev.ang_wr, Dev.ang_wr, Dev.ang_dropStaged]
@[simp] theorem Dev.mem_slotAbandoned (s cause : Nat) (d : Dev) : (d.slotAbandoned s cause).mem = d.mem := by
  rw [Dev.slotAbandoned, Dev.mem_wr, Dev.mem_wr, Dev.mem_wr, Dev.mem_dropStaged]

end Sys2Proof.Machine

/-! ## The check of a change set, its acknowledgments and its abandonment (R55, R56, R57) -/
namespace Sys2Proof.Machine

/-! ### What a unit that discards its change leaves -/

@[simp] theorem Dev.mem_enterSafe (p : Nat) (d : Dev) : (d.enterSafe p).mem = d.mem := by
  unfold Dev.enterSafe
  split <;> rfl

@[simp] theorem Dev.ang_enterSafe (p : Nat) (d : Dev) : (d.enterSafe p).ang = d.ang := by
  unfold Dev.enterSafe
  split <;> rfl

theorem Dev.mem_holdOutput (cls i : Nat) (b : Bool) (d : Dev) : (d.holdOutput cls i b).mem = d.mem := by
  unfold Dev.holdOutput
  split
  · split
    · rw [Dev.mem_enterSafe, Dev.mem_setPair]
    · rw [Dev.mem_setPair]
  · rw [Dev.mem_setGio]
  · unfold Dev.setHfifo
    rw [Dev.mem_wrb, Dev.mem_wr, Dev.mem_wr]
  · rfl

theorem Dev.ang_holdOutput (cls i : Nat) (b : Bool) (d : Dev) : (d.holdOutput cls i b).ang = d.ang := by
  unfold Dev.holdOutput
  split
  · split
    · rw [Dev.ang_enterSafe, Dev.ang_setPair]
    · rw [Dev.ang_setPair]
  · rw [Dev.ang_setGio]
  · unfold Dev.setHfifo
    rw [Dev.ang_wrb, Dev.ang_wr, Dev.ang_wr]
  · rfl

theorem Dev.mem_discardUnit (u : Staged) (d : Dev) : (d.discardUnit u).mem = d.mem := by
  unfold Dev.discardUnit
  split
  · exact Dev.mem_wr _ _ _
  · split
    · exact d.mem_holdOutput _ _ _
    · rfl

theorem Dev.ang_discardUnit (u : Staged) (d : Dev) : (d.discardUnit u).ang = d.ang := by
  unfold Dev.discardUnit
  split
  · exact Dev.ang_wr _ _ _
  · split
    · exact d.ang_holdOutput _ _ _
    · rfl

/-! ### Abandonment -/

/-- An abandoned set shows its state and cause and leaves no staged change, in the same memory and angle unit. -/
theorem Dev.mcAbandon_spec (d : Dev) {s cause : Nat} (slot : s < 8) (small : cause < 8) (code : Nat) :
    (d.mcAbandon s cause code).rd (AU_MCs_STAT_STATE s) = 4 ∧ (d.mcAbandon s cause code).rd (AU_MCs_STAT_CAUSE s) = cause ∧
    (d.mcAbandon s cause code).stagedOn s = [] ∧ (d.mcAbandon s cause code).mem = d.mem ∧ (d.mcAbandon s cause code).ang = d.ang := by
  have view := d.outline_mcAbandon s cause code
  have stat := Dev.reg_of_outline view (a := AU_MCs_STAT s) (by grind)
  have mem : (forList (d.stagedOn s) Dev.discardUnit d).mem = d.mem := forList_keeps Dev.mem _ d fun u _ d => d.mem_discardUnit u
  have ang : (forList (d.stagedOn s) Dev.discardUnit d).ang = d.ang := forList_keeps Dev.ang _ d fun u _ d => d.ang_discardUnit u
  generalize forList (d.stagedOn s) Dev.discardUnit d = x at *
  obtain ⟨state, shown⟩ := x.rd_slotAbandoned s cause
  refine ⟨?_, ?_, ?_, ?_, ?_⟩
  · rw [Dev.rd_eq stat, state]
  · rw [Dev.rd_eq stat, shown, Nat.mod_eq_of_lt small]
  · rw [Dev.stagedOn, Dev.staged_of_outline view, ← Dev.stagedOn, Dev.stagedOn_slotAbandoned]
  · rw [Dev.mem_of_outline view, Dev.mem_slotAbandoned, mem]
  · rw [Dev.ang_of_outline view, Dev.ang_slotAbandoned, ang]

/-! ### The check -/

/-- A slot that is not committed does not apply. -/
theorem Dev.mcSettle_of_state {s : Nat} {d : Dev} (h : d.rd (AU_MCs_STAT_STATE s) ≠ 2) : d.mcSettle s = d := if_neg fun both => h both.1

/-- Nor does one whose domain has passed no landfall in this ACLK. -/
theorem Dev.mcSettle_of_waiting {s : Nat} {d : Dev} (h : (d.ad (d.rd (AU_MCs_CTL_DOM s))).lfDone = false) : d.mcSettle s = d :=
  if_neg fun both => by simp [h] at both

theorem Dev.modeChangeCheck_of_due {s : Nat} {d : Dev} (armed : d.rd (AU_MCs_STAT_STATE s) = 1)
    (due : d.checkReached (d.rd (AU_MCs_CTL_DOM s)) (d.mcTarget s) = true) : d.modeChangeCheck s = (d.mcCheck s).mcSettle s := if_pos ⟨armed, due⟩

/-- A check that passes commits the slot. -/
theorem Dev.mcCheck_of_pass {s : Nat} {d : Dev} (pass : d.mcPasses s = true) : d.mcCheck s = d.wr (AU_MCs_STAT_STATE s) 2 := if_pos pass

/-- One that fails after the last postponement abandons the set. -/
theorem Dev.mcCheck_of_last {s : Nat} {d : Dev} (fails : d.mcPasses s = false) (last : 8 ≤ d.rd (AU_MCs_STAT_PPN s)) :
    d.mcCheck s = d.mcAbandon s 1 0x0E := by
  unfold Dev.mcCheck
  rw [if_neg (by simp [fails]), if_pos last]

/-- One that fails before it is postponed to the next landfall. -/
theorem Dev.mcCheck_of_postponed {s : Nat} {d : Dev} {l : BitVec 80} (fails : d.mcPasses s = false) (more : d.rd (AU_MCs_STAT_PPN s) < 8)
    (next : l = lfNext (d.adRev (d.rd (AU_MCs_CTL_DOM s))) (d.lfPeriod (d.rd (AU_MCs_CTL_DOM s))) (d.mcTarget s))
    (ahead : d.checkReached (d.rd (AU_MCs_CTL_DOM s)) l = false) :
    d.mcCheck s = (d.wr64 (AU_MCs_LF_LO s) (AU_MCs_LF_HI s) (lfStamp l)).wr (AU_MCs_STAT_PPN s) (d.rd (AU_MCs_STAT_PPN s) + 1) := by
  unfold Dev.mcCheck
  rw [if_neg (by simp [fails]), if_neg (by omega)]
  dsimp only
  rw [← next, if_neg (by simp [ahead])]

/-- Whether a check is due depends on the angle unit, the domain's configuration and the lead. -/
theorem Dev.checkReached_congr {d e : Dev} {n : Nat} (ang : e.ang = d.ang) (cfg : e.reg (AU_ADn_CFG n) = d.reg (AU_ADn_CFG n))
    (lead : e.reg AU_LEAD = d.reg AU_LEAD) (l : BitVec 80) : e.checkReached n l = d.checkReached n l := by
  rw [Dev.checkReached, Dev.checkReached, Dev.ad_eq (congrArg Angle.ad ang) n, Dev.adRev, Dev.adRev, Dev.on, Dev.on, Dev.rd_eq (f := AU_ADn_CFG_DIR n) cfg,
    Dev.lead, Dev.lead, Dev.rd_eq (f := AU_LEAD_LEAD) lead]

/-! ### Acknowledgments -/

/-- The block in which the first acknowledgment has been counted for slot `s`. -/
def Dev.acked (s : Nat) (rest : List (Nat × Nat)) (d : Dev) : Dev := (d.withCfg { d.cfg with acks := rest }).inc (AU_MCs_ACK_GOT s)

theorem Dev.reg_acked_ne (s : Nat) (rest : List (Nat × Nat)) (d : Dev) {a : Nat} (h : a ≠ AU_MCs_ACK s) : (d.acked s rest).reg a = d.reg a :=
  Dev.reg_inc_ne _ _ h

theorem Dev.ang_acked (s : Nat) (rest : List (Nat × Nat)) (d : Dev) : (d.acked s rest).ang = d.ang := Dev.ang_inc _ _

theorem Dev.eq_of_acked (s : Nat) (rest : List (Nat × Nat)) (d : Dev) :
    d.acked s rest = { d with regs := (d.acked s rest).regs, flags := (d.acked s rest).flags, cfg := { d.cfg with acks := rest } } :=
  Dev.eq_of_beyondRegs (Dev.beyondRegs_inc _ _)

/-- The acknowledgment leaves the check as far away as it was. -/
theorem Dev.checkReached_acked (s : Nat) (rest : List (Nat × Nat)) (d : Dev) :
    (d.acked s rest).checkReached ((d.acked s rest).rd (AU_MCs_CTL_DOM s)) ((d.acked s rest).mcTarget s) =
      d.checkReached (d.rd (AU_MCs_CTL_DOM s)) (d.mcTarget s) := by
  have dom : d.rd (AU_MCs_CTL_DOM s) < 8 := d.rd_lt _
  have reg : ∀ a, a ≠ AU_MCs_ACK s → (d.acked s rest).reg a = d.reg a := fun a h => d.reg_acked_ne s rest h
  rw [Dev.rd_eq (f := AU_MCs_CTL_DOM s) (reg (AU_MCs_CTL s) (by grind)), Dev.mcTarget,
    Dev.rd64_eq (reg (AU_MCs_LF_LO s) (by grind)) (reg (AU_MCs_LF_HI s) (by grind)), ← Dev.mcTarget]
  exact Dev.checkReached_congr (d.ang_acked s rest) (reg _ (by grind)) (reg AU_LEAD (by grind)) _

/-- The first acknowledgment of an armed slot whose check lies ahead is counted. -/
theorem Dev.modeChangeAck_of_ahead {s a : Nat} {rest : List (Nat × Nat)} {d : Dev} (armed : d.rd (AU_MCs_STAT_STATE s) = 1)
    (ahead : d.checkReached (d.rd (AU_MCs_CTL_DOM s)) (d.mcTarget s) = false) (acks : d.cfg.acks = (s, a) :: rest) (due : a ≤ d.now) :
    d.modeChangeAck s = d.acked s rest := by
  have later := d.checkReached_acked s rest
  rw [ahead] at later
  have first : takeFirst (fun b : Nat × Nat => b.1 = s && decide (b.2 ≤ d.now)) d.cfg.acks = some ((s, a), rest) := by
    rw [acks, takeFirst, if_pos (by simp [due])]
  unfold Dev.modeChangeAck
  dsimp only
  rw [if_pos (.inl armed), first]
  exact if_neg fun all => Bool.eq_false_iff.mp later all.2.1

/-! ### Settled -/

/-- Settles O7: one equation per outcome of a check, and one specification of the abandonment that three commands share. -/
theorem modeChangeDecided : Obligations.ModeChangeDecided := by
  unfold Obligations.ModeChangeDecided
  refine ⟨?commits, ?postponed, ?abandoned, ?acked, ?aborted, ?ignored, ?expired⟩
  case commits =>
    intro s d armed due pass waiting
    refine .of_onDev (Dev.modeChangeCheck s.val) (fun _ => rfl) ?_
    have dom : (d.wr (AU_MCs_STAT_STATE s) 2).rd (AU_MCs_CTL_DOM s) = d.rd (AU_MCs_CTL_DOM s) := d.rd_wr_ne _ _ _ (by grind)
    have still : ((d.wr (AU_MCs_STAT_STATE s) 2).ad ((d.wr (AU_MCs_STAT_STATE s) 2).rd (AU_MCs_CTL_DOM s))).lfDone = false := by
      rw [dom, Dev.ad_wr, waiting]
    rw [Dev.modeChangeCheck_of_due armed due, Dev.mcCheck_of_pass pass, Dev.mcSettle_of_waiting still]
    refine ⟨?_, ?_, (OnlyRegs.refl _ d).wr 2 (by simp)⟩
    · rw [Dev.rd_wr_same] <;> simp
    · rw [Dev.rd_wr_disjoint] <;> simp
  case postponed =>
    rintro s p l d armed due fails rfl more next ahead
    refine .of_onDev (Dev.modeChangeCheck s.val) (fun _ => rfl) ?_
    have state : ((d.wr64 (AU_MCs_LF_LO s) (AU_MCs_LF_HI s) (lfStamp l)).wr (AU_MCs_STAT_PPN s) (d.rd (AU_MCs_STAT_PPN s) + 1)).rd
        (AU_MCs_STAT_STATE s) = 1 := by
      rw [Dev.rd_wr_disjoint _ _ _ _ (by simp) (by simp) (by simp), Dev.rd_eq (Dev.reg_wr64_ne _ _ (by grind) (by grind)), armed]
    rw [Dev.modeChangeCheck_of_due armed due, Dev.mcCheck_of_postponed fails more next ahead, Dev.mcSettle_of_state (by rw [state]; decide)]
    refine ⟨state, ?_, ?_, ((OnlyRegs.refl _ d).wr64 _ (by simp) (by simp)).wr _ (by simp)⟩
    · rw [Dev.rd_wr_same _ _ _ (by simp) (by simp)]
      exact Nat.mod_eq_of_lt (by simp only; omega)
    · rw [Dev.rd64_eq (Dev.reg_wr_ne _ _ _ (by grind)) (Dev.reg_wr_ne _ _ _ (by grind)), Dev.rd64_wr64_same _ _ (by grind)]
  case abandoned =>
    intro s d armed due fails last
    refine .of_onDev (Dev.modeChangeCheck s.val) (fun _ => rfl) ?_
    have spec := d.mcAbandon_spec (s := s) (cause := 1) s.isLt (by decide) 0x0E
    rwa [Dev.modeChangeCheck_of_due armed due, Dev.mcCheck_of_last fails last, Dev.mcSettle_of_state (by rw [spec.1]; decide)]
  case acked =>
    rintro s a rest g d armed ahead acks due rfl room
    refine .of_onDev (Dev.modeChangeAck s.val) (fun _ => rfl) ?_
    rw [Dev.modeChangeAck_of_ahead armed ahead acks due]
    refine ⟨?_, ?_, fun a h => d.reg_acked_ne _ _ (by simpa using h), Dev.eq_of_acked _ _ _⟩
    · exact (d.withCfg { d.cfg with acks := rest }).rd_inc_same _ (by simp) (by simp) room
    · exact ((d.withCfg { d.cfg with acks := rest }).rd_inc_disjoint _ _ (by simp) (by simp) (.inl (by grind))).trans armed
  case aborted =>
    intro s d armed ahead
    refine .of_onDev (Dev.modeChangeAbort s.val 0x0F) (fun _ => rfl) ?_
    rw [Dev.modeChangeAbort, if_pos ⟨armed, by simp [ahead]⟩]
    exact d.mcAbandon_spec s.isLt (by decide) 0x0F
  case ignored =>
    intro s d notArmed
    refine .of_onDev (Dev.modeChangeAbort s.val 0x0F) (fun _ => rfl) ?_
    exact if_neg fun both => notArmed both.1
  case expired =>
    rintro s m d set rfl limited expired ahead
    refine .of_onDev (Dev.modeChangeTimeout s.val) (fun _ => rfl) ?_
    rw [Dev.modeChangeTimeout, if_pos ⟨set, limited, expired, by simp [ahead]⟩]
    exact d.mcAbandon_spec s.isLt (by decide) 0x0E

end Sys2Proof.Machine

/-! ## What accesses to memory leave

A read or a write of memory may correct code words, count and report errors, retire a rank of DRAM, commit a settings record and note an old lagoon word: the angle
unit, the staged changes, the registers of the units, and the cells and contexts of the isles stay. -/
namespace Sys2Proof.Machine

/-- The parts of an isle that no access to memory reaches: cells, contexts, which copy is active, and the end of the copy-back. -/
def Isle.held (i : Isle) : Tbl Cell × Tbl (BitVec 128) × Bool × Option Nat := (i.cells, i.ctx, i.copy, i.copyEnd)

/-- What of the block no access to memory reaches. -/
def Dev.standing (d : Dev) : Angle × List Staged × (Nat → Tbl Cell × Tbl (BitVec 128) × Bool × Option Nat) × (Nat → BitVec 32) :=
  (d.ang, d.cfg.staged, fun n => (d.isle n).held, d.unitRegs)

theorem Dev.standing_of_outline {d e : Dev} (h : e.outline = d.outline) : e.standing = d.standing := by
  have isles : e.isles = d.isles := congrArg (fun p => p.1.1.isles) h
  have regs : e.unitRegs = d.unitRegs := congrArg (fun p => p.1.2.1) h
  have held : (fun n => (e.isle n).held) = fun n => (d.isle n).held := by
    funext n
    rw [Dev.isle, isles, ← Dev.isle]
  rw [Dev.standing, Dev.ang_of_outline h, Dev.staged_of_outline h, held, regs, Dev.standing]

theorem Dev.standing_of_steady {d e : Dev} (h : e.steady = d.steady) : e.standing = d.standing := Dev.standing_of_outline (Dev.outline_of_steady h)

theorem Dev.ang_of_standing {d e : Dev} (h : e.standing = d.standing) : e.ang = d.ang := congrArg Prod.fst h
theorem Dev.staged_of_standing {d e : Dev} (h : e.standing = d.standing) : e.cfg.staged = d.cfg.staged := congrArg (fun p => p.2.1) h
theorem Dev.held_of_standing {d e : Dev} (h : e.standing = d.standing) (n : Nat) : (e.isle n).held = (d.isle n).held := congrFun (congrArg (fun p => p.2.2.1) h) n
theorem Dev.reg_of_standing {d e : Dev} (h : e.standing = d.standing) {a : Nat} (on : ¬ OffUnits a) : e.reg a = d.reg a :=
  Dev.reg_of_unitRegs (congrArg (fun p => p.2.2.2) h) on

/-! ### Single updates -/

theorem Dev.standing_setReg (d : Dev) {a : Nat} (v : BitVec 32) (off : OffUnits a) : (d.setReg a v).standing = d.standing :=
  Dev.standing_of_steady (d.steady_setReg v off)
theorem Dev.standing_wr (d : Dev) (f : Fld) (v : Nat) (off : OffUnits f.addr) : (d.wr f v).standing = d.standing := d.standing_setReg _ off
theorem Dev.standing_wrb (d : Dev) (f : Fld) (b : Bool) (off : OffUnits f.addr) : (d.wrb f b).standing = d.standing := d.standing_wr f _ off
theorem Dev.standing_wrBit (d : Dev) (f : Fld) (i : Nat) (b : Bool) (off : OffUnits f.addr) : (d.wrBit f i b).standing = d.standing := d.standing_wr f _ off
theorem Dev.standing_setFlag (d : Dev) (f : Fld) (off : OffUnits f.addr) : (d.setFlag f).standing = d.standing :=
  Dev.standing_of_steady (d.steady_setFlag f off)
theorem Dev.standing_setFlagBit (d : Dev) (f : Fld) (i : Nat) (off : OffUnits f.addr) : (d.setFlagBit f i).standing = d.standing :=
  Dev.standing_of_steady (d.steady_setFlagBit f i off)
theorem Dev.standing_inc (d : Dev) (f : Fld) (off : OffUnits f.addr) : (d.inc f).standing = d.standing := Dev.standing_of_steady (d.steady_inc f off)
theorem Dev.standing_wr64 (d : Dev) {lo hi : Nat} (v : BitVec 64) (low : OffUnits lo) (high : OffUnits hi) : (d.wr64 lo hi v).standing = d.standing :=
  (Dev.standing_setReg _ _ high).trans (d.standing_setReg _ low)

theorem Dev.standing_raiseIrq (d : Dev) (i : Nat) : (d.raiseIrq i).standing = d.standing := Dev.standing_of_steady (d.steady_raiseIrq i)
theorem Dev.standing_post (d : Dev) (code : Nat) (pay : List (BitVec 32)) : (d.post code pay).standing = d.standing :=
  Dev.standing_of_steady (d.steady_post code pay)
theorem Dev.standing_f0 (d : Dev) (src unit : Nat) : (d.f0 src unit).standing = d.standing := Dev.standing_of_steady (d.steady_f0 src unit)
theorem Dev.standing_eccRead (d : Dev) (a src : Nat) : (d.eccRead a src).2.standing = d.standing := Dev.standing_of_steady (d.steady_eccRead a src)
theorem Dev.standing_codeWrite (d : Dev) (a : Nat) : (d.codeWrite a).standing = d.standing := Dev.standing_of_steady (d.steady_codeWrite a)
theorem Dev.standing_setErr (d : Dev) (a : Nat) (m : BitVec 72) : (d.setErr a m).standing = d.standing := rfl
theorem Dev.standing_setMerged (d : Dev) (b : Nat) (l : List MergeEnt) : (d.setMerged b l).standing = d.standing := rfl
theorem Dev.standing_setChan (d : Dev) (c : Nat) (x : DChan) : (d.setChan c x).standing = d.standing := rfl
theorem Dev.standing_setByte (d : Dev) (a : Nat) (v : BitVec 8) : (d.setByte a v).standing = d.standing := rfl
theorem Dev.standing_respond (d : Dev) (p : Packet) (status : Nat) (data : List (BitVec 8)) : (d.respond p status data).standing = d.standing := rfl
theorem Dev.standing_setSnap (d : Dev) (s : Nat) (x : Snap) : (d.setSnap s x).standing = d.standing := rfl

theorem Dev.standing_setIsle (d : Dev) (n : Nat) {i : Isle} (same : i.held = (d.isle n).held) : (d.setIsle n i).standing = d.standing := by
  have held : (fun m => ((d.setIsle n i).isle m).held) = fun m => (d.isle m).held := by
    funext m
    by_cases h : m = n
    · rw [h, Dev.isle_setIsle_same, same]
    · rw [Dev.isle_setIsle_ne _ _ h]
  exact congrArg (fun v => (d.ang, d.cfg.staged, v, d.unitRegs)) held

theorem Dev.standing_store (d : Dev) (a n v : Nat) : (d.store a n v).standing = d.standing := by
  induction n generalizing d a v with
  | zero => rfl
  | succ n ih => exact (ih _ _ _).trans (d.standing_setByte _ _)

theorem Dev.standing_storeBytes (d : Dev) (a : Nat) (bs : List (BitVec 8)) : (d.storeBytes a bs).standing = d.standing := by
  induction bs generalizing d a with
  | nil => rfl
  | cons b bs ih => exact (ih _ _).trans (d.standing_setByte _ _)

theorem Dev.standing_storeWords (d : Dev) (a : Nat) (ws : List (BitVec 32)) : (d.storeWords a ws).standing = d.standing := by
  induction ws generalizing d a with
  | nil => rfl
  | cons w ws ih => exact (ih _ _).trans (d.standing_store _ _ _)

/-! ### The settings store -/

theorem Dev.standing_ssFind (id : Nat) (d : Dev) : (d.ssFind id).2.standing = d.standing := by
  unfold Dev.ssFind
  dsimp only
  split
  · rfl
  · split
    · rfl
    · split
      · dsimp only
        split
        · exact d.standing_setFlag _ (by decide)
        · rfl
      · exact d.standing_setFlag _ (by decide)

theorem Dev.standing_ssShow (d : Dev) : d.ssShow.standing = d.standing := by
  unfold Dev.ssShow
  dsimp only
  rw [Dev.standing_wr _ _ _ (by decide), Dev.standing_wr _ _ _ (by decide), Dev.standing_setReg _ _ (by decide), Dev.standing_wr _ _ _ (by decide),
    Dev.standing_wrb _ _ _ (by decide)]

theorem Dev.standing_ssPut (b : Nat) (rs : List SsRec) (e o : Nat) (d : Dev) : (d.ssPut b rs e o).standing = d.standing := by
  induction rs generalizing e o d with
  | nil => exact d.standing_storeWords _ _
  | cons r rs ih =>
    unfold Dev.ssPut
    rw [ih, Dev.standing_storeBytes, Dev.standing_storeWords]

theorem Dev.standing_ssSeal (b : Nat) (seq : BitVec 32) (d : Dev) : (d.ssSeal b seq).standing = d.standing := by
  unfold Dev.ssSeal
  rw [Dev.standing_inc _ _ (by decide), Dev.standing_ssShow, Dev.standing_storeWords]

theorem Dev.standing_ssStage (id : Nat) (bs : Option (List (BitVec 8))) (d : Dev) : (d.ssStage id bs).standing = d.standing := by
  unfold Dev.ssStage
  rw [Dev.standing_ssPut, Dev.standing_storeWords]

theorem Dev.standing_ssCommit (id : Nat) (bs : Option (List (BitVec 8))) (d : Dev) : (d.ssCommit id bs).2.standing = d.standing := by
  have sealed : ∀ b seq, (((d.ssStage id bs).ssSeal b seq).wr SS_RES_RES 0).standing = d.standing := fun b seq => by
    rw [Dev.standing_wr _ _ _ (by decide), Dev.standing_ssSeal, Dev.standing_ssStage]
  unfold Dev.ssCommit
  dsimp only
  split
  · exact d.standing_wr _ _ (by decide)
  · dsimp only
    split
    · exact (Dev.standing_setReg _ _ (by decide)).trans (sealed _ _)
    · exact sealed _ _

/-- The block with its power controller replaced. -/
def Dev.withPower (d : Dev) (p : Power) : Dev := { d with power := p }
theorem Dev.standing_withPower (d : Dev) (p : Power) : (d.withPower p).standing = d.standing := rfl

theorem Dev.standing_ssRetire (c cs : Nat) (d : Dev) : (d.ssRetire c cs).standing = d.standing := by
  unfold Dev.ssRetire
  split
  · exact d.standing_withPower _
  · exact (Dev.standing_ssCommit _ _ _).trans (d.standing_ssFind 4)

/-! ### DRAM -/

theorem Dev.standing_dramCe (c l : Nat) (d : Dev) : (d.dramCe c l).standing = d.standing := by
  have counted : (d.inc (DC_CHc_CNT0_CE c)).standing = d.standing := d.standing_inc _ (by grind)
  unfold Dev.dramCe
  dsimp only
  split
  · rw [Dev.standing_post, Dev.standing_raiseIrq, Dev.standing_setFlag _ _ (by decide), Dev.standing_setChan, counted]
  · rw [Dev.standing_setChan, counted]

theorem Dev.standing_dramUe (c cs l : Nat) (cmd : Bool) (d : Dev) : (d.dramUe c cs l cmd).standing = d.standing := by
  have counted : (((d.inc (DC_CHc_CNT0_UE c)).setFlag DC_STAT_UE).raiseIrq 3).standing = d.standing := by
    rw [Dev.standing_raiseIrq, Dev.standing_setFlag _ _ (by decide), Dev.standing_inc _ _ (by grind)]
  unfold Dev.dramUe
  dsimp only
  rw [Dev.standing_post]
  split
  · exact counted
  · rw [Dev.standing_setFlag _ _ (by decide), Dev.standing_wrb _ _ _ (by decide), Dev.standing_wr _ _ _ (by decide), Dev.standing_wr _ _ _ (by decide),
      Dev.standing_wr _ _ _ (by decide), Dev.standing_wr _ _ _ (by decide), counted]

theorem Dev.standing_endMigration (c res : Nat) (d : Dev) : (d.endMigration c res).standing = d.standing := by
  unfold Dev.endMigration
  dsimp only
  rw [Dev.standing_post, Dev.standing_wr _ _ _ (by grind), Dev.standing_setChan]

theorem Dev.standing_retireRank (c cs cause : Nat) (d : Dev) : (d.retireRank c cs cause).standing = d.standing := by
  have retired : ((d.wrBit (DC_CHc_STAT_RETIRED c) cs true).ssRetire c cs).standing = d.standing := by
    rw [Dev.standing_ssRetire, Dev.standing_wrBit _ _ _ _ (by grind)]
  unfold Dev.retireRank
  dsimp only
  split
  · rfl
  · rw [Dev.standing_post, Dev.standing_f0]
    generalize (d.wrBit (DC_CHc_STAT_RETIRED c) cs true).ssRetire c cs = e at *
    split
    · split
      · split
        · rw [Dev.standing_endMigration, retired]
        · exact (Dev.standing_setChan _ _ _).trans retired
      · exact retired
    · split
      · rw [Dev.standing_setReg _ _ (by grind), Dev.standing_wr _ _ _ (by grind), Dev.standing_wr _ _ _ (by grind), Dev.standing_setChan, retired]
      · exact (Dev.standing_setChan _ _ _).trans retired

theorem Dev.standing_dramBeat (a : Nat) (d : Dev) : (d.dramBeat a).2.standing = d.standing := by
  unfold Dev.dramBeat
  split
  · rfl
  · split
    · rfl
    · rw [Dev.standing_setErr, Dev.standing_dramCe]
    · dsimp only
      rw [Dev.standing_retireRank, Dev.standing_dramUe]

/-! ### Reads -/

theorem Dev.standing_readWord (w : Nat) (d : Dev) : (d.readWord w).2.standing = d.standing := by
  have read := d.standing_eccRead w 0
  unfold Dev.readWord
  split
  · exact d.standing_dramBeat w
  · split
    · rfl
    · dsimp only
      split
      · split
        · rw [Dev.standing_f0, read]
        · exact read
      · exact read

theorem Dev.standing_readWords (ws : List Nat) (d : Dev) : (d.readWords ws).2.standing = d.standing := by
  unfold Dev.readWords
  exact List.foldlRecOn (motive := fun r : Bool × Dev => r.2.standing = d.standing) ws _ rfl fun r ih w _ => (Dev.standing_readWord w r.2).trans ih

theorem Dev.standing_countOffline (d : Dev) : d.countOffline.standing = d.standing := by
  rw [Dev.countOffline, Dev.standing_setFlag _ _ (by decide), Dev.standing_inc _ _ (by decide)]

theorem Dev.standing_memReadNow (a n : Nat) (d : Dev) : (d.memReadNow a n).2.standing = d.standing := by
  have read := d.standing_readWords (codeWords a n)
  unfold Dev.memReadNow
  split
  · dsimp only
    split <;> exact read
  · exact d.standing_countOffline
  · rfl

/-! ### Writes -/

theorem Dev.standing_dramWrite (a : Nat) (bs : List (BitVec 8)) (d : Dev) : (d.dramWrite a bs).2.standing = d.standing := by
  have read : (if bs.length = 64 then (false, d) else d.readWords (codeWords (a / 64 * 64) 64)).2.standing = d.standing := by
    split
    · rfl
    · exact d.standing_readWords _
  unfold Dev.dramWrite
  dsimp only
  generalize (if bs.length = 64 then (false, d) else d.readWords (codeWords (a / 64 * 64) 64)) = r at *
  split
  · exact read
  · refine (forList_keeps Dev.standing _ _ fun w _ e => e.standing_setErr w 0).trans ?_
    rw [Dev.standing_storeBytes, read]

theorem Isle.held_noteOld (i : Isle) (a : Nat) (old : BitVec 32) : (i.noteOld a old).held = i.held := by
  unfold Isle.noteOld
  split <;> rfl

theorem Dev.standing_netWrite (w : Nat) (d : Dev) : (d.netWrite w).standing = d.standing := by
  unfold Dev.netWrite
  split
  · exact d.standing_setIsle _ (Isle.held_noteOld _ _ _)
  · rfl

theorem Dev.standing_frameWritten (a : Nat) (d : Dev) : (d.frameWritten a).standing = d.standing := by
  unfold Dev.frameWritten
  split <;> rfl

theorem Dev.standing_eccWrite (a : Nat) (d : Dev) : (d.eccWrite a).standing = d.standing := by
  rw [Dev.eccWrite, Dev.standing_codeWrite, Dev.standing_frameWritten]

theorem Dev.standing_flushEntry (b w : Nat) (d : Dev) : (d.flushEntry b w).standing = d.standing := by
  unfold Dev.flushEntry
  split
  · rw [Dev.standing_eccWrite, Dev.standing_setMerged]
  · rfl

/-- A new merge entry begins with a read of its word. -/
theorem Dev.standing_mergeNew (b w mask : Nat) (d : Dev) :
    (if (d.eccRead w 2).1 then (false, (d.eccRead w 2).2) else
      (true, (d.eccRead w 2).2.setMerged b ((d.eccRead w 2).2.merged b ++ [{ addr := w, written := mask, at_ := (d.eccRead w 2).2.now }]))).2.standing =
      d.standing := by
  have read := d.standing_eccRead w 2
  split
  · exact read
  · exact (Dev.standing_setMerged _ _ _).trans read

theorem Dev.standing_mergeWrite (b w mask full : Nat) (d : Dev) : (d.mergeWrite b w mask full).2.standing = d.standing := by
  unfold Dev.mergeWrite
  split
  · dsimp only
    split
    · rw [Dev.standing_flushEntry, Dev.standing_setMerged]
    · rw [Dev.standing_setMerged]
  · refine (Dev.standing_mergeNew b w mask _).trans ?_
    split
    · split
      · rw [Dev.standing_flushEntry]
      · rfl
    · rfl

theorem Dev.standing_writeWord (w a : Nat) (bs : List (BitVec 8)) (d : Dev) : (d.writeWord w a bs).2.standing = d.standing := by
  have noted := d.standing_netWrite w
  unfold Dev.writeWord
  dsimp only
  generalize d.netWrite w = e at *
  generalize (if areaOf w = 1 then 4 else 8) = size
  have whole : ((e.storeBytes a bs).eccWrite w).standing = d.standing := by rw [Dev.standing_eccWrite, Dev.standing_storeBytes, noted]
  split
  · next b _ =>
    have merged := (e.standing_mergeWrite b w ((2 ^ bs.length - 1) * 2 ^ (a - w)) (2 ^ size - 1)).trans noted
    split
    · exact whole
    · split
      · exact (Dev.standing_storeBytes _ _ _).trans merged
      · exact merged
  · have read := (e.standing_eccRead w 0).trans noted
    split
    · exact whole
    · split
      · exact read
      · rw [Dev.standing_eccWrite, Dev.standing_storeBytes, read]

theorem Dev.standing_writeWords (a : Nat) (bs : List (BitVec 8)) (ws : List Nat) (d : Dev) : (d.writeWords a bs ws).2.standing = d.standing := by
  induction ws generalizing d with
  | nil => rfl
  | cons w ws ih => exact (ih _).trans (Dev.standing_writeWord _ _ _ _)

theorem Dev.standing_memWriteNow (a : Nat) (bs : List (BitVec 8)) (d : Dev) : (d.memWriteNow a bs).2.standing = d.standing := by
  unfold Dev.memWriteNow
  split
  · split
    · exact d.standing_dramWrite a bs
    · exact d.standing_writeWords a bs _
  · exact d.standing_countOffline
  · rfl

/-! ### The turns of the DRAM channels -/

theorem Dev.standing_performMem (p : Packet) (d : Dev) : (d.performMem p).standing = d.standing := by
  unfold Dev.performMem
  split
  · exact (Dev.standing_respond _ _ _ _).trans (d.standing_memWriteNow _ _)
  · exact (Dev.standing_respond _ _ _ _).trans (d.standing_memReadNow _ _)

theorem Dev.standing_refreshes (c s n : Nat) (d : Dev) : (d.refreshes c s n).standing = d.standing := by
  have up : (d.wrBit (DC_CHc_STAT_PD c) s false).standing = d.standing := d.standing_wrBit _ _ _ (by grind)
  unfold Dev.refreshes
  split
  · rfl
  · dsimp only
    split
    · rw [Dev.standing_setChan, up]
    · refine (forList_keeps Dev.standing _ _ fun t _ e => ?_).trans ((Dev.standing_setChan _ _ _).trans up)
      exact e.standing_wrBit _ _ _ (by split <;> decide)

theorem Dev.standing_activate (c s b row ni : Nat) (d : Dev) : (d.activate c s b row ni).standing = d.standing := by
  unfold Dev.activate
  dsimp only
  split
  · rw [Dev.standing_f0, Dev.standing_setFlag _ _ (by decide), Dev.standing_inc _ _ (by grind), Dev.standing_setFlagBit _ _ _ (by split <;> decide),
      Dev.standing_setChan]
  · rw [Dev.standing_setChan]

/-- A step that keeps the view, taken or not. -/
theorem Dev.standing_take {p : Prop} [Decidable p] {d e : Dev} (h : e.standing = d.standing) : (if p then e else d).standing = d.standing := by
  split
  · exact h
  · rfl

theorem Dev.standing_skip {p : Prop} [Decidable p] {d e : Dev} (h : e.standing = d.standing) : (if p then d else e).standing = d.standing := by
  split
  · rfl
  · exact h

theorem Dev.standing_rowAccess (c l ni : Nat) (d : Dev) : (d.rowAccess c l ni).standing = d.standing := by
  unfold Dev.rowAccess
  dsimp only
  refine (Dev.standing_skip (Dev.standing_refreshes _ _ _ _)).trans ?_
  refine (Dev.standing_take (Dev.standing_setChan _ _ _)).trans ?_
  refine (Dev.standing_wrBit _ _ _ _ (by grind)).trans ((Dev.standing_setChan _ _ _).trans ?_)
  refine (Dev.standing_skip (Dev.standing_activate _ _ _ _ _ _)).trans ?_
  exact Dev.standing_take (Dev.standing_refreshes _ _ _ _)

theorem Dev.standing_serveReq (c : Nat) (q : DReq) (d : Dev) : (d.serveReq c q).standing = d.standing := by
  unfold Dev.serveReq
  exact (Dev.standing_performMem _ _).trans ((Dev.standing_rowAccess _ _ _ _).trans (Dev.standing_setChan _ _ _))

theorem Dev.standing_serveAhead (a n : Nat) (d : Dev) : (d.serveAhead a n).standing = d.standing := by
  unfold Dev.serveAhead
  split
  · split
    · next c _ _ => exact Dev.standing_take (forList_keeps Dev.standing _ d fun q _ e => e.standing_serveReq c q)
    · rfl
  · rfl

theorem Dev.standing_memRead (a n : Nat) (d : Dev) : (d.memRead a n).2.standing = d.standing :=
  (Dev.standing_memReadNow _ _ _).trans (d.standing_serveAhead a n)

theorem Dev.standing_memWrite (a : Nat) (bs : List (BitVec 8)) (d : Dev) : (d.memWrite a bs).2.standing = d.standing :=
  (Dev.standing_memWriteNow _ _ _).trans (d.standing_serveAhead a _)

theorem Dev.standing_dramTurn (i a n : Nat) (d : Dev) : (d.dramTurn i a n).standing = d.standing := by
  unfold Dev.dramTurn
  split
  · split
    · exact (Dev.standing_take (Dev.standing_rowAccess _ _ _ _)).trans (d.standing_serveAhead a n)
    · rfl
  · rfl

/-! ### Whole buffers -/

theorem Dev.standing_memReadAll (a n : Nat) (d : Dev) : (d.memReadAll a n).2.standing = d.standing := by
  unfold Dev.memReadAll Dev.readBy
  refine List.foldlRecOn (motive := fun r : (Nat × List (BitVec 8)) × Dev => r.2.standing = d.standing) _ _ rfl fun r ih k _ => ?_
  split
  · exact ih
  · exact (Dev.standing_memRead _ _ _).trans ((Dev.standing_dramTurn _ _ _ _).trans ih)

theorem Dev.standing_memWriteAll (a : Nat) (bs : List (BitVec 8)) (d : Dev) : (d.memWriteAll a bs).2.standing = d.standing := by
  unfold Dev.memWriteAll Dev.writeBy
  refine List.foldlRecOn (motive := fun r : Nat × Nat × Dev => r.2.2.standing = d.standing) _ _ rfl fun r ih k _ => ?_
  exact (Dev.standing_memWrite _ _ _).trans ((Dev.standing_dramTurn _ _ _ _).trans ih)

theorem Dev.standing_itemList (a n : Nat) (d : Dev) : (d.itemList a n).2.standing = d.standing := by
  have read := d.standing_memReadAll a (16 * n)
  unfold Dev.itemList
  dsimp only
  split <;> exact read

theorem Dev.standing_clearSeq (dst size : Nat) (d : Dev) : (d.clearSeq dst size).standing = d.standing := d.standing_memWriteAll _ _

/-! ### Snapshots and readback -/

theorem Dev.standing_snapLatch (s : Nat) (d : Dev) : (d.snapLatch s).2.standing = d.standing := by
  unfold Dev.snapLatch
  dsimp only
  split <;> exact d.standing_itemList _ _

theorem Dev.standing_snapNext (s : Nat) (l : BitVec 80) (d : Dev) : (d.snapNext s l).standing = d.standing :=
  Dev.standing_take (d.standing_wr64 _ (by grind) (by grind))

theorem Dev.standing_snapDone (s n status : Nat) (stamp : BitVec 64) (d : Dev) : (d.snapDone s n status stamp).standing = d.standing :=
  Dev.standing_take (d.standing_post _ _)

theorem Dev.standing_snapIdle (s : Nat) (d : Dev) : (d.snapIdle s).standing = d.standing :=
  (Dev.standing_wr _ _ _ (by grind)).trans (d.standing_wr _ _ (by grind))

theorem Dev.standing_snapTake (s : Nat) (l : BitVec 80) (d : Dev) : (d.snapTake s l).standing = d.standing := by
  have latched : (((d.snapLatch s).2.setReg (AHD_SNs_SEQ s) (w32 ((d.reg (AHD_SNs_SEQ s)).toNat + 1))).snapNext s l).standing = d.standing :=
    (Dev.standing_snapNext _ _ _).trans ((Dev.standing_setReg _ _ (by grind)).trans (d.standing_snapLatch s))
  unfold Dev.snapTake
  dsimp only
  generalize ((d.snapLatch s).2.setReg (AHD_SNs_SEQ s) (w32 ((d.reg (AHD_SNs_SEQ s)).toNat + 1))).snapNext s l = e at *
  split
  · refine (Dev.standing_take (Dev.standing_snapIdle _ _)).trans ?_
    rw [Dev.standing_snapDone, Dev.standing_wr _ _ _ (by grind), Dev.standing_inc _ _ (by grind), latched]
  · rw [Dev.standing_clearSeq, Dev.standing_setSnap, Dev.standing_wr _ _ _ (by grind), latched]

theorem Dev.standing_snapLandfalls (n : Nat) (d : Dev) : (d.snapLandfalls n).standing = d.standing := by
  unfold Dev.snapLandfalls
  refine forUpTo_keeps Dev.standing 8 d fun s _ e => ?_
  split
  · exact e.standing_snapTake s _
  · rfl

theorem Dev.standing_rbLatch (d : Dev) : d.rbLatch.2.standing = d.standing := by
  have read : (if d.rd CF_RB_N_N = 0 ∨ 256 < d.rd CF_RB_N_N then (none, d) else d.itemList (d.reg CF_RB_LIST).toNat (d.rd CF_RB_N_N)).2.standing =
      d.standing := by
    split
    · rfl
    · exact d.standing_itemList _ _
  unfold Dev.rbLatch
  dsimp only
  generalize (if d.rd CF_RB_N_N = 0 ∨ 256 < d.rd CF_RB_N_N then (none, d) else d.itemList (d.reg CF_RB_LIST).toNat (d.rd CF_RB_N_N)) = r at *
  split <;> exact read

theorem Dev.standing_withCfg (d : Dev) {c : Cfg} (same : c.staged = d.cfg.staged) : (d.withCfg c).standing = d.standing :=
  Dev.standing_of_outline (d.outline_withCfg same)

theorem Dev.standing_rbLandfall (n : Nat) (l : BitVec 80) (d : Dev) : (d.rbLandfall n l).standing = d.standing := by
  have latched := d.standing_rbLatch
  unfold Dev.rbLandfall
  split
  · dsimp only
    rw [Dev.standing_clearSeq, Dev.standing_wr64 _ _ (by decide) (by decide), Dev.standing_wr _ _ _ (by decide)]
    exact (Dev.standing_withCfg _ rfl).trans latched
  · rfl

end Sys2Proof.Machine

/-! ## The turns of a landfall (R52, R116, R125) -/
namespace Sys2Proof.Machine

/-! ### One turn among others -/

/-- A loop in which turn `k` turns `p` into `q`: the turns before keep `p`, the turns after keep `q`. -/
theorem forUpTo_pivot {σ : Type} {f : Nat → σ → σ} (p q : σ → Prop) {n k : Nat} {s : σ} (lt : k < n) (init : p s)
    (before : ∀ i, i < k → ∀ s, p s → p (f i s)) (turn : ∀ s, p s → q (f k s)) (after : ∀ i, k < i → i < n → ∀ s, q s → q (f i s)) :
    q (forUpTo n f s) := by
  have reach : p (forUpTo k f s) := forUpTo_induct p init before
  induction n with
  | zero => omega
  | succ n ih =>
    rw [forUpTo_succ]
    rcases Nat.lt_succ_iff_lt_or_eq.mp lt with lower | rfl
    · exact after n lower (by omega) _ (ih lower fun i lo hi => after i lo (by omega))
    · exact turn _ reach

/-- ... over a list in which it stands at least once. -/
theorem forList_pivot {α σ : Type} {f : α → σ → σ} (p q : σ → Prop) {k : α} {xs : List α} {s : σ} (mem : k ∈ xs) (init : p s)
    (before : ∀ x s, p s → p (f x s)) (turn : ∀ s, p s → q (f k s)) (after : ∀ x s, q s → q (f x s)) : q (forList xs f s) := by
  obtain ⟨as, bs, rfl⟩ := List.append_of_mem mem
  unfold forList
  rw [List.foldl_append, List.foldl_cons]
  exact List.foldlRecOn bs _ (turn _ (List.foldlRecOn as _ init fun s hs x _ => before x s hs)) fun s hs x _ => after x s hs

/-! ### Cells that a landfall releases -/

/-- A cell at a landfall of ACLK `now`: one that waits for it issues its NEXT. -/
def Cell.atLandfall (now : Nat) (x : Cell) : Cell :=
  match x.mode with
  | .waitLandfall _ nx _ _ => if x.nextAt ≤ now then { x with mode := .run nx, nextAt := now } else x
  | _ => x

theorem Cell.atLandfall_of_waiting {now a nx : Nat} {q r : Bool} {x : Cell} (waits : x.mode = .waitLandfall a nx q r) (due : x.nextAt ≤ now) :
    x.atLandfall now = { x with mode := .run nx, nextAt := now } := by
  unfold Cell.atLandfall
  rw [waits]
  exact if_pos due

/-- One that runs goes on. -/
theorem Cell.atLandfall_of_running {now nx : Nat} {x : Cell} (runs : x.mode = .run nx) : x.atLandfall now = x := by
  unfold Cell.atLandfall
  rw [runs]

/-- The block without its isles. -/
def Dev.beyondIsles (d : Dev) : Dev := { d with isles := [] }

theorem Dev.regs_of_beyondIsles {d e : Dev} (h : e.beyondIsles = d.beyondIsles) : e.regs = d.regs := (congrArg Dev.regs h :)
theorem Dev.now_of_beyondIsles {d e : Dev} (h : e.beyondIsles = d.beyondIsles) : e.now = d.now := (congrArg Dev.now h :)

theorem Dev.rd_of_regs {d e : Dev} (h : e.regs = d.regs) (f : Fld) : e.rd f = d.rd f := by rw [Dev.rd, Dev.reg, h, ← Dev.reg, ← Dev.rd]

/-- What of an isle a landfall leaves: its contexts, its copies and its gating. -/
def Isle.still (i : Isle) : Tbl (BitVec 128) × Bool × Option Nat × Bool × Bool := (i.ctx, i.copy, i.copyEnd, i.gateLoad, i.gateFault)

/-- The cells of isle `n` at a landfall, the first `m` of them. -/
def Dev.cellsAtLandfall (n m : Nat) (d : Dev) : Dev := forUpTo m (fun c d => d.modCell n c (Cell.atLandfall d.now)) d

theorem Dev.isle_modCell_same (n c : Nat) (f : Cell → Cell) (d : Dev) : (d.modCell n c f).isle n = (d.isle n).setCell c (f ((d.isle n).cell c)) :=
  Dev.isle_setIsle_same ..

@[simp] theorem Dev.beyondIsles_setIsle (n : Nat) (i : Isle) (d : Dev) : (d.setIsle n i).beyondIsles = d.beyondIsles := rfl

theorem Dev.beyondIsles_cellsAtLandfall (n m : Nat) (d : Dev) : (d.cellsAtLandfall n m).beyondIsles = d.beyondIsles :=
  forUpTo_keeps Dev.beyondIsles m d fun _ _ _ => rfl

theorem Dev.isle_cellsAtLandfall_ne (n m : Nat) (d : Dev) {k : Nat} (h : k ≠ n) : (d.cellsAtLandfall n m).isle k = d.isle k :=
  forUpTo_keeps (fun d => d.isle k) m d fun _ _ d => d.isle_setIsle_ne _ h

theorem Dev.still_cellsAtLandfall (n m : Nat) (d : Dev) : ((d.cellsAtLandfall n m).isle n).still = (d.isle n).still :=
  forUpTo_keeps (fun d => (d.isle n).still) m d fun _ _ d => by rw [Dev.isle_modCell_same]; rfl

/-- Each cell meets the landfall once. -/
theorem Dev.cell_cellsAtLandfall (n m : Nat) (d : Dev) (c : Nat) :
    ((d.cellsAtLandfall n m).isle n).cell c = if c < m then ((d.isle n).cell c).atLandfall d.now else (d.isle n).cell c := by
  induction m with
  | zero => simp [Dev.cellsAtLandfall, forUpTo]
  | succ m ih =>
    have now : (d.cellsAtLandfall n m).now = d.now := Dev.now_of_beyondIsles (d.beyondIsles_cellsAtLandfall n m)
    have step : d.cellsAtLandfall n (m + 1) = (d.cellsAtLandfall n m).modCell n m (Cell.atLandfall (d.cellsAtLandfall n m).now) := forUpTo_succ ..
    rw [step, Dev.isle_modCell_same, now, Isle.cell, Isle.setCell]
    by_cases same : c = m
    · subst same
      rw [tget_tset_same, ih, if_neg (lt_irrefl c), if_pos (Nat.lt_succ_self c)]
    · rw [tget_tset_ne _ _ _ _ same, ← Isle.cell, ih]
      by_cases lower : c < m
      · rw [if_pos lower, if_pos (by omega)]
      · rw [if_neg lower, if_neg (by omega)]

/-- The saved cells of an isle note the landfall that they wait for. -/
def Isle.noteLandfall (i : Isle) : Isle :=
  { i with save := i.save.map (fun e => (e.1, e.2.map (fun (sl : SaveSlot) =>
      { sl with cells := sl.cells.map (fun q => if q.wait = 2 then { q with reached := true } else q) }))) }

@[simp] theorem Isle.still_noteLandfall (i : Isle) : i.noteLandfall.still = i.still := rfl
@[simp] theorem Isle.cell_noteLandfall (i : Isle) (c : Nat) : i.noteLandfall.cell c = i.cell c := rfl

theorem Dev.landfallCells_eq (n : Nat) (d : Dev) :
    d.landfallCells n = (d.cellsAtLandfall n 16).setIsle n ((d.cellsAtLandfall n 16).isle n).noteLandfall := rfl

theorem Dev.isle_landfallCells_same (n : Nat) (d : Dev) : (d.landfallCells n).isle n = ((d.cellsAtLandfall n 16).isle n).noteLandfall := by
  rw [Dev.landfallCells_eq, Dev.isle_setIsle_same]

theorem Dev.isle_landfallCells_ne (n : Nat) (d : Dev) {k : Nat} (h : k ≠ n) : (d.landfallCells n).isle k = d.isle k := by
  rw [Dev.landfallCells_eq, Dev.isle_setIsle_ne _ _ h, Dev.isle_cellsAtLandfall_ne _ _ _ h]

theorem Dev.beyondIsles_landfallCells (n : Nat) (d : Dev) : (d.landfallCells n).beyondIsles = d.beyondIsles := by
  rw [Dev.landfallCells_eq, Dev.beyondIsles_setIsle, Dev.beyondIsles_cellsAtLandfall]

theorem Dev.still_landfallCells (n k : Nat) (d : Dev) : ((d.landfallCells n).isle k).still = (d.isle k).still := by
  by_cases h : k = n
  · rw [h, Dev.isle_landfallCells_same, Isle.still_noteLandfall, Dev.still_cellsAtLandfall]
  · rw [Dev.isle_landfallCells_ne _ _ h]

theorem Dev.cell_landfallCells (n : Nat) (d : Dev) {c : Nat} (h : c < 16) :
    ((d.landfallCells n).isle n).cell c = ((d.isle n).cell c).atLandfall d.now := by
  rw [Dev.isle_landfallCells_same, Isle.cell_noteLandfall, Dev.cell_cellsAtLandfall, if_pos h]

/-! ### Every isle of the domain -/

/-- One turn of the landfall over the isles of domain `dom`. -/
def Dev.landfallTurn (dom n : Nat) (d : Dev) : Dev := if d.rd (IS_CFG_DOM n) = dom && d.isleLive n then d.landfallCells n else d

theorem Dev.landfallSync_eq (dom : Nat) (d : Dev) : d.landfallSync dom = forList (d.isles.map (fun e => e.1)) (Dev.landfallTurn dom) d := rfl

/-- What of the block the turns keep: all but the isles, and the contexts, copies and gating of each. -/
def Dev.afoot (d : Dev) : Dev × (Nat → Tbl (BitVec 128) × Bool × Option Nat × Bool × Bool) := (d.beyondIsles, fun k => (d.isle k).still)

theorem Dev.afoot_landfallTurn (dom n : Nat) (d : Dev) : (d.landfallTurn dom n).afoot = d.afoot := by
  unfold Dev.landfallTurn
  split
  · exact Prod.ext (d.beyondIsles_landfallCells n) (funext fun k => d.still_landfallCells n k)
  · rfl

theorem Dev.afoot_landfallSync (dom : Nat) (d : Dev) : (d.landfallSync dom).afoot = d.afoot := by
  rw [Dev.landfallSync_eq]
  exact forList_keeps Dev.afoot _ d fun n _ d => d.afoot_landfallTurn dom n

theorem Dev.isleLive_of_afoot {d e : Dev} (h : e.afoot = d.afoot) (n : Nat) : e.isleLive n = d.isleLive n := by
  have regs : e.regs = d.regs := Dev.regs_of_beyondIsles (congrArg Prod.fst h)
  have still : (e.isle n).still = (d.isle n).still := congrFun (congrArg Prod.snd h) n
  have load : (e.isle n).gateLoad = (d.isle n).gateLoad := congrArg (fun v => v.2.2.2.1) still
  have fault : (e.isle n).gateFault = (d.isle n).gateFault := congrArg (fun v => v.2.2.2.2) still
  rw [Dev.isleLive, Dev.domUp, Dev.reg, regs, load, fault, ← Dev.reg, ← Dev.domUp, ← Dev.isleLive]

theorem Dev.isle_landfallTurn_ne (dom n : Nat) (d : Dev) {k : Nat} (h : k ≠ n) : (d.landfallTurn dom n).isle k = d.isle k := by
  unfold Dev.landfallTurn
  split
  · exact d.isle_landfallCells_ne n h
  · rfl

/-- A live isle of the domain lets its cells meet the landfall. -/
theorem Dev.landfallTurn_of_live {dom n : Nat} {d : Dev} (inDomain : d.rd (IS_CFG_DOM n) = dom) (live : d.isleLive n = true) :
    d.landfallTurn dom n = d.landfallCells n := if_pos (by simp [inDomain, live])

/-- An isle that the block's table does not list is at its reset state. -/
theorem tget_of_not_mem {α : Type} (dflt : α) (t : Tbl α) {k : Nat} (h : k ∉ t.map (fun e => e.1)) : tget dflt t k = dflt := by
  induction t with
  | nil => rfl
  | cons e t ih =>
    obtain ⟨a, v⟩ := e
    simp only [List.map_cons, List.mem_cons, not_or] at h
    rw [tget, if_neg h.1, ih h.2]

/-- A cell that waits in a live isle of the domain runs on after the landfall, in the same registers. -/
theorem Dev.cell_landfallSync {dom i c a nx : Nat} {q r : Bool} {d : Dev} (lt : c < 16) (inDomain : d.rd (IS_CFG_DOM i) = dom) (live : d.isleLive i = true)
    (waits : ((d.isle i).cell c).mode = .waitLandfall a nx q r) (due : ((d.isle i).cell c).nextAt ≤ d.now) :
    ((d.landfallSync dom).isle i).cell c = { (d.isle i).cell c with mode := .run nx, nextAt := d.now } := by
  have listed : i ∈ d.isles.map (fun e => e.1) := by
    by_contra out
    rw [Dev.isle, tget_of_not_mem _ _ out] at waits
    exact absurd waits (by simp [Isle.cell, Isle.reset, tget, Cell.reset])
  have released : ((d.isle i).cell c).atLandfall d.now = { (d.isle i).cell c with mode := .run nx, nextAt := d.now } :=
    Cell.atLandfall_of_waiting waits due
  have turn : ∀ e : Dev, e.afoot = d.afoot → ((e.landfallTurn dom i).isle i).cell c = ((e.isle i).cell c).atLandfall d.now := fun e view => by
    have beyond : e.beyondIsles = d.beyondIsles := congrArg Prod.fst view
    rw [Dev.landfallTurn_of_live ((Dev.rd_of_regs (Dev.regs_of_beyondIsles beyond) _).trans inDomain) ((Dev.isleLive_of_afoot view i).trans live),
      Dev.cell_landfallCells _ _ lt, Dev.now_of_beyondIsles beyond]
  have again : (((d.isle i).cell c).atLandfall d.now).atLandfall d.now = ((d.isle i).cell c).atLandfall d.now := by
    rw [released]
    exact Cell.atLandfall_of_running rfl
  have other : ∀ n (e : Dev), i ≠ n → ((e.landfallTurn dom n).isle i).cell c = (e.isle i).cell c := fun n e ne => by
    rw [Dev.isle_landfallTurn_ne _ _ _ ne]
  rw [Dev.landfallSync_eq, ← released]
  refine (forList_pivot
    (fun e : Dev => e.afoot = d.afoot ∧ ((e.isle i).cell c = (d.isle i).cell c ∨ (e.isle i).cell c = ((d.isle i).cell c).atLandfall d.now))
    (fun e : Dev => e.afoot = d.afoot ∧ (e.isle i).cell c = ((d.isle i).cell c).atLandfall d.now) listed ⟨rfl, .inl rfl⟩ ?_ ?_ ?_).2
  · rintro n e ⟨view, cell⟩
    refine ⟨(e.afoot_landfallTurn dom n).trans view, ?_⟩
    by_cases same : i = n
    · subst same
      rcases cell with old | new
      · exact .inr ((turn e view).trans (by rw [old]))
      · exact .inr ((turn e view).trans (by rw [new, again]))
    · rwa [other n e same]
  · rintro e ⟨view, cell⟩
    refine ⟨(e.afoot_landfallTurn dom i).trans view, (turn e view).trans ?_⟩
    rcases cell with old | new
    · rw [old]
    · rw [new, again]
  · rintro n e ⟨view, cell⟩
    refine ⟨(e.afoot_landfallTurn dom n).trans view, ?_⟩
    by_cases same : i = n
    · subst same
      rw [turn e view, cell, again]
    · rw [other n e same, cell]

end Sys2Proof.Machine

/-! ## A change set among the slots of a landfall (R52, R55, R125) -/
namespace Sys2Proof.Machine

/-! ### What the other slots leave -/

/-- The registers of a mode-change slot other than `s`. -/
abbrev OtherSlot (s a : Nat) : Prop := 0x40010600 ≤ a ∧ a < 0x40010700 ∧ ¬ (0x40010600 + 0x20 * s ≤ a ∧ a < 0x40010620 + 0x20 * s)

/-- The units' registers but those of the slots other than `s`. -/
def Dev.slotRegs (s : Nat) (d : Dev) (a : Nat) : BitVec 32 := if OtherSlot s a then 0 else d.unitRegs a

/-- What of the block a slot other than `s` keeps when it is checked and applies with nothing staged. -/
def Dev.beside (s : Nat) (d : Dev) : Dev × (Nat → BitVec 32) × List Nat × List Staged :=
  ({ d.steady.1 with cfg := Cfg.reset, mem := [] }, d.slotRegs s, d.enabledBindings, d.cfg.staged)

theorem Dev.beside_of_outline {s : Nat} {d e : Dev} (h : e.outline = d.outline) : e.beside s = d.beside s := by
  have block : ({ e.steady.1 with cfg := Cfg.reset, mem := [] } : Dev) = { d.steady.1 with cfg := Cfg.reset, mem := [] } :=
    congrArg (fun p => { p.1.1 with mem := [] }) h
  have regs : e.unitRegs = d.unitRegs := congrArg (fun p => p.1.2.1) h
  have slots : e.slotRegs s = d.slotRegs s := by
    funext a
    unfold Dev.slotRegs
    rw [regs]
  have bindings : e.enabledBindings = d.enabledBindings := congrArg (fun p => p.1.2.2) h
  rw [Dev.beside, block, slots, bindings, Dev.staged_of_outline h, Dev.beside]

theorem Dev.beside_of_steady {s : Nat} {d e : Dev} (h : e.steady = d.steady) : e.beside s = d.beside s := Dev.beside_of_outline (Dev.outline_of_steady h)

section
variable {s : Nat} {d e : Dev} (h : e.beside s = d.beside s)
include h

theorem Dev.reg_of_beside {a : Nat} (on : ¬ OffUnits a) (own : ¬ OtherSlot s a) : e.reg a = d.reg a := by
  have slots : e.slotRegs s = d.slotRegs s := congrArg (fun p => p.2.1) h
  have at_ := congrFun slots a
  rwa [Dev.slotRegs, Dev.slotRegs, if_neg own, if_neg own, Dev.unitRegs, Dev.unitRegs, if_neg on, if_neg on] at at_

theorem Dev.ang_of_beside : e.ang = d.ang := congrArg (fun p => p.1.ang) h
theorem Dev.now_of_beside : e.now = d.now := congrArg (fun p => p.1.now) h
theorem Dev.power_of_beside : e.power = d.power := congrArg (fun p => p.1.power) h
theorem Dev.isles_of_beside : e.isles = d.isles := congrArg (fun p => p.1.isles) h
theorem Dev.staged_of_beside : e.cfg.staged = d.cfg.staged := congrArg (fun p => p.2.2.2) h
theorem Dev.bindings_of_beside : e.enabledBindings = d.enabledBindings := congrArg (fun p => p.2.2.1) h

theorem Dev.isle_of_beside (n : Nat) : e.isle n = d.isle n := by rw [Dev.isle, Dev.isles_of_beside h, ← Dev.isle]
theorem Dev.stagedOn_of_beside (k : Nat) : e.stagedOn k = d.stagedOn k := by rw [Dev.stagedOn, Dev.staged_of_beside h, ← Dev.stagedOn]

end

/-- A write of another slot's register. -/
theorem Dev.beside_setReg_other (s : Nat) (d : Dev) {a : Nat} (v : BitVec 32) (other : OtherSlot s a) : (d.setReg a v).beside s = d.beside s := by
  have regs : (d.setReg a v).slotRegs s = d.slotRegs s := by
    funext b
    unfold Dev.slotRegs Dev.unitRegs
    by_cases same : b = a
    · rw [if_pos (same ▸ other), if_pos (same ▸ other)]
    · rw [Dev.reg_setReg_ne _ _ same]
  have bindings : (d.setReg a v).enabledBindings = d.enabledBindings := by
    refine filterMap_tset_of_unread (fun w => if_neg ?_) _ d.regs v
    rintro ⟨low, -⟩
    simp only [AHD_TBb_ID] at low
    omega
  have steady : ({ (d.setReg a v).steady.1 with cfg := Cfg.reset, mem := [] } : Dev) = { d.steady.1 with cfg := Cfg.reset, mem := [] } := rfl
  have staged : (d.setReg a v).cfg.staged = d.cfg.staged := by rw [Dev.cfg_setReg]
  rw [Dev.beside, steady, regs, bindings, staged, Dev.beside]

theorem Dev.beside_wr_other (s : Nat) (d : Dev) (f : Fld) (v : Nat) (other : OtherSlot s f.addr) : (d.wr f v).beside s = d.beside s :=
  d.beside_setReg_other s _ other

theorem Dev.beside_wr64_other (s : Nat) (d : Dev) {lo hi : Nat} (v : BitVec 64) (low : OtherSlot s lo) (high : OtherSlot s hi) :
    (d.wr64 lo hi v).beside s = d.beside s := (Dev.beside_setReg_other s _ _ high).trans (d.beside_setReg_other s _ low)

/-- A slot with nothing staged drops nothing. -/
theorem Dev.dropStaged_staged {k : Nat} {d : Dev} (none : d.stagedOn k = []) : (d.dropStaged k).cfg.staged = d.cfg.staged := by
  have each : ∀ u ∈ d.cfg.staged, ¬ u.slot = k := by simpa [Dev.stagedOn, List.filter_eq_nil_iff] using none
  exact List.filter_eq_self.mpr fun u mem => by simpa using each u mem

theorem Dev.outline_dropStaged {k : Nat} {d : Dev} (none : d.stagedOn k = []) : (d.dropStaged k).outline = d.outline :=
  d.outline_withCfg (c := (d.dropStaged k).cfg) (Dev.dropStaged_staged none)

/-! ### Applying -/

/-- The slot as a set that has applied leaves it. -/
def Dev.slotApplied (s : Nat) (d : Dev) : Dev := ((d.dropStaged s).wr (AU_MCs_STAT_STATE s) 3).wr (AU_MCs_CTL_ARM s) 0

/-- Where the ICP drives slot `s`, it ends. -/
def Dev.icpApplied (s : Nat) (d : Dev) : Dev :=
  if d.icpOn s then
    let e := ((d.wr CF_ICP_STAT_STATE 5).wr CF_ICP_STAT_CODE 0).claimsApply.writeReference
    (e.withCfg { e.cfg with icp := Icp.reset }).cmdDone 0x201 0 0xFF ((e.withCfg { e.cfg with icp := Icp.reset }).icpResult s)
  else d

/-- The isles among staged units. -/
def islesOf (us : List Staged) : List Nat := us.filterMap (fun u => if u.unit < 96 then some u.unit else none)

theorem Dev.mcApply_eq (s : Nat) (d : Dev) : d.mcApply s =
    ((forList (((islesOf (d.stagedOn s)).flatMap d.tasksOf).eraseDups) Dev.landfallTask (forList (d.stagedOn s) Dev.applyUnit d)).slotApplied s).icpApplied s :=
  rfl

/-- The block without its memory, in which the integrity unit's tables may differ. -/
theorem Dev.beside_withMem (s : Nat) (d : Dev) (m : List Host.Cell) (i : Integ) : ({ d with mem := m, integ := i } : Dev).beside s = d.beside s := rfl

theorem Dev.beside_setByte (s : Nat) (d : Dev) (a : Nat) (v : BitVec 8) : (d.setByte a v).beside s = d.beside s := rfl

theorem Dev.steady_frameWritten (a : Nat) (d : Dev) : (d.frameWritten a).steady = d.steady := by
  unfold Dev.frameWritten
  split <;> rfl

theorem Dev.beside_writeReference (s : Nat) (d : Dev) : d.writeReference.beside s = d.beside s := by
  unfold Dev.writeReference
  dsimp only
  rw [Dev.eccWrite, Dev.beside_of_steady (Dev.steady_codeWrite _ _), Dev.beside_of_steady (Dev.steady_frameWritten _ _)]
  refine (forList_keeps (Dev.beside s) _ _ fun (b : Nat × BitVec 8) _ e => e.beside_setByte s b.1 b.2).trans ?_
  exact d.beside_withMem s _ _

theorem Dev.outline_claimsApply (d : Dev) : d.claimsApply.outline = d.outline := d.outline_withCfg (c := d.claimsApply.cfg) rfl

theorem Dev.beside_icpApplied (s k : Nat) (d : Dev) : (d.icpApplied k).beside s = d.beside s := by
  unfold Dev.icpApplied
  split
  · dsimp only
    rw [Dev.beside_of_outline (Dev.outline_cmdDone _ _ _ _ _), Dev.beside_of_outline (Dev.outline_icpIdle _), Dev.beside_writeReference]
    refine Dev.beside_of_outline ?_
    rw [Dev.outline_claimsApply, Dev.outline_wr _ _ _ (by decide), Dev.outline_wr _ _ _ (by decide)]
  · rfl

/-- Nothing staged, nothing applied but the slot itself. -/
theorem Dev.beside_mcApply_other {s k : Nat} {d : Dev} (slot : k < 8) (ne : k ≠ s) (none : d.stagedOn k = []) : (d.mcApply k).beside s = d.beside s := by
  rw [Dev.mcApply_eq, Dev.beside_icpApplied, none, Dev.slotApplied, Dev.beside_wr_other _ _ _ _ (by grind), Dev.beside_wr_other _ _ _ _ (by grind)]
  exact Dev.beside_of_outline (Dev.outline_dropStaged none)

theorem Dev.beside_mcCheck_other {s k : Nat} {d : Dev} (slot : k < 8) (ne : k ≠ s) (none : d.stagedOn k = []) : (d.mcCheck k).beside s = d.beside s := by
  unfold Dev.mcCheck
  split
  · exact d.beside_wr_other s _ _ (by grind)
  · split
    · rw [Dev.beside_of_outline (d.outline_mcAbandon _ _ _), none, Dev.slotAbandoned, Dev.beside_wr_other _ _ _ _ (by grind),
        Dev.beside_wr_other _ _ _ _ (by grind), Dev.beside_wr_other _ _ _ _ (by grind)]
      exact Dev.beside_of_outline (Dev.outline_dropStaged none)
    · dsimp only
      rw [Dev.beside_wr_other _ _ _ _ (by grind), Dev.beside_wr64_other _ _ _ (by grind) (by grind)]

/-! ### The turns of the slots -/

/-- The turn of slot `s` at a landfall of domain `n`. -/
def Dev.landfallSlot (n s : Nat) (d : Dev) : Dev :=
  if d.rd (AU_MCs_CTL_DOM s) = n then
    let e := if d.rd (AU_MCs_STAT_STATE s) = 1 && d.mcReached s then d.mcCheck s else d
    if e.rd (AU_MCs_STAT_STATE s) = 2 && e.mcReached s then e.mcApply s else e
  else d

theorem Dev.landfall_of_none {n : Nat} {d : Dev} (none : d.passedLandfall n = none) : d.landfall n = d := by
  unfold Dev.landfall
  rw [none]

theorem Dev.landfall_of_passed {n : Nat} {l : BitVec 80} {d : Dev} (passed : d.passedLandfall n = some l) : d.landfall n =
    let e := (((forUpTo 8 (Dev.landfallSlot n) d).landfallSync n).snapLandfalls n).rbLandfall n l
    e.setAd n { e.ad n with lfDone := true } := by
  unfold Dev.landfall
  rw [passed]
  rfl

/-- A slot that is neither armed nor committed, or of another domain, has no turn. -/
theorem Dev.landfallSlot_of_idle {n s : Nat} {d : Dev} (idle : d.rd (AU_MCs_CTL_DOM s) = n → d.rd (AU_MCs_STAT_STATE s) ≠ 1 ∧ d.rd (AU_MCs_STAT_STATE s) ≠ 2) :
    d.landfallSlot n s = d := by
  unfold Dev.landfallSlot
  split
  · next dom =>
    obtain ⟨notArmed, notCommitted⟩ := idle dom
    simp [notArmed, notCommitted]
  · rfl

/-- A committed slot that its domain reaches applies in its turn. -/
theorem Dev.landfallSlot_of_committed {n s : Nat} {d : Dev} (dom : d.rd (AU_MCs_CTL_DOM s) = n) (committed : d.rd (AU_MCs_STAT_STATE s) = 2)
    (reached : d.mcReached s = true) : d.landfallSlot n s = d.mcApply s := by
  unfold Dev.landfallSlot
  rw [if_pos dom]
  simp [committed, reached]

theorem Dev.beside_landfallSlot_other {n s k : Nat} {d : Dev} (slot : k < 8) (ne : k ≠ s) (none : d.stagedOn k = []) :
    (d.landfallSlot n k).beside s = d.beside s := by
  have checked : (if d.rd (AU_MCs_STAT_STATE k) = 1 && d.mcReached k then d.mcCheck k else d).beside s = d.beside s := by
    split
    · exact Dev.beside_mcCheck_other slot ne none
    · rfl
  unfold Dev.landfallSlot
  split
  · dsimp only
    generalize (if d.rd (AU_MCs_STAT_STATE k) = 1 && d.mcReached k then d.mcCheck k else d) = e at *
    split
    · exact (Dev.beside_mcApply_other slot ne ((Dev.stagedOn_of_beside checked k).trans none)).trans checked
    · exact checked
  · rfl

end Sys2Proof.Machine

/-! ## What a landfall does (R52, R116, R125, R466) -/
namespace Sys2Proof.Machine

/-! ### The isle that applies its change -/

/-- An enabled binding is one of the 128. -/
theorem Dev.lt_of_mem_enabledBindings {d : Dev} {b : Nat} (mem : b ∈ d.enabledBindings) : b < 128 := by
  obtain ⟨e, -, some⟩ := List.mem_filterMap.mp mem
  split at some
  · next in_ =>
    obtain ⟨low, high, -⟩ := in_
    simp only [AHD_TBb_ID] at low high some
    simp only [Option.some.injEq] at some
    omega
  · simp at some

section
variable {s : Nat} {d e : Dev} (h : e.beside s = d.beside s)
include h

theorem Dev.tasksOf_of_beside (n : Nat) : e.tasksOf n = d.tasksOf n := by
  have reg : ∀ b ∈ d.enabledBindings, e.reg (AHD_TBb_ID b) = d.reg (AHD_TBb_ID b) := fun b mem => by
    have lt := Dev.lt_of_mem_enabledBindings mem
    exact Dev.reg_of_beside h (by grind) (by grind)
  have isle : ∀ b ∈ d.enabledBindings, e.rd (AHD_TBb_ID_ISLE b) = d.rd (AHD_TBb_ID_ISLE b) := fun b mem => Dev.rd_eq (reg b mem)
  have task : ∀ b ∈ d.enabledBindings, e.rd (AHD_TBb_ID_TASK b) = d.rd (AHD_TBb_ID_TASK b) := fun b mem => Dev.rd_eq (reg b mem)
  have filters : d.enabledBindings.filter (fun b => e.rd (AHD_TBb_ID_ISLE b) = n) = d.enabledBindings.filter (fun b => d.rd (AHD_TBb_ID_ISLE b) = n) :=
    List.filter_congr fun b mem => by rw [isle b mem]
  have maps : (d.enabledBindings.filter (fun b => d.rd (AHD_TBb_ID_ISLE b) = n)).map (fun b => e.rd (AHD_TBb_ID_TASK b)) =
      (d.enabledBindings.filter (fun b => d.rd (AHD_TBb_ID_ISLE b) = n)).map (fun b => d.rd (AHD_TBb_ID_TASK b)) :=
    List.map_congr_left fun b mem => task b (List.mem_of_mem_filter mem)
  rw [Dev.tasksOf, Dev.bindings_of_beside h, filters, maps, ← Dev.tasksOf]

theorem Dev.mcReached_of_beside (slot : s < 8) : e.mcReached s = d.mcReached s := by
  have dom : e.rd (AU_MCs_CTL_DOM s) = d.rd (AU_MCs_CTL_DOM s) := Dev.rd_eq (Dev.reg_of_beside h (by grind) (by grind))
  have lt : d.rd (AU_MCs_CTL_DOM s) < 8 := d.rd_lt _
  have lo : e.reg (AU_MCs_LF_LO s) = d.reg (AU_MCs_LF_LO s) := Dev.reg_of_beside h (by grind) (by grind)
  have hi : e.reg (AU_MCs_LF_HI s) = d.reg (AU_MCs_LF_HI s) := Dev.reg_of_beside h (by grind) (by grind)
  have target : e.mcTarget s = d.mcTarget s := by rw [Dev.mcTarget, Dev.rd64_eq lo hi, ← Dev.mcTarget]
  have cfg : e.reg (AU_ADn_CFG (d.rd (AU_MCs_CTL_DOM s))) = d.reg (AU_ADn_CFG (d.rd (AU_MCs_CTL_DOM s))) :=
    Dev.reg_of_beside h (by grind) (by grind)
  have rev : e.adRev (d.rd (AU_MCs_CTL_DOM s)) = d.adRev (d.rd (AU_MCs_CTL_DOM s)) := by
    rw [Dev.adRev, Dev.on, Dev.rd_eq (f := AU_ADn_CFG_DIR (d.rd (AU_MCs_CTL_DOM s))) cfg, ← Dev.on, ← Dev.adRev]
  rw [Dev.mcReached, Dev.mcReached, dom, rev, target, Dev.ad_eq (congrArg Angle.ad (Dev.ang_of_beside h))]

theorem Dev.step_of_beside (n : Nat) : e.step n = d.step n := by rw [Dev.step, Dev.power_of_beside h, ← Dev.step]

end

/-- The one isle that staged a change for the slot swaps its copies when the slot applies. -/
theorem Dev.beside_mcApply_isle {s i : Nat} {d : Dev} (isle : i < 96)
    (staged : d.cfg.staged = [{ unit := i, slot := s, loaded := false, csr := [], seeds := [] }]) (noTasks : d.tasksOf i = []) :
    (d.mcApply s).beside s = ((d.swapIsle i).slotApplied s).beside s := by
  have us : d.stagedOn s = [{ unit := i, slot := s, loaded := false, csr := [], seeds := [] }] := by simp [Dev.stagedOn, staged]
  have isles : islesOf (d.stagedOn s) = [i] := by simp [us, islesOf, isle]
  have tasks : ([i].flatMap d.tasksOf).eraseDups = [] := by simp [noTasks]
  have unit : forList (d.stagedOn s) Dev.applyUnit d = d.swapIsle i := by
    rw [us, forList, List.foldl_cons, List.foldl_nil, Dev.applyUnit, if_pos isle]
    rfl
  rw [Dev.mcApply_eq, Dev.beside_icpApplied, isles, tasks, unit]
  rfl

/-- What the swap shows. -/
theorem Dev.swapIsle_spec (i : Nat) (d : Dev) :
    ((d.swapIsle i).isle i).copy = !(d.isle i).copy ∧ ((d.swapIsle i).isle i).copyEnd = some (d.now + 256 * d.step i) ∧
    ((d.swapIsle i).isle i).ctx = (d.isle i).ctx ∧ (d.swapIsle i).rd (IS_STAT_SYNC i) = 1 ∧ (d.swapIsle i).ang = d.ang ∧
    (d.swapIsle i).cfg = d.cfg := by
  unfold Dev.swapIsle
  dsimp only
  refine ⟨?_, ?_, ?_, ?_, ?_, ?_⟩
  · rw [Dev.isle_wr, Dev.isle_wr, Dev.isle_setIsle_same]
  · rw [Dev.isle_wr, Dev.isle_wr, Dev.isle_setIsle_same]
  · rw [Dev.isle_wr, Dev.isle_wr, Dev.isle_setIsle_same]
  · rw [Dev.rd_wr_same] <;> simp
  · rw [Dev.ang_wr, Dev.ang_wr, Dev.ang_setIsle]
  · rw [Dev.cfg_wr, Dev.cfg_wr]; rfl

/-- What a slot that has applied shows. -/
theorem Dev.slotApplied_spec (s : Nat) (d : Dev) :
    (d.slotApplied s).rd (AU_MCs_STAT_STATE s) = 3 ∧ (d.slotApplied s).cfg.staged = d.cfg.staged.filter (fun u => u.slot ≠ s) ∧
    (d.slotApplied s).ang = d.ang ∧ (d.slotApplied s).isles = d.isles := by
  unfold Dev.slotApplied
  refine ⟨?_, ?_, ?_, ?_⟩
  · rw [Dev.rd_wr_ne _ _ _ _ (by grind), Dev.rd_wr_same _ _ _ (by simp) (by simp)]
    rfl
  · rw [Dev.cfg_wr, Dev.cfg_wr]; rfl
  · rw [Dev.ang_wr, Dev.ang_wr]; rfl
  · rw [Dev.isles_wr, Dev.isles_wr]; rfl

theorem Dev.reg_slotApplied_ne (s : Nat) (d : Dev) {a : Nat} (stat : a ≠ AU_MCs_STAT s) (ctl : a ≠ AU_MCs_CTL s) :
    (d.slotApplied s).reg a = d.reg a := (Dev.reg_wr_ne _ _ _ ctl).trans (Dev.reg_wr_ne _ _ _ stat)

/-- Slot `s` of the block `d` has applied in isle `i`. -/
def Dev.AppliedIn (d : Dev) (s i : Nat) (e : Dev) : Prop :=
  e.rd (AU_MCs_STAT_STATE s) = 3 ∧ e.cfg.staged = [] ∧ e.ang = d.ang ∧ (e.isle i).copy = !(d.isle i).copy ∧
  (e.isle i).copyEnd = some (d.now + 256 * d.step i) ∧ (e.isle i).ctx = (d.isle i).ctx ∧ e.rd (IS_STAT_SYNC i) = 1

theorem Dev.appliedIn_of_beside {s i : Nat} {d x e : Dev} (slot : s < 8) (isle : i < 96)
    (staged : d.cfg.staged = [{ unit := i, slot := s, loaded := false, csr := [], seeds := [] }]) (same : x.beside s = d.beside s)
    (view : e.beside s = ((x.swapIsle i).slotApplied s).beside s) : d.AppliedIn s i e := by
  obtain ⟨state, dropped, ang, isles⟩ := (x.swapIsle i).slotApplied_spec s
  obtain ⟨copy, copyEnd, ctx, sync, keptAng, keptCfg⟩ := x.swapIsle_spec i
  have stat : e.reg (AU_MCs_STAT s) = ((x.swapIsle i).slotApplied s).reg (AU_MCs_STAT s) := Dev.reg_of_beside view (by grind) (by grind)
  have isStat : e.reg (IS_STAT i) = (x.swapIsle i).reg (IS_STAT i) :=
    (Dev.reg_of_beside view (by grind) (by grind)).trans (Dev.reg_slotApplied_ne _ _ (by grind) (by grind))
  have isleIs : e.isle i = (x.swapIsle i).isle i := by
    rw [Dev.isle_of_beside view, Dev.isle, isles, ← Dev.isle]
  refine ⟨?_, ?_, ?_, ?_, ?_, ?_, ?_⟩
  · rw [Dev.rd_eq stat, state]
  · rw [Dev.staged_of_beside view, dropped, keptCfg, Dev.staged_of_beside same, staged]
    simp
  · rw [Dev.ang_of_beside view, ang, keptAng, Dev.ang_of_beside same]
  · rw [isleIs, copy, Dev.isle_of_beside same]
  · rw [isleIs, copyEnd, Dev.now_of_beside same, Dev.step_of_beside same]
  · rw [isleIs, ctx, Dev.isle_of_beside same]
  · rw [Dev.rd_eq isStat, sync]

/-- The slots of a landfall let the one slot with a staged isle apply it. -/
theorem Dev.applied_landfallSlots {n s i : Nat} {d : Dev} (slot : s < 8) (isle : i < 96) (dom : d.rd (AU_MCs_CTL_DOM s) = n)
    (committed : d.rd (AU_MCs_STAT_STATE s) = 2) (reached : d.mcReached s = true)
    (staged : d.cfg.staged = [{ unit := i, slot := s, loaded := false, csr := [], seeds := [] }]) (noTasks : d.tasksOf i = []) :
    d.AppliedIn s i (forUpTo 8 (Dev.landfallSlot n) d) := by
  have nothing : ∀ k, k ≠ s → ∀ e : Dev, (∀ u ∈ e.cfg.staged, u ∈ d.cfg.staged) → e.stagedOn k = [] := fun k ne e sub => by
    refine List.filter_eq_nil_iff.mpr fun u mem => ?_
    have only := sub u mem
    rw [staged, List.mem_singleton] at only
    simp [only, ne.symm]
  have others : ∀ k, k < 8 → k ≠ s → ∀ e : Dev, (∀ u ∈ e.cfg.staged, u ∈ d.cfg.staged) → (e.landfallSlot n k).beside s = e.beside s :=
    fun k lt ne e sub => Dev.beside_landfallSlot_other lt ne (nothing k ne e sub)
  obtain ⟨x, same, view⟩ : ∃ x : Dev, x.beside s = d.beside s ∧
      (forUpTo 8 (Dev.landfallSlot n) d).beside s = ((x.swapIsle i).slotApplied s).beside s := by
    refine forUpTo_pivot (fun e : Dev => e.beside s = d.beside s)
      (fun e : Dev => ∃ x : Dev, x.beside s = d.beside s ∧ e.beside s = ((x.swapIsle i).slotApplied s).beside s) slot rfl ?before ?turn ?after
    case before =>
      intro k lt e view
      exact (others k (by omega) (by omega) e fun u mem => Dev.staged_of_beside view ▸ mem).trans view
    case turn =>
      intro e view
      have stat : e.reg (AU_MCs_STAT s) = d.reg (AU_MCs_STAT s) := Dev.reg_of_beside view (by grind) (by grind)
      have ctl : e.reg (AU_MCs_CTL s) = d.reg (AU_MCs_CTL s) := Dev.reg_of_beside view (by grind) (by grind)
      refine ⟨e, view, ?_⟩
      rw [Dev.landfallSlot_of_committed ((Dev.rd_eq ctl).trans dom) ((Dev.rd_eq stat).trans committed) ((Dev.mcReached_of_beside view slot).trans reached)]
      exact Dev.beside_mcApply_isle isle ((Dev.staged_of_beside view).trans staged) ((Dev.tasksOf_of_beside view i).trans noTasks)
    case after =>
      rintro k above lt e ⟨x, same, view⟩
      obtain ⟨-, empty, -⟩ := Dev.appliedIn_of_beside slot isle staged same view
      exact ⟨x, same, (others k lt (by omega) e fun u mem => by simp [empty] at mem).trans view⟩
  exact Dev.appliedIn_of_beside slot isle staged same view

/-! ### After the slots -/

/-- What the release of the cells and the latching of records leave of isle `i` and of the block. -/
theorem Dev.landfall_rest (n : Nat) (l : BitVec 80) (e : Dev) :
    ((((e.landfallSync n).snapLandfalls n).rbLandfall n l)).standing = (e.landfallSync n).standing := by
  rw [Dev.standing_rbLandfall, Dev.standing_snapLandfalls]

/-! ### The copy-back -/

/-- A filter on keys that keeps the key in question. -/
theorem tget_filter {α : Type} (dflt : α) (p : Nat → Bool) (t : Tbl α) {k : Nat} (keep : p k = true) :
    tget dflt (t.filter (fun e => p e.1)) k = tget dflt t k := by
  induction t with
  | nil => rfl
  | cons e t ih =>
    obtain ⟨a, v⟩ := e
    by_cases same : k = a
    · subst same
      simp [keep, tget]
    · by_cases pa : p a = true
      · simp [pa, tget, same, ih]
      · simp [pa, tget, same, ih]

/-- A table copied over to another key in each of its entries. -/
def copyTo {α : Type} (move : Nat → Nat) (src dst : Tbl α) : Tbl α := src.foldl (fun t e => tput t (move e.1) e.2) dst

/-- A key that no entry moves to reads as before. -/
theorem tget_copyTo_ne {α : Type} (dflt : α) (move : Nat → Nat) (src dst : Tbl α) {k : Nat} (away : ∀ e ∈ src, move e.1 ≠ k) :
    tget dflt (copyTo move src dst) k = tget dflt dst k := by
  induction src generalizing dst with
  | nil => rfl
  | cons e src ih =>
    have rest := ih (tput dst (move e.1) e.2) fun x mem => away x (List.mem_cons_of_mem _ mem)
    rw [copyTo, List.foldl_cons, ← copyTo, rest, tget_tput_ne _ _ _ (away e (List.mem_cons_self ..)).symm]

/-- Where the moved keys are apart, an entry reads at its new key what it read at its own; where there is none, what was there. -/
theorem tget_copyTo {α : Type} (dflt : α) (move : Nat → Nat) (src dst : Tbl α) {k : Nat} (sorted : tsorted none src = true)
    (apart : ∀ e ∈ src, move e.1 = move k → e.1 = k) : tget dflt (copyTo move src dst) (move k) = tget (tget dflt dst (move k)) src k := by
  induction src generalizing dst with
  | nil => rfl
  | cons e src ih =>
    obtain ⟨a, v⟩ := e
    obtain ⟨tail, above⟩ := (tsorted_cons_iff a v src).mp sorted
    have rest := ih (tput dst (move a) v) tail fun x mem => apart x (List.mem_cons_of_mem _ mem)
    rw [copyTo, List.foldl_cons, ← copyTo, tget]
    by_cases same : k = a
    · subst same
      have gone : ∀ x ∈ src, move x.1 ≠ move k := fun x mem eq => by
        have := above x mem
        have := apart x (List.mem_cons_of_mem _ mem) eq
        omega
      rw [if_pos rfl, tget_copyTo_ne _ _ _ _ gone, tget_tput_same]
    · have other : move k ≠ move a := fun eq => same (apart (a, v) (List.mem_cons_self ..) eq.symm).symm
      rw [if_neg same, rest, tget_tput_ne _ _ _ other]

/-- The half of the contexts that copy `b` holds. -/
def halfOf (b : Bool) : Nat := if b then 1 else 0

theorem Isle.ctx_copyBack (i : Isle) : i.copyBack.ctx =
    copyTo (fun k => halfOf (!i.copy) * 256 + k % 256) (i.ctx.filter (fun e => e.1 / 256 = halfOf i.copy)) (i.ctx.filter (fun e => e.1 / 256 = halfOf i.copy)) := by
  cases h : i.copy <;> simp [Isle.copyBack, copyTo, halfOf, h]

@[simp] theorem Isle.copy_copyBack (i : Isle) : i.copyBack.copy = i.copy := rfl
@[simp] theorem Isle.cells_copyBack (i : Isle) : i.copyBack.cells = i.cells := rfl
@[simp] theorem Isle.copyEnd_copyBack (i : Isle) : i.copyBack.copyEnd = none := rfl

theorem tsorted_filter {α : Type} (p : Nat × α → Bool) (t : Tbl α) (h : tsorted none t = true) : tsorted none (t.filter p) = true := by
  induction t with
  | nil => rfl
  | cons e t ih =>
    obtain ⟨a, v⟩ := e
    obtain ⟨tail, above⟩ := (tsorted_cons_iff a v t).mp h
    by_cases keep : p (a, v) = true
    · rw [List.filter_cons_of_pos keep, tsorted_cons_iff]
      exact ⟨ih tail, fun x mem => above x (List.mem_of_mem_filter mem)⟩
    · rw [List.filter_cons_of_neg keep]
      exact ih tail

/-- A context word lies in the half that its copy names. -/
theorem Isle.ctxWord_eq (i : Isle) (staging : Bool) (c x : Nat) :
    i.ctxWord staging c x = tget 0#128 i.ctx (halfOf (i.copy != staging) * 256 + (c * 16 + x)) := by
  cases h : (i.copy != staging) <;> simp [Isle.ctxWord, halfOf, h, Nat.add_assoc]

section
variable {i : Isle} {k : Nat} (lt : k < 256)
include lt

/-- The active half stays in the copy-back. -/
theorem Isle.active_copyBack : tget 0#128 i.copyBack.ctx (halfOf i.copy * 256 + k) = tget 0#128 i.ctx (halfOf i.copy * 256 + k) := by
  have half : (halfOf i.copy * 256 + k) / 256 = halfOf i.copy := by omega
  rw [Isle.ctx_copyBack, tget_copyTo_ne, tget_filter _ (fun a => a / 256 = halfOf i.copy) _ (by simp [half])]
  intro e _
  have low : e.1 % 256 < 256 := Nat.mod_lt _ (by decide)
  cases i.copy <;> simp [halfOf] <;> omega

/-- The staging half takes it. -/
theorem Isle.staging_copyBack (sorted : tsorted none i.ctx = true) :
    tget 0#128 i.copyBack.ctx (halfOf (!i.copy) * 256 + k) = tget 0#128 i.ctx (halfOf i.copy * 256 + k) := by
  have half : (halfOf i.copy * 256 + k) / 256 = halfOf i.copy := by omega
  have low : (halfOf i.copy * 256 + k) % 256 = k := by omega
  have apart : ∀ e ∈ i.ctx.filter (fun e => e.1 / 256 = halfOf i.copy),
      halfOf (!i.copy) * 256 + e.1 % 256 = halfOf (!i.copy) * 256 + (halfOf i.copy * 256 + k) % 256 → e.1 = halfOf i.copy * 256 + k := by
    intro e mem eq
    have same : e.1 / 256 = halfOf i.copy := by simpa using (List.mem_filter.mp mem).2
    omega
  have copied := tget_copyTo 0#128 (fun k => halfOf (!i.copy) * 256 + k % 256) (i.ctx.filter (fun e => e.1 / 256 = halfOf i.copy))
    (i.ctx.filter (fun e => e.1 / 256 = halfOf i.copy)) (tsorted_filter _ _ sorted) apart
  have empty : tget 0#128 (i.ctx.filter (fun e => e.1 / 256 = halfOf i.copy)) (halfOf (!i.copy) * 256 + k) = 0#128 := by
    refine tget_of_not_mem _ _ fun mem => ?_
    obtain ⟨e, inHalf, eq⟩ := List.mem_map.mp mem
    have same : e.1 / 256 = halfOf i.copy := by simpa using (List.mem_filter.mp inHalf).2
    have : halfOf (!i.copy) ≠ halfOf i.copy := by cases i.copy <;> decide
    omega
  simp only [low] at copied
  rw [Isle.ctx_copyBack, copied, empty, tget_filter _ (fun a => a / 256 = halfOf i.copy) _ (by simp [half])]

end

/-- Both copies of an isle read the active words after the copy-back. -/
theorem Isle.ctxWord_copyBack {i : Isle} (sorted : tsorted none i.ctx = true) {c x : Nat} (staging : Bool) (lt : c * 16 + x < 256) :
    i.copyBack.ctxWord staging c x = i.ctxWord false c x := by
  rw [Isle.ctxWord_eq, Isle.ctxWord_eq, Isle.copy_copyBack, Bool.bne_false]
  cases staging with
  | false => rw [Bool.bne_false]; exact Isle.active_copyBack lt
  | true => rw [Bool.bne_true]; exact Isle.staging_copyBack lt sorted

/-- Isle `n` as the end of its copy-back leaves it. -/
def Dev.copiedBack (n : Nat) (d : Dev) : Dev :=
  ((d.clearCfgErr n (!(d.isle n).copy)).setIsle n (d.isle n).copyBack).wr (IS_STAT_SYNC n) 0

/-- A frame that the copy-back has rewritten is noted. -/
def Dev.noteRewrite (n : Nat) (d : Dev) : Dev :=
  if d.integ.cbRep.contains n then (d.withInteg { d.integ with cbRep := d.integ.cbRep.filter (fun i => i ≠ n) }).setFlag MI_STAT_CFGREP else d

/-- An isle whose repair waited for the copy-back leaves its gating. -/
def Dev.endRepair (n : Nat) (d : Dev) : Dev :=
  match takeFirst (fun (r : Repair) => r.unit = n && r.kind = 4) d.ev.repairs with
  | some (_, rest) => (d.withEvents d.conEvents { d.ev with repairs := rest }).ungate n
  | none => d

theorem Dev.copyback_of_ended {n m : Nat} {d : Dev} (running : (d.isle n).copyEnd = some m) (ended : m ≤ d.now) :
    d.copyback n = ((d.copiedBack n).noteRewrite n).endRepair n := by
  unfold Dev.copyback
  rw [running]
  exact if_neg (by omega)

theorem takeFirst_of_none {α : Type} {p : α → Bool} {xs : List α} (h : ∀ x ∈ xs, p x = false) : takeFirst p xs = none := by
  induction xs with
  | nil => rfl
  | cons x xs ih => simp [takeFirst, h x (List.mem_cons_self ..), ih fun y mem => h y (List.mem_cons_of_mem _ mem)]

theorem Dev.isle_copiedBack_same (n : Nat) (d : Dev) : (d.copiedBack n).isle n = (d.isle n).copyBack := by
  rw [Dev.copiedBack, Dev.isle_wr, Dev.isle_setIsle_same]

theorem Dev.isle_copiedBack_ne (n : Nat) (d : Dev) {k : Nat} (h : k ≠ n) : (d.copiedBack n).isle k = d.isle k := by
  rw [Dev.copiedBack, Dev.isle_wr, Dev.isle_setIsle_ne _ _ h]
  rfl

/-- The copy-back clears the codes of the staging copy alone, so the notes of rewritten frames stay. -/
theorem Dev.cbRep_copiedBack (n : Nat) (d : Dev) : (d.copiedBack n).integ.cbRep = d.integ.cbRep := by
  rw [Dev.copiedBack, Dev.integ_wr]; rfl

theorem Dev.ev_copiedBack (n : Nat) (d : Dev) : (d.copiedBack n).ev = d.ev := by
  rw [Dev.copiedBack, Dev.ev_wr]; rfl

theorem Dev.isle_noteRewrite (n : Nat) (d : Dev) (k : Nat) : (d.noteRewrite n).isle k = d.isle k := by
  unfold Dev.noteRewrite
  split
  · rfl
  · rfl

theorem Dev.held_resumeTask (n t : Nat) (d : Dev) (k : Nat) : ((d.resumeTask n t).isle k).held = (d.isle k).held := by
  unfold Dev.resumeTask
  split
  · rw [Dev.isle, Dev.isles_of_steady (Dev.steady_post _ _ _), ← Dev.isle, Dev.isle_wr]
  · rfl

theorem Dev.held_ungate (n : Nat) (d : Dev) (k : Nat) : ((d.ungate n).isle k).held = (d.isle k).held := by
  unfold Dev.ungate
  dsimp only
  refine (forList_keeps (fun e : Dev => (e.isle k).held) _ _ fun t _ e => e.held_resumeTask n t k).trans ?_
  rw [Dev.showGate, Dev.wrb, Dev.isle_wr]
  by_cases same : k = n
  · rw [same, Dev.isle_setIsle_same]; rfl
  · rw [Dev.isle_setIsle_ne _ _ same]

theorem Dev.held_endRepair (n : Nat) (d : Dev) (k : Nat) : ((d.endRepair n).isle k).held = (d.isle k).held := by
  unfold Dev.endRepair
  split
  · exact Dev.held_ungate _ _ _
  · rfl

/-- Context words and the active copy are read from what an isle holds. -/
theorem Isle.ctxWord_of_held {i j : Isle} (h : i.held = j.held) (staging : Bool) (c x : Nat) : i.ctxWord staging c x = j.ctxWord staging c x := by
  have ctx : i.ctx = j.ctx := congrArg (fun v => v.2.1) h
  have copy : i.copy = j.copy := congrArg (fun v => v.2.2.1) h
  rw [Isle.ctxWord, ctx, copy, ← Isle.ctxWord]

/-! ### Settled -/

/-- Settles O8: what a landfall's later turns leave is one view of the block, what the other slots leave another, and the copy-back is a statement about tables. -/
theorem landfallActs : Obligations.LandfallActs := by
  unfold Obligations.LandfallActs
  refine ⟨?released, ?applied, ?noLandfall, ?copiedBack, ?copies⟩
  case released =>
    intro n l i c a nx q r d passed noSet inDomain live waits due
    refine .of_onDev (Dev.landfall n.val) (fun _ => rfl) ?_
    have slots : forUpTo 8 (Dev.landfallSlot n.val) d = d :=
      forUpTo_induct (fun e : Dev => e = d) rfl fun s lt e same => by
        rw [same]; exact Dev.landfallSlot_of_idle fun dom => noSet ⟨s, lt⟩ dom
    have rest := Dev.landfall_rest n.val l d
    have afoot := d.afoot_landfallSync n.val
    have cell := Dev.cell_landfallSync c.isLt inDomain live waits due
    rw [Dev.landfall_of_passed passed, slots]
    generalize d.landfallSync n.val = x at *
    generalize (x.snapLandfalls n.val).rbLandfall n.val l = e at *
    have ang : e.ang = d.ang := (Dev.ang_of_standing rest).trans (congrArg (fun v => v.1.ang) afoot)
    have cells : (e.isle i).cells = (x.isle i).cells := congrArg Prod.fst (Dev.held_of_standing rest i)
    have released : (e.isle i).cell c = { (d.isle i).cell c with mode := .run nx, nextAt := d.now } := by
      rw [← cell, Isle.cell, cells, ← Isle.cell]
    have ads : ∀ k, e.ad k = d.ad k := fun k => Dev.ad_eq (congrArg Angle.ad ang) k
    dsimp only
    refine ⟨?_, ?_, ?_, ?_, ?_, fun k ne => ?_⟩
    · rw [Dev.isle_setAd, released]
    · rw [Dev.isle_setAd, released]
    · rw [Dev.isle_setAd, released]
    · rw [Dev.ad_setAd_same]
    · rw [Dev.ad_setAd_same, ads]
    · rw [Dev.ad_setAd_ne _ _ ne, ads]
  case applied =>
    intro n s l i d passed dom committed reached staged noTasks _
    refine .of_onDev (Dev.landfall n.val) (fun _ => rfl) ?_
    obtain ⟨state, empty, ang, copy, copyEnd, ctx, sync⟩ := Dev.applied_landfallSlots s.isLt i.isLt dom committed reached staged noTasks
    rw [Dev.landfall_of_passed passed]
    generalize forUpTo 8 (Dev.landfallSlot n.val) d = w at *
    have rest := Dev.landfall_rest n.val l w
    have afoot := w.afoot_landfallSync n.val
    generalize w.landfallSync n.val = x at *
    generalize (x.snapLandfalls n.val).rbLandfall n.val l = e at *
    have regs : x.regs = w.regs := Dev.regs_of_beyondIsles (congrArg Prod.fst afoot)
    have still : (x.isle i).still = (w.isle i).still := congrFun (congrArg Prod.snd afoot) i
    have held := Dev.held_of_standing rest i
    have field : ∀ f : Fld, ¬ OffUnits f.addr → e.rd f = w.rd f := fun f on =>
      (Dev.rd_eq (Dev.reg_of_standing rest on)).trans (Dev.rd_of_regs regs f)
    dsimp only
    refine ⟨?_, ?_, ?_, ?_, ?_, ?_, ?_⟩
    · rw [Dev.rd_setAd, field _ (by grind), state]
    · rw [Dev.isle_setAd, ← copy]
      exact (congrArg (fun v => v.2.2.1) held).trans (congrArg (fun v => v.2.1) still)
    · rw [Dev.rd_setAd, field _ (by grind), sync]
    · rw [Dev.isle_setAd, ← copyEnd]
      exact (congrArg (fun v => v.2.2.2) held).trans (congrArg (fun v => v.2.2.1) still)
    · rw [Dev.isle_setAd, ← ctx]
      exact (congrArg (fun v => v.2.1) held).trans (congrArg (fun v => v.1) still)
    · have staged' : e.cfg.staged = [] := (Dev.staged_of_standing rest).trans ((congrArg (fun v => v.1.cfg.staged) afoot).trans empty)
      rw [Dev.stagedOn, Dev.cfg_setAd, staged', List.filter_nil]
    · rw [Dev.ad_setAd_same]
  case noLandfall =>
    intro n d none
    exact .of_onDev (Dev.landfall n.val) (fun _ => rfl) (Dev.landfall_of_none none)
  case copiedBack =>
    intro i m d running ended noNote noRepair
    refine .of_onDev (Dev.copyback i.val) (fun _ => rfl) ?_
    have noted : (d.copiedBack i).noteRewrite i = d.copiedBack i := if_neg (by rw [Dev.cbRep_copiedBack, noNote]; decide)
    have none := takeFirst_of_none (p := fun (r : Repair) => r.unit = i && r.kind = 4) (xs := d.ev.repairs) fun r mem => by simpa using noRepair r mem
    rw [Dev.copyback_of_ended running ended, noted, Dev.endRepair, Dev.ev_copiedBack, none]
    dsimp only
    refine ⟨?_, ?_, ?_, ?_, fun k ne => d.isle_copiedBack_ne i ne, ?_, fun a out => ?_⟩
    · rw [Dev.copiedBack, Dev.rd_wr_same] <;> simp
    · rw [Dev.isle_copiedBack_same, Isle.copyEnd_copyBack]
    · rw [Dev.isle_copiedBack_same, Isle.copy_copyBack]
    · rw [Dev.isle_copiedBack_same, Isle.cells_copyBack]
    · rw [Dev.copiedBack, Dev.mem_wr, Dev.mem_setIsle]; rfl
    · rw [Dev.copiedBack, Dev.reg_wr_ne _ _ _ (by simpa using out)]; rfl
  case copies =>
    intro i c x m d running ended sorted
    refine .of_onDev (Dev.copyback i.val) (fun _ => rfl) ?_
    have held : ((d.copyback i).isle i).held = (d.isle i).copyBack.held := by
      rw [Dev.copyback_of_ended running ended, Dev.held_endRepair, Dev.isle_noteRewrite, Dev.isle_copiedBack_same]
    have lt : c.val * 16 + x.val < 256 := by omega
    exact ⟨(Isle.ctxWord_of_held held true c x).trans (Isle.ctxWord_copyBack sorted true lt),
      (Isle.ctxWord_of_held held false c x).trans (Isle.ctxWord_copyBack sorted false lt)⟩

end Sys2Proof.Machine

/-! ## The actions of the event table in their ACLK (R36, R41, R167, R183, R294, R402) -/
namespace Sys2Proof.Machine

/-! ### What a dropped action leaves -/

/-- An event changes no register but those of the host link. -/
theorem Dev.reg_genEvent (d : Dev) (code : Nat) (pay : List (BitVec 32)) {a : Nat} (off : a < 0x400B0000 ∨ 0x400C0000 ≤ a) :
    (d.genEvent code pay).reg a = d.reg a := by
  have number : ∀ n con ev, ((d.setReg HL_ESEQ n).withEvents con ev).reg a = d.reg a := fun n _ _ => d.reg_setReg_ne n (by grind)
  obtain ⟨n, con, ev, queued | lost⟩ := d.genEvent_eq code pay
  · rw [queued, Dev.reg_wr_ne _ _ _ (by grind), number]
  · rw [lost, Dev.reg_setFlag_ne _ _ (by grind), number]

theorem Dev.reg_f0 (d : Dev) (src unit : Nat) {a : Nat} (off : a < 0x400B0000 ∨ 0x400C0000 ≤ a) : (d.f0 src unit).reg a = d.reg a := by
  have posted : ∀ (c : Dev) code pay, (c.post code pay).reg a = c.reg a := fun c code pay => by
    unfold Dev.post
    split
    · exact c.reg_genEvent code pay off
    · split
      · exact c.reg_genEvent code pay off
      · rfl
  unfold Dev.f0
  dsimp only
  split
  · rfl
  · exact posted _ _ _

theorem Dev.reg_actionDrop_ne (d : Dev) (l : Nat) {a : Nat} (off : a < 0x400B0000 ∨ 0x400C0000 ≤ a) (ne : a ≠ ET_STAT) :
    (d.actionDrop l).reg a = d.reg a := by
  rw [Dev.actionDrop, Dev.reg_f0 _ _ _ off, Dev.reg_inc_ne _ _ ne]

/-- The drop is counted. -/
theorem Dev.rd_drop_actionDrop (d : Dev) (l : Nat) (room : d.rd ET_STAT_DROP < 65535) : (d.actionDrop l).rd ET_STAT_DROP = d.rd ET_STAT_DROP + 1 := by
  rw [Dev.actionDrop, Dev.rd_eq (Dev.reg_f0 _ _ _ (by decide)), d.rd_inc_same _ (by decide) (by decide) room]

/-- The block without registers, events and the integrity unit. -/
def Dev.plain (d : Dev) : Dev := d.steady.1

theorem Dev.plain_inc (d : Dev) (f : Fld) : (d.inc f).plain = d.plain := by
  unfold Dev.inc
  split <;> rfl

theorem Dev.plain_actionDrop (d : Dev) (l : Nat) : (d.actionDrop l).plain = d.plain :=
  (congrArg Prod.fst (Dev.steady_f0 _ _ _)).trans (d.plain_inc _)

section
variable {d e : Dev} (h : e.plain = d.plain)
include h

theorem Dev.ang_of_plain : e.ang = d.ang := congrArg (fun x => x.ang) h
theorem Dev.isles_of_plain : e.isles = d.isles := congrArg (fun x => x.isles) h
theorem Dev.mem_of_plain : e.mem = d.mem := congrArg (fun x => x.mem) h
theorem Dev.hb_of_plain : e.hb = d.hb := congrArg (fun x => x.hb) h
theorem Dev.net_of_plain : e.net = d.net := congrArg (fun x => x.net) h

end

/-! ### The action that acts -/

/-- The block once the oldest action has been taken. -/
def Dev.acted (as : List Action) (d : Dev) : Dev := d.withAng { d.ang with acts := as }

/-- A dropped action is counted and leaves the rest of the block as it was taken. -/
theorem Dev.dropped_spec (as : List Action) (l : Nat) (d : Dev) (room : d.rd ET_STAT_DROP < 65535) :
    ((d.acted as).actionDrop l).rd ET_STAT_DROP = d.rd ET_STAT_DROP + 1 ∧ ((d.acted as).actionDrop l).hb = d.hb ∧
    ((d.acted as).actionDrop l).ang = { d.ang with acts := as } ∧ ((d.acted as).actionDrop l).isles = d.isles ∧ ((d.acted as).actionDrop l).mem = d.mem := by
  have kept := (d.acted as).plain_actionDrop l
  exact ⟨(d.acted as).rd_drop_actionDrop l room, Dev.hb_of_plain (d := d.acted as) kept, Dev.ang_of_plain kept,
    Dev.isles_of_plain (d := d.acted as) kept, Dev.mem_of_plain (d := d.acted as) kept⟩

theorem Dev.takeAction_of_head {d : Dev} {a : Action} {as : List Action} {p : Action → Bool} (acts : d.ang.acts = a :: as) (kind : p a = true)
    (due : a.tf ≤ d.now) (settled : d.landfallWaits = false) : d.takeAction p = some (a, d.acted as) := by
  unfold Dev.takeAction
  rw [acts, takeFirst, if_pos (by simp [kind, due, settled])]
  rfl

/-- The message that a POST sends. -/
def Dev.postOf (d : Dev) (a : Action) : Packet :=
  { src := 39, dst := wbits a.arg0 5 0, req := a.list, write := true, addr := wbits a.arg0 15 8, host := false, len := 4, data := wordBytes a.arg1,
    status := 0, at_ := d.now, held := (d.routeWait 39).any (fun c => c.dest = wbits a.arg0 5 0), vc := 3, codes := [], legs := [] }

/-- The block with a message on its way. -/
def Dev.sent (p : Packet) (d : Dev) : Dev := { d with net := { d.net with msgs := d.net.msgs ++ [p] } }

/-! ### Each action, by its case -/

section
variable {d : Dev} {a : Action} {as : List Action} (acts : d.ang.acts = a :: as) (due : a.tf ≤ d.now) (settled : d.landfallWaits = false)
include acts due settled

theorem Dev.actFire_of_head (kind : a.act = 1) (plain : a.tv = false) : d.actFire =
    if d.isleLive (wbits a.arg0 6 0) then (d.acted as).fireReq (wbits a.arg0 6 0) (wbits a.arg0 11 8) a.tf none else (d.acted as).actionDrop a.list := by
  unfold Dev.actFire
  rw [Dev.takeAction_of_head acts (by simp [kind, plain]) due settled]
  rfl

theorem Dev.actEdge_of_head (kind : a.act = 3) : d.actEdge =
    if d.hb.loading || (d.pair (wbits a.arg0 5 0)).held then (d.acted as).actionDrop a.list
    else (d.acted as).placeEdgeAt (wbits a.arg0 5 0) a.tf (8 * (a.tf - 1) + d.edgeEighth a +
      if wbit a.arg0 9 then (if wbit a.arg0 8 then wbits (d.cmdBefore (wbits a.arg0 5 0)) 31 16 else wbits (d.cmdBefore (wbits a.arg0 5 0)) 15 0) else 0)
      (!wbit a.arg0 8) := by
  unfold Dev.actEdge
  rw [Dev.takeAction_of_head acts (by simp [kind]) due settled]
  rfl

theorem Dev.actGate_of_head (kind : a.act = 4) : d.actGate =
    if d.ethUp then (d.acted as).wr (EN_Pp_GATE_STATE (wbits a.arg0 2 0)) (wbits a.arg0 15 8) else (d.acted as).actionDrop a.list := by
  unfold Dev.actGate
  rw [Dev.takeAction_of_head acts (by simp [kind]) due settled]
  rfl

theorem Dev.actDma_of_head (kind : a.act = 5) : d.actDma =
    if wbits a.arg0 7 0 < 4 then (d.acted as).dmaTrigger (wbits a.arg0 7 0) (wbits a.arg0 15 8)
    else if d.isleLive (wbits a.arg0 7 0 - 128) then (d.acted as).streamTrig (wbits a.arg0 7 0 - 128) (wbits a.arg0 15 8)
    else (d.acted as).actionDrop a.list := by
  unfold Dev.actDma
  rw [Dev.takeAction_of_head acts (by simp [kind]) due settled]
  rfl

theorem Dev.actWake_of_head (kind : a.act = 6) : d.actWake = (d.acted as).arrive 3 (wbits a.arg0 8 0) a.arg1 := by
  unfold Dev.actWake
  rw [Dev.takeAction_of_head acts (by simp [kind]) due settled]

theorem Dev.actPost_of_open (kind : a.act = 7) (isOpen : d.niClosed (wbits a.arg0 5 0) = false) :
    d.actPost = (d.acted as).sent (d.postOf a) := by
  have still : (d.acted as).niClosed (wbits a.arg0 5 0) = false := isOpen
  unfold Dev.actPost
  rw [Dev.takeAction_of_head acts (by simp [kind]) due settled]
  exact if_neg (by simp [still])

theorem Dev.actPost_of_closed (kind : a.act = 7) (closed : d.niClosed (wbits a.arg0 5 0) = true) :
    d.actPost = (d.acted as).countOffline.actionDrop a.list := by
  unfold Dev.actPost
  rw [Dev.takeAction_of_head acts (by simp [kind]) due settled]
  exact if_pos closed

theorem Dev.actStrobe_of_head (kind : a.act = 2) (plain : a.tv = false) {e : Dev}
    (latched : forList ((d.acted as).strobeDomains a) Dev.latchMeasured (d.acted as) = e) (ready : e.hb.loading = false) :
    d.actStrobe = (if e.strobeHeld (wbits a.arg0 5 0) then e.actionDrop a.list else e).strobePorts (wbits a.arg0 5 0) a.tf := by
  unfold Dev.actStrobe
  rw [Dev.takeAction_of_head acts (by simp [kind]) due settled]
  dsimp only
  rw [latched, plain, if_neg Bool.false_ne_true, if_neg (ready ▸ Bool.false_ne_true)]

end

/-! ### The measured angles of a STROBE -/

/-- What a latch keeps: the block without its trackers, and of each tracker all but the latched angle. -/
def Dev.unmeasured (d : Dev) : Dev × (Nat → Tracker) := (d.withAng { d.ang with ad := [] }, fun n => { d.ad n with meas := 0 })

theorem Dev.unmeasured_latchMeasured (n : Nat) (d : Dev) : (d.latchMeasured n).unmeasured = d.unmeasured := by
  refine Prod.ext rfl (funext fun k => ?_)
  by_cases same : k = n
  · simp [Dev.unmeasured, Dev.latchMeasured, same]
  · simp [Dev.unmeasured, Dev.latchMeasured, Dev.ad_setAd_ne _ _ same]

/-- The measured angle does not depend on the angles that are latched. -/
theorem Dev.measuredAngle_of_unmeasured {d e : Dev} (h : e.unmeasured = d.unmeasured) (n : Nat) : e.measuredAngle n = d.measuredAngle n := by
  have tracker : ({ e.ad n with meas := 0 } : Tracker) = { d.ad n with meas := 0 } := congrFun (congrArg Prod.snd h) n
  have regs : e.regs = d.regs := congrArg (fun v => v.1.regs) h
  have now : e.now = d.now := congrArg (fun v => v.1.now) h
  have theta : (e.ad n).theta = (d.ad n).theta := congrArg (fun t => t.theta) tracker
  have omega : (e.ad n).omega = (d.ad n).omega := congrArg (fun t => t.omega) tracker
  have last : (e.ad n).lastMeas = (d.ad n).lastMeas := congrArg (fun t => t.lastMeas) tracker
  have revs : (e.ad n).revs = (d.ad n).revs := congrArg (fun t => t.revs) tracker
  have count : (e.ad n).count = (d.ad n).count := congrArg (fun t => t.count) tracker
  simp only [Dev.measuredAngle, Dev.stamp, Dev.rd, Dev.reg, regs, now, theta, omega, last, revs, count]

/-- Each domain of the list latches its measured angle; the estimates stay. -/
theorem Dev.latchMeasured_spec (ns : List Nat) (d : Dev) :
    (∀ n ∈ ns, ((forList ns Dev.latchMeasured d).ad n).meas = d.measuredAngle n) ∧ (forList ns Dev.latchMeasured d).unmeasured = d.unmeasured := by
  refine ⟨fun n mem => ?_, forList_keeps Dev.unmeasured ns d fun n _ e => e.unmeasured_latchMeasured n⟩
  refine (forList_pivot (fun e : Dev => e.unmeasured = d.unmeasured) (fun e : Dev => e.unmeasured = d.unmeasured ∧ (e.ad n).meas = d.measuredAngle n)
    mem rfl ?_ ?_ ?_).2
  · exact fun k e view => (e.unmeasured_latchMeasured k).trans view
  · intro e view
    refine ⟨(e.unmeasured_latchMeasured n).trans view, ?_⟩
    rw [Dev.latchMeasured, Dev.ad_setAd_same, Dev.measuredAngle_of_unmeasured view]
  · rintro k e ⟨view, meas⟩
    refine ⟨(e.unmeasured_latchMeasured k).trans view, ?_⟩
    by_cases same : n = k
    · rw [same, Dev.latchMeasured, Dev.ad_setAd_same, Dev.measuredAngle_of_unmeasured view]
    · rw [Dev.latchMeasured, Dev.ad_setAd_ne _ _ same, meas]

/-! ### The ports of a STROBE -/

/-- What the ports of a strobe group leave. -/
def Dev.offPorts (d : Dev) : Angle × Tbl Isle × List Host.Cell := (d.ang, d.isles, d.mem)

theorem Dev.offPorts_setFlag (d : Dev) (f : Fld) : (d.setFlag f).offPorts = d.offPorts := rfl

/-- The registers of the encoders. -/
def Dev.encRegs (d : Dev) (a : Nat) : BitVec 32 := if 0x40030A00 ≤ a ∧ a < 0x40030B00 then d.reg a else 0

/-- What the ports leave before the encoders latch their counts. -/
def Dev.beforeEnc (d : Dev) : (Angle × Tbl Isle × List Host.Cell) × (Nat → BitVec 32) := (d.offPorts, d.encRegs)

theorem Dev.reg_of_beforeEnc {d e : Dev} (h : e.beforeEnc = d.beforeEnc) {a : Nat} (enc : 0x40030A00 ≤ a ∧ a < 0x40030B00) : e.reg a = d.reg a := by
  have regs : e.encRegs = d.encRegs := congrArg Prod.snd h
  have at_ := congrFun regs a
  rwa [Dev.encRegs, Dev.encRegs, if_pos enc, if_pos enc] at at_

theorem Dev.beforeEnc_of_reg {d e : Dev} (off : e.offPorts = d.offPorts) (regs : ∀ a, 0x40030A00 ≤ a ∧ a < 0x40030B00 → e.reg a = d.reg a) :
    e.beforeEnc = d.beforeEnc := by
  refine Prod.ext off (funext fun a => ?_)
  simp only [Dev.beforeEnc, Dev.encRegs]
  split
  · next enc => exact regs a enc
  · rfl

/-- One turn of each kind of port in group `g` at ACLK `tf`. -/
def Dev.sdTurn (g tf i : Nat) (d : Dev) : Dev :=
  if d.on (HP_SDi_CFG_EN i) ∧ d.rd (HP_SDi_CFG_STG i) = g then
    let e := d.setSdIn i { d.sdIn i with strobes := (d.sdIn i).strobes ++ [(tf, if (d.sdIn i).cur.at_ ≤ tf then none else some (d.sdIn i).prev)] }
    if e.on (HP_MCLKm_ALIGN (d.sdClock i)) ∧ e.rd (HP_MCLKm_STG (d.sdClock i)) = g ∧ (tget Mclk.reset e.hb.mclk (d.sdClock i)).last ≠ tf then
      e.setFlag (HP_SDi_STAT_MISAL i)
    else e
  else d

def Dev.laneTurn (g tf j : Nat) (d : Dev) : Dev :=
  if d.on (HP_LVj_CFG_EN j) ∧ d.rd (HP_LVj_CFG_STG j) = g then d.later (tf + 1) (.laneStrobe j tf) else d

def Dev.encTurn (g tf e : Nat) (d : Dev) : Dev :=
  if d.on (HP_ENCe_CFG_EN e) ∧ d.rd (HP_ENCe_CFG_STG e) = g then d.later (tf + 1) (.encStrobe e tf (d.reg (HP_ENCe_CNT e))) else d

def Dev.ssiTurn (g s : Nat) (d : Dev) : Dev :=
  if d.on (HP_SSIs_CFG_EN s) ∧ d.on (HP_SSIs_CFG_TRIGM s) ∧ d.rd (HP_SSIs_CFG_STG s) = g then d.ssiStart s true else d

def Dev.gioTurn (g tf k : Nat) (d : Dev) : Dev := if d.gioSrc k = 2 ∧ d.rd (HP_GIOg_CFG_STG k) = g ∧ ¬ (d.gio k).held then d.pulse k tf else d

def Dev.fifoTurn (g f : Nat) (d : Dev) : Dev := if d.rd (FQ_Qf_CFG_STG f) = g ∧ ¬ (d.hfifo f).held then d.fifoClose f else d

theorem Dev.strobePorts_eq (g tf : Nat) (d : Dev) : d.strobePorts g tf =
    forUpTo 8 (Dev.fifoTurn g) (forUpTo 64 (Dev.gioTurn g tf) (forUpTo 8 (Dev.ssiTurn g) (forUpTo 8 (Dev.encTurn g tf)
      (forUpTo 16 (Dev.laneTurn g tf) (forUpTo 48 (Dev.sdTurn g tf) d))))) := rfl

theorem Dev.beforeEnc_setSdIn (d : Dev) (i : Nat) (x : SdIn) : (d.setSdIn i x).beforeEnc = d.beforeEnc := rfl

theorem Dev.beforeEnc_misal {p : Prop} [Decidable p] {i : Nat} (lt : i < 48) (d : Dev) :
    (if p then d.setFlag (HP_SDi_STAT_MISAL i) else d).beforeEnc = d.beforeEnc := by
  split
  · exact Dev.beforeEnc_of_reg (d.offPorts_setFlag _) fun a enc => d.reg_setFlag_ne (HP_SDi_STAT_MISAL i) (by grind)
  · rfl

theorem Dev.beforeEnc_sdTurn (g tf : Nat) {i : Nat} (lt : i < 48) (d : Dev) : (d.sdTurn g tf i).beforeEnc = d.beforeEnc := by
  unfold Dev.sdTurn
  split
  · exact (Dev.beforeEnc_misal lt _).trans (d.beforeEnc_setSdIn i _)
  · rfl

theorem Dev.beforeEnc_laneTurn (g tf j : Nat) (d : Dev) : (d.laneTurn g tf j).beforeEnc = d.beforeEnc := by
  unfold Dev.laneTurn
  split <;> rfl

theorem Dev.beforeEnc_encTurn (g tf k : Nat) (d : Dev) : (d.encTurn g tf k).beforeEnc = d.beforeEnc := by
  unfold Dev.encTurn
  split <;> rfl

/-- What waits to become ready stays, whatever joins it. -/
theorem Dev.mem_due_encTurn {g tf k : Nat} {d : Dev} {x : Nat × HEv} (mem : x ∈ d.hb.due) : x ∈ (d.encTurn g tf k).hb.due := by
  unfold Dev.encTurn
  split
  · exact List.mem_append_left _ mem
  · exact mem

/-- An enabled encoder of the group has its count latched in its turn. -/
theorem Dev.mem_due_encTurn_same {g tf k : Nat} {d : Dev} (on : d.on (HP_ENCe_CFG_EN k) = true) (group : d.rd (HP_ENCe_CFG_STG k) = g) :
    (tf + 1, HEv.encStrobe k tf (d.reg (HP_ENCe_CNT k))) ∈ (d.encTurn g tf k).hb.due := by
  rw [Dev.encTurn, if_pos ⟨on, group⟩]
  exact List.mem_append_right _ (List.mem_singleton.mpr rfl)

/-- What the ports after the encoders leave. -/
def Dev.afterEnc (d : Dev) : (Angle × Tbl Isle × List Host.Cell) × List (Nat × HEv) := (d.offPorts, d.hb.due)

theorem Dev.afterEnc_wr (d : Dev) (f : Fld) (v : Nat) : (d.wr f v).afterEnc = d.afterEnc := rfl
theorem Dev.afterEnc_setFlag (d : Dev) (f : Fld) : (d.setFlag f).afterEnc = d.afterEnc := rfl

theorem Dev.afterEnc_ite {p : Prop} [Decidable p] {c d e : Dev} (then_ : c.afterEnc = e.afterEnc) (else_ : d.afterEnc = e.afterEnc) :
    (if p then c else d).afterEnc = e.afterEnc := by
  split
  · exact then_
  · exact else_

theorem Dev.afterEnc_ssiTurn (g s : Nat) (d : Dev) : (d.ssiTurn g s).afterEnc = d.afterEnc := by
  unfold Dev.ssiTurn
  split
  · exact Dev.afterEnc_ite (d.afterEnc_setFlag _) rfl
  · rfl

theorem Dev.afterEnc_gioTurn (g tf k : Nat) (d : Dev) : (d.gioTurn g tf k).afterEnc = d.afterEnc := by
  unfold Dev.gioTurn
  split <;> rfl

/-- The block with its FIFOs replaced. -/
theorem Dev.afterEnc_withFifos (d : Dev) (t : Tbl HFifo) : ({ d with hb := { d.hb with fifo := t } } : Dev).afterEnc = d.afterEnc := rfl

theorem Dev.afterEnc_setHfifo (f : Nat) (x : HFifo) (d : Dev) : (d.setHfifo f x).afterEnc = d.afterEnc := by
  unfold Dev.setHfifo
  dsimp only
  rw [Dev.wrb, Dev.afterEnc_wr, Dev.afterEnc_wr, Dev.afterEnc_wr]
  exact d.afterEnc_withFifos _

theorem Dev.afterEnc_fifoOpen (f : Nat) (d : Dev) : (d.fifoOpen f).afterEnc = d.afterEnc := by
  unfold Dev.fifoOpen
  split
  · rfl
  · rw [Dev.afterEnc_setHfifo, Dev.fifoLost]
    exact Dev.afterEnc_ite rfl ((Dev.afterEnc_setFlag _ _).trans (d.afterEnc_wr _ _))

theorem Dev.afterEnc_fifoTurn (g f : Nat) (d : Dev) : (d.fifoTurn g f).afterEnc = d.afterEnc := by
  unfold Dev.fifoTurn
  split
  · unfold Dev.fifoClose
    split
    · rw [Dev.afterEnc_fifoOpen]
      split
      · rfl
      · rw [Dev.afterEnc_setHfifo]
    · rfl
  · rfl

/-- The ports of a group keep angle unit, isles and memory, and every enabled encoder of it latches its count. -/
theorem Dev.strobePorts_spec (g tf : Nat) (d : Dev) :
    (d.strobePorts g tf).offPorts = d.offPorts ∧
    ∀ k, k < 8 → d.on (HP_ENCe_CFG_EN k) = true → d.rd (HP_ENCe_CFG_STG k) = g →
      (tf + 1, HEv.encStrobe k tf (d.reg (HP_ENCe_CNT k))) ∈ (d.strobePorts g tf).hb.due := by
  have lanes : (forUpTo 16 (Dev.laneTurn g tf) (forUpTo 48 (Dev.sdTurn g tf) d)).beforeEnc = d.beforeEnc := by
    rw [forUpTo_keeps Dev.beforeEnc 16 _ fun j _ e => e.beforeEnc_laneTurn g tf j, forUpTo_keeps Dev.beforeEnc 48 _ fun i lt e => e.beforeEnc_sdTurn g tf lt]
  have ports : (d.strobePorts g tf).afterEnc =
      (forUpTo 8 (Dev.encTurn g tf) (forUpTo 16 (Dev.laneTurn g tf) (forUpTo 48 (Dev.sdTurn g tf) d))).afterEnc := by
    rw [Dev.strobePorts_eq, forUpTo_keeps Dev.afterEnc 8 _ fun f _ e => e.afterEnc_fifoTurn g f,
      forUpTo_keeps Dev.afterEnc 64 _ fun k _ e => e.afterEnc_gioTurn g tf k, forUpTo_keeps Dev.afterEnc 8 _ fun s _ e => e.afterEnc_ssiTurn g s]
  generalize forUpTo 16 (Dev.laneTurn g tf) (forUpTo 48 (Dev.sdTurn g tf) d) = w at *
  have encs : (forUpTo 8 (Dev.encTurn g tf) w).beforeEnc = w.beforeEnc := forUpTo_keeps Dev.beforeEnc 8 _ fun k _ e => e.beforeEnc_encTurn g tf k
  refine ⟨(congrArg Prod.fst ports).trans (congrArg Prod.fst (encs.trans lanes)), fun k lt on group => ?_⟩
  have due : (d.strobePorts g tf).hb.due = (forUpTo 8 (Dev.encTurn g tf) w).hb.due := congrArg Prod.snd ports
  rw [due]
  refine (forUpTo_pivot (fun e : Dev => e.beforeEnc = d.beforeEnc) (fun e : Dev => (tf + 1, HEv.encStrobe k tf (d.reg (HP_ENCe_CNT k))) ∈ e.hb.due)
    lt lanes ?_ ?_ ?_)
  · exact fun j _ e view => (e.beforeEnc_encTurn g tf j).trans view
  · intro e view
    have cfg : e.reg (HP_ENCe_CFG k) = d.reg (HP_ENCe_CFG k) := Dev.reg_of_beforeEnc view (by grind)
    have cnt : e.reg (HP_ENCe_CNT k) = d.reg (HP_ENCe_CNT k) := Dev.reg_of_beforeEnc view (by grind)
    rw [← cnt]
    refine Dev.mem_due_encTurn_same ?_ ((Dev.rd_eq (f := HP_ENCe_CFG_STG k) cfg).trans group)
    rw [Dev.on, Dev.rd_eq (f := HP_ENCe_CFG_EN k) cfg, ← Dev.on, on]
  · exact fun j _ _ e mem => Dev.mem_due_encTurn mem

/-- A drop, counted where the group has a held port, changes no encoder register and nothing that the ports leave. -/
theorem Dev.beforeEnc_actionDrop (d : Dev) (l : Nat) : (d.actionDrop l).beforeEnc = d.beforeEnc := by
  have kept := d.plain_actionDrop l
  refine Dev.beforeEnc_of_reg ?_ fun a enc => d.reg_actionDrop_ne l (.inl (by omega)) (by grind)
  rw [Dev.offPorts, Dev.ang_of_plain kept, Dev.isles_of_plain kept, Dev.mem_of_plain kept, Dev.offPorts]

theorem Dev.beforeEnc_ite_actionDrop {p : Prop} [Decidable p] (d : Dev) (l : Nat) : (if p then d.actionDrop l else d).beforeEnc = d.beforeEnc := by
  split
  · exact d.beforeEnc_actionDrop l
  · rfl

/-- A STROBE's ports after the drop of a held group: what they leave, and the counts latched, are those of the block before. -/
theorem Dev.strobePorts_spec_of_beforeEnc {g tf : Nat} {c d : Dev} (view : c.beforeEnc = d.beforeEnc) :
    (c.strobePorts g tf).offPorts = d.offPorts ∧
    ∀ k, k < 8 → d.on (HP_ENCe_CFG_EN k) = true → d.rd (HP_ENCe_CFG_STG k) = g →
      (tf + 1, HEv.encStrobe k tf (d.reg (HP_ENCe_CNT k))) ∈ (c.strobePorts g tf).hb.due := by
  obtain ⟨off, encs⟩ := c.strobePorts_spec g tf
  refine ⟨off.trans (congrArg Prod.fst view), fun k lt on group => ?_⟩
  have cfg : c.reg (HP_ENCe_CFG k) = d.reg (HP_ENCe_CFG k) := Dev.reg_of_beforeEnc view (by grind)
  have cnt : c.reg (HP_ENCe_CNT k) = d.reg (HP_ENCe_CNT k) := Dev.reg_of_beforeEnc view (by grind)
  rw [← cnt]
  refine encs k lt ?_ ((Dev.rd_eq (f := HP_ENCe_CFG_STG k) cfg).trans group)
  rw [Dev.on, Dev.rd_eq (f := HP_ENCe_CFG_EN k) cfg, ← Dev.on, on]

/-! ### Edges -/

/-- An edge that comes after the acted ones, among fewer than four, takes its place in order of time. -/
theorem Dev.placeEdgeAt_of_later {p tf t : Nat} {on : Bool} {d : Dev} (room : (d.pair p).edges.length + (d.pair p).acted.length < 4)
    (later : (d.pair p).acted.any (fun q => t ≤ q.at_) = false) :
    d.placeEdgeAt p tf t on = d.setPair p { d.pair p with edges := placeEdge { at_ := t, on := on } (d.pair p).edges } := by
  have few : ¬ 4 ≤ ((d.pair p).edges.filter (fun e => 8 * (tf - 1) ≤ e.at_ && e.at_ ≠ t)).length +
      ((d.pair p).acted.filter (fun e => 8 * (tf - 1) ≤ e.at_ && e.at_ ≠ t)).length := by
    have edges := List.length_filter_le (fun e : PwmEdge => 8 * (tf - 1) ≤ e.at_ && e.at_ ≠ t) (d.pair p).edges
    have acted := List.length_filter_le (fun e : PwmEdge => 8 * (tf - 1) ≤ e.at_ && e.at_ ≠ t) (d.pair p).acted
    omega
  have placed : (d.pair p).replace { at_ := t, on := on } (d.deadTime p) (d.safeCause p) =
      { d.pair p with edges := placeEdge { at_ := t, on := on } (d.pair p).edges } := by
    unfold PwmPair.replace
    split
    · exact if_neg (by simp [later])
    · rfl
  unfold Dev.placeEdgeAt
  dsimp only
  rw [if_neg few, placed]

theorem Dev.pair_setPair_same (d : Dev) (p : Nat) (x : PwmPair) : (d.setPair p x).pair p = x := tget_tset_same ..
theorem Dev.pair_setPair_ne (d : Dev) {p m : Nat} (x : PwmPair) (h : m ≠ p) : (d.setPair p x).pair m = d.pair m := tget_tset_ne _ _ _ _ h

/-! ### Triggers -/

theorem Dev.dmaTrigger_of_room {e t : Nat} {d : Dev} (on : d.on (DM_ENGe_CFG_EN e) = true) (room : (d.dmaQueue e).length < 8) :
    d.dmaTrigger e t = d.setDmaQueue e (d.dmaQueue e ++ [t]) := if_pos ⟨on, room⟩

theorem Dev.dmaQueue_setDmaQueue_same (d : Dev) (e : Nat) (l : List Nat) : (d.setDmaQueue e l).dmaQueue e = l := tget_tset_same ..
theorem Dev.dmaQueue_setDmaQueue_ne (d : Dev) {e n : Nat} (l : List Nat) (h : n ≠ e) : (d.setDmaQueue e l).dmaQueue n = d.dmaQueue n := tget_tset_ne _ _ _ _ h

theorem Dev.streamTrig_of_room {n t : Nat} {d : Dev} (room : (d.isle n).sq.length < 4) : d.streamTrig n t =
    (d.setIsle n { d.isle n with sq := (d.isle n).sq ++ [t] }).wr (IS_SSTAT_QLEN n) ((d.isle n).sq.length + 1) := if_pos room

/-! ### Arrivals at the scheduler -/

theorem length_placeArrival (k : SchedTok) (l : List SchedTok) : (placeArrival k l).length = l.length + 1 := by
  induction l with
  | nil => rfl
  | cons x xs ih =>
    unfold placeArrival
    split
    · rfl
    · simp [ih]

theorem mem_placeArrival (k x : SchedTok) (l : List SchedTok) : x ∈ placeArrival k l ↔ x = k ∨ x ∈ l := by
  induction l with
  | nil => simp [placeArrival]
  | cons y ys ih =>
    unfold placeArrival
    split
    · simp
    · simp only [List.mem_cons, ih]
      tauto

/-- The items of one ACLK in the order in which they arrive. -/
def arrivalLine (ks : List SchedTok) : List SchedTok := ks.foldl (fun l k => placeArrival k l) []

theorem length_arrivalLine (ks : List SchedTok) : (arrivalLine ks).length = ks.length := by
  induction ks using List.reverseRecOn with
  | nil => rfl
  | append_singleton ks k ih =>
    rw [arrivalLine, List.foldl_append, ← arrivalLine, List.foldl_cons, List.foldl_nil, length_placeArrival, ih, List.length_append, List.length_singleton]

theorem last_mem_arrivalLine (ks : List SchedTok) (k : SchedTok) : k ∈ arrivalLine (ks ++ [k]) := by
  rw [arrivalLine, List.foldl_append, List.foldl_cons, List.foldl_nil, mem_placeArrival]
  exact .inl rfl

/-- An item that finds room in the queue and none before it enters at once. -/
theorem Dev.enterArrivals_of_room {d : Dev} (k : SchedTok) (room : d.schedIn.length < 64) (noWait : d.schedWait = []) : d.enterArrivals [k] =
    { d with schedIn := d.schedIn.filter (fun x => x.at_ ≠ d.now) ++
      (arrivalLine (d.schedIn.filter (fun x => x.at_ = d.now) ++ [k])).map (fun x => { x with at_ := d.now }) } := by
  have parts := List.length_eq_length_filter_add (l := d.schedIn) (fun x => decide (x.at_ ≠ d.now))
  have same : d.schedIn.filter (fun x => !decide (x.at_ ≠ d.now)) = d.schedIn.filter (fun x => x.at_ = d.now) := List.filter_congr fun x _ => by simp
  rw [same] at parts
  have fits : (arrivalLine (d.schedIn.filter (fun x => x.at_ = d.now) ++ [k])).length ≤ 64 - (d.schedIn.filter (fun x => x.at_ ≠ d.now)).length := by
    rw [length_arrivalLine, List.length_append, List.length_singleton]
    omega
  have line : (d.schedIn.filter (fun x => x.at_ = d.now) ++ d.schedWait ++ [k]).foldl (fun l k => placeArrival k l) [] =
      arrivalLine (d.schedIn.filter (fun x => x.at_ = d.now) ++ [k]) := by rw [noWait, List.append_nil, arrivalLine]
  unfold Dev.enterArrivals
  dsimp only
  rw [line, List.take_of_length_le fits, List.drop_of_length_le fits, ← noWait]

/-- The queue then holds one item more, the new one among them. -/
theorem Dev.schedIn_enterArrivals_of_room {d : Dev} (k : SchedTok) (room : d.schedIn.length < 64) (noWait : d.schedWait = []) :
    (d.enterArrivals [k]).schedIn.length = d.schedIn.length + 1 ∧ { k with at_ := d.now } ∈ (d.enterArrivals [k]).schedIn := by
  have parts := List.length_eq_length_filter_add (l := d.schedIn) (fun x => decide (x.at_ ≠ d.now))
  have same : d.schedIn.filter (fun x => !decide (x.at_ ≠ d.now)) = d.schedIn.filter (fun x => x.at_ = d.now) := List.filter_congr fun x _ => by simp
  rw [same] at parts
  rw [Dev.enterArrivals_of_room k room noWait]
  refine ⟨?_, List.mem_append_right _ (List.mem_map_of_mem (last_mem_arrivalLine _ k))⟩
  rw [List.length_append, List.length_map, length_arrivalLine, List.length_append, List.length_singleton]
  omega

/-! ### Settled -/

/-- Settles O5: one equation per action and case, and a view for each of the two parts of a strobe. -/
theorem actionsTakeEffect : Obligations.ActionsTakeEffect := by
  unfold Obligations.ActionsTakeEffect
  refine ⟨?fire, ?fireDropped, ?strobe, ?edge, ?edgeDropped, ?gate, ?gateDropped, ?dma, ?stream, ?wake, ?post, ?postDropped⟩
  case fire =>
    intro a as d acts kind plain due settled live
    refine .of_onDev Dev.actFire (fun _ => rfl) ?_
    rw [Dev.actFire_of_head acts due settled kind plain, if_pos live, Dev.fireReq]
    refine ⟨?_, fun n ne => ?_, rfl⟩
    · rw [Dev.isle_setIsle_same]; rfl
    · rw [Dev.isle_setIsle_ne _ _ ne]; rfl
  case fireDropped =>
    intro a as d acts kind plain due settled down room
    refine .of_onDev Dev.actFire (fun _ => rfl) ?_
    rw [Dev.actFire_of_head acts due settled kind plain, if_neg (by simp [down])]
    obtain ⟨count, hb, ang, isles, mem⟩ := d.dropped_spec as a.list room
    exact ⟨count, ang, isles, mem⟩
  case strobe =>
    intro a as d acts kind plain due settled ready
    refine .of_onDev Dev.actStrobe (fun _ => rfl) ?_
    obtain ⟨meas, view⟩ := Dev.latchMeasured_spec ((d.acted as).strobeDomains a) (d.acted as)
    generalize latched : forList ((d.acted as).strobeDomains a) Dev.latchMeasured (d.acted as) = e at meas view
    have hb : e.hb = d.hb := congrArg (fun v => v.1.hb) view
    have regs : e.regs = d.regs := congrArg (fun v => v.1.regs) view
    have acts' : e.ang.acts = as := congrArg (fun v => v.1.ang.acts) view
    have isles : e.isles = d.isles := congrArg (fun v => v.1.isles) view
    have mem : e.mem = d.mem := congrArg (fun v => v.1.mem) view
    rw [Dev.actStrobe_of_head acts due settled kind plain latched (hb ▸ ready)]
    obtain ⟨off, encs⟩ := Dev.strobePorts_spec_of_beforeEnc (g := wbits a.arg0 5 0) (tf := a.tf)
      (e.beforeEnc_ite_actionDrop (p := e.strobeHeld (wbits a.arg0 5 0) = true) a.list)
    generalize (if e.strobeHeld (wbits a.arg0 5 0) then e.actionDrop a.list else e).strobePorts (wbits a.arg0 5 0) a.tf = c at off encs ⊢
    have ang : c.ang = e.ang := congrArg (fun v => v.1) off
    have ad (n : Nat) : c.ad n = e.ad n := by rw [Dev.ad, ang, ← Dev.ad]
    have reg (k : Nat) : e.reg k = d.reg k := by rw [Dev.reg, regs, ← Dev.reg]
    refine ⟨fun n lt masked => ?_, fun n => ?_, fun k lt on group => ?_, (congrArg (fun x => x.acts) ang).trans acts',
      (congrArg (fun v => v.2.1) off).trans isles, (congrArg (fun v => v.2.2) off).trans mem⟩
    · rw [ad]
      exact meas n (List.mem_filter.mpr ⟨List.mem_range.mpr lt, by simp [masked]⟩)
    · rw [ad]
      have tracker : ({ e.ad n with meas := 0 } : Tracker) = { d.ad n with meas := 0 } := congrFun (congrArg Prod.snd view) n
      exact congrArg (fun t => t.theta) tracker
    · rw [← reg]
      refine encs k lt ?_ ((Dev.rd_eq (f := HP_ENCe_CFG_STG k) (reg _)).trans group)
      rw [Dev.on, Dev.rd_eq (f := HP_ENCe_CFG_EN k) (reg _), ← Dev.on, on]
  case edge =>
    rintro a as p k x d acts kind due settled rfl rfl ready free room rfl later
    refine .of_onDev Dev.actEdge (fun _ => rfl) ?_
    rw [Dev.actEdge_of_head acts due settled kind, if_neg (by simp [ready, free]), Dev.placeEdgeAt_of_later (d := d.acted as) room later]
    refine ⟨?_, ?_, ?_, fun m ne => ?_, ?_, ?_, ?_⟩
    · rw [Dev.pair_setPair_same]; rfl
    · rw [Dev.pair_setPair_same]; rfl
    · rw [Dev.pair_setPair_same]; rfl
    · rw [Dev.pair_setPair_ne _ _ ne]; rfl
    · rw [Dev.ang_setPair]; rfl
    · rw [Dev.isles_setPair]; rfl
    · rw [Dev.mem_setPair]; rfl
  case edgeDropped =>
    intro a as d acts kind due settled held room
    refine .of_onDev Dev.actEdge (fun _ => rfl) ?_
    rw [Dev.actEdge_of_head acts due settled kind, if_pos (by simp [held])]
    obtain ⟨count, hb, ang, isles, mem⟩ := d.dropped_spec as a.list room
    exact ⟨count, hb, ang, isles, mem⟩
  case gate =>
    intro a as d acts kind due settled up
    refine .of_onDev Dev.actGate (fun _ => rfl) ?_
    rw [Dev.actGate_of_head acts due settled kind, if_pos up]
    refine ⟨?_, fun r out => ?_, rfl⟩
    · rw [Dev.rd_wr_same _ _ _ (by simp) (by simp)]
      exact Nat.mod_eq_of_lt (Nat.mod_lt _ (by decide))
    · rw [Dev.reg_wr_ne _ _ _ (by simpa using out)]; rfl
  case gateDropped =>
    intro a as d acts kind due settled down room
    refine .of_onDev Dev.actGate (fun _ => rfl) ?_
    rw [Dev.actGate_of_head acts due settled kind, if_neg (by simp [down])]
    obtain ⟨count, hb, ang, isles, mem⟩ := d.dropped_spec as a.list room
    exact ⟨count, fun p _ => (d.acted as).reg_actionDrop_ne a.list (.inr (by grind)) (by grind), ang, mem⟩
  case dma =>
    intro a as d acts kind due settled engine on room
    refine .of_onDev Dev.actDma (fun _ => rfl) ?_
    rw [Dev.actDma_of_head acts due settled kind, if_pos engine, Dev.dmaTrigger_of_room (d := d.acted as) on room]
    refine ⟨?_, fun n ne => ?_, rfl, rfl, rfl⟩
    · rw [Dev.dmaQueue_setDmaQueue_same]; rfl
    · rw [Dev.dmaQueue_setDmaQueue_ne _ _ ne]; rfl
  case stream =>
    intro a as n d acts kind due settled port live room
    refine .of_onDev Dev.actDma (fun _ => rfl) ?_
    have index : 128 + n - 128 = n := Nat.add_sub_cancel_left ..
    rw [Dev.actDma_of_head acts due settled kind, port, if_neg (by omega), index, if_pos live, Dev.streamTrig_of_room (d := d.acted as) room]
    refine ⟨?_, fun m ne => ?_, ?_, ?_, ?_⟩
    · rw [Dev.isle_wr, Dev.isle_setIsle_same]; rfl
    · rw [Dev.isle_wr, Dev.isle_setIsle_ne _ _ ne]; rfl
    · rw [Dev.ang_wr, Dev.ang_setIsle]; rfl
    · rw [Dev.net_wr]; rfl
    · rw [Dev.mem_wr, Dev.mem_setIsle]; rfl
  case wake =>
    intro a as d acts kind due settled room noWait
    refine .of_onDev Dev.actWake (fun _ => rfl) ?_
    rw [Dev.actWake_of_head acts due settled kind, Dev.arrive]
    obtain ⟨length, mem⟩ := (d.acted as).schedIn_enterArrivals_of_room
      { wake := (3 : Nat) = 3, num := wbits a.arg0 8 0, value := a.arg1, cls := 3, at_ := (d.acted as).now } room noWait
    refine ⟨mem, length, ?_⟩
    rw [Dev.enterArrivals_of_room (d := d.acted as) _ room noWait]
    rfl
  case post =>
    rintro a as n q d acts kind due settled rfl rfl isOpen
    exact .of_onDev Dev.actPost (fun _ => rfl) (Dev.actPost_of_open acts due settled kind isOpen)
  case postDropped =>
    intro a as d acts kind due settled closed room
    refine .of_onDev Dev.actPost (fun _ => rfl) ?_
    rw [Dev.actPost_of_closed acts due settled kind closed]
    have counted : (d.acted as).countOffline.rd ET_STAT_DROP = d.rd ET_STAT_DROP := by
      rw [Dev.countOffline, Dev.rd_eq (f := ET_STAT_DROP) (Dev.reg_setFlag_ne _ PN_STAT_OFFL (by decide)),
        Dev.rd_eq (f := ET_STAT_DROP) (Dev.reg_inc_ne _ PN_OFFCNT_CNT (by decide))]
      rfl
    have kept := (d.acted as).countOffline.plain_actionDrop a.list
    have plain : (d.acted as).countOffline.plain = (d.acted as).plain := (d.acted as).plain_inc PN_OFFCNT_CNT
    generalize off : (d.acted as).countOffline = e at *
    refine ⟨?_, ?_, ?_, ?_, ?_⟩
    · rw [e.rd_drop_actionDrop a.list (counted ▸ room), counted]
    · rw [Dev.rd_eq (f := PN_STAT_OFFL) (e.reg_actionDrop_ne a.list (.inl (by decide)) (by decide)), ← off, Dev.countOffline]
      exact Dev.rd_setFlag_same _ PN_STAT_OFFL (by decide) (by decide)
    · exact (Dev.net_of_plain kept).trans (Dev.net_of_plain (d := d.acted as) plain)
    · exact (Dev.ang_of_plain kept).trans (Dev.ang_of_plain (d := d.acted as) plain)
    · exact (Dev.mem_of_plain kept).trans (Dev.mem_of_plain (d := d.acted as) plain)

end Sys2Proof.Machine

/-! ## A token leaves its cell through its descriptor (R95, R119, R120, R121, R142)

The token that leaves is taken off its cell first; each kind of Table 05-4 then acts on the block as that leaves it. -/
namespace Sys2Proof.Machine

/-! ### The token that leaves -/

/-- The block once the oldest token of a cell has left it, with `rest` behind it. -/
def Dev.tokLeft (n c : Nat) (rest : List CTok) (d : Dev) : Dev := d.modCell n c (fun x => { x with toks := rest })

@[simp] theorem Isle.cell_setCell_same (i : Isle) (c : Nat) (x : Cell) : (i.setCell c x).cell c = x := tget_tset_same ..

theorem Dev.cell_tokLeft (n c : Nat) (rest : List CTok) (d : Dev) :
    ((d.tokLeft n c rest).isle n).cell c = { (d.isle n).cell c with toks := rest } := by
  rw [Dev.tokLeft, Dev.isle_modCell_same, Isle.cell_setCell_same]

/-- Of its isle nothing but the cell changes. -/
theorem Dev.trigs_tokLeft (n c : Nat) (rest : List CTok) (d : Dev) : ((d.tokLeft n c rest).isle n).trigs = (d.isle n).trigs := by
  rw [Dev.tokLeft, Dev.isle_modCell_same, Isle.setCell]

theorem Dev.isle_tokLeft_ne (n c : Nat) (rest : List CTok) (d : Dev) {m : Nat} (h : m ≠ n) : (d.tokLeft n c rest).isle m = d.isle m :=
  d.isle_setIsle_ne _ h

/-- R95: in an ACLK of a live isle the oldest token of a cell leaves it once it is due. -/
theorem Dev.tokenEmit_of_head {n c : Nat} {k : CTok} {rest : List CTok} {d : Dev} (head : ((d.isle n).cell c).toks = k :: rest)
    (due : k.due ≤ d.now) (live : d.isleLive n = true) (advances : d.advances n = true) :
    d.tokenEmit n c = (d.tokLeft n c rest).emitTok n k := by
  have first : takeFirst (fun k => decide (k.due ≤ d.now)) (k :: rest) = some (k, rest) := by rw [takeFirst, if_pos (decide_eq_true due)]
  unfold Dev.tokenEmit
  rw [head, first]
  exact if_pos (by rw [live, advances]; rfl)

/-! ### Each kind of descriptor -/

/-- R120: a descriptor with EN = 0 emits nothing. -/
theorem Dev.emitTok_of_invalid {n : Nat} {k : CTok} {d : Dev} (invalid : wbit (d.reg (IS_TDk n k.desc)) 31 = false) : d.emitTok n k = d :=
  if_pos (by simp [invalid])

section
variable {n : Nat} {k : CTok} {d : Dev} (valid : wbit (d.reg (IS_TDk n k.desc)) 31 = true)
include valid

/-- R119, R121: a token for an entry of an isle that exists goes on the lanes, with its speculative bit. -/
theorem Dev.emitTok_of_entry (kind : wbits (d.reg (IS_TDk n k.desc)) 1 0 = 0) (isThere : wbits (d.reg (IS_TDk n k.desc)) 8 2 < 96) :
    d.emitTok n k = { d with lane := d.lane ++ [{
      src := n, isle := wbits (d.reg (IS_TDk n k.desc)) 8 2, entry := wbits (d.reg (IS_TDk n k.desc)) 14 9, slot := wbits (d.reg (IS_TDk n k.desc)) 17 15,
      tag := k.tag, spec := k.spec, cur := n, due := d.now + 1 + laneHops n (wbits (d.reg (IS_TDk n k.desc)) 8 2) }] } := by
  unfold Dev.emitTok
  dsimp only
  rw [if_neg (not_not_intro valid), kind]
  exact if_neg (by omega)

/-- R121, R142: a run-ahead token is 2 ACLK from its controller. -/
theorem Dev.emitTok_of_task (kind : wbits (d.reg (IS_TDk n k.desc)) 1 0 = 2) (task : wbits (d.reg (IS_TDk n k.desc)) 7 2 < 48)
    (code : 1 ≤ wbits (d.reg (IS_TDk n k.desc)) 10 8 ∧ wbits (d.reg (IS_TDk n k.desc)) 10 8 ≤ 3) :
    d.emitTok n k = { d with ahd := { d.ahd with toks := d.ahd.toks ++ [{
      task := wbits (d.reg (IS_TDk n k.desc)) 7 2, code := wbits (d.reg (IS_TDk n k.desc)) 10 8, step := k.ra.map (fun m => m.step), due := d.now + 2 }] } } := by
  unfold Dev.emitTok
  dsimp only
  rw [if_neg (not_not_intro valid), kind]
  exact if_pos ⟨code.1, code.2, task⟩

/-- R121, R141: a token for the scheduler is delivered at once unless it is speculative, ... -/
theorem Dev.emitTok_of_scheduler (kind : wbits (d.reg (IS_TDk n k.desc)) 1 0 = 1) (inRange : wbits (d.reg (IS_TDk n k.desc)) 14 2 < 4096)
    (plain : k.spec = false) : d.emitTok n k = d.arrive 0 (wbits (d.reg (IS_TDk n k.desc)) 14 2) 0 := by
  unfold Dev.emitTok
  dsimp only
  rw [if_neg (not_not_intro valid), kind, plain]
  exact if_neg (by simp only [if_true, true_and]; omega)

/-- ... and a stream trigger is then on its way to the isle's port. -/
theorem Dev.emitTok_of_stream (kind : wbits (d.reg (IS_TDk n k.desc)) 1 0 = 3) (plain : k.spec = false) :
    d.emitTok n k = d.setIsle n { d.isle n with trigs := (d.isle n).trigs ++ [wbits (d.reg (IS_TDk n k.desc)) 7 2] } := by
  unfold Dev.emitTok
  dsimp only
  rw [if_neg (not_not_intro valid), kind, plain]
  exact if_neg (by omega)

end

/-! ### Settled -/

/-- Settles O17: the oldest token leaves its cell, then one equation per kind of descriptor. -/
theorem tokensLeaveTheirIsle : Obligations.TokensLeaveTheirIsle := by
  unfold Obligations.TokensLeaveTheirIsle
  refine ⟨?entry, ?task, ?scheduler, ?stream, ?invalid⟩
  case entry =>
    rintro n c k rest m d head due live advances valid kind rfl isThere
    refine .of_onDev (Dev.tokenEmit n c) (fun _ => rfl) ?_
    rw [Dev.tokenEmit_of_head head due live advances, Dev.emitTok_of_entry (d := d.tokLeft n c rest) valid kind isThere]
    exact ⟨rfl, d.cell_tokLeft n c rest, rfl⟩
  case task =>
    rintro n c k rest t code d head due live advances valid kind rfl task rfl known
    refine .of_onDev (Dev.tokenEmit n c) (fun _ => rfl) ?_
    rw [Dev.tokenEmit_of_head head due live advances, Dev.emitTok_of_task (d := d.tokLeft n c rest) valid kind task known]
    exact ⟨rfl, d.cell_tokLeft n c rest, rfl⟩
  case scheduler =>
    rintro n c k rest num d head due live advances valid kind rfl inRange plain room noWait
    refine .of_onDev (Dev.tokenEmit n c) (fun _ => rfl) ?_
    rw [Dev.tokenEmit_of_head head due live advances, Dev.emitTok_of_scheduler (d := d.tokLeft n c rest) valid kind inRange plain, Dev.arrive]
    obtain ⟨length, mem⟩ := (d.tokLeft n c rest).schedIn_enterArrivals_of_room
      { wake := (0 : Nat) = 3, num := wbits (d.reg (IS_TDk n k.desc)) 14 2, value := 0, cls := 0, at_ := d.now } room noWait
    exact ⟨mem, length, d.cell_tokLeft n c rest, by rw [Dev.enterArrivals_of_room (d := d.tokLeft n c rest) _ room noWait]; rfl⟩
  case stream =>
    rintro n c k rest t d head due live advances valid kind rfl plain
    refine .of_onDev (Dev.tokenEmit n c) (fun _ => rfl) ?_
    rw [Dev.tokenEmit_of_head head due live advances, Dev.emitTok_of_stream (d := d.tokLeft n c rest) valid kind plain]
    refine ⟨?_, ?_, fun m ne => ?_, rfl⟩
    · rw [Dev.isle_setIsle_same, Dev.trigs_tokLeft]; rfl
    · rw [Dev.isle_setIsle_same]; exact d.cell_tokLeft n c rest
    · rw [Dev.isle_setIsle_ne _ _ ne, Dev.isle_tokLeft_ne _ _ _ _ ne]
  case invalid =>
    intro n c k rest d head due live advances invalid
    refine .of_onDev (Dev.tokenEmit n c) (fun _ => rfl) ?_
    rw [Dev.tokenEmit_of_head head due live advances, Dev.emitTok_of_invalid (d := d.tokLeft n c rest) invalid]
    exact ⟨d.cell_tokLeft n c rest, fun m ne => d.isle_tokLeft_ne n c rest ne, rfl⟩

end Sys2Proof.Machine

/-! ## Tokens meet their entry of the matching store (R117, R118)

The tokens that have reached an entry are applied one by one; then the entry completes where PRES covers NEED. -/
namespace Sys2Proof.Machine

/-! ### Entries and requests -/

theorem Dev.isle_setMent_same (n x : Nat) (m : MEntry) (d : Dev) :
    (d.setMent n x m).isle n = { d.isle n with store := tset MEntry.reset (d.isle n).store x m } := d.isle_setIsle_same n _

theorem Dev.isle_setMent_ne (n x : Nat) (m : MEntry) (d : Dev) {j : Nat} (h : j ≠ n) : (d.setMent n x m).isle j = d.isle j := d.isle_setIsle_ne _ h

theorem Dev.ment_setMent_same (n x : Nat) (m : MEntry) (d : Dev) : ((d.setMent n x m).isle n).ment x = m := by
  rw [Dev.isle_setMent_same]
  exact tget_tset_same ..

theorem Dev.ment_setMent_ne (n x : Nat) (m : MEntry) (d : Dev) {j : Nat} (h : j ≠ x) :
    ((d.setMent n x m).isle n).ment j = (d.isle n).ment j := by
  rw [Dev.isle_setMent_same]
  exact tget_tset_ne _ _ _ _ h

theorem Dev.isle_fireReq_same (n g at_ : Nat) (ra : Option RaMark) (d : Dev) :
    (d.fireReq n g at_ ra).isle n = { d.isle n with reqs := (d.isle n).reqs ++ [{ group := g, at_ := at_, ra := ra }] } := d.isle_setIsle_same n _

theorem Dev.isle_fireReq_ne (n g at_ : Nat) (ra : Option RaMark) (d : Dev) {j : Nat} (h : j ≠ n) : (d.fireReq n g at_ ra).isle j = d.isle j :=
  d.isle_setIsle_ne _ h

/-! ### One token (R117) -/

/-- An entry with the token of a slot present, for the current activation and for the next. -/
def MEntry.present (slot : Nat) (m : MEntry) : MEntry := { m with pres := m.pres ||| BitVec.ofNat 8 (2 ^ slot) }
def MEntry.presentNext (slot : Nat) (m : MEntry) : MEntry := { m with nextp := m.nextp ||| BitVec.ofNat 8 (2 ^ slot) }

section
variable {n x : Nat} {k : LaneTok} {d : Dev} (kind : ((d.isle n).ment x).action ≠ 2)
include kind

/-- A token of the current activation marks its slot present, ... -/
theorem Dev.applyTok_of_current (needed : ((d.isle n).ment x).need.getLsbD k.slot = true) (tag : k.tag = ((d.isle n).ment x).cur)
    (absent : ((d.isle n).ment x).pres.getLsbD k.slot = false) : d.applyTok n x k = d.setMent n x (((d.isle n).ment x).present k.slot) := by
  unfold Dev.applyTok
  rw [if_neg fun stream => kind (BitVec.eq_of_toNat_eq stream.1), if_pos (by simp [needed, tag, absent])]
  rfl

/-- ... one of the next activation marks it for that one, ... -/
theorem Dev.applyTok_of_next (needed : ((d.isle n).ment x).need.getLsbD k.slot = true) (tag : k.tag = ((d.isle n).ment x).cur + 1)
    (absent : ((d.isle n).ment x).nextp.getLsbD k.slot = false) : d.applyTok n x k = d.setMent n x (((d.isle n).ment x).presentNext k.slot) := by
  unfold Dev.applyTok
  rw [if_neg fun stream => kind (BitVec.eq_of_toNat_eq stream.1), if_neg (by simp [tag]), if_pos (by simp [needed, tag, absent])]
  rfl

/-- ... and one of any other is stale and counted. -/
theorem Dev.applyTok_of_stale (notCurrent : k.tag ≠ ((d.isle n).ment x).cur) (notNext : k.tag ≠ ((d.isle n).ment x).cur + 1) :
    d.applyTok n x k = d.inc (IS_CNT1_STALE n) := by
  unfold Dev.applyTok
  rw [if_neg fun stream => kind (BitVec.eq_of_toNat_eq stream.1), if_neg (by simp only [notCurrent]; simp), if_neg (by simp only [notNext]; simp)]

end

/-! ### Completion (R118) -/

/-- An entry that has completed: what came for the next activation is present, under its tag. -/
def MEntry.completed (again : Nat) (m : MEntry) : MEntry := { m with pres := m.nextp, nextp := 0, cur := m.cur + 1, doneAt := again }

/-- The entry's completion, after the tokens of the ACLK. -/
def Dev.completeEntry (n x : Nat) (d : Dev) : Dev :=
  let m := (d.isle n).ment x
  if m.pres = m.need ∧ m.need ≠ 0 ∧ m.action.toNat ≠ 3 ∧ m.doneAt ≤ d.now ∧ d.advances n then
    (d.matchAct n m).setMent n x (m.completed (d.now + d.step n))
  else d

theorem Dev.completeEntry_of_missing {n x : Nat} {d : Dev} (missing : ((d.isle n).ment x).pres ≠ ((d.isle n).ment x).need) :
    d.completeEntry n x = d := if_neg fun covers => missing covers.1

/-- ACTION 0b00 fires the entry's group in the next ACLK. -/
theorem Dev.matchAct_of_fire {n : Nat} {m : MEntry} (d : Dev) (fires : m.action = 0) :
    d.matchAct n m = d.fireReq n (m.arg.toNat % 16) (d.now + 1) none := by
  unfold Dev.matchAct
  rw [fires]
  rfl

theorem Dev.completeEntry_of_fire {n x : Nat} {m : MEntry} {d : Dev} (entry : (d.isle n).ment x = m) (covers : m.pres = m.need) (needs : m.need ≠ 0)
    (fires : m.action = 0) (free : m.doneAt ≤ d.now) (advances : d.advances n = true) :
    d.completeEntry n x = (d.fireReq n (m.arg.toNat % 16) (d.now + 1) none).setMent n x (m.completed (d.now + d.step n)) := by
  unfold Dev.completeEntry
  rw [entry, if_pos ⟨covers, needs, by rw [fires]; decide, free, advances⟩, d.matchAct_of_fire fires]

/-- The block with no token on the lanes. -/
def Dev.lanesEmptied (d : Dev) : Dev := { d with lane := [] }

/-- The only token on the lanes, at its entry of a live isle, is applied there; then the entry completes or does not. -/
theorem Dev.tokenApply_of_single {n x : Nat} {k : LaneTok} {d : Dev} (only : d.lane = [k]) (isle : k.isle = n) (here : k.cur = n) (entry : k.entry = x)
    (due : k.due ≤ d.now) (live : d.isleLive n = true) (advances : d.advances n = true) :
    d.tokenApply n x = (d.lanesEmptied.applyTok n x k).completeEntry n x := by
  unfold Dev.tokenApply
  simp only [only, List.filter_cons, List.filter_nil, isle, here, entry, due, advances, decide_true, Bool.and_self, Bool.true_or, Bool.not_true, if_true,
    Bool.false_eq_true, if_false]
  exact if_neg (not_not_intro live)

/-! ### Settled -/

/-- Settles O18: the token is applied by its tag, then the entry completes or does not. -/
theorem tokensMeetTheirEntry : Obligations.TokensMeetTheirEntry := by
  unfold Obligations.TokensMeetTheirEntry
  have notStream {b : BitVec 2} (fires : b = 0) : b ≠ 2 := fires ▸ by decide
  refine ⟨?current, ?completing, ?next, ?stale⟩
  case current =>
    rintro n x k m d only isle here entry due live advances rfl fires needed tag absent missing
    refine .of_onDev (Dev.tokenApply n x) (fun _ => rfl) ?_
    rw [Dev.tokenApply_of_single only isle here entry due live advances,
      Dev.applyTok_of_current (d := d.lanesEmptied) (notStream fires) needed tag absent,
      Dev.completeEntry_of_missing (by rw [Dev.ment_setMent_same]; exact missing)]
    rfl
  case completing =>
    rintro n x k m d only isle here entry due live advances rfl fires needed tag absent covers free
    refine .of_onDev (Dev.tokenApply n x) (fun _ => rfl) ?_
    have needs : ((d.isle n).ment x).need ≠ 0 := fun none => by simp [none] at needed
    rw [Dev.tokenApply_of_single only isle here entry due live advances,
      Dev.applyTok_of_current (d := d.lanesEmptied) (notStream fires) needed tag absent,
      Dev.completeEntry_of_fire (Dev.ment_setMent_same n x (((d.lanesEmptied.isle n).ment x).present k.slot) d.lanesEmptied) covers needs fires free advances]
    refine ⟨Dev.ment_setMent_same .., ?_, ?_, fun j ne => ?_, fun j ne => ?_, rfl⟩
    · rw [Dev.isle_setMent_same, Dev.isle_fireReq_same, Dev.isle_setMent_same]; rfl
    · rw [Dev.isle_setMent_same, Dev.isle_fireReq_same, Dev.isle_setMent_same]; rfl
    · rw [Dev.ment_setMent_ne _ _ _ _ ne, Dev.isle_fireReq_same]; exact Dev.ment_setMent_ne _ _ _ _ ne
    · rw [Dev.isle_setMent_ne _ _ _ _ ne, Dev.isle_fireReq_ne _ _ _ _ _ ne, Dev.isle_setMent_ne _ _ _ _ ne]; rfl
  case next =>
    rintro n x k m d only isle here entry due live advances rfl kind needed tag absent missing
    refine .of_onDev (Dev.tokenApply n x) (fun _ => rfl) ?_
    rw [Dev.tokenApply_of_single only isle here entry due live advances,
      Dev.applyTok_of_next (d := d.lanesEmptied) kind needed tag absent,
      Dev.completeEntry_of_missing (by rw [Dev.ment_setMent_same]; exact missing)]
    rfl
  case stale =>
    rintro n x k m s d only isle here entry due live advances rfl kind notCurrent notNext missing rfl room
    refine .of_onDev (Dev.tokenApply n x) (fun _ => rfl) ?_
    have counted : (d.lanesEmptied.inc (IS_CNT1_STALE n)).isle n = d.isle n := congrArg (tget Isle.reset · n) (Dev.isles_inc ..)
    rw [Dev.tokenApply_of_single only isle here entry due live advances,
      Dev.applyTok_of_stale (d := d.lanesEmptied) kind notCurrent notNext,
      Dev.completeEntry_of_missing (by rw [counted]; exact missing)]
    refine ⟨Dev.rd_inc_same d.lanesEmptied _ (by simp) (by simp) room, fun a out => Dev.reg_inc_ne d.lanesEmptied _ (by simpa using out), ?_⟩
    exact Dev.eq_of_beyondRegs (d := d.lanesEmptied) (Dev.beyondRegs_inc ..)

end Sys2Proof.Machine

/-! ## The isle sequencer treats a firing request (R110, R112, R113, R114)

A request of this ACLK is taken off the isle's queue and then starts its group, makes it pending, is deferred or is an overrun. -/
namespace Sys2Proof.Machine

/-! ### Groups of an isle -/

theorem Dev.isle_modGrp_same (n g : Nat) (f : Group → Group) (d : Dev) :
    (d.modGrp n g f).isle n = { d.isle n with groups := tset Group.reset (d.isle n).groups g (f ((d.isle n).grp g)) } := d.isle_setIsle_same n _

theorem Dev.grp_modGrp_same (n g : Nat) (f : Group → Group) (d : Dev) : ((d.modGrp n g f).isle n).grp g = f ((d.isle n).grp g) := by
  rw [Dev.isle_modGrp_same]
  exact tget_tset_same ..

/-- The block without its registers and its isles. -/
def Dev.beyondIsleRegs (d : Dev) : Dev := { d with regs := [], flags := [], isles := [] }

theorem Dev.eq_of_beyondIsleRegs {d e : Dev} (h : e.beyondIsleRegs = d.beyondIsleRegs) : e = { d with regs := e.regs, flags := e.flags, isles := e.isles } :=
  congrArg (fun x : Dev => { x with regs := e.regs, flags := e.flags, isles := e.isles }) h

theorem Dev.mem_of_beyondIsleRegs {d e : Dev} (h : e.beyondIsleRegs = d.beyondIsleRegs) : e.mem = d.mem := (congrArg (fun x : Dev => x.mem) h :)
theorem Dev.net_of_beyondIsleRegs {d e : Dev} (h : e.beyondIsleRegs = d.beyondIsleRegs) : e.net = d.net := (congrArg (fun x : Dev => x.net) h :)

@[simp] theorem Dev.beyondIsleRegs_setIsle (n : Nat) (i : Isle) (d : Dev) : (d.setIsle n i).beyondIsleRegs = d.beyondIsleRegs := rfl
@[simp] theorem Dev.beyondIsleRegs_wr (f : Fld) (v : Nat) (d : Dev) : (d.wr f v).beyondIsleRegs = d.beyondIsleRegs := rfl
@[simp] theorem Dev.beyondIsleRegs_inc (f : Fld) (d : Dev) : (d.inc f).beyondIsleRegs = d.beyondIsleRegs := by rw [Dev.inc_frame]; rfl

/-! ### The request that is taken -/

/-- The block with `rest` as what is left of the requests of isle `n`. -/
def Dev.reqTaken (n : Nat) (rest : List FireReq) (d : Dev) : Dev := d.setIsle n { d.isle n with reqs := rest }

section
variable (n : Nat) (rest : List FireReq) (d : Dev)

theorem Dev.isle_reqTaken_same : (d.reqTaken n rest).isle n = { d.isle n with reqs := rest } := d.isle_setIsle_same n _

theorem Dev.isleLive_reqTaken : (d.reqTaken n rest).isleLive n = d.isleLive n := by
  rw [Dev.isleLive, Dev.isle_reqTaken_same]
  rfl

theorem Dev.grpActive_reqTaken (g : Nat) : (d.reqTaken n rest).grpActive n g = d.grpActive n g := by
  rw [Dev.grpActive, Dev.isle_reqTaken_same]
  rfl

theorem Dev.conflictsWith_reqTaken (g h : Nat) : (d.reqTaken n rest).conflictsWith n g h = d.conflictsWith n g h := by
  rw [Dev.conflictsWith, Dev.grpActive_reqTaken, Dev.isle_reqTaken_same]
  rfl

end

/-- No group goes before. -/
theorem Dev.firingRequest_of_first {n g : Nat} {d : Dev} (first : d.ahead n g = []) : d.firingRequest n g = d.serveGroup n g := by
  rw [Dev.firingRequest, first]
  rfl

/-- What becomes of the oldest request, for an enabled group of a live isle. -/
theorem Dev.serveGroup_of_head {n g : Nat} {q : FireReq} {rest : List FireReq} {d : Dev} (head : (d.isle n).reqs = q :: rest) (mine : q.group = g)
    (due : q.at_ ≤ d.now) (advances : d.advances n = true) (live : d.isleLive n = true) (enabled : d.on (IS_GRPg_EN n g) = true) : d.serveGroup n g =
      if ((d.isle n).grp g).pend then (((d.reqTaken n rest).inc (IS_CNT0_FOVR n)).f0 0x04 n).retryFiring n g
      else if d.grpActive n g || ((d.isle n).grp g).saved then (d.reqTaken n rest).modGrp n g (fun x => { x with pend := true, pendRa := q.ra })
      else if (List.range 16).any (d.conflictsWith n g) then
        (((d.reqTaken n rest).inc (IS_CNT0_DEFER n)).modGrp n g (fun x => { x with pend := true, defd := true, pendRa := q.ra })).maybePreempt n g
      else (d.reqTaken n rest).startGroup n g q.ra := by
  have taken : d.takeReq n g = some (q, rest) := by
    rw [Dev.takeReq, head, takeFirst, if_pos (by simp [mine, due, advances])]
  have allowed : ¬ (¬ (d.reqTaken n rest).isleLive n = true ∨ ¬ (d.reqTaken n rest).on (IS_GRPg_EN n g) = true) := by
    rw [Dev.isleLive_reqTaken]
    exact fun bad => bad.elim (fun dead => dead live) fun off => off enabled
  have conflicts : (d.reqTaken n rest).conflictsWith n g = d.conflictsWith n g := funext fun h => d.conflictsWith_reqTaken n rest g h
  unfold Dev.serveGroup
  rw [taken]
  dsimp only
  rw [← Dev.reqTaken, if_neg allowed, Dev.grpActive_reqTaken, conflicts]

/-! ### The start of an activation (R110, R112, R114) -/

/-- A group as its activation starts. -/
def Group.started (ra : Option RaMark) (x : Group) : Group :=
  { x with tag := x.actcnt, actcnt := x.actcnt + 1, pend := false, defd := false, ra := ra, pendRa := none, noPre := false }

/-- A member cell as the activation of group `g` starts in ACLK `now`. -/
def Cell.started (g now : Nat) (x : Cell) : Cell := { x with mode := .run (tget 0 x.resume g), group := g, nextAt := now }

/-- The isle takes the plane of group `g`, unless PKEEP is set. -/
def Dev.planeTaken (n g : Nat) (d : Dev) : Dev := if d.on (IS_GRPg_PKEEP n g) then d else d.wr (IS_STAT_APL n) (d.rd (IS_GRPg_PLANE n g))

/-- The group becomes active. -/
def Dev.groupOn (n g : Nat) (ra : Option RaMark) (d : Dev) : Dev :=
  ((d.modGrp n g (Group.started ra)).wrBit (IS_STAT_ACTIVE n) g true).planeTaken n g

/-- Each of the cells starts. -/
def Dev.cellsStarted (n g : Nat) (cs : List Nat) (d : Dev) : Dev := forList cs (fun c d => d.modCell n c (Cell.started g d.now)) d

section
variable (n g : Nat) (ra : Option RaMark) (cs : List Nat) (d : Dev)

theorem Dev.isles_planeTaken : (d.planeTaken n g).isles = d.isles := by
  unfold Dev.planeTaken
  split <;> rfl

theorem Dev.reg_planeTaken_ne {a : Nat} (h : a ≠ IS_STAT n) : (d.planeTaken n g).reg a = d.reg a := by
  unfold Dev.planeTaken
  split
  · rfl
  · exact d.reg_wr_ne _ _ h

theorem Dev.rd_active_planeTaken : (d.planeTaken n g).rd (IS_STAT_ACTIVE n) = d.rd (IS_STAT_ACTIVE n) := by
  unfold Dev.planeTaken
  split
  · rfl
  · exact d.rd_wr_disjoint _ _ _ (by simp) (by simp) (by simp)

theorem Dev.rd_apl_planeTaken :
    (d.planeTaken n g).rd (IS_STAT_APL n) = if d.on (IS_GRPg_PKEEP n g) then d.rd (IS_STAT_APL n) else d.rd (IS_GRPg_PLANE n g) := by
  unfold Dev.planeTaken
  split
  · rfl
  · rw [d.rd_wr_same _ _ (by simp) (by simp)]
    exact Nat.mod_eq_of_lt (d.rd_lt (IS_GRPg_PLANE n g))

theorem Dev.beyondIsleRegs_planeTaken : (d.planeTaken n g).beyondIsleRegs = d.beyondIsleRegs := by
  unfold Dev.planeTaken
  split <;> rfl

theorem Dev.isles_groupOn : (d.groupOn n g ra).isles = (d.modGrp n g (Group.started ra)).isles := Dev.isles_planeTaken ..

theorem Dev.isle_groupOn (k : Nat) : (d.groupOn n g ra).isle k = (d.modGrp n g (Group.started ra)).isle k := by
  rw [Dev.isle, Dev.isles_groupOn, ← Dev.isle]

theorem Dev.reg_groupOn_ne {a : Nat} (h : a ≠ IS_STAT n) : (d.groupOn n g ra).reg a = d.reg a :=
  (Dev.reg_planeTaken_ne _ _ _ h).trans (Dev.reg_wrBit_ne _ _ _ _ h)

theorem Dev.rd_mask_groupOn : (d.groupOn n g ra).rd (IS_GRPg_MASK n g) = d.rd (IS_GRPg_MASK n g) :=
  Dev.rd_eq (d.reg_groupOn_ne n g ra (by grind))

theorem Dev.beyondIsleRegs_groupOn : (d.groupOn n g ra).beyondIsleRegs = d.beyondIsleRegs := Dev.beyondIsleRegs_planeTaken ..

theorem Dev.now_groupOn : (d.groupOn n g ra).now = d.now := (congrArg Dev.now (d.beyondIsleRegs_groupOn n g ra) :)

theorem Dev.active_groupOn (lt : g < 16) : (d.groupOn n g ra).rdBit (IS_STAT_ACTIVE n) g = true := by
  rw [Dev.rdBit, Dev.groupOn, Dev.rd_active_planeTaken, ← Dev.rdBit]
  exact Dev.rdBit_wrBit_same _ _ _ _ (by simp) (by simp) (by simpa using lt)

/-- The group's own register and the plane in force are those of before. -/
theorem Dev.rd_apl_groupOn :
    (d.groupOn n g ra).rd (IS_STAT_APL n) = if d.on (IS_GRPg_PKEEP n g) then d.rd (IS_STAT_APL n) else d.rd (IS_GRPg_PLANE n g) := by
  have grp : ((d.modGrp n g (Group.started ra)).wrBit (IS_STAT_ACTIVE n) g true).reg (IS_GRPg n g) = d.reg (IS_GRPg n g) :=
    Dev.reg_wrBit_ne _ _ _ _ (by grind)
  have apl : ((d.modGrp n g (Group.started ra)).wrBit (IS_STAT_ACTIVE n) g true).rd (IS_STAT_APL n) = d.rd (IS_STAT_APL n) :=
    Dev.rd_wrBit_disjoint _ _ _ _ _ (by simp) (by simp) (by simp)
  rw [Dev.groupOn, Dev.rd_apl_planeTaken, Dev.on, Dev.rd_eq (f := IS_GRPg_PKEEP n g) grp, ← Dev.on, apl, Dev.rd_eq (f := IS_GRPg_PLANE n g) grp]

/-- Beside the cells of the isle nothing changes as they start. -/
theorem Dev.beyondIsles_cellsStarted : (d.cellsStarted n g cs).beyondIsles = d.beyondIsles := forList_keeps Dev.beyondIsles cs d fun _ _ _ => rfl

theorem Dev.isle_cellsStarted_ne {k : Nat} (h : k ≠ n) : (d.cellsStarted n g cs).isle k = d.isle k :=
  forList_keeps (fun e => e.isle k) cs d fun _ _ e => e.isle_setIsle_ne _ h

theorem Dev.isle_cellsStarted_same : { (d.cellsStarted n g cs).isle n with cells := [] } = { d.isle n with cells := [] } :=
  forList_keeps (fun e => { e.isle n with cells := [] }) cs d fun _ _ e => by
    dsimp only
    rw [Dev.isle_modCell_same]
    rfl

/-- Each of them starts at its resume index, named once or more. -/
theorem Dev.cell_cellsStarted {c : Nat} (member : c ∈ cs) :
    ((d.cellsStarted n g cs).isle n).cell c = ((d.isle n).cell c).started g d.now := by
  have turn (x : Nat) (e : Dev) : (((e.modCell n x (Cell.started g e.now)).isle n).cell c).started g e.now = ((e.isle n).cell c).started g e.now := by
    rw [Dev.isle_modCell_same]
    by_cases same : c = x
    · rw [same, Isle.cell_setCell_same]; rfl
    · rw [Isle.cell, Isle.setCell, tget_tset_ne _ _ _ _ same]; rfl
  refine (forList_pivot
    (fun e : Dev => e.now = d.now ∧ ((e.isle n).cell c).started g d.now = ((d.isle n).cell c).started g d.now)
    (fun e : Dev => e.now = d.now ∧ (e.isle n).cell c = ((d.isle n).cell c).started g d.now) member ⟨rfl, rfl⟩ ?_ ?_ ?_).2
  · rintro x e ⟨now, cell⟩
    exact ⟨now, now ▸ (turn x e).trans (now.symm ▸ cell)⟩
  · rintro e ⟨now, cell⟩
    refine ⟨now, ?_⟩
    rw [Dev.isle_modCell_same, Isle.cell_setCell_same, now, cell]
  · rintro x e ⟨now, cell⟩
    refine ⟨now, ?_⟩
    rw [Dev.isle_modCell_same]
    by_cases same : c = x
    · rw [← same, Isle.cell_setCell_same, cell, now]; rfl
    · rw [Isle.cell, Isle.setCell, tget_tset_ne _ _ _ _ same, ← Isle.cell, cell]

/-- A group with members becomes active, and they start. -/
theorem Dev.startGroup_of_members (members : d.rd (IS_GRPg_MASK n g) ≠ 0) :
    d.startGroup n g none = (d.groupOn n g none).cellsStarted n g (maskCells (d.rd (IS_GRPg_MASK n g))) := by
  have regs (cs : List Nat) : ((d.groupOn n g none).cellsStarted n g cs).rd (IS_GRPg_MASK n g) = d.rd (IS_GRPg_MASK n g) := by
    rw [Dev.rd_of_regs (Dev.regs_of_beyondIsles (Dev.beyondIsles_cellsStarted ..)), Dev.rd_mask_groupOn]
  have start : d.startGroup n g none =
      let e := (d.groupOn n g none).cellsStarted n g (maskCells ((d.groupOn n g none).rd (IS_GRPg_MASK n g)))
      if e.rd (IS_GRPg_MASK n g) = 0 then e.endActivation n g else e := rfl
  rw [start]
  dsimp only
  rw [regs, if_neg members, Dev.rd_mask_groupOn]

/-- The start changes IS_STAT, the group and its members. -/
theorem Dev.startGroup_spec {n g c : Nat} {d : Dev} (lt : g < 16) (member : c ∈ maskCells (d.rd (IS_GRPg_MASK n g))) {e : Dev}
    (starts : d.startGroup n g none = e) :
    (e.isle n).reqs = (d.isle n).reqs ∧ (e.isle n).grp g = ((d.isle n).grp g).started none ∧ (e.isle n).cell c = ((d.isle n).cell c).started g d.now ∧
    (∀ m, m ≠ n → e.isle m = d.isle m) ∧ e.rdBit (IS_STAT_ACTIVE n) g = true ∧
    e.rd (IS_STAT_APL n) = (if d.on (IS_GRPg_PKEEP n g) then d.rd (IS_STAT_APL n) else d.rd (IS_GRPg_PLANE n g)) ∧ RegsBut [IS_STAT n] d e ∧
    e.beyondIsleRegs = d.beyondIsleRegs := by
  have members : d.rd (IS_GRPg_MASK n g) ≠ 0 := fun none_ => by simp [none_, maskCells] at member
  rw [d.startGroup_of_members n g members] at starts
  have isle : (d.groupOn n g none).isle n = { d.isle n with groups := tset Group.reset (d.isle n).groups g (((d.isle n).grp g).started none) } := by
    rw [Dev.isle_groupOn, Dev.isle_modGrp_same]
  have start := (d.groupOn n g none).cell_cellsStarted n g _ member
  have beyond := (d.groupOn n g none).beyondIsles_cellsStarted n g (maskCells (d.rd (IS_GRPg_MASK n g)))
  have others (m : Nat) (ne : m ≠ n) := (d.groupOn n g none).isle_cellsStarted_ne n g (maskCells (d.rd (IS_GRPg_MASK n g))) ne
  have kept := (d.groupOn n g none).isle_cellsStarted_same n g (maskCells (d.rd (IS_GRPg_MASK n g)))
  rw [isle, starts] at kept
  rw [isle, starts, Dev.now_groupOn] at start
  rw [starts] at beyond others
  have regs : e.regs = (d.groupOn n g none).regs := Dev.regs_of_beyondIsles beyond
  have grp : (e.isle n).groups = tset Group.reset (d.isle n).groups g (((d.isle n).grp g).started none) := congrArg (fun i => i.groups) kept
  refine ⟨congrArg (fun i => i.reqs) kept, ?_, start, fun m ne => ?_, ?_, ?_, fun a out => ?_, ?_⟩
  · rw [Isle.grp, grp]; exact tget_tset_same ..
  · rw [others m ne, Dev.isle_groupOn]; exact d.isle_setIsle_ne _ ne
  · rw [Dev.rdBit, Dev.rd_of_regs regs, ← Dev.rdBit]; exact d.active_groupOn n g none lt
  · rw [Dev.rd_of_regs regs, Dev.rd_apl_groupOn]
  · rw [Dev.reg, regs, ← Dev.reg]; exact d.reg_groupOn_ne n g none (by simpa using out)
  · exact (congrArg (fun x : Dev => x.beyondIsleRegs) beyond).trans (d.beyondIsleRegs_groupOn n g none)

end

/-- A cell whose bit the mask has is among its members. -/
theorem mem_maskCells_of_wbit {m c : Nat} (lt : c < 16) (set : wbit (BitVec.ofNat 16 m) c = true) (bound : m < 2 ^ 16) : c ∈ maskCells m := by
  rw [wbit, BitVec.toNat_ofNat, Nat.mod_eq_of_lt bound, decide_eq_true_eq] at set
  exact List.mem_filter.mpr ⟨List.mem_range.mpr lt, by simpa using set⟩

/-! ### A deferred request (R113) -/

/-- A pre-emption may be requested; beside it nothing changes. -/
theorem Dev.maybePreempt_eq (n g : Nat) (d : Dev) : d.maybePreempt n g = d ∨ ∃ pre, d.maybePreempt n g = d.setIsle n { d.isle n with pre := pre } := by
  unfold Dev.maybePreempt
  split
  · exact .inl rfl
  · split
    · exact .inr ⟨_, rfl⟩
    · exact .inl rfl

/-! ### An overrun (R113) -/

/-- What the retry of a pending firing keeps: memory, the overruns counted, the requests of the isle. -/
def Dev.asked (n : Nat) (d : Dev) : List Host.Cell × Nat × List FireReq := (d.mem, d.rd (IS_CNT0_FOVR n), (d.isle n).reqs)

section
variable {n : Nat} (d : Dev)

theorem Dev.asked_setIsle {i : Isle} (same : i.reqs = (d.isle n).reqs) : (d.setIsle n i).asked n = d.asked n := by
  rw [Dev.asked, Dev.isle_setIsle_same, same]
  rfl

theorem Dev.asked_modCell (c : Nat) (f : Cell → Cell) : (d.modCell n c f).asked n = d.asked n := d.asked_setIsle rfl
theorem Dev.asked_modGrp (g : Nat) (f : Group → Group) : (d.modGrp n g f).asked n = d.asked n := d.asked_setIsle rfl

theorem Dev.asked_wr (f : Fld) (v : Nat) (off : IS_CNT0 n ≠ f.addr) : (d.wr f v).asked n = d.asked n := by
  rw [Dev.asked, d.rd_wr_ne f (IS_CNT0_FOVR n) v off]
  rfl

theorem Dev.asked_wrBit (f : Fld) (i : Nat) (b : Bool) (off : IS_CNT0 n ≠ f.addr) : (d.wrBit f i b).asked n = d.asked n := d.asked_wr f _ off

theorem Dev.asked_countDefer : (d.inc (IS_CNT0_DEFER n)).asked n = d.asked n := by
  rw [Dev.asked, d.rd_inc_disjoint (IS_CNT0_DEFER n) (IS_CNT0_FOVR n) (by simp) (by simp) (by simp), Dev.mem_inc, Dev.isle, Dev.isles_inc]
  rfl

theorem Dev.asked_ite {p : Prop} [Decidable p] {b c : Dev} (then_ : b.asked n = d.asked n) (else_ : c.asked n = d.asked n) :
    (if p then b else c).asked n = d.asked n := by
  split
  · exact then_
  · exact else_

theorem Dev.asked_modStep (t k : Nat) (f : LStep → LStep) : (d.modStep t k f).asked n = d.asked n := by
  unfold Dev.modStep Dev.setTask
  exact Dev.asked_wr _ _ _ (by grind)

theorem Dev.asked_withdrawPre (f : Preempt → Bool) : (d.withdrawPre n f).asked n = d.asked n := by
  unfold Dev.withdrawPre
  dsimp only
  refine d.asked_ite rfl ((forUpTo_keeps (Dev.asked n) 16 _ fun c _ e => ?_).trans (d.asked_setIsle rfl))
  exact e.asked_modCell c _

theorem Dev.asked_endActivation (g : Nat) : (d.endActivation n g).asked n = d.asked n := by
  have ended : (((d.withdrawPre n (fun p => p.victim = g)).wrBit (IS_STAT_ACTIVE n) g false).modGrp n g
      (fun x => { x with endAt := (d.withdrawPre n (fun p => p.victim = g)).now + (d.withdrawPre n (fun p => p.victim = g)).step n, ra := none })).asked n =
      d.asked n := by
    rw [Dev.asked_modGrp, Dev.asked_wrBit _ _ _ _ (by simp), Dev.asked_withdrawPre]
  unfold Dev.endActivation
  dsimp only
  split
  · exact d.asked_ite ((Dev.asked_modStep _ _ _ _).trans ended) ended
  · exact ended

theorem Dev.asked_groupOn (g : Nat) (ra : Option RaMark) : (d.groupOn n g ra).asked n = d.asked n := by
  have on : ((d.modGrp n g (Group.started ra)).wrBit (IS_STAT_ACTIVE n) g true).asked n = d.asked n := by
    rw [Dev.asked_wrBit _ _ _ _ (by simp), Dev.asked_modGrp]
  unfold Dev.groupOn Dev.planeTaken
  exact d.asked_ite on ((Dev.asked_wr _ _ _ (by simp)).trans on)

theorem Dev.asked_cellsStarted (g : Nat) (cs : List Nat) : (d.cellsStarted n g cs).asked n = d.asked n :=
  forList_keeps (Dev.asked n) cs d fun c _ e => e.asked_modCell c _

/-- A tail that starts in its ACLK is noted for its step. -/
def Dev.noteTail (ra : Option RaMark) (d : Dev) : Dev :=
  match ra with
  | some m => if m.head then d else
      d.modStep m.task m.step (fun s => if s.tailAt = some d.now then { s with tailStarts := s.tailStarts + 1 } else s)
  | none => d

theorem Dev.asked_noteTail (ra : Option RaMark) : (d.noteTail ra).asked n = d.asked n := by
  unfold Dev.noteTail
  split
  · exact d.asked_ite rfl (d.asked_modStep _ _ _)
  · rfl

theorem Dev.startGroup_eq (g : Nat) (ra : Option RaMark) : d.startGroup n g ra =
    let e := ((d.groupOn n g ra).noteTail ra).cellsStarted n g (maskCells (((d.groupOn n g ra).noteTail ra).rd (IS_GRPg_MASK n g)))
    if e.rd (IS_GRPg_MASK n g) = 0 then e.endActivation n g else e := rfl

theorem Dev.asked_startGroup (g : Nat) (ra : Option RaMark) : (d.startGroup n g ra).asked n = d.asked n := by
  have started (cs : List Nat) : (((d.groupOn n g ra).noteTail ra).cellsStarted n g cs).asked n = d.asked n := by
    rw [Dev.asked_cellsStarted, Dev.asked_noteTail, Dev.asked_groupOn]
  rw [Dev.startGroup_eq]
  exact d.asked_ite ((Dev.asked_endActivation _ g).trans (started _)) (started _)

theorem Dev.asked_saveFlags (g : Nat) : (d.saveFlags n g).asked n = d.asked n := by
  unfold Dev.saveFlags
  refine forUpTo_keeps (Dev.asked n) 2 d fun s _ e => ?_
  dsimp only
  refine e.asked_ite ?_ rfl
  split
  · exact e.asked_setIsle rfl
  · rfl

theorem Dev.asked_maybePreempt (g : Nat) : (d.maybePreempt n g).asked n = d.asked n := by
  obtain same | ⟨pre, requested⟩ := d.maybePreempt_eq n g
  · rw [same]
  · rw [requested]; exact d.asked_setIsle rfl

theorem Dev.asked_retryFiring (g : Nat) : (d.retryFiring n g).asked n = d.asked n := by
  unfold Dev.retryFiring
  dsimp only
  refine d.asked_ite rfl ?_
  split
  · refine d.asked_ite ?_ rfl
    rw [Dev.asked_startGroup, Dev.asked_saveFlags]
    exact d.asked_setIsle rfl
  · refine d.asked_ite rfl (d.asked_ite ?_ ?_)
    · rw [Dev.asked_maybePreempt]
      exact d.asked_ite rfl ((Dev.asked_modGrp _ _ _).trans d.asked_countDefer)
    · rw [Dev.asked_startGroup, Dev.asked_withdrawPre]

/-- Nothing to retry while the group is active or saved, unless its pre-emption has completed. -/
theorem Dev.retryFiring_of_busy {g : Nat} (noStart : (d.isle n).preStart.all (fun p => p.1 ≠ g) = true)
    (busy : d.grpActive n g = true ∨ ((d.isle n).grp g).saved = true) : d.retryFiring n g = d := by
  have none_ : (d.isle n).preStart.find? (fun p => p.1 = g) = none := by
    rw [List.find?_eq_none]
    intro p mem
    have ne := List.all_eq_true.mp noStart p mem
    simpa using ne
  unfold Dev.retryFiring
  dsimp only
  rw [none_]
  split
  · rfl
  · exact if_pos (by simpa using busy)

end

/-! ### Settled -/

/-- Settles O19: the request is taken, then one case of the sequencer for each clause; for an overrun, what the retry after it keeps. -/
theorem firingRequests : Obligations.FiringRequests := by
  unfold Obligations.FiringRequests
  refine ⟨?queued, ?starts, ?pending, ?deferred, ?overrun⟩
  case queued =>
    intro n g d
    refine .of_onDev (fun d => (d.wr (IS_FIRE_GROUP n) g).fireReq n g (d.now + 1) none) (fun _ => rfl) ⟨?_, ?_, fun a out => ?_, rfl⟩
    · rw [Dev.isle_fireReq_same]; rfl
    · refine (d.rd_wr_same (IS_FIRE_GROUP n) g (by simp) (by simp)).trans (Nat.mod_eq_of_lt ?_)
      exact g.isLt
    · exact d.reg_wr_ne (IS_FIRE_GROUP n) g (by simpa using out)
  case starts =>
    rintro n g q rest c d head mine due first advances live enabled notPending inactive notSaved noConflict plain member
    refine .of_onDev (Dev.firingRequest n g) (fun _ => rfl) ?_
    have noneConflicts : (List.range 16).any (d.conflictsWith n g) = false :=
      List.any_eq_false.mpr fun h mem => by simp [noConflict ⟨h, List.mem_range.mp mem⟩]
    have cell : (c : Nat) ∈ maskCells (d.rd (IS_GRPg_MASK n g)) := mem_maskCells_of_wbit c.isLt member (d.rd_lt (IS_GRPg_MASK n g))
    rw [Dev.firingRequest_of_first first, Dev.serveGroup_of_head head mine due advances live enabled, notPending, inactive, notSaved, noneConflicts, plain,
      if_neg Bool.false_ne_true, if_neg (by simp), if_neg Bool.false_ne_true]
    generalize started : (d.reqTaken n rest).startGroup n g none = e
    obtain ⟨reqs, grp, run, others, active, plane, regs, frame⟩ := Dev.startGroup_spec (d := d.reqTaken n rest) g.isLt cell started
    rw [Dev.isle_reqTaken_same] at reqs grp run
    exact ⟨reqs, active, run, congrArg (fun x => x.tag) grp, congrArg (fun x => x.actcnt) grp, plane, regs,
      fun m ne => (others m ne).trans (d.isle_setIsle_ne _ ne), Dev.eq_of_beyondIsleRegs (d := d) frame⟩
  case pending =>
    rintro n g q rest d head mine due first advances live enabled notPending busy
    refine .of_onDev (Dev.firingRequest n g) (fun _ => rfl) ?_
    rw [Dev.firingRequest_of_first first, Dev.serveGroup_of_head head mine due advances live enabled, notPending, if_neg Bool.false_ne_true,
      if_pos (by simpa using busy)]
    refine ⟨?_, ?_, ?_, rfl⟩
    · rw [Dev.isle_modGrp_same, Dev.isle_reqTaken_same]
    · rw [Dev.grp_modGrp_same, Dev.isle_reqTaken_same]; rfl
    · rw [Dev.isle_modGrp_same, Dev.isle_reqTaken_same]
  case deferred =>
    rintro n g q rest h k d head mine due first advances live enabled notPending inactive notSaved conflicts rfl room
    refine .of_onDev (Dev.firingRequest n g) (fun _ => rfl) ?_
    have anyConflicts : (List.range 16).any (d.conflictsWith n g) = true := List.any_eq_true.mpr ⟨h, List.mem_range.mpr h.isLt, conflicts⟩
    rw [Dev.firingRequest_of_first first, Dev.serveGroup_of_head head mine due advances live enabled, notPending, inactive, notSaved, anyConflicts,
      if_neg Bool.false_ne_true, if_neg (by simp), if_pos rfl]
    generalize grown : ((d.reqTaken n rest).inc (IS_CNT0_DEFER n)).modGrp n g (fun x => { x with pend := true, defd := true, pendRa := q.ra }) = e
    have isle : (e.isle n).reqs = rest ∧ (e.isle n).cells = (d.isle n).cells ∧
        (e.isle n).grp g = { (d.isle n).grp g with pend := true, defd := true, pendRa := q.ra } := by
      have counted : ((d.reqTaken n rest).inc (IS_CNT0_DEFER n)).isle n = { d.isle n with reqs := rest } := by
        rw [Dev.isle, Dev.isles_inc, ← Dev.isle, Dev.isle_reqTaken_same]
      rw [← grown, Dev.grp_modGrp_same, Dev.isle_modGrp_same, counted]
      exact ⟨rfl, rfl, rfl⟩
    have count : e.rd (IS_CNT0_DEFER n) = d.rd (IS_CNT0_DEFER n) + 1 := by
      rw [← grown]
      exact Dev.rd_inc_same (d.reqTaken n rest) _ (by simp) (by simp) room
    have regs : RegsBut [IS_CNT0 n] d e := fun a out => by
      rw [← grown]
      exact Dev.reg_inc_ne (d.reqTaken n rest) (IS_CNT0_DEFER n) (by simpa using out)
    have frame : e.beyondIsleRegs = d.beyondIsleRegs := by
      rw [← grown]
      exact Dev.beyondIsleRegs_inc (IS_CNT0_DEFER n) (d.reqTaken n rest)
    obtain ⟨reqs, cells, grp⟩ := isle
    obtain same | ⟨pre, requested⟩ := e.maybePreempt_eq n g
    · rw [same, grp]
      exact ⟨rfl, rfl, count, reqs, cells, regs, Dev.eq_of_beyondIsleRegs frame⟩
    · rw [requested, Dev.isle_setIsle_same]
      exact ⟨congrArg (fun x => x.pend) grp, congrArg (fun x => x.pendRa) grp, count, reqs, cells, regs, Dev.eq_of_beyondIsleRegs (d := d) frame⟩
  case overrun =>
    rintro n g q rest k d head mine due first advances live enabled pending rfl room
    refine .of_onDev (Dev.firingRequest n g) (fun _ => rfl) ?_
    rw [Dev.firingRequest_of_first first, Dev.serveGroup_of_head head mine due advances live enabled, pending, if_pos rfl]
    generalize counted : ((d.reqTaken n rest).inc (IS_CNT0_FOVR n)).f0 0x04 n = e
    have steady : e.steady = ((d.reqTaken n rest).inc (IS_CNT0_FOVR n)).steady := counted ▸ Dev.steady_f0 ..
    have isles : e.isles = (d.reqTaken n rest).isles := (Dev.isles_of_steady steady).trans (Dev.isles_inc ..)
    have isle : e.isle n = { d.isle n with reqs := rest } := by rw [Dev.isle, isles, ← Dev.isle, Dev.isle_reqTaken_same]
    have count : e.rd (IS_CNT0_FOVR n) = d.rd (IS_CNT0_FOVR n) + 1 := by
      rw [Dev.rd_eq (f := IS_CNT0_FOVR n) (Dev.reg_of_steady steady (by grind))]
      exact Dev.rd_inc_same (d.reqTaken n rest) _ (by simp) (by simp) room
    have asked := e.asked_retryFiring (n := n) g
    refine ⟨(congrArg (fun v => v.2.1) asked).trans count, (congrArg (fun v => v.2.2) asked).trans (congrArg (fun i => i.reqs) isle),
      fun busy noStart => ?_, ?_⟩
    · have stat : e.reg (IS_STAT n) = d.reg (IS_STAT n) :=
        (Dev.reg_of_steady steady (by grind)).trans (Dev.reg_inc_ne (d.reqTaken n rest) (IS_CNT0_FOVR n) (by grind))
      have active : e.grpActive n g = d.grpActive n g := by
        rw [Dev.grpActive, Dev.rdBit, Dev.rd_eq (f := IS_STAT_ACTIVE n) stat, isle, Dev.now_of_steady steady, Dev.inc_frame]
        rfl
      rw [e.retryFiring_of_busy (by rw [isle]; exact noStart) (by rw [active, isle]; exact busy), isle]
      exact ⟨rfl, rfl⟩
    · refine (congrArg Prod.fst asked).trans ((Dev.mem_of_steady steady).trans ?_)
      exact Dev.mem_inc ..

end Sys2Proof.Machine

/-! ## The stream DMA port of an isle and the isle's counters (R128, R129, R291, R300)

A trigger joins the port's queue; a free port reads the descriptor of the next trigger in its lagoon and issues the first packet; a transfer ends with its
token or its error. -/
namespace Sys2Proof.Machine

/-! ### The port -/

theorem Dev.xfer_port (n : Nat) (d : Dev) : d.xfer (128 + n) = (d.isle n).xfer := by
  rw [Dev.xfer, if_neg (by omega), Nat.add_sub_cancel_left]

/-- The port without a descriptor, and with one in progress. -/
theorem Dev.setXfer_port_none (n : Nat) (d : Dev) :
    d.setXfer (128 + n) none = (d.setIsle n { d.isle n with xfer := none }).wrb (IS_SSTAT_BUSY n) false := by
  rw [Dev.setXfer, if_neg (by omega), Nat.add_sub_cancel_left]
  rfl

theorem Dev.setXfer_port_some (n : Nat) (x : Xfer) (d : Dev) : d.setXfer (128 + n) (some x) =
    ((d.setIsle n { d.isle n with xfer := some x }).wrb (IS_SSTAT_BUSY n) true).wr (IS_SSTAT_TRIG n) x.trig := by
  rw [Dev.setXfer, if_neg (by omega), Nat.add_sub_cancel_left]
  rfl

/-- A command with no access held at its NI happens. -/
theorem Dev.unlessHeld_of_free {f : Dev → Dev} {d : Dev} (free : (f d).net.stall = false) : d.unlessHeld f = f d :=
  if_neg (by rw [free]; decide)

theorem Dev.rd_busy_wrb (n : Nat) (b : Bool) (d : Dev) : (d.wrb (IS_SSTAT_BUSY n) b).rd (IS_SSTAT_BUSY n) = b2n b := by
  rw [Dev.wrb, Dev.rd_wr_same _ _ _ (by simp) (by simp)]
  cases b <;> rfl

/-- A flag that hardware sets leaves the fields beside it. -/
theorem Dev.rd_setFlag_disjoint (d : Dev) (f g : Fld) (h : f.lo ≤ f.hi + 1) (h32 : f.hi < 32) (hd : g.addr ≠ f.addr ∨ f.hi < g.lo ∨ g.hi < f.lo) :
    (d.setFlag f).rd g = d.rd g := d.rd_wr_disjoint f g 1 h h32 hd

/-! ### The next trigger (R128) -/

/-- A fifth trigger is dropped. -/
theorem Dev.streamTrig_of_full {n t : Nat} {d : Dev} (full : 4 ≤ (d.isle n).sq.length) :
    d.streamTrig n t = (d.setFlag (IS_SSTAT_QOVR n)).f0 0x05 n := if_neg (by omega)

/-- The block once the next trigger has left the port's queue, with `rest` behind it. -/
def Dev.trigTaken (n : Nat) (rest : List Nat) (d : Dev) : Dev := (d.setIsle n { d.isle n with sq := rest }).wr (IS_SSTAT_QLEN n) rest.length

theorem Dev.isle_trigTaken_same (n : Nat) (rest : List Nat) (d : Dev) : (d.trigTaken n rest).isle n = { d.isle n with sq := rest } :=
  d.isle_setIsle_same n _

theorem Dev.reg_trigTaken_ne (n : Nat) (rest : List Nat) (d : Dev) {a : Nat} (h : a ≠ IS_SSTAT n) : (d.trigTaken n rest).reg a = d.reg a :=
  Dev.reg_wr_ne _ _ _ h

theorem Dev.streamStart_of_next {n t : Nat} {rest : List Nat} {d : Dev} (next : (d.isle n).sq = t :: rest) (idle : (d.isle n).xfer = none)
    (live : d.isleLive n = true) (isOpen : d.net.closed.contains n = false) (fits : d.rd (IS_SDBASE_BASE n) + 8 * t + 8 ≤ 0x8000) :
    d.streamStart n = (d.trigTaken n rest).descStart (128 + n) t (0x10000000 + n * 0x20000 + 4 * (d.rd (IS_SDBASE_BASE n) + 8 * t)) := by
  have base : (d.trigTaken n rest).rd (IS_SDBASE_BASE n) = d.rd (IS_SDBASE_BASE n) := Dev.rd_eq (d.reg_trigTaken_ne n rest (by grind))
  unfold Dev.streamStart
  dsimp only
  rw [next]
  dsimp only
  rw [if_neg (by rw [idle, live, isOpen]; simp), ← Dev.trigTaken, base, if_neg (by omega)]

/-! ### The read of a lagoon -/

theorem areaOf_lagoon {a : Nat} (low : 0x10000000 ≤ a) (high : a < 0x10C00000) : areaOf a = 1 := by
  rw [areaOf, if_neg (by omega), if_pos ⟨low, high⟩]

theorem codeWord_lagoon {a : Nat} (low : 0x10000000 ≤ a) (high : a < 0x10C00000) : codeWord a = a / 4 * 4 := if_pos ⟨low, high⟩

/-- The code words of bytes in the lagoons lie there. -/
theorem areaOf_of_mem_codeWords {a n w : Nat} (low : 0x10000000 ≤ a) (high : a + n ≤ 0x10C00000) (mem : w ∈ codeWords a n) : areaOf w = 1 := by
  obtain ⟨i, lt, rfl⟩ : ∃ i, i < n ∧ codeWord (a + i) = w := by simpa [codeWords] using mem
  rw [codeWord_lagoon (by omega) (by omega)]
  exact areaOf_lagoon (by omega) (by omega)

/-- A word without an error is read and changes nothing. -/
theorem Dev.readWord_of_clean {w : Nat} {d : Dev} (sram : areaOf w ≠ 9) (clean : d.wordErr w = 0) : d.readWord w = (false, d) := by
  have read : d.eccRead w 0 = (false, d) := by
    unfold Dev.eccRead Dev.eccReadAs
    rw [clean]
    rfl
  unfold Dev.readWord
  rw [if_neg sram, read]
  split <;> rfl

theorem Dev.readWords_of_clean {ws : List Nat} {d : Dev} (clean : ∀ w ∈ ws, areaOf w ≠ 9 ∧ d.wordErr w = 0) : d.readWords ws = (false, d) := by
  refine List.foldlRecOn (motive := fun r : Bool × Dev => r = (false, d)) ws _ rfl fun r ih w mem => ?_
  obtain ⟨sram, clean⟩ := clean w mem
  rw [ih, Dev.readWord_of_clean sram clean]
  rfl

/-- A lagoon answers a read while its isle's domain is up. -/
theorem Dev.memStatus_lagoon {n a : Nat} {d : Dev} (low : 0x10000000 + n * 0x20000 ≤ a) (high : a < 0x10000000 + (n + 1) * 0x20000) (lt : n < 96)
    (up : d.domUp n = true) (isOpen : d.net.closed.contains n = false) : d.memStatus a = 0 := by
  have home : (a - 0x10000000) / 0x20000 = n := by omega
  have domain : memDomain a = some n := by
    rw [memDomain, areaOf_lagoon (by omega) (by omega), home]
    rfl
  have online : d.offline n = false := by rw [Dev.offline, isOpen, up]; rfl
  unfold Dev.memStatus
  rw [domain]
  dsimp only
  rw [online]
  rfl

/-- A unit's read of lagoon bytes without an error returns them and is counted at its NI. -/
theorem Dev.niRead_lagoon {i a m : Nat} {d : Dev} (low : 0x10000000 ≤ a) (high : a + m ≤ 0x10C00000) (some_ : 0 < m) (free : d.niHold i a = d)
    (up : d.memStatus a = 0) (clean : ∀ w ∈ codeWords a m, d.wordErr w = 0) : d.niRead i a m = ((0, d.loadBytes a m), d.niCount i m false true) := by
  have lagoon : areaOf a = 1 := areaOf_lagoon low (by omega)
  have words : d.readWords (codeWords a m) = (false, d) :=
    Dev.readWords_of_clean fun w mem => ⟨by rw [areaOf_of_mem_codeWords low high mem]; decide, clean w mem⟩
  have enter : d.niEnter i a m = d := by
    rw [Dev.niEnter, free, Dev.dramTurn, lagoon]
    rfl
  have read : d.busRead a m = ((0, d.loadBytes a m), d) := by
    unfold Dev.busRead
    rw [lagoon]
    change d.memRead a m = _
    rw [Dev.memRead, Dev.serveAhead, lagoon, if_neg (by decide), Dev.memReadNow, up]
    dsimp only
    rw [words]
    rfl
  rw [Dev.niRead, enter, read]
  rfl

/-! ### What an NI counts (R293) -/

theorem latencyBin_lt (l : Nat) : latencyBin l < 8 := by
  unfold latencyBin
  cases found : (List.range 7).find? (fun k => l < 32 * 2 ^ k) with
  | none => decide
  | some k =>
    have lt := List.mem_range.mp (List.mem_of_find?_eq_some found)
    exact Nat.lt_succ_of_lt lt

/-- The counters of an NI lie in its block of registers. -/
theorem bounds_of_mem_niRegs {i a : Nat} (mem : a ∈ niRegs i) : 0x40071008 + 0x40 * i ≤ a ∧ a < 0x40071040 + 0x40 * i := by
  simp only [niRegs, List.cons_append, List.nil_append, List.mem_cons, List.mem_map, List.mem_range] at mem
  rcases mem with rfl | rfl | rfl | rfl | rfl | ⟨k, lt, rfl⟩ <;> constructor <;> grind

theorem Dev.onlyRegs_countBytes (i n : Nat) (write : Bool) (d : Dev) : OnlyRegs (niRegs i) d (d.countBytes i n write) := by
  unfold Dev.countBytes
  split
  · split
    · exact (OnlyRegs.refl _ d).wr64 _ (by simp [niRegs]) (by simp [niRegs])
    · exact (OnlyRegs.refl _ d).wr64 _ (by simp [niRegs]) (by simp [niRegs])
  · exact OnlyRegs.refl _ d

theorem Dev.onlyRegs_countLatency (i l : Nat) (d : Dev) : OnlyRegs (niRegs i) d (d.countLatency i l) := by
  unfold Dev.countLatency
  split
  · refine ((OnlyRegs.refl _ d).inc ?_).wr _ (by simp [niRegs])
    exact List.mem_append_right _ (List.mem_map_of_mem (List.mem_range.mpr (latencyBin_lt l)))
  · exact OnlyRegs.refl _ d

theorem Dev.onlyRegs_niCount (i n : Nat) (write ok : Bool) (d : Dev) : OnlyRegs (niRegs i) d (d.niCount i n write ok) := by
  unfold Dev.niCount
  split
  · exact (d.onlyRegs_countBytes i n write).trans (Dev.onlyRegs_countLatency ..)
  · exact d.onlyRegs_countLatency ..

/-! ### The first packet (R284, R296) -/

theorem Dev.niOf_lagoon {a : Nat} (d : Dev) (lagoon : areaOf a = 1) :
    d.niOf a = (a - 0x10000000) / 0x20000 % 12 / 2 + (a - 0x10000000) / 0x20000 / 12 / 2 * 6 := by
  simp only [Dev.niOf, lagoon]

/-- Where an access waits for nothing, its NI holds nothing back; that depends on the routes alone for an address of a lagoon. -/
theorem Dev.niHold_lagoon {i a : Nat} {d e : Dev} (lagoon : areaOf a = 1) (net : e.net = d.net) (free : (d.niHold i a).net.stall = false) :
    e.niHold i a = e ∧ d.net.stall = false := by
  have target : e.niOf a = d.niOf a := by rw [e.niOf_lagoon lagoon, d.niOf_lagoon lagoon]
  have flash (f : Dev) : f.flashHeld a = false := by rw [Dev.flashHeld, lagoon]; rfl
  have routes : e.routeWait i = d.routeWait i := by rw [Dev.routeWait, net, ← Dev.routeWait]
  unfold Dev.niHold at free ⊢
  rw [routes, target, flash]
  rw [flash] at free
  split at free
  · exact absurd free (by simp)
  · next held => exact ⟨if_neg held, free⟩

/-- An address in space 0 is physical. -/
theorem Dev.xlate_physical {q a : Nat} {d : Dev} (inSpace : a < 2 ^ 40) : d.xlate q false 0 a = (.ok a, d) := by
  rw [Dev.xlate, if_neg Bool.false_ne_true, if_neg (by omega), Dev.ioTranslate, if_pos rfl]

/-- The next packet of a copy within the device reads its source. -/
theorem Dev.xferIssue_of_copy {n : Nat} {x : Xfer} {d : Dev} (left : x.prog < x.len) (isOpen : d.net.closed.contains n = false)
    (copies : x.fill = false ∧ x.shost = false ∧ x.dhost = false) (physical : wbits x.w0 7 4 = 0 ∧ wbits x.w0 11 8 = 0)
    (src : x.src + x.prog < 2 ^ 40) (dst : x.dst + x.prog < 2 ^ 40) : d.xferIssue (128 + n) x =
      (d.setXfer (128 + n) (some { x with dpa := x.dst + x.prog, phase := 1 })).send
        (d.reqPacket (128 + n) (x.src + x.prog) x.chunk (wbit x.w0 14) false false []) := by
  obtain ⟨copy, shost, dhost⟩ := copies
  obtain ⟨from_, to_⟩ := physical
  have closed : ¬ (x.len ≤ x.prog ∨ 4 ≤ 128 + n ∧ d.net.closed.contains (128 + n - 128) = true) := by
    rw [Nat.add_sub_cancel_left, isOpen]
    simpa using left
  unfold Dev.xferIssue
  dsimp only
  rw [if_neg closed, copy, shost, dhost, from_, to_, if_neg Bool.false_ne_true, Dev.xlate_physical src]
  dsimp only
  rw [Dev.xlate_physical dst]
  rfl

/-- A good descriptor bounds its device addresses and has a length. -/
theorem bounds_of_not_badDesc {q : Nat} {x : Xfer} {ws : List (BitVec 32)} (good : badDesc q x ws = false)
    (copies : x.fill = false ∧ x.shost = false ∧ x.dhost = false) : x.len ≠ 0 ∧ x.src < 2 ^ 40 ∧ x.dst < 2 ^ 40 := by
  obtain ⟨copy, shost, dhost⟩ := copies
  simp only [badDesc, copy, shost, dhost, Bool.or_eq_false_iff, Bool.not_false, Bool.true_and, decide_eq_false_iff_not, not_le] at good
  tauto

theorem Dev.descStart_of_good {q t a : Nat} {bs : List (BitVec 8)} {d e : Dev} (aligned : a % 32 = 0) (read : d.niRead (niOfReq q) a 32 = ((0, bs), e))
    (good : badDesc q (xferOf t a (bytesWords bs 8)) (bytesWords bs 8) = false) : d.descStart q t a = e.xferIssue q (xferOf t a (bytesWords bs 8)) := by
  unfold Dev.descStart
  rw [if_pos aligned, read]
  dsimp only
  rw [if_neg (by decide), good]
  rfl

/-- The NI of an address does not depend on registers below the DRAM controller's. -/
theorem Dev.niOf_of_reg {d e : Dev} (same : ∀ a, 0x40090000 ≤ a → e.reg a = d.reg a) (a : Nat) : e.niOf a = d.niOf a := by
  have rd (f : Fld) (dram : 0x40090000 ≤ f.addr) : e.rd f = d.rd f := Dev.rd_eq (same _ dram)
  have size (c : Nat) : e.dramSize c = d.dramSize c := by
    unfold Dev.dramSize Dev.dramRanks Dev.rankBits Dev.on
    rw [rd (DC_CHc_CFG_EN c) (by grind), rd (DC_CHc_CFG_NRANK c) (by grind), rd (DC_CHc_CFG_DENS c) (by grind), rd (DC_CHc_CFG_WIDTH c) (by grind)]
  have map_ : e.dramMap a = d.dramMap a := by
    unfold Dev.dramMap Dev.on
    simp only [size, rd DC_MAP_GRAIN (by decide), rd DC_MAP_ILV (by decide)]
  rw [Dev.niOf, map_, ← Dev.niOf]

/-- A packet that joins the requests of its NI. -/
def Dev.queued (p : Packet) (d : Dev) : Dev := { d with net := { d.net with reqs := d.net.reqs ++ [p] } }

theorem Dev.send_of_read {p : Packet} {d : Dev} (reads : p.write = false) : d.send p =
    (d.queued { p with held := (d.routeWait p.src).any (fun c => c.dest = p.dst) || decide (64 ≤ d.outstandingOf p.src), at_ := d.now }).showOutst p.src := by
  unfold Dev.send
  dsimp only
  rw [reads]
  rfl

/-- What a new descriptor in progress shows. -/
theorem Dev.setXfer_port_spec {n : Nat} {x : Xfer} {d e : Dev} (shown : d.setXfer (128 + n) (some x) = e) :
    e.isle n = { d.isle n with xfer := some x } ∧ (∀ m, m ≠ n → e.isle m = d.isle m) ∧ e.rd (IS_SSTAT_BUSY n) = 1 ∧
    e.rd (IS_SSTAT_QLEN n) = d.rd (IS_SSTAT_QLEN n) ∧ RegsBut [IS_SSTAT n] d e ∧ e.beyondIsleRegs = d.beyondIsleRegs := by
  rw [Dev.setXfer_port_some] at shown
  subst shown
  refine ⟨d.isle_setIsle_same n _, fun m ne => d.isle_setIsle_ne _ ne, ?_, ?_, fun a out => ?_, rfl⟩
  · rw [Dev.rd_wr_disjoint _ _ _ _ (by simp) (by simp) (by simp), Dev.rd_busy_wrb]; rfl
  · rw [Dev.rd_wr_disjoint _ _ _ _ (by simp) (by simp) (by simp), Dev.wrb, Dev.rd_wr_disjoint _ _ _ _ (by simp) (by simp) (by simp)]; rfl
  · have off : a ≠ IS_SSTAT n := by simpa using out
    exact (Dev.reg_wr_ne _ _ _ off).trans (Dev.reg_wr_ne _ _ _ off)

/-- The block without its registers, its isles and the network. -/
def Dev.beyondPort (d : Dev) : Dev := { d.beyondIsleRegs with net := Net.reset }

theorem Dev.beyondPort_of_beyondIsleRegs {d e : Dev} (h : e.beyondIsleRegs = d.beyondIsleRegs) : e.beyondPort = d.beyondPort := by
  rw [Dev.beyondPort, h, ← Dev.beyondPort]

theorem Dev.eq_of_beyondPort {d e : Dev} (h : e.beyondPort = d.beyondPort) :
    e = { d with regs := e.regs, flags := e.flags, isles := e.isles, net := e.net, free := e.free } :=
  congrArg (fun x : Dev => { x with regs := e.regs, flags := e.flags, isles := e.isles, net := e.net, free := e.free }) h

theorem niOfReq_port (n : Nat) : niOfReq (128 + n) = n % 12 / 2 + n / 12 / 2 * 6 := by
  rw [niOfReq, if_neg (by omega), Nat.add_sub_cancel_left]

/-- The block once the port has read a descriptor: the trigger taken, the read counted. -/
def Dev.descRead (n : Nat) (rest : List Nat) (d : Dev) : Dev := (d.trigTaken n rest).niCount (niOfReq (128 + n)) 32 false true

/-- Beside the trigger taken the read changes counters of the isle's NI alone. -/
theorem Dev.descRead_eq (n : Nat) (rest : List Nat) (d : Dev) :
    d.descRead n rest = { d.trigTaken n rest with regs := (d.descRead n rest).regs, flags := (d.descRead n rest).flags } :=
  (Dev.onlyRegs_niCount ..).1

theorem Dev.reg_descRead_ne (n : Nat) (rest : List Nat) (d : Dev) {a : Nat} (stat : a ≠ IS_SSTAT n) (counter : a ∉ niRegs (niOfReq (128 + n))) :
    (d.descRead n rest).reg a = d.reg a :=
  ((Dev.onlyRegs_niCount ..).2 a counter).trans (d.reg_trigTaken_ne n rest stat)

theorem Dev.niOf_descRead {n : Nat} (lt : n < 96) (rest : List Nat) (d : Dev) (a : Nat) : (d.descRead n rest).niOf a = d.niOf a := by
  refine Dev.niOf_of_reg (fun r dram => d.reg_descRead_ne n rest (by grind) fun mem => ?_) a
  have bounds := bounds_of_mem_niRegs mem
  rw [niOfReq_port] at bounds
  omega

theorem Dev.rd_qlen_descRead {n : Nat} (lt : n < 96) (rest : List Nat) (d : Dev) :
    (d.descRead n rest).rd (IS_SSTAT_QLEN n) = rest.length % 8 := by
  have kept : (d.descRead n rest).reg (IS_SSTAT n) = (d.trigTaken n rest).reg (IS_SSTAT n) := (Dev.onlyRegs_niCount ..).2 _ fun mem => by
    have bounds := bounds_of_mem_niRegs mem
    grind
  rw [Dev.rd_eq (f := IS_SSTAT_QLEN n) kept]
  exact Dev.rd_wr_same _ _ _ (by simp) (by simp)

theorem Dev.isle_descRead (n : Nat) (rest : List Nat) (d : Dev) (m : Nat) : (d.descRead n rest).isle m = (d.trigTaken n rest).isle m :=
  (congrArg (fun e : Dev => e.isle m) (d.descRead_eq n rest) :)

theorem Dev.beyondIsleRegs_descRead (n : Nat) (rest : List Nat) (d : Dev) : (d.descRead n rest).beyondIsleRegs = d.beyondIsleRegs :=
  (congrArg Dev.beyondIsleRegs (d.descRead_eq n rest) :)

/-- The descriptor of the next trigger, a good copy within the device, is read and its first packet issued. -/
theorem Dev.streamStart_of_good {n t a : Nat} {rest : List Nat} {ws : List (BitVec 32)} {x : Xfer} {d : Dev} (lt : n < 96)
    (next : (d.isle n).sq = t :: rest) (idle : (d.isle n).xfer = none) (live : d.isleLive n = true)
    (fits : d.rd (IS_SDBASE_BASE n) + 8 * t + 8 ≤ 0x8000) (place : a = 0x10000000 + n * 0x20000 + 4 * (d.rd (IS_SDBASE_BASE n) + 8 * t))
    (aligned : a % 32 = 0) (clean : ∀ w ∈ codeWords a 32, d.wordErr w = 0) (isOpen : d.net.closed.contains n = false)
    (free : (d.niHold (niOfReq (128 + n)) a).net.stall = false) (words : bytesWords (d.loadBytes a 32) 8 = ws) (desc : x = xferOf t a ws)
    (good : badDesc (128 + n) x ws = false) (copies : x.fill = false ∧ x.shost = false ∧ x.dhost = false)
    (physical : wbits x.w0 7 4 = 0 ∧ wbits x.w0 11 8 = 0) : d.streamStart n =
      ((d.descRead n rest).setXfer (128 + n) (some { x with dpa := x.dst, phase := 1 })).send
        ((d.descRead n rest).reqPacket (128 + n) x.src x.chunk (wbit x.w0 14) false false []) := by
  have lagoon : areaOf a = 1 := areaOf_lagoon (by omega) (by omega)
  have up : d.domUp n = true := by
    simp only [Dev.isleLive, Bool.and_eq_true] at live
    exact live.1.1
  have stillUp : (d.trigTaken n rest).domUp n = true := by
    rw [Dev.domUp, d.reg_trigTaken_ne n rest (by grind), ← Dev.domUp, up]
  have read : (d.trigTaken n rest).niRead (niOfReq (128 + n)) a 32 = ((0, d.loadBytes a 32), d.descRead n rest) :=
    Dev.niRead_lagoon (by omega) (by omega) (by decide) (Dev.niHold_lagoon (d := d) (e := d.trigTaken n rest) lagoon rfl free).1
      (Dev.memStatus_lagoon (by omega) (by omega) lt stillUp isOpen) clean
  obtain ⟨length, src, dst⟩ := bounds_of_not_badDesc good copies
  have start : x.prog = 0 := by rw [desc]; rfl
  have closedNot : (d.descRead n rest).net.closed.contains n = false := by rw [Dev.descRead_eq]; exact isOpen
  have issued := Dev.xferIssue_of_copy (d := d.descRead n rest) (by omega) closedNot copies physical (by omega) (by omega)
  rw [show x.src + x.prog = x.src by omega, show x.dst + x.prog = x.dst by omega] at issued
  rw [Dev.streamStart_of_next next idle live isOpen fits, ← place, Dev.descStart_of_good aligned read (by rw [words, ← desc]; exact good), words, ← desc,
    issued]

/-- The read of a port's source as it joins the requests of its NI. -/
def Dev.portRead (d : Dev) (n : Nat) (x : Xfer) : Packet :=
  { src := niOfReq (128 + n), dst := d.niOf x.src, req := 128 + n, write := false, addr := x.src, host := false, len := x.chunk, data := [], status := 0,
    at_ := d.now,
    held := (d.routeWait (niOfReq (128 + n))).any (fun c => c.dest = d.niOf x.src) || decide (64 ≤ d.outstandingOf (niOfReq (128 + n))), vc := 2,
    codes := [], legs := [] }

/-- A request depends on the block's time, network, DRAM queues and map of addresses alone. -/
theorem Dev.send_portRead {n : Nat} {x : Xfer} {b c d : Dev} {vc0 : Bool} (dst : b.niOf x.src = d.niOf x.src)
    (beyond : c.beyondIsleRegs = d.beyondIsleRegs) :
    c.send (b.reqPacket (128 + n) x.src x.chunk vc0 false false []) = (c.queued (d.portRead n x)).showOutst (niOfReq (128 + n)) := by
  have net : c.net = d.net := Dev.net_of_beyondIsleRegs beyond
  have dram : c.dram = d.dram := (congrArg (fun e : Dev => e.dram) beyond :)
  have now : c.now = d.now := (congrArg (fun e : Dev => e.now) beyond :)
  have routes (i : Nat) : c.routeWait i = d.routeWait i := by rw [Dev.routeWait, net, ← Dev.routeWait]
  have outstanding (i : Nat) : c.outstandingOf i = d.outstandingOf i := by
    rw [Dev.outstandingOf, Dev.dramWaiting, net, dram, ← Dev.dramWaiting, ← Dev.outstandingOf]
  have vc : (vc0 && decide (128 + n < 4)) = false := by rw [decide_eq_false (by omega), Bool.and_false]
  rw [Dev.send_of_read rfl, Dev.reqPacket, if_neg Bool.false_ne_true, vc, dst, routes, outstanding, now]
  rfl

/-! ### The end of a transfer (R296, R297) -/

theorem Dev.streamDone_of_written {n : Nat} {x : Xfer} {d : Dev} (xfer : (d.isle n).xfer = some x) (ready : x.phase = 0) (fine : x.err = none)
    (written : x.len ≤ x.prog) : d.streamDone n = d.xferComplete (128 + n) x := by
  unfold Dev.streamDone
  rw [Dev.xfer_port, xfer]
  dsimp only
  rw [if_neg (not_not_intro ready), fine]
  exact if_pos written

theorem Dev.streamDone_of_error {n c : Nat} {x : Xfer} {d : Dev} (xfer : (d.isle n).xfer = some x) (ready : x.phase = 0) (error : x.err = some c) :
    d.streamDone n = d.xferError (128 + n) c x := by
  unfold Dev.streamDone
  rw [Dev.xfer_port, xfer]
  dsimp only
  rw [if_neg (not_not_intro ready), error]

/-- The last descriptor of a chain ends with its token. -/
theorem Dev.xferComplete_of_last {n : Nat} {x : Xfer} {d : Dev} (last : wbit x.w0 2 = false) (tells : wbit x.w0 3 = true) :
    d.xferComplete (128 + n) x = (d.arrive 1 (wbits x.w0 27 16) 0).setXfer (128 + n) none := by
  have port : ¬ 128 + n < 4 := by omega
  unfold Dev.xferComplete
  dsimp only
  rw [if_neg port, tells, last]
  rfl

/-- What is seen of the port's end in error: its register, the isles, memory and the network. -/
def Dev.portView (n : Nat) (d : Dev) : BitVec 32 × Tbl Isle × List Host.Cell × Net := (d.reg (IS_SSTAT n), d.isles, d.mem, d.net)

theorem Dev.portView_parts {n : Nat} {d e : Dev} (h : e.portView n = d.portView n) :
    e.reg (IS_SSTAT n) = d.reg (IS_SSTAT n) ∧ e.isles = d.isles ∧ e.mem = d.mem ∧ e.net = d.net := by
  simpa only [Dev.portView, Prod.mk.injEq] using h

theorem Dev.portView_f0 {n : Nat} (lt : n < 96) (src unit : Nat) (d : Dev) : (d.f0 src unit).portView n = d.portView n := by
  have plain : (d.f0 src unit).plain = d.plain := congrArg Prod.fst (d.steady_f0 src unit)
  rw [Dev.portView, d.reg_f0 src unit (by grind), Dev.isles_of_plain plain, Dev.mem_of_plain plain, Dev.net_of_plain plain, ← Dev.portView]

/-- The port without its descriptor, its error shown. -/
def Dev.portFailed (n : Nat) (x : Xfer) (d : Dev) : Dev :=
  ((d.setXfer (128 + n) (some { x with phase := 0 })).setXfer (128 + n) none).setFlag (IS_SSTAT_ERR n)

/-- It holds no descriptor, is not busy and shows the error. -/
theorem Dev.portFailed_spec {n : Nat} {x : Xfer} {d e : Dev} (failed : d.portFailed n x = e) :
    (e.isle n).xfer = none ∧ (∀ m, m ≠ n → e.isle m = d.isle m) ∧ e.rd (IS_SSTAT_BUSY n) = 0 ∧ e.rd (IS_SSTAT_ERR n) = 1 ∧ e.mem = d.mem ∧
    e.net = d.net := by
  generalize first : d.setXfer (128 + n) (some { x with phase := 0 }) = c
  obtain ⟨-, others, -, -, -, frame⟩ := Dev.setXfer_port_spec first
  rw [Dev.portFailed, first, Dev.setXfer_port_none] at failed
  subst failed
  have isles : (((c.setIsle n { c.isle n with xfer := none }).wrb (IS_SSTAT_BUSY n) false).setFlag (IS_SSTAT_ERR n)).isles =
      (c.setIsle n { c.isle n with xfer := none }).isles := rfl
  refine ⟨?_, fun m ne => ?_, ?_, Dev.rd_setFlag_same _ _ (by simp) (by simp), ?_, ?_⟩
  · rw [Dev.isle, isles, ← Dev.isle, Dev.isle_setIsle_same]
  · rw [Dev.isle, isles, ← Dev.isle, Dev.isle_setIsle_ne _ _ ne, others m ne]
  · rw [Dev.rd_setFlag_disjoint _ _ _ (by simp) (by simp) (by simp), Dev.rd_busy_wrb]; rfl
  · rw [Dev.mem_setFlag, Dev.mem_wrb, Dev.mem_setIsle, Dev.mem_of_beyondIsleRegs frame]
  · rw [Dev.net_setFlag, Dev.net_wrb, Dev.net_setIsle, Dev.net_of_beyondIsleRegs frame]

@[simp] theorem Dev.portView_unstop (n q : Nat) (d : Dev) : (d.unstop q).portView n = d.portView n := rfl
@[simp] theorem Dev.portView_arrive (n cls num : Nat) (v : BitVec 32) (d : Dev) : (d.arrive cls num v).portView n = d.portView n := rfl

theorem Dev.portView_xferError {n c : Nat} {x : Xfer} {d : Dev} (lt : n < 96) : (d.xferError (128 + n) c x).portView n = (d.portFailed n x).portView n := by
  have port : ¬ 128 + n < 4 := by omega
  have failed : ((d.portFailed n x).f0 0x05 n).portView n = (d.portFailed n x).portView n := Dev.portView_f0 lt ..
  unfold Dev.xferError
  dsimp only
  rw [if_neg port, Nat.add_sub_cancel_left, ← Dev.portFailed]
  split
  · rw [Dev.portView_arrive, Dev.portView_unstop, failed]
  · rw [Dev.portView_unstop, failed]

/-! ### Settled -/

/-- Settles O21: each clause by the equation of its case, the start through the read of the descriptor and the issue of its first packet. -/
theorem streamPort : Obligations.StreamPort := by
  unfold Obligations.StreamPort
  refine ⟨?trigger, ?dropped, ?cleared, ?start, ?done, ?failed⟩
  case trigger =>
    intro n t d room
    refine .of_onDev (fun d => (d.wr (IS_STRIG_TRIG n) t).streamTrig n t) (fun _ => rfl) ?_
    rw [Dev.streamTrig_of_room (d := d.wr (IS_STRIG_TRIG n) t) room]
    refine ⟨?_, ?_, ?_, fun a out => ?_, fun m ne => ?_, rfl⟩
    · rw [Dev.isle_wr, Dev.isle_setIsle_same]; rfl
    · rw [Dev.rd_wr_same _ _ _ (by simp) (by simp)]
      exact Nat.mod_eq_of_lt (Nat.lt_of_le_of_lt (Nat.succ_le_of_lt room) (by simp))
    · rw [Dev.rd_wr_ne _ _ _ _ (by grind)]
      exact (Dev.rd_wr_same d (IS_STRIG_TRIG n) t (by simp) (by simp)).trans (Nat.mod_eq_of_lt t.isLt)
    · obtain ⟨trig, stat⟩ : a ≠ IS_STRIG n ∧ a ≠ IS_SSTAT n := by simpa using out
      exact (Dev.reg_wr_ne _ _ _ stat).trans (d.reg_wr_ne (IS_STRIG_TRIG n) t trig)
    · rw [Dev.isle_wr, Dev.isle_setIsle_ne _ _ ne]; rfl
  case dropped =>
    intro n t d full
    refine .of_onDev (fun d => (d.wr (IS_STRIG_TRIG n) t).streamTrig n t) (fun _ => rfl) ?_
    rw [Dev.streamTrig_of_full (d := d.wr (IS_STRIG_TRIG n) t) full]
    have steady := ((d.wr (IS_STRIG_TRIG n) t).setFlag (IS_SSTAT_QOVR n)).steady_f0 0x05 n
    refine ⟨by rw [Dev.isles_of_steady steady, Dev.isles_setFlag, Dev.isles_wr], ?_,
      by rw [Dev.mem_of_steady steady, Dev.mem_setFlag, Dev.mem_wr]⟩
    rw [Dev.rd_eq (f := IS_SSTAT_QOVR n) (Dev.reg_of_steady steady (by grind))]
    exact Dev.rd_setFlag_same _ _ (by simp) (by simp)
  case cleared =>
    intro n d
    refine .of_onDev (fun d => ((d.setReg (IS_CNT0 n) 0).setReg (IS_CNT1 n) 0).setReg (IS_CNT2 n) 0) (fun _ => rfl) ⟨?_, ?_, ?_, ?_⟩
    · rw [Dev.reg_setReg_ne _ _ (by simp), Dev.reg_setReg_ne _ _ (by simp), Dev.reg_setReg_same]
    · rw [Dev.reg_setReg_ne _ _ (by simp), Dev.reg_setReg_same]
    · rw [Dev.reg_setReg_same]
    · exact (((OnlyRegs.refl _ d).setReg 0 (by simp)).setReg 0 (by simp)).setReg 0 (by simp)
  case start =>
    intro n t rest a ws x d next idle live fits place aligned clean isOpen free words desc good copies physical
    have started := Dev.streamStart_of_good n.isLt next idle live fits place aligned clean isOpen free words desc good copies physical
    have stall : d.net.stall = false := (Dev.niHold_lagoon (e := d) (areaOf_lagoon (by omega) (by omega)) rfl free).2
    have target := d.niOf_descRead n.isLt rest x.src
    have queue := d.rd_qlen_descRead n.isLt rest
    have taken := d.isle_descRead n rest
    have readRegs (a : Nat) := d.reg_descRead_ne n rest (a := a)
    have readFrame := d.beyondIsleRegs_descRead n rest
    generalize d.descRead n rest = b at *
    generalize shown : b.setXfer (128 + n) (some { x with dpa := x.dst, phase := 1 }) = c at started
    obtain ⟨isle, others, busy, qlen, regs, frame⟩ := Dev.setXfer_port_spec shown
    have beyond : c.beyondIsleRegs = d.beyondIsleRegs := frame.trans readFrame
    rw [Dev.send_portRead target beyond] at started
    refine .of_onDev (Dev.unlessHeld (Dev.streamStart n)) (fun _ => rfl) ?_
    rw [Dev.unlessHeld_of_free (by rw [started]; exact (congrArg (fun x => x.stall) (Dev.net_of_beyondIsleRegs beyond)).trans stall), started]
    have stat : PN_NIi_STAT (niOfReq (128 + n)) ≠ IS_SSTAT n := by grind
    refine ⟨(congrArg (fun i => i.xfer) isle :), ?_, ?_, ?_, ?_, fun m ne => ?_, fun r out => ?_, ?_⟩
    · have sq : (c.isle n).sq = (b.isle n).sq := (congrArg (fun i => i.sq) isle :)
      exact sq.trans (by rw [taken, Dev.isle_trigTaken_same])
    · exact (Dev.rd_wr_ne _ _ _ _ stat.symm).trans busy
    · exact (Dev.rd_wr_ne _ _ _ _ stat.symm).trans (qlen.trans queue)
    · have net : c.net.reqs = d.net.reqs := congrArg (fun x => x.reqs) (Dev.net_of_beyondIsleRegs beyond)
      exact (congrArg (fun reqs => reqs ++ [d.portRead n x]) net :)
    · exact (others m ne).trans ((taken m).trans (Dev.isle_setIsle_ne _ _ ne))
    · simp only [List.cons_append, List.nil_append, List.mem_cons, not_or] at out
      obtain ⟨own, outst, counters⟩ := out
      exact (Dev.reg_wr_ne _ _ _ outst).trans ((regs r (by simpa using own)).trans (readRegs r own counters))
    · have port : c.beyondPort = d.beyondPort := Dev.beyondPort_of_beyondIsleRegs beyond
      exact Dev.eq_of_beyondPort ((rfl : Dev.beyondPort _ = c.beyondPort).trans port)
  case done =>
    intro n x d xfer ready fine written last tells free room noWait
    have ended := Dev.streamDone_of_written xfer ready fine written
    rw [Dev.xferComplete_of_last last tells, Dev.setXfer_port_none] at ended
    refine .of_onDev (Dev.unlessHeld (Dev.streamDone n)) (fun _ => rfl) ?_
    rw [Dev.unlessHeld_of_free (by rw [ended]; exact free), ended]
    refine ⟨?_, Dev.rd_busy_wrb .., ?_, fun m ne => ?_, fun r out => ?_, ?_⟩
    · rw [Dev.wrb, Dev.isle_wr, Dev.isle_setIsle_same]
    · exact (Dev.schedIn_enterArrivals_of_room { wake := (1 : Nat) = 3, num := wbits x.w0 27 16, value := 0, cls := 1, at_ := d.now } room noWait).2
    · rw [Dev.wrb, Dev.isle_wr, Dev.isle_setIsle_ne _ _ ne]; rfl
    · exact Dev.reg_wr_ne _ _ _ (by simpa using out)
    · rw [Dev.arrive, Dev.enterArrivals_of_room _ room noWait]; rfl
  case failed =>
    intro n x c d xfer ready error free
    have ended := Dev.streamDone_of_error xfer ready error
    have view : (d.streamDone n).portView n = (d.portFailed n x).portView n := by rw [ended, Dev.portView_xferError n.isLt]
    generalize failed : d.portFailed n x = f at view
    obtain ⟨xferNone, others, idle, shown, mem, net⟩ := Dev.portFailed_spec failed
    refine .of_onDev (Dev.unlessHeld (Dev.streamDone n)) (fun _ => rfl) ?_
    obtain ⟨stat, isles, mem', net'⟩ := Dev.portView_parts view
    rw [Dev.unlessHeld_of_free (by rw [net', net]; exact free)]
    refine ⟨?_, ?_, ?_, fun m ne => ?_, mem'.trans mem⟩
    · rw [Dev.isle, isles, ← Dev.isle]; exact xferNone
    · rw [Dev.rd_eq (f := IS_SSTAT_BUSY n) stat]; exact idle
    · rw [Dev.rd_eq (f := IS_SSTAT_ERR n) stat]; exact shown
    · rw [Dev.isle, isles, ← Dev.isle]; exact others m ne

end Sys2Proof.Machine

/-! ## Reasoning rules of the run-ahead controller's tasks (R130 to R134)

What a write of a task leaves, which registers a chain of writes leaves, and which bindings a task then has. -/
namespace Sys2Proof.Machine

/-! ### Tasks -/

@[simp] theorem Dev.task_setTask_same (t : Nat) (x : Task) (d : Dev) : (d.setTask t x).task t = x := tget_tset_same ..
theorem Dev.task_setTask_ne {t u : Nat} (x : Task) (d : Dev) (h : u ≠ t) : (d.setTask t x).task u = d.task u := tget_tset_ne _ _ _ _ h

theorem Dev.task_eq {d e : Dev} (h : e.ahd.tasks = d.ahd.tasks) (t : Nat) : e.task t = d.task t := by rw [Dev.task, h, ← Dev.task]

@[simp] theorem Dev.task_showQlen (d : Dev) (t : Nat) : d.showQlen.task t = d.task t := rfl

theorem Dev.reg_setTask_ne {t a : Nat} (x : Task) (d : Dev) (h : a ≠ AHD_LTt_STAT t) : (d.setTask t x).reg a = d.reg a := Dev.reg_wr_ne _ _ _ h

/-- A task's new record shows in INFL alone. -/
theorem Dev.rd_setTask {t : Nat} {f : Fld} (x : Task) (d : Dev) (h : f.addr ≠ AHD_LTt_STAT t ∨ 5 < f.lo ∨ f.hi < 3) : (d.setTask t x).rd f = d.rd f :=
  (Dev.rd_wr_disjoint _ (AHD_LTt_STAT_INFL t) f _ (by decide : 3 ≤ 6) (by decide : 5 < 32) h :)

/-- A change of the oldest open step. -/
theorem Dev.modStep_of_head {t : Nat} {s : LStep} {rest : List LStep} {d : Dev} (f : LStep → LStep) (steps : (d.task t).steps = s :: rest) :
    d.modStep t s.k f = d.setTask t { d.task t with steps := f s :: rest } := by
  unfold Dev.modStep
  rw [steps, replaceFirst, if_pos (decide_eq_true rfl)]

theorem Dev.step?_of_head {t : Nat} {s : LStep} {rest : List LStep} {d : Dev} (steps : (d.task t).steps = s :: rest) : d.step? t s.k = some s := by
  rw [Dev.step?, steps, List.find?_cons_of_pos (by simp)]

/-! ### Which registers a chain of writes leaves -/

/-- Of the registers only the listed ones change; where no binding's AHD_TBb_ID is among them, the bindings stay enabled as they were. -/
def RegsKept (l : List Nat) (d e : Dev) : Prop := RegsBut l d e ∧ ((∀ b, AHD_TBb_ID b ∉ l) → e.enabledBindings = d.enabledBindings)

theorem Dev.enabledBindings_setReg_ne (d : Dev) {a : Nat} (v : BitVec 32) (notId : ∀ b, a ≠ AHD_TBb_ID b) :
    (d.setReg a v).enabledBindings = d.enabledBindings := by
  refine filterMap_tset_of_unread (fun w => if_neg ?_) _ d.regs v
  rintro ⟨low, -, stride, -⟩
  refine notId ((a - AHD_TBb_ID 0) / 0x20) ?_
  simp only [AHD_TBb_ID] at *
  omega

section
variable {l : List Nat} {d e f : Dev}

theorem RegsKept.refl (l : List Nat) (d : Dev) : RegsKept l d d := ⟨fun _ _ => rfl, fun _ => rfl⟩

theorem RegsKept.of_regs (h : e.regs = d.regs) : RegsKept l d e :=
  ⟨fun a _ => by rw [Dev.reg, h, ← Dev.reg], fun _ => by rw [Dev.enabledBindings, h, ← Dev.enabledBindings]⟩

theorem RegsKept.trans (first : RegsKept l d e) (second : RegsKept l e f) : RegsKept l d f :=
  ⟨fun a out => (second.1 a out).trans (first.1 a out), fun noId => (second.2 noId).trans (first.2 noId)⟩

theorem RegsKept.mono {m : List Nat} (h : RegsKept l d e) (sub : l ⊆ m) : RegsKept m d e :=
  ⟨fun a out => h.1 a fun mem => out (sub mem), fun noId => h.2 fun b mem => noId b (sub mem)⟩

theorem RegsKept.setReg (h : RegsKept l d e) {a : Nat} (v : BitVec 32) (listed : a ∈ l) : RegsKept l d (e.setReg a v) :=
  h.trans ⟨fun _ out => Dev.reg_setReg_ne _ _ fun same => out (same ▸ listed),
    fun noId => Dev.enabledBindings_setReg_ne _ _ fun b same => noId b (same ▸ listed)⟩

theorem RegsKept.wr (h : RegsKept l d e) {f : Fld} (v : Nat) (listed : f.addr ∈ l) : RegsKept l d (e.wr f v) := h.setReg _ listed

theorem RegsKept.inc (h : RegsKept l d e) {f : Fld} (listed : f.addr ∈ l) : RegsKept l d (e.inc f) := by
  unfold Dev.inc
  split
  · exact h.wr _ listed
  · exact h

theorem RegsKept.setTask (h : RegsKept l d e) {t : Nat} (x : Task) (listed : AHD_LTt_STAT t ∈ l) : RegsKept l d (e.setTask t x) :=
  RegsKept.wr (h.trans (RegsKept.of_regs rfl)) _ listed

theorem RegsKept.showQlen (h : RegsKept l d e) (listed : AHD_QLEN ∈ l) : RegsKept l d e.showQlen := h.wr _ listed

theorem RegsKept.setIsle (h : RegsKept l d e) (n : Nat) (i : Isle) : RegsKept l d (e.setIsle n i) := h.trans (RegsKept.of_regs rfl)

/-- Fields of registers that are not listed. -/
theorem RegsKept.rd (h : RegsKept l d e) {f : Fld} (out : f.addr ∉ l) : e.rd f = d.rd f := Dev.rd_eq (h.1 _ out)

/-- A task's bindings. -/
theorem RegsKept.bindings (h : RegsKept l d e) (noId : ∀ b, AHD_TBb_ID b ∉ l) (t : Nat) : e.bindings t = d.bindings t := by
  unfold Dev.bindings
  rw [h.2 noId]
  exact List.filter_congr fun b _ => by rw [h.rd (noId b)]

end

/-- The block without its registers and the run-ahead controller. -/
def Dev.beyondAhd (d : Dev) : Dev := { d with regs := [], flags := [], ahd := Ahd.reset }

theorem Dev.eq_of_beyondAhd {d e : Dev} (h : e.beyondAhd = d.beyondAhd) : e = { d with regs := e.regs, flags := e.flags, ahd := e.ahd } :=
  congrArg (fun x : Dev => { x with regs := e.regs, flags := e.flags, ahd := e.ahd }) h

end Sys2Proof.Machine

/-! ## Opening a step, its prediction request and its head (R133 to R136) -/
namespace Sys2Proof.Machine

/-! ### Opening -/

/-- The step that opens next, by the depth and the policy (R135). -/
def Dev.openedStep (d : Dev) (t at_ head : Nat) : LStep :=
  let x := d.task t
  let s := LStep.fresh x.openK x.openS
  if d.front t + d.rd (AHD_LTt_CFG_DEPTH t) < x.openK then { s with noHead := true }
  else if x.pol = 2 then { s with headAt := some head }
  else { s with reqDue := some at_ }

/-- The task in which step `s` has opened: its open position goes on by one step of the cadence (R133). -/
def Dev.taskOpened (d : Dev) (t : Nat) (s : LStep) : Task :=
  { d.task t with steps := (d.task t).steps ++ [s], openK := (d.task t).openK + 1,
                  openS := (d.task t).openS + BitVec.ofNat 64 (d.taskInc t (d.task t).openAcc).2, openAcc := (d.taskInc t (d.task t).openAcc).1 }

section
variable {t at_ head : Nat} {d : Dev}

/-- Beyond the depth a step opens without a head, ... -/
theorem Dev.openedStep_of_far (far : d.front t + d.rd (AHD_LTt_CFG_DEPTH t) < (d.task t).openK) :
    d.openedStep t at_ head = { LStep.fresh (d.task t).openK (d.task t).openS with noHead := true } := if_pos far

/-- ... within it its request is due. -/
theorem Dev.openedStep_of_near (near : (d.task t).openK ≤ d.front t + d.rd (AHD_LTt_CFG_DEPTH t)) (asks : (d.task t).pol ≠ 2) :
    d.openedStep t at_ head = { LStep.fresh (d.task t).openK (d.task t).openS with reqDue := some at_ } :=
  (if_neg (by omega)).trans (if_neg asks)

theorem Dev.taskInc_setTask (x : Task) : (d.setTask t x).taskInc t = d.taskInc t := by
  have off (f : Fld) (ne : f.addr ≠ AHD_LTt_STAT t) : (d.setTask t x).rd f = d.rd f := d.rd_setTask x (.inl ne)
  funext acc
  unfold Dev.taskInc
  rw [off (AHD_LTt_CFG_CAD t) (by grind)]
  have := d.rd_lt (AHD_LTt_CFG_CAD t)
  dsimp only
  rw [off (ET_CADc_Q_Q _) (by grind), off (ET_CADc_N_N _) (by grind), off (ET_CADc_D_D _) (by grind)]

theorem Dev.openStep_eq : d.openStep t at_ head =
    (d.setTask t { d.task t with steps := (d.task t).steps ++ [d.openedStep t at_ head] }).setTask t (d.taskOpened t (d.openedStep t at_ head)) := by
  show Dev.advanceOpen t _ = _
  unfold Dev.advanceOpen
  dsimp only
  rw [Dev.task_setTask_same, Dev.taskInc_setTask]
  rfl

/-- What opening a step changes: its task, and INFL. -/
theorem Dev.openStep_spec {e : Dev} (h : d.openStep t at_ head = e) :
    e.task t = d.taskOpened t (d.openedStep t at_ head) ∧ (∀ u, u ≠ t → e.task u = d.task u) ∧ RegsKept [AHD_LTt_STAT t] d e ∧
    e.beyondAhd = d.beyondAhd := by
  subst h
  rw [Dev.openStep_eq]
  exact ⟨Dev.task_setTask_same .., fun u ne => by rw [Dev.task_setTask_ne _ _ ne, Dev.task_setTask_ne _ _ ne],
    ((RegsKept.refl _ d).setTask _ (by simp)).setTask _ (by simp), rfl⟩

end

/-! ### The FIRE action with TV = 1 -/

section
variable {d : Dev} {a : Action} {as : List Action}

theorem Dev.actStepOpen_of_head (acts : d.ang.acts = a :: as) (kind : a.act = 1) (tv : a.tv = true) (due : a.tf ≤ d.now + 4) :
    d.actStepOpen = ((d.acted as).taskFire a.task (a.tf - 4) a.tf).showQlen := by
  unfold Dev.actStepOpen
  rw [acts, takeFirst, if_pos (by simp [kind, tv, due])]
  rfl

/-- A running task with no replay left opens its step; ... -/
theorem Dev.taskFire_of_open {t at_ tf : Nat} (running : d.taskState t = 1) (free : d.replaying t = false) :
    (d.acted as).taskFire t at_ tf = (d.acted as).openStep t at_ tf :=
  (if_neg (not_not_intro running)).trans (if_neg (ne_true_of_eq_false free))

/-- ... one that does not run drops it. -/
theorem Dev.taskFire_of_stopped {t at_ tf : Nat} (stopped : d.taskState t ≠ 1) :
    (d.acted as).taskFire t at_ tf = (d.acted as).inc (AHD_LTt_CNT2_DROP t) := if_pos stopped

end

/-! ### The prediction request -/

/-- A step whose prediction has been asked for in this ACLK (R135, R136). -/
def LStep.asked (now : Nat) (p : Option (BitVec 64)) (s : LStep) : LStep :=
  { s with reqDue := none, reqAt := some now, answered := false, pred := p, predInvalid := p.isNone,
           headAt := if p.isSome then some (now + 4) else none }

/-- The block that has issued its request of this ACLK. -/
def Dev.requested (d : Dev) : Dev := { d with ahd := { d.ahd with lastReq := d.now + 1 } }

@[simp] theorem Dev.task_requested (d : Dev) (t : Nat) : d.requested.task t = d.task t := rfl
theorem RegsKept.requested {l : List Nat} {d e : Dev} (h : RegsKept l d e) : RegsKept l d e.requested := h.trans (RegsKept.of_regs rfl)

/-- The oldest step of the lowest task with a step open asks, where its request is due and none has been issued in this ACLK. -/
theorem Dev.predictionRequest_of_due {t a : Nat} {s : LStep} {rest : List LStep} {d : Dev} (lt : t < 48) (steps : (d.task t).steps = s :: rest)
    (lower : ∀ u, u < t → (d.task u).steps = []) (due : s.reqDue = some a) (now : a ≤ d.now) (free : d.ahd.lastReq ≤ d.now) :
    d.predictionRequest = (d.setTask t { d.task t with steps := s.asked d.now (d.predictStep t s.stamp) :: rest }).requested.showQlen := by
  unfold Dev.predictionRequest
  dsimp only
  rw [(List.find?_range_eq_some (i := t)).mpr]
  · dsimp only
    rw [if_neg (by omega), steps, List.find?_cons_of_pos]
    · dsimp only
      rw [Dev.modStep_of_head _ steps]
      rfl
    · rw [due]; exact decide_eq_true now
  · refine ⟨?_, List.mem_range.mpr lt, fun u below => by rw [lower u below]; rfl⟩
    rw [steps, List.any_cons, due]
    simp [now]

/-! ### Words of a lagoon -/

theorem Dev.ahd_store (d : Dev) (a n v : Nat) : (d.store a n v).ahd = d.ahd := by rw [Dev.store_only]
theorem Dev.isles_store (d : Dev) (a n v : Nat) : (d.store a n v).isles = d.isles := by rw [Dev.store_only]

/-- A whole word written to a lagoon, with new check bits. -/
def Dev.putWord (a : Nat) (w : BitVec 32) (d : Dev) : Dev := (d.store32 a w).eccWrite a

/-- The new check bits change nothing that a program sees. -/
theorem Dev.steady_eccWrite (a : Nat) (d : Dev) : (d.eccWrite a).steady = d.steady := by
  rw [Dev.eccWrite, Dev.steady_codeWrite, Dev.steady_frameWritten]

theorem Dev.byte_putWord_out {a x : Nat} (w : BitVec 32) (d : Dev) (out : ¬ (a ≤ x ∧ x < a + 4)) : (d.putWord a w).byte x = d.byte x := by
  have mem : (d.putWord a w).mem = (d.store32 a w).mem := Dev.mem_of_steady (Dev.steady_eccWrite _ _)
  rw [Dev.byte, mem]
  exact Dev.byte_store_out 4 d a w.toNat x (by omega)

/-- A number that is stored is read back, modulo the bytes it has. -/
theorem Dev.load_store (n : Nat) : ∀ (d : Dev) (a v : Nat), (d.store a n v).load a n = v % 256 ^ n := by
  induction n with
  | zero => intro d a v; rw [pow_zero, Nat.mod_one]; rfl
  | succ n ih =>
    intro d a v
    unfold Dev.store Dev.load
    rw [ih, Dev.byte_store_out _ _ _ _ _ (.inl (Nat.lt_succ_self a)), Dev.byte_setByte_same, BitVec.toNat_ofNat, pow_succ' 256 n, Nat.mod_mul]

theorem Dev.load32_store32 (d : Dev) (a : Nat) (w : BitVec 32) : (d.store32 a w).load32 a = w := by
  rw [Dev.load32, Dev.store32, Dev.load_store, Nat.mod_eq_of_lt (show w.toNat < 256 ^ 4 from w.isLt)]
  simp [w32]

theorem Dev.load32_eq {d e : Dev} {a : Nat} (same : ∀ x, a ≤ x → x < a + 4 → e.byte x = d.byte x) : e.load32 a = d.load32 a := by
  simp only [Dev.load32, Dev.load]
  rw [same a (by omega) (by omega), same (a + 1) (by omega) (by omega), same (a + 1 + 1) (by omega) (by omega),
    same (a + 1 + 1 + 1) (by omega) (by omega)]

theorem Dev.load32_putWord_same (a : Nat) (w : BitVec 32) (d : Dev) : (d.putWord a w).load32 a = w := by
  have mem : (d.putWord a w).mem = (d.store32 a w).mem := Dev.mem_of_steady (Dev.steady_eccWrite _ _)
  rw [Dev.load32_eq (d := d.store32 a w) fun x _ _ => by rw [Dev.byte, mem, ← Dev.byte], Dev.load32_store32]

theorem Dev.load32_putWord_ne {a b : Nat} (w : BitVec 32) (d : Dev) (apart : b + 4 ≤ a ∨ a + 4 ≤ b) : (d.putWord a w).load32 b = d.load32 b :=
  Dev.load32_eq fun _ _ _ => d.byte_putWord_out w (by omega)

/-! ### The answer -/

/-- The prediction words of a frame that starts at word `f` of isle `n` (Table 06-1). -/
def Dev.putPred (n f : Nat) (v : BitVec 64) (vel : BitVec 48) (d : Dev) : Dev :=
  (((d.putWord (lagoonAddr n (f + 0x80)) (w32 v.toNat)).putWord (lagoonAddr n (f + 0x81)) (w32 (v.toNat / 2 ^ 32))).putWord
    (lagoonAddr n (f + 0x82)) (w32 (vel.signExtend 64).toNat)).putWord (lagoonAddr n (f + 0x83)) (w32 ((vel.signExtend 64).toNat / 2 ^ 32))

theorem Dev.writePred_of_single {t b : Nat} {d : Dev} (k : Nat) (v : BitVec 64) (vel : BitVec 48) (only : d.bindings t = [b]) :
    d.writePred t k v vel = d.putPred (d.rd (AHD_TBb_ID_ISLE b)) (d.frameAt b k) v vel := by
  unfold Dev.writePred
  rw [only]
  rfl

/-- Four words one after another, modulo the lagoon, are apart. -/
theorem lagoonAddr_apart (n f : Nat) {i j : Nat} (lt : i < j) (near : j < i + 32768) :
    lagoonAddr n (f + i) + 4 ≤ lagoonAddr n (f + j) ∨ lagoonAddr n (f + j) + 4 ≤ lagoonAddr n (f + i) := by
  unfold lagoonAddr
  omega

/-- The low word of a velocity is that of its sign extension. -/
theorem w32_signExtend (vel : BitVec 48) : w32 (vel.signExtend 64).toNat = w32 vel.toNat := by
  apply BitVec.eq_of_getLsbD_eq
  intro i lt
  have width : i < 48 ∧ i < 64 := by omega
  simp [w32, BitVec.getElem_signExtend, lt, width]

section
variable (n f : Nat) (v : BitVec 64) (vel : BitVec 48) (d : Dev)

theorem Dev.load32_putPred :
    (d.putPred n f v vel).load32 (lagoonAddr n (f + 0x80)) = w32 v.toNat ∧
    (d.putPred n f v vel).load32 (lagoonAddr n (f + 0x81)) = w32 (v.toNat / 2 ^ 32) ∧
    (d.putPred n f v vel).load32 (lagoonAddr n (f + 0x82)) = w32 vel.toNat ∧
    (d.putPred n f v vel).load32 (lagoonAddr n (f + 0x83)) = w32 ((vel.signExtend 64).toNat / 2 ^ 32) := by
  have apart {i j : Nat} (lt : i < j) (near : j < i + 32768) := lagoonAddr_apart n f lt near
  unfold Dev.putPred
  refine ⟨?_, ?_, ?_, Dev.load32_putWord_same ..⟩
  · rw [Dev.load32_putWord_ne _ _ (apart (by decide) (by decide)), Dev.load32_putWord_ne _ _ (apart (by decide) (by decide)),
      Dev.load32_putWord_ne _ _ (apart (by decide) (by decide)), Dev.load32_putWord_same]
  · rw [Dev.load32_putWord_ne _ _ (apart (by decide) (by decide)), Dev.load32_putWord_ne _ _ (apart (by decide) (by decide)),
      Dev.load32_putWord_same]
  · rw [Dev.load32_putWord_ne _ _ (apart (by decide) (by decide)), Dev.load32_putWord_same, w32_signExtend]

/-- No other byte changes, ... -/
theorem Dev.byte_putPred_out {x : Nat}
    (out : ∀ o, o < 4 → ¬ (lagoonAddr n (f + 0x80 + o) ≤ x ∧ x < lagoonAddr n (f + 0x80 + o) + 4)) : (d.putPred n f v vel).byte x = d.byte x := by
  unfold Dev.putPred
  rw [Dev.byte_putWord_out _ _ (out 3 (by decide)), Dev.byte_putWord_out _ _ (out 2 (by decide)), Dev.byte_putWord_out _ _ (out 1 (by decide)),
    Dev.byte_putWord_out _ _ (out 0 (by decide))]

/-- ... and no task, no isle and no register of the run-ahead block. -/
theorem Dev.putWord_keeps (a : Nat) (w : BitVec 32) : (d.putWord a w).ahd = d.ahd ∧ (d.putWord a w).isles = d.isles := by
  have kept := Dev.steady_eccWrite a (d.store32 a w)
  exact ⟨(congrArg (fun p => p.1.ahd) kept :).trans (d.ahd_store a 4 w.toNat), (Dev.isles_of_steady kept).trans (d.isles_store a 4 w.toNat)⟩

theorem Dev.putPred_keeps : (d.putPred n f v vel).ahd = d.ahd ∧ (d.putPred n f v vel).isles = d.isles := by
  unfold Dev.putPred
  simp only [Dev.putWord_keeps, and_self]

end

/-- Where a frame lies is read from its binding's registers. -/
theorem RegsKept.frameAt {l : List Nat} {d e : Dev} (h : RegsKept l d e) {b : Nat} (shd : AHD_TBb_SHD b ∉ l) (win : AHD_TBb_WIN b ∉ l) (k : Nat) :
    e.frameAt b k = d.frameAt b k := by
  rw [Dev.frameAt, h.rd (f := AHD_TBb_SHD_SBASE b) shd, h.rd (f := AHD_TBb_WIN_FSZ b) win, ← Dev.frameAt]

theorem Dev.predVel_setTask (t : Nat) (x : Task) (d : Dev) : (d.setTask t x).predVel t = d.predVel t := by
  have off (f : Fld) (ne : f.addr ≠ AHD_LTt_STAT t) : (d.setTask t x).rd f = d.rd f := d.rd_setTask x (.inl ne)
  unfold Dev.predVel
  rw [Dev.on, off (AHD_LTt_CFG_PSRC t) (by grind), ← Dev.on, off (AHD_LTt_CFG_PPORT t) (by grind), off (AHD_LTt_CFG_PDOM t) (by grind)]
  rfl

/-- A change of task `t` leaves what its binding says. -/
theorem Dev.setTask_kept (t : Nat) (x : Task) (d : Dev) : RegsKept [AHD_LTt_STAT t] d (d.setTask t x) := (RegsKept.refl _ d).setTask x (by simp)

theorem noId_of_task {t : Nat} (lt : t < 48) (b : Nat) : AHD_TBb_ID b ∉ [AHD_LTt_STAT t] := by grind

theorem Dev.bindings_setTask {t : Nat} (lt : t < 48) (x : Task) (d : Dev) (u : Nat) : (d.setTask t x).bindings u = d.bindings u :=
  (d.setTask_kept t x).bindings (noId_of_task lt) u

/-- The request issued last is answered 12 ACLK later (R136). -/
theorem Dev.predictionAnswer_of_due {t a b : Nat} {v : BitVec 64} {s : LStep} {rest : List LStep} {d : Dev} (lt : t < 48)
    (steps : (d.task t).steps = s :: rest) (only : d.bindings t = [b]) (asked : s.reqAt = some a) (due : a + 12 ≤ d.now) (open_ : s.answered = false)
    (valid : s.pred = some v) : d.predictionAnswer t =
      (d.setTask t { d.task t with steps := { s with answered := true } :: rest }).putPred (d.rd (AHD_TBb_ID_ISLE b)) (d.frameAt b s.k) v (d.predVel t) := by
  unfold Dev.predictionAnswer
  dsimp only
  rw [steps, List.find?_cons_of_pos]
  · dsimp only
    rw [valid]
    dsimp only
    rw [Dev.modStep_of_head _ steps, Dev.writePred_of_single s.k v _ ((Dev.bindings_setTask lt _ d t).trans only), Dev.predVel_setTask,
      (d.setTask_kept t _).rd (noId_of_task lt b), (d.setTask_kept t _).frameAt (by grind) (by grind)]
    simp only [valid]
  · rw [asked]
    simp [due, open_]

/-! ### Firing a group for a step (R134, R145) -/

/-- Group `g` of isle `n` is asked to fire in this ACLK under the tag `tag`, for a step of a task. -/
def Dev.fired (n g : Nat) (tag : BitVec 8) (ra : RaMark) (d : Dev) : Dev := (d.modGrp n g (fun x => { x with actcnt := tag })).fireReq n g d.now (some ra)

theorem Dev.fireTask_of_single {t b : Nat} {d : Dev} (k : Nat) (head : Bool) (commitAt : Option Nat) (only : d.bindings t = [b]) :
    d.fireTask t k head commitAt = d.fired (d.rd (AHD_TBb_ID_ISLE b)) (d.rd (if head then AHD_TBb_GRP_HGRP b else AHD_TBb_GRP_TGRP b)) (d.tagOf t k)
      { task := t, step := k, head := head, commitAt := commitAt } := by
  unfold Dev.fireTask
  rw [only]
  rfl

/-- What a firing changes beside a change of its task: the isle's requests and the group's ACTCNT. -/
theorem Dev.fired_setTask_spec {t n g : Nat} {x : Task} {tag : BitVec 8} {ra : RaMark} {d e : Dev} (h : (d.setTask t x).fired n g tag ra = e) :
    (e.isle n).reqs = (d.isle n).reqs ++ [{ group := g, at_ := d.now, ra := some ra }] ∧ ((e.isle n).grp g).actcnt = tag ∧
    (e.isle n).cells = (d.isle n).cells ∧ (∀ m, m ≠ n → e.isle m = d.isle m) ∧ e.task t = x ∧ (∀ u, u ≠ t → e.task u = d.task u) ∧
    RegsKept [AHD_LTt_STAT t] d e ∧ e.mem = d.mem := by
  have own : e.isle n = { d.isle n with groups := tset Group.reset (d.isle n).groups g { (d.isle n).grp g with actcnt := tag },
                                        reqs := (d.isle n).reqs ++ [{ group := g, at_ := d.now, ra := some ra }] } := by
    rw [← h, Dev.fired, Dev.isle_fireReq_same, Dev.isle_modGrp_same]
    rfl
  refine ⟨by rw [own], ?_, by rw [own], fun m ne => ?_, ?_, fun u ne => ?_, ?_, by rw [← h]; rfl⟩
  · rw [own]
    exact congrArg Group.actcnt (tget_tset_same ..)
  · rw [← h, Dev.fired, Dev.isle_fireReq_ne _ _ _ _ _ ne]
    exact Dev.isle_setIsle_ne _ _ ne
  · rw [← h]; exact Dev.task_setTask_same t x d
  · rw [← h]; exact Dev.task_setTask_ne x d ne
  · rw [← h]; exact (d.setTask_kept t x).trans (RegsKept.of_regs rfl)

theorem Dev.tagOf_setTask (t k : Nat) (x : Task) (d : Dev) : (d.setTask t x).tagOf t k = d.tagOf t k := by
  rw [Dev.tagOf, d.rd_setTask x (.inr (.inl (by simp))), ← Dev.tagOf]

/-- A firing after a change of its task. -/
theorem Dev.fireTask_setTask {t b : Nat} {d : Dev} (lt : t < 48) (x : Task) (k : Nat) (head : Bool) (commitAt : Option Nat) (only : d.bindings t = [b]) :
    (d.setTask t x).fireTask t k head commitAt = (d.setTask t x).fired (d.rd (AHD_TBb_ID_ISLE b))
      (if head then d.rd (AHD_TBb_GRP_HGRP b) else d.rd (AHD_TBb_GRP_TGRP b)) (d.tagOf t k)
      { task := t, step := k, head := head, commitAt := commitAt } := by
  have kept := d.setTask_kept t x
  rw [Dev.fireTask_of_single k head commitAt ((Dev.bindings_setTask lt _ d t).trans only), Dev.tagOf_setTask, kept.rd (noId_of_task lt b),
    kept.rd (by cases head <;> grind)]
  cases head <;> rfl

theorem Dev.headFire_of_due {t a : Nat} {s : LStep} {rest : List LStep} {d : Dev} (steps : (d.task t).steps = s :: rest) (at_ : s.headAt = some a)
    (due : a ≤ d.now) (new : s.headFired = false) : d.headFire t =
      (d.setTask t { d.task t with steps := { s with headFired := true, headEnds := 0, headEnd := none } :: rest }).fireTask t s.k true none := by
  unfold Dev.headFire
  dsimp only
  rw [steps, List.find?_cons_of_pos]
  · dsimp only
    rw [Dev.modStep_of_head _ steps]
  · rw [at_]
    simp [due, new]

/-! ### Settled -/

/-- Settles O22: one equation per command and case, and what a change of a task leaves. -/
theorem stepsOpen : Obligations.StepsOpen := by
  unfold Obligations.StepsOpen
  refine ⟨?near, ?far, ?dropped, ?request, ?answer, ?head⟩
  case near =>
    intro t a as d acts kind tv due task running free near asks
    refine .of_onDev Dev.actStepOpen (fun _ => rfl) ?_
    rw [Dev.actStepOpen_of_head acts kind tv due, task, Dev.taskFire_of_open running free]
    have opened := (Dev.openedStep_of_near near asks : (d.acted as).openedStep t (a.tf - 4) a.tf = _)
    generalize shown : (d.acted as).openStep t (a.tf - 4) a.tf = e
    obtain ⟨own, others, kept, beyond⟩ := Dev.openStep_spec shown
    rw [opened] at own
    have frame := Dev.eq_of_beyondAhd beyond
    exact ⟨congrArg Task.steps own, congrArg Task.openK own, congrArg Task.openS own, congrArg Task.openAcc own, others,
      ((kept.mono (by simp)).showQlen (by simp)).1, congrArg Dev.showQlen frame⟩
  case far =>
    intro t a as d acts kind tv due task running free far
    refine .of_onDev Dev.actStepOpen (fun _ => rfl) ?_
    rw [Dev.actStepOpen_of_head acts kind tv due, task, Dev.taskFire_of_open running free]
    have opened := (Dev.openedStep_of_far far : (d.acted as).openedStep t (a.tf - 4) a.tf = _)
    generalize shown : (d.acted as).openStep t (a.tf - 4) a.tf = e
    obtain ⟨own, -, -, beyond⟩ := Dev.openStep_spec shown
    rw [opened] at own
    exact ⟨congrArg Task.steps own, congrArg Task.openK own, (congrArg Dev.isles beyond :), (congrArg Dev.mem beyond :), (congrArg Dev.ang beyond :)⟩
  case dropped =>
    intro t a as k d acts kind tv due task stopped count room
    refine .of_onDev Dev.actStepOpen (fun _ => rfl) ?_
    rw [Dev.actStepOpen_of_head acts kind tv due, task, Dev.taskFire_of_stopped stopped]
    refine ⟨?_, ?_, (((RegsKept.refl _ (d.acted as)).inc (by simp)).showQlen (by simp)).1, ?_⟩
    · rw [Dev.showQlen, Dev.rd_wr_ne _ _ _ _ (by grind), Dev.rd_inc_same _ _ (by simp) (by simp) (by rw [Dev.acted, Dev.rd_withAng, count]; exact room)]
      exact congrArg (· + 1) count
    · rw [Dev.inc_frame]; rfl
    · rw [Dev.inc_frame]; rfl
  case request =>
    intro t s rest a p d steps lower due now free pred
    refine .of_onDev Dev.predictionRequest (fun _ => rfl) ?_
    rw [Dev.predictionRequest_of_due t.isLt steps (fun u lt => lower ⟨u, lt.trans t.isLt⟩ lt) due now free, pred]
    refine ⟨by simp [LStep.asked], rfl, fun u ne => by simp [Dev.task_setTask_ne _ _ ne], ?_, rfl⟩
    exact (((RegsKept.refl _ d).setTask _ (by simp)).requested.showQlen (by simp)).1
  case answer =>
    intro t s rest b n a v d steps only isle asked due new valid
    refine .of_onDev (Dev.predictionAnswer t) (fun _ => rfl) ?_
    rw [Dev.predictionAnswer_of_due t.isLt steps only asked due new valid, isle]
    obtain ⟨w0, w1, w2, w3⟩ := Dev.load32_putPred n (d.frameAt b s.k) v (d.predVel t)
      (d.setTask t { d.task t with steps := { s with answered := true } :: rest })
    obtain ⟨ahd, isles⟩ := Dev.putPred_keeps n (d.frameAt b s.k) v (d.predVel t)
      (d.setTask t { d.task t with steps := { s with answered := true } :: rest })
    refine ⟨w0, w1, w2, w3, fun x out => Dev.byte_putPred_out _ _ _ _ _ out, ?_, isles⟩
    rw [Dev.task_eq (congrArg Ahd.tasks ahd), Dev.task_setTask_same]
  case head =>
    intro t s rest b n a d steps only isle at_ due new
    refine .of_onDev (Dev.headFire t) (fun _ => rfl) ?_
    rw [Dev.headFire_of_due steps at_ due new, Dev.fireTask_setTask t.isLt _ s.k true none only, isle]
    generalize shown : Dev.fired n _ _ _ _ = e
    obtain ⟨reqs, tag, cells, others, own, tasks, kept, mem⟩ := Dev.fired_setTask_spec shown
    exact ⟨reqs, tag, cells, others, congrArg Task.steps own, tasks, kept.1, mem⟩

end Sys2Proof.Machine

/-! ## The check, the tail and the commit (R138 to R145, R151) -/
namespace Sys2Proof.Machine

/-! ### The check -/

/-- A step that its check has decided: with a tail and a commit ACLK where it passes (R144, R145). -/
def LStep.decided (pass : Bool) (tail cmt : Nat) (s : LStep) : LStep :=
  { s with checked := true, passed := pass, tailAt := if pass then some tail else none, commitAt := if pass then some (tail + cmt) else none }

/-- The registers that a check writes: the difference, the result and, for a step that was not ready, the count (R143, R144). -/
def Dev.checkShown (t : Nat) (s : LStep) (ready pass : Bool) (d : Dev) : Dev :=
  let c := (d.setReg (AHD_LTt_DIFF t) (BitVec.ofInt 32 (d.checkDiff t s))).wrb (AHD_LTt_STAT_PASS t) pass
  if ready then c else c.inc (AHD_LTt_CNT1_NOTRDY t)

theorem Dev.checkShown_kept (t : Nat) (s : LStep) (ready pass : Bool) (d : Dev) :
    RegsKept (if ready then [AHD_LTt_STAT t, AHD_LTt_DIFF t] else [AHD_LTt_STAT t, AHD_LTt_DIFF t, AHD_LTt_CNT1 t]) d (d.checkShown t s ready pass) := by
  cases ready
  · exact ((((RegsKept.refl _ d).setReg _ (by simp)).wr _ (by simp)).inc (by simp))
  · exact (((RegsKept.refl _ d).setReg _ (by simp)).wr _ (by simp))

theorem Dev.checkShown_frame (t : Nat) (s : LStep) (ready pass : Bool) (d : Dev) :
    d.checkShown t s ready pass = { d with regs := (d.checkShown t s ready pass).regs } := by
  cases ready
  · exact Dev.inc_frame ..
  · rfl

@[simp] theorem Dev.task_checkShown (t : Nat) (s : LStep) (ready pass : Bool) (d : Dev) (u : Nat) : (d.checkShown t s ready pass).task u = d.task u := by
  rw [Dev.checkShown_frame]; rfl

section
variable (t : Nat) (s : LStep) (ready pass : Bool) (d : Dev)

theorem Dev.rd_pass_checkShown : (d.checkShown t s ready pass).rd (AHD_LTt_STAT_PASS t) = b2n pass := by
  have shown (c : Dev) : (c.wrb (AHD_LTt_STAT_PASS t) pass).rd (AHD_LTt_STAT_PASS t) = b2n pass := by
    rw [Dev.wrb, Dev.rd_wr_same _ _ _ (by simp) (by simp)]
    cases pass <;> rfl
  unfold Dev.checkShown
  cases ready
  · exact (Dev.rd_inc_disjoint _ _ _ (by simp) (by simp) (.inl (by simp))).trans (shown _)
  · exact shown _

theorem Dev.reg_diff_checkShown : (d.checkShown t s ready pass).reg (AHD_LTt_DIFF t) = BitVec.ofInt 32 (d.checkDiff t s) := by
  have shown : ((d.setReg (AHD_LTt_DIFF t) (BitVec.ofInt 32 (d.checkDiff t s))).wrb (AHD_LTt_STAT_PASS t) pass).reg (AHD_LTt_DIFF t) =
      BitVec.ofInt 32 (d.checkDiff t s) := by
    rw [Dev.wrb, Dev.reg_wr_ne _ _ _ (by simp), Dev.reg_setReg_same]
  unfold Dev.checkShown
  cases ready
  · exact (Dev.reg_inc_ne _ _ (by simp)).trans shown
  · exact shown

/-- A step that was not ready is counted. -/
theorem Dev.rd_notrdy_checkShown (room : d.rd (AHD_LTt_CNT1_NOTRDY t) < 65535) : (d.checkShown t s ready pass).rd (AHD_LTt_CNT1_NOTRDY t) =
    if ready then d.rd (AHD_LTt_CNT1_NOTRDY t) else d.rd (AHD_LTt_CNT1_NOTRDY t) + 1 := by
  have same : ((d.setReg (AHD_LTt_DIFF t) (BitVec.ofInt 32 (d.checkDiff t s))).wrb (AHD_LTt_STAT_PASS t) pass).rd (AHD_LTt_CNT1_NOTRDY t) =
      d.rd (AHD_LTt_CNT1_NOTRDY t) := by
    rw [Dev.wrb, Dev.rd_wr_ne _ _ _ _ (by simp), Dev.rd_setReg_ne _ _ _ (by simp)]
  unfold Dev.checkShown
  cases ready
  · exact (Dev.rd_inc_same _ _ (by simp) (by simp) (same ▸ room)).trans (congrArg (· + 1) same)
  · exact same

end

/-- The task whose oldest open step, latched in ACLK `l`, has been decided: a tail TFIRE after its latch and a commit CMT after that. -/
def Dev.taskDecided (d : Dev) (t l : Nat) (pass : Bool) (s : LStep) (rest : List LStep) : Task :=
  { d.task t with steps := s.decided pass (l + d.rd (AHD_LTt_TIM_TFIRE t)) (d.rd (AHD_LTt_TIM_CMT t)) :: rest }

/-- The check of the oldest open step three ACLK after its latch (R143, R144). -/
theorem Dev.checkStep_of_due {t l : Nat} {s : LStep} {rest : List LStep} {r q p : Bool} {d : Dev} (steps : (d.task t).steps = s :: rest)
    (latched : s.latch = some l) (new : s.checked = false) (first : s.rerun = none) (due : l + 3 ≤ d.now) (running : d.taskState t = 1)
    (ready : d.stepReady t s l = r) (policy : d.policyPass t s = q)
    (both : (r && q) = p) :
    d.checkStep t =
      if p then (d.checkShown t s r p).setTask t (d.taskDecided t l p s rest)
      else ((d.checkShown t s r p).setTask t (d.taskDecided t l p s rest)).decideSquash t s.k := by
  subst both
  have kept := d.checkShown_kept t s r (r && q)
  have timing (f : Fld) (tim : f.addr = AHD_LTt_TIM t) : (d.checkShown t s r (r && q)).rd f = d.rd f := kept.rd (by cases r <;> grind)
  have shown : (if r = true then (d.setReg (AHD_LTt_DIFF t) (BitVec.ofInt 32 (d.checkDiff t s))).wrb (AHD_LTt_STAT_PASS t) (r && q)
      else ((d.setReg (AHD_LTt_DIFF t) (BitVec.ofInt 32 (d.checkDiff t s))).wrb (AHD_LTt_STAT_PASS t) (r && q)).inc (AHD_LTt_CNT1_NOTRDY t)) =
      d.checkShown t s r (r && q) := rfl
  unfold Dev.checkStep
  rw [steps, List.head?_cons]
  dsimp only
  rw [latched]
  dsimp only
  rw [if_neg (by simp [new, first, running]; omega), ready, policy, shown, timing _ rfl, timing _ rfl,
    Dev.modStep_of_head (rest := rest) _ (by rw [Dev.task_checkShown, steps]), Dev.task_checkShown]
  rfl

/-- A squash decided for the oldest open step, where none is pending. -/
theorem Dev.decideSquash_of_head {t k : Nat} {again : Bool} {s : LStep} {rest : List LStep} {d : Dev} (steps : (d.task t).steps = s :: rest)
    (own : s.k = k) (rerun : s.rerun.isSome = again) (none : (d.task t).squash = []) :
    d.decideSquash t k = d.setTask t { d.task t with squash := [{ d := d.now, k := k, rerun := true, replay := true, again := again }] } := by
  subst own rerun
  unfold Dev.decideSquash Task.addSquash
  rw [Dev.step?_of_head steps, none]
  rfl

/-- ... after a change of its task. -/
theorem Dev.decideSquash_setTask {t k : Nat} {again : Bool} {s : LStep} {rest : List LStep} {x : Task} (d : Dev) (steps : x.steps = s :: rest)
    (own : s.k = k) (rerun : s.rerun.isSome = again) (none : x.squash = []) : (d.setTask t x).decideSquash t k =
      (d.setTask t x).setTask t { x with squash := [{ d := d.now, k := k, rerun := true, replay := true, again := again }] } := by
  have task : (d.setTask t x).task t = x := Dev.task_setTask_same ..
  rw [Dev.decideSquash_of_head (task.symm ▸ steps) own rerun (task.symm ▸ none), task]
  rfl

/-- A check that fails decides a squash (R144). -/
theorem Dev.checkStep_of_failed {t l : Nat} {s : LStep} {rest : List LStep} {r q : Bool} {d : Dev} (steps : (d.task t).steps = s :: rest)
    (latched : s.latch = some l) (new : s.checked = false) (first : s.rerun = none) (due : l + 3 ≤ d.now) (running : d.taskState t = 1)
    (ready : d.stepReady t s l = r) (policy : d.policyPass t s = q) (fails : r = false ∨ q = false) (none : (d.task t).squash = []) :
    d.checkStep t = ((d.checkShown t s r false).setTask t (d.taskDecided t l false s rest)).setTask t { d.taskDecided t l false s rest with
      squash := [{ d := (d.checkShown t s r false).now, k := s.k, rerun := true, replay := true, again := false }] } := by
  rw [Dev.checkStep_of_due steps latched new first due running ready policy (p := false) (by rcases fails with rfl | rfl <;> simp), if_neg (by simp)]
  exact Dev.decideSquash_setTask _ rfl rfl (by rw [LStep.decided, first]; rfl) none

/-! ### Cells of one isle, changed one after another -/

/-- Each of the cells `cs` of isle `n` changed. -/
def Dev.modCells (n : Nat) (cs : List Nat) (f : Cell → Cell) (d : Dev) : Dev := forList cs (fun c d => d.modCell n c f) d

section
variable (n : Nat) (cs : List Nat) (f : Cell → Cell) (d : Dev)

theorem Dev.beyondIsles_modCells : (d.modCells n cs f).beyondIsles = d.beyondIsles := forList_keeps Dev.beyondIsles cs d fun _ _ _ => rfl

theorem Dev.modCells_frame : d.modCells n cs f = { d with isles := (d.modCells n cs f).isles } :=
  congrArg (fun x : Dev => { x with isles := (d.modCells n cs f).isles }) (d.beyondIsles_modCells n cs f)

theorem Dev.isle_modCells_ne {m : Nat} (h : m ≠ n) : (d.modCells n cs f).isle m = d.isle m :=
  forList_keeps (fun e => e.isle m) cs d fun _ _ e => e.isle_setIsle_ne _ h

/-- A cell that is not among them stays; ... -/
theorem Dev.cell_modCells_out {c : Nat} (out : c ∉ cs) : ((d.modCells n cs f).isle n).cell c = (d.isle n).cell c :=
  forList_keeps (fun e => (e.isle n).cell c) cs d fun x mem e => by
    rw [Dev.isle_modCell_same]
    exact tget_tset_ne _ _ _ _ fun same => out (same ▸ mem)

/-- ... one that is changes once, where a second change would leave it. -/
theorem Dev.cell_modCells_in {c : Nat} (idem : ∀ x, f (f x) = f x) (member : c ∈ cs) :
    ((d.modCells n cs f).isle n).cell c = f ((d.isle n).cell c) := by
  have turn (x : Nat) (e : Dev) : f (((e.modCell n x f).isle n).cell c) = f ((e.isle n).cell c) := by
    rw [Dev.isle_modCell_same]
    by_cases same : c = x
    · rw [same, Isle.cell_setCell_same, idem]
    · rw [Isle.cell, Isle.setCell, tget_tset_ne _ _ _ _ same, ← Isle.cell]
  refine forList_pivot (fun e : Dev => f ((e.isle n).cell c) = f ((d.isle n).cell c)) (fun e : Dev => (e.isle n).cell c = f ((d.isle n).cell c))
    member rfl (fun x e before => (turn x e).trans before) (fun e before => ?_) fun x e after => ?_
  · rw [Dev.isle_modCell_same, Isle.cell_setCell_same, before]
  · rw [Dev.isle_modCell_same]
    by_cases same : c = x
    · rw [← same, Isle.cell_setCell_same, after, idem]
    · rw [Isle.cell, Isle.setCell, tget_tset_ne _ _ _ _ same, ← Isle.cell, after]

end

/-! ### The shadow copies and the held tokens of a task with one binding -/

/-- A cell whose shadow copy becomes architectural, or the reverse. -/
def Cell.copied (commit : Bool) (x : Cell) : Cell := if commit then { x with arch := x.shad } else { x with shad := x.arch }

theorem Cell.copied_copied (commit : Bool) (x : Cell) : (x.copied commit).copied commit = x.copied commit := by
  cases commit <;> rfl

theorem not_mem_maskCells_of_wbit {m c : Nat} (clear : wbit (BitVec.ofNat 16 m) c = false) (bound : m < 2 ^ 16) : c ∉ maskCells m := by
  rw [wbit, BitVec.toNat_ofNat, Nat.mod_eq_of_lt bound, decide_eq_false_iff_not] at clear
  exact fun mem => clear (by simpa using (List.mem_filter.mp mem).2)

theorem Dev.shadowCopy_of_single {t b : Nat} {d : Dev} (commit : Bool) (only : d.bindings t = [b]) :
    d.shadowCopy t commit = d.modCells (d.rd (AHD_TBb_ID_ISLE b)) (maskCells (d.rd (AHD_TBb_GRP_CELLS b))) (Cell.copied commit) := by
  unfold Dev.shadowCopy
  rw [only]
  rfl

/-- What the copies change: the cells of CELLS. -/
theorem Dev.shadowCopy_spec {t b n : Nat} {d e : Dev} {commit : Bool} (only : d.bindings t = [b]) (isle : d.rd (AHD_TBb_ID_ISLE b) = n)
    (h : d.shadowCopy t commit = e) :
    (∀ c, c < 16 → wbit (BitVec.ofNat 16 (d.rd (AHD_TBb_GRP_CELLS b))) c = true → (e.isle n).cell c = ((d.isle n).cell c).copied commit) ∧
    (∀ c, c < 16 → wbit (BitVec.ofNat 16 (d.rd (AHD_TBb_GRP_CELLS b))) c = false → (e.isle n).cell c = (d.isle n).cell c) ∧
    (∀ m, m ≠ n → e.isle m = d.isle m) ∧ e = { d with isles := e.isles } := by
  have bound : d.rd (AHD_TBb_GRP_CELLS b) < 2 ^ 16 := d.rd_lt _
  rw [Dev.shadowCopy_of_single commit only, isle] at h
  subst h
  exact ⟨fun c lt set => d.cell_modCells_in n _ _ (Cell.copied_copied commit) (mem_maskCells_of_wbit lt set bound),
    fun c _ clear => d.cell_modCells_out n _ _ (not_mem_maskCells_of_wbit clear bound), fun m ne => d.isle_modCells_ne n _ _ ne, d.modCells_frame n _ _⟩

/-- No token of binding `b` is held any more. -/
def Dev.heldCleared (b : Nat) (d : Dev) : Dev := ({ d with ahd := { d.ahd with held := tset [] d.ahd.held b [] } }).wr (AHD_TBb_STAT_HELD b) 0

theorem Dev.heldTokens_of_single {t b : Nat} {d : Dev} (deliver : Bool) (only : d.bindings t = [b]) : d.heldTokens t deliver =
    if deliver then forList (tget [] d.ahd.held b) (fun h d => d.deliverTok h.isle h.kind h.num) (d.heldCleared b) else d.heldCleared b := by
  unfold Dev.heldTokens
  rw [only]
  rfl

theorem Dev.heldCleared_kept (b : Nat) (d : Dev) : RegsKept [AHD_TBb_STAT b] d (d.heldCleared b) := RegsKept.wr (RegsKept.of_regs rfl) _ (by simp)

/-- An item of this ACLK stays in the queue as the next one enters. -/
theorem Dev.mem_enterArrivals_of_mem {d : Dev} {k x : SchedTok} (room : d.schedIn.length < 64) (noWait : d.schedWait = []) (mem : x ∈ d.schedIn)
    (now : x.at_ = d.now) : x ∈ (d.enterArrivals [k]).schedIn := by
  have place (l : List SchedTok) : ∀ m : List SchedTok, x ∈ m ∨ x ∈ l → x ∈ l.foldl (fun l k => placeArrival k l) m := by
    induction l with
    | nil => intro m h; simpa using h
    | cons y l ih =>
      intro m h
      refine ih _ ?_
      rw [mem_placeArrival]
      simp only [List.mem_cons] at h
      tauto
  rw [Dev.enterArrivals_of_room k room noWait]
  refine List.mem_append_right _ (List.mem_map.mpr ⟨x, place _ [] (.inr ?_), by rw [← now]⟩)
  exact List.mem_append_left _ (List.mem_filter.mpr ⟨mem, by simpa using now⟩)

/-- The item that a held token is at the scheduler. -/
def HeldTok.item (now : Nat) (h : HeldTok) : SchedTok := { wake := false, num := h.num, value := 0, cls := 0, at_ := now }

/-- Scheduler tokens that find room enter the queue, each once. -/
theorem Dev.deliver_spec (l : List HeldTok) : ∀ d : Dev, (∀ h ∈ l, h.kind = 1) → d.schedIn.length + l.length ≤ 64 → d.schedWait = [] →
    ∀ e, forList l (fun h d => d.deliverTok h.isle h.kind h.num) d = e →
    (∀ h ∈ l, h.item d.now ∈ e.schedIn) ∧ (∀ x ∈ d.schedIn, x.at_ = d.now → x ∈ e.schedIn) ∧ e.schedIn.length = d.schedIn.length + l.length ∧
    e = { d with schedIn := e.schedIn } := by
  induction l with
  | nil =>
    rintro d - - - e rfl
    exact ⟨by simp, fun x mem _ => mem, rfl, rfl⟩
  | cons h l ih =>
    intro d kinds room noWait e shown
    rw [List.length_cons] at room
    have here : d.schedIn.length < 64 := by omega
    have turn : d.deliverTok h.isle h.kind h.num = d.enterArrivals [h.item d.now] := if_pos (kinds h (by simp))
    obtain ⟨length, entered⟩ := Dev.schedIn_enterArrivals_of_room (h.item d.now) here noWait
    have frame : d.enterArrivals [h.item d.now] = { d with schedIn := (d.enterArrivals [h.item d.now]).schedIn } := by
      rw [Dev.enterArrivals_of_room _ here noWait]
    have now : (d.enterArrivals [h.item d.now]).now = d.now := by rw [frame]
    obtain ⟨items, older, count, rest⟩ := ih (d.enterArrivals [h.item d.now]) (fun x mem => kinds x (List.mem_cons_of_mem _ mem)) (by omega)
      (by rw [frame]; exact noWait) e (turn ▸ shown)
    rw [now] at items older
    refine ⟨fun x mem => ?_, fun x mem at_ => older x (Dev.mem_enterArrivals_of_mem here noWait mem at_) at_, by rw [count, length, List.length_cons]; omega, ?_⟩
    · rcases List.mem_cons.mp mem with rfl | mem
      · exact older _ entered rfl
      · exact items x mem
    · rw [rest, frame]

/-! ### The position passes to the next step -/

theorem foldl_min_le (l : List Nat) : ∀ a, l.foldl min a ≤ a := by
  induction l with
  | nil => exact le_refl
  | cons x l ih => exact fun a => (ih (min a x)).trans (Nat.min_le_left a x)

/-- With no later step latched nothing has been skipped beyond the front. -/
theorem Dev.passSkipped_of_latch {t : Nat} {d : Dev} (next : (d.task t).latchK ≤ d.front t) : d.passSkipped t = d :=
  if_neg (Nat.not_lt.mpr ((foldl_min_le _ _).trans next))

theorem Dev.startReplay_of_none {t : Nat} {d : Dev} (at_ : Nat) (none : ∀ q ∈ (d.task t).steps, q.replay = false) : d.startReplay t at_ = d := by
  unfold Dev.startReplay
  split
  · rfl
  · next s head =>
    rw [if_pos]
    simp [none s (List.mem_of_mem_head? head)]

end Sys2Proof.Machine

/-! ## Commit and skip (R145, R151) -/
namespace Sys2Proof.Machine

/-! ### The tail and the commit -/

theorem Dev.tailFire_of_due {t a : Nat} {s : LStep} {rest : List LStep} {d : Dev} (steps : (d.task t).steps = s :: rest) (at_ : s.tailAt = some a)
    (due : a ≤ d.now) (new : s.tailFired = false) (alive : (d.task t).squashes s.k = false) : d.tailFire t =
      (d.setTask t { d.task t with steps := { s with tailFired := true } :: rest }).fireTask t s.k false s.commitAt := by
  unfold Dev.tailFire
  rw [steps, List.head?_cons]
  dsimp only
  rw [at_]
  dsimp only
  rw [if_neg (by simp [new, alive, due]), Dev.modStep_of_head _ steps, at_]

/-- The registers of a commit: the position goes on, COMMIT counts, and the time from the latch to the commit is kept (R145). -/
def Dev.commitShown (t f v : Nat) (d : Dev) : Dev := ((d.wr (AHD_LTt_STEP_STEP t) (f + 1)).inc (AHD_LTt_CNT0_COMMIT t)).recordLat t v false

section
variable (t f v : Nat) (d : Dev)

theorem Dev.commitShown_frame : d.commitShown t f v = { d with regs := (d.commitShown t f v).regs } := by
  unfold Dev.commitShown
  rw [Dev.inc_frame]
  rfl

@[simp] theorem Dev.task_commitShown (u : Nat) : (d.commitShown t f v).task u = d.task u := by rw [Dev.commitShown_frame]; rfl

theorem Dev.commitShown_kept : RegsKept [AHD_LTt_STEP t, AHD_LTt_CNT0 t, AHD_LTt_LAT t] d (d.commitShown t f v) :=
  ((((RegsKept.refl _ d).wr _ (by simp)).inc (by simp)).wr _ (by simp)).wr _ (by simp)

theorem Dev.rd_commitShown (lt : f < 2 ^ 32 - 1) (room : d.rd (AHD_LTt_CNT0_COMMIT t) < 65535) :
    (d.commitShown t f v).front t = f + 1 ∧ (d.commitShown t f v).rd (AHD_LTt_CNT0_COMMIT t) = d.rd (AHD_LTt_CNT0_COMMIT t) + 1 ∧
    (d.commitShown t f v).rd (AHD_LTt_LAT_LASTC t) = min 255 v := by
  have off (c : Dev) (g : Fld) (h : g.addr ≠ AHD_LTt_LAT t) : (c.recordLat t v false).rd g = c.rd g :=
    (Dev.rd_wr_ne _ _ _ _ h).trans (Dev.rd_wr_ne _ _ _ _ h)
  unfold Dev.commitShown
  refine ⟨?_, ?_, ?_⟩
  · rw [Dev.front, off _ _ (by simp), Dev.rd_inc_disjoint _ _ _ (by simp) (by simp) (.inl (by simp)), Dev.rd_wr_same _ _ _ (by simp) (by simp)]
    exact Nat.mod_eq_of_lt (by simp; omega)
  · have same : (d.wr (AHD_LTt_STEP_STEP t) (f + 1)).rd (AHD_LTt_CNT0_COMMIT t) = d.rd (AHD_LTt_CNT0_COMMIT t) := Dev.rd_wr_ne _ _ _ _ (by simp)
    rw [off _ _ (by simp), Dev.rd_inc_same _ _ (by simp) (by simp) (by rw [same]; exact room), same]
  · refine (Dev.rd_wr_disjoint _ _ _ _ (by simp) (by simp) (.inr (by simp))).trans ?_
    exact (Dev.rd_wr_same _ (AHD_LTt_LAT_LASTC t) _ (by simp) (by simp)).trans (Nat.mod_eq_of_lt (show min 255 v < 256 by omega))

end

/-- The commit ACLK of the front step whose tail has started in every binding (R145). -/
theorem Dev.commitStep_of_started {t cm l : Nat} {s : LStep} {rest : List LStep} {d : Dev} (steps : (d.task t).steps = s :: rest)
    (at_ : s.commitAt = some cm) (due : cm ≤ d.now) (alive : (d.task t).squashes s.k = false) (running : d.taskState t = 1)
    (fired : s.tailFired = true) (started : (d.bindings t).length ≤ s.tailStarts) (latched : s.latch = some l) (first : s.rerun = none)
    {c : Dev} (isles : (d.shadowCopy t true).heldTokens t true = c) :
    d.commitStep t = (((c.commitShown t (c.front t) (cm - l)).setTask t
      { c.task t with steps := (c.task t).steps.drop 1, lastC := c.now }).passSkipped t).startReplay t (c.now + 1) := by
  have now : (c.commitShown t (c.front t) (cm - l)).now = c.now := by rw [Dev.commitShown_frame]
  have shown : ((c.wr (AHD_LTt_STEP_STEP t) (c.front t + 1)).inc (AHD_LTt_CNT0_COMMIT t)).recordLat t (cm - l) (Option.isSome (none : Option Nat)) =
      c.commitShown t (c.front t) (cm - l) := rfl
  unfold Dev.commitStep
  rw [steps, List.head?_cons]
  dsimp only
  rw [at_]
  dsimp only
  rw [if_neg (by simp [due, alive, running]), if_neg (by simp [fired, started]), isles, latched, first]
  dsimp only
  rw [shown, now, Dev.task_commitShown]

/-- ... and of one whose tail has not (R151). -/
theorem Dev.commitStep_of_missed {t cm : Nat} {s : LStep} {rest : List LStep} {d : Dev} (steps : (d.task t).steps = s :: rest)
    (at_ : s.commitAt = some cm) (due : cm ≤ d.now) (alive : (d.task t).squashes s.k = false) (running : d.taskState t = 1)
    (missed : ¬ s.tailFired ∨ s.tailStarts < (d.bindings t).length) : d.commitStep t = (d.skipFront t).startReplay t (d.now + 1) := by
  unfold Dev.commitStep
  rw [steps, List.head?_cons]
  dsimp only
  rw [at_]
  dsimp only
  rw [if_neg (by simp [due, alive, running]), if_pos missed]

/-! ### The skip -/

theorem Dev.countSkip_spec {t f : Nat} {d e : Dev} (front : d.front t = f) (lt : f < 2 ^ 32 - 1) (low : t < 48)
    (room : d.rd (AHD_LTt_CNT1_SKIP t) < 65535) (h : d.countSkip t = e) :
    e.front t = f + 1 ∧ e.rd (AHD_LTt_CNT1_SKIP t) = d.rd (AHD_LTt_CNT1_SKIP t) + 1 ∧ e.rd (AHD_LTt_CNT0_COMMIT t) = d.rd (AHD_LTt_CNT0_COMMIT t) ∧
    e.ahd = d.ahd ∧ e.isles = d.isles ∧ e.mem = d.mem ∧ e.now = d.now := by
  have unfolded : d.countSkip t = ((d.inc (AHD_LTt_CNT1_SKIP t)).wr (AHD_LTt_STEP_STEP t) (f + 1)).f0 0x06 t := by
    unfold Dev.countSkip
    rw [front]
  rw [unfolded] at h
  have kept := Dev.steady_f0 ((d.inc (AHD_LTt_CNT1_SKIP t)).wr (AHD_LTt_STEP_STEP t) (f + 1)) 0x06 t
  have reg (g : Fld) (off : g.addr < 0x400B0000) : e.rd g = ((d.inc (AHD_LTt_CNT1_SKIP t)).wr (AHD_LTt_STEP_STEP t) (f + 1)).rd g :=
    Dev.rd_eq (h ▸ Dev.reg_f0 _ _ _ (.inl off))
  have frame : (d.inc (AHD_LTt_CNT1_SKIP t)).ahd = d.ahd ∧ (d.inc (AHD_LTt_CNT1_SKIP t)).isles = d.isles ∧ (d.inc (AHD_LTt_CNT1_SKIP t)).mem = d.mem ∧
      (d.inc (AHD_LTt_CNT1_SKIP t)).now = d.now := by
    rw [Dev.inc_frame]; exact ⟨rfl, rfl, rfl, rfl⟩
  obtain ⟨ahd, isles, mem, now⟩ := frame
  refine ⟨?_, ?_, ?_, ?_, ?_, ?_, ?_⟩
  · rw [Dev.front, reg _ (by grind), Dev.rd_wr_same _ _ _ (by simp) (by simp)]
    exact Nat.mod_eq_of_lt (by simp; omega)
  · rw [reg _ (by grind), Dev.rd_wr_ne _ _ _ _ (by simp), Dev.rd_inc_same _ _ (by simp) (by simp) room]
  · rw [reg _ (by grind), Dev.rd_wr_ne _ _ _ _ (by simp), Dev.rd_inc_disjoint _ _ _ (by simp) (by simp) (.inl (by simp))]
  · exact h ▸ (congrArg (fun p => p.1.ahd) kept :).trans ahd
  · exact h ▸ (Dev.isles_of_steady kept).trans isles
  · exact h ▸ (Dev.mem_of_steady kept).trans mem
  · exact h ▸ (congrArg (fun p => p.1.now) kept :).trans now

/-- The front step of a task is skipped where the next one is not latched yet (R151). -/
theorem Dev.skipFront_spec {t b n f : Nat} {d e : Dev} (low : t < 48) (only : d.bindings t = [b]) (isle : d.rd (AHD_TBb_ID_ISLE b) = n)
    (front : d.front t = f) (lt : f < 2 ^ 32 - 1) (latched : f + 1 = (d.task t).latchK) (opened : (d.task t).latchK ≤ (d.task t).openK)
    (room : d.rd (AHD_LTt_CNT1_SKIP t) < 65535) (h : d.skipFront t = e) :
    (∀ c, c < 16 → wbit (BitVec.ofNat 16 (d.rd (AHD_TBb_GRP_CELLS b))) c = true → (e.isle n).cell c = ((d.isle n).cell c).copied false) ∧
    (∀ m, m ≠ n → e.isle m = d.isle m) ∧ e.front t = f + 1 ∧ e.rd (AHD_LTt_CNT1_SKIP t) = d.rd (AHD_LTt_CNT1_SKIP t) + 1 ∧
    e.rd (AHD_LTt_CNT0_COMMIT t) = d.rd (AHD_LTt_CNT0_COMMIT t) ∧
    e.task t = { d.task t with steps := (d.task t).steps.filter (fun s => s.k ≠ f), lastC := d.now } ∧ tget [] e.ahd.held b = [] ∧ e.mem = d.mem := by
  have step : AHD_LTt_STEP t ≠ AHD_TBb_STAT b := by grind
  have skips : AHD_LTt_CNT1 t ≠ AHD_TBb_STAT b := by grind
  have commits : AHD_LTt_CNT0 t ≠ AHD_TBb_STAT b := by grind
  obtain ⟨shadow, -, others, frame⟩ := Dev.shadowCopy_spec only isle (rfl : d.shadowCopy t false = _)
  have kept : RegsKept [AHD_TBb_STAT b] d ((d.shadowCopy t false).heldTokens t false) := by
    rw [Dev.heldTokens_of_single false (by rw [frame]; exact only)]
    exact (RegsKept.of_regs (by rw [frame])).trans (Dev.heldCleared_kept b _)
  have cleared : (d.shadowCopy t false).heldTokens t false = (d.shadowCopy t false).heldCleared b :=
    Dev.heldTokens_of_single false (by rw [frame]; exact only)
  have unread : ((d.shadowCopy t false).heldTokens t false).ahd = { d.ahd with held := tset [] d.ahd.held b [] } := by
    rw [cleared, frame]; rfl
  have isles : ((d.shadowCopy t false).heldTokens t false).isles = (d.shadowCopy t false).isles := by rw [cleared]; rfl
  have mem : ((d.shadowCopy t false).heldTokens t false).mem = d.mem := by rw [cleared, frame]; rfl
  have now : ((d.shadowCopy t false).heldTokens t false).now = d.now := by rw [cleared, frame]; rfl
  unfold Dev.skipFront at h
  dsimp only at h
  generalize (d.shadowCopy t false).heldTokens t false = c at h kept unread isles mem now
  obtain ⟨front', skip, commit, ahd, isles', mem', now'⟩ := Dev.countSkip_spec (t := t) (f := f) (d := c) (e := c.countSkip t)
    (by rw [Dev.front, kept.rd (by simpa using step), ← Dev.front, front]) lt low (by rw [kept.rd (by simpa using skips)]; exact room) rfl
  have task (u : Nat) : (c.countSkip t).task u = d.task u := (Dev.task_eq (by rw [ahd, unread]) u)
  rw [front, if_neg (by omega), task, now'.trans now] at h
  generalize c.countSkip t = g at *
  have shown : (g.setTask t { d.task t with steps := (d.task t).steps.filter (fun s => s.k ≠ f), lastC := d.now }).front t = f + 1 := by
    rw [Dev.front, g.rd_setTask _ (.inl (by simp)), ← Dev.front, front']
  rw [Dev.passSkipped_of_latch (by rw [Dev.task_setTask_same, shown, latched])] at h
  subst h
  have reg (x : Task) (k : Fld) (ne : k.addr ≠ AHD_LTt_STAT t) (ne' : k.addr ≠ AHD_QLEN) : ((g.setTask t x).showQlen).rd k = g.rd k :=
    (Dev.rd_wr_ne _ _ _ _ ne').trans (g.rd_setTask x (.inl ne))
  refine ⟨fun c lt set => ?_, fun m ne => ?_, ?_, ?_, ?_, ?_, ?_, ?_⟩
  · exact (congrArg (fun i => (tget Isle.reset i n).cell c) (isles'.trans isles) : (g.isle n).cell c = _).trans (shadow c lt set)
  · exact (congrArg (fun i => tget Isle.reset i m) (isles'.trans isles) : g.isle m = _).trans (others m ne)
  · exact (reg _ _ (by simp) (by grind)).trans front'
  · rw [reg _ _ (by simp) (by grind), skip, kept.rd (by simpa using skips)]
  · rw [reg _ _ (by simp) (by grind), commit, kept.rd (by simpa using commits)]
  · rw [Dev.task_showQlen, Dev.task_setTask_same]
  · exact (congrArg (fun a : Ahd => tget [] a.held b) (ahd.trans unread) : tget [] g.ahd.held b = _).trans (tget_tset_same ([] : List HeldTok) d.ahd.held b [])
  · exact mem'.trans mem

end Sys2Proof.Machine

/-! ## The carry load, and the check, the tail and the commit settled (R138 to R145, R151) -/
namespace Sys2Proof.Machine

/-! ### The carry load -/

/-- A carry word: isle, cell, register and value. -/
abbrev CarryWord := Nat × Nat × Nat × BitVec 32

/-- Where a carry word goes. -/
def CarryWord.key (q : CarryWord) : Nat × Nat × Nat := (q.1, q.2.1, q.2.2.1)

/-- A carry word enters the shadow copy of its cell. -/
def Dev.putCarry (q : CarryWord) (d : Dev) : Dev := d.modCell q.1 q.2.1 (fun x => { x with shad := x.shad.put q.2.2.1 q.2.2.2 })

/-- The register of a shadow copy that a key names. -/
def Dev.shadAt (d : Dev) (k : Nat × Nat × Nat) : BitVec 32 := ((d.isle k.1).cell k.2.1).shad.get k.2.2

/-- A whole register takes every bit (R86). -/
theorem CRegs.get_put_same {code : Nat} (r : CRegs) (v : BitVec 32) (whole : code < 8) : (r.put code v).get code = v := by
  refine (tget_tset_same ..).trans ?_
  have low_ : low (cregWidth code) v.toNat = v.toNat := by
    rw [cregWidth, if_pos whole]
    exact Nat.mod_eq_of_lt v.isLt
  rw [low_, w32, BitVec.ofNat_toNat, BitVec.setWidth_eq]

theorem CRegs.get_put_ne {code other : Nat} (r : CRegs) (v : BitVec 32) (ne : other ≠ code) : (r.put code v).get other = r.get other :=
  tget_tset_ne _ _ _ _ ne

section
variable (q : CarryWord) (d : Dev)

theorem Dev.cell_putCarry (m c : Nat) : ((d.putCarry q).isle m).cell c =
    if m = q.1 ∧ c = q.2.1 then { (d.isle m).cell c with shad := ((d.isle m).cell c).shad.put q.2.2.1 q.2.2.2 } else (d.isle m).cell c := by
  unfold Dev.putCarry
  by_cases isle : m = q.1
  · rw [isle, Dev.isle_modCell_same]
    by_cases cell : c = q.2.1
    · rw [if_pos ⟨rfl, cell⟩, cell, Isle.cell_setCell_same]
    · rw [if_neg (fun both => cell both.2)]
      exact tget_tset_ne _ _ _ _ cell
  · rw [if_neg (fun both => isle both.1)]
    exact congrArg (fun i => i.cell c) (d.isle_setIsle_ne _ isle)

theorem Dev.arch_putCarry (m c : Nat) : (((d.putCarry q).isle m).cell c).arch = ((d.isle m).cell c).arch := by
  rw [Dev.cell_putCarry]
  split <;> rfl

theorem Dev.shadAt_putCarry_same (whole : q.2.2.1 < 8) : (d.putCarry q).shadAt q.key = q.2.2.2 := by
  show ((((d.putCarry q).isle q.1).cell q.2.1).shad.get q.2.2.1) = _
  rw [Dev.cell_putCarry, if_pos ⟨rfl, rfl⟩]
  exact CRegs.get_put_same _ _ whole

theorem Dev.shadAt_putCarry_ne {k : Nat × Nat × Nat} (ne : k ≠ q.key) : (d.putCarry q).shadAt k = d.shadAt k := by
  unfold Dev.shadAt
  rw [Dev.cell_putCarry]
  split
  · next same =>
    refine CRegs.get_put_ne _ _ fun code => ne ?_
    rw [CarryWord.key, ← same.1, ← same.2, ← code]
  · rfl

end

/-- Carry words with different places stand in the shadow copies after they have entered; the architectural copies stay (R138). -/
theorem Dev.putCarry_all (l : List CarryWord) : ∀ d : Dev, (l.map CarryWord.key).Nodup → (∀ q ∈ l, q.2.2.1 < 8) →
    (∀ q ∈ l, (forList l Dev.putCarry d).shadAt q.key = q.2.2.2) ∧ ∀ k, k ∉ l.map CarryWord.key → (forList l Dev.putCarry d).shadAt k = d.shadAt k := by
  induction l with
  | nil => exact fun d _ _ => ⟨by simp, fun _ _ => rfl⟩
  | cons q l ih =>
    intro d apart whole
    obtain ⟨new, apart⟩ := List.nodup_cons.mp apart
    obtain ⟨in_, out⟩ := ih (d.putCarry q) apart fun x mem => whole x (List.mem_cons_of_mem _ mem)
    refine ⟨fun x mem => ?_, fun k away => ?_⟩
    · rcases List.mem_cons.mp mem with rfl | mem
      · exact (out _ new).trans (d.shadAt_putCarry_same x (whole x (by simp)))
      · exact in_ x mem
    · rw [List.map_cons, List.mem_cons, not_or] at away
      exact (out k away.2).trans (d.shadAt_putCarry_ne q away.1)

theorem Dev.carryLoad_of_due {t h : Nat} {s : LStep} {rest : List LStep} {d : Dev} (steps : (d.task t).steps = s :: rest) (front : s.k = d.front t)
    (new : s.carryAt = none) (hold : d.carryHold t s = some h) (due : h ≤ d.now) :
    d.carryLoad t = (forList s.carried Dev.putCarry d).setTask t { d.task t with steps := { s with carryAt := some h } :: rest } := by
  have task : (forList s.carried Dev.putCarry d).task t = d.task t := forList_keeps (fun e : Dev => e.task t) s.carried d fun q _ e => rfl
  unfold Dev.carryLoad
  rw [steps, List.head?_cons]
  dsimp only
  rw [hold]
  dsimp only
  rw [if_neg (by simp [front, new, due])]
  refine (Dev.modStep_of_head (d := forList s.carried Dev.putCarry d) _ (task ▸ steps)).trans ?_
  rw [task]

/-! ### What a commit does to the cells and the held tokens -/

theorem Dev.commitIsles_spec {t b n : Nat} {d e : Dev} (only : d.bindings t = [b]) (isle : d.rd (AHD_TBb_ID_ISLE b) = n)
    (kinds : ∀ h ∈ tget [] d.ahd.held b, h.kind = 1) (room : d.schedIn.length + (tget [] d.ahd.held b).length ≤ 64) (noWait : d.schedWait = [])
    (h : (d.shadowCopy t true).heldTokens t true = e) :
    (∀ c, c < 16 → wbit (BitVec.ofNat 16 (d.rd (AHD_TBb_GRP_CELLS b))) c = true → (e.isle n).cell c = ((d.isle n).cell c).copied true) ∧
    (∀ c, c < 16 → wbit (BitVec.ofNat 16 (d.rd (AHD_TBb_GRP_CELLS b))) c = false → (e.isle n).cell c = (d.isle n).cell c) ∧
    (∀ m, m ≠ n → e.isle m = d.isle m) ∧ RegsKept [AHD_TBb_STAT b] d e ∧ e.ahd = { d.ahd with held := tset [] d.ahd.held b [] } ∧
    (∀ x ∈ tget [] d.ahd.held b, x.item d.now ∈ e.schedIn) ∧ e.schedIn.length = d.schedIn.length + (tget [] d.ahd.held b).length ∧
    e.mem = d.mem ∧ e.now = d.now := by
  obtain ⟨shadow, stay, others, frame⟩ := Dev.shadowCopy_spec only isle (rfl : d.shadowCopy t true = _)
  generalize d.shadowCopy t true = c at h shadow stay others frame
  have same : c.bindings t = d.bindings t ∧ c.ahd = d.ahd ∧ c.schedIn = d.schedIn ∧ c.schedWait = d.schedWait ∧ c.now = d.now ∧ c.mem = d.mem := by
    rw [frame]; exact ⟨rfl, rfl, rfl, rfl, rfl, rfl⟩
  obtain ⟨bindings, ahd, queue, wait, now, mem⟩ := same
  rw [Dev.heldTokens_of_single true (bindings.trans only), if_pos rfl, ahd] at h
  obtain ⟨items, -, length, rest⟩ := Dev.deliver_spec _ (c.heldCleared b) kinds (queue.symm ▸ room) (wait.trans noWait) e h
  have isles : e.isles = c.isles := by rw [rest]; rfl
  refine ⟨fun k lt set => ?_, fun k lt clear => ?_, fun m ne => ?_, ?_, ?_, ?_, ?_, ?_, ?_⟩
  · rw [Dev.isle, isles]; exact shadow k lt set
  · rw [Dev.isle, isles]; exact stay k lt clear
  · rw [Dev.isle, isles]; exact others m ne
  · have cleared : RegsKept [AHD_TBb_STAT b] d (c.heldCleared b) := (RegsKept.of_regs (by rw [frame])).trans (c.heldCleared_kept b)
    exact cleared.trans (RegsKept.of_regs (by rw [rest]))
  · rw [rest, ← ahd]; rfl
  · exact fun x mem => now ▸ items x mem
  · exact length.trans (congrArg (fun q => q.length + (tget [] d.ahd.held b).length) queue)
  · rw [rest]; exact mem
  · rw [rest]; exact now

/-! ### Settled -/

/-- Settles O24: one equation per command and case; what each part of a commit and of a skip changes. -/
theorem checkTailCommit : Obligations.CheckTailCommit := by
  unfold Obligations.CheckTailCommit
  refine ⟨?pass, ?fail, ?tail, ?commit, ?skip, ?carry⟩
  case pass =>
    rintro t s rest l r q d steps latched new first due running ready policy ⟨rfl, rfl⟩
    refine .of_onDev (Dev.checkStep t) (fun _ => rfl) ?_
    rw [Dev.checkStep_of_due steps latched new first due running ready policy (p := true) rfl]
    have kept := d.checkShown_kept t s true true
    have passed := d.rd_pass_checkShown t s true true
    have diff := d.reg_diff_checkShown t s true true
    have frame := d.checkShown_frame t s true true
    have task (u : Nat) := d.task_checkShown t s true true u
    generalize d.checkShown t s true true = c at kept passed diff frame task ⊢
    rw [if_pos rfl]
    refine ⟨congrArg Task.steps (Dev.task_setTask_same ..), ?_, ?_, by rw [Dev.task_setTask_same]; rfl, fun u ne => ?_, ?_, ?_⟩
    · rw [c.rd_setTask _ (.inr (.inl (by simp))), passed]; rfl
    · rw [c.reg_setTask_ne _ (by simp), diff]
    · rw [Dev.task_setTask_ne _ _ ne, task]
    · exact (kept.setTask _ (by simp)).1
    · rw [frame]; rfl
  case fail =>
    intro t s rest l r q m d steps latched new first due running ready policy fails none count room
    refine .of_onDev (Dev.checkStep t) (fun _ => rfl) ?_
    rw [Dev.checkStep_of_failed steps latched new first due running ready policy fails none]
    have kept := (d.checkShown_kept t s r false).mono (m := [AHD_LTt_STAT t, AHD_LTt_DIFF t, AHD_LTt_CNT1 t]) (by cases r <;> simp)
    have passed := d.rd_pass_checkShown t s r false
    have diff := d.reg_diff_checkShown t s r false
    have missed := d.rd_notrdy_checkShown t s r false (count ▸ room)
    have frame := d.checkShown_frame t s r false
    generalize d.checkShown t s r false = c at kept passed diff missed frame ⊢
    have now : c.now = d.now := by rw [frame]
    refine ⟨?_, congrArg Task.steps (Dev.task_setTask_same ..), ?_, ?_, ?_, ?_, ?_⟩
    · rw [Dev.task_setTask_same]
      exact congrArg (fun n => [({ d := n, k := s.k, rerun := true, replay := true, again := false } : PendSquash)]) now
    · rw [Dev.rd_setTask _ _ (.inr (.inl (by simp))), Dev.rd_setTask _ _ (.inr (.inl (by simp))), passed]; rfl
    · rw [Dev.rd_setTask _ _ (.inl (by simp)), Dev.rd_setTask _ _ (.inl (by simp)), missed, count]
    · rw [Dev.reg_setTask_ne _ _ (by simp), Dev.reg_setTask_ne _ _ (by simp), diff]
    · exact ((kept.setTask _ (by simp)).setTask _ (by simp)).1
    · rw [frame]; rfl
  case tail =>
    intro t s rest b n a d steps only isle at_ due new alive
    refine .of_onDev (Dev.tailFire t) (fun _ => rfl) ?_
    rw [Dev.tailFire_of_due steps at_ due new alive, Dev.fireTask_setTask t.isLt _ s.k false s.commitAt only, isle]
    generalize shown : Dev.fired n _ _ _ _ = e
    obtain ⟨reqs, tag, cells, others, own, -, kept, mem⟩ := Dev.fired_setTask_spec shown
    exact ⟨reqs, tag, cells, others, congrArg Task.steps own, kept.1, mem⟩
  case commit =>
    intro t s rest b n cm l f k d steps only isle at_ due alive running fired started front latched lt latch first kinds room noWait fresh count below
    refine .of_onDev (Dev.commitStep t) (fun _ => rfl) ?_
    obtain ⟨shadow, stay, others, kept, ahd, items, length, mem, now⟩ :=
      Dev.commitIsles_spec only isle kinds room noWait (rfl : (d.shadowCopy t true).heldTokens t true = _)
    rw [Dev.commitStep_of_started steps at_ due alive running fired (by rw [only]; exact started) latch first rfl]
    generalize (d.shadowCopy t true).heldTokens t true = c at shadow stay others kept ahd items length mem now ⊢
    have off (k : Fld) (ne : k.addr ≠ AHD_TBb_STAT b) : c.rd k = d.rd k := kept.rd (by simpa using ne)
    have front' : c.front t = f := (off _ (by grind)).trans front
    have commits : c.rd (AHD_LTt_CNT0_COMMIT t) = k := (off _ (by grind)).trans count
    have task : c.task t = d.task t := Dev.task_eq (by rw [ahd]) t
    obtain ⟨next, counted, lasts⟩ := c.rd_commitShown t f (cm - l) lt (commits ▸ below)
    have regs := kept.mono (m := [AHD_LTt_STAT t, AHD_LTt_STEP t, AHD_LTt_CNT0 t, AHD_LTt_LAT t, AHD_TBb_STAT b]) (by simp)
    have regs' := regs.trans ((c.commitShown_kept t f (cm - l)).mono (by simp))
    have frame := c.commitShown_frame t f (cm - l)
    rw [front', task]
    generalize c.commitShown t f (cm - l) = g at next counted lasts regs' frame ⊢
    generalize own : ({ d.task t with steps := (d.task t).steps.drop 1, lastC := c.now } : Task) = x
    have left : x.steps = rest := by rw [← own, steps]; rfl
    have shown (k : Fld) (ne : k.addr ≠ AHD_LTt_STAT t) : (g.setTask t x).rd k = g.rd k := g.rd_setTask x (.inl ne)
    have stepped : (g.setTask t x).front t = f + 1 := (shown _ (by simp)).trans next
    rw [Dev.passSkipped_of_latch (by rw [Dev.task_setTask_same, stepped, ← own]; exact latched),
      Dev.startReplay_of_none _ (by rw [Dev.task_setTask_same, left]; exact fresh)]
    have isles (m : Nat) : (g.setTask t x).isle m = c.isle m := by rw [frame]; rfl
    have heldNow : (g.setTask t x).ahd.held = c.ahd.held := by rw [frame]; rfl
    have queue : (g.setTask t x).schedIn = c.schedIn := by rw [frame]; rfl
    refine ⟨fun k lt set => ?_, fun k lt clear => ?_, fun m ne => (isles m).trans (others m ne), stepped, ?_, ?_, ?_, ?_, ?_, ?_, ?_, ?_, ?_⟩
    · rw [isles]; exact shadow k lt set
    · rw [isles]; exact stay k lt clear
    · rw [shown _ (by simp), counted, commits]
    · rw [Dev.task_setTask_same, left]
    · rw [Dev.task_setTask_same, ← own]; exact now
    · rw [heldNow, ahd]; exact tget_tset_same ([] : List HeldTok) d.ahd.held b []
    · rw [queue]; exact items
    · rw [queue]; exact length
    · exact (shown _ (by simp)).trans lasts
    · exact (regs'.setTask x (by simp)).1
    · exact (by rw [frame] : g.mem = c.mem).trans mem
  case skip =>
    intro t s rest b n cm f k d steps only isle at_ due alive running missed own front latched opened lt later count below
    refine .of_onDev (Dev.commitStep t) (fun _ => rfl) ?_
    rw [Dev.commitStep_of_missed steps at_ due alive running (by rw [only, List.length_singleton]; rcases missed with no | zero <;> simp [*])]
    generalize shown : d.skipFront t = e
    obtain ⟨shadow, others, next, skips, commits, task, held, mem⟩ :=
      Dev.skipFront_spec t.isLt only isle front lt latched opened (count ▸ below) shown
    have left : (e.task t).steps = rest := by
      rw [task]
      show List.filter _ (d.task t).steps = rest
      rw [steps, List.filter_cons_of_neg (by simp [own]), List.filter_eq_self]
      exact fun q mem => by simpa using (later q mem).2.ne'
    rw [Dev.startReplay_of_none _ (by rw [left]; exact fun q mem => (later q mem).1)]
    exact ⟨shadow, others, next, count ▸ skips, commits, left, held, mem⟩
  case carry =>
    intro t s rest h d steps apart whole front new hold due
    refine .of_onDev (Dev.carryLoad t) (fun _ => rfl) ?_
    rw [Dev.carryLoad_of_due steps front new hold due]
    obtain ⟨loaded, -⟩ := Dev.putCarry_all s.carried d apart whole
    have arch (m c : Nat) : (((forList s.carried Dev.putCarry d).isle m).cell c).arch = ((d.isle m).cell c).arch :=
      forList_keeps (fun e : Dev => ((e.isle m).cell c).arch) _ d fun q _ e => e.arch_putCarry q m c
    have beyond : (forList s.carried Dev.putCarry d).beyondIsles = d.beyondIsles := forList_keeps Dev.beyondIsles _ d fun _ _ _ => rfl
    generalize forList s.carried Dev.putCarry d = c at loaded arch beyond ⊢
    refine ⟨loaded, arch, congrArg Task.steps (Dev.task_setTask_same ..), ?_, (congrArg Dev.mem beyond :)⟩
    exact (RegsKept.setTask (RegsKept.of_regs (Dev.regs_of_beyondIsles beyond)) _ (by simp)).1

end Sys2Proof.Machine

/-! ## A squash takes effect (R148) -/
namespace Sys2Proof.Machine

/-! ### Bits of a field -/

/-- Clearing a bit leaves the other bits that are clear. -/
theorem bit_sub_ne {x i j : Nat} (set : x / 2 ^ i % 2 = 1) (ne : j ≠ i) : (x - 2 ^ i) / 2 ^ j % 2 = x / 2 ^ j % 2 := by
  have fits : 2 ^ i ≤ x := by
    rcases Nat.lt_or_ge x (2 ^ i) with lt | le
    · rw [Nat.div_eq_of_lt lt] at set; omega
    · exact le
  obtain ⟨y, rfl⟩ := Nat.exists_eq_add_of_le fits
  have clear := bit_sub_of_set set
  rw [Nat.add_sub_cancel_left] at clear ⊢
  rcases Nat.lt_or_gt_of_ne ne with lt | gt
  · have same := Nat.testBit_two_pow_add_gt lt y
    rw [Nat.testBit_eq_decide_div_mod_eq, Nat.testBit_eq_decide_div_mod_eq, decide_eq_decide] at same
    omega
  · have high : (2 ^ i + y) / 2 ^ (i + 1) = y / 2 ^ (i + 1) := by
      have carry : (2 ^ i + y) / 2 ^ i = y / 2 ^ i + 1 := by rw [Nat.add_comm, Nat.add_div_right _ (by positivity)]
      rw [pow_succ, ← Nat.div_div_eq_div_mul, ← Nat.div_div_eq_div_mul, carry]
      omega
    have pow : 2 ^ j = 2 ^ (i + 1) * 2 ^ (j - (i + 1)) := by rw [← pow_add]; congr 1; omega
    rw [pow, ← Nat.div_div_eq_div_mul, ← Nat.div_div_eq_div_mul, high]

/-- A clear bit stays clear as a bit is cleared. -/
theorem Dev.rdBit_wrBit_clear {d : Dev} {f : Fld} (i : Nat) {j : Nat} (h : f.lo ≤ f.hi) (h32 : f.hi < 32) (clear : d.rdBit f j = false) :
    (d.wrBit f i false).rdBit f j = false := by
  have lt := d.rd_lt f
  unfold Dev.wrBit
  rw [Dev.rdBit, Dev.rd_wr_same d f _ (by omega) h32]
  by_cases same : d.rdBit f i = false
  · rw [if_pos same, Nat.mod_eq_of_lt lt]; exact clear
  · have ne : j ≠ i := fun eq => same (eq ▸ clear)
    rw [if_neg same, if_neg (by simp), Nat.mod_eq_of_lt (lt_of_le_of_lt (Nat.sub_le _ _) lt), bit_sub_ne (by simpa [Dev.rdBit] using same) ne]
    exact clear

/-! ### What the end of an activation leaves -/

/-- The two copies of a cell. -/
def Cell.copies (x : Cell) : CRegs × CRegs := (x.arch, x.shad)

/-- What the end of an activation in isle `n` leaves: the block beyond the isles and the registers, the other isles, the copies of the isle's cells and
which of its groups are saved. -/
def Dev.aroundGroups (n : Nat) (d : Dev) : Dev × (Nat → Option Isle) × (Nat → CRegs × CRegs) × (Nat → Bool) :=
  (d.beyondIsleRegs, fun m => if m = n then none else some (d.isle m), fun c => ((d.isle n).cell c).copies, fun g => ((d.isle n).grp g).saved)

section
variable {n : Nat} {d e : Dev}

theorem Dev.isle_of_aroundGroups (h : e.aroundGroups n = d.aroundGroups n) {m : Nat} (ne : m ≠ n) : e.isle m = d.isle m := by
  have at_ := congrFun (congrArg (fun p => p.2.1) h) m
  simpa [Dev.aroundGroups, ne] using at_

theorem Dev.copies_of_aroundGroups (h : e.aroundGroups n = d.aroundGroups n) (c : Nat) : ((e.isle n).cell c).copies = ((d.isle n).cell c).copies :=
  congrFun (congrArg (fun p => p.2.2.1) h) c

theorem Dev.saved_of_aroundGroups (h : e.aroundGroups n = d.aroundGroups n) (g : Nat) : ((e.isle n).grp g).saved = ((d.isle n).grp g).saved :=
  congrFun (congrArg (fun p => p.2.2.2) h) g

theorem Dev.beyond_of_aroundGroups (h : e.aroundGroups n = d.aroundGroups n) : e.beyondIsleRegs = d.beyondIsleRegs := congrArg (fun p => p.1) h

theorem Dev.aroundGroups_setIsle (d : Dev) {i : Isle} (cells : ∀ c, (i.cell c).copies = ((d.isle n).cell c).copies)
    (groups : ∀ g, (i.grp g).saved = ((d.isle n).grp g).saved) : (d.setIsle n i).aroundGroups n = d.aroundGroups n := by
  have others : (fun m => if m = n then none else some ((d.setIsle n i).isle m)) = fun m => if m = n then none else some (d.isle m) := by
    funext m
    by_cases same : m = n
    · rw [if_pos same, if_pos same]
    · rw [if_neg same, if_neg same, Dev.isle_setIsle_ne _ _ same]
  unfold Dev.aroundGroups
  rw [Dev.beyondIsleRegs_setIsle, others, Dev.isle_setIsle_same, funext cells, funext groups]

theorem Dev.aroundGroups_modCell (c : Nat) {f : Cell → Cell} (keeps : ∀ x, (f x).copies = x.copies) (d : Dev) :
    (d.modCell n c f).aroundGroups n = d.aroundGroups n := by
  refine d.aroundGroups_setIsle (fun k => ?_) fun _ => rfl
  by_cases same : k = c
  · rw [same, Isle.cell_setCell_same, keeps]
  · rw [Isle.cell, Isle.setCell, tget_tset_ne _ _ _ _ same]; rfl

theorem Dev.aroundGroups_modGrp (g : Nat) {f : Group → Group} (keeps : ∀ x, (f x).saved = x.saved) (d : Dev) :
    (d.modGrp n g f).aroundGroups n = d.aroundGroups n := by
  refine d.aroundGroups_setIsle (fun _ => rfl) fun k => ?_
  by_cases same : k = g
  · rw [same, Isle.grp, tget_tset_same, keeps]
  · rw [Isle.grp, tget_tset_ne _ _ _ _ same]; rfl

theorem Dev.aroundGroups_withdrawPre (f : Preempt → Bool) (d : Dev) : (d.withdrawPre n f).aroundGroups n = d.aroundGroups n := by
  unfold Dev.withdrawPre
  dsimp only
  split
  · rfl
  · refine (forUpTo_keeps (Dev.aroundGroups n) 16 _ fun c _ e => ?_).trans (d.aroundGroups_setIsle (fun _ => rfl) fun _ => rfl)
    refine e.aroundGroups_modCell c fun x => ?_
    split
    · split <;> rfl
    · rfl

theorem Dev.regs_withdrawPre (f : Preempt → Bool) (d : Dev) : (d.withdrawPre n f).regs = d.regs := by
  unfold Dev.withdrawPre
  dsimp only
  split
  · rfl
  · exact forUpTo_keeps Dev.regs 16 _ fun _ _ _ => rfl

end

/-- The activations of a group that is not saved end: its bit of ACTIVE clears, no copy changes. -/
theorem Dev.endBySquash_spec {n g : Nat} {d e : Dev} (lt : g < 16) (here : ((d.isle n).grp g).saved = false) (h : d.endBySquash n g = e) :
    e.rdBit (IS_STAT_ACTIVE n) g = false ∧ (∀ j, d.rdBit (IS_STAT_ACTIVE n) j = false → e.rdBit (IS_STAT_ACTIVE n) j = false) ∧
    RegsKept [IS_STAT n] d e ∧ e.aroundGroups n = d.aroundGroups n := by
  have drawn := d.aroundGroups_withdrawPre (n := n) (fun p => p.group = g || p.victim = g)
  have regs := d.regs_withdrawPre (n := n) (fun p => p.group = g || p.victim = g)
  unfold Dev.endBySquash at h
  dsimp only at h
  generalize d.withdrawPre n (fun p => p.group = g || p.victim = g) = c at h drawn regs
  rw [Dev.saved_of_aroundGroups drawn, here, if_neg (by simp)] at h
  generalize forgotten : c.setIsle n _ = k at h
  have kept : k.aroundGroups n = c.aroundGroups n := forgotten ▸ c.aroundGroups_setIsle (fun _ => rfl) fun _ => rfl
  have same : k.regs = d.regs := by rw [← forgotten, ← regs]; rfl
  generalize ended : (k.wrBit (IS_STAT_ACTIVE n) g false).modGrp n g _ = l at h
  have kept' : l.aroundGroups n = k.aroundGroups n := by
    rw [← ended]
    exact Dev.aroundGroups_modGrp g (by exact fun _ => rfl) (k.wrBit (IS_STAT_ACTIVE n) g false)
  have regs' : l.regs = (k.wrBit (IS_STAT_ACTIVE n) g false).regs := by rw [← ended]; rfl
  have idle : e.aroundGroups n = l.aroundGroups n := h ▸ forList_keeps (Dev.aroundGroups n) _ l fun c _ e => e.aroundGroups_modCell c fun x => by
    split <;> rfl
  have regs'' : e.regs = (k.wrBit (IS_STAT_ACTIVE n) g false).regs := (h ▸ forList_keeps Dev.regs _ l fun _ _ _ => rfl : e.regs = l.regs).trans regs'
  have bit (j : Nat) : e.rdBit (IS_STAT_ACTIVE n) j = (k.wrBit (IS_STAT_ACTIVE n) g false).rdBit (IS_STAT_ACTIVE n) j := by
    rw [Dev.rdBit, Dev.rd_of_regs regs'', ← Dev.rdBit]
  refine ⟨?_, fun j clear => ?_, ?_, idle.trans (kept'.trans (kept.trans drawn))⟩
  · rw [bit]; exact Dev.rdBit_wrBit_same _ _ _ _ (by simp) (by simp) (by simpa using lt)
  · rw [bit]; exact Dev.rdBit_wrBit_clear g (by simp) (by simp) (by rw [Dev.rdBit, Dev.rd_of_regs same, ← Dev.rdBit, clear])
  · exact (RegsKept.wr (RegsKept.of_regs same) _ (by simp)).trans (RegsKept.of_regs regs'')

end Sys2Proof.Machine

/-! ## The isles' side of a squash (R148) -/
namespace Sys2Proof.Machine

/-! ### The task entries of one binding -/

/-- A matching-store entry that is at tag `cur` with nothing present. -/
def MEntry.resetTo (cur : BitVec 8) (m : MEntry) : MEntry := { m with cur := cur, pres := 0, nextp := 0 }

/-- Entries of isle `n` set to tag `cur`. -/
def Dev.entriesAt (n : Nat) (es : List Nat) (cur : BitVec 8) (d : Dev) : Dev :=
  forList es (fun e d => d.setMent n e (((d.isle n).ment e).resetTo cur)) d

theorem Dev.resetEntries_of_single {t b : Nat} {d : Dev} (cur : BitVec 8) (only : d.bindings t = [b]) :
    d.resetEntries t cur = d.entriesAt (d.rd (AHD_TBb_ID_ISLE b)) (d.taskEntries b) cur := by
  unfold Dev.resetEntries Dev.entriesAt MEntry.resetTo forList
  rw [only, List.foldl_cons, List.foldl_nil]

section
variable (n : Nat) (es : List Nat) (cur : BitVec 8) (d : Dev)

theorem Dev.beyondIsles_entriesAt : (d.entriesAt n es cur).beyondIsles = d.beyondIsles := forList_keeps Dev.beyondIsles es d fun _ _ _ => rfl

theorem Dev.beyondIsleRegs_entriesAt : (d.entriesAt n es cur).beyondIsleRegs = d.beyondIsleRegs :=
  forList_keeps Dev.beyondIsleRegs es d fun _ _ _ => rfl

theorem Dev.isle_entriesAt_ne {m : Nat} (h : m ≠ n) : (d.entriesAt n es cur).isle m = d.isle m :=
  forList_keeps (fun e => e.isle m) es d fun _ _ e => e.isle_setMent_ne _ _ _ h

theorem Dev.cells_entriesAt : ((d.entriesAt n es cur).isle n).cells = (d.isle n).cells :=
  forList_keeps (fun e => (e.isle n).cells) es d fun _ _ e => by rw [Dev.isle_setMent_same]

end

/-! ### The isles' side of a squash -/

/-- A task with one binding: its group's activations end, ... -/
def Dev.activationsEnded (n b : Nat) (d : Dev) : Dev := (d.endBySquash n (d.rd (AHD_TBb_GRP_HGRP b))).endBySquash n (d.rd (AHD_TBb_GRP_TGRP b))

theorem Dev.activationsEnded_spec {n b : Nat} {d e : Dev} (heads : ((d.isle n).grp (d.rd (AHD_TBb_GRP_HGRP b))).saved = false)
    (tails : ((d.isle n).grp (d.rd (AHD_TBb_GRP_TGRP b))).saved = false) (h : d.activationsEnded n b = e) :
    e.rdBit (IS_STAT_ACTIVE n) (d.rd (AHD_TBb_GRP_HGRP b)) = false ∧ e.rdBit (IS_STAT_ACTIVE n) (d.rd (AHD_TBb_GRP_TGRP b)) = false ∧
    RegsKept [IS_STAT n] d e ∧ e.aroundGroups n = d.aroundGroups n := by
  obtain ⟨ended, -, kept, around⟩ := Dev.endBySquash_spec (d.rd_lt (AHD_TBb_GRP_HGRP b)) heads rfl
  obtain ⟨ended', clear, kept', around'⟩ := Dev.endBySquash_spec (d.rd_lt (AHD_TBb_GRP_TGRP b)) ((Dev.saved_of_aroundGroups around _).trans tails) h
  exact ⟨clear _ ended, ended', kept.trans kept', around'.trans around⟩

/-- ... the shadow copies return and the held tokens go, ... -/
theorem Dev.squashIsles_of_single {t k b n : Nat} {d : Dev} (only : d.bindings t = [b]) (isle : d.rd (AHD_TBb_ID_ISLE b) = n) {c : Dev}
    (ended : ((d.activationsEnded n b).shadowCopy t false).heldTokens t false = c) :
    d.squashIsles t k = (let e := c.wr (AHD_LTt_STAT_EPOCH t) (1 - c.rd (AHD_LTt_STAT_EPOCH t))
      (e.resetEntries t (e.tagOf t k)).inc (AHD_LTt_CNT0_SQUASH t)) := by
  unfold Dev.squashIsles
  rw [only]
  subst isle ended
  rfl

/-- What that changes: cells of CELLS, the bits of ACTIVE, the held tokens. -/
theorem Dev.squashCleared_spec {t b n : Nat} {d e : Dev} (only : d.bindings t = [b]) (isle : d.rd (AHD_TBb_ID_ISLE b) = n)
    (heads : ((d.isle n).grp (d.rd (AHD_TBb_GRP_HGRP b))).saved = false) (tails : ((d.isle n).grp (d.rd (AHD_TBb_GRP_TGRP b))).saved = false)
    (h : ((d.activationsEnded n b).shadowCopy t false).heldTokens t false = e) :
    e.rdBit (IS_STAT_ACTIVE n) (d.rd (AHD_TBb_GRP_HGRP b)) = false ∧ e.rdBit (IS_STAT_ACTIVE n) (d.rd (AHD_TBb_GRP_TGRP b)) = false ∧
    (∀ c, c < 16 → wbit (BitVec.ofNat 16 (d.rd (AHD_TBb_GRP_CELLS b))) c = true → ((e.isle n).cell c).copies = (((d.isle n).cell c).copied false).copies) ∧
    (∀ m, m ≠ n → e.isle m = d.isle m) ∧ RegsKept [AHD_TBb_STAT b, IS_STAT n] d e ∧ e.ahd = { d.ahd with held := tset [] d.ahd.held b [] } ∧
    e.mem = d.mem := by
  have small : n < 128 := isle ▸ d.rd_lt (AHD_TBb_ID_ISLE b)
  obtain ⟨headEnd, tailEnd, kept, around⟩ := Dev.activationsEnded_spec heads tails rfl
  have beyond := Dev.eq_of_beyondIsleRegs (Dev.beyond_of_aroundGroups around)
  generalize d.activationsEnded n b = a at h headEnd tailEnd kept around beyond
  have cells : a.rd (AHD_TBb_GRP_CELLS b) = d.rd (AHD_TBb_GRP_CELLS b) := kept.rd (by grind)
  obtain ⟨shadow, -, others, frame⟩ :=
    Dev.shadowCopy_spec ((kept.bindings (by grind) t).trans only) ((kept.rd (by grind)).trans isle) (rfl : a.shadowCopy t false = _)
  generalize a.shadowCopy t false = s at h shadow others frame
  have regs : s.regs = a.regs := by rw [frame]
  have kept' : RegsKept [IS_STAT n] d s := kept.trans (RegsKept.of_regs regs)
  rw [Dev.heldTokens_of_single false ((kept'.bindings (by grind) t).trans only), if_neg (by simp)] at h
  subst h
  have active : (s.heldCleared b).rd (IS_STAT_ACTIVE n) = a.rd (IS_STAT_ACTIVE n) := ((s.heldCleared_kept b).rd (by grind)).trans (Dev.rd_of_regs regs _)
  refine ⟨?_, ?_, fun c lt set => ?_, fun m ne => (others m ne).trans (Dev.isle_of_aroundGroups around ne), ?_, ?_, ?_⟩
  · rw [Dev.rdBit, active]; exact headEnd
  · rw [Dev.rdBit, active]; exact tailEnd
  · have before := Dev.copies_of_aroundGroups around c
    refine (congrArg Cell.copies (shadow c lt (cells.symm ▸ set))).trans ?_
    simp only [Cell.copies, Cell.copied, Bool.false_eq_true, if_false, Prod.mk.injEq] at before ⊢
    exact ⟨before.1, before.1⟩
  · exact (kept'.mono (by simp)).trans ((s.heldCleared_kept b).mono (by simp))
  · rw [frame, beyond]; rfl
  · rw [frame, beyond]; rfl

/-- ... EPOCH toggles and the entries take the step's tag (R148). -/
theorem Dev.squashIsles_spec {t k b n : Nat} {d e : Dev} (low : t < 48) (only : d.bindings t = [b]) (isle : d.rd (AHD_TBb_ID_ISLE b) = n)
    (heads : ((d.isle n).grp (d.rd (AHD_TBb_GRP_HGRP b))).saved = false) (tails : ((d.isle n).grp (d.rd (AHD_TBb_GRP_TGRP b))).saved = false)
    (room : d.rd (AHD_LTt_CNT0_SQUASH t) < 65535) (h : d.squashIsles t k = e) :
    e.rd (AHD_LTt_STAT_EPOCH t) = 1 - d.rd (AHD_LTt_STAT_EPOCH t) ∧ e.rd (AHD_LTt_CNT0_SQUASH t) = d.rd (AHD_LTt_CNT0_SQUASH t) + 1 ∧
    e.rdBit (IS_STAT_ACTIVE n) (d.rd (AHD_TBb_GRP_HGRP b)) = false ∧ e.rdBit (IS_STAT_ACTIVE n) (d.rd (AHD_TBb_GRP_TGRP b)) = false ∧
    (∀ c, c < 16 → wbit (BitVec.ofNat 16 (d.rd (AHD_TBb_GRP_CELLS b))) c = true → ((e.isle n).cell c).copies = (((d.isle n).cell c).copied false).copies) ∧
    (∀ m, m ≠ n → e.isle m = d.isle m) ∧ RegsKept [AHD_LTt_STAT t, AHD_LTt_CNT0 t, AHD_TBb_STAT b, IS_STAT n] d e ∧
    e.ahd = { d.ahd with held := tset [] d.ahd.held b [] } ∧ e.mem = d.mem := by
  have small : n < 128 := isle ▸ d.rd_lt (AHD_TBb_ID_ISLE b)
  obtain ⟨headEnd, tailEnd, copies, others, kept, ahd, mem⟩ := Dev.squashCleared_spec only isle heads tails rfl
  have ended := Dev.squashIsles_of_single (k := k) only isle rfl
  rw [h] at ended
  generalize ((d.activationsEnded n b).shadowCopy t false).heldTokens t false = c at ended headEnd tailEnd copies others kept ahd mem
  have keptG : RegsKept [AHD_LTt_STAT t, AHD_LTt_CNT0 t, AHD_TBb_STAT b, IS_STAT n] d (c.wr (AHD_LTt_STAT_EPOCH t) (1 - c.rd (AHD_LTt_STAT_EPOCH t))) :=
    (kept.mono (by simp)).wr _ (by simp)
  have epoch := c.rd_wr_same (AHD_LTt_STAT_EPOCH t) (1 - c.rd (AHD_LTt_STAT_EPOCH t)) (by simp) (by simp)
  have off (f : Fld) (ne : f.addr ≠ AHD_LTt_STAT t) := Dev.rd_wr_ne c (AHD_LTt_STAT_EPOCH t) f (1 - c.rd (AHD_LTt_STAT_EPOCH t)) ne
  have rest : (c.wr (AHD_LTt_STAT_EPOCH t) (1 - c.rd (AHD_LTt_STAT_EPOCH t))).beyondIsleRegs = c.beyondIsleRegs ∧
      (c.wr (AHD_LTt_STAT_EPOCH t) (1 - c.rd (AHD_LTt_STAT_EPOCH t))).isles = c.isles := ⟨rfl, rfl⟩
  dsimp only at ended
  generalize c.wr (AHD_LTt_STAT_EPOCH t) (1 - c.rd (AHD_LTt_STAT_EPOCH t)) = g at ended keptG epoch off rest
  obtain ⟨beyondG, islesG⟩ := rest
  rw [Dev.resetEntries_of_single _ ((keptG.bindings (by grind) t).trans only), (keptG.rd (by grind) : g.rd (AHD_TBb_ID_ISLE b) = _), isle] at ended
  have cellsI := g.cells_entriesAt n (g.taskEntries b) (g.tagOf t k)
  have othersI (m : Nat) (ne : m ≠ n) := g.isle_entriesAt_ne n (g.taskEntries b) (g.tagOf t k) ne
  have regsI : _ = g.regs := Dev.regs_of_beyondIsles (g.beyondIsles_entriesAt n (g.taskEntries b) (g.tagOf t k))
  have beyondI := (g.beyondIsleRegs_entriesAt n (g.taskEntries b) (g.tagOf t k)).trans beyondG
  generalize g.entriesAt n (g.taskEntries b) (g.tagOf t k) = i at ended cellsI othersI regsI beyondI
  have isles (m : Nat) : e.isle m = i.isle m := by rw [ended, Dev.isle, Dev.isles_inc]; rfl
  have beyond : e.beyondIsleRegs = c.beyondIsleRegs := by rw [ended, Dev.beyondIsleRegs_inc, beyondI]
  have rd (f : Fld) (ne : f.addr ≠ AHD_LTt_CNT0 t) : e.rd f = g.rd f := by
    rw [ended, Dev.rd_inc_disjoint _ _ _ (by simp) (by simp) (.inl ne), Dev.rd_of_regs regsI]
  have active : e.rd (IS_STAT_ACTIVE n) = c.rd (IS_STAT_ACTIVE n) := (rd _ (by grind)).trans (off _ (by grind))
  refine ⟨?_, ?_, ?_, ?_, fun x lt set => ?_, fun m ne => ?_, ?_, (congrArg (fun x : Dev => x.ahd) beyond :).trans ahd,
    (Dev.mem_of_beyondIsleRegs beyond).trans mem⟩
  · have lt := d.rd_lt (AHD_LTt_STAT_EPOCH t)
    rw [rd _ (by simp), epoch, kept.rd (f := AHD_LTt_STAT_EPOCH t) (by grind)]
    exact Nat.mod_eq_of_lt (show _ < 2 by omega)
  · have start : i.rd (AHD_LTt_CNT0_SQUASH t) = d.rd (AHD_LTt_CNT0_SQUASH t) := by
      rw [Dev.rd_of_regs regsI, off _ (by simp), kept.rd (by grind)]
    rw [ended, Dev.rd_inc_same _ _ (by simp) (by simp) (by rw [start]; exact room), start]
  · rw [Dev.rdBit, active]; exact headEnd
  · rw [Dev.rdBit, active]; exact tailEnd
  · have same : (e.isle n).cell x = (c.isle n).cell x := by rw [isles, Isle.cell, cellsI, Dev.isle, islesG]; rfl
    exact (congrArg Cell.copies same).trans (copies x lt set)
  · rw [isles, othersI m ne, Dev.isle, islesG]; exact others m ne
  · rw [ended]
    exact (keptG.trans (RegsKept.of_regs regsI)).inc (by simp)

end Sys2Proof.Machine

/-! ## Squash, re-run and replay settled (R142, R147 to R150) -/
namespace Sys2Proof.Machine

/-! ### What a write of a frame leaves of the registers -/

theorem Dev.reg_withInteg (i : Integ) (x : Nat) (d : Dev) : ({ d with integ := i } : Dev).reg x = d.reg x := rfl

theorem Dev.reg_setErr (a : Nat) (m : BitVec 72) (x : Nat) (d : Dev) : (d.setErr a m).reg x = d.reg x := Dev.reg_withInteg ..

theorem Dev.reg_flipAt (k a r x : Nat) (d : Dev) : (d.flipAt k a r).reg x = d.reg x :=
  (Dev.reg_withInteg _ _ (d.setErr a (d.flipMask k))).trans (Dev.reg_setErr ..)

/-- New check bits may use up a flip mask; below the integrity unit no register changes. -/
theorem Dev.reg_codeWrite (a : Nat) {x : Nat} (off : x < 0x40080000) (d : Dev) : (d.codeWrite a).reg x = d.reg x := by
  unfold Dev.codeWrite
  split
  · rfl
  · dsimp only
    split
    · rw [Dev.reg_wr_ne _ _ _ (by grind), Dev.reg_flipAt, Dev.reg_setErr]
    · split
      · split
        · rw [Dev.reg_flipAt, Dev.reg_setErr, Dev.reg_setErr]
        · rw [Dev.reg_setErr]
      · rw [Dev.reg_setErr]

theorem Dev.reg_putWord (a : Nat) (w : BitVec 32) {x : Nat} (off : x < 0x40080000) (d : Dev) : (d.putWord a w).reg x = d.reg x := by
  have framed : ((d.store32 a w).frameWritten a).reg x = (d.store32 a w).reg x := by
    unfold Dev.frameWritten
    split <;> rfl
  have stored : (d.store32 a w).reg x = d.reg x := by rw [Dev.store32, Dev.store_only]; rfl
  rw [Dev.putWord, Dev.eccWrite, Dev.reg_codeWrite _ off, framed, stored]

theorem Dev.reg_putPred (n f : Nat) (v : BitVec 64) (vel : BitVec 48) {x : Nat} (off : x < 0x40080000) (d : Dev) :
    (d.putPred n f v vel).reg x = d.reg x := by
  unfold Dev.putPred
  rw [Dev.reg_putWord _ _ off, Dev.reg_putWord _ _ off, Dev.reg_putWord _ _ off, Dev.reg_putWord _ _ off]

/-! ### The squash -/

/-- A step at the squash `p`: older ones stay, the squashed one runs again, later ones wait as replays (R148, R150). -/
def LStep.squashed (p : PendSquash) (s : LStep) : LStep :=
  if s.k < p.k then s else if s.k = p.k ∧ p.rerun then s.again (some p.d) else s.again none

theorem Dev.squashStep_of_due {t : Nat} {p : PendSquash} {ps : List PendSquash} {d c : Dev} (pending : (d.task t).squash = p :: ps) (due : p.d + 2 ≤ d.now)
    (rerun : p.rerun = true) (first : p.again = false) (isles : d.squashIsles t p.k = c) :
    d.squashStep t = (c.setTask t { c.task t with squash := ps, steps := (c.task t).steps.map (LStep.squashed p) }).showQlen := by
  unfold Dev.squashStep
  rw [pending]
  dsimp only
  rw [if_neg (by omega), isles, if_neg (by simp [first]), if_neg (by simp [rerun])]
  rfl

/-! ### Re-run -/

theorem Dev.rerunStep_of_latched {t dd l n b : Nat} {s : LStep} {rest : List LStep} {d : Dev} (low : t < 48) (steps : (d.task t).steps = s :: rest)
    (only : d.bindings t = [b]) (isle : d.rd (AHD_TBb_ID_ISLE b) = n) (rerun : s.rerun = some dd) (new : s.rerunGo = false)
    (running : d.taskState t = 1) (latched : s.latch = some l) (front : s.k = d.front t) (due : dd + 4 ≤ d.now) :
    d.rerunStep t = (d.putPred n (d.frameAt b s.k) s.meas s.vel).setTask t { d.task t with steps :=
      { s with rerunGo := true, headAt := some (dd + 5), tailAt := some (dd + 5 + d.rd (AHD_LTt_TIM_HLEN t) + 1), checked := true,
               commitAt := some (dd + 5 + d.rd (AHD_LTt_TIM_HLEN t) + 1 + d.rd (AHD_LTt_TIM_CMT t)) } :: rest } := by
  have task : (d.putPred n (d.frameAt b s.k) s.meas s.vel).task t = d.task t := Dev.task_eq (by rw [(Dev.putPred_keeps ..).1]) t
  have timing : (d.putPred n (d.frameAt b s.k) s.meas s.vel).rd (AHD_LTt_TIM_CMT t) = d.rd (AHD_LTt_TIM_CMT t) :=
    Dev.rd_eq (Dev.reg_putPred _ _ _ _ (by grind) d)
  unfold Dev.rerunStep
  rw [steps, List.find?_cons_of_pos (by simp [rerun, new, front])]
  dsimp only
  rw [rerun]
  dsimp only
  rw [if_neg (by simp [running]), latched]
  dsimp only
  rw [if_neg (by omega), Dev.writePred_of_single _ _ _ only, isle, Dev.modStep_of_head _ (task ▸ steps), task, timing, rerun, latched]

theorem Dev.rerunStep_of_unlatched {t dd : Nat} {s : LStep} {rest : List LStep} {d : Dev} (steps : (d.task t).steps = s :: rest)
    (rerun : s.rerun = some dd) (new : s.rerunGo = false) (running : d.taskState t = 1) (open_ : s.latch = none) (due : dd + 3 ≤ d.now) :
    d.rerunStep t = (d.setTask t { d.task t with steps := { s with rerun := none, rerunGo := false, reqDue := some (dd + 3) } :: rest }).showQlen := by
  unfold Dev.rerunStep
  rw [steps, List.find?_cons_of_pos (by simp [rerun, new, open_])]
  dsimp only
  rw [rerun]
  dsimp only
  rw [if_neg (by simp [running]), open_]
  dsimp only
  rw [if_neg (by omega), Dev.modStep_of_head _ steps, open_]

/-! ### Replay -/

/-- The first replay asks. -/
theorem Dev.replayStep_of_first {t : Nat} {s : LStep} {rest : List LStep} {d : Dev} (steps : (d.task t).steps = s :: rest) (running : d.taskState t = 1)
    (replay : s.replay = true) (open_ : s.latch = none) (notDue : s.reqDue = none) (notAsked : s.reqAt = none) (opens : ∀ q ∈ rest, q.latch = none)
    (later : ∀ q ∈ rest, s.k < q.k) :
    d.replayStep t = (d.setTask t { d.task t with steps := { s with reqDue := some d.now } :: rest }).showQlen := by
  unfold Dev.replayStep
  dsimp only
  rw [if_neg (by simp [running]), List.find?_eq_none.mpr]
  · dsimp only
    rw [steps, List.filter_cons_of_pos replay, List.find?_cons_of_pos (by simp [notDue, notAsked])]
    dsimp only
    have none_ : (s :: rest.filter (fun s => s.replay)).filter (fun q => decide (q.k < s.k)) = [] := by
      refine List.filter_eq_nil_iff.mpr fun q mem => ?_
      rcases List.mem_cons.mp mem with rfl | mem
      · simp
      · simpa using (later q (List.mem_filter.mp mem).1).le
    rw [none_, List.getLast?_nil]
    dsimp only
    rw [if_pos (by simp), Dev.modStep_of_head _ steps]
  · intro q mem
    rw [steps] at mem
    rcases List.mem_cons.mp mem with rfl | mem
    · simp [open_]
    · simp [opens q mem]

/-- Behind the replays a queued FIRE opens its step. -/
theorem Dev.replayStep_of_fire {t : Nat} {d : Dev} (running : d.taskState t = 1) (none : ∀ q ∈ (d.task t).steps, q.replay = false)
    (queued : 0 < (d.task t).fires) : d.replayStep t = (d.setTask t { d.task t with fires := (d.task t).fires - 1 }).openStep t d.now d.now := by
  have free : d.replaying t = false := by
    refine List.any_eq_false.mpr fun q mem => ?_
    simp [none q mem]
  have empty : (d.task t).steps.filter (fun s => s.replay) = [] := List.filter_eq_nil_iff.mpr fun q mem => by simp [none q mem]
  unfold Dev.replayStep
  dsimp only
  rw [if_neg (by simp [running]), List.find?_eq_none.mpr fun q mem => by simp [none q mem], empty, List.find?_nil]
  dsimp only
  rw [if_pos ⟨queued, by simp [free]⟩]

/-! ### The causes of a squash -/

/-- A cause for the oldest open step of a task that is enabled, before its commit is set. -/
theorem Dev.squashCause_of_head {t k : Nat} {s : LStep} {rest : List LStep} {d : Dev} (steps : (d.task t).steps = s :: rest) (own : s.k = k)
    (running : d.taskState t = 1) (early : s.commitAt = none) (none : (d.task t).squash = []) : d.squashCause t k =
      d.setTask t { d.task t with squash := [{ d := d.now, k := k, rerun := true, replay := true, again := s.rerun.isSome }] } := by
  have found : d.step? t k = some s := own ▸ Dev.step?_of_head steps
  unfold Dev.squashCause
  rw [if_neg (by simp [running]), found]
  dsimp only
  rw [early]
  exact Dev.decideSquash_of_head steps own rfl none

/-- The block with `ks` as the run-ahead tokens on their way. -/
def Dev.toksLeft (ks : List RaTok) (d : Dev) : Dev := { d with ahd := { d.ahd with toks := ks } }

/-- A token of a task that is first on its way and due is taken. -/
theorem Dev.takeRaTok_of_head {t code : Nat} {k : RaTok} {ks : List RaTok} {d : Dev} (toks : d.ahd.toks = k :: ks) (task : k.task = t) (kind : k.code = code)
    (due : k.due ≤ d.now) : d.takeRaTok t code = some (k, d.toksLeft ks) := by
  unfold Dev.takeRaTok
  rw [toks, takeFirst, if_pos (by simp [task, kind, due])]
  rfl

/-! ### Settled -/

/-- Settles O25: one equation per command and case, and what each part of a squash changes. -/
theorem squashRerunReplay : Obligations.SquashRerunReplay := by
  unfold Obligations.SquashRerunReplay
  refine ⟨?squash, ?latched, ?unlatched, ?first, ?fire, ?token, ?control⟩
  case squash =>
    intro t s rest b n p ps k d steps only isle pending due rerun first own later count heads tails below
    refine .of_onDev (Dev.squashStep t) (fun _ => rfl) ?_
    have small : n < 128 := isle ▸ d.rd_lt (AHD_TBb_ID_ISLE b)
    obtain ⟨epoch, squashes, headEnd, tailEnd, copies, others, kept, ahd, mem⟩ := Dev.squashIsles_spec t.isLt only isle heads tails (count ▸ below) rfl
    rw [Dev.squashStep_of_due pending due rerun first rfl]
    generalize d.squashIsles t p.k = c at epoch squashes headEnd tailEnd copies others kept ahd mem ⊢
    rw [(Dev.task_eq (by rw [ahd]) t : c.task t = d.task t)]
    have again : (d.task t).steps.map (LStep.squashed p) = s.again (some p.d) :: rest.map (fun q => q.again none) := by
      rw [steps, List.map_cons, LStep.squashed, if_neg (by omega), if_pos ⟨own, rerun⟩]
      refine congrArg _ (List.map_congr_left fun q mem => ?_)
      have := later q mem
      rw [LStep.squashed, if_neg (by omega), if_neg (by omega)]
    have shown (x : Task) (f : Fld) (off : f.addr ≠ AHD_LTt_STAT t ∨ 5 < f.lo ∨ f.hi < 3) (ne : f.addr ≠ AHD_QLEN) :
        ((c.setTask t x).showQlen).rd f = c.rd f := (Dev.rd_wr_ne _ _ _ _ ne).trans (c.rd_setTask x off)
    rw [again]
    refine ⟨by rw [Dev.task_showQlen, Dev.task_setTask_same], by rw [Dev.task_showQlen, Dev.task_setTask_same], ?_, ?_, ?_, ?_, fun x lt set => ?_, ?_,
      others, ?_, mem⟩
    · rw [shown _ _ (.inr (.inl (by simp))) (by grind), epoch]
    · rw [shown _ _ (.inl (by simp)) (by grind), squashes, count]
    · rw [Dev.rdBit, shown _ _ (.inl (by grind)) (by grind)]; exact headEnd
    · rw [Dev.rdBit, shown _ _ (.inl (by grind)) (by grind)]; exact tailEnd
    · have both := copies x lt set
      simp only [Cell.copies, Cell.copied, Bool.false_eq_true, if_false, Prod.mk.injEq] at both
      exact ⟨both.2, both.1⟩
    · exact (congrArg (fun a : Ahd => tget [] a.held b) ahd : tget [] c.ahd.held b = _).trans (tget_tset_same ([] : List HeldTok) d.ahd.held b [])
    · exact (((kept.mono (by simp)).setTask _ (by simp)).showQlen (by simp)).1
  case latched =>
    intro t s rest b n dd l d steps only isle rerun new running latch front due
    refine .of_onDev (Dev.rerunStep t) (fun _ => rfl) ?_
    rw [Dev.rerunStep_of_latched t.isLt steps only isle rerun new running latch front due]
    obtain ⟨w0, w1, -, -⟩ := Dev.load32_putPred n (d.frameAt b s.k) s.meas s.vel d
    obtain ⟨-, isles⟩ := Dev.putPred_keeps n (d.frameAt b s.k) s.meas s.vel d
    generalize d.putPred n (d.frameAt b s.k) s.meas s.vel = c at w0 w1 isles ⊢
    exact ⟨congrArg Task.steps (Dev.task_setTask_same ..), (Dev.load32_eq fun _ _ _ => rfl).trans w0, (Dev.load32_eq fun _ _ _ => rfl).trans w1, isles⟩
  case unlatched =>
    intro t s rest dd d steps rerun new running open_ due
    refine .of_onDev (Dev.rerunStep t) (fun _ => rfl) ?_
    rw [Dev.rerunStep_of_unlatched steps rerun new running open_ due]
    refine ⟨by rw [Dev.task_showQlen, Dev.task_setTask_same], ?_, rfl⟩
    exact (((RegsKept.refl _ d).setTask _ (by simp)).showQlen (by simp)).1
  case first =>
    intro t s rest d steps running replay open_ notDue notAsked opens later
    refine .of_onDev (Dev.replayStep t) (fun _ => rfl) ?_
    rw [Dev.replayStep_of_first steps running replay open_ notDue notAsked opens later]
    refine ⟨by rw [Dev.task_showQlen, Dev.task_setTask_same], ?_, rfl⟩
    exact (((RegsKept.refl _ d).setTask _ (by simp)).showQlen (by simp)).1
  case fire =>
    intro t d running none queued near asks
    refine .of_onDev (Dev.replayStep t) (fun _ => rfl) ?_
    rw [Dev.replayStep_of_fire running none queued]
    have task := Dev.task_setTask_same t { d.task t with fires := (d.task t).fires - 1 } d
    have depth := d.rd_setTask { d.task t with fires := (d.task t).fires - 1 } (f := AHD_LTt_CFG_DEPTH t) (t := t) (.inl (by simp))
    have front : (d.setTask t { d.task t with fires := (d.task t).fires - 1 }).front t = d.front t := d.rd_setTask _ (.inl (by simp))
    have opened : (d.setTask t { d.task t with fires := (d.task t).fires - 1 }).openedStep t d.now d.now =
        { LStep.fresh (d.task t).openK (d.task t).openS with reqDue := some d.now } := by
      rw [Dev.openedStep_of_near (by rw [task, depth, front]; exact near) (by rw [task]; exact asks), task]
    generalize shown : (d.setTask t { d.task t with fires := (d.task t).fires - 1 }).openStep t d.now d.now = e
    obtain ⟨own, -, -, beyond⟩ := Dev.openStep_spec shown
    rw [opened, Dev.taskOpened, task] at own
    exact ⟨congrArg Task.fires own, congrArg Task.steps own, congrArg Task.openK own, (congrArg Dev.isles beyond :), (congrArg Dev.mem beyond :)⟩
  case token =>
    intro t s rest k ks f d steps toks task kind due step own running early none
    refine .of_onDev (Dev.sqreq t) (fun _ => rfl) ?_
    have taken : d.sqreq t = (d.toksLeft ks).squashCause t f := by
      unfold Dev.sqreq
      rw [Dev.takeRaTok_of_head toks task kind due]
      dsimp only
      rw [step]
    rw [taken, Dev.squashCause_of_head (d := d.toksLeft ks) steps own running early none]
    refine ⟨by rw [Dev.task_setTask_same]; rfl, by rw [Dev.task_setTask_same]; rfl, rfl, ?_, rfl⟩
    exact (RegsKept.setTask (RegsKept.of_regs rfl) _ (by simp)).1
  case control =>
    intro t s rest f d steps front own running early none
    refine .of_onDev (fun d => d.squashCause t (d.front t)) (fun _ => rfl) ?_
    rw [front, Dev.squashCause_of_head steps own running early none]
    refine ⟨by rw [Dev.task_setTask_same], by rw [Dev.task_setTask_same], ?_, rfl⟩
    exact (RegsKept.setTask (RegsKept.refl _ d) _ (by simp)).1

end Sys2Proof.Machine

/-! ## A disabled task's prediction requests leave the queue (R154, R159) -/
namespace Sys2Proof.Machine

/-- A task 0 that runs (AHD_LTt_STAT: RUNNING, one step open) and whose step 0 has its prediction request queued: AHD_QLEN counts it. -/
def oneRequestQueued : Dev :=
  { ((Dev.reset.setReg AHD_QLEN 1).setReg (AHD_LTt_CFG 0) 1).setReg (AHD_LTt_STAT 0) 9 with
    now := 100, ahd := { Ahd.reset with tasks := [(0, { Task.reset with openK := 1, steps := [{ LStep.fresh 0 0 with reqDue := some 104 }] })] } }

/-- With its steps the task's request goes, and AHD_QLEN falls to 0. -/
theorem qlen_disableTask : (oneRequestQueued.disableTask 0).reg AHD_QLEN = 0 ∧ oneRequestQueued.reg AHD_QLEN = 1 := by decide

/-- Refutes O26: the clause of a disabled task lets AHD_LTt_CFG and AHD_LTt_STAT alone change, but the prediction requests of the steps that are dropped
leave the queue, and AHD_QLEN with them (R154, R159). -/
theorem not_tasksStartAndStop : ¬ Obligations.TasksStartAndStop := by
  unfold Obligations.TasksStartAndStop
  rintro ⟨-, -, disable, -⟩
  obtain ⟨after, before⟩ := qlen_disableTask
  have claimed := On.elim_onDev (Dev.disableTask 0) (fun _ => rfl) (disable 0 oneRequestQueued (by decide))
  obtain ⟨-, -, -, -, -, -, regs, -⟩ := claimed
  have same := regs AHD_QLEN (by decide)
  rw [before] at same
  exact absurd (after.symm.trans same) (by decide)

end Sys2Proof.Machine

/-! ## A record whose first code word cannot be read (R157, R307, R309, R316) -/
namespace Sys2Proof.Machine

/-! ### What a write to the Sound leaves of memory -/

theorem Dev.mem_netWrite (w : Nat) (d : Dev) : (d.netWrite w).mem = d.mem := by
  unfold Dev.netWrite
  split <;> rfl

theorem Dev.steady_setMerged (b : Nat) (l : List MergeEnt) (d : Dev) : (d.setMerged b l).steady = d.steady := d.steady_withInteg _

theorem Dev.steady_flushEntry (b w : Nat) (d : Dev) : (d.flushEntry b w).steady = d.steady := by
  unfold Dev.flushEntry
  split
  · rw [Dev.steady_eccWrite, Dev.steady_setMerged]
  · rfl

/-- A new merge entry begins with a read of its word. -/
theorem Dev.steady_mergeNew (b w mask : Nat) (d : Dev) :
    (if (d.eccRead w 2).1 then (false, (d.eccRead w 2).2) else
      (true, (d.eccRead w 2).2.setMerged b ((d.eccRead w 2).2.merged b ++ [{ addr := w, written := mask, at_ := (d.eccRead w 2).2.now }]))).2.steady =
      d.steady := by
  have read := d.steady_eccRead w 2
  split
  · exact read
  · exact (Dev.steady_setMerged _ _ _).trans read

theorem Dev.steady_mergeWrite (b w mask full : Nat) (d : Dev) : (d.mergeWrite b w mask full).2.steady = d.steady := by
  unfold Dev.mergeWrite
  split
  · dsimp only
    split
    · rw [Dev.steady_flushEntry, Dev.steady_setMerged]
    · rw [Dev.steady_setMerged]
  · refine (Dev.steady_mergeNew b w mask _).trans ?_
    split
    · split
      · exact d.steady_flushEntry _ _
      · rfl
    · rfl

/-- A write within a code word leaves the bytes before it. -/
theorem Dev.byte_writeWord_below {w a x : Nat} (bs : List (BitVec 8)) (below : x < a) (d : Dev) : (d.writeWord w a bs).2.byte x = d.byte x := by
  have byte {e c : Dev} (h : e.mem = c.mem) : e.byte x = c.byte x := by rw [Dev.byte, h, ← Dev.byte]
  have stored (e : Dev) : (e.storeBytes a bs).byte x = e.byte x := e.byte_storeBytes_out bs a x (.inl below)
  have whole (e : Dev) : ((e.storeBytes a bs).eccWrite w).byte x = e.byte x := (byte (Dev.mem_of_steady (Dev.steady_eccWrite _ _))).trans (stored e)
  refine Eq.trans ?_ (byte (d.mem_netWrite w))
  unfold Dev.writeWord
  dsimp only
  generalize d.netWrite w = e
  generalize (if areaOf w = 1 then 4 else 8) = size
  split
  · next b _ =>
    have merged := byte (Dev.mem_of_steady (e.steady_mergeWrite b w ((2 ^ bs.length - 1) * 2 ^ (a - w)) (2 ^ size - 1)))
    split
    · exact whole e
    · split
      · exact (stored _).trans merged
      · exact merged
  · have read := byte (Dev.mem_of_steady (e.steady_eccRead w 0))
    split
    · exact whole e
    · split
      · exact read
      · exact (whole _).trans read

theorem Dev.byte_writeWords_below {a x : Nat} (bs : List (BitVec 8)) (ws : List Nat) (below : ∀ w ∈ ws, x < w) (d : Dev) :
    (d.writeWords a bs ws).2.byte x = d.byte x := by
  induction ws generalizing d with
  | nil => rfl
  | cons w ws ih =>
    refine (ih (fun v mem => below v (List.mem_cons_of_mem _ mem)) _).trans (Dev.byte_writeWord_below _ ?_ d)
    exact lt_of_lt_of_le (below w (by simp)) (le_max_right _ _)

/-- Bytes that one packet holds, in the Sound, go word by word. -/
theorem Dev.memWriteAll_of_sound {a : Nat} {bs : List (BitVec 8)} (one : packetLens a bs.length = [bs.length]) (sound : a < 0x800000) (d : Dev) :
    (d.memWriteAll a bs).2 = (d.writeWords a bs (codeWords a bs.length)).2 := by
  have area : areaOf a = 0 := if_pos sound
  unfold Dev.memWriteAll Dev.writeBy
  rw [one]
  simp [Dev.dramTurn, Dev.memWrite, Dev.serveAhead, Dev.memWriteNow, Dev.memStatus, memDomain, area]

/-! ### A new merge entry over a word that a flip mask has spoilt -/

theorem Dev.ecc_flipAt (k a r : Nat) (d : Dev) : tget 0#72 (d.flipAt k a r).integ.ecc (codeWord a) = d.flipMask k :=
  tget_tset_same 0#72 d.integ.ecc (codeWord a) (d.flipMask k)

/-- An armed flip mask acts on the first write of a word of the Sound (R316). -/
theorem Dev.ecc_codeWrite_of_armed {a r : Nat} {d : Dev} (region : regionOf a = some r) (sound : r < 16) (armed : d.on (MI_FLIPk_CTL_ARM 0) = true) :
    tget 0#72 (d.codeWrite a).integ.ecc (codeWord a) = d.flipMask 0 := by
  have class_ : regionClass r = 0 := if_pos sound
  have ready : (d.setErr a 0).on (MI_FLIPk_CTL_ARM 0) = true := by rw [Dev.on, Dev.rd_eq (Dev.reg_setErr ..), ← Dev.on, armed]
  have mask : (d.setErr a 0).flipMask 0 = d.flipMask 0 := by
    unfold Dev.flipMask
    rw [Dev.reg_setErr, Dev.reg_setErr, Dev.rd_eq (Dev.reg_setErr ..)]
  unfold Dev.codeWrite
  rw [region]
  dsimp only
  rw [class_, if_pos ⟨ready, .inl rfl⟩]
  exact ((d.setErr a 0).ecc_flipAt 0 a r).trans mask

/-- A word with two bits wrong cannot be read (R303). -/
theorem Dev.eccRead_of_spoilt {w src : Nat} {d : Dev} (two : d.wordErr w = 2) : (d.eccRead w src).1 = true := by
  unfold Dev.eccRead Dev.eccReadAs
  rw [two]
  rfl

/-- A full merge buffer makes room before the word is read (R307): where its oldest entry's word is the same and is written with two bits flipped,
the new entry is refused. -/
theorem Dev.mergeWrite_of_spoilt {b w mask full : Nat} {x : MergeEnt} {l : List MergeEnt} {d : Dev} (entries : d.merged b = x :: l)
    (room : 8 ≤ (d.merged b).length) (new : ∀ e ∈ d.merged b, e.addr ≠ w) (spoilt : (d.flushEntry b x.addr).wordErr w = 2) :
    (d.mergeWrite b w mask full).1 = false := by
  unfold Dev.mergeWrite
  rw [List.find?_eq_none.mpr fun e mem => by simpa using new e mem]
  dsimp only
  rw [entries] at room ⊢
  dsimp only
  simp only [if_pos room]
  rw [if_pos (Dev.eccRead_of_spoilt spoilt)]

/-! ### The state -/

/-- The empty record of sequence number 0. -/
def emptyRecord : SnapRec := { stamp := 0, status := 0, payload := [], isles := [], start := 0, seq := 0, ranges := [], overrun := false }

/-- Slot 0 drains the empty record of sequence number 0 to DST = 4; the merge buffer of the bank of that word is full of entries for the address 1, and a
flip mask of two bits is armed. No write of a program gives DST an address that is no multiple of 32, nor a merge buffer an address within a code word. -/
def spoiltRecord : Dev :=
  { (((Dev.reset.setReg (AHD_SNs_DST 0) 4).setReg (AHD_SNs_SIZE 0) 32).setReg (MI_FLIPk_CTL 0) 0x80000000).setReg (MI_FLIPk_LO 0) 3 with
    ahd := { Ahd.reset with snaps := [(0, { Snap.reset with record := some emptyRecord })] },
    integ := { Integ.reset with merge := tput [] (Config.soundBank 0 % 16) (List.replicate 8 { addr := 1, written := 1, at_ := 0 }) } }

theorem merged_spoiltRecord : spoiltRecord.merged (Config.soundBank 0 % 16) = List.replicate 8 { addr := 1, written := 1, at_ := 0 } := tget_tput_same ..

/-- The write of the oldest entry spoils the code word at 0. -/
theorem wordErr_spoiltRecord : (spoiltRecord.flushEntry (Config.soundBank 0 % 16) 1).wordErr 0 = 2 := by
  have flushed : spoiltRecord.flushEntry (Config.soundBank 0 % 16) 1 = (spoiltRecord.setMerged (Config.soundBank 0 % 16) []).codeWrite 1 := by
    unfold Dev.flushEntry
    rw [merged_spoiltRecord]
    rfl
  have mask : (spoiltRecord.setMerged (Config.soundBank 0 % 16) []).flipMask 0 = 3 := by decide
  rw [flushed, Dev.wordErr]
  have ecc := Dev.ecc_codeWrite_of_armed (a := 1) (r := Config.soundBank 0 % 16) (d := spoiltRecord.setMerged (Config.soundBank 0 % 16) []) rfl
    (Nat.mod_lt _ (by decide)) (by decide)
  rw [(by decide : codeWord 1 = codeWord 0)] at ecc
  rw [ecc, mask]
  decide

/-- So the first word of the record is not written. -/
theorem mem_writeWord_spoiltRecord (bs : List (BitVec 8)) (part : bs.length = 4) : (spoiltRecord.writeWord 0 4 bs).2.mem = spoiltRecord.mem := by
  have buffer : mergeBuf 0 = some (Config.soundBank 0 % 16) := by
    have low : Config.soundBank 0 % 16 < 112 := lt_trans (Nat.mod_lt _ (by decide)) (by decide)
    exact if_pos low
  have refused := Dev.mergeWrite_of_spoilt (d := spoiltRecord) (b := Config.soundBank 0 % 16) (w := 0) (mask := (2 ^ bs.length - 1) * 2 ^ (4 - 0))
    (full := 2 ^ 8 - 1) merged_spoiltRecord (by rw [merged_spoiltRecord]; decide) (by rw [merged_spoiltRecord]; decide) wordErr_spoiltRecord
  have merged := Dev.mem_of_steady (spoiltRecord.steady_mergeWrite (Config.soundBank 0 % 16) 0 ((2 ^ bs.length - 1) * 2 ^ (4 - 0)) (2 ^ 8 - 1))
  have still : spoiltRecord.netWrite 0 = spoiltRecord := if_neg (by decide)
  unfold Dev.writeWord
  dsimp only
  rw [still, buffer, if_neg (by decide : ¬ areaOf 0 = 1)]
  dsimp only
  rw [if_neg (by simp [part]), refused, if_neg (by simp)]
  exact merged

/-! ### Refuted -/

theorem Dev.mem_snapDone (s n status : Nat) (stamp : BitVec 64) (d : Dev) : (d.snapDone s n status stamp).mem = d.mem := by
  unfold Dev.snapDone
  split
  · exact Dev.mem_of_steady (d.steady_post _ _)
  · rfl

/-- The drain of a record without lagoon ranges writes it and nothing else of memory. -/
theorem Dev.mem_snapDrained {s : Nat} {q : SnapRec} {d : Dev} (record : (d.snap s).record = some q) (plain : q.ranges = []) (whole : q.overrun = false)
    (ok : q.status = 0) (fits : 32 + 4 * q.payload.length ≤ (d.reg (AHD_SNs_SIZE s)).toNat) :
    (d.snapDrained s).mem = (d.writeRecord (d.snapBuf s q.seq) (d.reg (AHD_SNs_SIZE s)).toNat (q.seq + 1) 0 q.stamp (d.rd (AHD_SNs_CTL_DOM s) + s * 16)
      q.payload).mem := by
  unfold Dev.snapDrained
  dsimp only
  rw [record]
  dsimp only
  rw [plain, whole, ok]
  simp only [Dev.fillRanges, List.foldl_nil, List.any_nil, ne_eq, not_true_eq_false, if_false, Bool.false_eq_true, if_neg (Nat.not_lt.mpr fits)]
  rw [Dev.mem_snapDone]
  generalize d.writeRecord _ _ _ _ _ _ _ = r
  have dropped : ((r.setSnap s { d.snap s with record := none, stop := false }).dropUndo s q.isles).mem = r.mem := forList_keeps Dev.mem _ _ fun _ _ _ => rfl
  generalize (r.setSnap s { d.snap s with record := none, stop := false }).dropUndo s q.isles = u at dropped ⊢
  rw [← dropped]
  split
  · rw [Dev.mem_wr, Dev.mem_wr]
  · rw [Dev.snapIdle, Dev.mem_wr, Dev.mem_wr, Dev.mem_wr]

/-- The words from the second one on lie beyond the bytes of SEQ, and the first one is not written. -/
theorem byte_writeRecord_spoiltRecord (stamp : BitVec 64) (tag : Nat) {x : Nat} (below : x < 8) :
    (spoiltRecord.writeRecord 4 32 1 0 stamp tag []).byte x = spoiltRecord.byte x := by
  unfold Dev.writeRecord
  dsimp only
  generalize bytes : (wordsBytes _).take 32 = bs
  have length : bs.length = 32 := by rw [← bytes]; rfl
  have words : codeWords 4 32 = [0, 8, 16, 24, 32] := by decide
  rw [Dev.memWriteAll_of_sound (by rw [length]; decide) (by decide), length, words, Dev.writeWords]
  dsimp only
  rw [Dev.byte_writeWords_below _ _ (by simp; omega)]
  have first : (spoiltRecord.writeWord 0 (max 4 0) ((bs.drop (max 4 0 - 4)).take (min (4 + bs.length) (0 + if areaOf 0 = 1 then 4 else 8) - max 4 0))).2.mem =
      spoiltRecord.mem := mem_writeWord_spoiltRecord _ (by rw [length, if_neg (by decide)]; simp [length])
  rw [Dev.byte, first, ← Dev.byte]

/-- Refutes O27: the clause of a drain that ends. Its record's first code word takes four bytes, so a merge entry is needed for it; the merge buffer is full,
and the entry that makes room is written with the flip mask to that very code word, which cannot be read then: the write is refused and SEQ stays 0. The
clause asks for no DST that is a multiple of 32 and for no merge entries at code words, as the device keeps them (R157, R307). -/
theorem not_snapshotSlots : ¬ Obligations.SnapshotSlots := by
  unfold Obligations.SnapshotSlots
  rintro ⟨-, -, -, -, -, -, drained, -⟩
  obtain ⟨seq, -⟩ := On.elim_onDev (Dev.snapDrained 0) (fun _ => rfl) (drained 0 emptyRecord 32 4 spoiltRecord rfl rfl rfl rfl (by decide) (by decide)
    (by decide) (by decide) (by decide) rfl)
  have mem := Dev.mem_snapDrained (s := 0) (q := emptyRecord) (d := spoiltRecord) rfl rfl rfl rfl (by decide)
  have size : (spoiltRecord.reg (AHD_SNs_SIZE 0)).toNat = 32 := by decide
  have buffer : spoiltRecord.snapBuf 0 emptyRecord.seq = 4 := by decide
  rw [size, buffer] at mem
  have same : (spoiltRecord.snapDrained 0).load32 4 = spoiltRecord.load32 4 := Dev.load32_eq fun x _ below => by
    rw [Dev.byte, mem, ← Dev.byte]
    exact byte_writeRecord_spoiltRecord _ _ below
  exact absurd (seq.symm.trans same) (by decide)

end Sys2Proof.Machine

/-! ## A parity error clears the predictors of its unit (R180, R435) -/
namespace Sys2Proof.Machine

/-- Predictor 0 is enabled for sigma-delta input 0 and holds a measurement. -/
def predictorMeasured : Dev := { Dev.reset.setReg (HP_PRDp_CFG 0) 1 with preds := [(0, { Pred.reset with got := true })] }

theorem preds_parityError : (predictorMeasured.parityError 0 0).preds = [] ∧ predictorMeasured.preds ≠ [] := by decide

/-- Refutes O30: the clause of a parity error says that the predictors stay as they are, but an input in repair is an invalid source, so its predictors clear
their state (R180, R435). -/
theorem not_positionAndSampleInputs : ¬ Obligations.PositionAndSampleInputs := by
  unfold Obligations.PositionAndSampleInputs
  rintro ⟨-, -, -, -, -, -, -, -, -, -, -, -, -, -, -, parity, -⟩
  obtain ⟨after, before⟩ := preds_parityError
  have claimed := On.elim_onDev (Dev.parityError 0 0) (fun _ => rfl) (parity 0 0 predictorMeasured (by decide) rfl)
  obtain ⟨-, -, -, -, -, preds⟩ := claimed
  exact before (preds.symm.trans after)

end Sys2Proof.Machine

/-! ## Reasoning rules of the harbour

What single bits read after they are written, which registers a chain of writes leaves, what the links carry once a port word is ready (R163, R164), and what
the harbour's tables read after a write. -/
namespace Sys2Proof.Machine

/-! ### Single bits -/

theorem Dev.on_eq {d e : Dev} {f : Fld} (h : e.rd f = d.rd f) : e.on f = d.on f := by rw [Dev.on, h, ← Dev.on]

theorem Dev.on_of_regs {d e : Dev} (h : e.regs = d.regs) (f : Fld) : e.on f = d.on f := Dev.on_eq (Dev.rd_of_regs h f)

theorem Dev.on_setFlag_same (d : Dev) (f : Fld) (h : f.lo = f.hi) (h32 : f.hi < 32) : (d.setFlag f).on f = true := by
  rw [Dev.on, d.rd_setFlag_same f h h32]; rfl

theorem Dev.on_wrb_same (d : Dev) (f : Fld) (b : Bool) (h : f.lo = f.hi) (h32 : f.hi < 32) : (d.wrb f b).on f = b := by
  have width : f.hi + 1 - f.lo = 1 := by omega
  rw [Dev.on, Dev.wrb, d.rd_wr_same f _ (by omega) h32, width]
  cases b <;> rfl

theorem Dev.rd_wrb_disjoint (d : Dev) (f g : Fld) (b : Bool) (h : f.lo ≤ f.hi + 1) (h32 : f.hi < 32)
    (hd : g.addr ≠ f.addr ∨ f.hi < g.lo ∨ g.hi < f.lo) : (d.wrb f b).rd g = d.rd g := d.rd_wr_disjoint f g _ h h32 hd

/-- A counter with room counts by one. -/
theorem Dev.rd_incBy_same (d : Dev) (f : Fld) (h : f.lo ≤ f.hi + 1) (h32 : f.hi < 32) (room : d.rd f < f.top) : (d.incBy f 1).rd f = d.rd f + 1 := by
  have top : f.top < 2 ^ (f.hi + 1 - f.lo) := Nat.sub_lt (by positivity) (by decide)
  rw [Dev.incBy, d.rd_wr_same f _ h h32, Nat.mod_eq_of_lt] <;> omega

/-! ### Chains of register writes -/

section
variable {l : List Nat} {d e : Dev}

theorem RegsKept.wrb (h : RegsKept l d e) {f : Fld} (b : Bool) (listed : f.addr ∈ l) : RegsKept l d (e.wrb f b) := h.wr _ listed

theorem RegsKept.setFlag (h : RegsKept l d e) {f : Fld} (listed : f.addr ∈ l) : RegsKept l d (e.setFlag f) :=
  (h.wr 1 listed).trans (RegsKept.of_regs rfl)

theorem RegsKept.setFlagBit (h : RegsKept l d e) {f : Fld} (i : Nat) (listed : f.addr ∈ l) : RegsKept l d (e.setFlagBit f i) :=
  (h.wr _ listed).trans (RegsKept.of_regs rfl)

theorem RegsKept.incBy (h : RegsKept l d e) {f : Fld} (n : Nat) (listed : f.addr ∈ l) : RegsKept l d (e.incBy f n) := h.wr _ listed

theorem RegsKept.regs_eq {c : Dev} (h : RegsKept l d e) (same : c.regs = e.regs) : RegsKept l d c := h.trans (RegsKept.of_regs same)

theorem RegsKept.on (h : RegsKept l d e) {f : Fld} (out : f.addr ∉ l) : e.on f = d.on f := Dev.on_eq (h.rd out)

end

/-! ### The links (R163, R164) -/

/-- Channel `c`'s turn when the port word (`src`, `i`, `sel`) is ready with value `v`. -/
def Dev.linkTurn (src i : Nat) (sel : Bool) (v : BitVec 32) (c : Nat) (d : Dev) : Dev := if d.carries src i sel c then d.putLink c v else d

theorem Dev.portReady_eq (src i : Nat) (sel : Bool) (d : Dev) :
    d.portReady src i sel = forUpTo 96 (Dev.linkTurn src i sel (d.portValue src i sel)) d := by
  refine congrArg (fun f => forUpTo 96 f d) (funext fun c => funext fun d => if_congr ?_ rfl rfl)
  simp [Dev.carries, and_assoc]

/-- An isle beside what its inbound channels carry. -/
def Isle.offLinks (i : Isle) : Isle := { i with hin := [], hinFresh := [] }

section
variable (src i : Nat) (sel : Bool) (v : BitVec 32) (d : Dev)

theorem Dev.beyondIsles_linkTurn (c : Nat) : (d.linkTurn src i sel v c).beyondIsles = d.beyondIsles := by
  unfold Dev.linkTurn
  split <;> rfl

theorem Dev.offLinks_linkTurn (c n : Nat) : ((d.linkTurn src i sel v c).isle n).offLinks = (d.isle n).offLinks := by
  unfold Dev.linkTurn
  split
  · rw [Dev.putLink]
    by_cases own : n = c / 8
    · rw [own, Dev.isle_setIsle_same]; rfl
    · rw [Dev.isle_setIsle_ne _ _ own]
  · rfl

/-- The word that inbound channel `c` carries. -/
def Dev.linkWord (d : Dev) (c : Nat) : BitVec 32 := tget 0#32 (d.isle (c / 8)).hin (c % 8)

theorem Dev.linkWord_putLink (k c : Nat) : (d.putLink k v).linkWord c = if c = k then v else d.linkWord c := by
  unfold Dev.linkWord Dev.putLink
  by_cases isle : c / 8 = k / 8
  · rw [isle, Dev.isle_setIsle_same]
    by_cases channel : c % 8 = k % 8
    · rw [channel, tget_tset_same, if_pos (by omega)]
    · rw [tget_tset_ne _ _ _ _ channel, if_neg (by omega)]
  · rw [Dev.isle_setIsle_ne _ _ isle, if_neg (by omega)]

theorem Dev.carries_of_regs {d e : Dev} (h : e.regs = d.regs) (c : Nat) : e.carries src i sel c = d.carries src i sel c := by
  unfold Dev.carries Dev.on
  rw [Dev.rd_of_regs h, Dev.rd_of_regs h, Dev.rd_of_regs h]

theorem Dev.beyondIsles_linkTurns (n : Nat) : (forUpTo n (Dev.linkTurn src i sel v) d).beyondIsles = d.beyondIsles :=
  forUpTo_keeps Dev.beyondIsles n d fun c _ d => d.beyondIsles_linkTurn src i sel v c

theorem Dev.linkWord_linkTurns (n c : Nat) :
    (forUpTo n (Dev.linkTurn src i sel v) d).linkWord c = if c < n ∧ d.carries src i sel c = true then v else d.linkWord c := by
  induction n with
  | zero => rw [if_neg (by omega)]; rfl
  | succ n ih =>
    have bound := Dev.carries_of_regs src i sel (Dev.regs_of_beyondIsles (d.beyondIsles_linkTurns src i sel v n)) n
    rw [forUpTo_succ, Dev.linkTurn, bound]
    by_cases own : c = n
    · subst own
      cases carried : d.carries src i sel c with
      | true => rw [if_pos rfl, Dev.linkWord_putLink, if_pos rfl, if_pos ⟨by omega, rfl⟩]
      | false => rw [if_neg (by simp), ih, if_neg (by omega), if_neg (by simp)]
    · have turn : (c < n ∧ d.carries src i sel c = true) ↔ (c < n + 1 ∧ d.carries src i sel c = true) := and_congr_left fun _ => by omega
      split
      · rw [Dev.linkWord_putLink, if_neg own, ih, if_congr turn rfl rfl]
      · rw [ih, if_congr turn rfl rfl]

/-- A port word that is ready changes the isles alone. -/
theorem Dev.beyondIsles_portReady : (d.portReady src i sel).beyondIsles = d.beyondIsles := by
  rw [Dev.portReady_eq]; exact d.beyondIsles_linkTurns ..

/-- Every channel bound to it carries it. -/
theorem Dev.linked_portReady : Linked src i sel (d.portValue src i sel) d (d.portReady src i sel) := by
  rw [Dev.portReady_eq]
  refine ⟨fun c lt => ?_, fun n => ?_⟩
  · have word := d.linkWord_linkTurns src i sel (d.portValue src i sel) 96 c
    simpa only [Dev.linkWord, lt, true_and] using word
  · have kept : ((forUpTo 96 (Dev.linkTurn src i sel (d.portValue src i sel)) d).isle n).offLinks = (d.isle n).offLinks :=
      forUpTo_keeps (fun d => (d.isle n).offLinks) 96 d fun c _ d => d.offLinks_linkTurn src i sel _ c n
    exact congrArg (fun x : Isle => { x with hin := ((forUpTo 96 (Dev.linkTurn src i sel (d.portValue src i sel)) d).isle n).hin,
                                             hinFresh := ((forUpTo 96 (Dev.linkTurn src i sel (d.portValue src i sel)) d).isle n).hinFresh }) kept

end

/-- What the links carry is seen from the block before the writes of other registers and of other units. -/
theorem Linked.of_kept {src i : Nat} {sel : Bool} {v : BitVec 32} {l : List Nat} {c d e : Dev} (linked : Linked src i sel v c e) (isles : c.isles = d.isles)
    (kept : RegsKept l d c) (unbound : ∀ k, k < 96 → HP_IBc k ∉ l) : Linked src i sel v d e := by
  have isle (n : Nat) : c.isle n = d.isle n := by rw [Dev.isle, isles, ← Dev.isle]
  have carries (k : Nat) (lt : k < 96) : c.carries src i sel k = d.carries src i sel k := by
    unfold Dev.carries
    rw [kept.rd (f := HP_IBc_SRC k) (unbound k lt), kept.rd (f := HP_IBc_INDEX k) (unbound k lt), kept.on (f := HP_IBc_SEL k) (unbound k lt)]
  obtain ⟨words, others⟩ := linked
  refine ⟨fun k lt => ?_, fun n => ?_⟩
  · rw [words k lt, carries k lt, isle]
  · rw [← isle]; exact others n

/-! ### What an equal view beside the isles says -/

section
variable {d e : Dev} (h : e.beyondIsles = d.beyondIsles)
include h

theorem Dev.hb_of_beyondIsles : e.hb = d.hb := (congrArg (fun x : Dev => x.hb) h :)

end

end Sys2Proof.Machine

/-! ## Harbour FIFOs and the words the links deliver (R165, R189 to R193) -/
namespace Sys2Proof.Machine

/-! ### A FIFO replaced -/

/-- FIFO `f` as it stands once `x` has replaced it: its flow control follows (R190). -/
def Dev.flowed (d : Dev) (f : Nat) (x : HFifo) : HFifo := { x with fc := x.flow (d.rd (FQ_Qf_WM_HIWM f)) (d.rd (FQ_Qf_WM_LOWM f)) }

/-- The block without its registers and its FIFOs. -/
def Dev.beyondFifos (d : Dev) : Dev := { d with regs := [], flags := [], hb := { d.hb with fifo := [] } }

theorem Dev.eq_of_beyondFifos {d e : Dev} (h : e.beyondFifos = d.beyondFifos) : e = { d with regs := e.regs, flags := e.flags, hb := e.hb } :=
  congrArg (fun x : Dev => { x with regs := e.regs, flags := e.flags, hb := e.hb }) h

/-- The block with the record of FIFO `f` replaced. -/
def Dev.withFifo (f : Nat) (x : HFifo) (d : Dev) : Dev := { d with hb := { d.hb with fifo := tset HFifo.reset d.hb.fifo f x } }

section
variable (f : Nat) (x : HFifo) (d : Dev)

theorem Dev.setHfifo_eq : d.setHfifo f x =
    (((d.withFifo f (d.flowed f x)).wr (FQ_Qf_STAT_FILL f) x.fill).wr (FQ_Qf_STAT_AVAIL f) x.items.length).wrb (FQ_Qf_STAT_FC f)
      ((d.flowed f x).fc || d.ev.f3 || d.hb.loading || x.held || x.repair) := rfl

theorem Dev.hfifo_setHfifo_same : (d.setHfifo f x).hfifo f = d.flowed f x := tget_tset_same ..
theorem Dev.hfifo_setHfifo_ne {g : Nat} (h : g ≠ f) : (d.setHfifo f x).hfifo g = d.hfifo g := tget_tset_ne _ _ _ _ h

theorem Dev.beyondFifos_withFifo : (d.withFifo f x).beyondFifos = d.beyondFifos := rfl
theorem Dev.beyondFifos_wr (a : Fld) (v : Nat) : (d.wr a v).beyondFifos = d.beyondFifos := rfl
theorem Dev.beyondFifos_setReg (a : Nat) (v : BitVec 32) : (d.setReg a v).beyondFifos = d.beyondFifos := rfl
theorem Dev.beyondFifos_setFlag (a : Fld) : (d.setFlag a).beyondFifos = d.beyondFifos := rfl
theorem Dev.beyondFifos_incBy (a : Fld) (n : Nat) : (d.incBy a n).beyondFifos = d.beyondFifos := rfl

theorem Dev.beyondFifos_setHfifo : (d.setHfifo f x).beyondFifos = d.beyondFifos := by
  rw [Dev.setHfifo_eq, Dev.wrb, Dev.beyondFifos_wr, Dev.beyondFifos_wr, Dev.beyondFifos_wr, Dev.beyondFifos_withFifo]

theorem Dev.setHfifo_kept : RegsKept [FQ_Qf_STAT f] d (d.setHfifo f x) := by
  rw [Dev.setHfifo_eq]
  exact (((RegsKept.of_regs (e := d.withFifo f (d.flowed f x)) rfl).wr _ (by simp)).wr _ (by simp)).wrb _ (by simp)

/-- FILL and AVAIL show the new FIFO, and OVF stays. -/
theorem Dev.rd_fill_setHfifo (room : x.fill < 8192) : (d.setHfifo f x).rd (FQ_Qf_STAT_FILL f) = x.fill := by
  rw [Dev.setHfifo_eq, Dev.rd_wrb_disjoint _ _ _ _ (by simp) (by simp) (by simp), Dev.rd_wr_disjoint _ _ _ _ (by simp) (by simp) (by simp),
    Dev.rd_wr_same _ _ _ (by simp) (by simp)]
  exact Nat.mod_eq_of_lt room

theorem Dev.rd_avail_setHfifo (room : x.items.length < 8192) : (d.setHfifo f x).rd (FQ_Qf_STAT_AVAIL f) = x.items.length := by
  rw [Dev.setHfifo_eq, Dev.rd_wrb_disjoint _ _ _ _ (by simp) (by simp) (by simp), Dev.rd_wr_same _ _ _ (by simp) (by simp)]
  exact Nat.mod_eq_of_lt room

theorem Dev.on_ovf_setHfifo : (d.setHfifo f x).on (FQ_Qf_STAT_OVF f) = d.on (FQ_Qf_STAT_OVF f) := by
  rw [Dev.setHfifo_eq]
  refine Dev.on_eq ?_
  rw [Dev.rd_wrb_disjoint _ _ _ _ (by simp) (by simp) (by simp), Dev.rd_wr_disjoint _ _ _ _ (by simp) (by simp) (by simp),
    Dev.rd_wr_disjoint _ _ _ _ (by simp) (by simp) (by simp)]
  exact Dev.rd_of_regs rfl _

end

/-! ### What an access to one FIFO leaves -/

/-- Nothing changes but FIFO `f`, FQ_Qf_STAT and FQ_Qf_LOST. -/
def OnlyFifo (f : Nat) (d e : Dev) : Prop :=
  RegsKept [FQ_Qf_STAT f, FQ_Qf_LOST f] d e ∧ e.beyondFifos = d.beyondFifos ∧ ∀ g, g ≠ f → e.hfifo g = d.hfifo g

section
variable {f : Nat} {c d e : Dev}

theorem OnlyFifo.refl (f : Nat) (d : Dev) : OnlyFifo f d d := ⟨RegsKept.refl _ d, rfl, fun _ _ => rfl⟩

theorem OnlyFifo.trans (first : OnlyFifo f c d) (second : OnlyFifo f d e) : OnlyFifo f c e := by
  obtain ⟨regs, beyond, others⟩ := first
  obtain ⟨regs', beyond', others'⟩ := second
  exact ⟨regs.trans regs', beyond'.trans beyond, fun g ne => (others' g ne).trans (others g ne)⟩

theorem Dev.onlyFifo_setHfifo (x : HFifo) (d : Dev) : OnlyFifo f d (d.setHfifo f x) :=
  ⟨(d.setHfifo_kept f x).mono (by simp), d.beyondFifos_setHfifo f x, fun _ ne => d.hfifo_setHfifo_ne f x ne⟩

theorem Dev.hfifo_of_hb {d e : Dev} (h : e.hb = d.hb) (g : Nat) : e.hfifo g = d.hfifo g := by rw [Dev.hfifo, h, ← Dev.hfifo]

theorem Dev.onlyFifo_fifoLost (n : Nat) (d : Dev) : OnlyFifo f d (d.fifoLost f n) := by
  unfold Dev.fifoLost
  split
  · exact OnlyFifo.refl f d
  · next some =>
    refine ⟨((RegsKept.refl _ d).incBy n (by simp)).setFlag (by simp), (Dev.beyondFifos_setFlag _ _).trans (d.beyondFifos_incBy _ n), fun g _ => ?_⟩
    exact Dev.hfifo_of_hb ((Dev.hb_setFlag _ _).trans (d.hb_wr _ _)) g

theorem Dev.onlyFifo_fifoOpen (d : Dev) : OnlyFifo f d (d.fifoOpen f) := by
  unfold Dev.fifoOpen
  split
  · exact OnlyFifo.refl f d
  · exact (d.onlyFifo_fifoLost _).trans (Dev.onlyFifo_setHfifo _ _)

theorem Dev.onlyFifo_fifoPut (v : BitVec 32) (d : Dev) : OnlyFifo f d (d.fifoPut f v) := by
  have opened : OnlyFifo f d (if (d.hfifo f).packet.isNone then d.fifoOpen f else d) := by
    split
    · exact d.onlyFifo_fifoOpen
    · exact OnlyFifo.refl f d
  unfold Dev.fifoPut
  split
  · dsimp only
    split
    · exact opened.trans ((Dev.onlyFifo_fifoLost 1 _).trans (Dev.onlyFifo_setHfifo _ _))
    · exact opened.trans ((Dev.onlyFifo_fifoLost _ _).trans (Dev.onlyFifo_setHfifo _ _))
  · split
    · exact d.onlyFifo_fifoLost 1
    · exact (d.onlyFifo_fifoLost _).trans (Dev.onlyFifo_setHfifo _ _)

theorem Dev.onlyFifo_fifoWrite (v : BitVec 32) (d : Dev) : OnlyFifo f d (d.fifoWrite f v) := by
  unfold Dev.fifoWrite
  split
  · exact OnlyFifo.refl f d
  · exact (Dev.onlyFifo_setHfifo _ d).trans (Dev.onlyFifo_fifoPut v _)

theorem Dev.onlyFifo_fifoWrites (vs : List (BitVec 32)) (d : Dev) : OnlyFifo f d (forList vs (Dev.fifoWrite f) d) :=
  forList_induct (OnlyFifo f d) (OnlyFifo.refl f d) fun v _ _ before => before.trans (Dev.onlyFifo_fifoWrite v _)

end

/-! ### Reads (R189, R193) -/

/-- FIFO `f` as before the writes of its ACLK, which `q` holds. -/
def Dev.fifoBefore (f : Nat) (q : FifoPrev) (d : Dev) : Dev :=
  ((d.withFifo f { d.hfifo f with items := q.items, packet := q.packet, fc := q.fc, prev := none }).setReg (FQ_Qf_STAT f) q.stat).setReg (FQ_Qf_LOST f) q.lost

section
variable {f : Nat} {d : Dev}

theorem Dev.onlyFifo_fifoBefore (q : FifoPrev) (d : Dev) : OnlyFifo f d (d.fifoBefore f q) :=
  by
  refine ⟨((RegsKept.of_regs (e := d.withFifo f _) rfl).setReg _ (by simp)).setReg _ (by simp), ?_, fun _ ne => tget_tset_ne _ _ _ _ ne⟩
  rw [Dev.fifoBefore, Dev.beyondFifos_setReg, Dev.beyondFifos_setReg, Dev.beyondFifos_withFifo]

theorem Dev.fifoRead_of_past (past : (d.hfifo f).prev.all (fun q => decide (q.at_ ≠ d.now)) = true) : d.fifoRead f = d.fifoPop f := by
  unfold Dev.fifoRead
  dsimp only
  split
  · next q prev =>
    rw [prev] at past
    exact if_neg (by simpa using past)
  · rfl

theorem Dev.fifoRead_of_now {q : FifoPrev} (prev : (d.hfifo f).prev = some q) (now : q.at_ = d.now) :
    d.fifoRead f = (((d.fifoBefore f q).fifoPop f).1, forList q.writes (Dev.fifoWrite f) ((d.fifoBefore f q).fifoPop f).2) := by
  unfold Dev.fifoRead
  dsimp only
  rw [prev]
  exact if_pos now

theorem Dev.fifoPop_of_empty (items : (d.hfifo f).items = []) : d.fifoPop f = (0, d.setFlag (FQ_Qf_STAT_UNDR f)) := by
  unfold Dev.fifoPop
  dsimp only
  rw [items]

theorem Dev.fifoPop_of_oldest {x : BitVec 32} {k : Bool} {t : List (BitVec 32 × Bool)} (items : (d.hfifo f).items = (x, k) :: t) :
    d.fifoPop f = (x, d.setHfifo f { d.hfifo f with items := t }) := by
  unfold Dev.fifoPop
  dsimp only
  rw [items]

theorem Dev.items_fifoBefore (q : FifoPrev) (d : Dev) : ((d.fifoBefore f q).hfifo f).items = q.items :=
  congrArg HFifo.items (tget_tset_same HFifo.reset d.hb.fifo f _)

end

/-- A read command shows its data and changes nothing else. -/
theorem Dev.regs_show (r : BitVec 32 × Dev) : (Dev.show r).regs = r.2.regs := rfl
theorem Dev.hb_show (r : BitVec 32 × Dev) : (Dev.show r).hb = r.2.hb := rfl

theorem Dev.eq_show_of_regs {d e : Dev} (h : e = { d with regs := e.regs, flags := e.flags }) (v : BitVec 32) : Dev.show (v, e) =
    { d with regs := (Dev.show (v, e)).regs, flags := (Dev.show (v, e)).flags, rdData := (Dev.show (v, e)).rdData } :=
  congrArg (fun e => Dev.show (v, e)) h

theorem Dev.eq_show_of_beyondFifos {d e : Dev} (h : e.beyondFifos = d.beyondFifos) (v : BitVec 32) : Dev.show (v, e) =
    { d with regs := (Dev.show (v, e)).regs, flags := (Dev.show (v, e)).flags, hb := (Dev.show (v, e)).hb, rdData := (Dev.show (v, e)).rdData } :=
  congrArg (fun e => Dev.show (v, e)) (Dev.eq_of_beyondFifos h)

/-! ### Writes (R191) -/

section
variable {f : Nat} {v : BitVec 32} {d : Dev} (on : d.on (FQ_Qf_CFG_EN f) = true) (plain : d.on (FQ_Qf_CFG_FRAME f) = false)

/-- FIFO `f` with what it was before the write of `v` noted. -/
def Dev.fifoNoted (f : Nat) (v : BitVec 32) (d : Dev) : Dev := d.setHfifo f { d.hfifo f with prev := some (d.fifoPrev f v) }

theorem Dev.hfifo_fifoNoted : (d.fifoNoted f v).hfifo f = d.flowed f { d.hfifo f with prev := some (d.fifoPrev f v) } := Dev.hfifo_setHfifo_same ..

theorem Dev.fill_fifoNoted : ((d.fifoNoted f v).hfifo f).fill = (d.hfifo f).fill := by
  rw [Dev.hfifo_fifoNoted]; rfl

theorem Dev.items_fifoNoted : ((d.fifoNoted f v).hfifo f).items = (d.hfifo f).items := by
  rw [Dev.hfifo_fifoNoted]; rfl

theorem HFifo.fill_push (x : HFifo) (e : BitVec 32 × Bool) : HFifo.fill { x with items := x.items ++ [e] } = x.fill + 1 := by
  unfold HFifo.fill
  dsimp only
  rw [List.length_append, List.length_singleton]
  omega

include on plain

theorem Dev.fifoWrite_of_room (room : (d.hfifo f).fill < 4096) : d.fifoWrite f v =
    (d.fifoNoted f v).setHfifo f { (d.fifoNoted f v).hfifo f with items := (d.hfifo f).items ++ [(v, false)] } := by
  have free : ((d.fifoNoted f v).hfifo f).room false = (some ((d.fifoNoted f v).hfifo f), 0) := if_pos (by rw [Dev.fill_fifoNoted]; exact room)
  have unframed : (d.fifoNoted f v).on (FQ_Qf_CFG_FRAME f) = false := ((d.setHfifo_kept f _).on (by simp)).trans plain
  rw [Dev.fifoWrite, if_neg (by simp [on]), ← Dev.fifoNoted, Dev.fifoPut, if_neg (by simp [unframed]), free]
  dsimp only
  rw [Dev.fifoLost, if_pos rfl, Dev.items_fifoNoted]

theorem Dev.fifoWrite_of_full {x : BitVec 32} {t : List (BitVec 32 × Bool)} (full : 4096 ≤ (d.hfifo f).fill) (items : (d.hfifo f).items = (x, false) :: t) :
    d.fifoWrite f v = ((d.fifoNoted f v).fifoLost f 1).setHfifo f { (d.fifoNoted f v).hfifo f with items := t ++ [(v, false)] } := by
  have noted : ((d.fifoNoted f v).hfifo f).items = (x, false) :: t := Dev.items_fifoNoted.trans items
  have room : ((d.fifoNoted f v).hfifo f).room false = (some { (d.fifoNoted f v).hfifo f with items := t }, 1) := by
    rw [HFifo.room, if_neg (by rw [Dev.fill_fifoNoted]; omega), noted]; rfl
  have unframed : (d.fifoNoted f v).on (FQ_Qf_CFG_FRAME f) = false := ((d.setHfifo_kept f _).on (by simp)).trans plain
  rw [Dev.fifoWrite, if_neg (by simp [on]), ← Dev.fifoNoted, Dev.fifoPut, if_neg (by simp [unframed]), room]

/-- A FIFO that is not full stores the word. -/
theorem Dev.fifoWrite_spec_of_room (room : (d.hfifo f).fill < 4096) :
    (d.fifoWrite f v).hfifo f = { d.hfifo f with items := (d.hfifo f).items ++ [(v, false)], prev := some (d.fifoPrev f v),
                                                         fc := ((d.fifoWrite f v).hfifo f).fc } ∧
    (d.fifoWrite f v).rd (FQ_Qf_STAT_FILL f) = (d.hfifo f).fill + 1 ∧ RegsKept [FQ_Qf_STAT f] d (d.fifoWrite f v) := by
  rw [Dev.fifoWrite_of_room on plain room]
  refine ⟨?_, ?_, (d.setHfifo_kept f _).trans (Dev.setHfifo_kept f _ _)⟩
  · rw [Dev.hfifo_setHfifo_same, Dev.hfifo_fifoNoted]; rfl
  · have fill : HFifo.fill { (d.fifoNoted f v).hfifo f with items := (d.hfifo f).items ++ [(v, false)] } = (d.hfifo f).fill + 1 := by
      rw [Dev.hfifo_fifoNoted]; exact HFifo.fill_push _ _
    rw [Dev.rd_fill_setHfifo _ _ _ (by omega), fill]

/-- A full one discards its oldest item, counts it and sets OVF. -/
theorem Dev.fifoWrite_spec_of_full {x : BitVec 32} {t : List (BitVec 32 × Bool)} {k : Nat} (full : 4096 ≤ (d.hfifo f).fill)
    (items : (d.hfifo f).items = (x, false) :: t) (lost : d.rd (FQ_Qf_LOST_LOST f) = k) (room : k < 4294967295) :
    ((d.fifoWrite f v).hfifo f).items = t ++ [(v, false)] ∧ (d.fifoWrite f v).rd (FQ_Qf_LOST_LOST f) = k + 1 ∧
    (d.fifoWrite f v).on (FQ_Qf_STAT_OVF f) = true := by
  have before : (d.fifoNoted f v).rd (FQ_Qf_LOST_LOST f) = k := ((d.setHfifo_kept f _).rd (by simp)).trans lost
  rw [Dev.fifoWrite_of_full on plain full items]
  refine ⟨?_, ?_, ?_⟩
  · rw [Dev.hfifo_setHfifo_same]; rfl
  · rw [(Dev.setHfifo_kept f _ _).rd (by simp), Dev.fifoLost, if_neg (by decide), Dev.rd_setFlag_disjoint _ _ _ (by simp) (by simp) (by simp),
      Dev.rd_incBy_same _ _ (by simp) (by simp) (by rw [before]; exact room), before]
  · rw [Dev.on_ovf_setHfifo, Dev.fifoLost, if_neg (by decide), Dev.on_setFlag_same _ _ rfl (by simp)]

end

/-- Settles O32: an empty FIFO is popped without an item, and a flush leaves an empty FIFO. -/
theorem fifoReadAndFlush : Obligations.FifoReadAndFlush := by
  unfold Obligations.FifoReadAndFlush
  refine ⟨?_, ?_⟩
  · intro f d avail none past
    have items : (d.hfifo f).items = [] := List.length_eq_zero_iff.mp (avail.symm.trans none)
    refine On.of_onDev (fun d => Dev.show (d.fifoRead f)) (fun _ => rfl) ?_
    rw [Dev.fifoRead_of_past past, Dev.fifoPop_of_empty items]
    have flagged : OnlyRegs [FQ_Qf_STAT f] d (d.setFlag (FQ_Qf_STAT_UNDR f)) := (OnlyRegs.refl _ d).setFlag (by simp)
    exact ⟨rfl, (Dev.on_of_regs (Dev.regs_show _) _).trans (d.on_setFlag_same _ rfl (by simp)),
      fun q => Dev.hfifo_of_hb ((Dev.hb_show _).trans (d.hb_setFlag _)) q,
      (((RegsKept.refl _ d).setFlag (by simp)).regs_eq (Dev.regs_show _)).1, Dev.eq_show_of_regs flagged.1 _⟩
  · intro f d
    refine On.of_onDev (Dev.fifoFlush f) (fun _ => rfl) ?_
    unfold Dev.fifoFlush
    refine ⟨?_, ?_, d.rd_fill_setHfifo f _ (by decide : 0 < 8192), d.rd_avail_setHfifo f _ (by decide : 0 < 8192),
      (d.setHfifo_kept f _).1 _ (by simp), fun q ne => Dev.hfifo_setHfifo_ne _ _ _ ne,
      (d.setHfifo_kept f _).1, Dev.eq_of_beyondFifos (d.beyondFifos_setHfifo f _)⟩
    · rw [Dev.hfifo_setHfifo_same]; rfl
    · rw [Dev.hfifo_setHfifo_same]; rfl

end Sys2Proof.Machine

/-! ## Deliveries from the links (R165, R183, R186, R191) -/
namespace Sys2Proof.Machine

/-! ### PWM command words (R183) -/

section
variable (p : Nat) (x : PwmPair) (d : Dev)

theorem Dev.regs_kept_setPair : RegsKept [PW_PAIRp_STAT p] d (d.setPair p x) := RegsKept.wrb (RegsKept.of_regs rfl) _ (by simp)

theorem Dev.pair_setReg (a : Nat) (v : BitVec 32) (q : Nat) : (d.setReg a v).pair q = d.pair q := rfl

end

/-- The pair as it stands once a command word has been registered in an ACLK without one before. -/
def Dev.commanded (d : Dev) (p : Nat) : PwmPair := { d.pair p with cmdAt := d.now, cmdPrev := d.reg (PW_PAIRp_CMD p) }

section
variable {p : Nat} {d : Dev} (first : (d.pair p).cmdAt < d.now) (v : BitVec 32)
include first

theorem Dev.registerCmd_of_first : d.registerCmd p v = (d.setPair p (d.commanded p)).setReg (PW_PAIRp_CMD p) v := by
  unfold Dev.registerCmd
  dsimp only
  rw [if_neg first.ne]
  rfl

theorem Dev.pair_registerCmd_same : (d.registerCmd p v).pair p = d.commanded p := by
  rw [Dev.registerCmd_of_first first, Dev.pair_setReg, Dev.pair_setPair_same]

theorem Dev.pair_registerCmd_ne {q : Nat} (ne : q ≠ p) : (d.registerCmd p v).pair q = d.pair q := by
  rw [Dev.registerCmd_of_first first, Dev.pair_setReg, Dev.pair_setPair_ne _ _ ne]

theorem Dev.reg_registerCmd : (d.registerCmd p v).reg (PW_PAIRp_CMD p) = v := by
  rw [Dev.registerCmd_of_first first, Dev.reg_setReg_same]

theorem Dev.registerCmd_kept : RegsKept [PW_PAIRp_CMD p, PW_PAIRp_STAT p] d (d.registerCmd p v) := by
  rw [Dev.registerCmd_of_first first]
  exact ((d.regs_kept_setPair p _).mono (by simp)).setReg _ (by simp)

/-- The word of the ACLK before stays known. -/
theorem Dev.cmdBefore_registerCmd : (d.registerCmd p v).cmdBefore p = d.reg (PW_PAIRp_CMD p) := by
  have now : (d.registerCmd p v).now = d.now := by rw [Dev.registerCmd_of_first first]; rfl
  rw [Dev.cmdBefore, Dev.pair_registerCmd_same first, now]
  exact if_pos rfl

theorem Dev.eq_registerCmd : d.registerCmd p v =
    { d with regs := (d.registerCmd p v).regs, flags := (d.registerCmd p v).flags, hb := (d.registerCmd p v).hb } := by
  rw [Dev.registerCmd_of_first first]
  rfl

end

/-! ### A fresh word (R165) -/

/-- The word of outbound channel `c` is taken. -/
def Dev.wordTaken (c : Nat) (d : Dev) : Dev := d.setIsle (c / 8) { d.isle (c / 8) with taken := (d.isle (c / 8)).taken ++ [c % 8] }

theorem Dev.isle_wordTaken_same (c : Nat) (d : Dev) :
    (d.wordTaken c).isle (c / 8) = { d.isle (c / 8) with taken := (d.isle (c / 8)).taken ++ [c % 8] } := Dev.isle_setIsle_same ..

theorem Dev.isle_wordTaken_ne (c : Nat) (d : Dev) {n : Nat} (ne : n ≠ c / 8) : (d.wordTaken c).isle n = d.isle n := Dev.isle_setIsle_ne _ _ ne

theorem Dev.eq_of_wordTaken {c : Nat} {d e : Dev} (h : e = { d.wordTaken c with regs := e.regs, flags := e.flags, hb := e.hb }) :
    e = { d with regs := e.regs, flags := e.flags, hb := e.hb, isles := e.isles } :=
  congrArg (fun x : Dev => { x with isles := e.isles }) h

theorem Dev.isle_of_isles {d e : Dev} (h : e.isles = d.isles) (n : Nat) : e.isle n = d.isle n := by rw [Dev.isle, h, ← Dev.isle]

theorem Dev.harbourDelivery_of_fresh {c : Nat} {v : BitVec 32} {d : Dev} (fresh : (d.isle (c / 8)).freshV.contains (16 + c % 8) = true)
    (left : (d.isle (c / 8)).taken.contains (c % 8) = false) (word : tget 0#32 (d.isle (c / 8)).straitV (16 + c % 8) = v) (whole : d.hb.loading = false) :
    d.harbourDelivery c = (d.wordTaken c).obDeliver c v := by
  unfold Dev.harbourDelivery
  dsimp only
  rw [if_pos ⟨fresh, Bool.eq_false_iff.mp left, Bool.eq_false_iff.mp whole⟩, word]
  rfl

theorem Dev.harbourDelivery_of_loading {c : Nat} {d : Dev} (loading : d.hb.loading = true) : d.harbourDelivery c = d := by
  unfold Dev.harbourDelivery
  exact if_neg fun all => all.2.2 loading

section
variable {c i : Nat} {d : Dev} (v : BitVec 32)

theorem Dev.obDeliver_of_pair (target : obTarget (d.reg (HP_OBc c)) = some (1, i)) : d.obDeliver c v = d.registerCmd i v := by
  unfold Dev.obDeliver
  simp only [target]

theorem Dev.obDeliver_of_bank (target : obTarget (d.reg (HP_OBc c)) = some (3, i)) :
    d.obDeliver c v = { d with hb := { d.hb with bank := tset 0#32 d.hb.bank i v } } := by
  unfold Dev.obDeliver
  simp only [target]

theorem Dev.obDeliver_of_fifo (target : obTarget (d.reg (HP_OBc c)) = some (2, i)) (source : d.rd (FQ_Qf_CFG_WSRC i) = 2) :
    d.obDeliver c v = d.fifoWrite i v := by
  unfold Dev.obDeliver
  simp only [target]
  exact if_pos (by rw [Dev.fifoSrc, source]; rfl)

end

/-- Settles O33: every clause is one case of a delivery or of an access to a FIFO. -/
theorem deliveriesAndFifos : Obligations.DeliveriesAndFifos := by
  unfold Obligations.DeliveriesAndFifos
  refine ⟨?_, ?_, ?_, ?_, ?_, ?_, ?_, ?_⟩
  · intro c v p d fresh left word whole target first
    refine On.of_onDev (Dev.harbourDelivery c) (fun _ => rfl) ?_
    have first' : ((d.wordTaken c).pair p).cmdAt < (d.wordTaken c).now := first
    rw [Dev.harbourDelivery_of_fresh fresh left word whole, Dev.obDeliver_of_pair (d := d.wordTaken c) v target]
    have frame := Dev.eq_registerCmd first' v
    have isles : ((d.wordTaken c).registerCmd p v).isles = (d.wordTaken c).isles := (congrArg (fun x : Dev => x.isles) frame :)
    refine ⟨Dev.reg_registerCmd first' v, Dev.cmdBefore_registerCmd first' v, ?_, fun n ne => ?_,
      (Dev.registerCmd_kept first' v).1, Dev.eq_of_wordTaken frame⟩
    · rw [Dev.isle_of_isles isles, Dev.isle_wordTaken_same]
    · rw [Dev.isle_of_isles isles, Dev.isle_wordTaken_ne _ _ ne]
  · intro c v b d fresh left word whole target
    refine On.of_onDev (Dev.harbourDelivery c) (fun _ => rfl) ?_
    rw [Dev.harbourDelivery_of_fresh fresh left word whole, Dev.obDeliver_of_bank (d := d.wordTaken c) v target]
    exact ⟨tget_tset_same .., Dev.isle_wordTaken_same c d, fun n ne => Dev.isle_wordTaken_ne _ _ ne, rfl, rfl, fun x ne => tget_tset_ne _ _ _ _ ne, rfl⟩
  · intro c v f d fresh left word whole target source on plain room
    refine On.of_onDev (Dev.harbourDelivery c) (fun _ => rfl) ?_
    obtain ⟨-, beyond, others⟩ : OnlyFifo f (d.wordTaken c) ((d.wordTaken c).fifoWrite f v) := Dev.onlyFifo_fifoWrite v _
    have isles : ((d.wordTaken c).fifoWrite f v).isles = (d.wordTaken c).isles := (congrArg (fun x : Dev => x.isles) beyond :)
    rw [Dev.harbourDelivery_of_fresh fresh left word whole, Dev.obDeliver_of_fifo (d := d.wordTaken c) v target source]
    obtain ⟨stored, fill, regs⟩ := Dev.fifoWrite_spec_of_room (d := d.wordTaken c) (v := v) on plain room
    refine ⟨stored, fill, regs.1 _ (by simp), others, ?_, fun n ne => ?_, regs.1, Dev.eq_of_wordTaken (Dev.eq_of_beyondFifos beyond)⟩
    · rw [Dev.isle_of_isles isles, Dev.isle_wordTaken_same]
    · rw [Dev.isle_of_isles isles, Dev.isle_wordTaken_ne _ _ ne]
  · intro c v f k x t d fresh left word whole target source on plain full items lost room
    refine On.of_onDev (Dev.harbourDelivery c) (fun _ => rfl) ?_
    obtain ⟨regs, beyond, -⟩ : OnlyFifo f (d.wordTaken c) ((d.wordTaken c).fifoWrite f v) := Dev.onlyFifo_fifoWrite v _
    have isles : ((d.wordTaken c).fifoWrite f v).isles = (d.wordTaken c).isles := (congrArg (fun x : Dev => x.isles) beyond :)
    rw [Dev.harbourDelivery_of_fresh fresh left word whole, Dev.obDeliver_of_fifo (d := d.wordTaken c) v target source]
    obtain ⟨stored, counted, overflow⟩ := Dev.fifoWrite_spec_of_full (d := d.wordTaken c) (v := v) on plain full items lost room
    refine ⟨stored, counted, overflow, ?_, fun n ne => ?_, regs.1⟩
    · rw [Dev.isle_of_isles isles, Dev.isle_wordTaken_same]
    · rw [Dev.isle_of_isles isles, Dev.isle_wordTaken_ne _ _ ne]
  · intro c d loading
    refine On.of_onDev (Dev.harbourDelivery c) (fun _ => rfl) ?_
    exact Dev.harbourDelivery_of_loading loading
  · intro f x k t d items past
    refine On.of_onDev (fun d => Dev.show (d.fifoRead f)) (fun _ => rfl) ?_
    rw [Dev.fifoRead_of_past past, Dev.fifoPop_of_oldest items]
    refine ⟨rfl, ?_, fun q ne => ?_, ((d.setHfifo_kept f _).regs_eq (Dev.regs_show _)).1, Dev.eq_show_of_beyondFifos (d.beyondFifos_setHfifo f _) x⟩
    · rw [Dev.hfifo_of_hb (Dev.hb_show _), Dev.hfifo_setHfifo_same]; rfl
    · rw [Dev.hfifo_of_hb (Dev.hb_show _), Dev.hfifo_setHfifo_ne _ _ _ ne]
  · intro f q x k t d prev now items
    refine On.of_onDev (fun d => Dev.show (d.fifoRead f)) (fun _ => rfl) ?_
    have before : ((d.fifoBefore f q).hfifo f).items = (x, k) :: t := (Dev.items_fifoBefore q d).trans items
    rw [Dev.fifoRead_of_now prev now, Dev.fifoPop_of_oldest before]
    obtain ⟨regs, beyond, others⟩ := ((d.onlyFifo_fifoBefore q).trans (Dev.onlyFifo_setHfifo { (d.fifoBefore f q).hfifo f with items := t } _)).trans
      (Dev.onlyFifo_fifoWrites q.writes _)
    refine ⟨rfl, fun p ne => ?_, (regs.regs_eq (Dev.regs_show _)).1, Dev.eq_show_of_beyondFifos beyond x⟩
    rw [Dev.hfifo_of_hb (Dev.hb_show _), others p ne]
  · intro f d
    refine On.of_onDev (fun d => d.setReg (FQ_Qf_LOST f) 0) (fun _ => rfl) ?_
    exact ⟨Dev.reg_setReg_same .., (OnlyRegs.refl _ d).setReg _ (by simp)⟩

end Sys2Proof.Machine

/-! ## PWM pairs, trips and output cells (R161, R162, R182 to R185, R188) -/
namespace Sys2Proof.Machine

/-! ### A pair replaced -/

section
variable (p : Nat) (x : PwmPair) (d : Dev)

theorem Dev.on_insafe_setPair : (d.setPair p x).on (PW_PAIRp_STAT_INSAFE p) = x.safe := Dev.on_wrb_same _ _ _ rfl (by simp)

theorem Dev.eq_setPair : d.setPair p x = { d with regs := (d.setPair p x).regs, flags := (d.setPair p x).flags, hb := (d.setPair p x).hb } := rfl

end

/-! ### Edges and dead times (R182, R184, R185) -/

section
variable {x : PwmPair} (t : Nat)

theorem PwmPair.turn_of_due {u : Nat} {h : Bool} (wait : x.turnOn = some (u, h)) (due : u ≤ t) :
    x.turn t = { x with hs := x.hs || h, ls := x.ls || !h, turnOn := none } := by
  unfold PwmPair.turn
  rw [wait]
  exact if_pos due

/-- A turn-on moves the sides of the pair and ends the wait. -/
theorem PwmPair.turn_frame (x : PwmPair) : x.turn t = { x with hs := (x.turn t).hs, ls := (x.turn t).ls, turnOn := (x.turn t).turnOn } := by
  unfold PwmPair.turn
  split
  · split <;> rfl
  · rfl

/-- The first edge of a pair in its safe state ends it, whatever waited. -/
theorem PwmPair.act_of_safe (e : PwmEdge) (dt : Nat) (safe : x.safe = true) :
    x.act e dt = { x with safe := false, hiZ := false, hs := false, ls := false, turnOn := some (e.at_ + dt, e.on) } := by
  have turned : (x.turn e.at_).safe = true := by rw [PwmPair.turn_frame]; exact safe
  unfold PwmPair.act
  split
  · split
    · rw [if_pos turned, PwmPair.turn_frame]
    · exact if_pos safe
  · exact if_pos safe

/-- An edge for the side that is off, with no turn-on waiting, turns the other off and waits for the dead time. -/
theorem PwmPair.act_of_off (e : PwmEdge) (dt : Nat) (out : x.safe = false) (still : x.turnOn = none) (off : (if e.on then x.hs else x.ls) = false) :
    x.act e dt = { x with hs := false, ls := false, turnOn := some (e.at_ + dt, e.on) } := by
  unfold PwmPair.act
  simp only [still]
  rw [if_neg (by simp [out]), if_neg (by simp [off])]

end

section
variable {p : Nat} {x : PwmEdge} {es : List PwmEdge} {d : Dev} (edges : (d.pair p).edges = x :: es) (due : x.at_ < 8 * (d.now + 1))

/-- The pair when its first edge acts: the edge has left the line and edges long past are forgotten. -/
def Dev.edgeTaken (p : Nat) (es : List PwmEdge) (d : Dev) : PwmPair :=
  PwmPair.forget { d.pair p with edges := es } (8 * (d.now - 1)) (d.deadTime p) (d.safeCause p)

include edges due

theorem Dev.edgeAct_of_due : d.edgeAct p = d.setPair p ((d.edgeTaken p es).note x (d.deadTime p) (d.safeCause p)) := by
  unfold Dev.edgeAct
  simp only [edges]
  exact if_neg (by omega)

end

section
variable {p u : Nat} {h : Bool} {d : Dev} (wait : (d.pair p).turnOn = some (u, h))
include wait

theorem Dev.deadTimeEnd_of_due (due : u < 8 * (d.now + 1)) (later : ∀ x ∈ (d.pair p).edges, u < x.at_) :
    d.deadTimeEnd p = d.setPair p { (d.pair p).turn u with upto := max (d.pair p).upto u } := by
  have none : (d.pair p).edges.any (fun e => e.at_ ≤ u) = false := List.any_eq_false.mpr fun x mem => by simpa using later x mem
  unfold Dev.deadTimeEnd
  simp only [wait, none]
  exact if_neg (by simp; omega)

theorem Dev.deadTimeEnd_of_wait (early : 8 * (d.now + 1) ≤ u) : d.deadTimeEnd p = d := by
  unfold Dev.deadTimeEnd
  simp only [wait]
  exact if_pos (.inl early)

end

/-! ### The safe state (R161, R162) -/

/-- The pair as it is driven to its safe state from time `t`. -/
def Dev.safePair (d : Dev) (p t : Nat) : PwmPair := (d.driveSafe p t).pair p

section
variable (p t : Nat) (d : Dev)

theorem Dev.driveSafe_eq : d.driveSafe p t = d.setPair p (d.safePair p t) := by
  unfold Dev.safePair Dev.driveSafe
  dsimp only
  rw [Dev.pair_setPair_same]

/-- Its sides where an image has been loaded. -/
theorem Dev.safePair_spec (image : d.on PW_STAT_NOIMG = false) :
    (d.safePair p t).safe = true ∧ (d.safePair p t).hs = ((d.pair p).hs && decide (d.rd (PW_PAIRp_CFG_SAFE p) = 1)) ∧
    (d.safePair p t).ls = ((d.pair p).ls && decide (d.rd (PW_PAIRp_CFG_SAFE p) = 2)) ∧ (d.safePair p t).hiZ = decide (d.rd (PW_PAIRp_CFG_SAFE p) = 3) := by
  unfold Dev.safePair Dev.driveSafe
  dsimp only
  rw [Dev.pair_setPair_same, image]
  exact ⟨rfl, rfl, rfl, rfl⟩

end

/-- The block without its registers and its PWM pairs. -/
def Dev.beyondPairs (d : Dev) : Dev := { d with regs := [], flags := [], hb := { d.hb with pwm := [] } }

theorem Dev.eq_of_beyondPairs {d e : Dev} (h : e.beyondPairs = d.beyondPairs) :
    e = { d with regs := e.regs, flags := e.flags, hb := { d.hb with pwm := e.hb.pwm } } :=
  congrArg (fun x : Dev => { x with regs := e.regs, flags := e.flags, hb := { x.hb with pwm := e.hb.pwm } }) h

/-- Beside the other pairs, `e` is as `d`: pair `p`, and the registers but for the status of the others. -/
def SamePair (p : Nat) (d e : Dev) : Prop :=
  e.beyondPairs = d.beyondPairs ∧ e.pair p = d.pair p ∧ ∀ a, (∀ q, q ≠ p → a ≠ PW_PAIRp_STAT q) → e.reg a = d.reg a

theorem SamePair.refl (p : Nat) (d : Dev) : SamePair p d d := ⟨rfl, rfl, fun _ _ => rfl⟩

theorem SamePair.enterSafe {p q : Nat} {d e : Dev} (h : SamePair p d e) (ne : q ≠ p) : SamePair p d (e.enterSafe q) := by
  obtain ⟨beyond, pair, regs⟩ := h
  unfold Dev.enterSafe
  split
  · rw [Dev.driveSafe_eq]
    refine ⟨beyond, (Dev.pair_setPair_ne _ _ ne.symm).trans pair, fun a off => ((Dev.regs_kept_setPair q _ e).1 a ?_).trans (regs a off)⟩
    simpa using off q ne
  · exact ⟨beyond, pair, regs⟩

/-- A write of PW_CTRL.SAFE drives a pair that is not in its safe state to it. -/
theorem Dev.safeWrite_spec {p : Nat} {d : Dev} (lt : p < 48) (out : (d.pair p).safe = false) :
    ∃ s, SamePair p (d.wrb PW_CTRL_SAFE true) s ∧ SamePair p (s.driveSafe p (8 * s.now)) (d.safeWrite true) := by
  have turns : d.safeWrite true = forUpTo 48 Dev.enterSafe (d.wrb PW_CTRL_SAFE true) := if_neg (by simp)
  rw [turns]
  refine forUpTo_pivot (SamePair p (d.wrb PW_CTRL_SAFE true))
    (fun e => ∃ s, SamePair p (d.wrb PW_CTRL_SAFE true) s ∧ SamePair p (s.driveSafe p (8 * s.now)) e) lt (SamePair.refl _ _)
    (fun q lo s same => same.enterSafe (by omega)) (fun s same => ⟨s, same, ?_⟩) (fun q lo _ e turned => ?_)
  · obtain ⟨-, pair, regs⟩ := same
    have on : s.on PW_CTRL_SAFE = true :=
      (Dev.on_eq (Dev.rd_eq (regs _ fun q _ => by grind))).trans (d.on_wrb_same PW_CTRL_SAFE true rfl (by simp))
    rw [Dev.enterSafe, if_pos ⟨by simp [Dev.safeCause, on], by rw [pair]; exact Bool.eq_false_iff.mp out⟩]
    exact SamePair.refl _ _
  · obtain ⟨s, before, after⟩ := turned
    exact ⟨s, before, after.enterSafe (by omega)⟩

/-- A write of 0 where every pair that a cause holds is in its safe state already. -/
theorem Dev.safeWrite_of_settled {d : Dev} (runs : d.ev.f3 = false) (settled : ∀ p, p < 48 → d.safeCause p = true → (d.pair p).safe = true) :
    d.safeWrite false = d.wrb PW_CTRL_SAFE false := by
  have cleared : (d.wrb PW_CTRL_SAFE false).on PW_CTRL_SAFE = false := d.on_wrb_same PW_CTRL_SAFE false rfl (by simp)
  have kept : RegsKept [PW_CTRL] d (d.wrb PW_CTRL_SAFE false) := (RegsKept.refl _ d).wrb _ (by simp)
  have fewer (p : Nat) (cause : (d.wrb PW_CTRL_SAFE false).safeCause p = true) : d.safeCause p = true := by
    unfold Dev.safeCause at cause ⊢
    rw [cleared, kept.on (f := PW_STAT_NOIMG) (by decide), kept.on (f := PW_PAIRp_CFG_EN p) (by grind),
      kept.on (f := PW_PAIRp_STAT_TRIP p) (by grind)] at cause
    simp only [Bool.or_false, Bool.or_eq_true] at cause ⊢
    tauto
  unfold Dev.safeWrite
  rw [if_neg (by simp [runs])]
  refine forUpTo_induct (fun e => e = d.wrb PW_CTRL_SAFE false) rfl fun p lt e same => ?_
  rw [same, Dev.enterSafe, if_neg]
  rintro ⟨cause, out⟩
  exact out (settled p lt (fewer p cause))

/-! ### Cells -/

theorem Dev.gio_setGio_same (g : Nat) (x : GioCell) (d : Dev) : (d.setGio g x).gio g = x := tget_tset_same ..
theorem Dev.gio_setGio_ne {g q : Nat} (x : GioCell) (d : Dev) (ne : q ≠ g) : (d.setGio g x).gio q = d.gio q := tget_tset_ne _ _ _ _ ne

/-- Settles O31: every clause is one case of an edge, of a dead time or of a write; PW_CTRL.SAFE reaches each pair in its own turn. -/
theorem pwmPairs : Obligations.PwmPairs := by
  unfold Obligations.PwmPairs
  refine ⟨?_, ?_, ?_, ?_, ?_, ?_, ?_, ?_, ?_, ?_, ?_, ?_, ?_⟩
  · intro p x es d edges due free safe
    refine On.of_onDev (Dev.edgeAct p) (fun _ => rfl) ?_
    rw [Dev.edgeAct_of_due edges due, free, PwmPair.note, if_neg (by decide), PwmPair.act_of_safe x _ (x := d.edgeTaken p es) safe]
    refine ⟨?_, ?_, ?_, ?_, ?_, ?_, Dev.on_insafe_setPair .., fun q ne => Dev.pair_setPair_ne _ _ ne, (Dev.regs_kept_setPair ..).1, Dev.eq_setPair ..⟩ <;>
      rw [Dev.pair_setPair_same] <;> rfl
  · intro p x es d edges due free out still off
    refine On.of_onDev (Dev.edgeAct p) (fun _ => rfl) ?_
    rw [Dev.edgeAct_of_due edges due, free, PwmPair.note, if_neg (by decide), PwmPair.act_of_off x _ (x := d.edgeTaken p es) out still off]
    refine ⟨?_, fun q ne => Dev.pair_setPair_ne _ _ ne, (Dev.regs_kept_setPair ..).1, Dev.eq_setPair ..⟩
    rw [Dev.pair_setPair_same]
    rfl
  · intro p x es d edges due held
    refine On.of_onDev (Dev.edgeAct p) (fun _ => rfl) ?_
    rw [Dev.edgeAct_of_due edges due, held, PwmPair.note, if_pos rfl]
    refine ⟨?_, ?_, ?_, ?_, ?_, fun q ne => Dev.pair_setPair_ne _ _ ne, (Dev.regs_kept_setPair ..).1, Dev.eq_setPair ..⟩ <;>
      rw [Dev.pair_setPair_same] <;> rfl
  · intro p u h d wait due later
    refine On.of_onDev (Dev.deadTimeEnd p) (fun _ => rfl) ?_
    rw [Dev.deadTimeEnd_of_due wait due later, PwmPair.turn_of_due u wait le_rfl]
    exact ⟨Dev.pair_setPair_same .., fun q ne => Dev.pair_setPair_ne _ _ ne, (Dev.regs_kept_setPair ..).1, Dev.eq_setPair ..⟩
  · intro p u h d wait early
    refine On.of_onDev (Dev.deadTimeEnd p) (fun _ => rfl) ?_
    exact Dev.deadTimeEnd_of_wait wait early
  · intro p v d first
    refine On.of_onDev (Dev.registerCmd p v) (fun _ => rfl) ?_
    have pair := Dev.pair_registerCmd_same first v
    refine ⟨Dev.reg_registerCmd first v, Dev.cmdBefore_registerCmd first v, ?_, ?_, ?_, fun q ne => Dev.pair_registerCmd_ne first v ne,
      (Dev.registerCmd_kept first v).1, Dev.eq_registerCmd first v⟩ <;> rw [pair] <;> rfl
  · intro p d other
    refine On.of_onDev (Dev.tripClear p) (fun _ => rfl) ?_
    rw [Dev.tripClear, if_neg other]
    exact ⟨d.on_wrb_same (PW_PAIRp_STAT_TRIP p) false rfl (by simp), (OnlyRegs.refl _ d).wr _ (by simp)⟩
  · intro p d now
    refine On.of_onDev (Dev.tripClear p) (fun _ => rfl) ?_
    exact if_pos now
  · intro p d out image
    refine On.of_onDev (Dev.safeWrite true) (fun _ => rfl) ?_
    obtain ⟨s, ⟨beyond, pair, regs⟩, beyond', pair', regs'⟩ := Dev.safeWrite_spec p.isLt out
    have on : s.on PW_CTRL_SAFE = true := (Dev.on_eq (Dev.rd_eq (regs _ fun q _ => by grind))).trans (d.on_wrb_same PW_CTRL_SAFE true rfl (by simp))
    have cfg : s.rd (PW_PAIRp_CFG_SAFE p) = d.rd (PW_PAIRp_CFG_SAFE p) :=
      (Dev.rd_eq (regs _ fun q _ => by grind)).trans (d.rd_wrb_disjoint PW_CTRL_SAFE _ true (by simp) (by simp) (.inl (by grind)))
    have image' : s.on PW_STAT_NOIMG = false :=
      ((Dev.on_eq (Dev.rd_eq (regs _ fun q _ => by grind))).trans (Dev.on_eq (d.rd_wrb_disjoint PW_CTRL_SAFE _ true (by simp) (by simp) (by simp)))).trans image
    obtain ⟨safe, hs, ls, hiZ⟩ := s.safePair_spec p (8 * s.now) image'
    rw [cfg, pair] at hs ls
    rw [cfg] at hiZ
    rw [Dev.driveSafe_eq] at beyond' pair' regs'
    rw [Dev.pair_setPair_same] at pair'
    refine ⟨?_, ?_, ?_, ?_, ?_, ?_, Dev.eq_of_beyondPairs (beyond'.trans beyond)⟩
    · rw [Dev.on_eq (Dev.rd_eq (regs' _ fun q _ => by grind)), (Dev.regs_kept_setPair ..).on (by grind), on]
    · rw [pair', safe]
    · rw [pair', hs]; rfl
    · rw [pair', ls]; rfl
    · rw [pair', hiZ]
    · rw [Dev.on_eq (Dev.rd_eq (regs' _ fun q ne => by grind)), Dev.on_insafe_setPair, safe]
  · intro d runs settled
    refine On.of_onDev (Dev.safeWrite false) (fun _ => rfl) ?_
    rw [Dev.safeWrite_of_settled runs fun p lt => settled ⟨p, lt⟩]
    exact ⟨d.on_wrb_same PW_CTRL_SAFE false rfl (by simp), (OnlyRegs.refl _ d).wr _ (by simp)⟩
  · intro d fault
    refine On.of_onDev (Dev.safeWrite false) (fun _ => rfl) ?_
    exact if_pos ⟨fault, rfl⟩
  · intro p d
    refine On.of_onDev (fun d => d.setReg (PW_PAIRp_CNT p) 0) (fun _ => rfl) ?_
    exact ⟨Dev.reg_setReg_same .., (OnlyRegs.refl _ d).setReg _ (by simp)⟩
  · intro g a d pulse ended
    refine On.of_onDev (Dev.pulseEnd g) (fun _ => rfl) ?_
    have ends : d.pulseEnd g = d.setGio g { d.gio g with pulseEnd := none } := by
      unfold Dev.pulseEnd
      rw [pulse]
      exact if_pos ended
    rw [ends]
    exact ⟨Dev.gio_setGio_same .., fun q ne => Dev.gio_setGio_ne _ _ ne, rfl, rfl⟩

end Sys2Proof.Machine

/-! ## Sigma-delta inputs (R163, R168, R170 to R172, R180) -/
namespace Sys2Proof.Machine

/-! ### Bit latches (R168, R170, R171) -/

section
variable (i : Nat) (x : SdIn) (d : Dev)

theorem Dev.sdIn_setSdIn_same : (d.setSdIn i x).sdIn i = x := tget_tset_same ..
theorem Dev.sdIn_setSdIn_ne {q : Nat} (ne : q ≠ i) : (d.setSdIn i x).sdIn q = d.sdIn q := tget_tset_ne _ _ _ _ ne

end

/-- The bit history of input `i` once bit `b` has been latched. -/
abbrev Dev.sdBits (d : Dev) (i : Nat) (b : Bool) : List Bool := (b :: (d.sdIn i).bits).take 768

/-- The filter's word at the bit latch of ACLK `l`. -/
def Dev.sdWordAt (d : Dev) (i l : Nat) (b : Bool) : SdWord :=
  { due := l + 3, at_ := l, value := d.sdResult i (d.sdBits i b), bad := d.sdOverload i (d.sdBits i b) || d.hbRepairing 0 i,
    ovl := d.sdOverload i (d.sdBits i b) }

/-- A strobe that no bit latch after it has settled takes the input's last word at the bit latch of ACLK `l`. -/
def SdIn.settle (x : SdIn) (l : Nat) (s : Nat × Option SdWord) : Nat × Option SdWord := if s.2.isNone && decide (s.1 < l) then (s.1, some x.cur) else s

/-- Input `i` once bit `b` has been latched in ACLK `l`. -/
def Dev.sdLatched (d : Dev) (i l : Nat) (b : Bool) : SdIn :=
  { d.sdIn i with
    bits := d.sdBits i b, prev := (d.sdIn i).cur, cur := d.sdWordAt i l b, strobes := (d.sdIn i).strobes.map ((d.sdIn i).settle l),
    cnt := if max 4 (min 256 (d.rd (HP_SDi_CFG_DEC i))) ≤ (d.sdIn i).cnt + 1 then 0 else (d.sdIn i).cnt + 1,
    free := if max 4 (min 256 (d.rd (HP_SDi_CFG_DEC i))) ≤ (d.sdIn i).cnt + 1 then (d.sdIn i).free ++ [d.sdWordAt i l b] else (d.sdIn i).free }

theorem Dev.predsClear_of_none {cls i : Nat} {d : Dev} (none : d.predsOf cls i = []) : d.predsClear cls i = d := by
  rw [Dev.predsClear, none]; rfl

section
variable {i l : Nat} {b : Bool} {d : Dev}

theorem Dev.sdBitLatch_of_next (on : d.on (HP_SDi_CFG_EN i) = true) (last : (tget Mclk.reset d.hb.mclk (d.sdClock i)).last = l)
    (next : (d.sdIn i).cur.at_ < l) (stays : d.sdOverload i (d.sdBits i b) = false ∨ d.predsOf 0 i = []) :
    d.sdBitLatch i b = (d.setSdIn i (d.sdLatched i l b)).comparator i l := by
  have kept : (if d.sdOverload i (d.sdBits i b) then d.predsClear 0 i else d) = d := by
    rcases stays with calm | none
    · rw [calm]; rfl
    · rw [Dev.predsClear_of_none none, ite_self]
  unfold Dev.sdBitLatch
  dsimp only
  rw [last, if_neg (by simp [on, next]), kept]
  rfl

theorem Dev.sdBitLatch_of_off (off : d.on (HP_SDi_CFG_EN i) = false) : d.sdBitLatch i b = d := by
  unfold Dev.sdBitLatch
  exact if_pos (.inl (by simp [off]))

end

/-! ### The comparator (R172) -/

section
variable (i t : Nat) (d : Dev)

theorem Dev.comparator_of_off (off : d.on (HP_SDi_CMP_CEN i) = false) : d.comparator i t = d := by
  unfold Dev.comparator
  exact if_pos (by simp [off])

/-- The comparator leaves the registers and the input's filter. -/
theorem Dev.comparator_spec : (d.comparator i t).regs = d.regs ∧ ((d.comparator i t).sdIn i).cnt = (d.sdIn i).cnt ∧
    ((d.comparator i t).sdIn i).free = (d.sdIn i).free := by
  unfold Dev.comparator
  split
  · exact ⟨rfl, rfl, rfl⟩
  · have own (x : SdIn) (e : HEv) : ((d.setSdIn i x).later (t + 3) e).sdIn i = x := Dev.sdIn_setSdIn_same ..
    dsimp only
    rw [own]
    exact ⟨rfl, rfl, rfl⟩

/-- The comparator's result over the bit history of input `i`. -/
def Dev.compared : Int :=
  clampInt (-32768) 32767 (sincSum (max 1 (d.rd (HP_SDi_CMP_CORD i))) (max 4 (min 32 (d.rd (HP_SDi_CMP_CDEC i)))) (d.sdIn i).bits)

variable {i d}

/-- A result above the upper limit that completes the count sends the trip. -/
theorem Dev.comparator_of_high (on : d.on (HP_SDi_CMP_CEN i) = true) (armed : (d.sdIn i).spent = false) (count : d.rd (HP_SDi_CMP_CCNT i) = (d.sdIn i).outN)
    (high : (BitVec.ofNat 16 (d.rd (HP_SDi_CTHR_CHI i))).toInt < d.compared i) :
    d.comparator i t = (d.setSdIn i { d.sdIn i with
      cmp := BitVec.ofInt 16 (d.compared i), outN := (d.sdIn i).outN + 1, spent := true,
      trips := (d.sdIn i).trips ++ [t + 3] }).later (t + 3) (.cmpLive i true) := by
  rw [Dev.compared] at high ⊢
  unfold Dev.comparator
  rw [if_neg (by simp [on])]
  simp only [decide_eq_true high, Bool.or_true, armed, count, Bool.not_false, Bool.and_self, decide_true, if_true]

end

/-! ### Words and the links (R163, R170, R171) -/

/-- The block without its registers, its harbour and its isles. -/
def Dev.beyondPorts (d : Dev) : Dev := { d with regs := [], flags := [], hb := Harb.reset, isles := [] }

section
variable {d e : Dev}

theorem Dev.beyondPorts_of_beyondRegs (h : e.beyondRegs = d.beyondRegs) : e.beyondPorts = d.beyondPorts :=
  congrArg (fun x : Dev => { x with hb := Harb.reset, isles := [] }) h

theorem Dev.beyondPorts_of_beyondIsles (h : e.beyondIsles = d.beyondIsles) : e.beyondPorts = d.beyondPorts :=
  congrArg (fun x : Dev => { x with regs := [], flags := [], hb := Harb.reset }) h

theorem Dev.eq_of_beyondPorts (h : e.beyondPorts = d.beyondPorts) : e = { d with regs := e.regs, flags := e.flags, hb := e.hb, isles := e.isles } :=
  congrArg (fun x : Dev => { x with regs := e.regs, flags := e.flags, hb := e.hb, isles := e.isles }) h

theorem Dev.ang_of_beyondPorts (h : e.beyondPorts = d.beyondPorts) : e.ang = d.ang := (congrArg (fun x : Dev => x.ang) h :)
theorem Dev.pred_of_beyondPorts (h : e.beyondPorts = d.beyondPorts) (p : Nat) : e.pred p = d.pred p :=
  (congrArg (fun x : Dev => x.pred p) h :)

theorem Dev.beyondPorts_setSdIn (i : Nat) (x : SdIn) (d : Dev) : (d.setSdIn i x).beyondPorts = d.beyondPorts := rfl

theorem Dev.reg_of_regs (h : e.regs = d.regs) (a : Nat) : e.reg a = d.reg a := by rw [Dev.reg, h, ← Dev.reg]

theorem Dev.sdIn_of_hb (h : e.hb = d.hb) (q : Nat) : e.sdIn q = d.sdIn q := by rw [Dev.sdIn, h, ← Dev.sdIn]

end

section
variable (i : Nat) (ovl : Bool) (d : Dev)

theorem Dev.beyondRegs_sdOvlCount : (d.sdOvlCount i ovl).beyondRegs = d.beyondRegs := by
  cases ovl with
  | true => exact (Dev.beyondRegs_inc ..).trans (Dev.beyondRegs_wr ..)
  | false => exact Dev.beyondRegs_wr ..

theorem Dev.sdOvlCount_kept : RegsKept [HP_SDi_STAT i, HP_SDi_CNT i] d (d.sdOvlCount i ovl) := by
  cases ovl with
  | true => exact ((RegsKept.refl _ d).wr _ (by simp)).inc (by simp)
  | false => exact (RegsKept.refl _ d).wr _ (by simp)

theorem Dev.on_ovld_sdOvlCount : (d.sdOvlCount i ovl).on (HP_SDi_STAT_OVLD i) = ovl := by
  have written (v : Nat) : (d.wr (HP_SDi_STAT_OVLD i) v).rd (HP_SDi_STAT_OVLD i) = v % 2 := d.rd_wr_same _ v (by simp) (by simp)
  cases ovl with
  | true => rw [Dev.sdOvlCount, if_pos rfl, Dev.on, Dev.rd_eq (Dev.reg_inc_ne _ _ (by simp)), written]; rfl
  | false => rw [Dev.sdOvlCount, if_neg (by simp), Dev.on, written]; rfl

variable {d} {k : Nat} (count : d.rd (HP_SDi_CNT_OVLC i) = k) (room : k < 65535)
include count room

theorem Dev.rd_ovlc_sdOvlCount : (d.sdOvlCount i ovl).rd (HP_SDi_CNT_OVLC i) = if ovl then k + 1 else k := by
  have kept (v : Nat) : (d.wr (HP_SDi_STAT_OVLD i) v).rd (HP_SDi_CNT_OVLC i) = k := (Dev.rd_eq (Dev.reg_wr_ne _ _ _ (by simp))).trans count
  cases ovl with
  | true => rw [Dev.sdOvlCount, if_pos rfl, if_pos rfl, Dev.rd_inc_same _ _ (by simp) (by simp) (by rw [kept]; exact room), kept]
  | false => rw [Dev.sdOvlCount, if_neg (by simp), if_neg (by simp), kept]

end

/-- The register of input `i` that holds a free-running word (`sel`) or the word of a strobe. -/
def sdPort (i : Nat) (sel : Bool) : Nat := if sel then HP_SDi_FWORD i else HP_SDi_WORD i

/-- The block once input `i`, which goes on as `x`, has shown the word `w`. -/
def Dev.sdShown (i : Nat) (sel : Bool) (x : SdIn) (w : SdWord) (d : Dev) : Dev :=
  (((d.setSdIn i x).setReg (sdPort i sel) w.value).sdOvlCount i w.ovl).portReady 1 i sel

theorem sdPort_bounds (i : Nat) (sel : Bool) : sdPort i sel ≠ HP_SDi_STAT i ∧ sdPort i sel ≠ HP_SDi_CNT i ∧ 0x40030110 ≤ sdPort i sel ∧
    sdPort i sel ≤ 0x40030114 + 0x20 * i := by
  cases sel <;> grind [sdPort]

section
variable (i : Nat) (sel : Bool) (x : SdIn) (w : SdWord) (d : Dev)

theorem Dev.regs_sdShown : (d.sdShown i sel x w).regs = (((d.setSdIn i x).setReg (sdPort i sel) w.value).sdOvlCount i w.ovl).regs :=
  Dev.regs_of_beyondIsles (Dev.beyondIsles_portReady ..)

theorem Dev.sdShown_kept : RegsKept [sdPort i sel, HP_SDi_STAT i, HP_SDi_CNT i] d (d.sdShown i sel x w) :=
  (((RegsKept.of_regs (Dev.regs_setSdIn d i x)).setReg w.value (by simp)).trans ((Dev.sdOvlCount_kept ..).mono (by simp))).regs_eq (Dev.regs_sdShown ..)

/-- A word computed outside overload leaves the count. -/
theorem Dev.sdShown_kept_of_calm (calm : w.ovl = false) : RegsKept [sdPort i sel, HP_SDi_STAT i] d (d.sdShown i sel x w) := by
  refine RegsKept.regs_eq ?_ (Dev.regs_sdShown ..)
  rw [calm]
  exact ((RegsKept.of_regs (Dev.regs_setSdIn d i x)).setReg w.value (by simp)).wr (f := HP_SDi_STAT_OVLD i) 0 (by simp)

theorem Dev.beyondPorts_sdShown : (d.sdShown i sel x w).beyondPorts = d.beyondPorts :=
  (Dev.beyondPorts_of_beyondIsles (Dev.beyondIsles_portReady ..)).trans
    ((Dev.beyondPorts_of_beyondRegs ((Dev.beyondRegs_sdOvlCount ..).trans (Dev.beyondRegs_setReg ..))).trans (Dev.beyondPorts_setSdIn ..))

theorem Dev.sdIn_sdShown (q : Nat) : (d.sdShown i sel x w).sdIn q = (d.setSdIn i x).sdIn q :=
  (Dev.sdIn_of_hb (Dev.hb_of_beyondIsles (Dev.beyondIsles_portReady ..)) q).trans
    (Dev.sdIn_of_hb (congrArg (fun x : Dev => x.hb) (Dev.beyondRegs_sdOvlCount i w.ovl ((d.setSdIn i x).setReg (sdPort i sel) w.value)) :) q)

theorem Dev.reg_sdShown : (d.sdShown i sel x w).reg (sdPort i sel) = w.value := by
  obtain ⟨stat, cnt, -⟩ := sdPort_bounds i sel
  rw [Dev.reg_of_regs (Dev.regs_sdShown ..), (Dev.sdOvlCount_kept ..).1 _ (by simp [stat, cnt]), Dev.reg_setReg_same]

theorem Dev.on_ovld_sdShown : (d.sdShown i sel x w).on (HP_SDi_STAT_OVLD i) = w.ovl :=
  (Dev.on_of_regs (Dev.regs_sdShown ..) _).trans (Dev.on_ovld_sdOvlCount ..)

variable {d} in
theorem Dev.rd_ovlc_sdShown {k : Nat} (count : d.rd (HP_SDi_CNT_OVLC i) = k) (room : k < 65535) :
    (d.sdShown i sel x w).rd (HP_SDi_CNT_OVLC i) = if w.ovl then k + 1 else k := by
  obtain ⟨-, cnt, -⟩ := sdPort_bounds i sel
  have before : ((d.setSdIn i x).setReg (sdPort i sel) w.value).rd (HP_SDi_CNT_OVLC i) = k := (Dev.rd_eq (Dev.reg_setReg_ne _ _ cnt.symm)).trans count
  rw [Dev.rd_of_regs (Dev.regs_sdShown ..), Dev.rd_ovlc_sdOvlCount i w.ovl before room]

variable {i} in
/-- Every channel bound to the port carries the word. -/
theorem Dev.linked_sdShown (lt : i < 48) : Linked 1 i sel w.value d (d.sdShown i sel x w) := by
  obtain ⟨stat, cnt, low, high⟩ := sdPort_bounds i sel
  have value : (((d.setSdIn i x).setReg (sdPort i sel) w.value).sdOvlCount i w.ovl).portValue 1 i sel = w.value := by
    refine (if_pos lt).trans ?_
    rw [← sdPort, (Dev.sdOvlCount_kept ..).1 _ (by simp [stat, cnt]), Dev.reg_setReg_same]
  have linked := Dev.linked_portReady 1 i sel (((d.setSdIn i x).setReg (sdPort i sel) w.value).sdOvlCount i w.ovl)
  rw [value] at linked
  refine linked.of_kept ?_ (((RegsKept.of_regs (Dev.regs_setSdIn d i x)).setReg w.value (by simp)).trans
    ((Dev.sdOvlCount_kept ..).mono (by simp : _ ⊆ [sdPort i sel, HP_SDi_STAT i, HP_SDi_CNT i]))) fun k _ => ?_
  · exact (congrArg (fun x : Dev => x.isles) (Dev.beyondRegs_sdOvlCount i w.ovl ((d.setSdIn i x).setReg (sdPort i sel) w.value)) :)
  · grind

end

/-! ### Free-running words (R23, R170) -/

section
variable {l : List Nat} {d e : Dev}

theorem RegsKept.domainsOf (h : RegsKept l d e) (beyond : ∀ a ∈ l, 0x40020000 ≤ a) (src inst : Nat) : e.domainsOf src inst = d.domainsOf src inst := by
  refine List.filter_congr fun n mem => ?_
  have lt : n < 7 := List.mem_range.mp mem
  have off (f : Fld) (low : f.addr < 0x40020000) : e.rd f = d.rd f := h.rd fun mem => by have := beyond _ mem; omega
  rw [Dev.adOn, Dev.rdBit, off AU_CTRL_EN (by decide), off (AU_ADn_CFG_SRC n) (by grind), off (AU_ADn_CFG_INST n) (by grind)]
  rfl

/-- Domains of two sources are two domains. -/
theorem Dev.ne_of_mem_domainsOf {n m src src' inst inst' : Nat} (mem : n ∈ d.domainsOf src inst) (mem' : m ∈ d.domainsOf src' inst') (ne : src ≠ src') :
    n ≠ m := by
  rintro rfl
  simp only [Dev.domainsOf, List.mem_filter, Bool.and_eq_true, decide_eq_true_eq] at mem mem'
  exact ne (mem.2.1.2.symm.trans mem'.2.1.2)

end

section
variable (src i k n : Nat) (d : Dev)

theorem Dev.domainsOf_phaseMeas (src' inst : Nat) : (d.phaseMeas src i k n).domainsOf src' inst = d.domainsOf src' inst := rfl

theorem Dev.ad_phaseMeas_ne {m : Nat} (ne : m ≠ n) : (d.phaseMeas src i k n).ad m = d.ad m := Dev.ad_setAd_ne _ _ ne

/-- The measurement is the domain's newest, latched with the last input's word and valid where all the words are. -/
theorem Dev.phaseMeas_spec : ((d.phaseMeas src i k n).ad n).inFlight.length = (d.ad n).inFlight.length + 1 ∧
    ((d.phaseMeas src i k n).ad n).inFlight.getLast?.map (·.at_) = some (d.sdIn (i + k - 1)).freeAt ∧
    ((d.phaseMeas src i k n).ad n).inFlight.getLast?.map (·.valid) = some (((List.range k).map (i + ·)).all fun j => !(d.sdIn j).freeBad) := by
  unfold Dev.phaseMeas Dev.sendMeas
  dsimp only
  rw [Dev.ad_setAd_same]
  simp

end

section
variable {i : Nat} {w : SdWord} {ws : List SdWord} {d : Dev}

/-- Input `i` once its oldest free-running word is ready. -/
def Dev.sdFreed (d : Dev) (i : Nat) (w : SdWord) (ws : List SdWord) : SdIn := { d.sdIn i with free := ws, freeBad := w.bad, freeAt := w.at_ }

/-- The block once it is shown. -/
def Dev.freeShown (i : Nat) (w : SdWord) (ws : List SdWord) (d : Dev) : Dev := d.sdShown i true (d.sdFreed i w ws) w

/-- The resolvers that measure with it have measured. -/
def Dev.resolved (i : Nat) (w : SdWord) (ws : List SdWord) (d : Dev) : Dev :=
  forList (if 1 ≤ i then d.domainsOf 3 (i - 1) else []) (fun n d => d.phaseMeas 3 (i - 1) 2 n) (d.freeShown i w ws)

theorem Dev.domainsOf_freeShown (src inst : Nat) : (d.freeShown i w ws).domainsOf src inst = d.domainsOf src inst := by
  have bounds := sdPort_bounds i true
  refine (Dev.sdShown_kept ..).domainsOf (fun a mem => ?_) src inst
  grind

theorem Dev.domainsOf_resolved (src inst : Nat) : (d.resolved i w ws).domainsOf src inst = d.domainsOf src inst :=
  (forList_keeps (fun d : Dev => d.domainsOf src inst) _ _ fun _ _ d => d.domainsOf_phaseMeas ..).trans (Dev.domainsOf_freeShown ..)

theorem Dev.sdFreeWord_of_due (free : (d.sdIn i).free = w :: ws) (due : w.due ≤ d.now) : d.sdFreeWord i =
    forList (if 2 ≤ i then d.domainsOf 4 (i - 2) else []) (fun n d => d.phaseMeas 4 (i - 2) 3 n) (d.resolved i w ws) := by
  have shown : d.freeShown i w ws =
    ((d.setSdIn i (d.sdFreed i w ws)).setReg (HP_SDi_FWORD i) w.value |>.sdOvlCount i w.ovl).portReady 1 i true := rfl
  unfold Dev.sdFreeWord
  simp only [free]
  rw [if_neg (by omega), ← Dev.sdFreed, ← shown, Dev.domainsOf_freeShown, ← Dev.resolved, Dev.domainsOf_resolved]

/-- Where no domain measures with the input, the word is shown and nothing else happens. -/
theorem Dev.sdFreeWord_of_none (free : (d.sdIn i).free = w :: ws) (due : w.due ≤ d.now) (noResolver : 1 ≤ i → d.domainsOf 3 (i - 1) = [])
    (noMains : 2 ≤ i → d.domainsOf 4 (i - 2) = []) : d.sdFreeWord i = d.freeShown i w ws := by
  have empty (c : Prop) [Decidable c] (l : List Nat) (none : c → l = []) : (if c then l else []) = [] := by
    split
    · next holds => exact none holds
    · rfl
  rw [Dev.sdFreeWord_of_due free due, Dev.resolved, empty _ _ noResolver, empty _ _ noMains, forList, List.foldl_nil, forList,
    List.foldl_nil]

/-- The one resolver that measures with the input measures, whatever else the word does. -/
theorem Dev.ad_sdFreeWord_of_resolver {n : Nat} (free : (d.sdIn i).free = w :: ws) (due : w.due ≤ d.now) (pos : 1 ≤ i)
    (one : d.domainsOf 3 (i - 1) = [n]) : (d.sdFreeWord i).ad n = ((d.freeShown i w ws).phaseMeas 3 (i - 1) 2 n).ad n := by
  have resolved : d.resolved i w ws = (d.freeShown i w ws).phaseMeas 3 (i - 1) 2 n := by rw [Dev.resolved, if_pos pos, one]; rfl
  have mem : n ∈ d.domainsOf 3 (i - 1) := by simp [one]
  rw [Dev.sdFreeWord_of_due free due, ← resolved]
  have others (m : Nat) (mem' : m ∈ if 2 ≤ i then d.domainsOf 4 (i - 2) else []) (e : Dev) : (e.phaseMeas 4 (i - 2) 3 m).ad n = e.ad n := by
    refine e.ad_phaseMeas_ne _ _ _ _ ?_
    split at mem'
    · exact Dev.ne_of_mem_domainsOf mem mem' (by decide)
    · simp at mem'
  exact forList_keeps (fun e : Dev => e.ad n) _ _ others

theorem Dev.ang_freeShown : (d.freeShown i w ws).ang = d.ang := Dev.ang_of_beyondPorts (Dev.beyondPorts_sdShown ..)

end

/-! ### Strobe words and predictors (R170, R180) -/

section
variable {p : Nat} {d : Dev}

theorem Dev.pred_setPred_same (x : Pred) (d : Dev) : (d.setPred p x).pred p = x := tget_tset_same ..

theorem Dev.reg_last_setPred (x : Pred) (d : Dev) : (d.setPred p x).reg (HP_PRDp_LAST p) = x.x := by
  rw [Dev.setPred, Dev.reg_wr_ne _ _ _ (by grind), Dev.reg_setReg_ne _ _ (by grind), Dev.reg_setReg_same]

theorem Dev.reg_setPred_ne (x : Pred) (d : Dev) {a : Nat} (off : a < HP_PRDp_LAST p) : (d.setPred p x).reg a = d.reg a := by
  rw [Dev.setPred, Dev.reg_wr_ne _ _ _ (by grind), Dev.reg_setReg_ne _ _ (by grind), Dev.reg_setReg_ne _ _ (by grind)]
  rfl

/-- A predictor's first measurement. -/
theorem Dev.predTake_of_first (v : BitVec 32) (t : Nat) (first : (d.pred p).got = false) :
    d.predTake p v t = d.setPred p { d.pred p with got := true, x := v, at_ := t } := by
  unfold Dev.predTake
  exact if_pos (by simp [first])

theorem RegsKept.predsOf {l : List Nat} {e : Dev} (h : RegsKept l d e) (out : ∀ p, p < 48 → HP_PRDp_CFG p ∉ l) (cls i : Nat) :
    e.predsOf cls i = d.predsOf cls i := by
  refine List.filter_congr fun p mem => ?_
  have own := out p (List.mem_range.mp mem)
  rw [Dev.predIndex, h.on (f := HP_PRDp_CFG_EN p) own, h.rd (f := HP_PRDp_CFG_CLASS p) own, h.rd (f := HP_PRDp_CFG_INDEX p) own]
  rfl

end

section
variable {i : Nat} {d : Dev} (v : BitVec 32) (tf : Nat)

/-- A strobe word of a port without predictors reaches nothing. -/
theorem Dev.strobeWord_of_none (valid : Bool) (none : d.predsOf 0 i = []) : d.strobeWord 0 i v valid tf = d := by
  unfold Dev.strobeWord
  dsimp only
  rw [none]
  exact forList_keeps id _ _ fun t _ d => if_neg (by simp)

/-- A valid one reaches the port's one predictor; the steps that it reaches besides change no register but the status of their tasks. -/
theorem Dev.strobeWord_of_one {p : Nat} (one : d.predsOf 0 i = [p]) : (d.strobeWord 0 i v true tf).preds = (d.predTake p v tf).preds ∧
    ∀ a, (∀ t, a ≠ AHD_LTt_STAT t) → (d.strobeWord 0 i v true tf).reg a = (d.predTake p v tf).reg a := by
  unfold Dev.strobeWord
  dsimp only
  rw [one]
  refine ⟨forList_keeps (fun e : Dev => e.preds) _ _ fun t _ e => ?_, fun a off => forList_keeps (fun e : Dev => e.reg a) _ _ fun t _ e => ?_⟩
  · split
    · split
      · exact Dev.preds_setTask ..
      · rfl
    · rfl
  · split
    · split
      · exact Dev.reg_setTask_ne _ _ (off t)
      · rfl
    · rfl

end

section
variable {i tf : Nat} {w : SdWord} {ws : List (Nat × Option SdWord)} {d : Dev}

/-- The block once the oldest strobe word of input `i` is shown. -/
def Dev.strobeShown (i : Nat) (w : SdWord) (ws : List (Nat × Option SdWord)) (d : Dev) : Dev := d.sdShown i false { d.sdIn i with strobes := ws } w

theorem Dev.sdStrobeWord_of_due (strobes : (d.sdIn i).strobes = (tf, some w) :: ws) (due : w.due ≤ d.now) (past : tf + 1 ≤ d.now) :
    d.sdStrobeWord i = (d.strobeShown i w ws).strobeWord 0 i w.value (!w.bad) tf := by
  have shown : d.strobeShown i w ws =
    ((d.setSdIn i { d.sdIn i with strobes := ws }).setReg (HP_SDi_WORD i) w.value |>.sdOvlCount i w.ovl).portReady 1 i false := rfl
  unfold Dev.sdStrobeWord
  simp only [strobes]
  rw [if_neg (by omega), shown]

theorem Dev.predsOf_strobeShown (lt : i < 48) (cls j : Nat) : (d.strobeShown i w ws).predsOf cls j = d.predsOf cls j := by
  have bounds := sdPort_bounds i false
  exact (Dev.sdShown_kept ..).predsOf (fun p _ => by grind) cls j

theorem Dev.pred_strobeShown (p : Nat) : (d.strobeShown i w ws).pred p = d.pred p :=
  Dev.pred_of_beyondPorts (Dev.beyondPorts_sdShown ..) p

end

/-! ### Trips (R163, R172) -/

section
variable (code : Nat) (pay : List (BitVec 32)) (d : Dev)

/-- A posted event changes no register but those of the host link. -/
theorem Dev.reg_post {a : Nat} (off : a < 0x400B0000 ∨ 0x400C0000 ≤ a) : (d.post code pay).reg a = d.reg a := by
  unfold Dev.post
  split
  · exact d.reg_genEvent code pay off
  · split
    · exact d.reg_genEvent code pay off
    · rfl

theorem Dev.plain_post : (d.post code pay).plain = d.plain := congrArg Prod.fst (d.steady_post code pay)

end

section
variable {src i : Nat} {sel : Bool} {v : BitVec 32} {d e f : Dev}

/-- The links are seen in the isles alone. -/
theorem Linked.of_isles (linked : Linked src i sel v d e) (same : f.isles = e.isles) : Linked src i sel v d f := by
  obtain ⟨words, others⟩ := linked
  refine ⟨fun c lt => ?_, fun n => ?_⟩
  · rw [Dev.isle_of_isles same, words c lt]
  · rw [Dev.isle_of_isles same]
    exact others n

/-- The trip bank shows the TRIP flags. -/
theorem Dev.portValue_trips (j : Nat) (h : ∀ k, k < 48 → e.on (HP_SDi_STAT_TRIP k) = d.on (HP_SDi_STAT_TRIP k)) :
    e.portValue 6 j false = d.portValue 6 j false := by
  refine if_congr Iff.rfl (congrArg bitsWord (funext fun b => ?_)) rfl
  by_cases lt : 32 * j + b < 48
  · exact congrArg (decide (32 * j + b < 48) && ·) (h _ lt)
  · rw [decide_eq_false lt, Bool.false_and, Bool.false_and]

end

theorem Dev.regs_later (t : Nat) (e : HEv) (d : Dev) : (d.later t e).regs = d.regs := rfl
theorem Dev.isles_later (t : Nat) (e : HEv) (d : Dev) : (d.later t e).isles = d.isles := rfl

/-- The block once input `i` has counted its oldest trip. -/
def Dev.tripCounted (i : Nat) (ts : List Nat) (d : Dev) : Dev :=
  ((d.setSdIn i { d.sdIn i with trips := ts }).setFlag (HP_SDi_STAT_TRIP i)).inc (HP_SDi_CNT_TRIPC i)

/-- ... and noted its trip group. -/
def Dev.tripNoted (i : Nat) (ts : List Nat) (d : Dev) : Dev := (d.tripCounted i ts).setFlagBit PW_STAT_TRIPG (d.rd (HP_SDi_CMP_TGRP i))

/-- The block once the links carry the trip and the group's pairs are to be held. -/
def Dev.tripSent (i : Nat) (ts : List Nat) (d : Dev) : Dev :=
  ((d.tripNoted i ts).portReady 6 (i / 32) false).later (d.now + 1) (.trip (d.rd (HP_SDi_CMP_TGRP i)))

section
variable (i : Nat) (ts : List Nat) (d : Dev)

theorem Dev.hb_tripNoted : (d.tripNoted i ts).hb = (d.setSdIn i { d.sdIn i with trips := ts }).hb := by
  rw [Dev.tripNoted, Dev.hb_setFlagBit, Dev.tripCounted, Dev.inc_frame]
  rfl

theorem Dev.tripNoted_kept : RegsKept [HP_SDi_STAT i, HP_SDi_CNT i, PW_STAT] d (d.tripNoted i ts) :=
  (((RegsKept.of_regs (Dev.regs_setSdIn ..)).setFlag (by simp)).inc (by simp)).setFlagBit _ (by simp)

theorem Dev.isles_tripNoted : (d.tripNoted i ts).isles = d.isles := by
  rw [Dev.tripNoted, Dev.isles_setFlagBit, Dev.tripCounted, Dev.isles_inc, Dev.isles_setFlag, Dev.isles_setSdIn]

theorem Dev.rdBit_tripNoted : (d.tripNoted i ts).rdBit PW_STAT_TRIPG (d.rd (HP_SDi_CMP_TGRP i)) = true :=
  Dev.rdBit_setFlagBit_same _ _ _ (by simp) (by simp) (d.rd_lt _)

theorem Dev.on_trip_tripNoted : (d.tripNoted i ts).on (HP_SDi_STAT_TRIP i) = true := by
  rw [Dev.tripNoted, Dev.on_eq (Dev.rd_eq (Dev.reg_setFlagBit_ne _ _ _ (by grind))), Dev.tripCounted, Dev.on_eq (Dev.rd_eq (Dev.reg_inc_ne _ _ (by simp))),
    Dev.on_setFlag_same _ _ rfl (by simp)]

variable {d} in
theorem Dev.rd_tripc_tripNoted {k : Nat} (count : d.rd (HP_SDi_CNT_TRIPC i) = k) (room : k < 65535) :
    (d.tripNoted i ts).rd (HP_SDi_CNT_TRIPC i) = k + 1 := by
  have before : ((d.setSdIn i { d.sdIn i with trips := ts }).setFlag (HP_SDi_STAT_TRIP i)).rd (HP_SDi_CNT_TRIPC i) = k :=
    (Dev.rd_eq (Dev.reg_setFlag_ne _ _ (by simp))).trans count
  rw [Dev.tripNoted, Dev.rd_eq (Dev.reg_setFlagBit_ne _ _ _ (by grind)), Dev.tripCounted,
    Dev.rd_inc_same _ _ (by simp) (by simp) (by rw [before]; exact room), before]

theorem Dev.regs_tripSent : (d.tripSent i ts).regs = (d.tripNoted i ts).regs := by
  rw [Dev.tripSent, Dev.regs_later, Dev.regs_of_beyondIsles (Dev.beyondIsles_portReady ..)]

theorem Dev.hb_tripSent : (d.tripSent i ts).hb =
    { (d.setSdIn i { d.sdIn i with trips := ts }).hb with due := d.hb.due ++ [(d.now + 1, .trip (d.rd (HP_SDi_CMP_TGRP i)))] } := by
  rw [Dev.tripSent, Dev.later, Dev.hb_of_beyondIsles (Dev.beyondIsles_portReady ..), Dev.hb_tripNoted]
  rfl

variable {i} in
/-- The links carry the trip bank. -/
theorem Dev.linked_tripSent (lt : i < 48) : Linked 6 (i / 32) false ((d.tripNoted i ts).portValue 6 (i / 32) false) d (d.tripSent i ts) := by
  refine Linked.of_isles ?_ (Dev.isles_later ..)
  exact (Dev.linked_portReady ..).of_kept (Dev.isles_tripNoted ..) (Dev.tripNoted_kept ..) fun k _ => by grind

variable {i ts d}

/-- The trip is sent and the event PORT_TRIP is posted. -/
theorem Dev.sdTrip_of_due {t : Nat} (trips : (d.sdIn i).trips = t :: ts) (due : t ≤ d.now) : ∃ pay, d.sdTrip i = (d.tripSent i ts).post 0x40 pay := by
  have now : (d.tripCounted i ts).now = d.now := by
    rw [Dev.tripCounted, Dev.inc_frame]
    rfl
  have same : ((d.tripNoted i ts).portReady 6 (i / 32) false).later ((d.tripCounted i ts).now + 1) (.trip (d.rd (HP_SDi_CMP_TGRP i))) =
      d.tripSent i ts := by rw [now, ← Dev.tripSent]
  unfold Dev.sdTrip
  simp only [trips]
  rw [if_neg (by omega), ← Dev.tripCounted, ← Dev.tripNoted, same]
  exact ⟨_, rfl⟩

end

/-- Settles O29: a bit latch is the latched record with the comparator after it; words and trips are shown in the registers and on the links. -/
theorem sigmaDeltaInputs : Obligations.SigmaDeltaInputs := by
  unfold Obligations.SigmaDeltaInputs
  refine ⟨?_, ?_, ?_, ?_, ?_, ?_, ?_, ?_, ?_⟩
  · intro i b l d on last next stays cmp few
    refine On.of_onDev (Dev.sdBitLatch i b) (fun _ => rfl) ?_
    rw [Dev.sdBitLatch_of_next on last next stays, Dev.comparator_of_off _ _ (d.setSdIn i (d.sdLatched i l b)) cmp, Dev.sdIn_setSdIn_same]
    refine ⟨rfl, rfl, rfl, if_neg (by omega), if_neg (by omega), rfl, fun q ne => Dev.sdIn_setSdIn_ne _ _ _ ne, rfl⟩
  · intro i b l d on last next stays full
    refine On.of_onDev (Dev.sdBitLatch i b) (fun _ => rfl) ?_
    obtain ⟨regs, cnt, free⟩ := Dev.comparator_spec i l (d.setSdIn i (d.sdLatched i l b))
    rw [Dev.sdIn_setSdIn_same] at cnt free
    rw [Dev.sdBitLatch_of_next on last next stays, cnt, free, regs]
    exact ⟨if_pos full, if_pos full, rfl⟩
  · intro i b d off
    refine On.of_onDev (Dev.sdBitLatch i b) (fun _ => rfl) ?_
    exact Dev.sdBitLatch_of_off off
  · intro i b l d on cmp last next stays armed count high
    refine On.of_onDev (Dev.sdBitLatch i b) (fun _ => rfl) ?_
    have own : (d.setSdIn i (d.sdLatched i l b)).sdIn i = d.sdLatched i l b := Dev.sdIn_setSdIn_same ..
    rw [Dev.sdBitLatch_of_next on last next stays,
      Dev.comparator_of_high l (d := d.setSdIn i (d.sdLatched i l b)) cmp (by rw [own]; exact armed) (by rw [own]; exact count)
        (by rw [Dev.compared, own]; exact high)]
    have after (x : SdIn) (e : HEv) (c : Dev) : ((c.setSdIn i x).later (l + 3) e).sdIn i = x := Dev.sdIn_setSdIn_same ..
    rw [after, own]
    exact ⟨rfl, rfl, rfl, rfl, rfl⟩
  · intro i w ws k d free due count room noResolver noMains
    refine On.of_onDev (Dev.sdFreeWord i) (fun _ => rfl) ?_
    rw [Dev.sdFreeWord_of_none free due noResolver noMains]
    have own : (d.freeShown i w ws).sdIn i = d.sdFreed i w ws := (Dev.sdIn_sdShown ..).trans (Dev.sdIn_setSdIn_same ..)
    rw [own]
    exact ⟨Dev.reg_sdShown i true .., Dev.on_ovld_sdShown .., Dev.rd_ovlc_sdShown i true _ w count room, rfl, rfl, rfl, Dev.linked_sdShown true _ w d i.isLt,
      (Dev.sdShown_kept i true ..).1, Dev.eq_of_beyondPorts (Dev.beyondPorts_sdShown ..)⟩
  · intro i w ws n d free due pos one
    refine On.of_onDev (Dev.sdFreeWord i) (fun _ => rfl) ?_
    obtain ⟨length, latch, valid⟩ := Dev.phaseMeas_spec 3 (i - 1) 2 n (d.freeShown i w ws)
    have own : (d.freeShown i w ws).sdIn i = d.sdFreed i w ws := (Dev.sdIn_sdShown ..).trans (Dev.sdIn_setSdIn_same ..)
    have below : (d.freeShown i w ws).sdIn (i - 1) = d.sdIn (i - 1) := (Dev.sdIn_sdShown ..).trans (Dev.sdIn_setSdIn_ne _ _ _ (by omega))
    have last : i.val - 1 + 2 - 1 = i := by omega
    have pair : (List.range 2).map (i.val - 1 + ·) = [i.val - 1, i.val] := by
      have next : i.val - 1 + 1 = i := by omega
      simp [List.range_succ, next]
    rw [Dev.ad_eq (congrArg Angle.ad (Dev.ang_freeShown (d := d)))] at length
    rw [last, own] at latch
    rw [pair, List.all_cons, List.all_cons, List.all_nil, Bool.and_true, below, own] at valid
    rw [Dev.ad_sdFreeWord_of_resolver free due pos one]
    exact ⟨length, latch, valid⟩
  · intro i tf w ws d strobes due past good calm none
    refine On.of_onDev (Dev.sdStrobeWord i) (fun _ => rfl) ?_
    rw [Dev.sdStrobeWord_of_due strobes due past, Dev.strobeWord_of_none _ _ _ ((Dev.predsOf_strobeShown i.isLt ..).trans none)]
    have own : (d.strobeShown i w ws).sdIn i = { d.sdIn i with strobes := ws } := (Dev.sdIn_sdShown ..).trans (Dev.sdIn_setSdIn_same ..)
    rw [own]
    exact ⟨Dev.reg_sdShown i false .., (Dev.on_ovld_sdShown ..).trans calm, rfl, Dev.linked_sdShown false _ w d i.isLt,
      (Dev.sdShown_kept_of_calm i false _ w d calm).1, Dev.eq_of_beyondPorts (Dev.beyondPorts_sdShown ..)⟩
  · intro i tf w ws p d strobes due past good one first
    refine On.of_onDev (Dev.sdStrobeWord i) (fun _ => rfl) ?_
    have first' : ((d.strobeShown i w ws).pred p).got = false := by rw [Dev.pred_strobeShown, first]
    obtain ⟨preds, regs⟩ := Dev.strobeWord_of_one w.value tf ((Dev.predsOf_strobeShown (d := d) (w := w) (ws := ws) i.isLt 0 i).trans one)
    rw [Dev.predTake_of_first _ _ first', Dev.pred_strobeShown] at preds regs
    rw [Dev.sdStrobeWord_of_due strobes due past, good]
    refine ⟨?_, ?_, ?_⟩
    · exact (congrArg (fun t => tget Pred.reset t p) preds).trans (Dev.pred_setPred_same ..)
    · exact (regs _ fun t => by grind).trans (Dev.reg_last_setPred ..)
    · exact (regs _ fun t => by grind).trans ((Dev.reg_setPred_ne _ _ (by grind)).trans (Dev.reg_sdShown i false ..))
  · intro i t ts g k d trips due group count room
    refine On.of_onDev (Dev.sdTrip i) (fun _ => rfl) ?_
    obtain ⟨pay, sent⟩ := Dev.sdTrip_of_due trips due
    have kept := Dev.plain_post 0x40 pay (d.tripSent i ts)
    have hb := (Dev.hb_of_plain kept).trans (Dev.hb_tripSent ..)
    have rd (f : Fld) (off : f.addr < 0x400B0000) : ((d.tripSent i ts).post 0x40 pay).rd f = (d.tripNoted i ts).rd f :=
      (Dev.rd_eq (Dev.reg_post _ _ _ (.inl off))).trans (Dev.rd_of_regs (Dev.regs_tripSent ..) f)
    have bank : ((d.tripSent i ts).post 0x40 pay).portValue 6 (i / 32) false = (d.tripNoted i ts).portValue 6 (i / 32) false :=
      Dev.portValue_trips _ fun j _ => Dev.on_eq (rd _ (by grind))
    rw [sent, bank]
    refine ⟨?_, ?_, ?_, ?_, ?_, ?_, ?_⟩
    · rw [Dev.on_eq (rd _ (by grind)), Dev.on_trip_tripNoted]
    · rw [rd _ (by grind), Dev.rd_tripc_tripNoted _ _ count room]
    · rw [← group, Dev.rdBit, rd _ (by decide)]
      exact d.rdBit_tripNoted i ts
    · have own : ((d.tripSent i ts).post 0x40 pay).sdIn i = { d.sdIn i with trips := ts } := by
        rw [Dev.sdIn, hb]
        exact Dev.sdIn_setSdIn_same ..
      rw [own]
    · rw [hb, group]
    · exact (Dev.linked_tripSent ts d i.isLt).of_isles (Dev.isles_of_plain kept)
    · rw [hb]
      rfl

end Sys2Proof.Machine
